-- ==== Sys2Proof/Word.lean ====
section
/-! DEFINITION. Word types of the DPS-7840 (00_scope.md R6: registers are 32 bits, multi-byte fields little-endian). -/

namespace Sys2Proof

/-- One byte of a register, image, record or frame. -/
abbrev Byte := BitVec 8

/-- A 32-bit register (R6). -/
abbrev Word := BitVec 32

/-- A 64-bit value register V0 to V31 of the block engine (R187). -/
abbrev DWord := BitVec 64

end Sys2Proof
end

