-- ==== Sys2Proof/Syntax.lean ====
section
/-! DEFINITION. The commands of the DPS-7840: one constructor per row of spec/opcode_table.json, and the operand types they carry.
What a row's environment supplies (a register value, a measured voltage, a received frame) is an operand.
The mailbox rows carry the partition alone: they serve the command that its doorbell copied into the module (R58). -/

namespace Sys2Proof

/-- The two controller lanes (R19). -/
inductive LaneId where
  | a | b
  deriving DecidableEq, Repr

/-- The bus of a partition's binding (WIN_ID.TRANSPORT, R54). -/
inductive Bus where
  | pcie | thl
  deriving DecidableEq, Repr

/-- Host partition H0 to H7. -/
abbrev Part := Fin 8
/-- Island number of R108. -/
abbrev Isl := Fin 7
/-- Value register number V0 to V31 (R187). -/
abbrev VReg := Fin 32
/-- Address register number A0 to A7 (R187). -/
abbrev AReg := Fin 8

/-- The block engine's data types by their TY code (R186). -/
inductive Ty where
  | bool | int | dint | lint | real | lreal | time
  deriving DecidableEq, Repr

/-- What one DIO channel's input stage measures around an edge (R347, R349, R350, R351). -/
structure DioSample where
  /-- terminal voltage at the latch, in mV -/
  mv : Int := 0
  /-- sink current at the latch, in µA -/
  sinkUa : Nat := 0
  /-- the current limit acts at the read-back latch -/
  limit : Bool := false
  /-- switch temperature in 0.1 °C -/
  temp : Int := 250
  /-- terminal voltage under the open-load test current, in mV -/
  testMv : Int := 0
  deriving DecidableEq, Repr

/-- What one AI channel measures at the aperture (R362, R364). -/
structure AiSample where
  /-- loop current in nA -/
  na : Int := 0
  /-- V_t in mV -/
  txMv : Int := 0
  /-- the 32 mA supply limit acts -/
  limit : Bool := false
  deriving DecidableEq, Repr

/-- What one AO channel measures at E − 2 µs (R368). -/
structure AoSample where
  /-- measured output in µA or µV -/
  achieved : Int := 0
  /-- terminal voltage in 10 mV -/
  loadV : Int := 0
  /-- the stage stands at 22.0 V -/
  full : Bool := false
  /-- the 25 mA limit of VOLTAGE mode acts -/
  limit : Bool := false
  deriving DecidableEq, Repr

/-- What an island's front end sees at an edge (R131). -/
inductive FieldSample where
  | dio (ch : List DioSample) (groupMa : List Nat) (temp : Int)
  | ai (ch : List AiSample) (temp : Int)
  | ao (ch : List AoSample) (temp : Int)
  | mx (wire : List Bool) (line : List Bool) (temp : Int)
  | sk
  deriving DecidableEq, Repr

/-- How a host's register write arrives (R51, R60): the lane whose window it comes through, and its time in ns after the latest edge. -/
structure Arrival where
  lane : LaneId
  ns : Nat
  deriving DecidableEq, Repr

/-- A field supply monitored by an island (R490). -/
inductive FieldSupply where
  | dioGroup (dio2 : Bool) (group : Fin 4)
  | ai1 | ai2 | ao1 | mx1 | sk1
  deriving DecidableEq, Repr

/-- Where an uncorrectable memory error was found (R174). -/
inductive EccSite where
  /-- an INST or CONST word, by image address -/
  | image (addr : Nat)
  /-- a code word, by offset in CODE -/
  | code (offset : Nat)
  deriving DecidableEq, Repr

/-- What the scrubber finds in a word of the instance store (R173, R174). -/
inductive ScrubResult where
  | clean | corrected | uncorrectable
  deriving DecidableEq, Repr

/-- The heartbeat word of R266, less its CRC. -/
structure HbWord where
  tick : Nat := 0
  lane : LaneId := .a
  role : Nat := 0
  health : Nat := 0
  hflags : Nat := 0
  endsTick : Nat := 0
  snapLen : Nat := 0
  snapCrc : Nat := 0
  fw : Nat := 0
  deriving DecidableEq, Repr

/-- What PATH_FAULT reports (R268, R269): a path that reaches 2 misses, one group of flashes as the receiver measures it (start
and width in µs), or a restored path. -/
inductive PathFaultKind where
  | bridge | beacon
  | group (flashes : List (Nat × Nat))
  | restored
  deriving DecidableEq, Repr

/-- One piece of a snapshot (R277): a class-1 range of an instance, a loop, a chain, or the flow and CAN parts. -/
inductive SnapPiece where
  | inst (number : Nat)
  | loop (n : Fin 128)
  | chain (n : Fin 16)
  | flow (n : Fin 256)
  | can (port : Fin 8)
  deriving DecidableEq, Repr

/-- A flow frame as the network unit sees it after the frame check (R303). -/
structure FlowFrame where
  station : Nat
  flowId : Nat
  seq : Nat
  tickNumber : Nat
  launchTime : Nat
  qmask : Nat
  fflags : Nat
  payload : List Byte
  /-- the PRP trailer, when present: the source's PRP sequence number -/
  prp : Option Nat := none
  /-- source MAC address, the key of PRP discard -/
  src : Nat := 0
  deriving DecidableEq, Repr

/-- An Announce message's data set, in the order in which best master selection compares it (R296). -/
structure Announce where
  priority1 : Nat
  clockClass : Nat
  accuracy : Nat
  variance : Nat
  priority2 : Nat
  identity : Nat
  steps : Nat
  domain : Nat
  deriving DecidableEq, Repr

/-- A message of the path-delay measurement (R296), with the delay that a response yields, in ns. -/
inductive PtpDelay where
  | delayReq | delayResp (ns : Nat) | peerReq | peerResp (ns : Nat)
  deriving DecidableEq, Repr

/-- How a frame reached a lane: the port, its source's MAC address, the sequence of its PRP trailer, when present (R293), and
whether its frame check held (R317). -/
structure Rx where
  portB : Bool := false
  src : Nat := 0
  prp : Option Nat := none
  fcs : Bool := true
  deriving DecidableEq, Repr

/-- How a tagged frame stood at a port: its frame check, EtherType and VLAN (R303, R304). -/
structure Tagged where
  portB : Bool := false
  fcs : Bool := true
  etherType : Nat
  vlan : Nat := 0
  deriving DecidableEq, Repr

/-- Where an IEC 61162-450 datagram was sent: the multicast group's MAC, the UDP port, and whether it is an UdPbC datagram and no other
message type (R312). -/
structure Datagram450 where
  mac : List Byte
  port : Nat
  udpbc : Bool := true
  deriving DecidableEq, Repr

/-- ARP and ICMP frames that a port may answer (R313, R315). -/
inductive ArpIcmp where
  /-- an ARP request for an address -/
  | arpRequest (ip : Word)
  /-- an ARP reply or probe that claims an address (a conflict for a bootstrap candidate) -/
  | arpClaim (ip : Word)
  | echo (ip : Word)
  deriving DecidableEq, Repr

/-- A CAN frame (R325): identifier word (IDE, FDF, BRS), DLC, flags and data. -/
structure CanFrame where
  ide : Bool := false
  fdf : Bool := false
  brs : Bool := false
  esi : Bool := false
  rtr : Bool := false
  ident : Nat
  dlc : Nat
  data : List Byte
  deriving DecidableEq, Repr

/-- Bus errors and observations that move a CAN port's error state (R334, R343). -/
inductive CanErr where
  /-- the controller transmitted and met an error: TEC rises by 8 -/
  | tx
  /-- the controller received and met an error: REC rises by the ISO step 1 or 8 -/
  | rx (step8 : Bool)
  /-- arbitration lost -/
  | arbitration
  | protocolException
  | tdcOutside
  /-- a failed confirmation of a service port's rate -/
  | rateFailed
  deriving DecidableEq, Repr

/-- Wake sources of Dark (R443, R451). -/
inductive WakeSource where
  | alarm1 | alarm2 | pair (p : Fin 8) | key
  deriving DecidableEq, Repr

/-- Blocks of the gating tree (R441). -/
inductive GateBlock where
  | laneRoot | processor | blockEngine | loopEngine | networkUnit
  | cachePart (n : Fin 32)
  | canBlock
  | cf (n : Fin 8)
  | hostLink
  deriving DecidableEq, Repr

/-- The identity chip of a cartridge (R496, R499). -/
structure CartId where
  valid : Bool
  cap : Nat
  esr : Nat
  serial : Nat
  typ : Nat
  date : Nat
  hours : List Nat
  discharges : Nat
  deriving DecidableEq, Repr

/-- What the slow domain measures when an access reaches its register: SUBSEC (R480), the bank and feed voltages in mV (R496),
the lines of a running panel pass whose write has started (R507). -/
structure SlowSample where
  cycles : Nat := 0
  phase : Nat := 0
  bankMv : Nat := 0
  feedAMv : Nat := 0
  feedBMv : Nat := 0
  started : Nat := 0
  deriving DecidableEq, Repr

/-- What one safety processor delivers at a cycle end (R383, R384, R389): commands, payloads, published bytes, the states of its pairs
as R401 codes them, and the digest of its program state. -/
structure SkResult where
  soCmd : List Bool
  connOut : List (Bool × List Byte)
  statusOut : List Byte
  pairs : List Nat := []
  digest : Nat := 0
  deriving DecidableEq, Repr

/-- The commands: the rows of spec/opcode_table.json, in its order. -/
inductive Instr where
  -- window (02)
  | registerWrite (p : Part) (slow : Bool) (addr size : Nat) (data : DWord) (via : Arrival)
  | winCtrlAttach (p : Part) (bus : Bus) (lane : LaneId) (data : Word)
  | winCtrlDetach (p : Part) (data : Word)
  | detachComplete (p : Part)
  | evStatusClear (p : Part) (data : Word)
  | evIndexWrite (p : Part) (data : Word)
  | latTolWrite (p : Part) (data : Word)
  | mbDoorbell (p : Part) (data : Word)
  | wideSelWrite (p : Part) (data : Word) (via : Arrival)
  | wideCaptureDone (p : Part)
  | wideD3Read (p : Part)
  | slowReadStart (p : Part) (data : Word)
  | slowWritePost (p : Part) (data : Word)
  | slowAccessDone (p : Part) (x : SlowSample) (cycle : List (Part × SlowSample))
  -- mailbox commands (03, 04, 07, 08, 11, 18, 20)
  | attach (p : Part)
  | sessionOpen (p : Part)
  | sessionClose (p : Part)
  | lockAcquire (p : Part)
  | lockRelease (p : Part)
  | eventSubscribe (p : Part)
  | eventRead (p : Part)
  | statusGet (p : Part)
  | configBegin (p : Part)
  | configChunk (p : Part)
  | configCommit (p : Part)
  | configAbort (p : Part)
  | start (p : Part)
  | stop (p : Part)
  | endsChange (p : Part)
  | safeShutdown (p : Part)
  | valuePatch (p : Part)
  | loopMode (p : Part)
  | loopParam (p : Part)
  | imageRead (p : Part)
  | recorderRead (p : Part)
  | recorderClear (p : Part)
  | flowStats (p : Part)
  | retainedRead (p : Part)
  -- bulk transfers, links and THL (03)
  | bulkBoundary
  | dmaCompletion (p : Part) (urgent ok : Bool) (status : Word) (data : List Byte)
  | dmaCompletionTimeout (p : Part) (urgent : Bool)
  | hostLinkLost (p : Part)
  | linkGraceExpired (p : Part)
  | sessionIdleTimeout (p : Part)
  | authLockoutEnd
  | thlHello (p : Part) (rx : Rx) (lane : LaneId) (nonce : List Byte)
  | thlRegRead (p : Part) (rx : Rx) (sess seq addr : Nat) (tag : List Byte)
  | thlRegWrite (p : Part) (rx : Rx) (sess seq addr : Nat) (data : Word) (tag : List Byte) (dt : Nat)
  | thlData (p : Part) (rx : Rx) (sess seq cmdSeq offset : Nat) (data tag : List Byte)
  | thlAck (p : Part) (rx : Rx) (sess seq cmdSeq offset : Nat) (tag : List Byte)
  | thlStalled (p : Part) (urgent : Bool)
  -- start-up (04)
  | logicPowerGood (l : LaneId) (cid : BitVec 4) (feedMv : Nat) (mac : Nat) (map : Option (List (Nat × Fin 4)))
  | windowUp (l : LaneId) (fw : Nat)
  | clockQualification (l : LaneId) (tcxo rc : Nat)
  | thlBootstrapStart (l : LaneId) (conflict : Bool)
  | rolesStep (l : LaneId)
  | roleWaitTimeout
  | startupComplete (l : LaneId)
  | startupStepFail (l : LaneId) (step code : Nat)
  -- the tick (01, 05)
  | tickEdge (skewNs : Int)
  | configApply
  | commitConfirm
  | commitConfirmTimeout
  | inputSwap (l : LaneId)
  | mx1Swap (l : LaneId)
  | beWindowClose (l : LaneId)
  | outputCutoff (l : LaneId) (leLate : Option (Fin 128))
  | islandEdge (isl : Isl) (sample : FieldSample)
  | edgeMarker (isl : Isl) (l : LaneId) (correctionNs : Nat)
  | islandInputFrame (isl : Isl) (l : LaneId) (crcOk : Bool)
  | islandOutputFrame (isl : Isl) (l : LaneId) (crcOk late : Bool)
  | islandWatchdogExpired (isl : Isl)
  -- tokens (10)
  | tokenRequest (l : LaneId)
  | tokenRequestRetry (l : LaneId)
  | tokenReply (l : LaneId)
  | grantRecord (isl : Isl) (l : LaneId) (record : List Byte)
  | releaseWord (isl : Isl) (l : LaneId)
  -- task faults (06)
  | shotClockExpired (l : LaneId)
  | uncorrectableError (l : LaneId) (site : EccSite)
  -- block engine (07): slot A's operation with slot B's word beside it
  | beNop (l : LaneId) (b : Word)
  | beMov (l : LaneId) (ty : Ty) (d s1 : VReg) (b : Word)
  | beMovi (l : LaneId) (ty : Ty) (d : VReg) (imm : BitVec 11) (b : Word)
  | beLd (l : LaneId) (ty : Ty) (v : VReg) (a : AReg) (disp : BitVec 13) (ecc : Bool) (b : Word)
  | beSt (l : LaneId) (ty : Ty) (v : VReg) (a : AReg) (disp : BitVec 13) (b : Word)
  | beLda (l : LaneId) (d a : AReg) (disp : BitVec 13) (b : Word)
  | beIdxc (l : LaneId) (scale : Fin 4) (d a : AReg) (v : VReg) (boundM1 : BitVec 10) (b : Word)
  | beItpl (l : LaneId) (a : AReg) (count : BitVec 13) (b : Word)
  | beAdd (l : LaneId) (ty : Ty) (d s1 s2 : VReg) (b : Word)
  | beSub (l : LaneId) (ty : Ty) (d s1 s2 : VReg) (b : Word)
  | beAdds (l : LaneId) (ty : Ty) (d s1 s2 : VReg) (b : Word)
  | beSubs (l : LaneId) (ty : Ty) (d s1 s2 : VReg) (b : Word)
  | beMul (l : LaneId) (ty : Ty) (d s1 s2 : VReg) (b : Word)
  | beDiv (l : LaneId) (ty : Ty) (d s1 s2 : VReg) (b : Word)
  | beMod (l : LaneId) (ty : Ty) (d s1 s2 : VReg) (b : Word)
  | beNeg (l : LaneId) (ty : Ty) (d s1 : VReg) (b : Word)
  | beAbs (l : LaneId) (ty : Ty) (d s1 : VReg) (b : Word)
  | beMin (l : LaneId) (ty : Ty) (d s1 s2 : VReg) (b : Word)
  | beMax (l : LaneId) (ty : Ty) (d s1 s2 : VReg) (b : Word)
  | beSqrt (l : LaneId) (ty : Ty) (d s1 : VReg) (b : Word)
  | beCvt (l : LaneId) (ty : Ty) (d s1 : VReg) (src : Ty) (b : Word)
  | beAnd (l : LaneId) (ty : Ty) (d s1 s2 : VReg) (b : Word)
  | beOr (l : LaneId) (ty : Ty) (d s1 s2 : VReg) (b : Word)
  | beXor (l : LaneId) (ty : Ty) (d s1 s2 : VReg) (b : Word)
  | beNot (l : LaneId) (ty : Ty) (d s1 : VReg) (b : Word)
  | beShl (l : LaneId) (ty : Ty) (d s1 : VReg) (imm : BitVec 11) (b : Word)
  | beShr (l : LaneId) (ty : Ty) (d s1 : VReg) (imm : BitVec 11) (b : Word)
  | beCeq (l : LaneId) (ty : Ty) (d s1 s2 : VReg) (b : Word)
  | beCne (l : LaneId) (ty : Ty) (d s1 s2 : VReg) (b : Word)
  | beClt (l : LaneId) (ty : Ty) (d s1 s2 : VReg) (b : Word)
  | beCle (l : LaneId) (ty : Ty) (d s1 s2 : VReg) (b : Word)
  | beSel (l : LaneId) (ty : Ty) (d s1 s2 : VReg) (b : Word)
  | beBra (l : LaneId) (off : BitVec 16) (b : Word)
  | beBrz (l : LaneId) (v : VReg) (off : BitVec 16) (b : Word)
  | beBrnz (l : LaneId) (v : VReg) (off : BitVec 16) (b : Word)
  | beLoop (l : LaneId) (v : VReg) (bound : BitVec 16) (b : Word)
  | beEndl (l : LaneId) (b : Word)
  | beCallb (l : LaneId) (a : AReg) (typeNo : BitVec 12) (b : Word)
  | beRetb (l : LaneId) (b : Word)
  | beEnd (l : LaneId) (b : Word)
  -- loops and chains (08, 09)
  | loopQbadExpired (l : LaneId) (n : Fin 128)
  | loopFeExpired (l : LaneId) (n : Fin 128)
  | chainStaleExpired (l : LaneId) (n : Fin 16)
  | chainHoldExpired (l : LaneId) (n : Fin 16)
  | chainFadeEnd (l : LaneId) (n : Fin 16)
  | chainSettleEnd (l : LaneId) (n : Fin 16)
  -- redundancy (10)
  | heartbeatWord (l : LaneId) (w : HbWord) (crcOk : Bool)
  | beaconExtinguish (l : LaneId)
  | partnerFailureDeclared (l : LaneId)
  | pathFault (l : LaneId) (kind : PathFaultKind)
  | takeoverTick (l : LaneId)
  | snapshotPiece (l : LaneId) (tick : Nat) (piece : SnapPiece)
  | snapshotDiscard (l : LaneId)
  | endsIntervalDue
  | endsDeferredStart
  | endsSwapEdge
  | selfCheckFail
  | reintStart (l : LaneId)
  | reintCopyClosed (l : LaneId)
  | reintCopyTimeout (l : LaneId)
  | reintRetryDue (l : LaneId)
  | reintStandby (l : LaneId)
  -- network (11)
  | flowLaunch (l : LaneId) (n : Fin 256) (now : Word)
  | flowFrameReceived (l : LaneId) (w : Tagged) (f : FlowFrame)
  | flowDown (l : LaneId) (n : Fin 256)
  | udpbcDatagram (l : LaneId) (rx : Rx) (g : Datagram450) (dt : Nat) (sentences : List (List Byte))
  | ptpSync (l : LaneId) (portB udp : Bool) (identity domain : Nat) (offsetNs : Int)
  | ptpAnnounce (l : LaneId) (portB udp : Bool) (m : Announce)
  | ptpDelayMessage (l : LaneId) (portB udp : Bool) (m : PtpDelay)
  | announceTimeout (l : LaneId)
  | holdoverExpired (l : LaneId)
  | prpSupervisionSend (l : LaneId)
  | arpIcmpFrame (l : LaneId) (rx : Rx) (f : ArpIcmp)
  | phyLinkChange (l : LaneId) (portB up : Bool)
  -- CAN (12)
  | canFrameReceived (l : LaneId) (port : Fin 10) (f : CanFrame) (dt : Nat)
  | canFrameTxDone (l : LaneId) (port : Fin 10)
  | canError (l : LaneId) (port : Fin 10) (e : CanErr)
  | canBusoffRecovered (l : LaneId) (port : Fin 10)
  | canSleepRequest (l : LaneId) (port : Fin 10)
  | canWakeRequest (l : LaneId) (port : Fin 10)
  | canRecoverRequest (l : LaneId) (port : Fin 10)
  | canBusWake (l : LaneId) (port : Fin 10) (f : Option CanFrame)
  | scRateDetected (port : Fin 2) (rate : Fin 12)
  | scNoTraffic (port : Fin 2)
  -- field (13, 14)
  | dioOverload (dio2 : Bool) (ch : Fin 32)
  | dioAutoRetry (dio2 : Bool) (ch : Fin 32) (temp : Int)
  | dioGroupTrip (dio2 : Bool) (g : Fin 4)
  | fieldSupplyLow (f : FieldSupply)
  | fieldSupplyRestored (f : FieldSupply)
  | aiSupplyRetry (ai2 : Bool) (ch : Fin 16)
  | encoderZEdge (n : Fin 8)
  | rs422Sentence (port : Fin 4) (text : List Byte) (framingError : Bool) (dt : Nat)
  | rs422TxDone (port : Fin 4)
  -- SK-1 (15, 16)
  | skCycleStart
  | skCycleEnd (x y : Option SkResult) (dt : Nat)
  | skKernelFault (code : Nat)
  | skSelftestDone (ok : Bool) (code : Nat)
  | skImageForwarded
  | skVerifyDone (execOk : Bool)
  | skPeriodicSelftest (ok : Bool) (code : Nat)
  | testSourceOverload (k : Fin 4)
  | testSourceRetry (k : Fin 4)
  | discTimerExpired (p : Fin 8)
  | proofTestExpired (p : Fin 8)
  | proofIntervalReached (p : Fin 8)
  | offPulse (o : Fin 8) (skY : Bool) (readbackMv : Int)
  | laneWatchdogExpired
  | connTimeExpired (c : Fin 64)
  -- clocks and power (17)
  | tcxoFailure (l : LaneId) (count : Option Nat)
  | rcFault (l : LaneId) (count : Nat) (partner : Option Nat)
  | rcQualified (l : LaneId) (count : Nat)
  | rcQualTimeout (l : LaneId)
  | tcxoReturn (l : LaneId)
  | voltageStepDone (l : LaneId)
  | gateBusyTimeout (l : LaneId) (block : GateBlock)
  | powerDwellExpired
  | darkWake (w : WakeSource)
  | clkoutSelWrite (p : Part) (outB : Bool) (data : Word)
  | clkoutStatusClear (p : Part) (data : Word)
  -- recorder and retained data (18)
  | recordArrival
  | floodWindowEnd
  | optimeStep (ns : Nat)
  | timeAnchorDue
  | retainPeriodDue
  | bankWriteDone
  | serviceDomainLost
  | serviceDomainReturned
  -- RTC (19)
  | rtcTimeRead (p : Part) (sub : Bool) (cycles phase : Nat)
  | rtcDateRead (p : Part)
  | rtcCommit (p : Part) (data : Word)
  | rtcStatusClear (p : Part) (data : Word)
  | rtcAlarmWrite (p : Part) (alarm2 date : Bool) (data : Word)
  | rtcTrimWrite (p : Part) (data : Word)
  | rtcSecond
  -- supplies (20)
  | laneFeedLost (l : LaneId) (feedMv : Nat)
  | laneFeedRestored (l : LaneId) (feedMv : Nat)
  | powerFailure (bankMv feedAMv feedBMv : Nat)
  | rideThroughEnd
  | holdupOff
  | cartInserted (id : CartId) (bankMv : Nat)
  | cartRemoved
  | cartMeasNow (p : Part) (data : Word)
  | cartMeasDue (bankMv : Nat)
  | cartMeasDone (stepMv dischargeMs : Nat)
  | cartHour (tempC : Int)
  | cartStatusClear (p : Part) (data : Word)
  -- panel (21)
  | pnlShowWrite (p : Part) (data : Word)
  | pnlLineWrite (p : Part) (data : Word)
  | pnlDataWrite (p : Part) (data : Word)
  | pnlCommit (p : Part) (data : Word) (started : Nat)
  | pnlStatusClear (p : Part) (data : Word)
  | panelFrame (temp : Int) (station : List (Fin 240 × List Word))
  | panelPassDone
  | panelIdle
  | panelKey
  -- rows that stand at the table's end
  | safetyInputSample (us : Nat) (mv : List Int)
  | testSourcePulse (k : Fin 4) (high backfeed : Bool)
  | safetyOutputReadback (o : Fin 8) (mv supplyMv : Int) (limit : Bool)
  | encoderEdge (n : Fin 8) (a b : Bool) (dt : Nat) (tooFast : Bool)
  | ssiFrameComplete (n : Fin 8) (ready : Bool) (bits : List Bool) (monoflop : Bool)
  | lockstepMismatch (l : LaneId)
  | scrubberRead (l : LaneId) (addr : Nat) (r : ScrubResult)
  | prpSupervisionFrame (l : LaneId) (portB : Bool) (node : Nat)
  | prpSupervisionLost (l : LaneId) (portB : Bool) (node : Nat)
  | partnerBeaconLost (l : LaneId)
  | analogueCalibrationDone (fails : List (Fin 3 × Fin 16))
  | bayEmptyRepeat
  deriving DecidableEq, Repr

end Sys2Proof
end

