-- ==== Sys2Proof/Config.lean ====
section
/-! DEFINITION. What the spec leaves open: free values without a body. No proof can see what any of them is, so a claim
holds whatever it is. Each is named in a log entry (notes/assumptions). The counter argument makes a fresh value each time. -/

namespace Sys2Proof.Config

/-- The tick option on whose grid the module runs before a configuration is accepted (log entry 9). -/
opaque bootTickIndex : Fin 7
/-- Nonce words of the module: SESSION_OPEN phase 1 (R88), THL HELLO (R102), fresh by the counter (log entry 10). -/
opaque nonceByte : Nat → Nat → BitVec 8
/-- SEVERITY of a record whose chapter states none (R458, log entry 11). -/
opaque severity : Nat → Nat → Nat
/-- The bytes of a THL message over which its tag is computed: partition, session, sequence, kind and content
(R101 gives no layout, log entry 12). -/
opaque thlMessage : (part sess seq kind : Nat) → List (BitVec 8) → List (BitVec 8)
/-- The order in which HKDF takes the host and module nonces, and its info string (R102, log entry 12). -/
opaque thlSalt : List (BitVec 8) → List (BitVec 8) → List (BitVec 8)
opaque thlInfo : List (BitVec 8)
/-- SOURCE and CODE of an event or record that a rule orders without naming them, by the kind of occurrence
(Machine/Ops.lean, Unnamed; log entry 14). -/
opaque unnamedSource : Nat → Nat
opaque unnamedCode : Nat → Nat
/-- Coding of a payload item that a rule orders without giving its codes: item, value (log entry 14). -/
opaque payloadCode : Nat → Nat → BitVec 8
/-- A value that the spec leaves open, fresh by the counter (used where a rule names no value; log entry 13). -/
opaque freeNat : Nat → Nat
/-- DATA of an event whose chapter gives DATA no meaning (19 RTC, 20 supplies, 21 panel): source, code, tick (log entry 14). -/
opaque openData : (src code tick : Nat) → Nat
/-- Sign and payload of a NaN result: operation, operands (R191 says a quiet NaN and no more; log entry 16). -/
opaque nanBits : (op a b : Nat) → Nat
/-- The quotient of the most negative number by -1, which R190 does not state, by type code (log entry 17). -/
opaque divOverflow : Nat → BitVec 64
/-- Gains of the clock servo for a Sync interval of 2^-n s: proportional and integral change of INCREMENT, in 2⁻³² ns, for an
offset of 65 536 ns. R300 gives what they must achieve and no value (log entry 125). -/
opaque servoGain : (n : Nat) → Nat × Nat

end Sys2Proof.Config
end

