-- ==== Sys2Proof/Machine/Bytes.lean ====
section
/-! DEFINITION. Byte order, bit fields, sparse tables and sparse byte memory.
Multi-byte fields are little-endian (00_scope.md R6). -/

namespace Sys2Proof.Machine

/-- A little-endian byte string as a number (R6). -/
def leNat : List Byte → Nat
  | [] => 0
  | b :: r => b.toNat + 256 * leNat r

/-- The low `k` bytes of `n`, least significant first (R6). -/
def leBytes (n : Nat) : Nat → List Byte
  | 0 => []
  | k + 1 => BitVec.ofNat 8 n :: leBytes (n / 256) k

/-- A big-endian byte string as a number (hash words, keys). -/
def beNat (bs : List Byte) : Nat := bs.foldl (fun a b => a * 256 + b.toNat) 0

/-- The low `k` bytes of `n`, most significant first. -/
def beBytes (n k : Nat) : List Byte := (leBytes n k).reverse

/-- The unsigned little-endian field of `n` bytes at `off`; bytes past the end count as 0. -/
def rdU (bs : List Byte) (off n : Nat) : Nat := leNat ((bs.drop off).take n)

/-- Two's complement reading of the low `w` bits of `n`. -/
def signed (w n : Nat) : Int :=
  let m := n % 2 ^ w
  if m < 2 ^ (w - 1) then (m : Int) else (m : Int) - (2 ^ w : Nat)

/-- Two's complement encoding of `i` on `w` bits. -/
def unsigned (w : Nat) (i : Int) : Nat := (i % ((2 ^ w : Nat) : Int)).toNat

/-- The signed little-endian field of `n` bytes at `off`. -/
def rdI (bs : List Byte) (off n : Nat) : Int := signed (8 * n) (rdU bs off n)

/-- Signed 32-bit difference of two tick numbers or short times (R11, R37). -/
def diff32 (a b : Nat) : Int := signed 32 (a + (2 ^ 32 - b % 2 ^ 32))

/-- Signed 16-bit difference of EPOCH values (R271). -/
def diff16 (a b : Nat) : Int := signed 16 (a + (2 ^ 16 - b % 2 ^ 16))

/-- Bits `lo` to `lo + w - 1` of `n`. -/
def fld (n lo w : Nat) : Nat := n / 2 ^ lo % 2 ^ w

/-- Bit `i` of `n`. -/
def bit (n i : Nat) : Bool := n / 2 ^ i % 2 == 1

def b2n (b : Bool) : Nat := if b then 1 else 0

/-- A mask from its bits, bit 0 first. -/
def maskOf : List Bool → Nat
  | [] => 0
  | b :: r => b2n b + 2 * maskOf r

/-- `bs` with `v` written over its bytes from `off` on; nothing grows. -/
def overwrite (bs : List Byte) (off : Nat) (v : List Byte) : List Byte :=
  bs.take off ++ v.take (bs.length - off) ++ bs.drop (off + v.length)

/-- `bs` cut or NUL-padded to `n` bytes. -/
def padTo (n : Nat) (bs : List Byte) : List Byte := (bs ++ List.replicate n 0).take n

def zeros (n : Nat) : List Byte := List.replicate n 0

/-- The bytes of a list of 32-bit words, each little-endian. -/
def wordBytes (ws : List Word) : List Byte := ws.flatMap fun w => leBytes w.toNat 4

/-- The first position of a list that meets `f`. -/
def findPos {α : Type} (f : α → Bool) : List α → Nat → Option Nat
  | [], _ => none
  | a :: r, i => if f a then some i else findPos f r (i + 1)

/-- Saturation of an exact value to a range (R223, R256). -/
def clampI (lo hi v : Int) : Int := if v < lo then lo else if hi < v then hi else v

/-- A table keyed by numbers, keys rising, holding only what has been set. -/
abbrev Tab (α : Type) := List (Nat × α)

/-- The entry of `i`, or `d` when none was set. -/
def Tab.get {α : Type} (t : Tab α) (i : Nat) (d : α) : α :=
  match t with
  | [] => d
  | (k, v) :: r => if k = i then v else Tab.get r i d

def Tab.get? {α : Type} (t : Tab α) (i : Nat) : Option α :=
  match t with
  | [] => none
  | (k, v) :: r => if k = i then some v else Tab.get? r i

/-- `t` with the entry of `i` set to `v`. -/
def Tab.set {α : Type} (t : Tab α) (i : Nat) (v : α) : Tab α :=
  match t with
  | [] => [(i, v)]
  | (k, w) :: r => if k = i then (i, v) :: r else if i < k then (i, v) :: (k, w) :: r else (k, w) :: Tab.set r i v

def Tab.erase {α : Type} (t : Tab α) (i : Nat) : Tab α := t.filter fun p => p.1 != i

/-- Sparse byte memory: addresses rising, no entry equal to the byte 0 that an unlisted address reads as. -/
abbrev Mem := List Host.Cell

/-- What an address that nothing has written reads as (log entry 7). -/
def Mem.empty : Byte := 0

def Mem.read (m : Mem) (a : Nat) : Byte :=
  match m with
  | [] => Mem.empty
  | (k, v) :: r => if k = a then v else Mem.read r a

/-- Writing keeps the canonical form: writing 0 removes the entry. -/
def Mem.write (m : Mem) (a : Nat) (b : Byte) : Mem :=
  match m with
  | [] => if b = Mem.empty then [] else [(a, b)]
  | (k, v) :: r =>
    if a < k then (if b = Mem.empty then (k, v) :: r else (a, b) :: (k, v) :: r)
    else if a = k then (if b = Mem.empty then r else (a, b) :: r)
    else (k, v) :: Mem.write r a b

/-- The canonical form of a memory. -/
abbrev Mem.wf (m : Mem) : Prop := m.Pairwise (fun p q => p.1 < q.1) ∧ ∀ p ∈ m, p.2 ≠ Mem.empty

/-- `n` bytes from `a` on. -/
def Mem.readN (m : Mem) (a : Nat) : Nat → List Byte
  | 0 => []
  | n + 1 => m.read a :: Mem.readN m (a + 1) n

/-- The bytes `bs` written from `a` on. -/
def Mem.writeN (m : Mem) (a : Nat) : List Byte → Mem
  | [] => m
  | b :: r => Mem.writeN (m.write a b) (a + 1) r

/-- The unsigned little-endian value of `n` bytes at `a`. -/
def Mem.rdU (m : Mem) (a n : Nat) : Nat := leNat (m.readN a n)

/-- The signed little-endian value of `n` bytes at `a`. -/
def Mem.rdI (m : Mem) (a n : Nat) : Int := signed (8 * n) (m.rdU a n)

def Mem.wrU (m : Mem) (a n v : Nat) : Mem := m.writeN a (leBytes v n)

/-- The part of a memory at addresses from `a` on, `n` bytes long, dropped (an area emptied). -/
def Mem.clear (m : Mem) (a n : Nat) : Mem := m.filter fun p => !(a ≤ p.1 && p.1 < a + n)

/-- The bytes of `src` in a range put in place of those of `m`. -/
def Mem.copyRange (m src : Mem) (a n : Nat) : Mem :=
  (src.filter fun p => a ≤ p.1 && p.1 < a + n).foldl (fun acc p => acc.write p.1 p.2) (m.clear a n)

/-- `x` put before the first element that it does not follow. -/
def insertBy {α : Type} (le : α → α → Bool) (x : α) : List α → List α
  | [] => [x]
  | y :: r => if le x y then x :: y :: r else y :: insertBy le x r

/-- A list in order; elements that `le` holds equal keep theirs. -/
def sortBy {α : Type} (le : α → α → Bool) (xs : List α) : List α := xs.foldr (insertBy le) []

end Sys2Proof.Machine
end

