-- ==== Sys2Proof/Machine/Float.lean ====
section
/-! DEFINITION. IEEE 754 binary32 and binary64 by exact numbers, rounded to nearest even, subnormals kept (R191). -/

namespace Sys2Proof.Machine

/-- A binary format: fraction bits and exponent bits. -/
structure Fmt where
  frac : Nat
  ebits : Nat
  deriving DecidableEq, Repr

def f32 : Fmt := ⟨23, 8⟩
def f64 : Fmt := ⟨52, 11⟩

/-- A datum: NaN, an infinity, or (-1)^neg · m · 2^e. -/
inductive Fl where
  | nan
  | inf (neg : Bool)
  | fin (neg : Bool) (m : Nat) (e : Int)
  deriving DecidableEq, Repr

def Fmt.bias (f : Fmt) : Nat := 2 ^ (f.ebits - 1) - 1

/-- Exponent of the least significant bit of a subnormal. -/
def Fmt.qmin (f : Fmt) : Int := 1 - (f.bias : Int) - f.frac

/-- The pattern of +infinity. -/
def Fmt.infBits (f : Fmt) : Nat := (2 ^ f.ebits - 1) * 2 ^ f.frac

def Fmt.signBit (f : Fmt) : Nat := 2 ^ (f.ebits + f.frac)

def Fmt.dec (f : Fmt) (bits : Nat) : Fl :=
  let m := bits % 2 ^ f.frac
  let e := fld bits f.frac f.ebits
  let neg := bit bits (f.ebits + f.frac)
  if e = 2 ^ f.ebits - 1 then (if m = 0 then .inf neg else .nan)
  else if e = 0 then .fin neg m f.qmin
  else .fin neg (2 ^ f.frac + m) (f.qmin + e - 1)

/-- `n / d` rounded to nearest, ties to even. -/
def rne (n d : Nat) : Nat :=
  let q := n / d
  let r := n % d
  if d < 2 * r ∨ (2 * r = d ∧ q % 2 = 1) then q + 1 else q

/-- n / d rounded to the nearest integer, ties to even, for d > 0. -/
def rneInt (n : Int) (d : Nat) : Int := if n < 0 then -(rne n.natAbs d : Int) else rne n.natAbs d

/-- `x` rounded to nearest, ties to even, as an integer: `n · 2^e`. -/
def rneShift (n : Nat) (e : Int) : Nat := if 0 ≤ e then n * 2 ^ e.toNat else rne n (2 ^ (-e).toNat)

/-- The exponent of the leading bit of `n / d`, both positive. -/
def leadExp (n d : Nat) : Int :=
  let e : Int := (Nat.log2 n : Int) - Nat.log2 d
  let lt : Bool := if 0 ≤ e then decide (n < d * 2 ^ e.toNat) else decide (n * 2 ^ (-e).toNat < d)
  if lt then e - 1 else e

/-- Encodes (-1)^neg · n / d, rounded to nearest even; an overflow gives an infinity. -/
def Fmt.roundQ (f : Fmt) (neg : Bool) (n d : Nat) : Nat :=
  let sign := if neg then f.signBit else 0
  if n = 0 then sign
  else
    let q := max (leadExp n d - f.frac) f.qmin
    let r := if 0 ≤ q then rne n (d * 2 ^ q.toNat) else rne (n * 2 ^ (-q).toNat) d
    let bits := (q - f.qmin).toNat * 2 ^ f.frac + r
    sign + min bits f.infBits

/-- Encodes (-1)^neg · m · 2^e. -/
def Fmt.enc (f : Fmt) (neg : Bool) (m : Nat) (e : Int) : Nat :=
  if 0 ≤ e then f.roundQ neg (m * 2 ^ e.toNat) 1 else f.roundQ neg m (2 ^ (-e).toNat)

def Fmt.encInf (f : Fmt) (neg : Bool) : Nat := f.infBits + if neg then f.signBit else 0

/-- A quiet NaN, its sign and payload free (log entry 16). -/
def Fmt.encNan (f : Fmt) (op a b : Nat) : Nat :=
  let r := Config.nanBits op a b
  f.infBits + 2 ^ (f.frac - 1) + r % 2 ^ (f.frac - 1) + if bit r 63 then f.signBit else 0

/-- The signed integer m · 2^e' of a finite datum at a common exponent. -/
def sgn (neg : Bool) (m : Nat) : Int := if neg then -(m : Int) else m

/-- Sum of two finite data: exact, then rounded; an exact zero sum of opposite signs is +0. -/
def Fmt.addFin (f : Fmt) (n1 : Bool) (m1 : Nat) (e1 : Int) (n2 : Bool) (m2 : Nat) (e2 : Int) : Nat :=
  let e := min e1 e2
  let v := sgn n1 (m1 * 2 ^ (e1 - e).toNat) + sgn n2 (m2 * 2 ^ (e2 - e).toNat)
  if v = 0 then (if m1 = 0 ∧ m2 = 0 ∧ n1 = true ∧ n2 = true then f.signBit else 0)
  else f.enc (decide (v < 0)) v.natAbs e

def Fmt.add (f : Fmt) (a b : Nat) : Nat :=
  match f.dec a, f.dec b with
  | .nan, _ => f.encNan 0x10 a b
  | _, .nan => f.encNan 0x10 a b
  | .inf x, .inf y => if x = y then f.encInf x else f.encNan 0x10 a b
  | .inf x, _ => f.encInf x
  | _, .inf y => f.encInf y
  | .fin n1 m1 e1, .fin n2 m2 e2 => f.addFin n1 m1 e1 n2 m2 e2

/-- The pattern with its sign turned; NaN included. -/
def Fmt.neg (f : Fmt) (a : Nat) : Nat := if bit a (f.ebits + f.frac) then a - f.signBit else a + f.signBit

def Fmt.abs (f : Fmt) (a : Nat) : Nat := a % f.signBit

def Fmt.isNan (f : Fmt) (a : Nat) : Bool := f.dec a == .nan

def Fmt.sub (f : Fmt) (a b : Nat) : Nat := if f.isNan b then f.encNan 0x11 a b else f.add a (f.neg b)

def Fmt.mul (f : Fmt) (a b : Nat) : Nat :=
  match f.dec a, f.dec b with
  | .nan, _ => f.encNan 0x14 a b
  | _, .nan => f.encNan 0x14 a b
  | .inf x, .inf y => f.encInf (x != y)
  | .inf x, .fin y m _ => if m = 0 then f.encNan 0x14 a b else f.encInf (x != y)
  | .fin x m _, .inf y => if m = 0 then f.encNan 0x14 a b else f.encInf (x != y)
  | .fin x m e, .fin y n g => f.enc (x != y) (m * n) (e + g)

def Fmt.div (f : Fmt) (a b : Nat) : Nat :=
  match f.dec a, f.dec b with
  | .nan, _ => f.encNan 0x15 a b
  | _, .nan => f.encNan 0x15 a b
  | .inf _, .inf _ => f.encNan 0x15 a b
  | .inf x, .fin y _ _ => f.encInf (x != y)
  | .fin x _ _, .inf y => f.roundQ (x != y) 0 1
  | .fin x m e, .fin y n g =>
    if n = 0 then (if m = 0 then f.encNan 0x15 a b else f.encInf (x != y))
    else
      let k := e - g
      if 0 ≤ k then f.roundQ (x != y) (m * 2 ^ k.toNat) n else f.roundQ (x != y) m (n * 2 ^ (-k).toNat)

/-- Largest r with r² ≤ n, `k` bits to go. -/
def sqrtBits (n : Nat) : Nat → Nat → Nat
  | 0, r => r
  | k + 1, r =>
    let t := r + 2 ^ k
    sqrtBits n k (if t * t ≤ n then t else r)

/-- Square root: −0 gives −0, a negative number a NaN; exact to 2 · 2^-(frac+8) with a sticky bit, then rounded. -/
def Fmt.sqrt (f : Fmt) (a : Nat) : Nat :=
  match f.dec a with
  | .nan => f.encNan 0x1B a 0
  | .inf neg => if neg then f.encNan 0x1B a 0 else f.infBits
  | .fin neg m e =>
    if m = 0 then a
    else if neg then f.encNan 0x1B a 0
    else
      let k : Nat := 2 * f.frac + 8
      let odd : Nat := (e % 2).toNat
      let n := m * 2 ^ (odd + 2 * k)
      let r := sqrtBits n (Nat.log2 n / 2 + 1) 0
      f.enc false (2 * r + if r * r = n then 0 else 1) ((e - odd) / 2 - k - 1)

/-- a < b, a = b as numbers; false when unordered (R191). Infinities compare beyond every number. -/
def Fl.lt : Fl → Fl → Bool
  | .nan, _ => false
  | _, .nan => false
  | .inf x, .inf y => x && !y
  | .inf x, .fin _ _ _ => x
  | .fin _ _ _, .inf y => !y
  | .fin n1 m1 e1, .fin n2 m2 e2 =>
    let e := min e1 e2
    decide (sgn n1 (m1 * 2 ^ (e1 - e).toNat) < sgn n2 (m2 * 2 ^ (e2 - e).toNat))

def Fl.eq : Fl → Fl → Bool
  | .nan, _ => false
  | _, .nan => false
  | .inf x, .inf y => x == y
  | .inf _, .fin _ _ _ => false
  | .fin _ _ _, .inf _ => false
  | .fin n1 m1 e1, .fin n2 m2 e2 =>
    let e := min e1 e2
    decide (sgn n1 (m1 * 2 ^ (e1 - e).toNat) = sgn n2 (m2 * 2 ^ (e2 - e).toNat))

/-- minNum and maxNum with the zero rule of R191. -/
def Fmt.min (f : Fmt) (a b : Nat) : Nat :=
  match f.isNan a, f.isNan b with
  | true, true => f.encNan 0x19 a b
  | true, false => b
  | false, true => a
  | false, false =>
    if Fl.lt (f.dec a) (f.dec b) then a
    else if Fl.lt (f.dec b) (f.dec a) then b
    else if bit a (f.ebits + f.frac) then a else b

def Fmt.max (f : Fmt) (a b : Nat) : Nat :=
  match f.isNan a, f.isNan b with
  | true, true => f.encNan 0x1A a b
  | true, false => b
  | false, true => a
  | false, false =>
    if Fl.lt (f.dec a) (f.dec b) then b
    else if Fl.lt (f.dec b) (f.dec a) then a
    else if bit a (f.ebits + f.frac) then b else a

/-- An integer as a datum, rounded to nearest even. -/
def Fmt.ofInt (f : Fmt) (i : Int) : Nat := f.enc (decide (i < 0)) i.natAbs 0

/-- From another format. -/
def Fmt.conv (f g : Fmt) (a : Nat) : Nat :=
  match g.dec a with
  | .nan => f.encNan 0x1C a 0
  | .inf neg => f.encInf neg
  | .fin neg m e => if m = 0 then (if neg then f.signBit else 0) else f.enc neg m e

/-- To an integer range: nearest even, saturating; NaN gives 0. The flag says saturation or NaN (R191). -/
def Fmt.toRange (f : Fmt) (a : Nat) (lo hi : Int) : Int × Bool :=
  match f.dec a with
  | .nan => (0, true)
  | .inf neg => (if neg then lo else hi, true)
  | .fin neg m e =>
    let i := sgn neg (rneShift m e)
    (clampI lo hi i, decide (i < lo ∨ hi < i))

/-- Not NaN and not infinite. -/
def Fmt.finite (f : Fmt) (a : Nat) : Bool := match f.dec a with
  | .fin _ _ _ => true
  | _ => false

end Sys2Proof.Machine
end

