-- ==== Sys2Proof/Machine/Nmea.lean ====
section
/-! DEFINITION. IEC 61162 sentences: checksum, address, fields, decimal values (R312, R377). A sentence stands from its start
delimiter to before CR LF. -/

namespace Sys2Proof.Machine

/-- A text without what follows its last character before CR or LF. -/
def chop (t : List Byte) : List Byte := t.takeWhile fun b => b != 0x0D && b != 0x0A

/-- A tag block in front of a sentence is skipped (R312). -/
def skipTag (t : List Byte) : List Byte :=
  match t with
  | b :: r => if b = 0x5C then (r.dropWhile fun x => x != 0x5C).drop 1 else b :: r
  | [] => []

/-- The characters between the start delimiter and the checksum's asterisk. -/
def nmeaBody (t : List Byte) : List Byte := (t.drop 1).takeWhile fun b => b != 0x2A

def nmeaStart (t : List Byte) : Bool := t.head? == some 0x24#8 || t.head? == some 0x21#8

def hexDigit (b : Byte) : Option Nat :=
  let n := b.toNat
  if 0x30 ≤ n ∧ n ≤ 0x39 then some (n - 0x30)
  else if 0x41 ≤ n ∧ n ≤ 0x46 then some (n - 0x37)
  else if 0x61 ≤ n ∧ n ≤ 0x66 then some (n - 0x57)
  else none

/-- The two checksum characters of a sentence, when an asterisk stands in it. -/
def nmeaSum (t : List Byte) : Option (List Byte) :=
  let r := t.dropWhile fun b => b != 0x2A
  if r.isEmpty then none else some (r.drop 1)

def xorBytes (bs : List Byte) : Nat := (bs.foldl (fun a b => a ^^^ b) (0 : Byte)).toNat

/-- The checksum of a sentence holds: the exclusive OR of its body. -/
def sumHolds (t : List Byte) (sum : List Byte) : Bool :=
  match sum with
  | [a, b] => match hexDigit a, hexDigit b with
    | some x, some y => 16 * x + y == xorBytes (nmeaBody t)
    | _, _ => false
  | _ => false

/-- A sentence is accepted: a delimiter, a checksum that holds; without one only where none is required. -/
def nmeaOk (t : List Byte) (required : Bool) : Bool :=
  nmeaStart t && match nmeaSum t with
  | none => !required
  | some c => sumHolds t c

/-- Comma-separated fields. -/
def fieldsOf : List Byte → List Byte → List (List Byte)
  | [], acc => [acc.reverse]
  | b :: r, acc => if b = 0x2C then acc.reverse :: fieldsOf r [] else fieldsOf r (b :: acc)

def nmeaFields (t : List Byte) : List (List Byte) := fieldsOf (nmeaBody t) []

def isDigit (b : Byte) : Bool := decide (0x30 ≤ b.toNat ∧ b.toNat ≤ 0x39)

def digitsNat (bs : List Byte) : Nat := bs.foldl (fun a b => 10 * a + (b.toNat - 0x30)) 0

/-- A signed decimal rounded to the nearest binary32; none when the text is no number. -/
def decimal32 (t : List Byte) : Option Nat :=
  let neg := t.head? == some 0x2D#8
  let u := if neg || t.head? == some 0x2B#8 then t.drop 1 else t
  let whole := u.takeWhile isDigit
  let rest := u.drop whole.length
  let frac := match rest with
    | b :: r => if b = 0x2E then some r else none
    | [] => some []
  match frac with
  | none => none
  | some f =>
    if f.all isDigit && !(whole.isEmpty && f.isEmpty) then some (f32.roundQ neg (digitsNat (whole ++ f)) (10 ^ f.length)) else none

/-- The motion sample entry that field `k` of a sentence gives (R252); a field without a number leaves VALUE and takes
QUAL 0. -/
def sampleEntry (old : List Byte) (t : List Byte) (k time : Nat) : List Byte :=
  match ((nmeaFields t)[k]?).bind decimal32 with
  | some v => leBytes v 4 ++ [1, 0, 0, 0] ++ leBytes time 8
  | none => padTo 4 old ++ [0, 0, 0, 0] ++ leBytes time 8

/-- An address of five characters after the delimiter. -/
def nmeaAddress (t : List Byte) : List Byte := (t.drop 1).take 5

/-- "*hh" of a text to be sent, after its start delimiter (R379). -/
def appendSum (t : List Byte) : List Byte :=
  let n := xorBytes (t.drop 1)
  let h (d : Nat) : Byte := BitVec.ofNat 8 (if d < 10 then 0x30 + d else 0x37 + d)
  t ++ [0x2A, h (n / 16), h (n % 16), 0x0D, 0x0A]

end Sys2Proof.Machine
end

