-- ==== Sys2Proof/Machine/Crypto.lean ====
section
/-! DEFINITION. Checks and keys that the spec names: CRC-32C (R14), CRC-16/CCITT (R458), SHA-256 (R419), HMAC and HKDF
(R88, R101, R102), SHA-512 and Ed25519 (R183). Words are numbers reduced modulo their width. -/

namespace Sys2Proof.Machine

def bitStep (poly c : Nat) : Nat := if c % 2 = 1 then Nat.xor (c / 2) poly else c / 2

/-- One byte into a reflected 32-bit CRC. -/
def crcByte (poly c : Nat) (b : Byte) : Nat :=
  let x := Nat.xor c b.toNat
  (List.range 8).foldl (fun x _ => bitStep poly x) x

/-- CRC-32C (Castagnoli, reflected, initial value and final XOR all ones). -/
def crc32c (bs : List Byte) : Nat := Nat.xor (bs.foldl (crcByte 0x82F63B78) 0xFFFFFFFF) 0xFFFFFFFF

/-- One byte into a non-reflected CRC of `w` bits. -/
def crcByteMsb (w poly c : Nat) (b : Byte) : Nat :=
  (List.range 8).foldl (fun x _ => if 2 ^ (w - 1) ≤ x then Nat.xor (x * 2 % 2 ^ w) poly else x * 2 % 2 ^ w)
    (Nat.xor c (b.toNat * 2 ^ (w - 8)))

/-- CRC-16/CCITT of R458: polynomial 0x1021, initial value 0xFFFF, no reflection, no final XOR. -/
def crc16 (bs : List Byte) : Nat := bs.foldl (crcByteMsb 16 0x1021) 0xFFFF

/-! SHA-2 -/

def rotr (w x n : Nat) : Nat := Nat.lor (x / 2 ^ n) (x * 2 ^ (w - n) % 2 ^ w)

/-- The parameters that tell SHA-256 from SHA-512: word width, round constants, the rotation amounts. -/
structure ShaParam where
  w : Nat
  ks : List Nat
  bigA : Nat × Nat × Nat
  bigE : Nat × Nat × Nat
  smA : Nat × Nat × Nat
  smB : Nat × Nat × Nat

/-- Whether `n` has no divisor from 2 to `d + 1`. -/
def noDivisor (n : Nat) : Nat → Bool
  | 0 => true
  | d + 1 => n % (d + 2) != 0 && noDivisor n d

/-- The primes below 410, the first 80: none has a divisor from 2 to 20 but itself. -/
def shaPrimes : List Nat := (List.range 408).filterMap fun k => if noDivisor (k + 2) (min k 19) then some (k + 2) else none

/-- The largest `r` with `r ^ e` at most `n`, from the bits above bit `b` on. -/
def rootBits (e n : Nat) : Nat → Nat → Nat
  | 0, r => r
  | b + 1, r => rootBits e n b (if (r + 2 ^ b) ^ e ≤ n then r + 2 ^ b else r)

/-- The first 64 bits behind the binary point of the `e`-th root of a prime, from which SHA-2 takes its constants. -/
def rootFraction (e q : Nat) : Nat := rootBits e (q * 2 ^ (64 * e)) 69 0 % 2 ^ 64

def sha512K : List Nat := shaPrimes.map (rootFraction 3)
def sha512Iv : List Nat := (shaPrimes.take 8).map (rootFraction 2)
def sha256K : List Nat := (sha512K.take 64).map fun k => k / 2 ^ 32
def sha256Iv : List Nat := sha512Iv.map fun k => k / 2 ^ 32

def sha256P : ShaParam := ⟨32, sha256K, (2, 13, 22), (6, 11, 25), (7, 18, 3), (17, 19, 10)⟩
def sha512P : ShaParam := ⟨64, sha512K, (28, 34, 39), (14, 18, 41), (1, 8, 7), (19, 61, 6)⟩

def bigSigma (w : Nat) (r : Nat × Nat × Nat) (x : Nat) : Nat :=
  Nat.xor (Nat.xor (rotr w x r.1) (rotr w x r.2.1)) (rotr w x r.2.2)

def smallSigma (w : Nat) (r : Nat × Nat × Nat) (x : Nat) : Nat :=
  Nat.xor (Nat.xor (rotr w x r.1) (rotr w x r.2.1)) (x / 2 ^ r.2.2)

/-- The message schedule, newest word first. -/
def shaExpand (p : ShaParam) : Nat → List Nat → List Nat
  | 0, ws => ws
  | n + 1, ws =>
    let x := (smallSigma p.w p.smB (ws.getD 1 0) + ws.getD 6 0 + smallSigma p.w p.smA (ws.getD 14 0) + ws.getD 15 0) % 2 ^ p.w
    shaExpand p n (x :: ws)

def shaRounds (p : ShaParam) : List (Nat × Nat) → List Nat → List Nat
  | [], st => st
  | (k, x) :: r, st =>
    let m := 2 ^ p.w
    let e := st.getD 4 0
    let a := st.getD 0 0
    let ch := Nat.xor (Nat.land e (st.getD 5 0)) (Nat.land (m - 1 - e) (st.getD 6 0))
    let t1 := (st.getD 7 0 + bigSigma p.w p.bigE e + ch + k + x) % m
    let mj := Nat.xor (Nat.xor (Nat.land a (st.getD 1 0)) (Nat.land a (st.getD 2 0))) (Nat.land (st.getD 1 0) (st.getD 2 0))
    let t2 := (bigSigma p.w p.bigA a + mj) % m
    shaRounds p r [(t1 + t2) % m, a, st.getD 1 0, st.getD 2 0, (st.getD 3 0 + t1) % m, e, st.getD 5 0, st.getD 6 0]

def shaBlock (p : ShaParam) (st : List Nat) (block : List Byte) : List Nat :=
  let b := p.w / 8
  let ws := (List.range 16).map fun i => beNat ((block.drop (i * b)).take b)
  let sched := (shaExpand p (p.ks.length - 16) ws.reverse).reverse
  (st.zip (shaRounds p (p.ks.zip sched) st)).map fun q => (q.1 + q.2) % 2 ^ p.w

def shaBlocks (p : ShaParam) : Nat → List Byte → List Nat → List Nat
  | 0, _, st => st
  | n + 1, bs, st => shaBlocks p n (bs.drop (2 * p.w)) (shaBlock p st (bs.take (2 * p.w)))

/-- Merkle–Damgård padding to whole blocks, the bit length big-endian at the end. -/
def shaPad (p : ShaParam) (bs : List Byte) : List Byte :=
  let blk := 2 * p.w
  let lenB := p.w / 4
  let z := (2 * blk - (bs.length + 1 + lenB) % blk) % blk
  bs ++ [0x80#8] ++ zeros z ++ beBytes (8 * bs.length) lenB

def sha (p : ShaParam) (iv : List Nat) (bs : List Byte) : List Byte :=
  let m := shaPad p bs
  (shaBlocks p (m.length / (2 * p.w)) m iv).flatMap fun x => beBytes x (p.w / 8)

def sha256 (bs : List Byte) : List Byte := sha sha256P sha256Iv bs

def sha512 (bs : List Byte) : List Byte := sha sha512P sha512Iv bs

def xorPad (key : List Byte) (v : Byte) : List Byte := (padTo 64 key).map fun b => b ^^^ v

/-- HMAC-SHA-256. -/
def hmac256 (key msg : List Byte) : List Byte :=
  let k := if 64 < key.length then sha256 key else key
  sha256 (xorPad k 0x5C#8 ++ sha256 (xorPad k 0x36#8 ++ msg))

/-- HKDF-SHA-256, one block of output (32 bytes). -/
def hkdf256 (ikm salt info : List Byte) : List Byte :=
  hmac256 (hmac256 (if salt.isEmpty then zeros 32 else salt) ikm) (info ++ [1#8])

/-! Ed25519 -/

def edP : Nat := 2 ^ 255 - 19
def edL : Nat := 2 ^ 252 + 27742317777372353535851937790883648493
def edD : Nat := 37095705934669439343138083508754565189542113879843219016388785533085940283555

/-- `b ^ e` modulo `m`, `n` bits of `e` at most. -/
def powMod (m : Nat) : Nat → Nat → Nat → Nat
  | 0, _, _ => 1 % m
  | n + 1, b, e =>
    let h := powMod m n (b * b % m) (e / 2)
    if e % 2 = 1 then h * b % m else h

def edInv (x : Nat) : Nat := powMod edP 256 x (edP - 2)

/-- A point in extended coordinates X, Y, Z, T. -/
structure EdPoint where
  x : Nat
  y : Nat
  z : Nat
  t : Nat

def edAdd (p q : EdPoint) : EdPoint :=
  let a := (p.y + edP - p.x) * (q.y + edP - q.x) % edP
  let b := (p.y + p.x) * (q.y + q.x) % edP
  let c := 2 * p.t * q.t % edP * edD % edP
  let d := 2 * p.z * q.z % edP
  let e := (b + edP - a) % edP
  let f := (d + edP - c) % edP
  let g := (d + c) % edP
  let h := (b + a) % edP
  ⟨e * f % edP, g * h % edP, f * g % edP, e * h % edP⟩

def edMul : Nat → Nat → EdPoint → EdPoint
  | 0, _, _ => ⟨0, 1, 1, 0⟩
  | n + 1, k, p =>
    let r := edMul n (k / 2) (edAdd p p)
    if k % 2 = 1 then edAdd r p else r

def edEq (p q : EdPoint) : Bool := p.x * q.z % edP == q.x * p.z % edP && p.y * q.z % edP == q.y * p.z % edP

/-- A point from its 32-byte encoding, when it is one. -/
def edDecode (bs : List Byte) : Option EdPoint :=
  let n := leNat (bs.take 32)
  let y := n % 2 ^ 255
  let sign := n / 2 ^ 255
  if edP ≤ y then none
  else
    let u := (y * y + edP - 1) % edP
    let v := (edD * (y * y % edP) + 1) % edP
    let x2 := u * edInv v % edP
    let r := powMod edP 256 x2 ((edP + 3) / 8)
    let x := if r * r % edP = x2 then r else r * powMod edP 256 2 ((edP - 1) / 4) % edP
    if x * x % edP ≠ x2 then none
    else if x = 0 ∧ sign = 1 then none
    else
      let x := if x % 2 = sign then x else edP - x
      some ⟨x, y, 1, x * y % edP⟩

def edBase : EdPoint :=
  let y := 46316835694926478169428394003475163141307993866256225615783033603165251855960
  let x := 15112221349535400772501151409588531511454012693041857206046113283949847762202
  ⟨x, y, 1, x * y % edP⟩

/-- Ed25519 verification of a 64-byte signature. -/
def ed25519Verify (key msg sig : List Byte) : Bool :=
  let sc := leNat ((sig.drop 32).take 32)
  if edL ≤ sc then false
  else match edDecode key, edDecode sig with
    | some a, some r =>
      let k := leNat (sha512 (sig.take 32 ++ key.take 32 ++ msg)) % edL
      edEq (edMul 256 sc edBase) (edAdd r (edMul 256 k a))
    | _, _ => false

end Sys2Proof.Machine
end

