-- ==== Sys2Proof/Machine/StCan.lean ====
section
/-! DEFINITION. CAN port state (chapter 12). -/

namespace Sys2Proof.Machine

/-- A frame in a transmit or shadow FIFO, with its object. -/
structure CanTx where
  obj : Nat
  f : CanFrame
  deriving DecidableEq, Repr

/-- A transmit object (R332): its alive counter, the last data enqueued and its tick, REQ_SEQ at the previous edge, and a
request that stays due. -/
structure CanObj where
  alive : Nat := 0
  last : Option (List Byte) := none
  lastEnq : Nat := 0
  /-- tick of the enqueue that last advanced the alive counter -/
  aliveAt : Nat := 0
  req : Nat := 0
  due : Bool := false
  deriving DecidableEq, Repr

/-- A received frame that waits for its swap (R132): tick count in which it completed, buffer, the entry of R325 less SEQ. -/
structure CanRx where
  tick : Nat
  buf : Option Nat
  entry : List Byte
  deriving DecidableEq, Repr

/-- A CAN port: controller, FIFO, counters (R320 to R342). PSTATE: 0 UNCONFIGURED, 1 LISTEN, 2 ONLINE, 3 BUS_OFF, 4 SLEEP,
5 DETECT. -/
structure CanPort where
  pstate : Nat := 0
  tec : Nat := 0
  rc : Nat := 0
  /-- bus-off recovery runs (R334) -/
  recovering : Bool := false
  fifo : List CanTx := []
  rate : Nat := 0
  /-- a frame in progress may still complete after the lane became STANDBY (R286) -/
  finishing : Bool := false
  /-- no traffic has been reported since the port entered DETECT (R338) -/
  quiet : Bool := false
  woke : Bool := false
  tdc : Bool := false
  txDone : Nat := 0
  txSkip : Nat := 0
  rxFrames : Nat := 0
  /-- counters of R342 -/
  cnt : Tab Nat := []
  /-- entries written to the ring -/
  head : Nat := 0
  pending : List CanRx := []
  /-- frames stored in each buffer -/
  stored : Tab Nat := []
  objs : Tab CanObj := []
  /-- CTRL_SEQ at the previous edge (R336) -/
  ctrl : Nat := 0
  deriving DecidableEq, Repr

end Sys2Proof.Machine
end

