-- ==== Sys2Proof/Machine/StField.lean ====
section
/-! DEFINITION. Field island state (chapters 13, 14). -/

namespace Sys2Proof.Machine

/-- A digital channel (R347 to R352): input stage, commanded value, switch, latches and counters. -/
structure DioCh where
  raw : Bool := false
  filt : Bool := false
  run : Nat := 0
  /-- OPEN_WIRE of an input, OPEN_LOAD of an output -/
  open_ : Bool := false
  /-- value applied at the last edge, and whether the switch is on -/
  val : Bool := false
  on : Bool := false
  overl : Bool := false
  limit : Bool := false
  hot : Bool := false
  mism : Bool := false
  shortHi : Bool := false
  mm : Nat := 0
  ack : Nat := 0
  /-- instant of the last automatic re-arm, and consecutive retries that re-tripped (R350) -/
  rearmed : Option Nat := none
  retries : Nat := 0
  /-- re-armed since the last edge, and whether its switch stood at 170 °C or above then (R350) -/
  armed : Bool := false
  armHot : Bool := false
  /-- a latch cleared since the last edge held the channel off in this tick (R352) -/
  held : Bool := false
  deriving DecidableEq, Repr

/-- A digital island: channels, and masks of the groups with SUPPLY_LOW and GROUP_TRIP (R353). -/
structure DioIsl where
  ch : Tab DioCh := []
  low : Nat := 0
  trip : Nat := 0
  gack : Tab Nat := []
  deriving DecidableEq, Repr

/-- An analogue input (R363, R364). -/
structure AiCh where
  /-- a sample has been taken since the record was applied -/
  begun : Bool := false
  cls : Nat := 0
  cand : Nat := 0
  run : Nat := 0
  good : Nat := 0
  compl : Bool := false
  complRun : Nat := 0
  short : Bool := false
  shortRun : Nat := 0
  /-- the transmitter supply is switched off for its retry time -/
  off : Bool := false
  deriving DecidableEq, Repr

structure AiIsl where
  ch : Tab AiCh := []
  low : Bool := false
  /-- channels that failed calibration -/
  cal : List Nat := []
  deriving DecidableEq, Repr

/-- An analogue output (R367, R368); `applied` in µA or µV. -/
structure AoCh where
  applied : Int := 0
  limited : Bool := false
  short : Bool := false
  shortRun : Nat := 0
  open_ : Bool := false
  overl : Bool := false
  deriving DecidableEq, Repr

structure AoIsl where
  ch : Tab AoCh := []
  low : Bool := false
  cal : List Nat := []
  deriving DecidableEq, Repr

/-- An encoder interface (R371 to R375): COUNT and a running count that presets leave alone. -/
structure Enc where
  count : Nat := 0
  run : Int := 0
  a : Bool := false
  b : Bool := false
  /-- last edge: time in ns and running count; edges since the last island edge -/
  last : Option (Nat × Int) := none
  fresh : Bool := false
  /-- last edge as of each past island edge, newest first (INCREMENTAL) -/
  hist : List (Option (Nat × Int)) := []
  /-- positions of the past frames, newest first (SSI) -/
  pos : List Nat := []
  speed : Int := 0
  /-- island edges without an encoder edge -/
  silent : Nat := 0
  zCount : Nat := 0
  zSeq : Nat := 0
  zSeen : Bool := false
  zErr : Bool := false
  quad : Bool := false
  rate : Bool := false
  wire : Bool := false
  /-- SSI_ERR, PARITY_ERR, ENC_ERR of the last frame -/
  ssi : Bool := false
  parity : Bool := false
  err : Bool := false
  preset : Nat := 0
  ack : Nat := 0
  deriving DecidableEq, Repr

/-- A sentence that waits for its tick (R132, R377): tick count in which it completed, entries it fills, ring text. -/
structure RsRx where
  tick : Nat
  time : Nat
  text : List Byte
  deriving DecidableEq, Repr

/-- An RS-422 port (R377 to R379). -/
structure Rs422 where
  sentences : Nat := 0
  csFail : Nat := 0
  overrun : Nat := 0
  line : Bool := false
  head : Nat := 0
  rx : List RsRx := []
  /-- entries whose newest sample is good -/
  good : List Nat := []
  txSeq : Nat := 0
  sending : Option (List Byte) := none
  waiting : Option (List Byte) := none
  deriving DecidableEq, Repr

structure MxIsl where
  /-- the field supply is low (R490) -/
  low : Bool := false
  enc : Tab Enc := []
  rs : Tab Rs422 := []
  sc : Tab CanPort := []
  deriving DecidableEq, Repr

end Sys2Proof.Machine
end

