-- ==== Sys2Proof/Machine/StLoop.lean ====
section
/-! DEFINITION. Loop-engine state (chapters 08, 09). -/

namespace Sys2Proof.Machine

/-- Loop states, coded 0 to 4 in this order (R221). -/
inductive LoopPhase where
  | open_ | closing | closed | tripped | parked
  deriving DecidableEq, Repr

/-- A servo loop: what its status entry shows (R221) and what it remembers between ticks. -/
structure LoopSt where
  st : LoopPhase := .open_
  cause : Nat := 0
  lstat : Nat := 0
  e : Int := 0
  y : Int := 0
  i : Int := 0
  d : Int := 0
  fb : Int := 0
  xff : Int := 0
  fe : Nat := 0
  qb : Nat := 0
  held : Bool := false
  /-- MAN and MODE_SEQ of the previous tick -/
  man : Int := 0
  seq : Nat := 0
  /-- a close request of INIT_CLOSE waits for the first tick -/
  initReq : Bool := false
  /-- Y of the last snapshot mirrored (R239) -/
  mirY : Option Int := none
  /-- tick of the last pass -/
  done : Option Nat := none
  deriving DecidableEq, Repr

/-- Output states of a chain, coded 0 to 5 in this order (R258). -/
inductive ChainPhase where
  | run | hold | fadeOut | zero | settle | fadeIn
  deriving DecidableEq, Repr

/-- A stage: its block exponent and its mantissas (R246). -/
structure StageSt where
  b : Int := -128
  ms : List Int := []
  deriving DecidableEq, Repr

/-- A motion chain (R260). Numbers y_o, y_h, y_s and u are binary64 patterns. -/
structure ChainSt where
  st : ChainPhase := .zero
  /-- cause SAT of the present HOLD, or of the fade that followed it -/
  sat : Bool := false
  ticks : Nat := 0
  stages : List StageSt := []
  /-- the newest samples taken, newest first, at most 4: time and u -/
  samples : List (Int × Nat) := []
  lastTime : Option Nat := none
  /-- fade count; none when no fade is in progress -/
  k : Option Nat := none
  yo : Nat := 0
  yh : Nat := 0
  ys : Nat := 0
  xff : Int := 0
  inValue : Nat := 0
  cstat : Nat := 0
  taken : Nat := 0
  rejects : Nat := 0
  done : Option Nat := none
  deriving DecidableEq, Repr

end Sys2Proof.Machine
end

