-- ==== Sys2Proof/Machine/StNet.lean ====
section
/-! DEFINITION. Plant network state (chapter 11). -/

namespace Sys2Proof.Machine

/-- A flow descriptor written at a cut-off (R308): launch target in short time, and the frame frozen for it. `held`: it
reached the head of its queue before its target. -/
structure FlowDesc where
  target : Nat
  tick : Nat
  time : Nat
  qmask : Nat
  flags : Nat
  payload : List Byte
  held : Bool := false
  deriving DecidableEq, Repr

/-- What a launched flow frame carries around its header (R303, R304, R306): EtherType, destination, VLAN, priority code point and the
transmit queue that it leaves through. -/
structure FlowTag where
  etherType : Nat
  dest : List Byte
  vlan : Nat
  pcp : Nat
  queue : Nat
  deriving DecidableEq, Repr

/-- A flow context (R303 to R311): launch count and last launch of a transmit flow; the held frame, the accepted frames that
wait for their swap and the judgement of a receive flow; the eight counters of R317. -/
structure FlowCtx where
  count : Nat := 0
  lastTick : Nat := 0
  /-- SEQ and TICK_NUMBER of the last frame launched (R318) -/
  sentSeq : Nat := 0
  sentTick : Nat := 0
  /-- tick count up to which `count` counts the due launches (R281) -/
  baseTick : Nat := 0
  /-- descriptors that wait in the flow's queue, by launch time: an offset near L leaves one over the next cut-off (R306, R308) -/
  descs : List FlowDesc := []
  lastSeq : Option Nat := none
  inbox : List FlowFrame := []
  rstate : Nat := 0
  misses : Nat := 0
  heldTick : Nat := 0
  heldSeq : Nat := 0
  heldQ : Nat := 0
  heldFlags : Nat := 0
  /-- frames accepted in the present expected period (R313) -/
  win : Nat := 0
  winCount : Nat := 0
  cnt : Tab Nat := []
  /-- the PDU of a KIND 1 flow taken at this tick's swap (R316) -/
  pdu : Option (List Byte) := none
  /-- motion sample entries filled since the last swap, by image address (R312) -/
  samples : List (Nat × List Byte) := []
  done : Option Nat := none
  deriving DecidableEq, Repr

/-- A plant port's PTP measurements (R297): path delay, last corrected offset, instant of the last valid Sync. -/
structure PtpPort where
  delay : Option Nat := none
  offset : Option Int := none
  last : Nat := 0
  masters : List Announce := []
  deriving DecidableEq, Repr

/-- TIME_STATE, coded 0 to 3 in this order (R148, R301). -/
inductive TimeState where
  | free | locking | locked | holdover
  deriving DecidableEq, Repr

/-- A lane's network unit and its clock servo. -/
structure Net where
  flows : Tab FlowCtx := []
  /-- port counters of R317: port × 8 + counter -/
  cnt : Tab Nat := []
  upA : Bool := false
  upB : Bool := false
  /-- PRP discard table (R294): source, sequence, instant -/
  prp : List (Nat × Nat × Nat) := []
  prpSeq : Nat := 0
  /-- supervision entries (R293): node to a mask of the networks on which it is heard -/
  nodes : Tab Nat := []
  /-- load limits (R313): class and port to the window's start and count -/
  rate : Tab (Nat × Nat) := []
  /-- bootstrap address (R315): the present candidate, and whether it is served -/
  bootIp : Nat := 0
  bootUp : Bool := false
  portA : PtpPort := {}
  portB : PtpPort := {}
  /-- identity of the selected grandmaster, and of the last one selected (R301) -/
  gm : Option Nat := none
  gmLast : Option Nat := none
  /-- the servo uses port B; valid Syncs in a row on port A since then (R297) -/
  useB : Bool := false
  runA : Nat := 0
  diffRun : Nat := 0
  diffTold : Bool := false
  time : TimeState := .free
  lockedBefore : Bool := false
  /-- consecutive valid Syncs within LOCK_NS, and beyond 4 × LOCK_NS (R301) -/
  goodRun : Nat := 0
  badRun : Nat := 0
  /-- INCREMENT of R299, and its values of the last 64 s with their instants, newest first -/
  increment : Nat := 0x800000000
  /-- integral part of the servo, relative to nominal (R300) -/
  integral : Int := 0
  hist : List (Nat × Nat) := []
  /-- OFFSET step for the next edge, in ns (R299, R300) -/
  step : Option Int := none
  /-- start of the present holdover -/
  holdAt : Nat := 0
  deriving DecidableEq, Repr

end Sys2Proof.Machine
end

