-- ==== Sys2Proof/Machine/StSvc.lean ====
section
/-! DEFINITION. Service domain state (chapters 17 to 21): recorder, retained banks, RTC, cartridge, panel, clock outputs. -/

namespace Sys2Proof.Machine

/-- A record on its way to the recorder (R458): what its writer gives. -/
structure RawRec where
  src : Nat
  code : Nat
  sev : Nat
  /-- ORIGIN of R458 -/
  origin : Nat
  payload : List Byte
  /-- never refused by a bucket (R465) -/
  bypass : Bool
  /-- occurrences withheld under R538 since the last one reported -/
  withheld : Nat := 0
  /-- stamps kept by a carried-forward copy, or given by a staging lane (R461, R462): operating time, power cycles -/
  stamps : Option (Nat × Nat) := none
  /-- passes no bucket on its way back (R462) and carries the count refused while staging -/
  staged : Bool := false
  deriving DecidableEq, Repr

/-- A record in its slot (R458). VALID and CRC follow from the fields. -/
structure SlotRec where
  src : Nat
  code : Nat
  sev : Nat
  origin : Nat
  seq : Nat
  optime : Nat
  pcycle : Nat
  payload : List Byte
  suppressed : Nat
  deriving DecidableEq, Repr

/-- Last report of a limited source (R538): instant of the report and occurrences withheld since. -/
structure Limit where
  at_ : Nat
  withheld : Nat
  deriving DecidableEq, Repr

/-- Token bucket of a SOURCE and CODE pair (R464); `last` is the operating time of the last token gained. -/
structure Bucket where
  tokens : Nat
  last : Nat
  /-- refused since the last admission, and in the present 60 s window (R466) -/
  refused : Nat := 0
  window : Nat := 0
  deriving DecidableEq, Repr

/-- A retained-data bank (R473). MAGIC, FORMAT and the CRCs follow from `valid`. -/
structure Bank where
  valid : Bool := false
  bflags : Nat := 0
  seq : Nat := 0
  layout : Nat := 0
  optime : Nat := 0
  pcycle : Nat := 0
  tick : Nat := 0
  payload : List Byte := []
  deriving DecidableEq, Repr

/-- A bank write in progress (R474, R475): its target and what it captured. -/
structure BankWrite where
  bank : Nat
  cap : Bank
  lane : LaneId
  deriving DecidableEq, Repr

/-- The recorder and the store (R457 to R479). -/
structure Recorder where
  /-- operating time in 1/16 s and power-cycle count (R461) -/
  optime : Nat := 0
  pcycle : Nat := 0
  /-- station time at the last step of the operating-time counter (R468) -/
  stepAt : Nat := 0
  next : Nat := 0
  clearBase : Nat := 0
  ring : Tab SlotRec := []
  queue : List RawRec := []
  buckets : Tab Bucket := []
  bank0 : Bank := {}
  bank1 : Bank := {}
  offered : Option (Fin 2) := none
  writing : Option BankWrite := none
  /-- capture that waits for the write in progress, and its lane -/
  waiting : Option (Bank × LaneId) := none
  /-- capture of a write skipped at entry to STOPPED (R478) -/
  skipped : Option Bank := none
  /-- sequences of the newest seal of each kind, by CODE of EV208 (R420, R423) -/
  seals : Tab Nat := []
  /-- sequence of the newest time anchor of this power cycle -/
  anchor : Option Nat := none
  /-- instant from which the present RETAIN_PERIOD_S runs, in ns of `Grid.mono` (R474) -/
  periodFrom : Nat := 0
  deriving DecidableEq, Repr

/-- A partition's own RTC registers (R480, R481): staged time and date, shadows, RTC_STATUS. -/
structure RtcPort where
  setTime : Nat := 0
  setDate : Nat := 0
  subsec : Nat := 0
  time : Nat := 0
  date : Nat := 0x67D00101
  frozen : Bool := false
  alm2 : Bool := false
  alm1 : Bool := false
  roleRej : Bool := false
  trimRej : Bool := false
  wrRej : Bool := false
  wrDone : Bool := false
  deriving DecidableEq, Repr

/-- A partition's own panel registers (R512, R513): PNL_LINE, the word index, the line being assembled, W1C flags. -/
structure PnlPort where
  page : Nat := 0
  line : Nat := 0
  index : Nat := 0
  words : List Nat := []
  key : Bool := false
  passDone : Bool := false
  writeRej : Bool := false
  deriving DecidableEq, Repr

/-- The live calendar and the shared RTC registers (R480, R482, R486, R487). WDAY follows from the date. -/
structure Rtc where
  year : Nat := 2000
  month : Nat := 1
  day : Nat := 1
  hour : Nat := 0
  min : Nat := 0
  sec : Nat := 0
  alm1Time : Nat := 0
  alm1Date : Nat := 0x00818181
  alm2Time : Nat := 0
  alm2Date : Nat := 0x00818181
  /-- RTC_TRIM bits [12:0], and the trim in effect since the last second -/
  trim : Nat := 0
  trimNow : Nat := 0
  deriving DecidableEq, Repr

/-- A seated cartridge (R496 to R499). -/
structure Cart where
  id : CartId
  mv : Nat
  cap : Nat := 0
  esr : Nat := 0
  warn : Bool := false
  replace : Bool := false
  measuring : Bool := false
  /-- a measurement is due and postponed -/
  due : Bool := true
  deriving DecidableEq, Repr

/-- Feeds and hold-up (R489 to R493): feed present, its voltage in mV. -/
structure Supply where
  feedA : Bool := false
  feedB : Bool := false
  mvA : Nat := 0
  mvB : Nat := 0
  holdup : Bool := false
  deriving DecidableEq, Repr

/-- A pass of line writes in progress (R504, R507): its page, and its lines with the content they are written with. -/
structure PanelPass where
  page : Nat
  lines : List (Nat × List Nat)
  deriving DecidableEq, Repr

/-- The panel controller (R502 to R514). A line is 25 words of 16 pixels; lines are keyed by page × 256 + line, white where
absent. `map` holds the codes of unsound pixels by 400 × line + pixel. -/
structure Panel where
  mapOk : Bool := false
  map : Tab Nat := []
  held : Tab (List Nat) := []
  current : Tab (List Nat) := []
  staged : Tab (List Nat) := []
  sel : Nat := 0
  shown : Nat := 0
  band : Nat := 0
  nextBand : Nat := 0
  temp : Int := 0
  common : Bool := false
  idle : Bool := false
  /-- operating time at which station firmware last wrote page 0 (R508) -/
  stationAt : Option Nat := none
  /-- operating time at which a line last differed -/
  lastDiff : Nat := 0
  pass : Option PanelPass := none
  /-- cleared and discharged (R514) -/
  cleared : Bool := false
  deriving DecidableEq, Repr

/-- CLKOUT_A_SEL, CLKOUT_B_SEL and CLKOUT_STATUS (R454), and the settings that the last accepted ones replace: each drives its output
up to its next falling edge (R455). -/
structure ClkOut where
  selA : Nat := 0
  selB : Nat := 0
  wasA : Nat := 0
  wasB : Nat := 0
  rejA : Bool := false
  rejB : Bool := false
  deriving DecidableEq, Repr

/-- The service domain (R34). -/
structure Svc where
  up : Bool := false
  rcd : Recorder := {}
  rtc : Rtc := {}
  sup : Supply := {}
  cart : Option Cart := none
  pnl : Panel := {}
  clk : ClkOut := {}
  deriving DecidableEq, Repr

end Sys2Proof.Machine
end

