-- ==== Sys2Proof/Machine/StTask.lean ====
section
/-! DEFINITION. Block-engine and program state (chapters 06, 07). -/

namespace Sys2Proof.Machine

/-- Task states, coded 0 to 5 in this order (R178). -/
inductive TaskPhase where
  | dormant | waiting | ready | running | preempted | halted
  deriving DecidableEq, Repr

/-- Which entry a period executes (R154). -/
inductive EntryPart where
  | init | takeover | main
  deriving DecidableEq, Repr

/-- A loop in progress: code offset of its body, passes left (R190 LOOP). -/
structure LoopFrame where
  start : Nat
  left : Nat
  deriving DecidableEq, Repr

/-- One nesting level of a context (R193, R194): the block's type, where RETB returns to, what CALLB saved, the block write
buffer by image address, the loops in progress. -/
structure BlockFrame where
  typeNo : Nat
  ret : Nat
  savedA : Tab Word
  savedV : Tab DWord
  buf : Tab Byte := []
  loops : List LoopFrame := []
  deriving DecidableEq, Repr

/-- A hardware context (R149, R187) and its task's record (R155, R162, R178). -/
structure Ctx where
  phase : TaskPhase := .dormant
  v : Tab DWord := []
  a : Tab Word := []
  numf : Bool := false
  pc : Nat := 0
  part : EntryPart := .main
  /-- block levels, innermost first -/
  frames : List BlockFrame := []
  /-- loops of the entry code -/
  loops : List LoopFrame := []
  /-- task output buffer, by image address (R167) -/
  tob : Tab Byte := []
  /-- the 64-byte line of code fetched last; none after a transfer of control (R151, log entry 21) -/
  line : Option Nat := none
  /-- shot-clock count -/
  cyc : Nat := 0
  /-- the last TOL_W periods, newest first: failed or not (R162) -/
  record : List Bool := []
  lastCause : Nat := 0
  totalFails : Nat := 0
  lastCycles : Nat := 0
  maxCycles : Nat := 0
  initPending : Bool := false
  takePending : Bool := false
  /-- periods since START, and the period of the last role-change request (R163) -/
  periods : Nat := 0
  lastReq : Option Nat := none
  /-- the record exceeds the tolerance by the last failure (R163, R177) -/
  exceeded : Bool := false
  /-- tick count of the last commit (R141) -/
  lastCommit : Option Nat := none
  deriving DecidableEq, Repr

/-- The block engine of a lane. -/
structure BlockEngine where
  ctxs : Tab Ctx := []
  /-- between the input swap and the window's close -/
  window : Bool := false
  /-- cycles of the window used (R157) -/
  used : Nat := 0
  overruns : Nat := 0
  /-- poisoned INST and CONST words, by image address; poisoned code words, by code offset (R174) -/
  poisoned : List Nat := []
  poisonedCode : List Nat := []
  /-- corrections since the last report (R173) -/
  corrections : Nat := 0
  /-- status of the levels at the end of the last tick, as SYS shows it at the next input swap (R178) -/
  status : List Byte := []
  deriving DecidableEq, Repr

end Sys2Proof.Machine
end

