-- ==== Sys2Proof/Machine/StLane.lean ====
section
/-! DEFINITION. Lane and island state (chapters 01, 04, 05, 10, 17). -/

namespace Sys2Proof.Machine

/-- Lane roles, coded 0 to 3 in this order (R262). -/
inductive Role where
  | offline | standby | active | solo
  deriving DecidableEq, Repr

/-- Why a lane went OFFLINE (R263, R290, R433). -/
inductive OffCause where
  | none | isolated | deposed | parked | reintFailed | memory | notConfirmed | firmware | clock | stopped | startup
  deriving DecidableEq, Repr

/-- Health classes, coded 0 to 3 in this order (R270). -/
inductive Health where
  | good | degraded | suspect | failed
  deriving DecidableEq, Repr

/-- Where a lane stands in power-up and parking (R106, R447, R450). -/
inductive LanePhase where
  | off | starting | running | stopped | parked | dark
  deriving DecidableEq, Repr

/-- Selected reference of the lane's domains (R429). -/
inductive ClkSrc where
  | tcxo | rc
  deriving DecidableEq, Repr

/-- Clock sources and their monitors (R429 to R437). -/
structure Clocks where
  src : ClkSrc := .rc
  tcxoGood : Bool := true
  rcQual : Bool := false
  rcRestarting : Bool := false
  /-- the last window of the RC against the crystal failed (R431) -/
  rcBad : Bool := false
  /-- every domain stopped and held until the RC qualifies (R434) -/
  held : Bool := false
  xtalSuspect : Bool := false
  /-- TCXO cycles in its last good window of 1024 RC cycles (R430, R433) -/
  tcxoCount : Nat := 800
  deriving DecidableEq, Repr

/-- Operating point and supply (R438 to R440); the supply is kept as the point whose voltage it is. -/
structure OpPoint where
  op : Nat := 4
  supply : Nat := 4
  target : Nat := 4
  /-- a coming tick needs OP4: the supply rises ahead of it (R440) -/
  rise : Bool := false
  /-- a voltage step of 20 µs runs toward this point's supply -/
  stepTo : Option Nat := none
  /-- blocks whose clock is gated (R441) -/
  gated : List GateBlock := []
  /-- blocks whose gate requests are out, neither granted nor refused yet, children first (R442) -/
  asked : List GateBlock := []
  /-- the supply may fall below 0.72 V: the station is not in Dimmed (R439) -/
  low : Bool := false
  deriving DecidableEq, Repr

/-- A heartbeat word as last received (R266), and the miss counts of R269. -/
structure Beat where
  word : Option HbWord := none
  missBridge : Nat := 0
  missBeacon : Nat := 0
  /-- a path fault of this path has been raised and not restored (R269) -/
  faultBridge : Bool := false
  faultBeacon : Bool := false
  /-- consecutive groups of the light character that could not be decoded, and lane, role and health of the last one that
  could (R268, R269) -/
  undecodable : Nat := 0
  light : Option (LaneId × Nat × Nat) := none
  declared : Bool := false
  deriving DecidableEq, Repr

/-- A grant record of R271. -/
structure Grant where
  referee : Nat
  lane : LaneId
  epoch : Nat
  edge : Nat
  deriving DecidableEq, Repr

/-- Replies of the referee (R271). -/
inductive TokReply where
  | granted (g : Grant)
  | pending
  | refused
  deriving DecidableEq, Repr

/-- Why a lane asks for the token: at power-up (R109), after a declared failure (R279), at a change of ends (R286), as the acting
lane that has lost it to the dead-ball rule (R262, R272). -/
inductive TokWhy where
  | startUp | takeover | ends | again
  deriving DecidableEq, Repr

/-- A lane's side of the token exchange (R271, R273). -/
structure TokenReq where
  /-- a request is out: why -/
  asked : Option TokWhy := none
  /-- reply on its way to the lane -/
  reply : Option TokReply := none
  /-- the grant record that the lane holds and forwards, until every island shows it as holder -/
  grant : Option Grant := none
  /-- islands that have not yet shown the grant after the takeover edge, reported by EV035 0x0003 -/
  missing : List Nat := []
  deriving DecidableEq, Repr

/-- What an island sends to both lanes at an edge (R26, R27, R272). -/
structure IslFrame where
  tick : Nat
  holder : Option LaneId
  epoch : Nat
  unapplied : Bool
  /-- the island's part of the input image, by image address -/
  data : Mem
  /-- counters 3 to 7 of the link to Lane A and to Lane B -/
  cntA : List Nat
  cntB : List Nat
  /-- from SK-1: the newest PDU of each producer connection, by connection (R410) -/
  pdus : Tab (List Byte)
  deriving DecidableEq, Repr

/-- An island's frame as a lane has received it for the coming swap (R26, R136). -/
structure IslArrived where
  frame : IslFrame
  good : Bool
  deriving DecidableEq, Repr

/-- What a snapshot of tick T carries (R275, R277): class-1 ranges as image address and bytes, and object states. -/
structure SnapData where
  tick : Nat
  ranges : List (Nat × Nat × List Byte)
  loops : Tab LoopSt
  chains : Tab ChainSt
  flows : Tab FlowCtx
  can : Tab CanPort
  /-- SNAP_LEN and SNAP_CRC; the coding of the parts is open, so the CRC is a free value (log entry 119) -/
  len : Nat
  crc : Nat
  deriving DecidableEq, Repr

/-- Snapshot exchange of a lane (R176, R277). -/
structure Mirror where
  /-- class-1 instances that block commits have touched in this tick (sender) -/
  touched : List Nat := []
  /-- the snapshot closed at the last cut-off (sender) -/
  sent : Option SnapData := none
  /-- pieces that have arrived, each with the tick of its snapshot -/
  pieces : List (Nat × SnapPiece) := []
  /-- SNAP_LEN and SNAP_CRC of the heartbeat word that has closed the snapshot being received -/
  closed : Option (Nat × Nat) := none
  /-- tick of the last snapshot applied (STANDBY) or closed (ACTIVE) -/
  lastSnap : Nat := 0
  drops : Nat := 0
  consecutive : Nat := 0
  /-- tick count of the last snapshot applied or discarded -/
  judged : Option Nat := none
  deriving DecidableEq, Repr

/-- Steps of re-integration (R289). -/
inductive ReintStep where
  | idle | copying | tracking | failed | waitRetry
  deriving DecidableEq, Repr

structure Reint where
  step : ReintStep := .idle
  restarts : Nat := 0
  /-- consecutive ticks with a snapshot applied and both heartbeats present (R289) -/
  count : Nat := 0
  deriving DecidableEq, Repr

/-- Recorder staging of a lane (R35, R462, R463). -/
structure Staging where
  active : Bool := false
  /-- records held; while `active` is false they wait to be written back (R462) -/
  recs : List RawRec := []
  discarded : Nat := 0
  /-- shadow operating time and power-cycle count, and station time at the shadow's last step (R468) -/
  optime : Nat := 0
  pcycle : Nat := 0
  stepAt : Nat := 0
  /-- the lane's own buckets and limits while it stages (R462) -/
  buckets : Tab Bucket := []
  limits : Tab Limit := []
  deriving DecidableEq, Repr

/-- One controller lane (R19). -/
structure Lane where
  feed : Bool := false
  phase : LanePhase := .off
  /-- the carrier identity was accepted (R517) -/
  cidOk : Bool := false
  winUp : Bool := false
  clkQual : Bool := false
  rolesStep : Bool := false
  startDone : Bool := false
  failStep : Nat := 0
  failCode : Nat := 0
  mac : Nat := 0
  fw : Nat := 0
  role : Role := .offline
  cause : OffCause := .none
  health : Health := .good
  suspect : Bool := false
  /-- the feed has been removed and restored since the last re-integration (R288) -/
  feedCycled : Bool := false
  /-- FAILED until the lane's feed is cycled (R290) -/
  needCycle : Bool := false
  /-- dead-ball tick that the partner has proposed (R286) -/
  endsSeen : Option Nat := none
  /-- the heartbeat word sent at the last cut-off (R266) -/
  sent : Option HbWord := none
  /-- this is the takeover tick (R280) -/
  takeover : Bool := false
  /-- the image areas as they stand now, keyed by image address (R13) -/
  img : Mem := []
  /-- the image as frozen at the last output cut-off (R139, R140), and its tick -/
  frozen : Mem := []
  frozenTick : Option Nat := none
  /-- the template copy of INST and the patched copy of CONST, keyed by image address (R205) -/
  tmpl : Mem := []
  arrived : Tab IslArrived := []
  /-- producer PDUs of SK-1's last good frame, by connection -/
  skPdus : Tab (List Byte) := []
  /-- tick counts of the last input swap and the last MX-1 swap made -/
  swapTick : Option Nat := none
  mxTick : Option Nat := none
  /-- the lane's late-frame counters at START, which LATE_FRAMES counts from (R148) -/
  lateBase : Nat := 0
  /-- the loop engine finished late in the tick before (R148) -/
  loopLate : Bool := false
  /-- island-link counters 0 to 2 of the lane, and 3 to 7 as last carried; key island × 8 + counter (R27) -/
  linkCnt : Tab Nat := []
  /-- consecutive input frames lost on each island link (R270, R288) -/
  linkLost : Tab Nat := []
  clocks : Clocks := {}
  opp : OpPoint := {}
  /-- the beacon line of this lane: refreshed at the last cut-off, hold mode, extinguished (R267) -/
  lit : Bool := false
  hold : Bool := false
  beat : Beat := {}
  tok : TokenReq := {}
  mirror : Mirror := {}
  reint : Reint := {}
  staging : Staging := {}
  be : BlockEngine := {}
  loops : Tab LoopSt := []
  chains : Tab ChainSt := []
  net : Net := {}
  can : Tab CanPort := []
  deriving DecidableEq, Repr

/-- An output update that an island has accepted (R28, R140): output bytes by image address; `subst` where the lane's
station stands at substitute values; `waits` the AO-1 channels that stand at theirs until their task's first commit (R120);
`base` for the first frame of a new token holder (R357, R380). -/
structure Latch where
  m : Mem
  subst : Bool
  waits : List Nat := []
  base : Bool
  deriving DecidableEq, Repr

/-- One island: its token, link and watchdog state (R26 to R31, R130, R271 to R273) and its front end. -/
structure Island where
  powered : Bool := false
  holder : Option LaneId := none
  epoch : Nat := 0
  lastApplied : Nat := 0
  pendGrant : Option Grant := none
  /-- the referee's record in force, answered again to its holder (R271) -/
  inForce : Option Grant := none
  /-- a request answered PENDING -/
  waiting : Option LaneId := none
  unapplied : Bool := false
  /-- update accepted for the coming edge, for the present edge, for the edge before -/
  accNext : Bool := false
  accNow : Bool := false
  /-- edge named by a release announcement, and edge of a received release word -/
  announced : Option Nat := none
  released : Option Nat := none
  /-- output update accepted for the coming edge -/
  latched : Option Latch := none
  /-- output bytes applied at the last edge, by image address; whether substitutes stand in their place -/
  applied : Mem := []
  subst : Bool := true
  /-- AO-1 channels at their substitutes before their task's first commit (R120) -/
  waits : List Nat := []
  /-- the update applied at this edge sets the baselines -/
  base : Bool := false
  /-- baseline of change-of-value fields must be taken from the next accepted frame (R357, R380) -/
  baseline : Option LaneId := none
  wdCount : Nat := 0
  wdFired : Bool := false
  /-- the edge timer runs on its own; consecutive edges without any marker -/
  ownTimer : Bool := false
  /-- it did so in the tick before (R148) -/
  ownPrev : Bool := false
  missed : Nat := 0
  /-- markers of the coming edge, each with the correction that adopting it makes, in ns (R129, R130) -/
  markA : Option Nat := none
  markB : Option Nat := none
  /-- counters 3 to 7 of each link -/
  cntA : List Nat := [0, 0, 0, 0, 0]
  cntB : List Nat := [0, 0, 0, 0, 0]
  frame : Option IslFrame := none
  dio : DioIsl := {}
  ai : AiIsl := {}
  ao : AoIsl := {}
  mx : MxIsl := {}
  deriving DecidableEq, Repr

end Sys2Proof.Machine
end

