-- ==== Sys2Proof/Machine/StSafe.lean ====
section
/-! DEFINITION. Safety kernel state (chapters 15, 16). What the two processors hold alike is held once: a difference between
them is a kernel fault (R383). -/

namespace Sys2Proof.Machine

/-- Kernel states, coded 0 to 5 in this order (R385, R401). -/
inductive SkPhase where
  | selftest | waitImage | verify | run | safeStop | dormant
  deriving DecidableEq, Repr

/-- A safety input (R390, R392): last sample, tested state, samples of a run against it, the test in its mask window. -/
structure SkIn where
  raw : Bool := false
  tested : Bool := false
  run : Nat := 0
  inWin : Bool := false
  /-- at 1 before the window; no 0 seen so far from 100 µs after its start -/
  before : Bool := false
  saw0 : Bool := false
  fail : Bool := false
  /-- samples since the last failed pulse -/
  good : Nat := 0
  deriving DecidableEq, Repr

/-- A test source (R391): when an overload switched it off, by SK-1's own clock, BACKFEED, and whether it is in its low. -/
structure SkSrc where
  overl : Option Nat := none
  back : Bool := false
  low : Bool := false
  deriving DecidableEq, Repr

/-- Pair states, coded 0 to 5 in this order (R394, R401). -/
inductive PairPhase where
  | locked | opened | closing | released | demand | fault
  deriving DecidableEq, Repr

/-- A two-channel input pair (R394, R396): discrepancy timer in samples of 50 µs, fault flags, proof test. -/
structure SkPair where
  phase : PairPhase := .locked
  timer : Nat := 0
  disc : Bool := false
  test : Bool := false
  due : Bool := false
  /-- the channel that moved first is B (CLOSING, DEMAND) -/
  lead : Bool := false
  /-- when a proof test was armed, by SK-1's own clock -/
  armed : Option Nat := none
  /-- operating time of the last pass -/
  passAt : Nat := 0
  /-- samples without TEST_FAIL -/
  clean : Nat := 0
  deriving DecidableEq, Repr

/-- A safety output (R397 to R399). -/
structure SkOut where
  /-- SK-X and SK-Y command on -/
  x : Bool := false
  y : Bool := false
  /-- what the program commands, and for how many cycles it has commanded off -/
  cmd : Bool := false
  offFor : Nat := 0
  /-- cycles since the output last switched, the one in which a fault switched it off not counted -/
  since : Nat := 0
  /-- it was switched off within the present cycle -/
  mid : Bool := false
  /-- µs by which an off-pulse window delays the switch that was commanded on in it (R403) -/
  delay : Nat := 0
  high : Bool := false
  /-- read back since it last switched -/
  seen : Bool := false
  sw : Bool := false
  ext : Bool := false
  overl : Bool := false
  latched : Bool := false
  /-- the latched fault has been acknowledged -/
  acked : Bool := false
  /-- the condition of the last fault is still there, by the last readback -/
  bad : Bool := false
  deriving DecidableEq, Repr

/-- Connection states, coded 0 to 3 in this order (R412, R413). -/
inductive ConnPhase where
  | unused | wait | run | failed
  deriving DecidableEq, Repr

/-- A safety connection (R410 to R413). -/
structure SkConn where
  phase : ConnPhase := .unused
  /-- cause of the last failure: 0 none, 1 TIME, 2 CHECK, 3 SEQUENCE -/
  cause : Nat := 0
  /-- last accepted SEQ, and cycles since its acceptance -/
  last : Option Nat := none
  age : Nat := 0
  restart : Bool := false
  valid : Bool := false
  data : List Byte := []
  /-- failed checks in WAIT and FAILED -/
  fails : Nat := 0
  /-- producer: SEQ of the newest PDU, PDUs built since RUN, the newest PDU -/
  seq : Nat := 0
  built : Nat := 0
  pdu : Option (List Byte) := none
  deriving DecidableEq, Repr

/-- What a lane's output frames have brought since the last cycle start: SAFE 0x200 to 0x248 and PDUs by connection. -/
structure LaneRx where
  safe : List Byte
  pdus : Tab (List Byte)
  deriving DecidableEq, Repr

/-- SK-1. `digest` and `pw` are its own non-volatile copies (R417). -/
structure Sk where
  powered : Bool := false
  phase : SkPhase := .selftest
  /-- SK-1's own clock in ns, counted by its samples of 50 µs (R32, R384, R390) -/
  clock : Nat := 0
  /-- the state left for DORMANT, until the self-test after the wake -/
  left : Option SkPhase := none
  fault : Nat := 0
  cycle : Nat := 0
  /-- image in force, and image to verify -/
  image : Option (List Byte) := none
  cand : Option (List Byte) := none
  /-- VERIFY was entered from RUN: a failed check resumes the old image (R385) -/
  resume : Bool := false
  ins : Tab SkIn := []
  srcs : Tab SkSrc := []
  pairs : Tab SkPair := []
  outs : Tab SkOut := []
  conns : Tab SkConn := []
  statusOut : List Byte := []
  /-- lane bytes in use: REQUEST, and the baselines of PROOF_SEQ and FAULT_ACK_SEQ -/
  req : List Byte := []
  proofSeq : List Byte := []
  ackSeq : Nat := 0
  /-- the next lane frame gives the baselines -/
  rebase : Bool := true
  subst : Bool := false
  split : Bool := false
  supplyLow : Bool := false
  rxA : Option LaneRx := none
  rxB : Option LaneRx := none
  /-- cycles since a lane frame was taken -/
  noFrame : Nat := 0
  /-- published status, by image address: the last, from the station time at which the islands hold it, and the one before (R384) -/
  pub : Mem := []
  pubOld : Mem := []
  pubFrom : Nat := 0
  digest : Option (List Byte) := none
  /-- salt and V of the station password -/
  pw : Option (List Byte × List Byte) := none
  deriving DecidableEq, Repr

end Sys2Proof.Machine
end

