-- ==== Sys2Proof/Machine/State.lean ====
section
/-! DEFINITION. The state of the DPS-7840: everything the spec gives the module, as plain data, and the queue of waiting
commands. Tables hold what differs from reset. -/

namespace Sys2Proof.Machine

/-- Why a step stops with a fault. No row on any data raises one: the type is closed and kept for the host's interface. -/
inductive Fault where
  /-- raised by no row; safe -/
  | none
  deriving DecidableEq, Repr

/-- Why a command has no meaning. -/
inductive Refusal where
  /-- an arm of exec without a meaning, by its mnemonic; raised by exec alone; safe -/
  | notModelled (mnemonic : String)
  deriving DecidableEq, Repr

/-- Station states, coded 1 to 3 in this order (R105). -/
inductive StPhase where
  | starting | stopped | running
  deriving DecidableEq, Repr

/-- A configuration record (R14): its header, its offset in the image, and all its bytes. -/
structure CfgRec where
  off : Nat
  typ : Nat
  ver : Nat
  flags : Nat
  inst : Nat
  bytes : List Byte
  deriving DecidableEq, Repr

/-- A DMA region of a partition (R79). -/
structure Region where
  base : BitVec 64
  len : Nat
  /-- DIR: bit 0 the module reads, bit 1 the module writes -/
  dir : Nat
  deriving DecidableEq, Repr

/-- What a bulk transfer carries and where (R77, R90, R92, R96, R470). Lengths are bytes. -/
inductive Xfer where
  /-- host to staging of a target: image offset, length -/
  | chunk (target off len : Nat) (region roff : Nat)
  /-- a staged image of a target under validation: its bytes validated so far are the mailbox's (R78) -/
  | validate (target size : Nat) (session : Bool)
  /-- host to module: a patch list of n entries -/
  | patches (n : Nat) (region roff : Nat)
  /-- module to host: the bytes, already taken; `store`: from the recorder's store, which must stay up (R477) -/
  | toHost (data : List Byte) (region roff : Nat) (d1 tick : Nat) (tail : List Nat) (store : Bool)
  /-- module to host: recorder slots from a sequence on -/
  | slots (first count : Nat) (region roff : Nat)
  deriving DecidableEq, Repr

/-- Where a command stands in its mailbox (R72, R77). -/
inductive MbPhase where
  | idle | accepted | queued | running
  /-- waiting for an edge or a confirmation (commit, stop, change of ends) -/
  | waiting
  deriving DecidableEq, Repr

/-- One mailbox of a partition (R54, R58, R69, R72). -/
structure Mailbox where
  busy : Bool := false
  done : Bool := false
  rej : Bool := false
  preempted : Bool := false
  seq : Nat := 0
  /-- the command area as the host wrote it -/
  area : List Byte := []
  /-- the accepted command's words -/
  cmd : List Word := []
  /-- place of the command in doorbell order across the partitions (R77) -/
  order : Nat := 0
  phase : MbPhase := .idle
  /-- bytes transferred so far, and before the last piece -/
  bytes : Nat := 0
  prev : Nat := 0
  /-- bytes up to the last flush (R100) -/
  flushed : Nat := 0
  xfer : Option Xfer := none
  /-- bytes received so far of a patch list -/
  buf : List Byte := []
  resp : List Byte := []
  deriving DecidableEq, Repr

/-- Message kinds of R101. -/
inductive ThlKind where
  | hello | regRead | regWrite | data | ack | notify
  deriving DecidableEq, Repr

/-- THL session of a partition (R101 to R103). -/
structure ThlSess where
  id : Nat
  key : List Byte
  /-- highest accepted sequence and the 64 below it already seen -/
  high : Nat
  seen : List Nat
  /-- sequence of the last message that the module sent -/
  sent : Nat := 0
  /-- lane whose network unit serves it, and discarded messages -/
  lane : LaneId
  discarded : Nat := 0
  deriving DecidableEq, Repr

/-- ATTACH_STATE codes 0 to 3 in this order (R54). -/
inductive AttState where
  | detached | attaching | attached | detaching
  deriving DecidableEq, Repr

/-- A ring entry (R65), less SEQ, which is its ring count modulo 256. -/
structure RingEntry where
  src : Nat
  code : Nat
  data : Nat
  deriving DecidableEq, Repr

/-- Wide-read window (R60, R61). -/
structure Wide where
  sel : Word := 0
  echo : Nat := 0
  badSel : Bool := false
  pending : Bool := false
  valid : Bool := false
  d0 : Word := 0
  d1 : Word := 0
  d2 : Word := 0
  d3 : Word := 0
  /-- tick count and station time at which the capture's write arrived, and the lane value captured then -/
  atTick : Nat := 0
  atTime : Nat := 0
  cap : Option (List Nat) := none
  deriving DecidableEq, Repr

/-- Slow port (R62, R63): SLOW_ADDR, SLOW_DATA and the access in progress. -/
structure Slow where
  addr : Nat := 0
  data : Word := 0
  /-- none: free; some none: a read; some (some d): a posted write -/
  access : Option (Option Word) := none
  deriving DecidableEq, Repr

/-- One host partition (chapters 02, 03), with its own RTC, panel and cartridge port state (R64). -/
structure Partition where
  bus : Bus := .pcie
  lane : LaneId := .a
  att : AttState := .detached
  roleReq : Nat := 0
  grace : Bool := false
  /-- attach with RESUME started within the grace (R82) -/
  resuming : Bool := false
  evEn : Bool := false
  evIrqEn : Bool := false
  mbIrqEn : Bool := false
  ringNe : Bool := false
  ringOvf : Bool := false
  nmPend : Bool := false
  slowDrop : Bool := false
  wideLost : Bool := false
  head : Nat := 0
  tail : Nat := 0
  ring : Tab RingEntry := []
  held : List RingEntry := []
  latTol : Word := 0
  /-- LAT_TOL in effect since the last edge (R57) -/
  latEff : Word := 0
  wide : Wide := {}
  slow : Slow := {}
  main : Mailbox := {}
  urg : Mailbox := {}
  regions : Tab Region := []
  ringRegion : Option Nat := none
  sub : BitVec 256 := 0
  subNext : Option (BitVec 256) := none
  session : Bool := false
  nonce : Option (List Byte) := none
  thl : Option ThlSess := none
  rtc : RtcPort := {}
  pnl : PnlPort := {}
  /-- CART_STATUS bits 8 to 11: INSERTED, REMOVED, MEAS_DONE, MEAS_ABORT (R496) -/
  cartFlags : Nat := 0
  deriving DecidableEq, Repr

/-- Staging area of a target (R89, R90). -/
structure StageArea where
  part : Nat
  total : Nat
  bytes : Mem
  /-- ranges received, as (offset, length) -/
  have_ : List (Nat × Nat)
  deriving DecidableEq, Repr

/-- A commit between its validation and its application (R41, R91). -/
structure Commit where
  part : Nat
  target : Nat
  image : List Byte
  /-- tick of validation -/
  tick : Nat
  confirmed : Bool
  /-- tick of the confirmation -/
  confTick : Nat
  detail0 : Nat
  /-- sent to the standby lane for confirmation, or to SK-1 (R41, R42) -/
  forwarded : Bool
  /-- the committing partition held a SAFETY session when validation started (R421) -/
  session : Bool
  deriving DecidableEq, Repr

/-- A patch batch waiting for its tick (R92, R208): its place in doorbell order, level of its task, tick count of its release, symbol
numbers and values. -/
structure Batch where
  part : Nat
  order : Nat
  level : Nat
  due : Nat
  items : List (Nat × List Byte)
  deriving DecidableEq, Repr

/-- Why a change of ends was started (R285, R288, R433). -/
inductive EndsCause where
  | timer | host (p : Nat) | action2 | memory | clock | swapBack
  deriving DecidableEq, Repr

/-- Change of ends (R285 to R288). -/
structure Ends where
  /-- dead-ball tick S of the change in progress -/
  s : Option Nat := none
  cause : EndsCause := .timer
  confirmed : Bool := false
  /-- the ACTIVE lane has released (RELEASE_NEXT sent, release words sent) -/
  released : Bool := false
  /-- timer due and deferred; EV037 0x0002 raised -/
  due : Bool := false
  deferred : Bool := false
  /-- an immediate change that waits for condition 4 -/
  waiting : Option EndsCause := none
  /-- self-check ticks left, and the periods that had failed on the new lane at the swap (R288) -/
  check : Nat := 0
  failBase : Nat := 0
  /-- partitions whose ENDS_CHANGE awaits the confirmation -/
  asked : List Nat := []
  /-- the lane that must go OFFLINE after the swap (R174, R433) -/
  offAfter : Option OffCause := none
  /-- task levels whose ACTION 2 has asked for the change in progress (R163) -/
  levels : List Nat := []
  /-- descriptors removed as MISREAD on the new lane by the swap (R288) -/
  missBase : Nat := 0
  deriving DecidableEq, Repr

/-- Power states in order of depth, coded 0 to 3 (R444). -/
inductive PowerState where
  | lit | dimmed | occulting | dark
  deriving DecidableEq, Repr

/-- Station power state (R443 to R452). -/
structure Power where
  ps : PowerState := .lit
  /-- state being entered, or left for -/
  entering : Option PowerState := none
  /-- Occulting or Dark chosen and its dwell running -/
  dwell : Option PowerState := none
  /-- since when, in ns of `Grid.mono` -/
  dwellFrom : Nat := 0
  /-- the last edge after which a gate request of the entry ended GATE_BUSY, and how many in a row (R442, R452) -/
  busyTick : Option Nat := none
  busyEdges : Nat := 0
  /-- TMIN in µs, none when unlimited (R445) -/
  tmin : Option Nat := none
  /-- PARK is set in the heartbeat word (R447) -/
  park : Bool := false
  /-- a wake source that came during the entry to Dark (R452) -/
  wake : Option WakeSource := none
  deriving DecidableEq, Repr

/-- The tick grid (R125 to R127). -/
structure Grid where
  /-- station time of the latest edge, in ns -/
  now : Nat := 0
  /-- tick count of the latest edge -/
  tick : Nat := 0
  /-- fraction and overshoot of station time at the first cycle of the 125 MHz clock at or after that edge, in 2⁻³² ns (R299) -/
  frac : Nat := 0
  /-- ns passed up to that cycle since the model started, by the main lane's 125 MHz clock (R299, R538) -/
  mono : Nat := 0
  /-- station time was stepped since START (R148), and the ticks that forward steps skipped (R127) -/
  stepped : Bool := false
  skipped : Nat := 0
  deriving DecidableEq, Repr

/-- A LOOP_MODE or LOOP_PARAM that waits for the loop engine's next pass (R237, R241): its partition, its loop, and the
mode asked for or the words to apply. -/
structure LoopAsk where
  part : Nat
  loop : Nat
  mode : Nat := 0
  words : List (Nat × Nat) := []
  /-- the first tick whose pass may take it -/
  tick : Nat := 0
  deriving DecidableEq, Repr

/-- Station-wide state (chapters 01, 03, 04). -/
structure Station where
  phase : StPhase := .starting
  ready : Bool := false
  stopCause : Nat := 0
  stopArg : Nat := 0
  /-- tick count of START in force (R120) -/
  startAt : Option Nat := none
  /-- tick count at which the STOP in force takes effect (R123) -/
  stopAt : Option Nat := none
  cfg : Option (List CfgRec) := none
  cfgCrc : Nat := 0
  prog : Option (List Byte) := none
  access : Option (List CfgRec) := none
  accessImage : List Byte := []
  cfgImage : List Byte := []
  /-- the safety image as accepted by SK-1 and forwarded to it (R42) -/
  safety : Option (List Byte) := none
  safetyAccepted : Bool := false
  stage : Tab StageArea := []
  commit : Option Commit := none
  lock : Option Nat := none
  wrongProofs : Nat := 0
  lockout : Bool := false
  lockoutAt : Nat := 0
  batches : List Batch := []
  /-- output write ranges of each task, as (image address, length), derived at load (R172) -/
  mpu : Tab (List (Nat × Nat)) := []
  /-- levels whose task is not resident in its cache partitions, derived at load (R151) -/
  cold : List Nat := []
  /-- levels whose tolerance asks for a role change, decided at the next edge (R163) -/
  roleAsks : List Nat := []
  /-- the program has been RUNNING since its commit (R209) -/
  hasRun : Bool := false
  bulkQueue : List Nat := []
  orderNo : Nat := 0
  limits : Tab Limit := []
  ends : Ends := {}
  power : Power := {}
  referee : Nat := 5
  /-- the lowest point that holds the budget, recorded at program load (R159) -/
  dimOp : Nat := 4
  /-- staged LOOP_PARAM words of each loop: offset and value (R241) -/
  loopStage : Tab (List (Nat × Nat)) := []
  loopModes : List LoopAsk := []
  loopParams : List LoopAsk := []
  /-- tasks, loops and chains run: from START's TICK to STOP's TICK (R120, R123) -/
  engaged : Bool := false
  /-- power-fail sequence (R491): step reached, bank voltage in mV -/
  pfStep : Nat := 0
  /-- SAFE_SHUTDOWN has begun since the last START (R509) -/
  shut : Bool := false
  /-- START has yet to restore retained data: a capture of the bank that it restores is still to come (R200, R209) -/
  restoreDue : Bool := false
  /-- number and STATUS_GET data of the last completed tick (R97) -/
  lastStatus : Option (Nat × List Byte) := none
  deriving DecidableEq, Repr

/-- PTP messages that a slave sends (R296). -/
inductive PtpAsk where
  | delayReq | peerReq | peerResp
  deriving DecidableEq, Repr

/-- What the module sends out. -/
inductive Out where
  /-- MSI-X vector 0 to 2 of a partition on PCIe (R54) -/
  | irq (p vec : Nat)
  /-- bytes written to a host bus address (R80, R100) -/
  | dma (p : Nat) (addr : BitVec 64) (data : List Byte)
  /-- a THL message on both plant ports of a lane, with the sequence of its PRP trailer: partition, session, sequence, kind,
  content and tag (R101, R314) -/
  | thl (l : LaneId) (prp p sess seq : Nat) (kind : ThlKind) (content tag : List Byte)
  /-- a flow frame launched on a lane's ports (bit 0 port A, bit 1 port B) -/
  | flow (l : LaneId) (ports : Nat) (w : FlowTag) (f : FlowFrame)
  | can (l : LaneId) (port : Nat) (f : CanFrame)
  /-- a heartbeat word over the lane bridge (R266) -/
  | heartbeat (l : LaneId) (word : List Byte)
  | rs422 (port : Nat) (text : List Byte)
  /-- an ARP answer or announcement, an ICMP echo answer, a supervision frame, on both ports of a lane, with the sequence of the
  trailer (R293) -/
  | arp (l : LaneId) (prp : Nat) (ip : Word)
  | echo (l : LaneId) (prp : Nat) (ip : Word)
  | prpSupervision (l : LaneId) (prp : Nat)
  /-- a PTP message of one port, over UDP/IPv4 or Ethernet (R296) -/
  | ptp (l : LaneId) (portB udp : Bool) (m : PtpAsk)
  /-- WAKE# of a lane's backplane connector is asserted (R517) -/
  | wake (l : LaneId)
  deriving DecidableEq, Repr

/-- The transmit queue of the network unit through which an output leaves (R306); the PTP messages that the station sends are event
messages. None for what leaves elsewhere. -/
def Out.queue : Out → Option Nat
  | .flow _ _ w _ => some w.queue
  | .ptp .. => some 56
  | .thl .. => some 58
  | .prpSupervision .. => some 59
  | .arp .. | .echo .. => some 60
  | .irq .. | .dma .. | .can .. | .heartbeat .. | .rs422 .. | .wake .. => none

/-- The 802.1Q priority of a frame that leaves (R304, R314). -/
def Out.pcp : Out → Option Nat
  | .flow _ _ w _ => some w.pcp
  | .thl .. => some 4
  | .ptp .. | .prpSupervision .. | .arp .. | .echo .. | .irq .. | .dma .. | .can .. | .heartbeat .. | .rs422 .. | .wake .. => none

/-- The machine. -/
structure State where
  /-- commands waiting, the first in front -/
  pending : List Instr := []
  /-- counter that the free values are applied to (log entry 3) -/
  free : Nat := 0
  out : List Out := []
  grid : Grid := {}
  st : Station := {}
  a : Lane := {}
  b : Lane := {}
  parts : Tab Partition := []
  isl : Tab Island := []
  sk : Sk := {}
  svc : Svc := {}
  deriving DecidableEq, Repr

/-- A factory-new module without power (R537): every lane off, nothing accepted, nothing waiting. -/
def State.reset : State := {}

end Sys2Proof.Machine
end

