-- ==== Sys2Proof/Machine/Operands.lean ====
section
/-! DEFINITION. Operand forms: fields of configuration records (R14), words of commands (R71), parts of the state by lane,
partition and island, and the settings that the accepted configuration gives. -/

namespace Sys2Proof.Machine

def other : LaneId → LaneId
  | .a => .b
  | .b => .a

def laneNo : LaneId → Nat
  | .a => 0
  | .b => 1

def Role.code : Role → Nat
  | .offline => 0
  | .standby => 1
  | .active => 2
  | .solo => 3

def Health.code : Health → Nat
  | .good => 0
  | .degraded => 1
  | .suspect => 2
  | .failed => 3

def StPhase.code : StPhase → Nat
  | .starting => 1
  | .stopped => 2
  | .running => 3

def AttState.code : AttState → Nat
  | .detached => 0
  | .attaching => 1
  | .attached => 2
  | .detaching => 3

def PowerState.code : PowerState → Nat
  | .lit => 0
  | .dimmed => 1
  | .occulting => 2
  | .dark => 3

def State.lane (s : State) : LaneId → Lane
  | .a => s.a
  | .b => s.b

def State.setLane (s : State) (l : LaneId) (v : Lane) : State :=
  match l with
  | .a => { s with a := v }
  | .b => { s with b := v }

def State.updLane (s : State) (l : LaneId) (f : Lane → Lane) : State := s.setLane l (f (s.lane l))

def State.part (s : State) (p : Nat) : Partition := s.parts.get p {}

def State.updPart (s : State) (p : Nat) (f : Partition → Partition) : State :=
  { s with parts := s.parts.set p (f (s.part p)) }

def State.island (s : State) (i : Nat) : Island := s.isl.get i {}

def State.updIsl (s : State) (i : Nat) (f : Island → Island) : State :=
  { s with isl := s.isl.set i (f (s.island i)) }

def State.updSt (s : State) (f : Station → Station) : State := { s with st := f s.st }

def State.updSvc (s : State) (f : Svc → Svc) : State := { s with svc := f s.svc }

def State.updRec (s : State) (f : Recorder → Recorder) : State := s.updSvc fun v => { v with rcd := f v.rcd }

def State.emit (s : State) (o : Out) : State := { s with out := s.out ++ [o] }

/-- The mailbox of a partition: the urgent one or the main one. -/
def State.mbox (s : State) (p : Nat) (urg : Bool) : Mailbox := if urg then (s.part p).urg else (s.part p).main

def State.updMb (s : State) (p : Nat) (urg : Bool) (f : Mailbox → Mailbox) : State :=
  s.updPart p fun q => if urg then { q with urg := f q.urg } else { q with main := f q.main }

/-- A field of a configuration record, by its offset and size (R14). -/
def CfgRec.u (r : CfgRec) (off n : Nat) : Nat := rdU r.bytes off n

def CfgRec.i (r : CfgRec) (off n : Nat) : Int := rdI r.bytes off n

/-- Records of a type, in record order. -/
def recsOf (rs : List CfgRec) (typ : Nat) : List CfgRec := rs.filter fun r => r.typ == typ

def findRec (rs : List CfgRec) (typ inst : Nat) : Option CfgRec := rs.find? fun r => r.typ == typ && r.inst == inst

/-- The accepted configuration's records; none before one is accepted (R112). -/
def State.cfgRecs (s : State) : List CfgRec := s.st.cfg.getD []

def State.cfgRec (s : State) (typ inst : Nat) : Option CfgRec := findRec s.cfgRecs typ inst

/-- The access record of a partition in the accepted list (R84). -/
def State.accRec (s : State) (p : Nat) : Option CfgRec := s.st.access.bind fun rs => findRec rs 0x0E01 p

/-- A field of the station profile record, type 0x0101 (R116). -/
def State.profile (s : State) (off n d : Nat) : Nat :=
  match s.cfgRec 0x0101 0 with
  | some r => r.u off n
  | none => d

def tickOptions : List Nat := [50, 100, 125, 200, 250, 500, 1000]

/-- Configured tick in µs; 0 before a configuration is accepted (R97). -/
def State.tickUs (s : State) : Nat := s.profile 8 2 0

/-- Tick length L in ns (R125); before a configuration the option that the module boots on (log entry 9). -/
def State.lenNs (s : State) : Nat :=
  (if s.tickUs = 0 then tickOptions.getD Config.bootTickIndex.val 1000 else s.tickUs) * 1000

def State.islandWd (s : State) : Nat := s.profile 0x0A 2 20

def State.stationNumber (s : State) : Nat := s.profile 0x0C 2 0

def State.safetyUsed (s : State) : Bool := bit ((s.cfgRec 0x0101 0).elim 0 CfgRec.flags) 0

def State.warmRetain (s : State) : Bool := bit ((s.cfgRec 0x0101 0).elim 0 CfgRec.flags) 1

/-- Tick number of the present tick (R36, R125). -/
def State.tickNo (s : State) : Nat := s.grid.tick % 2 ^ 32

/-- Short time: bits [31:0] of station time (R11), `dt` ns after the latest edge. -/
def State.shortTime (s : State) (dt : Nat) : Nat := (s.grid.now + dt) % 2 ^ 32

/-- The ACTIVE or SOLO lane, when there is one (R40). -/
def State.activeLane (s : State) : Option LaneId :=
  if s.a.role == .active || s.a.role == .solo then some .a
  else if s.b.role == .active || s.b.role == .solo then some .b
  else none

/-- The STANDBY lane, when there is one. -/
def State.standbyLane (s : State) : Option LaneId :=
  if s.a.role == .standby then some .a else if s.b.role == .standby then some .b else none

/-- ACTIVE_VALID and ACTIVE_LANE (R54, R283): a STANDBY lane holds its partner for active until it declares its failure or asks
for the tokens. -/
def State.shownActive (s : State) : Option LaneId :=
  match s.standbyLane with
  | some l => if (s.lane l).beat.declared || (s.lane l).tok.asked == some .takeover then none else some (other l)
  | none => s.activeLane

/-- The lane whose image, rings and management state serve: the active one, else Lane A. -/
def State.mainLane (s : State) : LaneId := s.activeLane.getD .a

/-- A lane computes tick by tick: ACTIVE, SOLO, STANDBY, or tracking within re-integration (R262, R289). -/
def tracks (v : Lane) : Bool := v.role != .offline || v.reint.step == .tracking

/-- A lane receives snapshots: STANDBY or tracking. -/
def receives (v : Lane) : Bool := v.role == .standby || (v.role == .offline && v.reint.step == .tracking)

def runsRole (r : Role) : Bool := r == .active || r == .solo

/-- The first failing condition of a list, by its byte offset (R73). -/
def firstBad : List (Bool × Nat) → Option Nat
  | [] => none
  | (ok, off) :: r => if ok then firstBad r else some off

/-- Words of a command area (R69). -/
def areaWords (bs : List Byte) : Nat → List Word
  | 0 => []
  | n + 1 => BitVec.ofNat 32 (leNat (bs.take 4)) :: areaWords (bs.drop 4) n

/-- Word `i` of a command (R71). -/
def word (ws : List Word) (i : Nat) : Nat := (ws.getD i 0).toNat

/-- MAX_ROLE and role of a partition (R85): 0 none, 1 OBSERVER, 2 OPERATOR, 3 OWNER. -/
def State.maxRole (s : State) (p : Nat) : Nat := (s.accRec p).elim 0 fun r => r.u 8 1

def State.isAttached (s : State) (p : Nat) : Bool := (s.part p).att == .attached

/-- Attached, or in the link grace with its state held (R82). -/
def State.holdsRing (s : State) (p : Nat) : Bool := s.isAttached p || (s.part p).grace

def State.roleOf (s : State) (p : Nat) : Nat :=
  if !s.holdsRing p then 0
  else if s.st.lock == some p then 3
  else if s.st.access.isNone then 1
  else min (s.part p).roleReq (s.maxRole p)

/-- The binding of a partition is permitted: by the accepted list (R81, R84), or before it on PCIe, or on THL with a
password seal (R102). -/
def State.bindingOk (s : State) (p : Nat) (bus : Bus) (l : LaneId) : Bool :=
  if s.st.access.isNone then bus == .pcie || (s.svc.rcd.seals.get? 0x0A12).isSome
  else match s.accRec p with
    | none => false
    | some r => match bus, l with
      | .pcie, .a => bit (r.u 9 1) 0
      | .pcie, .b => bit (r.u 9 1) 1
      | .thl, _ => bit (r.u 9 1) 2

/-- The lane that serves a THL address: its own while the bootstrap address stands, else the ACTIVE or SOLO lane (R101, R314, R315). -/
def State.thlAt (s : State) (l : LaneId) : LaneId := if (s.lane l).net.bootUp then l else s.activeLane.getD l

/-- The lane of a partition's link: a THL address moves with the active lane (R54, R101, R283). -/
def State.linkLane (s : State) (p : Nat) : LaneId :=
  match (s.part p).bus with
  | .pcie => (s.part p).lane
  | .thl => s.thlAt ((s.part p).thl.elim (s.part p).lane ThlSess.lane)

/-- The lane through which a host's access comes: the partition's link while it has one; a detached partition, or one in its link
grace, is reached on any binding (R55, R82). -/
def State.viaLane (s : State) (p : Nat) (via : LaneId) : LaneId :=
  if (s.part p).grace || (s.part p).att == .detached then via else s.linkLane p

/-- The lane on which a THL session's messages pass: its bootstrap address while that stands, which is served by forwarding too, else
the ACTIVE or SOLO lane (R101, R314, R315). -/
def State.thlLane (s : State) (t : ThlSess) : LaneId := s.thlAt t.lane

/-- A lane is up: ACTIVE, STANDBY or SOLO (R54). -/
def Lane.isUp (v : Lane) : Bool := v.role != .offline

/-- A lane's domains run: its firmware, its engines and its links do their work (R106, R434). -/
def Lane.runs (v : Lane) : Bool := v.phase == .running && !v.clocks.held

/-- A lane whose network unit is up (R106). -/
def Lane.netUp (v : Lane) : Bool := v.feed && v.runs

/-- A lane whose network unit carries plant traffic: an OFFLINE lane forwards none (R21). -/
def Lane.onNet (v : Lane) : Bool := v.netUp && v.role != .offline

/-- A lane that has left retention and has not been re-integrated since (R448). -/
def Lane.resumes (v : Lane) : Bool := v.phase == .running && v.role == .offline && v.cause == .parked

/-- A lane is present: powered and not stopped. -/
def Lane.present (v : Lane) : Bool := v.feed && (v.phase == .starting || v.phase == .running || v.phase == .parked)

end Sys2Proof.Machine
end

