-- ==== Sys2Proof/Machine/Flags.lean ====
section
/-! DEFINITION. Status and flag registers of the window as words (02_host_window.md R54), and write-1-to-clear. -/

namespace Sys2Proof.Machine

/-- A W1C flag after a write whose bit is `w` (R8). -/
def w1c (flag w : Bool) : Bool := flag && !w

/-- Bits of a word, given as (position, value) pairs with the value already in its width. -/
def packWord (fs : List (Nat × Nat)) : Word := BitVec.ofNat 32 (fs.foldl (fun a f => a + f.2 * 2 ^ f.1) 0)

/-- WIN_ID, 0x000, as read on a binding. -/
def winId (p : Nat) (bus : Bus) (lane : LaneId) : Word :=
  packWord [(16, 0x7840), (8, 1), (5, if bus == .thl then 1 else 0), (4, laneNo lane), (0, p % 8)]

/-- POWER_STATE of WIN_STATUS: the state, 011 while Dark is entered, 100 while moving (R444). -/
def powerCode (s : State) : Nat :=
  match s.st.power.entering with
  | some .dark => 3
  | some _ => 4
  | none => s.st.power.ps.code

/-- WIN_STATUS, 0x004. In the link grace the window shows attaching, with role, lock and session as held (R82); a binding
that is not the partition's own shows none of its state (`own` = 0). -/
def winStatus (s : State) (p : Nat) (skReady : Bool) (own : Nat := 1) : Word :=
  let q := s.part p
  let act := s.shownActive
  packWord [(17, own * b2n q.slow.access.isSome), (16, b2n skReady), (13, powerCode s), (12, own * b2n (s.st.lock == some p)),
    (11, own * b2n q.session), (8, own * s.roleOf p), (6, own * if q.grace then 1 else q.att.code), (5, b2n act.isSome),
    (4, act.elim 0 laneNo), (3, b2n s.b.isUp), (2, b2n s.a.isUp), (1, 1), (0, b2n s.st.ready)]

/-- WIN_CTRL, 0x008: the enables read back, ATTACH and DETACH read 0. -/
def winCtrl (q : Partition) : Word := packWord [(4, b2n q.mbIrqEn), (3, b2n q.evIrqEn), (2, b2n q.evEn)]

/-- EV_STATUS, 0x00C. -/
def evStatus (q : Partition) : Word :=
  packWord [(4, b2n q.wideLost), (3, b2n q.slowDrop), (2, b2n q.nmPend), (1, b2n q.ringOvf), (0, b2n q.ringNe)]

/-- EV_INDEX, 0x010. -/
def evIndex (q : Partition) : Word := packWord [(16, q.head % 65536), (0, q.tail % 65536)]

/-- MB_STATUS, 0x01C. -/
def mbStatus (q : Partition) : Word :=
  packWord [(27, b2n q.urg.rej), (25, b2n q.urg.done), (24, b2n q.urg.busy), (16, q.urg.seq % 256),
    (11, b2n q.main.rej), (10, b2n q.main.preempted), (9, b2n q.main.done), (8, b2n q.main.busy), (0, q.main.seq % 256)]

/-- WIDE_STATUS, 0x024. -/
def wideStatus (w : Wide) : Word :=
  packWord [(8, w.echo % 256), (2, b2n w.badSel), (1, b2n w.pending), (0, b2n w.valid)]

/-- EV_STATUS after a write of `d` (R8, R54). -/
def clearEvStatus (q : Partition) (d : Nat) : Partition :=
  { q with ringNe := w1c q.ringNe (bit d 0), ringOvf := w1c q.ringOvf (bit d 1), nmPend := w1c q.nmPend (bit d 2),
           slowDrop := w1c q.slowDrop (bit d 3), wideLost := w1c q.wideLost (bit d 4) }

/-- Entries in a partition's ring that the host has not consumed (R56). -/
def ringFill (q : Partition) : Nat := (q.head + 65536 - q.tail % 65536) % 65536

end Sys2Proof.Machine
end

