-- ==== Sys2Proof/Machine/Plant.lean ====
section
/-! DEFINITION. What leaves a lane's two plant ports: frame counters and the PRP trailer (11 R293, R317), and the module's own
THL messages (03 R101; 11 R314). -/

namespace Sys2Proof.Machine

def State.updNet (s : State) (l : LaneId) (f : Net → Net) : State := s.updLane l fun v => { v with net := f v.net }

def netRec (s : State) : Option CfgRec := s.cfgRec 0x0301 0

def portNo (portB : Bool) : Nat := if portB then 1 else 0

/-- Counters are 48 bits wide and wrap (R317). -/
def bump (t : Tab Nat) (k n : Nat) : Tab Nat := t.set k ((t.get k 0 + n) % 2 ^ 48)

def countPort (s : State) (l : LaneId) (portB : Bool) (k : Nat) : State :=
  s.updNet l fun v => { v with cnt := bump v.cnt (8 * portNo portB + k) 1 }

/-- A duplicated frame leaves on both ports: the sequence of its trailer, and the counts (R293, R317). -/
def sendBoth (s : State) (l : LaneId) : Nat × State :=
  let q := (s.lane l).net.prpSeq
  (q, countPort (countPort (s.updNet l fun v => { v with prpSeq := (v.prpSeq + 1) % 65536 }) l false 1) l true 1)

/-! PRP (R293, R294) -/

/-- A frame with a trailer: whether it is the first copy, and the discard table after it. -/
def prpPass (s : State) (l : LaneId) (src seq : Nat) : Bool × State :=
  let keep := (netRec s).elim 400 fun r => r.u 0x18 2
  let t := (s.lane l).net.prp.filter fun e => decide (s.grid.mono < e.2.2 + keep * 1000000)
  if t.any fun e => e.1 == src && e.2.1 == seq then (false, s.updNet l fun v => { v with prp := t })
  else (true, s.updNet l fun v => { v with prp := ((src, seq, s.grid.mono) :: t).take 4096 })

/-- A frame with its redundancy trailer as it enters a lane's network unit: counted, and whether it passes (R293, R317); one whose frame
check fails is an FCS error and no received frame (log entry 142). Frames without a trailer pass as single-attached traffic. -/
def plantIn (s : State) (l : LaneId) (rx : Rx) : Bool × State :=
  if !rx.fcs then (false, countPort s l rx.portB 2)
  else
    let s := countPort s l rx.portB 0
    match rx.prp with
    | none => (true, s)
    | some q =>
      let r := prpPass s l rx.src q
      (r.1, if r.1 then r.2 else countPort r.2 l rx.portB 3)

/-- A duplicated frame sent on both ports; `o` takes the sequence of its trailer (R293). -/
def sendPlant (s : State) (l : LaneId) (o : Nat → Out) : State := (sendBoth s l).2.emit (o (sendBoth s l).1)

def ThlKind.no : ThlKind → Nat
  | .hello => 0
  | .regRead => 1
  | .regWrite => 2
  | .data => 3
  | .ack => 4
  | .notify => 5

/-- The tag of a THL message: HMAC-SHA-256 under the session key, truncated (R101, log entry 12). -/
def thlTag (t : ThlSess) (p seq : Nat) (k : ThlKind) (content : List Byte) : List Byte :=
  (hmac256 t.key (Config.thlMessage p t.id seq k.no content)).take 16

/-- A message of the module in a partition's THL session: session identifier, the next sequence, tag (R101, R314). -/
def thlSend (s : State) (p : Nat) (k : ThlKind) (content : List Byte) : State :=
  match (s.part p).thl with
  | none => s
  | some t =>
    let n := (t.sent + 1) % 2 ^ 32
    let l := s.thlLane t
    let r := sendBoth (s.updPart p fun q => { q with thl := some { t with sent := n } }) l
    r.2.emit (.thl l r.1 p t.id n k content (thlTag t p n k content))

/-- An interrupt of a partition: an MSI-X vector, or a NOTIFY message on THL (R54, R101). -/
def notify (s : State) (p vec : Nat) : State :=
  match (s.part p).bus with
  | .pcie => s.emit (.irq p vec)
  | .thl => thlSend s p .notify (leBytes vec 1)

end Sys2Proof.Machine
end

