-- ==== Sys2Proof/Machine/Ops.lean ====
section
/-! DEFINITION. Shared operations: events and records (R65 to R68, R458, R538), mailbox responses (R72, R75), image access. -/

namespace Sys2Proof.Machine

/-- Writes one entry to a partition's ring at HEAD modulo 1024, its DMA copy first (R65, R80), and sets RING_NE. -/
def ringPut (s : State) (p : Nat) (e : RingEntry) : State :=
  let q := s.part p
  let bytes := leBytes e.src 1 ++ leBytes q.head 1 ++ leBytes e.code 2 ++ leBytes e.data 4
  let s := match q.ringRegion with
    | none => s
    | some r => s.emit (.dma p ((q.regions.get r ⟨0, 0, 0⟩).base + BitVec.ofNat 64 (8 * (q.head % 1024))) bytes)
  let s := s.updPart p fun q =>
    { q with ring := q.ring.set (q.head % 1024) e, head := (q.head + 1) % 65536, ringNe := true }
  if q.evIrqEn then notify s p 0 else s

/-- A maskable event offered to one partition's ring (R54 EV_EN, R67, R94). -/
def offerEvent (s : State) (p : Nat) (e : RingEntry) : State :=
  let q := s.part p
  if s.holdsRing p && q.evEn && q.sub.getLsbD e.src then
    if ringFill q < 1008 then ringPut s p e else s.updPart p fun q => { q with ringOvf := true }
  else s

/-- A non-maskable entry: into the ring, NM_PEND with it, or held while even the kept places are full (R68). -/
def offerNonMaskable (s : State) (p : Nat) (e : RingEntry) : State :=
  let q := s.part p
  if s.holdsRing p then
    if ringFill q < 1024 then (ringPut s p e).updPart p fun q => { q with nmPend := true }
    else s.updPart p fun q => { q with held := q.held ++ [e] }
  else s

def allParts : List Nat := [0, 1, 2, 3, 4, 5, 6, 7]

/-- Delivery of an event to every partition (R17, R65). -/
def deliverEvent (s : State) (e : RingEntry) : State :=
  allParts.foldl (fun s p => if e.src = 240 ∨ e.src = 241 then offerNonMaskable s p e else offerEvent s p e) s

/-- Held non-maskable entries enter the ring while places are free (R68). -/
def releaseHeld (s : State) (p : Nat) : Nat → State
  | 0 => s
  | n + 1 =>
    match (s.part p).held with
    | [] => s
    | e :: r =>
      if ringFill (s.part p) < 1024 then
        releaseHeld ((ringPut s p e).updPart p fun q => { q with held := r, nmPend := true }) p n
      else s

/-- Pairs whose records no bucket refuses (R465): never-suppressed codes of the chapters, records of control actions that have a
code (R242, R423, R485), and this store's own events. -/
def bypassPair (src code : Nat) : Bool :=
  [32, 33, 34, 35, 37, 38, 66, 68, 70, 96, 101, 160, 168, 192, 197, 201, 208, 228, 229, 231, 244].contains src ||
  (src == 8 && decide (16 ≤ code ∧ code ≤ 19)) || ((src == 128 || src == 129 || src == 130) && code == 3) ||
  ((src == 131 || src == 132) && (code == 1 || code == 3)) || ((src == 133 || src == 134 || src == 135) && code == 1) ||
  (src == 194 && code == 3) || (src == 195 && decide (1 ≤ code ∧ code ≤ 3)) || (src == 230 && code != 1) || (src == 232 && code == 2) ||
  (src == 233 && code == 3) || (src == 234 && (code == 2 || code == 3)) || (src == 236 && code == 2) ||
  (src == 162 && (code == 0x22 || code == 0x122)) || ((src == 209 || src == 225) && code == 1)

/-- BURST and REFILL_S of a pair (R464, R467): its override, or the recorder record's values, or 8 and 1. -/
def bucketSetting (s : State) (src code : Nat) : Nat × Nat :=
  match s.cfgRec 0x0D01 0 with
  | none => (8, 1)
  | some r =>
    match (List.range (r.u 0x0C 1)).find? fun i => r.u (0x10 + 8 * i) 1 == src && r.u (0x12 + 8 * i) 2 == code with
    | some i => (r.u (0x14 + 8 * i) 1, r.u (0x15 + 8 * i) 1)
    | none => (r.u 8 1, r.u 9 1)

def pairKey (src code : Nat) : Nat := src * 65536 + code

/-- A bucket with the tokens it has gained by operating time `now`; REFILL_S in units of 1/16 s (R464). -/
def refill (b : Bucket) (burst refillS now : Nat) : Bucket :=
  let step := 16 * refillS
  let n := (now - b.last) / step
  if burst ≤ b.tokens + n then { b with tokens := burst, last := now }
  else { b with tokens := b.tokens + n, last := b.last + n * step }

/-- One record judged by a bucket table: admitted with its SUPPRESSED count, or refused and counted (R464). -/
def bucketJudge (t : Tab Bucket) (set : Nat × Nat) (now : Nat) (r : RawRec) : Bool × Nat × Tab Bucket :=
  let k := pairKey r.src r.code
  let b := refill (t.get k ⟨set.1, now, 0, 0⟩) set.1 set.2 now
  if r.bypass then (true, b.refused, t.set k { b with refused := 0 })
  else if b.tokens = 0 then (false, 0, t.set k { b with refused := b.refused + 1, window := b.window + 1 })
  else (true, b.refused, t.set k { b with tokens := b.tokens - 1, refused := 0 })

/-- Flood summaries for the pairs refused in a window, four to a record, each with the number of all of them (R466). -/
def floodRecords (total : Nat) : List (Nat × Nat) → Nat → List RawRec
  | _, 0 => []
  | ps, n + 1 =>
    if ps.isEmpty then []
    else
      let body := (ps.take 4).flatMap fun p => leBytes (p.1 / 65536) 1 ++ [0] ++ leBytes p.1 2 ++ leBytes p.2 4
      { src := 228, code := 0x0101, sev := 2, origin := 3, payload := padTo 36 (leBytes total 2 ++ zeros 2 ++ body),
        bypass := true } :: floodRecords total (ps.drop 4) n

/-- The summaries of a bucket table's window, and the table as the next window finds it (R466). -/
def floodOf (t : Tab Bucket) : List RawRec × Tab Bucket :=
  let ps := (t.filter fun b => b.2.window != 0).map fun b => (b.1, b.2.window)
  (floodRecords ps.length ps ps.length, t.map fun b => (b.1, { b.2 with window := 0 }))

/-- A record into a lane's staging area, judged by the lane's own buckets and stamped from its shadow counters
(R35, R462). A full area keeps what it holds and counts the discard. -/
def stageRecord (s : State) (l : LaneId) (r : RawRec) : State :=
  s.updLane l fun v =>
    let g := v.staging
    let (ok, n, t) := bucketJudge g.buckets (bucketSetting s r.src r.code) g.optime r
    let g := { g with buckets := t }
    { v with staging :=
        if !ok then g
        else if g.recs.length < 1048576 then
          { g with recs := g.recs ++ [{ r with withheld := r.withheld + n, staged := true, origin := r.origin + 4,
                                               stamps := some (g.optime, g.pcycle) }] }
        else { g with discarded := g.discarded + 1 } }

/-- Begins staging on a lane: EV229 code 0x0001 and STAGING (R35, R463). Shadow counters start from the last read. -/
def beginStaging (s : State) (l : LaneId) : State :=
  if (s.lane l).staging.active then s
  else
    let s := s.updLane l fun v => { v with staging := { v.staging with
      active := true, optime := s.svc.rcd.optime, pcycle := s.svc.rcd.pcycle, stepAt := s.svc.rcd.stepAt, buckets := [],
      limits := s.st.limits } }
    let d := laneNo l * 2 ^ 28 + s.grid.tick % 2 ^ 28
    let s := deliverEvent s ⟨229, 1, d⟩
    stageRecord s l ⟨229, 1, Config.severity 229 1 % 5, laneNo l, padTo 36 (leBytes d 4), true, 0, none, false⟩

/-- A record with the stamps of its arrival at the recorder controller (R461); a staged or carried one keeps its own. -/
def stamped (v : Recorder) (r : RawRec) : RawRec := { r with stamps := r.stamps <|> some (v.optime, v.pcycle) }

/-- A record offered to the recorder by a lane (R48, R461 to R463): staged while the service domain is unavailable, its queue is full or
the lane already stages; else queued, behind the records that the lane is still writing back. -/
def offerRecord (s : State) (l : LaneId) (r : RawRec) : State :=
  if (s.lane l).staging.active then stageRecord s l r
  else if !s.svc.up || decide (4096 ≤ s.svc.rcd.queue.length) then stageRecord (beginStaging s l) l r
  else if !(s.lane l).staging.recs.isEmpty then
    s.updLane l fun v => { v with staging := { v.staging with recs := v.staging.recs ++ [stamped s.svc.rcd r] } }
  else s.updRec fun v => { v with queue := v.queue ++ [stamped v r] }

/-- An occurrence of an event or record, before limits. -/
structure Ev where
  src : Nat
  code : Nat
  data : Nat := 0
  /-- PAYLOAD from byte 4 on -/
  pay : List Byte := []
  /-- the whole PAYLOAD where the chapter defines all 36 bytes -/
  full : Option (List Byte) := none
  /-- object of an at-most-once-per-second limit (R538) -/
  obj : Option Nat := none
  /-- writer's lane; 2 SK-1 through the active lane, 3 service domain -/
  lane : LaneId := .a
  writer : Option Nat := none
  sev : Option Nat := none
  /-- a record without a ring entry -/
  ring : Bool := true
  /-- a record of a control action (R465) -/
  control : Bool := false

def Ev.record (e : Ev) (withheld : Nat) : RawRec :=
  { src := e.src, code := e.code, sev := e.sev.getD (Config.severity e.src e.code % 5),
    origin := e.writer.getD (laneNo e.lane),
    payload := match e.full with
      | some b => padTo 36 b
      | none => if e.ring then padTo 36 (leBytes e.data 4 ++ e.pay) else padTo 36 e.pay,
    bypass := e.control || bypassPair e.src e.code, withheld := min withheld 65535 }

/-- An occurrence reported: its ring entry, then its record (R67: the recorder keeps every event). -/
def report (s : State) (e : Ev) (withheld : Nat) : State :=
  let s := if e.ring then deliverEvent s ⟨e.src, e.code, e.data % 2 ^ 32⟩ else s
  offerRecord s e.lane (e.record withheld)

/-- The limits that judge a lane's occurrences: its own while it stages (R462), else the station's. -/
def limitsOf (s : State) (l : LaneId) : Tab Limit :=
  if (s.lane l).staging.active then (s.lane l).staging.limits else s.st.limits

/-- Writes an entry of those limits. -/
def setLimit (s : State) (l : LaneId) (k : Nat) (m : Limit) : State :=
  if (s.lane l).staging.active then s.updLane l fun v => { v with staging := { v.staging with limits := v.staging.limits.set k m } }
  else s.updSt fun t => { t with limits := t.limits.set k m }

/-- Raises an event under the limit of R538: the first occurrence is reported, further ones within 1 s of the last
reported are withheld and counted. -/
def raise (s : State) (e : Ev) : State :=
  match e.obj with
  | none => report s e 0
  | some o =>
    let k := (e.src * 65536 + e.code) * 2 ^ 32 + o % 2 ^ 32
    match (limitsOf s e.lane).get? k with
    | none => report (setLimit s e.lane k ⟨s.grid.mono, 0⟩) e 0
    | some m =>
      if s.grid.mono < m.at_ + 1000000000 then setLimit s e.lane k { m with withheld := m.withheld + 1 }
      else report (setLimit s e.lane k ⟨s.grid.mono, 0⟩) e m.withheld

/-- DATA of most events: the lane in [31:28] and bits [27:0] of the tick number. -/
def dataLaneTick (s : State) (l : LaneId) : Nat := laneNo l * 2 ^ 28 + s.grid.tick % 2 ^ 28

def dataTick (s : State) : Nat := s.grid.tick % 2 ^ 28

/-- DATA with an object number in [31:28] or above (R180). -/
def dataObjTick (s : State) (n : Nat) : Nat := n % 16 * 2 ^ 28 + s.grid.tick % 2 ^ 28

/-- Occurrences that a rule orders to be recorded or reported without giving SOURCE and CODE (log entry 14). -/
inductive Unnamed where
  | instanceReset | patchBatch | patchItem | startUp | startUpFail | stopped | detached | bindingLost | lockGrant | lockRelease | lockTaken | session | commit
  | patchDropped | statusDetach | started | offsetStep | darkEntry | partnerSilent | roleChange | edgeTimer
  deriving DecidableEq, Repr

def Unnamed.no : Unnamed → Nat
  | .startUp => 0
  | .startUpFail => 1
  | .stopped => 2
  | .detached => 3
  | .bindingLost => 4
  | .lockGrant => 5
  | .lockRelease => 6
  | .lockTaken => 7
  | .session => 8
  | .commit => 9
  | .patchDropped => 10
  | .statusDetach => 11
  | .started => 12
  | .offsetStep => 13
  | .darkEntry => 14
  | .partnerSilent => 15
  | .roleChange => 16
  | .instanceReset => 17
  | .patchBatch => 18
  | .patchItem => 19
  | .edgeTimer => 20

/-- SOURCE of an unnamed occurrence: free within its group, and never EV240 or EV241 (R16, R17, log entry 14). -/
def Unnamed.src (k : Unnamed) : Nat :=
  let n := Config.unnamedSource k.no
  match k with
  | .roleChange | .partnerSilent => 32 + n % 32
  | .offsetStep => 64 + n % 32
  | .edgeTimer => 128 + n % 32
  | .darkEntry => 224 + n % 16
  | _ => n % 32

/-- A record of a control action whose SOURCE and CODE no chapter gives; its CODE lies in 0x0100 to 0xFFFF (R458). -/
def noteUnnamed (s : State) (k : Unnamed) (l : LaneId) (pay : List Byte) : State :=
  raise s { src := k.src, code := 256 + Config.unnamedCode k.no % 65280, pay := pay, lane := l,
            ring := false, control := true }

/-- Records without a ring entry whose SOURCE and CODE no chapter gives. -/
def noted : List Unnamed :=
  [.startUp, .startUpFail, .stopped, .detached, .bindingLost, .lockGrant, .lockRelease, .lockTaken, .session, .commit, .started, .darkEntry,
    .partnerSilent, .roleChange, .instanceReset, .patchBatch, .patchItem]

/-- The pair of a record that the model keeps as a control action under a pair of its own (R465, log entry 14). -/
def notedPair (src code : Nat) : Bool :=
  (noted.any fun k => k.src == src && 256 + Config.unnamedCode k.no % 65280 == code) ||
  (Unnamed.patchDropped.src == src && Config.unnamedCode Unnamed.patchDropped.no % 256 == code)

/-- An event for one partition alone whose SOURCE and CODE no chapter gives ("receives an event"); the recorder keeps it whether or
not the ring admits it (R67). -/
def tellUnnamed (s : State) (p : Nat) (k : Unnamed) : State :=
  let e : Ev := { src := k.src, code := Config.unnamedCode k.no % 256, data := dataTick s, pay := leBytes p 1, lane := s.mainLane }
  offerRecord (offerEvent s p ⟨e.src, e.code, e.data⟩) e.lane (e.record 0)

/-- An event for every partition whose SOURCE and CODE no chapter gives. The record of a discarded batch is never suppressed (R211). -/
def raiseUnnamed (s : State) (k : Unnamed) (pay : List Byte) : State :=
  raise s { src := k.src, code := Config.unnamedCode k.no % 256, data := dataTick s, pay := pay,
            lane := s.mainLane, control := k == .patchDropped }

/-! Mailbox responses -/

/-- Main and urgent response areas: 128 and 64 bytes (R69). -/
def respSize (urg : Bool) : Nat := if urg then 64 else 128

/-- The response bytes of R72. What the area holds beyond RESP_LEN words is left open; it reads 0 (log entry 108). -/
def respBytes (status seq d0 d1 tick : Nat) (data : List Nat) : List Byte :=
  leBytes status 2 ++ leBytes seq 1 ++ leBytes (4 + data.length) 1 ++ leBytes d0 4 ++ leBytes d1 4 ++ leBytes tick 4 ++
    data.flatMap fun w => leBytes w 4

/-- Ends a command: the response stands, DONE is set, BUSY clears, an interrupt follows MB_IRQ_EN (R54, R72). -/
def respond (s : State) (p : Nat) (urg : Bool) (status d0 d1 tick : Nat) (data : List Nat := []) : State :=
  let s := s.updMb p urg fun m =>
    { m with busy := false, done := true, preempted := false, phase := .idle, xfer := none, buf := [],
             resp := respBytes status m.seq d0 d1 tick data }
  let s := if urg then s else s.updSt fun t => { t with bulkQueue := t.bulkQueue.filter fun x => x != p }
  if (s.part p).mbIrqEn then notify s p (if urg then 2 else 1) else s

/-- A response whose TICK is the present tick. -/
def answer (s : State) (p : Nat) (urg : Bool) (status : Nat) (d0 : Nat := 0) (d1 : Nat := 0) (data : List Nat := []) : State :=
  respond s p urg status d0 d1 s.tickNo data

/-- The progress code shown while BUSY = 1, with the bytes done (R72, R77). -/
def progress (s : State) (p : Nat) (urg : Bool) (status : Nat) : State :=
  s.updMb p urg fun m => { m with resp := respBytes status m.seq m.bytes 0 0 [] }

/-! Status codes of R75 -/
def OK : Nat := 0x0000
def ACCEPTED : Nat := 0x0001
def PREEMPTED : Nat := 0x0002
def RUNNING : Nat := 0x0003
def QUEUED : Nat := 0x0004
def BAD_OPCODE : Nat := 0x0101
def BAD_LENGTH : Nat := 0x0102
def BAD_FIELD : Nat := 0x0103
def WRONG_MAILBOX : Nat := 0x0104
def THL_AUTH : Nat := 0x0105
def THL_STALLED : Nat := 0x0106
def DETACHED : Nat := 0x0107
def LANE_LOST : Nat := 0x0108
def NOT_READY : Nat := 0x0201
def WRONG_STATE : Nat := 0x0202
def NOT_ATTACHED : Nat := 0x0203
def ROLE_DENIED : Nat := 0x0301
def LOCK_HELD : Nat := 0x0302
def LOCK_REQUIRED : Nat := 0x0303
def NOT_OPERATOR_WRITABLE : Nat := 0x0304
def BINDING_DENIED : Nat := 0x0305
def SELF_LOCKOUT : Nat := 0x0306
def NO_STAGING : Nat := 0x0401
def IMAGE_INCOMPLETE : Nat := 0x0402
def IMAGE_CHECK : Nat := 0x0403
def BAD_RECORD : Nat := 0x0404
def BUDGET : Nat := 0x0405
def MIRROR_BUDGET : Nat := 0x0406
def STAGING_FULL : Nat := 0x0407
def UNKNOWN_SYMBOL : Nat := 0x0408
def PATCH_TYPE : Nat := 0x0409
def RESOURCE_CONFLICT : Nat := 0x0410
def DMA_FAULT : Nat := 0x0501
def DMA_BOUNDS : Nat := 0x0502
def DMA_NO_REGION : Nat := 0x0503
def LOOP_CLOSED : Nat := 0x0601
def LOOP_TRANSITION : Nat := 0x0602
def AUTH_REQUIRED : Nat := 0x0701
def SEAL_MISMATCH : Nat := 0x0702
def AUTH_FAILED : Nat := 0x0703
def AUTH_LOCKOUT : Nat := 0x0704
def NO_SEAL : Nat := 0x0705
def RANGE_GONE : Nat := 0x0801
def RECORDER_DOWN : Nat := 0x0802

/-- The codes with which R75 lets a command fail (R18). -/
def failCodes : List Nat :=
  [BAD_OPCODE, BAD_LENGTH, BAD_FIELD, WRONG_MAILBOX, THL_AUTH, THL_STALLED, DETACHED, LANE_LOST, NOT_READY, WRONG_STATE, NOT_ATTACHED,
    ROLE_DENIED, LOCK_HELD, LOCK_REQUIRED, NOT_OPERATOR_WRITABLE, BINDING_DENIED, SELF_LOCKOUT, NO_STAGING, IMAGE_INCOMPLETE,
    IMAGE_CHECK, BAD_RECORD, BUDGET, MIRROR_BUDGET, STAGING_FULL, UNKNOWN_SYMBOL, PATCH_TYPE, RESOURCE_CONFLICT, DMA_FAULT,
    DMA_BOUNDS, DMA_NO_REGION, LOOP_CLOSED, LOOP_TRANSITION, AUTH_REQUIRED, SEAL_MISMATCH, AUTH_FAILED, AUTH_LOCKOUT, NO_SEAL,
    RANGE_GONE, RECORDER_DOWN]

/-- Command classes of R74. -/
inductive CmdClass where
  | normal | bulk | urgent
  deriving DecidableEq, Repr

/-- Class and expected LENGTH of an opcode, given the command's words (R74). -/
def opInfo (ws : List Word) : Option (CmdClass × List Nat) :=
  match word ws 0 % 65536 with
  | 0x0010 => some (.normal, [3 + 3 * fld (word ws 2) 8 8])
  | 0x0011 => some (.normal, if word ws 1 = 2 then [6] else if word ws 1 = 1 then [2] else [2, 6])
  | 0x0012 => some (.normal, [1])
  | 0x0013 => some (.normal, [2])
  | 0x0014 => some (.normal, [1])
  | 0x0015 => some (.normal, [9])
  | 0x0016 => some (.normal, [2])
  | 0x0017 => some (.normal, [1])
  | 0x0020 => some (.normal, [3])
  | 0x0021 => some (.bulk, [6])
  | 0x0022 => some (.bulk, [2])
  | 0x0023 => some (.normal, [2])
  | 0x0030 => some (.normal, [1])
  | 0x0031 => some (.urgent, [1])
  | 0x0032 => some (.urgent, [1])
  | 0x0033 => some (.urgent, [1])
  | 0x0040 => some (.urgent, if fld (word ws 1) 8 8 = 0xFE then
      (if 1 ≤ fld (word ws 1) 0 8 ∧ fld (word ws 1) 0 8 ≤ 4 then [3 + 3 * fld (word ws 1) 0 8] else [6, 9, 12, 15]) else [5])
  | 0x0041 => some (.urgent, [2])
  | 0x0042 => some (.normal, (List.range 30).map (· + 3))
  | 0x0043 => some (.normal, [3, 5])
  | 0x0050 => some (.bulk, [6])
  | 0x0051 => some (.normal, [1])
  | 0x0052 => some (.bulk, [4])
  | 0x0053 => some (.bulk, [5])
  | _ => none

/-- No other partition's urgent command waits to be served that was doorbelled before this one's (R77). -/
def urgentNext (s : State) (p : Nat) : Bool :=
  allParts.all fun q => q == p || !(s.mbox q true).busy || (s.mbox q true).phase != .accepted ||
    decide ((s.mbox p true).order ≤ (s.mbox q true).order)

/-- The last piece of a transfer has reached or passed a boundary of `k` bytes (R77). -/
def Mailbox.atBoundary (m : Mailbox) (k : Nat) : Bool := m.bytes % k == 0 || decide (m.prev / k < m.bytes / k)

/-- The dead-ball tick of a change of ends (R286): mailbox service pauses (R104). -/
def deadBall (s : State) : Bool := s.st.ends.confirmed && s.st.ends.s.any fun t => decide (t ≤ s.grid.tick)

/-- Commands are served by the ACTIVE or SOLO lane alone (R40), outside the dead-ball interval (R104). A normal command is served while no bulk transfer runs or
at its 64 KiB boundaries; an urgent one in doorbell order; a bulk one when it stands in front of the bulk queue (R77). -/
def mayServe (s : State) (p : Nat) (c : CmdClass) : Bool :=
  s.activeLane.isSome && !deadBall s && match c with
  | .urgent => urgentNext s p
  | .bulk => s.st.bulkQueue.head? == some p
  | .normal =>
    match s.st.bulkQueue.head? with
    | none => true
    | some h => (s.part h).main.atBoundary 65536

/-- Serves the command that a partition's mailbox holds, if it is of this opcode, has not been served and may be served
now; otherwise nothing happens. `f` takes the command's words. -/
def serve (s : State) (p op : Nat) (f : State → List Word → State) : State :=
  let c : CmdClass := match opInfo [BitVec.ofNat 32 op] with
    | some (c, _) => c
    | none => .normal
  let m := s.mbox p (c == .urgent)
  if m.busy && (m.phase == .accepted || m.phase == .queued) && word m.cmd 0 % 65536 == op && mayServe s p c then f s m.cmd
  else s

/-- Role and lock checks of R74: `f` runs when the partition may issue the command, else the refusal is the response. -/
def needOperator (s : State) (p : Nat) (urg : Bool) (k : State) : State :=
  if 2 ≤ s.roleOf p then k else answer s p urg ROLE_DENIED (s.roleOf p)

def needLock (s : State) (p : Nat) (urg : Bool) (k : State) : State :=
  if s.st.lock = some p then k else answer s p urg LOCK_REQUIRED

/-! Lock, session and detach -/

/-- DATA with an object in [31:24] and bits [23:0] of the tick number (R243, R319, R428). -/
def dataObj24 (s : State) (n : Nat) : Nat := n % 256 * 2 ^ 24 + s.grid.tick % 2 ^ 24

/-- Staged LOOP_PARAM words are discarded, each loop's with EV162 (R242). -/
def discardLoopStage (s : State) : State :=
  let ns := s.st.loopStage.map fun e => e.1
  ns.foldl (fun s n => raise s { src := 162, code := 0x21, data := dataObj24 s n, lane := s.mainLane })
    (s.updSt fun t => { t with loopStage := [] })

/-- The lock becomes free (R86, R242). -/
def dropLock (s : State) : State := discardLoopStage (s.updSt fun t => { t with lock := none })

/-- Drops what a partition holds as detach does (R83): its staging areas, the lock, its SAFETY session. -/
def dropHoldings (s : State) (p : Nat) : State :=
  let s := s.updSt fun t => { t with stage := t.stage.filter fun e => e.2.part != p }
  let s := if s.st.lock = some p then noteUnnamed (dropLock s) .lockRelease s.mainLane (leBytes p 1) else s
  let s := if (s.part p).session then
      raise s { src := 209, code := 2, data := s.grid.tick % 2 ^ 24 + Config.unnamedCode (100 + p) % 256 * 2 ^ 24,
                lane := s.mainLane }
    else s
  s.updPart p fun q => { q with session := false, nonce := none }

/-- Ends a partition's main command with DETACHED, and with it a commit that has not been applied; what the partition
holds is dropped (R83). -/
def endMainDetached (s : State) (p : Nat) : State :=
  let m := (s.part p).main
  let s := s.updSt fun t => { t with commit := t.commit.filter fun c => c.part != p }
  dropHoldings (if m.busy then respond s p false DETACHED m.bytes 0 s.tickNo else s) p

/-- Detach starts (R83): the running urgent command goes on; a main command ends now unless it moves bytes and stands
between 4 KiB boundaries. -/
def startDetach (s : State) (p : Nat) : State :=
  let s := s.updPart p fun q => { q with att := .detaching, grace := false, resuming := false }
  let m := (s.part p).main
  if m.busy && m.phase == .running && !m.atBoundary 4096 then s else endMainDetached s p

/-- A command that the module has begun and not ended: it moves bytes, or waits for an edge or a confirmation. -/
def Mailbox.underway (m : Mailbox) : Bool := m.busy && (m.phase == .running || m.phase == .waiting)

/-- The window registers of a partition at their reset values on its binding (R53). A slow-port access that is in progress is dropped
with them (log entry 134). -/
def resetWindow (s : State) (p : Nat) : State := s.updPart p fun q => { bus := q.bus, lane := q.lane, thl := q.thl }

/-- Detach completes: the window returns to its reset values on its binding, and the detach is recorded (R53, R83). -/
def finishDetach (s : State) (p : Nat) : State :=
  let s := endMainDetached s p
  let s := s.updSt fun t => { t with bulkQueue := t.bulkQueue.filter fun x => x != p }
  let s := resetWindow s p
  noteUnnamed s .detached s.mainLane (leBytes p 1)

/-! Image access -/

/-- Base image address of an area code (R13). -/
def areaBase (code : Nat) : Nat := code * 2 ^ 28

def aIN : Nat := areaBase 0x1
def aOUT : Nat := areaBase 0x2
def aFLOWIN : Nat := areaBase 0x3
def aFLOWOUT : Nat := areaBase 0x4
def aCAN : Nat := areaBase 0x5
def aLOOP : Nat := areaBase 0x6
def aMOTION : Nat := areaBase 0x7
def aSAFE : Nat := areaBase 0x8
def aSYS : Nat := areaBase 0x9
def aINST : Nat := areaBase 0xA
def aCONST : Nat := areaBase 0xB

/-- The image of a lane that starts: loops and chains without a record read 0xFF (R221, R258). -/
def bareImage : Mem :=
  let m : Mem := (List.range 128).foldl (fun (m : Mem) n => m.writeN (aLOOP + 0x1000 + 32 * n) [0xFF]) []
  (List.range 16).foldl (fun (m : Mem) n => m.writeN (aMOTION + 64 * n) [0xFF]) m

def State.updImg (s : State) (l : LaneId) (f : Mem → Mem) : State := s.updLane l fun v => { v with img := f v.img }

/-- Writes to a lane's present image, `n` bytes little-endian. -/
def State.wrImg (s : State) (l : LaneId) (a n v : Nat) : State := s.updImg l fun m => m.wrU a n v

def State.rdImg (s : State) (l : LaneId) (a n : Nat) : Nat := (s.lane l).img.rdU a n

/-- Both lanes in turn. -/
def bothLanes (f : State → LaneId → State) (s : State) : State := f (f s .a) .b

/-- The free counter, advanced: each use of a free value takes a fresh one (log entry 3). -/
def State.takeFree (s : State) : Nat × State := (s.free, { s with free := s.free + 1 })

end Sys2Proof.Machine
end

