-- ==== Sys2Proof/Machine/Program.lean ====
section
/-! DEFINITION. Reading a program image (07_block_programs_and_instances.md): header, sections, types, instances, tasks,
symbols. -/

namespace Sys2Proof.Machine

/-- Offset and length of section `k` of R181: 0 TYPES, 1 CODE, 2 CONST, 3 TEMPLATES, 4 TASKS, 5 SYMBOLS, 6 SIGNATURE. -/
def secOff (img : List Byte) (k : Nat) : Nat := rdU img (0x28 + 8 * k) 4
def secLen (img : List Byte) (k : Nat) : Nat := rdU img (0x2C + 8 * k) 4
def section_ (img : List Byte) (k : Nat) : List Byte := (img.drop (secOff img k)).take (secLen img k)

def instSize (img : List Byte) : Nat := rdU img 0x60 4
def constSize (img : List Byte) : Nat := rdU img 0x64 4
def retainLayoutField (img : List Byte) : Nat := rdU img 0x68 4
def mirrorBytesField (img : List Byte) : Nat := rdU img 0x6C 4

/-- An instance of the chain in INST (R198): its number, offset and header fields. -/
structure InstDef where
  no : Nat
  off : Nat
  typeNo : Nat
  ver : Nat
  iflags : Nat
  mirror : Nat
  retain : Nat
  len : Nat
  mOff : Nat
  mLen : Nat
  rOff : Nat
  rLen : Nat
  deriving DecidableEq, Repr

def instAt (t : List Byte) (no off : Nat) : InstDef :=
  { no := no, off := off, typeNo := rdU t 0 2, ver := rdU t 2 1, iflags := rdU t 3 1, mirror := rdU t 4 1,
    retain := rdU t 5 1, len := rdU t 6 2, mOff := rdU t 8 2, mLen := rdU t 0x0A 2, rOff := rdU t 0x0C 2, rLen := rdU t 0x0E 2 }

/-- The instance chain from a part of the templates on; `fuel` bounds it (every instance has at least 16 bytes). -/
def instChainFrom : Nat → List Byte → Nat → Nat → List InstDef
  | 0, _, _, _ => []
  | n + 1, t, no, off =>
    if t.isEmpty then []
    else
      let d := instAt t no off
      if d.len < 16 then [d] else d :: instChainFrom n (t.drop d.len) (no + 1) (off + d.len)

def instChain (img : List Byte) : List InstDef :=
  let t := section_ img 3
  instChainFrom (t.length / 16 + 1) t 0 0

/-- RETAIN_LAYOUT of R200. -/
def retainLayout (is : List InstDef) : Nat :=
  crc32c ((is.filter fun d => d.retain == 1).flatMap fun d =>
    leBytes d.no 4 ++ leBytes d.typeNo 2 ++ leBytes d.ver 1 ++ [0] ++ leBytes d.rOff 2 ++ leBytes d.rLen 2)

/-- MIRROR_BYTES of R199. -/
def mirrorBytes (is : List InstDef) : Nat := (is.filter fun d => d.mirror == 1).foldl (fun a d => a + d.mLen) 0

/-- The retained ranges of a lane's INST, in instance order (R473). -/
def retainedBytes (img : List Byte) (m : Mem) : List Byte :=
  (instChain img).flatMap fun d => if d.retain == 1 then m.readN (aINST + d.off + d.rOff) d.rLen else []

/-- Retained bytes written back into INST (R121). -/
def restoreRetained (img : List Byte) (m : Mem) (bytes : List Byte) : Mem :=
  ((instChain img).foldl (fun (acc : Mem × List Byte) d =>
    if d.retain == 1 then (acc.1.writeN (aINST + d.off + d.rOff) (padTo d.rLen acc.2), acc.2.drop d.rLen) else acc) (m, bytes)).1

end Sys2Proof.Machine
end

