-- ==== Sys2Proof/Machine/Areas.lean ====
section
/-! DEFINITION. The image areas and their configured sizes (00_scope.md R13 and the chapters of each area). -/

namespace Sys2Proof.Machine

/-- Island number of SK-1 (R108). -/
def skIsl : Nat := 6

/-- Bytes of a flow's image entry (R309): header or quality bytes, then the payload. -/
def flowEntryLen (r : CfgRec) : Nat :=
  let q := (r.u 0x0F 1 + 7) / 8 * 8
  if r.u 8 1 = 0 then q + r.u 0x24 2
  else if r.u 9 1 = 2 then 16 * r.u 0x0F 1
  else 24 + r.u 0x24 2

/-- End of the highest flow entry in an area. -/
def flowAreaSize (rs : List CfgRec) (code : Nat) : Nat :=
  (recsOf rs 0x0310).foldl (fun m r =>
    let a := r.u 0x20 4
    if a / 2 ^ 28 = code then max m (a % 2 ^ 28 + flowEntryLen r) else m) 0

/-- Configured size of an area, by its code, under a configuration and a program. -/
def areaSizeOf (rs : List CfgRec) (prog : Option (List Byte)) (code : Nat) : Nat :=
  match code with
  | 1 => 0x8000
  | 2 => 0x2000
  | 3 => flowAreaSize rs 3
  | 4 => flowAreaSize rs 4
  | 5 => 0x40000
  | 6 => 0x2000
  | 7 => 0x400
  | 8 => 0x400
  | 9 => 0x150
  | 0xA => (prog.map instSize).getD 0
  | 0xB => (prog.map constSize).getD 0
  | _ => 0

def areaSize (s : State) (code : Nat) : Nat := areaSizeOf s.cfgRecs s.st.prog code

/-- An image address is valid when its offset lies within its area (R13). -/
def addrOk (s : State) (a n : Nat) : Bool := decide (a % 2 ^ 28 + n ≤ areaSize s (a / 2 ^ 28))

/-- The MX-1 range of IN (R172, R360). -/
def inMx (a n : Nat) : Bool := a / 2 ^ 28 == 1 && decide (a % 2 ^ 28 < 0x8000) && decide (0x800 < a % 2 ^ 28 + n)

end Sys2Proof.Machine
end

