-- ==== Sys2Proof/Machine/Quality.lean ====
section
/-! DEFINITION. The quality of an image field as a loop, chain or host sees it (R37, R38), and the quality byte of a sink field
(R222). -/

namespace Sys2Proof.Machine

/-- Offsets of a flow's payload within its image entry (R309). -/
def flowQuality (r : CfgRec) : Nat := (r.u 0x0F 1 + 7) / 8 * 8
def flowHeader (r : CfgRec) : Nat := if r.u 8 1 = 0 then flowQuality r else 24

/-- The field of a flow that contains an image address. -/
def flowField (r : CfgRec) (a : Nat) : Option Nat :=
  let p := r.u 0x20 4 + flowHeader r
  (List.range (r.u 0x0F 1)).find? fun f => decide (p + r.u (0x30 + 8 * f) 2 ≤ a ∧ a < p + r.u (0x30 + 8 * f) 2 + r.u (0x32 + 8 * f) 1)

/-- The flow whose image entry contains an address. -/
def flowAtOf (rs : List CfgRec) (a : Nat) : Option CfgRec :=
  (recsOf rs 0x0310).find? fun r => r.u 9 1 != 1 && decide (r.u 0x20 4 ≤ a ∧ a < r.u 0x20 4 + flowEntryLen r)

def flowAt (s : State) (a : Nat) : Option CfgRec := flowAtOf s.cfgRecs a

/-- Quality of a field in FLOWIN (R309, R312): its bit of the effective QMASK, or QUAL of a motion sample entry. Bytes of an
entry that no field covers carry no quality bit. -/
def flowInGood (s : State) (m : Mem) (a : Nat) : Bool :=
  match flowAt s a with
  | none => true
  | some r =>
    let base := r.u 0x20 4
    if r.u 9 1 = 2 then bit (m.rdU (base + 16 * ((a - base) / 16) + 4) 1) 0
    else match flowField r a with
      | none => true
      | some f => bit (m.rdU (base + 8) 8) f

/-- Quality of a field in a CAN receive buffer (R38, R325, R335): its port's QUALITY, and the buffer not STALE. Ring entries and
status carry none. `ring` is where the ring starts in the port's block. -/
def canGood (m : Mem) (base off ring : Nat) : Bool :=
  if 0x100 ≤ off ∧ off < ring then
    bit (m.rdU (base + 5) 1) 0 && !bit (m.rdU (base + 0x100 + 80 * ((off - 0x100) / 80) + 6) 1) 2
  else true

/-- Base of the input block that holds an IN offset below the MX-1 range (R354, R360). -/
def inBlock (off : Nat) : Nat := if off < 0x200 then off / 0x100 * 0x100 else off / 0x200 * 0x200

/-- The CQUAL byte of the island entry that holds an IN offset; none in headers and where entries carry no quality (R355, R365,
R369, R374). -/
def inQual (off : Nat) : Option Nat :=
  if off < 0x800 then
    let b := inBlock off
    if off < b + 0x10 then none
    else if off < 0x200 then some (b + 0x10 + 4 * ((off - b - 0x10) / 4) + 1)
    else some (b + 0x10 + 16 * ((off - b - 0x10) / 16) + 8)
  else if 0x810 ≤ off ∧ off < 0x910 then some (0x810 + 32 * ((off - 0x810) / 32) + 0xD)
  else none

/-- Quality in IN (R38): fields of island frames are fresh at their own edge alone; motion samples and CAN buffers of the
service ports carry their own. -/
def inGood (s : State) (m : Mem) (off : Nat) : Bool :=
  let port := (off - 0x1000) / 0x800
  if 0x4000 ≤ off ∧ (off - 0x4000) % 0x2000 < 0x1A00 ∧ 0x100 ≤ (off - 0x4000) % 0x2000 then
    canGood m (aIN + 0x4000 + (off - 0x4000) / 0x2000 * 0x2000) ((off - 0x4000) % 0x2000) 0x600
  else if 0x1000 ≤ off ∧ off < 0x3000 ∧ 0x10 ≤ (off - 0x1000) % 0x800 ∧ (off - 0x1000) % 0x800 < 0x110 then
    bit (m.rdU (aIN + 0x1000 + 0x800 * port + 0x10 + 16 * (((off - 0x1000) % 0x800 - 0x10) / 16) + 4) 1) 0
  else
    m.rdU (aIN + if off < 0x800 then inBlock off else 0x800) 4 == s.tickNo &&
      (inQual off).elim true fun q => bit (m.rdU (aIN + q) 1) 0

/-- Quality in SAFE (R38, R401): the SK-1 frame is fresh at its own edge; an input carries QUAL. -/
def safeGood (s : State) (m : Mem) (off : Nat) : Bool :=
  decide (0x100 ≤ off) ||
    (m.rdU aSAFE 4 == s.tickNo && (!decide (0x10 ≤ off ∧ off < 0x20) || bit (m.rdU (aSAFE + off) 1) 1))

/-- The quality bit of the source field of `n` bytes at an image address, read from `m`. -/
def srcGood (s : State) (m : Mem) (a _n : Nat) : Bool :=
  match a / 2 ^ 28 with
  | 1 => inGood s m (a % 2 ^ 28)
  | 3 => flowInGood s m a
  | 5 => canGood m (aCAN + a % 2 ^ 28 / 0x8000 * 0x8000) (a % 0x8000) 0x1500
  | 8 => safeGood s m (a % 2 ^ 28)
  | _ => true

/-- Entries that lose their quality with a lost frame of an island (R26, R401): addresses of the quality bytes, and the bit. -/
def qualBytes (i : Nat) : List (Nat × Nat) :=
  match i with
  | 0 | 1 => (List.range 32).map fun c => (aIN + 0x100 * i + 0x11 + 4 * c, 0)
  | 2 | 3 | 4 => (List.range 16).map fun c => (aIN + 0x200 * (i - 1) + 0x18 + 16 * c, 0)
  | 5 => (List.range 8).map fun n => (aIN + 0x81D + 32 * n, 0)
  | _ => (List.range 16).map fun k => (aSAFE + 0x10 + k, 1)

/-- The last values of an island stand with their quality bits cleared (R26). -/
def loseQuality (i : Nat) (m : Mem) : Mem :=
  (qualBytes i).foldl (fun (m : Mem) e =>
    let v := m.rdU e.1 1
    if bit v e.2 then m.wrU e.1 1 (v - 2 ^ e.2) else m) m

/-- Where the transmit fields stand that an address lies in: those of a CAN FD port, or of a service port in OUT (R324, R360). -/
def canTxFields (a : Nat) : Option Nat :=
  if a / 2 ^ 28 = 5 ∧ 0x6800 ≤ a % 0x8000 ∧ a % 0x8000 < 0x7C00 then some (a / 0x8000 * 0x8000 + 0x6800)
  else if a / 2 ^ 28 = 2 ∧ 0x1000 ≤ a % 2 ^ 28 ∧ a % 2 ^ 28 < 0x2000 ∧ a % 0x800 < 0x500 then some (a / 0x800 * 0x800)
  else none

/-- A sink of `n` bytes lies in the DATA of one transmit field (R43, R331). -/
def canDataSink (a n : Nat) : Bool := (canTxFields a).any fun b => decide (0x10 ≤ (a - b) % 80 ∧ (a - b) % 80 + n ≤ 80)

/-- The quality byte that a loop sink at an address owns: its field's in FLOWOUT, and QBk of a CAN transmit field where the sink
writes DATA byte 8k (R222, R309, R331). -/
def sinkQualityOf (rs : List CfgRec) (a : Nat) : Option Nat :=
  if a / 2 ^ 28 = 4 then (flowAtOf rs a).bind fun r => (flowField r a).map fun f => r.u 0x20 4 + f
  else (canTxFields a).bind fun b =>
    let o := (a - b) % 80
    if 0x10 ≤ o ∧ o % 8 = 0 then some (b + (a - b) / 80 * 80 + (o - 0x10) / 8) else none

def sinkQuality (s : State) (a : Nat) : Option Nat := sinkQualityOf s.cfgRecs a

end Sys2Proof.Machine
end

