-- ==== Sys2Proof/Machine/Network.lean ====
section
/-! DEFINITION. Plant ports, PRP, flows, load limits (11_plant_network_and_time.md R292 to R319, less the clock servo). -/

namespace Sys2Proof.Machine

def FlowCtx.bump (c : FlowCtx) (k n : Nat) : FlowCtx := { c with cnt := Machine.bump c.cnt k n }

def flowOf (v : Lane) (n : Nat) : FlowCtx := v.net.flows.get n {}

def updFlow (s : State) (l : LaneId) (n : Nat) (f : FlowCtx → FlowCtx) : State :=
  s.updNet l fun v => { v with flows := v.flows.set n (f (v.flows.get n {})) }

def flowRecs (s : State) (dir : Nat) : List CfgRec := (recsOf s.cfgRecs 0x0310).filter fun r => r.u 8 1 == dir

/-- Traffic events (R319): from a lane's own ports, at most once per second for each source of EV072. -/
def netEvent (s : State) (l : LaneId) (src code top : Nat) (obj : Option Nat := none) : State :=
  raise s { src := src, code := code, data := dataObj24 s top, lane := l, obj := obj }

/-- An event of the station's flows and clock, from the lane that acts. -/
def actEvent (s : State) (l : LaneId) (src code top : Nat) : State :=
  if runsRole (s.lane l).role then netEvent s l src code top else s

/-! Load limits (R313) -/

/-- One message of a class at a limit per second, windows of 1 s from the first message: admitted or not. -/
def admitRate (s : State) (l : LaneId) (key limit : Nat) : Bool × State :=
  let w := (s.lane l).net.rate.get key (s.grid.mono, 0)
  let w := if w.1 + 1000000000 ≤ s.grid.mono then (s.grid.mono, 0) else w
  if w.2 < limit then (true, s.updNet l fun v => { v with rate := v.rate.set key (w.1, w.2 + 1) })
  else (false, s)

/-- A shed frame: counted at its port, EV072 by class. -/
def shed (s : State) (l : LaneId) (portB : Bool) (cls : Nat) : State :=
  netEvent (countPort s l portB 5) l 72 cls (portNo portB) (some (2 * laneNo l + portNo portB))

/-! Reception (R303, R310, R313) -/

/-- A frame of a configured receive flow: the SEQ check, the limit of two frames in PERIOD_TICKS, acceptance. -/
def acceptFrame (s : State) (l : LaneId) (portB : Bool) (r : CfgRec) (f : FlowFrame) : State :=
  let n := r.inst
  let c := flowOf (s.lane l) n
  let old := match c.lastSeq with
    | some q => decide (diff32 f.seq q ≤ 0)
    | none => false
  if old then updFlow s l n fun c => c.bump 1 1
  else
    let w := s.grid.tick / r.u 0x0C 2
    let k := if c.win = w then c.winCount else 0
    if 2 ≤ k then shed (updFlow s l n fun c => c.bump 5 1) l portB 1
    else
      let gap := match c.lastSeq with
        | some q => decide (1 < diff32 f.seq q)
        | none => false
      updFlow s l n fun c =>
        let c := if gap then c.bump 2 1 else c
        { c with lastSeq := some f.seq, win := w, winCount := k + 1, inbox := c.inbox ++ [f] }

/-- The receive flow that a tagged frame belongs to: STATION, FLOW_ID, payload length and VLAN match its record (R303, R304, log entry
142). -/
def rxFlow (s : State) (w : Tagged) (f : FlowFrame) : Option CfgRec :=
  (flowRecs s 1).find? fun r => r.u 9 1 != 2 && r.u 0x16 2 == f.station && r.u 0x14 2 == f.flowId &&
    r.u 0x24 2 == f.payload.length && r.u 0x1E 2 == w.vlan

/-- FLOW_FRAME_RECEIVED (R106, R110, R293, R294, R303, R304, R313): traffic is counted from the instant at which the network unit is up;
an OFFLINE lane takes none of it (R21). A frame of another EtherType is of no class (R313). -/
def execFlowFrameReceived (l : LaneId) (w : Tagged) (f : FlowFrame) (s : State) : Host.Outcome State Fault Refusal :=
  if !(s.lane l).netUp then .next s
  else
    let (first, s) := plantIn s l ⟨w.portB, f.src, f.prp, w.fcs⟩
    .next (if !first then s
      else if (netRec s).any fun r => r.u 8 2 != w.etherType then countPort s l w.portB 5
      else match rxFlow s w f with
        | none => countPort s l w.portB 4
        | some r => if (s.lane l).onNet then acceptFrame s l w.portB r f else s)

/-- The launch tick of a frame (R144). -/
def launchTick (s : State) (f : FlowFrame) : Nat := f.launchTime / s.lenNs

/-- The frame of the newest SEQ. -/
def newest : List FlowFrame → Option FlowFrame
  | [] => none
  | f :: r => match newest r with
    | none => some f
    | some g => if 0 < diff32 f.seq g.seq then some f else some g

/-- A field's substitute in the bytes of a payload (R122, R304). -/
def substField (r : CfgRec) (f : Nat) (old : List Byte) : List Byte :=
  let n := r.u (0x32 + 8 * f) 1
  match r.u (0x33 + 8 * f) 1 with
  | 0 => zeros n
  | 1 => old
  | _ => leBytes (unsigned 64 (r.i (0x34 + 8 * f) 4)) n

/-- Every field of an entry put at its substitute. -/
def substFields (r : CfgRec) (m : Mem) : Mem :=
  let p := r.u 0x20 4 + flowHeader r
  (List.range (r.u 0x0F 1)).foldl (fun m f =>
    let a := p + r.u (0x30 + 8 * f) 2
    m.writeN a (substField r f (m.readN a (r.u (0x32 + 8 * f) 1)))) m

/-- Steps 1 to 4 of R310 for one flow at the swap of the present tick: the context, the frame taken, the effective QMASK. -/
def swapFlow (s : State) (r : CfgRec) (c : FlowCtx) : FlowCtx × Option FlowFrame × Nat :=
  let due := c.inbox.filter fun f => decide (launchTick s f + 1 ≤ s.grid.tick)
  let c := { c with inbox := c.inbox.filter fun f => decide (s.grid.tick < launchTick s f + 1) }
  let took := newest due
  let c := match took with
    | none => c
    | some f =>
      { (c.bump 0 1).bump 7 (due.length - 1) with
        heldTick := f.tickNumber, heldSeq := f.seq, heldQ := f.qmask, heldFlags := f.fflags % 8 }
  let expected := decide (1 ≤ s.grid.tick) && (s.grid.tick - 1) % r.u 0x0C 2 == 0
  let c := if !expected then c else if took.isSome then { c with misses := 0 }
    else { c.bump 3 1 with misses := min (c.misses + 1) 65535 }
  let fresh := decide (diff32 s.tickNo c.heldTick ≤ r.u 0x26 2)
  let c := if expected && took.isNone && decide (r.u 0x28 1 ≤ c.misses) then { c with rstate := 2 } else c
  let c := if took.isSome && fresh then { c with rstate := 1 } else c
  (c, took, if c.rstate = 1 ∧ fresh = true then c.heldQ % 2 ^ r.u 0x0F 1 else 0)

/-- One receive flow's update at the input swap, made once in a tick: context, image entry, events (R309, R310, R316). -/
def flowSwap (s : State) (l : LaneId) (r : CfgRec) : State :=
  let n := r.inst
  let c0 := flowOf (s.lane l) n
  if c0.done = some s.grid.tick then s
  else
    let (c, took, q) := swapFlow s r c0
    let c := { c with done := some s.grid.tick, pdu := took.map fun f => f.payload }
    let s := updFlow s l n fun _ => c
    let s := if r.u 9 1 = 1 then s
      else
        let a := r.u 0x20 4
        let head := leBytes c.heldTick 4 ++ leBytes c.heldSeq 4 ++ leBytes q 8 ++ leBytes c.rstate 1 ++
          leBytes c.heldFlags 1 ++ leBytes c.misses 2 ++ zeros 4
        s.updImg l fun m =>
          let m := m.writeN a head
          if c.rstate = 1 then match took with
            | some f => m.writeN (a + 24) f.payload
            | none => m
          else substFields r m
    if c.rstate = c0.rstate then s
    else if c.rstate = 2 then actEvent s l 70 1 n
    else if c.rstate = 1 then actEvent s l 70 2 n
    else s

/-- FLOWIN at the input swap (R136, R310, R312). -/
def flowSwaps (s : State) (l : LaneId) : State :=
  (flowRecs s 1).foldl (fun s r =>
    if r.u 9 1 = 2 then
      let c := flowOf (s.lane l) r.inst
      let s := s.updImg l fun m => c.samples.foldl (fun m x => m.writeN x.1 x.2) m
      updFlow s l r.inst fun c => { c with samples := [] }
    else flowSwap s l r) s

/-- FLOW_DOWN (R310): the flow's update of this tick is made now when it takes the flow DOWN. -/
def execFlowDown (l : LaneId) (n : Fin 256) (s : State) : Host.Outcome State Fault Refusal :=
  .next (match (flowRecs s 1).find? fun r => r.inst == n.val && r.u 9 1 != 2 with
    | none => s
    | some r =>
      let s' := flowSwap s l r
      if (flowOf (s.lane l) n.val).rstate != 2 && (flowOf (s'.lane l) n.val).rstate == 2 then s' else s)

/-- A datagram of a KIND 2 flow (R312): each entry whose talker and formatter a good sentence carries is filled for the next swap. -/
def udpbcTake (s : State) (l : LaneId) (r : CfgRec) (dt : Nat) (sentences : List (List Byte)) : State :=
  let good := (sentences.map fun t => chop (skipTag t)).filter fun t => nmeaOk t true
  let time := s.grid.now + dt
  updFlow s l r.inst fun c =>
    let put (x : List (Nat × List Byte)) (f : Nat) (t : List Byte) : List (Nat × List Byte) :=
      if nmeaAddress t == (r.bytes.drop (0x30 + 8 * f)).take 5 then
        let a := r.u 0x20 4 + 16 * f
        let old := ((x.find? fun e => e.1 == a).map fun e => e.2).getD ((s.lane l).img.readN a 16)
        (x.filter fun e => e.1 != a) ++ [(a, sampleEntry old t (r.u (0x35 + 8 * f) 1) time)]
      else x
    { c.bump 0 1 with samples :=
        (List.range (r.u 0x0F 1)).foldl (fun x f => good.foldl (fun x t => put x f t) x) c.samples }

/-- KIND 2 flows of a multicast group and UDP port (R312). -/
def groupFlows (s : State) (g : Datagram450) : List CfgRec :=
  (flowRecs s 1).filter fun r => r.u 9 1 == 2 && (r.bytes.drop 0x18).take 6 == g.mac && r.u 0x14 2 == g.port

/-- A datagram that has passed PRP (R312): one of another message type is counted at its flow, one of no flow at its port (log entry
142), and discarded. -/
def udpbcIn (s : State) (l : LaneId) (portB : Bool) (g : Datagram450) (dt : Nat) (sentences : List (List Byte)) : State :=
  match groupFlows s g with
  | [] => countPort s l portB 5
  | rs => if !(s.lane l).onNet then s
    else rs.foldl (fun s r => if g.udpbc then udpbcTake s l r dt sentences else updFlow s l r.inst fun c => c.bump 5 1) s

/-- UDPBC_DATAGRAM (R293, R312, R313). -/
def execUdpbcDatagram (l : LaneId) (rx : Rx) (g : Datagram450) (dt : Nat) (sentences : List (List Byte)) (s : State) :
    Host.Outcome State Fault Refusal :=
  let r := plantIn s l rx
  .next (if !(s.lane l).netUp then s else if !r.1 then r.2 else udpbcIn r.2 l rx.portB g dt sentences)

/-! Transmission (R308, R309, R311, R141) -/

def overlaps (a n b k : Nat) : Bool := decide (a < b + k) && decide (b < a + n)

/-- A loop sink lies on bytes of the image. -/
def loopWrites (s : State) (a n : Nat) : Bool :=
  (recsOf s.cfgRecs 0x0801).any fun r => overlaps (r.u 0x3C 4) (if r.u 0x40 1 = 1 then 2 else 4) a n

def taskWriters (s : State) (a n : Nat) : List Nat :=
  (List.range 16).filter fun k => (s.st.mpu.get k []).any fun w => overlaps w.1 w.2 a n

/-- QMASK of a transmit flow (R309): quality bytes that have a writer; 1 for a field without one. -/
def txQmask (s : State) (l : LaneId) (r : CfgRec) : Nat :=
  let a := r.u 0x20 4
  maskOf ((List.range (r.u 0x0F 1)).map fun f =>
    let p := a + flowQuality r + r.u (0x30 + 8 * f) 2
    let owned := loopWrites s p (r.u (0x32 + 8 * f) 1) || !(taskWriters s (a + f) 1).isEmpty
    !owned || bit (s.rdImg l (a + f) 1) 0)

/-- Ticks of the last values of the loops whose sinks lie on bytes of the image (R141). -/
def loopTicks (s : State) (l : LaneId) (a n : Nat) : List Nat :=
  ((recsOf s.cfgRecs 0x0801).filter fun r => overlaps (r.u 0x3C 4) (if r.u 0x40 1 = 1 then 2 else 4) a n).filterMap fun r =>
    ((s.lane l).loops.get r.inst {}).done

/-- The payload tick (R141): the present tick, or the oldest commit among the tasks and loops that write the payload. A writer that
has not committed since START has none and is left out (log entry 151). -/
def payloadTick (s : State) (l : LaneId) (r : CfgRec) : Nat :=
  if !s.st.engaged then s.grid.tick
  else
    let a := r.u 0x20 4 + flowQuality r
    let ts := (taskWriters s a (r.u 0x24 2)).filterMap fun k => ((s.lane l).be.ctxs.get k {}).lastCommit
    (ts ++ loopTicks s l a (r.u 0x24 2)).foldl min s.grid.tick

/-- FFLAGS but LATE (R303): sender STOPPED, its substitutes standing from the launch tick on (R123), safety PDU, TIME_STATE not
LOCKED. -/
def txFlags (s : State) (l : LaneId) (r : CfgRec) : Nat :=
  let stops := s.st.phase == .stopped && (!s.st.engaged || s.st.stopAt == some (s.grid.tick + 1))
  maskOf [false, stops, r.u 9 1 == 1, (s.lane l).net.time != .locked]

/-- A descriptor takes its place in a flow's list, by launch time (R306). -/
def insertDesc (d : FlowDesc) : List FlowDesc → List FlowDesc
  | [] => [d]
  | e :: r => if d.time < e.time then d :: e :: r else e :: insertDesc d r

/-- Descriptors of the flows due in the next tick, written at the output cut-off for its launch at (T + 1) × L + offset (R140, R308,
R311). `pdu` gives a KIND 1 payload (R316). The earliest of each queue stands at its head before its target. -/
def writeDescs (s : State) (l : LaneId) (pdu : Nat → List Byte) : State :=
  let v := s.lane l
  let s := if runsRole v.role then s else s.updNet l fun v => { v with flows := v.flows.map fun e => (e.1, { e.2 with descs := [] }) }
  let due := (flowRecs s 0).filter fun r => (s.grid.tick + 1) % r.u 0x0C 2 == 0
  due.foldl (fun s r =>
    let time := (s.grid.tick + 1) * s.lenNs + r.u 0x10 4
    let first := due.all fun x => x.u 0x0E 1 != r.u 0x0E 1 || decide (r.u 0x10 4 ≤ x.u 0x10 4)
    let d : FlowDesc :=
      { target := time % 2 ^ 32, tick := payloadTick s l r % 2 ^ 32, time := time, flags := txFlags s l r, held := first,
        qmask := if r.u 9 1 = 1 then 2 ^ r.u 0x0F 1 - 1 else txQmask s l r,
        payload := padTo (r.u 0x24 2) (if r.u 9 1 = 1 then pdu (r.u 0x29 1)
          else (s.lane l).img.readN (r.u 0x20 4 + flowQuality r) (r.u 0x24 2)) }
    updFlow s l r.inst fun c => { c with descs := insertDesc d c.descs }) s

/-- The flow whose descriptor stands at the head of a queue: the earliest launch time. -/
def queueHead (s : State) (l : LaneId) (q : Nat) : Option Nat :=
  let ds := ((flowRecs s 0).filter fun r => r.u 0x0E 1 == q).filterMap fun r =>
    (flowOf (s.lane l) r.inst).descs.head?.map fun d => (d.time, r.inst)
  (ds.foldl (fun (m : Option (Nat × Nat)) x => match m with
    | none => some x
    | some y => if x.1 < y.1 then some x else some y) none).map fun x => x.2

/-- The launch horizon 2 × L + 1 µs (R308). -/
def horizon (s : State) : Nat := 2 * s.lenNs + 1000

/-- The descriptor that has come to the head of a queue at `now`: held when its target lies ahead. -/
def headArrives (s : State) (l : LaneId) (q now : Nat) : State :=
  match queueHead s l q with
  | none => s
  | some n => updFlow s l n fun c =>
    { c with descs := c.descs.modifyHead fun d =>
        { d with held := d.held || (decide (diff32 now d.target < 0) && decide (-(diff32 now d.target) ≤ horizon s)) } }

/-- A frame leaves on the ports of its PRP_MODE, with a trailer when on both (R293, R304). -/
def launchFrame (s : State) (l : LaneId) (r : CfgRec) (d : FlowDesc) (late : Bool) : State :=
  let c := flowOf (s.lane l) r.inst
  let both := r.u 0x0A 1 == 0
  let ports := match r.u 0x0A 1 with
    | 0 => 3
    | 1 => 1
    | _ => 2
  let v := (s.lane l).net
  let f : FlowFrame :=
    { station := s.stationNumber, flowId := r.u 0x14 2, seq := (c.count + 1) % 2 ^ 32, tickNumber := d.tick, launchTime := d.time,
      qmask := d.qmask, fflags := d.flags + b2n late, payload := d.payload, prp := if both then some v.prpSeq else none,
      src := (s.lane l).mac }
  let w : FlowTag :=
    { etherType := (netRec s).elim 0 fun n => n.u 8 2, dest := (r.bytes.drop 0x18).take 6, vlan := r.u 0x1E 2, pcp := r.u 0x0B 1,
      queue := r.u 0x0E 1 }
  let s := s.updNet l fun v => { v with prpSeq := if both then (v.prpSeq + 1) % 65536 else v.prpSeq }
  let s := if bit ports 0 then countPort s l false 1 else s
  let s := if bit ports 1 then countPort s l true 1 else s
  (updFlow s l r.inst fun c => { c with sentSeq := f.seq, sentTick := d.tick }).emit (.flow l ports w f)

/-- FLOW_LAUNCH (R308): the descriptor at the head of its queue at short time `now`: held, launched, launched LATE, or removed
as MISREAD. A removed launch still counts, so that the receiver sees a jump in SEQ. -/
def execFlowLaunch (l : LaneId) (n : Fin 256) (now : Word) (s : State) : Host.Outcome State Fault Refusal :=
  .next (match (flowRecs s 0).find? fun r => r.inst == n.val, (flowOf (s.lane l) n.val).descs.head? with
    | some r, some d =>
      let q := r.u 0x0E 1
      if !runsRole (s.lane l).role || queueHead s l q != some n.val then s
      else
        let e := diff32 now.toNat d.target
        let gone (s : State) (k : Nat) : State :=
          let s := updFlow s l n.val fun c =>
            { c.bump k 1 with descs := c.descs.tail, count := (c.count + 1) % 2 ^ 32, lastTick := s.tickNo, baseTick := s.grid.tick }
          headArrives s l q now.toNat
        if (horizon s : Int) < -e then actEvent (gone s 6) l 71 2 n.val
        else if d.held ∧ -40 ≤ e ∧ e ≤ 40 then gone (launchFrame s l r d false) 0
        else if e < 0 then updFlow s l n.val fun c => { c with descs := { d with held := true } :: c.descs.tail }
        else actEvent (updFlow (gone (launchFrame s l r d true) 0) l n.val fun c => c.bump 4 1) l 71 1 n.val
    | _, _ => s)

/-- FLOWOUT fields at their substitutes (R122, R123), but where a loop's own record gives the sink's. -/
def substFlows (s : State) (l : LaneId) : State :=
  (flowRecs s 0).foldl (fun s r =>
    if r.u 9 1 = 1 then s
    else s.updImg l fun m =>
      (List.range (r.u 0x0F 1)).foldl (fun m f =>
        let a := r.u 0x20 4 + flowQuality r + r.u (0x30 + 8 * f) 2
        let n := r.u (0x32 + 8 * f) 1
        if loopWrites s a n then m else m.writeN a (substField r f (m.readN a n))) m) s

/-! Roles (R281, R292, R311) -/

/-- Launches due after tick `a` up to tick `b`. -/
def dueLaunches (p a b : Nat) : Nat := b / p - a / p

/-- At the takeover tick every launch due since the applied snapshot counts as made; the station's address is announced on
both networks (R281, R292). -/
def takeoverFlows (s : State) (l : LaneId) : State :=
  let s := (flowRecs s 0).foldl (fun s r => updFlow s l r.inst fun c =>
    { c with count := (c.count + dueLaunches (r.u 0x0C 2) c.baseTick (s.grid.tick - 1)) % 2 ^ 32, baseTick := s.grid.tick - 1 }) s
  match netRec s with
  | some r => sendPlant s l fun q => .arp l q (BitVec.ofNat 32 (r.u 0x0C 4))
  | none => s

def standbyFlows (s : State) (l : LaneId) : State :=
  (flowRecs s 0).foldl (fun s r => updFlow s l r.inst fun c => { c with baseTick := s.grid.tick - 1 }) s

def offlineFlows (s : State) (l : LaneId) : State :=
  s.updNet l fun v => { v with flows := v.flows.map fun e => (e.1, { e.2 with descs := [], inbox := [] }) }

/-- A tracking lane takes from a snapshot the launch count and the tick of the last launch, the last accepted sequence, the
deadline state and the miss count; a launch of tick `tick` that was still to come at its cut-off is not in the count (R275, R281). -/
def mirrorFlow (own seen : FlowCtx) (tick : Nat) : FlowCtx :=
  { own with count := seen.count, lastTick := seen.lastTick, baseTick := max seen.baseTick (tick - 1), lastSeq := seen.lastSeq, rstate := seen.rstate,
             misses := seen.misses }

/-- Every field of a new entry at its substitute: mode 1 keeps the value of that field in `before` where the flow's old record has it
in the same size, else it is de-energised (R122; log entry 122). -/
def applyFields (old : Option CfgRec) (r : CfgRec) (before m : Mem) : Mem :=
  (List.range (r.u 0x0F 1)).foldl (fun m f =>
    let n := r.u (0x32 + 8 * f) 1
    let kept := old.filter fun o => r.u 8 1 == 0 && o.u 8 1 == 0 && o.u 9 1 == r.u 9 1 && decide (f < o.u 0x0F 1) &&
      o.u (0x32 + 8 * f) 1 == n
    let held := kept.elim (zeros n) fun o => before.readN (o.u 0x20 4 + flowHeader o + o.u (0x30 + 8 * f) 2) n
    m.writeN (r.u 0x20 4 + flowHeader r + r.u (0x30 + 8 * f) 2) (substField r f held)) m

/-- Flow contexts after a configuration is applied (R122, R309): those with an unchanged record keep their state; a new or
changed one starts over, its image entry at its substitutes. -/
def flowApply (old new : List CfgRec) (before : Mem) (s : State) (l : LaneId) : State :=
  (List.range 256).foldl (fun s n =>
    match findRec new 0x0310 n with
    | none => s.updNet l fun v => { v with flows := v.flows.erase n }
    | some r =>
      if (findRec old 0x0310 n).map (fun x => x.bytes) = some r.bytes then s
      else
        let s := updFlow s l n fun _ => { baseTick := s.grid.tick }
        if r.u 9 1 = 1 then s
        else s.updImg l fun m =>
          let m := m.writeN (r.u 0x20 4) (zeros (flowEntryLen r))
          if r.u 9 1 = 2 then m else applyFields (findRec old 0x0310 n) r before m) s

/-! Ports (R293, R313, R315, R524) -/

/-- PHY_LINK_CHANGE (R317, R319, R524). -/
def execPhyLinkChange (l : LaneId) (portB up : Bool) (s : State) : Host.Outcome State Fault Refusal :=
  let v := (s.lane l).net
  if !(s.lane l).present || (if portB then v.upB else v.upA) == up then .next s
  else
    let s := s.updNet l fun v => if portB then { v with upB := up } else { v with upA := up }
    .next (if up then netEvent s l 64 2 (portNo portB) else netEvent (countPort s l portB 6) l 64 1 (portNo portB))

/-- PRP_SUPERVISION_SEND (R293). -/
def execPrpSupervisionSend (l : LaneId) (s : State) : Host.Outcome State Fault Refusal :=
  .next (if (s.lane l).onNet && (netRec s).isSome then sendPlant s l fun q => .prpSupervision l q else s)

/-- PRP_SUPERVISION_FRAME (R293): the node is heard on that network. -/
def execPrpSupervisionFrame (l : LaneId) (portB : Bool) (node : Nat) (s : State) : Host.Outcome State Fault Refusal :=
  .next (if (s.lane l).present then
    (countPort s l portB 0).updNet l fun v => { v with nodes := v.nodes.set node (v.nodes.get node 0 ||| 2 ^ portNo portB) }
  else s)

/-- PRP_SUPERVISION_LOST (R319): a node heard on a network is heard there no more. -/
def execPrpSupervisionLost (l : LaneId) (portB : Bool) (node : Nat) (s : State) : Host.Outcome State Fault Refusal :=
  let m := (s.lane l).net.nodes.get node 0
  .next (if (s.lane l).present && bit m (portNo portB) then
    netEvent (s.updNet l fun v => { v with nodes := v.nodes.set node (m - 2 ^ portNo portB) }) l 65 1 (portNo portB)
  else s)

/-- A candidate that RFC 3927 excludes: the first and last 256 addresses of 169.254/16 (R315). -/
def ipExcluded (ip : Nat) : Bool := ip / 256 % 256 == 0 || ip / 256 % 256 == 255

def ipFirst (mac : Nat) : Nat := 0xA9FE0000 + mac % 65536

/-- The candidate `k` places after another among those that RFC 3927 allows. -/
def ipAfter (ip k : Nat) : Nat := 0xA9FE0100 + (ip + k - 0xA9FE0100) % 0xFE00

/-- A further candidate that RFC 3927 allows and the other lane does not hold; which one is open (R315). -/
def ipNext (s : State) (l : LaneId) : State :=
  let (k, s) := s.takeFree
  let ip := ipAfter (max (s.lane l).net.bootIp 0xA9FE0100) (1 + Config.freeNat k % 0xFDFE)
  s.updNet l fun v => { v with bootIp := if ip = (s.lane (other l)).net.bootIp then ipAfter ip 1 else ip }

/-- The first candidate, or the next when it is excluded. -/
def ipStart (s : State) (l : LaneId) : State :=
  let ip := ipFirst (s.lane l).mac
  if ipExcluded ip then ipNext s l else s.updNet l fun v => { v with bootIp := ip }

/-- THL_BOOTSTRAP_START (R315): the probing of the candidate ends; a conflict moves the lane to the next candidate, and
without one THL is served there until a network record is applied. The lanes' addresses differ. -/
def execThlBootstrapStart (l : LaneId) (conflict : Bool) (s : State) : Host.Outcome State Fault Refusal :=
  let v := s.lane l
  if v.phase != .running || (netRec s).isSome || v.net.bootUp then .next s
  else
    let s := if v.net.bootIp = 0 then ipStart s l else s
    let o := (s.lane (other l)).net
    .next (if conflict || (o.bootUp && o.bootIp == (s.lane l).net.bootIp) then ipNext s l
      else s.updNet l fun v => { v with bootUp := true })

/-- Addresses that a lane answers: the station's while it acts (R292, R314), its bootstrap address (R315). -/
def ownsIp (s : State) (l : LaneId) (ip : Word) : Bool :=
  (runsRole (s.lane l).role && (netRec s).elim false fun r => r.u 0x0C 4 == ip.toNat) ||
  ((s.lane l).net.bootUp && (s.lane l).net.bootIp == ip.toNat)

/-- An ARP or ICMP frame that the load limit admits: an answer from an address of the lane's own leaves on both ports (R293,
R295, R315). -/
def arpIcmpTake (s : State) (l : LaneId) : ArpIcmp → State
  | .arpRequest ip => if ownsIp s l ip then sendPlant s l fun q => .arp l q ip else s
  | .arpClaim ip => if (netRec s).isNone && (s.lane l).net.bootIp == ip.toNat && (s.lane l).net.bootIp != 0 then
      ipNext (s.updNet l fun v => { v with bootUp := false }) l
    else s
  | .echo ip =>
    if ownsIp s l ip && (netRec s).elim false (fun r => bit (r.u 0x0A 2) 1) then sendPlant s l fun q => .echo l q ip else s

/-- ARP_ICMP_FRAME (R293, R295, R313, R315). -/
def execArpIcmpFrame (l : LaneId) (rx : Rx) (f : ArpIcmp) (s : State) : Host.Outcome State Fault Refusal :=
  if !(s.lane l).present then .next s
  else
    let (first, s) := plantIn s l rx
    let (ok, s) := if first then admitRate s l (40 + portNo rx.portB) 100 else (false, s)
    .next (if !first then s else if !ok then shed s l rx.portB 4 else arpIcmpTake s l f)

/-- The bootstrap addresses are released where a network record is first applied (R315). -/
def releaseBootstrap (s : State) (l : LaneId) : State :=
  if (netRec s).isNone then s else s.updNet l fun v => { v with bootUp := false, bootIp := 0 }

/-! Counters (R317, R318) -/

/-- A network counter of wide-read selector 0x10 on a lane; none sets BAD_SEL. -/
def netCounter (s : State) (l : LaneId) (index : Nat) : Option Nat :=
  let obj := fld index 4 8
  let k := fld index 0 4
  if 8 ≤ k then none
  else match fld index 12 4 with
    | 0 => if obj < 2 then some ((s.lane l).net.cnt.get (8 * obj + k) 0) else none
    | 1 => (s.cfgRec 0x0310 obj).map fun _ => (flowOf (s.lane l) obj).cnt.get k 0
    | _ => none

/-- A FLOW_STATS record of 64 bytes (R318). -/
def flowStat (s : State) (l : LaneId) (n : Nat) : List Byte :=
  match s.cfgRec 0x0310 n with
  | none => leBytes n 2 ++ zeros 62
  | some r =>
    let c := flowOf (s.lane l) n
    let tx := r.u 8 1 == 0
    padTo 64 (leBytes n 2 ++ leBytes (r.u 8 1) 1 ++ leBytes (if tx then 0 else c.rstate) 1 ++
      ((List.range 8).flatMap fun k => leBytes (c.cnt.get k 0) 6) ++
      leBytes (if tx then c.sentSeq else c.heldSeq) 4 ++ leBytes (if tx then c.sentTick else c.heldTick) 4)

end Sys2Proof.Machine
end

