-- ==== Sys2Proof/WellFormed.lean ====
section
/-! DEFINITION. Well-formed commands: what the environment can send. Each check names the rule that bounds the operand. -/

namespace Sys2Proof

/-- Access sizes of the window: 8, 16, 32 or 64 bits, naturally aligned (R52). -/
def sizeOk (addr size : Nat) : Bool := (size == 1 || size == 2 || size == 4 || size == 8) && addr % size == 0

/-- A frame's data length by its DLC (R325). -/
def dlcLen (fdf : Bool) (dlc : Nat) : Nat :=
  if dlc ≤ 8 then dlc else if fdf then [12, 16, 20, 24, 32, 48, 64].getD (dlc - 9) 64 else 8

/-- CAN frames: identifier within its width, DLC of 4 bits, data as the DLC says. -/
def CanFrame.ok (f : CanFrame) : Bool :=
  decide (f.ident < if f.ide then 2 ^ 29 else 2 ^ 11) && decide (f.dlc < 16) &&
  f.data.length == (if f.rtr then 0 else dlcLen f.fdf f.dlc)

/-- The sample is that of the island's kind, with a value for each of its channels (R24). -/
def FieldSample.ok (i : Nat) : FieldSample → Bool
  | .dio ch groupMa _ => decide (i < 2) && ch.length == 32 && groupMa.length == 4
  | .ai ch _ => (i == 2 || i == 3) && ch.length == 16
  | .ao ch _ => i == 4 && ch.length == 16
  | .mx wire line _ => i == 5 && wire.length == 8 && line.length == 4
  | .sk => i == 6

def SkResult.ok (r : SkResult) : Bool := r.soCmd.length == 8 && r.statusOut.length == 64 && r.pairs.length == 8 && r.pairs.all (decide <| · < 6)

/-- Every operand lies in the range its rule gives. -/
def Instr.wf : Instr → Bool
  | .registerWrite _ slow addr size _ _ => if slow then addr % 4 == 0 && decide (addr < 65536) else sizeOk addr size && decide (addr < 4096)
  | .dmaCompletion _ _ ok _ data => ok || data.isEmpty
  | .thlHello _ _ _ nonce => nonce.length == 16 || nonce.length == 32
  | .thlRegRead _ _ _ seq addr tag => decide (seq < 2 ^ 32) && decide (addr < 4096) && tag.length == 16
  | .thlRegWrite _ _ _ seq addr _ tag _ => decide (seq < 2 ^ 32) && decide (addr < 4096) && tag.length == 16
  | .thlData _ _ _ seq _ _ data tag => decide (seq < 2 ^ 32) && decide (data.length ≤ 1024) && tag.length == 16
  | .thlAck _ _ _ seq _ _ tag => decide (seq < 2 ^ 32) && tag.length == 16
  | .canFrameReceived _ _ f _ => f.ok
  | .udpbcDatagram _ _ g _ sentences => g.mac.length == 6 && sentences.all fun t => decide (t.length ≤ 82)
  | .rs422Sentence _ text _ _ => decide (text.length ≤ 256)
  | .safetyInputSample _ mv => mv.length == 16
  | .skCycleEnd x y _ => x.all SkResult.ok && y.all SkResult.ok
  | .islandEdge i x => x.ok i.val
  | .panelFrame _ station => station.all fun e => decide (e.2.length ≤ 25)
  | .skKernelFault code => decide (code < 65536)
  | _ => true

end Sys2Proof
end

