-- ==== Sys2Proof/Machine/Can.lean ====
section
/-! DEFINITION. CAN FD ports of the lanes and service ports of MX-1 (12_can_ports.md). One set of operations serves both kinds:
a port is named by its number, and the lane in it matters for ports 0 to 7 alone. -/

namespace Sys2Proof.Machine

/-! Configuration and layout (R320, R322 to R324, R326, R330, R360) -/

def canRec (s : State) (p : Nat) : Option CfgRec := s.cfgRec 0x0401 p

def canObjs (s : State) (p : Nat) : List CfgRec :=
  sortBy (fun a b => decide (a.inst ≤ b.inst)) ((recsOf s.cfgRecs 0x0410).filter fun r => r.inst / 64 == p)

def isSc (p : Nat) : Bool := decide (8 ≤ p)

def canDepth (p : Nat) : Nat := if isSc p then 16 else 32
def canRing (p : Nat) : Nat := if isSc p then 64 else 256
def canRingOff (p : Nat) : Nat := if isSc p then 0x600 else 0x1500

/-- Base of a port's receive parts, transmit fields and port control. -/
def canRxBase (p : Nat) : Nat := if isSc p then aIN + 0x4000 + 0x2000 * (p - 8) else aCAN + 0x8000 * p
def canTxBase (p : Nat) : Nat := if isSc p then aOUT + 0x1000 + 0x800 * (p - 8) else aCAN + 0x8000 * p + 0x6800
def canCtlBase (p : Nat) : Nat := if isSc p then aOUT + 0x1500 + 0x800 * (p - 8) else aCAN + 0x8000 * p + 0x7C00

/-- Filter elements of a port, standard or extended: their offsets in the filter record. -/
def canElems (r : CfgRec) (ext : Bool) : List Nat :=
  let n := r.u 8 1
  if ext then (List.range (r.u 9 1)).map fun i => 12 + 12 * (n + i) else (List.range n).map fun i => 12 + 12 * i

def elemMatch (r : CfgRec) (o ident : Nat) : Bool :=
  let a := r.u (o + 4) 4
  let b := r.u (o + 8) 4
  match r.u o 1 with
  | 0 => decide (a ≤ ident ∧ ident ≤ b)
  | 1 => ident == a || ident == b
  | _ => (ident &&& b) == (a &&& b)

/-- The first matching element: ACTION and BUF (R326, R327). -/
def canFilter (s : State) (p : Nat) (f : CanFrame) : Option (Nat × Nat) :=
  (s.cfgRec 0x0402 p).bind fun r =>
    ((canElems r f.ide).find? fun o => elemMatch r o f.ident).map fun o => (r.u (o + 1) 1, r.u (o + 2) 1)

/-- FRESH_TICKS of the element that fills a buffer; none when no element names it. -/
def canFresh (s : State) (p buf : Nat) : Option Nat :=
  (s.cfgRec 0x0402 p).bind fun r =>
    ((canElems r false ++ canElems r true).find? fun o => r.u (o + 1) 1 == 2 && r.u (o + 2) 1 == buf).map fun o => r.u (o + 3) 1

/-! Ports in the state -/

/-- The MX-1 island's number (R108). -/
def mxIsl : Nat := 5

def canPort (s : State) (l : LaneId) (p : Nat) : CanPort :=
  if isSc p then (s.island mxIsl).mx.sc.get p {} else (s.lane l).can.get p {}

def updCan (s : State) (l : LaneId) (p : Nat) (f : CanPort → CanPort) : State :=
  if isSc p then s.updIsl mxIsl fun x => { x with mx := { x.mx with sc := x.mx.sc.set p (f (x.mx.sc.get p {})) } }
  else s.updLane l fun v => { v with can := v.can.set p (f (v.can.get p {})) }

def CanPort.bump (c : CanPort) (k n : Nat) : CanPort := { c with cnt := Machine.bump c.cnt k n }

/-- ECSTATE (R335). -/
def CanPort.ec (c : CanPort) : Nat := if c.pstate = 3 then 2 else if 128 ≤ c.tec ∨ 128 ≤ c.rc then 1 else 0

def CanPort.quality (c : CanPort) : Bool := c.pstate == 1 || c.pstate == 2

/-- A CAN event (R343): reported for a lane's port while the lane acts. EV096 and EV101 are never suppressed. -/
def canEvent (s : State) (l : LaneId) (p src code : Nat) (low : Option Nat := none) (pay : List Byte := []) : State :=
  let who := if isSc p then s.mainLane else l
  if !isSc p && !runsRole (s.lane l).role then s
  else raise s { src := src, code := code, lane := who, pay := pay,
                 data := p * 2 ^ 24 + (low.getD s.grid.tick) % 2 ^ 24,
                 obj := if src = 96 ∨ src = 101 then none else some p }

/-- Frames taken from a FIFO, each counted in TX_SKIP (R334, R337). -/
def CanPort.flush (c : CanPort) : CanPort :=
  let n := c.fifo.length
  { c.bump 6 n with fifo := [], txSkip := (c.txSkip + n) % 2 ^ 32 }

/-! Receiving (R325, R327) -/

def frameIdWord (f : CanFrame) : Nat := f.ident + 2 ^ 31 * b2n f.ide + 2 ^ 30 * b2n f.fdf + 2 ^ 29 * b2n f.brs

/-- The 80-byte entry, SEQ and BFLAGS 0. -/
def rxEntry (f : CanFrame) (tick time : Nat) : List Byte :=
  leBytes (frameIdWord f) 4 ++ leBytes (f.dlc + 16 * b2n f.esi + 32 * b2n f.rtr) 1 ++ [0, 0, 0] ++ leBytes tick 4 ++
    leBytes time 4 ++ padTo 64 f.data

/-- A successful reception lowers REC; from above 127 to a value between 119 and 127, which ISO 11898-1 leaves open (R334). -/
def recDown (s : State) (c : CanPort) : CanPort × State :=
  if c.rc = 0 then (c, s)
  else if c.rc ≤ 127 then ({ c with rc := c.rc - 1 }, s)
  else
    let (k, s) := s.takeFree
    ({ c with rc := 119 + Config.freeNat k % 9 }, s)

/-- Events at a change of the error state (R334, R343); a service port that becomes error-passive returns to DETECT (R338). -/
def ecChange (s : State) (l : LaneId) (p before : Nat) : State :=
  let after := (canPort s l p).ec
  if before = after then s
  else if after = 1 ∧ before = 0 then
    let s := canEvent s l p 96 1
    if isSc p then canEvent (updCan s l p fun c => { c with pstate := 5, rate := 0, quiet := false, tec := 0, rc := 0 }) l p 100 2 else s
  else if after = 0 ∧ before = 1 then canEvent s l p 96 2
  else s

/-- A controller that receives meets an error: REC rises where it does not merely listen (R334, R340). -/
def rxError (s : State) (l : LaneId) (p : Nat) (step8 : Bool) : State :=
  let c := canPort s l p
  let s := updCan s l p fun c => c.bump 4 1
  if c.pstate != 2 then s
  else ecChange (updCan s l p fun c => { c with rc := min (c.rc + if step8 then 8 else 1) 255 }) l p c.ec

/-- The oldest frame of an identifier leaves a FIFO (R282). -/
def dropOldest (ide : Bool) (ident : Nat) : List CanTx → List CanTx
  | [] => []
  | x :: r => if x.f.ide = ide ∧ x.f.ident = ident then r else x :: dropOldest ide ident r

/-- CAN_FRAME_RECEIVED (R282, R321, R327, R328, R341): a frame that passed its CRC, `dt` ns after the edge. A CAN FD frame draws the error
frame of a classical controller; a shadow FIFO drops the oldest entry of the frame's identifier. -/
def execCanFrameReceived (l : LaneId) (port : Fin 10) (f : CanFrame) (dt : Nat) (s : State) : Host.Outcome State Fault Refusal :=
  let p := port.val
  let c := canPort s l p
  .next (match canRec s p with
    | none => s
    | some r =>
      if c.pstate = 0 ∨ c.pstate = 4 ∨ (!isSc p && !tracks (s.lane l)) = true then s
      else if f.fdf = true ∧ r.u 8 1 = 0 then rxError s l p false
      else
        let e0 := c.ec
        let (c, s) := recDown s c
        let c := { c.bump 0 1 with rxFrames := (c.rxFrames + 1) % 2 ^ 32 }
        let entry := rxEntry f (s.tickNo) (s.shortTime dt)
        let store (b : Option Nat) : CanPort := { c with pending := c.pending ++ [⟨s.grid.tick, b, entry⟩] }
        let c := match canFilter s p f, r.u 9 1 with
          | some (2, b), _ => store (some b)
          | some (1, _), _ => store none
          | some _, _ => c.bump 2 1
          | none, 0 => store none
          | none, _ => c.bump 2 1
        let c : CanPort := if c.pstate == 1 then { c with fifo := dropOldest f.ide f.ident c.fifo } else c
        ecChange (updCan s l p fun _ => c) l p e0)

/-- The image of one port at the swap of the present tick, over memory `m`: frames completed before the edge enter buffers
and ring (R132, R324, R325, R328, R329, R335). Also the buffers overrun. -/
def canSwap (s : State) (p : Nat) (c : CanPort) (m : Mem) : CanPort × Mem × List Nat :=
  let base := canRxBase p
  let now := c.pending.filter fun x => decide (x.tick < s.grid.tick)
  let (m, head) := now.foldl (fun (a : Mem × Nat) x =>
    (a.1.writeN (base + canRingOff p + 80 * (a.2 % canRing p)) (overwrite x.entry 5 (leBytes a.2 1)), (a.2 + 1) % 2 ^ 32)) (m, c.head)
  let m := m.writeN (base + 0x20) (leBytes head 4 ++ leBytes now.length 2 ++ [0, 0] ++ leBytes s.tickNo 4 ++ zeros 4)
  let good := c.quality
  let (m, stored, overl) := (List.range 64).foldl (fun (a : Mem × Tab Nat × List Nat) b =>
    match canFresh s p b with
    | none => a
    | some fresh =>
      let at_ := base + 0x100 + 80 * b
      let xs := now.filter fun x => x.buf == some b
      let n := (a.2.1.get b 0 + xs.length) % 256
      let m := match xs.getLast? with
        | some x => a.1.writeN at_ (overwrite x.entry 5 (leBytes n 1))
        | none => a.1
      let age := diff32 s.tickNo (m.rdU (at_ + 8) 4)
      let stale := (fresh != 0 && decide (fresh < age.natAbs)) || !good
      (m.wrU (at_ + 6) 1 (maskOf [!xs.isEmpty, decide (1 < xs.length), stale]), a.2.1.set b n,
        if 1 < xs.length then a.2.2 ++ [b] else a.2.2)) (m, c.stored, [])
  let m := m.writeN base (leBytes c.pstate 1 ++ leBytes c.ec 1 ++ leBytes (min c.tec 255) 1 ++ leBytes (min c.rc 255) 1 ++
    leBytes c.fifo.length 1 ++ leBytes (maskOf [good, c.woke, c.tdc]) 1 ++ leBytes c.rate 1 ++ [0] ++ leBytes s.tickNo 4 ++
    leBytes c.txDone 4 ++ leBytes c.txSkip 4 ++ leBytes c.rxFrames 4 ++ zeros 8)
  ({ c.bump 3 overl.length with
      pending := c.pending.filter fun x => !decide (x.tick < s.grid.tick)
      head := head
      stored := stored
      woke := false }, m, overl)

/-- Receive parts of ports 0 to 7 at a lane's input swap: a port without a record has its status too (R335). -/
def canSwaps (s : State) (l : LaneId) : State :=
  (List.range 8).foldl (fun s p =>
    let (c, m, overl) := canSwap s p (canPort s l p) (s.lane l).img
    let s := (updCan s l p fun _ => c).updImg l fun _ => m
    overl.foldl (fun s b => canEvent s l p 97 1 none (leBytes b 1)) s) s

/-! Transmitting (R330 to R333) -/

def objFrame (r : CfgRec) (data : List Byte) : CanFrame :=
  let id := r.u 8 4
  { ide := bit id 31, fdf := bit id 30, brs := bit id 29, ident := id % 2 ^ 29, dlc := r.u 0x0C 1, data := data }

/-- Data length of a DLC (R325, ISO 11898-1). -/
def dlcBytes (fdf : Bool) (dlc : Nat) : Nat := dlcLen fdf dlc

def objLen (r : CfgRec) : Nat := dlcBytes (bit (r.u 8 4) 30) (r.u 0x0C 1)

/-- The object's quality (R331): every quality byte that has a writer and covers a byte within the DLC. -/
def objQuality (s : State) (r : CfgRec) (m : Mem) (field : Nat) : Bool :=
  (List.range 8).all fun k =>
    !decide (8 * k < objLen r) || !(loopWrites s (field + 0x10 + 8 * k) 1 || !(taskWriters s (field + k) 1).isEmpty) ||
      bit (m.rdU (field + k) 1) 0

/-- The substitute data of an object (R122, R330). -/
def objSubst (r : CfgRec) (held : List Byte) : List Byte :=
  match r.u 0x15 1 with
  | 0 => zeros (objLen r)
  | 1 => padTo (objLen r) held
  | _ => (r.bytes.drop 0x18).take (objLen r)

/-- The alive counter in its byte (R332). -/
def withAlive (r : CfgRec) (n : Nat) (data : List Byte) : List Byte :=
  let p := r.u 0x13 1
  let w := r.u 0x14 1
  if p = 0xFF ∨ w = 0 ∨ data.length ≤ p then data
  else overwrite data p (leBytes (rdU data p 1 / 2 ^ w * 2 ^ w + n % 2 ^ w) 1)

/-- What makes an object due, from its field: a change or a request that must wait stays (R332). -/
def objWants (r : CfgRec) (o : CanObj) (tick : Nat) (data : List Byte) (req : Nat) : Bool :=
  match r.u 0x0D 1 with
  | 0 => tick % r.u 0x0E 2 == r.u 0x10 2
  | 1 => o.due || o.last != some data
  | _ => o.due || req != o.req

/-- The interval of mode 1 since the last enqueue has passed (R332). -/
def objMay (r : CfgRec) (o : CanObj) (tick : Nat) : Bool :=
  r.u 0x0D 1 != 1 || o.last.isNone || decide (o.lastEnq + r.u 0x0E 2 ≤ tick)

/-- One object at an edge: the port after it, and the event code of EV098, if any. The head of the FIFO arbitrates (R333), so
REPLACE finds its frame behind it; a port in DETECT only listens (R338), and nothing of it has started. Until START and in STOPPED the
fields are substitutes and are sent whatever their quality (R123, R341). -/
def enqueueObj (s : State) (p : Nat) (m : Mem) (r : CfgRec) (c : CanPort) : CanPort × Option Nat :=
  let n := r.inst % 64
  let field := canTxBase p + 80 * n
  let o := c.objs.get n {}
  let data := m.readN (field + 0x10) (objLen r)
  let req := m.rdU (field + 8) 1
  let wants := objWants r o s.grid.tick data req
  let may := objMay r o s.grid.tick
  let o := { o with req := req }
  let keep (o : CanObj) : CanPort := { c with objs := c.objs.set n o }
  if !wants then (keep o, none)
  else if !may then (keep { o with due := true }, none)
  else
    let bad := s.st.engaged && !objQuality s r m field
    if bad && r.u 0x16 1 == 2 then (keep { o with due := false }, some 2)
    else
      let sent := if bad && r.u 0x16 1 == 1 then objSubst r (o.last.getD (zeros (objLen r))) else data
      let first := if c.pstate = 5 then 0 else 1
      let place := if bit (r.u 0x12 1) 0 then findPos (fun (x : CanTx) => x.obj == n) (c.fifo.drop first) first else none
      match place with
      | some i =>
        let c := keep { o with last := some sent, lastEnq := s.grid.tick, due := false }
        ({ c with fifo := c.fifo.set i ⟨n, objFrame r (withAlive r o.alive sent)⟩ }, none)
      | none =>
        if canDepth p ≤ c.fifo.length then
          let c := keep { o with due := r.u 0x0D 1 != 0 }
          ({ c.bump 6 1 with txSkip := (c.txSkip + 1) % 2 ^ 32 }, some 1)
        else
          let a := o.alive + 1
          let c := keep { o with last := some sent, lastEnq := s.grid.tick, aliveAt := s.grid.tick, due := false, alive := a % 256 }
          ({ c with fifo := c.fifo ++ [⟨n, objFrame r (withAlive r a sent)⟩] }, none)

/-- The objects of a port enqueued at the present edge from the fields `m` (R332, R334, R340); none in BUS_OFF, SLEEP or without a
record. -/
def canEnqueue (s : State) (l : LaneId) (p : Nat) (m : Mem) : State :=
  let c := canPort s l p
  if c.pstate == 0 || c.pstate == 3 || c.pstate == 4 then
    -- the previous REQ_SEQ moves on even where nothing is enqueued
    (canObjs s p).foldl (fun s r =>
      updCan s l p fun c =>
        let o := c.objs.get (r.inst % 64) {}
        { c with objs := c.objs.set (r.inst % 64) { o with req := m.rdU (canTxBase p + 80 * (r.inst % 64) + 8) 1 } }) s
  else (canObjs s p).foldl (fun s r =>
    let (c, ev) := enqueueObj s p m r (canPort s l p)
    let s := updCan s l p fun _ => c
    match ev with
    | none => s
    | some k => canEvent s l p 98 k) s

/-! Port control (R336, R337) -/

/-- PSTATE of a port that works: ports 0 to 7 by their lane's role, a service port ONLINE once its rate is known. -/
def workState (s : State) (l : LaneId) (p : Nat) : Nat :=
  if isSc p then (if (canPort s l p).rate = 0 then 5 else 2) else if runsRole (s.lane l).role then 2 else 1

def canWake (s : State) (l : LaneId) (p code : Nat) : State :=
  canEvent (updCan s l p fun c => { c.flush with pstate := workState s l p, woke := true, finishing := false }) l p 99 code

/-- A port goes to sleep (R337): the FIFO is cleared but for a frame in progress at its head, which may still complete. -/
def CanPort.toSleep (c : CanPort) : CanPort :=
  let head := if c.pstate == 2 then c.fifo.take 1 else []
  { ({ c with fifo := c.fifo.drop head.length } : CanPort).flush with pstate := 4, finishing := !head.isEmpty, fifo := head }

/-- A frame that was finishing does not complete: a sleeping port's is cleared (R337, R340). -/
def CanPort.unfinish (c : CanPort) : CanPort :=
  if c.pstate == 4 then { c.flush with finishing := false } else { c with finishing := false }

/-- A control request acts, or is refused with EV099 code 5 (R336). -/
def canRequest (s : State) (l : LaneId) (p req : Nat) : State :=
  let c := canPort s l p
  let sleepOk := (canRec s p).elim false fun r => bit (r.u 0x0A 1) 2
  match req with
  | 1 => if sleepOk && c.quality then canEvent (updCan s l p CanPort.toSleep) l p 99 1
         else canEvent s l p 99 5
  | 2 => if c.pstate = 4 then canWake s l p 4 else canEvent s l p 99 5
  | 3 => if c.pstate = 3 ∧ c.recovering = false then updCan s l p fun c => { c with recovering := true }
         else canEvent s l p 99 5
  | _ => s

/-- The control request in the port's fields, taken at the edge after the cut-off that shows a new CTRL_SEQ; `only` names the
one kind of request to take. -/
def canControl (s : State) (l : LaneId) (p : Nat) (m : Mem) (only : Option Nat) : State :=
  match canRec s p with
  | none => s
  | some _ =>
    let seq := m.rdU (canCtlBase p) 1
    let req := m.rdU (canCtlBase p + 1) 1
    if (canPort s l p).ctrl = seq ∨ only.elim false (fun k => k != req) = true then s
    else canRequest (updCan s l p fun c => { c with ctrl := seq }) l p req

/-- The fields that a port's controller takes at an edge: the lane's frozen image, or what MX-1 applies. -/
def canFields (s : State) (l : LaneId) (p : Nat) : Mem :=
  if isSc p then (s.island mxIsl).applied else (s.lane l).frozen

/-- An edge for ports 0 to 7 of a lane that computes (R332, R336, R340). -/
def canEdge (s : State) (l : LaneId) : State :=
  if !tracks (s.lane l) then s
  else (List.range 8).foldl (fun s p =>
    let m := canFields s l p
    canEnqueue (canControl s l p m none) l p m) s

/-- CAN_SLEEP_REQUEST, CAN_WAKE_REQUEST, CAN_RECOVER_REQUEST (R336, R337): the request of that kind that stands in the port's
frozen control fields is taken. -/
def execCanSleepRequest (l : LaneId) (port : Fin 10) (s : State) : Host.Outcome State Fault Refusal :=
  .next (canControl s l port.val (canFields s l port.val) (some 1))

def execCanWakeRequest (l : LaneId) (port : Fin 10) (s : State) : Host.Outcome State Fault Refusal :=
  .next (canControl s l port.val (canFields s l port.val) (some 2))

def execCanRecoverRequest (l : LaneId) (port : Fin 10) (s : State) : Host.Outcome State Fault Refusal :=
  .next (canControl s l port.val (canFields s l port.val) (some 3))

/-- The wake frame of R337. -/
def wakeFrame (r : CfgRec) (f : CanFrame) : Bool :=
  let mask := r.u 0x1C 4 % 2 ^ 29
  !f.fdf && f.ide == bit (r.u 0x18 4) 31 && (f.ident &&& mask) == ((r.u 0x18 4 % 2 ^ 29) &&& mask) &&
  f.dlc == r.u 0x28 1 &&
  (r.u 0x28 1 == 0 || (List.range 8).any fun i => ((rdU f.data i 1) &&& (r.u (0x20 + i) 1)) != 0)

/-- CAN_BUS_WAKE (R337): a dominant phase beyond the wake filter, or a whole frame seen asleep. -/
def execCanBusWake (l : LaneId) (port : Fin 10) (f : Option CanFrame) (s : State) : Host.Outcome State Fault Refusal :=
  let p := port.val
  .next (match canRec s p with
    | none => s
    | some r =>
      if (canPort s l p).pstate != 4 then s
      else if !bit (r.u 0x0A 1) 3 then canWake s l p 2
      else match f with
        | some x => if wakeFrame r x then canWake s l p 3 else s
        | none => s)

/-! Errors and completion (R334, R338) -/

/-- Bus-off: the FIFO cleared, recovery started at once under BUSOFF_AUTO; a service port returns to DETECT. -/
def busOff (s : State) (l : LaneId) (p : Nat) : State :=
  let auto := (canRec s p).elim false fun r => bit (r.u 0x0A 1) 1
  let s := canEvent (updCan s l p fun c => { c.flush.bump 5 1 with pstate := 3, recovering := auto }) l p 96 3
  if isSc p then
    canEvent (updCan s l p fun c => { c with pstate := 5, recovering := false, rate := 0, quiet := false, tec := 0, rc := 0 }) l p 100 2
  else s

/-- CAN_ERROR (R334, R340, R343): TEC and REC of a listening controller stay at 0; a frame that it was finishing is not retried. -/
def execCanError (l : LaneId) (port : Fin 10) (e : CanErr) (s : State) : Host.Outcome State Fault Refusal :=
  let p := port.val
  let c := canPort s l p
  .next (if c.pstate = 0 ∨ (c.pstate = 4 ∧ c.finishing = false) then s
    else match e with
    | .tx =>
      let s := updCan s l p fun c => (c.bump 4 1).unfinish
      if c.pstate != 2 then s
      else
        let s := updCan s l p fun c => { c with tec := c.tec + 8 }
        if 255 < c.tec + 8 then busOff s l p else ecChange s l p c.ec
    | .rx step8 => rxError s l p step8
    | .arbitration => updCan s l p fun c => (c.bump 7 1).unfinish
    | .protocolException => canEvent s l p 97 2
    | .tdcOutside => canEvent (updCan s l p fun c => { c with tdc := true }) l p 102 1
    | .rateFailed => if c.pstate = 5 then updCan s l p fun c => { c with rate := 0 } else s)

/-- CAN_BUSOFF_RECOVERED (R334): 128 occurrences of 11 recessive bits. -/
def execCanBusoffRecovered (l : LaneId) (port : Fin 10) (s : State) : Host.Outcome State Fault Refusal :=
  let p := port.val
  let c := canPort s l p
  .next (if c.pstate = 3 ∧ c.recovering = true then
    canEvent (updCan s l p fun c => { c with pstate := workState s l p, recovering := false, tec := 0, rc := 0 }) l p 96 4
  else s)

/-- CAN_FRAME_TX_DONE (R282, R321, R333, R334, R337, R340): the head frame of the FIFO completes on the bus, a CAN FD frame with the
error state of its sender; the other lane's FIFO drops its oldest frame of that identifier, be it the shadow FIFO or that of a new
active lane. -/
def execCanFrameTxDone (l : LaneId) (port : Fin 10) (s : State) : Host.Outcome State Fault Refusal :=
  let p := port.val
  let c := canPort s l p
  .next (match c.fifo with
    | [] => s
    | x :: rest =>
      if !(c.pstate == 2 || c.finishing) then s
      else
        let s := updCan s l p fun c =>
          { c.bump 1 1 with finishing := false, fifo := rest, txDone := (c.txDone + 1) % 2 ^ 32, tec := c.tec - 1 }
        let s := ecChange s l p c.ec
        let s := s.emit (.can (if isSc p then s.mainLane else l) p { x.f with esi := x.f.fdf && c.ec == 1 })
        if isSc p then s
        else updCan s (other l) p fun c =>
          if c.pstate = 1 ∨ c.pstate = 2 then { c with fifo := dropOldest x.f.ide x.f.ident c.fifo } else c)

/-- SC_RATE_DETECTED (R338): a candidate confirmed; a fixed SC_RATE confirms only itself. -/
def execScRateDetected (port : Fin 2) (rate : Fin 12) (s : State) : Host.Outcome State Fault Refusal :=
  let p := 8 + port.val
  .next (match canRec s p with
    | none => s
    | some r =>
      if (canPort s .a p).pstate = 5 ∧ rate.val ≠ 0 ∧ (r.u 0x0B 1 = 0 ∨ r.u 0x0B 1 = rate.val) then
        canEvent (updCan s .a p fun c => { c with pstate := 2, rate := rate.val, quiet := false }) .a p 100 1 (some (s.grid.tick / 256 * 256 + rate.val))
      else s)

/-- SC_NO_TRAFFIC (R338): 10 s in DETECT without traffic, reported once. -/
def execScNoTraffic (port : Fin 2) (s : State) : Host.Outcome State Fault Refusal :=
  let p := 8 + port.val
  let c := canPort s .a p
  .next (if c.pstate = 5 ∧ c.quiet = false then
    canEvent (updCan s .a p fun c => { c with quiet := true }) .a p 100 3
  else s)

/-! Roles, configuration, substitutes (R282, R322, R340, R341) -/

/-- Only the newest frame of each identifier stays, in order (R282). -/
def reduceFifo : List CanTx → List CanTx
  | [] => []
  | x :: r => if r.any fun y => y.f.ide == x.f.ide && y.f.ident == x.f.ident then reduceFifo r else x :: reduceFifo r

def canTakeover (s : State) (l : LaneId) : State :=
  (List.range 8).foldl (fun s p =>
    match canRec s p with
    | none => s
    | some _ =>
      let s := updCan s l p fun c =>
        { c with fifo := reduceFifo c.fifo, tec := 0, rc := 0, recovering := false,
                 finishing := false, pstate := if c.pstate = 4 then 4 else 2 }
      canEvent s l p 101 1 (some (canPort s l p).fifo.length)) s

/-- A lane that stops transmitting: bus monitoring, TEC and REC 0 (R340); a STANDBY lane finishes a frame in progress (R286). -/
def canListen (s : State) (l : LaneId) (clear : Bool) : State :=
  s.updLane l fun v => { v with can := v.can.map fun e =>
    (e.1, { e.2 with pstate := if e.2.pstate = 0 ∨ e.2.pstate = 4 then e.2.pstate else 1, tec := 0, rc := 0, recovering := false,
                     finishing := !clear && e.2.pstate == 2, fifo := if clear then [] else e.2.fifo }) }

/-- Periodic objects of a port (R330). -/
def canPeriodic (s : State) (p : Nat) : List Nat :=
  ((canObjs s p).filter fun r => r.u 0x0D 1 == 0).map fun r => r.inst % 64

/-- A tracking lane takes the transmit counts of a snapshot of tick `tick`, and the alive counters and ticks of the periodic objects
`per`; a frame that it has enqueued since counts on, a refresh in place does not (R275, R282, R332). -/
def mirrorCan (per : List Nat) (own seen : CanPort) (tick : Nat) : CanPort :=
  { own with txDone := seen.txDone, txSkip := seen.txSkip,
             objs := per.foldl (fun t n =>
               let o := t.get n {}
               let e := seen.objs.get n {}
               t.set n { o with alive := if tick < o.aliveAt then (e.alive + 1) % 256 else e.alive,
                                aliveAt := max o.aliveAt e.aliveAt, lastEnq := max o.lastEnq e.lastEnq }) own.objs }

/-- Transmit data fields at their substitutes, but where a loop's record gives the sink's (R122, R123, R341). -/
def substCan (s : State) (l : LaneId) : State :=
  (recsOf s.cfgRecs 0x0410).foldl (fun s r =>
    let a := canTxBase (r.inst / 64) + 80 * (r.inst % 64) + 0x10
    s.updImg l fun m =>
      let d := objSubst r (m.readN a (objLen r))
      (List.range (objLen r)).foldl (fun m i => if loopWrites s (a + i) 1 then m else m.wrU (a + i) 1 (rdU d i 1)) m) s

/-- A port's own records: an unchanged set keeps the port as it is. -/
def canBytes (rs : List CfgRec) (p : Nat) : List (List Byte) :=
  (rs.filter fun r => (r.typ == 0x0401 && r.inst == p) || (r.typ == 0x0402 && r.inst == p) || (r.typ == 0x0410 && r.inst / 64 == p)).map
    fun r => r.bytes

/-- A record stands alike in two configurations. -/
def sameRec (old new : List CfgRec) (typ inst : Nat) : Bool :=
  (findRec old typ inst).isSome && (findRec old typ inst).map (fun r => r.bytes) == (findRec new typ inst).map fun r => r.bytes

/-- An object whose data a commit keeps under mode 1: its old record has the same length and transmit mode (R122; log entry 122). -/
def objKept (old : List CfgRec) (r : CfgRec) : Bool :=
  (findRec old 0x0410 r.inst).any fun o => o.u 0x0D 1 == r.u 0x0D 1 && objLen o == objLen r

/-- A port's controller after a configuration is applied (R322, R338): objects with an unchanged record keep their counters. -/
def canApplyPort (old new : List CfgRec) (p : Nat) (s : State) (l : LaneId) : State :=
  if canBytes old p = canBytes new p then s
  else updCan s l p fun c => if (findRec new 0x0401 p).isNone then { ctrl := c.ctrl } else
    { pstate := if isSc p then 5 else if runsRole (s.lane l).role then 2 else 1, ctrl := c.ctrl,
      objs := c.objs.filter fun e => sameRec old new 0x0410 (64 * p + e.1) }

/-- A lane's fields of a port whose records change (R122, R341): transmit fields at substitutes, those of an object that is gone
de-energised; the receive parts of ports 0 to 7 start over. -/
def canApplyFields (old new : List CfgRec) (p : Nat) (s : State) (l : LaneId) : State :=
  if canBytes old p = canBytes new p then s
  else
    let before := (s.lane l).img
    let s := s.updImg l fun m =>
      (if isSc p then m else m.clear (canRxBase p) 0x6800).clear (canTxBase p) (if isSc p then 0x500 else 0x1400)
    (canObjs s p).foldl (fun s r =>
      let a := canTxBase p + 80 * (r.inst % 64)
      let held := if objKept old r then before.readN (a + 0x10) (objLen r) else zeros 64
      s.updImg l fun m => m.writeN (a + 0x10) (padTo 64 (objSubst r held))) s

/-- The CAN ports of a lane, and its transmit fields of all ports, after a configuration is applied. -/
def canApply (old new : List CfgRec) (s : State) (l : LaneId) : State :=
  (List.range 10).foldl (fun s p => canApplyFields old new p (if isSc p then s else canApplyPort old new p s l) l) s

/-- The objects due at the edge of application leave at it, with their substitutes, on the ports that started over (R341). -/
def canApplySend (old new : List CfgRec) (s : State) (l : LaneId) : State :=
  (List.range 8).foldl (fun s p =>
    if canBytes old p = canBytes new p ∨ (findRec new 0x0401 p).isNone = true then s else canEnqueue s l p (s.lane l).img) s

/-- START takes the present REQ_SEQ and CTRL_SEQ as the previous ones (R332), and the counts since START begin (R335). -/
def canStart (s : State) (l : LaneId) (ps : List Nat) : State :=
  ps.foldl (fun s p =>
    let m := canFields s l p
    updCan s l p fun c =>
      { c with txDone := 0, rxFrames := 0, ctrl := m.rdU (canCtlBase p) 1,
               objs := (canObjs s p).foldl (fun t r =>
                 let o := t.get (r.inst % 64) {}
                 t.set (r.inst % 64) { o with req := m.rdU (canTxBase p + 80 * (r.inst % 64) + 8) 1, due := false }) c.objs }) s

/-- A CAN counter of wide-read selector 0x11 (R342). -/
def canCounter (s : State) (l : LaneId) (index : Nat) : Option Nat :=
  let p := fld index 8 8
  let k := fld index 0 8
  if 8 ≤ k ∨ 10 ≤ p then none else (canRec s p).map fun _ => (canPort s l p).cnt.get k 0

end Sys2Proof.Machine
end

