-- ==== Sys2Proof/Machine/Dio.lean ====
section
/-! DEFINITION. Digital islands DIO-1 and DIO-2 (13_digital_io.md). -/

namespace Sys2Proof.Machine

/-- Channel record of a digital island, and its mode (R345). -/
def dioRec (s : State) (i c : Nat) : Option CfgRec := s.cfgRec 0x0501 (i * 256 + c)
def dioMode (s : State) (i c : Nat) : Nat := (dioRec s i c).elim 0 fun r => r.u 8 1

def dioNo (dio2 : Bool) : Nat := if dio2 then 1 else 0

/-- Bases of the input and output blocks (R354, R356). -/
def dioIn (i : Nat) : Nat := aIN + 0x100 * i
def dioOut (i : Nat) : Nat := aOUT + 0x80 * i

def dioCh (s : State) (i c : Nat) : DioCh := (s.island i).dio.ch.get c {}

def updDio (s : State) (i : Nat) (f : DioIsl → DioIsl) : State := s.updIsl i fun x => { x with dio := f x.dio }

def setDioCh (s : State) (i c : Nat) (x : DioCh) : State := updDio s i fun d => { d with ch := d.ch.set c x }

/-- A channel's event (R359): OVERLOAD latched is never suppressed. -/
def dioEvent (s : State) (i c code : Nat) (pay : List Byte := []) : State :=
  raise s { src := 128 + i, code := code, data := dataObj24 s c, lane := s.mainLane, pay := pay,
            obj := if code = 3 then none else some c }

def groupEvent (s : State) (i g code : Nat) : State :=
  raise s { src := 130, code := code, data := dataObj24 s (4 * i + g), lane := s.mainLane,
            obj := if code = 3 then none else some (4 * i + g) }

/-- Raw sample of R347 in mV. -/
def rawOf (mv : Int) (prev : Bool) : Bool := if 11000 ≤ mv then true else if mv ≤ 5000 then false else prev

/-- OPEN_WIRE of R349 after a sample. -/
def openWire (x : DioSample) (was : Bool) : Bool :=
  if 11000 ≤ x.mv then false
  else if x.mv ≤ 5000 then (if 1000 ≤ x.sinkUa then false else if x.sinkUa < 500 then true else was)
  else was

/-- The filter of R348. -/
def dioFilter (n : Nat) (c : DioCh) : DioCh :=
  if c.raw = c.filt then { c with run := 0 }
  else if n ≤ c.run + 1 then { c with filt := c.raw, run := 0 }
  else { c with run := c.run + 1 }

/-- An input channel's sample. -/
def inputSample (r : CfgRec) (x : DioSample) (c : DioCh) : DioCh :=
  let ow := if bit (r.u 9 1) 0 then openWire x c.open_ else false
  let c := { c with open_ := ow, raw := rawOf x.mv c.raw }
  if ow then c else dioFilter (r.u 0x0A 1) c

/-- An output channel's read-back and diagnostics, against what was applied at the edge before (R350 to R352); a tick in which a latch
held the channel off does not count. -/
def outputSample (r : CfgRec) (x : DioSample) (tripped : Bool) (c : DioCh) : DioCh :=
  let raw := rawOf x.mv c.raw
  let ol := if bit (r.u 9 1) 0 ∧ c.on = false then
      (if 4000 ≤ x.testMv ∧ x.testMv ≤ 9000 then true else if x.testMv < 2000 then false else c.open_)
    else c.open_
  let c := { c with raw := raw, open_ := if bit (r.u 9 1) 0 then ol else false, limit := c.on && x.limit,
                    hot := if 1500 ≤ x.temp then true else if x.temp < 1400 then false else c.hot }
  if c.overl || tripped || c.held then c
  else if raw = c.on then { c with mm := 0, mism := false, shortHi := false }
  else
    let n := min (c.mm + 1) 255
    { c with mm := n, mism := c.mism || decide (r.u 0x0B 1 ≤ n), shortHi := c.shortHi || (raw && !c.on) }

/-- Substitute of an output channel (R122). -/
def dioSubst (r : CfgRec) (val : Bool) : Bool :=
  match r.u 0x0C 1 with
  | 0 => false
  | 1 => val
  | _ => r.u 0x0D 1 == 1

/-- OVERLOAD latches: a re-trip within 1 s of an automatic re-arm counts (R350). -/
def dioLatch (s : State) (i c : Nat) : State :=
  let x := dioCh s i c
  let n := match x.rearmed with
    | some t => if s.grid.mono ≤ t + 1000000000 then x.retries + 1 else 0
    | none => 0
  dioEvent (setDioCh s i c { x with overl := true, on := false, limit := false, retries := n, rearmed := none, armed := false, armHot := false }) i c 3

/-- A latch re-armed, its switch at 170 °C or not: cause 0 ACK_SEQ, 1 retry, 2 commit (R350, R359). -/
def dioRearm (s : State) (i c cause : Nat) (hot : Bool := false) : State :=
  let x := dioCh s i c
  if !x.overl then s
  else dioEvent (setDioCh s i c { x with overl := false, armed := true, armHot := hot, held := true, rearmed := if cause = 1 then some s.grid.mono else none,
                                         retries := if cause = 1 then x.retries else 0 }) i c 4 [Config.payloadCode 5 cause]

/-- Switching at the edge: re-arms of the accepted frame first, then the present value; a switch at 170 °C latches again, whatever the value of a channel that has been re-armed (R350, R357). -/
def dioSwitch (s : State) (i c : Nat) (x : DioSample) : State :=
  match dioRec s i c with
  | none => s
  | some r =>
    if r.u 8 1 != 3 then s
    else
      let isl := s.island i
      let a := isl.applied.rdU (dioOut i + 0x20 + c) 1
      let old := (dioCh s i c).ack
      let s := setDioCh s i c { dioCh s i c with ack := a }
      let s := if a ≠ old ∧ isl.base = false then dioRearm s i c 0 (decide (1700 ≤ x.temp)) else s
      let ch := dioCh s i c
      let val := if isl.subst then dioSubst r ch.val else isl.applied.rdU (dioOut i + c) 1 != 0
      let on := val && !ch.overl && !bit isl.dio.trip (c / 8)
      let s := setDioCh s i c { ch with val := val, on := on, armed := false, armHot := false, held := false }
      if ch.armHot || ((on || ch.armed) && decide (1700 ≤ x.temp)) then dioLatch s i c else s

/-- GROUP_ACK changes of the accepted frame (R353, R357). -/
def groupAcks (s : State) (i : Nat) : State :=
  [0, 1, 2, 3].foldl (fun s g =>
    let isl := s.island i
    let a := isl.applied.rdU (dioOut i + 0x40 + g) 1
    let old := isl.dio.gack.get g 0
    let s := updDio s i fun d => { d with gack := d.gack.set g a }
    if a ≠ old ∧ isl.base = false ∧ bit isl.dio.trip g = true then
      groupEvent (updDio s i fun d => { d with trip := d.trip - 2 ^ g }) i g 4
    else s) s

/-- Events of one channel's sample. -/
def dioChanges (s : State) (i c : Nat) (b a : DioCh) : State :=
  let s := if b.open_ = a.open_ then s else dioEvent s i c (if a.open_ then 1 else 2)
  let s := if b.mism = a.mism then s else dioEvent s i c (if a.mism then 5 else 6) (leBytes (b2n (a.shortHi || b.shortHi)) 1)
  if a.hot && !b.hot then dioEvent s i c 7 else s

/-- The 4-byte entry of R355. -/
def dioEntry (s : State) (i c : Nat) : List Byte :=
  match dioRec s i c with
  | none => zeros 4
  | some r =>
    let x := dioCh s i c
    let isl := (s.island i).dio
    let low := bit isl.low (c / 8)
    let trip := bit isl.trip (c / 8)
    let grp := 64 * b2n (low || trip)
    match r.u 8 1 with
    | 0 => zeros 4
    | 3 => leBytes (b2n x.raw) 1 ++ leBytes (b2n !(x.overl || x.mism || x.open_ || low || trip)) 1 ++
        leBytes (maskOf [x.open_, x.overl, x.limit, x.hot, x.mism, x.shortHi] + grp) 1 ++ leBytes (b2n x.raw) 1
    | _ => leBytes (b2n (x.filt != bit (r.u 9 1) 1)) 1 ++ leBytes (b2n !(x.open_ || low)) 1 ++
        leBytes (b2n x.open_ + grp) 1 ++ leBytes (b2n x.raw) 1

def dioHeader (s : State) (i : Nat) (groupMa : List Nat) (temp : Int) : List Byte :=
  let d := (s.island i).dio
  leBytes s.tickNo 4 ++ ((List.range 4).flatMap fun g => leBytes (maskOf [bit d.low g, bit d.trip g]) 1) ++
    ((List.range 4).flatMap fun g => leBytes (min 255 (groupMa.getD g 0 / 20)) 1) ++ leBytes (unsigned 16 temp) 2 ++ [0, 0]

/-- An edge of a digital island: read-back and inputs latched, outputs switched, and its part of the input image. -/
def dioEdge (s : State) (i : Nat) (ch : List DioSample) (groupMa : List Nat) (temp : Int) (m : Mem) : State × Mem :=
  let s := (List.range 32).foldl (fun s c =>
    match dioRec s i c with
    | none => s
    | some r =>
      let x := ch.getD c {}
      let b := dioCh s i c
      let a := match r.u 8 1 with
        | 0 => b
        | 3 => outputSample r x (bit (s.island i).dio.trip (c / 8)) b
        | _ => inputSample r x b
      dioChanges (setDioCh s i c a) i c b a) s
  let m := m.writeN (dioIn i) (dioHeader s i groupMa temp)
  let m := (List.range 32).foldl (fun m c => m.writeN (dioIn i + 0x10 + 4 * c) (dioEntry s i c)) m
  let s := groupAcks s i
  ((List.range 32).foldl (fun s c => dioSwitch s i c (ch.getD c {})) s, m)

/-- DIO_OVERLOAD (R350): a switch that is on reaches 170 °C. -/
def execDioOverload (dio2 : Bool) (ch : Fin 32) (s : State) : Host.Outcome State Fault Refusal :=
  let i := dioNo dio2
  .next (if dioMode s i ch.val = 3 ∧ (dioCh s i ch.val).on = true then dioLatch s i ch.val else s)

/-- DIO_AUTO_RETRY (R350): RETRY_MS after the latch, at most 3 consecutive retries that re-trip. -/
def execDioAutoRetry (dio2 : Bool) (ch : Fin 32) (temp : Int) (s : State) : Host.Outcome State Fault Refusal :=
  let i := dioNo dio2
  let c := ch.val
  let x := dioCh s i c
  .next (match dioRec s i c with
    | none => s
    | some r =>
      if r.u 8 1 = 3 ∧ bit (r.u 9 1) 2 = true ∧ x.overl = true ∧ x.retries < 3 then
        dioRearm s i c 1 (decide (1700 ≤ temp))
      else s)

/-- DIO_GROUP_TRIP (R353): every output of the group off, latched. -/
def execDioGroupTrip (dio2 : Bool) (g : Fin 4) (s : State) : Host.Outcome State Fault Refusal :=
  let i := dioNo dio2
  .next (if bit (s.island i).dio.trip g.val then s
    else
      let s := updDio s i fun d => { d with trip := d.trip + 2 ^ g.val }
      let s := (List.range 8).foldl (fun s k => setDioCh s i (8 * g.val + k) { dioCh s i (8 * g.val + k) with on := false }) s
      groupEvent s i g.val 3)

/-- Digital channels after a configuration is applied (R122, R350, R353): a changed MODE starts the channel over; a changed
record re-arms its latch; a group with a changed record is re-armed. -/
def dioApply (old new : List CfgRec) (s : State) : State :=
  [0, 1].foldl (fun s i =>
    (List.range 32).foldl (fun s c =>
      let o := findRec old 0x0501 (i * 256 + c)
      let n := findRec new 0x0501 (i * 256 + c)
      if o.map (fun r => r.bytes) = n.map (fun r => r.bytes) then s
      else
        let s := dioRearm s i c 2
        let s := if (o.elim 0 fun r => r.u 8 1) = (n.elim 0 fun r => r.u 8 1) then s else setDioCh s i c { ack := (dioCh s i c).ack }
        if bit (s.island i).dio.trip (c / 8) then
          let s := (List.range 8).foldl (fun s k => setDioCh s i (c / 8 * 8 + k) { dioCh s i (c / 8 * 8 + k) with held := true }) s
          groupEvent (updDio s i fun d => { d with trip := d.trip - 2 ^ (c / 8) }) i (c / 8) 4
        else s) s) s

/-- VALUE bytes of the OUT image at the channels' substitutes (R120, R122). -/
def substDio (s : State) (l : LaneId) : State :=
  [0, 1].foldl (fun s i => (List.range 32).foldl (fun s c =>
    match dioRec s i c with
    | none => s
    | some r =>
      let a := dioOut i + c
      if r.u 8 1 != 3 || loopWrites s a 1 then s else s.wrImg l a 1 (b2n (dioSubst r (s.rdImg l a 1 != 0)))) s) s

end Sys2Proof.Machine
end

