-- ==== Sys2Proof/Machine/Analogue.lean ====
section
/-! DEFINITION. Analogue inputs and outputs AI-1, AI-2, AO-1 (14_analogue_and_feedback_io.md R360 to R369). -/

namespace Sys2Proof.Machine

/-- Effective bits of the profile (R49, R365). -/
def resBits : Nat → Nat
  | 50 => 16
  | 100 => 18
  | 125 => 18
  | _ => 20

def aiNo (ai2 : Bool) : Nat := if ai2 then 3 else 2
def aiIn (i : Nat) : Nat := aIN + 0x200 * (i - 1)
def aoIn : Nat := aIN + 0x600
def aoOut (c : Nat) : Nat := aOUT + 0x100 + 4 * c

def aiRec (s : State) (i c : Nat) : Option CfgRec := s.cfgRec 0x0601 (i * 256 + c)
def aoRec (s : State) (c : Nat) : Option CfgRec := s.cfgRec 0x0610 (0x400 + c)

def aiCh (s : State) (i c : Nat) : AiCh := (s.island i).ai.ch.get c {}
def setAiCh (s : State) (i c : Nat) (x : AiCh) : State :=
  s.updIsl i fun v => { v with ai := { v.ai with ch := v.ai.ch.set c x } }

def aoCh (s : State) (c : Nat) : AoCh := (s.island 4).ao.ch.get c {}
def setAoCh (s : State) (c : Nat) (x : AoCh) : State :=
  s.updIsl 4 fun v => { v with ao := { v.ao with ch := v.ao.ch.set c x } }

/-- Analogue events (R381): the codes marked there are never suppressed. -/
def anaEvent (s : State) (src c code : Nat) (pay : List Byte := []) : State :=
  let never := code = 1 ∨ (src ≤ 132 ∧ code = 3)
  raise s { src := src, code := code, data := dataObj24 s c, lane := s.mainLane, pay := pay, obj := if never then none else some c }

/-! Inputs -/

/-- NAMUR class of a current in nA (R363). -/
def neClass (na : Int) : Nat :=
  if na ≤ 3600000 then 3 else if na < 3800000 then 1 else if na ≤ 20500000 then 0 else if na < 21000000 then 2 else 4

/-- CLASS after a sample. -/
def aiClass (n : Nat) (k : Nat) (c : AiCh) : AiCh :=
  if !c.begun then { c with begun := true, cls := k, cand := k, run := 0 }
  else if k = c.cls then { c with run := 0 }
  else
    let run := if k = c.cand ∧ c.run ≠ 0 then c.run + 1 else 1
    if n ≤ run then { c with cls := k, run := 0 } else { c with cand := k, run := run }

/-- Supply diagnostics of a SUPPLIED channel (R364): COMPLIANCE by V_t at every sample, SUPPLY_SHORT while the supply is on. -/
def aiSupply (r : CfgRec) (x : AiSample) (c : AiCh) : AiCh :=
  let low := decide (x.txMv < (r.u 0x10 2 : Int))
  let n := if low then c.complRun + 1 else 0
  let c := { c with complRun := n, compl := if 2 ≤ n then true else if (r.u 0x10 2 : Int) + 500 ≤ x.txMv then false else c.compl }
  let k := if x.limit then c.shortRun + 1 else 0
  if c.off then c
  else if 2 ≤ k then { c with short := true, shortRun := 0, off := true }
  else { c with short := c.short && x.limit, shortRun := k }

def aiMeasured (x : AiSample) : Nat := (clampI 0 25000000 x.na).toNat

def aiQuality (s : State) (i ch : Nat) (r : CfgRec) (c : AiCh) : Bool :=
  decide (c.cls ≤ 2) && !c.compl && !(r.u 8 1 == 2 && (s.island i).ai.low) && !(s.island i).ai.cal.contains ch

/-- One AI channel at an edge: state, events, entry of R365. -/
def aiSample (s : State) (i ch : Nat) (r : CfgRec) (x : AiSample) : State × List Byte :=
  let b := aiCh s i ch
  let src := 129 + i
  let a := aiClass (r.u 9 1) (neClass x.na) b
  let a := if r.u 8 1 = 2 then aiSupply r x a else a
  let m := aiMeasured x
  let q := aiQuality s i ch r a
  let a := { a with good := if q then m else a.good }
  let s := setAiCh s i ch a
  let s := if a.cls = b.cls ∧ b.begun = true then s
    else if 3 ≤ a.cls then anaEvent s src ch 1 (leBytes a.cls 1)
    else if b.begun = true ∧ 3 ≤ b.cls then anaEvent s src ch 2
    else s
  let s := if a.compl = b.compl then s else anaEvent s src ch (if a.compl then 3 else 4)
  let s := if a.short && !b.short then anaEvent s src ch 5 else s
  let v := if q then m else if r.u 0x0A 1 = 1 then r.u 0x0C 4 else a.good
  let sup := r.u 8 1 == 2
  (s, leBytes v 4 ++ leBytes m 4 ++ leBytes (b2n q) 1 ++ leBytes a.cls 1 ++
    leBytes (maskOf [a.compl, a.short, sup && (s.island i).ai.low, (s.island i).ai.cal.contains ch, decide (25000000 < x.na)]) 1 ++
    [0] ++ leBytes (if sup then unsigned 16 (x.txMv / 10) else 0) 2 ++ [0, 0])

/-- Header of R365. -/
def anaHeader (s : State) (low cal : Bool) (bits : Nat) (temp : Int) : List Byte :=
  leBytes s.tickNo 4 ++ leBytes (maskOf [low, cal]) 1 ++ leBytes bits 1 ++ [0, 0] ++ leBytes (unsigned 16 temp) 2 ++ zeros 6

/-- An edge of AI-1 or AI-2. -/
def aiEdge (s : State) (i : Nat) (ch : List AiSample) (temp : Int) (m : Mem) : State × Mem :=
  let x := (s.island i).ai
  let m := m.writeN (aiIn i) (anaHeader s x.low (!x.cal.isEmpty) (resBits s.tickUs) temp)
  (List.range 16).foldl (fun (a : State × Mem) c =>
    match aiRec a.1 i c with
    | none => (a.1, a.2.writeN (aiIn i + 0x10 + 16 * c) (zeros 16))
    | some r =>
      if r.u 8 1 = 0 then (a.1, a.2.writeN (aiIn i + 0x10 + 16 * c) (zeros 16))
      else
        let (s, e) := aiSample a.1 i c r (ch.getD c {})
        (s, a.2.writeN (aiIn i + 0x10 + 16 * c) e)) (s, m)

/-- AI_SUPPLY_RETRY (R364): 100 ms after the supply was switched off. -/
def execAiSupplyRetry (ai2 : Bool) (ch : Fin 16) (s : State) : Host.Outcome State Fault Refusal :=
  let i := aiNo ai2
  .next (if (aiCh s i ch.val).off then setAiCh s i ch.val { aiCh s i ch.val with off := false, shortRun := 0 } else s)

/-! Outputs -/

/-- Range of a mode (R367). -/
def aoRange : Nat → Int × Int
  | 1 => (0, 21000)
  | 2 => (3600, 21000)
  | _ => (-10500000, 10500000)

/-- The value of an output at an edge: the field clamped, or the substitute; de-energised on a channel that failed calibration
(R107, R122, R367). -/
def aoApply1 (r : CfgRec) (cal subst : Bool) (field : Int) (c : AoCh) : AoCh :=
  let (lo, hi) := aoRange (r.u 8 1)
  if cal then { c with applied := 0, limited := false }
  else if subst then
    match r.u 0x0A 1 with
    | 0 => { c with applied := 0, limited := false }
    | 1 => { c with limited := false }
    | _ => { c with applied := r.i 0x0C 4, limited := false }
  else { c with applied := clampI lo hi field, limited := decide (field < lo ∨ hi < field) }

/-- Diagnostics of the value applied at the edge before (R368). -/
def aoDiag (r : CfgRec) (x : AoSample) (c : AoCh) : AoCh :=
  if r.u 8 1 = 3 then { c with overl := x.limit }
  else
    let n := if x.full = true ∧ x.achieved + 100 < c.applied then c.shortRun + 1 else 0
    let short := if 2 ≤ n then true else if (x.achieved - c.applied).natAbs ≤ 50 then false else c.short
    { c with shortRun := n, short := short,
             open_ := short && decide (1000 ≤ c.applied) && decide (x.achieved < 200) && bit (r.u 9 1) 0 }

/-- One AO channel at an edge: status entry of R369 for the value applied before, then the new value. -/
def aoSample (s : State) (ch : Nat) (r : CfgRec) (x : AoSample) : State × List Byte :=
  let b := aoCh s ch
  let a := aoDiag r x b
  let isl := s.island 4
  let cal := isl.ao.cal.contains ch
  let s := setAoCh s ch (aoApply1 r cal (isl.subst || isl.waits.contains ch) (isl.applied.rdI (aoOut ch) 4) a)
  let s := if a.short = b.short then s else anaEvent s 133 ch (if a.short then 1 else 2)
  let s := if a.open_ && !b.open_ then anaEvent s 133 ch 3 else s
  let s := if a.overl && !b.overl then anaEvent s 133 ch 4 else s
  (s, leBytes (unsigned 32 x.achieved) 4 ++ leBytes (unsigned 32 a.applied) 4 ++
    leBytes (b2n !(a.short || a.overl || isl.ao.low || cal)) 1 ++
    leBytes (maskOf [a.short, a.open_, a.overl, a.limited, isl.ao.low, cal]) 1 ++ leBytes (unsigned 16 x.loadV) 2 ++ zeros 4)

/-- An edge of AO-1. -/
def aoEdge (s : State) (ch : List AoSample) (temp : Int) (m : Mem) : State × Mem :=
  let x := (s.island 4).ao
  let m := m.writeN aoIn (anaHeader s x.low (!x.cal.isEmpty) 0 temp)
  (List.range 16).foldl (fun (a : State × Mem) c =>
    match aoRec a.1 c with
    | none => (a.1, a.2.writeN (aoIn + 0x10 + 16 * c) (zeros 16))
    | some r =>
      if r.u 8 1 = 0 then (a.1, a.2.writeN (aoIn + 0x10 + 16 * c) (zeros 16))
      else
        let (s, e) := aoSample a.1 c r (ch.getD c {})
        (s, a.2.writeN (aoIn + 0x10 + 16 * c) e)) (s, m)

/-- ANALOGUE_CALIBRATION_DONE (R107, R362): the channels of AI-1, AI-2 and AO-1 that fail it. -/
def execAnalogueCalibrationDone (fails : List (Fin 3 × Fin 16)) (s : State) : Host.Outcome State Fault Refusal :=
  let of (k : Nat) : List Nat := (fails.filter fun p => p.1.val == k).map fun p => p.2.val
  let s := s.updIsl 2 fun v => { v with ai := { v.ai with cal := of 0 } }
  let s := s.updIsl 3 fun v => { v with ai := { v.ai with cal := of 1 } }
  .next (s.updIsl 4 fun v => { v with ao := { v.ao with cal := of 2 } })

/-- Analogue channels after a configuration is applied (R122, R363, R366): a changed input starts over; an output keeps its
value under mode 1 only while its MODE stays. -/
def anaApply (old new : List CfgRec) (s : State) : State :=
  let s := [2, 3].foldl (fun s i => (List.range 16).foldl (fun s c =>
    let o := findRec old 0x0601 (i * 256 + c)
    let n := findRec new 0x0601 (i * 256 + c)
    if o.map (fun r => r.bytes) = n.map (fun r => r.bytes) then s else setAiCh s i c {}) s) s
  (List.range 16).foldl (fun s c =>
    let mode (r : Option CfgRec) : Nat := r.elim 0 fun r => r.u 8 1
    if mode (findRec old 0x0610 (0x400 + c)) = mode (findRec new 0x0610 (0x400 + c)) then s else setAoCh s c {}) s

/-- OUT fields of AO-1 at the channels' substitutes (R120, R122). -/
def substAo (s : State) (l : LaneId) : State :=
  (List.range 16).foldl (fun s c =>
    match aoRec s c with
    | none => s
    | some r =>
      if r.u 8 1 = 0 ∨ r.u 0x0A 1 = 1 ∨ loopWrites s (aoOut c) 4 = true then s
      else s.wrImg l (aoOut c) 4 (if r.u 0x0A 1 = 0 then 0 else r.u 0x0C 4)) s

/-! Field supplies (R353, R364, R368, R490) -/

/-- SUPPLY_LOW of a supply set or cleared. -/
def setSupply (s : State) (f : FieldSupply) (low : Bool) : State :=
  match f with
  | .dioGroup dio2 g =>
    let i := dioNo dio2
    if bit (s.island i).dio.low g.val = low then s
    else groupEvent (updDio s i fun d => { d with low := if low then d.low + 2 ^ g.val else d.low - 2 ^ g.val }) i g.val (if low then 1 else 2)
  | .ai1 => s.updIsl 2 fun v => { v with ai := { v.ai with low := low } }
  | .ai2 => s.updIsl 3 fun v => { v with ai := { v.ai with low := low } }
  | .ao1 => s.updIsl 4 fun v => { v with ao := { v.ao with low := low } }
  | .mx1 => s.updIsl mxIsl fun v => { v with mx := { v.mx with low := low } }
  | .sk1 => s

end Sys2Proof.Machine
end

