-- ==== Sys2Proof/Machine/BlockIsa.lean ====
section
/-! DEFINITION. The block engine's instruction set (07_block_programs_and_instances.md R186 to R192): formats, cycles and
arithmetic. -/

namespace Sys2Proof.Machine

def tyCode : Ty → Nat
  | .bool => 0
  | .int => 1
  | .dint => 2
  | .lint => 3
  | .real => 4
  | .lreal => 5
  | .time => 6

def tyOf : Nat → Option Ty
  | 0 => some .bool
  | 1 => some .int
  | 2 => some .dint
  | 3 => some .lint
  | 4 => some .real
  | 5 => some .lreal
  | 6 => some .time
  | _ => none

/-- Size in memory, in bytes (R186). -/
def tySize : Ty → Nat
  | .bool => 1
  | .int => 2
  | .dint => 4
  | .lint => 8
  | .real => 4
  | .lreal => 8
  | .time => 8

def tyWidth (t : Ty) : Nat := 8 * tySize t

/-- INT, DINT, LINT, TIME: the integer types of R190. -/
def isInt : Ty → Bool
  | .int => true
  | .dint => true
  | .lint => true
  | .time => true
  | _ => false

def isFloat : Ty → Bool
  | .real => true
  | .lreal => true
  | _ => false

def fmtOf : Ty → Fmt
  | .lreal => f64
  | _ => f32

/-- The bits of a register that a value of the type occupies. -/
def tyBits (t : Ty) (v : DWord) : Nat := v.toNat % 2 ^ tyWidth t

/-- The integer value; BOOL as its truth value 0 or 1, judged by the type's 8 bits (log entry 18). -/
def tyInt (t : Ty) (v : DWord) : Int :=
  match t with
  | .bool => if tyBits .bool v = 0 then 0 else 1
  | _ => signed (tyWidth t) v.toNat

def tyMin (t : Ty) : Int := if isInt t then -(2 ^ (tyWidth t - 1) : Nat) else 0
def tyMax (t : Ty) : Int := if isInt t then (2 ^ (tyWidth t - 1) : Nat) - 1 else 1

/-- An integer held sign-extended to 64 bits, wrapped to its type (R191). -/
def intReg (t : Ty) (i : Int) : DWord := BitVec.ofInt 64 (signed (tyWidth t) (unsigned (tyWidth t) i))

/-- A bit pattern in a register: integers sign-extended, the others with upper bits 0 (log entry 19). -/
def patReg (t : Ty) (n : Nat) : DWord :=
  if isInt t then BitVec.ofInt 64 (signed (tyWidth t) n) else BitVec.ofNat 64 (n % 2 ^ tyWidth t)

def boolReg (b : Bool) : DWord := if b then 1 else 0

/-- The operations that compute one register from others (formats RR and RI). -/
inductive AluOp where
  | mov | movi | add | sub | adds | subs | mul | div | mod | neg | abs | min | max | sqrt
  | cvt | and | or | xor | not | shl | shr | ceq | cne | clt | cle | sel
  deriving DecidableEq, Repr

def aluOf : Nat → Option AluOp
  | 0x01 => some .mov
  | 0x02 => some .movi
  | 0x10 => some .add
  | 0x11 => some .sub
  | 0x12 => some .adds
  | 0x13 => some .subs
  | 0x14 => some .mul
  | 0x15 => some .div
  | 0x16 => some .mod
  | 0x17 => some .neg
  | 0x18 => some .abs
  | 0x19 => some .min
  | 0x1A => some .max
  | 0x1B => some .sqrt
  | 0x1C => some .cvt
  | 0x20 => some .and
  | 0x21 => some .or
  | 0x22 => some .xor
  | 0x23 => some .not
  | 0x24 => some .shl
  | 0x25 => some .shr
  | 0x28 => some .ceq
  | 0x29 => some .cne
  | 0x2A => some .clt
  | 0x2B => some .cle
  | 0x2C => some .sel
  | _ => none

/-- Operations of format RI. -/
def isRi : AluOp → Bool
  | .movi => true
  | .shl => true
  | .shr => true
  | _ => false

/-- The types that the row of an operation permits (R190). -/
def tyOk : AluOp → Ty → Bool
  | .mov, _ => true
  | .sel, _ => true
  | .cvt, _ => true
  | .min, _ => true
  | .max, _ => true
  | .ceq, _ => true
  | .cne, _ => true
  | .clt, _ => true
  | .cle, _ => true
  | .movi, t => !isFloat t
  | .and, t => !isFloat t
  | .or, t => !isFloat t
  | .xor, t => !isFloat t
  | .not, t => !isFloat t
  | .adds, t => isInt t
  | .subs, t => isInt t
  | .mod, t => isInt t
  | .shl, t => isInt t
  | .shr, t => isInt t
  | .sqrt, t => isFloat t
  | _, t => t != .bool

/-- Cycles at OP4 (R190). -/
def aluCycles (o : AluOp) (t : Ty) : Nat :=
  let long := t == .lint || t == .time
  match o with
  | .mul => if t == .real then 2 else if t == .lreal || long then 3 else 2
  | .div => if t == .real then 8 else if t == .lreal then 14 else if long then 20 else 12
  | .mod => if long then 20 else 12
  | .sqrt => if t == .lreal then 18 else 10
  | .cvt => 2
  | .add => if t == .real then 2 else if t == .lreal then 3 else 1
  | .sub => if t == .real then 2 else if t == .lreal then 3 else 1
  | .neg => if t == .real then 2 else if t == .lreal then 3 else 1
  | .abs => if t == .real then 2 else if t == .lreal then 3 else 1
  | .min => if t == .real then 2 else if t == .lreal then 3 else 1
  | .max => if t == .real then 2 else if t == .lreal then 3 else 1
  | .ceq => if isFloat t then 2 else 1
  | .cne => if isFloat t then 2 else 1
  | .clt => if isFloat t then 2 else 1
  | .cle => if isFloat t then 2 else 1
  | _ => 1

/-- What an operation gives: a register value and whether it sets NUMF, or the fault DIV0 (R191, R192). -/
inductive AluRes where
  | val (v : DWord) (numf : Bool)
  | div0
  deriving DecidableEq, Repr

def AluRes.ok (v : DWord) : AluRes := .val v false

def aluAdd (t : Ty) (a b : DWord) : DWord :=
  if isFloat t then patReg t ((fmtOf t).add (tyBits t a) (tyBits t b)) else intReg t (tyInt t a + tyInt t b)

def aluSub (t : Ty) (a b : DWord) : DWord :=
  if isFloat t then patReg t ((fmtOf t).sub (tyBits t a) (tyBits t b)) else intReg t (tyInt t a - tyInt t b)

/-- ADDS and SUBS saturate at the type's limits. -/
def aluSat (t : Ty) (i : Int) : DWord := intReg t (clampI (tyMin t) (tyMax t) i)

def aluMul (t : Ty) (a b : DWord) : DWord :=
  if isFloat t then patReg t ((fmtOf t).mul (tyBits t a) (tyBits t b)) else intReg t (tyInt t a * tyInt t b)

/-- DIV: integers truncate toward 0; a quotient beyond the type is stated nowhere and is free (log entry 17). -/
def aluDiv (t : Ty) (a b : DWord) : AluRes :=
  if isFloat t then .ok (patReg t ((fmtOf t).div (tyBits t a) (tyBits t b)))
  else if tyInt t b = 0 then .div0
  else
    let q := (tyInt t a).tdiv (tyInt t b)
    .ok (if tyMax t < q then patReg t (Config.divOverflow (tyCode t)).toNat else intReg t q)

/-- MOD: the remainder, with the sign of S1. -/
def aluMod (t : Ty) (a b : DWord) : AluRes :=
  if tyInt t b = 0 then .div0 else .ok (intReg t ((tyInt t a).tmod (tyInt t b)))

def aluNeg (t : Ty) (a : DWord) : DWord :=
  if isFloat t then patReg t ((fmtOf t).neg (tyBits t a)) else intReg t (-(tyInt t a))

def aluAbs (t : Ty) (a : DWord) : DWord :=
  if isFloat t then patReg t ((fmtOf t).abs (tyBits t a)) else aluSat t (tyInt t a).natAbs

/-- BOOL results are the truth value. -/
def patInt (t : Ty) (i : Int) : DWord := if t = .bool then boolReg (decide (i ≠ 0)) else intReg t i

def aluMin (t : Ty) (a b : DWord) : DWord :=
  if isFloat t then patReg t ((fmtOf t).min (tyBits t a) (tyBits t b)) else patInt t (min (tyInt t a) (tyInt t b))

def aluMax (t : Ty) (a b : DWord) : DWord :=
  if isFloat t then patReg t ((fmtOf t).max (tyBits t a) (tyBits t b)) else patInt t (max (tyInt t a) (tyInt t b))

/-- Logical for BOOL, bitwise for integers. -/
def aluLogic (t : Ty) (fb : Bool → Bool → Bool) (fw : DWord → DWord → DWord) (a b : DWord) : DWord :=
  if t = .bool then boolReg (fb (decide (tyInt t a ≠ 0)) (decide (tyInt t b ≠ 0))) else patReg t (fw a b).toNat

/-- CVT: D of type `t` from S1 of type `u` (R190, R191). -/
def aluCvt (t u : Ty) (a : DWord) : AluRes :=
  if isFloat t then
    .ok (patReg t (if isFloat u then (if t = u then tyBits u a else (fmtOf t).conv (fmtOf u) (tyBits u a))
      else (fmtOf t).ofInt (tyInt u a)))
  else if t = .bool then
    .ok (boolReg (if isFloat u then !(Fl.eq ((fmtOf u).dec (tyBits u a)) (.fin false 0 0)) else decide (tyInt u a ≠ 0)))
  else if isFloat u then
    let (i, f) := (fmtOf u).toRange (tyBits u a) (tyMin t) (tyMax t)
    .val (intReg t i) f
  else
    let i := tyInt u a
    .val (aluSat t i) (decide (i < tyMin t ∨ tyMax t < i))

/-- Shift left: a count above the width minus 1 gives 0. -/
def aluShl (t : Ty) (a : DWord) (n : Nat) : DWord :=
  if tyWidth t ≤ n then 0 else intReg t (tyInt t a * (2 ^ n : Nat))

/-- Arithmetic shift right: a count above the width minus 1 gives the sign. -/
def aluShr (t : Ty) (a : DWord) (n : Nat) : DWord := intReg t (tyInt t a / ((2 ^ min n 63 : Nat) : Int))

def aluEq (t : Ty) (a b : DWord) : Bool :=
  if isFloat t then Fl.eq ((fmtOf t).dec (tyBits t a)) ((fmtOf t).dec (tyBits t b)) else decide (tyInt t a = tyInt t b)

def aluLt (t : Ty) (a b : DWord) : Bool :=
  if isFloat t then Fl.lt ((fmtOf t).dec (tyBits t a)) ((fmtOf t).dec (tyBits t b)) else decide (tyInt t a < tyInt t b)

/-- The condition of SEL, judged as a value of the type (R191). -/
def condTrue (t : Ty) (d : DWord) : Bool :=
  if isFloat t then !(Fl.eq ((fmtOf t).dec (tyBits t d)) (.fin false 0 0)) else decide (tyBits t d ≠ 0)

/-- One RR or RI operation: D's old value, S1, S2, the S2 field (CVT's source type) and IMM11. -/
def alu (o : AluOp) (t : Ty) (d s1 s2 : DWord) (s2f : Nat) (imm : BitVec 11) : AluRes :=
  match o with
  | .mov => .ok s1
  | .movi => .ok (imm.signExtend 64)
  | .add => .ok (aluAdd t s1 s2)
  | .sub => .ok (aluSub t s1 s2)
  | .adds => .ok (aluSat t (tyInt t s1 + tyInt t s2))
  | .subs => .ok (aluSat t (tyInt t s1 - tyInt t s2))
  | .mul => .ok (aluMul t s1 s2)
  | .div => aluDiv t s1 s2
  | .mod => aluMod t s1 s2
  | .neg => .ok (aluNeg t s1)
  | .abs => .ok (aluAbs t s1)
  | .min => .ok (aluMin t s1 s2)
  | .max => .ok (aluMax t s1 s2)
  | .sqrt => .ok (patReg t ((fmtOf t).sqrt (tyBits t s1)))
  | .cvt => match tyOf s2f with
    | some u => aluCvt t u s1
    | none => .ok 0
  | .and => .ok (aluLogic t (fun x y => x && y) (fun x y => x &&& y) s1 s2)
  | .or => .ok (aluLogic t (fun x y => x || y) (fun x y => x ||| y) s1 s2)
  | .xor => .ok (aluLogic t (fun x y => x != y) (fun x y => x ^^^ y) s1 s2)
  | .not => .ok (aluLogic t (fun x _ => !x) (fun x _ => ~~~x) s1 s1)
  | .shl => .ok (aluShl t s1 (imm.toNat % 64))
  | .shr => .ok (aluShr t s1 (imm.toNat % 64))
  | .ceq => .ok (boolReg (aluEq t s1 s2))
  | .cne => .ok (boolReg (!aluEq t s1 s2))
  | .clt => .ok (boolReg (aluLt t s1 s2))
  | .cle => .ok (boolReg (aluLt t s1 s2 || aluEq t s1 s2))
  | .sel => .ok (if condTrue t d then s1 else s2)

/-- A decoded slot (R189, R190). -/
inductive Slot where
  | nop
  | alu (o : AluOp) (t : Ty) (d s1 : VReg) (s2 : Fin 32) (imm : BitVec 11)
  | ld (t : Ty) (v : VReg) (a : AReg) (disp : BitVec 13)
  | st (t : Ty) (v : VReg) (a : AReg) (disp : BitVec 13)
  | lda (d a : AReg) (disp : BitVec 13)
  | idxc (scale : Fin 4) (d a : AReg) (v : VReg) (boundM1 : BitVec 10)
  | itpl (a : AReg) (count : BitVec 13)
  | bra (off : BitVec 16)
  | brz (v : VReg) (off : BitVec 16)
  | brnz (v : VReg) (off : BitVec 16)
  | loop (v : VReg) (bound : BitVec 16)
  | endl
  | callb (a : AReg) (typeNo : BitVec 12)
  | retb
  | endE
  deriving DecidableEq, Repr

/-- Decodes one slot word; none where a reserved bit is set, the opcode is not in the table, a type is not permitted or a
field lies outside its range (R189 to R191). -/
def decodeSlot (w : Word) : Option Slot :=
  let n := w.toNat
  let op := fld n 24 8
  let tyn := fld n 21 3
  let d : VReg := Fin.ofNat 32 (fld n 16 5)
  let s1 : VReg := Fin.ofNat 32 (fld n 11 5)
  let s2 : Fin 32 := Fin.ofNat 32 (fld n 6 5)
  let aB : AReg := Fin.ofNat 8 (fld n 13 3)
  let disp : BitVec 13 := BitVec.ofNat 13 n
  let off : BitVec 16 := BitVec.ofNat 16 n
  let offOk := decide (1 ≤ off.toNat ∧ off.toNat ≤ 32767) && tyn == 0
  match aluOf op with
  | some o =>
    match tyOf tyn with
    | none => none
    | some t =>
      if !tyOk o t then none
      else if isRi o then some (.alu o t d s1 0 (BitVec.ofNat 11 n))
      else if fld n 0 6 ≠ 0 then none
      else if o = .cvt ∧ 6 < s2.val then none
      else some (.alu o t d s1 s2 0)
  | none =>
    match op with
    | 0x00 => if fld n 0 24 = 0 then some .nop else none
    | 0x04 => (tyOf tyn).bind fun t => if disp.toNat % tySize t = 0 then some (.ld t d aB disp) else none
    | 0x05 => (tyOf tyn).bind fun t => if disp.toNat % tySize t = 0 then some (.st t d aB disp) else none
    | 0x06 => if tyn = 0 ∧ fld n 19 2 = 0 ∧ disp.toNat % 4 = 0 then some (.lda (Fin.ofNat 8 (fld n 16 3)) aB disp) else none
    | 0x08 => if tyn ≤ 3 then
        some (.idxc (Fin.ofNat 4 tyn) (Fin.ofNat 8 (fld n 18 3)) (Fin.ofNat 8 (fld n 15 3)) (Fin.ofNat 32 (fld n 10 5)) (BitVec.ofNat 10 n))
      else none
    | 0x09 => if tyn = 0 ∧ d.val = 0 then some (.itpl aB disp) else none
    | 0x30 => if offOk then some (.bra off) else none
    | 0x31 => if offOk then some (.brz d off) else none
    | 0x32 => if offOk then some (.brnz d off) else none
    | 0x34 => if tyn = 0 ∧ off.toNat ≠ 0 then some (.loop d off) else none
    | 0x35 => if fld n 0 24 = 0 then some .endl else none
    | 0x38 => if fld n 0 9 = 0 then some (.callb (Fin.ofNat 8 tyn) (BitVec.ofNat 12 (fld n 9 12))) else none
    | 0x39 => if fld n 0 24 = 0 then some .retb else none
    | 0x3A => if fld n 0 24 = 0 then some .endE else none
    | _ => none

/-- The register that a slot writes among V0 to V31. -/
def Slot.writes : Slot → Option VReg
  | .alu _ _ d _ _ _ => some d
  | .ld _ v _ _ => some v
  | _ => none

/-- Slot B holds NOP, or an RR or RI operation of one cycle (R188). -/
def slotBOk : Slot → Bool
  | .nop => true
  | .alu o t _ _ _ _ => aluCycles o t == 1
  | _ => false

/-- A bundle decodes: slot A, slot B, and not both writing one register (R188). -/
def bundleOk (a b : Slot) : Bool := slotBOk b && (b.writes.isNone || a.writes != b.writes)

/-- The command that a decoded slot A spells on a lane, slot B's word beside it. -/
def Slot.instr (l : LaneId) (b : Word) : Slot → Instr
  | .nop => .beNop l b
  | .alu .mov t d s1 _ _ => .beMov l t d s1 b
  | .alu .movi t d _ _ imm => .beMovi l t d imm b
  | .alu .add t d s1 s2 _ => .beAdd l t d s1 s2 b
  | .alu .sub t d s1 s2 _ => .beSub l t d s1 s2 b
  | .alu .adds t d s1 s2 _ => .beAdds l t d s1 s2 b
  | .alu .subs t d s1 s2 _ => .beSubs l t d s1 s2 b
  | .alu .mul t d s1 s2 _ => .beMul l t d s1 s2 b
  | .alu .div t d s1 s2 _ => .beDiv l t d s1 s2 b
  | .alu .mod t d s1 s2 _ => .beMod l t d s1 s2 b
  | .alu .neg t d s1 _ _ => .beNeg l t d s1 b
  | .alu .abs t d s1 _ _ => .beAbs l t d s1 b
  | .alu .min t d s1 s2 _ => .beMin l t d s1 s2 b
  | .alu .max t d s1 s2 _ => .beMax l t d s1 s2 b
  | .alu .sqrt t d s1 _ _ => .beSqrt l t d s1 b
  | .alu .cvt t d s1 s2 _ => .beCvt l t d s1 ((tyOf s2.val).getD .bool) b
  | .alu .and t d s1 s2 _ => .beAnd l t d s1 s2 b
  | .alu .or t d s1 s2 _ => .beOr l t d s1 s2 b
  | .alu .xor t d s1 s2 _ => .beXor l t d s1 s2 b
  | .alu .not t d s1 _ _ => .beNot l t d s1 b
  | .alu .shl t d s1 _ imm => .beShl l t d s1 imm b
  | .alu .shr t d s1 _ imm => .beShr l t d s1 imm b
  | .alu .ceq t d s1 s2 _ => .beCeq l t d s1 s2 b
  | .alu .cne t d s1 s2 _ => .beCne l t d s1 s2 b
  | .alu .clt t d s1 s2 _ => .beClt l t d s1 s2 b
  | .alu .cle t d s1 s2 _ => .beCle l t d s1 s2 b
  | .alu .sel t d s1 s2 _ => .beSel l t d s1 s2 b
  | .ld t v a disp => .beLd l t v a disp false b
  | .st t v a disp => .beSt l t v a disp b
  | .lda d a disp => .beLda l d a disp b
  | .idxc sc d a v bm1 => .beIdxc l sc d a v bm1 b
  | .itpl a count => .beItpl l a count b
  | .bra off => .beBra l off b
  | .brz v off => .beBrz l v off b
  | .brnz v off => .beBrnz l v off b
  | .loop v bound => .beLoop l v bound b
  | .endl => .beEndl l b
  | .callb a typeNo => .beCallb l a typeNo b
  | .retb => .beRetb l b
  | .endE => .beEnd l b

end Sys2Proof.Machine
end

