-- ==== Sys2Proof/Machine/ProgDefs.lean ====
section
/-! DEFINITION. Entries of a program image: block types (R195), tasks (R152), symbols (R201); the profile table (R49). -/

namespace Sys2Proof.Machine

/-- Block-engine budget in µs, mirror budget in bytes and floor of a tick option (R49). -/
def profileRow : Nat → Nat × Nat × Nat
  | 50 => (36, 24 * 1024, 3)
  | 100 => (82, 48 * 1024, 2)
  | 125 => (104, 60 * 1024, 2)
  | 200 => (172, 96 * 1024, 1)
  | 250 => (215, 128 * 1024, 1)
  | 500 => (445, 256 * 1024, 1)
  | 1000 => (900, 512 * 1024, 1)
  | _ => (0, 0, 1)

def beBudgetUs (tickUs : Nat) : Nat := (profileRow tickUs).1

/-- Block-engine clock of an operating point, in MHz (R438). -/
def opMHz (op : Nat) : Nat := 200 * op

/-- A task entry (R152). -/
structure TaskDef where
  /-- image offset of the entry -/
  off : Nat
  level : Nat
  tflags : Nat
  period : Nat
  phase : Nat
  action : Nat
  tolK : Nat
  tolW : Nat
  parts : Nat
  shotUs : Nat
  main : Nat
  init : Nat
  take : Nat
  rights : Nat
  /-- INST ranges in use, as (offset, length) -/
  ranges : List (Nat × Nat)
  deriving DecidableEq, Repr

def TaskDef.readsMx (t : TaskDef) : Bool := bit t.tflags 0

def TaskDef.shot (t : TaskDef) : Nat := t.shotUs * 800

/-- The eight INST range fields of an entry. -/
def rangeFields (e : List Byte) : List (Nat × Nat) :=
  (List.range 8).map fun i => (rdU e (0x20 + 8 * i) 4, rdU e (0x24 + 8 * i) 4)

def taskAt (e : List Byte) (off : Nat) : TaskDef :=
  { off := off, level := rdU e 0 1, tflags := rdU e 1 1, period := rdU e 2 2, phase := rdU e 4 2, action := rdU e 6 1,
    tolK := rdU e 7 1, tolW := rdU e 8 2, parts := rdU e 0x0A 1, shotUs := rdU e 0x0C 2, main := rdU e 0x10 4,
    init := rdU e 0x14 4, take := rdU e 0x18 4, rights := rdU e 0x1C 4,
    ranges := (rangeFields e).filter fun r => r.2 != 0 }

def taskDefs (img : List Byte) : List TaskDef :=
  (List.range (secLen img 4 / 96)).map fun i => taskAt (((section_ img 4).drop (96 * i)).take 96) (secOff img 4 + 96 * i)

/-- A block type entry (R195). -/
structure TypeDef where
  off : Nat
  no : Nat
  ver : Nat
  code : Nat
  len : Nat
  ctab : Nat
  wcet : Nat
  instLen : Nat
  wWords : Nat
  depth : Nat
  deriving DecidableEq, Repr

def typeAt (e : List Byte) (off : Nat) : TypeDef :=
  { off := off, no := rdU e 0 2, ver := rdU e 2 1, code := rdU e 4 4, len := rdU e 8 4, ctab := rdU e 0x0C 4,
    wcet := rdU e 0x10 4, instLen := rdU e 0x14 2, wWords := rdU e 0x16 1, depth := rdU e 0x17 1 }

def typeDefs (img : List Byte) : List TypeDef :=
  (List.range (secLen img 0 / 32)).map fun i => typeAt (((section_ img 0).drop (32 * i)).take 32) (secOff img 0 + 32 * i)

def findType (ts : List TypeDef) (n : Nat) : Option TypeDef := ts.find? fun t => t.no == n

/-- A symbol entry (R201). -/
structure SymDef where
  off : Nat
  no : Nat
  addr : Nat
  ty : Nat
  sflags : Nat
  level : Nat
  min : List Byte
  max : List Byte
  deriving DecidableEq, Repr

def symAt (e : List Byte) (off : Nat) : SymDef :=
  { off := off, no := rdU e 0 4, addr := rdU e 4 4, ty := rdU e 8 1, sflags := rdU e 9 1, level := rdU e 0x0A 1,
    min := (e.drop 0x10).take 8, max := (e.drop 0x18).take 8 }

def symDefs (img : List Byte) : List SymDef :=
  (List.range (secLen img 5 / 32)).map fun i => symAt (((section_ img 5).drop (32 * i)).take 32) (secOff img 5 + 32 * i)

/-- Slot words of the bundle at a code offset. -/
def codeWords (img : List Byte) (pc : Nat) : Word × Word :=
  let b := (img.drop (secOff img 1 + pc)).take 8
  (BitVec.ofNat 32 (leNat (b.take 4)), BitVec.ofNat 32 (leNat (b.drop 4)))

/-- The accepted program's task of a level. -/
def State.taskDef (s : State) (n : Nat) : Option TaskDef :=
  s.st.prog.bind fun img => (taskDefs img).find? fun t => t.level == n

def State.tasks (s : State) : List TaskDef := (s.st.prog.map taskDefs).getD []

/-- Bytes of the mandatory mirror set (R275). -/
def mandatoryMirror (rs : List CfgRec) : Nat :=
  let n (t : Nat) : Nat := (recsOf rs t).length
  let periodic := ((recsOf rs 0x0410).filter fun r => r.u 0x0D 1 == 0 && decide (r.inst / 64 < 8)).length
  let ports := ((recsOf rs 0x0401).filter fun r => decide (r.inst < 8)).length
  32 * n 0x0801 + 256 * n 0x0901 + 8 * n 0x0310 + 16 * ports + 8 * periodic + 64

end Sys2Proof.Machine
end

