-- ==== Sys2Proof/Machine/Recorder.lean ====
section
/-! DEFINITION. Event recorder and retained data (18_recorder_and_retained_data.md). -/

namespace Sys2Proof.Machine

def ringSlots : Nat := 12582912

/-- The oldest valid sequence (R460). -/
def oldestSeq (v : Recorder) : Nat := max v.clearBase (v.next + 1 - min (v.next + 1) ringSlots)

/-- The 64 bytes of a slot (R458): VALID, the fields, the CRC over bytes 0x01 to 0x3D. -/
def slotBytes (r : SlotRec) : List Byte :=
  let body := leBytes r.src 1 ++ leBytes r.code 2 ++ leBytes r.sev 1 ++ leBytes r.origin 1 ++ leBytes r.seq 6 ++
    leBytes r.optime 5 ++ leBytes r.pcycle 3 ++ padTo 36 r.payload ++ leBytes (min r.suppressed 65535) 2 ++ zeros 4
  [0xA5#8] ++ body ++ leBytes (crc16 body) 2

/-- The slot of a sequence as a copy finds it; a slot that holds no record reads as zeros (log entry 15). -/
def slotOf (v : Recorder) (seq : Nat) : List Byte :=
  match v.ring.get? (seq % ringSlots) with
  | some r => slotBytes r
  | none => zeros 64

/-- Writes a record: NEXT advances first, then the slot (R459, R460, R461). -/
def writeSlot (v : Recorder) (r : RawRec) (suppressed : Nat) : Recorder :=
  let st := r.stamps.getD (v.optime, v.pcycle)
  { v with next := v.next + 1,
           ring := v.ring.set (v.next % ringSlots)
             { src := r.src, code := r.code, sev := r.sev, origin := r.origin, seq := v.next, optime := st.1 % 2 ^ 40,
               pcycle := st.2 % 2 ^ 24, payload := r.payload, suppressed := min suppressed 65535 } }

/-- The record of a sequence, when its slot still holds it. -/
def recordAt (v : Recorder) (seq : Nat) : Option SlotRec :=
  (v.ring.get? (seq % ringSlots)).bind fun r => if r.seq = seq then some r else none

/-- A carried-forward copy of a stored record (R423): its own SOURCE, CODE, SEVERITY, stamps and payload. -/
def carriedCopy (r : SlotRec) : RawRec :=
  { src := r.src, code := r.code, sev := r.sev, origin := if bit r.origin 3 then r.origin else r.origin + 8,
    payload := r.payload, bypass := true, stamps := some (r.optime, r.pcycle) }

def sealCodes : List Nat := [0x0A10, 0x0A11, 0x0A12, 0x0A13]

/-- Copies one seal record forward and makes the copy the newest of its kind. -/
def carrySeal (v : Recorder) (code : Nat) : Recorder :=
  match (v.seals.get? code).bind (recordAt v) with
  | none => v
  | some r => let n := v.next
    let v := writeSlot v (carriedCopy r) 0
    { v with seals := v.seals.set code n }

/-- Before the write position reaches the newest seal of a kind, its copy is written (R423). -/
def carryDue (v : Recorder) : Recorder :=
  sealCodes.foldl (fun v c =>
    match v.seals.get? c with
    | some q => if q + ringSlots ≤ v.next + 8 then carrySeal v c else v
    | none => v) v

/-- A record taken into the ring: seals are carried first; a seal or an anchor becomes the newest of its kind. -/
def acceptRec (v : Recorder) (r : RawRec) (suppressed : Nat) : Recorder :=
  let v := carryDue v
  let n := v.next
  let v := writeSlot v r suppressed
  let v := if r.src = 208 ∧ sealCodes.contains r.code then { v with seals := v.seals.set r.code n } else v
  if r.src = 231 ∧ r.code = 1 then { v with anchor := some n } else v

/-- One record judged by its bucket, as of its arrival, and written (R464, R465); staged records pass no bucket (R462). -/
def arrive (s : State) (r : RawRec) : State :=
  if r.staged then s.updRec fun v => acceptRec v r r.withheld
  else
    let at_ := r.stamps.elim s.svc.rcd.optime fun x => x.1
    let (ok, n, t) := bucketJudge s.svc.rcd.buckets (bucketSetting s r.src r.code) at_ r
    s.updRec fun v =>
      let v := { v with buckets := t }
      if ok then acceptRec v r (r.withheld + n) else v

/-- Staged records of two lanes in some order of arrival, each lane's in its own order (R462): up to `n` of them, and what is left. -/
def interleave (pick : Nat → Bool) : Nat → List RawRec → List RawRec → List RawRec × List RawRec × List RawRec
  | 0, a, b => ([], a, b)
  | n + 1, a, b =>
    match a, b with
    | [], [] => ([], [], [])
    | x :: a, [] => let (q, r) := interleave pick n a []; (x :: q, r)
    | [], y :: b => let (q, r) := interleave pick n [] b; (y :: q, r)
    | x :: a, y :: b =>
      if pick n then let (q, r) := interleave pick n a (y :: b); (x :: q, r)
      else let (q, r) := interleave pick n (x :: a) b; (y :: q, r)

/-- Lanes that no longer stage write their records back while the queue takes them (R35, R462, R463). The order between the lanes is
open: a free choice. -/
def writeBack (s : State) : State :=
  let out (l : LaneId) : List RawRec := if (s.lane l).staging.active then [] else (s.lane l).staging.recs
  if !s.svc.up || ((out .a).isEmpty && (out .b).isEmpty) then s
  else
    let (k, s) := s.takeFree
    let (q, a, b) := interleave (fun i => (Config.freeNat k).testBit i) (4096 - s.svc.rcd.queue.length) (out .a) (out .b)
    let rest (l : LaneId) (x : List RawRec) (s : State) : State :=
      s.updLane l fun v => if v.staging.active then v else { v with staging := { v.staging with recs := x } }
    (rest .b b (rest .a a s)).updRec fun v => { v with queue := v.queue ++ q }

/-- A lane that staged begins to write its records back, the loss record behind them (R35, R462, R479); the limits go on from the later
report of each combination. -/
def unstage (s : State) (l : LaneId) : State :=
  let g := (s.lane l).staging
  if !g.active then s
  else
    let s := s.updLane l fun v => { v with staging := { recs := g.recs } }
    let later (t : Tab Limit) (e : Nat × Limit) : Tab Limit := if (t.get? e.1).all fun m => decide (m.at_ ≤ e.2.at_) then t.set e.1 e.2 else t
    let s := s.updSt fun t => { t with limits := g.limits.foldl later t.limits }
    raise s { src := 229, code := 2, data := dataLaneTick s l, pay := leBytes g.discarded 4, lane := l }

/-- RECORD_ARRIVAL (R48, R460 to R465): the recorder takes the record that arrived first; a lane that staged because of a full queue
writes back (R463). -/
def execRecordArrival (s : State) : Host.Outcome State Fault Refusal :=
  .next (match s.svc.rcd.queue with
    | [] => s
    | r :: rest =>
      if s.svc.up then writeBack (bothLanes unstage (arrive (s.updRec fun v => { v with queue := rest }) r)) else s)

/-- The recorder completes the records it has already taken (R472). -/
def drainQueue : Nat → State → State
  | 0, s => s
  | n + 1, s =>
    match s.svc.rcd.queue with
    | [] => s
    | r :: rest => drainQueue n (arrive (s.updRec fun v => { v with queue := rest }) r)

/-- Writes a record at once, after those already taken: seals and the clear record (R421, R472). -/
def writeNow (s : State) (r : RawRec) : State :=
  let s := drainQueue s.svc.rcd.queue.length s
  arrive s r

/-- The payload of the newest seal of a kind (R420). -/
def sealPayload (s : State) (code : Nat) : Option (List Byte) :=
  ((s.svc.rcd.seals.get? code).bind (recordAt s.svc.rcd)).map fun r => r.payload

/-- SALT and V of the newest password seal; valid only as a pair with one SEAL_NO (R420). -/
def passwordSeal (s : State) : Option (List Byte × List Byte) :=
  match sealPayload s 0x0A12, sealPayload s 0x0A13 with
  | some a, some b =>
    if rdU a 32 4 = rdU b 16 4 then some (a.take 16, (a.drop 16).take 16 ++ b.take 16) else none
  | _, _ => none

/-- A staging lane's summary of its own refusals (R466). -/
def floodStaged (s : State) (l : LaneId) : State :=
  if !(s.lane l).staging.active then s
  else
    let x := floodOf (s.lane l).staging.buckets
    let s := s.updLane l fun v => { v with staging := { v.staging with buckets := x.2 } }
    x.1.foldl (fun s r => stageRecord s l { r with origin := laneNo l }) s

/-- FLOOD_WINDOW_END (R466): operating time stands at a whole multiple of 60 s. A staging lane sums up its own refusals, and where the
service domain is unavailable the main lane stages the recorder's summary (log entry 146). -/
def execFloodWindowEnd (s : State) : Host.Outcome State Fault Refusal :=
  .next (if s.svc.rcd.optime % 960 != 0 then s
  else
    let s := bothLanes floodStaged s
    let x := floodOf s.svc.rcd.buckets
    x.1.foldl (fun s r => offerRecord s s.mainLane r) (s.updRec fun v => { v with buckets := x.2 }))

/-- OPTIME_STEP (R461, R462, R468): the counter steps from the RTC crystal while a feed is present, `ns` after the latest edge; a staging
lane's shadow steps on its own TCXO. -/
def execOptimeStep (ns : Nat) (s : State) : Host.Outcome State Fault Refusal :=
  let s := bothLanes (fun s l => s.updLane l fun v =>
    if v.staging.active then { v with staging := { v.staging with optime := v.staging.optime + 1, stepAt := s.grid.now + ns } } else v) s
  .next (if s.a.feed || s.b.feed then s.updRec fun v => { v with optime := (v.optime + 1) % 2 ^ 48, stepAt := s.grid.now + ns } else s)

/-- Payload of a time anchor (R468); GM_IDENTITY and the servo offset are the lane's. -/
def anchorPayload (s : State) (l : LaneId) (gm : Nat) (offset : Int) : List Byte :=
  let g := (s.lane l).staging
  leBytes (if g.active then g.stepAt else s.svc.rcd.stepAt) 8 ++ leBytes gm 8 ++ leBytes (laneNo l) 1 ++ [2] ++ zeros 2 ++ leBytes (unsigned 32 offset) 4 ++
    leBytes s.tickNo 4 ++ zeros 8

def writeAnchor (s : State) (l : LaneId) (gm : Nat) (offset : Int) : State :=
  raise s { src := 231, code := 1, data := dataLaneTick s l, full := some (anchorPayload s l gm offset), lane := l,
            sev := some 0 }

/-! Retained banks -/

def bankOf (v : Recorder) (i : Nat) : Bank := if i = 0 then v.bank0 else v.bank1

def setBank (v : Recorder) (i : Nat) (b : Bank) : Recorder := if i = 0 then { v with bank0 := b } else { v with bank1 := b }

/-- The newest valid bank (R476): the later SEQ by signed difference; equal or 2³¹ apart, bank 0. -/
def newestBank (v : Recorder) : Option (Fin 2) :=
  match v.bank0.valid, v.bank1.valid with
  | true, true =>
    let d := diff32 v.bank1.seq v.bank0.seq
    some (if 0 < d then 1 else 0)
  | true, false => some 0
  | false, true => some 1
  | false, false => none

def banksAmbiguous (v : Recorder) : Bool :=
  v.bank0.valid && v.bank1.valid && (v.bank0.seq == v.bank1.seq || diff32 v.bank1.seq v.bank0.seq == -(2 ^ 31 : Int))

/-- The header of a bank (R473). MAGIC is 0 while the bank is not valid. -/
def bankHeader (b : Bank) : List Byte :=
  let h (magic : Nat) := leBytes magic 4 ++ leBytes 1 2 ++ leBytes b.bflags 2 ++ leBytes b.seq 4 ++ leBytes b.payload.length 4 ++
    leBytes (crc32c b.payload) 4 ++ leBytes b.layout 4 ++ leBytes b.optime 8 ++ leBytes b.pcycle 4 ++ leBytes b.tick 4 ++ zeros 20
  h (if b.valid then 0x4B4E4252 else 0) ++ leBytes (crc32c (h 0x4B4E4252)) 4

def bankBytes (b : Bank) : List Byte := bankHeader b ++ b.payload

/-- What a bank write captures: the retained ranges as committed by the last output cut-off of a lane (R475). -/
def captureBank (s : State) (l : LaneId) (bflags : Nat) : Bank :=
  let img := s.st.prog.getD []
  { valid := true, bflags := bflags, seq := 0, layout := retainLayoutField img, optime := s.svc.rcd.optime,
    pcycle := s.svc.rcd.pcycle, tick := (s.lane l).frozenTick.getD s.grid.tick % 2 ^ 32,
    payload := retainedBytes img (s.lane l).frozen }

/-- Event of a bank write done, or skipped or abandoned (R479). -/
def bankEvent (s : State) (l : LaneId) (code bank cause bflags seq : Nat) : State :=
  raise s { src := 230, code := code, data := dataLaneTick s l, lane := l,
            pay := leBytes bank 1 ++ leBytes cause 1 ++ leBytes bflags 2 ++ leBytes seq 4 }

/-- Target and SEQ of the next bank write (R474). -/
def bankTarget (v : Recorder) : Nat × Nat :=
  match newestBank v with
  | some 0 => (1, (v.bank0.seq + 1) % 2 ^ 32)
  | some _ => (0, (v.bank1.seq + 1) % 2 ^ 32)
  | none => (0, 1)

/-- Starts a bank write from a capture: MAGIC of the target becomes 0 (R474). A write in progress goes on: a
periodic one is then left out, any other waits for its end (log entry 23). While the service domain is unavailable the write is skipped, and a skipped
one at entry to STOPPED is kept (R478). -/
def startBank (s : State) (l : LaneId) (b : Bank) : State :=
  let (t, q) := bankTarget s.svc.rcd
  if s.st.prog.isNone then s
  else if !s.svc.up then
    let s := bankEvent s l 2 t 1 b.bflags 0
    if bit b.bflags 1 then s.updRec fun v => { v with skipped := some b } else s
  else if s.svc.rcd.writing.isSome then
    if b.bflags = 1 then s else s.updRec fun v => { v with waiting := some (b, l) }
  else s.updRec fun v => { setBank v t {} with writing := some ⟨t, { b with seq := q }, l⟩ }

/-- Abandons a bank write: its target keeps MAGIC = 0 (R478). Causes of R479: 2 power failure, 3 service domain. -/
def abandonBank (s : State) (cause : Nat) : State :=
  match s.svc.rcd.writing with
  | none => s
  | some w =>
    let next := s.svc.rcd.waiting
    let s := bankEvent (s.updRec fun v => { v with writing := none, waiting := none }) w.lane 2 w.bank cause w.cap.bflags 0
    match next with
    | none => s
    | some (b, l) => if s.svc.up then bankEvent s l 2 w.bank cause b.bflags 0 else startBank s l b

/-- A bank write completes (R474): MAGIC is written last, and the bank becomes the one offered to the next START. -/
def bankDone (s : State) : State :=
  match s.svc.rcd.writing with
  | none => s
  | some w =>
    let s := s.updRec fun v => { setBank v w.bank w.cap with writing := none, offered := some (if w.bank = 0 then 0 else 1) }
    let s := bankEvent s w.lane 1 w.bank 0 w.cap.bflags w.cap.seq
    match s.svc.rcd.waiting with
    | none => s
    | some (b, l) => startBank (s.updRec fun v => { v with waiting := none }) l b

/-- RETAIN_PERIOD_S in ns (R467). -/
def retainPeriod (s : State) : Nat := 1000000000 * (s.cfgRec 0x0D01 0).elim 10 fun r => r.u 0x0A 2

/-- RETAIN_PERIOD_DUE (R467, R474): a periodic bank while RUNNING, RETAIN_PERIOD_S after the one before. -/
def execRetainPeriodDue (s : State) : Host.Outcome State Fault Refusal :=
  .next (match s.activeLane with
    | some l =>
      if s.st.phase == .running && decide (s.svc.rcd.periodFrom + retainPeriod s ≤ s.grid.mono) then
        startBank (s.updRec fun v => { v with periodFrom := s.grid.mono }) l (captureBank s l 1)
      else s
    | none => s)

/-- SERVICE_DOMAIN_LOST (R35, R462, R478): each powered lane stages; a bank write in progress is abandoned. -/
def execServiceDomainLost (s : State) : Host.Outcome State Fault Refusal :=
  if !s.svc.up then .next s
  else
    let s := s.updSvc fun v => { v with up := false }
    let s := abandonBank s 3
    .next (bothLanes (fun s l => if (s.lane l).phase == .running then beginStaging s l else s) s)

/-- SERVICE_DOMAIN_RETURNED (R35, R462, R478). -/
def execServiceDomainReturned (s : State) : Host.Outcome State Fault Refusal :=
  if s.svc.up && !s.a.staging.active && !s.b.staging.active then .next s
  else
    let s := s.updSvc fun v => { v with up := true }
    let s := writeBack (bothLanes unstage s)
    .next (match s.svc.rcd.skipped with
      | none => s
      | some b => startBank (s.updRec fun v => { v with skipped := none }) s.mainLane b)

/-- The choice of the offered bank at STATION_READY (R476), with its events. -/
def chooseBank (s : State) : State :=
  let n := newestBank s.svc.rcd
  let s := if banksAmbiguous s.svc.rcd then
      raise s { src := 230, code := 6, data := dataLaneTick s s.mainLane, lane := s.mainLane }
    else if n.isNone then raise s { src := 230, code := 3, data := dataLaneTick s s.mainLane, lane := s.mainLane }
    else s
  s.updRec fun v => { v with offered := n }

/-! Recorder commands -/

/-- RECORDER_CLEAR (R472): the session is needed; the records already taken complete; clear record, CLEAR_BASE, carried
seals and anchor. -/
def execRecorderClear (p : Part) (s : State) : Host.Outcome State Fault Refusal :=
  .next (serve s p 0x0051 fun s _ =>
    if !(s.part p).session then answer s p false AUTH_REQUIRED
    else if !s.svc.up then answer s p false RECORDER_DOWN
    else
      let s := drainQueue s.svc.rcd.queue.length s
      let s := s.updRec carryDue
      let own := s.svc.rcd.next
      let s := deliverEvent s ⟨228, 1, dataTick s⟩
      let pay := leBytes p 1 ++ zeros 3 ++ leBytes (oldestSeq s.svc.rcd) 8 ++ leBytes own 8 ++ zeros 16
      let s := s.updRec fun v =>
        acceptRec v { src := 228, code := 1, sev := 4, origin := 3, bypass := true, payload := pay } 0
      let s := s.updRec fun v =>
        let v := { v with clearBase := own }
        let v := sealCodes.foldl carrySeal v
        match v.anchor.bind (recordAt v) with
        | none => v
        | some r => if r.pcycle = v.pcycle % 2 ^ 24 then
            let n := v.next
            { writeSlot v (carriedCopy r) 0 with anchor := some n }
          else v
      answer s p false OK)

end Sys2Proof.Machine
end

