-- ==== Sys2Proof/Machine/Ptp.lean ====
section
/-! DEFINITION. PTP, best master selection, the clock servo and TIME_STATE (11_plant_network_and_time.md R296 to R302). -/

namespace Sys2Proof.Machine

def timeRec (s : State) : Option CfgRec := s.cfgRec 0x0302 0

def TimeState.code : TimeState → Nat
  | .free => 0
  | .locking => 1
  | .locked => 2
  | .holdover => 3

def Net.port (v : Net) (portB : Bool) : PtpPort := if portB then v.portB else v.portA

def Net.setPort (v : Net) (portB : Bool) (x : PtpPort) : Net := if portB then { v with portB := x } else { v with portA := x }

/-- Nominal INCREMENT, 8 ns (R299). -/
def nominal : Nat := 0x800000000

/-- TIME_STATE entered: EV066 (R301, R319). -/
def enterTime (s : State) (l : LaneId) (t : TimeState) : State :=
  let s := s.updNet l fun v =>
    { v with time := t, goodRun := 0, badRun := 0,
             lockedBefore := match t with
               | .free => false
               | .locked => true
               | _ => v.lockedBefore,
             holdAt := if t = .holdover then s.grid.mono else v.holdAt }
  actEvent s l 66 t.code 0

/-- Time-weighted mean of INCREMENT over the last 64 s (R301): the history holds instants, newest first. -/
def meanInc (now : Nat) (h : List (Nat × Nat)) (cur : Nat) : Nat :=
  let w := now - (now - 64000000000)
  let rec go : Nat → List (Nat × Nat) → Nat
    | _, [] => 0
    | up, (t, i) :: r => (up - max t (now - 64000000000)) * i + go (max t (now - 64000000000)) r
  if w = 0 ∨ h = [] then cur
  else
    let first := match h.getLast? with
      | some (t, _) => max t (now - 64000000000)
      | none => now
    if now = first then cur else go now h / (now - first)

/-- The rate limit of R300 in units of INCREMENT; none on the RC, whose INCREMENT no longer stands for the TCXO (R433). -/
def rateLimit (s : State) (l : LaneId) : Option Nat :=
  if (s.lane l).clocks.src == .rc then none
  else some (nominal * (if s.st.phase = .running then 50 else 500) / 1000000)

/-- A deviation of INCREMENT from nominal held within the rate limit; INCREMENT stays above 0. -/
def holdRate (lim : Option Nat) (x : Int) : Int :=
  match lim with
  | some n => clampI (-(n : Int)) n x
  | none => max (1 - (nominal : Int)) x

/-- INCREMENT and the servo's integral within the rate limit of the station's state (R127, R300). -/
def holdLaneRate (s : State) (l : LaneId) : State :=
  let lim := rateLimit s l
  s.updNet l fun v => { v with increment := ((nominal : Int) + holdRate lim ((v.increment : Int) - nominal)).toNat,
                               integral := holdRate lim v.integral }

/-- The servo starts from the present INCREMENT (R301). -/
def startServo (s : State) (l : LaneId) : State :=
  s.updNet l fun v => { v with integral := (v.increment : Int) - nominal }

/-- LOCKED or LOCKING without valid Syncs falls to HOLDOVER: INCREMENT frozen at its mean (R301), within the limit of R127. -/
def enterHoldover (s : State) (l : LaneId) : State :=
  let s := s.updNet l fun v => { v with increment := meanInc s.grid.mono v.hist v.increment }
  enterTime (startServo (holdLaneRate s l) l) l .holdover

/-- The data-set comparison of R296 in the order of the fields. -/
def annKey (m : Announce) : List Nat := [m.priority1, m.clockClass, m.accuracy, m.variance, m.priority2, m.identity, m.steps]

def lexLt : List Nat → List Nat → Bool
  | a :: r, b :: t => decide (a < b) || (a == b && lexLt r t)
  | _, _ => false

def bestMaster : List Announce → Option Announce
  | [] => none
  | a :: r => match bestMaster r with
    | none => some a
    | some b => if lexLt (annKey b) (annKey a) then some b else some a

/-- Selection over the Announce messages of both ports; a new grandmaster returns the servo to LOCKING (R301). -/
def selectMaster (s : State) (l : LaneId) : State :=
  let v := (s.lane l).net
  match bestMaster (v.portA.masters ++ v.portB.masters) with
  | none => s
  | some m =>
    if v.gm = some m.identity then s
    else
      let s := s.updNet l fun v => { v with gm := some m.identity, gmLast := some m.identity }
      if v.time = .free ∨ v.gmLast = none ∨ v.gmLast = some m.identity then s
      else
        let s := if v.time = .locking then s.updNet l fun v => { v with goodRun := 0, badRun := 0 } else enterTime s l .locking
        actEvent s l 68 1 0

/-- The station's delay mechanism, and its transport (R298). -/
def peerDelay (r : CfgRec) : Bool := bit (r.u 9 1) 0
def ptpUdp (r : CfgRec) : Bool := bit (r.u 9 1) 1

/-- Number of a delay message's type among those that R313 limits each on their own (Announce is 0, Sync 2). -/
def delayType : PtpDelay → Nat
  | .delayResp _ => 1
  | .peerResp _ => 3
  | .peerReq => 4
  | .delayReq => 5

/-- A PTP message meets the limits of R313 and the counters of R317; ignored before clock qualification (R110), without a
time record, and over the transport that the station does not use (R296, R298). -/
def ptpArrives (s : State) (l : LaneId) (portB udp : Bool) (typ : Nat) (k : State → CfgRec → State) : State :=
  if !((s.lane l).runs && (s.lane l).clkQual) then s
  else
    let s := countPort (countPort s l portB 0) l portB 7
    let (ok, s) := admitRate s l (2 * typ + portNo portB) 64
    if !ok then shed s l portB 2
    else match timeRec s with
      | none => s
      | some r => if udp != ptpUdp r then s else k s r

/-- A PTP message leaves on its own port's network (R296). -/
def sendPtp (s : State) (l : LaneId) (portB : Bool) (r : CfgRec) (m : PtpAsk) : State :=
  (countPort s l portB 1).emit (.ptp l portB (ptpUdp r) m)

/-- PTP_ANNOUNCE (R296). -/
def execPtpAnnounce (l : LaneId) (portB udp : Bool) (m : Announce) (s : State) : Host.Outcome State Fault Refusal :=
  .next (ptpArrives s l portB udp 0 fun s r =>
    if m.domain != r.u 8 1 then s
    else
      selectMaster (s.updNet l fun v =>
        let x := v.port portB
        v.setPort portB { x with masters := m :: x.masters.filter fun a => a.identity != m.identity }) l)

/-- PTP_DELAY_MESSAGE (R296): a response under the station's own mechanism measures the path of its port; under peer delay the
neighbour's request is answered; a slave answers no Delay_Req. -/
def execPtpDelayMessage (l : LaneId) (portB udp : Bool) (m : PtpDelay) (s : State) : Host.Outcome State Fault Refusal :=
  .next (ptpArrives s l portB udp (delayType m) fun s r =>
    let take (s : State) (ns : Nat) : State := s.updNet l fun v => v.setPort portB { v.port portB with delay := some ns }
    match m with
    | .delayResp ns => if peerDelay r then s else take s ns
    | .peerResp ns => if peerDelay r then take s ns else s
    | .peerReq => if peerDelay r then sendPtp s l portB r .peerResp else s
    | .delayReq => s)

/-- One Sync of the free servo, without its rate limit: offset in ns and integral after it, for a Sync interval of 2^-n s. -/
def servoStep (n : Nat) (g : Nat × Nat) (x : Int × Int) : Int × Int :=
  let i := x.2 - g.2 * x.1 / 65536
  (x.1 + (i - g.1 * x.1 / 65536) * 1000000000 / (nominal * 2 ^ n), i)

/-- Offsets of the free servo at successive Syncs. -/
def servoRun (n : Nat) (g : Nat × Nat) : Nat → Int × Int → List Int
  | 0, _ => []
  | k + 1, x => x.1 :: servoRun n g k (servoStep n g x)

/-- What R300 asks of the gains: an offset falls to 1/e of itself at the 16th Sync and passes 0 by no more than 10 % (log entry 125). -/
def servoMeets (n : Nat) (g : Nat × Nat) : Bool :=
  let x := servoRun n g 129 (1000000000, 0)
  decide (367879441 < x.getD 15 0) && decide (x.getD 16 0 ≤ 367879441) && x.all fun e => decide (-100000000 ≤ e)

/-- Gains of the servo: free within what R300 asks of them (log entry 125). -/
def servoGains (n : Nat) : Nat × Nat :=
  if servoMeets n (Config.servoGain n) then Config.servoGain n else (139200 * 2 ^ n, 87 * 2 ^ n)

/-- The proportional-integral law of R300 on the offset of station time from the grandmaster. -/
def servoIncrement (s : State) (l : LaneId) (r : CfgRec) (off : Int) : State :=
  let g := servoGains (-(r.i 0x0A 1)).toNat
  let lim := rateLimit s l
  s.updNet l fun v =>
    let i := holdRate lim (v.integral - g.2 * off / 65536)
    let inc := ((nominal : Int) + holdRate lim (i - g.1 * off / 65536)).toNat
    { v with increment := inc, integral := i,
             hist := (s.grid.mono, inc) :: v.hist.filter fun e => decide (s.grid.mono ≤ e.1 + 66000000000) }

/-- The port that the servo uses after a valid Sync (R297). -/
def servoPort (s : State) (l : LaneId) (r : CfgRec) (portB : Bool) : State :=
  let v := (s.lane l).net
  let gap := 2 * (1000000000 / 2 ^ (-(r.i 0x0A 1)).toNat)
  if portB then
    let s := if v.portA.last + gap ≤ s.grid.mono then s.updNet l fun v => { v with runA := 0 } else s
    if !v.useB && decide (v.portA.last + gap ≤ s.grid.mono) then
      actEvent (s.updNet l fun v => { v with useB := true, runA := 0 }) l 68 2 1
    else s
  else if !v.useB then s
  else
    let run := if v.portA.last + gap ≤ s.grid.mono then 1 else v.runA + 1
    if 16 ≤ run then actEvent (s.updNet l fun v => { v with useB := false, runA := 0 }) l 68 2 0
    else s.updNet l fun v => { v with runA := run }

/-- Both ports' offsets compared at a Sync (R297). -/
def compareOffsets (s : State) (l : LaneId) : State :=
  let v := (s.lane l).net
  match v.portA.offset, v.portB.offset with
  | some a, some b =>
    if (a - b).natAbs ≤ 1000 then s.updNet l fun v => { v with diffRun := 0, diffTold := false }
    else
      let n := v.diffRun + 1
      let s := s.updNet l fun v => { v with diffRun := n, diffTold := v.diffTold || decide (16 ≤ n) }
      if 16 ≤ n ∧ v.diffTold = false then actEvent s l 68 3 0 else s
  | _, _ => s

/-- The lane whose servo steers station time: the one that acts; while none does, the first whose firmware runs (R128, R302). -/
def State.timeLane (s : State) : LaneId := s.activeLane.getD (if s.a.phase == .running then .a else .b)

/-- Advance of TIME_STATE and the servo on a valid Sync of the servo's port (R300, R301). -/
def timeSync (s : State) (l : LaneId) (r : CfgRec) (off : Int) : State :=
  let lock := r.u 0x0C 4
  let fresh := (s.lane l).net.time == .free || (s.lane l).net.time == .holdover
  let s := servoIncrement (if fresh then startServo s l else s) l r off
  let s := if s.st.phase != .running && s.timeLane == l && decide (r.u 0x10 4 < off.natAbs) then
      s.updNet l fun v => { v with step := some (-off) }
    else s
  match (s.lane l).net.time with
  | .free => enterTime s l .locking
  | .holdover => enterTime s l .locking
  | .locking =>
    let n := if off.natAbs ≤ lock then (s.lane l).net.goodRun + 1 else 0
    if 16 ≤ n then
      let s := enterTime s l .locked
      if runsRole (s.lane l).role then writeAnchor s l ((s.lane l).net.gm.getD 0) off else s
    else s.updNet l fun v => { v with goodRun := n }
  | .locked =>
    let n := if 4 * lock < off.natAbs then (s.lane l).net.badRun + 1 else 0
    if 4 ≤ n then enterTime s l .locking else s.updNet l fun v => { v with badRun := n }

/-- PTP_SYNC (R296, R297, R300, R301): the offset of station time from the grandmaster, measured on one port. Each Sync of the
selected grandmaster has the port ask for its path delay again (log entry 126). -/
def execPtpSync (l : LaneId) (portB udp : Bool) (identity domain : Nat) (offsetNs : Int) (s : State) :
    Host.Outcome State Fault Refusal :=
  .next (ptpArrives s l portB udp 2 fun s r =>
    let s := if domain = r.u 8 1 ∧ (s.lane l).net.gm = some identity then
        sendPtp s l portB r (if peerDelay r then .peerReq else .delayReq)
      else s
    let v := (s.lane l).net
    let x := v.port portB
    let est := ((v.port v.useB).offset).getD 0
    let inBand := decide ((offsetNs - est).natAbs ≤ 1000000000) || v.time == .free || v.time == .locking
    if domain != r.u 8 1 || v.gm != some identity || x.delay.isNone || !inBand then s
    else
      let s := servoPort s l r portB
      let s := s.updNet l fun v => v.setPort portB { v.port portB with offset := some offsetNs, last := s.grid.mono }
      let s := compareOffsets s l
      if (s.lane l).net.useB = portB then timeSync s l r offsetNs else s)

/-- ANNOUNCE_TIMEOUT (R298, R301): no valid Sync on either port for ANNOUNCE_TIMEOUT Announce intervals; the selection ends. -/
def execAnnounceTimeout (l : LaneId) (s : State) : Host.Outcome State Fault Refusal :=
  let drop (s : State) : State := s.updNet l fun v =>
    { v with gm := none, portA := { v.portA with masters := [] }, portB := { v.portB with masters := [] } }
  .next (match (s.lane l).net.time with
    | .locked => enterHoldover (drop s) l
    | .locking => if (s.lane l).net.lockedBefore then enterHoldover (drop s) l else enterTime (drop s) l .free
    | _ => drop s)

/-- HOLDOVER_EXPIRED (R301): HOLDOVER_MAX_S have elapsed. -/
def execHoldoverExpired (l : LaneId) (s : State) : Host.Outcome State Fault Refusal :=
  .next (if (s.lane l).net.time = .holdover then enterTime s l .free else s)

/-- Whole seconds of the present holdover (R148). -/
def holdoverS (s : State) (l : LaneId) : Nat :=
  let v := (s.lane l).net
  if v.time = .holdover then (s.grid.mono - v.holdAt) / 1000000000 % 2 ^ 32 else 0

/-- TIME_ANCHOR_DUE (R468): every 6 h while the station stays LOCKED. -/
def execTimeAnchorDue (s : State) : Host.Outcome State Fault Refusal :=
  .next (match s.activeLane with
    | none => s
    | some l =>
      let v := (s.lane l).net
      if v.time = .locked then writeAnchor s l (v.gm.getD 0) ((v.port v.useB).offset.getD 0) else s)

/-- The OFFSET step of R127 that the steering lane's servo asks for, made at a tick edge: the corrected station time, EV067 with the
step in µs. A RUNNING station makes none; while a STOP has not yet taken effect the step waits (log entry 123). -/
def takeStep (s : State) (l : LaneId) : Option Int × State :=
  match (s.lane l).net.step with
  | none => (none, s)
  | some d =>
    if s.st.phase ≠ .running ∧ (s.st.engaged || s.st.stopAt.any fun a => decide (s.grid.tick < a)) = true then (none, s)
    else
      let s := s.updNet l fun v => { v with step := none, portA := { v.portA with offset := none }, portB := { v.portB with offset := none } }
      if s.st.phase = .running then (none, s)
      else (some d, raise s { src := 67, code := 1, data := unsigned 32 (d / 1000), lane := l })

/-- A step asked for by a lane that steers no more is dropped (R128). -/
def dropStep (s : State) (l : LaneId) : State := s.updNet l fun v => { v with step := none }

/-- Both lanes run a role and their station times differ by more than 20 ns at the edge: EV073, at most once per second (R302). -/
def lanesDiffer (s : State) (skewNs : Int) : State :=
  match s.activeLane with
  | none => s
  | some l =>
    if (s.lane (other l)).role == .standby && decide (20 < skewNs.natAbs) then
      raise s { src := 73, code := 1, data := 0, lane := l, obj := some 0 }
    else s

/-- The reference switches to the RC: INCREMENT is rewritten from the last good TCXO window, and where the lane goes on alone
LOCKED falls to HOLDOVER (R433). -/
def rcTime (s : State) (l : LaneId) (alone : Bool) : State :=
  let n := (s.lane l).clocks.tcxoCount
  let s := startServo (s.updNet l fun v => { v with increment := v.increment * n / 800 }) l
  if alone && (s.lane l).net.time == .locked then enterTime s l .holdover else s

/-- INCREMENT back on the TCXO: what `rcTime` did is undone, within the rate limit of the station's state (R127, R437, log entry 139). -/
def tcxoTime (s : State) (l : LaneId) : State :=
  let n := (s.lane l).clocks.tcxoCount
  startServo (holdLaneRate (s.updNet l fun v => { v with increment := v.increment * 800 / n }) l) l

end Sys2Proof.Machine
end

