-- ==== Sys2Proof/Machine/Hooks.lean ====
section
/-! DEFINITION. What a change of role does to the lane's engines, controllers and flows (R239, R262, R281, R282). Loops follow
their lane's role in their own pass (R239). -/

namespace Sys2Proof.Machine

/-- The lane becomes STANDBY: its unit launches no flows, its controllers listen (R263, R282). -/
def hookStandby (s : State) (l : LaneId) : State := canListen (standbyFlows s l) l false

/-- The next release of each task is its takeover period (R154, R280). -/
def takeoverTasks (s : State) (l : LaneId) : State :=
  s.updLane l fun v => { v with be := { v.be with ctxs := v.be.ctxs.map fun e => (e.1, { e.2 with takePending := true }) } }

/-- The lane computes as ACTIVE or SOLO from this takeover tick (R280 to R282). -/
def hookTakeover (s : State) (l : LaneId) : State := canTakeover (takeoverFlows (takeoverTasks s l) l) l

/-- The lane goes OFFLINE: launches and CAN transmission stop, nothing runs (R262, R263). -/
def hookOffline (s : State) (l : LaneId) : State := canListen (offlineFlows s l) l true

/-- The lane's reference is the TCXO again: INCREMENT follows, within the limits of R127 (R437). -/
def hookTcxoReturn (s : State) (l : LaneId) : State := tcxoTime s l

/-- The lane's reference switches to the RC: INCREMENT is rewritten, and LOCKED falls to HOLDOVER where the lane goes on
alone (R433). -/
def hookRcSwitch (s : State) (l : LaneId) (alone : Bool) : State := rcTime s l alone

end Sys2Proof.Machine
end

