-- ==== Sys2Proof/Machine/Points.lean ====
section
/-! DEFINITION. The sequencer of the operating points and the gate requests (17_clocks_and_power_states.md R438 to R442). -/

namespace Sys2Proof.Machine

/-- The supply that a lane may fall to: its target, never below 0.72 V (OP2) in Dimmed (R439). -/
def supplyFloor (v : OpPoint) : Nat := if v.low then v.target else max v.target 2

/-- The supply that a lane rises to: that of its target, or of OP4 ahead of a tick that needs it (R440). -/
def supplyGoal (v : OpPoint) : Nat := if v.rise then 4 else supplyFloor v

/-- The supply that holds through a voltage step in progress. -/
def supplyHeld (v : OpPoint) : Nat := v.stepTo.elim v.supply (min v.supply)

/-- Starts the next voltage step of a lane, one point at a time (R438): up before the frequency, down after it. -/
def nextStep (v : OpPoint) : OpPoint :=
  if v.stepTo.isSome then v
  else if v.supply < supplyGoal v then { v with stepTo := some (v.supply + 1) }
  else if v.rise = false ∧ v.op = v.target ∧ supplyFloor v < v.supply then { v with stepTo := some (v.supply - 1) }
  else v

/-- A new target point of a lane; voltage steps start at once (R440). -/
def setTarget (s : State) (l : LaneId) (p : Nat) : State :=
  s.updLane l fun v => { v with opp := nextStep { v.opp with target := p, low := s.st.power.ps == .occulting } }

/-- OP4 is needed in a coming tick, or no longer: the supplies of both lanes follow (R440). -/
def setRise (b : Bool) (s : State) : State :=
  bothLanes (fun s l => s.updLane l fun v => { v with opp := nextStep { v.opp with rise := b } }) s

/-! Gate requests (R441, R442) -/

/-- Events of EV242 to EV246: per lane, at most once per second per code (R456). -/
def laneClockEvent (s : State) (l : LaneId) (base code : Nat) (pay : List Byte := []) : State :=
  raise s { src := base + laneNo l, code := code, data := dataLaneTick s l, pay := pay, lane := l, obj := some 0 }

/-- Every block of a lane that retention and Dark gate, children first (R441). -/
def parkBlocks : List GateBlock :=
  (List.range 32).map (fun n => GateBlock.cachePart (Fin.ofNat 32 n)) ++ (List.range 8).map (fun n => GateBlock.cf (Fin.ofNat 8 n)) ++
    [.canBlock, .hostLink, .networkUnit, .processor, .blockEngine, .loopEngine, .laneRoot]

/-- The children of a block in the gating tree (R441). -/
def childrenOf : GateBlock → List GateBlock
  | .canBlock => (List.range 8).map fun n => .cf (Fin.ofNat 8 n)
  | .blockEngine => (List.range 32).map fun n => .cachePart (Fin.ofNat 32 n)
  | .laneRoot => [.processor, .blockEngine, .loopEngine, .networkUnit, .canBlock, .hostLink]
  | _ => []

def gateCode : GateBlock → Nat
  | .cachePart n => n.val
  | .canBlock => 32
  | .cf n => 33 + n.val
  | .hostLink => 41
  | .laneRoot => 42
  | .processor => 43
  | .blockEngine => 44
  | .loopEngine => 45
  | .networkUnit => 46

/-- One gate request goes out: held until no bus access stands in its way, or refused with its event while a child is in use, neither
gated nor asked to be (R442). -/
def requestGate (s : State) (l : LaneId) (b : GateBlock) : State :=
  let v := (s.lane l).opp
  if v.gated.contains b || v.asked.contains b then s
  else if (childrenOf b).all fun c => v.gated.contains c || v.asked.contains c then
    s.updLane l fun v => { v with opp := { v.opp with asked := v.opp.asked ++ [b] } }
  else laneClockEvent s l 245 3 [Config.payloadCode 2 (gateCode b)]

/-- Several gate requests, in order. -/
def requestGates (s : State) (l : LaneId) (bs : List GateBlock) : State := bs.foldl (fun s b => requestGate s l b) s

/-- The lane has PARK in the last word of its partner: its gate requests are those of its parking (R447). -/
def parking (v : Lane) : Bool := v.role == .standby && v.beat.word.any fun w => bit w.hflags 5

end Sys2Proof.Machine
end

