-- ==== Sys2Proof/Machine/Roles.lean ====
section
/-! DEFINITION. Lane roles and their changes (10_redundancy.md R262 to R264, R291). -/

namespace Sys2Proof.Machine

def OffCause.no : OffCause → Nat
  | .none => 0
  | .isolated => 1
  | .deposed => 2
  | .parked => 3
  | .reintFailed => 4
  | .memory => 5
  | .notConfirmed => 6
  | .firmware => 7
  | .clock => 8
  | .stopped => 9
  | .startup => 10

/-- OFFLINE by fault shows health FAILED (R270); parking and a plain stop do not. -/
def OffCause.isFault : OffCause → Bool
  | .none => false
  | .parked => false
  | .stopped => false
  | _ => true

/-- A redundancy event of one lane: DATA holds the lane and the tick, but EV033 0x0001 the tick of detection; DATA of the other
codes of EV033 is open (R291, log entry 14). -/
def redEvent (s : State) (l : LaneId) (src code : Nat) (pay : List Byte := []) : State :=
  let data := if src = 33 then (if code = 1 then s.tickNo else Config.openData 33 code s.grid.tick) else dataLaneTick s l
  raise s { src := src, code := code, data := data, pay := pay, lane := l,
            obj := if src = 36 then some 0 else none, control := src == 32 }

/-- A role change recorded as a control action where it has no event of its own (R48, R465). -/
def noteRole (s : State) (l : LaneId) (r : Role) : State :=
  noteUnnamed s .roleChange l (leBytes (laneNo l) 1 ++ leBytes r.code 1)

/-- The partner of a lane that left: ACTIVE becomes SOLO and keeps its tokens (R263). -/
def partnerGone (s : State) (l : LaneId) : State :=
  let o := other l
  if (s.lane o).role == .active then noteRole (s.updLane o fun v => { v with role := .solo }) o .solo else s

/-- A lane whose tasks, loops and chains run no more (R262). -/
def restEngine (v : Lane) : Lane :=
  { v with be := { v.be with window := false, ctxs := v.be.ctxs.map fun e =>
      (e.1, { e.2 with phase := .dormant, frames := [], tob := [], loops := [] }) } }

/-- What is counted of snapshots goes on over a change of role (R284). -/
def Mirror.again (m : Mirror) : Mirror := { drops := m.drops, lastSnap := m.lastSnap }

/-- A lane goes OFFLINE with a cause: launches and CAN transmission stop at once (R263, R274). -/
def goOffline (s : State) (l : LaneId) (c : OffCause) : State :=
  if (s.lane l).role == .offline then s
  else
    let s := s.updLane l fun v =>
      let v := restEngine v
      { v with role := .offline, cause := c, takeover := false, tok := {}, mirror := v.mirror.again, reint := {},
               endsSeen := none, health := if c.isFault then .failed else v.health }
    let s := hookOffline s l
    let s := redEvent s l 32 4 [Config.payloadCode 0 c.no]
    partnerGone s l

/-- A lane stops (R263: lockstep mismatch, feed lost, RC not qualified): heartbeats cease, nothing runs. -/
def laneStops (s : State) (l : LaneId) (ph : LanePhase) : State :=
  let s := s.updLane l fun v =>
    let v := restEngine v
    { v with phase := ph, role := .offline, cause := .stopped, takeover := false, tok := {}, mirror := v.mirror.again,
             reint := {}, endsSeen := none, lit := false, winUp := false, arrived := [] }
  hookOffline s l

/-- A lane becomes SOLO at its takeover tick (R263, R279, R280). -/
def becomeSolo (s : State) (l : LaneId) : State :=
  let s := s.updLane l fun v => { v with role := .solo, cause := .none, takeover := true, endsSeen := none, tok := { v.tok with asked := none } }
  redEvent (hookTakeover s l) l 32 1

end Sys2Proof.Machine
end

