-- ==== Sys2Proof/Machine/Tokens.lean ====
section
/-! DEFINITION. Ownership tokens and the referee (01 R28 to R30, 10 R271 to R274). -/

namespace Sys2Proof.Machine

/-- Token-governed islands: every island except SK-1 (R28). -/
def tokenIslands : List Nat := [0, 1, 2, 3, 4, 5]

/-- The 12 bytes of a grant record (R271): referee, lane, EPOCH, tick number of the effective edge, CRC-32C over the first 8. -/
def grantBytes (g : Grant) : List Byte :=
  let b := leBytes g.referee 1 ++ leBytes (laneNo g.lane) 1 ++ leBytes g.epoch 2 ++ leBytes g.edge 4
  b ++ leBytes (crc32c b) 4

/-- A grant record as an island reads it; none when its length, its lane or its CRC is bad (R271). -/
def grantOf (bs : List Byte) : Option Grant :=
  if bs.length = 12 ∧ crc32c (bs.take 8) = rdU bs 8 4 ∧ rdU bs 1 1 < 2 then
    some ⟨rdU bs 0 1, if rdU bs 1 1 = 0 then .a else .b, rdU bs 2 2, rdU bs 4 4⟩
  else none

/-- The referee's grant to a lane for the next edge: EPOCH advances (R271). -/
def grantTo (s : State) (l : LaneId) : State :=
  let r := s.st.referee
  let e := ((s.island r).epoch + 1) % 65536
  let g : Grant := ⟨r, l, e, (s.grid.tick + 1) % 2 ^ 32⟩
  let s := s.updIsl r fun i => { i with epoch := e, pendGrant := some g, waiting := none }
  s.updLane l fun v => { v with tok := { v.tok with reply := some (.granted g) } }

/-- The referee's answer to a request (R271). -/
def refereeAnswer (s : State) (l : LaneId) : State :=
  let r := s.st.referee
  let i := s.island r
  let next := s.grid.tick + 1
  let reply (t : TokReply) := s.updLane l fun v => { v with tok := { v.tok with reply := some t } }
  if i.holder = some l then reply (.granted (i.inForce.getD ⟨r, l, i.lastApplied, s.tickNo⟩))
  else match i.pendGrant with
    | some g => if g.lane = l then reply (.granted g) else reply .refused
    | none =>
      if i.holder = none || i.released = some next then grantTo s l
      else if (i.announced.map (fun e => decide (s.grid.tick ≤ e))).getD false then
        (s.updIsl r fun i => { i with waiting := some l }).updLane l fun v =>
          { v with tok := { v.tok with reply := some .pending } }
      else reply .refused

/-- A lane asks the referee for the token; an OFFLINE lane never does, except at its roles step (R109, R264). -/
def askToken (s : State) (l : LaneId) (w : TokWhy) : State :=
  s.updLane l fun v => { v with tok := { v.tok with asked := some w, reply := none } }

/-- TOKEN_REQUEST (R271): the request that the lane has out reaches the referee. -/
def execTokenRequest (l : LaneId) (s : State) : Host.Outcome State Fault Refusal :=
  .next (if (s.lane l).tok.asked.isSome && (s.island s.st.referee).powered then refereeAnswer s l else s)

/-- TOKEN_REQUEST_RETRY (R271): an unanswered request is repeated. -/
def execTokenRequestRetry (l : LaneId) (s : State) : Host.Outcome State Fault Refusal :=
  .next (if (s.lane l).tok.asked.isSome && (s.lane l).tok.reply.isNone && (s.island s.st.referee).powered
    then refereeAnswer s l else s)

/-- A lane without an image: every object unconfigured, the status entries of loops and chains 0xFF (R112, R221, R258). -/
def emptyLane (v : Lane) : Lane :=
  { v with img := bareImage, frozen := bareImage, tmpl := [], be := {}, loops := [], chains := [], can := [],
           net := { v.net with flows := [] } }

/-- The images of a station that no lane carries any more: nothing is accepted, the station is STOPPED (R264). -/
def forgetImages (s : State) : State :=
  let s := bothLanes (fun s l => s.updLane l emptyLane) (discardLoopStage s)
  s.updSt fun t =>
    { t with cfg := none, cfgCrc := 0, cfgImage := [], prog := none, access := none, accessImage := [], safety := none,
             safetyAccepted := false, stage := [], commit := none, batches := [], hasRun := false, startAt := none,
             stopAt := none, lock := none, engaged := false, loopModes := [], loopParams := [], mpu := [], cold := [], roleAsks := [],
             phase := if t.ready then .stopped else t.phase }

/-- A grant received: EV035 with EPOCH; at power-up Lane A becomes ACTIVE and Lane B SOLO (R109), a lane that restarts alone
SOLO with no images (R264); otherwise the role is settled at the grant edge. -/
def grantReceived (s : State) (l : LaneId) (g : Grant) (w : TokWhy) : State :=
  let s := s.updLane l fun v => { v with tok := { v.tok with reply := none, grant := some g } }
  let s := redEvent s l 35 1 (leBytes g.epoch 2)
  match w with
  | .startUp =>
    let role : Role := if l = .a ∧ s.st.ready = false then .active else .solo
    let s := if s.st.ready then forgetImages s else s
    noteRole (s.updLane l fun v => { v with role := role, cause := .none, tok := { v.tok with asked := none } }) l role
  | .again => s.updLane l fun v => { v with tok := { v.tok with asked := none } }
  | _ => s

/-- An acting lane finds the referee's token free, without a grant on its way: it asks for it again (R262). -/
def regainToken (s : State) (l : LaneId) : State :=
  let v := s.lane l
  let free := (v.arrived.get? s.st.referee).any fun a => a.good && a.frame.tick == s.grid.tick && a.frame.holder.isNone
  if runsRole v.role && v.tok.asked.isNone && v.tok.grant.all (fun g => g.edge != (s.grid.tick + 1) % 2 ^ 32) && free &&
      !s.st.ends.released then askToken s l .again else s

/-- TOKEN_REPLY (R271, R273, R274): a grant is taken and will be forwarded; a refusal after a declared failure isolates. -/
def execTokenReply (l : LaneId) (s : State) : Host.Outcome State Fault Refusal :=
  let v := s.lane l
  .next (match v.tok.asked, v.tok.reply with
    | some w, some (.granted g) => grantReceived s l g w
    | some w, some .refused =>
      let s := s.updLane l fun v => { v with tok := { v.tok with asked := none, reply := none } }
      let s := redEvent s l 35 2
      if w = .takeover ∧ v.role = .standby then goOffline s l .isolated else s
    | _, _ => s)

/-- GRANT_RECORD (R271, R273): the record that the granted lane forwards, or resends for a later edge, reaches an island, which
keeps it until its edge; one with a bad CRC is ignored. -/
def execGrantRecord (i : Isl) (l : LaneId) (record : List Byte) (s : State) : Host.Outcome State Fault Refusal :=
  .next (match (s.lane l).tok.grant, grantOf record with
    | some g, some x =>
      if tokenIslands.contains i.val && i.val != s.st.referee && (s.island i.val).powered && x.lane == g.lane &&
          x.epoch == g.epoch then
        s.updIsl i.val fun y => { y with pendGrant := some x }
      else s
    | _, _ => s)

/-- RELEASE_WORD (R271, R272): the holder's release word for the next edge arrives; a waiting request is granted. -/
def execReleaseWord (i : Isl) (l : LaneId) (s : State) : Host.Outcome State Fault Refusal :=
  let x := s.island i.val
  if x.holder = some l ∧ (s.st.ends.released = true) then
    let s := s.updIsl i.val fun x => { x with released := some (s.grid.tick + 1) }
    .next (if i.val = s.st.referee then
      match x.waiting with
      | some w => grantTo s w
      | none => s
    else s)
  else .next s

/-- The token part of an island's edge T (R272): dead-ball rule, release, grant, in this order. -/
def tokenEdge (s : State) (i : Nat) : State :=
  let t := s.grid.tick
  let x0 := s.island i
  let now := x0.accNext
  let dead := x0.holder.isSome && !now && !x0.accNow
  let x := { x0 with accNow := now, accNext := false }
  let x := if dead then { x with holder := none } else x
  let x := if x.released = some t then { x with holder := none } else x
  let x := { x with released := none, unapplied := false,
                    announced := x.announced.bind fun e => if t ≤ e + 1 then some e else none }
  let x := match x.pendGrant with
    | some g =>
      if g.edge = t % 2 ^ 32 then
        if 0 < diff16 g.epoch x.lastApplied then
          if x.holder.isNone then
            { x with holder := some g.lane, lastApplied := g.epoch, epoch := if i = s.st.referee then x.epoch else g.epoch,
                     baseline := some g.lane, pendGrant := none, inForce := some g }
          else { x with unapplied := decide (x.holder ≠ some g.lane), pendGrant := none }
        else { x with pendGrant := none }
      else x
    | none => x
  let s := { s with isl := s.isl.set i x }
  -- a request left pending is granted as soon as the dead-ball rule frees the token (R271)
  if i = s.st.referee ∧ x.holder = none ∧ x.pendGrant = none then
    match x.waiting with
    | some w => grantTo s w
    | none => s
  else s

end Sys2Proof.Machine
end

