-- ==== Sys2Proof/Machine/Redundancy.lean ====
section
/-! DEFINITION. Heartbeats, takeover, mirror, change of ends, re-integration (10_redundancy.md). -/

namespace Sys2Proof.Machine

/-! Heartbeats and failure (R266 to R269) -/

/-- The light character of a state: three flashes in 1000 µs, starting at 0, 300 and 600 µs, whose widths give the lane, the
role and the health (R268). -/
def lightGroup (l : LaneId) (role health : Nat) : List (Nat × Nat) :=
  [(0, 40 + 40 * laneNo l), (300, 40 + 40 * role), (600, 40 + 40 * health)]

/-- The state that a flash width encodes: within 10 µs of 40, 80, 120 or 160 µs (R268). -/
def flashValue (w : Nat) : Option Nat := findPos (fun n => decide (n ≤ w + 10 ∧ w ≤ n + 10)) [40, 80, 120, 160] 0

/-- Lane, role and health of a received group of three flashes; none when it cannot be decoded (R268). -/
def decodeGroup : List (Nat × Nat) → Option (LaneId × Nat × Nat)
  | [a, b, c] => match flashValue a.2, flashValue b.2, flashValue c.2 with
    | some 0, some r, some h => some (.a, r, h)
    | some 1, some r, some h => some (.b, r, h)
    | _, _, _ => none
  | _ => none

/-- States of a beacon line (R267). -/
inductive BeaconLine where
  | lit | dark | extinguished
  deriving DecidableEq, Repr

/-- Loop current of a state of the line, in µA (R527). A current between the bands makes a flash undecodable. -/
def BeaconLine.current : BeaconLine → Nat × Nat
  | .lit => (4000, 6000)
  | .dark => (800, 1500)
  | .extinguished => (0, 299)

/-- What a lane's beacon end flashes: its state, or role OFFLINE and health GOOD in hold mode; none when it is extinguished (R267,
R268). -/
def beaconShows (s : State) (l : LaneId) : Option (List (Nat × Nat)) :=
  let v := s.lane l
  if v.hold then some (lightGroup l 0 0) else if v.lit then some (lightGroup l v.role.code v.health.code) else none

/-- The line at an instant of its group, in µs (R267, R268). -/
def beaconLine (s : State) (l : LaneId) (us : Nat) : BeaconLine :=
  match beaconShows s l with
  | none => .extinguished
  | some g => if g.any fun f => decide (f.1 ≤ us % 1000 ∧ us % 1000 < f.1 + f.2) then .lit else .dark

/-- The partner's line as a lane sees it is extinguished (R267). -/
def lineDark (s : State) (l : LaneId) : Bool := (beaconShows s (other l)).isNone

/-- A path fault is present on a lane (R269, R284). -/
def pathFaultSeen (v : Lane) : Bool := v.beat.faultBridge || v.beat.faultBeacon || decide (2 ≤ v.beat.undecodable)

/-- The heartbeat word of a lane at its cut-off (R266, R286, R447). -/
def hbWord (s : State) (l : LaneId) : HbWord :=
  let v := s.lane l
  let e := s.st.ends
  let acts := runsRole v.role
  let snap := if acts then v.mirror.sent.filter fun d => d.tick == s.grid.tick else none
  let propose := acts && e.s.isSome && !e.confirmed
  let confirm := v.role == .standby && v.endsSeen.isSome
  { tick := s.tickNo, lane := l, role := v.role.code, health := v.health.code,
    hflags := maskOf [v.beat.faultBridge, v.beat.faultBeacon || decide (2 ≤ v.beat.undecodable), propose, confirm, snap.isSome,
      acts && s.st.power.park],
    endsTick := (if acts then e.s.getD 0 else if confirm then v.endsSeen.getD 0 else 0) % 2 ^ 32,
    snapLen := snap.elim 0 SnapData.len, snapCrc := snap.elim 0 SnapData.crc, fw := v.fw }

/-- The 32 bytes of a heartbeat word (R266). -/
def hbBytes (w : HbWord) : List Byte :=
  let b := leBytes w.tick 4 ++ leBytes (laneNo w.lane) 1 ++ leBytes w.role 1 ++ leBytes w.health 1 ++ leBytes w.hflags 1 ++
    leBytes w.endsTick 4 ++ leBytes w.snapLen 4 ++ leBytes w.snapCrc 4 ++ leBytes w.fw 4 ++ zeros 4
  b ++ leBytes (crc32c b) 4

/-- A lane sends its heartbeat word and refreshes its beacon end (R266, R267). -/
def sendHeartbeat (s : State) (l : LaneId) : State :=
  let w := hbWord s l
  (s.updLane l fun v => { v with sent := some w, lit := true }).emit (.heartbeat l (hbBytes w))

/-- Judges the partner's heartbeat for the tick before at an input swap: the two miss counts (R269). -/
def judgeHeartbeat (s : State) (l : LaneId) : State :=
  let last := (s.grid.tick + 2 ^ 32 - 1) % 2 ^ 32
  let v := s.lane l
  let here := match v.beat.word with
    | some w => w.tick % 2 ^ 32 == last
    | none => false
  let dark := lineDark s l
  s.updLane l fun v => { v with beat := { v.beat with
    missBridge := if here then 0 else v.beat.missBridge + 1,
    missBeacon := if dark then v.beat.missBeacon + 1 else 0,
    declared := v.beat.declared && !(here && !dark) } }

/-- Ends the commands in flight at an unplanned role change (R104): a confirmed commit has taken effect and stays to be
applied, and so has a STOP that waits for its TICK; staging, running bulk transfers, loop requests that
the engine has not taken and commands not yet served end with LANE_LOST and have no effect. -/
def loseCommands (s : State) : State :=
  let s := s.updSt fun t =>
    { t with stage := [], loopModes := [], loopParams := [],
             commit := t.commit.bind fun c => if c.confirmed then some c else none }
  allParts.foldl (fun s p =>
    let keep (m : Mailbox) := m.phase == .waiting && (match s.st.commit with
      | some c => c.part == p
      | none => false)
    let s := if (s.part p).main.busy && !keep (s.part p).main then
        respond s p false LANE_LOST (s.part p).main.bytes 0 s.tickNo else s
    let stops := (s.part p).urg.phase == .waiting && word (s.part p).urg.cmd 0 % 65536 == 0x0031
    if (s.part p).urg.busy && !stops then respond s p true LANE_LOST (s.part p).urg.bytes 0 s.tickNo else s) s

/-- PARTNER_FAILURE_DECLARED (R263, R269, R274, R279): both counts are 2 or more. -/
def execPartnerFailureDeclared (l : LaneId) (s : State) : Host.Outcome State Fault Refusal :=
  let v := s.lane l
  if v.beat.missBridge < 2 ∨ v.beat.missBeacon < 2 ∨ v.beat.declared then .next s
  else
    let s := s.updLane l fun v => { v with beat := { v.beat with declared := true } }
    let partner := (v.beat.word.map fun w => w.role).getD 0
    if partner = 0 then .next (noteUnnamed s .partnerSilent l (leBytes (laneNo (other l)) 1))
    else .next (match v.role with
      | .standby => setRise true (askToken (redEvent s l 34 1) l .takeover)
      | .active => noteRole ((redEvent s l 34 1).updLane l fun v => { v with role := .solo }) l .solo
      | _ => s)

/-- PATH_FAULT (R268 to R270, R291): one path reaches 2 while the other does not (a parked partner sends no words), or two consecutive groups of the light character
cannot be decoded; a lane with a path fault is DEGRADED. The restored path clears it. -/
def execPathFault (l : LaneId) (kind : PathFaultKind) (s : State) : Host.Outcome State Fault Refusal :=
  let v := s.lane l
  let degrade (v : Lane) : Lane := { v with health := if v.health == .good then .degraded else v.health }
  .next (match kind with
    | .bridge =>
      if 2 ≤ v.beat.missBridge ∧ v.beat.missBeacon < 2 ∧ v.beat.faultBridge = false ∧ (s.lane (other l)).phase ≠ .parked then
        redEvent (s.updLane l fun v => degrade { v with beat := { v.beat with faultBridge := true } }) l 33 1
      else s
    | .beacon =>
      if 2 ≤ v.beat.missBeacon ∧ v.beat.missBridge < 2 ∧ v.beat.faultBeacon = false then
        redEvent (s.updLane l fun v => degrade { v with beat := { v.beat with faultBeacon := true } }) l 33 2
      else s
    | .group flashes =>
      match decodeGroup flashes with
      | some x => s.updLane l fun v => { v with beat := { v.beat with
          light := some x, undecodable := if v.beat.undecodable < 2 then 0 else v.beat.undecodable } }
      | none =>
        let s := s.updLane l fun v => { v with beat := { v.beat with undecodable := v.beat.undecodable + 1 } }
        if (s.lane l).beat.undecodable = 2 then redEvent (s.updLane l degrade) l 33 3 else s
    | .restored =>
      if pathFaultSeen v && v.beat.missBridge == 0 && v.beat.missBeacon == 0 then
        let s := s.updLane l fun v =>
          { v with beat := { v.beat with faultBridge := false, faultBeacon := false, undecodable := 0 },
                   health := if v.health == .degraded then .good else v.health }
        redEvent s l 33 0x10
      else s)

/-- BEACON_EXTINGUISH (R267): the end has not been refreshed for L + 4 µs, or its feed failed. A lane that failed a step before its
firmware ran goes on flashing FAILED while it has its feed (R107, log entry 137). -/
def execBeaconExtinguish (l : LaneId) (s : State) : Host.Outcome State Fault Refusal :=
  .next (s.updLane l fun v =>
    { v with lit := v.lit && v.feed && v.phase == .starting && v.cause == .startup, hold := v.hold && v.feed })

/-! Mirror (R176, R275 to R277) -/

/-- The pieces that a snapshot must have: touched class-1 ranges and every object with a record (R275, R277). -/
def neededPieces (s : State) (from_ : LaneId) : List SnapPiece :=
  match (s.lane from_).mirror.sent with
  | none => []
  | some d =>
    (d.ranges.map fun r => .inst r.1) ++
    (recsOf s.cfgRecs 0x0801).map (fun r => .loop (Fin.ofNat 128 r.inst)) ++
    (recsOf s.cfgRecs 0x0901).map (fun r => .chain (Fin.ofNat 16 r.inst)) ++
    (recsOf s.cfgRecs 0x0310).map (fun r => .flow (Fin.ofNat 256 r.inst)) ++
    ((recsOf s.cfgRecs 0x0401).filter fun r => decide (r.inst < 8)).map (fun r => .can (Fin.ofNat 8 r.inst))

/-- SNAPSHOT_PIECE (R277): a piece of the snapshot of a tick arrives at the standby lane and is buffered. -/
def execSnapshotPiece (l : LaneId) (tick : Nat) (piece : SnapPiece) (s : State) : Host.Outcome State Fault Refusal :=
  .next (if receives (s.lane l) then
    s.updLane l fun v => { v with mirror := { v.mirror with
      pieces := if v.mirror.pieces.contains (tick, piece) then v.mirror.pieces else v.mirror.pieces ++ [(tick, piece)] } }
  else s)

/-- A mirrored loop on a lane that tracks (R234, R239): CLOSING and CLOSED show PARKED; what the status entry does not
carry stays the lane's own. -/
def mirrorLoop (own seen : LoopSt) : LoopSt :=
  { seen with st := if seen.st == .closing || seen.st == .closed then .parked else seen.st, mirY := some seen.y,
              man := own.man, seq := own.seq, initReq := own.initReq, done := own.done }

/-- Writes a complete snapshot into the lane's own data (R176, R277). -/
def writeSnapshot (s : State) (l : LaneId) (d : SnapData) : State :=
  s.updLane l fun v =>
    { v with img := d.ranges.foldl (fun m r => m.writeN r.2.1 r.2.2) v.img,
             loops := d.loops.foldl (fun t e => t.set e.1 (mirrorLoop (t.get e.1 {}) e.2)) v.loops,
             chains := d.chains.foldl (fun t e => t.set e.1 e.2) v.chains,
             net := { v.net with flows := d.flows.foldl (fun t e => t.set e.1 (mirrorFlow (t.get e.1 {}) e.2 d.tick)) v.net.flows },
             can := d.can.foldl (fun t e => t.set e.1 (mirrorCan (canPeriodic s e.1) (t.get e.1 {}) e.2 d.tick)) v.can,
             mirror := { v.mirror with pieces := v.mirror.pieces.filter (fun e => decide (d.tick < e.1)), closed := none, lastSnap := d.tick % 2 ^ 32, judged := some d.tick,
                                       consecutive := v.mirror.consecutive + 1 } }

/-- Discards the snapshot being received (R277): counted, EV036; the standby goes on from its own state. -/
def discardSnapshot (s : State) (l : LaneId) (tick : Nat) : State :=
  let s := s.updLane l fun v =>
    { v with health := if v.health == .good && v.role == .standby then .degraded else v.health,
             mirror := { v.mirror with pieces := v.mirror.pieces.filter (fun e => decide (tick < e.1)), closed := none, drops := (v.mirror.drops + 1) % 2 ^ 32,
                                       consecutive := 0, judged := some tick } }
  redEvent s l 36 1

/-- The snapshot on its way to a lane, neither applied nor discarded yet. -/
def coming (s : State) (l : LaneId) : Option SnapData :=
  if receives (s.lane l) then (s.lane (other l)).mirror.sent.bind fun d => if (s.lane l).mirror.judged = some d.tick then none else some d
  else none

/-- Applies the snapshot once its heartbeat word has closed it with its length and CRC and every piece of its tick is here (R277). -/
def applySnapshot (s : State) (l : LaneId) : State :=
  match coming s l with
  | some d =>
    if (s.lane l).mirror.closed == some (d.len, d.crc) &&
        (neededPieces s (other l)).all (fun p => (s.lane l).mirror.pieces.contains (d.tick, p)) then writeSnapshot s l d
    else s
  | none => s

/-- The tick of a snapshot whose sender left it unclosed: pieces of a past tick that no close word follows. -/
def leftOver (s : State) (l : LaneId) : Option Nat :=
  let v := s.lane l
  if receives v then ((v.mirror.pieces.filter fun e => decide (e.1 < s.grid.tick)).head?).map fun e => e.1 else none

/-- Judges the snapshot at its limit: applied, or discarded whole; so is one that its sender never closed (R277). -/
def judgeSnapshot (s : State) (l : LaneId) : State :=
  let s := applySnapshot s l
  match coming s l with
  | some d => discardSnapshot s l d.tick
  | none => match leftOver s l with
    | some t => discardSnapshot s l t
    | none => s

/-- A tick of re-integration that counts: the snapshot of the tick before applied, both heartbeats present (R289). -/
def countReint (t : Nat) (v : Lane) : Lane :=
  if v.reint.step != .tracking then v
  else
    let good := v.mirror.judged == some (t - 1) && v.mirror.consecutive != 0 && v.beat.missBridge == 0 && v.beat.missBeacon == 0
    { v with reint := { v.reint with count := if good then v.reint.count + 1 else 0 } }

/-- SNAPSHOT_DISCARD (R277): not complete by E + L + 4 µs. -/
def execSnapshotDiscard (l : LaneId) (s : State) : Host.Outcome State Fault Refusal := .next (judgeSnapshot s l)

/-! Change of ends (R285 to R288) -/

/-- The first failing condition of R285, by its code; none when every one holds. -/
def endsBlocked (s : State) : Option Nat :=
  match s.activeLane with
  | none => some 1
  | some l =>
    let o := s.lane (other l)
    if o.role != .standby then some 1
    else if o.suspect then some 2
    else if s.st.ends.check != 0 then some 3
    else if s.st.commit.isSome then some 4
    else if o.mirror.consecutive < 8 then some 5
    else if pathFaultSeen (s.lane l) || pathFaultSeen o then some 6
    else none

/-- Starts a change in tick k: S = k + 2, proposed in the heartbeat word (R286). A swap-back takes the tick after
detection and needs no confirmation (R288). -/
def startEnds (s : State) (c : EndsCause) (off : Option OffCause) : State :=
  let sw := if c = .swapBack then s.grid.tick + 1 else s.grid.tick + 2
  let s := s.updSt fun t => { t with ends := { t.ends with
    s := some sw, cause := c, confirmed := decide (c = .swapBack), released := false, due := false, deferred := false,
    waiting := none, offAfter := off } }
  raise (setRise true s) { src := 37, code := 1, data := (sw + 1) % 2 ^ 32, lane := s.mainLane }

/-- A change that needs only conditions 1 and 4 and waits while 4 fails: ACTION 2, R174, R433. -/
def immediateEnds (s : State) (c : EndsCause) (off : Option OffCause) : State :=
  if s.st.ends.s.isSome then s.updSt fun t => { t with ends := { t.ends with offAfter := t.ends.offAfter <|> off } }
  else if s.standbyLane.isNone || s.activeLane.isNone then s
  else if s.st.commit.isSome then
    s.updSt fun t => { t with ends := { t.ends with waiting := some c, offAfter := off } }
  else startEnds s c off

/-- A waiting immediate change is taken once condition 4 holds (R285). -/
def retryEnds (s : State) : State :=
  match s.st.ends.waiting with
  | none => s
  | some c => if s.st.commit.isSome then s else immediateEnds (s.updSt fun t => { t with ends := { t.ends with waiting := none } }) c s.st.ends.offAfter

/-- What defers a scheduled change: a condition of R285 by its code, or a DEGRADED partner (R270), for which the table has no code
(a free value, log entry 120). -/
def timerBlocked (s : State) : Option Nat :=
  match endsBlocked s with
  | some c => some c
  | none => if (s.standbyLane.elim false fun o => (s.lane o).health == .degraded) then some (Config.freeNat s.free) else none

/-- ENDS_INTERVAL_DUE (R285): the timer; deferred with EV037 once while a condition fails. -/
def execEndsIntervalDue (s : State) : Host.Outcome State Fault Refusal :=
  .next (if s.activeLane.isNone || s.st.ends.s.isSome then s
    else match timerBlocked s with
      | none => startEnds s .timer none
      | some code =>
        let s' := s.takeFree.2.updSt fun t => { t with ends := { t.ends with due := true, deferred := true } }
        if s.st.ends.deferred then s'
        else raise s' { src := 37, code := 2, data := code, lane := s.mainLane })

/-- ENDS_DEFERRED_START (R285): the first tick in which every condition holds. -/
def execEndsDeferredStart (s : State) : Host.Outcome State Fault Refusal :=
  .next (if s.st.ends.due && s.st.ends.s.isNone && (timerBlocked s).isNone then startEnds s .timer none else s)

/-- ENDS_CHANGE (R93, R285, R286). -/
def execEndsChange (p : Part) (s : State) : Host.Outcome State Fault Refusal :=
  .next (serve s p 0x0032 fun s _ =>
    needOperator s p true
      (match s.st.ends.s with
       | some sw =>
         if s.st.ends.confirmed then respond s p true ACCEPTED 0 0 ((sw + 1) % 2 ^ 32)
         else if s.standbyLane.isNone then answer s p true WRONG_STATE s.st.phase.code 1
         else (s.updSt fun t => { t with ends := { t.ends with asked := t.ends.asked ++ [p.val] } }).updMb p true
           fun m => { m with phase := .waiting }
       | none =>
         match endsBlocked s with
         | some code => answer s p true WRONG_STATE s.st.phase.code code
         | none =>
           let s := startEnds s (.host p) none
           (s.updSt fun t => { t with ends := { t.ends with asked := t.ends.asked ++ [p.val] } }).updMb p true
             fun m => { m with phase := .waiting }))

/-- The confirmation of S arrives: every ENDS_CHANGE waiting for it returns ACCEPTED with S + 1 (R286). -/
def confirmEnds (s : State) (sw : Nat) : State :=
  let asked := s.st.ends.asked
  let s := s.updSt fun t => { t with ends := { t.ends with confirmed := true, asked := [] } }
  asked.foldl (fun s p => if (s.part p).urg.phase == .waiting then respond s p true ACCEPTED 0 0 ((sw + 1) % 2 ^ 32) else s) s

/-- A proposed change without a STANDBY lane to confirm it is over: every ENDS_CHANGE waiting for it ends with WRONG_STATE and the
condition that fails (R93, R285). -/
def dropEnds (s : State) : State :=
  let asked := s.st.ends.asked
  let s := s.updSt fun t => { t with ends := { t.ends with s := none, confirmed := false, released := false, asked := [], offAfter := none, levels := [] } }
  asked.foldl (fun s p => if (s.part p).urg.phase == .waiting then answer s p true WRONG_STATE s.st.phase.code 1 else s) s

/-- The ACTIVE lane of a change of ends becomes STANDBY at the swap edge (R263, R286); after a swap-back it is SUSPECT until it is
re-integrated with its feed cycled (R288). -/
def yieldEnds (s : State) (l : LaneId) (back : Bool) : State :=
  hookStandby (s.updLane l fun v =>
    { v with role := .standby, takeover := false, tok := {}, suspect := v.suspect || back, feedCycled := v.feedCycled && !back,
             health := if back then .suspect else v.health, mirror := v.mirror.again, endsSeen := none }) l

/-- The STANDBY lane of a change of ends becomes ACTIVE: its takeover tick (R263, R286). -/
def takeEnds (s : State) (o : LaneId) : State :=
  hookTakeover (s.updLane o fun v =>
    { v with role := .active, takeover := true, endsSeen := none, tok := { v.tok with asked := none, reply := none },
             mirror := v.mirror.again }) o

/-- Due launches that a lane's queues have dropped as MISREAD (R308). -/
def missedLaunches (v : Lane) : Nat := (v.net.flows.map fun e => e.2.cnt.get 6 0).foldl (· + ·) 0

/-- Task periods that have failed on a lane since START. -/
def failedPeriods (v : Lane) : Nat := (v.be.ctxs.map fun e => e.2.totalFails).foldl (· + ·) 0

/-- ENDS_SWAP_EDGE (R263, R286 to R288): at the edge of S + 1, with the token at the new lane, the roles exchange. A new lane that
has died since the release holds the token too: the former ACTIVE lane is STANDBY then, and declares the failure (R287). -/
def execEndsSwapEdge (s : State) : Host.Outcome State Fault Refusal :=
  .next (match s.st.ends.s, s.activeLane with
    | some sw, some l =>
      let o := other l
      if s.grid.tick = sw + 1 ∧ s.st.ends.confirmed = true ∧ (s.island s.st.referee).holder = some o then
        let e := s.st.ends
        let back := e.cause = .swapBack
        let alive := (s.lane o).role = .standby
        let s := yieldEnds s l back
        let s := if alive then redEvent (takeEnds s o) o 32 (if back then 3 else 2) else s
        let s := s.updSt fun t =>
          { t with ends := { check := if back ∨ !alive then 0 else 8, failBase := failedPeriods (s.lane o), missBase := missedLaunches (s.lane o) } }
        match e.offAfter with
        | some c => goOffline s l c
        | none => s
      else s
    | _, _ => s)

/-- The conditions that fail the self-check of the new ACTIVE lane (R288): an island that does not name it as holder from the second
tick on, a link that lost two input frames in a row, a failed task period, a late loop engine, a launch not made, an
error-passive port. -/
def selfCheckFails (s : State) (l : LaneId) : Bool :=
  let v := s.lane l
  let named := tokenIslands.all fun i => match v.arrived.get? i with
    | some a => a.frame.holder == some l
    | none => false
  (decide (s.st.ends.check ≤ 7) && !named) || (v.linkLost.any fun e => decide (2 ≤ e.2)) ||
  decide (s.st.ends.failBase < failedPeriods v) || v.loopLate || s.st.ends.missBase != missedLaunches v ||
  (v.net.flows.any fun e => e.2.descs.any fun d => decide (d.time / s.lenNs < s.grid.tick)) ||
  (v.can.any fun e => decide (e.1 < 8) && (decide (128 ≤ e.2.tec) || decide (128 ≤ e.2.rc)))

/-- SELF_CHECK_FAIL (R288): a condition holds within the 8 ticks after a change of ends: the new lane gives the ends back. -/
def execSelfCheckFail (s : State) : Host.Outcome State Fault Refusal :=
  .next (if s.st.ends.check != 0 && s.st.ends.s.isNone && s.standbyLane.isSome && s.activeLane.any (selfCheckFails s) then
    startEnds (s.updSt fun t => { t with ends := { t.ends with check := 0 } }) .swapBack none
  else s)

/-- TAKEOVER_TICK (R263, R279 to R283): at the grant edge the STANDBY lane that holds the token becomes SOLO. -/
def execTakeoverTick (l : LaneId) (s : State) : Host.Outcome State Fault Refusal :=
  let v := s.lane l
  .next (if v.role == .standby && v.tok.asked == some .takeover &&
      (s.island s.st.referee).holder == some l then
    becomeSolo (loseCommands (s.updSt fun t => { t with ends := { t.ends with s := none, confirmed := false, released := false, levels := [] } })) l
  else s)

/-! Heartbeat words -/

/-- Parking (R447): the STANDBY lane sets its beacon end to hold, gates its blocks and shows OFFLINE with cause PARKED;
for `parkEdge`. -/
def parkLane (s : State) (l : LaneId) : State :=
  let s := goOffline s l .parked
  s.updLane l fun v => { v with phase := .parked, hold := true, lit := false, winUp := false }

/-- A parked lane leaves retention: its blocks are ungated, its RC restarts, its domains are back on the TCXO (R432, R448). With a failed
TCXO they are held until the RC qualifies, and the lane is OFFLINE with cause CLOCK (R452). -/
def unparkLane (s : State) (l : LaneId) : State :=
  s.updLane l fun v =>
    let c := v.clocks
    { v with phase := .running, hold := false, lit := true, winUp := true, cause := if c.tcxoGood then v.cause else .clock,
             health := if c.tcxoGood then v.health else .failed,
             clocks := { c with src := .tcxo, rcQual := false, rcRestarting := true, held := !c.tcxoGood },
             opp := { v.opp with gated := [], asked := [] } }

/-- A lane that has found another firmware version on its partner: OFFLINE and FAILED until its feed is cycled (R22, R290);
EV038 names both versions. -/
def versionsDiffer (s : State) (l : LaneId) (partner : Nat) : State :=
  let s := s.updLane l fun v => { v with cause := .firmware, health := .failed, needCycle := true, startDone := true, tok := {} }
  raise s { src := 38, code := 4, data := partner % 2 ^ 32, lane := l, pay := leBytes (s.lane l).fw 4 }

/-- A lane at its roles step whose role is not settled (R109). -/
def unsettled (v : Lane) : Bool :=
  v.phase == .running && v.role == .offline && v.rolesStep && !v.startDone && v.cause == .none

/-- Such a lane that has asked for nothing. -/
def waitsForRole (v : Lane) : Bool := unsettled v && v.tok.asked.isNone

/-- HEARTBEAT_WORD (R22, R109, R263, R266, R269, R277, R286, R447, R448): a word with a good CRC arrives over the bridge. -/
def execHeartbeatWord (l : LaneId) (w : HbWord) (crcOk : Bool) (s : State) : Host.Outcome State Fault Refusal :=
  let v := s.lane l
  if !crcOk || !(v.runs || v.phase == .parked) then .next s
  else
    let s := s.updLane l fun v => { v with beat := { v.beat with word := some w } }
    let s := if receives v && bit w.hflags 4 then
        applySnapshot (s.updLane l fun v => { v with mirror := { v.mirror with closed := some (w.snapLen, w.snapCrc) } }) l
      else s
    -- PARK: the gate requests of the parking go out
    let s := if v.role == .standby && bit w.hflags 5 then requestGates s l parkBlocks else s
    -- confirmation of a change of ends
    let s := match s.st.ends.s with
      | some sw => if bit w.hflags 3 && runsRole v.role && w.endsTick % 2 ^ 32 == sw % 2 ^ 32 && !s.st.ends.confirmed
          then confirmEnds s sw else s
      | none => s
    -- parking
    if v.phase == .parked then .next (if bit w.hflags 5 then s else unparkLane s l)
    -- a proposed change of ends
    else if v.role == .standby && bit w.hflags 2 then
      .next (s.updLane l fun v => { v with endsSeen := some (w.endsTick % 2 ^ 32) })
    -- roles at power-up
    else if unsettled v && w.fw != v.fw then .next (versionsDiffer s l w.fw)
    else if waitsForRole v && l == .b then
      .next (if w.role == 2 then noteRole (s.updLane l fun v => { v with role := .standby, cause := .none }) l .standby
        else if w.health == 3 then askToken s l .startUp else s)
    else if v.role == .active && v.startDone && w.role == 0 then
      .next (noteRole (s.updLane l fun v => { v with role := .solo }) l .solo)
    else .next s

/-- PARTNER_BEACON_LOST (R264, R449): a parked lane that has seen the partner's line extinguished in two consecutive groups leaves
retention, finds no ACTIVE or SOLO partner and asks for the token with no images. The station is in Occulting no more. -/
def execPartnerBeaconLost (l : LaneId) (s : State) : Host.Outcome State Fault Refusal :=
  .next (if (s.lane l).phase == .parked && lineDark s l && decide (2 ≤ (s.lane l).beat.missBeacon) && s.activeLane.isNone then
    askToken ((forgetImages (unparkLane s l)).updSt fun t => { t with power := {} }) l .startUp
  else s)

end Sys2Proof.Machine
end

