-- ==== Sys2Proof/Machine/StationState.lean ====
section
/-! DEFINITION. Entry to STOPPED (04_startup_and_configuration.md R105, R123, R124). -/

namespace Sys2Proof.Machine

/-- What a program needs of the configuration when the station discards batches: one event per batch (R92, R123, R185), and
the batch recorded with its cause (R209, R211). -/
def dropBatches (s : State) (cause : Nat) : State :=
  let bs := s.st.batches
  bs.foldl (fun s b => raiseUnnamed s .patchDropped (leBytes b.part 1 ++ leBytes b.level 1 ++ [Config.payloadCode 3 cause]))
    (s.updSt fun t => { t with batches := [] })

/-- The station enters STOPPED: recorded with its cause; the effect stands at the second edge (R105, R123, R124).
Causes: 1 STOP, 2 shot-clock action, 3 SAFE_SHUTDOWN, 4 power failure (R97). -/
def enterStopped (s : State) (cause arg : Nat) : State :=
  if s.st.phase != .running then s
  else
    let s := s.updSt fun t =>
      { t with phase := .stopped, stopCause := cause, stopArg := arg, stopAt := some (s.grid.tick + 2) }
    noteUnnamed s .stopped s.mainLane (leBytes cause 1 ++ leBytes arg 1)

end Sys2Proof.Machine
end

