-- ==== Sys2Proof/Machine/Tasks.lean ====
section
/-! DEFINITION. Tasks of the block engine: releases, pre-emption, failed periods, tolerance, memory errors
(06_block_engine_execution.md). -/

namespace Sys2Proof.Machine

def ctxOf (s : State) (l : LaneId) (n : Nat) : Ctx := (s.lane l).be.ctxs.get n {}

def updBe (s : State) (l : LaneId) (f : BlockEngine → BlockEngine) : State := s.updLane l fun v => { v with be := f v.be }

def updCtx (s : State) (l : LaneId) (n : Nat) (f : Ctx → Ctx) : State :=
  updBe s l fun b => { b with ctxs := b.ctxs.set n (f (b.ctxs.get n {})) }

def Ctx.v64 (c : Ctx) (r : VReg) : DWord := c.v.get r.val 0

def Ctx.setV (c : Ctx) (r : VReg) (x : DWord) : Ctx := { c with v := c.v.set r.val x }

def Ctx.a32 (c : Ctx) (r : AReg) : Word := c.a.get r.val 0

def Ctx.setA (c : Ctx) (r : AReg) (x : Word) : Ctx := { c with a := c.a.set r.val x }

/-- Registers at release (R187): V0 to V31 and NUMF 0, A0 the start of INST, A6 the start of CONST. -/
def relA : Tab Word := [(0, BitVec.ofNat 32 aINST), (6, BitVec.ofNat 32 aCONST)]

/-- A context as a release leaves it (R150, R154): cleared, at its first entry. A zero entry is skipped; a takeover period that is also the
task's first runs ENTRY_TAKEOVER where there is one (log entry 143). -/
def releaseCtx (t : TaskDef) (c : Ctx) : Ctx :=
  let first : EntryPart × Nat :=
    if c.takePending = true ∧ t.take ≠ 0 then (.takeover, t.take)
    else if c.initPending = true ∧ t.init ≠ 0 then (.init, t.init)
    else (.main, t.main)
  { c with phase := .ready, v := [], a := relA, numf := false, pc := first.2, part := first.1, frames := [], loops := [],
           tob := [], cyc := 0, line := none, initPending := false, takePending := false, periods := c.periods + 1 }

def levels : List Nat := [0, 1, 2, 3, 4, 5, 6, 7, 8, 9, 10, 11, 12, 13, 14, 15]

/-- The level that the block engine runs. -/
def runningLevel (s : State) (l : LaneId) : Option Nat := levels.find? fun n => (ctxOf s l n).phase == .running

/-- The highest level released and not ended (R153). -/
def topLevel (s : State) (l : LaneId) : Option Nat :=
  levels.find? fun n => let p := (ctxOf s l n).phase; p == .ready || p == .running || p == .preempted

/-- Cycles of the window at the lane's operating point. -/
def windowCycles (s : State) (l : LaneId) : Nat := beBudgetUs s.tickUs * opMHz (s.lane l).opp.op

/-- Switches to the highest level (R150, R153, R155): 8 cycles for each switch. -/
def dispatchTask (s : State) (l : LaneId) : State :=
  match topLevel s l with
  | none => s
  | some n =>
    match runningLevel s l with
    | some m =>
      if m = n then s
      else
        let s := updCtx s l m fun c => { c with phase := .preempted }
        updBe (updCtx s l n fun c => { c with phase := .running }) l fun b => { b with used := b.used + 8 }
    | none => updBe (updCtx s l n fun c => { c with phase := .running }) l fun b => { b with used := b.used + 8 }

/-- A task is selected by the tick count (R126). -/
def selects (t : TaskDef) (tick : Nat) : Bool := t.period != 0 && tick % t.period == t.phase

/-- The releases of an instant of tick T (R126, R153, R155). -/
def releaseTasks (s : State) (l : LaneId) (mx : Bool) : State :=
  let s := s.tasks.foldl (fun s t =>
    if t.readsMx == mx && selects t s.grid.tick && (ctxOf s l t.level).phase == .waiting then
      updCtx s l t.level (releaseCtx t)
    else s) s
  dispatchTask s l

/-- START's TICK (R120, R155, R162): every task is WAITING with an empty record. -/
def startTasks (s : State) (l : LaneId) : State :=
  let s := updBe s l fun b => { b with ctxs := [], overruns := 0 }
  s.tasks.foldl (fun s t => updCtx s l t.level fun _ => { phase := .waiting, initPending := true }) s

/-- STOP takes effect (R155): DORMANT; a running task is abandoned without counting a failure. -/
def stopTasks (s : State) (l : LaneId) : State :=
  updBe s l fun b => { b with ctxs := b.ctxs.map fun e =>
    (e.1, { e.2 with phase := .dormant, frames := [], tob := [], loops := [], initPending := false, takePending := false }) }

/-- Status of one task level (R178). -/
def levelStatus (c : Ctx) : List Byte :=
  let code : Nat := match c.phase with
    | .dormant => 0
    | .waiting => 1
    | .ready => 2
    | .running => 3
    | .preempted => 4
    | .halted => 5
  leBytes code 1 ++ leBytes c.lastCause 1 ++ leBytes (c.record.filter id).length 2 ++ leBytes c.totalFails 4 ++
    leBytes c.lastCycles 4 ++ leBytes c.maxCycles 4

/-- The levels' status as a tick ends (R178): 16 bytes each, 0 for a level without a task. -/
def keepLevels (s : State) (l : LaneId) : State :=
  updBe s l fun b => { b with status := levels.flatMap fun n => if (s.taskDef n).isSome then levelStatus (ctxOf s l n) else zeros 16 }

/-- EV008 (R180): level in [31:28] and the tick; raised by the lane that acts (log entry 20). -/
def taskEvent (s : State) (l : LaneId) (n code : Nat) (pay : List Byte) (limited : Bool) : State :=
  if runsRole (s.lane l).role then
    raise s { src := 8, code := code, data := dataObjTick s n, pay := pay, lane := l, obj := if limited then some n else none }
  else s

/-- A period in progress. -/
def Ctx.inPeriod (c : Ctx) : Bool := c.phase == .ready || c.phase == .running || c.phase == .preempted

/-- A period ends without commit (R155, R162, R170, R178): buffers discarded, the failure recorded and counted. -/
def abandonPeriod (s : State) (l : LaneId) (t : TaskDef) (cause : Nat) (p : TaskPhase) : State :=
  let s := updCtx s l t.level fun c =>
    let rc := (true :: c.record).take t.tolW
    { c with phase := p, frames := [], loops := [], tob := [], record := rc, lastCause := cause,
             totalFails := (c.totalFails + 1) % 2 ^ 32, lastCycles := c.cyc, maxCycles := max c.maxCycles c.cyc,
             exceeded := decide (t.tolK < (rc.filter id).length) }
  updBe s l fun b => { b with overruns := (b.overruns + 1) % 2 ^ 32 }

/-- HALTED on both lanes (R163, R177). A period that a lane still runs is abandoned with the cause that halts the task, and counted as
every abandoned period is (R155; log entry 129). -/
def haltTask (s : State) (t : TaskDef) (cause : Nat) : State :=
  bothLanes (fun s l =>
    let c := ctxOf s l t.level
    if c.phase == .dormant then s
    else if c.inPeriod then dispatchTask (abandonPeriod s l t cause .halted) l
    else updCtx s l t.level fun c => { c with phase := .halted }) s

/-- ACTION 2 decided from both lanes' records (R163, R177), in the tick after the failure: a change of ends, or ACTION 0 with the
refusal recorded. Until the change that the task has asked for is over, its failing periods only hold its outputs. -/
def roleChangeAction (s : State) (l : LaneId) (t : TaskDef) : State :=
  let c := ctxOf s l t.level
  let o := other l
  let standby := (s.lane o).role == .standby
  let again := (c.lastReq.map fun r => decide (c.periods < r + t.tolW)).getD false
  let pending := s.st.ends.levels.contains t.level && (s.st.ends.s.isSome || s.st.ends.waiting.isSome)
  if pending then s
  else if !standby || (ctxOf s o t.level).exceeded || again then
    haltTask (taskEvent s l t.level 0x13 [] false) t c.lastCause
  else
    let s := bothLanes (fun s l => updCtx s l t.level fun c => { c with lastReq := some c.periods }) s
    immediateEnds (s.updSt fun x => { x with ends := { x.ends with levels := x.ends.levels ++ [t.level] } }) .action2 none

/-- The requests of ACTION 2 at an edge. -/
def decideRoleAsks (s : State) : State :=
  let ns := s.st.roleAsks
  let s := s.updSt fun t => { t with roleAsks := [] }
  match s.activeLane with
  | none => s
  | some l => if s.st.phase != .running then s
    else ns.foldl (fun s n => match s.taskDef n with
      | none => s
      | some t => roleChangeAction s l t) s

/-- The tolerance is exceeded (R162, R163, R177): the acting lane's ACTION applies. -/
def toleranceExceeded (s : State) (l : LaneId) (t : TaskDef) (cause : Nat) : State :=
  if runsRole (s.lane l).role then
    let s := taskEvent s l t.level (0x10 + t.action) [] false
    match t.action with
    | 0 => haltTask s t cause
    | 1 => enterStopped s 2 t.level
    | _ => s.updSt fun x => { x with roleAsks := x.roleAsks.filter (fun n => n != t.level) ++ [t.level] }
  else s

/-- A period fails (R155, R162, R169, R170): it is abandoned and reported, the next task runs. -/
def failPeriod (s : State) (l : LaneId) (n cause : Nat) (pay : List Byte) : State :=
  match s.taskDef n with
  | none => s
  | some t =>
    let s := taskEvent (abandonPeriod s l t cause .waiting) l n cause pay true
    let s := if cause != 5 && (ctxOf s l n).exceeded then toleranceExceeded s l t cause else s
    dispatchTask s l

/-- Payload of a failed period's record from byte 4 on, for causes 3 and 4: address or sub-code, code offset of the bundle (R172,
R192); it is 0 for the others (R458). -/
def faultPay (x pc : Nat) : List Byte := leBytes x 4 ++ leBytes pc 4

/-- SHOT_CLOCK_EXPIRED (R161, R169): stalls and executed cycles have reached SHOT_US × 800. -/
def execShotClockExpired (l : LaneId) (s : State) : Host.Outcome State Fault Refusal :=
  .next (match runningLevel s l with
    | none => s
    | some n => match s.taskDef n with
      | none => s
      | some t =>
        let k := t.shot - (ctxOf s l n).cyc
        failPeriod (updBe (updCtx s l n fun c => { c with cyc := t.shot }) l fun b => { b with used := b.used + k }) l n 1 [])

/-- The window closes (R155, R169): every task not ended is abandoned, the lowest level first, so that none hands the engine to
another; one whose shot clock has run out by then fails with that cause. The ACTIVE lane of a confirmed change of ends releases in the dead-ball tick at this instant (R286). -/
def closeWindow (s : State) (l : LaneId) : State :=
  let close (s : State) (n : Nat) : State :=
    let c := ctxOf s l n
    if c.inPeriod then failPeriod s l n (if (s.taskDef n).any fun t => decide (t.shot ≤ c.cyc) then 1 else 2) [] else s
  if !(s.lane l).be.window then s
  else
    let s := updBe (levels.reverse.foldl close s) l fun b => { b with window := false }
    if s.st.ends.s == some s.grid.tick && s.st.ends.confirmed && runsRole (s.lane l).role then
      s.updSt fun t => { t with ends := { t.ends with released := true } }
    else s

/-- BE_WINDOW_CLOSE (R133, R155, R169). -/
def execBeWindowClose (l : LaneId) (s : State) : Host.Outcome State Fault Refusal := .next (closeWindow s l)

/-! Memory errors (R173, R174) -/

/-- EV009 code 0x0002; DATA is the image address or the code offset. -/
def memEvent (s : State) (l : LaneId) (x : Nat) : State := raise s { src := 9, code := 2, data := x % 2 ^ 32, lane := l }

/-- The instance that holds an INST word. -/
def instOfAddr (s : State) (a : Nat) : Option InstDef :=
  s.st.prog.bind fun img => (instChain img).find? fun d => aINST + d.off ≤ a && a < aINST + d.off + d.len

/-- What a SOLO lane restores (R174, R205): the instance from the template copy, a constant with its patches, code. -/
def restoreWord (s : State) (l : LaneId) (a : Nat) : State :=
  if a / 2 ^ 28 = 0xA then
    match instOfAddr s a with
    | none => s
    | some d =>
      let s := s.updLane l fun v =>
        { v with img := v.img.writeN (aINST + d.off) (v.tmpl.readN (aINST + d.off) d.len),
                 be := { v.be with poisoned := v.be.poisoned.filter fun x => !(aINST + d.off ≤ x && x < aINST + d.off + d.len) } }
      noteUnnamed s .instanceReset l (leBytes d.no 4)
  else
    let w := a / 8 * 8
    s.updLane l fun v =>
      { v with img := v.img.writeN w (v.tmpl.readN w 8), be := { v.be with poisoned := v.be.poisoned.filter fun x => x != w } }

/-- Handling of a poisoned word by role (R174). -/
def memoryByRole (s : State) (l : LaneId) (site : EccSite) : State :=
  match (s.lane l).role with
  | .standby => goOffline s l .memory
  | .active =>
    if (s.lane (other l)).role == .standby then immediateEnds s .memory (some .memory)
    else match site with
      | .image a => restoreWord s l a
      | .code o => updBe s l fun b => { b with poisonedCode := b.poisonedCode.filter fun x => x != o / 8 * 8 }
  | .solo => match site with
    | .image a => restoreWord s l a
    | .code o => updBe s l fun b => { b with poisonedCode := b.poisonedCode.filter fun x => x != o / 8 * 8 }
  | .offline => s

def poison (s : State) (l : LaneId) (site : EccSite) : State :=
  updBe s l fun b => match site with
    | .image a => { b with poisoned := if b.poisoned.contains (a / 8 * 8) then b.poisoned else b.poisoned ++ [a / 8 * 8] }
    | .code o => { b with poisonedCode := if b.poisonedCode.contains (o / 8 * 8) then b.poisonedCode else b.poisonedCode ++ [o / 8 * 8] }

def siteNo : EccSite → Nat
  | .image a => a
  | .code o => o

/-- An uncorrectable error met by the running task (R174): event, the period fails with 0x0005, then the role decides. -/
def taskMemoryError (s : State) (l : LaneId) (n : Nat) (site : EccSite) : State :=
  let s := memEvent (poison s l site) l (siteNo site)
  memoryByRole (failPeriod s l n 5 []) l site

/-- UNCORRECTABLE_ERROR (R174): found by a task's access or by a fetch. -/
def execUncorrectableError (l : LaneId) (site : EccSite) (s : State) : Host.Outcome State Fault Refusal :=
  if !(s.lane l).runs then .next s
  else match runningLevel s l with
  | some n => .next (taskMemoryError s l n site)
  | none => .next (memoryByRole (memEvent (poison s l site) l (siteNo site)) l site)

/-- A single-bit error of the instance store is corrected and counted (R173): EV009 0x0001 at most once per second, DATA the count
since the last report. -/
def noteCorrection (s : State) (l : LaneId) : State :=
  let s := updBe s l fun b => { b with corrections := b.corrections + 1 }
  let n := (s.lane l).be.corrections
  let s' := raise s { src := 9, code := 1, data := n % 2 ^ 32, lane := l, obj := some (laneNo l) }
  -- the count starts again with every report
  let last (x : State) : Nat := ((limitsOf x l).get ((9 * 65536 + 1) * 2 ^ 32 + laneNo l) ⟨0, 1⟩).withheld
  if last s' = 0 then updBe s' l fun b => { b with corrections := 0 } else s'

/-- SCRUBBER_READ (R173, R174). -/
def execScrubberRead (l : LaneId) (addr : Nat) (r : ScrubResult) (s : State) : Host.Outcome State Fault Refusal :=
  if !(s.lane l).runs then .next s
  else match r with
  | .clean => .next s
  | .uncorrectable => .next (memoryByRole (memEvent (poison s l (.image addr)) l addr) l (.image addr))
  | .corrected => .next (noteCorrection s l)

end Sys2Proof.Machine
end

