-- ==== Sys2Proof/Machine/BlockMem.lean ====
section
/-! DEFINITION. Data accesses of the block engine (06_block_engine_execution.md R165 to R174): protection, the block write
buffer and the task output buffer, and how a bundle ends. -/

namespace Sys2Proof.Machine

/-- How slot A of a bundle ends: go on, the entry or the period ends, or the period fails with a cause of R169, with the
word of the record's payload from byte 4 on and, for cause 5, the poisoned address. -/
inductive BeRes where
  /-- the context goes on; the image is changed by RETB and ITPL alone -/
  | go (c : Ctx) (img : Mem)
  /-- as `go`, with a single-bit error of the instance store corrected on the way (R173) -/
  | fixed (c : Ctx)
  /-- END of the last entry: the task output buffer is committed -/
  | done (c : Ctx) (img : Mem)
  | fail (cause word : Nat)
  /-- abandoned with part of an ITPL written (R204) -/
  | failImg (cause : Nat) (img : Mem)

/-- What slot A works on: lane image, program, the task, the context as it stood and with slot B's result written, the
cycles left of the shot clock and of the window after the bundle, those left of both before it, and which of the two ends first. -/
structure BeIn where
  s : State
  l : LaneId
  prog : List Byte
  t : TaskDef
  c0 : Ctx
  c1 : Ctx
  shotLeft : Nat
  windowLeft : Nat
  room : Nat
  byShot : Bool

def BeIn.img (x : BeIn) : Mem := (x.s.lane x.l).img

/-- Read right of an area (R171), the MX-1 range, and the configured size (R172). -/
def readOk (x : BeIn) (a n : Nat) : Bool :=
  let code := a / 2 ^ 28
  decide (1 ≤ code ∧ code ≤ 0xB) && bit x.t.rights (2 * code - 2) && addrOk x.s a n && (!inMx a n || x.t.readsMx)

/-- A word of INST or CONST at an address is poisoned (R174). -/
def poisoned (x : BeIn) (a n : Nat) : Option Nat :=
  (x.s.lane x.l).be.poisoned.find? fun w => decide (w < a + n ∧ a < w + 8)

def inRanges (rs : List (Nat × Nat)) (a n : Nat) : Bool := rs.any fun r => decide (r.1 ≤ a ∧ a + n ≤ r.1 + r.2)

/-- An INST span touches an instance header (R199). -/
def hitsHeader (prog : List Byte) (off n : Nat) : Bool := (instChain prog).any fun d => decide (d.off < off + n ∧ off < d.off + 16)

/-- Write permission (R172, R199). -/
def writeOk (x : BeIn) (a n : Nat) : Bool :=
  let code := a / 2 ^ 28
  addrOk x.s a n &&
  (if code = 0xA then inRanges x.t.ranges (a % 2 ^ 28) n && !hitsHeader x.prog (a % 2 ^ 28) n && !x.c0.frames.isEmpty
   else inRanges (x.s.st.mpu.get x.t.level []) a n)

/-- A byte of OUT that R356 and R360 leave reserved: it reads 0, whatever a task stores. -/
def outReserved (a : Nat) : Bool :=
  let o := a % 2 ^ 28
  a / 2 ^ 28 == 2 &&
    !(if o < 0x100 then decide (o % 0x80 < 0x44)
      else decide (o < 0x140 ∨ (0x200 ≤ o ∧ o < 0x280) ∨ (0x400 ≤ o ∧ o < 0x600) ∨ (0x1000 ≤ o ∧ o % 0x800 < 0x510)))

/-- One byte as the task sees it: its own buffered value, NUMF at SYS 0x140 (R179), else the committed value. -/
def seenByte (c : Ctx) (img : Mem) (a : Nat) : Byte :=
  if a = aSYS + 0x140 then (if c.numf then 1 else 0)
  else if outReserved a then 0
  else
    let own : Option Byte := if a / 2 ^ 28 = 0xA then
        match c.frames with
        | f :: _ => f.buf.get? a
        | [] => none
      else c.tob.get? a
    own.getD (img.read a)

def seenNat (c : Ctx) (img : Mem) (a : Nat) : Nat → Nat
  | 0 => 0
  | n + 1 => (seenByte c img a).toNat + 256 * seenNat c img (a + 1) n

/-- Buffers bytes, each at its address. -/
def bufBytes (t : Tab Byte) (a : Nat) : List Byte → Tab Byte
  | [] => t
  | b :: r => bufBytes (t.set a b) (a + 1) r

/-- Distinct 8-byte entries of a buffer (R165, R167). -/
def bufEntries (t : Tab Byte) : Nat := ((t.map fun e => e.1 / 8).eraseDups).length

/-- A buffer written to the image in one step; reserved bytes of OUT stay 0. -/
def commitBuf (m : Mem) (t : Tab Byte) : Mem := t.foldl (fun m e => if outReserved e.1 then m else m.write e.1 e.2) m

/-- Where an access of the base register plus DISP lies; addresses are 32 bits. -/
def beAddr (c : Ctx) (a : AReg) (disp : Nat) : Nat := ((c.a32 a).toNat + disp) % 2 ^ 32

/-- The next bundle. -/
def Ctx.step (c : Ctx) : Ctx := { c with pc := c.pc + 8 }

/-- The loops of the innermost level. -/
def Ctx.loopStack (c : Ctx) : List LoopFrame :=
  match c.frames with
  | f :: _ => f.loops
  | [] => c.loops

def Ctx.setLoops (c : Ctx) (ls : List LoopFrame) : Ctx :=
  match c.frames with
  | f :: r => { c with frames := { f with loops := ls } :: r }
  | [] => { c with loops := ls }

/-- Ends a level's period with a commit (R155, R168, R178). -/
def endPeriod (s : State) (l : LaneId) (n : Nat) (c : Ctx) (t : TaskDef) : State :=
  let rc := (false :: c.record).take t.tolW
  let s := updCtx s l n fun _ =>
    { c with phase := .waiting, frames := [], loops := [], tob := [], record := rc, lastCycles := c.cyc,
             maxCycles := max c.maxCycles c.cyc, exceeded := decide (t.tolK < (rc.filter id).length),
             lastCommit := some s.grid.tick }
  dispatchTask s l

/-- Slot B's effect on a context: both slots read before either writes (R188). Its operations take one cycle, so none of them
faults or sets NUMF. -/
def slotB (c : Ctx) : Slot → Ctx
  | .alu o t d s1 s2 imm =>
    match alu o t (c.v64 d) (c.v64 s1) (c.v64 s2) s2.val imm with
    | .val v _ => c.setV d v
    | .div0 => c
  | _ => c

/-- ILLEGAL, a bundle that does not decode; DEPTH, a ninth nesting level; DIV0; INDEX (R192). -/
def fDIV0 : Nat := 1
def fINDEX : Nat := 2
def fILLEGAL : Nat := 3
def fDEPTH : Nat := 4

/-- The cycles that a bundle has executed when it fails its period count with those before them (R161). -/
def spendCycles (s : State) (l : LaneId) (n k : Nat) (t : TaskDef) : State :=
  updBe (updCtx s l n fun c => { c with cyc := min (c.cyc + k) t.shot }) l fun b => { b with used := b.used + k }

/-- Cycles of one miss: 50 ns at the lane's operating point, 40 at OP4 (R151). -/
def missCycles (s : State) (l : LaneId) : Nat := 50 * opMHz (s.lane l).opp.op / 1000

/-- Slot A fetches from CONST. -/
def fetchesConst (c : Ctx) : Slot → Bool
  | .ld _ _ a disp => beAddr c a disp.toNat / 2 ^ 28 == 0xB
  | .lda _ a disp => beAddr c a disp.toNat / 2 ^ 28 == 0xB
  | _ => false

/-- Stalls of a bundle (R151, R161): a task that is not resident misses on every line of code that it begins in sequence or comes to by
a transfer, and on every fetch from CONST (log entry 21). -/
def stallCycles (s : State) (l : LaneId) (t : TaskDef) (c : Ctx) (slotA : Slot) : Nat :=
  if s.st.cold.contains t.level then missCycles s l * (b2n (c.line != some (c.pc / 64)) + b2n (fetchesConst c slotA)) else 0

/-- The line fetched last, once a bundle at `pc` has gone on. -/
def Ctx.fetched (c : Ctx) (pc : Nat) : Ctx := { c with line := if c.pc = pc + 8 then some (pc / 64) else none }

/-- A bundle of the running context of a lane, inside the window: `cost` is slot A's count under R190, `sa` its effect. The
shot clock is compared before the bundle completes (R161); a bundle that no longer fits the window does not end before its close,
which abandons the period with the cycles executed till then (R178). ITPL alone has an effect before it ends (R204). -/
def beBundle (l : LaneId) (slotA : Slot) (b : Word) (cost : BeIn → Nat) (sa : BeIn → BeRes) (s : State) : State :=
  match runningLevel s l, s.st.prog with
  | some n, some prog =>
    match s.taskDef n with
    | none => s
    | some t =>
      let c := ctxOf s l n
      let shot := t.shot - c.cyc
      let win := windowCycles s l - (s.lane l).be.used
      let stall := stallCycles s l t c slotA
      let x0 : BeIn := ⟨s, l, prog, t, c, c, shot, win, min shot win - stall, decide (shot ≤ win)⟩
      let k := stall + cost x0
      let part : Bool := match slotA with
        | .itpl _ _ => true
        | _ => false
      if !((s.lane l).be.window && (s.lane l).runs) then s
      else if (s.lane l).be.poisonedCode.contains c.pc then taskMemoryError s l n (.code c.pc)
      else match decodeSlot b with
        | none => failPeriod s l n 4 (faultPay fILLEGAL c.pc)
        | some sb =>
          if !bundleOk slotA sb then failPeriod s l n 4 (faultPay fILLEGAL c.pc)
          else if part = false ∧ shot < k ∧ shot ≤ win then failPeriod (spendCycles s l n shot t) l n 1 []
          else if part = false ∧ win < k then spendCycles s l n win t
          else
            let k := min k (min shot win)
            let c1 := { slotB c sb with cyc := min (c.cyc + k) t.shot }
            let x : BeIn := { x0 with c1 := c1, shotLeft := shot - k, windowLeft := win - k }
            let s1 := updBe s l fun b => { b with used := b.used + k }
            match sa x with
            | .go c2 m => updCtx (s1.updLane l fun v => { v with img := m }) l n fun _ => c2.fetched c.pc
            | .fixed c2 => noteCorrection (updCtx s1 l n fun _ => c2.fetched c.pc) l
            | .done c2 m =>
              endPeriod (updBe (s1.updLane l fun v => { v with img := m }) l fun b => { b with used := b.used + (c2.cyc - c1.cyc) })
                l n c2 t
            | .fail 5 w => taskMemoryError (spendCycles s l n k t) l n (.image w)
            | .fail cause w => failPeriod (spendCycles s l n k t) l n cause (if 3 ≤ cause then faultPay w c.pc else [])
            | .failImg cause m => failPeriod ((spendCycles s l n k t).updLane l fun v => { v with img := m }) l n cause []
  | _, _ => s

/-- An operation of format RR or RI in slot A. -/
def beAlu (l : LaneId) (o : AluOp) (t : Ty) (d s1 : VReg) (s2 : Fin 32) (imm : BitVec 11) (b : Word) (s : State) : State :=
  beBundle l (.alu o t d s1 s2 imm) b (fun _ => aluCycles o t) (fun x =>
    if !tyOk o t then .fail 4 fILLEGAL
    else match alu o t (x.c0.v64 d) (x.c0.v64 s1) (x.c0.v64 s2) s2.val imm with
      | .val v f => .go ((x.c1.setV d v).step |> fun c => { c with numf := c.numf || f }) x.img
      | .div0 => .fail 4 fDIV0) s

end Sys2Proof.Machine
end

