-- ==== Sys2Proof/Machine/BlockEngine.lean ====
section
/-! DEFINITION. The block engine's operations, one per opcode of R190. -/

namespace Sys2Proof.Machine

/-- NOP. -/
def execBeNop (l : LaneId) (b : Word) (s : State) : Host.Outcome State Fault Refusal :=
  .next (beBundle l .nop b (fun _ => 1) (fun x => .go x.c1.step x.img) s)

/-- ADD (R190, R191): D ← S1 + S2; integers wrap. -/
def execBeAdd (l : LaneId) (ty : Ty) (d s1 s2 : VReg) (b : Word) (s : State) : Host.Outcome State Fault Refusal :=
  .next (beAlu l .add ty d s1 s2 0 b s)

/-- SUB (R190, R191): D ← S1 − S2; integers wrap. -/
def execBeSub (l : LaneId) (ty : Ty) (d s1 s2 : VReg) (b : Word) (s : State) : Host.Outcome State Fault Refusal :=
  .next (beAlu l .sub ty d s1 s2 0 b s)

/-- ADDS (R190, R191): D ← S1 + S2, saturating. -/
def execBeAdds (l : LaneId) (ty : Ty) (d s1 s2 : VReg) (b : Word) (s : State) : Host.Outcome State Fault Refusal :=
  .next (beAlu l .adds ty d s1 s2 0 b s)

/-- SUBS (R190, R191): D ← S1 − S2, saturating. -/
def execBeSubs (l : LaneId) (ty : Ty) (d s1 s2 : VReg) (b : Word) (s : State) : Host.Outcome State Fault Refusal :=
  .next (beAlu l .subs ty d s1 s2 0 b s)

/-- MUL (R190, R191): D ← S1 × S2; integers wrap. -/
def execBeMul (l : LaneId) (ty : Ty) (d s1 s2 : VReg) (b : Word) (s : State) : Host.Outcome State Fault Refusal :=
  .next (beAlu l .mul ty d s1 s2 0 b s)

/-- DIV (R190, R191): D ← S1 / S2; integers truncate toward 0; DIV0. -/
def execBeDiv (l : LaneId) (ty : Ty) (d s1 s2 : VReg) (b : Word) (s : State) : Host.Outcome State Fault Refusal :=
  .next (beAlu l .div ty d s1 s2 0 b s)

/-- MOD (R190, R191): remainder with the sign of S1; DIV0. -/
def execBeMod (l : LaneId) (ty : Ty) (d s1 s2 : VReg) (b : Word) (s : State) : Host.Outcome State Fault Refusal :=
  .next (beAlu l .mod ty d s1 s2 0 b s)

/-- MIN (R190, R191): lesser of S1 and S2. -/
def execBeMin (l : LaneId) (ty : Ty) (d s1 s2 : VReg) (b : Word) (s : State) : Host.Outcome State Fault Refusal :=
  .next (beAlu l .min ty d s1 s2 0 b s)

/-- MAX (R190, R191): greater of S1 and S2. -/
def execBeMax (l : LaneId) (ty : Ty) (d s1 s2 : VReg) (b : Word) (s : State) : Host.Outcome State Fault Refusal :=
  .next (beAlu l .max ty d s1 s2 0 b s)

/-- AND (R190, R191): logical for BOOL, bitwise for integers. -/
def execBeAnd (l : LaneId) (ty : Ty) (d s1 s2 : VReg) (b : Word) (s : State) : Host.Outcome State Fault Refusal :=
  .next (beAlu l .and ty d s1 s2 0 b s)

/-- OR (R190, R191): as AND. -/
def execBeOr (l : LaneId) (ty : Ty) (d s1 s2 : VReg) (b : Word) (s : State) : Host.Outcome State Fault Refusal :=
  .next (beAlu l .or ty d s1 s2 0 b s)

/-- XOR (R190, R191): as AND. -/
def execBeXor (l : LaneId) (ty : Ty) (d s1 s2 : VReg) (b : Word) (s : State) : Host.Outcome State Fault Refusal :=
  .next (beAlu l .xor ty d s1 s2 0 b s)

/-- CEQ (R190, R191): D ← S1 = S2. -/
def execBeCeq (l : LaneId) (ty : Ty) (d s1 s2 : VReg) (b : Word) (s : State) : Host.Outcome State Fault Refusal :=
  .next (beAlu l .ceq ty d s1 s2 0 b s)

/-- CNE (R190, R191): D ← S1 ≠ S2; unordered gives true. -/
def execBeCne (l : LaneId) (ty : Ty) (d s1 s2 : VReg) (b : Word) (s : State) : Host.Outcome State Fault Refusal :=
  .next (beAlu l .cne ty d s1 s2 0 b s)

/-- CLT (R190, R191): D ← S1 < S2. -/
def execBeClt (l : LaneId) (ty : Ty) (d s1 s2 : VReg) (b : Word) (s : State) : Host.Outcome State Fault Refusal :=
  .next (beAlu l .clt ty d s1 s2 0 b s)

/-- CLE (R190, R191): D ← S1 ≤ S2. -/
def execBeCle (l : LaneId) (ty : Ty) (d s1 s2 : VReg) (b : Word) (s : State) : Host.Outcome State Fault Refusal :=
  .next (beAlu l .cle ty d s1 s2 0 b s)

/-- MOV (R190, R191): D ← S1, any type. -/
def execBeMov (l : LaneId) (ty : Ty) (d s1 : VReg) (b : Word) (s : State) : Host.Outcome State Fault Refusal :=
  .next (beAlu l .mov ty d s1 0 0 b s)

/-- NEG (R190, R191): D ← −S1; integers wrap. -/
def execBeNeg (l : LaneId) (ty : Ty) (d s1 : VReg) (b : Word) (s : State) : Host.Outcome State Fault Refusal :=
  .next (beAlu l .neg ty d s1 0 0 b s)

/-- ABS (R190, R191): integers saturate. -/
def execBeAbs (l : LaneId) (ty : Ty) (d s1 : VReg) (b : Word) (s : State) : Host.Outcome State Fault Refusal :=
  .next (beAlu l .abs ty d s1 0 0 b s)

/-- SQRT (R190, R191): REAL and LREAL. -/
def execBeSqrt (l : LaneId) (ty : Ty) (d s1 : VReg) (b : Word) (s : State) : Host.Outcome State Fault Refusal :=
  .next (beAlu l .sqrt ty d s1 0 0 b s)

/-- NOT (R190, R191): as AND, on S1. -/
def execBeNot (l : LaneId) (ty : Ty) (d s1 : VReg) (b : Word) (s : State) : Host.Outcome State Fault Refusal :=
  .next (beAlu l .not ty d s1 0 0 b s)

/-- MOVI (R190): D ← IMM11 sign-extended. -/
def execBeMovi (l : LaneId) (ty : Ty) (d : VReg) (imm : BitVec 11) (b : Word) (s : State) : Host.Outcome State Fault Refusal :=
  .next (beAlu l .movi ty d 0 0 imm b s)

/-- SHL (R190, R191): by IMM11[5:0]; a count above the width minus 1 gives 0. -/
def execBeShl (l : LaneId) (ty : Ty) (d s1 : VReg) (imm : BitVec 11) (b : Word) (s : State) : Host.Outcome State Fault Refusal :=
  .next (beAlu l .shl ty d s1 0 imm b s)

/-- SHR (R190, R191): arithmetic, by IMM11[5:0]; a count above the width minus 1 gives the sign. -/
def execBeShr (l : LaneId) (ty : Ty) (d s1 : VReg) (imm : BitVec 11) (b : Word) (s : State) : Host.Outcome State Fault Refusal :=
  .next (beAlu l .shr ty d s1 0 imm b s)

/-- CVT (R190, R191): D of type TY from S1 of the source type; saturation or a NaN sets NUMF. -/
def execBeCvt (l : LaneId) (ty : Ty) (d s1 : VReg) (src : Ty) (b : Word) (s : State) : Host.Outcome State Fault Refusal :=
  .next (beAlu l .cvt ty d s1 (Fin.ofNat 32 (tyCode src)) 0 b s)

/-- SEL (R190, R191): D ← S1 if D ≠ 0, otherwise S2. -/
def execBeSel (l : LaneId) (ty : Ty) (d s1 s2 : VReg) (b : Word) (s : State) : Host.Outcome State Fault Refusal :=
  .next (beAlu l .sel ty d s1 s2 0 b s)

/-- LD's count: 2 from INST or CONST, 3 from any other area (R190). -/
def ldCycles (a : Nat) : Nat := if a / 2 ^ 28 = 0xA ∨ a / 2 ^ 28 = 0xB then 2 else 3

/-- LD (R165, R167, R172 to R174, R190): V ← value at A + DISP. `ecc`: the instance store corrects a single-bit error in the word. -/
def execBeLd (l : LaneId) (ty : Ty) (v : VReg) (a : AReg) (disp : BitVec 13) (ecc : Bool) (b : Word) (s : State) :
    Host.Outcome State Fault Refusal :=
  let addr (x : BeIn) : Nat := beAddr x.c0 a disp.toNat
  .next (beBundle l (.ld ty v a disp) b (fun x => ldCycles (addr x)) (fun x =>
    let n := tySize ty
    if disp.toNat % n ≠ 0 then .fail 4 fILLEGAL
    else if addr x % n ≠ 0 then .fail 3 (addr x)
    else if !readOk x (addr x) n then .fail 3 (addr x)
    else match poisoned x (addr x) n with
      | some w => .fail 5 w
      | none =>
        let c := (x.c1.setV v (patReg ty (seenNat x.c0 x.img (addr x) n))).step
        if ecc && addr x / 2 ^ 28 == 0xA then .fixed c else .go c x.img) s)

/-- The bytes that ST stores (R191: BOOL stores 1 for any register value other than 0). -/
def stBytes (ty : Ty) (v : DWord) : List Byte :=
  if ty = .bool then [if v = 0 then 0 else 1] else leBytes v.toNat (tySize ty)

/-- ST (R165, R167, R172, R190): through the block write buffer or the task output buffer. -/
def execBeSt (l : LaneId) (ty : Ty) (v : VReg) (a : AReg) (disp : BitVec 13) (b : Word) (s : State) :
    Host.Outcome State Fault Refusal :=
  .next (beBundle l (.st ty v a disp) b (fun _ => 1) (fun x =>
    let addr := beAddr x.c0 a disp.toNat
    let n := tySize ty
    if disp.toNat % n ≠ 0 then .fail 4 fILLEGAL
    else if addr % n ≠ 0 then .fail 3 addr
    else if !writeOk x addr n then .fail 3 addr
    else
      let bs := stBytes ty (x.c0.v64 v)
      if addr / 2 ^ 28 = 0xA then
        match x.c1.frames with
        | f :: r => .go { x.c1 with frames := { f with buf := bufBytes f.buf addr bs } :: r }.step x.img
        | [] => .fail 3 addr
      else .go { x.c1 with tob := bufBytes x.c1.tob addr bs }.step x.img) s)

/-- LDA (R190): the 32-bit image address held in CONST. -/
def execBeLda (l : LaneId) (d a : AReg) (disp : BitVec 13) (b : Word) (s : State) : Host.Outcome State Fault Refusal :=
  .next (beBundle l (.lda d a disp) b (fun _ => 2) (fun x =>
    let addr := beAddr x.c0 a disp.toNat
    if disp.toNat % 4 ≠ 0 then .fail 4 fILLEGAL
    else if addr % 4 ≠ 0 ∨ addr / 2 ^ 28 ≠ 0xB then .fail 3 addr
    else if !readOk x addr 4 then .fail 3 addr
    else match poisoned x addr 4 with
      | some w => .fail 5 w
      | none => .go (x.c1.setA d (BitVec.ofNat 32 (seenNat x.c0 x.img addr 4))).step x.img) s)

/-- IDXC (R190): A_d ← A_s + V × 2^SCALE when V, taken unsigned, is below BOUND; fault INDEX otherwise. -/
def execBeIdxc (l : LaneId) (scale : Fin 4) (d a : AReg) (v : VReg) (boundM1 : BitVec 10) (b : Word) (s : State) :
    Host.Outcome State Fault Refusal :=
  .next (beBundle l (.idxc scale d a v boundM1) b (fun _ => 2) (fun x =>
    let i := (x.c0.v64 v).toNat
    if i ≤ boundM1.toNat then
      .go (x.c1.setA d (BitVec.ofNat 32 ((x.c0.a32 a).toNat + i * 2 ^ scale.val))).step x.img
    else .fail 4 fINDEX) s)

/-- 64-byte lines that a span touches. -/
def linesOf (a n : Nat) : Nat := if n = 0 then 0 else (a + n - 1) / 64 - a / 64 + 1

/-- The first `k` lines of a span restored from the template copy. -/
def itplImg (x : BeIn) (a n k : Nat) : Mem :=
  let m := min n ((a / 64 + k) * 64 - a)
  x.img.writeN a ((x.s.lane x.l).tmpl.readN a m)

/-- ITPL (R190, R204, R205): restores DISP words of INST from the template copy, one line at a time; when the shot clock
expires or the window closes meanwhile, a whole-line prefix has been restored. -/
def execBeItpl (l : LaneId) (a : AReg) (count : BitVec 13) (b : Word) (s : State) : Host.Outcome State Fault Refusal :=
  let addr (x : BeIn) : Nat := (x.c0.a32 a).toNat
  let lines (x : BeIn) : Nat := linesOf (addr x) (8 * count.toNat)
  .next (beBundle l (.itpl a count) b (fun x => 8 + 40 * lines x) (fun x =>
    let n := 8 * count.toNat
    let off := addr x % 2 ^ 28
    if x.c0.part = .main ∨ !x.c0.frames.isEmpty then .fail 4 fILLEGAL
    else if addr x / 2 ^ 28 ≠ 0xA ∨ addr x % 8 ≠ 0 then .fail 3 (addr x)
    else if n ≠ 0 ∧ (!inRanges x.t.ranges off n || hitsHeader x.prog off n || !addrOk x.s (addr x) n) then .fail 3 (addr x)
    else if 8 + 40 * lines x ≤ x.room then .go x.c1.step (itplImg x (addr x) n (lines x))
    else .failImg (if x.byShot then 1 else 2) (itplImg x (addr x) n ((x.room - 8) / 40))) s)

/-- The context at a branch target. -/
def Ctx.jump (c : Ctx) (off : Nat) : Ctx := { c with pc := c.pc + 8 + 8 * off }

/-- OFF counts 1 to 32 767 bundles (R189). -/
def offOk (off : BitVec 16) : Bool := decide (1 ≤ off.toNat ∧ off.toNat ≤ 32767)

/-- BRA (R190): branch forward by OFF. -/
def execBeBra (l : LaneId) (off : BitVec 16) (b : Word) (s : State) : Host.Outcome State Fault Refusal :=
  .next (beBundle l (.bra off) b (fun _ => 2) (fun x =>
    if offOk off then .go (x.c1.jump off.toNat) x.img else .fail 4 fILLEGAL) s)

/-- BRZ (R190): branch when S = 0; 2 cycles taken, 1 not. -/
def execBeBrz (l : LaneId) (v : VReg) (off : BitVec 16) (b : Word) (s : State) : Host.Outcome State Fault Refusal :=
  .next (beBundle l (.brz v off) b (fun x => if x.c0.v64 v = 0 then 2 else 1) (fun x =>
    if !offOk off then .fail 4 fILLEGAL
    else .go (if x.c0.v64 v = 0 then x.c1.jump off.toNat else x.c1.step) x.img) s)

/-- BRNZ (R190): branch when S ≠ 0. -/
def execBeBrnz (l : LaneId) (v : VReg) (off : BitVec 16) (b : Word) (s : State) : Host.Outcome State Fault Refusal :=
  .next (beBundle l (.brnz v off) b (fun x => if x.c0.v64 v = 0 then 1 else 2) (fun x =>
    if !offOk off then .fail 4 fILLEGAL
    else .go (if x.c0.v64 v = 0 then x.c1.step else x.c1.jump off.toNat) x.img) s)

/-- The code offset after the ENDL that matches a LOOP whose body starts at `pc`; `d` loops are open inside it. -/
def afterEndl (prog : List Byte) : Nat → Nat → Nat → Option Nat
  | 0, _, _ => none
  | fuel + 1, pc, d =>
    if secLen prog 1 ≤ pc then none
    else match decodeSlot (codeWords prog pc).1 with
      | some .endl => if d = 0 then some (pc + 8) else afterEndl prog fuel (pc + 8) (d - 1)
      | some (.loop _ _) => afterEndl prog fuel (pc + 8) (d + 1)
      | _ => afterEndl prog fuel (pc + 8) d

/-- LOOP (R190): runs the body S times, S taken as unsigned bits [31:0]; 0 skips it. Passing the declared bound is no fault
(R161). -/
def execBeLoop (l : LaneId) (v : VReg) (bound : BitVec 16) (b : Word) (s : State) : Host.Outcome State Fault Refusal :=
  .next (beBundle l (.loop v bound) b (fun _ => 2) (fun x =>
    let n := (x.c0.v64 v).toNat % 2 ^ 32
    if bound = 0 then .fail 4 fILLEGAL
    else if n = 0 then
      match afterEndl x.prog (secLen x.prog 1) (x.c0.pc + 8) 0 with
      | some pc => .go { x.c1 with pc := pc } x.img
      | none => .fail 4 fILLEGAL
    else .go (x.c1.setLoops (⟨x.c0.pc + 8, n⟩ :: x.c1.loopStack)).step x.img) s)

/-- ENDL (R190): one pass ends. -/
def execBeEndl (l : LaneId) (b : Word) (s : State) : Host.Outcome State Fault Refusal :=
  .next (beBundle l .endl b (fun _ => 1) (fun x =>
    match x.c1.loopStack with
    | [] => .fail 4 fILLEGAL
    | f :: r =>
      if 1 < f.left then .go { x.c1.setLoops ({ f with left := f.left - 1 } :: r) with pc := f.start } x.img
      else .go (x.c1.setLoops r).step x.img) s)

/-- CALLB (R190, R193, R194): the next nesting level with an empty write buffer. What slot B writes is saved with the caller's registers
(log entry 145). -/
def execBeCallb (l : LaneId) (a : AReg) (typeNo : BitVec 12) (b : Word) (s : State) : Host.Outcome State Fault Refusal :=
  .next (beBundle l (.callb a typeNo) b (fun _ => 6) (fun x =>
    match findType (typeDefs x.prog) typeNo.toNat with
    | none => .fail 4 fILLEGAL
    | some t =>
      if 8 ≤ x.c0.frames.length then .fail 4 fDEPTH
      else
        let f : BlockFrame := { typeNo := t.no, ret := x.c0.pc + 8, savedA := x.c1.a,
                                savedV := x.c1.v.filter fun e => decide (16 ≤ e.1) }
        .go { x.c1 with a := (x.c1.a.set 0 (x.c0.a32 a)).set 6 (BitVec.ofNat 32 (aCONST + t.ctab)), pc := t.code,
                        frames := f :: x.c1.frames } x.img) s)

/-- WRITE_WORDS of the running block's type. -/
def frameWords (x : BeIn) : Nat :=
  match x.c0.frames with
  | f :: _ => (findType (typeDefs x.prog) f.typeNo).elim 0 fun t => t.wWords
  | [] => 0

/-- Class-1 instances whose mirrored range a buffer touches (R198, R277). -/
def touchedBy (prog : List Byte) (buf : Tab Byte) : List Nat :=
  ((instChain prog).filter fun d => d.mirror == 1 && buf.any fun e =>
    decide (aINST + d.off + d.mOff ≤ e.1 ∧ e.1 < aINST + d.off + d.mOff + d.mLen)).map fun d => d.no

/-- A block commit that was made joins the snapshot of the tick (R277). -/
def noteCommit (l : LaneId) (before after : State) : State :=
  match runningLevel before l, before.st.prog with
  | some n, some prog =>
    match (ctxOf before l n).frames with
    | [] => after
    | f :: r =>
      if (ctxOf after l n).phase == .running && (ctxOf after l n).frames.length == r.length then
        after.updLane l fun v =>
          let more := (touchedBy prog f.buf).filter fun i => !v.mirror.touched.contains i
          { v with mirror := { v.mirror with touched := v.mirror.touched ++ more } }
      else after
  | _, _ => after

/-- RETB (R165, R190, R193): commits the level's buffer and restores the caller's A0 to A7 and V16 to V31. -/
def execBeRetb (l : LaneId) (b : Word) (s : State) : Host.Outcome State Fault Refusal :=
  .next (noteCommit l s (beBundle l .retb b (fun x => 4 + frameWords x) (fun x =>
    match x.c1.frames with
    | [] => .fail 4 fILLEGAL
    | f :: r =>
      .go { x.c1 with frames := r, pc := f.ret, a := f.savedA,
                      v := f.savedV.foldl (fun t e => t.set e.1 e.2) (x.c1.v.filter fun e => decide (e.1 < 16)) }
        (commitBuf x.img f.buf)) s))

/-- END (R154, R168, R190, R203): the first part hands over to ENTRY_MAIN with its output buffer and NUMF; the last ends the
task with its commit, all or nothing. A commit that no longer fits fails with the cause of the clock that would end first (log entry
144). -/
def execBeEnd (l : LaneId) (b : Word) (s : State) : Host.Outcome State Fault Refusal :=
  .next (beBundle l .endE b (fun _ => 2) (fun x =>
    if !x.c1.frames.isEmpty then .fail 4 fILLEGAL
    else if x.c0.part ≠ .main then
      .go { x.c1 with v := [], a := relA, pc := x.t.main, part := .main, loops := [] } x.img
    else
      let e := bufEntries x.c1.tob
      if min x.shotLeft x.windowLeft < e then .fail (if x.shotLeft ≤ x.windowLeft then 1 else 2) 0
      else .done { x.c1 with cyc := x.c1.cyc + e } (commitBuf x.img x.c1.tob)) s)

/-- The bundle that a lane's running context would take next: its command, or a bundle that does not decode. -/
def nextBundle (s : State) (l : LaneId) : Option (Option Instr) :=
  if !((s.lane l).be.window && (s.lane l).runs) then none
  else match runningLevel s l, s.st.prog with
    | some n, some prog =>
      let c := ctxOf s l n
      let w := codeWords prog c.pc
      some (if secLen prog 1 < c.pc + 8 then none else (decodeSlot w.1).map fun x => x.instr l w.2)
    | _, _ => none

/-- A bundle that does not decode (R192). -/
def illegalBundle (s : State) (l : LaneId) : State :=
  match runningLevel s l with
  | some n => failPeriod s l n 4 (faultPay fILLEGAL (ctxOf s l n).pc)
  | none => s

/-- The bundle that runs when no command waits: Lane A's, else Lane B's; none where neither block engine has one. -/
def engineTurn (s : State) : Option (LaneId × Option Instr) :=
  match nextBundle s .a with
  | some x => some (.a, x)
  | none => (nextBundle s .b).map fun x => (.b, x)

end Sys2Proof.Machine
end

