-- ==== Sys2Proof/Machine/Mailbox.lean ====
section
/-! DEFINITION. Attaching, sessions, the lock, subscriptions, event reads and staging (03_mailboxes_and_partitions.md). -/

namespace Sys2Proof.Machine

/-! ATTACH (R79 to R82) -/

/-- BASE and LEN_DIR of region i of an ATTACH command (R79). -/
def attachRegion (ws : List Word) (i : Nat) : Region :=
  { base := BitVec.ofNat 64 (word ws (3 + 3 * i) + 2 ^ 32 * word ws (4 + 3 * i)),
    len := fld (word ws (5 + 3 * i)) 0 30, dir := fld (word ws (5 + 3 * i)) 30 2 }

/-- The first bad field of an ATTACH; RING_REGION is read only with FINAL = 1 (R79). -/
def attachBad (ws : List Word) : Option Nat :=
  let w1 := word ws 1
  let w2 := word ws 2
  let first := fld w2 0 8
  let count := fld w2 8 8
  let ring := fld w2 16 8
  let regs := (List.range (min count 8)).flatMap fun i =>
    let r := attachRegion ws i
    [(r.base.toNat % 4 == 0, 0x0C + 12 * i), (decide (4 ≤ r.len) && r.len % 4 == 0 && r.dir != 0, 0x14 + 12 * i)]
  firstBad ([(decide (1 ≤ fld w1 0 8) && decide (fld w1 0 8 ≤ 2), 4), (decide (fld w1 8 8 < 4), 5), (fld w1 16 16 == 0, 6),
    (decide (first < 64), 8), (decide (count ≤ 8) && decide (first + count ≤ 64), 9),
    (!bit w1 8 || decide (ring < 64) || ring == 0xFF, 0x0A), (fld w2 24 8 == 0, 0x0B)] ++ regs)

/-- Ends a link grace at a fresh ATTACH: the held state is released as at detach (R79, R83). -/
def endGrace (s : State) (p : Nat) : State :=
  let q0 := s.part p
  let s := dropHoldings s p
  s.updPart p fun q => { bus := q0.bus, lane := q0.lane, thl := q0.thl, att := .attaching, main := q.main, urg := q.urg,
                         evEn := q.evEn, evIrqEn := q.evIrqEn, mbIrqEn := q.mbIrqEn }

/-- Subscription of a fresh attach: EVENT_DEFAULT by groups of 32 sources, or none before the list (R84, R94). -/
def defaultSub (s : State) (p : Nat) : BitVec 256 :=
  match s.accRec p with
  | none => 0
  | some r => BitVec.ofNat 256 ((List.range 8).foldl (fun a g => if bit (r.u 0x0C 4) g then a + (2 ^ 32 - 1) * 2 ^ (32 * g) else a) 0)

/-- The regions with those of one command declared (R79, R80). -/
def declare (ws : List Word) (t : Tab Region) : Tab Region :=
  (List.range (fld (word ws 2) 8 8)).foldl (fun t i => t.set (fld (word ws 2) 0 8 + i) (attachRegion ws i)) t

/-- The final ATTACH: ring region, then attached with role and subscription (R79, R80, R82, R94). -/
def attachFinal (s : State) (p : Nat) (ws : List Word) (resume : Bool) : State :=
  let ring := fld (word ws 2) 16 8
  let regs := declare ws (s.part p).regions
  let ok := ring == 0xFF || match regs.get? ring with
    | some r => decide (8192 ≤ r.len) && bit r.dir 1
    | none => false
  if !ok then answer s p false DMA_NO_REGION ring
  else
    let sub := defaultSub s p
    let s := s.updPart p fun q =>
      { q with att := .attached, grace := false, resuming := false, regions := regs,
               ringRegion := if ring = 0xFF then none else some ring,
               roleReq := if resume then q.roleReq else fld (word ws 1) 0 8,
               sub := if resume then q.sub else sub }
    answer s p false OK

/-- ATTACH (R79 to R82, R84, R85, R94, R111). -/
def execAttach (p : Part) (s : State) : Host.Outcome State Fault Refusal :=
  .next (serve s p 0x0010 fun s ws =>
    let q := s.part p
    let resume := bit (word ws 1) 9
    match attachBad ws with
    | some off => answer s p false BAD_FIELD off
    | none =>
      if q.att == .attached && !q.grace then answer s p false WRONG_STATE s.st.phase.code
      else if resume && !q.grace then answer s p false WRONG_STATE s.st.phase.code
      else if !s.bindingOk p q.bus q.lane then answer s p false BINDING_DENIED
      else
        let s := if q.grace && !resume then endGrace s p else s
        if bit (word ws 1) 8 then attachFinal s p ws resume
        else answer (s.updPart p fun q => { q with regions := declare ws q.regions }) p false OK)

/-! Sessions (R88) -/

/-- EV209 and EV210 DATA: the tick's low bits; what stands in [31:24] is open (log entry 14). -/
def sessionEvent (s : State) (src code p : Nat) : State :=
  raise s { src := src, code := code, data := s.grid.tick % 2 ^ 24 + Config.unnamedCode (100 + p) % 256 * 2 ^ 24,
            lane := s.mainLane }

/-- Words of a byte string, little-endian. -/
def bytesWords (bs : List Byte) : List Nat := (areaWords bs (bs.length / 4)).map fun w => w.toNat

/-- Phase 1: salt of the password seal and a fresh nonce, which SK-1 issues (R88, R417). -/
def sessionPhase1 (s : State) (p : Nat) : State :=
  match passwordSeal s with
  | none => answer s p false NO_SEAL
  | some (salt, _) =>
    let (n, s) := s.takeFree
    let nonce := (List.range 32).map fun i => Config.nonceByte n i
    let s := s.updPart p fun q => { q with nonce := some nonce }
    answer s p false OK 0 0 (bytesWords (salt ++ nonce))

/-- Phase 2: the proof against V, by the lane and by SK-1 (R417); five wrong proofs in a row lock out all proofs (R88). A proof
without a nonce of its own phase 1, or with one already used, counts as wrong (log entry 112). -/
def sessionPhase2 (s : State) (p : Nat) (ws : List Word) : State :=
  if s.st.lockout then
    answer s p false AUTH_LOCKOUT (60 - min 60 ((s.grid.mono - s.st.lockoutAt) / 1000000000))
  else
    let proof := wordBytes ((ws.drop 2).take 4)
    let good := match passwordSeal s, (s.part p).nonce with
      | some (_, v), some n =>
        (hmac256 v (n ++ leBytes p 1)).take 16 == proof &&
          (s.sk.pw.elim false fun k => (hmac256 k.2 (n ++ leBytes p 1)).take 16 == proof)
      | _, _ => false
    let s := s.updPart p fun q => { q with nonce := none }
    if good then
      let s := s.updSt fun t => { t with wrongProofs := 0 }
      answer (sessionEvent (s.updPart p fun q => { q with session := true }) 209 1 p) p false OK
    else
      let n := s.st.wrongProofs + 1
      let s := s.updSt fun t =>
        { t with wrongProofs := n, lockout := decide (5 ≤ n), lockoutAt := if 5 ≤ n then s.grid.mono else t.lockoutAt }
      let s := sessionEvent s 210 1 p
      let s := if 5 ≤ n then sessionEvent s 210 2 p else s
      answer s p false AUTH_FAILED n

/-- SESSION_OPEN (R88). -/
def execSessionOpen (p : Part) (s : State) : Host.Outcome State Fault Refusal :=
  .next (serve s p 0x0011 fun s ws =>
    needOperator s p false
      (if (s.accRec p).elim false fun r => !bit (r.u 0x0A 1) 0 then answer s p false ROLE_DENIED (s.roleOf p)
       else if word ws 1 = 1 ∧ ws.length = 2 then sessionPhase1 s p
       else if word ws 1 = 2 ∧ ws.length = 6 then sessionPhase2 s p ws
       else answer s p false BAD_FIELD 4))

/-- Closes a session (R88). -/
def closeSession (s : State) (p : Nat) : State :=
  if (s.part p).session then sessionEvent (s.updPart p fun q => { q with session := false, nonce := none }) 209 2 p else s

/-- SESSION_CLOSE (R88). -/
def execSessionClose (p : Part) (s : State) : Host.Outcome State Fault Refusal :=
  .next (serve s p 0x0012 fun s _ =>
    if (s.part p).session then answer (closeSession s p) p false OK else answer s p false AUTH_REQUIRED)

/-- SESSION_IDLE_TIMEOUT (R88): 60 min without a command that needs the session. -/
def execSessionIdleTimeout (p : Part) (s : State) : Host.Outcome State Fault Refusal := .next (closeSession s p)

/-- AUTH_LOCKOUT_END (R88). -/
def execAuthLockoutEnd (s : State) : Host.Outcome State Fault Refusal :=
  .next (if s.st.lockout then s.updSt fun t => { t with lockout := false, wrongProofs := 0 } else s)

/-! The configuration lock (R86) -/

/-- Grants the lock to a partition; the grant is recorded. -/
def grantLock (s : State) (p : Nat) : State :=
  noteUnnamed (s.updSt fun t => { t with lock := some p }) .lockGrant s.mainLane (leBytes p 1)

/-- LOCK_ACQUIRE (R86). TAKE = 1 needs a SAFETY session on a free lock too, and a MAX_ROLE below 3 ends with ROLE_DENIED (log
entry 113). -/
def execLockAcquire (p : Part) (s : State) : Host.Outcome State Fault Refusal :=
  .next (serve s p 0x0013 fun s ws =>
    let owner := s.st.access.isNone || s.maxRole p == 3
    if word ws 1 / 2 ≠ 0 then answer s p false BAD_FIELD 4
    else if !owner then answer s p false ROLE_DENIED (s.roleOf p)
    else match s.st.lock with
      | none =>
        if bit (word ws 1) 0 && !(s.part p).session then answer s p false AUTH_REQUIRED
        else answer (grantLock s p) p false OK
      | some h =>
        if !bit (word ws 1) 0 then answer s p false LOCK_HELD h
        else if !(s.part p).session then answer s p false AUTH_REQUIRED
        else if s.maxRole p != 3 then answer s p false ROLE_DENIED (s.roleOf p)
        else if h = p then answer s p false OK
        else
          let s := tellUnnamed (dropLock s) h .lockTaken
          let s := noteUnnamed s .lockTaken s.mainLane (leBytes p 1 ++ leBytes h 1)
          answer (grantLock s p) p false OK)

/-- LOCK_RELEASE (R86). -/
def execLockRelease (p : Part) (s : State) : Host.Outcome State Fault Refusal :=
  .next (serve s p 0x0014 fun s _ =>
    needLock s p false (answer (noteUnnamed (dropLock s) .lockRelease s.mainLane (leBytes p 1)) p false OK))

/-! Events (R94, R95) -/

/-- EVENT_SUBSCRIBE (R94): the mask replaces the subscription at the next edge; EV240 and EV241 are ignored. -/
def execEventSubscribe (p : Part) (s : State) : Host.Outcome State Fault Refusal :=
  .next (serve s p 0x0015 fun s ws =>
    let mask := leNat (wordBytes ((ws.drop 1).take 8))
    let s := s.updPart p fun q => { q with subNext := some (BitVec.ofNat 256 mask) }
    respond s p false OK 0 0 ((s.grid.tick + 1) % 2 ^ 32))

/-- The entry of ring count c as two words (R65). A count that no entry of this ring has had yet reads 0 (log entry 135). -/
def entryWords (q : Partition) (c : Nat) : List Nat :=
  match q.ring.get? (c % 1024) with
  | none => [0, 0]
  | some e => [rdU (leBytes e.src 1 ++ leBytes c 1 ++ leBytes e.code 2) 0 4, e.data % 2 ^ 32]

/-- EVENT_READ (R95). -/
def execEventRead (p : Part) (s : State) : Host.Outcome State Fault Refusal :=
  .next (serve s p 0x0016 fun s ws =>
    let q := s.part p
    let first := fld (word ws 1) 0 16
    let count := fld (word ws 1) 16 8
    let avail := (q.head + 65536 - first) % 65536
    if 1024 < avail then answer s p false BAD_FIELD 4 q.head
    else if count = 0 ∨ 14 < count then answer s p false BAD_FIELD 6
    else if fld (word ws 1) 24 8 ≠ 0 then answer s p false BAD_FIELD 7
    else
      let n := min count avail
      answer s p false OK n q.head ((List.range n).flatMap fun i => entryWords q ((first + i) % 65536)))

/-! Staging (R89, R91) -/

/-- Staging sizes of targets 1 to 4 (R89). -/
def stagingSize : Nat → Nat
  | 1 => 16 * 2 ^ 20
  | 2 => 64 * 2 ^ 20
  | 3 => 2 ^ 20
  | _ => 64 * 2 ^ 10

def targetOk (t : Nat) : Bool := decide (1 ≤ t) && decide (t ≤ 4)

/-- CONFIG_BEGIN (R89). -/
def execConfigBegin (p : Part) (s : State) : Host.Outcome State Fault Refusal :=
  .next (serve s p 0x0020 fun s ws =>
    needLock s p false
      (let t := word ws 1
       let n := word ws 2
       if !targetOk t then answer s p false BAD_FIELD 4
       else if n % 4 ≠ 0 then answer s p false BAD_FIELD 8
       else if stagingSize t < n then answer s p false STAGING_FULL (stagingSize t)
       else answer (s.updSt fun st => { st with stage := st.stage.set t ⟨p, n, [], []⟩ }) p false OK))

/-- CONFIG_ABORT (R91). -/
def execConfigAbort (p : Part) (s : State) : Host.Outcome State Fault Refusal :=
  .next (serve s p 0x0023 fun s ws =>
    needLock s p false
      (if !targetOk (word ws 1) then answer s p false BAD_FIELD 4
       else answer (s.updSt fun st => { st with stage := st.stage.erase (word ws 1) }) p false OK))

/-! Host links (R82) -/

/-- HOST_LINK_LOST (R82): an attached partition enters its grace with ring, role, lock and session held; its DMA regions
must be declared again. A partition that is attaching falls back to detached. -/
def execHostLinkLost (p : Part) (s : State) : Host.Outcome State Fault Refusal :=
  .next (match (s.part p).att with
    | .attached =>
      s.updPart p fun q => { q with att := .attaching, grace := true, resuming := false, regions := [], ringRegion := none }
    | .attaching => if (s.part p).grace then s else s.updPart p fun q => { q with att := .detached, regions := [] }
    | _ => s)

/-- LINK_GRACE_EXPIRED (R82, R83). -/
def execLinkGraceExpired (p : Part) (s : State) : Host.Outcome State Fault Refusal :=
  .next (if (s.part p).grace then startDetach s p else s)

end Sys2Proof.Machine
end

