-- ==== Sys2Proof/Machine/Trace.lean ====
section
/-! DEFINITION. Static analysis of block-engine code at load (07_block_programs_and_instances.md R187, R196, R197): control
flow, address tracing, worst-case counts. Bundles are numbered from the start of CODE. -/

namespace Sys2Proof.Machine

/-- What an address register can hold over the paths to a bundle (R196): absolute image addresses, offsets within the block's own
instance, and anything that does not trace. -/
structure AVal where
  abs : List Nat := []
  own : List Nat := []
  other : Bool := false
  deriving DecidableEq, Repr

/-- A register of which nothing is known. -/
def AVal.none : AVal := { other := true }

def unionNat (a b : List Nat) : List Nat := b.foldl (fun t x => if t.contains x then t else t ++ [x]) a

def AVal.join (a b : AVal) : AVal := ⟨unionNat a.abs b.abs, unionNat a.own b.own, a.other || b.other⟩

abbrev ARegs := Tab AVal

def joinRegs (a b : ARegs) : ARegs := (List.range 8).map fun r => (r, (a.get r .none).join (b.get r .none))

/-- A decoded bundle: its two slots. -/
abbrev Bundles := List (Slot × Slot)

def slotA (bs : Bundles) (i : Nat) : Slot := (bs.getD i (.nop, .nop)).1

/-- A region of code: a block type's bundles `lo` to `hi`, or the code of an entry from `start` on. -/
structure Rgn where
  isType : Bool
  start : Nat
  lo : Nat
  hi : Nat
  deriving DecidableEq, Repr

/-- Bundles of the region's successors, and whether each is a taken transfer; a LOOP's skip is added with the match. -/
def succs (bs : Bundles) (i : Nat) : List Nat :=
  match slotA bs i with
  | .bra off => [i + 1 + off.toNat]
  | .brz _ off => [i + 1, i + 1 + off.toNat]
  | .brnz _ off => [i + 1, i + 1 + off.toNat]
  | .retb => []
  | .endE => []
  | _ => [i + 1]

/-- Bundles reachable from `start` by forward flow, in ascending order; every transfer is forward, so one ascending pass
finds them. -/
def reachable (bs : Bundles) (r : Rgn) : List Nat :=
  (((List.range (r.hi - r.start)).foldl (fun (t : Tab Bool) k =>
    let i := r.start + k
    if t.get i false then (succs bs i).foldl (fun t j => if j < r.hi then t.set j true else t) t else t)
    ([(r.start, true)] : Tab Bool)).map fun e => e.1)

/-- The loops that stand open at a bundle, innermost first, by their LOOP's number; and the matches of LOOP and ENDL. -/
structure LoopMap where
  ctx : Tab (List Nat)
  close : Tab Nat
  bad : Option Nat
  stack : List Nat
  deriving DecidableEq, Repr

/-- Lexical pairing of LOOP and ENDL over bundles `a` to `b` (R196): nested at most 4 deep. -/
def loopMap (bs : Bundles) (a b : Nat) : LoopMap :=
  let m := (List.range (b - a)).foldl (fun (m : LoopMap) k =>
    let i := a + k
    let m := { m with ctx := m.ctx.set i m.stack }
    match slotA bs i with
    | .loop _ _ =>
      let m := { m with stack := i :: m.stack }
      if 4 < m.stack.length ∧ m.bad = Option.none then { m with bad := some i } else m
    | .endl =>
      match m.stack with
      | [] => if m.bad.isNone then { m with bad := some i } else m
      | x :: r => { m with stack := r, close := m.close.set x i }
    | _ => m) ⟨[], [], Option.none, []⟩
  match m.bad, m.stack with
  | Option.none, x :: _ => { m with bad := some x }
  | _, _ => m

/-- Code ranges of the block types, in bundles. -/
def typeRanges (ts : List TypeDef) : List (Nat × Nat) := ts.map fun t => (t.code / 8, (t.code + t.len) / 8)

def inTypes (rs : List (Nat × Nat)) (i : Nat) : Bool := rs.any fun r => decide (r.1 ≤ i ∧ i < r.2)

/-- The bundles that a region's rules hold for (R196): every one of a block type; of an entry, whose end no field gives, those that
it reaches. -/
def bundlesOf (bs : Bundles) (r : Rgn) : List Nat :=
  if r.isType then (List.range (r.hi - r.lo)).map fun k => r.lo + k else reachable bs r

/-- Where a bundle branches to. -/
def branches (bs : Bundles) (i : Nat) : List Nat :=
  match slotA bs i with
  | .bra off => [i + 1 + off.toNat]
  | .brz _ off => [i + 1 + off.toNat]
  | .brnz _ off => [i + 1 + off.toNat]
  | _ => []

/-- The first bundle of a region that breaks a flow rule of R196 or R203: a branch out of the region, a path that leaves it without
its end, a wrong end, unpaired loops, a branch into or out of a loop body, an end inside one. -/
def flowBad (bs : Bundles) (rs : List (Nat × Nat)) (r : Rgn) : Option Nat :=
  let re := reachable bs r
  let last := re.foldl max r.start
  let lm := if r.isType then loopMap bs r.lo r.hi else loopMap bs r.start (last + 1)
  let bad (i : Nat) : Bool :=
    let cx := lm.ctx.get i []
    let ends := match slotA bs i with
      | .retb => !r.isType || !cx.isEmpty
      | .endE => r.isType || !cx.isEmpty
      | _ => false
    let out := (if re.contains i then succs bs i else branches bs i).any fun j =>
      !(r.lo ≤ j && j < r.hi) || (!r.isType && inTypes rs j)
    let cross := (branches bs i).any fun j => lm.ctx.get j [] != cx
    ends || out || cross
  (lm.bad.toList ++ (bundlesOf bs r).filter bad).min?

/-- The 32-bit word of CONST at an image address, when it lies in CONST. -/
def constWord (cst : List Byte) (a : Nat) : Option Nat :=
  if a / 2 ^ 28 = 0xB ∧ a % 2 ^ 28 + 4 ≤ cst.length then some (rdU cst (a % 2 ^ 28) 4) else Option.none

def ldaVal (cst : List Byte) (v : AVal) (disp : Nat) : AVal :=
  let ws := v.abs.map fun a => constWord cst (a + disp)
  { abs := unionNat [] (ws.filterMap id), other := v.other || !v.own.isEmpty || ws.any fun w => w.isNone }

def idxVal (v : AVal) (scale bm1 : Nat) : AVal :=
  let spread (as : List Nat) : List Nat := unionNat [] (as.flatMap fun a => (List.range (bm1 + 1)).map fun k => a + k * 2 ^ scale)
  { v with abs := spread v.abs, own := spread v.own }

/-- The address registers after slot A; CALLB leaves the caller's as they stood, since RETB restores them (R193). -/
def traceStep (cst : List Byte) (x : Slot) (s : ARegs) : ARegs :=
  match x with
  | .lda d a disp => s.set d.val (ldaVal cst (s.get a.val .none) disp.toNat)
  | .idxc sc d a _ bm1 => s.set d.val (idxVal (s.get a.val .none) sc.val bm1.toNat)
  | _ => s

/-- One ascending pass over the reachable bundles; a loop's body start joins what its ENDL hands back. -/
def tracePass (cst : List Byte) (bs : Bundles) (re : List Nat) (lm : LoopMap) (t : Tab ARegs) : Tab ARegs :=
  re.foldl (fun t i =>
    match t.get? i with
    | Option.none => t
    | some s =>
      let o := traceStep cst (slotA bs i) s
      let back := match slotA bs i with
        | .endl => match lm.close.find? fun e => e.2 == i with
          | some e => [e.1 + 1]
          | Option.none => []
        | .loop _ _ => match lm.close.get? i with
          | some e => [e + 1]
          | Option.none => []
        | _ => []
      (succs bs i ++ back).foldl (fun t j =>
        t.set j (match t.get? j with
          | Option.none => joinRegs o o
          | some old => joinRegs old o)) t) t

def traceFix (cst : List Byte) (bs : Bundles) (re : List Nat) (lm : LoopMap) : Nat → Tab ARegs → Option (Tab ARegs)
  | 0, _ => Option.none
  | n + 1, t =>
    let t' := tracePass cst bs re lm t
    if t' = t then some t else traceFix cst bs re lm n t'

/-- Address registers on entry to a region. Entry code starts with the release values (R187); a block knows A0, its own instance, and
A6, its constant table; the others are its caller's `inh` (R193). -/
def entryRegs (r : Rgn) (ctab : Nat) (inh : ARegs) : ARegs :=
  (List.range 8).map fun i => (i,
    if r.isType then (if i = 0 then { own := [0] } else if i = 6 then { abs := [aCONST + ctab] } else inh.get i .none)
    else if i = 0 then { abs := [aINST] } else if i = 6 then { abs := [aCONST] } else { abs := [0] })

def regionLoops (bs : Bundles) (r : Rgn) (re : List Nat) : LoopMap :=
  if r.isType then loopMap bs r.lo r.hi else loopMap bs r.start (re.foldl max r.start + 1)

/-- Address registers on entry to each bundle. For the rules of R196 nothing inherited is traced. -/
def traceRegs (cst : List Byte) (bs : Bundles) (r : Rgn) (ctab : Nat) (inh : ARegs := []) : Tab ARegs :=
  let re := reachable bs r
  (traceFix cst bs re (regionLoops bs r re) 300 [(r.start, entryRegs r ctab inh)]).getD []

/-- As `traceRegs`, over every bundle of the region: code that no path reaches starts with the region's own registers. -/
def traceAll (cst : List Byte) (bs : Bundles) (r : Rgn) (s0 : ARegs) : Nat → Tab ARegs → Tab ARegs
  | 0, t => t
  | n + 1, t =>
    let re := bundlesOf bs r
    match re.find? fun i => (t.get? i).isNone with
    | Option.none => t
    | some i => traceAll cst bs r s0 n ((traceFix cst bs re (regionLoops bs r re) 300 (t.set i s0)).getD [])

/-- What a region's code does, as traced: stores to its own instance and to absolute addresses as (bundle, address or offset,
length); stores that do not trace; ITPL spans; reads of CONST; calls; loaded addresses. -/
structure Effects where
  own : List (Nat × Nat × Nat) := []
  outs : List (Nat × Nat × Nat) := []
  untraced : List Nat := []
  itpl : List (Nat × Nat × Nat) := []
  consts : List (Nat × Nat) := []
  calls : List (Nat × Nat × AVal) := []
  /-- what each LDA that traces can load, as (bundle, word) -/
  ldas : List (Nat × Nat) := []
  /-- the LD bundles that read INST or CONST alone -/
  fast : List Nat := []
  /-- bundles that can read CONST, and those of them whose address is not known -/
  cread : List Nat := []
  wild : List Nat := []
  deriving DecidableEq, Repr

def effectOf (cst : List Byte) (bs : Bundles) (t : Tab ARegs) (e : Effects) (i : Nat) : Effects :=
  let reg (a : AReg) : AVal := (t.get i []).get a.val .none
  let wild (v : AVal) : List Nat := if v.other then [i] else []
  match slotA bs i with
  | .st ty _ a disp =>
    let v := reg a
    { e with own := e.own ++ v.own.map (fun o => (i, o + disp.toNat, tySize ty)),
             outs := e.outs ++ v.abs.map (fun o => (i, o + disp.toNat, tySize ty)), untraced := e.untraced ++ wild v }
  | .itpl a n =>
    let v := reg a
    { e with itpl := e.itpl ++ (v.abs ++ v.own).map (fun o => (i, o, 8 * n.toNat)), untraced := e.untraced ++ wild v }
  | .ld ty _ a disp =>
    let v := reg a
    let xs := v.abs.map fun o => o + disp.toNat
    let cs := xs.filter fun x => x / 2 ^ 28 == 0xB
    let fast := !v.other && xs.all fun x => x / 2 ^ 28 == 0xA || x / 2 ^ 28 == 0xB
    { e with fast := if fast then e.fast ++ [i] else e.fast, consts := e.consts ++ cs.map (fun x => (x, tySize ty)),
             cread := if v.other || !cs.isEmpty then e.cread ++ [i] else e.cread, wild := e.wild ++ wild v }
  | .lda _ a disp =>
    let v := reg a
    { e with consts := e.consts ++ v.abs.map (fun x => (x + disp.toNat, 4)),
             cread := if v.other || !v.abs.isEmpty then e.cread ++ [i] else e.cread, wild := e.wild ++ wild v,
             ldas := e.ldas ++ v.abs.filterMap fun x => (constWord cst (x + disp.toNat)).map fun w => (i, w) }
  | .callb a n => { e with calls := e.calls ++ [(i, n.toNat, reg a)] }
  | _ => e

def effects (cst : List Byte) (bs : Bundles) (r : Rgn) (ctab : Nat) : Effects :=
  let t := traceRegs cst bs r ctab
  (reachable bs r).foldl (effectOf cst bs t) {}

/-- Effects of every bundle of a region, whether a path reaches it or not: what R196 holds for. -/
def allEffects (cst : List Byte) (bs : Bundles) (r : Rgn) (ctab : Nat) : Effects :=
  let re := bundlesOf bs r
  (re.foldl (effectOf cst bs (traceAll cst bs r (entryRegs r ctab []) re.length (traceRegs cst bs r ctab))) {})

/-! Worst-case counts (R197) -/

/-- What a count needs: callee counts, the RETB words or the END entries, whether fetches miss (R151). -/
structure CountIn where
  eff : Effects
  callee : Nat → Nat
  retb : Nat
  endE : Nat
  miss : Bool

/-- A miss on entering bundle `i`: in sequence when it begins a 64-byte line, always after a transfer (log entry 21). -/
def entryMiss (c : CountIn) (taken : Bool) (i : Nat) : Nat := if c.miss && (taken || i % 8 == 0) then 40 else 0

/-- Slot A's count at OP4, its constant fetch included: a fetch from CONST of a task that is not resident takes longer than a read
of any other area (R190, R197). -/
def slotCost (c : CountIn) (x : Slot) (i : Nat) : Nat :=
  let cold := c.miss && c.eff.cread.contains i
  match x with
   | .alu o t _ _ _ _ => aluCycles o t
   | .ld _ _ _ _ => if cold then 42 else if c.eff.fast.contains i then 2 else 3
   | .lda _ _ _ => if cold then 42 else 2
   | .idxc _ _ _ _ _ => 2
   | .itpl _ _ => 8 + 40 * (c.eff.itpl.foldl (fun m e => if e.1 = i then max m
       (if e.2.2 = 0 then 0 else (e.2.1 + e.2.2 - 1) / 64 - e.2.1 / 64 + 1) else m) 0)
   | .callb _ n => 6 + c.callee n.toNat
   | .retb => 4 + c.retb
   | .endE => 2 + c.endE
   | .bra _ => 2
   | .loop _ _ => 2
   | _ => 1

/-- Longest path from each bundle to the end of its loop body, entry or block; bundles are taken in descending order. -/
def longestFrom (c : CountIn) (bs : Bundles) (lm : LoopMap) (re : List Nat) : Tab Nat :=
  re.reverse.foldl (fun (t : Tab Nat) i =>
    let x := slotA bs i
    let k := slotCost c x i
    let next (j : Nat) (taken : Bool) : Nat := entryMiss c taken j + t.get j 0
    let ret : Bool := match x with
      | .callb _ _ => true
      | _ => false
    t.set i (match x with
      | .endl => 0
      | .retb => k
      | .endE => k
      | .bra off => k + next (i + 1 + off.toNat) true
      | .brz _ off => max (2 + next (i + 1 + off.toNat) true) (1 + next (i + 1) false)
      | .brnz _ off => max (2 + next (i + 1 + off.toNat) true) (1 + next (i + 1) false)
      | .loop _ bound =>
        let e := lm.close.get i i
        k + bound.toNat * (next (i + 1) true + 1 + entryMiss c false e) + next (e + 1) false
      | _ => k + next (i + 1) ret)) []

/-- Worst-case count of a region. -/
def wcetOf (c : CountIn) (bs : Bundles) (r : Rgn) : Nat :=
  let re := reachable bs r
  let lm := regionLoops bs r re
  entryMiss c true r.start + (longestFrom c bs lm re).get r.start 0

end Sys2Proof.Machine
end

