-- ==== Sys2Proof/Machine/ProgCheck.lean ====
section
/-! DEFINITION. The checks of a program commit (07 R181 to R204, 06 R152, R156 to R159, 10 R276), in the order of R185. -/

namespace Sys2Proof.Machine

/-- How a commit fails: status, DETAIL0, DETAIL1, DATA words. -/
structure Reject where
  status : Nat
  d0 : Nat := 0
  d1 : Nat := 0
  data : List Nat := []
  deriving DecidableEq, Repr

abbrev Check := Option Reject

def badRec (off : Nat) : Check := some ⟨BAD_RECORD, off, 0, []⟩

/-- The first entry of a list that fails, named by its image offset. -/
def eachBad {α : Type} (xs : List α) (off : α → Nat) (ok : α → Bool) : Check :=
  (xs.find? fun x => !ok x).bind fun x => badRec (off x)

/-- BAD_RECORD names the first failing record (R115). -/
def lowestBad (offs : List Nat) : Check := offs.min?.bind badRec

def isZero (bs : List Byte) : Bool := bs.all fun b => b == 0

/-- ASCII, NUL-padded. -/
def asciiPad (bs : List Byte) : Bool :=
  let t := bs.dropWhile fun b => b != 0 && decide (b.toNat < 128)
  isZero t

/-- The CRC-32C trailer of an image matches (R14, R181). -/
def trailerOk (img : List Byte) : Bool :=
  decide (4 ≤ img.length) && crc32c (img.take (img.length - 4)) == leNat (img.drop (img.length - 4))

/-! Trailer and signature (R183, R184) -/

def signatureOk (rs : List CfgRec) (img : List Byte) : Bool :=
  let o := secOff img 6
  decide (200 ≤ img.length) && secLen img 6 == 68 && decide (128 ≤ o) && o % 8 == 0 && o + 72 == img.length &&
  match findRec rs 0x0102 0 with
  | none => false
  | some k =>
    let i := rdU img o 1
    decide (i < k.u 8 1) &&
    ed25519Verify ((k.bytes.drop (0x0C + 32 * i)).take 32) (img.take o) ((img.drop (o + 4)).take 64)

def checkSigned (rs : List CfgRec) (img : List Byte) : Check :=
  if trailerOk img && signatureOk rs img then none else some ⟨IMAGE_CHECK, 0, 0, []⟩

/-! Header and section layout (R181, R182) -/

def headerFields (img : List Byte) (total : Nat) : List (Bool × Nat) :=
  let u (o n : Nat) : Nat := rdU img o n
  [(u 0 4 == 0x50535044, 0x00), (u 4 2 == 1, 0x04), (u 6 2 == 128, 0x06), (u 8 4 == total && decide (total ≤ 67108864), 0x08),
   (u 0x0C 4 == 0, 0x0C), (asciiPad ((img.drop 0x10).take 16), 0x10),
   (decide (16 ≤ instSize img ∧ instSize img ≤ 16777216) && instSize img % 8 == 0, 0x60),
   (decide (constSize img ≤ 16777216) && constSize img % 8 == 0, 0x64),
   (decide (mirrorBytesField img ≤ 524288), 0x6C), (isZero ((img.drop 0x74).take 12), 0x74)]

/-- The length that a section may have; the reserved bytes of SIGNATURE are 0 (R183). -/
def sectionLenOk (img : List Byte) (k : Nat) : Bool :=
  let n := secLen img k
  match k with
  | 0 => n % 32 == 0 && decide (32 ≤ n ∧ n ≤ 32 * 4096)
  | 1 => n % 8 == 0 && decide (8 ≤ n ∧ n ≤ 33554432)
  | 2 => n == constSize img
  | 3 => n == instSize img
  | 4 => n % 96 == 0 && decide (96 ≤ n ∧ n ≤ 96 * 16)
  | 5 => n % 32 == 0 && decide (n ≤ 32 * 65536)
  | _ => n == 68 && isZero ((img.drop (secOff img 6 + 1)).take 3)

/-- Section `k` follows the one before it on an 8-byte boundary, with zero padding between, inside the image. -/
def sectionOk (img : List Byte) (k : Nat) : Bool :=
  let prev := if k = 0 then 128 else secOff img (k - 1) + secLen img (k - 1)
  let o := secOff img k
  o % 8 == 0 && decide (prev ≤ o) && decide (o + secLen img k + 4 ≤ img.length) && isZero ((img.drop prev).take (o - prev)) &&
  sectionLenOk img k

def checkHeader (img : List Byte) (total : Nat) : Check :=
  match (headerFields img total).find? fun e => !e.1 with
  | some e => badRec e.2
  | none => ((List.range 7).find? fun k => !sectionOk img k).bind fun k => badRec (0x28 + 8 * k)

/-! Types and code (R188, R195, R196) -/

/-- Every bundle of CODE, and whether it decodes. -/
def decodeCode (img : List Byte) : List (Option (Slot × Slot)) :=
  (List.range (secLen img 1 / 8)).map fun i =>
    let w := codeWords img (8 * i)
    match decodeSlot w.1, decodeSlot w.2 with
    | some a, some b => if bundleOk a b then some (a, b) else none
    | _, _ => none

def bundleOff (img : List Byte) (i : Nat) : Nat := secOff img 1 + 8 * i

def typeFieldsOk (img : List Byte) (ts : List TypeDef) (t : TypeDef) : Bool :=
  let e := (img.drop t.off).take 32
  decide (t.no ≤ 4095) && (ts.find? fun u => u.no == t.no).elim false (fun u => u.off == t.off) && t.ver != 0 && rdU e 3 1 == 0 &&
  t.code % 8 == 0 && t.len % 8 == 0 && t.len != 0 && decide (t.code + t.len ≤ secLen img 1) &&
  decide (t.ctab < constSize img) && t.ctab % 4 == 0 && decide (16 ≤ t.instLen ∧ t.instLen ≤ 65528) && t.instLen % 8 == 0 &&
  decide (t.wWords ≤ 128) && decide (1 ≤ t.depth ∧ t.depth ≤ 8) && isZero (e.drop 0x18)

def typeRgn (t : TypeDef) : Rgn := ⟨true, t.code / 8, t.code / 8, (t.code + t.len) / 8⟩

def entryRgn (img : List Byte) (e : Nat) : Rgn := ⟨false, e / 8, 0, secLen img 1 / 8⟩

/-- A type with its effects over every bundle of its code (R196). -/
def typeAll (img : List Byte) (bs : Bundles) (t : TypeDef) : TypeDef × Effects :=
  (t, allEffects (section_ img 2) bs (typeRgn t) t.ctab)

/-- Effects of every type's code, in table order. -/
def typeEffects (img : List Byte) (bs : Bundles) (ts : List TypeDef) : List (TypeDef × Effects) :=
  ts.map fun t => (t, effects (section_ img 2) bs (typeRgn t) t.ctab)

/-- A store to an absolute address may stand (R13, R196): every candidate in an output area, within its size. -/
def outOk (size : Nat → Nat) (e : Nat × Nat × Nat) : Bool :=
  let code := e.2.1 / 2 ^ 28
  [2, 4, 5, 6, 8].contains code && decide (e.2.1 % 2 ^ 28 + e.2.2 ≤ size code)

/-- LDA bundles that can load an image address outside every area (R13). -/
def ldaBad (size : Nat → Nat) (e : Effects) : List Nat :=
  (e.ldas.filter fun x => size (x.2 / 2 ^ 28) ≤ x.2 % 2 ^ 28).map fun x => x.1

/-- The lowest bundle of a type's code that breaks R196: flow, stores that do not trace or leave the instance's data, calls. -/
def typeCodeBad (bs : Bundles) (ts : List TypeDef) (size : Nat → Nat) (x : TypeDef × Effects) : Option Nat :=
  let e := x.2
  let own := (e.own.filter fun o => !(decide (0x10 ≤ o.2.1) && decide (o.2.1 + o.2.2 ≤ x.1.instLen))).map fun o => o.1
  let out := (e.outs.filter fun o => !outOk size o).map fun o => o.1
  let call := (e.calls.filter fun c => (findType ts c.2.1).isNone).map fun c => c.1
  ((flowBad bs (typeRanges ts) (typeRgn x.1)).toList ++ e.untraced ++ (e.itpl.map fun o => o.1) ++ own ++ out ++ call ++ ldaBad size e).min?

/-- One round of `typeDepths`: nesting levels of each type whose callees are known. -/
def depthRound (es : List (TypeDef × Effects)) (t : Tab Nat) : Tab Nat :=
  es.foldl (fun acc x =>
    if (acc.get? x.1.no).isSome then acc
    else
      let ds := x.2.calls.map fun c => t.get? c.2.1
      if ds.all fun d => d.isSome then acc.set x.1.no (1 + (ds.filterMap id).foldl max 0) else acc) t

/-- Nesting levels of the types by their calls; a type in a cycle, or above one, never gets one (R196). -/
def typeDepths (es : List (TypeDef × Effects)) : Tab Nat := (List.range (es.length + 1)).foldl (fun t _ => depthRound es t) []

/-- Distinct 8-byte words of its own instance that a type's stores can touch (R195). -/
def ownWords (e : Effects) : Nat :=
  (unionNat [] (e.own.flatMap fun o => (List.range ((o.2.1 + o.2.2 - 1) / 8 - o.2.1 / 8 + 1)).map fun k => o.2.1 / 8 + k)).length

/-- Worst-case counts of the types, callees first: by increasing depth. -/
def typeCounts (bs : Bundles) (es : List (TypeDef × Effects)) (ds : Tab Nat) (miss : Bool) : Tab Nat :=
  (List.range 9).foldl (fun t d =>
    es.foldl (fun acc x =>
      if ds.get x.1.no 0 = d ∧ d ≠ 0 then
        acc.set x.1.no (wcetOf ⟨x.2, fun n => t.get n 0, x.1.wWords, 0, miss⟩ bs (typeRgn x.1))
      else acc) t) []

/-! Entry code (R196, R203, R204) -/

def entryOk (img : List Byte) (ts : List TypeDef) (e : Nat) : Bool :=
  e % 8 == 0 && decide (e < secLen img 1) && !inTypes (typeRanges ts) (e / 8)

/-- A value of a block as an image address: its own offsets from the instances that it runs on. -/
def AVal.placed (inst v : AVal) : AVal :=
  { abs := unionNat v.abs (inst.abs.flatMap fun a => v.own.map fun o => a + o), other := v.other || (inst.other && !v.own.isEmpty) }

/-- The address registers that a call hands down, A0 at the called instance (R193): `inst` is the caller's own. -/
def handDown (inst : AVal) (c : Nat × Nat × AVal) (at_ : ARegs) : ARegs :=
  (List.range 8).map fun r => (r, if r = 0 then inst.placed c.2.2 else inst.placed (at_.get r .none))

/-- A type's code as a task runs it: its registers at every bundle, and its effects, with what the task hands down (R193, R197). -/
def typeIn (img : List Byte) (bs : Bundles) (inh : ARegs) (t : TypeDef) : Tab ARegs × Effects :=
  let r := typeRgn t
  let g := traceRegs (section_ img 2) bs r t.ctab inh
  (g, (reachable bs r).foldl (effectOf (section_ img 2) bs g) {})

/-- Calls that hand their registers down to the types they name, joined by type. -/
def handAll (inst : AVal) (calls : List (Nat × Nat × AVal)) (at_ : Tab ARegs) (acc : Tab ARegs) : Tab ARegs :=
  calls.foldl (fun acc c =>
    let rs := handDown inst c (at_.get c.1 [])
    acc.set c.2.1 (match acc.get? c.2.1 with
      | none => rs
      | some o => joinRegs o rs)) acc

/-- The instance that a call names, when it is one of the called type (log entry 22). -/
def callTarget (is : List InstDef) (typeNo a : Nat) : Option InstDef :=
  is.find? fun d => aINST + d.off == a && d.typeNo == typeNo

/-- Effects of the entries of a task: ENTRY_MAIN, then the others that it has. -/
def taskEntries (img : List Byte) (bs : Bundles) (t : TaskDef) : List (EntryPart × Nat × Effects) :=
  let eff (e : Nat) : Effects := effects (section_ img 2) bs (entryRgn img e) 0
  [(.main, t.main, eff t.main)] ++ (if t.init = 0 then [] else [(.init, t.init, eff t.init)]) ++
    (if t.take = 0 then [] else [(.takeover, t.take, eff t.take)])

/-- What a task hands down to the types that it calls (R193), through the nesting levels: A0 stands for their instances. -/
def inherited (img : List Byte) (bs : Bundles) (es : List (TypeDef × Effects)) (ents : List (EntryPart × Nat × Effects)) :
    Nat → Tab ARegs → Tab ARegs
  | 0, t => t
  | n + 1, t =>
    let acc := ents.foldl (fun acc e => handAll {} e.2.2.calls (traceRegs (section_ img 2) bs (entryRgn img e.2.1) 0) acc) t
    let acc := es.foldl (fun acc x => match t.get? x.1.no with
      | none => acc
      | some inh =>
        let g := typeIn img bs inh x.1
        handAll (inh.get 0 .none) g.2.calls g.1 acc) acc
    inherited img bs es ents n acc

/-- The code of a task: its entries, and the types that they call, directly or through others, each with its effects there and
the instances it runs on. -/
structure TaskCode where
  ents : List (EntryPart × Nat × Effects)
  tys : List (TypeDef × Effects × AVal)
  deriving DecidableEq, Repr

def taskCode (img : List Byte) (bs : Bundles) (es : List (TypeDef × Effects)) (ents : List (EntryPart × Nat × Effects)) : TaskCode :=
  let inh := inherited img bs es ents 8 []
  ⟨ents, es.filterMap fun x => (inh.get? x.1.no).map fun h => (x.1, (typeIn img bs h x.1).2, h.get 0 .none)⟩

/-- The calls of a task's code, as (bundle, type, instances). -/
def TaskCode.calls (k : TaskCode) : List (Nat × Nat × AVal) :=
  (k.ents.flatMap fun e => e.2.2.calls) ++
    k.tys.flatMap fun x => x.2.1.calls.map fun c => (c.1, c.2.1, x.2.2.placed c.2.2)

/-- INST spans that a task can write (R172): stores of the blocks on the instances they run on, and ITPL, within its INST_RANGES. -/
def TaskCode.insts (k : TaskCode) (t : TaskDef) : List (Nat × Nat) :=
  let stores := k.tys.flatMap fun x => x.2.2.abs.flatMap fun a => x.2.1.own.map fun o => (a + o.2.1, o.2.2)
  let itpl := k.ents.flatMap fun e => e.2.2.itpl.map fun o => (o.2.1, o.2.2)
  (stores ++ itpl).filter fun w => t.ranges.any fun r => decide (r.1 ≤ w.1 % 2 ^ 28 ∧ w.1 % 2 ^ 28 + w.2 ≤ r.1 + r.2)

/-- Every ITPL of a task's entries stands in ENTRY_INIT or ENTRY_TAKEOVER, on words within the task's INST_RANGES and outside every
header (R204). -/
def itplOk (img : List Byte) (ents : List (EntryPart × Nat × Effects)) (t : TaskDef) : Bool :=
  ents.all fun e => e.2.2.itpl.all fun o =>
    e.1 != .main && o.2.1 / 2 ^ 28 == 0xA &&
    (o.2.2 == 0 || ((t.ranges.any fun r => decide (r.1 ≤ o.2.1 % 2 ^ 28 ∧ o.2.1 % 2 ^ 28 + o.2.2 ≤ r.1 + r.2)) &&
      !((instChain img).any fun d => decide (d.off < o.2.1 % 2 ^ 28 + o.2.2 ∧ o.2.1 % 2 ^ 28 < d.off + 16))))

/-- The lowest bundle of a task's code that the load refuses (R189, R194, R196). An entry that R203 refuses is its task entry's fault. -/
def taskCodeBad (img : List Byte) (bs : Bundles) (ts : List TypeDef) (es : List (TypeDef × Effects)) (size : Nat → Nat)
    (t : TaskDef) : Option Nat :=
  let is := instChain img
  let ents := (taskEntries img bs t).filter fun e => entryOk img ts e.2.1
  let flow := ents.filterMap fun e => flowBad bs (typeRanges ts) (entryRgn img e.2.1)
  let trace := ents.flatMap fun e => e.2.2.untraced
  let store := ents.flatMap fun e => (e.2.2.outs.filter fun o => !outOk size o).map fun o => o.1
  let odd := ents.flatMap fun e => (e.2.2.itpl.filter fun o => o.2.1 % 8 != 0).map fun o => o.1
  let k := taskCode img bs es ents
  let call := (k.calls.filter fun c =>
    (findType ts c.2.1).isNone || c.2.2.other || !(c.2.2.abs.all fun a => (callTarget is c.2.1 a).isSome)).map fun c => c.1
  -- stores of the called types: area rights, and at least one candidate within the task's INST_RANGES
  let outs := (ents.flatMap fun e => e.2.2.outs) ++ k.tys.flatMap fun x => x.2.1.outs
  let right := (outs.filter fun o => !bit t.rights (2 * (o.2.1 / 2 ^ 28) - 1)).map fun o => o.1
  let ranges := k.calls.flatMap fun c =>
    match k.tys.find? fun x => x.1.no == c.2.1 with
    | some x => (x.2.1.own.filter fun o =>
        !((x.2.1.own.filter fun q => q.1 == o.1).any fun q => c.2.2.abs.any fun a =>
          t.ranges.any fun r => decide (r.1 ≤ a % 2 ^ 28 + q.2.1 ∧ a % 2 ^ 28 + q.2.1 + q.2.2 ≤ r.1 + r.2))).map fun o => o.1
    | none => []
  (flow ++ trace ++ store ++ odd ++ call ++ right ++ ranges ++ ents.flatMap fun e => ldaBad size e.2.2).min?

/-- What the decoded code must hold (R196), that of the tasks' entries included, and each type's entry of it (R195, R197). The graph of
the calls has no cycle, those that no path reaches among them. -/
def checkTypes (img : List Byte) (bs : Bundles) (size : Nat → Nat) : Check :=
  let ts := typeDefs img
  let es := typeEffects img bs ts
  let ds := typeDepths es
  let all := ts.map (typeAll img bs)
  let graph := typeDepths all
  let bad := (all.filterMap (typeCodeBad bs ts size)) ++ (taskDefs img).filterMap (taskCodeBad img bs ts es size)
  (bad.min?.bind fun i => badRec (bundleOff img i)) <|>
  eachBad es (fun x => x.1.off) (fun x => (graph.get? x.1.no).isSome && ds.get? x.1.no == some x.1.depth && ownWords x.2 == x.1.wWords) <|>
  (let cs := typeCounts bs es ds false
   eachBad ts (fun t => t.off) (fun t => cs.get t.no 0 == t.wcet))

def checkCode (img : List Byte) (size : Nat → Nat) : Check :=
  let ts := typeDefs img
  let dec := decodeCode img
  eachBad ts (fun t => t.off) (typeFieldsOk img ts) <|>
  ((findPos (fun b => b == none) dec 0).bind fun i => badRec (bundleOff img i)) <|>
  checkTypes img (dec.map fun b => b.getD (.nop, .nop)) size

/-! Instances (R198 to R200) -/

def rangeOk (cls off len instLen : Nat) : Bool :=
  if cls = 0 then off == 0 && len == 0
  else cls == 1 && decide (0x10 ≤ off) && decide (off + len ≤ instLen)

def instOk (img : List Byte) (d : InstDef) : Bool :=
  match findType (typeDefs img) d.typeNo with
  | none => false
  | some t =>
    d.ver == t.ver && decide (d.iflags < 16) && ((taskDefs img).any fun k => k.level == d.iflags) && d.len == t.instLen &&
    rangeOk d.mirror d.mOff d.mLen d.len && rangeOk d.retain d.rOff d.rLen d.len && decide (d.off + d.len ≤ instSize img)

def checkInstances (img : List Byte) : Check :=
  let is := instChain img
  eachBad is (fun d => secOff img 3 + d.off) (instOk img) <|>
  (if retainLayoutField img = retainLayout is then none else badRec 0x68) <|>
  (if mirrorBytesField img = mirrorBytes is then none else badRec 0x6C)

/-! Tasks (R152, R171, R203, R204) -/

/-- Write bits stand for OUT, FLOWOUT, CAN, LOOP, SAFE and INST alone; bits 22 to 31 are 0 (R171). -/
def rightsOk (r : Nat) : Bool :=
  decide (r < 2 ^ 22) && (List.range 11).all fun k =>
    let a := k + 1
    !bit r (2 * a - 1) || [2, 4, 5, 6, 8, 0xA].contains a

def taskFieldsOk (img : List Byte) (ts : List TypeDef) (ks : List TaskDef) (t : TaskDef) : Bool :=
  let e := (img.drop t.off).take 96
  decide (t.level ≤ 15) && (ks.find? fun k => k.level == t.level).elim false (fun k => k.off == t.off) && decide (t.tflags ≤ 1) &&
  decide (1 ≤ t.period ∧ t.period ≤ 4096) && decide (t.phase < t.period) && decide (t.action ≤ 2) && decide (t.tolK ≤ 15) &&
  decide (t.tolK + 1 ≤ t.tolW ∧ t.tolW ≤ 1024) && decide (1 ≤ t.parts ∧ t.parts ≤ 32) && rdU e 0x0B 1 == 0 &&
  decide (1 ≤ t.shotUs ∧ t.shotUs ≤ 900) && rdU e 0x0E 2 == 0 && rightsOk t.rights &&
  (t.ranges.all fun r => decide (r.1 + r.2 ≤ instSize img)) && entryOk img ts t.main &&
  (t.init == 0 || entryOk img ts t.init) && (t.take == 0 || entryOk img ts t.take)

/-- What the load derives of a task. -/
structure TaskInfo where
  level : Nat
  /-- C(MAIN), the first-period and the takeover count (R156) -/
  c : Nat
  cInit : Nat
  cTake : Nat
  /-- static output write set, as (image address, length) -/
  outs : List (Nat × Nat)
  /-- output-buffer entries of the write set -/
  entries : Nat
  /-- bytes of CONST that the task's code can read -/
  consts : List (Nat × Nat)
  /-- bytes of INST that it can write, as (image address, length) -/
  insts : List (Nat × Nat)
  /-- its code and constants do not fit in its cache partitions (R151) -/
  cold : Bool
  deriving DecidableEq, Repr

/-- Spans joined where they touch, in ascending order. -/
def mergeSpans (xs : List (Nat × Nat)) : List (Nat × Nat) :=
  (sortBy (fun a b => decide (a.1 ≤ b.1)) xs).foldl (fun acc x =>
    match acc.getLast? with
    | none => [x]
    | some p => if x.1 ≤ p.1 + p.2 then acc.dropLast ++ [(p.1, max p.2 (x.1 + x.2 - p.1))] else acc ++ [x]) []

/-- 64-byte lines of a list of spans. -/
def lineCount (xs : List (Nat × Nat)) : Nat :=
  (unionNat [] (xs.flatMap fun x => (List.range ((x.1 + x.2 - 1) / 64 - x.1 / 64 + 1)).map fun k => x.1 / 64 + k)).length

def taskInfo (img : List Byte) (bs : Bundles) (es : List (TypeDef × Effects)) (ds : Tab Nat) (t : TaskDef) : TaskInfo :=
  let ents := taskEntries img bs t
  let k := taskCode img bs es ents
  let tys := k.tys.map fun x => (x.1, x.2.1)
  let outs := mergeSpans (((ents.flatMap fun e => e.2.2.outs) ++ tys.flatMap fun x => x.2.outs).map fun o => (o.2.1, o.2.2))
  let entries := (unionNat [] (outs.flatMap fun o =>
    (List.range ((o.1 + o.2 - 1) / 8 - o.1 / 8 + 1)).map fun k => o.1 / 8 + k)).length
  -- a read whose address is not known can be of any byte of CONST
  let wild := (ents.any fun e => !e.2.2.wild.isEmpty) || tys.any fun x => !x.2.wild.isEmpty
  let consts := (ents.flatMap fun e => e.2.2.consts) ++ (tys.flatMap fun x => x.2.consts) ++
    if wild && constSize img != 0 then [(aCONST, constSize img)] else []
  let code := (ents.flatMap fun e => (reachable bs (entryRgn img e.2.1)).map fun i => (8 * i, 8)) ++
    tys.map fun x => (x.1.code, x.1.len)
  let miss := decide (t.parts * 1024 < lineCount code + lineCount (consts.map fun c => (c.1 % 2 ^ 28, c.2)))
  let cs := typeCounts bs tys ds miss
  let count (p : EntryPart) (e : Nat) (n : Nat) : Nat :=
    match ents.find? fun x => x.1 == p with
    | some x => wcetOf ⟨x.2.2, fun k => cs.get k 0, 0, n, miss⟩ bs (entryRgn img e)
    | none => 0
  let c := count .main t.main entries
  { level := t.level, c := c, cInit := count .init t.init 0 + c, cTake := count .takeover t.take 0 + c, outs := outs,
    entries := entries, consts := consts, insts := k.insts t, cold := miss }

/-- Task entries and what R203 and R204 ask of the code they name; each fault names its entry (R185). -/
def checkTasks (img : List Byte) : Check :=
  let ts := typeDefs img
  let ks := taskDefs img
  let bs : Bundles := (decodeCode img).map fun b => b.getD (.nop, .nop)
  let es := typeEffects img bs ts
  let ds := typeDepths es
  (ks.filterMap fun t =>
    let x := taskInfo img bs es ds t
    -- the output buffer holds 4096 entries, the protection unit 32 ranges (R167, R172)
    if taskFieldsOk img ts ks t && itplOk img (taskEntries img bs t) t && decide (x.entries ≤ 4096 ∧ x.outs.length ≤ 32) then none
    else badRec t.off).head?

/-- What the load derives of every task, in level order. -/
def taskInfos (img : List Byte) : List TaskInfo :=
  let bs : Bundles := (decodeCode img).map fun b => b.getD (.nop, .nop)
  let es := typeEffects img bs (typeDefs img)
  let ds := typeDepths es
  (sortBy (fun a b => decide (a.level ≤ b.level)) (taskDefs img)).map (taskInfo img bs es ds)

/-! Symbols (R186, R201, R202) -/

/-- A value in the form of R186. -/
def formOk (t : Ty) (v : List Byte) : Bool :=
  isZero (v.drop (tySize t)) &&
  match t with
  | .bool => decide (rdU v 0 1 ≤ 1)
  | .real => f32.finite (rdU v 0 4)
  | .lreal => f64.finite (rdU v 0 8)
  | _ => true

/-- a ≤ b as values of the type. -/
def formLe (t : Ty) (a b : List Byte) : Bool :=
  if isFloat t then
    let x := (fmtOf t).dec (rdU a 0 (tySize t))
    let y := (fmtOf t).dec (rdU b 0 (tySize t))
    Fl.lt x y || Fl.eq x y
  else if t = .bool then decide (rdU a 0 1 ≤ rdU b 0 1)
  else decide (rdI a 0 (tySize t) ≤ rdI b 0 (tySize t))

/-- A symbol stands where R202 lets it: in its task's own data, written by no other task; in constants that its task alone reads. -/
def symPlaced (img : List Byte) (ks : List TaskDef) (infos : List TaskInfo) (y : SymDef) (n : Nat) : Bool :=
  let o := y.addr % 2 ^ 28
  match ks.find? fun t => t.level == y.level with
  | none => false
  | some t =>
    if y.addr / 2 ^ 28 = 0xA then
      ((instChain img).any fun d => d.iflags == y.level && decide (d.off + 16 ≤ o ∧ o + n ≤ d.off + d.len)) &&
      (t.ranges.any fun r => decide (r.1 ≤ o ∧ o + n ≤ r.1 + r.2)) &&
      infos.all fun x => x.level == y.level || !(x.insts.any fun w => decide (w.1 < y.addr + n ∧ y.addr < w.1 + w.2))
    else if y.addr / 2 ^ 28 = 0xB then
      let reads (x : TaskInfo) : Bool := x.consts.any fun c => decide (c.1 < y.addr + n ∧ y.addr < c.1 + c.2)
      decide (o + n ≤ constSize img) && infos.all fun x => (x.level == y.level) == reads x
    else false

def symOk (img : List Byte) (ks : List TaskDef) (infos : List TaskInfo) (y : SymDef) : Bool :=
  match tyOf y.ty with
  | none => false
  | some t =>
    decide (y.no ≤ 16777215) && decide (y.sflags ≤ 1) && isZero ((img.drop (y.off + 0x0B)).take 5) &&
    formOk t y.min && formOk t y.max && formLe t y.min y.max && y.addr % tySize t == 0 && symPlaced img ks infos y (tySize t)

def checkSymbols (img : List Byte) : Check :=
  let ys := symDefs img
  let ks := taskDefs img
  let infos := taskInfos img
  eachBad ys (fun y => y.off) (fun y => symOk img ks infos y &&
    ((ys.filter fun z => decide (z.off < y.off)).all fun z => decide (z.no < y.no)))

/-! Admission (R156 to R159) -/

/-- Hyperperiod of the tasks. -/
def hyper (ks : List TaskDef) : Nat := ks.foldl (fun h t => Nat.lcm h t.period) 1

/-- Charges of the tasks released in a tick, or of all: with READS_MX as given, at `f` cycles each (R157). -/
def charge (ks : List TaskDef) (f : TaskDef → Nat) (mx : Bool) (tick : Option Nat) : Nat :=
  (ks.filter fun t => t.readsMx == mx && (match tick with
    | none => true
    | some n => selects' t n)).foldl (fun a t => a + f t + 16) 0
where
  selects' (t : TaskDef) (n : Nat) : Bool := t.period != 0 && n % t.period == t.phase

/-- count(T) of R157. -/
def tickCount (ks : List TaskDef) (f : TaskDef → Nat) (tssi : Nat) (tick : Option Nat) : Nat :=
  max (charge ks f false tick) (tssi * 800) + charge ks f true tick

def infoOf (xs : List TaskInfo) (t : TaskDef) : TaskInfo := (xs.find? fun x => x.level == t.level).getD ⟨t.level, 0, 0, 0, [], 0, [], [], false⟩

/-- Ticks that admission looks at: one hyperperiod, or a single tick with every task (R158). -/
def ticksOf (ks : List TaskDef) : List (Option Nat) :=
  if hyper ks ≤ 1048576 then (List.range (hyper ks)).map some else [none]

/-- Admission under a tick length and T_SSI in µs (R156, R158). -/
def checkAdmission (img : List Byte) (xs : List TaskInfo) (tickUs tssi : Nat) : Check :=
  let ks := sortBy (fun a b => decide (a.level ≤ b.level)) (taskDefs img)
  let budget := beBudgetUs tickUs * 800
  let overl : Check := (ks.flatMap fun t =>
    let x := infoOf xs t
    [x.c, x.cInit, x.cTake].filterMap fun c =>
      if t.shot < c then some (⟨BUDGET, 0xFFFF0000 + t.level, c - t.shot, []⟩ : Reject) else none).head?
  let parts := ks.foldl (fun a t => a + t.parts) 0
  let pools : Check := if 32 < parts then some ⟨BUDGET, 0xFFFFFFFE, parts, []⟩ else none
  let tick : Check := ((ticksOf ks).filterMap fun n =>
    let d0 := n.getD 0xFFFFFFFF
    let w := tickCount ks (fun t => (infoOf xs t).c) tssi n
    let h := tickCount ks (fun t => t.shot) tssi n
    if budget < w then some (⟨BUDGET, d0, w % 2 ^ 31, []⟩ : Reject)
    else if budget < h then some ⟨BUDGET, d0, 2 ^ 31 + h % 2 ^ 31, []⟩ else none).head?
  overl <|> pools <|> tick

/-- The lowest point at which every tick fits (R159). -/
def dimPoint (img : List Byte) (xs : List TaskInfo) (tickUs tssi : Nat) : Nat :=
  let ks := taskDefs img
  let fits (op : Nat) : Bool := (ticksOf ks).all fun n =>
    decide (max (charge ks (fun t => (infoOf xs t).c) false n) (tssi * opMHz op) + charge ks (fun t => (infoOf xs t).c) true n
      ≤ beBudgetUs tickUs * opMHz op)
  if fits 1 then 1 else if fits 2 then 2 else if fits 3 then 3 else 4

/-! Mirror charge (R275, R276) -/

def mirrorCharge (rs : List CfgRec) (prog : Option (List Byte)) : Nat :=
  mandatoryMirror rs +
  match prog with
  | none => 0
  | some img => mirrorBytesField img + 8 * ((instChain img).filter fun d => d.mirror == 1).length

def checkMirror (rs : List CfgRec) (prog : Option (List Byte)) (tickUs : Nat) : Check :=
  let c := mirrorCharge rs prog
  if (profileRow tickUs).2.1 < c then some ⟨MIRROR_BUDGET, c, 0, []⟩ else none

/-- The checks of R185 up to the task entries, in their order. -/
def checkProgram (rs : List CfgRec) (img : List Byte) (total : Nat) : Check :=
  let size := areaSizeOf rs (some img)
  checkSigned rs img <|> checkHeader img total <|> checkCode img size <|> checkInstances img <|> checkTasks img

/-- The checks of R185 from the symbols to the mirror budget. -/
def checkLoad (rs : List CfgRec) (img : List Byte) (tickUs tssi : Nat) : Check :=
  checkSymbols img <|> checkAdmission img (taskInfos img) tickUs tssi <|> checkMirror rs (some img) tickUs

end Sys2Proof.Machine
end

