-- ==== Sys2Proof/Machine/Patch.lean ====
section
/-! DEFINITION. Online change of values (03 R92, 06 R164, R166, 07 R207 to R211). -/

namespace Sys2Proof.Machine

/-- Entries of a patch list: SYMBOL and VALUE, 12 bytes each. -/
def patchItems (bs : List Byte) : Nat → List (Nat × List Byte)
  | 0 => []
  | n + 1 => (rdU bs 0 4, (bs.drop 4).take 8) :: patchItems (bs.drop 12) n

/-- The first tick at or after `n` that selects a task (R126). -/
def nextRelease (t : TaskDef) (n : Nat) : Nat := n + (t.phase + t.period - n % t.period) % t.period

/-- The tick count of the first release of a task whose preceding cut-off is still to come (R126, R208, R209); none comes before the
TICK of a START in force (R120). -/
def dueTick (s : State) (t : TaskDef) : Nat :=
  let cut := (s.lane s.mainLane).frozenTick == some s.grid.tick
  nextRelease t (max (if cut then s.grid.tick + 2 else s.grid.tick + 1) (if s.st.phase = .running then s.st.startAt.getD 0 else 0))

/-- The checks of R207 on patch `i`, given the earlier items and patch 0's level. -/
def patchBad (s : State) (img : List Byte) (role i : Nat) (items : List (Nat × List Byte)) : Check :=
  let it := items.getD i (0, [])
  let ys := symDefs img
  let sym (n : Nat) : Option SymDef := ys.find? fun y => y.no == n
  match sym it.1 with
  | none => some ⟨UNKNOWN_SYMBOL, i, 0, []⟩
  | some y =>
    if role ≠ 3 ∧ bit y.sflags 0 = false then some ⟨NOT_OPERATOR_WRITABLE, i, 0, []⟩
    else if ((sym (items.getD 0 (0, [])).1).map fun z => z.level != y.level).getD false ||
        (items.take i).any (fun e => e.1 == it.1) then some ⟨BAD_FIELD, 0x0C + 12 * i, 0, []⟩
    else match tyOf y.ty with
      | none => some ⟨PATCH_TYPE, i, 0, []⟩
      | some t =>
        if !formOk t it.2 || !formLe t y.min it.2 || !formLe t it.2 y.max then some ⟨PATCH_TYPE, i, 0, []⟩
        else if (ctxOf s s.mainLane y.level).phase == .halted then some ⟨WRONG_STATE, s.st.phase.code, y.level, []⟩
        else none

/-- A batch validated patch by patch, in index order; a good one is queued for its task's release and recorded (R208, R211), its
patches when they replace the old values (log entry 130). -/
def submitPatch (s : State) (p : Nat) (items : List (Nat × List Byte)) : State :=
  match s.st.prog with
  | none => answer s p true UNKNOWN_SYMBOL 0
  | some img =>
    match ((List.range items.length).filterMap fun i => patchBad s img (s.roleOf p) i items).head? with
    | some r => answer s p true r.status r.d0 r.d1
    | none =>
      let ys := symDefs img
      let first := ys.find? fun y => y.no == (items.getD 0 (0, [])).1
      match first.bind fun y => s.taskDef y.level with
      | none => answer s p true UNKNOWN_SYMBOL 0
      | some t =>
        let due := dueTick s t
        let l := s.mainLane
        let s := s.updSt fun st => { st with batches := st.batches ++ [⟨p, (s.part p).urg.order, t.level, due, items⟩] }
        let s := noteUnnamed s .patchBatch l (leBytes p 1 ++ leBytes t.level 1 ++ leBytes items.length 1 ++ leBytes due 4)
        respond s p true OK 0 0 (due % 2 ^ 32)

/-- VALUE_PATCH fields (R92, R73): the first bad one by its byte offset. The LENGTH 5 form has no use for words 3 and 4: they count as
reserved (log entry 114). -/
def patchFields (ws : List Word) : Option Nat :=
  let n := fld (word ws 1) 0 8
  let src := fld (word ws 1) 8 8
  if n = 0 ∨ 64 < n ∨ (src = 0xFE ∧ 4 < n) then some 4
  else if 63 < src ∧ src < 0xFE then some 5
  else if word ws 1 / 65536 ≠ 0 then some 6
  else if word ws 2 % 4 ≠ 0 ∨ (63 < src ∧ word ws 2 ≠ 0) then some 8
  else if src ≠ 0xFE ∧ word ws 3 ≠ 0 then some 0x0C
  else if src ≠ 0xFE ∧ word ws 4 ≠ 0 then some 0x10
  else none

/-- Bytes of a symbol's value in memory (R186). -/
def SymDef.size (y : SymDef) : Nat := (tyOf y.ty).elim 0 tySize

/-- One patch written to a lane: INST or CONST and the copy that restores them (R205, R210); the lane that acts records it with the old
and the new value, and where that lane has stopped the one that still computes (R211). -/
def applyItem (img : List Byte) (l : LaneId) (s : State) (it : Nat × List Byte) : State :=
  match (symDefs img).find? fun y => y.no == it.1 with
  | none => s
  | some y =>
    let bs := it.2.take y.size
    let s := if l = s.mainLane ∨ tracks (s.lane s.mainLane) = false then
        noteUnnamed s .patchItem l (leBytes it.1 4 ++ padTo 8 ((s.lane l).img.readN y.addr y.size) ++ it.2)
      else s
    s.updLane l fun v => { v with img := v.img.writeN y.addr bs, tmpl := v.tmpl.writeN y.addr bs }

/-- Batches due at this tick's releases, in the order of their doorbells, on one lane (R166, R176, R208). -/
def applyPatches (s : State) (l : LaneId) : State :=
  match s.st.prog with
  | none => s
  | some img =>
    let bs := sortBy (fun a b => decide (a.order ≤ b.order)) (s.st.batches.filter fun b => b.due == s.grid.tick)
    bs.foldl (fun s b => b.items.foldl (applyItem img l) s) s

/-- A batch touches a retained range (R209). -/
def batchRetained (img : List Byte) (b : Batch) : Bool :=
  let ys := symDefs img
  b.items.any fun it =>
    match ys.find? fun y => y.no == it.1 with
    | none => false
    | some y => (instChain img).any fun d => d.retain == 1 &&
        decide (aINST + d.off + d.rOff < y.addr + y.size ∧ y.addr < aINST + d.off + d.rOff + d.rLen)

/-- Batches when the tick count goes from `was` on: those of past ticks are done; one whose tick a step of station time has left out
is due at its task's next release (R127, R208). -/
def redueBatches (was : Nat) (s : State) : State :=
  s.updSt fun t => { t with batches := (t.batches.filter fun b => decide (was < b.due)).map fun b =>
    if s.grid.tick ≤ b.due then b else { b with due := (s.taskDef b.level).elim b.due fun k => nextRelease k s.grid.tick } }

/-- Batches at a tick edge, `was` the tick before: those now due whose task is HALTED are discarded (R208, R211). -/
def batchEdge (was : Nat) (s : State) : State :=
  let s := redueBatches was s
  let gone := s.st.batches.filter fun b => b.due == s.grid.tick && (ctxOf s s.mainLane b.level).phase == .halted
  if gone.isEmpty then s
  else
    let keep := s.st.batches.filter fun b => !gone.contains b
    let s := dropBatches (s.updSt fun t => { t with batches := gone }) 2
    s.updSt fun t => { t with batches := keep }

/-- A batch of the present tick's releases that STOP does not discard touches a retained range, and the station has run since the
program's commit (R123, R209). -/
def retainedPatched (s : State) : Bool :=
  s.st.hasRun && s.st.stopAt != some (s.grid.tick + 1) &&
    s.st.prog.any fun img => s.st.batches.any fun b => b.due == s.grid.tick && batchRetained img b

/-- Such a batch has been applied, and the bank that takes it has yet to be captured. -/
def patchCapturePending (s : State) : Bool :=
  let v := s.lane s.mainLane
  retainedPatched s && v.swapTick == some s.grid.tick && v.frozenTick != some s.grid.tick

/-- While STOPPED, a patched retained value is written to the bank again (R209), also where a START has been accepted since. -/
def bankAfterPatch (s : State) (l : LaneId) : State :=
  if (s.st.phase == .stopped || s.st.restoreDue) && runsRole (s.lane l).role && retainedPatched s then
    startBank s l (captureBank s l 8)
  else s

end Sys2Proof.Machine
end

