-- ==== Sys2Proof/Machine/Bulk.lean ====
section
/-! DEFINITION. Transfers between host and module: descriptors, DMA, THL data, pre-emption, and the commands that move bytes
(03 R77, R90, R92, R96, R98 to R100, R103; 11 R318; 18 R470, R477). -/

namespace Sys2Proof.Machine

/-! Staging -/

/-- The first byte of an image that no range covers (R91); `fuel` bounds the ranges passed. -/
def firstGap : Nat → List (Nat × Nat) → Nat → Nat
  | 0, _, at_ => at_
  | n + 1, rs, at_ =>
    match rs.find? fun r => decide (r.1 ≤ at_ ∧ at_ < r.1 + r.2) with
    | none => at_
    | some r => firstGap n rs (r.1 + r.2)

def StageArea.missing (a : StageArea) : Option Nat :=
  let g := firstGap (a.have_.length + 1) a.have_ 0
  if g < a.total then some g else none

/-- Bytes written into a staging area. -/
def StageArea.put (a : StageArea) (off : Nat) (bs : List Byte) : StageArea :=
  if bs.isEmpty then a else { a with bytes := a.bytes.writeN off bs, have_ := a.have_ ++ [(off, bs.length)] }

/-! Descriptors (R98) -/

/-- A descriptor refused before any byte moves: `dir` 0 for a module read, 1 for a module write. 0xFF stands for THL. -/
def descBad (s : State) (p region off len dir : Nat) : Option Nat :=
  if region = 0xFF then none
  else match (s.part p).regions.get? region with
    | none => some DMA_NO_REGION
    | some r => if !bit r.dir dir then some DMA_NO_REGION else if r.len < off + len then some DMA_BOUNDS else none

/-- REGION of a command: 0 to 63, or 0xFF for THL. -/
def regionOk (r : Nat) : Bool := decide (r < 64) || r == 0xFF

/-- REGION_OFFSET: a multiple of 4, and 0 for THL; for IMAGE_READ too, whose range R96 does not state (log entry 115). -/
def regionOffOk (r off : Nat) : Bool := off % 4 == 0 && (r != 0xFF || off == 0)

/-! Transfers -/

def Xfer.size : Xfer → Nat
  | .chunk _ _ len _ _ => len
  | .validate _ n _ => n
  | .patches n _ _ => 12 * n
  | .toHost d _ _ _ _ _ _ => d.length
  | .slots _ n _ _ => 64 * n

def Xfer.isIn : Xfer → Bool
  | .chunk _ _ _ _ _ => true
  | .validate _ _ _ => true
  | .patches _ _ _ => true
  | _ => false

def Xfer.region : Xfer → Nat × Nat
  | .chunk _ _ _ r o => (r, o)
  | .validate _ _ _ => (0, 0)
  | .patches _ r o => (r, o)
  | .toHost _ r o _ _ _ _ => (r, o)
  | .slots _ _ r o => (r, o)

/-- A transfer that moves by PCIe DMA. -/
def Xfer.isDma (x : Xfer) : Bool := x.region.1 != 0xFF && match x with
  | .validate _ _ _ => false
  | _ => true

/-- An urgent command is running or waiting (R77). -/
def urgentBusy (s : State) : Bool := allParts.any fun p => (s.part p).urg.busy

/-- The end of a transfer of which every byte has moved. -/
def endXfer (s : State) (p : Nat) (urg : Bool) (x : Xfer) : State :=
  match x with
  | .chunk _ _ _ _ _ => answer s p urg OK
  | .validate _ _ _ => s
  | .patches n _ _ => submitPatch s p (patchItems (s.mbox p urg).buf n)
  | .toHost d _ _ d1 tick tail _ => respond s p urg OK d.length d1 tick tail
  | .slots _ n _ _ =>
    let old := oldestSeq s.svc.rcd
    answer s p urg OK (64 * n) n [old % 2 ^ 32, old / 2 ^ 32 % 65536]

/-- Largest piece that is sent before it is confirmed: 4 KiB by DMA, 1024 bytes by THL (R100, R103). -/
def pieceMax (x : Xfer) : Nat := if x.region.1 = 0xFF then 1024 else 4096

/-- The next piece of a transfer to the host, as the module finds its bytes now (R470). -/
def pieceBytes (s : State) (x : Xfer) (at_ : Nat) : List Byte :=
  match x with
  | .toHost d _ _ _ _ _ _ => (d.drop at_).take (pieceMax x)
  | .slots first n _ _ =>
    (List.range (min (pieceMax x / 64) (n - at_ / 64))).flatMap fun i => slotOf s.svc.rcd (first + at_ / 64 + i)
  | _ => []

/-- Sends the next piece, or ends the transfer. -/
def sendPiece (s : State) (p : Nat) (urg : Bool) (x : Xfer) : State :=
  let m := s.mbox p urg
  let down := !s.svc.up && (match x with
    | .slots _ _ _ _ => true
    | .toHost _ _ _ _ _ _ store => store
    | _ => false)
  if down then answer s p urg RECORDER_DOWN m.flushed
  else if x.size ≤ m.bytes then endXfer s p urg x
  else
    let bs := pieceBytes s x m.bytes
    let (r, o) := x.region
    let s := s.updMb p urg fun m => { m with prev := m.bytes, bytes := m.bytes + bs.length }
    if r = 0xFF then thlSend s p .data (leBytes m.seq 1 ++ leBytes m.bytes 4 ++ bs)
    else s.emit (.dma p (((s.part p).regions.get r ⟨0, 0, 0⟩).base + BitVec.ofNat 64 (o + m.bytes)) bs)

/-- A partition's main command is the running bulk command (R77). -/
def bulkRuns (s : State) (p : Nat) : Bool := s.st.bulkQueue.head? == some p

/-- A transfer goes on, a bulk command's at a 4 KiB boundary only if nothing holds it (R77, R83). -/
def goOn (s : State) (p : Nat) (urg : Bool) (x : Xfer) : State :=
  let m := s.mbox p urg
  if m.atBoundary 4096 = true ∧ (s.part p).att = .detaching ∧ urg = false then endMainDetached s p
  else if x.size ≤ m.bytes then endXfer s p urg x
  else if m.atBoundary 4096 = true ∧ urg = false ∧ bulkRuns s p = true ∧ urgentBusy s = true then
    progress (s.updMb p urg fun m => { m with preempted := true }) p urg PREEMPTED
  else if x.isIn then progress s p urg RUNNING
  else sendPiece (progress s p urg RUNNING) p urg x

/-- Starts a transfer. -/
def beginXfer (s : State) (p : Nat) (urg : Bool) (x : Xfer) : State :=
  let s := s.updMb p urg fun m => { m with phase := .running, xfer := some x, bytes := 0, prev := 0, flushed := 0, buf := [] }
  if x.isIn then progress s p urg RUNNING else sendPiece (progress s p urg RUNNING) p urg x

/-- Bytes from the host (R90, R99). A DMA request does not cross a 4 KiB boundary of its transfer. -/
def takeIn (s : State) (p : Nat) (urg : Bool) (x : Xfer) (data : List Byte) : State :=
  let m := s.mbox p urg
  let d := data.take (min (x.size - m.bytes) (if x.region.1 = 0xFF then 1024 else 4096 - m.bytes % 4096))
  let step (m : Mailbox) : Mailbox := { m with prev := m.bytes, bytes := m.bytes + d.length }
  match x with
  | .chunk t off len _ _ =>
    match s.st.stage.get? t with
    | none => answer s p urg NO_STAGING
    | some a =>
      if a.total < off + len then answer s p urg NO_STAGING
      else
        let s := s.updSt fun st => { st with stage := st.stage.set t (a.put (off + m.bytes) d) }
        goOn (s.updMb p urg step) p urg x
  | _ => goOn (s.updMb p urg fun m => { step m with buf := m.buf ++ d }) p urg x

/-- A held transfer resumes when no urgent command remains (R77). -/
def resumeHeld (s : State) (p : Nat) : State :=
  let m := (s.part p).main
  match m.xfer with
  | some x => if m.preempted && !urgentBusy s then goOn (s.updMb p false fun m => { m with preempted := false }) p false x else s
  | none => s

/-- DMA_COMPLETION (R99, R100): the data of a read, or the zero-length read that confirms a write. -/
def execDmaCompletion (p : Part) (urgent ok : Bool) (status : Word) (data : List Byte) (s : State) :
    Host.Outcome State Fault Refusal :=
  let s1 := if urgent then s else resumeHeld s p
  let m := s1.mbox p urgent
  .next (match m.xfer with
    | none => s
    | some x =>
      if m.busy = false ∨ m.phase ≠ .running ∨ m.preempted = true ∨ !x.isDma then s
      else if !ok then answer s1 p urgent DMA_FAULT (if x.isIn then m.bytes else m.flushed) status.toNat
      else if x.isIn then (if data.isEmpty then s1 else takeIn s1 p urgent x (data.take 512))
      else goOn (s1.updMb p urgent fun m => { m with flushed := m.bytes }) p urgent x)

/-- DMA_COMPLETION_TIMEOUT (R99): 50 ms without a completion. -/
def execDmaCompletionTimeout (p : Part) (urgent : Bool) (s : State) : Host.Outcome State Fault Refusal :=
  let m := s.mbox p urgent
  .next (match m.xfer with
    | none => s
    | some x =>
      if m.busy = false ∨ m.phase ≠ .running ∨ m.preempted = true ∨ !x.isDma then s
      else answer s p urgent DMA_FAULT (if x.isIn then m.bytes else m.flushed) 0xFFFFFFFF)

/-! Commands -/

/-- CONFIG_CHUNK (R90, R98). -/
def execConfigChunk (p : Part) (s : State) : Host.Outcome State Fault Refusal :=
  .next (serve s p 0x0021 fun s ws =>
    needLock s p false
      (let t := fld (word ws 1) 0 8
       let off := word ws 2
       let len := word ws 3
       let r := fld (word ws 4) 0 8
       let o := word ws 5
       match firstBad [(targetOk t, 4), (word ws 1 / 256 == 0, 5), (off % 4 == 0, 8),
           (len % 4 == 0 && decide (4 ≤ len ∧ len ≤ 16777216), 0x0C)] with
       | some b => answer s p false BAD_FIELD b
       | none => match s.st.stage.get? t with
         | none => answer s p false NO_STAGING
         | some a =>
           match firstBad [(decide (off + len ≤ a.total), 0x0C), (regionOk r, 0x10), (word ws 4 / 256 == 0, 0x11), (regionOffOk r o, 0x14)] with
           | some b => answer s p false BAD_FIELD b
           | none => match descBad s p r o len 0 with
             | some st => answer s p false st r
             | none => beginXfer s p false (.chunk t off len r o)))

/-- VALUE_PATCH (R92, R98, R207, R208). -/
def execValuePatch (p : Part) (s : State) : Host.Outcome State Fault Refusal :=
  .next (serve s p 0x0040 fun s ws =>
    needOperator s p true
      (match patchFields ws with
       | some b => answer s p true BAD_FIELD b
       | none =>
         let n := fld (word ws 1) 0 8
         let src := fld (word ws 1) 8 8
         if src = 0xFE then submitPatch s p (patchItems ((wordBytes ws).drop 12) n)
         else match descBad s p src (word ws 2) (12 * n) 0 with
           | some st => answer s p true st src
           | none => beginXfer s p true (.patches n src (word ws 2))))

/-- Bytes of a lane's image as frozen at its last output cut-off (R45, R96); NUMF is not stored (R179). -/
def frozenBytes (s : State) (a n : Nat) : List Byte :=
  let m := (s.lane s.mainLane).frozen
  (List.range n).map fun i => if a + i = aSYS + 0x140 then 0 else m.read (a + i)

/-- Tick number of the last completed tick (R45); before an output cut-off has passed it is 0, and the image as frozen is that of the
lane's start (log entry 136). -/
def lastTick (s : State) : Nat := (s.lane s.mainLane).frozenTick.getD 0 % 2 ^ 32

/-- IMAGE_READ (R96). -/
def execImageRead (p : Part) (s : State) : Host.Outcome State Fault Refusal :=
  .next (serve s p 0x0043 fun s ws =>
    let a := word ws 1
    let n := word ws 2
    let long := ws.length == 5
    let r := fld (word ws 3) 0 8
    match firstBad [(a % 4 == 0 && addrOk s a 4, 4), (n % 4 == 0 && decide (4 ≤ n ∧ n ≤ if long then 65536 else 112), 8), (addrOk s a n, 4),
        (!long || regionOk r, 0x0C), (!long || word ws 3 / 256 == 0, 0x0D), (!long || regionOffOk r (word ws 4), 0x10)] with
    | some b => answer s p false BAD_FIELD b
    | none =>
      let bs := frozenBytes s a n
      if !long then respond s p false OK 0 0 (lastTick s) (bytesWords bs)
      else match descBad s p r (word ws 4) n 1 with
        | some st => answer s p false st r
        | none => beginXfer s p false (.toHost bs r (word ws 4) 0 (lastTick s) [] false))

/-- RECORDER_READ (R470). -/
def execRecorderRead (p : Part) (s : State) : Host.Outcome State Fault Refusal :=
  .next (serve s p 0x0050 fun s ws =>
    let first := word ws 1 + fld (word ws 2) 0 16 * 2 ^ 32
    let n := word ws 3
    let r := fld (word ws 4) 0 8
    match firstBad [(fld (word ws 2) 16 16 == 0, 0x0A), (decide (1 ≤ n ∧ n ≤ ringSlots), 0x0C), (regionOk r, 0x10),
        (word ws 4 / 256 == 0, 0x11), (regionOffOk r (word ws 5), 0x14)] with
    | some b => answer s p false BAD_FIELD b
    | none =>
      if !s.svc.up then answer s p false RECORDER_DOWN
      else
        let old := oldestSeq s.svc.rcd
        if first < old then answer s p false RANGE_GONE (old % 2 ^ 32) (old / 2 ^ 32)
        else
          let k := min n (s.svc.rcd.next - first)
          match descBad s p r (word ws 5) (64 * n) 1 with
          | some st => answer s p false st r
          | none => beginXfer s p false (.slots first k r (word ws 5)))

/-- FLOW_STATS (R318). -/
def execFlowStats (p : Part) (s : State) : Host.Outcome State Fault Refusal :=
  .next (serve s p 0x0052 fun s ws =>
    let first := fld (word ws 1) 0 8
    let n := min (fld (word ws 1) 8 8 + 1) (256 - first)
    let r := word ws 2
    match firstBad [(word ws 1 / 65536 == 0, 6), (regionOk r, 8), (regionOffOk r (word ws 3), 0x0C)] with
    | some b => answer s p false BAD_FIELD b
    | none => match descBad s p r (word ws 3) (64 * n) 1 with
      | some st => answer s p false st r
      | none =>
        let bs := (List.range n).flatMap fun i => flowStat s s.mainLane (first + i)
        beginXfer s p false (.toHost bs r (word ws 3) 0 s.tickNo [] false))

/-- RETAINED_READ (R477). -/
def execRetainedRead (p : Part) (s : State) : Host.Outcome State Fault Refusal :=
  .next (serve s p 0x0053 fun s ws =>
    needLock s p false
      (let sel := fld (word ws 1) 0 2
       let r := fld (word ws 1) 8 8
       let off := word ws 2
       let n := word ws 3
       let v := s.svc.rcd
       let named : Option Bank := match sel with
         | 0 => v.offered.map fun i => bankOf v i.val
         | k => some (bankOf v (k - 1))
       let bank := named.filter fun b => b.valid
       let held (f : Bank → Bool) : Bool := !s.svc.up || bank.elim false f
       match firstBad [(decide (sel < 3) && fld (word ws 1) 2 6 == 0 && held fun _ => true, 4), (regionOk r, 5),
           (word ws 1 / 65536 == 0, 6), (off % 4 == 0 && held fun b => decide (off + n ≤ 64 + b.payload.length), 8),
           (n % 4 == 0 && decide (4 ≤ n ∧ n ≤ 16777280), 0x0C), (regionOffOk r (word ws 4), 0x10)] with
       | some b => answer s p false BAD_FIELD b
       | none =>
         if !s.svc.up then answer s p false RECORDER_DOWN
         else match bank, descBad s p r (word ws 4) n 1 with
           | none, _ => answer s p false BAD_FIELD 4
           | _, some st => answer s p false st r
           | some b, none =>
             beginXfer s p false (.toHost (((bankBytes b).drop off).take n) r (word ws 4) 0 s.tickNo [b.seq] true)))

end Sys2Proof.Machine
end

