-- ==== Sys2Proof/Machine/Chains.lean ====
section
/-! DEFINITION. Motion chains (09_motion_chains.md). -/

namespace Sys2Proof.Machine

/-- An exact dyadic number m · 2^e. -/
structure Dy where
  m : Int
  e : Int
  deriving DecidableEq, Repr

def Dy.add (a b : Dy) : Dy :=
  let e := min a.e b.e
  ⟨a.m * 2 ^ (a.e - e).toNat + b.m * 2 ^ (b.e - e).toNat, e⟩

def Dy.mul (a b : Dy) : Dy := ⟨a.m * b.m, a.e + b.e⟩

def Dy.neg (a : Dy) : Dy := ⟨-a.m, a.e⟩

def Dy.sub (a b : Dy) : Dy := a.add b.neg

/-- A coefficient word (R247): exponent in [31:24], mantissa in [23:0]. -/
def coeff (w : Nat) : Dy := ⟨signed 24 w, signed 8 (w / 2 ^ 24)⟩

/-- a ÷ 2^b rounded to the nearest integer, ties to even. -/
def Dy.roundAt (a : Dy) (b : Int) : Int :=
  let r : Int := rneShift a.m.natAbs (a.e - b)
  if a.m < 0 then -r else r

/-- floor(log₂ |a|), or none for 0. -/
def Dy.lead (a : Dy) : Option Int := if a.m = 0 then none else some ((Nat.log2 a.m.natAbs : Int) + a.e)

/-- Renormalisation of a stage (R248): the stored values and whether the stage saturates. -/
def renorm (vs : List Dy) : StageSt × Bool :=
  match (vs.filterMap Dy.lead).foldl (fun m x => match m with
      | none => some x
      | some y => some (max x y)) (none : Option Int) with
  | none => (⟨-128, vs.map fun _ => 0⟩, false)
  | some a =>
    let b0 := a - 22
    let r0 := vs.map fun v => v.roundAt b0
    let b1 := if r0.any fun r => r.natAbs == 2 ^ 23 then b0 + 1 else b0
    if b1 < -128 then (⟨-128, vs.map fun v => v.roundAt (-128)⟩, false)
    else if 127 < b1 then (⟨127, vs.map fun v => clampI (-8388608) 8388607 (v.roundAt 127)⟩, true)
    else (⟨b1, vs.map fun v => v.roundAt b1⟩, false)

def StageSt.val (t : StageSt) (i : Nat) : Dy := ⟨t.ms.getD i 0, t.b⟩

/-- Which stored value is the stage's output (R250). -/
def outIndex : Nat → Nat
  | 1 => 2
  | 3 => 1
  | 5 => 1
  | _ => 0

def storedCount : Nat → Nat
  | 1 => 3
  | 3 => 2
  | 5 => 2
  | _ => 1

/-- New exact stored values of a stage of type `ty` with coefficient words `c` on input `x` (R250). -/
def stageEq (ty : Nat) (c : Nat → Dy) (t : StageSt) (x : Dy) : List Dy :=
  match ty with
  | 1 =>
    let y := ((c 0).mul x).add (t.val 0)
    [(((c 1).mul x).sub ((c 3).mul y)).add (t.val 1), ((c 2).mul x).sub ((c 4).mul y), y]
  | 2 => [((t.val 0).sub ((c 1).mul (t.val 0))).add ((c 0).mul x)]
  | 3 =>
    let w := ((t.val 1).add x).sub (t.val 0)
    [x, w.sub ((c 0).mul w)]
  | 4 => [(c 0).mul x]
  | _ => [x, x.add ((c 0).mul (x.sub (t.val 0)))]

/-- Offset of a stage slot, and its type (R249). -/
def stageOff (i : Nat) : Nat := 0x40 + 32 * i
def stageType (r : CfgRec) (i : Nat) : Nat := r.u (stageOff i) 1

/-- One stage of a chain on an input: its new state, output and saturation. -/
def runStage (r : CfgRec) (i : Nat) (t : StageSt) (x : Dy) : StageSt × Dy × Bool :=
  let ty := stageType r i
  let (t', sat) := renorm (stageEq ty (fun k => coeff (r.u (stageOff i + 4 + 4 * k) 4)) t x)
  (t', t'.val (outIndex ty), sat)

/-- Stages 0 to N_STAGES − 1 in order; the first stage that saturates is named (R245, R261). -/
def runStages (r : CfgRec) : Nat → Nat → List StageSt → Dy → List StageSt × Option Nat
  | 0, _, _, _ => ([], none)
  | n + 1, i, ts, x =>
    let (t', y, sat) := runStage r i (ts.getD 0 {}) x
    let (rest, s) := runStages r n (i + 1) (ts.drop 1) y
    (t' :: rest, if sat then some i else s)

/-- Cleared stages (R256). -/
def clearStages (r : CfgRec) : List StageSt :=
  (List.range (r.u 8 1)).map fun i => ⟨-128, List.replicate (storedCount (stageType r i)) 0⟩

/-- A dyadic number as binary64, and as binary32. -/
def Dy.f64 (a : Dy) : Nat := Machine.f64.enc (decide (a.m < 0)) a.m.natAbs a.e
def Dy.f32 (a : Dy) : Nat := Machine.f32.enc (decide (a.m < 0)) a.m.natAbs a.e

/-- A finite binary64 as a dyadic number. -/
def ofF64 (n : Nat) : Dy :=
  match f64.dec n with
  | .fin neg m e => ⟨sgn neg m, e⟩
  | _ => ⟨0, 0⟩

def toF32 (n : Nat) : Nat := f32.conv f64 n

/-- A signed 64-bit difference of two instants (R10, R253). -/
def diff64 (a b : Int) : Int := signed 64 (unsigned 64 (a - b))

/-- Step 1 (R253): a new sample is taken, rejected or absent. -/
def takeSample (r : CfgRec) (m : Mem) (now : Nat) (c : ChainSt) : ChainSt × Bool × Bool :=
  let a := r.u 0x0C 4
  let time := m.rdU (a + 8) 8
  if c.lastTime = some time then (c, false, false)
  else
    let c' := { c with lastTime := some time }
    -- an entry that has never been filled carries no sample
    if time = 0 ∧ c.lastTime = none then (c', false, false)
    else
      let t : Int := signed 64 (time + 2 ^ 64 - r.u 0x14 4 * 1000)
      let v := m.rdU a 4
      let newer := match c.samples with
        | (u, _) :: _ => decide (0 < diff64 t u)
        | [] => true
      let ok := bit (m.rdU (a + 4) 1) 0 && f32.finite v && newer && decide (diff64 t now ≤ 0)
      if ok then
        let u := f64.mul (f64.conv f32 v) (f64.conv f32 (r.u 0x10 4))
        ({ c' with samples := ((t, u) :: c.samples).take 4, taken := (c.taken + 1) % 2 ^ 32 }, true, false)
      else ({ c' with rejects := (c.rejects + 1) % 2 ^ 32 }, false, true)

/-- Step 2 (R255). -/
def chainStale (r : CfgRec) (now : Nat) (c : ChainSt) : Bool :=
  match c.samples with
  | [] => true
  | (t, _) :: _ => decide (((r.u 0x20 4 * 1000 : Nat) : Int) < diff64 now t)

/-- Linear interpolation in binary64 between two samples at τ. -/
def lerp (t1 : Int) (u1 : Nat) (t2 : Int) (u2 : Nat) (tau : Int) : Nat :=
  f64.add u1 (f64.div (f64.mul (f64.sub u2 u1) (f64.ofInt (diff64 tau t1))) (f64.ofInt (diff64 t2 t1)))

/-- Interpolation over the held samples, newest first (R254). -/
def interp (tau : Int) : List (Int × Nat) → Nat
  | [] => 0
  | (t2, u2) :: rest =>
    if 0 ≤ diff64 tau t2 then u2
    else match rest with
      | [] => u2
      | (t1, u1) :: more => if 0 ≤ diff64 tau t1 then lerp t1 u1 t2 u2 tau else interp tau ((t1, u1) :: more)

/-- The input at the evaluation instant, in binary64, and EXTRAP_LIMITED (R254). -/
def chainInput (r : CfgRec) (now : Nat) (c : ChainSt) : Nat × Bool :=
  if bit (r.u 9 1) 0 then
    match c.samples with
    | (t2, u2) :: (t1, u1) :: _ =>
      let most : Int := ((r.u 0x1C 4 * 1000 : Nat) : Int)
      let gap : Int := diff64 now t2
      let d := min gap most
      (f64.add u2 (f64.div (f64.mul (f64.sub u2 u1) (f64.ofInt d)) (f64.ofInt (diff64 t2 t1))), decide (most < gap))
    | (_, u) :: _ => (u, false)
    | [] => (0, false)
  else (interp ((now : Int) - (r.u 0x18 4 * 1000 : Nat)) c.samples, false)

def ChainSt.enter (c : ChainSt) (p : ChainPhase) : ChainSt := { c with st := p, ticks := 0 }

/-- The fade of FADE_OUT and SETTLE counts on (R256, R257). -/
def fadeStep (r : CfgRec) (c : ChainSt) : ChainSt :=
  match c.k with
  | none => c
  | some k => if k + 1 < r.u 0x26 2 then { c with k := some (k + 1) } else { c with k := none }

/-- Step 3: the transition of R256, before the stages; a tick spent in the state is counted first. The count runs beyond
what STATE_TICKS shows (R258), since SETTLE_TICKS reaches 16 777 215. -/
def chainMove (r : CfgRec) (stale : Bool) (c0 : ChainSt) : ChainSt :=
  let n := c0.ticks + 1
  let c := { c0 with ticks := n }
  match c.st with
  | .zero => if stale then c else { (c.enter .settle) with stages := clearStages r, yo := 0, k := none }
  | .run => if stale then { (c.enter .hold) with sat := false } else c
  | .hold =>
    if !stale && !c.sat then c.enter .run
    else if r.u 0x24 2 ≤ n then { (c.enter .fadeOut) with yh := c.yo, k := some 0 } else c
  | .fadeOut =>
    let f := fadeStep r c
    if f.k = none then { (f.enter .zero) with yo := 0 }
    else if !stale && !c.sat then { (f.enter .settle) with stages := clearStages r } else f
  | .settle =>
    let f := fadeStep r c
    if stale then { (if f.k = none then f.enter .zero else f.enter .fadeOut) with sat := false }
    else if max (r.u 0x28 4) 1 ≤ n then { (f.enter .fadeIn) with ys := c.yo, k := some 0 } else f
  | .fadeIn =>
    if stale then { (c.enter .hold) with sat := false, k := none }
    else
      let f := fadeStep r c
      if f.k = none then f.enter .run else f

/-- States in which the stages run (R245, R256). -/
def stagesRun : ChainPhase → Bool
  | .run => true
  | .settle => true
  | .fadeIn => true
  | _ => false

/-- A saturation of step 4 acts in step 5 of the same tick (R245, R256). -/
def chainSat (c : ChainSt) : ChainSt :=
  match c.st with
  | .run => { (c.enter .hold) with sat := true }
  | .fadeIn => { (c.enter .hold) with sat := true, k := none }
  | .settle => { (if c.k = none then c.enter .zero else c.enter .fadeOut) with sat := true }
  | _ => c

/-- Output of a stage. -/
def tapOf (r : CfgRec) (c : ChainSt) (i : Nat) : Dy := (c.stages.getD i {}).val (outIndex (stageType r i))

/-- Step 5: y_o (R257). -/
def chainOut (r : CfgRec) (c : ChainSt) : Nat :=
  let ramp := f64.ofInt (r.u 0x26 2)
  let yc := (tapOf r c (r.u 0x0A 1)).f64
  let fade (k : Nat) : Nat := f64.div (f64.mul c.yh (f64.ofInt ((r.u 0x26 2 : Int) - k))) ramp
  match c.st with
  | .run => yc
  | .hold => c.yo
  | .zero => 0
  | .fadeOut => (c.k.map fade).getD 0
  | .settle => (c.k.map fade).getD 0
  | .fadeIn => f64.add c.ys (f64.div (f64.mul (f64.sub yc c.ys) (f64.ofInt (c.k.getD 0))) ramp)

/-- x_ff of R257. -/
def chainXff (r : CfgRec) (yo : Nat) : Int :=
  let p := (ofF64 yo).mul (ofF64 (f64.conv f32 (r.u 0x2C 4)))
  clampI (r.i 0x30 4) (r.i 0x34 4) (clampI (-(2 ^ 31)) (2 ^ 31 - 1) (p.roundAt 0))

def chainMx (r : CfgRec) : Bool := inMx (r.u 0x0C 4) 16

def ChainPhase.code : ChainPhase → Nat
  | .run => 0
  | .hold => 1
  | .fadeOut => 2
  | .zero => 3
  | .settle => 4
  | .fadeIn => 5

/-- Steps 1 to 5 of one chain in one tick at edge time `now`: the new state, the states entered, the stage that saturated, a
rejected entry. -/
def chainTick (r : CfgRec) (m : Mem) (now : Nat) (c0 : ChainSt) : ChainSt × List ChainPhase × Option Nat × Bool :=
  let (c1, took, rej) := takeSample r m now c0
  let stale := chainStale r now c1
  let c2 := chainMove r stale c1
  let (x64, lim) := chainInput r now c2
  let (c3, sat) :=
    if stagesRun c2.st then
      let x := (renorm [ofF64 x64]).1.val 0
      let (ts, sat) := runStages r (r.u 8 1) 0 c2.stages x
      let c := { c2 with stages := ts, inValue := x.f32 }
      (if sat.isSome then chainSat c else c, sat)
    else (c2, none)
  let yo := chainOut r c3
  let cstat := maskOf [sat.isSome, chainMx r, stagesRun c2.st && lim, stale, took, c3.st == .hold && c3.sat]
  let entered := (if c2.st = c0.st then [] else [c2.st]) ++ if c3.st = c2.st then [] else [c3.st]
  ({ c3 with yo := yo, xff := chainXff r yo, cstat := cstat }, entered, sat, rej)

/-- The MOTION entry of R258. -/
def motionEntry (r : CfgRec) (c : ChainSt) : List Byte :=
  let n := r.u 8 1
  leBytes c.st.code 1 ++ leBytes c.cstat 1 ++ leBytes (min c.ticks 65535) 2 ++ leBytes (toF32 c.yo) 4 ++
  leBytes (unsigned 32 c.xff) 4 ++ leBytes c.inValue 4 ++
  ((List.range 8).flatMap fun i => leBytes (if i < n then (tapOf r c i).f32 else 0) 4) ++
  leBytes (match c.samples with
    | (t, _) :: _ => unsigned 64 t
    | [] => 0) 8 ++ leBytes c.taken 4 ++ leBytes c.rejects 4

/-- Events of one chain's tick, from the lane that acts (R261). -/
def chainEvents (s : State) (l : LaneId) (n : Nat) (entered : List ChainPhase) (sat : Option Nat) (rej : Bool) : State :=
  if !runsRole (s.lane l).role then s
  else
    let s := entered.foldl (fun s p => raise s { src := 168, code := p.code + 1, data := dataObj24 s n, lane := l }) s
    let s := match sat with
      | some i => raise s { src := 169, code := 1, data := dataObj24 s n, pay := leBytes i 1, lane := l, obj := some n }
      | none => s
    if rej then raise s { src := 170, code := 1, data := dataObj24 s n, lane := l, obj := some n } else s

def chainOf (v : Lane) (n : Nat) : ChainSt := v.chains.get n {}

/-- One chain's pass of the present tick on a lane; it is made once in a tick. -/
def chainPass (s : State) (l : LaneId) (r : CfgRec) : State :=
  let v := s.lane l
  let c0 := chainOf v r.inst
  if c0.done = some s.grid.tick then s
  else
    let (c, entered, sat, rej) := chainTick r v.img s.grid.now c0
    let c := { c with done := some s.grid.tick }
    let s := s.updLane l fun v => { v with chains := v.chains.set r.inst c }
    chainEvents s l r.inst entered sat rej

/-- The records of a lane's chains in the order of R138: those that read no MX-1 field first. -/
def chainOrder (s : State) : List CfgRec :=
  let rs := sortBy (fun a b => decide (a.inst ≤ b.inst)) (recsOf s.cfgRecs 0x0901)
  (rs.filter fun r => !chainMx r) ++ rs.filter chainMx

def chainPasses (s : State) (l : LaneId) : State := (chainOrder s).foldl (fun s r => chainPass s l r) s

/-- MOTION at the output cut-off (R139, R258): the entries of the chains passed in this tick. -/
def publishChains (s : State) (l : LaneId) : State :=
  (recsOf s.cfgRecs 0x0901).foldl (fun s r => s.updLane l fun v =>
    let c := chainOf v r.inst
    if c.done = some s.grid.tick then { v with img := v.img.writeN (aMOTION + 64 * r.inst) (motionEntry r c) } else v) s

/-- MOTION of every chain after a configuration is applied (R256, R258, R259): a chain whose record is unchanged keeps its
state; a new or changed one restarts; one without a record reads CSTATE 0xFF. -/
def chainApply (old new : List CfgRec) (s : State) (l : LaneId) : State :=
  (List.range 16).foldl (fun s n =>
    match findRec new 0x0901 n with
    | none => s.updLane l fun v =>
        { v with chains := v.chains.erase n, img := v.img.writeN (aMOTION + 64 * n) (0xFF :: zeros 63) }
    | some r =>
      if (findRec old 0x0901 n).map (fun x => x.bytes) = some r.bytes then s
      else
        let c : ChainSt := { stages := clearStages r }
        let s := s.updLane l fun v =>
          { v with chains := v.chains.set n c, img := v.img.writeN (aMOTION + 64 * n) (motionEntry r c) }
        if runsRole (s.lane l).role then raise s { src := 168, code := 4, data := dataObj24 s n, lane := l } else s) s

/-- The loop engine may pass a chain or loop of a lane now: the window stands open, and what it reads of MX-1 has been swapped (R138). -/
def engineReady (s : State) (l : LaneId) (mx : Bool) : Bool :=
  let v := s.lane l
  v.runs && v.be.window && (!mx || v.mxTick == some s.grid.tick)

/-- A row that names one transition of a chain: the chain's pass is made now when it makes that transition. -/
def chainRow (s : State) (l : LaneId) (n : Nat) (is : ChainSt → ChainSt → Bool) : State :=
  match s.cfgRec 0x0901 n with
  | none => s
  | some r =>
    if !engineReady s l (chainMx r) then s
    else
      let s' := chainPass s l r
      if is (chainOf (s.lane l) n) (chainOf (s'.lane l) n) then s' else s

/-- CHAIN_STALE_EXPIRED (R255, R256). -/
def execChainStaleExpired (l : LaneId) (n : Fin 16) (s : State) : Host.Outcome State Fault Refusal :=
  .next (chainRow s l n.val fun a b => a.st != b.st && bit b.cstat 3 && !b.sat)

/-- CHAIN_HOLD_EXPIRED (R256): HOLD_TICKS spent in HOLD. -/
def execChainHoldExpired (l : LaneId) (n : Fin 16) (s : State) : Host.Outcome State Fault Refusal :=
  .next (chainRow s l n.val fun a b => a.st == .hold && b.st == .fadeOut)

/-- CHAIN_FADE_END (R256): the fade count reaches RAMP_TICKS. -/
def execChainFadeEnd (l : LaneId) (n : Fin 16) (s : State) : Host.Outcome State Fault Refusal :=
  .next (chainRow s l n.val fun a b => (a.st == .fadeOut && b.st == .zero) || (a.st == .fadeIn && b.st == .run))

/-- CHAIN_SETTLE_END (R256): max(SETTLE_TICKS, 1) ticks spent in SETTLE. -/
def execChainSettleEnd (l : LaneId) (n : Fin 16) (s : State) : Host.Outcome State Fault Refusal :=
  .next (chainRow s l n.val fun a b => a.st == .settle && b.st == .fadeIn)

end Sys2Proof.Machine
end

