-- ==== Sys2Proof/Machine/Clocks.lean ====
section
/-! DEFINITION. Clock sources, operating points, gating and power states (17_clocks_and_power.md). -/

namespace Sys2Proof.Machine

/-- EV240 or EV241, non-maskable; DATA is the tick number at detection (R65, R68): that of the detection which raises the code, which
for 0x0002 is the RC's qualification and for 0x0003 the end of the 200 µs (log entry 138). -/
def clockFailEvent (s : State) (l : LaneId) (code : Nat) : State :=
  raise s { src := 240 + laneNo l, code := code, data := s.tickNo, lane := l }

/-- An entry to Occulting in progress is abandoned (R447, R452); `cause` 1 a failed TCXO, 2 GATE_BUSY. -/
def abandonEntry (s : State) (cause : Nat) : State :=
  if s.st.power.entering == some .occulting then
    raise (s.updSt fun x => { x with power := { x.power with entering := none, park := false, busyTick := none, busyEdges := 0 } })
      { src := 244, code := 0x10, data := dataTick s, lane := s.mainLane, pay := [Config.payloadCode 1 cause] }
  else s

/-- What a lane does once its domains run on the RC (R433). -/
def actOnRc (s : State) (l : LaneId) : State :=
  let v := s.lane l
  let o := s.lane (other l)
  match v.role with
  | .standby => goOffline (hookRcSwitch s l false) l .clock
  | .active =>
    if o.role == .standby && !o.suspect then immediateEnds (hookRcSwitch s l false) .clock (some .clock)
    else (hookRcSwitch s l true).updLane l fun v => { v with health := if v.health == .good then .degraded else v.health }
  | .solo => (hookRcSwitch s l true).updLane l fun v =>
      { v with health := if v.health == .good then .degraded else v.health }
  | .offline => hookRcSwitch s l false

/-- Accepted counts of the TCXO's window of 1024 RC cycles and of the RC's window of 32 crystal cycles (R430). -/
def tcxoPasses (count : Nat) : Bool := decide (752 ≤ count) && decide (count ≤ 848)

def rcPasses (count : Nat) : Bool := decide (29375 ≤ count) && decide (count ≤ 33125)

/-- The lane's monitors run: it is powered and not in retention (R430, R432). -/
def Lane.monitored (v : Lane) : Bool := v.phase == .running || v.phase == .starting

/-- The TCXO has failed: the lane switches to a qualified RC, or every domain stops and is held until it qualifies (R433, R434). An
entry to Occulting in progress is abandoned (R452). -/
def tcxoFails (s : State) (l : LaneId) : State :=
  let c := (s.lane l).clocks
  let s := (abandonEntry s 1).updLane l fun v => { v with clocks := { v.clocks with tcxoGood := false } }
  if c.src == .rc then s
  else if c.rcQual then
    actOnRc (clockFailEvent (s.updLane l fun v => { v with clocks := { v.clocks with src := .rc } }) l 1) l
  else s.updLane l fun v => { v with clocks := { v.clocks with held := true } }

/-- An RC fault: the RC is stopped, restarted and qualified again (R432). -/
def rcFails (s : State) (l : LaneId) : State :=
  laneClockEvent (s.updLane l fun v => { v with clocks := { v.clocks with rcQual := false, rcRestarting := true } }) l 242 1

/-- TCXO_FAILURE (R430, R431, R433, R434, R452): a window with this count of TCXO cycles, or the stopped-clock detector (no count).
Windows count only while the RC is qualified; a bad one after a failed window of the RC is an RC fault. What happens to a parked lane's
TCXO shows when it leaves retention. -/
def execTcxoFailure (l : LaneId) (count : Option Nat) (s : State) : Host.Outcome State Fault Refusal :=
  let v := s.lane l
  .next (if v.phase == .parked then s.updLane l fun v => { v with clocks := { v.clocks with tcxoGood := false } }
    else if !v.clocks.tcxoGood || !v.monitored then s
    else match count with
      | none => tcxoFails s l
      | some n =>
        if !v.clocks.rcQual then s
        else if tcxoPasses n then s.updLane l fun v => { v with clocks := { v.clocks with tcxoCount := n } }
        else if v.clocks.rcBad then rcFails s l
        else tcxoFails s l)

/-- RC_FAULT (R430 to R432): a window with this count of RC cycles, and the partner's own count where it has one. Outside the accepted
count while the TCXO passes it is an RC fault only if the partner's window passes; if both fail, the crystal is suspect on both. -/
def execRcFault (l : LaneId) (count : Nat) (partner : Option Nat) (s : State) : Host.Outcome State Fault Refusal :=
  let v := s.lane l
  let o := s.lane (other l)
  .next (if !v.monitored || v.clocks.rcRestarting then s
    else
      let s := s.updLane l fun v => { v with clocks := { v.clocks with rcBad := !rcPasses count } }
      if rcPasses count || !v.clocks.tcxoGood then s
      else match partner with
        | none => s
        | some n =>
          if !o.monitored then s
          else if rcPasses n then rcFails s l
          else if !o.clocks.tcxoGood then s
          else bothLanes (fun s l =>
            laneClockEvent (s.updLane l fun v => { v with clocks := { v.clocks with xtalSuspect := true } }) l 242 4) s)

/-- RC_QUALIFIED (R432, R434): the RC's periods agree and, while the TCXO is good, one TCXO window passes; a held lane switches to the
RC and restarts. -/
def execRcQualified (l : LaneId) (count : Nat) (s : State) : Host.Outcome State Fault Refusal :=
  let v := s.lane l
  if !v.clocks.rcRestarting || (v.clocks.tcxoGood && !tcxoPasses count) then .next s
  else
    let s := s.updLane l fun v => { v with clocks := { v.clocks with rcQual := true, rcRestarting := false, rcBad := false, tcxoCount := if v.clocks.tcxoGood then count else v.clocks.tcxoCount } }
    let s := laneClockEvent s l 242 2
    .next (if v.clocks.held then
        actOnRc (clockFailEvent (s.updLane l fun v => { v with clocks := { v.clocks with held := false, src := .rc } }) l 2) l
      else s)

/-- RC_QUAL_TIMEOUT (R435): 200 µs after the stop the lane stops its heartbeats. -/
def execRcQualTimeout (l : LaneId) (s : State) : Host.Outcome State Fault Refusal :=
  .next (if (s.lane l).clocks.held then laneStops (clockFailEvent s l 3) l .stopped else s)

/-- TCXO_RETURN (R127, R437): after 1 s of passing windows, at an edge; INCREMENT is set for the TCXO again. -/
def execTcxoReturn (l : LaneId) (s : State) : Host.Outcome State Fault Refusal :=
  let v := s.lane l
  if v.clocks.src == .rc && !v.clocks.tcxoGood && v.phase == .running then
    let s := s.updLane l fun v =>
      { v with clocks := { v.clocks with src := .tcxo, tcxoGood := true },
               health := if v.health == .degraded || v.cause == .clock then .good else v.health }
    .next (laneClockEvent (hookTcxoReturn s l) l 242 3)
  else .next s

/-- LOCKSTEP_MISMATCH (R263): the lane stops. -/
def execLockstepMismatch (l : LaneId) (s : State) : Host.Outcome State Fault Refusal :=
  .next (if (s.lane l).phase == .running then laneStops s l .stopped else s)

/-! Operating points (R438 to R440) -/

/-- VOLTAGE_STEP_DONE (R438): 20 µs have passed; the next step follows. -/
def execVoltageStepDone (l : LaneId) (s : State) : Host.Outcome State Fault Refusal :=
  .next (match (s.lane l).opp.stepTo with
    | none => s
    | some p => s.updLane l fun v => { v with opp := nextStep { v.opp with supply := p, stepTo := none } })

/-- The frequency change at a tick edge (R438, R440): up as far as the supply holds, down one point (log entry 141). -/
def freqEdge (s : State) (l : LaneId) : State :=
  let v := (s.lane l).opp
  let op := if v.op < v.target then max v.op (min v.target (supplyHeld v)) else if v.target < v.op then v.op - 1 else v.op
  if op = v.op then s
  else
    let s := s.updLane l fun v => { v with opp := nextStep { v.opp with op := op } }
    laneClockEvent s l 245 1 (leBytes v.op 1 ++ leBytes op 1)

/-! Gating (R441, R442) -/

def gateMask (s : State) : Nat := (s.cfgRec 0x0201 0).elim 0 fun r => r.u 0x0C 4

/-- Code-cache partitions given to a task, as a mask over 0 to 31 in the order of the levels (R151, R152). -/
def cachePartsUsed (s : State) : Nat :=
  match s.st.prog with
  | none => 0
  | some img => (List.range (secLen img 4 / 96)).foldl (fun a i => a + rdU (section_ img 4) (96 * i + 0x0A) 1) 0

/-- Blocks that GATE_MASK asks a lane to gate, children first (R441). -/
def wantedGates (s : State) (l : LaneId) : List GateBlock :=
  let m := gateMask s
  let noPort (n : Nat) : Bool := (s.cfgRec 0x0401 n).isNone
  let cfs := (List.range 8).filterMap fun n => if bit m (1 + n) && noPort n then some (GateBlock.cf (Fin.ofNat 8 n)) else none
  let cache := if bit m 10 then
      (List.range 32).filterMap fun n => if cachePartsUsed s ≤ n then some (GateBlock.cachePart (Fin.ofNat 32 n)) else none
    else []
  let can := if bit m 0 && (List.range 8).all noPort then [GateBlock.canBlock] else []
  let host := if bit m 9 && (match s.st.access with
      | none => false
      | some rs => rs.all fun r => r.typ != 0x0E01 || !bit (r.u 9 1) (laneNo l)) then [GateBlock.hostLink] else []
  cfs ++ cache ++ can ++ host

/-- The gating of a lane at an edge (R441, R442): the requests still out were granted within 256 cycles of their blocks' clocks (log
entry 140), what is no longer wanted is ungated, and what is wanted is requested, children first. -/
def gateEdge (s : State) (l : LaneId) : State :=
  if parking (s.lane l) then s
  else
    let w := wantedGates s l
    let s := s.updLane l fun v =>
      { v with opp := { v.opp with gated := (v.opp.gated ++ v.opp.asked).filter fun b => w.contains b, asked := [] } }
    requestGates s l w

/-- A gate request of an entry to Occulting ended GATE_BUSY after the present edge: the entry moves to a later edge; after a hundred such
edges in a row it is abandoned (R447, R452). -/
def busyEdge (s : State) : State :=
  let pw := s.st.power
  let t := s.grid.tick
  let n := if pw.busyTick = some t then pw.busyEdges else if pw.busyTick = some (t - 1) then pw.busyEdges + 1 else 1
  if pw.entering != some .occulting then s
  else if n < 100 then s.updSt fun x => { x with power := { x.power with busyTick := some t, busyEdges := n } }
  else abandonEntry s 2

/-- The requests that a refused one takes with it: those of the blocks above it (R442). -/
def refuseAbove (s : State) (l : LaneId) (b : GateBlock) : State :=
  [GateBlock.canBlock, .blockEngine, .laneRoot].foldl (fun s c =>
    let v := (s.lane l).opp
    if v.asked.contains c && (childrenOf c).any (fun d => !v.gated.contains d && !v.asked.contains d) && c != b then
      laneClockEvent (s.updLane l fun v => { v with opp := { v.opp with asked := v.opp.asked.filter fun x => x != c } }) l 245 3
        [Config.payloadCode 2 (gateCode c)]
    else s) s

/-- GATE_BUSY_TIMEOUT (R442, R452): the access that a request is held for has not completed in 256 cycles; the block stays ungated, and
with it the blocks above it. -/
def execGateBusyTimeout (l : LaneId) (block : GateBlock) (s : State) : Host.Outcome State Fault Refusal :=
  if (s.lane l).phase != .running || !(s.lane l).opp.asked.contains block then .next s
  else
    let s := s.updLane l fun v => { v with opp := { v.opp with asked := v.opp.asked.filter fun b => b != block } }
    let s := refuseAbove (laneClockEvent s l 245 2 [Config.payloadCode 2 (gateCode block)]) l block
    .next (if parking (s.lane l) then busyEdge s else s)

/-! Power states (R443 to R448) -/

/-- TMIN in µs (R445): the smallest valid tolerance of an attached partition. -/
def computeTmin (s : State) : Option Nat :=
  allParts.foldl (fun a p =>
    let w := (s.part p).latEff.toNat
    if s.isAttached p && bit w 31 then
      let t := w % 2 ^ 24
      match a with
      | none => some t
      | some b => some (min b t)
    else a) none

def exitLatency : PowerState → Nat
  | .lit => 0
  | .dimmed => 50
  | .occulting => 400000
  | .dark => 2500000

def suspendOk (s : State) : Bool := bit ((s.cfgRec 0x0B01 0).elim 0 CfgRec.flags) 0

/-- A state is allowed (R443, R446). While the station stands in Occulting its lanes are SOLO and PARKED, and shown so. -/
def powerAllowed (s : State) : PowerState → Bool
  | .lit => true
  | .dimmed => bit ((s.cfgRec 0x0201 0).elim 0 fun r => r.u 8 1) 0 && decide (s.st.dimOp < 4)
  | .occulting =>
    suspendOk s && (s.cfgRec 0x0201 0).isSome && s.st.ends.s.isNone && s.st.commit.isNone &&
    ((match s.activeLane with
      | none => false
      | some l =>
        let a := s.lane l
        let o := s.lane (other l)
        a.health == .good && o.health == .good && !a.suspect && !o.suspect &&
          (a.role == .active && o.role == .standby || s.st.power.ps == .occulting && a.role == .solo && o.phase == .parked)))
  | .dark =>
    bit ((s.cfgRec 0x0201 0).elim 0 fun r => r.u 8 1) 1 && s.st.phase == .stopped && s.st.cfg.isSome && s.st.lock.isNone &&
    allParts.all fun p => !(s.part p).session

/-- The deepest state whose exit latency TMIN bears and that is allowed (R445). -/
def chosenState (s : State) (tmin : Option Nat) : PowerState :=
  let ok (p : PowerState) : Bool := (tmin.map fun t => decide (exitLatency p ≤ t)).getD true && powerAllowed s p
  if ok .dark then .dark else if ok .occulting then .occulting else if ok .dimmed then .dimmed else .lit

/-- The deepest state short of Occulting: what a lane's operating point follows meanwhile. -/
def shallowState (s : State) (tmin : Option Nat) : PowerState :=
  let ok := (tmin.map fun t => decide (50 ≤ t)).getD true && powerAllowed s .dimmed
  if ok then .dimmed else .lit

def powerEvent (s : State) (p : PowerState) : State :=
  raise s { src := 244, code := p.code, data := dataTick s, lane := s.mainLane }

/-- The point of Dimmed (R47, R159): the recorded one, or the profile's floor above it. -/
def State.dimPoint (s : State) : Nat := max (profileRow s.tickUs).2.2 s.st.dimOp

/-- Enters Lit or Dimmed at an edge: the point follows (R445, R47), OP4 in a tick that needs it (`hold4`: R159, R440). Lit is entered where the frequency stands at OP4 (`litEdge`). -/
def enterShallow (hold4 : Bool) (s : State) (p : PowerState) : State :=
  let op := if p == .dimmed && !hold4 then s.dimPoint else 4
  let s := bothLanes (fun s l => if (s.lane l).phase == .running then setTarget s l op else s) s
  if s.st.power.ps = p then s.updSt fun t => { t with power := { t.power with entering := none } }
  else if p == .lit then s.updSt fun t => { t with power := { t.power with entering := some .lit } }
  else powerEvent (s.updSt fun t => { t with power := { t.power with ps := p, entering := none } }) p

/-- The exit to Lit ends at the edge that steps the frequency to OP4 (R444). -/
def litEdge (s : State) : State :=
  let pw := s.st.power
  if s.st.ready && pw.entering == some .lit && s.activeLane.any fun l =>
      (s.lane l).opp.op == 4 && (pw.ps != .occulting || (s.lane l).role == .active) then
    powerEvent (s.updSt fun t => { t with power := { t.power with ps := .lit, entering := none } }) .lit
  else s

/-- Parking (R447): the STANDBY lane, told by PARK in the last heartbeat word, sets its beacon end to hold, gates its blocks and shows
OFFLINE with cause PARKED; its partner is SOLO at the same edge, and the station in Occulting. A refused gate request moves all of it
to a later edge, and the requests are made again. -/
def parkEdge (s : State) (l : LaneId) : State :=
  let o := other l
  let v := s.lane o
  if !parking v then s
  else if !(parkBlocks.all fun b => v.opp.gated.contains b || v.opp.asked.contains b) then requestGates s o parkBlocks
  else
    let s := (parkLane s o).updLane o fun v => { v with opp := { v.opp with gated := parkBlocks, asked := [] } }
    powerEvent (s.updSt fun t =>
      { t with power := { t.power with ps := .occulting, entering := none, busyTick := none, busyEdges := 0 } }) .occulting

/-- The present tick is START's, a takeover tick or the swap edge of a change of ends (R159, R440). -/
def needsOp4 (s : State) : Bool :=
  s.st.startAt == some s.grid.tick || (s.st.ends.confirmed && s.st.ends.s == some (s.grid.tick - 1)) ||
  (s.standbyLane.any fun l => (s.lane l).tok.asked == some .takeover && (s.lane l).tok.grant.any fun g => g.edge == s.tickNo)

/-- Such a tick is coming. -/
def comingOp4 (s : State) : Bool :=
  (s.st.startAt.any fun t => decide (s.grid.tick < t)) || (s.st.ends.s.any fun t => decide (s.grid.tick ≤ t)) ||
  (s.standbyLane.any fun l => (s.lane l).tok.asked == some .takeover)

/-- The point of both lanes at an edge that needs OP4; the supply stays up for a coming one (R440). -/
def raisePoints (hold4 : Bool) (s : State) : State :=
  let s := setRise (comingOp4 s) s
  if hold4 then bothLanes (fun s l => if (s.lane l).phase == .running then setTarget s l 4 else s) s else s

/-- The power manager at a tick edge (R445): TMIN, the state chosen, entries and exits. In a takeover tick and in the tick
of START the point is OP4 (`hold4`: R159, R452). -/
def powerEdge (hold4 : Bool) (s : State) : State :=
  let s := raisePoints hold4 s
  match s.activeLane.filter fun _ => s.st.ready with
  | none => s
  | some l =>
    if (s.lane l).clocks.held then s else
    let tmin := computeTmin s
    let c := chosenState s tmin
    let s := s.updSt fun t => { t with power := { t.power with tmin := tmin } }
    let pw := s.st.power
    match pw.entering with
    | some .occulting =>
      let s := parkEdge s l
      if hold4 || s.st.power.ps != .occulting then s else setTarget s l (if powerAllowed s .dimmed then s.dimPoint else 4)
    | some p =>
      -- leaving Occulting: over when the parked lane is STANDBY again (R444)
      if p == .dark then s
      else if pw.ps != .occulting || (s.lane l).role == .active then enterShallow hold4 s p
      else setTarget s l (if p == .dimmed && !hold4 then s.dimPoint else 4)
    | none =>
      if pw.ps == .occulting then
        if c != .occulting then
          s.updSt fun t => { t with power := { t.power with
            entering := some (if c.code < 2 then c else shallowState s tmin), park := false,
            dwell := if c == .dark then some .dark else none, dwellFrom := s.grid.mono } }
        else if hold4 then s else setTarget s l (if powerAllowed s .dimmed then s.dimPoint else 4)
      else
        let sh := shallowState s tmin
        let s := if hold4 then s else enterShallow false s sh
        s.updSt fun t => { t with power := { t.power with
          dwell := if 2 ≤ c.code then some c else none,
          dwellFrom := if t.power.dwell == some c then t.power.dwellFrom else s.grid.mono } }

/-- Dark is entered at an edge (R444, R450): partitions detached without grace, windows and islands down, SK-1 DORMANT, lanes down. -/
def darkEntry (s : State) (dormant : State → State) : State :=
  let s := noteUnnamed s .darkEntry s.mainLane []
  let s := powerEvent s .dark
  let s := allParts.foldl (fun s p =>
    if (s.part p).att != .detached || (s.part p).grace then finishDetach (startDetach s p) p else s) s
  let s := dormant s
  let s := drainQueue s.svc.rcd.queue.length s
  let down (v : Lane) : Lane :=
    { v with phase := if v.feed then .dark else .off, winUp := false, lit := false, hold := false, role := .offline,
             cause := .none, rolesStep := false, startDone := false, clkQual := false, tok := {},
             mirror := {}, reint := {}, beat := {}, arrived := [], takeover := false, endsSeen := none, sent := none,
             can := [], opp := { v.opp with gated := parkBlocks, asked := [] } }
  let s := { s with a := down s.a, b := down s.b, isl := s.isl.map fun (e : Nat × Island) => (e.1, ({} : Island)) }
  s.updSt fun t => { t with phase := .starting, ready := false, lock := none, power := { t.power with ps := .dark, entering := none, dwell := none } }

/-- DWELL_S in seconds is the environment's to count; GATE and wake settings come from the power record (R443). -/
def wakeEnabled (s : State) (w : WakeSource) : Bool :=
  match s.cfgRec 0x0201 0 with
  | none => false
  | some r =>
    match w with
    | .alarm1 => bit (r.u 9 1) 0
    | .alarm2 => bit (r.u 9 1) 1
    | .pair p => bit (r.u 9 1) 2 && bit (r.u 0x0A 1) p.val
    | .key => bit (r.u 9 1) 3

end Sys2Proof.Machine
end

