-- ==== Sys2Proof/Machine/Loops.lean ====
section
/-! DEFINITION. Servo loops (08_servo_loops.md). -/

namespace Sys2Proof.Machine

/-! Servo arithmetic (R223): results with the saturation flag -/

def i32max : Int := 2147483647
def i32min : Int := -2147483648

/-- Saturation to a signed 32-bit integer, and whether it acted. -/
def sat32 (v : Int) : Int × Bool := (clampI i32min i32max v, decide (v < i32min ∨ i32max < v))

/-- A right shift that rounds ties toward +∞. -/
def rsh (p : Int) (s : Nat) : Int := if s = 0 then p else (p + 2 ^ (s - 1)) / 2 ^ s

/-- c × x shifted by s and saturated. -/
def mulsh (c x : Int) (s : Nat) : Int × Bool := sat32 (rsh (c * x) s)

/-- |x|, 2 147 483 647 for the most negative number. -/
def abs32 (x : Int) : Int × Bool := sat32 x.natAbs

/-- The difference under MODULO (R224). -/
def wrapDiff (m : Nat) (d : Int) : Int × Bool :=
  if m = 0 then sat32 d
  else
    let r := d % (m : Int)
    (if r < (m : Int) - (m / 2 : Nat) then r else r - m, false)

/-! Fields of a loop record (R216) -/

def lpMode (r : CfgRec) : Nat := fld (r.u 8 2) 1 2
def lpDEn (r : CfgRec) : Bool := bit (r.u 8 2) 0
def lpChain (r : CfgRec) : Bool := bit (r.u 8 2) 3 && lpMode r != 0
def lpInhib (r : CfgRec) : Bool := bit (r.u 8 2) 4
def lpUnlimited (n : Nat) : Bool := n == 2147483647

/-- The gain at an error (R225). -/
def loopGain (r : CfgRec) (e : Int) : Int × Bool :=
  let (a, s0) := abs32 e
  let k := r.u 0x55 1
  let i := a.toNat / 2 ^ k
  let g (j : Nat) : Int := r.i (0x94 + 4 * j) 4
  if 32 ≤ i then (g 32, s0)
  else
    let (q, s1) := mulsh (g (i + 1) - g i) (a - (i * 2 ^ k : Nat)) k
    let (v, s2) := sat32 (g i + q)
    (v, s0 || s1 || s2)

/-! Descriptors (R217, R218) -/

structure Desc where
  addr : Nat
  fmt : Nat
  shift : Nat
  k : Nat
  z : Int
  deriving DecidableEq, Repr

def descAt (r : CfgRec) (off : Nat) : Desc := ⟨r.u off 4, r.u (off + 4) 1, r.u (off + 5) 1, r.u (off + 8) 4, r.i (off + 12) 4⟩

def Desc.size (d : Desc) : Nat := if d.fmt = 1 then 2 else 4

/-- Source to servo: value, whether the value is a number, saturation. -/
def toServo (d : Desc) (raw : Nat) : Int × Bool × Bool :=
  if d.fmt = 4 then
    if f32.finite raw then
      let p := (ofF64 (f64.conv f32 raw)).mul (ofF64 (f64.conv f32 d.k))
      let (x, s) := sat32 (p.roundAt 0 + d.z)
      (x, true, s)
    else (0, false, false)
  else
    let (x, s) := sat32 (signed (8 * d.size) raw * 2 ^ d.shift + d.z)
    (x, true, s)

/-- A REAL sink: y × K + Z rounded once, saturated to the largest finite numbers. -/
def realSink (d : Desc) (y : Int) : Nat × Bool :=
  let v := (Dy.mul ⟨y, 0⟩ (ofF64 (f64.conv f32 d.k))).add ⟨d.z, 0⟩
  let b := v.f32
  if f32.finite b then (b, false) else ((if v.m < 0 then 0xFF7FFFFF else 0x7F7FFFFF), true)

/-- Servo to sink: the field's bits and saturation. -/
def toSink (d : Desc) (y : Int) : Nat × Bool :=
  if d.fmt = 4 then realSink d y
  else
    let w := 8 * d.size
    let v := rsh y d.shift + d.z
    let c := clampI (-(2 ^ (w - 1) : Nat)) ((2 ^ (w - 1) : Nat) - 1) v
    (unsigned w c, decide (c ≠ v))

/-- The servo value of a sink's field (R218, R234). -/
def fromSink (d : Desc) (raw : Nat) : Int :=
  if d.fmt = 4 then
    let k := ofF64 (f64.conv f32 d.k)
    if k.m = 0 ∨ f32.finite raw = false then 0
    else
      let x := (ofF64 (f64.conv f32 raw)).add ⟨-d.z, 0⟩
      let n := if k.m < 0 then -x.m else x.m
      let e := x.e - k.e
      (sat32 (if 0 ≤ e then rneInt (n * 2 ^ e.toNat) k.m.natAbs else rneInt n (k.m.natAbs * 2 ^ (-e).toNat))).1
  else (sat32 ((signed (8 * d.size) raw - d.z) * 2 ^ d.shift)).1

/-- A source that loops, or tasks and loops, write: LOOP, MOTION, the transmit part of CAN, the lane bytes of SAFE. -/
def laneWritten (a : Nat) : Bool :=
  match a / 2 ^ 28 with
  | 5 => decide (0x6800 ≤ a % 0x8000)
  | 6 => true
  | 7 => true
  | 8 => decide (0x200 ≤ a % 2 ^ 28)
  | _ => false

/-- Where a source is read: what the lane writes as it stood at the last cut-off (R138, R139, R215; log entry 124), the input areas as
they swapped. -/
def srcMem (v : Lane) (a : Nat) : Mem := if laneWritten a then v.frozen else v.img

/-- A source as a loop sees it: value, good, saturation (R218, R230). -/
def readSrc (s : State) (l : LaneId) (r : CfgRec) (off : Nat) : Int × Bool × Bool :=
  let d := descAt r off
  let m := srcMem (s.lane l) d.addr
  let (x, num, sat) := toServo d (m.rdU d.addr d.size)
  (x, num && srcGood s m d.addr d.size, sat)

/-- What a loop reads in step 1 and 2 of R236. -/
structure LoopIn where
  sp : Int := 0
  spOk : Bool := true
  fb : Int := 0
  fbOk : Bool := true
  xff : Int := 0
  ffOk : Bool := true
  sat : Bool := false
  inh : Bool := false
  man : Int := 0
  req : Nat := 0
  seq : Nat := 0
  deriving DecidableEq, Repr

def loopCmd (n : Nat) : Nat := aLOOP + 32 * n
def loopStatus (n : Nat) : Nat := aLOOP + 0x1000 + 32 * n

def inhibited (s : State) (l : LaneId) (r : CfgRec) : Bool :=
  let a := r.u 0x4C 4
  let m := srcMem (s.lane l) a
  lpInhib r && (m.rdU a 1 != 0 || !srcGood s m a 1)

def loopIn (s : State) (l : LaneId) (r : CfgRec) (c : LoopSt) : LoopIn :=
  let v := s.lane l
  let (sp, spOk, s1) := readSrc s l r 0x0C
  let (fb, fbOk, s2) := readSrc s l r 0x1C
  let (x, ffOk, s3) :=
    if lpMode r = 0 then (0, true, false)
    else if lpChain r then ((chainOf v (r.u 0x2C 4 % 16)).xff, true, false)
    else readSrc s l r 0x2C
  let a := loopCmd r.inst
  { sp := sp, spOk := spOk, fb := if fbOk then fb else c.fb, fbOk := fbOk, xff := if ffOk then x else c.xff, ffOk := ffOk,
    sat := s1 || s2 || s3, inh := inhibited s l r, man := v.frozen.rdI (a + 8) 4, req := v.frozen.rdU (a + 0x0C) 1,
    seq := v.frozen.rdU (a + 0x0D) 1 }

/-! The control law (R224 to R229) -/

/-- Terms of the law before the integrator. -/
structure Terms where
  e : Int := 0
  up : Int := 0
  d : Int := 0
  ud : Int := 0
  uff : Int := 0
  /-- saturation in e, u_p and u_ff; in the derivative; in u_d of a frozen D -/
  satE : Bool := false
  satD : Bool := false
  satT : Bool := false
  deriving DecidableEq, Repr

/-- e, u_p, D, u_d and u_ff (R224, R225, R227, R228). -/
def loopTerms (r : CfgRec) (c : LoopSt) (i : LoopIn) : Terms :=
  let m := r.u 0x8C 4
  let xff := if lpMode r = 0 then 0 else i.xff
  let (spx, s0) := if lpMode r = 2 then sat32 (i.sp + xff) else (i.sp, false)
  let (e, s1) := wrapDiff m (spx - i.fb)
  let (g, s2) := loopGain r e
  let (up, s3) := mulsh g e (r.u 0x54 1)
  let (d0, s4) := wrapDiff m (c.fb - i.fb)
  let (dd, s5) := sat32 (d0 - c.d)
  let (f, s6) := mulsh (r.u 0x64 4) dd (r.u 0x58 1)
  let (d1, s7) := sat32 (c.d + f)
  let (ud, s8) := mulsh (r.i 0x60 4) d1 (r.u 0x57 1)
  let (uff, s9) :=
    if lpMode r = 1 then mulsh (r.i 0x68 4) xff (r.u 0x59 1)
    else if lpMode r = 2 then mulsh (r.i 0x68 4) spx (r.u 0x59 1)
    else (0, false)
  let satE := s0 || s1 || s2 || s3 || s9
  if lpDEn r then ⟨e, up, d1, ud, uff, satE, s4 || s5 || s6 || s7 || s8, (mulsh (r.i 0x60 4) c.d (r.u 0x57 1)).2⟩
  else ⟨e, up, 0, 0, uff, satE, false, false⟩

/-- NUM_SAT of the terms (R221): of e, u_p and u_ff while the sources are good; of the derivative as its state stands. -/
def termSat (t : Terms) (good frozen : Bool) : Bool := (good && t.satE) || (if frozen then t.satT else t.satD)

/-- Output bits SAT_HI, SAT_LO, RATE_LIM, AW_HOLD. -/
structure OutBits where
  hi : Bool := false
  lo : Bool := false
  rate : Bool := false
  aw : Bool := false
  deriving DecidableEq, Repr

/-- y = clamp(limit(v)) against the previous output (R229). -/
def limitOut (r : CfgRec) (y v : Int) : Int × OutBits :=
  let v1 := if lpUnlimited (r.u 0x80 4) then v else max v (y - r.u 0x80 4)
  let v2 := if lpUnlimited (r.u 0x7C 4) then v1 else min v1 (y + r.u 0x7C 4)
  let out := clampI (r.i 0x74 4) (r.i 0x78 4) v2
  (out, { hi := decide (r.i 0x78 4 < v2), lo := decide (v2 < r.i 0x74 4), rate := v2 != v })

/-- Integration and output of a CLOSED loop (R226, R229): I, y, the output bits and saturation. -/
def loopLaw (r : CfgRec) (c : LoopSt) (t : Terms) : Int × Int × OutBits × Bool :=
  let (di, s1) := mulsh (r.i 0x5C 4) t.e (r.u 0x56 1)
  let (v0, s2) := sat32 (t.up + c.i + di + t.ud + t.uff)
  let up := decide (0 < di) && (decide (r.i 0x78 4 < v0) || (!lpUnlimited (r.u 0x7C 4) && decide (r.u 0x7C 4 < v0 - c.y)))
  let dn := decide (di < 0) && (decide (v0 < r.i 0x74 4) || (!lpUnlimited (r.u 0x80 4) && decide (r.u 0x80 4 < c.y - v0)))
  let i := clampI (r.i 0x6C 4) (r.i 0x70 4) (c.i + if up || dn then 0 else di)
  let (v, s3) := sat32 (t.up + i + t.ud + t.uff)
  let (y, b) := limitOut r c.y v
  (i, y, { b with aw := up || dn }, s1 || s2 || s3)

/-! States (R233 to R239) -/

/-- What a pass reports (R238, R243). -/
inductive LoopEv where
  | trip (cause before : Nat)
  | moved (code kind no before after : Nat)
  | refused (kind no before req : Nat)
  | discard
  deriving DecidableEq, Repr

def LoopPhase.code : LoopPhase → Nat
  | .open_ => 0
  | .closing => 1
  | .closed => 2
  | .tripped => 3
  | .parked => 4

/-- A loop within a pass: its state, what it reports, whether it entered CLOSING now. -/
structure LoopRun where
  c : LoopSt
  evs : List LoopEv := []
  entered : Bool := false
  deriving DecidableEq, Repr

/-- A trip with its output (R233). -/
def tripLoop (r : CfgRec) (cause : Nat) (yPrev : Int) (x : LoopRun) : LoopRun :=
  let y := match r.u 0x0A 1 with
    | 0 => yPrev
    | 1 => 0
    | _ => r.i 0x90 4
  { c := { x.c with st := .tripped, cause := cause, y := y, held := false },
    evs := x.evs ++ (if x.c.st = .open_ then [.discard] else []) ++ [.trip cause x.c.st.code] }

/-- A mode request (R234): 1 open, 2 close, 3 reset; whether the transition was made. -/
def loopRequest (i : LoopIn) (kind no req : Nat) (x : LoopRun) : LoopRun × Bool :=
  let go (p : LoopPhase) (c : LoopSt) (code : Nat) (entered : Bool) : LoopRun × Bool :=
    ({ c := { c with st := p }, evs := x.evs ++ (if x.c.st = .open_ then [.discard] else []) ++
        [.moved code kind no x.c.st.code p.code], entered := entered }, true)
  let no_ : LoopRun × Bool := ({ x with evs := x.evs ++ [.refused kind no x.c.st.code req] }, false)
  match req, x.c.st with
  | 1, .closing => go .open_ { x.c with held := true } 0x12 false
  | 1, .closed => go .open_ { x.c with held := true } 0x12 false
  | 2, .open_ => if !i.inh && i.spOk && i.fbOk then go .closing { x.c with fe := 0, held := false } 0x10 true else no_
  | 3, .tripped => if i.inh then no_ else go .open_ { x.c with cause := 0, held := true } 0x13 false
  | _, _ => no_

/-- Step 5 in a running station: the output for the resulting state; the output bits and saturation (R229, R233 to R235). A MAN that
differs ends OPEN_HELD in the very tick of an open or reset request too (log entry 154). -/
def loopOutput (r : CfgRec) (i : LoopIn) (t : Terms) (yPrev : Int) (x : LoopRun) : LoopRun × OutBits × Bool :=
  let c := { x.c with y := yPrev }
  match x.c.st with
  | .tripped => (x, {}, false)
  | .open_ =>
    let held := c.held && i.man == c.man
    if held then ({ x with c := { c with d := t.d, held := true } }, {}, false)
    else
      let (y, b) := limitOut r yPrev i.man
      ({ x with c := { c with d := t.d, y := y, held := false } }, b, false)
  | .closing =>
    if x.entered then
      let (v, s1) := sat32 (yPrev - t.up - t.ud - t.uff)
      ({ x with c := { c with d := t.d, i := clampI (r.i 0x6C 4) (r.i 0x70 4) v } }, {}, s1)
    else
      let x : LoopRun := { x with evs := x.evs ++ [LoopEv.moved 0x11 0 0 1 2] }
      if i.spOk && i.fbOk then
        let (n, y, b, s1) := loopLaw r c t
        ({ x with c := { c with st := .closed, d := t.d, i := n, y := y } }, b, s1)
      else ({ x with c := { c with st := .closed } }, {}, false)
  | p =>
    if i.spOk && i.fbOk || p == .parked then
      let (n, y, b, s1) := loopLaw r c t
      ({ x with c := { c with d := t.d, i := n, y := y } }, b, s1)
    else ({ x with c := c }, {}, false)

/-- Step 6: supervision of R230 and R231. -/
def loopSupervise (r : CfgRec) (i : LoopIn) (yPrev : Int) (x : LoopRun) : LoopRun :=
  let good := i.spOk && i.fbOk
  let x := if good then { x with c := { x.c with qb := 0 } } else x
  if x.c.st != .closed then x
  else if !good then
    let q := min (x.c.qb + 1) 65535
    let x := { x with c := { x.c with qb := q } }
    if r.u 0x8A 2 ≤ q then tripLoop r 2 yPrev x else x
  else
    let f := if (r.u 0x84 4 : Int) < (abs32 x.c.e).1 then min (x.c.fe + 1) 65535 else 0
    let x := { x with c := { x.c with fe := f } }
    if r.u 0x88 2 ≠ 0 ∧ r.u 0x88 2 ≤ f then tripLoop r 1 yPrev x else x

/-- Who asks in a pass: the program's level, INIT_CLOSE, then the hosts' requests. -/
structure LoopAsks where
  level : Nat := 0
  hosts : List LoopAsk := []
  deriving DecidableEq, Repr

/-- Step 4 (R237): the program's request, then the hosts'; each host with its outcome. -/
def loopRequests (r : CfgRec) (i : LoopIn) (q : LoopAsks) (x : LoopRun) : LoopRun × List (LoopAsk × Bool × Nat) :=
  let (x, init) := if x.c.initReq then ((loopRequest i 1 q.level 2 { x with c := { x.c with initReq := false } }).1, true) else (x, false)
  let prog := bit (r.u 8 2) 7 && i.seq != x.c.seq && decide (1 ≤ i.req ∧ i.req ≤ 3)
  let x := if prog then (loopRequest i 1 q.level i.req x).1 else x
  let x := { x with c := { x.c with seq := i.seq } }
  q.hosts.foldl (fun (a : LoopRun × List (LoopAsk × Bool × Nat)) h =>
    if init || prog then
      ({ a.1 with evs := a.1.evs ++ [.refused 2 h.part a.1.c.st.code (h.mode + 1)] }, a.2 ++ [(h, false, a.1.c.st.code)])
    else
      let (y, ok) := loopRequest i 2 h.part (h.mode + 1) a.1
      (y, a.2 ++ [(h, ok, y.c.st.code)])) (x, [])

def loopStat (i : LoopIn) (b : OutBits) (numSat mx held staged : Bool) : Nat :=
  maskOf [b.hi, b.lo, b.rate, b.aw, numSat, !i.spOk, !i.fbOk, !i.ffOk, mx, held, staged]

/-- A running station's pass of one loop, steps 2 and 4 to 6 of R236. `track` on a lane that tracks (R239); `freeE` stands for a
bad setpoint, and for the error shown when a source is bad (log entry 128). A bad source holds I, D and FB in CLOSED alone (R230). -/
def loopRun (r : CfgRec) (i : LoopIn) (q : LoopAsks) (track : Bool) (freeE : Int) (c0 : LoopSt) :
    LoopRun × OutBits × Bool × List (LoopAsk × Bool × Nat) :=
  let c := if track then (if c0.st == .closing || c0.st == .closed then { c0 with st := .parked } else c0)
    else if c0.st == .parked then { c0 with st := .closed, y := c0.mirY.getD c0.y, mirY := none } else c0
  let yPrev := c.y
  let x : LoopRun := { c := c, evs := if !track && c0.st == .parked then [.moved 0x11 0 0 4 2] else [] }
  let x := if i.inh && x.c.st != .tripped then tripLoop r 3 yPrev x else x
  let (x, hosts) := loopRequests r i q x
  let t := loopTerms r x.c (if i.spOk then i else { i with sp := freeE })
  let good := i.spOk && i.fbOk
  let (x, b, sat) := loopOutput r i t yPrev x
  let frozen := !good && x.c.st == .closed
  let sat := sat || termSat t (good || x.c.st == .parked) (frozen || x.c.st == .tripped)
  let x := { x with c := { x.c with
    e := if good then t.e else freeE, man := i.man, fb := if i.fbOk && !frozen then i.fb else x.c.fb,
    xff := if lpMode r != 0 then i.xff else x.c.xff } }
  let x := loopSupervise r i yPrev x
  let x := if track && (x.c.st == .closing || x.c.st == .closed) then { x with c := { x.c with st := .parked } } else x
  (x, b, sat || i.sat, hosts)

/-- Output in servo units while the station is STOPPED (R122, R213): hold, or SUBST_VALUE; where the field is 0 no rule gives Y
(log entry 128). -/
def substY (r : CfgRec) (freeY : Int) (c : LoopSt) : Int :=
  match r.u 0x0B 1 with
  | 0 => freeY
  | 1 => c.y
  | _ => r.i 0x50 4

/-- A stopped station's pass of one loop (R213): sources and status alone. -/
def loopIdle (r : CfgRec) (i : LoopIn) (freeE : Int) (c : LoopSt) : LoopSt × Bool :=
  let t := loopTerms r c i
  ({ c with y := substY r freeE c, e := if i.spOk && i.fbOk then t.e else freeE, d := if c.st == .tripped then c.d else t.d,
            fb := i.fb, xff := if lpMode r != 0 then i.xff else c.xff, man := i.man, seq := i.seq,
            qb := if i.spOk && i.fbOk then 0 else c.qb }, termSat t (i.spOk && i.fbOk) (c.st == .tripped) || i.sat)

/-- The status entry of R221. -/
def statusEntry (c : LoopSt) : List Byte :=
  leBytes c.st.code 1 ++ leBytes c.cause 1 ++ leBytes c.lstat 2 ++
  ([c.e, c.y, c.i, c.d, c.fb, c.xff].flatMap fun x => leBytes (unsigned 32 x) 4) ++ leBytes c.fe 2 ++ leBytes c.qb 2

/-- A loop reads an MX-1 field (R213). -/
def loopMx (s : State) (r : CfgRec) : Bool :=
  inMx (r.u 0x0C 4) (descAt r 0x0C).size || inMx (r.u 0x1C 4) (descAt r 0x1C).size ||
  (lpInhib r && inMx (r.u 0x4C 4) 1) ||
  (lpMode r != 0 && if lpChain r then (s.cfgRec 0x0901 (r.u 0x2C 4 % 16)).elim false chainMx
    else inMx (r.u 0x2C 4) (descAt r 0x2C).size)

/-- Level of the task whose writes cover a byte (R238). -/
def writerLevel (s : State) (a : Nat) : Nat :=
  ((List.range 16).find? fun n => (s.st.mpu.get n []).any fun w => decide (w.1 ≤ a ∧ a < w.1 + w.2)).getD 0

/-- The quality byte of a loop's sink in a data field (R222). -/
def sinkGood (s : State) (l : LaneId) (r : CfgRec) (tripped : Bool) : State :=
  match sinkQuality s (descAt r 0x3C).addr with
  | none => s
  | some q => s.wrImg l q 1 (b2n (!tripped))

/-- Step 7: the sink field and the quality byte of a data field (R222). -/
def writeSink (s : State) (l : LaneId) (r : CfgRec) (raw : Nat) (tripped : Bool) : State :=
  let d := descAt r 0x3C
  sinkGood (s.wrImg l d.addr d.size raw) l r tripped

/-- Reports of a pass, from the lane that acts (R238, R242, R243). -/
def loopReport (s : State) (l : LaneId) (n : Nat) (e : LoopEv) : State :=
  let data := dataObj24 s n
  match e with
  | .trip cause before => raise s { src := 160, code := cause, data := data, lane := l, pay := [0, 0] ++ leBytes before 1 ++ [3] }
  | .moved code kind no before after =>
    raise s { src := 161, code := code, data := data, lane := l,
              pay := leBytes kind 1 ++ leBytes no 1 ++ leBytes before 1 ++ leBytes after 1 }
  | .refused kind no before req =>
    raise s { src := 162, code := 0x20, data := data, lane := l,
              pay := leBytes kind 1 ++ leBytes no 1 ++ leBytes before 1 ++ leBytes req 1 }
  | .discard =>
    if (s.st.loopStage.get? n).isNone then s
    else raise (s.updSt fun t => { t with loopStage := t.loopStage.erase n }) { src := 162, code := 0x21, data := data, lane := l }

/-! LOOP_PARAM (R240 to R242) -/

/-- Ranges of the bytes of one parameter word by its record offset: the offset in the word of the first field out of
its own range (R216). -/
def paramWordBad (off w : Nat) : Option Nat :=
  let byteMax (l : List (Nat × Nat)) : Option Nat := (l.find? fun p => decide (p.2 < fld w (8 * p.1) 8)).map fun p => p.1
  match off with
  | 0x54 => byteMax [(0, 31), (1, 26), (2, 31), (3, 31)]
  | 0x58 => byteMax [(0, 31), (1, 31), (2, 0), (3, 0)]
  | 0x7C => if 2 ^ 31 ≤ w then some 0 else none
  | 0x80 => if 2 ^ 31 ≤ w then some 0 else none
  | 0x84 => if 2 ^ 31 ≤ w then some 0 else none
  | 0x88 => if fld w 16 16 = 0 then some 2 else none
  | 0x8C => if w = 1 ∨ 2 ^ 31 < w then some 0 else none
  | _ => none

/-- The relations of R241 over a whole record: the record offset of the first inconsistent field. -/
def paramInconsistent (r : CfgRec) : Option Nat :=
  firstBad [(decide (r.i 0x74 4 ≤ r.i 0x78 4), 0x74), (decide (r.i 0x6C 4 ≤ r.i 0x70 4), 0x6C),
    (decide (r.u 0x64 4 ≤ 2 ^ r.u 0x58 1), 0x64),
    (decide (r.i 0x74 4 ≤ r.i 0x90 4 ∧ r.i 0x90 4 ≤ r.i 0x78 4), 0x90),
    (decide (r.i 0x74 4 ≤ r.i 0x50 4 ∧ r.i 0x50 4 ≤ r.i 0x78 4), 0x50)]

/-- Words merged in ascending offsets, a later word replacing an earlier one (R241). -/
def mergeWords (old new : List (Nat × Nat)) : List (Nat × Nat) := new.foldl (fun (t : Tab Nat) w => t.set w.1 w.2) old

/-- The record with its words replaced. -/
def withWords (r : CfgRec) (ws : List (Nat × Nat)) : CfgRec :=
  { r with bytes := ws.foldl (fun b w => overwrite b w.1 (leBytes w.2 4)) r.bytes }

/-- The loop record of the accepted configuration replaced (R242). -/
def setLoopRec (s : State) (r : CfgRec) : State :=
  s.updSt fun t => { t with cfg := t.cfg.map fun rs => rs.map fun x => if x.typ == 0x0801 && x.inst == r.inst then r else x }

/-- Records of an application (R242). -/
def paramRecords (s : State) (old new : CfgRec) (ws : List (Nat × Nat)) : State :=
  let n := old.inst
  let off := (ws.head?.map fun w => w.1).getD 0
  let head := leBytes off 2 ++ leBytes ws.length 1
  let pair (o : Nat) := leBytes (old.u o 4) 4 ++ leBytes (new.u o 4) 4
  let s := raise s { src := 162, code := 0x22, data := dataObj24 s n, lane := s.mainLane, control := true,
                     pay := head ++ [1] ++ pair 0x5C ++ pair 0x60 ++ pair 0x68 }
  raise s { src := 162, code := 0x122, lane := s.mainLane, control := true, ring := false,
            pay := leBytes (dataObj24 s n) 4 ++ head ++ [2] ++ pair 0x74 ++ pair 0x78 }

/-- A LOOP_PARAM taken in step 3: by the state of the loop on the lane that acts, the inhibit judged before it. -/
def applyParam (s : State) (q : LoopAsk) : State :=
  let m := (s.part q.part).main
  match s.cfgRec 0x0801 q.loop with
  | none => s
  | some r =>
    if !(m.busy && m.phase == .waiting && word m.cmd 0 % 65536 == 0x0042) then s
    else
      let c := (s.lane s.mainLane).loops.get q.loop {}
      let trips := s.st.engaged && inhibited s s.mainLane r
      match (if trips then LoopPhase.tripped else c.st) with
      | .open_ =>
        let r' := withWords r q.words
        let s := setLoopRec (s.updSt fun t => { t with loopStage := t.loopStage.erase q.loop }) r'
        answer (paramRecords s r r' q.words) q.part false OK
      | .tripped => answer s q.part false LOOP_TRANSITION q.loop 3
      | _ => answer s q.part false LOOP_CLOSED q.loop

/-- The tick whose pass is the first to start after now: the loop engine starts at the input swap (R133, R237, R241). -/
def nextPass (s : State) : Nat := if (s.lane s.mainLane).swapTick = some s.grid.tick then s.grid.tick + 1 else s.grid.tick

/-- A request that the present tick's pass of loop n takes. -/
def askDue (s : State) (n : Nat) (q : LoopAsk) : Bool := q.loop == n && decide (q.tick ≤ s.grid.tick)

/-- The applications due for loop n: made before any lane's pass of the tick, so that both lanes take them together. -/
def applyParams (s : State) (n : Nat) : State :=
  let due := s.st.loopParams.filter (askDue s n)
  due.foldl applyParam (s.updSt fun t => { t with loopParams := t.loopParams.filter fun q => !askDue s n q })

/-! The pass -/

def loopOf (v : Lane) (n : Nat) : LoopSt := v.loops.get n {}

/-- A host's request answered with its outcome (R237). -/
def answerMode (s : State) (n : Nat) (o : LoopAsk × Bool × Nat) : State :=
  let m := (s.part o.1.part).urg
  if m.busy && m.phase == .waiting && word m.cmd 0 % 65536 == 0x0041 then
    if o.2.1 then answer s o.1.part true OK else answer s o.1.part true LOOP_TRANSITION n o.2.2
  else s

/-- One loop's pass of the present tick on a lane; it is made once in a tick (R213, R236). -/
def loopPass (s0 : State) (l : LaneId) (n : Nat) : State :=
  if (loopOf (s0.lane l) n).done = some s0.grid.tick then s0
  else
    let s := applyParams s0 n
    match s.cfgRec 0x0801 n with
    | none => s
    | some r =>
      let c0 := loopOf (s.lane l) n
      let i := loopIn s l r c0
      let (k, s) := s.takeFree
      let freeE := signed 32 (Config.freeNat k)
      let acts := runsRole (s.lane l).role
      let staged := (s.st.loopStage.get? n).isSome
      if s.st.engaged then
        let mine := if acts then s.st.loopModes.filter (askDue s n) else []
        let s := if acts then s.updSt fun t => { t with loopModes := t.loopModes.filter fun q => !askDue s n q } else s
        let (x, b, sat, hosts) := loopRun r i { level := writerLevel s (loopCmd n + 0x0D), hosts := mine } (!acts) freeE c0
        let left := x.evs.contains .discard && acts
        let s5 := (toSink (descAt r 0x3C) x.c.y).2
        let parked := x.c.st == .parked
        let c := { x.c with done := some s.grid.tick,
                            lstat := loopStat i b (sat || (!parked && s5)) (loopMx s r) (x.c.st == .open_ && x.c.held) (staged && !left) }
        let s := s.updLane l fun v => { v with loops := v.loops.set n c }
        let s := if acts then x.evs.foldl (fun s e => loopReport s l n e) s else s
        hosts.foldl (fun s o => answerMode s n o) s
      else
        let (c, sat) := loopIdle r i freeE c0
        let c := { c with done := some s.grid.tick, lstat := loopStat i {} sat (loopMx s r) (c.st == .open_ && c.held) staged }
        s.updLane l fun v => { v with loops := v.loops.set n c }

/-- Sink of a stopped station's loop (R122, R213): 0, its last value, or SUBST_VALUE; the loop is OPEN, so its quality is 1 (R222). -/
def substSink (s : State) (l : LaneId) (r : CfgRec) : State :=
  match r.u 0x0B 1 with
  | 0 => writeSink s l r 0 false
  | 1 => sinkGood s l r false
  | _ => writeSink s l r (toSink (descAt r 0x3C) (r.i 0x50 4)).1 false

/-- LOOP status entries and sinks at the output cut-off (R133, R139, R221, R222) of the loops passed in this tick. A PARKED loop
writes no sink (R239). -/
def publishLoop (s : State) (l : LaneId) (r : CfgRec) : State :=
  let c := loopOf (s.lane l) r.inst
  if c.done ≠ some s.grid.tick then s
  else
    let s := s.updImg l fun m => m.writeN (loopStatus r.inst) (statusEntry c)
    if s.st.engaged = false then substSink s l r
    else if c.st = .parked then s
    else writeSink s l r (toSink (descAt r 0x3C) c.y).1 (c.st == .tripped)

def publishLoops (s : State) (l : LaneId) : State := (recsOf s.cfgRecs 0x0801).foldl (fun s r => publishLoop s l r) s

/-- The order of R138: loops that read no MX-1 field first. -/
def loopOrder (s : State) : List Nat :=
  let rs := sortBy (fun a b => decide (a.inst ≤ b.inst)) (recsOf s.cfgRecs 0x0801)
  ((rs.filter fun r => !loopMx s r) ++ rs.filter (loopMx s)).map fun r => r.inst

/-- LOOP_MODE commands that no pass will take: the loops no longer run (R237). -/
def refuseModes (s : State) : State :=
  let qs := s.st.loopModes
  qs.foldl (fun s q =>
    let m := (s.part q.part).urg
    if m.busy && m.phase == .waiting && word m.cmd 0 % 65536 == 0x0041 then answer s q.part true WRONG_STATE s.st.phase.code else s)
    (s.updSt fun t => { t with loopModes := [] })

/-- The loops' work of a tick; `late` names the first loop that the engine did not reach by the cut-off (R143, R243). -/
def loopPasses (s : State) (l : LaneId) (late : Option Nat) : State :=
  let ns := match late with
    | none => loopOrder s
    | some n => (loopOrder s).takeWhile fun m => m != n
  let s := ns.foldl (fun s n => loopPass s l n) s
  let s := if s.st.engaged || !runsRole (s.lane l).role then s else refuseModes s
  match late with
  | some n => if runsRole (s.lane l).role then raise s { src := 163, code := 1, data := dataObj24 s n, lane := l } else s
  | none => s

/-! START, STOP and commits -/

/-- START's TICK (R234, R237, R238): OPEN, held at the substitute or at the value of the sink's field; TRIP_CAUSE is kept (R221), and
FE_CNT and QBAD_CNT begin at 0 (log entry 153). -/
def startLoop (s : State) (l : LaneId) (r : CfgRec) : State :=
  let v := s.lane l
  let d := descAt r 0x3C
  let y := if r.u 0x0B 1 = 2 then r.i 0x50 4 else fromSink d (v.img.rdU d.addr d.size)
  let c : LoopSt := { loopOf v r.inst with
    st := .open_, held := true, fe := 0, qb := 0, y := y, initReq := bit (r.u 8 2) 5,
    man := v.frozen.rdI (loopCmd r.inst + 8) 4, seq := v.frozen.rdU (loopCmd r.inst + 0x0D) 1 }
  let s := s.updLane l fun v => { v with loops := v.loops.set r.inst c }
  if runsRole (s.lane l).role then loopReport s l r.inst (.moved 0x12 0 0 (loopOf v r.inst).st.code 0) else s

def startLoops (s : State) (l : LaneId) : State := (recsOf s.cfgRecs 0x0801).foldl (fun s r => startLoop s l r) s

/-- STOP's TICK (R123, R234): every loop OPEN. -/
def stopLoop (s : State) (l : LaneId) (r : CfgRec) : State :=
  let c := loopOf (s.lane l) r.inst
  let s := s.updLane l fun v => { v with loops := v.loops.set r.inst { c with st := .open_, held := true, initReq := false } }
  if runsRole (s.lane l).role && c.st != .open_ then loopReport s l r.inst (.moved 0x12 0 0 c.st.code 0) else s

def stopLoops (s : State) (l : LaneId) : State := (recsOf s.cfgRecs 0x0801).foldl (fun s r => stopLoop s l r) s

/-- The LOOP area after a configuration is applied (R221): a new or changed loop is OPEN; one without a record reads 0xFF. -/
def loopApply (old new : List CfgRec) (s : State) (l : LaneId) : State :=
  (List.range 128).foldl (fun s n =>
    match findRec new 0x0801 n with
    | none => s.updLane l fun v => { v with loops := v.loops.erase n, img := v.img.writeN (loopStatus n) (0xFF :: zeros 31) }
    | some r =>
      if (findRec old 0x0801 n).map (fun x => x.bytes) = some r.bytes then s
      else s.updLane l fun v => { v with loops := v.loops.set n {}, img := v.img.writeN (loopStatus n) (statusEntry {}) }) s

/-! Rows -/

/-- LOOP_MODE (R93, R237): held for the first pass of the loop engine that starts from now. -/
def execLoopMode (p : Part) (s : State) : Host.Outcome State Fault Refusal :=
  .next (serve s p 0x0041 fun s ws =>
    needOperator s p true
      (let n := fld (word ws 1) 0 8
       let mode := fld (word ws 1) 8 2
       match s.cfgRec 0x0801 n with
       | none => answer s p true BAD_FIELD 4
       | some r =>
         if mode = 3 ∨ fld (word ws 1) 10 22 ≠ 0 then answer s p true BAD_FIELD 5
         else if !bit (r.u 8 2) 6 then answer s p true ROLE_DENIED (s.roleOf p)
         else if s.st.phase != .running then answer s p true WRONG_STATE s.st.phase.code
         else (s.updSt fun t => { t with loopModes := t.loopModes ++ [{ part := p, loop := n, mode := mode, tick := nextPass s }] }).updMb p true
           fun m => { m with phase := .waiting }))

/-- Words of a LOOP_PARAM command with their record offsets. -/
def paramWords (ws : List Word) : List (Nat × Nat) :=
  (List.range (ws.length - 2)).map fun i => (fld (word ws 1) 16 16 + 4 * i, word ws (i + 2))

/-- LOOP_PARAM (R240, R241). -/
def execLoopParam (p : Part) (s : State) : Host.Outcome State Fault Refusal :=
  .next (serve s p 0x0042 fun s ws =>
    needLock s p false
      (let n := fld (word ws 1) 0 8
       let hold := bit (word ws 1) 8
       let off := fld (word ws 1) 16 16
       let new := paramWords ws
       match s.cfgRec 0x0801 n with
       | none => answer s p false BAD_FIELD 4
       | some r =>
         if fld (word ws 1) 9 7 ≠ 0 then answer s p false BAD_FIELD 5
         else if off < 0x54 ∨ off % 4 ≠ 0 ∨ 0x118 < off + 4 * new.length then answer s p false BAD_FIELD 6
         else match new.findSome? fun w => (paramWordBad w.1 w.2).map fun b => 8 + (w.1 - off) + b with
           | some b => answer s p false BAD_FIELD b
           | none =>
             let merged := mergeWords (s.st.loopStage.get n []) new
             if hold then answer (s.updSt fun t => { t with loopStage := t.loopStage.set n merged }) p false OK
             else match paramInconsistent (withWords r merged) with
               | some o => answer s p false BAD_RECORD o
               | none =>
                 (s.updSt fun t => { t with loopParams := t.loopParams ++ [{ part := p, loop := n, words := merged, tick := nextPass s }] }).updMb p false
                   fun m => { m with phase := .waiting }))

/-- A row that names one trip: the loop's pass is made now when it trips with this cause. -/
def loopRow (s : State) (l : LaneId) (n cause : Nat) : State :=
  match s.cfgRec 0x0801 n with
  | none => s
  | some r =>
    if !(engineReady s l (loopMx s r) && s.st.engaged) then s
    else
      let s' := if lpChain r then (s.cfgRec 0x0901 (r.u 0x2C 4 % 16)).elim s (fun k => chainPass s l k) else s
      let s' := loopPass s' l n
      let c := loopOf (s'.lane l) n
      if (loopOf (s.lane l) n).st != .tripped && c.st == .tripped && c.cause == cause then s' else s

/-- LOOP_QBAD_EXPIRED (R230). -/
def execLoopQbadExpired (l : LaneId) (n : Fin 128) (s : State) : Host.Outcome State Fault Refusal :=
  .next (loopRow s l n.val 2)

/-- LOOP_FE_EXPIRED (R231). -/
def execLoopFeExpired (l : LaneId) (n : Fin 128) (s : State) : Host.Outcome State Fault Refusal :=
  .next (loopRow s l n.val 1)

end Sys2Proof.Machine
end

