-- ==== Sys2Proof/Machine/Mx.lean ====
section
/-! DEFINITION. Feedback ports of MX-1: encoders, RS-422, and the frame that carries them with SC0 and SC1
(14_analogue_and_feedback_io.md R370 to R381). -/

namespace Sys2Proof.Machine

def encRec (s : State) (n : Nat) : Option CfgRec := s.cfgRec 0x0701 n
def encMode (s : State) (n : Nat) : Nat := (encRec s n).elim 0 fun r => r.u 8 1
def rsRec (s : State) (p : Nat) : Option CfgRec := s.cfgRec 0x0710 p

def encIn (n : Nat) : Nat := aIN + 0x810 + 32 * n
def encOut (n : Nat) : Nat := aOUT + 0x200 + 16 * n
def rsIn (p : Nat) : Nat := aIN + 0x1000 + 0x800 * p
def rsOut (p : Nat) : Nat := aOUT + 0x400 + 0x80 * p

def encOf (s : State) (n : Nat) : Enc := (s.island mxIsl).mx.enc.get n {}
def setEnc (s : State) (n : Nat) (x : Enc) : State :=
  s.updIsl mxIsl fun v => { v with mx := { v.mx with enc := v.mx.enc.set n x } }

def rsOf (s : State) (p : Nat) : Rs422 := (s.island mxIsl).mx.rs.get p {}
def setRs (s : State) (p : Nat) (x : Rs422) : State :=
  s.updIsl mxIsl fun v => { v with mx := { v.mx with rs := v.mx.rs.set p x } }

/-- T_SSI in ns (R135): FRAME_BITS + 1 periods of the slowest configured SSI channel. -/
def tSsiOf (rs : List CfgRec) : Nat :=
  (recsOf rs 0x0701).foldl (fun m r =>
    if r.u 8 1 = 2 ∧ r.u 0x0C 2 ≠ 0 then max m (((r.u 0x0A 1 + 1) * 1000000 + r.u 0x0C 2 - 1) / r.u 0x0C 2) else m) 0

/-! Encoders -/

/-- Quadrature position of a level pair: 00, 10, 11, 01 count up (R371). -/
def quadPos (a b : Bool) : Nat :=
  match a, b with
  | false, false => 0
  | true, false => 1
  | true, true => 2
  | false, true => 3

/-- Counts run modulo 2³². -/
def wrap32 (i : Int) : Nat := unsigned 32 i

/-- ENCODER_EDGE (R371): the new levels of A and B, `dt` ns after the edge; an interface that does not count follows the levels. -/
def execEncoderEdge (n : Fin 8) (a b : Bool) (dt : Nat) (tooFast : Bool) (s : State) : Host.Outcome State Fault Refusal :=
  .next (match encRec s n.val with
    | none => setEnc s n.val { encOf s n.val with a := a, b := b }
    | some r =>
      if r.u 8 1 != 1 then setEnc s n.val { encOf s n.val with a := a, b := b }
      else
        let x := encOf s n.val
        let d := (quadPos a b + 4 - quadPos x.a x.b) % 4
        let x := { x with a := a, b := b, rate := x.rate || tooFast }
        if d = 0 then setEnc s n.val x
        else if d = 2 then setEnc s n.val { x with quad := true }
        else
          let up := (d == 1) != bit (r.u 9 1) 1
          let k : Int := if up then 1 else -1
          let run := x.run + k
          setEnc s n.val { x with count := wrap32 (x.count + k), run := run, last := some ((s.grid.now + dt) / 10 * 10, run), fresh := true })

/-- Encoder and RS-422 events (R381). -/
def encEvent (s : State) (n code : Nat) : State :=
  raise s { src := 134, code := code, data := dataObj24 s n, lane := s.mainLane, obj := if code = 1 then none else some n }

def rsEvent (s : State) (p code : Nat) : State :=
  raise s { src := 135, code := code, data := dataObj24 s p, lane := s.mainLane, obj := if code = 1 then none else some p }

/-- ENCODER_Z_EDGE (R371): the count latched; Z_PERIOD checked against the Z edge before. -/
def execEncoderZEdge (n : Fin 8) (s : State) : Host.Outcome State Fault Refusal :=
  .next (match encRec s n.val with
    | none => s
    | some r =>
      let x := encOf s n.val
      if r.u 8 1 != 1 || !bit (r.u 9 1) 0 then s
      else
        let p := r.u 0x14 4
        let d := signed 32 (x.count + 2 ^ 32 - x.zCount)
        let bad := x.zSeen && p != 0 && d != (p : Int) && d != -(p : Int)
        let zErr := if p = 0 ∨ x.zSeen = false then x.zErr else bad
        let s := setEnc s n.val { x with zCount := x.count, zSeq := (x.zSeq + 1) % 256, zSeen := true, zErr := zErr }
        if zErr && !x.zErr then encEvent s n.val 3 else s)

/-- SPEED of an INCREMENTAL interface at an edge (R372): `hist` holds the last edge as of the edges before, newest first. Where no
edge stands at or before the window's start, the rule gives no value: `open_` (log entry 131). -/
def incSpeed (r : CfgRec) (now : Nat) (x : Enc) (open_ : Int) : Int :=
  let k := r.u 0x10 2
  match x.last, x.hist[k - 1]? with
  | none, _ => 0
  | some (t2, c2), some (some (t1, c1)) =>
    if r.u 0x12 2 ≤ x.silent then 0
    else if t1 ≠ t2 then (if c1 = c2 then 0 else rneInt ((c2 - c1) * 1000000000) (t2 - t1))
    else
      let most := if now ≤ t2 then x.speed.natAbs else rne 1000000000 (now - t2)
      let v : Int := min x.speed.natAbs most
      if x.speed < 0 then -v else v
  | some _, _ => if r.u 0x12 2 ≤ x.silent then 0 else open_

/-- The frame bits of an SSI position, MSB first (R373). -/
def bitsNat (bs : List Bool) : Nat := bs.foldl (fun a b => 2 * a + b2n b) 0

/-- Gray code decoded, MSB first. -/
def grayBits : Bool → List Bool → List Bool
  | _, [] => []
  | p, b :: r => (p != b) :: grayBits (p != b) r

def ssiPosition (r : CfgRec) (bits : List Bool) : Nat :=
  let p := (bits.drop (r.u 0x0E 1)).take (r.u 0x0B 1)
  bitsNat (if bit (r.u 9 1) 2 then grayBits false p else p)

/-- SPEED of an SSI interface: the change over the last SPEED_TICKS frames, modulo 2^POS_BITS, per second (R372); `open_` before there
are that many (log entry 131). -/
def ssiSpeed (s : State) (r : CfgRec) (pos : List Nat) (open_ : Int) : Int :=
  let k := r.u 0x10 2
  match pos.head?, pos[k]? with
  | some a, some b =>
    rneInt (signed (r.u 0x0B 1) (a + 2 ^ r.u 0x0B 1 - b % 2 ^ r.u 0x0B 1) * 1000000000) (k * s.lenNs)
  | _, _ => open_

/-- The entry of R374. -/
def encEntry (low : Bool) (mode : Nat) (x : Enc) (ack : Nat) : List Byte :=
  if mode = 0 then zeros 32
  else
    let bad := x.wire || x.quad || x.rate || x.ssi || x.parity || x.err || low
    leBytes x.count 4 ++ leBytes (unsigned 32 (clampI i32lo i32hi x.speed)) 4 ++ leBytes (if mode = 2 then 0 else x.zCount) 4 ++
      leBytes x.zSeq 1 ++ leBytes (b2n !bad) 1 ++ leBytes (maskOf [x.wire, x.quad, x.zErr, x.ssi, x.parity, x.err, x.rate]) 1 ++
      leBytes ack 1 ++ leBytes (if mode = 2 then 0 else (x.last.map fun e => e.1).getD 0) 4 ++ zeros 12
where
  i32lo : Int := -2147483648
  i32hi : Int := 2147483647

/-- An encoder interface at an edge: latch, SPEED, preset, entry (R371, R372, R375). Every interface follows PRESET_SEQ (R380). -/
def encEdge (s : State) (n : Nat) (wire : Bool) : State × List Byte :=
  let x0 := encOf s n
  let isl := s.island mxIsl
  let seq := isl.applied.rdU (encOut n) 1
  let idle := setEnc s n { x0 with preset := seq }
  match encRec s n with
  | none => (idle, zeros 32)
  | some r =>
    let wire := wire && bit (r.u 9 1) 4
    let s := if wire && !x0.wire then encEvent s n 1 else s
    match r.u 8 1 with
    | 0 => (idle, zeros 32)
    | 1 =>
      let s := if x0.quad || x0.rate then encEvent s n 2 else s
      let (k, s) := s.takeFree
      let x := { x0 with wire := wire, silent := if x0.fresh then 0 else x0.silent + 1 }
      let x := { x with speed := incSpeed r s.grid.now x (Config.freeNat k % 2 ^ 32), hist := (x.last :: x.hist).take 1001, fresh := false }
      let now := isl.base = false ∧ seq ≠ x.preset
      let ack := if now then seq else x.ack
      let e := encEntry isl.mx.low 1 x ack
      let x := { x with preset := seq, ack := ack, quad := false, rate := false,
                        count := if now then isl.applied.rdU (encOut n + 4) 4 else x.count }
      let s := setEnc s n x
      (if now then encEvent s n 5 else s, e)
    | _ =>
      let x := { x0 with wire := wire, preset := seq }
      (setEnc s n x, encEntry isl.mx.low 2 x 0)

/-- SSI_FRAME_COMPLETE (R373): the checks of a frame, its position, and its entry in the frame of this tick. -/
def execSsiFrameComplete (n : Fin 8) (ready : Bool) (bits : List Bool) (monoflop : Bool) (s : State) :
    Host.Outcome State Fault Refusal :=
  .next (match encRec s n.val with
    | none => s
    | some r =>
      if r.u 8 1 != 2 then s
      else
        let x := encOf s n.val
        let bits := (bits ++ List.replicate (r.u 0x0A 1) false).take (r.u 0x0A 1)
        let ssi := !ready || !monoflop
        let parity := bit (r.u 9 1) 3 && (bits.filter id).length % 2 == 1
        let err := r.u 0x0F 1 != 0xFF && bits.getD (r.u 0x0F 1) false
        let ok := !ssi && !parity && !err
        let count := if ok then ssiPosition r bits else x.count
        let pos := (count :: x.pos).take 1001
        let (k, s) := s.takeFree
        let x' := { x with ssi := ssi, parity := parity, err := err, count := count, pos := pos, speed := ssiSpeed s r pos (Config.freeNat k % 2 ^ 32) }
        let s := setEnc s n.val x'
        let s := if (ssi && !x.ssi) || (parity && !x.parity) || (err && !x.err) then encEvent s n.val 4 else s
        s.updIsl mxIsl fun v =>
          { v with frame := v.frame.map fun f => { f with data := f.data.writeN (encIn n.val) (encEntry v.mx.low 2 x' 0) } })

/-! RS-422 -/

/-- RS422_SENTENCE (R377): the text from its start delimiter, completed `dt` ns after the edge. -/
def execRs422Sentence (port : Fin 4) (text : List Byte) (framingError : Bool) (dt : Nat) (s : State) :
    Host.Outcome State Fault Refusal :=
  let p := port.val
  .next (match rsRec s p with
    | none => s
    | some r =>
      let x := rsOf s p
      let t := chop text
      if framingError || decide (80 < t.length) || !nmeaOk t (bit (r.u 9 1) 0) then
        rsEvent (setRs s p { x with csFail := (x.csFail + 1) % 2 ^ 32 }) p 2
      else setRs s p { x with sentences := (x.sentences + 1) % 2 ^ 32, rx := x.rx ++ [⟨s.grid.tick, s.grid.now + dt, t⟩] })

/-- An extraction entry matches the address of a sentence; "--" matches any talker (R376). -/
def entryMatch (r : CfgRec) (e : Nat) (t : List Byte) : Bool :=
  let want := r.bytes.drop (0x10 + 8 * e)
  let have_ := nmeaAddress t
  have_.length == 5 && (want.take 2 == [0x2D, 0x2D] || want.take 2 == have_.take 2) && (want.drop 2).take 3 == have_.drop 2

/-- A lane drives the island: the token is held, and an update was accepted for the present edge. Outside it is the dead-ball interval,
in a change of ends the tick from edge S + 1 (R286; log entry 147). -/
def Island.driven (x : Island) : Bool := x.holder.isSome && x.accNow

/-- Transmission at an edge (R379): a change of TX_SEQ asks; one request waits; none starts through a dead-ball interval. -/
def rsTransmit (s : State) (p : Nat) (r : CfgRec) : State :=
  let isl := s.island mxIsl
  let x := rsOf s p
  let seq := isl.applied.rdU (rsOut p) 1
  let n := isl.applied.rdU (rsOut p + 1) 1
  let asks := bit (r.u 9 1) 1 && !isl.base && seq != x.txSeq && decide (1 ≤ n ∧ n ≤ 80)
  let text := isl.applied.readN (rsOut p + 4) n
  let text := if bit (r.u 9 1) 2 then appendSum text else text
  let x := { x with txSeq := seq }
  let s := if asks then
      (if x.waiting.isSome then
        rsEvent (setRs s p { x with waiting := some text, overrun := (x.overrun + 1) % 2 ^ 32 }) p 3
      else setRs s p { x with waiting := some text })
    else setRs s p x
  let x := rsOf s p
  match x.sending, x.waiting with
  | none, some t =>
    if isl.driven then (setRs s p { x with sending := some t, waiting := none }).emit (.rs422 p t) else s
  | _, _ => s

/-- RS422_TX_DONE (R379): the sentence is out; the waiting one follows, but not in a dead-ball interval. -/
def execRs422TxDone (port : Fin 4) (s : State) : Host.Outcome State Fault Refusal :=
  let p := port.val
  let x := rsOf s p
  .next (if x.sending.isNone then s
    else match x.waiting with
      | some t =>
        if (s.island mxIsl).driven then (setRs s p { x with sending := some t, waiting := none }).emit (.rs422 p t)
        else setRs s p { x with sending := none }
      | none => setRs s p { x with sending := none })

/-- An RS-422 port at an edge: sentences completed before it enter samples and ring (R132, R377, R378). While the field supply is low no
sample is good (R490). A port without a record follows TX_SEQ (R380). -/
def rsEdge (s : State) (p : Nat) (line : Bool) (m : Mem) : State × Mem :=
  match rsRec s p with
  | none => (setRs s p { rsOf s p with txSeq := (s.island mxIsl).applied.rdU (rsOut p) 1 }, m)
  | some r =>
    let s := rsTransmit s p r
    let x := rsOf s p
    let now := x.rx.filter fun e => decide (e.tick < s.grid.tick)
    let base := rsIn p
    let (m, head) := now.foldl (fun (a : Mem × Nat) e =>
      (a.1.writeN (base + 0x120 + 96 * (a.2 % 16)) (leBytes e.time 4 ++ leBytes e.text.length 1 ++ zeros 3 ++ padTo 88 e.text),
        (a.2 + 1) % 2 ^ 32)) (m, x.head)
    let es := List.range (r.u 0x0A 1)
    let (m, overl) := es.foldl (fun (a : Mem × Nat) e =>
      let hits := now.filter fun t => entryMatch r e t.text
      let at_ := base + 0x10 + 16 * e
      match hits.getLast? with
      | none => (a.1.wrU (at_ + 4) 1 (b2n (x.good.contains e)), a.2)
      | some t => (a.1.writeN at_ (sampleEntry (a.1.readN at_ 16) t.text (r.u (0x15 + 8 * e) 1) t.time), a.2 + (hits.length - 1))) (m, 0)
    let good := es.filter fun e => bit (m.rdU (base + 0x14 + 16 * e) 1) 0
    let m := if (s.island mxIsl).mx.low then es.foldl (fun m e => m.wrU (base + 0x14 + 16 * e) 1 0) m else m
    let x' := { x with overrun := (x.overrun + overl) % 2 ^ 32, head := head, line := line, good := good,
                       rx := x.rx.filter fun e => !decide (e.tick < s.grid.tick) }
    let s := setRs s p x'
    let s := if line && !x.line then rsEvent s p 1 else s
    let s := if overl ≠ 0 then rsEvent s p 3 else s
    let m := m.writeN base (leBytes x'.sentences 4 ++ leBytes x'.csFail 4 ++ leBytes x'.overrun 4 ++
      leBytes (maskOf [line, x'.sending.isSome]) 1 ++ zeros 3)
    (s, m.writeN (base + 0x110) (leBytes head 4))

/-! The island's edge -/

/-- SC0 and SC1 at an edge of MX-1 (R332, R338, R339): control, objects, receive parts. While the island stands at its
substitutes the objects carry theirs. -/
def scEdge (s : State) (m : Mem) : State × Mem :=
  [8, 9].foldl (fun (a : State × Mem) p =>
    let isl := a.1.island mxIsl
    let f := if isl.subst then
        (canObjs a.1 p).foldl (fun m r =>
          let at_ := canTxBase p + 80 * (r.inst % 64)
          (m.writeN at_ (List.replicate 8 1)).writeN (at_ + 0x10) (objSubst r (m.readN (at_ + 0x10) (objLen r)))) isl.applied
      else isl.applied
    let s := if isl.base then
        (canObjs a.1 p).foldl (fun s r => updCan s .a p fun c =>
          let o := c.objs.get (r.inst % 64) {}
          { c with objs := c.objs.set (r.inst % 64) { o with req := f.rdU (canTxBase p + 80 * (r.inst % 64) + 8) 1 } })
          (updCan a.1 .a p fun c => { c with ctrl := f.rdU (canCtlBase p) 1 })
      else a.1
    let s := canEnqueue (canControl s .a p f none) .a p f
    let (c, m, overl) := canSwap s p (canPort s .a p) a.2
    let s := updCan s .a p fun _ => c
    (overl.foldl (fun s b => canEvent s .a p 97 1 none (leBytes b 1)) s, m)) (s, m)

/-- An edge of MX-1 (R371 to R380). -/
def mxEdge (s : State) (wire line : List Bool) (temp : Int) (m : Mem) : State × Mem :=
  let m := m.writeN (aIN + 0x800) (leBytes s.tickNo 4 ++ leBytes (tSsiOf s.cfgRecs) 4 ++ leBytes (unsigned 16 temp) 2 ++ zeros 6)
  let (s, m) := (List.range 8).foldl (fun (a : State × Mem) n =>
    let (s, e) := encEdge a.1 n (wire.getD n false)
    (s, a.2.writeN (encIn n) e)) (s, m)
  let (s, m) := (List.range 4).foldl (fun (a : State × Mem) p => rsEdge a.1 p (line.getD p false) a.2) (s, m)
  scEdge s m

/-- MX-1 after a configuration is applied: interfaces and ports with a changed record start over. -/
def mxApply (old new : List CfgRec) (s : State) : State :=
  let same (t n : Nat) : Bool := (findRec old t n).map (fun r => r.bytes) == (findRec new t n).map (fun r => r.bytes)
  let s := (List.range 8).foldl (fun s n =>
    let x := encOf s n
    if same 0x0701 n then s else setEnc s n { preset := x.preset, ack := x.ack, a := x.a, b := x.b }) s
  let s := (List.range 4).foldl (fun s p => if same 0x0710 p then s
    else (setRs s p { txSeq := (rsOf s p).txSeq }).updIsl mxIsl fun v =>
      { v with frame := v.frame.map fun f => { f with data := f.data.clear (rsIn p) 0x800 } }) s
  [8, 9].foldl (fun s p => if canBytes old p = canBytes new p then s
    else (canApplyPort old new p s .a).updIsl mxIsl fun v =>
      { v with frame := v.frame.map fun f => { f with data := f.data.clear (canRxBase p) 0x1A00 } }) s

end Sys2Proof.Machine
end

