-- ==== Sys2Proof/Machine/Commit.lean ====
section
/-! DEFINITION. Shared operations of a commit (00 R14, 03 R91, 16 R419 to R421): the records of an image, its digest and seal, how
a commit ends. -/

namespace Sys2Proof.Machine

/-- The records of an image body, each with its offset (R14), and the offset of the first header that does not fit. -/
def recsFrom : Nat → Nat → List Byte → List CfgRec → List CfgRec × Option Nat
  | 0, off, bs, acc => (acc.reverse, if bs.isEmpty then none else some off)
  | n + 1, off, bs, acc =>
    if bs.isEmpty then (acc.reverse, none)
    else
      let len := rdU bs 4 2
      if len < 8 ∨ len % 4 ≠ 0 ∨ bs.length < len then (acc.reverse, some off)
      else recsFrom n (off + len) (bs.drop len)
        (⟨off, rdU bs 0 2, rdU bs 2 1, rdU bs 3 1, rdU bs 6 2, bs.take len⟩ :: acc)

/-- The records of an image, trailer excluded. -/
def imageRecs (img : List Byte) : List CfgRec × Option Nat :=
  recsFrom (img.length / 8 + 1) 0 (img.take (img.length - 4)) []

def recsOr (x : List CfgRec × Option Nat) : List CfgRec := x.1

/-- The digest of an image (R419): SHA-256 over its records in order, without the trailer and every 0x0E02 record. -/
def digestOf (rs : List CfgRec) : List Byte := sha256 ((rs.filter fun r => r.typ != 0x0E02).flatMap fun r => r.bytes)

/-- The digest that the newest seal of a kind holds (R420, R421). -/
def sealDigest (s : State) (code : Nat) : Option (List Byte) := (sealPayload s code).map fun b => b.take 32

/-- SEAL_NO of the next seal of a kind, counted from 1 (R420). -/
def nextSealNo (s : State) (code off : Nat) : Nat := (sealPayload s code).elim 1 fun b => rdU b off 4 + 1

def sealRecord (s : State) (code : Nat) (pay : List Byte) : State :=
  writeNow s { src := 208, code := code, sev := 4, origin := laneNo s.mainLane, payload := padTo 36 pay, bypass := true }

/-- The CHANGE_LOG record (R420). -/
def changeLog (s : State) (target part cflags : Nat) (old new : List Byte) : State :=
  sealRecord s 0x0A14 (leBytes target 1 ++ leBytes part 1 ++ leBytes cflags 1 ++ [0] ++ padTo 16 old ++ padTo 16 new)

/-- EV208: the target in [31:24] (R428). -/
def sealEvent (s : State) (code target : Nat) : State :=
  raise s { src := 208, code := code, data := dataObj24 s target, lane := s.mainLane }

/-- Writes the CHANGE_LOG and a new seal of a digest (R420, R421). -/
def writeSeal (s : State) (target code part cflags : Nat) (digest : List Byte) : State :=
  let old := (sealDigest s code).getD []
  let first := old.isEmpty
  let s := changeLog s target part (cflags + (if first then 2 else 0)) old digest
  sealEvent (sealRecord s code (digest ++ leBytes (nextSealNo s code 32) 4)) 2 target

/-- The commit's command still waits in its partition's mailbox. -/
def commitAsked (s : State) (c : Commit) : Bool :=
  let m := (s.part c.part).main
  m.busy && m.phase == .waiting && word m.cmd 0 % 65536 == 0x0022

/-- A commit fails: the station is unchanged and the staging area is kept (R91). -/
def commitFail (s : State) (c : Commit) (r : Reject) : State :=
  let asked := commitAsked s c
  let s := s.updSt fun t => { t with commit := none }
  if asked then answer s c.part false r.status r.d0 r.d1 r.data else s

/-- A commit succeeds: the staging area is freed, TICK is the edge of application (R91), the commit is recorded (R48). -/
def commitOk (s : State) (c : Commit) (d0 tick : Nat) : State :=
  let asked := commitAsked s c
  let s := s.updSt fun t => { t with commit := none, stage := t.stage.erase c.target }
  let s := noteUnnamed s .commit s.mainLane (leBytes c.part 1 ++ leBytes c.target 1)
  if asked then respond s c.part false OK d0 0 (tick % 2 ^ 32) else s

end Sys2Proof.Machine
end

