-- ==== Sys2Proof/Machine/SafetyCheck.lean ====
section
/-! DEFINITION. The checks of a safety image (15 R386 to R389, R393, R398; 16 R406, R407, R414), and its records as SK-1 uses
them. -/

namespace Sys2Proof.Machine

def safetyRecs (img : List Byte) : List CfgRec := recsOr (imageRecs img)

def rsv (r : CfgRec) (off n : Nat) : Bool := r.u off n == 0

def inRange (lo hi v : Nat) : Bool := decide (lo ≤ v ∧ v ≤ hi)

/-- Wrapper (R387): TICK_US must equal the accepted profile's. -/
def wrapperOk (s : State) (r : CfgRec) : Bool :=
  r.inst == 0 && r.bytes.length == 48 && r.flags == 0 && (r.u 8 2 == 500 || r.u 8 2 == 1000) && r.u 0x0A 2 == s.tickUs &&
  inRange 6 1000 (r.u 0x0C 2) && inRange 0x300 0x304 (r.u 0x0E 2) && asciiPad ((r.bytes.drop 0x10).take 16) && rsv r 0x28 8

/-- Input pair (R393). -/
def pairRecOk (r : CfgRec) : Bool :=
  let m := r.u 8 1
  let src (k : Nat) : Bool := decide (k < 4) || (k == 0xFF && m == 3)
  decide (r.inst < 8) && r.bytes.length == 24 && r.flags == 0 && decide (m < 4) &&
  src (r.u 9 1) && src (r.u 0x0A 1) && ((m != 1 && m != 2) || r.u 9 1 != r.u 0x0A 1) &&
  decide (r.u 0x0B 1 ≤ 100) && decide (r.u 0x0C 2 ≤ 300) && r.u 0x0C 2 % 50 == 0 && inRange 5 500 (r.u 0x0E 2) && rsv r 0x12 6

/-- Output pair (R398). -/
def outRecOk (r : CfgRec) : Bool :=
  decide (r.inst < 4) && r.bytes.length == 16 && r.flags == 0 && decide (r.u 8 1 < 3) && rsv r 9 1 &&
  inRange 100 400 (r.u 0x0A 2) && rsv r 0x0C 4

/-- Program pieces of one processor in INSTANCE order: no gap, at most 256 KiB (R386, R388). -/
def pieceOk (rs : List CfgRec) (r : CfgRec) : Bool :=
  let base := if r.inst < 0x100 then 0 else 0x100
  let side := rs.filter fun q => q.typ == 0x0A50 && decide (base ≤ q.inst ∧ q.inst < base + 0x100)
  decide (r.inst < 0x200) && decide (12 ≤ r.bytes.length) && r.flags == 0 &&
  (r.inst == base || side.any fun q => q.inst + 1 == r.inst) &&
  decide ((side.foldl (fun (n : Nat) (q : CfgRec) => n + (q.bytes.length - 8)) 0) ≤ 262144)

/-- The sum of R414 that TE must exceed, in µs. -/
def teBound (s : State) (r : CfgRec) (cycle : Nat) : Nat :=
  let p := r.u 0x14 2
  r.u 0x16 2 + p * ((3 + p - 1) / p + 1) * r.u 0x12 2 + 5 * s.tickUs + cycle

/-- PDU length of a payload length (R408). -/
def pduLen (len : Nat) : Nat := 8 + 4 * ((len + 3) / 4)

/-- Connection (R406, R407, R414). -/
def connRecOk (s : State) (rs : List CfgRec) (r : CfgRec) : Bool :=
  let cycle := (rs.head?.elim 0 fun w => w.u 8 2)
  let prod := r.u 8 1 == 0
  let flow := (recsOf s.cfgRecs 0x0310).find? fun f => f.u 9 1 == 1 && f.u 0x29 1 == r.inst
  decide (r.inst < 64) && r.bytes.length == 32 && r.flags == 0 && decide (r.u 8 1 < 2) && inRange 1 32 (r.u 9 1) &&
  inRange 1 0xFFFFFFFE (r.u 0x0C 4) && inRange 1 65534 (r.u 0x10 2) && rsv r 0x18 8 &&
  (if prod then rsv r 0x0A 2 && rsv r 0x12 2 && rsv r 0x14 2 && rsv r 0x16 2
   else inRange 10 65530 (r.u 0x0A 2) && inRange 50 1000 (r.u 0x12 2) && inRange 1 4096 (r.u 0x14 2) &&
        (r.u 0x16 2 == 500 || r.u 0x16 2 == 1000)) &&
  match flow with
  | none => false
  | some f =>
    f.u 8 1 == r.u 8 1 && f.u 0x24 2 == pduLen (r.u 9 1) && f.u 0x0B 1 == 7 &&
    (if prod then decide (f.u 0x0C 2 * s.tickUs ≤ cycle)
     else f.u 0x16 2 == r.u 0x10 2 && decide (teBound s r cycle < 100 * r.u 0x0A 2))

/-- One record of a safety image, at position `k` (R386). Both processors' executables must be there: the wrapper answers for
a set that is missing. -/
def safetyRecOk (s : State) (rs : List CfgRec) (r : CfgRec) : Bool :=
  (rs.find? fun q => q.typ == r.typ && q.inst == r.inst).elim false (fun q => q.off == r.off) && r.ver == 1 &&
  match r.typ with
  | 0x0A01 => r.off == 0 && wrapperOk s r && rs.any (fun q => q.typ == 0x0A50 && q.inst == 0) &&
      rs.any fun q => q.typ == 0x0A50 && q.inst == 0x100
  | 0x0A10 => r.off != 0 && pairRecOk r
  | 0x0A20 => r.off != 0 && outRecOk r
  | 0x0A40 => r.off != 0 && r.inst == 0 && r.bytes.length == 72 && r.flags == 0
  | 0x0A50 => r.off != 0 && pieceOk rs r
  | 0x0A60 => r.off != 0 && connRecOk s rs r
  | _ => false

/-- Structure checks of a safety image (R386). -/
def checkSafety (s : State) (img : List Byte) : Check :=
  if !trailerOk img then some ⟨IMAGE_CHECK, 0, 0, []⟩
  else
    let (rs, cut) := imageRecs img
    lowestBad (cut.toList ++ (if rs.isEmpty then [0] else []) ++ (rs.filter fun r => !safetyRecOk s rs r).map CfgRec.off)

/-! The image in force -/

def skRecs (s : State) : List CfgRec := (s.sk.image.map safetyRecs).getD []

def skWrapper (s : State) (off n d : Nat) : Nat := (findRec (skRecs s) 0x0A01 0).elim d fun r => r.u off n

/-- Safety cycle in µs; 1000 before an image gives it (log entry 60). -/
def skCycleUs (s : State) : Nat := skWrapper s 8 2 1000

def pairRec (s : State) (p : Nat) : Option CfgRec := findRec (skRecs s) 0x0A10 p

/-- MODE of a pair; 0 without a record. -/
def pairMode (s : State) (p : Nat) : Nat := (pairRec s p).elim 0 fun r => r.u 8 1

/-- The test source of an input, when its pair is used and names one (R391, R393). -/
def inputSource (s : State) (i : Nat) : Option Nat :=
  (pairRec s (i / 2)).bind fun r =>
    let k := r.u (9 + i % 2) 1
    if r.u 8 1 = 0 ∨ 4 ≤ k then none else some k

/-- Safe-state values of the request bytes (R402). -/
def safeRequest (s : State) : List Byte := (findRec (skRecs s) 0x0A40 0).elim (zeros 64) fun r => r.bytes.drop 8

end Sys2Proof.Machine
end

