-- ==== Sys2Proof/Machine/ConfigCheck.lean ====
section
/-! DEFINITION. The checks of a configuration image and of an access list (04_startup_and_configuration.md R115 to R118, and the
record tables of the chapters). -/

namespace Sys2Proof.Machine

/-- A record's length and header FLAGS within a mask (R14). -/
def shape (r : CfgRec) (len fmask : Nat) : Bool := r.bytes.length == len && r.flags &&& fmask == r.flags

/-- A field with no bit outside a mask. -/
def within (v mask : Nat) : Bool := v &&& mask == v

def finite32 (v : Nat) : Bool := f32.finite v

/-- An image address of `n` bytes under a configuration and the accepted program (R13). -/
def spanOk (rs : List CfgRec) (prog : Option (List Byte)) (a n : Nat) : Bool :=
  decide (a % 2 ^ 28 + n ≤ areaSizeOf rs prog (a / 2 ^ 28))

/-! Station, clocks and power, network and time (R116, R184, R295, R298, R443) -/

def profileOk (r : CfgRec) : Bool :=
  shape r 32 3 && tickOptions.contains (r.u 8 2) && inRange 8 10000 (r.u 0x0A 2) && inRange 1 65534 (r.u 0x0C 2) && rsv r 0x0E 2 &&
  asciiPad ((r.bytes.drop 0x10).take 16)

def keysOk (r : CfgRec) : Bool :=
  inRange 1 4 (r.u 8 1) && shape r (12 + 32 * r.u 8 1) 0 && rsv r 9 3

def powerRecOk (r : CfgRec) : Bool :=
  shape r 24 0 && within (r.u 8 1) 3 && within (r.u 9 1) 0xF && (bit (r.u 9 1) 2 || r.u 0x0A 1 == 0) && rsv r 0x0B 1 &&
  within (r.u 0x0C 4) 0x7FF && inRange 1 3600 (r.u 0x10 2) && rsv r 0x12 6 && !(bit (r.u 8 1) 1 && r.u 9 1 == 0)

/-- An IPv4 unicast address: not class D or E, not 0, not broadcast. -/
def ipUnicast (a : Nat) : Bool := decide (0x01000000 ≤ a ∧ a < 0xE0000000)

/-- A contiguous mask: ones above zeros. -/
def maskOk (m : Nat) : Bool := (List.range 33).any fun k => m == 2 ^ 32 - 2 ^ k

def networkOk (r : CfgRec) : Bool :=
  shape r 32 0 && inRange 0x600 0xFFFF (r.u 8 2) && within (r.u 0x0A 2) 3 && ipUnicast (r.u 0x0C 4) && maskOk (r.u 0x10 4) &&
  inRange 10 1000 (r.u 0x18 2) && inRange 500 10000 (r.u 0x1A 2) && rsv r 0x1C 4

def timeRecOk (r : CfgRec) : Bool :=
  shape r 24 0 && decide (r.u 8 1 ≤ 127) && within (r.u 9 1) 3 && (decide (253 ≤ r.u 0x0A 1) || r.u 0x0A 1 == 0) &&
  inRange 2 10 (r.u 0x0B 1) && inRange 20 10000 (r.u 0x0C 4) && inRange 1000 1000000000 (r.u 0x10 4) && inRange 1 86400 (r.u 0x14 4)

/-! Flows (R304 to R307, R312) -/

/-- Two ASCII characters or three of a talker or formatter (R312, R376). -/
def asciiText (bs : List Byte) : Bool := bs.all fun b => decide (0x20 ≤ b.toNat ∧ b.toNat < 0x7F)

/-- An extraction entry at an offset of a record: talker, formatter, field number (R312, R376). -/
def extractOk (r : CfgRec) (o : Nat) : Bool := asciiText ((r.bytes.drop o).take 5) && inRange 1 40 (r.u (o + 5) 1) && rsv r (o + 6) 2

/-- A field entry of a process or safety flow (R304). -/
def flowFieldOk (r : CfgRec) (f : Nat) : Bool :=
  let o := 0x30 + 8 * f
  let a := r.u o 2
  let n := r.u (o + 2) 1
  [1, 2, 4, 8].contains n && decide (a + n ≤ r.u 0x24 2) && a % n == 0 && decide (r.u (o + 3) 1 ≤ 2) &&
  (List.range f).all fun g => !overlaps a n (r.u (0x30 + 8 * g) 2) (r.u (0x32 + 8 * g) 1)

/-- The fields of R304 and the cases of R305 that one record shows; `l` is L in ns. -/
def flowRecOk (l : Nat) (r : CfgRec) : Bool :=
  let tx := r.u 8 1 == 0
  let kind := r.u 9 1
  let ia := r.u 0x20 4
  decide (r.inst < 256) && decide (r.u 0x0F 1 ≤ 64) && shape r (48 + 8 * r.u 0x0F 1) 0 && decide (r.u 8 1 ≤ 1) && decide (kind ≤ 2) &&
  decide (r.u 0x0A 1 ≤ 2) && decide (r.u 0x0B 1 ≤ 7) && inRange 1 4096 (r.u 0x0C 2) &&
  (if tx then decide (r.u 0x0E 1 ≤ 55) && decide (r.u 0x10 4 + 1000 ≤ l) && rsv r 0x16 2 && rsv r 0x26 2 && rsv r 0x28 1
   else r.u 0x0E 1 == 0xFF && rsv r 0x10 4 && inRange 1 65534 (r.u 0x16 2) && decide (r.u 0x0C 2 + 1 ≤ r.u 0x26 2) &&
        decide (1 ≤ r.u 0x28 1) && (kind == 2 || rsv r 0x18 6)) &&
  decide (r.u 0x1E 2 ≤ 4094) && inRange 4 1440 (r.u 0x24 2) && r.u 0x24 2 % 4 == 0 && rsv r 0x2A 6 &&
  (if kind = 1 then decide (r.u 0x29 1 ≤ 63) && ia == 0 else r.u 0x29 1 == 0xFF && ia / 2 ^ 28 == (if tx then 4 else 3)) &&
  !(kind == 2 && tx) &&
  (List.range (r.u 0x0F 1)).all fun f => if kind = 2 then extractOk r (0x30 + 8 * f) else flowFieldOk r f

/-- The cases of R305 over several records: at most 64 safety flows, each its own connection; receive flows told apart. -/
def flowSetOk (rs : List CfgRec) (r : CfgRec) : Bool :=
  let before := (recsOf rs 0x0310).filter fun q => decide (q.off < r.off)
  let safe := before.filter fun q => q.u 9 1 == 1
  (r.u 9 1 != 1 || (decide (safe.length < 64) && !safe.any fun q => q.u 0x29 1 == r.u 0x29 1)) &&
  (r.u 8 1 != 1 || !before.any fun q => q.u 8 1 == 1 && q.u 0x16 2 == r.u 0x16 2 && q.u 0x14 2 == r.u 0x14 2)

/-- Wire time of a flow's frame at 1 Gbit/s in ns (R303, R307; log entry 56): preamble 8 and gap 12 around an IEEE 802.3 frame of at
least 64 bytes: addresses 12, tag 4, EtherType 2, header 32, payload, PRP trailer 6, check sequence 4. -/
def frameNs (r : CfgRec) : Nat := 8 * (20 + max 64 (54 + r.u 0x24 2 + if r.u 0x0A 1 = 0 then 6 else 0))

/-- The windows of two transmit flows overlap in some tick (R126, R307): both launch where the tick count is 0 modulo both
periods; a window that runs into the next tick meets a flow that launches there when the periods have no common divisor. -/
def windowsMeet (l : Nat) (a b : CfgRec) : Bool :=
  let o (r : CfgRec) : Nat := r.u 0x10 4
  let next (x y : CfgRec) : Bool := Nat.gcd (x.u 0x0C 2) (y.u 0x0C 2) == 1 && decide (l + o y < o x + frameNs x)
  let port (x y : CfgRec) : Bool := x.u 0x0A 1 == 0 || y.u 0x0A 1 == 0 || x.u 0x0A 1 == y.u 0x0A 1
  port a b && (overlaps (o a) (frameNs a) (o b) (frameNs b) || next a b || next b a)

/-! CAN (R320, R322, R323, R326, R327, R330) -/

/-- Rates of R323 for a port of the lanes, with exact products instead of quotients. -/
def canRatesOk (r : CfgRec) : Bool :=
  let n := r.u 0x0C 2 * (1 + r.u 0x0E 2 + r.u 0x10 1)
  let d := r.u 0x12 1 * (1 + r.u 0x13 1 + r.u 0x14 1)
  let fd := r.u 8 1 == 1
  let tdc := bit (r.u 0x0A 1) 0
  inRange 1 512 (r.u 0x0C 2) && inRange 2 256 (r.u 0x0E 2) && inRange 2 128 (r.u 0x10 1) && inRange 1 (r.u 0x10 1) (r.u 0x11 1) &&
  decide (n * 10000 ≤ 80000000) && decide (80000000 ≤ n * 1000000) &&
  (if fd then inRange 1 32 (r.u 0x12 1) && inRange 1 32 (r.u 0x13 1) && inRange 1 16 (r.u 0x14 1) &&
      inRange 1 (r.u 0x14 1) (r.u 0x15 1) && decide (d ≤ n) && decide (80000000 ≤ d * 8000000) &&
      (tdc || decide (80000000 ≤ d * 2000000))
    else rsv r 0x12 4) &&
  (if tdc then inRange 1 127 (r.u 0x16 1) else rsv r 0x16 1) && decide (r.u 0x17 1 ≤ 127)

def canPortOk (r : CfgRec) : Bool :=
  decide (r.inst < 10) && shape r 48 0 && decide (r.u 8 1 ≤ 1) && decide (r.u 9 1 ≤ 1) && within (r.u 0x0A 1) 0xF &&
  (if r.inst < 8 then rsv r 0x0B 1 && canRatesOk r else rsv r 8 1 && decide (r.u 0x0B 1 ≤ 11) && isZero ((r.bytes.drop 0x0C).take 12)) &&
  within (r.u 0x18 4) 0x9FFFFFFF && within (r.u 0x1C 4) 0x1FFFFFFF && decide (r.u 0x28 1 ≤ 8) && rsv r 0x29 7

def canBuffers (p : Nat) : Nat := if isSc p then 16 else 64

def filterElemOk (rs : List CfgRec) (r : CfgRec) (k : Nat) : Bool :=
  let o := 0x0C + 12 * k
  let w := if k < r.u 8 1 then 2 ^ 11 else 2 ^ 29
  let act := r.u (o + 1) 1
  let all := (findRec rs 0x0401 r.inst).elim false fun q => q.u 9 1 == 0
  decide (r.u o 1 ≤ 2) && decide (act ≤ 2) && !(all && act == 0) &&
  (if act = 2 then decide (r.u (o + 2) 1 < canBuffers r.inst) else rsv r (o + 2) 2) &&
  decide (r.u (o + 4) 4 < w) && decide (r.u (o + 8) 4 < w)

def canFilterOk (rs : List CfgRec) (r : CfgRec) : Bool :=
  let std := r.u 8 1
  let ext := r.u 9 1
  decide (r.inst < 10) && shape r (12 + 12 * (std + ext)) 0 && rsv r 0x0A 2 &&
  (if isSc r.inst then decide (std ≤ 32 ∧ ext ≤ 16) else decide (std ≤ 128 ∧ ext ≤ 64)) &&
  (List.range (std + ext)).all (filterElemOk rs r)

def canObjectOk (rs : List CfgRec) (r : CfgRec) : Bool :=
  let p := r.inst / 64
  let id := r.u 8 4
  let fdf := bit id 30
  let mode := r.u 0x0D 1
  let pos := r.u 0x13 1
  decide (p < 10) && decide (r.inst % 64 < canBuffers p) && shape r 88 0 && (fdf || !bit id 29) &&
  (!fdf || (findRec rs 0x0401 p).elim false fun q => q.u 8 1 == 1) && (bit id 31 || id % 2 ^ 29 / 2 ^ 11 == 0) &&
  decide (r.u 0x0C 1 ≤ if fdf then 15 else 8) && decide (mode ≤ 2) && inRange 1 4096 (r.u 0x0E 2) &&
  (if mode = 0 then decide (r.u 0x10 2 < r.u 0x0E 2) else rsv r 0x10 2) && (mode != 2 || r.u 0x0E 2 == 1) && within (r.u 0x12 1) 1 &&
  (if pos = 0xFF then rsv r 0x14 1 else decide (pos ≤ 63) && [0, 4, 8].contains (r.u 0x14 1)) && decide (r.u 0x15 1 ≤ 2) &&
  decide (r.u 0x16 1 ≤ 2) && rsv r 0x17 1 &&
  -- two objects of a service port with one identifier (R330)
  !(isSc p && (recsOf rs 0x0410).any fun q => decide (q.off < r.off) && q.inst / 64 == p && q.u 8 4 % 2 ^ 29 == id % 2 ^ 29 &&
      bit (q.u 8 4) 31 == bit id 31)

/-! Digital and analogue channels, encoders, RS-422 (R345, R346, R361, R366, R370, R376) -/

/-- A record whose mode is UNUSED: every other field is 0. -/
def unusedOk (r : CfgRec) : Bool := isZero (r.bytes.drop 9)

def dioRecOk (rs : List CfgRec) (r : CfgRec) : Bool :=
  let m := r.u 8 1
  let fl := r.u 9 1
  let cont := (recsOf rs 0x0501).filter fun q => decide (q.off < r.off) && q.inst / 256 == r.inst / 256 && q.u 8 1 == 2
  decide (r.inst / 256 < 2 ∧ r.inst % 256 < 32) && shape r 24 0 && decide (m ≤ 3) &&
  (if m = 0 then unusedOk r
   else within fl 7 && rsv r 0x10 8 &&
     (if m = 3 then !bit fl 1 && rsv r 0x0A 1 && decide (1 ≤ r.u 0x0B 1) && decide (r.u 0x0C 1 ≤ 2) &&
         (if r.u 0x0C 1 = 2 then decide (r.u 0x0D 1 ≤ 1) else rsv r 0x0D 1) &&
         (if bit fl 2 then inRange 100 10000 (r.u 0x0E 2) else rsv r 0x0E 2)
       else !bit fl 2 && decide (1 ≤ r.u 0x0A 1) && isZero ((r.bytes.drop 0x0B).take 5)) &&
     !(m == 2 && decide (16 ≤ cont.length)))

def aiRecOk (r : CfgRec) : Bool :=
  let m := r.u 8 1
  (r.inst / 256 == 2 || r.inst / 256 == 3) && decide (r.inst % 256 < 16) && shape r 24 0 && decide (m ≤ 2) &&
  (if m = 0 then unusedOk r
   else decide (1 ≤ r.u 9 1) && decide (r.u 0x0A 1 ≤ 1) && rsv r 0x0B 1 &&
     (if r.u 0x0A 1 = 1 then decide (r.u 0x0C 4 ≤ 25000000) else rsv r 0x0C 4) &&
     (if m = 2 then inRange 8000 22000 (r.u 0x10 2) else rsv r 0x10 2) && rsv r 0x12 6)

def aoRecOk (r : CfgRec) : Bool :=
  let m := r.u 8 1
  let (lo, hi) := aoRange m
  inRange 0x400 0x40F r.inst && shape r 16 0 && decide (m ≤ 3) &&
  (if m = 0 then unusedOk r
   else within (r.u 9 1) 1 && decide (r.u 0x0A 1 ≤ 2) && rsv r 0x0B 1 &&
     (if r.u 0x0A 1 = 2 then decide (lo ≤ r.i 0x0C 4 ∧ r.i 0x0C 4 ≤ hi) else rsv r 0x0C 4))

/-- An encoder record; T_SSI is bounded by 32 µs and L − 38 µs (R135), Z is for encoders 0 to 3 alone (R522). -/
def encRecOk (l : Nat) (r : CfgRec) : Bool :=
  let m := r.u 8 1
  let n := r.u 0x0A 1
  let tssi := tSsiOf [r]
  decide (r.inst < 8) && shape r 32 0 && decide (m ≤ 2) &&
  (if m = 0 then unusedOk r
   else within (r.u 9 1) 0x1F && !(bit (r.u 9 1) 0 && decide (4 ≤ r.inst)) &&
     (if m = 1 then isZero ((r.bytes.drop 0x0A).take 5) && r.u 0x0F 1 == 0xFF
      else inRange 8 40 n && inRange 8 32 (r.u 0x0B 1) && inRange 100 2000 (r.u 0x0C 2) && decide (r.u 0x0E 1 + r.u 0x0B 1 ≤ n) &&
        (decide (r.u 0x0F 1 < n) || r.u 0x0F 1 == 0xFF)) &&
     inRange 1 1000 (r.u 0x10 2) && decide (r.u 0x10 2 ≤ r.u 0x12 2) && decide (r.u 0x14 4 < 2 ^ 31) && rsv r 0x18 8 &&
     decide (tssi ≤ 32000) && (m != 2 || decide (tssi + 38000 ≤ l)))

def rsRecOk (r : CfgRec) : Bool :=
  decide (r.inst < 4) && decide (r.u 0x0A 1 ≤ 16) && shape r (16 + 8 * r.u 0x0A 1) 0 && inRange 1 6 (r.u 8 1) && within (r.u 9 1) 7 &&
  rsv r 0x0B 5 && (List.range (r.u 0x0A 1)).all fun e => extractOk r (0x10 + 8 * e)

/-! Servo loops (R216 to R219) -/

/-- An IN offset that R360 assigns and that is no reserved field of its block (R325, R329, R335, R354, R365, R369, R374, R378). -/
def inDefined (off : Nat) : Bool :=
  if off < 0x200 then
    let o := off % 0x100
    decide (o < 0x90) && !(inRange 0xE 0xF o)
  else if off < 0x800 then
    let o := off % 0x200
    let e := (o - 0x10) % 16
    decide (o < 0x110) && (if o < 0x10 then o != 6 && o != 7 && decide (o < 0xA)
      else if off < 0x600 then e != 0xB && decide (e < 0xE) else decide (e < 0xC))
  else if off < 0x810 then decide (off < 0x80A)
  else if off < 0x1000 then decide (off < 0x910) && decide ((off - 0x810) % 32 < 0x14)
  else if off < 0x3000 then
    let o := off % 0x800
    if o < 0x10 then decide (o < 0xD)
    else if o < 0x110 then !(inRange 5 7 ((o - 0x10) % 16))
    else if o < 0x120 then decide (o < 0x114)
    else decide (o < 0x720) && !(inRange 5 7 ((o - 0x120) % 96))
  else if 0x4000 ≤ off then
    let o := off % 0x2000
    if o < 0x20 then o != 7 && decide (o < 0x18)
    else if o < 0x30 then o != 0x26 && o != 0x27 && decide (o < 0x2C)
    else decide (0x100 ≤ o ∧ o < 0x1A00) && (o - 0x100) % 80 != 7
  else false

/-- An address that a loop may read: valid, in an area that the loop engine reads (R43), and no reserved place of IN. -/
def readable (rs : List CfgRec) (prog : Option (List Byte)) (a n : Nat) : Bool :=
  [1, 3, 5, 6, 7, 8].contains (a / 2 ^ 28) && spanOk rs prog a n && a % n == 0 && (a / 2 ^ 28 != 1 || (List.range n).all fun k => inDefined (a % 2 ^ 28 + k))

/-- The fields of a descriptor (R217). -/
def descFieldsOk (r : CfgRec) (off : Nat) : Bool :=
  let d := descAt r off
  [1, 2, 4].contains d.fmt && rsv r (off + 6) 2 && (if d.fmt = 4 then d.shift == 0 && finite32 d.k else decide (d.shift ≤ 31) && d.k == 0)

def sourceOk (rs : List CfgRec) (prog : Option (List Byte)) (r : CfgRec) (off : Nat) : Bool :=
  let d := descAt r off
  descFieldsOk r off && readable rs prog d.addr d.size

/-- The feed-forward: a source, a chain with a record, or unused (R216, R219). -/
def feedOk (rs : List CfgRec) (prog : Option (List Byte)) (r : CfgRec) : Bool :=
  if lpMode r = 0 then true
  else if lpChain r then
    decide (r.u 0x2C 4 < 16) && isZero ((r.bytes.drop 0x30).take 12) && (findRec rs 0x0901 (r.u 0x2C 4)).isSome
  else sourceOk rs prog r 0x2C

/-- A sink in OUT is bound to an island channel (R43, R219): an AO channel whole, as a DINT, with the channel in use, or the DATA of a
transmit field of a service port. A DIO channel's type no sink has; the acknowledgements, the encoder control and the RS-422 text are
tasks' alone (R356, R375, R379). -/
def outSinkOk (rs : List CfgRec) (d : Desc) : Bool :=
  let o := d.addr % 2 ^ 28
  if 0x100 ≤ o ∧ o < 0x140 then
    o % 4 == 0 && d.fmt == 2 && (findRec rs 0x0610 (0x400 + (o - 0x100) / 4)).elim false fun q => q.u 8 1 != 0
  else decide (0x1000 ≤ o) && canDataSink d.addr d.size

def sinkOk (rs : List CfgRec) (prog : Option (List Byte)) (r : CfgRec) : Bool :=
  let d := descAt r 0x3C
  let o := d.addr % 2 ^ 28
  descFieldsOk r 0x3C && spanOk rs prog d.addr d.size && d.addr % d.size == 0 &&
  match d.addr / 2 ^ 28 with
  | 2 => outSinkOk rs d
  | 4 => true
  | 5 => canDataSink d.addr d.size
  | 6 => decide (o < 0x1000) && (o % 32 == 0 || o % 32 == 4)
  | _ => false

def loopRecOk (rs : List CfgRec) (prog : Option (List Byte)) (r : CfgRec) : Bool :=
  let words := (List.range 16).map fun k => 0x54 + 4 * k
  decide (r.inst < 128) && shape r 280 0 && within (r.u 8 2) 0xFF && lpMode r != 3 && decide (r.u 0x0A 1 ≤ 2) && decide (r.u 0x0B 1 ≤ 2) &&
  sourceOk rs prog r 0x0C && sourceOk rs prog r 0x1C && feedOk rs prog r && sinkOk rs prog r &&
  (if lpInhib r then readable rs prog (r.u 0x4C 4) 1 else rsv r 0x4C 4) &&
  (words.all fun o => (paramWordBad o (r.u o 4)).isNone) && (paramInconsistent r).isNone

/-! Motion chains (R249 to R251) -/

/-- lo ≤ m · 2^e < hi, or ≤ hi where `le` is set. -/
def coeffIn (w : Nat) (lo hi : Int) (le : Bool) : Bool :=
  let c := coeff w
  let up : Nat := 2 ^ c.e.toNat
  let dn : Nat := 2 ^ (-c.e).toNat
  let v : Int := c.m * up
  decide (lo * dn ≤ v) && (if le then decide (v ≤ hi * dn) else decide (v < hi * dn))

/-- A stage slot in use (R250). -/
def stageOk (r : CfgRec) (i : Nat) : Bool :=
  let o := stageOff i
  let c (k : Nat) : Nat := r.u (o + 4 + 4 * k) 4
  let unused (n : Nat) : Bool := isZero ((r.bytes.drop (o + 4 + 4 * n)).take (28 - 4 * n))
  rsv r (o + 1) 3 &&
  match stageType r i with
  | 1 => unused 5
  | 2 => coeffIn (c 1) 0 1 false && unused 2
  | 3 => coeffIn (c 0) 0 1 false && unused 1
  | 4 => unused 1
  | 5 => coeffIn (c 0) (-1) 64 true && unused 1
  | _ => false

/-- Motion sample entries that RS-422 port records and KIND 2 flow records declare (R251, R312, R378). -/
def sampleEntries (rs : List CfgRec) : List Nat :=
  ((recsOf rs 0x0710).flatMap fun r => (List.range (r.u 0x0A 1)).map fun e => rsIn r.inst + 0x10 + 16 * e) ++
  ((recsOf rs 0x0310).filter fun r => r.u 9 1 == 2).flatMap fun r => (List.range (r.u 0x0F 1)).map fun f => r.u 0x20 4 + 16 * f

def chainRecOk (rs : List CfgRec) (r : CfgRec) : Bool :=
  let n := r.u 8 1
  let extrap := bit (r.u 9 1) 0
  decide (r.inst < 16) && shape r 320 0 && inRange 1 8 n && within (r.u 9 1) 1 && decide (r.u 0x0A 1 < n) && rsv r 0x0B 1 &&
  r.u 0x0C 4 % 8 == 0 && (sampleEntries rs).contains (r.u 0x0C 4) && finite32 (r.u 0x10 4) && r.u 0x10 4 % 2 ^ 31 != 0 &&
  decide (r.u 0x14 4 ≤ 100000) && (if extrap then rsv r 0x18 4 else decide (r.u 0x18 4 ≤ 100000)) && inRange 1000 1000000 (r.u 0x20 4) &&
  decide (r.u 0x1C 4 ≤ r.u 0x20 4) && decide (1 ≤ r.u 0x26 2) && decide (r.u 0x28 4 ≤ 16777215) && finite32 (r.u 0x2C 4) &&
  decide (r.i 0x30 4 ≤ r.i 0x34 4) && rsv r 0x38 8 &&
  (List.range 8).all fun i => if i < n then stageOk r i else isZero ((r.bytes.drop (stageOff i)).take 32)

/-! Redundancy, panel, recorder (R265, R467, R511) -/

def redundancyOk (r : CfgRec) : Bool :=
  shape r 16 1 && [0, 1, 4, 5].contains (r.u 8 1) && rsv r 9 1 && inRange 1 168 (r.u 0x0A 2) && rsv r 0x0C 4

def panelRecOk (r : CfgRec) : Bool :=
  let owner (k : Nat) : Nat := r.u (0x0B + k) 1
  shape r 20 0 && decide (r.u 8 1 ≤ 7) && (r.u 8 1 == 0 || owner (r.u 8 1) != 0xFF) && within (r.u 9 1) 1 && rsv r 0x0A 2 &&
  ((List.range 7).all fun k => decide (owner (k + 1) ≤ 7) || owner (k + 1) == 0xFF) && rsv r 0x13 1

def recorderOk (r : CfgRec) : Bool :=
  let o (i : Nat) : Nat := 0x10 + 8 * i
  let pair (i : Nat) : Nat := pairKey (r.u (o i) 1) (r.u (o i + 2) 2)
  decide (r.u 0x0C 1 ≤ 32) && shape r (16 + 8 * r.u 0x0C 1) 0 && decide (1 ≤ r.u 8 1) && decide (1 ≤ r.u 9 1) &&
  inRange 1 3600 (r.u 0x0A 2) && rsv r 0x0D 3 &&
  (List.range (r.u 0x0C 1)).all fun i =>
    rsv r (o i + 1) 1 && decide (1 ≤ r.u (o i + 4) 1) && decide (1 ≤ r.u (o i + 5) 1) && rsv r (o i + 6) 2 &&
    !bypassPair (r.u (o i) 1) (r.u (o i + 2) 2) && !notedPair (r.u (o i) 1) (r.u (o i + 2) 2) && (List.range i).all fun j => pair j != pair i

/-! The write set of a program against the configuration (R346, R356, R375) -/

/-- The record whose channel forbids a byte of OUT that a program writes: its type and instance; none where it may be written. -/
def writeForbidden (rs : List CfgRec) (a : Nat) : Option (Nat × Nat) :=
  let o := a % 2 ^ 28
  let dio (n : Nat) : Nat := (findRec rs 0x0501 n).elim 0 fun r => r.u 8 1
  if a / 2 ^ 28 ≠ 2 then none
  else if o < 0x100 then
    let base := o / 0x80 * 256
    let k := o % 0x80
    if k < 0x40 then (if dio (base + k % 32) = 3 then none else some (0x0501, base + k % 32))
    else if k < 0x44 then
      let g := k - 0x40
      if (List.range 8).any fun c => dio (base + 8 * g + c) == 3 then none else some (0x0501, base + 8 * g)
    else none
  else if 0x200 ≤ o ∧ o < 0x280 then
    let n := (o - 0x200) / 16
    if (findRec rs 0x0701 n).elim 0 (fun r => r.u 8 1) = 1 then none else some (0x0701, n)
  else none

/-- The bytes of spans. -/
def spanBytes (ws : List (Nat × Nat)) : List Nat := ws.flatMap fun w => (List.range w.2).map fun k => w.1 + k

/-- A byte of LOOP, CAN or SAFE that tasks do not write (R43): reserved or status bytes of LOOP (R220, R221), the receive parts of
CAN (R324), SAFE outside 0x200 to 0x248 (R401; log entry 121). -/
def areaByteBad (a : Nat) : Bool :=
  let o := a % 2 ^ 28
  match a / 2 ^ 28 with
  | 5 => decide (o % 0x8000 < 0x6800) || decide (0x7C10 ≤ o % 0x8000)
  | 6 => decide (0x1000 ≤ o) || decide (0x0E ≤ a % 32)
  | 8 => decide (o < 0x200) || decide (0x248 < o)
  | _ => false

/-- The first task, by its entry's image offset, whose write set a configuration forbids (R43, R220, R221, R346, R375). -/
def taskWriteBad (rs : List CfgRec) (img : List Byte) (xs : List TaskInfo) : Check :=
  ((taskDefs img).filterMap fun t =>
    if (spanBytes (infoOf xs t).outs).any fun a => areaByteBad a || (writeForbidden rs a).isSome then badRec t.off else none).head?

/-- Offsets of the records that an accepted program contradicts with its write set; the profile record where the channel has none. -/
def programForbids (rs : List CfgRec) (xs : List TaskInfo) : List Nat :=
  ((spanBytes (xs.flatMap fun x => x.outs)).filterMap (writeForbidden rs)).map fun k =>
    (findRec rs k.1 k.2).elim 0 CfgRec.off

/-! Resource claims (R118) -/

/-- A claim: resource code, index, the length of a span of image bytes (1 for the others), its claimant (R76). -/
structure Claim where
  code : Nat
  index : Nat
  len : Nat := 1
  owner : Nat
  deriving DecidableEq, Repr

def contactX16 (p : Nat) : List Nat :=
  let k := if p < 6 then 2 * p + 1 else if p < 8 then 16 + 2 * (p - 6) else 20 + 2 * (p - 8)
  [0x1000 + k, 0x1000 + k + 1]

/-- The contact of the + line of pair D<k> of X15 (R522). -/
def contactX15 (k : Nat) : Nat := 0x0F00 + 2 * k + 1

/-- Pairs that an encoder takes (R522). -/
def encPairs (r : CfgRec) : List Nat :=
  let slot := if r.inst < 6 then r.inst else r.inst - 2
  [2 * slot, 2 * slot + 1] ++ if bit (r.u 9 1) 0 then [8 + r.inst] else []

/-- Claims of one configuration record (R43, R219, R251, R307, R322, R326, R330, R346, R361, R366, R370, R376, R519 to R523). A
transmit flow claims its transmission window under the index of its queue; a loop claims the bytes of its sink and the sink's
quality byte. -/
def recClaims (rs : List CfgRec) (r : CfgRec) : List Claim :=
  let owner := r.typ * 65536 + r.inst
  let c (code index : Nat) : Claim := { code := code, index := index, owner := owner }
  let used := r.u 8 1 != 0
  let ch := r.inst % 256
  match r.typ with
  | 0x0310 => c 5 r.inst :: if r.u 8 1 = 0 then [c 6 (r.u 0x0E 1)] else []
  | 0x0401 => (contactX16 r.inst).map (c 1)
  | 0x0402 => (List.range (r.u 8 1 + r.u 9 1)).filterMap fun k =>
      if r.u (0x0D + 12 * k) 1 = 2 then some (c 8 (r.inst * 256 + r.u (0x0E + 12 * k) 1)) else none
  | 0x0410 => if r.inst / 64 < 8 then [c 7 (r.inst / 64 * 2 ^ 29 + r.u 8 4 % 2 ^ 29)] else []
  | 0x0501 => if used then [c 2 r.inst, c 1 ((0x0B + r.inst / 256) * 256 + 10 * (ch / 8) + ch % 8 + 2)] else []
  | 0x0601 => if used then [c 2 r.inst, c 1 (0x0D00 + (if r.inst / 256 = 2 then 1 else 20) + ch)] else []
  | 0x0610 => if used then [c 2 r.inst, c 1 (0x0D00 + 41 + ch)] else []
  | 0x0701 => if used then c 0x0B r.inst :: (encPairs r).map fun k => c 1 (contactX15 k) else []
  | 0x0710 => [c 0x0C r.inst, c 1 (contactX15 (4 + 2 * r.inst))] ++
      if bit (r.u 9 1) 1 then [c 1 (contactX15 (5 + 2 * r.inst))] else []
  | 0x0801 => [c 9 r.inst, { c 3 (r.u 0x3C 4) with len := (descAt r 0x3C).size }] ++
      (sinkQualityOf rs (r.u 0x3C 4)).toList.map (c 3)
  | 0x0901 => [c 0x0A r.inst]
  | _ => []

/-- Claims of a program (R43, R76): the bytes of OUT, FLOWOUT, CAN and LOOP that each task writes. -/
def taskClaims (xs : List TaskInfo) : List Claim :=
  xs.flatMap fun x => (x.outs.filter fun w => [2, 4, 5, 6].contains (w.1 / 2 ^ 28)).map fun w =>
    { code := 3, index := w.1, len := w.2, owner := 0xFFFF0000 + x.level }

/-- Two claims of one resource: spans that overlap, or transmission windows that do, of the flows of a configuration with tick
length `l` (R307). -/
def claimsMeet (rs : List CfgRec) (l : Nat) (a b : Claim) : Bool :=
  a.code == b.code &&
  if a.code = 6 then
    match findRec rs 0x0310 (a.owner % 65536), findRec rs 0x0310 (b.owner % 65536) with
    | some x, some y => windowsMeet l x y
    | _, _ => false
  else overlaps a.index a.len b.index b.len

/-- The first claim that an earlier one has already made, in order. -/
def firstConflict (meet : Claim → Claim → Bool) : List Claim → List Claim → Option (Claim × Claim)
  | _, [] => none
  | seen, c :: r =>
    match seen.find? fun q => meet q c with
    | some q => some (q, c)
    | none => firstConflict meet (seen ++ [c]) r

def conflict (owner1 owner2 code index : Nat) : Check := some ⟨RESOURCE_CONFLICT, owner1, owner2, [code, index]⟩

/-- No resource claimed twice (R118): claims of the accepted images first, then those of the committed one. -/
def checkClaims (rs : List CfgRec) (l : Nat) (accepted committed : List Claim) : Check :=
  (firstConflict (claimsMeet rs l) accepted committed).bind fun x =>
    conflict x.1.owner x.2.owner x.1.code (if x.1.code = 6 then x.2.index else max x.1.index x.2.index)

/-! The images -/

/-- One record of a configuration image (R115). -/
def cfgRecOk (rs : List CfgRec) (prog : Option (List Byte)) (l : Nat) (r : CfgRec) : Bool :=
  (rs.find? fun q => q.typ == r.typ && q.inst == r.inst).elim false (fun q => q.off == r.off) && r.ver == 1 &&
  (r.typ == 0x0101) == (r.off == 0) &&
  match r.typ with
  | 0x0101 => r.inst == 0 && profileOk r
  | 0x0102 => r.inst == 0 && keysOk r
  | 0x0201 => r.inst == 0 && powerRecOk r
  | 0x0301 => r.inst == 0 && networkOk r
  | 0x0302 => r.inst == 0 && timeRecOk r
  | 0x0310 => flowRecOk l r && flowSetOk rs r
  | 0x0401 => canPortOk r
  | 0x0402 => canFilterOk rs r
  | 0x0410 => canObjectOk rs r
  | 0x0501 => dioRecOk rs r
  | 0x0601 => aiRecOk r
  | 0x0610 => aoRecOk r
  | 0x0701 => encRecOk l r
  | 0x0710 => rsRecOk r
  | 0x0801 => loopRecOk rs prog r
  | 0x0901 => chainRecOk rs r
  | 0x0B01 => r.inst == 0 && redundancyOk r
  | 0x0C01 => r.inst == 0 && panelRecOk r
  | 0x0D01 => r.inst == 0 && recorderOk r
  | _ => false

/-- TICK_US of a configuration's records. -/
def tickUsOf (rs : List CfgRec) : Nat := (findRec rs 0x0101 0).elim 0 fun r => r.u 8 2

/-- T_SSI in whole µs, rounded up, as admission charges it (R157). -/
def tSsiUs (rs : List CfgRec) : Nat := (tSsiOf rs + 999) / 1000

/-- Checks against the accepted program (R117, R276, R346). -/
def cfgAgainstProgram (s : State) (rs : List CfgRec) (xs : List TaskInfo) : Check :=
  let adm : Check := match s.st.prog with
    | some img => checkAdmission img xs (tickUsOf rs) (tSsiUs rs)
    | none => none
  adm <|> checkMirror rs s.st.prog (tickUsOf rs)

/-- Offsets of the records of an image that fail a check of their own. -/
def badOffs (rs : List CfgRec) (ok : CfgRec → Bool) : List Nat := (rs.filter fun r => !ok r).map CfgRec.off

/-- The checks of R115 and R118 for a configuration image; with an accepted safety image TICK_US may not change (R387). -/
def checkConfig (s : State) (img : List Byte) : Check :=
  if !trailerOk img then some ⟨IMAGE_CHECK, 0, 0, []⟩
  else
    let (rs, cut) := imageRecs img
    let l := tickUsOf rs * 1000
    let xs := (s.st.prog.map taskInfos).getD []
    let profile := if rs.isEmpty || (s.st.safetyAccepted && tickUsOf rs != s.tickUs) then [0] else []
    lowestBad (cut.toList ++ profile ++ badOffs rs (cfgRecOk rs s.st.prog l) ++ programForbids rs xs) <|>
      checkClaims rs l (taskClaims xs) (rs.flatMap (recClaims rs)) <|> cfgAgainstProgram s rs xs

/-- A program image against the accepted configuration (R185): the write sets stand beside the task entries (R220, R346,
R375), the claims last. -/
def checkProgramCommit (s : State) (img : List Byte) (total : Nat) : Check :=
  let rs := s.cfgRecs
  let xs := taskInfos img
  checkProgram rs img total <|> taskWriteBad rs img xs <|> checkLoad rs img s.tickUs (tSsiUs rs) <|>
    checkClaims rs s.lenNs (rs.flatMap (recClaims rs)) (taskClaims xs)

/-- One record of an access list (R84, R418). -/
def accessRecOk (rs : List CfgRec) (r : CfgRec) : Bool :=
  (rs.find? fun q => q.typ == r.typ && q.inst == r.inst).elim false (fun q => q.off == r.off) && r.ver == 1 &&
  match r.typ with
  | 0x0E01 => decide (r.inst < 8) && shape r 48 0 && inRange 1 3 (r.u 8 1) && inRange 1 7 (r.u 9 1) && within (r.u 0x0A 1) 1 &&
      rsv r 0x0B 1 && (bit (r.u 9 1) 2 || isZero ((r.bytes.drop 0x10).take 32))
  | 0x0E02 => r.inst == 0 && shape r 56 0
  | _ => false

def checkAccess (img : List Byte) : Check :=
  if !trailerOk img then some ⟨IMAGE_CHECK, 0, 0, []⟩
  else
    let (rs, cut) := imageRecs img
    lowestBad (cut.toList ++ badOffs rs (accessRecOk rs))

end Sys2Proof.Machine
end

