-- ==== Sys2Proof/Machine/SafetyKernel.lean ====
section
/-! DEFINITION. SK-1: kernel states, the safety cycle, lane values, connections (15 R382 to R389, R396, R400 to R402; 16 R408 to
R413). -/

namespace Sys2Proof.Machine

def SkPhase.code : SkPhase → Nat
  | .selftest => 0
  | .waitImage => 1
  | .verify => 2
  | .run => 3
  | .safeStop => 4
  | .dormant => 5

def PairPhase.code : PairPhase → Nat
  | .locked => 0
  | .opened => 1
  | .closing => 2
  | .released => 3
  | .demand => 4
  | .fault => 5

def ConnPhase.code : ConnPhase → Nat
  | .unused => 0
  | .wait => 1
  | .run => 2
  | .failed => 3

def State.updSk (s : State) (f : Sk → Sk) : State := { s with sk := f s.sk }

def Sk.input (k : Sk) (i : Nat) : SkIn := k.ins.get i {}
def Sk.src (k : Sk) (i : Nat) : SkSrc := k.srcs.get i {}
def Sk.pair (k : Sk) (p : Nat) : SkPair := k.pairs.get p {}
def Sk.output (k : Sk) (o : Nat) : SkOut := k.outs.get o {}
def Sk.conn (k : Sk) (c : Nat) : SkConn := k.conns.get c {}

def State.updPair (s : State) (p : Nat) (f : SkPair → SkPair) : State :=
  s.updSk fun k => { k with pairs := k.pairs.set p (f (k.pair p)) }
def State.updOut (s : State) (o : Nat) (f : SkOut → SkOut) : State :=
  s.updSk fun k => { k with outs := k.outs.set o (f (k.output o)) }
def State.updConn (s : State) (c : Nat) (f : SkConn → SkConn) : State :=
  s.updSk fun k => { k with conns := k.conns.set c (f (k.conn c)) }

/-- Code 2 of WIN_STATUS bit 16 and SK_FLAGS bit 0 (R385). -/
def skReady (s : State) : Bool := s.sk.phase == .run

/-- An SK-1 event with its object; SK-1 writes through the active lane (R48, R405). -/
def skEvent (s : State) (src code obj : Nat) (pay : List Byte := []) (limited : Bool := true) : State :=
  raise s { src := src, code := code, data := dataObj24 s obj, pay := pay, lane := s.mainLane, writer := some 2,
            obj := if limited then some obj else none }

/-- One output off by both processors. -/
def SkOut.off (o : SkOut) : SkOut := if o.x || o.y then { o with x := false, y := false, since := 0, mid := true, seen := false } else o

def outputsOff (s : State) : State := s.updSk fun k => { k with outs := k.outs.map fun e => (e.1, e.2.off) }

/-- A kernel state is entered: EV192 (R405). Outside RUN every output is off (R400). -/
def enterSk (s : State) (ph : SkPhase) (pay : List Byte := []) : State :=
  let s := s.updSk fun k => { k with phase := ph }
  let s := if ph == .run then s else outputsOff s
  skEvent s 192 ph.code 0 pay false

/-- A kernel fault or failed self-test: SAFE_STOP with its code; an image in verification is refused (R385, R403). -/
def safeStop (s : State) (code : Nat) : State :=
  let verifying := s.sk.phase == .verify || s.sk.cand.isSome
  let s := enterSk (s.updSk fun k => { k with fault := code % 65536, cand := none, left := none, resume := false }) .safeStop (leBytes code 2)
  if verifying then
    match s.st.commit with
    | some c =>
      if c.target = 3 ∧ c.forwarded = true then
        -- no chapter gives the code of a commit that a kernel fault ends (log entry 61)
        let (n, s) := s.takeFree
        commitFail s c ⟨failCodes.getD (Config.freeNat n % failCodes.length) IMAGE_CHECK, 0, 0, []⟩
      else s
    | none => s
  else s

/-- SK_KERNEL_FAULT (R383, R385, R403). -/
def execSkKernelFault (code : Nat) (s : State) : Host.Outcome State Fault Refusal :=
  .next (if s.sk.powered && (s.sk.phase == .run || s.sk.phase == .verify) then safeStop s code else s)

/-- SK_PERIODIC_SELFTEST (R385): a pass changes nothing. -/
def execSkPeriodicSelftest (ok : Bool) (code : Nat) (s : State) : Host.Outcome State Fault Refusal :=
  .next (if s.sk.powered && s.sk.phase == .run && !ok then safeStop s code else s)

/-- SK_SELFTEST_DONE (R385): to WAIT_IMAGE at power-up; after DORMANT to where it was left, an image being verified again;
after SAFE_STOP to VERIFY of the image committed. -/
def execSkSelftestDone (ok : Bool) (code : Nat) (s : State) : Host.Outcome State Fault Refusal :=
  let k := s.sk
  .next (if !k.powered || k.phase != .selftest then s
    else if !ok then safeStop s code
    else
      let s := s.updSk fun k => { k with left := none }
      match k.left with
      | some .run | some .verify =>
        enterSk (s.updSk fun k => { k with cand := if k.cand.isSome then k.cand else k.image, image := none, resume := false }) .verify
      | some .safeStop => enterSk s .safeStop (leBytes k.fault 2)
      | some _ => enterSk s .waitImage
      | none => if k.cand.isSome then enterSk s .verify else enterSk s .waitImage)

/-- Every pair goes to LOCKED (R394); an armed proof test stays armed. -/
def lockPairs (s : State) : State :=
  s.updSk fun k => { k with pairs := (List.range 8).map fun p =>
    (p, { k.pair p with phase := .locked, timer := 0, disc := false, test := false }) }

/-- SK_IMAGE_FORWARDED (R42, R385): the island manager has passed the image of a commit of target 3 to SK-1 unchanged. -/
def execSkImageForwarded (s : State) : Host.Outcome State Fault Refusal :=
  .next (match s.st.commit with
    | none => s
    | some c =>
      if c.target ≠ 3 ∨ c.forwarded = true ∨ s.st.phase ≠ .stopped ∨ s.sk.powered = false then s
      else
        let mark (s : State) := (s.updSt fun t => { t with commit := some { c with forwarded := true } }).updSk fun k =>
          { k with cand := some c.image, resume := k.phase == .run }
        match s.sk.phase with
        | .waitImage | .run => enterSk (mark s) .verify
        | .safeStop => enterSk (lockPairs (mark s)) .selftest
        | _ => s)

/-- Connections start with RUN (R408, R410, R412): consumers in WAIT; producers mark RESTART, their newest PDU stays. -/
def startConns (s : State) : State :=
  let rs := recsOf (skRecs s) 0x0A60
  let s := s.updSk fun k => { k with conns := rs.map fun r =>
    (r.inst, { (if r.u 8 1 = 1 then { phase := .wait, cause := (k.conn r.inst).cause } else { phase := .run, seq := (k.conn r.inst).seq, pdu := (k.conn r.inst).pdu } : SkConn) with
      fails := (k.conn r.inst).fails }) }
  (rs.filter fun r => r.u 8 1 == 1).foldl (fun s r => skEvent s 200 1 r.inst [] false) s

/-- RUN is entered on a verified image: pairs LOCKED, outputs off, connections accepted (R385); where no lane values are in use, the
image's own safe-state values are (R402). -/
def enterRun (s : State) (img : List Byte) : State :=
  let s := s.updSk fun k => { k with image := some img, cand := none, resume := false }
  let s := startConns (lockPairs s)
  let s := if s.sk.rebase || s.sk.subst || s.sk.split then s.updSk fun k => { k with req := safeRequest s } else s
  enterSk s .run

/-- A check of VERIFY fails (R385): the old image runs on, or SK-1 waits for an image; the commit ends with the code. An image kept
through Dark that fails is discarded (R451). -/
def verifyFails (s : State) (r : Reject) : State :=
  let back := s.sk.resume
  let s := s.updSk fun k => { k with cand := none, resume := false, image := if back then k.image else none }
  let s := if back then enterSk (startConns (lockPairs s)) .run else enterSk s .waitImage
  match s.st.commit with
  | some c => if c.target = 3 ∧ c.forwarded = true then commitFail s c r else s
  | none => if back then s else s.updSt fun t => { t with safety := none, safetyAccepted := false }

/-- A safety image accepted: held by the station as forwarded, SK-1's digest as given, the commit answered (R91, R421). -/
def verifyPasses (s : State) (img digest : List Byte) (d0 : Nat) : State :=
  let s := enterRun (s.updSk fun k => { k with digest := some digest }) img
  match s.st.commit with
  | some c =>
    if c.target = 3 ∧ c.forwarded = true then
      let s := s.updSt fun t => { t with safety := some img, safetyAccepted := true }
      let s := if d0 = 1 then sealEvent s 1 3 else s
      commitOk s c d0 s.grid.tick
    else s
  | none => s

/-- The seal check of target 3, against SK-1's own copy (R421, R422). -/
def sealCheck (s : State) (img : List Byte) : State :=
  let d := digestOf (safetyRecs img)
  if s.sk.digest = some d then verifyPasses s img d 1
  else match s.st.commit with
    | some c =>
      if c.target ≠ 3 ∨ c.session = false then verifyFails s ⟨SEAL_MISMATCH, 0, 0, []⟩
      else if !s.svc.up then verifyFails s ⟨RECORDER_DOWN, 0, 0, []⟩
      else verifyPasses (writeSeal s 3 0x0A10 c.part 1 d) img d 2
    | none => verifyFails s ⟨SEAL_MISMATCH, 0, 0, []⟩

/-- SK_VERIFY_DONE (R385 to R389, R421): structure checks, the executables' own checks and interface tables as the processors
judge them, then the seal. -/
def execSkVerifyDone (execOk : Bool) (s : State) : Host.Outcome State Fault Refusal :=
  .next (match s.sk.phase, s.sk.cand with
    | .verify, some img =>
      match checkSafety s img with
      | some r => verifyFails s r
      | none =>
        if execOk then sealCheck s img
        else verifyFails s ⟨BAD_RECORD, ((safetyRecs img).find? fun r => r.typ == 0x0A50).elim 0 CfgRec.off, 0, []⟩
    | _, _ => s)

/-- SK-1 goes DORMANT with the station's entry to Dark (R385, R450): the state left is in the payload and is kept. -/
def skDormant (s : State) : State :=
  if s.sk.powered then
    let left := s.sk.phase
    enterSk (s.updSk fun k => { k with left := some left, cand := if left == .verify then k.cand else none, rxA := none, rxB := none })
      .dormant (leBytes left.code 1)
  else s

/-- The wake from Dark (R385, R451). -/
def skWake (s : State) : State := if s.sk.phase == .dormant then enterSk s .selftest else s

/-! Lane values (R402) and proof tests (R396) -/

def proofEvent (s : State) (p code : Nat) (pay : List Byte := []) : State := skEvent s 197 code p pay false

/-- A proof test armed by a change of PROOF_SEQ (R396). -/
def armProof (s : State) (p : Nat) : State := proofEvent (s.updPair p fun q => { q with armed := some s.sk.clock }) p 1

/-- An armed proof test that ends without a pass (R396). -/
def proofNotPassed (s : State) (p : Nat) : State :=
  if (s.sk.pair p).armed.isSome then proofEvent (s.updPair p fun q => { q with armed := none }) p 3 else s

/-- PROOF_AGE_H: whole hours of operating time since the last pass, saturating (R401). -/
def proofAge (s : State) (p : Nat) : Nat := min ((s.svc.rcd.optime - (s.sk.pair p).passAt) / 57600) 65535

/-- A pass: recorded with the operating time, the age returns to 0 (R396). -/
def proofPassed (s : State) (p : Nat) : State :=
  let t := s.svc.rcd.optime
  proofEvent (s.updPair p fun q => { q with armed := none, due := false, passAt := t }) p 2 (leBytes t 6)

/-- PROOF_TEST_EXPIRED (R396). -/
def execProofTestExpired (p : Fin 8) (s : State) : Host.Outcome State Fault Refusal :=
  .next (match (s.sk.pair p.val).armed with
    | some t => if t + 600000000000 ≤ s.sk.clock then proofNotPassed s p.val else s
    | none => s)

/-- PROOF_DUE is set when the age reaches the interval (R396). -/
def proofDue (s : State) (p : Nat) : State :=
  match pairRec s p with
  | some r =>
    if r.u 0x10 2 ≠ 0 ∧ r.u 0x10 2 ≤ proofAge s p ∧ (s.sk.pair p).due = false then
      proofEvent (s.updPair p fun q => { q with due := true }) p 4
    else s
  | none => s

/-- PROOF_INTERVAL_REACHED (R396). -/
def execProofIntervalReached (p : Fin 8) (s : State) : Host.Outcome State Fault Refusal := .next (proofDue s p.val)

/-- The acknowledgement counts for the faults latched at the cycle start (R399, R403). -/
def ackOutputs (s : State) : State :=
  s.updSk fun k => { k with outs := k.outs.map fun e => (e.1, if e.2.latched then { e.2 with acked := true } else e.2) }

/-- A lane frame is taken: REQUEST in use, changes of PROOF_SEQ and FAULT_ACK_SEQ judged, or the baselines set (R396, R402). -/
def takeLane (s : State) (rx : LaneRx) : State :=
  let proof := (rx.safe.drop 64).take 8
  let ack := rdU rx.safe 72 1
  let old := s.sk
  let base := old.rebase || old.subst || old.split
  let s := if old.subst then skEvent s 198 2 0 else s
  let s := s.updSk fun k => { k with req := rx.safe.take 64, proofSeq := proof, ackSeq := ack, rebase := false, subst := false,
                                     split := false, noFrame := 0 }
  if base then s
  else
    let s := (List.range 8).foldl (fun s p => if proof.getD p 0 = old.proofSeq.getD p 0 then s else armProof s p) s
    if ack = old.ackSeq then s else ackOutputs s

/-- The lane watchdog has run out (R402). -/
def laneTimeout (s : State) : Bool :=
  s.sk.image.isSome && !s.sk.subst && decide (skWrapper s 0x0C 2 6 * s.tickUs ≤ s.sk.noFrame * skCycleUs s)

def substLane (s : State) : State :=
  skEvent (s.updSk fun k => { k with subst := true, req := safeRequest s }) 198 1 0

/-- LANE_WATCHDOG_EXPIRED (R402). -/
def execLaneWatchdogExpired (s : State) : Host.Outcome State Fault Refusal :=
  .next (if s.sk.powered && laneTimeout s then substLane s else s)

/-- Lane values at a cycle start (R402). PDUs go on with the frame that is taken. -/
def laneValues (s : State) : Tab (List Byte) × State :=
  let k := s.sk
  let s := s.updSk fun k => { k with rxA := none, rxB := none, noFrame := k.noFrame + 1 }
  match k.rxA, k.rxB with
  | some _, some _ =>
    let s := s.updSk fun k => { k with split := true, req := safeRequest s }
    let s := if k.split then s else skEvent s 198 3 0
    ([], if laneTimeout s then substLane s else s)
  | some rx, none => (rx.pdus, takeLane s rx)
  | none, some rx => (rx.pdus, takeLane s rx)
  | none, none => ([], if laneTimeout s then substLane s else s)

/-! Connections -/

/-- CRC-32 of R409: polynomial 0x741B8CD7, initial value CONN_ID, not reflected, inverted at the end. -/
def pduCheck (connId : Nat) (bs : List Byte) : Nat :=
  Nat.xor (bs.foldl (crcByteMsb 32 0x741B8CD7) connId) 0xFFFFFFFF

/-- A PDU with the fields of R408. -/
def buildPdu (r : CfgRec) (seq : Nat) (valid restart : Bool) (data : List Byte) : List Byte :=
  let len := r.u 9 1
  let body := leBytes seq 2 ++ leBytes len 1 ++ leBytes (b2n valid + 2 * b2n restart) 1 ++
    padTo (4 * ((len + 3) / 4)) (padTo len data)
  body ++ leBytes (pduCheck (r.u 0x0C 4) body) 4

/-- A producer builds one PDU at each cycle end in RUN (R410); RESTART marks the first 16 (R408). -/
def produce (s : State) (r : CfgRec) (out : Bool × List Byte) : State :=
  s.updConn r.inst fun c =>
    let seq := (c.seq + 1) % 65536
    { c with seq := seq, built := c.built + 1, pdu := some (buildPdu r seq out.1 (decide (c.built < 16)) out.2) }

def connFails (s : State) (n cause : Nat) : State :=
  let c := s.sk.conn n
  if c.phase = .run then
    skEvent (s.updConn n fun c => { c with phase := .failed, cause := cause, valid := false, data := [] }) 201 cause n [] false
  else s.updConn n fun c => { c with fails := c.fails + 1 }

/-- TE of a consumer in µs. -/
def teUs (r : CfgRec) : Nat := 100 * r.u 0x0A 2

/-- A PDU is accepted (R412, R413). -/
def connAccepts (s : State) (r : CfgRec) (pdu : List Byte) : State :=
  let n := r.inst
  let c := s.sk.conn n
  let flags := rdU pdu 3 1
  let within := c.last.isSome && decide (c.age * skCycleUs s ≤ teUs r)
  let ph : ConnPhase := match c.phase with
    | .run => .run
    | .wait => if within then .run else .wait
    | _ => .wait
  let valid := ph == .run && bit flags 0
  let data := if valid then (pdu.drop 4).take (r.u 9 1) else []
  let s := s.updConn n fun c =>
    { c with phase := ph, cause := if ph = .run then 0 else c.cause, last := some (rdU pdu 0 2), age := 0, restart := bit flags 1,
             valid := valid, data := data }
  if c.phase = ph then s else skEvent s 200 (if ph = .run then 2 else 1) n [] false

/-- A consumer at a cycle start (R411, R412, R416). -/
def consume (s : State) (r : CfgRec) (pdu : Option (List Byte)) : State :=
  let n := r.inst
  let s := s.updConn n fun c => { c with age := c.age + 1 }
  let c := s.sk.conn n
  let silent (s : State) : State := if c.phase = .run ∧ teUs r ≤ c.age * skCycleUs s then connFails s n 1 else s
  match pdu with
  | none => silent s
  | some b =>
    let k := pduLen (r.u 9 1) - 4
    let good := b.length == k + 4 && rdU b 2 1 == r.u 9 1 && pduCheck (r.u 0x0C 4) (b.take k) == rdU b k 4
    if !good then connFails s n 2
    else match c.last with
      | none => connAccepts s r b
      | some l =>
        let d := diff16 (rdU b 0 2) l
        if d = 0 then silent s else if d < 0 then connFails s n 3 else connAccepts s r b

/-- Consumers at a cycle start; outside RUN no PDU is checked (R411). -/
def consumers (s : State) (pdus : Tab (List Byte)) : State :=
  if s.sk.phase = .run then
    ((recsOf (skRecs s) 0x0A60).filter fun r => r.u 8 1 == 1).foldl (fun s r => consume s r (pdus.get? r.inst)) s
  else pdus.foldl (fun s e => skEvent s 202 1 e.1) s

/-- CONN_TIME_EXPIRED (R412): the coming cycle start reaches TE and no PDU has come for the connection. -/
def execConnTimeExpired (c : Fin 64) (s : State) : Host.Outcome State Fault Refusal :=
  let x := s.sk.conn c.val
  let has (rx : Option LaneRx) : Bool := (rx.bind fun q => q.pdus.get? c.val).isSome
  .next (match findRec (skRecs s) 0x0A60 c.val with
    | some r =>
      if s.sk.phase = .run ∧ x.phase = .run ∧ r.u 8 1 = 1 ∧ teUs r ≤ (x.age + 1) * skCycleUs s ∧
          has s.sk.rxA = false ∧ has s.sk.rxB = false then connFails s c.val 1
      else s
    | none => s)

/-- CONN_STATE of a connection (R413); what a producer shows outside RUN is left open (log entry 132). -/
def connByte (s : State) (r : CfgRec) : Nat :=
  let c := s.sk.conn r.inst
  if r.u 8 1 = 0 then (if s.sk.phase = .run then 2 else Config.unnamedCode 413 % 4) + 4
  else c.phase.code + 8 * c.cause + 64 * b2n c.restart

/-! Publication (R401) -/

/-- A test source is driven (R385, R391). -/
def sourceDriven (s : State) (k : Nat) : Bool :=
  let names (p : Nat) : Bool := (inputSource s (2 * p)) == some k || (inputSource s (2 * p + 1)) == some k
  let wake := (s.cfgRec 0x0201 0).elim 0 fun r => r.u 0x0A 1
  s.sk.powered && s.sk.phase != .selftest && (s.sk.src k).overl.isNone &&
    (List.range 8).any fun p => names p && (s.sk.phase != .dormant || bit wake p)

/-- Inputs are sampled and reported (R385): from the self-test's end; in DORMANT the pairs of WAKE_PAIRS alone. -/
def inputSampled (s : State) (i : Nat) : Bool :=
  s.sk.powered && s.sk.phase != .selftest &&
    (s.sk.phase != .dormant || bit ((s.cfgRec 0x0201 0).elim 0 fun r => r.u 0x0A 1) (i / 2))

def pairBytes (s : State) (p : Nat) : List Byte :=
  let q := s.sk.pair p
  leBytes q.phase.code 1 ++
    leBytes (b2n q.disc + 2 * b2n q.test + 4 * b2n q.due + 8 * b2n q.armed.isSome + 16 * b2n (q.phase == .released)) 1 ++
    leBytes (proofAge s p) 2

def outBytes (o : SkOut) : List Byte :=
  leBytes (b2n o.x + 2 * b2n o.y) 1 ++ leBytes (b2n o.high) 1 ++
    leBytes (b2n o.sw + 2 * b2n o.ext + 4 * b2n o.overl + 8 * b2n o.latched) 1 ++ [0]

/-- The status bytes SAFE 0x004 to 0x0FF as they stand (R401): an input with TEST_FAIL counts as open (R392), one of an unused pair has
no quality (R112). -/
def skStatus (s : State) : List Byte :=
  let k := s.sk
  let conn (n : Nat) : Nat := (findRec (skRecs s) 0x0A60 n).elim 0 (connByte s)
  leBytes k.cycle 4 ++ leBytes k.phase.code 1 ++
  leBytes (b2n (skReady s) + 2 * b2n k.subst + 4 * b2n k.split + 8 * b2n k.supplyLow) 1 ++ leBytes k.fault 2 ++
  leBytes (skWrapper s 8 2 0) 2 ++ zeros 2 ++
  ((List.range 16).flatMap fun i =>
    let x := k.input i
    leBytes (b2n (x.tested && !x.fail) + 2 * b2n (inputSampled s i && pairMode s (i / 2) != 0 && !x.fail) + 4 * b2n x.fail) 1) ++
  ((List.range 8).flatMap fun p => pairBytes s p) ++ ((List.range 8).flatMap fun o => outBytes (k.output o)) ++
  ((List.range 4).flatMap fun t => leBytes (b2n (sourceDriven s t) + 2 * b2n (k.src t).overl.isSome + 4 * b2n (k.src t).back) 1) ++
  zeros 28 ++ padTo 64 k.statusOut ++ ((List.range 64).flatMap fun n => leBytes (conn n) 1)

/-- Status published to the lanes, `dt` ns after the latest edge: the islands hold it from 10 µs after the cycle end (R384). -/
def publish (s : State) (dt : Nat) : State :=
  s.updSk fun k => { k with pub := Mem.writeN [] (aSAFE + 4) (skStatus s), pubOld := k.pub, pubFrom := s.grid.now + dt + 10000 }

/-! The cycle -/

/-- A latch clears: acknowledged, the condition absent, commanded off for a cycle (R399). -/
def clearLatch (s : State) (o : Nat) : State :=
  let x := s.sk.output o
  let y := s.sk.output (2 * (o / 2) + (1 - o % 2))
  if x.latched && x.acked && !x.bad && decide (1 ≤ x.offFor) && decide (1 ≤ y.offFor) then
    skEvent (s.updOut o fun x => { x with latched := false, acked := false, sw := false, ext := false, overl := false }) 195 4 o
  else s

/-- SK_CYCLE_START (R384, R402, R411): inputs, lane values and PDUs are taken. -/
def execSkCycleStart (s : State) : Host.Outcome State Fault Refusal :=
  .next (if !s.sk.powered || s.sk.phase == .dormant || s.sk.phase == .selftest then s
    else
      let (pdus, s) := laneValues s
      let s := consumers s pdus
      let s := (List.range 8).foldl clearLatch s
      (List.range 8).foldl proofDue s)

/-- MODE of an output pair; 0 without a record (R398). -/
def outMode (s : State) (q : Nat) : Nat := (findRec (skRecs s) 0x0A20 q).elim 0 fun r => r.u 8 1

/-- What is left, in µs, of an off-pulse window of an output at `us` µs of station time, SK-X's or SK-Y's; 0 outside (R399). -/
def pulseLeft (s : State) (o us : Nat) : Nat :=
  let width := (findRec (skRecs s) 0x0A20 (o / 2)).elim 0 fun r => r.u 0x0A 2
  let from_ := 50000 * (o % 2) + 12500 * (o / 2)
  let left (w : Nat) : Nat := width - (us + 400000 - (from_ + w)) % 200000
  max (left 0) (left 100000)

/-- The output commands at a cycle end at `us` µs of station time (R389, R398 to R400, R403). -/
def commandOut (s : State) (cmds : List Bool) (us o : Nat) : State :=
  let q := o / 2
  let m := outMode s q
  let c := if m = 1 then cmds.getD (2 * q) false else if m = 2 then cmds.getD o false else false
  let barred := (s.sk.output (2 * q)).latched || (s.sk.output (2 * q + 1)).latched || s.sk.supplyLow
  let on := c && !barred
  s.updOut o fun x =>
    let x := { x with cmd := c, offFor := if c then 0 else x.offFor + 1 }
    if x.x == on && x.y == on then x else { x with x := on, y := on, since := 0, mid := false, seen := false, delay := if on then pulseLeft s o us else 0 }

/-- The results of a cycle take effect (R384, R389, R410): commands, payloads, published bytes. -/
def takeResults (s : State) (r : SkResult) (us : Nat) : State :=
  let s := (List.range 8).foldl (fun s o => commandOut s r.soCmd us o) s
  let s := s.updSk fun k => { k with statusOut := padTo 64 r.statusOut }
  ((recsOf (skRecs s) 0x0A60).filter fun q => q.u 8 1 == 0).foldl
    (fun s q => produce s q (r.connOut.getD q.inst (false, []))) s

/-- The exchange of the two processors' results at a cycle end of RUN (R383): results that differ, or that a processor has not
delivered within 100 µs, are a kernel fault, whose code is open (log entry 132). -/
def exchange (s : State) (x y : Option SkResult) (us : Nat) : State :=
  match x, y with
  | some a, some b => if a = b then takeResults s a us else safeStop s.takeFree.2 (1 + Config.freeNat s.free % 65535)
  | _, _ => safeStop s.takeFree.2 (1 + Config.freeNat s.free % 65535)

/-- A cycle more since an output switched; the one in which it was switched off does not count whole. -/
def SkOut.age (o : SkOut) : SkOut := { o with since := if o.mid then o.since else o.since + 1, mid := false }

/-- SK_CYCLE_END (R383, R384, R389, R410), `dt` ns after the latest edge: the exchange of results, commands, PDUs, publication. -/
def execSkCycleEnd (x y : Option SkResult) (dt : Nat) (s : State) : Host.Outcome State Fault Refusal :=
  .next (if !s.sk.powered || s.sk.phase == .dormant || s.sk.phase == .selftest then s
    else
      let s := s.updSk fun k => { k with outs := k.outs.map fun e => (e.1, e.2.age) }
      let s := if s.sk.phase = .run then exchange s x y ((s.grid.now + dt) / 1000 % 200000) else s
      publish (s.updSk fun k => { k with cycle := (k.cycle + 1) % 2 ^ 32 }) dt)

end Sys2Proof.Machine
end

