-- ==== Sys2Proof/Machine/Startup.lean ====
section
/-! DEFINITION. From logic power-good to STATION_READY (04_startup_and_configuration.md R105 to R112). -/

namespace Sys2Proof.Machine

/-- Everything that a loss of both feeds takes (R2, R461, R488): the station, partitions, islands and SK-1 start over, but for SK-1's
non-volatile copies; the recorder keeps its store, and its buckets start full with their counts (R457, R464); the power-cycle count
advances at the first power-good. In Dark a feed was present throughout, and the recorder has run on (R450, R461). -/
def coldStart (s : State) (fromDark : Bool) : State :=
  let v := s.svc.rcd
  let rcd : Recorder := if fromDark then v else
    { optime := v.optime, pcycle := (v.pcycle + 1) % 2 ^ 32, next := v.next,
      clearBase := v.clearBase, ring := v.ring, bank0 := v.bank0, bank1 := v.bank1, seals := v.seals,
      buckets := v.buckets.map fun b => (b.1, { b.2 with tokens := 255 }) }
  { s with st := {}, parts := [], isl := [], sk := { digest := s.sk.digest, pw := s.sk.pw }, svc := { s.svc with up := true, rcd := rcd } }

/-- Islands and SK-1 start from whichever feed comes first (R106); SK-1 enters SELFTEST (R385). -/
def powerIslands (s : State) : State :=
  let s := (List.range 7).foldl (fun s i => s.updIsl i fun x => { x with powered := true }) s
  if s.sk.powered then skWake s else enterSk (s.updSk fun k => { k with powered := true }) .selftest

/-- The panel controller at a power-up (R503): pages are lost, the map is read from the panel's identity chip and checked. -/
def panelPowerUp (s : State) (map : Option (List (Nat × Fin 4))) : State :=
  let s := s.updSvc fun v => { v with pnl := { mapOk := map.isSome, map := (map.getD []).map fun e => (e.1, e.2.val) } }
  if map.isSome then s
  else raise s { src := 236, code := 2, data := Config.openData 236 2 s.grid.tick, lane := s.mainLane, writer := some 3 }

/-- LOGIC_POWER_GOOD (R2, R4, R106, R461, R517, R537): the lane's steps start with reset held and outputs de-energised.
Reset is released only on carrier identity 0b1010. -/
def execLogicPowerGood (l : LaneId) (cid : BitVec 4) (feedMv mac : Nat) (map : Option (List (Nat × Fin 4)))
    (s : State) : Host.Outcome State Fault Refusal :=
  if (s.lane l).feed then .next s
  else
    let dark := s.st.power.ps == .dark
    let both := !s.a.feed && !s.b.feed
    let s := if both || dark then coldStart s (dark && !both) else s
    let s := if dark then s.updLane (other l) fun v =>
        if v.feed then
          { feed := true, phase := .starting, mac := v.mac, fw := v.fw, cidOk := v.cidOk, suspect := v.suspect,
            img := bareImage, frozen := bareImage }
        else v
      else s
    let s := powerIslands s
    let s := s.updSvc fun v => { v with sup := (if l = .a then { v.sup with feedA := true, mvA := feedMv }
      else { v.sup with feedB := true, mvB := feedMv } : Supply) }
    let s := if both || dark then panelPowerUp s map else s
    .next (s.updLane l fun v =>
      { feed := true, phase := if cid = 0b1010#4 then .starting else .stopped, cidOk := cid = 0b1010#4, mac := mac,
        suspect := v.suspect, feedCycled := true, lateBase := v.lateBase, img := bareImage, frozen := bareImage })

/-- A lane whose firmware starts: role OFFLINE; a step that has failed, a version mismatch and SUSPECT still show (R107, R109, R288,
R290). -/
def bootLane (fw : Nat) (v : Lane) : Lane :=
  let failed := v.phase == .starting && v.failStep != 0
  { v with phase := .running, winUp := true, fw := fw, lit := true, role := .offline,
           health := if failed || v.needCycle then .failed else if v.suspect then .suspect else .good,
           cause := if failed then .startup else if v.needCycle then v.cause else .none,
           failStep := if failed then v.failStep else 0, failCode := if failed then v.failCode else 0,
           clkQual := false, rolesStep := false, startDone := false, beat := {}, clocks := {}, opp := {}, sent := none,
           endsSeen := none }

/-- A window that stands at its reset values when a lane's firmware brings it up (R53): that of a partition bound to this lane, or of
a detached one that no other lane shows. A partition whose state is held keeps it (R82). -/
def freshWindow (s : State) (l : LaneId) (p : Nat) : Bool :=
  let q := s.part p
  !s.holdsRing p && (if q.att == .detached then !(s.lane (other l)).winUp else q.bus == .pcie && q.lane == l)

/-- WINDOW_UP (R53, R106, R109): firmware runs, the window comes up with MB_LIVE and its registers at their reset values; heartbeats
start with role OFFLINE. A lane that stopped restarts here. -/
def execWindowUp (l : LaneId) (fw : Nat) (s : State) : Host.Outcome State Fault Refusal :=
  let v := s.lane l
  .next (if v.feed && v.cidOk && (v.phase == .starting || v.phase == .stopped) then
    allParts.foldl (fun s p => if freshWindow s l p then resetWindow s p else s) (s.updLane l (bootLane fw))
  else s)

/-- A step that fails leaves the lane OFFLINE with health FAILED, flashed in its light character, and is recorded (R107). -/
def stepFails (s : State) (l : LaneId) (step code : Nat) : State :=
  let s := s.updLane l fun v =>
    { v with role := .offline, cause := .startup, health := .failed, failStep := step, failCode := code, tok := {}, lit := true }
  noteUnnamed s .startUpFail l (leBytes (laneNo l) 1 ++ leBytes step 1 ++ leBytes code 2)

/-- CLOCK_QUALIFICATION (R106, R107, R429, R430): TCXO against RC, RC against the crystal; the domains switch to the TCXO. -/
def execClockQualification (l : LaneId) (tcxo rc : Nat) (s : State) : Host.Outcome State Fault Refusal :=
  let v := s.lane l
  .next (if v.phase != .running || v.clkQual then s
    else if tcxoPasses tcxo && rcPasses rc then s.updLane l fun v =>
      { v with clkQual := true, clocks := { v.clocks with src := .tcxo, tcxoGood := true, rcQual := true } }
    else stepFails s l 4 (Config.unnamedCode 17))

/-- The partner's heartbeat as last received shows this role (R109). -/
def partnerShows (s : State) (l : LaneId) (f : HbWord → Bool) : Bool :=
  match (s.lane l).beat.word with
  | some w => f w
  | none => false

/-- ROLES_STEP (R22, R109, R264). -/
def execRolesStep (l : LaneId) (s : State) : Host.Outcome State Fault Refusal :=
  let v := s.lane l
  if v.phase != .running || !v.clkQual || v.rolesStep || v.cause == .startup then .next s
  else
    let s := s.updLane l fun v => { v with rolesStep := true }
    .next (if partnerShows s l fun w => w.fw != v.fw then
        versionsDiffer s l ((v.beat.word.map fun w => w.fw).getD 0)
      else if partnerShows s l fun w => w.role == 2 || w.role == 3 then s.updLane l fun v => { v with startDone := true }
      else if l = .a ∨ partnerShows s l (fun w => w.health == 3) = true then askToken s l .startUp
      else s)

/-- ROLE_WAIT_TIMEOUT (R109): Lane B has waited 500 ms. -/
def execRoleWaitTimeout (s : State) : Host.Outcome State Fault Refusal :=
  let v := s.b
  .next (if waitsForRole v && !partnerShows s .b (fun w => w.role == 2 || w.role == 3) then
    askToken s .b .startUp
  else s)

/-- STARTUP_COMPLETE (R105, R109, R112, R476): on the first lane whose role is settled STATION_READY is set and the bank
chosen; the acting lane whose partner is absent or OFFLINE is SOLO. After a wake from Dark the bank chosen stands (R451). -/
def execStartupComplete (l : LaneId) (s : State) : Host.Outcome State Fault Refusal :=
  let v := s.lane l
  if v.phase != .running || !v.rolesStep || v.startDone then .next s
  else
    let s := s.updLane l fun v => { v with startDone := true }
    .next (if s.st.ready || v.role == Role.offline then s
      else
        let s : State := match s.activeLane with
          | some x => if (s.lane (other x)).role == Role.offline then s.updLane x fun v => { v with role := .solo } else s
          | none => s
        let woke := s.st.power.entering == some .lit
        let s := s.updSt fun t => { t with ready := true, phase := .stopped, power := { t.power with ps := .lit, entering := none } }
        let s := if woke then powerEvent s .lit else chooseBank s
        noteUnnamed s .startUp l (leBytes (laneNo l) 1))

/-- STARTUP_STEP_FAIL (R105, R107); the BIST of a lane that leaves retention too (R448). -/
def execStartupStepFail (l : LaneId) (step code : Nat) (s : State) : Host.Outcome State Fault Refusal :=
  .next (if (s.lane l).startDone && !(s.lane l).resumes || !((s.lane l).phase == .running || (s.lane l).phase == .starting) then s
    else stepFails s l step code)

end Sys2Proof.Machine
end

