-- ==== Sys2Proof/Machine/Power.lean ====
section
/-! DEFINITION. Entry to Occulting and Dark, the wake, and the clock outputs (17_clocks_and_power.md R445, R450, R451, R454,
R455). -/

namespace Sys2Proof.Machine

/-- POWER_DWELL_EXPIRED (R443 to R445, R447, R450): the state chosen has been chosen without a break for DWELL_S. Occulting begins
with PARK in the heartbeat word; Dark is being entered from here to the next edge. -/
def execPowerDwellExpired (s : State) : Host.Outcome State Fault Refusal :=
  let pw := s.st.power
  .next (match pw.dwell with
    | none => s
    | some c =>
      let dwell := (s.cfgRec 0x0201 0).elim 0 fun r => r.u 0x10 2
      if s.activeLane.isNone || pw.entering.isSome || chosenState s (computeTmin s) != c ||
          decide (s.grid.mono < pw.dwellFrom + dwell * 1000000000) then s
      else match c with
        | .occulting => s.updSt fun t =>
            { t with power := { t.power with entering := some .occulting, park := true, dwell := none, busyTick := none, busyEdges := 0 } }
        | .dark => s.updSt fun t => { t with power := { t.power with entering := some .dark, dwell := none, wake := none } }
        | _ => s)

/-- The accepted images as the wake finds them: one whose trailer does not hold is discarded (R451). -/
def keptImages (t : Station) : Station :=
  let cfg := t.cfg.isSome && trailerOk t.cfgImage
  let acc := t.access.isSome && trailerOk t.accessImage
  { t with cfg := if cfg then t.cfg else none, cfgImage := if cfg then t.cfgImage else [], prog := t.prog.filter trailerOk,
           access := if acc then t.access else none, accessImage := if acc then t.accessImage else [],
           safety := t.safety.filter trailerOk, safetyAccepted := t.safetyAccepted && t.safety.any trailerOk }

/-- The wake from Dark (R451, R517): lanes with a feed start from the 5 ms row of R106 with their memories and checked images kept. A
source that comes while Dark is being entered waits for the entry to complete (R452). -/
def darkWake (s : State) (w : WakeSource) : State :=
  let pairOk := match w with
    | .pair p => (pairRec s p.val).isSome
    | _ => true
  if !(wakeEnabled s w && pairOk) then s
  else if s.st.power.entering == some .dark then s.updSt fun t => { t with power := { t.power with wake := some w } }
  else if s.st.power.ps == .dark then
    let s := match w with
      | .pair _ => s
      | _ => (s.emit (.wake .a)).emit (.wake .b)
    let s := powerIslands s
    let s := bothLanes (fun s l => s.updLane l fun v => if v.phase == .dark then { v with phase := .starting } else v) s
    s.updSt fun t => { keptImages t with phase := .starting, ready := false, power := { t.power with ps := .lit, entering := some .lit } }
  else s

/-- The edge at which Dark is entered (R444, R450, R452); an entry whose conditions no longer hold is given up (log entry 156). -/
def darkEdge (s : State) : State :=
  if s.st.power.entering != some .dark then s
  else if !powerAllowed s .dark then s.updSt fun t => { t with power := { t.power with entering := none } }
  else
    let w := s.st.power.wake
    let s := darkEntry s skDormant
    w.elim s fun w => darkWake s w

/-- DARK_WAKE (R451). -/
def execDarkWake (w : WakeSource) (s : State) : Host.Outcome State Fault Refusal := .next (darkWake s w)

/-! Clock outputs -/

/-- Frequency of a source in Hz (R438, R455); a lane's processor and block engine stand at its operating point. -/
def clkFreq (s : State) (src : Nat) : Nat :=
  let l : LaneId := if src < 9 then .a else .b
  let op := (s.lane l).opp.op
  match (if src < 18 then src % 9 else src) with
  | 0 => 25000000
  | 1 => 32000000
  | 2 => 300000000 * op
  | 3 => 200000000 * op
  | 4 => 400000000
  | 5 => 125000000
  | 6 => 80000000
  | 18 => 32768
  | _ => 0

/-- A source is low: its lane is unpowered, parked or in Dark (R455). -/
def clkSourceLow (s : State) (src : Nat) : Bool :=
  let dead (l : LaneId) : Bool := match (s.lane l).phase with
    | .off | .parked | .dark => true
    | _ => !(s.lane l).feed
  if src < 9 then dead .a else if src < 18 then dead .b
  else if src = 21 then dead .a else if src = 22 then dead .b else src = 23

/-- The setting that drives a clock output: the one written last, once the output has fallen since (R455). -/
def clkDrives (s : State) (outB fallen : Bool) : Nat :=
  let c := s.svc.clk
  if outB then (if fallen then c.selB else c.wasB) else if fallen then c.selA else c.wasA

/-- A clock output's level in the n-th cycle or at the n-th pulse of its source (R454, R455): a continuous clock is high for ⌈(DIV + 1) / 2⌉
of DIV + 1 cycles; of pulses every (DIV + 1)-th passes. `fallen`: the output has had a falling edge since its setting was written. -/
def clkLevel (s : State) (outB fallen : Bool) (n : Nat) : Bool :=
  let v := clkDrives s outB fallen
  let src := fld v 0 5
  let m := fld v 16 10 + 1
  bit v 31 && !clkSourceLow s src &&
    (if clkFreq s src = 0 ∧ src ≠ 21 ∧ src ≠ 22 then decide (n % m = m - 1) else decide (n % m < (m + 1) / 2))

/-- A CLKOUT select is accepted (R455). -/
def clkOk (s : State) (d : Nat) : Bool :=
  decide (fld d 0 5 < 24) && decide (clkFreq s (fld d 0 5) ≤ 50000000 * (fld d 16 10 + 1))

/-- A write of CLKOUT_A_SEL or CLKOUT_B_SEL (R454, R455); reserved bits are ignored. -/
def clkSelect (s : State) (outB : Bool) (d : Nat) : State :=
  let v := fld d 31 1 * 2 ^ 31 + fld d 16 10 * 2 ^ 16 + fld d 0 5
  s.updSvc fun x =>
    if clkOk s d then { x with clk := if outB then { x.clk with selB := v, wasB := x.clk.selB } else { x.clk with selA := v, wasA := x.clk.selA } }
    else { x with clk := if outB then { x.clk with rejB := true } else { x.clk with rejA := true } }

/-- CLKOUT_STATUS written (R9). -/
def clkClear (s : State) (d : Nat) : State :=
  s.updSvc fun x => { x with clk := { x.clk with rejA := w1c x.clk.rejA (bit d 0), rejB := w1c x.clk.rejB (bit d 1) } }

/-- CLKOUT_SEL_WRITE (R455). -/
def execClkoutSelWrite (_p : Part) (outB : Bool) (data : Word) (s : State) : Host.Outcome State Fault Refusal :=
  .next (if s.svc.up then clkSelect s outB data.toNat else s)

/-- CLKOUT_STATUS_CLEAR (R9). -/
def execClkoutStatusClear (_p : Part) (data : Word) (s : State) : Host.Outcome State Fault Refusal :=
  .next (if s.svc.up then clkClear s data.toNat else s)

/-- A read of 0x0300 to 0x030C (R454). -/
def clkRead (s : State) (a : Nat) : Nat :=
  match a with
  | 0x300 => s.svc.clk.selA
  | 0x304 => s.svc.clk.selB
  | 0x308 => b2n s.svc.clk.rejA + 2 * b2n s.svc.clk.rejB
  | _ => 0

end Sys2Proof.Machine
end

