-- ==== Sys2Proof/Machine/Wide.lean ====
section
/-! DEFINITION. Wide reads (02_host_window.md R60, R61; 00 R10): what a selector names, its capture at the lane or in the slow
domain, and the end of a capture. -/

namespace Sys2Proof.Machine

/-- A binding on which a partition in its link grace may resume: one that the access list permits, before the list any
(R55, R82). -/
def graceOk (s : State) (p : Nat) (bus : Bus) (lane : LaneId) : Bool := s.st.access.isNone || s.bindingOk p bus lane

/-- The register values that a binding's window shows depend on whether it answers: its lane's firmware has brought it up
(R53), and it is the partition's own binding, or a permitted one in the link grace (R82); a detached partition's window
stands on every binding (log entry 30). -/
def viaOk (s : State) (p : Nat) (bus : Bus) (lane : LaneId) : Bool :=
  let q := s.part p
  (s.lane lane).winUp && ((q.grace && graceOk s p bus lane) || (q.att == .detached && !q.grace) ||
    (!q.grace && q.bus == bus && s.linkLane p == lane))

/-- The partition's window answers on some binding. -/
def winLive (s : State) (p : Nat) : Bool :=
  viaOk s p .pcie .a || viaOk s p .pcie .b || viaOk s p .thl .a || viaOk s p .thl .b

/-- A 48-bit value in the four data words, with its tag. -/
def wide48 (v tag : Nat) : List Nat := [v % 2 ^ 32, v / 2 ^ 32 % 65536, 0, tag]

/-- An island-link counter of a lane (R27): SK-1's token counters read 0. -/
def islandCounter (v : Lane) (index : Nat) : Option Nat :=
  let i := index / 256
  let k := index % 256
  if 7 ≤ i ∨ 8 ≤ k then none else if i = skIsl ∧ (k = 4 ∨ k = 5) then some 0 else some (v.linkCnt.get (8 * i + k) 0)

/-- A selector of the service domain (R60). -/
def wideSlow (sel : Word) : Bool := decide (2 ≤ sel.toNat % 256 ∧ sel.toNat % 256 ≤ 5)

/-- Lane values (R10, R60), captured when the write arrives at tick count `tick` and station time `time`; none does not
exist. INDEX of a selector without objects is ignored (log entry 109). -/
def wideLane (s : State) (l : LaneId) (sel : Word) (tick time : Nat) : Option (List Nat) :=
  let index := fld sel.toNat 8 16
  let short := time % 2 ^ 32
  match sel.toNat % 256 with
  | 0x00 => let sec := time / 1000000000
            some [time % 1000000000, sec % 2 ^ 32, sec / 2 ^ 32 % 65536, tick % 2 ^ 32]
  | 0x01 => some [time % 2 ^ 32, time / 2 ^ 32 % 2 ^ 32, 0, tick % 2 ^ 32]
  | 0x10 => (netCounter s l index).map fun n => wide48 n short
  | 0x11 => (canCounter s l index).map fun n => wide48 n short
  | 0x12 => (islandCounter (s.lane l) index).map fun n => wide48 n short
  | _ => none

/-- The data words of a capture as it completes: a service-domain value is captured in the slow domain, with the short time
of the write's arrival (R60, log entry 109). -/
def wideValue (s : State) (w : Wide) : Option (List Nat) :=
  let rcd := s.svc.rcd
  let short := w.atTime % 2 ^ 32
  match w.sel.toNat % 256 with
  | 0x02 => some (wide48 rcd.optime short)
  | 0x03 => some [rcd.pcycle % 2 ^ 32, 0, 0, short]
  | 0x04 => some (wide48 rcd.next short)
  | 0x05 => some (wide48 (oldestSeq rcd) short)
  | _ => w.cap

/-- WIDE_SEL (R60, R61): a pending or unread value is lost; the capture instant is the arrival of the write at the lane that serves the
link, `via` where the partition is reached on any binding. -/
def writeWideSel (s : State) (p : Nat) (via : LaneId) (d : Word) (dt : Nat) : State :=
  if winLive s p then
    let time := s.grid.now + dt
    let sel := d &&& 0x00FFFFFF#32
    let cap := wideLane s (s.viaLane p via) sel s.grid.tick time
    s.updPart p fun q =>
      { q with wideLost := q.wideLost || q.wide.pending || q.wide.valid,
               wide := { q.wide with sel := sel, echo := d.toNat % 256, badSel := false, pending := true, valid := false,
                                     atTick := s.grid.tick, atTime := time, cap := cap } }
  else s

/-- WIDE_SEL_WRITE (R60, R61). -/
def execWideSelWrite (p : Part) (data : Word) (via : Arrival) (s : State) : Host.Outcome State Fault Refusal :=
  .next (writeWideSel s p via.lane data via.ns)

/-- WIDE_CAPTURE_DONE (R60, R61): VALID with the data words, or BAD_SEL. A value of the service domain needs it. -/
def execWideCaptureDone (p : Part) (s : State) : Host.Outcome State Fault Refusal :=
  let w := (s.part p).wide
  .next (if !winLive s p || !w.pending || (wideSlow w.sel && !s.svc.up) then s
    else match wideValue s w with
      | none => s.updPart p fun q => { q with wide := { q.wide with pending := false, badSel := true } }
      | some d => s.updPart p fun q =>
          { q with wide := { q.wide with pending := false, valid := true, d0 := BitVec.ofNat 32 (d.getD 0 0), d1 := BitVec.ofNat 32 (d.getD 1 0),
                                         d2 := BitVec.ofNat 32 (d.getD 2 0), d3 := BitVec.ofNat 32 (d.getD 3 0) } })

end Sys2Proof.Machine
end

