-- ==== Sys2Proof/Machine/Window.lean ====
section
/-! DEFINITION. The host window (02_host_window.md): control registers, doorbells, wide-read start, slow port.
A write through any alias has the effect of a write to the register it decodes to (R51), so every row here is one part of
`windowWrite`. -/

namespace Sys2Proof.Machine

/-- The register or location that a window address decodes to (R51). -/
def decodeWindow (addr : Nat) : Nat :=
  let o := addr % 1024 / 4 * 4
  if o < 0x100 then o % 64 else o

/-- WIN_CTRL enables (R54): EV_EN, EV_IRQ_EN, MB_IRQ_EN. -/
def writeEnables (q : Partition) (d : Nat) : Partition :=
  { q with evEn := bit d 2, evIrqEn := bit d 3, mbIrqEn := bit d 4 }

/-- WIN_CTRL.ATTACH on a binding (R55): attaching, or the resume of a partition in its grace; without effect while attached
or detaching. A partition that is attaching moves to the binding of the write and keeps its declared regions (log entry 30). -/
def winAttach (s : State) (p : Nat) (bus : Bus) (lane : LaneId) (d : Nat) : State :=
  let q := s.part p
  if !(s.lane lane).winUp then s
  else if q.grace then
    if graceOk s p bus lane then
      s.updPart p fun q => { writeEnables q d with resuming := true, bus := bus, lane := lane }
    else s
  else match q.att with
    | .attached => s
    | .detaching => s
    | _ => s.updPart p fun q => { writeEnables q d with att := .attaching, bus := bus, lane := lane }

/-- WIN_CTRL.DETACH (R55, R83); a detached partition has nothing to detach. -/
def winDetach (s : State) (p : Nat) (d : Nat) : State :=
  let q := s.part p
  if !winLive s p then s
  else
    let s := s.updPart p fun q => writeEnables q d
    if q.att == .detaching || (q.att == .detached && !q.grace) then s else startDetach s p

def writeWinCtrl (s : State) (p : Nat) (bus : Bus) (lane : LaneId) (d : Nat) : State :=
  if bit d 1 then winDetach s p d
  else if bit d 0 then winAttach s p bus lane d
  else if winLive s p then s.updPart p fun q => writeEnables q d else s

def writeEvStatus (s : State) (p : Nat) (d : Nat) : State :=
  if winLive s p then s.updPart p fun q => clearEvStatus q d else s

/-- EV_INDEX (R56): TAIL moves only within what stands in the ring; freed places take held entries (R68). -/
def writeEvIndex (s : State) (p : Nat) (d : Nat) : State :=
  let q := s.part p
  let t := d % 65536
  if winLive s p && decide ((t + 65536 - q.tail % 65536) % 65536 ≤ ringFill q) then
    releaseHeld (s.updPart p fun q => { q with tail := t }) p q.held.length
  else s

/-- LAT_TOL (R57): reserved bits [30:24] are ignored (R7); in effect from the next edge. -/
def writeLatTol (s : State) (p : Nat) (d : Word) : State :=
  if winLive s p then s.updPart p fun q => { q with latTol := d &&& 0x80FFFFFF#32 } else s

/-- The checks that every command meets before its own (R53, R71, R73, R74, R79, R82). -/
def commonCheck (s : State) (p : Nat) (urg : Bool) (ws : List Word) : Option (Nat × Nat) :=
  let q := s.part p
  if !s.st.ready then some (NOT_READY, 0)
  else match opInfo ws with
    | none => some (BAD_OPCODE, 0)
    | some (c, ls) =>
      if !ls.contains ws.length then some (BAD_LENGTH, ls.headD 0)
      else if (c == .urgent) != urg then some (WRONG_MAILBOX, 0)
      else if word ws 0 / 65536 ≠ 0 then some (BAD_FIELD, 2)
      else if word ws 0 % 65536 = 0x0010 then
        if if q.grace then q.resuming else q.att == .attaching || q.att == .attached then none else some (NOT_ATTACHED, 0)
      else if q.att == .attached && !q.grace then none
      else some (NOT_ATTACHED, 0)

/-- MB_DOORBELL (R58, R71 to R74, R77). -/
def doorbell (s : State) (p : Nat) (d : Nat) : State :=
  let urg := bit d 0
  let len := fld d 8 6
  let m := s.mbox p urg
  if !winLive s p || len = 0 then s
  else if m.busy || decide ((if urg then 16 else 32) < len) then s.updMb p urg fun m => { m with rej := true }
  else
    let ws := areaWords (padTo 128 m.area) len
    let s := s.updMb p urg fun m =>
      { m with busy := true, done := false, rej := false, preempted := false, seq := fld d 24 8, cmd := ws,
               order := s.st.orderNo, phase := .accepted, bytes := 0, prev := 0, flushed := 0, xfer := none, buf := [] }
    let s := s.updSt fun t => { t with orderNo := t.orderNo + 1 }
    match commonCheck s p urg ws with
    | some (st, d0) => answer s p urg st d0
    | none =>
      match opInfo ws with
      | some (.bulk, _) =>
        let s := s.updSt fun t => { t with bulkQueue := t.bulkQueue ++ [p] }
        if s.st.bulkQueue.head? = some p then progress s p urg RUNNING
        else progress (s.updMb p urg fun m => { m with phase := .queued }) p urg QUEUED
      | _ => progress s p urg RUNNING

/-- SLOW_ADDR (R63): dropped with SLOW_DROP while an access is in progress; READ starts a read. An address that is no
multiple of 4 is rounded down to one (log entry 110). -/
def writeSlowAddr (s : State) (p : Nat) (d : Nat) : State :=
  if !winLive s p then s
  else s.updPart p fun q =>
    if q.slow.access.isSome then { q with slowDrop := true }
    else { q with slow := { q.slow with addr := d % 65536 / 4 * 4, access := if bit d 31 then some none else none } }

/-- SLOW_DATA (R63): posts DATA, or is dropped with SLOW_DROP. -/
def writeSlowData (s : State) (p : Nat) (d : Word) : State :=
  if !winLive s p then s
  else s.updPart p fun q =>
    if q.slow.access.isSome then { q with slowDrop := true }
    else { q with slow := { q.slow with access := some (some d) } }

/-- A write of `size` bytes to a mailbox area: byte enables are honoured; only the command areas take it (R52, R69). -/
def writeArea (s : State) (p : Nat) (o lane size d : Nat) : State :=
  let n := min size (4 - lane)
  if 0x100 ≤ o ∧ o < 0x180 then
    s.updMb p false fun m => { m with area := overwrite (padTo 128 m.area) (o - 0x100 + lane) (leBytes d n) }
  else if 0x200 ≤ o ∧ o < 0x240 then
    s.updMb p true fun m => { m with area := overwrite (padTo 64 m.area) (o - 0x200 + lane) (leBytes d n) }
  else s

/-- A write of at most 32 bits to a window address (R51, R52, R53); `via` is the lane that it comes through. -/
def windowWrite (s : State) (p : Nat) (via : LaneId) (addr size : Nat) (d : Word) (dt : Nat) : State :=
  let o := decodeWindow addr
  let q := s.part p
  if 0x100 ≤ o then
    if winLive s p then writeArea s p o (if size < 4 then addr % 4 else 0) size d.toNat else s
  else if size < 4 then s
  else match o with
    | 0x008 => writeWinCtrl s p q.bus (s.viaLane p via) d.toNat
    | 0x00C => writeEvStatus s p d.toNat
    | 0x010 => writeEvIndex s p d.toNat
    | 0x014 => writeLatTol s p d
    | 0x018 => doorbell s p d.toNat
    | 0x020 => writeWideSel s p via d dt
    | 0x038 => writeSlowAddr s p d.toNat
    | 0x03C => writeSlowData s p d
    | _ => s

/-- A host write of `size` bytes; a 64-bit access is two 32-bit accesses, the lower address first (R52). -/
def hostWrite (s : State) (p : Nat) (via : LaneId) (addr size : Nat) (d : DWord) (dt : Nat) : State :=
  if size = 8 then
    windowWrite (windowWrite s p via addr 4 (d.extractLsb' 0 32) dt) p via (addr + 4) 4 (d.extractLsb' 32 32) dt
  else windowWrite s p via addr size (d.extractLsb' 0 32) dt

/-- The event view at 0x280 to 0x3FF (R66): entry c stands at 0x280 + 8 × (c mod 48). Ring counts wrap at 65 536, no multiple
of 48: where two of the newest 48 share a place the newer shows, and a place without one reads 0 (log entry 111). -/
def eventView (q : Partition) (o : Nat) : Nat :=
  match (List.range 48).find? fun back => (q.head + 65536 - 1 - back) % 65536 % 48 == (o - 0x280) / 8 with
  | none => 0
  | some back =>
    let c := (q.head + 65536 - 1 - back) % 65536
    match q.ring.get? (c % 1024) with
    | none => 0
    | some e => rdU (leBytes e.src 1 ++ leBytes c 1 ++ leBytes e.code 2 ++ leBytes e.data 4) ((o - 0x280) % 8) 4

/-- The value of the 32-bit register or location at a window address as read on a binding (R51, R53, R54, R69, R82): 0 before the
lane's firmware has brought the window up; on a binding that is not the partition's own, the reset values. -/
def windowRead (s : State) (p : Nat) (bus : Bus) (lane : LaneId) (addr : Nat) (skReady : Bool) : Word :=
  let o := decodeWindow addr
  let own := viaOk s p bus lane
  let q : Partition := if own then s.part p else { bus := bus, lane := lane }
  if !(s.lane lane).winUp then 0
  else if o < 0x100 then
    match o with
    | 0x000 => winId p bus lane
    | 0x004 => winStatus s p skReady (b2n own)
    | 0x008 => winCtrl q
    | 0x00C => evStatus q
    | 0x010 => evIndex q
    | 0x014 => q.latTol
    | 0x01C => mbStatus q
    | 0x020 => q.wide.sel
    | 0x024 => wideStatus q.wide
    | 0x028 => q.wide.d0
    | 0x02C => q.wide.d1
    | 0x030 => q.wide.d2
    | 0x034 => q.wide.d3
    | 0x038 => BitVec.ofNat 32 q.slow.addr
    | 0x03C => q.slow.data
    | _ => 0
  else if o < 0x180 then BitVec.ofNat 32 (rdU (padTo 128 q.main.area) (o - 0x100) 4)
  else if o < 0x200 then BitVec.ofNat 32 (rdU q.main.resp (o - 0x180) 4)
  else if o < 0x240 then BitVec.ofNat 32 (rdU (padTo 64 q.urg.area) (o - 0x200) 4)
  else if o < 0x280 then BitVec.ofNat 32 (rdU q.urg.resp (o - 0x240) 4)
  else BitVec.ofNat 32 (eventView q o)

/-- The side effect of a read: WIDE_D3 clears VALID (R61). -/
def readEffect (s : State) (p : Nat) (addr : Nat) : State :=
  if winLive s p && decodeWindow addr == 0x034 then
    s.updPart p fun q => { q with wide := { q.wide with valid := false } }
  else s

/-- A host read of at most 32 bits on a binding: the addressed bytes, with the side effects of a 32-bit read (R52). -/
def narrowRead (s : State) (p : Nat) (bus : Bus) (lane : LaneId) (addr size : Nat) (skReady : Bool) : Nat × State :=
  ((windowRead s p bus lane addr skReady).toNat / 256 ^ (if size < 4 then addr % 4 else 0) % 256 ^ size,
    if viaOk s p bus lane then readEffect s p addr else s)

/-- A host read of `size` bytes; a 64-bit access is two 32-bit accesses, the lower address first (R52). -/
def hostRead (s : State) (p : Nat) (bus : Bus) (lane : LaneId) (addr size : Nat) (skReady : Bool) : Nat × State :=
  if size = 8 then
    let lo := narrowRead s p bus lane addr 4 skReady
    let hi := narrowRead lo.2 p bus lane (addr + 4) 4 skReady
    (lo.1 + 2 ^ 32 * hi.1, hi.2)
  else narrowRead s p bus lane addr size skReady

/-! Rows -/

/-- REGISTER_WRITE (R7, R8, R51, R52). -/
def execRegisterWrite (p : Part) (slow : Bool) (addr size : Nat) (data : DWord) (via : Arrival) (s : State) :
    Host.Outcome State Fault Refusal :=
  if slow then .next (writeSlowData (writeSlowAddr s p (addr % 65536)) p (data.extractLsb' 0 32))
  else .next (hostWrite s p via.lane addr size data via.ns)

/-- WIN_CTRL_ATTACH (R55, R79). -/
def execWinCtrlAttach (p : Part) (bus : Bus) (lane : LaneId) (data : Word) (s : State) :
    Host.Outcome State Fault Refusal :=
  .next (writeWinCtrl s p bus lane (data ||| 1#32).toNat)

/-- WIN_CTRL_DETACH (R55, R83). -/
def execWinCtrlDetach (p : Part) (data : Word) (s : State) : Host.Outcome State Fault Refusal :=
  .next (winDetach s p (data ||| 2#32).toNat)

/-- DETACH_COMPLETE (R53, R83): once an urgent command that was already running has completed. -/
def execDetachComplete (p : Part) (s : State) : Host.Outcome State Fault Refusal :=
  .next (if (s.part p).att == .detaching && !(s.part p).urg.underway then finishDetach s p else s)

/-- EV_STATUS_CLEAR (R9, R54). -/
def execEvStatusClear (p : Part) (data : Word) (s : State) : Host.Outcome State Fault Refusal :=
  .next (writeEvStatus s p data.toNat)

/-- EV_INDEX_WRITE (R56, R68). -/
def execEvIndexWrite (p : Part) (data : Word) (s : State) : Host.Outcome State Fault Refusal :=
  .next (writeEvIndex s p data.toNat)

/-- LAT_TOL_WRITE (R57). -/
def execLatTolWrite (p : Part) (data : Word) (s : State) : Host.Outcome State Fault Refusal :=
  .next (writeLatTol s p data)

/-- MB_DOORBELL (R58). -/
def execMbDoorbell (p : Part) (data : Word) (s : State) : Host.Outcome State Fault Refusal :=
  .next (doorbell s p data.toNat)

/-- WIDE_D3_READ (R61). -/
def execWideD3Read (p : Part) (s : State) : Host.Outcome State Fault Refusal := .next (readEffect s p 0x034)

/-- SLOW_READ_START (R63): a SLOW_ADDR write with READ = 1. -/
def execSlowReadStart (p : Part) (data : Word) (s : State) : Host.Outcome State Fault Refusal :=
  .next (writeSlowAddr s p (data ||| 0x80000000#32).toNat)

/-- SLOW_WRITE_POST (R63). -/
def execSlowWritePost (p : Part) (data : Word) (s : State) : Host.Outcome State Fault Refusal :=
  .next (writeSlowData s p data)

end Sys2Proof.Machine
end

