-- ==== Sys2Proof/Machine/Rtc.lean ====
section
/-! DEFINITION. The real-time clock (19_real_time_clock.md R480 to R488). -/

namespace Sys2Proof.Machine

def State.updRtc (s : State) (f : Rtc → Rtc) : State := s.updSvc fun v => { v with rtc := f v.rtc }
def State.updRtcPort (s : State) (p : Nat) (f : RtcPort → RtcPort) : State := s.updPart p fun q => { q with rtc := f q.rtc }

/-- The Gregorian rule (R482). -/
def leapYear (y : Nat) : Bool := (y % 4 == 0 && y % 100 != 0) || y % 400 == 0

def monthDays (y m : Nat) : Nat :=
  if m = 2 then (if leapYear y then 29 else 28) else if m = 4 ∨ m = 6 ∨ m = 9 ∨ m = 11 then 30 else 31

/-- Days from 2000-01-01 to a date. -/
def dayNumber (y m d : Nat) : Nat :=
  let n := y - 2000
  365 * n + (n + 3) / 4 - (n + 99) / 100 + (n + 399) / 400 +
    ((List.range (m - 1)).foldl (fun a k => a + monthDays y (k + 1)) 0) + (d - 1)

/-- ISO weekday; 2000-01-01 is a Saturday (R482). -/
def weekday (y m d : Nat) : Nat := (dayNumber y m d + 5) % 7 + 1

/-- RTC_TIME and RTC_DATE of the live clock (R480). -/
def rtcTime (r : Rtc) : Nat := r.hour * 2 ^ 16 + r.min * 2 ^ 8 + r.sec
def rtcDate (r : Rtc) : Nat := weekday r.year r.month r.day * 2 ^ 28 + r.year * 2 ^ 16 + r.month * 2 ^ 8 + r.day

/-- The next second (R482). -/
def nextSecond (r : Rtc) : Rtc :=
  if r.sec < 59 then { r with sec := r.sec + 1 }
  else if r.min < 59 then { r with sec := 0, min := r.min + 1 }
  else if r.hour < 23 then { r with sec := 0, min := 0, hour := r.hour + 1 }
  else
    let r := { r with sec := 0, min := 0, hour := 0 }
    if r.day < monthDays r.year r.month then { r with day := r.day + 1 }
    else if r.month < 12 then { r with day := 1, month := r.month + 1 }
    else if r.year < 2399 then { r with day := 1, month := 1, year := r.year + 1 }
    else { r with day := 1, month := 1, year := 2000 }

/-- An event of the RTC, whose DATA no rule defines (log entry 14). -/
def rtcEvent (s : State) (src code : Nat) (pay : List Byte) (never : Bool) : State :=
  raise s { src := src, code := code, data := Config.openData src code s.grid.tick, pay := pay, lane := s.mainLane,
            writer := some 3, control := never }

/-- An alarm matches: armed, and every unmasked field equals the time and date (R486). -/
def alarmMatches (r : Rtc) (t d : Nat) : Bool :=
  bit t 31 && (bit t 23 || fld t 16 5 == r.hour) && (bit t 15 || fld t 8 6 == r.min) && (bit t 7 || fld t 0 6 == r.sec) &&
  (bit d 23 || fld d 16 3 == weekday r.year r.month r.day) && (bit d 15 || fld d 8 4 == r.month) && (bit d 7 || fld d 0 5 == r.day)

/-- An alarm fires (R486): its flag in every partition, EV224, and the wake from Dark. -/
def fireAlarm (s : State) (n : Nat) : State :=
  let s := allParts.foldl (fun s p => s.updRtcPort p fun q => if n = 1 then { q with alm1 := true } else { q with alm2 := true }) s
  let s := rtcEvent s 224 n [] false
  darkWake s (if n = 1 then .alarm1 else .alarm2)

/-- Steps of the prescaler within the first `n` crystal cycles of a frame of 2²⁴ (R487): one each, with 2 on TRIM evenly spaced ones, or
none on |TRIM| of them. -/
def prescaled (trim : Int) (n : Nat) : Int := n + trim * n / 2 ^ 24

/-- SUBSEC after `cycles` crystal cycles of a second that began `phase` cycles into the frame (R480, R487). -/
def subsecAt (r : Rtc) (phase cycles : Nat) : Nat :=
  let t := signed 13 (r.trimNow % 8192)
  (prescaled t (phase + cycles) - prescaled t phase).toNat % 32768

/-- The clock has a supply: a lane feed or the cartridge's primary cell (R483). -/
def rtcSupplied (s : State) : Bool := s.svc.sup.feedA || s.svc.sup.feedB || s.svc.cart.isSome

/-- RTC_SECOND (R482, R483, R486, R487). -/
def execRtcSecond (s : State) : Host.Outcome State Fault Refusal :=
  let on := rtcSupplied s
  let s := if on then s.updRtc fun r => { nextSecond r with trimNow := r.trim } else s
  let r := s.svc.rtc
  .next (if !s.svc.up || !on then s
    else
      let s := if alarmMatches r r.alm1Time r.alm1Date then fireAlarm s 1 else s
      if alarmMatches r r.alm2Time r.alm2Date then fireAlarm s 2 else s)

/-- A read of RTC_SUBSEC or RTC_TIME (R481): what it returns, and the capture. -/
def rtcRead (s : State) (p : Nat) (sub : Bool) (cycles phase : Nat) : Nat × State :=
  let q := (s.part p).rtc
  let s := if q.frozen then s
    else s.updRtcPort p fun q =>
      { q with frozen := true, subsec := subsecAt s.svc.rtc phase cycles, time := rtcTime s.svc.rtc, date := rtcDate s.svc.rtc }
  let q := (s.part p).rtc
  (if sub then q.subsec else q.time, s)

/-- A read of RTC_DATE (R481). -/
def rtcReadDate (s : State) (p : Nat) : Nat × State :=
  let q := (s.part p).rtc
  if q.frozen then (q.date, s.updRtcPort p fun q => { q with frozen := false }) else (rtcDate s.svc.rtc, s)

/-- The result of a slow read stands in SLOW_DATA (R63). -/
def slowResult (p : Nat) (x : Nat × State) : State :=
  x.2.updPart p fun q => { q with slow := { q.slow with data := BitVec.ofNat 32 x.1 } }

/-- A slow read of a register as a whole (R63): the access in progress where it is that read, else one that starts now; a port
busy with another access drops it. `f` is the read. -/
def slowReadWhole (s : State) (p a : Nat) (f : State → Nat × State) : State :=
  let s := if (s.part p).slow.access = some none ∧ (s.part p).slow.addr = a then s else writeSlowAddr s p (2 ^ 31 + a)
  if (s.part p).slow.access = some none ∧ (s.part p).slow.addr = a then
    slowResult p (f (s.updPart p fun q => { q with slow := { q.slow with access := none } }))
  else s

/-- RTC_TIME_READ (R481); `sub` names RTC_SUBSEC. -/
def execRtcTimeRead (p : Part) (sub : Bool) (cycles phase : Nat) (s : State) : Host.Outcome State Fault Refusal :=
  .next (slowReadWhole s p (if sub then 4 else 8) fun s => rtcRead s p sub cycles phase)

/-- RTC_DATE_READ (R481). -/
def execRtcDateRead (p : Part) (s : State) : Host.Outcome State Fault Refusal :=
  .next (slowReadWhole s p 0x0C fun s => rtcReadDate s p)

/-- RTC_STATUS (R480). -/
def rtcStatus (q : RtcPort) : Nat :=
  maskOf [q.wrDone, q.wrRej, q.trimRej, q.roleRej, q.alm1, q.alm2, q.frozen]

/-- RTC_STATUS written (R9). -/
def rtcClear (s : State) (p d : Nat) : State :=
  s.updRtcPort p fun q =>
    { q with wrDone := w1c q.wrDone (bit d 0), wrRej := w1c q.wrRej (bit d 1), trimRej := w1c q.trimRej (bit d 2),
             roleRej := w1c q.roleRej (bit d 3), alm1 := w1c q.alm1 (bit d 4), alm2 := w1c q.alm2 (bit d 5) }

/-- RTC_STATUS_CLEAR (R9, R480). -/
def execRtcStatusClear (p : Part) (data : Word) (s : State) : Host.Outcome State Fault Refusal := .next (rtcClear s p data.toNat)

/-- The role check of the shared registers (R480). -/
def rtcShared (s : State) (p : Nat) (k : State) : State :=
  if 2 ≤ s.roleOf p then k else s.updRtcPort p fun q => { q with roleRej := true }

/-- A staged pair passes the checks of R484. -/
def pairOk (t d : Nat) : Bool :=
  let y := fld d 16 12
  let m := fld d 8 4
  fld t 21 11 == 0 && fld t 14 2 == 0 && fld t 6 2 == 0 && decide (fld t 16 5 ≤ 23 ∧ fld t 8 6 ≤ 59 ∧ fld t 0 6 ≤ 59) &&
  fld d 28 4 == 0 && fld d 12 4 == 0 && fld d 5 3 == 0 && decide (2000 ≤ y ∧ y ≤ 2399 ∧ 1 ≤ m ∧ m ≤ 12) &&
  decide (1 ≤ fld d 0 5 ∧ fld d 0 5 ≤ monthDays y m)

/-- A write of RTC_COMMIT (R484, R485). -/
def rtcCommit (s : State) (p d : Nat) : State :=
  rtcShared s p
    (if !bit d 0 then s
     else
       let q := (s.part p).rtc
       if pairOk q.setTime q.setDate then
         let old := s.svc.rtc
         let s := s.updRtc fun r =>
           { r with hour := fld q.setTime 16 5, min := fld q.setTime 8 6, sec := fld q.setTime 0 6, year := fld q.setDate 16 12,
                    month := fld q.setDate 8 4, day := fld q.setDate 0 5 }
         let new := s.svc.rtc
         let s := s.updRtcPort p fun q => { q with wrDone := true }
         rtcEvent s 225 1 (leBytes p 1 ++ leBytes (rtcDate old) 4 ++ leBytes (rtcTime old) 4 ++ leBytes (rtcDate new) 4 ++
           leBytes (rtcTime new) 4) true
       else rtcEvent (s.updRtcPort p fun q => { q with wrRej := true }) 225 2 [] false)

/-- RTC_COMMIT (R484). -/
def execRtcCommit (p : Part) (data : Word) (s : State) : Host.Outcome State Fault Refusal := .next (rtcCommit s p data.toNat)

/-- An alarm register value is within its ranges (R486). -/
def alarmOk (date : Bool) (d : Nat) : Bool :=
  if date then
    fld d 24 8 == 0 && fld d 19 4 == 0 && fld d 12 3 == 0 && fld d 5 2 == 0 && decide (1 ≤ fld d 16 3) &&
    decide (1 ≤ fld d 8 4 ∧ fld d 8 4 ≤ 12 ∧ 1 ≤ fld d 0 5)
  else
    fld d 24 7 == 0 && fld d 21 2 == 0 && !bit d 14 && !bit d 6 && decide (fld d 16 5 ≤ 23 ∧ fld d 8 6 ≤ 59 ∧ fld d 0 6 ≤ 59)

/-- A write of an alarm register (R486). -/
def rtcAlarm (s : State) (p : Nat) (alarm2 date : Bool) (d : Nat) : State :=
  rtcShared s p
    (if alarmOk date d then
      s.updRtc fun r => match alarm2, date with
        | false, false => { r with alm1Time := d }
        | false, true => { r with alm1Date := d }
        | true, false => { r with alm2Time := d }
        | true, true => { r with alm2Date := d }
    else s.updRtcPort p fun q => { q with wrRej := true })

/-- RTC_ALARM_WRITE (R486). -/
def execRtcAlarmWrite (p : Part) (alarm2 date : Bool) (data : Word) (s : State) : Host.Outcome State Fault Refusal :=
  .next (rtcAlarm s p alarm2 date data.toNat)

/-- A write of RTC_TRIM (R487): ±3355, else TRIM_REJ; it takes effect at the next second. -/
def rtcTrim (s : State) (p d : Nat) : State :=
  let v := signed 13 (fld d 0 13)
  rtcShared s p
    (if -3355 ≤ v ∧ v ≤ 3355 then s.updRtc fun r => { r with trim := fld d 0 13 }
     else s.updRtcPort p fun q => { q with trimRej := true })

/-- RTC_TRIM_WRITE (R487). -/
def execRtcTrimWrite (p : Part) (data : Word) (s : State) : Host.Outcome State Fault Refusal := .next (rtcTrim s p data.toNat)

/-- Alarms and TRIM return to reset when logic power is lost; the calendar too when nothing backs it (R483, R488). -/
def rtcPowerLost (s : State) : State :=
  s.updRtc fun r =>
    if s.svc.cart.isSome then
      { year := r.year, month := r.month, day := r.day, hour := r.hour, min := r.min, sec := r.sec }
    else {}

/-- Slow reads 0x0004 to 0x00FF (R480). Reserved bits read 0 (R7); the staged ones are kept for the check of R484. -/
def rtcSlowRead (s : State) (p a cycles phase : Nat) : Nat × State :=
  let q := (s.part p).rtc
  let r := s.svc.rtc
  match a with
  | 0x04 => rtcRead s p true cycles phase
  | 0x08 => rtcRead s p false cycles phase
  | 0x0C => rtcReadDate s p
  | 0x10 => (fld q.setTime 16 5 * 65536 + fld q.setTime 8 6 * 256 + fld q.setTime 0 6, s)
  | 0x14 => (fld q.setDate 16 12 * 65536 + fld q.setDate 8 4 * 256 + fld q.setDate 0 5, s)
  | 0x1C => (rtcStatus q, s)
  | 0x20 => (r.alm1Time, s)
  | 0x24 => (r.alm1Date, s)
  | 0x28 => (r.alm2Time, s)
  | 0x2C => (r.alm2Date, s)
  | 0x30 => (r.trim, s)
  | _ => (0, s)

/-- Slow writes 0x0004 to 0x00FF (R480). -/
def rtcSlowWrite (s : State) (p a d : Nat) : State :=
  match a with
  | 0x10 => s.updRtcPort p fun q => { q with setTime := d }
  | 0x14 => s.updRtcPort p fun q => { q with setDate := d }
  | 0x18 => rtcCommit s p d
  | 0x1C => rtcClear s p d
  | 0x20 => rtcAlarm s p false false d
  | 0x24 => rtcAlarm s p false true d
  | 0x28 => rtcAlarm s p true false d
  | 0x2C => rtcAlarm s p true true d
  | 0x30 => rtcTrim s p d
  | _ => s

end Sys2Proof.Machine
end

