-- ==== Sys2Proof/Machine/Panel.lean ====
section
/-! DEFINITION. The station panel (21_station_panel.md R502 to R515). -/

namespace Sys2Proof.Machine

def State.updPnl (s : State) (f : Panel → Panel) : State := s.updSvc fun v => { v with pnl := f v.pnl }
def State.updPnlPort (s : State) (p : Nat) (f : PnlPort → PnlPort) : State := s.updPart p fun q => { q with pnl := f q.pnl }

/-- Panel events (R515). DATA of codes 2 and 4 is open (log entry 14). -/
def pnlEvent (s : State) (code data : Nat) : State :=
  raise s { src := 236, code := code, data := data, lane := s.mainLane, writer := some 3, obj := if code = 2 then none else some 0 }

def pnlOpen (s : State) (code : Nat) : State := pnlEvent s code (Config.openData 236 code s.grid.tick)

/-- Owner of a host page (R511). -/
def pageOwner (s : State) (page : Nat) : Option Nat :=
  if 1 ≤ page ∧ page ≤ 7 then
    (s.cfgRec 0x0C01 0).bind fun r => if r.u (0x0B + page) 1 < 8 then some (r.u (0x0B + page) 1) else none
  else none

def pageAssigned (s : State) (page : Nat) : Bool := page == 0 || (pageOwner s page).isSome

def whiteLine : List Nat := List.replicate 25 0

def lineKey (page line : Nat) : Nat := page * 256 + line

/-- The level written for a request, by the map code of the pixel (R503). -/
def correctLevel (code level : Nat) : Nat :=
  match code with
  | 0 => level
  | 1 => level / 2 * 2
  | 2 => min level 1
  | _ => 0

/-- One unsound pixel of a line corrected. -/
def correctPixel (ws : List Nat) (pixel code : Nat) : List Nat :=
  let k := pixel / 16
  let i := 2 * (pixel % 16)
  let w := ws.getD k 0
  ws.set k (w - fld w i 2 * 2 ^ i + correctLevel code (fld w i 2) * 2 ^ i)

/-- A line as it is written to the panel (R503): uncorrected while the map has failed its check. -/
def correctLine (v : Panel) (line : Nat) (ws : List Nat) : List Nat :=
  if v.mapOk then
    (v.map.filter fun e => e.1 / 400 == line).foldl (fun ws e => correctPixel ws (e.1 % 400) e.2) ws
  else ws

/-- A committed line of a page, corrected. -/
def lineWanted (v : Panel) (page line : Nat) : List Nat := correctLine v line (v.current.get (lineKey page line) whiteLine)

def lineHeld (v : Panel) (line : Nat) : List Nat := v.held.get line whiteLine

/-- Lines of a page that differ from what the panel holds, ascending (R504). -/
def differing (v : Panel) (page : Nat) : List (Nat × List Nat) :=
  ((List.range 240).map fun n => (n, lineWanted v page n)).filter fun e => e.2 != lineHeld v e.1

/-- Page 0 is forced onto the panel (R509). -/
def panelForced (s : State) : Bool :=
  s.st.phase == .starting || s.st.shut || s.st.power.ps == .dark ||
    s.st.power.entering == some .dark

def naturalBand (t : Int) : Nat := if t < -100 then 0 else if t < 100 then 1 else if t ≤ 400 then 2 else 3

/-- Upper edge of a band in 0.1 °C. -/
def bandTop : Nat → Int
  | 0 => -100
  | 1 => 100
  | _ => 400

/-- The band that a temperature selects, from the present one (R506): an edge is passed by 2 °C. -/
def selectBand (b : Nat) (t : Int) : Nat :=
  if (b < 3 ∧ bandTop b + 20 ≤ t) ∨ (0 < b ∧ t ≤ bandTop (b - 1) - 20) then naturalBand t else b

/-- A pass ends (R504, R513): its lines are held, and the owner of the page sees PASS_DONE. -/
def endPass (s : State) : State :=
  match s.svc.pnl.pass with
  | none => s
  | some x =>
    let s := s.updPnl fun v => { v with held := x.lines.foldl (fun (t : Tab (List Nat)) (e : Nat × List Nat) => t.set e.1 e.2) v.held, pass := none }
    match pageOwner s x.page with
    | some p => if x.lines.isEmpty then s else s.updPnlPort p fun q => { q with passDone := true }
    | none => s

/-- PANEL_PASS_DONE (R504). -/
def execPanelPassDone (s : State) : Host.Outcome State Fault Refusal := .next (endPass s)

/-- `n` seconds of operating time, the service domain's own count, have passed since `t` (R461). -/
def opSince (s : State) (t n : Nat) : Bool := decide (t + 16 * n ≤ s.svc.rcd.optime)

/-- PANEL_FRAME (R504 to R506): the band, the common, the page on show, the lines that differ. `station` holds the lines of
page 0 that station firmware has written since the frame before, at most once per second (R508, log entry 62). -/
def execPanelFrame (temp : Int) (station : List (Fin 240 × List Word)) (s : State) : Host.Outcome State Fault Refusal :=
  .next (if !s.svc.up || s.svc.pnl.cleared then s
    else
      let s := endPass s
      let b := s.svc.pnl.nextBand
      let s := if b = s.svc.pnl.band then s else pnlEvent (s.updPnl fun v => { v with band := b }) 1 b
      let page := if panelForced s then 0 else s.svc.pnl.sel
      let late := s.svc.pnl.stationAt.all fun t => opSince s t 1
      let station := if late then station else []
      let s := s.updPnl fun v =>
        { v with nextBand := selectBand v.band temp, temp := temp, common := !v.common, shown := page,
                 stationAt := if station.isEmpty then v.stationAt else some s.svc.rcd.optime,
                 current := station.foldl (fun (t : Tab (List Nat)) e =>
                   t.set (lineKey 0 e.1.val) ((e.2.map fun w => w.toNat) ++ whiteLine |>.take 25)) v.current }
      let d := differing s.svc.pnl page
      if d.isEmpty then s
      else s.updPnl fun v => { v with pass := some ⟨page, d⟩, idle := false, lastDiff := s.svc.rcd.optime })

/-- PANEL_IDLE (R505): no line has differed for 2 s. -/
def execPanelIdle (s : State) : Host.Outcome State Fault Refusal :=
  let v := s.svc.pnl
  .next (if s.svc.up && v.pass.isNone && opSince s v.lastDiff 2 then s.updPnl fun v => { v with idle := true }
    else s)

/-- The next selectable page in page order, the station page among them (R510, log entry 63). -/
def nextPage (s : State) (from_ : Nat) : Nat :=
  (((List.range 8).map fun k => (from_ + 1 + k) % 8).find? fun p => pageAssigned s p).getD 0

/-- PANEL_KEY (R452, R510): the wake key in Dark and on the way into it; else the selection advances, KEY and EV236. -/
def execPanelKey (s : State) : Host.Outcome State Fault Refusal :=
  .next (if s.st.power.ps == .dark || s.st.power.entering == some .dark then darkWake s .key
    else if !s.svc.up then s
    else
      let cycle := (s.cfgRec 0x0C01 0).elim false fun r => bit (r.u 9 1) 0
      let s := if cycle then s.updPnl fun v => { v with sel := nextPage s v.sel } else s
      let s := allParts.foldl (fun s p => s.updPnlPort p fun q => { q with key := true }) s
      pnlOpen s 4)

/-! Registers -/

/-- A rejected write (R512). -/
def pnlReject (s : State) (p : Nat) : State := pnlEvent (s.updPnlPort p fun q => { q with writeRej := true }) 3 (p % 8)

/-- PNL_SHOW (R509, R512). -/
def pnlShow (s : State) (p d : Nat) : State :=
  if 2 ≤ s.roleOf p ∧ pageAssigned s (fld d 0 3) = true then s.updPnl fun v => { v with sel := fld d 0 3 } else pnlReject s p

/-- PNL_SHOW_WRITE (R509). -/
def execPnlShowWrite (p : Part) (data : Word) (s : State) : Host.Outcome State Fault Refusal := .next (pnlShow s p data.toNat)

/-- PNL_LINE (R512): a write starts the line over. -/
def pnlLine (s : State) (p d : Nat) : State :=
  if pageOwner s (fld d 16 3) = some p ∧ fld d 0 8 < 240 then
    s.updPnlPort p fun q => { q with page := fld d 16 3, line := fld d 0 8, index := 0, words := [] }
  else pnlReject s p

/-- PNL_LINE_WRITE (R512). -/
def execPnlLineWrite (p : Part) (data : Word) (s : State) : Host.Outcome State Fault Refusal := .next (pnlLine s p data.toNat)

/-- PNL_DATA (R513): after index 24 the line enters the page's staged copy and LINE advances. -/
def pnlData (s : State) (p d : Nat) : State :=
  let q := (s.part p).pnl
  if pageOwner s q.page = some p ∧ q.line < 240 then
    let ws := q.words ++ [d]
    if q.index < 24 then s.updPnlPort p fun q => { q with words := ws, index := q.index + 1 }
    else (s.updPnl fun v => { v with staged := v.staged.set (lineKey q.page q.line) ws }).updPnlPort p fun q =>
      { q with words := [], index := 0, line := q.line + 1 }
  else pnlReject s p

/-- PNL_DATA_WRITE (R513). -/
def execPnlDataWrite (p : Part) (data : Word) (s : State) : Host.Outcome State Fault Refusal := .next (pnlData s p data.toNat)

/-- Lines of a running pass that have not started take the newer content (R507). -/
def refreshPass (v : Panel) (page first last started : Nat) (x : PanelPass) : PanelPass :=
  if x.page ≠ page then x
  else { x with lines := x.lines.take started ++ (x.lines.drop started).map fun e =>
    if first ≤ e.1 ∧ e.1 ≤ last then (e.1, lineWanted v page e.1) else e }

/-- PNL_COMMIT (R507, R512 to R514): complete staged lines of the range become current; `started` lines of a running pass
have begun. -/
def pnlCommitTo (s : State) (p d started : Nat) : State :=
  let page := fld d 16 3
  let first := fld d 0 8
  let last := fld d 8 8
  if pageOwner s page = some p ∧ first ≤ last ∧ last < 240 ∧ s.svc.pnl.cleared = false then
    let s := s.updPnl fun v =>
      let moved := v.staged.filter fun e => decide (lineKey page first ≤ e.1 ∧ e.1 ≤ lineKey page last)
      let v := { v with current := moved.foldl (fun (t : Tab (List Nat)) (e : Nat × List Nat) => t.set e.1 e.2) v.current,
                        staged := v.staged.filter fun e => !decide (lineKey page first ≤ e.1 ∧ e.1 ≤ lineKey page last) }
      { v with pass := v.pass.map fun x => refreshPass v page first last started x }
    if s.svc.pnl.shown = page ∧ (differing s.svc.pnl page).isEmpty = false then
      s.updPnl fun v => { v with idle := false, lastDiff := s.svc.rcd.optime }
    else s
  else pnlReject s p

/-- PNL_COMMIT (R513). -/
def execPnlCommit (p : Part) (data : Word) (started : Nat) (s : State) : Host.Outcome State Fault Refusal :=
  .next (pnlCommitTo s p data.toNat started)

/-- PNL_STATUS written (R9). -/
def pnlClear (s : State) (p d : Nat) : State :=
  s.updPnlPort p fun q =>
    { q with writeRej := w1c q.writeRej (bit d 8), passDone := w1c q.passDone (bit d 9), key := w1c q.key (bit d 10) }

/-- PNL_STATUS_CLEAR (R9). -/
def execPnlStatusClear (p : Part) (data : Word) (s : State) : Host.Outcome State Fault Refusal := .next (pnlClear s p data.toNat)

/-- PNL_STATUS (R512). -/
def pnlStatus (s : State) (p : Nat) : Nat :=
  let v := s.svc.pnl
  let q := (s.part p).pnl
  v.shown % 8 + 8 * b2n (panelForced s) + 16 * b2n v.idle + 32 * (v.band % 4) + 128 * b2n v.mapOk + 256 * b2n q.writeRej +
    512 * b2n q.passDone + 1024 * b2n q.key

/-- Slow reads 0x0200 to 0x02FF (R512). -/
def pnlSlowRead (s : State) (p a : Nat) : Nat :=
  let q := (s.part p).pnl
  match a with
  | 0x200 => pnlStatus s p
  | 0x204 => s.svc.pnl.sel
  | 0x208 => q.page * 65536 + q.line
  | 0x214 => unsigned 16 s.svc.pnl.temp
  | _ => 0

/-- Slow writes 0x0200 to 0x02FF (R512). -/
def pnlSlowWrite (s : State) (p a d started : Nat) : State :=
  match a with
  | 0x200 => pnlClear s p d
  | 0x204 => pnlShow s p d
  | 0x208 => pnlLine s p d
  | 0x20C => pnlData s p d
  | 0x210 => pnlCommitTo s p d started
  | _ => s

/-- The global clear and discharge (R514); a running pass is abandoned. -/
def panelBlank (s : State) : State := s.updPnl fun v => { v with held := [], pass := none, cleared := true }

/-- The panel is driven again: every line is judged anew at the next frame (R492, R494). -/
def panelRedraw (s : State) : State := s.updPnl fun v => { v with cleared := false, idle := false }

/-- The panel record as a configuration is applied (R511): DEFAULT_PAGE, and pages that change owner turn white. -/
def panelApply (old new : List CfgRec) (s : State) : State :=
  let o := findRec old 0x0C01 0
  let n := findRec new 0x0C01 0
  let owner (r : Option CfgRec) (k : Nat) : Nat := r.elim 0xFF fun r => r.u (0x0B + k) 1
  let changed (k : Nat) : Bool := decide (1 ≤ k) && owner o k != owner n k
  s.updPnl fun v =>
    { v with sel := n.elim 0 fun r => r.u 8 1, current := v.current.filter fun e => !changed (e.1 / 256),
             staged := v.staged.filter fun e => !changed (e.1 / 256) }

end Sys2Proof.Machine
end

