-- ==== Sys2Proof/Machine/Islands.lean ====
section
/-! DEFINITION. Islands at their edge and on their links (01 R26 to R31, 05 R129 to R132, R140; 10 R271 to R274; 20 R490). -/

namespace Sys2Proof.Machine


/-- Counters 3 to 7 of one island link. -/
def linkCounters (x : Island) : LaneId → List Nat
  | .a => x.cntA
  | .b => x.cntB

/-- Advances island counter `3 + k` of a link, on 48 bits (R27). -/
def countLink (x : Island) (l : LaneId) (k : Nat) : Island :=
  let f (c : List Nat) : List Nat := c.set k ((c.getD k 0 + 1) % 2 ^ 48)
  match l with
  | .a => { x with cntA := f x.cntA }
  | .b => { x with cntB := f x.cntB }

/-! The edge -/

/-- The accepted update takes effect, or the island counts an edge without one; its watchdog applies the substitutes
(R29, R31). -/
def applyLatched (wd : Nat) (x : Island) : Island :=
  match x.latched with
  | some k => { x with applied := k.m, subst := k.subst, waits := k.waits, base := k.base, wdCount := 0, wdFired := false, latched := none }
  | none =>
    let n := x.wdCount + 1
    { x with base := false, wdCount := n, subst := x.subst || decide (wd ≤ n), wdFired := x.wdFired || decide (wd ≤ n) }

def Island.mark (x : Island) : LaneId → Option Nat
  | .a => x.markA
  | .b => x.markB

/-- The lane whose markers correct an island's timer (R129): the token's holder, for SK-1 the lane that acts; while there is none,
Lane A, or Lane B if no marker has come from Lane A. -/
def markerLane (s : State) (i : Nat) (x : Island) : LaneId :=
  (if i = skIsl then s.activeLane else x.holder).getD (if x.markA.isSome then .a else .b)

/-- Edge markers at an edge (R129, R130): a missing one is counted on its link; after 2 edges without any the timer runs on its own
until a marker of lane `l` is adopted; an adoption that corrects it by more than 1 µs is counted on that link and told. -/
def markerEdge (l : LaneId) (x : Island) : Island × Bool :=
  let far := x.ownTimer && (x.mark l).any fun ns => decide (1000 < ns)
  let x := if x.markA.isSome then x else countLink x .a 3
  let x := if x.markB.isSome then x else countLink x .b 3
  let x := if far then countLink x l 4 else x
  let missed := if x.markA.isNone && x.markB.isNone then x.missed + 1 else 0
  ({ x with ownPrev := x.ownTimer, missed := missed, markA := none, markB := none,
            ownTimer := (x.mark l).isNone && (x.ownTimer || decide (2 ≤ missed)) }, far)

/-- The island's timer at its edge (R129, R130). -/
def timerEdge (s : State) (i : Nat) : State :=
  let x := s.island i
  let (x', far) := markerEdge (markerLane s i x) x
  let s := s.updIsl i fun _ => x'
  if far then raiseUnnamed s .edgeTimer (leBytes i 1) else s

/-- The frame that the island sends on both links (R26, R272). -/
def sendFrame (s : State) (i : Nat) (data : Mem) (pdus : Tab (List Byte)) : State :=
  s.updIsl i fun x =>
    let f : IslFrame := ⟨s.grid.tick, x.holder, x.epoch, x.unapplied, data, x.cntA, x.cntB, pdus⟩
    { x with frame := some f }

/-- The front end of an island at the edge (R131): its state and its part of the input image. -/
def frontEnd (s : State) (i : Nat) (x : FieldSample) (m : Mem) : State × Mem :=
  match i with
  | 0 | 1 => match x with
    | .dio ch g t => dioEdge s i ch g t m
    | _ => dioEdge s i [] [] 0 m
  | 2 | 3 => match x with
    | .ai ch t => aiEdge s i ch t m
    | _ => aiEdge s i [] 0 m
  | 4 => match x with
    | .ao ch t => aoEdge s ch t m
    | _ => aoEdge s [] 0 m
  | _ => match x with
    | .mx w n t => mxEdge s w n t m
    | _ => mxEdge s [] [] 0 m

/-- The SAFE values that SK-1 holds at the edge, under the edge's tick number (R131, R401). In SELFTEST no cycle runs and the
status is as it stands. -/
def skData (s : State) : Mem :=
  let m := if s.sk.phase = .selftest then Mem.writeN [] (aSAFE + 4) (skStatus s)
    else if s.sk.pubFrom ≤ s.grid.now then s.sk.pub else s.sk.pubOld
  m.writeN aSAFE (leBytes s.tickNo 4)

/-- The newest PDU of each producer connection (R410). -/
def skPduTable (s : State) : Tab (List Byte) := s.sk.conns.filterMap fun e => e.2.pdu.map fun b => (e.1, b)

/-- ISLAND_EDGE (R26, R29, R31, R130, R131, R272): token, update, front end, frame. A token-governed island takes the accepted
update with it. -/
def execIslandEdge (i : Isl) (sample : FieldSample) (s : State) : Host.Outcome State Fault Refusal :=
  .next (if (s.island i.val).powered = false then s
    else if i.val = skIsl then
      let s := timerEdge s skIsl
      sendFrame s skIsl (skData s) (skPduTable s)
    else
      let s := tokenEdge s i.val
      let s := timerEdge (s.updIsl i.val (applyLatched s.islandWd)) i.val
      let (s, m) := frontEnd s i.val sample (((s.island i.val).frame.map fun f => f.data).getD [])
      sendFrame s i.val m [])

/-- ISLAND_WATCHDOG_EXPIRED (R31): the coming edge is the last of ISLAND_WD_TICKS without an accepted update. -/
def execIslandWatchdogExpired (i : Isl) (s : State) : Host.Outcome State Fault Refusal :=
  let x := s.island i.val
  .next (if x.powered = true ∧ tokenIslands.contains i.val = true ∧ x.latched = none ∧ s.islandWd ≤ x.wdCount + 1 then
      s.updIsl i.val fun x => { x with subst := true, wdFired := true }
    else s)

/-- EDGE_MARKER (R129, R130): the marker of a lane for the coming edge, with the correction that adopting it would make. -/
def execEdgeMarker (i : Isl) (l : LaneId) (correctionNs : Nat) (s : State) : Host.Outcome State Fault Refusal :=
  .next (if (s.island i.val).powered = false ∨ (s.lane l).runs = false then s
    else s.updIsl i.val fun x => match l with
      | .a => { x with markA := some correctionNs }
      | .b => { x with markB := some correctionNs })

/-! Input frames -/

/-- The swap that takes an island's frame in this tick has been made (R136). -/
def swapDone (s : State) (l : LaneId) (i : Nat) : Bool :=
  (if i = mxIsl then (s.lane l).mxTick else (s.lane l).swapTick) == some s.grid.tick

/-- A change of ends passes the token at the present edge: its old holder is not deposed (R286). -/
def endsPassing (s : State) : Bool := s.st.ends.confirmed && s.st.ends.s.any fun sw => decide (s.grid.tick = sw + 1)

/-- What a good frame's token fields tell a lane (R263, R273): another holder deposes it; while it forwards a grant, islands that
do not show it are reported once, and the grant is done when every one shows it. -/
def frameToken (s : State) (l : LaneId) (i : Nat) (f : IslFrame) : State :=
  let v := s.lane l
  if runsRole v.role = true ∧ f.holder = some (other l) ∧ endsPassing s = false then goOffline s l .deposed
  else match v.tok.grant with
    | none => s
    | some g =>
      if f.holder = some l then
        let shows (k : Nat) : Bool := !(s.island k).powered || (v.arrived.get? k).any fun a => a.frame.holder == some l
        s.updLane l fun v => { v with tok := { v.tok with
          missing := v.tok.missing.filter fun k => k != i,
          grant := if tokenIslands.all fun k => k == i || shows k then none else some g } }
      else if g.edge ≤ f.tick ∧ v.tok.missing.contains i = false then
        redEvent (s.updLane l fun v => { v with tok := { v.tok with missing := v.tok.missing ++ [i] } }) l 35 3 (leBytes i 1)
      else s

/-- A good frame is held for the swap with the counters it carries (R26, R27). -/
def takeFrame (v : Lane) (l : LaneId) (i : Nat) (f : IslFrame) : Lane :=
  let c := match l with
    | .a => f.cntA
    | .b => f.cntB
  let t := (List.range 5).foldl (fun (t : Tab Nat) k => t.set (8 * i + 3 + k) (c.getD k 0)) (bump v.linkCnt (8 * i) 1)
  { v with linkCnt := t, arrived := v.arrived.set i ⟨f, true⟩ }

/-- ISLAND_INPUT_FRAME (R26, R27, R136, R143): the frame of the present edge reaches a lane whose domains run (R434); one after its swap is
discarded. -/
def execIslandInputFrame (i : Isl) (l : LaneId) (crcOk : Bool) (s : State) : Host.Outcome State Fault Refusal :=
  let v := s.lane l
  .next (match (s.island i.val).frame with
    | none => s
    | some f =>
      if v.runs = false ∨ (s.island i.val).powered = false ∨ f.tick ≠ s.grid.tick ∨ swapDone s l i.val = true then s
      else if crcOk then
        let s := s.updLane l fun v => takeFrame v l i.val f
        if i.val = skIsl then s else frameToken s l i.val f
      else s.updLane l fun v =>
        { v with linkCnt := bump v.linkCnt (8 * i.val + 1) 1,
                 arrived := match v.arrived.get? i.val with
                   | some a => if a.good ∧ a.frame.tick = f.tick then v.arrived else v.arrived.set i.val ⟨f, false⟩
                   | none => v.arrived.set i.val ⟨f, false⟩ })

/-! Output frames -/

/-- A lane sends output frames in a tick: not OFFLINE nor held, its cut-off of the tick has been made, and not in the dead-ball tick of
its own release (R262, R286). -/
def sendsOutput (s : State) (l : LaneId) : Bool :=
  (s.lane l).role != .offline && (s.lane l).runs && (s.lane l).frozenTick.isSome &&
    !(s.st.ends.released && s.st.ends.s == some s.grid.tick && runsRole (s.lane l).role)

/-- Output bytes of an island in a frozen image (R15, R356): OUT as it stands. -/
def outPart (m : Mem) : Mem := m.filter fun c => aOUT ≤ c.1 && c.1 < aFLOWIN

/-- AO-1 channels whose writing task has not committed since START (R120). -/
def aoWaits (s : State) (l : LaneId) : List Nat :=
  (List.range 16).filter fun c => (taskWriters s (aoOut c) 4).any fun k => ((s.lane l).be.ctxs.get k {}).lastCommit.isNone

/-- The update of a lane for the coming edge (R120, R122, R123, R140). -/
def latchOf (s : State) (l : LaneId) (base : Bool) : Latch :=
  { m := outPart (s.lane l).frozen, subst := !s.st.engaged || s.st.stopAt == some (s.grid.tick + 1), waits := aoWaits s l, base := base }

/-- The referee's accepted frame may carry an announcement, or belie one (R271, R286). The frames for edge S carry RELEASE_NEXT with the
proposal: its confirmation leaves at the same cut-off (log entry 96). -/
def announceRelease (s : State) (l : LaneId) (x : Island) : Island × Option LaneId :=
  let next := s.grid.tick + 1
  if s.st.ends.s = some next ∧ runsRole (s.lane l).role then ({ x with announced := some (next + 1) }, none)
  else match x.announced with
    | some e => if e < next then ({ x with announced := none, waiting := none }, x.waiting) else (x, none)
    | none => (x, none)

/-- An update is accepted for the coming edge (R28, R140). -/
def acceptUpdate (s : State) (i : Nat) (l : LaneId) : State :=
  let x := s.island i
  let k := latchOf s l (x.baseline == some l)
  let (y, refused) := if i = s.st.referee then announceRelease s l x else (x, none)
  let s := s.updIsl i fun _ => { y with latched := some k, baseline := none, accNext := true }
  match refused with
  | some w => s.updLane w fun v => { v with tok := { v.tok with reply := some .refused } }
  | none => s

/-- What an output frame brings SK-1 (R402, R410): the lane bytes of SAFE, at their safe-state values while the station is not
RUNNING, and the PDUs taken at the lane's last swap. -/
def skFrame (s : State) (l : LaneId) (old : Option LaneRx) : LaneRx :=
  let v := s.lane l
  let safe := v.frozen.readN (aSAFE + 0x200) 73
  let safe := if s.st.engaged ∧ s.st.stopAt ≠ some (s.grid.tick + 1) then safe else padTo 64 (safeRequest s) ++ safe.drop 64
  let rs := (flowRecs s 1).filter fun r => r.u 9 1 == 1
  let old : Tab (List Byte) := (old.map fun x => x.pdus).getD []
  ⟨safe, rs.foldl (fun (t : Tab (List Byte)) r => match (flowOf v r.inst).pdu with
    | some b => t.set (r.u 0x29 1) b
    | none => t) old⟩

/-- ISLAND_OUTPUT_FRAME (R26 to R28, R130, R140, R402): the output frame of a lane's last cut-off reaches an island. `late` says
that it arrives after E + L − 1 µs. -/
def execIslandOutputFrame (i : Isl) (l : LaneId) (crcOk late : Bool) (s : State) : Host.Outcome State Fault Refusal :=
  let x := s.island i.val
  let lateNow := late || (s.lane l).frozenTick != some s.grid.tick
  .next (if x.powered = false ∨ sendsOutput s l = false then s
    else if !crcOk then s.updIsl i.val fun x => countLink x l 0
    else if i.val = skIsl then
      if lateNow then s.updIsl i.val fun x => countLink x l 2
      else if runsRole (s.lane l).role = false then s
      else match l with
        | .a => s.updSk fun k => { k with rxA := some (skFrame s .a k.rxA) }
        | .b => s.updSk fun k => { k with rxB := some (skFrame s .b k.rxB) }
    else if x.holder ≠ some l then s.updIsl i.val fun x => countLink x l 1
    else if lateNow then s.updIsl i.val fun x => countLink x l 2
    else acceptUpdate s i.val l)

/-! Field supplies (R490) -/

/-- A field supply falls (R353, R364, R368, R400, R490). -/
def execFieldSupplyLow (f : FieldSupply) (s : State) : Host.Outcome State Fault Refusal :=
  .next (match f with
    | .sk1 => if s.sk.supplyLow || !s.sk.powered then s
      else skEvent (outputsOff (s.updSk fun k => { k with supplyLow := true })) 199 1 0
    | .mx1 => if (s.island mxIsl).mx.low then s
      else raise (setSupply s .mx1 true) { src := 234, code := 6, data := Config.openData 234 6 s.grid.tick, lane := s.mainLane, writer := some 3 }
    | _ => setSupply s f true)

/-- A field supply is back. -/
def execFieldSupplyRestored (f : FieldSupply) (s : State) : Host.Outcome State Fault Refusal :=
  .next (match f with
    | .sk1 => if s.sk.supplyLow then skEvent (s.updSk fun k => { k with supplyLow := false }) 199 2 0 else s
    | _ => setSupply s f false)

end Sys2Proof.Machine
end

