-- ==== Sys2Proof/Machine/Status.lean ====
section
/-! DEFINITION. What STATUS_GET shows, kept as of the last completed tick (03 R97). -/

namespace Sys2Proof.Machine

/-- Bytes of STATUS_GET (R97). -/
def statusBytes (s : State) : List Byte :=
  let l := s.mainLane
  let role (v : Lane) : Nat := if v.present then v.role.code else 0xFF
  let health (v : Lane) : Nat := if v.present then v.health.code else 0xFF
  let t := s.st
  leBytes t.phase.code 1 ++ leBytes (maskOf [t.cfg.isSome, t.prog.isSome, t.safetyAccepted, t.access.isSome]) 1 ++
    leBytes (if s.sk.powered then s.sk.phase.code else 0xFF) 1 ++ leBytes (s.lane l).net.time.code 1 ++
    leBytes (role s.a) 1 ++ leBytes (role s.b) 1 ++ leBytes (health s.a) 1 ++ leBytes (health s.b) 1 ++
    leBytes (powerCode s) 1 ++ leBytes (s.lane l).opp.op 1 ++ leBytes (t.lock.getD 0xFF) 1 ++
    leBytes (maskOf (allParts.map fun p => (s.part p).session)) 1 ++ leBytes t.stopCause 1 ++ leBytes t.stopArg 1 ++
    leBytes (maskOf (allParts.map fun p => s.isAttached p)) 1 ++
    leBytes (maskOf [s.svc.up, s.a.staging.active, s.b.staging.active, s.svc.cart.isSome, s.svc.cart.elim false Cart.replace]) 1 ++
    leBytes (s.lane l).fw 4 ++ leBytes s.tickUs 2 ++ leBytes s.stationNumber 2 ++
    padTo 16 (t.prog.elim [] fun img => (img.drop 0x10).take 16) ++
    padTo 16 (if t.safetyAccepted then t.safety.elim [] fun img =>
      (findRec (safetyRecs img) 0x0A01 0).elim [] fun r => (r.bytes.drop 0x10).take 16 else []) ++
    leBytes (if t.cfg.isSome then t.cfgCrc else 0) 4 ++
    leBytes (t.prog.elim 0 fun img => rdU img (img.length - 4) 4) 4 ++
    leBytes (maskOf (levels.map fun n => (ctxOf s l n).phase == .halted)) 2 ++ zeros 2 ++
    leBytes (s.svc.rcd.optime / 16) 4 ++ leBytes s.svc.rcd.pcycle 4 ++ zeros 4

/-- The station's values as its acting lane completes a tick (R45, R97). -/
def keepStatus (s : State) (l : LaneId) : State :=
  if s.mainLane = l then s.updSt fun t => { t with lastStatus := some (s.tickNo, statusBytes s) } else s

end Sys2Proof.Machine
end

