-- ==== Sys2Proof/Machine/Supplies.lean ====
section
/-! DEFINITION. Feeds, the power-fail sequence and the Freut cartridge (20_supplies.md R489 to R501), and the slow port's accesses
(02 R62, R63). -/

namespace Sys2Proof.Machine

def State.updSup (s : State) (f : Supply → Supply) : State := s.updSvc fun v => { v with sup := f v.sup }
def State.updCart (s : State) (f : Cart → Cart) : State := s.updSvc fun v => { v with cart := v.cart.map f }

def feedOf (v : Supply) : LaneId → Bool
  | .a => v.feedA
  | .b => v.feedB

def setFeed (s : State) (l : LaneId) (on : Bool) (mv : Nat) : State :=
  s.updSup fun v => match l with
    | .a => { v with feedA := on, mvA := mv }
    | .b => { v with feedB := on, mvB := mv }

/-- Events of the cartridge and supplies, whose DATA no rule defines (R501, log entry 14); the lane stands in the payload. -/
def supEvent (s : State) (src code : Nat) (pay : List Byte := []) : State :=
  raise s { src := src, code := code, data := Config.openData src code s.grid.tick, pay := pay, lane := s.mainLane, writer := some 3 }

/-- A flag of CART_STATUS bits 8 to 11 set in every partition (R496). -/
def cartFlag (s : State) (k : Nat) : State :=
  allParts.foldl (fun s p => s.updPart p fun q =>
    if bit q.cartFlags k then q else { q with cartFlags := q.cartFlags + 2 ^ k }) s

/-- The bank's voltage as measured; a fall below 7.0 V counts one discharge (R499). -/
def bankVolts (s : State) (mv : Nat) : State :=
  s.updCart fun c =>
    { c with mv := mv, id := if 7000 ≤ c.mv ∧ mv < 7000 then { c.id with discharges := c.id.discharges + 1 } else c.id }

/-- A measurement is abandoned (R497). -/
def abandonMeasure (s : State) : State :=
  if (s.svc.cart.elim false Cart.measuring) then
    supEvent (cartFlag (s.updCart fun c => { c with measuring := false }) 3) 233 4
  else s

/-- Power is lost while the recorder writes a slot: NEXT has advanced and the slot holds no valid record (R459, R460, R478); whether a
write stood half done is free. -/
def tearWrite (s : State) : State :=
  if s.svc.rcd.queue.isEmpty then s
  else
    let (k, s) := s.takeFree
    if Config.freeNat k % 2 = 0 then s
    else s.updRec fun v => { v with next := v.next + 1, ring := v.ring.erase (v.next % ringSlots) }

/-- Every unit loses its supply (R2, R491 step 6, R493): nothing runs, the station's settings are gone, the panel clears itself
(R514); the store, and on the primary cell the calendar, remain. -/
def powerOff (s : State) : State :=
  let s := tearWrite (abandonBank s 2)
  let s := panelBlank (rtcPowerLost s)
  let off (v : Lane) : Lane := { suspect := v.suspect, feedCycled := true }
  let s := { s with st := {}, parts := [], isl := [], a := off s.a, b := off s.b, sk := { digest := s.sk.digest, pw := s.sk.pw } }
  let s := s.updSup fun v => { v with holdup := false }
  let s := s.updRec fun v => { v with queue := [], waiting := none, skipped := none, anchor := none, offered := none }
  s.updSvc fun v => { v with up := false, clk := {} }

/-- A lane whose feed is lost stops while its partner's feed is present (R263, R489). -/
def unpowerLane (s : State) (l : LaneId) : State :=
  let s := if (s.lane l).feed then laneStops s l .stopped else s
  s.updLane l fun v => { suspect := v.suspect, feedCycled := true }

/-- Lanes without a feed stop once the hold-up is over and a feed is back (R489, R492). -/
def endHoldup (s : State) : State :=
  let s := s.updSup fun v => { v with holdup := false }
  let s := s.updSt fun t => { t with pfStep := 0 }
  let s := if s.svc.sup.feedA || !s.a.feed then s else unpowerLane s .a
  if s.svc.sup.feedB || !s.b.feed then s else unpowerLane s .b

/-- Steps 4 and 5 (R491): the queue is flushed, the power-fail record written, the panel cleared. With a feed present the panel
is driven again and the sequence is over (R492, R494). -/
def pfFinish (s : State) : State :=
  let s := drainQueue s.svc.rcd.queue.length s
  let v := s.svc.sup
  let s := supEvent s 234 3 (leBytes v.mvA 2 ++ leBytes v.mvB 2 ++ leBytes (s.svc.cart.elim 0 Cart.mv) 2)
  let s := panelBlank (drainQueue s.svc.rcd.queue.length s)
  if v.feedA || v.feedB then panelRedraw (endHoldup s) else s.updSt fun t => { t with pfStep := 5 }

/-- Step 2 (R491, R494): the station enters STOPPED with its cause; a station that is STOPPED keeps its newest bank. A bank
write in progress when power has failed is abandoned (R478). -/
def pfStop (s : State) (cause arg : Nat) : State :=
  if s.st.phase == .running then
    let s := if cause = 4 then abandonBank s 2 else s
    (enterStopped s cause arg).updSt fun t => { t with pfStep := 2 }
  else pfFinish s

/-- Step 3 (R474, R475, R491): the bank is captured at the cut-off of the tick in which substitute values stand. -/
def pfBank (s : State) (l : LaneId) : State :=
  let s := startBank s l (captureBank s l (if s.st.stopCause = 4 ∨ (s.st.stopCause = 0 ∧ s.svc.sup.holdup = true) then 4 else 2))
  if s.svc.rcd.writing.isSome then s.updSt fun t => { t with pfStep := 3 } else pfFinish s

/-- BANK_WRITE_DONE (R474); the sequence goes on (R491). -/
def execBankWriteDone (s : State) : Host.Outcome State Fault Refusal :=
  let s := bankDone s
  .next (if s.st.pfStep = 3 ∧ s.svc.rcd.writing.isNone = true then pfFinish s else s)

/-- A feed at this voltage is lost: below 16.0 V, or still below 18.0 V once it has been lost (R489). -/
def feedGone (present : Bool) (mv : Nat) : Bool := decide (mv < if present then 16000 else 18000)

/-- LANE_FEED_LOST (R489): below 16.0 V for 200 µs; with the partner's feed present the lane stops, otherwise the cartridge carries
it. -/
def execLaneFeedLost (l : LaneId) (feedMv : Nat) (s : State) : Host.Outcome State Fault Refusal :=
  .next (if !feedOf s.svc.sup l || !feedGone true feedMv then s
    else
      let s := abandonMeasure (supEvent (setFeed s l false feedMv) 234 4 (leBytes (laneNo l) 1))
      if feedOf s.svc.sup (other l) then unpowerLane s l else s)

/-- A measurement starts only with both feeds present and the bank CHARGED (R497). -/
def tryMeasure (s : State) : State :=
  let v := s.svc.sup
  s.updCart fun c =>
    if c.due && !c.measuring && v.feedA && v.feedB && decide (13000 ≤ c.mv) then { c with measuring := true, due := false } else c

/-- LANE_FEED_RESTORED (R489, R491, R492, R497): at 18.0 V; within the ride-through the sequence ends; after step 2 it completes. A lane
without power starts with its logic power-good; a postponed measurement may start. -/
def execLaneFeedRestored (l : LaneId) (feedMv : Nat) (s : State) : Host.Outcome State Fault Refusal :=
  .next (if feedOf s.svc.sup l || feedGone false feedMv then s
    else
      let s := tryMeasure (supEvent (setFeed s l true feedMv) 234 5 (leBytes (laneNo l) 1))
      if s.st.pfStep = 1 then supEvent (endHoldup s) 234 1
      else if s.st.pfStep = 5 then panelRedraw (endHoldup s)
      else s)

/-- A lane that the cartridge carries: it runs at the moment of the failure (R489). -/
def Lane.carried (v : Lane) : Bool := v.phase == .running || v.phase == .starting

/-- A lane that is not carried is without power. -/
def dropUncarried (s : State) (l : LaneId) : State :=
  s.updLane l fun v => if v.carried then v else { suspect := v.suspect, feedCycled := true }

/-- POWER_FAILURE (R489, R491, R493): both feeds are lost; the lanes running are carried, by the bank's voltage. -/
def execPowerFailure (bankMv feedAMv feedBMv : Nat) (s : State) : Host.Outcome State Fault Refusal :=
  .next (if (!s.a.feed && !s.b.feed) || s.svc.sup.holdup || !feedGone s.svc.sup.feedA feedAMv || !feedGone s.svc.sup.feedB feedBMv then s
    else
      let s := s.updSup fun v => { v with feedA := false, feedB := false, mvA := feedAMv, mvB := feedBMv }
      let s := bankVolts (abandonMeasure s) bankMv
      if s.svc.cart.isNone || decide (bankMv < 7000) || !(s.a.carried || s.b.carried) then powerOff s
      else
        let s := bothLanes dropUncarried s
        let s := supEvent (s.updSup fun v => { v with holdup := true }) 234 2
        if s.st.pfStep ≠ 0 then s
        else if bankMv < 12000 then pfStop s 4 0
        else s.updSt fun t => { t with pfStep := 1 })

/-- RIDE_THROUGH_END (R491): 20 ms after the failure. -/
def execRideThroughEnd (s : State) : Host.Outcome State Fault Refusal :=
  .next (if s.st.pfStep = 1 then pfStop s 4 0 else s)

/-- HOLDUP_OFF (R491): with both feeds still lost after step 2 has started. -/
def execHoldupOff (s : State) : Host.Outcome State Fault Refusal :=
  let v := s.svc.sup
  .next (if v.holdup && !v.feedA && !v.feedB && decide (2 ≤ s.st.pfStep) then powerOff s else s)

/-- SAFE_SHUTDOWN (R93, R494); WRONG_STATE while a power-fail sequence runs (log entry 118). -/
def execSafeShutdown (p : Part) (s : State) : Host.Outcome State Fault Refusal :=
  .next (serve s p 0x0033 fun s _ =>
    needOperator s p true
      (if s.st.pfStep ≠ 0 then answer s p true WRONG_STATE s.st.phase.code
       else pfStop ((respond s p true ACCEPTED 0 0 ((s.grid.tick + 2) % 2 ^ 32)).updSt fun t => { t with shut := true }) 3 p.val))

/-! The cartridge -/

/-- CART_INSERTED (R497, R499, R500). -/
def execCartInserted (id : CartId) (bankMv : Nat) (s : State) : Host.Outcome State Fault Refusal :=
  .next (if s.svc.cart.isSome then s
    else
      let s := s.updSvc fun v => { v with cart := some { id := id, mv := bankMv } }
      let s := supEvent (cartFlag s 0) 232 1
      tryMeasure (if id.valid then s else supEvent s 232 4))

/-- CART_REMOVED (R479, R483, R493, R497, R500): a bank write in progress is abandoned (log entry 149); a running power-fail sequence
ends at that instant as without a cartridge, and where a feed is back, the lane without one stops. -/
def execCartRemoved (s : State) : Host.Outcome State Fault Refusal :=
  .next (if s.svc.cart.isNone then s
    else
      let s := abandonMeasure s
      let held := s.svc.sup.holdup
      let s := supEvent (cartFlag s 1) 232 (if held then 3 else 2)
      let s := abandonBank (s.updSvc fun v => { v with cart := none }) 3
      if held && !s.svc.sup.feedA && !s.svc.sup.feedB then powerOff s
      else if held then endHoldup s
      else if !s.svc.sup.feedA && !s.svc.sup.feedB then s.updRtc fun _ => {}
      else if s.st.pfStep = 3 ∧ s.svc.rcd.writing.isNone = true then pfFinish s
      else s)

/-- BAY_EMPTY_REPEAT (R500). -/
def execBayEmptyRepeat (s : State) : Host.Outcome State Fault Refusal :=
  .next (if s.svc.cart.isNone && s.svc.up then supEvent s 232 2 else s)

/-- CART_CTRL (R496, R497): MEAS_NOW, from an OWNER alone. -/
def cartCtrl (s : State) (p d : Nat) : State :=
  if s.roleOf p = 3 ∧ bit d 0 = true then tryMeasure (s.updCart fun c => { c with due := true }) else s

/-- CART_MEAS_NOW (R497). -/
def execCartMeasNow (p : Part) (data : Word) (s : State) : Host.Outcome State Fault Refusal := .next (cartCtrl s p data.toNat)

/-- CART_MEAS_DUE (R497): due by the 720 h, or a postponed one may start. -/
def execCartMeasDue (bankMv : Nat) (s : State) : Host.Outcome State Fault Refusal :=
  .next (tryMeasure ((bankVolts s bankMv).updCart fun c => { c with due := !c.measuring }))

/-- Factory values that a cartridge is measured against (R499). -/
def cartFactory (c : Cart) : Nat × Nat := if c.id.valid then (c.id.cap, c.id.esr) else (2400, 60)

/-- Capacitance in mF from the time of the 1.00 A discharge over 1.5 V, and ESR in mΩ from the voltage step of the 2.0 A load; both
rounded down (R497, log entry 133). -/
def measured (stepMv dischargeMs : Nat) : Nat × Nat := (2 * dischargeMs / 3, stepMv / 2)

/-- CART_MEAS_DONE (R497, R498). -/
def execCartMeasDone (stepMv dischargeMs : Nat) (s : State) : Host.Outcome State Fault Refusal :=
  let (capMf, esrMohm) := measured stepMv dischargeMs
  .next (match s.svc.cart with
    | none => s
    | some c =>
      if !c.measuring then s
      else
        let (fc, fe) := cartFactory c
        let warn := decide (10 * capMf ≤ 8 * fc)
        let rep := decide (10 * capMf ≤ 7 * fc) || decide (2 * fe ≤ esrMohm)
        let s := s.updCart fun c =>
          { c with measuring := false, cap := capMf, esr := esrMohm, warn := c.warn || warn, replace := c.replace || rep }
        let s := supEvent (cartFlag s 2) 233 1
        let s := if warn then supEvent s 233 2 else s
        if rep then supEvent s 233 3 else s)

/-- Temperature band of the life counters (R496). -/
def hourBand (t : Int) : Nat := if t < 25 then 0 else if t < 40 then 1 else if t < 55 then 2 else if t ≤ 70 then 3 else 4

/-- CART_HOUR (R499). -/
def execCartHour (tempC : Int) (s : State) : Host.Outcome State Fault Refusal :=
  .next (s.updCart fun c =>
    { c with id := { c.id with hours := (List.range 5).map fun k => c.id.hours.getD k 0 + (if k = hourBand tempC then 1 else 0) } })

/-- CART_STATUS written (R9). -/
def cartClear (s : State) (p d : Nat) : State :=
  s.updPart p fun q => { q with cartFlags := maskOf ((List.range 4).map fun k => w1c (bit q.cartFlags k) (bit d (8 + k))) }

/-- CART_STATUS_CLEAR (R9, R496). -/
def execCartStatusClear (p : Part) (data : Word) (s : State) : Host.Outcome State Fault Refusal := .next (cartClear s p data.toNat)

/-- CART_STATUS (R496). -/
def cartStatus (s : State) (p : Nat) : Nat :=
  let flags := (s.part p).cartFlags % 16 * 256 + 128 * b2n s.svc.sup.holdup
  match s.svc.cart with
  | none => flags
  | some c => flags + maskOf [true, c.id.valid, decide (13000 ≤ c.mv), decide (12000 ≤ c.mv), c.measuring, c.warn, c.replace]

/-- Slow reads 0x0100 to 0x01FF (R496), with the bank as measured for the read. -/
def cartSlowRead (s : State) (p a : Nat) (x : SlowSample) : Nat :=
  match a, s.svc.cart with
  | 0x100, _ => cartStatus s p
  | 0x134, _ => x.feedAMv / 10 % 65536 + x.feedBMv / 10 % 65536 * 65536
  | _, none => 0
  | 0x108, some c => c.mv % 65536
  | 0x10C, some c => c.cap % 65536 * 65536 + c.esr % 65536
  | 0x110, some c => (cartFactory c).1 % 65536 * 65536 + (cartFactory c).2 % 65536
  | 0x114, some c => c.id.serial % 2 ^ 32
  | 0x118, some c => c.id.typ % 65536 * 65536 + c.id.date % 65536
  | 0x130, some c => c.id.discharges % 2 ^ 32
  | a, some c => if 0x11C ≤ a ∧ a ≤ 0x12C then c.id.hours.getD ((a - 0x11C) / 4) 0 % 2 ^ 32 else 0

/-! The slow port -/

/-- A read of the slow address space (R62). -/
def slowRead (s : State) (p a : Nat) (x : SlowSample) : Nat × State :=
  if a = 0 then (0x78400001, s)
  else if a < 0x100 then rtcSlowRead s p a x.cycles x.phase
  else if a < 0x200 then let s := bankVolts s x.bankMv; (cartSlowRead s p a x, s)
  else if a < 0x300 then (pnlSlowRead s p a, s)
  else if a < 0x310 then (clkRead s a, s)
  else (0, s)

/-- A write to the slow address space (R62). -/
def slowWrite (s : State) (p a d started : Nat) : State :=
  if a < 0x100 then rtcSlowWrite s p a d
  else if a = 0x100 then cartClear s p d
  else if a = 0x104 then cartCtrl s p d
  else if 0x200 ≤ a ∧ a < 0x300 then pnlSlowWrite s p a d started
  else if a = 0x300 then clkSelect s false d
  else if a = 0x304 then clkSelect s true d
  else if a = 0x308 then clkClear s d
  else s

/-- The access in progress of one port completes and SLOW_BUSY clears (R63). -/
def slowServe (s : State) (p : Nat) (x : SlowSample) : State :=
  let q := s.part p
  match q.slow.access with
  | none => s
  | some k =>
    let s := s.updPart p fun q => { q with slow := { q.slow with access := none } }
    match k with
    | none => slowResult p (slowRead s p q.slow.addr x)
    | some d => slowWrite s p q.slow.addr d.toNat x.started

/-- The access in progress of a port is a commit of the clock that will be applied (R484). -/
def commitsRtc (s : State) (p : Nat) : Bool :=
  let q := s.part p
  q.slow.addr == 0x18 && decide (2 ≤ s.roleOf p) && pairOk q.rtc.setTime q.rtc.setDate &&
    (q.slow.access.any fun k => k.any fun d => bit d.toNat 0)

/-- The access in progress of a port is a CLKOUT select of this output that will be refused (R455). -/
def refusesClk (s : State) (outB : Bool) (p : Nat) : Bool :=
  let q := s.part p
  q.slow.addr == (if outB then 0x304 else 0x300) && q.slow.access.any fun k => k.any fun d => !clkOk s d.toNat

/-- The ports served in one cycle of the slow clock, in partition-number order, so that the highest-numbered write stands (R64); but
commits of the RTC before captures, which then find SUBSEC 0 (R485, log entry 117). A rejection of the cycle stays set whichever
port clears it (R9). -/
def slowCycle (xs : List (Nat × SlowSample)) (s : State) : State :=
  let xs := sortBy (fun a b => decide (a.1 ≤ b.1)) xs
  let set := xs.any fun e => commitsRtc s e.1
  let first := xs.filter fun e => commitsRtc s e.1
  let then_ := (xs.filter fun e => !commitsRtc s e.1).map fun e => (e.1, if set then { e.2 with cycles := 0 } else e.2)
  let rej (outB : Bool) : Bool := xs.any fun e => refusesClk s outB e.1
  ((first ++ then_).foldl (fun s e => slowServe s e.1 e.2) s).updSvc fun v =>
    { v with clk := { v.clk with rejA := v.clk.rejA || rej false, rejB := v.clk.rejB || rej true } }

/-- SLOW_ACCESS_DONE (R63, R64): a port's access completes, and with it those of the other ports served in the same cycle. -/
def execSlowAccessDone (p : Part) (x : SlowSample) (cycle : List (Part × SlowSample)) (s : State) :
    Host.Outcome State Fault Refusal :=
  .next (slowCycle ((p.val, x) :: cycle.map fun e => (e.1.val, e.2)) s)

end Sys2Proof.Machine
end

