-- ==== Sys2Proof/Machine/Tick.lean ====
section
/-! DEFINITION. The tick (05_tick_and_io.md): the edge, the swaps, the output cut-off. -/

namespace Sys2Proof.Machine

/-! The edge -/

/-- Cycles of the 125 MHz clock, `inc` each, until station time reaches the next edge, and what it stands above that edge then, in
2⁻³² ns (R125, R299). -/
def edgeCycles (inc len : Nat) (g : Grid) : Nat × Nat :=
  let need := ((g.tick + 1) * len - g.now) * 2 ^ 32
  let c := (need - g.frac + (inc - 1)) / inc
  (c, g.frac + c * inc - need)

/-- The grid advances to the next edge (R125, R127, R299); a cycle lasts 8 ns of the TCXO, and INCREMENT where the RC has taken its
place (R433). A forward step of station time continues the count from the new time; after a backward step the count goes on and its
next edge waits for its own time. -/
def advanceGrid (step : Option Int) (inc : Nat) (rc : Bool) (len : Nat) (g : Grid) : Grid :=
  let t := g.tick + 1
  let now := t * len
  let (c, frac) := edgeCycles inc len g
  let g := { g with tick := t, now := now, frac := frac, mono := g.mono + if rc then now - g.now else 8 * c }
  match step with
  | none => g
  | some d =>
    let new := ((now : Int) + d).toNat
    if 0 ≤ d then { g with now := new, tick := new / len, stepped := true, skipped := g.skipped + (new / len - t) }
    else { g with now := new, stepped := true }

/-- What START brings at its TICK (R120, R155, R332): tasks wait for their first release, loops and ports start. -/
def startEdge (s : State) : State :=
  let s := bothLanes (fun s l =>
    if tracks (s.lane l) then
      canStart (startLoops (startTasks s l) l) l [0, 1, 2, 3, 4, 5, 6, 7]
    else s) s
  let s := bothLanes (fun s l => s.updLane l fun v =>
    { v with lateBase := (List.range 7).foldl (fun n i => n + (linkCounters (s.island i) l).getD 2 0) 0,
             mirror := { v.mirror with drops := 0 } }) s
  let s := canStart s .a [8, 9]
  let s := s.updRec fun v => { v with periodFrom := s.grid.mono }
  { s with st := { s.st with engaged := true, hasRun := true }, grid := { s.grid with stepped := false } }

/-- The STOP that waits for its TICK ends with OK (R93, R123). -/
def answerStops (s : State) : State :=
  allParts.foldl (fun s p =>
    let m := (s.part p).urg
    if m.busy && m.phase == .waiting && word m.cmd 0 % 65536 == 0x0031 then answer s p true OK else s) s

/-- START and STOP at the edges that carry their TICKs (R120, R123). -/
def stationEdge (s : State) : State :=
  let t := s.grid.tick
  let s := if s.st.stopAt == some (t + 1) then bothLanes stopTasks s else s
  let s := if s.st.stopAt == some t then
      let s := dropBatches (bothLanes (fun s l => stopLoops (stopTasks s l) l) s) 1
      answerStops ((discardLoopStage s).updSt fun x => { x with engaged := false })
    else s
  let s := if s.st.startAt == some t && s.st.phase == .running then startEdge s else s
  s.updSt fun x => { x with startAt := x.startAt.bind fun a => if a ≤ t then none else some a }

/-- A dead-ball tick seen in the partner's proposal, until its swap edge has passed (R266, R286). -/
def forgetSeen (s : State) (l : LaneId) : State :=
  s.updLane l fun v => { v with endsSeen := v.endsSeen.filter fun e => decide ((e + 1 + 2 ^ 32 - s.tickNo) % 2 ^ 32 < 2 ^ 31) }

/-- A change of ends at an edge (R285, R286, R288): the self-check runs 8 ticks; a proposal not confirmed by its dead-ball tick is made
again while a lane is STANDBY; one confirmed that has not swapped by the edge after S + 1 is over. -/
def endsEdge (s : State) : State :=
  let s := bothLanes forgetSeen s
  let s := retryEnds (s.updSt fun t => { t with ends := { t.ends with check := t.ends.check - 1 } })
  match s.st.ends.s with
  | none => s
  | some sw =>
    if s.st.ends.confirmed = false ∧ s.standbyLane = none then dropEnds s
    else if s.st.ends.confirmed = false ∧ sw ≤ s.grid.tick then
      s.updSt fun t => { t with ends := { t.ends with s := some (s.grid.tick + 2) } }
    else if sw + 1 < s.grid.tick then
      s.updSt fun t => { t with ends := { t.ends with s := none, confirmed := false, released := false, levels := [] } }
    else s

/-- What takes effect for the partitions at an edge: LAT_TOL, subscriptions (R57, R94). -/
def partsEdge (s : State) : State :=
  { s with parts := s.parts.map fun (e : Nat × Partition) =>
      (e.1, { e.2 with latEff := e.2.latTol, sub := e.2.subNext.getD e.2.sub, subNext := none }) }

/-- The lanes' ticks run: a lane's firmware runs (R143: in Dark none does). -/
def ticking (s : State) : Bool := s.a.phase == .running || s.b.phase == .running

/-- TICK_EDGE (R125 to R127, R133, R302): the islands' part of the edge is ISLAND_EDGE's, an image's application is CONFIG_APPLY's.
`skewNs` is the difference of the lanes' station times at the edge. -/
def execTickEdge (skewNs : Int) (s : State) : Host.Outcome State Fault Refusal :=
  .next (if !ticking s then s
    else
      let l := s.timeLane
      let was := s.grid.tick
      let (d, s) := takeStep (dropStep s (other l)) l
      let g := advanceGrid d (s.lane l).net.increment ((s.lane l).clocks.src == .rc) s.lenNs s.grid
      let s := if g.skipped = s.grid.skipped then { s with grid := g }
        else raiseUnnamed { s with grid := g } .offsetStep (leBytes (g.skipped - s.grid.skipped) 8)
      let s := bothLanes (fun s l => s.updLane l fun v => { v with takeover := false }) (partsEdge (lanesDiffer s skewNs))
      let hold4 := needsOp4 s
      let s := endsEdge (stationEdge (decideRoleAsks (bothLanes keepLevels s)))
      let s := bothLanes (fun s l => if (s.lane l).clocks.held then s else canEdge s l) s
      let s := powerEdge hold4 (batchEdge was s)
      darkEdge (litEdge (bothLanes (fun s l => if (s.lane l).runs then gateEdge (freqEdge s l) l else s) s)))

/-! The swaps -/

/-- Where an island's frame stands in the image: address and length (R13, R354, R360, R401). -/
def islRange : Nat → Nat × Nat
  | 0 => (aIN, 0x100)
  | 1 => (aIN + 0x100, 0x100)
  | 2 => (aIN + 0x200, 0x200)
  | 3 => (aIN + 0x400, 0x200)
  | 4 => (aIN + 0x600, 0x200)
  | 5 => (aIN + 0x800, 0x7800)
  | _ => (aSAFE, 0x100)

/-- An island's part of a lane's image at a swap (R26, R27, R136, R143). -/
def takeIsland (t : Nat) (i : Nat) (v : Lane) : Lane :=
  let here := (v.arrived.get? i).filter fun a => a.frame.tick == t
  match here with
  | some a =>
    if a.good then
      { v with img := v.img.copyRange a.frame.data (islRange i).1 (islRange i).2, linkLost := v.linkLost.set i 0,
               skPdus := if i = skIsl then a.frame.pdus else v.skPdus }
    else { v with img := loseQuality i v.img, linkLost := v.linkLost.set i (v.linkLost.get i 0 + 1) }
  | none =>
    { v with img := loseQuality i v.img, linkLost := v.linkLost.set i (v.linkLost.get i 0 + 1),
             linkCnt := bump v.linkCnt (8 * i + 2) 1 }

/-- SYS 0x000 to 0x01F (R148). LATE_FRAMES counts the links of the writing lane (log entry 152). -/
def sysTiming (s : State) (l : LaneId) : List Byte :=
  let v := s.lane l
  let own := (List.range 7).any fun i => (s.island i).ownPrev
  let late := (List.range 7).foldl (fun n i => n + v.linkCnt.get (8 * i + 5) 0) 0 - v.lateBase
  leBytes s.tickNo 4 ++ leBytes s.tickUs 4 ++ leBytes (s.grid.tick * s.lenNs) 8 ++ leBytes v.net.time.code 1 ++
    leBytes (maskOf [s.grid.stepped, own, v.loopLate]) 1 ++ zeros 2 ++ leBytes (holdoverS s l) 4 ++ leBytes v.be.overruns 4 ++
    leBytes late 4

/-- SYS 0x020 to 0x02F (R284). -/
def sysRedundancy (s : State) (l : LaneId) : List Byte :=
  let v := s.lane l
  let sus := (v.beat.word.map fun w => w.health == 2).getD false
  leBytes (laneNo l) 1 ++ leBytes v.role.code 1 ++ leBytes ((v.beat.word.map fun w => w.role).getD 0xFF) 1 ++
    leBytes (maskOf [v.takeover, v.suspect, sus, pathFaultSeen v, s.st.ends.s.isSome]) 1 ++
    leBytes ((s.st.ends.s.map fun n => n + 1).getD 0) 4 ++ leBytes v.mirror.lastSnap 4 ++ leBytes v.mirror.drops 4

/-- SYS 0x030 to 0x03F (R453). -/
def sysPower (s : State) (l : LaneId) : List Byte :=
  let v := s.lane l
  leBytes (powerCode s) 1 ++ leBytes v.opp.op 1 ++ leBytes (b2n (v.clocks.src == .rc)) 1 ++
    leBytes (maskOf [v.clocks.rcQual, v.clocks.tcxoGood, v.clocks.xtalSuspect]) 1 ++ leBytes (s.st.power.tmin.getD 0xFFFFFFFF) 4 ++
    leBytes s.st.dimOp 1 ++ zeros 7

/-- SYS 0x141 to 0x14F (R179). -/
def sysFlags (s : State) (l : LaneId) : List Byte :=
  let g := (s.lane l).staging
  leBytes (maskOf [g.active, decide (1048576 ≤ g.recs.length), !s.svc.up]) 1 ++ zeros 2 ++ leBytes g.recs.length 4 ++
    leBytes (if g.active then g.discarded else 0) 4 ++ zeros 4

/-- SYS as station firmware writes it at an input swap. -/
def writeSys (s : State) (l : LaneId) : State :=
  let head := sysTiming s l ++ sysRedundancy s l ++ sysPower s l ++ padTo 256 (s.lane l).be.status
  let tail := sysFlags s l
  s.updImg l fun m => (m.writeN aSYS head).writeN (aSYS + 0x141) tail

/-- The window opens and the tasks without MX-1 fields are released (R133, R153). -/
def openWindow (s : State) (l : LaneId) : State :=
  releaseTasks (updBe s l fun b => { b with window := true, used := 0 }) l false

/-- INPUT_SWAP (R133, R136, R144, R176, R208, R269, R286). -/
def execInputSwap (l : LaneId) (s : State) : Host.Outcome State Fault Refusal :=
  let v := s.lane l
  .next (if v.phase = .parked then judgeHeartbeat s l
    else if v.runs = false ∨ v.swapTick = some s.grid.tick then s
    else
      let t := s.grid.tick
      let s := judgeHeartbeat (s.updLane l fun v => { v with swapTick := some t }) l
      if !tracks (s.lane l) then s
      else
        let s := (judgeSnapshot s l).updLane l (countReint t)
        let s := regainToken (s.updLane l fun v => [0, 1, 2, 3, 4, 6].foldl (fun v i => takeIsland t i v) v) l
        let s := writeSys (canSwaps (flowSwaps s l) l) l
        let s := if s.st.stopAt = some (t + 1) then s else applyPatches s l
        let s := if s.st.ends.s = some t ∧ s.st.ends.confirmed = true ∧ (s.lane l).role = .standby then askToken s l .ends else s
        openWindow s l)

/-- MX1_SWAP (R136, R157): T_SSI of the window has passed when the tasks that read MX-1 fields are released. -/
def execMx1Swap (l : LaneId) (s : State) : Host.Outcome State Fault Refusal :=
  let v := s.lane l
  let t := s.grid.tick
  .next (if v.runs = false ∨ tracks v = false ∨ v.swapTick ≠ some t ∨ v.mxTick = some t then s
    else
      let s := s.updLane l fun v => { takeIsland t mxIsl v with mxTick := some t }
      if !(s.lane l).be.window then s
      else
        let gone := tSsiOf s.cfgRecs * opMHz (s.lane l).opp.op / 1000
        releaseTasks (updBe s l fun b => { b with used := max b.used gone }) l true)

/-! The cut-off -/

/-- Loop sinks at their substitutes for the edge of STOP's TICK (R122, R123). -/
def substSinks (s : State) (l : LaneId) : State := (recsOf s.cfgRecs 0x0801).foldl (fun s r => substSink s l r) s

/-- Every output field at its substitute (R122, R123). -/
def substAll (s : State) (l : LaneId) : State := substAo (substDio (substCan (substFlows (substSinks s l) l) l) l) l

/-- The snapshot that an ACTIVE or SOLO lane closes at its cut-off (R275, R277); none in the dead-ball tick of its release (R286). -/
def closeSnapshot (s : State) (l : LaneId) : State :=
  let t := s.grid.tick
  let dead := s.st.ends.released && s.st.ends.s == some t
  let is := (s.st.prog.map instChain).getD []
  let (k, s) := s.takeFree
  s.updLane l fun v =>
    let ranges := v.mirror.touched.filterMap fun n => (is.find? fun d => d.no == n).map fun d =>
      (d.no, aINST + d.off + d.mOff, v.img.readN (aINST + d.off + d.mOff) d.mLen)
    let d : SnapData :=
      { tick := t, ranges := ranges, loops := v.loops, chains := v.chains, flows := v.net.flows, can := v.can,
        len := mandatoryMirror s.cfgRecs + ranges.foldl (fun n r => n + 8 + r.2.2.length) 0, crc := Config.freeNat k % 2 ^ 32 }
    if !runsRole v.role then { v with mirror := { v.mirror with touched := [] } }
    else if dead then { v with mirror := { v.mirror with touched := [], sent := none } }
    else { v with mirror := { v.mirror with touched := [], sent := some d, lastSnap := t % 2 ^ 32 } }

/-- GOOD or DEGRADED of a lane that computes (R270, R433): a path fault, a link losing frames, snapshots being discarded, the RC
as reference. -/
def healthNow (v : Lane) : Health :=
  let lost := v.linkLost.any fun e => e.2 != 0
  let drops := v.role == .standby && v.mirror.consecutive == 0 && v.mirror.drops != 0
  match v.health with
  | .failed => .failed
  | .suspect => .suspect
  | _ => if pathFaultSeen v || lost || drops || v.clocks.src == .rc then .degraded else .good

/-- The bank whose capture is the newest: one that waits or is being written counts as the bank of the last STOP (R121, R200,
R474). -/
def restoreBank (v : Recorder) : Option Bank :=
  match v.waiting, v.writing with
  | some b, _ => some b.1
  | none, some w => some w.cap
  | none, none => (v.offered.map fun i => bankOf v i.val).filter fun b => b.valid

/-- Retained ranges of both lanes that compute, from a bank or from the template copy (R121, R205). -/
def setRetained (s : State) (img : List Byte) (bank : Option (List Byte)) : State :=
  bothLanes (fun s l => if tracks (s.lane l) then
      s.updLane l fun v =>
        let bytes := bank.getD (retainedBytes img v.tmpl)
        { v with img := restoreRetained img v.img bytes }
    else s) s

/-- Retained data at START, with the event that names why no bank is restored (R121, R479). -/
def startRetained (s : State) (img : List Byte) : State :=
  let l := s.mainLane
  let not_ (code : Nat) : State :=
    raise (setRetained s img none) { src := 230, code := code, data := dataLaneTick s l, lane := l }
  if !s.warmRetain then not_ 5
  else match restoreBank s.svc.rcd with
    | none => not_ 3
    | some b =>
      if b.layout ≠ retainLayoutField img then not_ 4
      else (setRetained s img (some b.payload)).updRec fun v => { v with offered := none }

/-- The cut-off of tick `n` is still to come on the main lane. -/
def cutoffAhead (s : State) (n : Nat) : Bool :=
  decide (s.grid.tick < n) || (s.grid.tick == n && (s.lane s.mainLane).frozenTick != some s.grid.tick)

/-- The bank of the last STOP has yet to be captured: at the cut-off before its TICK, in the power-fail sequence at that of its TICK
(R200, R491). -/
def stopCapturePending (s : State) : Bool :=
  s.st.stopAt.any fun a => if s.st.pfStep = 2 then cutoffAhead s a else cutoffAhead s (a - 1)

/-- The bank write that entry to STOPPED asks for (R200, R474, R475): from the cut-off before its TICK, after which no task has run; in a
power failure from that of its TICK, in which substitute values were applied (R491). -/
def stopBank (s : State) (l : LaneId) : State :=
  if !runsRole (s.lane l).role then s
  else if s.st.pfStep = 2 then (if s.st.stopAt == some s.grid.tick then pfBank s l else s)
  else if s.st.stopAt == some (s.grid.tick + 1) then startBank s l (captureBank s l 2)
  else s

/-- A START accepted before the capture of the bank that it restores restores from it now (R200, R209). -/
def restoreAtStart (s : State) (l : LaneId) : State :=
  if s.st.restoreDue && runsRole (s.lane l).role && !stopCapturePending s then
    (startRetained s (s.st.prog.getD [])).updSt fun t => { t with restoreDue := false }
  else s

/-- OUTPUT_CUTOFF (R133, R138 to R140, R277, R308): `leLate` names the first loop that the loop engine has not reached. -/
def execOutputCutoff (l : LaneId) (leLate : Option (Fin 128)) (s : State) : Host.Outcome State Fault Refusal :=
  let v := s.lane l
  let t := s.grid.tick
  .next (if v.runs = false ∨ v.frozenTick = some t then s
    else if !tracks v then sendHeartbeat (s.updLane l fun v => { v with frozenTick := some t }) l
    else
      let s := closeWindow s l
      let s := loopPasses (chainPasses s l) l (leLate.map fun n => n.val)
      let s := publishLoops (publishChains s l) l
      let s := if s.st.stopAt = some (t + 1) then substAll s l else s
      let s := writeDescs s l fun c => (s.lane l).skPdus.get c []
      let s := s.updLane l fun v =>
        { v with frozen := v.img, frozenTick := some t, loopLate := leLate.isSome, health := healthNow v }
      keepStatus (restoreAtStart (bankAfterPatch (stopBank (sendHeartbeat (closeSnapshot s l) l) l) l) l) l)

end Sys2Proof.Machine
end

