-- ==== Sys2Proof/Machine/ConfigCommit.lean ====
section
/-! DEFINITION. Commits (00 R41, R42; 03 R87, R91; 04 R113, R115 to R118; 07 R185; 16 R418 to R421): validation, confirmation and
application. -/

namespace Sys2Proof.Machine

/-! Validation -/

/-- The target that must be accepted first, or the state that forbids the commit (R113). -/
def commitState (s : State) (t : Nat) : Check :=
  if t = 4 then none
  else if s.st.phase ≠ .stopped then some ⟨WRONG_STATE, s.st.phase.code, 0, []⟩
  else if t ≠ 1 ∧ s.st.cfg = none then some ⟨WRONG_STATE, s.st.phase.code, 1, []⟩
  else none

/-- The list would take OWNER or the present binding from the partition that commits it (R87). -/
def locksOut (s : State) (p : Nat) (rs : List CfgRec) : Bool :=
  let q := s.part p
  match findRec rs 0x0E01 p with
  | none => true
  | some r =>
    decide (r.u 8 1 < 3) || !(match q.bus, q.lane with
      | .pcie, .a => bit (r.u 9 1) 0
      | .pcie, .b => bit (r.u 9 1) 1
      | .thl, _ => bit (r.u 9 1) 2)

/-- The seal check of an access list (R418, R421, R422): DETAIL0 of the acceptance, or the refusal. -/
def accessSeal (s : State) (rs : List CfgRec) (session : Bool) : Nat × Check :=
  let sets := (findRec rs 0x0E02 0).isSome
  let none_ := [0x0A10, 0x0A11, 0x0A12].all fun k => (sealPayload s k).isNone
  if !s.svc.up then (0, some ⟨RECORDER_DOWN, 0, 0, []⟩)
  else if !session && !none_ && sealDigest s 0x0A11 != some (digestOf rs) then (0, some ⟨SEAL_MISMATCH, 0, 0, []⟩)
  else if sets && (passwordSeal s).isSome && !session then (0, some ⟨AUTH_REQUIRED, 0, 0, []⟩)
  else if sealDigest s 0x0A11 = some (digestOf rs) then (1, none)
  else if session then (2, none)
  else if sets then (3, none)
  else (0, some ⟨NO_SEAL, 0, 0, []⟩)

/-- Validation of an access list for a partition. -/
def validateAccess (s : State) (p : Nat) (img : List Byte) (session : Bool) : Nat × Check :=
  let rs := recsOr (imageRecs img)
  match checkAccess img with
  | some r => (0, some r)
  | none => if locksOut s p rs then (0, some ⟨SELF_LOCKOUT, 0, 0, []⟩) else accessSeal s rs session

/-- Validation of the staged image of a target (R91): DETAIL0 of its acceptance, or the refusal. A safety image is judged by SK-1
alone (R42). -/
def validateImage (s : State) (p t : Nat) (a : StageArea) (session : Bool) : Nat × Check :=
  let img := a.bytes.readN 0 a.total
  match a.missing with
  | some o => (0, some ⟨IMAGE_INCOMPLETE, o, 0, []⟩)
  | none => match t with
    | 1 => (0, checkConfig s img)
    | 2 => (0, checkProgramCommit s img a.total)
    | 3 => (0, none)
    | _ => validateAccess s p img session

/-- The end of a validation (R41, R91): the image waits for the standby lane's confirmation, or for SK-1; a commit without a
standby lane is confirmed at once. `session`: the partition held one when validation started (R421). -/
def endValidate (s : State) (p t : Nat) (session : Bool) : State :=
  match s.st.stage.get? t with
  | none => answer s p false NO_STAGING
  | some a =>
    let (d0, bad) := match commitState s t with
      | some r => (0, some r)
      | none => validateImage s p t a session
    match bad with
    | some r => answer s p false r.status r.d0 r.d1 r.data
    | none =>
      let alone := t != 3 && s.standbyLane.isNone
      let c : Commit := { part := p, target := t, image := a.bytes.readN 0 a.total, tick := s.grid.tick, confirmed := alone,
                          confTick := s.grid.tick, detail0 := d0, forwarded := false, session := session }
      (s.updSt fun x => { x with commit := some c }).updMb p false fun m => { m with phase := .waiting, xfer := none }

/-- CONFIG_COMMIT (R41, R78, R91, R113): validation starts; an image of at most 4 KiB is validated at once, a longer one goes on
from each 4 KiB boundary to the next. -/
def execConfigCommit (p : Part) (s : State) : Host.Outcome State Fault Refusal :=
  .next (if s.st.commit.isSome then s
    else serve s p 0x0022 fun s ws =>
      needLock s p false
        (let t := word ws 1
         if !targetOk t then answer s p false BAD_FIELD 4
         else match s.st.stage.get? t with
           | none => answer s p false NO_STAGING
           | some a =>
             let session := (s.part p).session
             let s := beginXfer s p false (.validate t a.total session)
             if a.total ≤ 4096 then endValidate s p t session else s))

/-- The next 4 KiB of a validation (R78): the last one ends it. -/
def stepValidate (s : State) (p t n : Nat) (session : Bool) : State :=
  let s := s.updMb p false fun m => { m with prev := m.bytes, bytes := min n (m.bytes + 4096) }
  if n ≤ (s.part p).main.bytes then endValidate s p t session else progress s p false RUNNING

/-- BULK_BOUNDARY (R77, R78): the running bulk command at a 4 KiB boundary is held for urgent commands, ends with its partition's
detach, resumes, or goes on. -/
def execBulkBoundary (s : State) : Host.Outcome State Fault Refusal :=
  .next (match s.st.bulkQueue.head? with
    | none => s
    | some p =>
      let m := (s.part p).main
      match m.xfer with
      | none => s
      | some x =>
        if m.phase ≠ .running ∨ m.atBoundary 4096 = false then s
        else
          let s := if m.preempted then resumeHeld s p
            else if x.isIn ∧ (urgentBusy s = true ∨ (s.part p).att = .detaching) then goOn s p false x
            else s
          match x with
          | .validate t n session =>
            if (s.part p).main.xfer = some x ∧ (s.part p).main.preempted = false then stepValidate s p t n session else s
          | _ => s)

/-! Confirmation (R41) -/

/-- A commit that awaits the standby lane; one validated during a change of ends is confirmed only after its swap (R287). -/
def awaitsConfirm (s : State) : Option Commit :=
  s.st.commit.bind fun c => if c.target = 3 ∨ c.confirmed = true ∨ s.st.ends.s.isSome then none else some c

def confirmCommit (s : State) (c : Commit) : State :=
  s.updSt fun t => { t with commit := some { c with confirmed := true, confTick := s.grid.tick } }

/-- COMMIT_CONFIRM: the standby lane confirms. -/
def execCommitConfirm (s : State) : Host.Outcome State Fault Refusal :=
  .next (match awaitsConfirm s, s.standbyLane with
    | some c, some _ => confirmCommit s c
    | _, _ => s)

/-- COMMIT_CONFIRM_TIMEOUT: 8 ticks without a confirmation; the active lane goes on alone, the standby lane is taken OFFLINE. -/
def execCommitConfirmTimeout (s : State) : Host.Outcome State Fault Refusal :=
  .next (match awaitsConfirm s with
    | none => s
    | some c =>
      if s.grid.tick < c.tick + 8 then s
      else
        let s := confirmCommit s c
        match s.standbyLane with
        | some l => goOffline s l .notConfirmed
        | none => s)

/-! Application of a configuration -/

/-- Lanes that hold the station's image data apply what a commit brings. -/
def eachTracking (f : State → LaneId → State) (s : State) : State :=
  bothLanes (fun s l => if tracks (s.lane l) then f s l else s) s

/-- Output channels whose record is removed, or whose mode changes, stand de-energised; the others follow their substitutes (R122). -/
def outApply (old new : List CfgRec) (s : State) (l : LaneId) : State :=
  let mode (rs : List CfgRec) (t n : Nat) : Nat := (findRec rs t n).elim 0 fun r => r.u 8 1
  let s := (List.range 64).foldl (fun (s : State) (k : Nat) =>
    let n := k / 32 * 256 + k % 32
    if (mode old 0x0501 n == 3) == (mode new 0x0501 n == 3) then s else s.wrImg l (dioOut (k / 32) + k % 32) 1 0) s
  (List.range 16).foldl (fun (s : State) (c : Nat) =>
    if mode old 0x0610 (0x400 + c) = mode new 0x0610 (0x400 + c) then s else s.wrImg l (aoOut c) 4 0) s

/-- Loop sinks after a configuration is applied (R122): mode 1 keeps the field `before` while the sink is the one it was. -/
def sinkApply (old : List CfgRec) (before : Mem) (s : State) (l : LaneId) : State :=
  (recsOf s.cfgRecs 0x0801).foldl (fun s r =>
    let d := descAt r 0x3C
    let kept := (findRec old 0x0801 r.inst).any fun o => (descAt o 0x3C).addr == d.addr && (descAt o 0x3C).fmt == d.fmt
    match r.u 0x0B 1 with
    | 0 => writeSink s l r 0 false
    | 1 => writeSink s l r (if kept then before.rdU d.addr d.size else 0) false
    | _ => writeSink s l r (toSink d (r.i 0x50 4)).1 false) s

/-- FLOWOUT and FLOWIN entries of flows that are gone or changed are emptied. -/
def flowsGone (old new : List CfgRec) (m : Mem) : Mem :=
  (recsOf old 0x0310).foldl (fun (m : Mem) (r : CfgRec) =>
    if r.u 9 1 = 1 ∨ (findRec new 0x0310 r.inst).map (fun x => x.bytes) = some r.bytes then m
    else m.clear (r.u 0x20 4) (flowEntryLen r)) m

/-- A lane's part of a configuration (R122, R221, R259, R298, R309, R315, R341). -/
def laneConfig (old new : List CfgRec) (s : State) (l : LaneId) : State :=
  let before := (s.lane l).img
  let s := loopApply old new s l
  let s := chainApply old new s l
  let s := flowApply old new before (s.updImg l (flowsGone old new)) l
  let s := canApply old new s l
  let s := outApply old new s l
  let s := sinkApply old before (substAo (substDio (substCan (substFlows s l) l) l) l) l
  let s := s.updLane l fun v => { v with frozen := v.frozen.copyRange v.img aOUT 0x2000 }
  let s := canApplySend old new s l
  if (findRec new 0x0302 0).isNone ∧ (s.lane l).net.time ≠ .free then enterTime s l .free else s

/-- THL at the application of a configuration (R295, R315): the bootstrap addresses are released with the first network record, and
the sessions opened on them end. -/
def thlConfig (old : List CfgRec) (s : State) : State :=
  let s := bothLanes releaseBootstrap s
  if (findRec old 0x0301 0).isSome || (netRec s).isNone then s
  else allParts.foldl (fun s p =>
    if (s.part p).thl.isNone then s
    else
      let s := s.updPart p fun q => { q with thl := none }
      if (s.part p).att = .attached then
        s.updPart p fun q => { q with att := .attaching, grace := true, resuming := false, regions := [], ringRegion := none }
      else s) s

/-- The tick count continues from station time under a new tick length (R125); waiting batches are due at their tasks' next releases. -/
def retick (before : Nat) (s : State) : State :=
  if before = s.lenNs then s
  else
    let t := s.grid.now / s.lenNs
    { s with grid := { s.grid with tick := t }, st := { s.st with batches := s.st.batches.map fun b =>
        { b with due := (s.taskDef b.level).elim b.due fun k => nextRelease k t } } }

/-- What islands have accepted for the present edge follows the substitutes of the records applied at it (R122). -/
def latchApply (s : State) : State :=
  let m := (s.lane s.mainLane).img
  let take (s : State) (i a n : Nat) : State := s.updIsl i fun x =>
    { x with latched := x.latched.map fun k => { k with m := k.m.copyRange m a n } }
  let s := [0, 1, 4].foldl (fun s i => take s i aOUT 0x200) s
  [8, 9].foldl (fun s p => take s mxIsl (canTxBase p) 0x500) s

/-- A configuration image applied (R41). Without a network record it configures no flow (R295). -/
def applyConfig (s : State) (img : List Byte) : State :=
  let old := s.cfgRecs
  let rs := recsOr (imageRecs img)
  let new := if (findRec rs 0x0301 0).isSome then rs else rs.filter fun r => r.typ != 0x0310
  let len := s.lenNs
  let s := discardLoopStage s
  let s := s.updSt fun t =>
    { t with cfg := some new, cfgCrc := rdU img (img.length - 4) 4, cfgImage := img,
             referee := (findRec new 0x0B01 0).elim 5 fun r => r.u 8 1,
             dimOp := t.prog.elim t.dimOp fun g => dimPoint g (taskInfos g) (tickUsOf new) (tSsiUs new) }
  let s := retick len s
  let s := panelApply old new (mxApply old new (anaApply old new (dioApply old new s)))
  latchApply (thlConfig old (eachTracking (laneConfig old new) s))

/-! Application of a program -/

/-- A lane's part of a program (R185, R205): INST and CONST from the image, the template copy, no poisoned word. -/
def laneProgram (img : List Byte) (s : State) (l : LaneId) : State :=
  s.updLane l fun v =>
    let data (m : Mem) : Mem :=
      Mem.writeN (Mem.writeN (m.clear aINST (2 ^ 29)) aINST (section_ img 3)) aCONST (section_ img 2)
    { v with img := data v.img, frozen := data v.frozen, tmpl := Mem.writeN (Mem.writeN [] aINST (section_ img 3)) aCONST (section_ img 2),
             be := { v.be with ctxs := [], poisoned := [], poisonedCode := [] }, mirror := { v.mirror with touched := [] } }

/-- A program image applied (R41, R185): every pending batch is discarded with its event. -/
def applyProgram (s : State) (img : List Byte) : State :=
  let xs := taskInfos img
  let s := dropBatches s 2
  let s := s.updSt fun t =>
    { t with prog := some img, mpu := xs.foldl (fun (m : Tab (List (Nat × Nat))) x => m.set x.level x.outs) [], hasRun := false,
             cold := (xs.filter fun x => x.cold).map fun x => x.level,
             dimOp := dimPoint img xs s.tickUs (tSsiUs s.cfgRecs) }
  eachTracking (laneProgram img) s

/-! Application of an access list -/

/-- The password set by a 0x0E02 record (R417, R418, R420): change log, the pair of seals, SK-1's copy, EV208. -/
def setPassword (s : State) (part cflags : Nat) (r : CfgRec) : State :=
  let salt := (r.bytes.drop 8).take 16
  let v := (r.bytes.drop 0x18).take 32
  let old := (passwordSeal s).map fun k => sha256 k.2
  let s := changeLog s 5 part (cflags + if old.isNone then 2 else 0) (old.getD []) (sha256 v)
  let no := leBytes (nextSealNo s 0x0A12 32) 4
  let s := sealRecord s 0x0A12 (salt ++ v.take 16 ++ no)
  let s := sealRecord s 0x0A13 (v.drop 16 ++ no ++ zeros 16)
  sealEvent (s.updSk fun k => { k with pw := some (salt, v) }) 3 5

/-- Partitions whose binding the new list forbids are told and detached (R85). -/
def detachForbidden (s : State) : State :=
  allParts.foldl (fun s p =>
    let q := s.part p
    if (q.att = .attached ∨ q.grace = true) ∧ s.bindingOk p q.bus q.lane = false then startDetach (tellUnnamed s p .statusDetach) p
    else s) s

/-- An access list applied (R85, R421): its seal is written first where it is not the sealed one. -/
def applyAccess (s : State) (c : Commit) : State :=
  let rs := recsOr (imageRecs c.image)
  let cf := b2n c.session
  let s := match findRec rs 0x0E02 0 with
    | some r => setPassword s c.part cf r
    | none => s
  let s := if c.detail0 = 1 then sealEvent s 1 4 else writeSeal s 4 0x0A11 c.part cf (digestOf rs)
  let s := s.updSt fun t => { t with access := some rs, accessImage := c.image }
  detachForbidden s

/-- A confirmed commit can still be applied: the station is in a state of its target (R113), and a seal can be written (R422). -/
def applyBlocked (s : State) (c : Commit) : Check :=
  if c.target = 4 then (if s.svc.up then none else some ⟨RECORDER_DOWN, 0, 0, []⟩) else commitState s c.target

/-- CONFIG_APPLY (R41): the first edge after the confirmation, before its input swap. -/
def execConfigApply (s : State) : Host.Outcome State Fault Refusal :=
  .next (match s.st.commit, s.activeLane with
    | some c, some l =>
      if c.target = 3 ∨ c.confirmed = false ∨ s.grid.tick ≤ c.confTick ∨ (s.lane l).swapTick = some s.grid.tick then s
      else match applyBlocked s c with
        | some r => commitFail s c r
        | none =>
          let s := match c.target with
            | 1 => applyConfig s c.image
            | 2 => applyProgram s c.image
            | _ => applyAccess s c
          commitOk s c c.detail0 s.grid.tick
    | _, _ => s)

end Sys2Proof.Machine
end

