-- ==== Sys2Proof/Machine/Reint.lean ====
section
/-! DEFINITION. Re-integration (10_redundancy.md R289, R290). -/

namespace Sys2Proof.Machine

/-- A lane may begin re-integration: OFFLINE with its firmware running while its partner is ACTIVE or SOLO, not left
FAILED by step 1 or 2, back on its TCXO after cause CLOCK, and with its RC qualified after retention (R289, R290, R437, R448). -/
def mayReint (s : State) (l : LaneId) : Bool :=
  let v := s.lane l
  v.role == .offline && v.phase == .running && v.startDone && runsRole (s.lane (other l)).role && !v.needCycle &&
  v.cause != .startup && !v.clocks.held && !(v.resumes && !v.clocks.rcQual) && !(v.cause == .clock && !(v.clocks.src == .tcxo && v.clocks.tcxoGood))

/-- Step 2: the accepted images as the lane validates them (R289). -/
def imagesHold (s : State) : Bool :=
  (s.st.cfg.isNone || (checkConfig s s.st.cfgImage).isNone) &&
  (s.st.prog.all fun g => (checkProgramCommit s g g.length).isNone) &&
  (s.st.access.isNone || (checkAccess s.st.accessImage).isNone)

/-- Steps 1 to 3 (R22, R289, R290): a lane that fails step 1 or 2 is FAILED until its feed is cycled. -/
def beginReint (s : State) (l : LaneId) : State :=
  let o := s.lane (other l)
  if (s.lane l).fw != o.fw then versionsDiffer s l o.fw
  else if !imagesHold s then s.updLane l fun v => { v with cause := .reintFailed, health := .failed, needCycle := true }
  else
    let s := s.updLane l fun v => { v with reint := { step := .copying } }
    redEvent s l 38 1

/-- REINT_START (R22, R289, R291, R448). -/
def execReintStart (l : LaneId) (s : State) : Host.Outcome State Fault Refusal :=
  .next (if mayReint s l && (s.lane l).reint.step == .idle then beginReint s l else s)

/-- The lane's data made equal to its partner's as committed by the cut-off of the present tick (R289 step 4). -/
def copyLane (s : State) (l : LaneId) : State :=
  let o := s.lane (other l)
  let t := s.grid.tick
  let s := if (s.lane l).frozenTick = some t then s else sendHeartbeat s l
  let s := canApply [] s.cfgRecs s l
  s.updLane l fun v =>
    { v with img := o.frozen, frozen := o.frozen, frozenTick := some t, tmpl := o.tmpl, loops := o.loops, chains := o.chains,
             be := { o.be with window := false, poisoned := [], poisonedCode := [], corrections := v.be.corrections },
             net := { v.net with flows := o.net.flows.foldl (fun x e => x.set e.1 (mirrorFlow (x.get e.1 {}) e.2 t)) v.net.flows },
             can := o.can.foldl (fun x e => x.set e.1 (mirrorCan (canPeriodic s e.1) (x.get e.1 {}) e.2 t)) v.can,
             mirror := { v.mirror.again with judged := o.mirror.sent.map fun d => d.tick },
             reint := { v.reint with step := .tracking, count := 0 } }

/-- REINT_COPY_CLOSED (R289): the copy closes at the partner's output cut-off. -/
def execReintCopyClosed (l : LaneId) (s : State) : Host.Outcome State Fault Refusal :=
  .next (if (s.lane l).reint.step == .copying && (s.lane (other l)).frozenTick == some s.grid.tick then copyLane s l else s)

/-- REINT_COPY_TIMEOUT (R290): 2 s without a close; after the third restart the lane stays OFFLINE. -/
def execReintCopyTimeout (l : LaneId) (s : State) : Host.Outcome State Fault Refusal :=
  let v := s.lane l
  .next (if v.reint.step != .copying then s
    else if v.reint.restarts < 3 then
      redEvent (s.updLane l fun v => { v with reint := { v.reint with restarts := v.reint.restarts + 1 } }) l 38 2
    else
      let s := s.updLane l fun v => { v with reint := { step := .waitRetry }, cause := .reintFailed, health := .failed }
      redEvent (redEvent s l 38 3) l 32 4 [Config.payloadCode 0 OffCause.reintFailed.no])

/-- REINT_RETRY_DUE (R290): tried again 10 min later. -/
def execReintRetryDue (l : LaneId) (s : State) : Host.Outcome State Fault Refusal :=
  .next (if (s.lane l).reint.step == .waitRetry && mayReint s l then beginReint s l else s)

/-- REINT_STANDBY (R263, R289): after 16 consecutive snapshots, with both heartbeats in each of those ticks, the lane is STANDBY and
its partner ACTIVE. -/
def execReintStandby (l : LaneId) (s : State) : Host.Outcome State Fault Refusal :=
  let v := s.lane l
  .next (if v.reint.step == .tracking && decide (16 ≤ v.reint.count) && runsRole (s.lane (other l)).role then
    let s := s.updLane l fun v =>
      { v with role := .standby, cause := .none, reint := {}, suspect := v.suspect && !v.feedCycled, feedCycled := false,
               health := if v.suspect && !v.feedCycled then .suspect else .good }
    let s := if (s.lane (other l)).role == .solo then
        noteRole (s.updLane (other l) fun v => { v with role := .active }) (other l) .active
      else s
    redEvent (hookStandby s l) l 32 5
  else s)

end Sys2Proof.Machine
end

