-- ==== Sys2Proof/Machine/SafetyIo.lean ====
section
/-! DEFINITION. SK-1's local inputs, test sources, pairs and outputs (15 R390 to R399, R403). -/

namespace Sys2Proof.Machine

def updIn (s : State) (i : Nat) (f : SkIn → SkIn) : State := s.updSk fun k => { k with ins := k.ins.set i (f (k.input i)) }
def updSrc (s : State) (t : Nat) (f : SkSrc → SkSrc) : State := s.updSk fun k => { k with srcs := k.srcs.set t (f (k.src t)) }

/-- TEST_FAIL of an input, with its event (R405). -/
def setTestFail (s : State) (i : Nat) (v : Bool) : State :=
  if (s.sk.input i).fail = v then s
  else skEvent (updIn s i fun x => { x with fail := v }) 193 (if v then 1 else 2) i

/-- A Type 3 input's sample (R390). -/
def type3 (prev : Bool) (mv : Int) : Bool := if 11000 ≤ mv then true else if mv ≤ 5000 then false else prev

/-- A sample counts for the state (R392): after FILTER_US at the new value the tested state follows. -/
def countSample (x : SkIn) (v : Bool) (filterUs : Nat) : SkIn :=
  if v = x.tested then { x with run := 0 }
  else if filterUs ≤ 50 * x.run then { x with tested := v, run := 0 }
  else { x with run := x.run + 1 }

/-- One input at a sample, `us` µs after a whole 4 ms of station time (R390, R392). -/
def sampleInput (us : Nat) (mv : List Int) (s : State) (i : Nat) : State :=
  if !inputSampled s i then s
  else
    let x := s.sk.input i
    let v := type3 x.raw (mv.getD i 0)
    let r := pairRec s (i / 2)
    let filter := r.elim 0 fun r => if r.u 8 1 = 0 then 0 else r.u 0x0C 2
    match inputSource s i with
    | none =>
      let s := updIn s i fun x => { countSample { x with raw := v, inWin := false, before := false } v filter with good := x.good + 1 }
      setTestFail s i false
    | some k =>
      let phase := (us % 4000 + 4000 - 1000 * k) % 4000
      let inWin := decide (phase < 300 + r.elim 0 fun r => r.u 0x0B 1)
      let src := s.sk.src k
      if inWin then
        let before := if x.inWin then x.before else x.raw
        let saw0 := (x.inWin && x.saw0) || (!v && decide (100 ≤ phase))
        let s := updIn s i fun x =>
          { x with raw := v, inWin := true, before := before, saw0 := saw0, good := if src.overl.isSome || src.back then 0 else x.good + 1 }
        if src.overl.isSome || src.back then setTestFail s i true else s
      else
        let missed := x.inWin && x.before && !x.saw0
        let bad := missed || src.overl.isSome || src.back
        let s := updIn s i fun x =>
          { countSample { x with raw := v, inWin := false } v filter with good := if bad then 0 else x.good + 1 }
        if bad then setTestFail s i true
        else if 80 ≤ (s.sk.input i).good then setTestFail s i false
        else s

/-- A channel of a pair is open: its tested state is the demand state, in MODE 2 channel B the other way round, or it has TEST_FAIL
(R392 to R394). -/
def chanOpen (s : State) (p : Nat) (chB : Bool) : Bool :=
  let x := s.sk.input (2 * p + (if chB then 1 else 0))
  x.fail || (if chB && pairMode s p == 2 then x.tested else !x.tested)

/-- A pair goes to FAULT with DISC_FAULT or TEST_FAULT; an armed proof test is not passed (R394, R396). -/
def pairFault (s : State) (p : Nat) (test : Bool) : State :=
  let s := s.updPair p fun q =>
    { q with phase := .fault, timer := 0, disc := q.disc || !test, test := q.test || test, clean := if test then 0 else q.clean }
  proofNotPassed (skEvent s 194 3 p [Config.payloadCode 7 (b2n test)] false) p

def setPair (s : State) (p : Nat) (ph : PairPhase) : State := s.updPair p fun q => { q with phase := ph, timer := 0 }

/-- RELEASED: PAIR_ENABLE = 1, a proof test armed within the last 600 s passes (R394, R396). -/
def pairReleased (s : State) (p : Nat) : State :=
  let s := skEvent (setPair s p .released) 194 1 p
  match (s.sk.pair p).armed with
  | some t => if s.sk.clock ≤ t + 600000000000 then proofPassed s p else proofNotPassed s p
  | none => s

/-- DISC_MS in samples of 50 µs. -/
def discSamples (s : State) (p : Nat) : Nat := (pairRec s p).elim 0 fun r => 20 * r.u 0x0E 2

/-- One pair at a sample (R394, R403): TEST_FAIL first, then the channels, then the timer. A change at the sample on which
the time expires is in time. Channels that change places at one sample were not open together: the one that moved first decides
(log entry 148). -/
def pairSample (s : State) (p : Nat) : State :=
  let m := pairMode s p
  if (m ≠ 1 ∧ m ≠ 2) ∨ inputSampled s (2 * p) = false then s
  else
    let failing := (s.sk.input (2 * p)).fail || (s.sk.input (2 * p + 1)).fail
    let q := s.sk.pair p
    if failing then
      (if q.phase = .fault then s.updPair p fun q => { q with test := true, clean := 0 } else pairFault s p true)
    else
      let a := chanOpen s p false
      let b := chanOpen s p true
      let s := s.updPair p fun q => { q with timer := q.timer + 1, clean := min 80 (q.clean + 1) }
      let q := s.sk.pair p
      let leadOpen := if q.lead then b else a
      let moved (ph : PairPhase) (lead : Bool) : State := (setPair s p ph).updPair p fun q => { q with lead := lead }
      let late := decide (discSamples s p < q.timer)
      match q.phase with
      | .locked => if a && b then setPair s p .opened else s
      | .opened => if a && b then s else if !a && !b then pairReleased s p else moved .closing a
      | .closing =>
        if late then pairFault s p false
        else if !a && !b then pairReleased s p
        else if leadOpen then setPair s p .opened
        else s
      | .released =>
        if !a && !b then s
        else
          let s := skEvent (moved .demand b) 194 2 p
          if a && b then setPair s p .opened else s
      | .demand =>
        if late then pairFault s p false
        else if a && b then setPair s p .opened
        else if !leadOpen then pairFault s p false
        else s
      | .fault =>
        if a && b && decide (80 ≤ q.clean) then
          skEvent (s.updPair p fun q => { q with phase := .opened, timer := 0, disc := false, test := false }) 194 4 p
        else s

/-- SAFETY_INPUT_SAMPLE (R390, R392, R394): SK-1's clock goes on by a sample, whatever the lanes do (R32). -/
def execSafetyInputSample (us : Nat) (mv : List Int) (s : State) : Host.Outcome State Fault Refusal :=
  let s := if s.sk.powered then s.updSk fun k => { k with clock := k.clock + 50000 } else s
  let s := (List.range 16).foldl (sampleInput us mv) s
  .next ((List.range 8).foldl pairSample s)

/-- DISC_TIMER_EXPIRED (R394): DISC_MS has passed in CLOSING or DEMAND without the second channel. -/
def execDiscTimerExpired (p : Fin 8) (s : State) : Host.Outcome State Fault Refusal :=
  let q := s.sk.pair p.val
  .next (if (q.phase = .closing ∨ q.phase = .demand) ∧ discSamples s p.val ≤ q.timer then pairFault s p.val false else s)

/-! Test sources (R391) -/

/-- TEST_SOURCE_PULSE (R391): the low begins, or the source returns high with BACKFEED judged over the low. -/
def execTestSourcePulse (k : Fin 4) (high backfeed : Bool) (s : State) : Host.Outcome State Fault Refusal :=
  .next (if !sourceDriven s k.val then s
    else if !high then updSrc s k.val fun x => { x with low := true }
    else if !(s.sk.src k.val).low then s
    else
      let was := (s.sk.src k.val).back
      let s := updSrc s k.val fun x => { x with low := false, back := backfeed }
      if backfeed && !was then skEvent s 196 2 k.val else s)

/-- TEST_SOURCE_OVERLOAD (R391). -/
def execTestSourceOverload (k : Fin 4) (s : State) : Host.Outcome State Fault Refusal :=
  .next (if sourceDriven s k.val then
      skEvent (updSrc s k.val fun x => { x with overl := some s.sk.clock, low := false }) 196 1 k.val
    else s)

/-- TEST_SOURCE_RETRY (R391): 1 s after it switched off. -/
def execTestSourceRetry (k : Fin 4) (s : State) : Host.Outcome State Fault Refusal :=
  .next (match (s.sk.src k.val).overl with
    | some t => if t + 1000000000 ≤ s.sk.clock then updSrc s k.val fun x => { x with overl := none } else s
    | none => s)

/-! Outputs (R399) -/

/-- Faults of an output, by the code of EV195 (R405). -/
def outFault (s : State) (o code : Nat) : State :=
  let x := s.sk.output o
  let known := (code == 1 && x.sw) || (code == 2 && x.ext) || (code == 3 && x.overl)
  let s := s.updOut o fun x =>
    { x with sw := x.sw || code == 1, ext := x.ext || code == 2, overl := x.overl || code == 3, latched := true, bad := true,
             acked := x.acked && known }
  let q := o / 2
  let s := (s.updOut (2 * q) SkOut.off).updOut (2 * q + 1) SkOut.off
  if known then s else skEvent s 195 code o [] false

/-- OFF_PULSE (R399, R403): one of the switches is pulsed off; its readback must fall. Not made while the output is off. -/
def execOffPulse (o : Fin 8) (_skY : Bool) (readbackMv : Int) (s : State) : Host.Outcome State Fault Refusal :=
  let x := s.sk.output o.val
  .next (if x.x && x.y && decide (5000 < readbackMv) then outFault s o.val 1 else s)

/-- SAFETY_OUTPUT_READBACK (R399): outside pulses, 2 ms from switch-on, 5 ms from switch-off; in MODE 1 the pair's two
readbacks must agree. -/
def execSafetyOutputReadback (o : Fin 8) (mv supplyMv : Int) (limit : Bool) (s : State) : Host.Outcome State Fault Refusal :=
  let n := o.val
  let high := decide (5000 < mv)
  let s := if s.sk.powered then s.updOut n fun x => { x with high := high, seen := true } else s
  let x := s.sk.output n
  let y := s.sk.output (2 * (n / 2) + (1 - n % 2))
  let us := x.since * skCycleUs s - x.delay
  let on := x.x && x.y
  .next (if !s.sk.powered then s
    else if on then
      if decide (2000 ≤ us) && decide (mv < supplyMv - 2000) then
        let s := outFault s n (if limit then 3 else 1)
        if limit = true ∧ 5000 ≤ us ∧ outMode s (n / 2) = 1 ∧ high = false ∧ y.seen = true ∧ y.high = true then outFault s n 1 else s
      else s
    else if us < 5000 then s
    else if high then
      (if outMode s (n / 2) = 1 ∧ y.seen = true ∧ y.high = false then outFault (outFault s n 2) n 1 else outFault s n 2)
    else s.updOut n fun x => { x with bad := false })

end Sys2Proof.Machine
end

