-- ==== Sys2Proof/Machine/Thl.lean ====
section
/-! DEFINITION. The Terist host link (03 R101 to R103; 11 R313 to R315). The layout of a message's tagged bytes is left open and is
a free value (log entry 12). -/

namespace Sys2Proof.Machine

/-- A lane serves THL: at its bootstrap address, or as the ACTIVE or SOLO lane at STATION_IP while THL_EN is set (R314, R315). -/
def thlServed (s : State) (l : LaneId) : Bool :=
  let v := s.lane l
  v.winUp && (v.net.bootUp || (runsRole v.role && (netRec s).elim false fun r => bit (r.u 0x0A 2) 0))

/-- A THL message of a partition at a lane: its second copy is discarded (R293), then its load limit judges it (R313); firmware takes
each admitted message at once, so that its queue of 256 never fills (log entry 155). -/
def thlIn (s : State) (l : LaneId) (p : Nat) (rx : Rx) : Bool × State :=
  let x := plantIn s l rx
  if !x.1 then x
  else
    let r := admitRate x.2 l (1000 + p) 2000
    (r.1, if r.1 then r.2 else shed r.2 l rx.portB 3)

/-- The base key of a partition (R102): THL_KEY of the accepted list, before it the password value V; none refuses. -/
def thlBase (s : State) (p : Nat) : Option (List Byte) :=
  if s.st.access.isSome then
    match s.accRec p with
    | some r => if bit (r.u 9 1) 2 then some ((r.bytes.drop 0x10).take 32) else none
    | none => none
  else (passwordSeal s).map fun e => e.2

/-- A session opens on a base key (R102): fresh id and module nonce; the session key follows. -/
def thlOpen (s : State) (p : Nat) (lane : LaneId) (nonce : List Byte) : Option (List Byte) → State
  | none => s
  | some base =>
    let own := (List.range nonce.length).map fun i => Config.nonceByte s.free i
    let t : ThlSess := { id := Config.freeNat s.free % 2 ^ 32, key := hkdf256 base (Config.thlSalt nonce own) Config.thlInfo, high := 0,
                         seen := [], lane := lane, discarded := ((s.part p).thl.map fun t => t.discarded).getD 0 }
    thlSend (s.takeFree.2.updPart p fun q => { q with thl := some t }) p .hello own

/-- THL_HELLO (R102, R313). -/
def execThlHello (p : Part) (rx : Rx) (lane : LaneId) (nonce : List Byte) (s : State) : Host.Outcome State Fault Refusal :=
  let r := thlIn s lane p rx
  .next (if !thlServed s lane then s else if !r.1 then r.2 else thlOpen r.2 p lane nonce (thlBase r.2 p))

/-- A sequence is accepted (R101): above the highest, or within the 64 below it and not yet seen. -/
def seqOk (t : ThlSess) (seq : Nat) : Bool :=
  decide (t.high < seq) || (decide (t.high ≤ seq + 64) && !t.seen.contains seq)

def takeSeq (t : ThlSess) (seq : Nat) : ThlSess :=
  let h := max t.high seq
  { t with high := h, seen := (seq :: t.seen).filter fun x => decide (h ≤ x + 64) }

def setThl (s : State) (p : Nat) (f : ThlSess → ThlSess) : State := s.updPart p fun q => { q with thl := q.thl.map f }

/-- What becomes of an authenticated-looking message (R101): no session, a failed tag, an old sequence, or good. -/
inductive ThlCheck where
  | none | badTag | old | good (t : ThlSess)

def thlCheck (s : State) (p sess seq : Nat) (k : ThlKind) (content tag : List Byte) : ThlCheck :=
  match (s.part p).thl with
  | none => .none
  | some t =>
    if t.id ≠ sess ∨ !thlServed s (s.thlLane t) then .none
    else if thlTag t p seq k content ≠ tag then .badTag
    else if seqOk t seq then .good t else .old

/-- What a judged message does: discarded ones are counted (R101, R313); `bad` acts on a failed tag. -/
def thlAct (s : State) (p seq : Nat) (bad : State → State) (f : State → ThlSess → State) (c : ThlCheck) : State :=
  let drop : State := setThl s p fun t => { t with discarded := t.discarded + 1 }
  match c with
  | .none => s
  | .badTag => bad drop
  | .old => drop
  | .good t => f (setThl s p fun t => takeSeq t seq) t

/-- A message through its load limit and checks. -/
def thlTake (s : State) (p : Nat) (rx : Rx) (sess seq : Nat) (k : ThlKind) (content tag : List Byte) (bad : State → State)
    (f : State → ThlSess → State) : State :=
  let r := thlIn s (((s.part p).thl.map s.thlLane).getD .a) p rx
  if !r.1 then r.2 else thlAct r.2 p seq bad f (thlCheck r.2 p sess seq k content tag)

/-- THL_REG_READ (R51, R61, R101): answered with the address and the value. -/
def execThlRegRead (p : Part) (rx : Rx) (sess seq addr : Nat) (tag : List Byte) (s : State) : Host.Outcome State Fault Refusal :=
  .next (thlTake s p rx sess seq .regRead (leBytes addr 2) tag id fun s t =>
    let r := hostRead s p .thl (s.thlLane t) addr 4 (skReady s)
    thlSend r.2 p .regRead (leBytes addr 2 ++ leBytes r.1 4))

/-- THL_REG_WRITE (R51, R55, R101): a WIN_CTRL write acts on the THL binding; other registers are written where the partition's
window stands on it. `dt` is the time of arrival after the latest edge. -/
def execThlRegWrite (p : Part) (rx : Rx) (sess seq addr : Nat) (data : Word) (tag : List Byte) (dt : Nat) (s : State) :
    Host.Outcome State Fault Refusal :=
  .next (thlTake s p rx sess seq .regWrite (leBytes addr 2 ++ leBytes data.toNat 4) tag id fun s t =>
    let l := s.thlLane t
    if decodeWindow addr = 0x008 then writeWinCtrl s p .thl l data.toNat
    else if viaOk s p .thl l then windowWrite s p l addr 4 data dt else s)

/-- The mailbox whose command takes or sends THL data under a SEQ: main first. -/
def thlMailbox (s : State) (p cmdSeq : Nat) (isIn : Bool) : Option Bool :=
  let fits (m : Mailbox) : Bool := m.busy && m.phase == .running && m.seq == cmdSeq &&
    m.xfer.any fun x => x.isIn == isIn && x.region.1 == 0xFF
  if fits (s.part p).main then some false else if fits (s.part p).urg then some true else none

/-- THL_DATA (R103): taken in offset order and acknowledged; a message already taken is acknowledged again; one with a failed tag
ends its command. -/
def execThlData (p : Part) (rx : Rx) (sess seq cmdSeq offset : Nat) (data tag : List Byte) (s : State) :
    Host.Outcome State Fault Refusal :=
  let content := leBytes cmdSeq 1 ++ leBytes offset 4 ++ data
  .next (thlTake s p rx sess seq .data content tag
    (fun s => match thlMailbox s p cmdSeq true with
      | some urg => answer s p urg THL_AUTH (seq % 2 ^ 32)
      | none => s)
    fun s _ => match thlMailbox s p cmdSeq true with
      | none => s
      | some urg =>
        let s := if urg then s else resumeHeld s p
        let m := s.mbox p urg
        match m.xfer with
        | none => s
        | some x =>
          if m.preempted then s
          else if offset + data.length ≤ m.bytes then thlSend s p .ack (leBytes cmdSeq 1 ++ leBytes offset 4)
          else if offset ≠ m.bytes ∨ data.isEmpty then s
          else takeIn (thlSend s p .ack (leBytes cmdSeq 1 ++ leBytes offset 4)) p urg x (data.take 1024))

/-- THL_ACK (R103): the host has taken a message that the module sent. -/
def execThlAck (p : Part) (rx : Rx) (sess seq cmdSeq offset : Nat) (tag : List Byte) (s : State) : Host.Outcome State Fault Refusal :=
  .next (thlTake s p rx sess seq .ack (leBytes cmdSeq 1 ++ leBytes offset 4) tag id fun s _ =>
    match thlMailbox s p cmdSeq false with
    | none => s
    | some urg =>
      let s := if urg then s else resumeHeld s p
      let m := s.mbox p urg
      match m.xfer with
      | none => s
      | some x => if m.preempted ∨ offset ≠ m.flushed ∨ m.bytes = m.flushed then s
        else goOn (s.updMb p urg fun m => { m with flushed := m.bytes }) p urg x)

/-- THL_STALLED (R103): 200 ms without data. -/
def execThlStalled (p : Part) (urgent : Bool) (s : State) : Host.Outcome State Fault Refusal :=
  let m := s.mbox p urgent
  .next (match m.xfer with
    | none => s
    | some x => if m.busy = true ∧ m.phase = .running ∧ m.preempted = false ∧ x.region.1 = 0xFF then
        answer s p urgent THL_STALLED (if x.isIn then m.bytes else m.flushed)
      else s)

end Sys2Proof.Machine
end

