-- ==== Sys2Proof/Machine/Station.lean ====
section
/-! DEFINITION. START, STOP, STATUS_GET and the wide-read window (02 R60, R61; 03 R93, R97; 04 R119 to R123). -/

namespace Sys2Proof.Machine

/-- Images that START misses (R119). -/
def missingImages (s : State) : Nat :=
  maskOf [s.st.cfg.isNone, s.st.prog.isNone, s.safetyUsed && !s.st.safetyAccepted, s.st.access.isNone]

/-- START (R119 to R121). -/
def execStart (p : Part) (s : State) : Host.Outcome State Fault Refusal :=
  .next (serve s p 0x0030 fun s _ =>
    needLock s p false
      (if s.st.phase ≠ .stopped ∨ missingImages s ≠ 0 then answer s p false WRONG_STATE s.st.phase.code (missingImages s)
       else
         let t := s.grid.tick + 2
         let shut := s.st.shut
         let stops := stopCapturePending s
         let wait := stops || patchCapturePending s
         let s := s.updSt fun x =>
           { x with phase := .running, startAt := some t, stopCause := 0, stopArg := 0, shut := false, restoreDue := wait,
                    stopAt := x.stopAt.bind fun a => if stops || decide (s.grid.tick < a) then some a else none }
         let s := bothLanes holdLaneRate (if wait then s else startRetained s (s.st.prog.getD []))
         let s := noteUnnamed (setRise true s) .started s.mainLane (leBytes p 1)
         let s := if shut then panelRedraw s else s
         respond s p false OK 0 0 (t % 2 ^ 32)))

/-- STOP (R93, R123): it ends at its TICK; WRONG_STATE while the station is not RUNNING (log entry 118). -/
def execStop (p : Part) (s : State) : Host.Outcome State Fault Refusal :=
  .next (serve s p 0x0031 fun s _ =>
    needLock s p true
      (if s.st.phase ≠ .running then answer s p true WRONG_STATE s.st.phase.code
       else (enterStopped s 1 p).updMb p true fun m => { m with phase := .waiting }))

/-- STATUS_GET (R97): the values of the last completed tick; before one has completed, the present ones (log entry 116). -/
def execStatusGet (p : Part) (s : State) : Host.Outcome State Fault Refusal :=
  .next (serve s p 0x0017 fun s _ => let x := s.st.lastStatus.getD (lastTick s, statusBytes s)
    respond s p false OK 0 0 x.1 (bytesWords x.2))

end Sys2Proof.Machine
end

