-- ==== Sys2Proof/Machine/Dispatch.lean ====
section
/-! DEFINITION. One arm per command: a direct call of its meaning. -/

namespace Sys2Proof.Machine

def exec (i : Instr) (s : State) : Host.Outcome State Fault Refusal :=
  match i with
  | .registerWrite p slow addr size data via => Sys2Proof.Machine.execRegisterWrite p slow addr size data via s
  | .winCtrlAttach p bus lane data => Sys2Proof.Machine.execWinCtrlAttach p bus lane data s
  | .winCtrlDetach p data => Sys2Proof.Machine.execWinCtrlDetach p data s
  | .detachComplete p => Sys2Proof.Machine.execDetachComplete p s
  | .evStatusClear p data => Sys2Proof.Machine.execEvStatusClear p data s
  | .evIndexWrite p data => Sys2Proof.Machine.execEvIndexWrite p data s
  | .latTolWrite p data => Sys2Proof.Machine.execLatTolWrite p data s
  | .mbDoorbell p data => Sys2Proof.Machine.execMbDoorbell p data s
  | .wideSelWrite p data via => Sys2Proof.Machine.execWideSelWrite p data via s
  | .wideCaptureDone p => Sys2Proof.Machine.execWideCaptureDone p s
  | .wideD3Read p => Sys2Proof.Machine.execWideD3Read p s
  | .slowReadStart p data => Sys2Proof.Machine.execSlowReadStart p data s
  | .slowWritePost p data => Sys2Proof.Machine.execSlowWritePost p data s
  | .slowAccessDone p x cycle => Sys2Proof.Machine.execSlowAccessDone p x cycle s
  | .attach p => Sys2Proof.Machine.execAttach p s
  | .sessionOpen p => Sys2Proof.Machine.execSessionOpen p s
  | .sessionClose p => Sys2Proof.Machine.execSessionClose p s
  | .lockAcquire p => Sys2Proof.Machine.execLockAcquire p s
  | .lockRelease p => Sys2Proof.Machine.execLockRelease p s
  | .eventSubscribe p => Sys2Proof.Machine.execEventSubscribe p s
  | .eventRead p => Sys2Proof.Machine.execEventRead p s
  | .statusGet p => Sys2Proof.Machine.execStatusGet p s
  | .configBegin p => Sys2Proof.Machine.execConfigBegin p s
  | .configChunk p => Sys2Proof.Machine.execConfigChunk p s
  | .configCommit p => Sys2Proof.Machine.execConfigCommit p s
  | .configAbort p => Sys2Proof.Machine.execConfigAbort p s
  | .start p => Sys2Proof.Machine.execStart p s
  | .stop p => Sys2Proof.Machine.execStop p s
  | .endsChange p => Sys2Proof.Machine.execEndsChange p s
  | .safeShutdown p => Sys2Proof.Machine.execSafeShutdown p s
  | .valuePatch p => Sys2Proof.Machine.execValuePatch p s
  | .loopMode p => Sys2Proof.Machine.execLoopMode p s
  | .loopParam p => Sys2Proof.Machine.execLoopParam p s
  | .imageRead p => Sys2Proof.Machine.execImageRead p s
  | .recorderRead p => Sys2Proof.Machine.execRecorderRead p s
  | .recorderClear p => Sys2Proof.Machine.execRecorderClear p s
  | .flowStats p => Sys2Proof.Machine.execFlowStats p s
  | .retainedRead p => Sys2Proof.Machine.execRetainedRead p s
  | .bulkBoundary => Sys2Proof.Machine.execBulkBoundary s
  | .dmaCompletion p urgent ok status data => Sys2Proof.Machine.execDmaCompletion p urgent ok status data s
  | .dmaCompletionTimeout p urgent => Sys2Proof.Machine.execDmaCompletionTimeout p urgent s
  | .hostLinkLost p => Sys2Proof.Machine.execHostLinkLost p s
  | .linkGraceExpired p => Sys2Proof.Machine.execLinkGraceExpired p s
  | .sessionIdleTimeout p => Sys2Proof.Machine.execSessionIdleTimeout p s
  | .authLockoutEnd => Sys2Proof.Machine.execAuthLockoutEnd s
  | .thlHello p rx lane nonce => Sys2Proof.Machine.execThlHello p rx lane nonce s
  | .thlRegRead p rx sess seq addr tag => Sys2Proof.Machine.execThlRegRead p rx sess seq addr tag s
  | .thlRegWrite p rx sess seq addr data tag dt => Sys2Proof.Machine.execThlRegWrite p rx sess seq addr data tag dt s
  | .thlData p rx sess seq cmdSeq offset data tag => Sys2Proof.Machine.execThlData p rx sess seq cmdSeq offset data tag s
  | .thlAck p rx sess seq cmdSeq offset tag => Sys2Proof.Machine.execThlAck p rx sess seq cmdSeq offset tag s
  | .thlStalled p urgent => Sys2Proof.Machine.execThlStalled p urgent s
  | .logicPowerGood l cid feedMv mac map => Sys2Proof.Machine.execLogicPowerGood l cid feedMv mac map s
  | .windowUp l fw => Sys2Proof.Machine.execWindowUp l fw s
  | .clockQualification l tcxo rc => Sys2Proof.Machine.execClockQualification l tcxo rc s
  | .thlBootstrapStart l conflict => Sys2Proof.Machine.execThlBootstrapStart l conflict s
  | .rolesStep l => Sys2Proof.Machine.execRolesStep l s
  | .roleWaitTimeout => Sys2Proof.Machine.execRoleWaitTimeout s
  | .startupComplete l => Sys2Proof.Machine.execStartupComplete l s
  | .startupStepFail l step code => Sys2Proof.Machine.execStartupStepFail l step code s
  | .tickEdge skewNs => Sys2Proof.Machine.execTickEdge skewNs s
  | .configApply => Sys2Proof.Machine.execConfigApply s
  | .commitConfirm => Sys2Proof.Machine.execCommitConfirm s
  | .commitConfirmTimeout => Sys2Proof.Machine.execCommitConfirmTimeout s
  | .inputSwap l => Sys2Proof.Machine.execInputSwap l s
  | .mx1Swap l => Sys2Proof.Machine.execMx1Swap l s
  | .beWindowClose l => Sys2Proof.Machine.execBeWindowClose l s
  | .outputCutoff l leLate => Sys2Proof.Machine.execOutputCutoff l leLate s
  | .islandEdge isl sample => Sys2Proof.Machine.execIslandEdge isl sample s
  | .edgeMarker isl l correctionNs => Sys2Proof.Machine.execEdgeMarker isl l correctionNs s
  | .islandInputFrame isl l crcOk => Sys2Proof.Machine.execIslandInputFrame isl l crcOk s
  | .islandOutputFrame isl l crcOk late => Sys2Proof.Machine.execIslandOutputFrame isl l crcOk late s
  | .islandWatchdogExpired isl => Sys2Proof.Machine.execIslandWatchdogExpired isl s
  | .tokenRequest l => Sys2Proof.Machine.execTokenRequest l s
  | .tokenRequestRetry l => Sys2Proof.Machine.execTokenRequestRetry l s
  | .tokenReply l => Sys2Proof.Machine.execTokenReply l s
  | .grantRecord isl l record => Sys2Proof.Machine.execGrantRecord isl l record s
  | .releaseWord isl l => Sys2Proof.Machine.execReleaseWord isl l s
  | .shotClockExpired l => Sys2Proof.Machine.execShotClockExpired l s
  | .uncorrectableError l site => Sys2Proof.Machine.execUncorrectableError l site s
  | .beNop l b => Sys2Proof.Machine.execBeNop l b s
  | .beMov l ty d s1 b => Sys2Proof.Machine.execBeMov l ty d s1 b s
  | .beMovi l ty d imm b => Sys2Proof.Machine.execBeMovi l ty d imm b s
  | .beLd l ty v a disp ecc b => Sys2Proof.Machine.execBeLd l ty v a disp ecc b s
  | .beSt l ty v a disp b => Sys2Proof.Machine.execBeSt l ty v a disp b s
  | .beLda l d a disp b => Sys2Proof.Machine.execBeLda l d a disp b s
  | .beIdxc l scale d a v boundM1 b => Sys2Proof.Machine.execBeIdxc l scale d a v boundM1 b s
  | .beItpl l a count b => Sys2Proof.Machine.execBeItpl l a count b s
  | .beAdd l ty d s1 s2 b => Sys2Proof.Machine.execBeAdd l ty d s1 s2 b s
  | .beSub l ty d s1 s2 b => Sys2Proof.Machine.execBeSub l ty d s1 s2 b s
  | .beAdds l ty d s1 s2 b => Sys2Proof.Machine.execBeAdds l ty d s1 s2 b s
  | .beSubs l ty d s1 s2 b => Sys2Proof.Machine.execBeSubs l ty d s1 s2 b s
  | .beMul l ty d s1 s2 b => Sys2Proof.Machine.execBeMul l ty d s1 s2 b s
  | .beDiv l ty d s1 s2 b => Sys2Proof.Machine.execBeDiv l ty d s1 s2 b s
  | .beMod l ty d s1 s2 b => Sys2Proof.Machine.execBeMod l ty d s1 s2 b s
  | .beNeg l ty d s1 b => Sys2Proof.Machine.execBeNeg l ty d s1 b s
  | .beAbs l ty d s1 b => Sys2Proof.Machine.execBeAbs l ty d s1 b s
  | .beMin l ty d s1 s2 b => Sys2Proof.Machine.execBeMin l ty d s1 s2 b s
  | .beMax l ty d s1 s2 b => Sys2Proof.Machine.execBeMax l ty d s1 s2 b s
  | .beSqrt l ty d s1 b => Sys2Proof.Machine.execBeSqrt l ty d s1 b s
  | .beCvt l ty d s1 src b => Sys2Proof.Machine.execBeCvt l ty d s1 src b s
  | .beAnd l ty d s1 s2 b => Sys2Proof.Machine.execBeAnd l ty d s1 s2 b s
  | .beOr l ty d s1 s2 b => Sys2Proof.Machine.execBeOr l ty d s1 s2 b s
  | .beXor l ty d s1 s2 b => Sys2Proof.Machine.execBeXor l ty d s1 s2 b s
  | .beNot l ty d s1 b => Sys2Proof.Machine.execBeNot l ty d s1 b s
  | .beShl l ty d s1 imm b => Sys2Proof.Machine.execBeShl l ty d s1 imm b s
  | .beShr l ty d s1 imm b => Sys2Proof.Machine.execBeShr l ty d s1 imm b s
  | .beCeq l ty d s1 s2 b => Sys2Proof.Machine.execBeCeq l ty d s1 s2 b s
  | .beCne l ty d s1 s2 b => Sys2Proof.Machine.execBeCne l ty d s1 s2 b s
  | .beClt l ty d s1 s2 b => Sys2Proof.Machine.execBeClt l ty d s1 s2 b s
  | .beCle l ty d s1 s2 b => Sys2Proof.Machine.execBeCle l ty d s1 s2 b s
  | .beSel l ty d s1 s2 b => Sys2Proof.Machine.execBeSel l ty d s1 s2 b s
  | .beBra l off b => Sys2Proof.Machine.execBeBra l off b s
  | .beBrz l v off b => Sys2Proof.Machine.execBeBrz l v off b s
  | .beBrnz l v off b => Sys2Proof.Machine.execBeBrnz l v off b s
  | .beLoop l v bound b => Sys2Proof.Machine.execBeLoop l v bound b s
  | .beEndl l b => Sys2Proof.Machine.execBeEndl l b s
  | .beCallb l a typeNo b => Sys2Proof.Machine.execBeCallb l a typeNo b s
  | .beRetb l b => Sys2Proof.Machine.execBeRetb l b s
  | .beEnd l b => Sys2Proof.Machine.execBeEnd l b s
  | .loopQbadExpired l n => Sys2Proof.Machine.execLoopQbadExpired l n s
  | .loopFeExpired l n => Sys2Proof.Machine.execLoopFeExpired l n s
  | .chainStaleExpired l n => Sys2Proof.Machine.execChainStaleExpired l n s
  | .chainHoldExpired l n => Sys2Proof.Machine.execChainHoldExpired l n s
  | .chainFadeEnd l n => Sys2Proof.Machine.execChainFadeEnd l n s
  | .chainSettleEnd l n => Sys2Proof.Machine.execChainSettleEnd l n s
  | .heartbeatWord l w crcOk => Sys2Proof.Machine.execHeartbeatWord l w crcOk s
  | .beaconExtinguish l => Sys2Proof.Machine.execBeaconExtinguish l s
  | .partnerFailureDeclared l => Sys2Proof.Machine.execPartnerFailureDeclared l s
  | .pathFault l kind => Sys2Proof.Machine.execPathFault l kind s
  | .takeoverTick l => Sys2Proof.Machine.execTakeoverTick l s
  | .snapshotPiece l tick piece => Sys2Proof.Machine.execSnapshotPiece l tick piece s
  | .snapshotDiscard l => Sys2Proof.Machine.execSnapshotDiscard l s
  | .endsIntervalDue => Sys2Proof.Machine.execEndsIntervalDue s
  | .endsDeferredStart => Sys2Proof.Machine.execEndsDeferredStart s
  | .endsSwapEdge => Sys2Proof.Machine.execEndsSwapEdge s
  | .selfCheckFail => Sys2Proof.Machine.execSelfCheckFail s
  | .reintStart l => Sys2Proof.Machine.execReintStart l s
  | .reintCopyClosed l => Sys2Proof.Machine.execReintCopyClosed l s
  | .reintCopyTimeout l => Sys2Proof.Machine.execReintCopyTimeout l s
  | .reintRetryDue l => Sys2Proof.Machine.execReintRetryDue l s
  | .reintStandby l => Sys2Proof.Machine.execReintStandby l s
  | .flowLaunch l n now => Sys2Proof.Machine.execFlowLaunch l n now s
  | .flowFrameReceived l w f => Sys2Proof.Machine.execFlowFrameReceived l w f s
  | .flowDown l n => Sys2Proof.Machine.execFlowDown l n s
  | .udpbcDatagram l rx g dt sentences => Sys2Proof.Machine.execUdpbcDatagram l rx g dt sentences s
  | .ptpSync l portB udp identity domain offsetNs => Sys2Proof.Machine.execPtpSync l portB udp identity domain offsetNs s
  | .ptpAnnounce l portB udp m => Sys2Proof.Machine.execPtpAnnounce l portB udp m s
  | .ptpDelayMessage l portB udp m => Sys2Proof.Machine.execPtpDelayMessage l portB udp m s
  | .announceTimeout l => Sys2Proof.Machine.execAnnounceTimeout l s
  | .holdoverExpired l => Sys2Proof.Machine.execHoldoverExpired l s
  | .prpSupervisionSend l => Sys2Proof.Machine.execPrpSupervisionSend l s
  | .arpIcmpFrame l rx f => Sys2Proof.Machine.execArpIcmpFrame l rx f s
  | .phyLinkChange l portB up => Sys2Proof.Machine.execPhyLinkChange l portB up s
  | .canFrameReceived l port f dt => Sys2Proof.Machine.execCanFrameReceived l port f dt s
  | .canFrameTxDone l port => Sys2Proof.Machine.execCanFrameTxDone l port s
  | .canError l port e => Sys2Proof.Machine.execCanError l port e s
  | .canBusoffRecovered l port => Sys2Proof.Machine.execCanBusoffRecovered l port s
  | .canSleepRequest l port => Sys2Proof.Machine.execCanSleepRequest l port s
  | .canWakeRequest l port => Sys2Proof.Machine.execCanWakeRequest l port s
  | .canRecoverRequest l port => Sys2Proof.Machine.execCanRecoverRequest l port s
  | .canBusWake l port f => Sys2Proof.Machine.execCanBusWake l port f s
  | .scRateDetected port rate => Sys2Proof.Machine.execScRateDetected port rate s
  | .scNoTraffic port => Sys2Proof.Machine.execScNoTraffic port s
  | .dioOverload dio2 ch => Sys2Proof.Machine.execDioOverload dio2 ch s
  | .dioAutoRetry dio2 ch temp => Sys2Proof.Machine.execDioAutoRetry dio2 ch temp s
  | .dioGroupTrip dio2 g => Sys2Proof.Machine.execDioGroupTrip dio2 g s
  | .fieldSupplyLow f => Sys2Proof.Machine.execFieldSupplyLow f s
  | .fieldSupplyRestored f => Sys2Proof.Machine.execFieldSupplyRestored f s
  | .aiSupplyRetry ai2 ch => Sys2Proof.Machine.execAiSupplyRetry ai2 ch s
  | .encoderZEdge n => Sys2Proof.Machine.execEncoderZEdge n s
  | .rs422Sentence port text framingError dt => Sys2Proof.Machine.execRs422Sentence port text framingError dt s
  | .rs422TxDone port => Sys2Proof.Machine.execRs422TxDone port s
  | .skCycleStart => Sys2Proof.Machine.execSkCycleStart s
  | .skCycleEnd x y dt => Sys2Proof.Machine.execSkCycleEnd x y dt s
  | .skKernelFault code => Sys2Proof.Machine.execSkKernelFault code s
  | .skSelftestDone ok code => Sys2Proof.Machine.execSkSelftestDone ok code s
  | .skImageForwarded => Sys2Proof.Machine.execSkImageForwarded s
  | .skVerifyDone execOk => Sys2Proof.Machine.execSkVerifyDone execOk s
  | .skPeriodicSelftest ok code => Sys2Proof.Machine.execSkPeriodicSelftest ok code s
  | .testSourceOverload k => Sys2Proof.Machine.execTestSourceOverload k s
  | .testSourceRetry k => Sys2Proof.Machine.execTestSourceRetry k s
  | .discTimerExpired p => Sys2Proof.Machine.execDiscTimerExpired p s
  | .proofTestExpired p => Sys2Proof.Machine.execProofTestExpired p s
  | .proofIntervalReached p => Sys2Proof.Machine.execProofIntervalReached p s
  | .offPulse o skY readbackMv => Sys2Proof.Machine.execOffPulse o skY readbackMv s
  | .laneWatchdogExpired => Sys2Proof.Machine.execLaneWatchdogExpired s
  | .connTimeExpired c => Sys2Proof.Machine.execConnTimeExpired c s
  | .tcxoFailure l count => Sys2Proof.Machine.execTcxoFailure l count s
  | .rcFault l count partner => Sys2Proof.Machine.execRcFault l count partner s
  | .rcQualified l count => Sys2Proof.Machine.execRcQualified l count s
  | .rcQualTimeout l => Sys2Proof.Machine.execRcQualTimeout l s
  | .tcxoReturn l => Sys2Proof.Machine.execTcxoReturn l s
  | .voltageStepDone l => Sys2Proof.Machine.execVoltageStepDone l s
  | .gateBusyTimeout l block => Sys2Proof.Machine.execGateBusyTimeout l block s
  | .powerDwellExpired => Sys2Proof.Machine.execPowerDwellExpired s
  | .darkWake w => Sys2Proof.Machine.execDarkWake w s
  | .clkoutSelWrite p outB data => Sys2Proof.Machine.execClkoutSelWrite p outB data s
  | .clkoutStatusClear p data => Sys2Proof.Machine.execClkoutStatusClear p data s
  | .recordArrival => Sys2Proof.Machine.execRecordArrival s
  | .floodWindowEnd => Sys2Proof.Machine.execFloodWindowEnd s
  | .optimeStep ns => Sys2Proof.Machine.execOptimeStep ns s
  | .timeAnchorDue => Sys2Proof.Machine.execTimeAnchorDue s
  | .retainPeriodDue => Sys2Proof.Machine.execRetainPeriodDue s
  | .bankWriteDone => Sys2Proof.Machine.execBankWriteDone s
  | .serviceDomainLost => Sys2Proof.Machine.execServiceDomainLost s
  | .serviceDomainReturned => Sys2Proof.Machine.execServiceDomainReturned s
  | .rtcTimeRead p sub cycles phase => Sys2Proof.Machine.execRtcTimeRead p sub cycles phase s
  | .rtcDateRead p => Sys2Proof.Machine.execRtcDateRead p s
  | .rtcCommit p data => Sys2Proof.Machine.execRtcCommit p data s
  | .rtcStatusClear p data => Sys2Proof.Machine.execRtcStatusClear p data s
  | .rtcAlarmWrite p alarm2 date data => Sys2Proof.Machine.execRtcAlarmWrite p alarm2 date data s
  | .rtcTrimWrite p data => Sys2Proof.Machine.execRtcTrimWrite p data s
  | .rtcSecond => Sys2Proof.Machine.execRtcSecond s
  | .laneFeedLost l feedMv => Sys2Proof.Machine.execLaneFeedLost l feedMv s
  | .laneFeedRestored l feedMv => Sys2Proof.Machine.execLaneFeedRestored l feedMv s
  | .powerFailure bankMv feedAMv feedBMv => Sys2Proof.Machine.execPowerFailure bankMv feedAMv feedBMv s
  | .rideThroughEnd => Sys2Proof.Machine.execRideThroughEnd s
  | .holdupOff => Sys2Proof.Machine.execHoldupOff s
  | .cartInserted id bankMv => Sys2Proof.Machine.execCartInserted id bankMv s
  | .cartRemoved => Sys2Proof.Machine.execCartRemoved s
  | .cartMeasNow p data => Sys2Proof.Machine.execCartMeasNow p data s
  | .cartMeasDue bankMv => Sys2Proof.Machine.execCartMeasDue bankMv s
  | .cartMeasDone stepMv dischargeMs => Sys2Proof.Machine.execCartMeasDone stepMv dischargeMs s
  | .cartHour tempC => Sys2Proof.Machine.execCartHour tempC s
  | .cartStatusClear p data => Sys2Proof.Machine.execCartStatusClear p data s
  | .pnlShowWrite p data => Sys2Proof.Machine.execPnlShowWrite p data s
  | .pnlLineWrite p data => Sys2Proof.Machine.execPnlLineWrite p data s
  | .pnlDataWrite p data => Sys2Proof.Machine.execPnlDataWrite p data s
  | .pnlCommit p data started => Sys2Proof.Machine.execPnlCommit p data started s
  | .pnlStatusClear p data => Sys2Proof.Machine.execPnlStatusClear p data s
  | .panelFrame temp station => Sys2Proof.Machine.execPanelFrame temp station s
  | .panelPassDone => Sys2Proof.Machine.execPanelPassDone s
  | .panelIdle => Sys2Proof.Machine.execPanelIdle s
  | .panelKey => Sys2Proof.Machine.execPanelKey s
  | .safetyInputSample us mv => Sys2Proof.Machine.execSafetyInputSample us mv s
  | .testSourcePulse k high backfeed => Sys2Proof.Machine.execTestSourcePulse k high backfeed s
  | .safetyOutputReadback o mv supplyMv limit => Sys2Proof.Machine.execSafetyOutputReadback o mv supplyMv limit s
  | .encoderEdge n a b dt tooFast => Sys2Proof.Machine.execEncoderEdge n a b dt tooFast s
  | .ssiFrameComplete n ready bits monoflop => Sys2Proof.Machine.execSsiFrameComplete n ready bits monoflop s
  | .lockstepMismatch l => Sys2Proof.Machine.execLockstepMismatch l s
  | .scrubberRead l addr r => Sys2Proof.Machine.execScrubberRead l addr r s
  | .prpSupervisionFrame l portB node => Sys2Proof.Machine.execPrpSupervisionFrame l portB node s
  | .prpSupervisionLost l portB node => Sys2Proof.Machine.execPrpSupervisionLost l portB node s
  | .partnerBeaconLost l => Sys2Proof.Machine.execPartnerBeaconLost l s
  | .analogueCalibrationDone fails => Sys2Proof.Machine.execAnalogueCalibrationDone fails s
  | .bayEmptyRepeat => Sys2Proof.Machine.execBayEmptyRepeat s

end Sys2Proof.Machine
end

