-- ==== Sys2Proof/Machine/Step.lean ====
section
/-! DEFINITION. One step: the command at the front of the queue; on an empty queue a bundle of a block engine, or nothing. -/

namespace Sys2Proof.Machine

/-- One step takes the command at the front of the queue and runs it on the state with the queue's rest. On an empty queue the
block engines take their next bundle, one at a time; where none has one the block idles. -/
def step (s : State) : Host.Outcome State Fault Refusal :=
  match s.pending with
  | c :: r => exec c { s with pending := r }
  | [] => match engineTurn s with
    | none => .next s
    | some (_, some c) => exec c s
    | some (l, none) => .next (illegalBundle s l)

/-- `s` with the command that the word spells put in front; no row of the table gives bits, so `s` itself. -/
def State.withFetchWord (s : State) (nbits w : Nat) : State :=
  match Sys2Proof.decodeTableWord nbits w with
  | none => s
  | some c => { s with pending := c :: s.pending }

end Sys2Proof.Machine
end

