-- ==== Sys2Proof/Safety.lean ====
section
/-! DEFINITION. What counts as a safe step, and the invariants that the statements are about. -/

namespace Sys2Proof.Machine

/-- The outcome is a next state. -/
def Safe (o : Host.Outcome State Fault Refusal) : Prop := ∃ t, o = .next t

/-- The command answers a next state of which `P` holds. -/
def Gives (i : Instr) (s : State) (P : State → Prop) : Prop := ∃ t, exec i s = .next t ∧ P t

/-- The command of opcode `op` and words `ws` stands accepted in a mailbox of the partition, and an ACTIVE or SOLO lane may serve
it (R40, R74, R77). -/
structure Served (s : State) (p : Nat) (urg : Bool) (c : CmdClass) (op : Nat) (ws : List Word) : Prop where
  busy : (s.mbox p urg).busy = true
  phase : (s.mbox p urg).phase = .accepted
  cmd : (s.mbox p urg).cmd = ws
  opcode : word ws 0 % 65536 = op
  may : mayServe s p c = true

/-- The command has ended with this response in its mailbox: DONE set, BUSY clear (R72). -/
structure Ended (s t : State) (p : Nat) (urg : Bool) (status d0 d1 tick : Nat) (data : List Nat) : Prop where
  busy : (t.mbox p urg).busy = false
  done : (t.mbox p urg).done = true
  idle : (t.mbox p urg).phase = .idle
  resp : (t.mbox p urg).resp = respBytes status (s.mbox p urg).seq d0 d1 tick data

/-- Every other partition is as it was. -/
def OthersSame (s t : State) (p : Nat) : Prop := ∀ q, q ≠ p → t.part q = s.part q

/-- What the end of a partition's attachment leaves of its holdings (R83). -/
structure Emptied (t : State) (p : Nat) : Prop where
  session : (t.part p).session = false
  nonce : (t.part p).nonce = none
  lock : t.st.lock ≠ some p
  stage : ∀ e ∈ t.st.stage, e.2.part ≠ p
  commit : ∀ c, t.st.commit = some c → c.part ≠ p

/-- A partition less its event ring, and the sequence of the last message of its THL session, which notices of new entries raise
(R66, R68, R101). -/
def Partition.lessRing (q : Partition) : Partition :=
  { q with ring := [], held := [], head := 0, ringNe := false, ringOvf := false, nmPend := false,
           thl := q.thl.map fun t => { t with sent := 0 } }

/-- A lane less its staging area (R460), and the counts of the frames that it sends (R293, R317). -/
def Lane.lessStaging (v : Lane) : Lane := { v with staging := {}, net := { v.net with cnt := [], prpSeq := 0 } }

/-- A state less what a report writes: outputs, partitions, rate limits (R538), staging areas, the recorder's queue and what the lanes
count of sent frames. -/
def State.lessReports (s : State) : State :=
  { s with out := [], parts := [], st := { s.st with limits := [] }, a := s.a.lessStaging, b := s.b.lessStaging,
           svc := { s.svc with rcd := { s.svc.rcd with queue := [] } } }

/-- `t` is `s` but for what reports write: event rings, the recorder's queue and staging areas, rate limits and outputs, and the
sequences and counts of the frames that tell a THL host of new entries. -/
structure Reports (s t : State) : Prop where
  rest : t.lessReports = s.lessReports
  parts : ∀ p, (t.part p).lessRing = (s.part p).lessRing

/-- The command answers the state `u` but for what reports write. -/
def Becomes (i : Instr) (s u : State) : Prop := ∃ t, exec i s = .next t ∧ Reports u t

/-- The context after slot B of a bundle and its `k` cycles (R188, R189). -/
def Ctx.afterB (c : Ctx) (sb : Slot) (k : Nat) : Ctx := { slotB c sb with cyc := c.cyc + k }

/-- The cycles of a bundle whose slot A takes `k`: the stalls come on top (R161). -/
def bundleCycles (s : State) (l : LaneId) (n : Nat) (t : TaskDef) (a : Slot) (k : Nat) : Nat := stallCycles s l t (ctxOf s l n) a + k

/-- Lane `l` may execute a bundle of slot A `a` and slot B's word `b` now: its domains run, level `n` runs task `t` of the program, the
window is open, the code word is good, slot B decodes and agrees with slot A, and the cycles of the bundle, `k` of them slot A's own,
are left of the shot clock and of the window. -/
structure BundleFits (s : State) (l : LaneId) (n : Nat) (prog : List Byte) (t : TaskDef) (a : Slot) (b : Word) (sb : Slot)
    (k : Nat) : Prop where
  level : runningLevel s l = some n
  prog : s.st.prog = some prog
  task : s.taskDef n = some t
  runs : (s.lane l).runs = true
  window : (s.lane l).be.window = true
  code : (ctxOf s l n).pc ∉ (s.lane l).be.poisonedCode
  slotB : decodeSlot b = some sb
  ok : bundleOk a sb = true
  shot : (ctxOf s l n).cyc + bundleCycles s l n t a k ≤ t.shot
  fits : (s.lane l).be.used + bundleCycles s l n t a k ≤ windowCycles s l

/-- What a bundle's slot A sees: the context before the bundle and after slot B. -/
def bundleIn (s : State) (l : LaneId) (n : Nat) (prog : List Byte) (t : TaskDef) (a sb : Slot) (k : Nat) : BeIn :=
  let c := ctxOf s l n
  let shot := t.shot - c.cyc
  let win := windowCycles s l - (s.lane l).be.used
  let all := bundleCycles s l n t a k
  ⟨s, l, prog, t, c, c.afterB sb all, shot - all, win - all, min shot win - stallCycles s l t c a, decide (shot ≤ win)⟩

/-- The bundle has gone on: of the context after slot B slot A has made `f`, its cycles of the window are used, the line of code is
fetched, the lane's image is `m`, and nothing else has moved. -/
def bundleGoes (s : State) (l : LaneId) (n : Nat) (t : TaskDef) (a sb : Slot) (k : Nat) (f : Ctx → Ctx) (m : Mem) : State :=
  let c := ctxOf s l n
  let all := bundleCycles s l n t a k
  s.updLane l fun v => { v with img := m, be :=
    { v.be with used := v.be.used + all, ctxs := v.be.ctxs.set n ((f (c.afterB sb all)).fetched c.pc) } }

/-- The rows of slot A with two sources, by operation (R190). -/
def alu3 : List (AluOp × (LaneId → Ty → VReg → VReg → VReg → Word → Instr)) :=
  [(.add, .beAdd), (.sub, .beSub), (.adds, .beAdds), (.subs, .beSubs), (.mul, .beMul), (.div, .beDiv), (.mod, .beMod), (.min, .beMin),
   (.max, .beMax), (.and, .beAnd), (.or, .beOr), (.xor, .beXor), (.ceq, .beCeq), (.cne, .beCne), (.clt, .beClt), (.cle, .beCle),
   (.sel, .beSel)]

/-- The rows with one source. -/
def alu2 : List (AluOp × (LaneId → Ty → VReg → VReg → Word → Instr)) :=
  [(.mov, .beMov), (.neg, .beNeg), (.abs, .beAbs), (.sqrt, .beSqrt), (.not, .beNot)]

/-- Every image that the module has accepted carries a good CRC-32C trailer (R14, R42, R91, R183): the safety image that
SK-1 runs and the one forwarded to it, the program, the configuration, the access list, and an image that is validated
and not yet applied. The image of a commit of target 3 is SK-1's to judge. -/
structure AcceptedGood (s : State) : Prop where
  sk : ∀ img, s.sk.image = some img → trailerOk img = true
  safety : ∀ img, s.st.safety = some img → trailerOk img = true
  prog : ∀ img, s.st.prog = some img → trailerOk img = true
  cfg : s.st.cfgImage = [] ∨ trailerOk s.st.cfgImage = true
  access : s.st.accessImage = [] ∨ trailerOk s.st.accessImage = true
  commit : ∀ c, s.st.commit = some c → c.target ≠ 3 → trailerOk c.image = true

/-- Every memory of the machine stands in its canonical form: the lanes' images, frozen copies and templates, the island frames
received, the islands' output bytes and frames, what SK-1 has published, and the staging areas. -/
structure MemoriesGood (s : State) : Prop where
  lane : ∀ l, (s.lane l).img.wf ∧ (s.lane l).frozen.wf ∧ (s.lane l).tmpl.wf
  arrived : ∀ l, ∀ e ∈ (s.lane l).arrived, e.2.frame.data.wf
  isl : ∀ e ∈ s.isl, e.2.applied.wf ∧ (∀ k, e.2.latched = some k → k.m.wf) ∧ ∀ f, e.2.frame = some f → f.data.wf
  pub : s.sk.pub.wf ∧ s.sk.pubOld.wf
  stage : ∀ e ∈ s.st.stage, e.2.bytes.wf

/-- The rows that may change an accepted image or the pending commit. -/
def mayCommit : Instr → Bool
  | .winCtrlAttach .. | .winCtrlDetach .. | .detachComplete .. | .linkGraceExpired .. | .registerWrite .. | .thlRegWrite ..
  | .dmaCompletion .. | .thlData .. | .thlAck .. | .bulkBoundary .. | .tokenReply .. | .takeoverTick ..
  | .partnerBeaconLost .. | .skCycleEnd .. | .skKernelFault .. | .skPeriodicSelftest .. | .skSelftestDone .. | .skImageForwarded ..
  | .skVerifyDone .. | .configCommit .. | .commitConfirm .. | .commitConfirmTimeout .. | .configApply .. | .logicPowerGood ..
  | .powerFailure .. | .holdupOff .. | .cartRemoved .. | .tickEdge .. | .darkWake .. | .rtcSecond .. | .panelKey .. => true
  | _ => false

/-- The rows that may change the safety kernel SK-1. -/
def mayKernel : Instr → Bool
  | .cartRemoved .. | .configApply .. | .connTimeExpired .. | .darkWake .. | .discTimerExpired .. | .fieldSupplyLow ..
  | .fieldSupplyRestored .. | .holdupOff .. | .islandOutputFrame .. | .laneWatchdogExpired .. | .logicPowerGood .. | .offPulse ..
  | .panelKey .. | .powerFailure .. | .proofIntervalReached .. | .proofTestExpired .. | .rtcSecond .. | .safetyInputSample ..
  | .safetyOutputReadback .. | .skCycleEnd .. | .skCycleStart .. | .skImageForwarded .. | .skKernelFault .. | .skPeriodicSelftest ..
  | .skSelftestDone .. | .skVerifyDone .. | .testSourceOverload .. | .testSourcePulse .. | .testSourceRetry .. | .tickEdge .. => true
  | _ => false

/-- The rows that may change the tick grid and the instants. -/
def mayTime : Instr → Bool
  | .configApply .. | .tickEdge .. => true
  | _ => false

/-- The rows that may change a lane's process image, its frozen copy or its template. -/
def mayImage : Instr → Bool
  | .bankWriteDone .. | .cartRemoved .. | .chainFadeEnd .. | .chainHoldExpired .. | .chainSettleEnd .. | .chainStaleExpired ..
  | .configApply .. | .flowDown .. | .heartbeatWord .. | .holdupOff .. | .inputSwap .. | .laneFeedLost .. | .laneFeedRestored ..
  | .logicPowerGood .. | .loopFeExpired .. | .loopQbadExpired .. | .mx1Swap .. | .outputCutoff .. | .powerFailure ..
  | .reintCopyClosed .. | .rideThroughEnd .. | .safeShutdown .. | .scrubberRead .. | .snapshotDiscard .. | .start ..
  | .tokenReply .. | .partnerBeaconLost .. | .uncorrectableError .. | .beNop .. | .beMov .. | .beMovi .. | .beLd .. | .beSt .. | .beLda .. | .beIdxc ..
  | .beItpl .. | .beAdd .. | .beSub .. | .beAdds .. | .beSubs .. | .beMul .. | .beDiv .. | .beMod .. | .beNeg .. | .beAbs .. | .beMin ..
  | .beMax .. | .beSqrt .. | .beCvt .. | .beAnd .. | .beOr .. | .beXor .. | .beNot .. | .beShl .. | .beShr .. | .beCeq .. | .beCne ..
  | .beClt .. | .beCle .. | .beSel .. | .beBra .. | .beBrz .. | .beBrnz .. | .beLoop .. | .beEndl .. | .beCallb .. | .beRetb ..
  | .beEnd .. => true
  | _ => false

/-- The rows that may change the real-time clock, the supplies, the cartridge, the panel or the clock outputs. -/
def mayService : Instr → Bool
  | .bankWriteDone .. | .cartHour .. | .cartInserted .. | .cartMeasDone .. | .cartMeasDue .. | .cartMeasNow .. | .cartRemoved ..
  | .clkoutSelWrite .. | .clkoutStatusClear .. | .configApply .. | .holdupOff .. | .islandEdge .. | .laneFeedLost ..
  | .laneFeedRestored .. | .logicPowerGood .. | .outputCutoff .. | .panelFrame .. | .panelIdle .. | .panelKey .. | .panelPassDone ..
  | .pnlCommit .. | .pnlDataWrite .. | .pnlShowWrite .. | .powerFailure .. | .rideThroughEnd .. | .rtcAlarmWrite .. | .rtcCommit ..
  | .rtcSecond .. | .rtcTrimWrite .. | .safeShutdown .. | .slowAccessDone .. | .start .. => true
  | _ => false

end Sys2Proof.Machine
end

