-- ==== Sys2Proof/Certificates/Slice0/Obligations.lean ====
section
/-! DEFINITION. The statements for the provers. -/

open Sys2Proof Sys2Proof.Machine

/-! The step -/

/-- A step takes the command at the front of the queue and runs it on the state with the queue's rest. -/
def Obligations.StepRunsFrontCommand : Prop :=
  ∀ (s : State) (c : Instr) (r : List Instr), s.pending = c :: r → step s = exec c { s with pending := r }

/-- On an empty queue the block idles, or a block engine takes its next bundle (log entry 25): the bundle of Lane A before that of
Lane B, executed as its command; one that does not decode fails its task's period. -/
def Obligations.StepOnEmptyQueue : Prop :=
  ∀ s : State, s.pending = [] →
    (nextBundle s .a = none → nextBundle s .b = none → step s = .next s) ∧
    (∀ c, nextBundle s .a = some (some c) → step s = exec c s) ∧
    (∀ c, nextBundle s .a = none → nextBundle s .b = some (some c) → step s = exec c s) ∧
    (nextBundle s .a = some none → step s = .next (illegalBundle s .a)) ∧
    (nextBundle s .a = none → nextBundle s .b = some none → step s = .next (illegalBundle s .b))

/-- Every command answers a next state from every state: no fault and no refusal is reachable. -/
def Obligations.EveryCommandAnswers : Prop := ∀ (i : Instr) (s : State), Safe (exec i s)

/-- A step leaves exactly the rest of the queue: no command puts one in or takes one out. -/
def Obligations.QueueDiscipline : Prop := ∀ s t : State, step s = .next t → t.pending = s.pending.tail

/-! Accepted images -/

/-- Every accepted image carries a good trailer, kept by every step. -/
def Obligations.AcceptedImagesStayGood : Prop :=
  ∀ s t : State, AcceptedGood s → step s = .next t → AcceptedGood t

/-! Memories -/

/-- Every memory keeps its canonical form: addresses strictly rising and no entry equal to what an unlisted address reads as. -/
def Obligations.MemoriesStayCanonical : Prop :=
  ∀ s t : State, MemoriesGood s → step s = .next t → MemoriesGood t

/-! Register window (02) -/

/-- The window registers that a host writes, each by its own row: LAT_TOL, EV_STATUS (write 1 to clear), EV_INDEX (TAIL moves only
within what stands in the ring; held entries may follow) and the wide-read registers. No row moves another partition, and none does
anything while the partition's window answers on no binding. -/
def Obligations.WindowRegisterRows : Prop :=
  (∀ (s : State) (p : Part), winLive s p = true →
    let fill (t : Nat) := (t + 65536 - (s.part p).tail % 65536) % 65536
    (∀ d, exec (.latTolWrite p d) s = .next (s.updPart p fun q => { q with latTol := d &&& 0x80FFFFFF#32 })) ∧
    (∀ d, exec (.evStatusClear p d) s = .next (s.updPart p fun q =>
      { q with ringNe := q.ringNe && !bit d.toNat 0, ringOvf := q.ringOvf && !bit d.toNat 1, nmPend := q.nmPend && !bit d.toNat 2,
               slowDrop := q.slowDrop && !bit d.toNat 3, wideLost := q.wideLost && !bit d.toNat 4 })) ∧
    (∀ d, fill (d.toNat % 65536) ≤ fill (s.part p).head →
      Gives (.evIndexWrite p d) s (fun t => (t.part p).tail = d.toNat % 65536 ∧ OthersSame s t p) ∧
      ((s.part p).held = [] → exec (.evIndexWrite p d) s = .next (s.updPart p fun q => { q with tail := d.toNat % 65536 }))) ∧
    (∀ d, fill (s.part p).head < fill (d.toNat % 65536) → exec (.evIndexWrite p d) s = .next s) ∧
    (∀ d v, exec (.wideSelWrite p d v) s = .next (s.updPart p fun q =>
      { q with wideLost := q.wideLost || q.wide.pending || q.wide.valid,
               wide := { q.wide with sel := d &&& 0x00FFFFFF#32, echo := d.toNat % 256, badSel := false, pending := true, valid := false,
                                     atTick := s.grid.tick, atTime := s.grid.now + v.ns,
                                     cap := wideLane s (s.viaLane p v.lane) (d &&& 0x00FFFFFF#32) s.grid.tick (s.grid.now + v.ns) } })) ∧
    exec (.wideD3Read p) s = .next (s.updPart p fun q => { q with wide := { q.wide with valid := false } }) ∧
    ((s.part p).wide.pending = true → (wideSlow (s.part p).wide.sel = true → s.svc.up = true) →
      (wideValue s (s.part p).wide = none → exec (.wideCaptureDone p) s = .next (s.updPart p fun q =>
        { q with wide := { q.wide with pending := false, badSel := true } })) ∧
      (∀ v, wideValue s (s.part p).wide = some v → exec (.wideCaptureDone p) s = .next (s.updPart p fun q =>
        { q with wide := { q.wide with pending := false, valid := true, d0 := BitVec.ofNat 32 (v.getD 0 0),
                                       d1 := BitVec.ofNat 32 (v.getD 1 0), d2 := BitVec.ofNat 32 (v.getD 2 0),
                                       d3 := BitVec.ofNat 32 (v.getD 3 0) } }))) ∧
    ((s.part p).wide.pending = false → exec (.wideCaptureDone p) s = .next s)) ∧
  (∀ (s : State) (p : Part), winLive s p = false → exec (.wideD3Read p) s = .next s ∧ exec (.wideCaptureDone p) s = .next s ∧
    ∀ d, exec (.latTolWrite p d) s = .next s ∧ exec (.evStatusClear p d) s = .next s ∧ exec (.evIndexWrite p d) s = .next s ∧
      ∀ v, exec (.wideSelWrite p d v) s = .next s)

/-- An access to any alias has the effect of an access to the register it decodes to (R51): two 32-bit writes whose addresses
decode alike do the same, and the decoding ignores bits [11:10] and, below 0x100, bits [9:6].
A 64-bit write is two 32-bit writes, the lower address first; in the control area a write narrower than 32 bits is discarded without
effect (R52). -/
def Obligations.RegisterWriteAliases : Prop :=
  ((∀ (s : State) (p : Part) (a b : Nat) (d : DWord) (v : Arrival), decodeWindow a = decodeWindow b →
     ∃ t, exec (.registerWrite p false a 4 d v) s = .next t ∧ exec (.registerWrite p false b 4 d v) s = .next t) ∧
   (∀ a k, k < 4 → decodeWindow (a + 1024 * k) = decodeWindow a) ∧
   (∀ a, decodeWindow a = decodeWindow (4 * (a / 4))) ∧
   (∀ o k, o < 64 → k < 4 → decodeWindow (o + 64 * k) = decodeWindow o) ∧
   (∀ m n, m < 16 → n < 16 → decodeWindow (4 * m) = decodeWindow (4 * n) → m = n) ∧
   (∀ m n, 64 ≤ m → m < 256 → n < 256 → decodeWindow (4 * m) = decodeWindow (4 * n) → m = n) ∧
   (∀ (s : State) (p : Part) (d : DWord) (v : Arrival), winLive s p = true → exec (.registerWrite p false 0xC14 4 d v) s =
     .next (s.updPart p fun q => { q with latTol := d.extractLsb' 0 32 &&& 0x80FFFFFF#32 }))) ∧
  (∀ (s : State) (p : Part) (a : Nat) (d : DWord) (v : Arrival), ∃ t, exec (.registerWrite p false a 4 d v) s = .next t ∧
    exec (.registerWrite p false a 8 d v) s = exec (.registerWrite p false (a + 4) 4 (d >>> 32) v) t) ∧
  (∀ (s : State) (p : Part) (a n : Nat) (d : DWord) (v : Arrival), n < 4 → decodeWindow a < 0x100 →
    exec (.registerWrite p false a n d v) s = .next s)

/-- The slow port (R62, R63): SLOW_ADDR with READ starts a read, SLOW_DATA posts a write, a write while the port is busy is dropped
with SLOW_DROP, and the end of the access frees the port: a read's value stands in SLOW_DATA, a posted write has its effect. Two
ports of one cycle, neither of which sets the clock or has a clock output refused, are served in partition-number order (R64). -/
def Obligations.SlowPortRows : Prop :=
  ∀ (s : State) (p : Part), winLive s p = true →
    ((s.part p).slow.access = none →
      (∀ d, exec (.slowReadStart p d) s = .next (s.updPart p fun q =>
        { q with slow := { q.slow with addr := d.toNat % 65536 / 4 * 4, access := some none } })) ∧
      (∀ d, exec (.slowWritePost p d) s = .next (s.updPart p fun q => { q with slow := { q.slow with access := some (some d) } })) ∧
      (∀ a n d v, exec (.registerWrite p true a n d v) s = .next (s.updPart p fun q =>
        { q with slow := { q.slow with addr := a % 65536 / 4 * 4, access := some (some (d.extractLsb' 0 32)) } })) ∧
      (∀ x, exec (.slowAccessDone p x []) s = .next s)) ∧
    ((s.part p).slow.access ≠ none →
      (∀ d, exec (.slowReadStart p d) s = .next (s.updPart p fun q => { q with slowDrop := true })) ∧
      (∀ d, exec (.slowWritePost p d) s = .next (s.updPart p fun q => { q with slowDrop := true })) ∧
      (∀ a n d v, exec (.registerWrite p true a n d v) s = .next (s.updPart p fun q => { q with slowDrop := true }))) ∧
    (let u := s.updPart p fun q => { q with slow := { q.slow with access := none } }
     (∀ x, (s.part p).slow.access = some none → exec (.slowAccessDone p x []) s = .next
       ((slowRead u p (s.part p).slow.addr x).2.updPart p fun q =>
         { q with slow := { q.slow with data := BitVec.ofNat 32 (slowRead u p (s.part p).slow.addr x).1 } })) ∧
     (∀ x d, (s.part p).slow.access = some (some d) → exec (.slowAccessDone p x []) s = .next
       (slowWrite u p (s.part p).slow.addr d.toNat x.started))) ∧
    (∀ (q : Part) x y, p.val < q.val → commitsRtc s p = false → commitsRtc s q = false →
      (∀ b, refusesClk s b p = false ∧ refusesClk s b q = false) →
      exec (.slowAccessDone q y [(p, x)]) s = .next (slowServe (slowServe s p x) q y))

/-! Mailboxes and attachment (02, 03) -/

/-- MB_DOORBELL (R58, R70, R72 to R77). A write with LENGTH 0 does nothing; one to a busy mailbox or with a length above its area
sets REJ and nothing else; otherwise the command is copied and accepted: a command that fails a common check ends at once with
that check's status, a bulk command behind another waits as QUEUED, and any other stands accepted with RUNNING. -/
def Obligations.DoorbellAccepts : Prop :=
  ∀ (s : State) (p : Part) (d : Word),
    let urg := bit d.toNat 0
    let len := fld d.toNat 8 6
    let ws := areaWords (padTo 128 (s.mbox p urg).area) len
    let shown (st : Nat) := respBytes st (fld d.toNat 24 8) 0 0 0 []
    (winLive s p = false → exec (.mbDoorbell p d) s = .next s) ∧
    (len = 0 → exec (.mbDoorbell p d) s = .next s) ∧
    (winLive s p = true → len ≠ 0 → (s.mbox p urg).busy = true ∨ (if urg then 16 else 32) < len →
      exec (.mbDoorbell p d) s = .next (s.updMb p urg fun m => { m with rej := true })) ∧
    (winLive s p = true → len ≠ 0 → (s.mbox p urg).busy = false → len ≤ (if urg then 16 else 32) →
      (∀ st d0, commonCheck s p urg ws = some (st, d0) → Gives (.mbDoorbell p d) s fun t =>
        (t.mbox p urg).busy = false ∧ (t.mbox p urg).done = true ∧ (t.mbox p urg).resp = respBytes st (fld d.toNat 24 8) d0 0 s.tickNo [] ∧
        OthersSame s t p) ∧
      (commonCheck s p urg ws = none → Gives (.mbDoorbell p d) s fun t =>
        (t.mbox p urg).busy = true ∧ (t.mbox p urg).done = false ∧ (t.mbox p urg).rej = false ∧ (t.mbox p urg).cmd = ws ∧
        (t.mbox p urg).seq = fld d.toNat 24 8 ∧ (t.mbox p urg).order = s.st.orderNo ∧ t.st.orderNo = s.st.orderNo + 1 ∧
        OthersSame s t p ∧
        ((∀ ls, opInfo ws ≠ some (.bulk, ls)) → (t.mbox p urg).phase = .accepted ∧ t.st.bulkQueue = s.st.bulkQueue ∧
          (t.mbox p urg).resp = shown RUNNING) ∧
        (∀ ls, opInfo ws = some (.bulk, ls) → t.st.bulkQueue = s.st.bulkQueue ++ [p.val] ∧
          (s.st.bulkQueue = [] ∨ s.st.bulkQueue.head? = some p.val →
            (t.mbox p urg).phase = .accepted ∧ (t.mbox p urg).resp = shown RUNNING) ∧
          (s.st.bulkQueue ≠ [] → s.st.bulkQueue.head? ≠ some p.val →
            (t.mbox p urg).phase = .queued ∧ (t.mbox p urg).resp = shown QUEUED))))

/-- Attachment through WIN_CTRL, the loss of the host link and the end of a detachment (R53, R55, R79, R82, R83): ATTACH on a
detached partition starts attaching on the bus and lane of the write, and has no effect while it is attached or detaching; DETACH
starts detaching, and unless a command of its main mailbox runs between two 4 KiB boundaries the partition's lock, staging areas,
session and pending commit go at once; its completion waits for an urgent command that was running and leaves the partition as it is
at reset but for its binding; the loss of the
host link holds an attached partition in its grace and lets an attaching one fall back; the end of the grace detaches.
ATTACH (R79 to R82, R84, R85, R94): FINAL makes an attaching partition attached, with the role asked for, its regions declared,
its ring region and the default subscription, where the ring region takes the module's writes of 8 KiB; without FINAL it only
declares regions; RESUME in the grace keeps role and subscription, an ATTACH without it starts afresh; a bad field, a partition
that is attached, a RESUME without a grace and a binding that is not permitted are refused. -/
def Obligations.AttachmentRows : Prop :=
  (∀ (s : State) (p : Part),
     let goes (t : State) := (t.part p).att = .detaching ∧ (t.part p).grace = false ∧
       (((s.part p).main.busy && (s.part p).main.phase == .running && !(s.part p).main.atBoundary 4096) = false → Emptied t p)
     (∀ bus l d, (s.lane l).winUp = true → bit d.toNat 1 = false → (s.part p).grace = false →
       ((s.part p).att = .detached → exec (.winCtrlAttach p bus l d) s = .next (s.updPart p fun q =>
         { q with att := .attaching, bus := bus, lane := l, evEn := bit d.toNat 2, evIrqEn := bit d.toNat 3, mbIrqEn := bit d.toNat 4 })) ∧
       ((s.part p).att = .attached ∨ (s.part p).att = .detaching → exec (.winCtrlAttach p bus l d) s = .next s)) ∧
     (winLive s p = true →
       (∀ d, (s.part p).att = .attached ∨ (s.part p).att = .attaching → Gives (.winCtrlDetach p d) s goes) ∧
       (∀ d, (s.part p).att = .detaching → exec (.winCtrlDetach p d) s = .next (s.updPart p fun q =>
         { q with evEn := bit d.toNat 2, evIrqEn := bit d.toNat 3, mbIrqEn := bit d.toNat 4 }))) ∧
     ((s.part p).att = .detaching → (s.part p).urg.underway = true → exec (.detachComplete p) s = .next s) ∧
     ((s.part p).att = .detaching → (s.part p).urg.underway = false → Gives (.detachComplete p) s fun t =>
       (t.part p).lessRing = ({ bus := (s.part p).bus, lane := (s.part p).lane, thl := (s.part p).thl } : Partition).lessRing ∧
       p.val ∉ t.st.bulkQueue) ∧
     ((s.part p).att ≠ .detaching → exec (.detachComplete p) s = .next s) ∧
     ((s.part p).att = .attached → exec (.hostLinkLost p) s = .next (s.updPart p fun q =>
       { q with att := .attaching, grace := true, resuming := false, regions := [], ringRegion := none })) ∧
     ((s.part p).att = .attaching → (s.part p).grace = false →
       exec (.hostLinkLost p) s = .next (s.updPart p fun q => { q with att := .detached, regions := [] })) ∧
     ((s.part p).grace = true → Gives (.linkGraceExpired p) s goes) ∧
     ((s.part p).grace = false → exec (.linkGraceExpired p) s = .next s)) ∧
  (∀ (s : State) (p : Part) (ws : List Word), Served s p false .normal 0x0010 ws →
     let resume := bit (word ws 1) 9
     let ring := fld (word ws 2) 16 8
     let takes (r : Region) := 8192 ≤ r.len ∧ bit r.dir 1 = true
     (∀ o, attachBad ws = some o → exec (.attach p) s = .next (answer s p false BAD_FIELD o)) ∧
     (attachBad ws = none → (s.part p).att = .attached → (s.part p).grace = false →
       exec (.attach p) s = .next (answer s p false WRONG_STATE s.st.phase.code)) ∧
     (attachBad ws = none → (s.part p).att = .attaching → (s.part p).grace = false → resume = true →
       exec (.attach p) s = .next (answer s p false WRONG_STATE s.st.phase.code)) ∧
     (attachBad ws = none → (s.part p).att = .attaching → ((s.part p).grace = false → resume = false) →
       s.bindingOk p (s.part p).bus (s.part p).lane = false → exec (.attach p) s = .next (answer s p false BINDING_DENIED)) ∧
     (attachBad ws = none → (s.part p).att = .attaching → (s.part p).grace = resume →
       s.bindingOk p (s.part p).bus (s.part p).lane = true →
       (bit (word ws 1) 8 = false → exec (.attach p) s =
         .next (answer (s.updPart p fun q => { q with regions := declare ws q.regions }) p false OK)) ∧
       (bit (word ws 1) 8 = true → ring = 0xFF ∨ (∃ r, (declare ws (s.part p).regions).get? ring = some r ∧ takes r) →
         exec (.attach p) s = .next (answer (s.updPart p fun q =>
           { q with att := .attached, grace := false, resuming := false, regions := declare ws q.regions,
                    ringRegion := if ring = 0xFF then none else some ring,
                    roleReq := if resume then q.roleReq else fld (word ws 1) 0 8,
                    sub := if resume then q.sub else defaultSub s p }) p false OK)) ∧
       (bit (word ws 1) 8 = true → ring ≠ 0xFF → (∀ r, (declare ws (s.part p).regions).get? ring = some r → ¬ takes r) →
         exec (.attach p) s = .next (answer s p false DMA_NO_REGION ring))) ∧
     (attachBad ws = none → (s.part p).att = .attaching → (s.part p).grace = true → resume = false → bit (word ws 1) 8 = true →
       s.bindingOk p (s.part p).bus (s.part p).lane = true →
       ring = 0xFF ∨ (∃ r, (declare ws []).get? ring = some r ∧ takes r) → Gives (.attach p) s fun t =>
         (t.part p).att = .attached ∧ (t.part p).grace = false ∧ (t.part p).session = false ∧ (t.part p).regions = declare ws [] ∧
         (t.part p).roleReq = fld (word ws 1) 0 8 ∧ (t.part p).sub = defaultSub s p ∧ t.st.lock ≠ some p.val ∧
         (∀ e ∈ t.st.stage, e.2.part ≠ p.val) ∧ Ended s t p false OK 0 0 s.tickNo []))

/-- Sessions (R88), for partitions of at least OPERATOR role whose access record allows them. Phase 1 answers the salt and a fresh
nonce of free bytes, or NO_SEAL; a right proof opens the session and clears the count of wrong ones; a wrong proof counts, and the
fifth starts the lockout, in which every proof is refused; the lockout's end clears it; SESSION_CLOSE and the idle time end the
session. -/
def Obligations.SessionRows : Prop :=
  ∀ (s : State) (p : Part) (ws : List Word),
    (Served s p false .normal 0x0011 ws →
      let own := (List.range 32).map fun i => Config.nonceByte s.free i
      let proof := wordBytes ((ws.drop 2).take 4)
      let allowed := 2 ≤ s.roleOf p ∧ ∀ r, s.accRec p = some r → bit (r.u 0x0A 1) 0 = true
      let right := ∃ salt v salt2 v2 n, passwordSeal s = some (salt, v) ∧ s.sk.pw = some (salt2, v2) ∧ (s.part p).nonce = some n ∧
        (hmac256 v (n ++ leBytes p 1)).take 16 = proof ∧ (hmac256 v2 (n ++ leBytes p 1)).take 16 = proof
      (¬ allowed → exec (.sessionOpen p) s = .next (answer s p false ROLE_DENIED (s.roleOf p))) ∧
      (allowed → word ws 1 = 1 → ws.length = 2 →
        (∀ salt v, passwordSeal s = some (salt, v) → Gives (.sessionOpen p) s fun t =>
          (t.part p).nonce = some own ∧ t.free = s.free + 1 ∧ Ended s t p false OK 0 0 s.tickNo (bytesWords (salt ++ own))) ∧
        (passwordSeal s = none → exec (.sessionOpen p) s = .next (answer s p false NO_SEAL))) ∧
      (allowed → word ws 1 = 2 → ws.length = 6 →
        (s.st.lockout = true → exec (.sessionOpen p) s =
          .next (answer s p false AUTH_LOCKOUT (60 - min 60 ((s.grid.mono - s.st.lockoutAt) / 1000000000)))) ∧
        (s.st.lockout = false → right → Gives (.sessionOpen p) s fun t => (t.part p).session = true ∧ (t.part p).nonce = none ∧
          t.st.wrongProofs = 0 ∧ Ended s t p false OK 0 0 s.tickNo []) ∧
        (s.st.lockout = false → ¬ right → Gives (.sessionOpen p) s fun t => (t.part p).session = (s.part p).session ∧
          (t.part p).nonce = none ∧ t.st.wrongProofs = s.st.wrongProofs + 1 ∧ t.st.lockout = decide (5 ≤ s.st.wrongProofs + 1) ∧
          (5 ≤ s.st.wrongProofs + 1 → t.st.lockoutAt = s.grid.mono) ∧
          Ended s t p false AUTH_FAILED (s.st.wrongProofs + 1) 0 s.tickNo []))) ∧
    (Served s p false .normal 0x0012 ws →
      ((s.part p).session = true → Gives (.sessionClose p) s fun t =>
        (t.part p).session = false ∧ (t.part p).nonce = none ∧ Ended s t p false OK 0 0 s.tickNo []) ∧
      ((s.part p).session = false → exec (.sessionClose p) s = .next (answer s p false AUTH_REQUIRED))) ∧
    ((s.part p).session = true → Becomes (.sessionIdleTimeout p) s (s.updPart p fun q => { q with session := false, nonce := none })) ∧
    ((s.part p).session = false → exec (.sessionIdleTimeout p) s = .next s) ∧
    (s.st.lockout = true → exec .authLockoutEnd s = .next (s.updSt fun t => { t with lockout := false, wrongProofs := 0 })) ∧
    (s.st.lockout = false → exec .authLockoutEnd s = .next s)

/-- The configuration lock (R86), for the partitions that may own it: any before an access list, then those of MAX_ROLE 3. A free
lock is taken, and a held one is refused to TAKE = 0 with its holder; TAKE = 1 needs a session, and takes a held lock from its
holder, whose staged loop words go; the holder releases the lock, and anyone else is refused. (That TAKE = 1 on a free lock needs
a session too is the model's choice, log entry 113, and so is the status ROLE_DENIED.) -/
def Obligations.LockRows : Prop :=
  ∀ (s : State) (p : Part) (ws : List Word),
    (Served s p false .normal 0x0013 ws →
      (word ws 1 / 2 ≠ 0 → exec (.lockAcquire p) s = .next (answer s p false BAD_FIELD 4)) ∧
      (word ws 1 / 2 = 0 → s.st.access ≠ none → s.maxRole p ≠ 3 →
        exec (.lockAcquire p) s = .next (answer s p false ROLE_DENIED (s.roleOf p))) ∧
      (word ws 1 / 2 = 0 → s.st.access = none ∨ s.maxRole p = 3 →
        let take := bit (word ws 1) 0
        (s.st.lock = none → take = false ∨ (s.part p).session = true → Gives (.lockAcquire p) s fun t =>
          t.st.lock = some p.val ∧ Ended s t p false OK 0 0 s.tickNo []) ∧
        (take = true → (s.part p).session = false → exec (.lockAcquire p) s = .next (answer s p false AUTH_REQUIRED)) ∧
        (∀ h, s.st.lock = some h → take = false → exec (.lockAcquire p) s = .next (answer s p false LOCK_HELD h)) ∧
        (∀ h, s.st.lock = some h → take = true → (s.part p).session = true → s.maxRole p ≠ 3 →
          exec (.lockAcquire p) s = .next (answer s p false ROLE_DENIED (s.roleOf p))) ∧
        (s.st.lock = some p.val → take = true → (s.part p).session = true → s.maxRole p = 3 →
          exec (.lockAcquire p) s = .next (answer s p false OK)) ∧
        (∀ h, s.st.lock = some h → h ≠ p.val → take = true → (s.part p).session = true → s.maxRole p = 3 →
          Gives (.lockAcquire p) s fun t => t.st.lock = some p.val ∧ t.st.loopStage = [] ∧ Ended s t p false OK 0 0 s.tickNo []))) ∧
    (Served s p false .normal 0x0014 ws →
      (s.st.lock = some p.val → Gives (.lockRelease p) s fun t =>
        t.st.lock = none ∧ t.st.loopStage = [] ∧ Ended s t p false OK 0 0 s.tickNo []) ∧
      (s.st.lock ≠ some p.val → exec (.lockRelease p) s = .next (answer s p false LOCK_REQUIRED)))

/-- EVENT_SUBSCRIBE takes a mask for the next edge and answers with that edge's tick; EVENT_READ answers the entries asked for, at
most those between FIRST and the head, and refuses a FIRST that has left the ring, a COUNT outside 1 to 14 and reserved bits
(R94, R95). -/
def Obligations.EventRows : Prop :=
  ∀ (s : State) (p : Part) (ws : List Word),
    (Served s p false .normal 0x0015 ws → exec (.eventSubscribe p) s =
      .next (respond (s.updPart p fun q => { q with subNext := some (BitVec.ofNat 256 (leNat (wordBytes ((ws.drop 1).take 8)))) })
        p false OK 0 0 ((s.grid.tick + 1) % 2 ^ 32))) ∧
    (Served s p false .normal 0x0016 ws →
      let first := fld (word ws 1) 0 16
      let avail := ((s.part p).head + 65536 - first) % 65536
      let count := fld (word ws 1) 16 8
      let good := 1 ≤ count ∧ count ≤ 14
      (1024 < avail → exec (.eventRead p) s = .next (answer s p false BAD_FIELD 4 (s.part p).head)) ∧
      (avail ≤ 1024 → ¬ good → exec (.eventRead p) s = .next (answer s p false BAD_FIELD 6)) ∧
      (avail ≤ 1024 → good → fld (word ws 1) 24 8 ≠ 0 → exec (.eventRead p) s = .next (answer s p false BAD_FIELD 7)) ∧
      (avail ≤ 1024 → good → fld (word ws 1) 24 8 = 0 → exec (.eventRead p) s =
        .next (answer s p false OK (min count avail) (s.part p).head
          ((List.range (min count avail)).flatMap fun i => entryWords (s.part p) ((first + i) % 65536)))))

/-- Staging (R89 to R91): CONFIG_BEGIN opens an empty area of the length asked for, a multiple of 4 within the target's staging
size; CONFIG_ABORT closes it; a CONFIG_CHUNK inside an open area whose descriptor is good starts the transfer that fills it. All
three are the lock holder's alone. -/
def Obligations.StagingRows : Prop :=
  ∀ (s : State) (p : Part) (ws : List Word),
    (Served s p false .normal 0x0020 ws →
      (s.st.lock ≠ some p.val → exec (.configBegin p) s = .next (answer s p false LOCK_REQUIRED)) ∧
      (s.st.lock = some p.val → targetOk (word ws 1) = false → exec (.configBegin p) s = .next (answer s p false BAD_FIELD 4)) ∧
      (s.st.lock = some p.val → targetOk (word ws 1) = true →
        (word ws 2 % 4 ≠ 0 → exec (.configBegin p) s = .next (answer s p false BAD_FIELD 8)) ∧
        (word ws 2 % 4 = 0 → word ws 2 ≤ stagingSize (word ws 1) → exec (.configBegin p) s =
          .next (answer (s.updSt fun st => { st with stage := st.stage.set (word ws 1) ⟨p, word ws 2, [], []⟩ }) p false OK)) ∧
        (word ws 2 % 4 = 0 → stagingSize (word ws 1) < word ws 2 →
          exec (.configBegin p) s = .next (answer s p false STAGING_FULL (stagingSize (word ws 1)))))) ∧
    (Served s p false .normal 0x0023 ws →
      (s.st.lock ≠ some p.val → exec (.configAbort p) s = .next (answer s p false LOCK_REQUIRED)) ∧
      (s.st.lock = some p.val → targetOk (word ws 1) = false → exec (.configAbort p) s = .next (answer s p false BAD_FIELD 4)) ∧
      (s.st.lock = some p.val → targetOk (word ws 1) = true → exec (.configAbort p) s =
        .next (answer (s.updSt fun st => { st with stage := st.stage.erase (word ws 1) }) p false OK))) ∧
    (Served s p false .bulk 0x0021 ws →
      (s.st.lock ≠ some p.val → exec (.configChunk p) s = .next (answer s p false LOCK_REQUIRED)) ∧
      (s.st.lock = some p.val →
        let t := fld (word ws 1) 0 8
        let off := word ws 2
        let len := word ws 3
        let r := fld (word ws 4) 0 8
        targetOk t = true → word ws 1 / 256 = 0 → off % 4 = 0 → len % 4 = 0 → 4 ≤ len → len ≤ 16777216 →
        (s.st.stage.get? t = none → exec (.configChunk p) s = .next (answer s p false NO_STAGING)) ∧
        (∀ a, s.st.stage.get? t = some a → a.total < off + len → exec (.configChunk p) s = .next (answer s p false BAD_FIELD 0x0C)) ∧
        (∀ a, s.st.stage.get? t = some a → off + len ≤ a.total → regionOk r = true → word ws 4 / 256 = 0 → regionOffOk r (word ws 5) = true →
          (∀ st, descBad s p r (word ws 5) len 0 = some st → exec (.configChunk p) s = .next (answer s p false st r)) ∧
          (descBad s p r (word ws 5) len 0 = none → Gives (.configChunk p) s fun u =>
            (u.mbox p false).phase = .running ∧ (u.mbox p false).xfer = some (.chunk t off len r (word ws 5)) ∧
            (u.mbox p false).bytes = 0 ∧ (u.mbox p false).resp = respBytes RUNNING (s.mbox p false).seq 0 0 0 [] ∧
            u.st = s.st ∧ OthersSame s u p))))

/-! Commit (03) -/

/-- CONFIG_COMMIT, its confirmation and its application (R41, R77, R78, R91). A commit of an open staging area starts its
validation: an image of at most 4 KiB is validated at once, a longer one from 4 KiB boundary to boundary, and the last one ends
it. A validated image waits: confirmed at once without a standby lane (target 3 is SK-1's), by the standby lane's confirmation, or
8 ticks later, when the standby lane goes OFFLINE. A rejected one is answered with its check's status, and nothing waits. At the
first edge after the confirmation the image is applied: the configuration, the program or the access list is that image, and the
commit and its staging area are gone; an application that is blocked by then ends the commit and leaves all three. -/
def Obligations.CommitRows : Prop :=
  let ends (c : Instr) (s u : State) (p : Part) (t : Nat) (a : StageArea) (session : Bool) : Prop :=
    (∀ r, commitState u t = some r → exec c s = .next (answer u p false r.status r.d0 r.d1 r.data)) ∧
    (commitState u t = none →
      (∀ d0 r, validateImage u p t a session = (d0, some r) → exec c s = .next (answer u p false r.status r.d0 r.d1 r.data)) ∧
      (∀ d0, validateImage u p t a session = (d0, none) → exec c s =
        let m : Commit := { part := p, target := t, image := a.bytes.readN 0 a.total, tick := u.grid.tick,
                            confirmed := t != 3 && u.standbyLane.isNone, confTick := u.grid.tick, detail0 := d0,
                            forwarded := false, session := session }
        .next ((u.updSt fun x => { x with commit := some m }).updMb p false fun m => { m with phase := .waiting, xfer := none })))
  (∀ (s : State) (p : Part) (ws : List Word), Served s p false .bulk 0x0022 ws → s.st.commit = none →
    (s.st.lock ≠ some p.val → exec (.configCommit p) s = .next (answer s p false LOCK_REQUIRED)) ∧
    (s.st.lock = some p.val → targetOk (word ws 1) = false → exec (.configCommit p) s = .next (answer s p false BAD_FIELD 4)) ∧
    (s.st.lock = some p.val → targetOk (word ws 1) = true →
      (s.st.stage.get? (word ws 1) = none → exec (.configCommit p) s = .next (answer s p false NO_STAGING)) ∧
      (∀ a, s.st.stage.get? (word ws 1) = some a →
        let u := beginXfer s p false (.validate (word ws 1) a.total (s.part p).session)
        (a.total ≤ 4096 → ends (.configCommit p) s u p (word ws 1) a (s.part p).session) ∧
        (4096 < a.total → exec (.configCommit p) s = .next u ∧ (u.mbox p false).bytes = 0 ∧
          (u.mbox p false).xfer = some (.validate (word ws 1) a.total (s.part p).session))))) ∧
  (∀ (s : State) (p : Part) (t n : Nat) (session : Bool), s.st.bulkQueue.head? = some p.val →
    (s.part p).main.xfer = some (.validate t n session) → (s.part p).main.phase = .running → (s.part p).main.preempted = false →
    (s.part p).main.atBoundary 4096 = true → urgentBusy s = false → (s.part p).att ≠ .detaching →
    let u := s.updMb p false fun m => { m with prev := m.bytes, bytes := min n (m.bytes + 4096) }
    ((s.part p).main.bytes + 4096 < n → exec .bulkBoundary s = .next (progress u p false RUNNING)) ∧
    (n ≤ (s.part p).main.bytes + 4096 →
      (∀ a, s.st.stage.get? t = some a → ends .bulkBoundary s u p t a session) ∧
      (s.st.stage.get? t = none → exec .bulkBoundary s = .next (answer u p false NO_STAGING)))) ∧
  (∀ s : State, (awaitsConfirm s = none ∨ s.standbyLane = none → exec .commitConfirm s = .next s) ∧
    (awaitsConfirm s = none → exec .commitConfirmTimeout s = .next s) ∧
    ∀ c, s.st.commit = some c → c.target ≠ 3 → c.confirmed = false → s.st.ends.s = none →
      let done := s.updSt fun t => { t with commit := some { c with confirmed := true, confTick := s.grid.tick } }
      (∀ l, s.standbyLane = some l → exec .commitConfirm s = .next done) ∧
      (s.grid.tick < c.tick + 8 → exec .commitConfirmTimeout s = .next s) ∧
      (c.tick + 8 ≤ s.grid.tick →
        (∀ l, s.standbyLane = some l → exec .commitConfirmTimeout s = .next (goOffline done l .notConfirmed)) ∧
        (s.standbyLane = none → exec .commitConfirmTimeout s = .next done))) ∧
  (∀ s : State, (s.st.commit = none ∨ s.activeLane = none → exec .configApply s = .next s) ∧
    ∀ c l, s.st.commit = some c → s.activeLane = some l → c.target ≠ 3 → c.confirmed = true → c.confTick < s.grid.tick →
      (s.lane l).swapTick ≠ some s.grid.tick →
      (∀ r, applyBlocked s c = some r → Gives .configApply s fun t => t.st.commit = none ∧ t.st.prog = s.st.prog ∧
        t.st.cfgImage = s.st.cfgImage ∧ t.st.accessImage = s.st.accessImage) ∧
      (applyBlocked s c = none → Gives .configApply s fun t =>
        t.st.commit = none ∧ t.st.stage.get? c.target = none ∧
        (c.target = 1 → t.st.cfgImage = c.image ∧ t.st.prog = s.st.prog ∧ t.st.accessImage = s.st.accessImage) ∧
        (c.target = 2 → t.st.prog = some c.image ∧ t.st.cfgImage = s.st.cfgImage ∧ t.st.accessImage = s.st.accessImage) ∧
        (c.target = 4 → t.st.accessImage = c.image ∧ t.st.access = some (recsOr (imageRecs c.image)) ∧ t.st.prog = s.st.prog ∧
          t.st.cfgImage = s.st.cfgImage)))

/-! Station commands (04) -/

/-- START (R119 to R121) and STOP (R93, R123), the lock holder's: from STOPPED with every image START makes the station RUNNING
from the tick after next, and answers that tick (the retained values wait for a capture that still stands before them, R200,
R209); STOP in RUNNING makes it STOPPED with its cause, its taking effect two ticks on, when its command ends; in another state
each is WRONG_STATE (for STOP the model's choice, log entry 118). STATUS_GET answers the status bytes and the number of the last
completed tick (R97), and before one has completed the present ones (log entry 116). SAFE_SHUTDOWN (R93, R494): an operator's
command is accepted at once and, from RUNNING, stops the station with cause 3; a station that is not RUNNING goes on to the end of
the sequence; while a power-fail sequence runs it is WRONG_STATE (log entry 118). -/
def Obligations.StationRows : Prop :=
  (∀ (s : State) (p : Part) (ws : List Word),
     (Served s p false .normal 0x0030 ws →
       (s.st.lock ≠ some p.val → exec (.start p) s = .next (answer s p false LOCK_REQUIRED)) ∧
       (s.st.lock = some p.val → s.st.phase = .stopped → missingImages s = 0 → Gives (.start p) s fun t =>
         t.st.phase = .running ∧ t.st.startAt = some (s.grid.tick + 2) ∧ t.st.stopCause = 0 ∧ t.st.stopArg = 0 ∧ t.st.shut = false ∧
         t.st.restoreDue = (stopCapturePending s || patchCapturePending s) ∧ Ended s t p false OK 0 0 ((s.grid.tick + 2) % 2 ^ 32) []) ∧
       (s.st.lock = some p.val → s.st.phase ≠ .stopped ∨ missingImages s ≠ 0 →
         exec (.start p) s = .next (answer s p false WRONG_STATE s.st.phase.code (missingImages s)))) ∧
     (Served s p true .urgent 0x0031 ws →
       (s.st.lock ≠ some p.val → exec (.stop p) s = .next (answer s p true LOCK_REQUIRED)) ∧
       (s.st.lock = some p.val → s.st.phase = .running → Becomes (.stop p) s ((s.updSt fun t =>
         { t with phase := .stopped, stopCause := 1, stopArg := p, stopAt := some (s.grid.tick + 2) }).updMb p true
           fun m => { m with phase := .waiting })) ∧
       (s.st.lock = some p.val → s.st.phase ≠ .running → exec (.stop p) s = .next (answer s p true WRONG_STATE s.st.phase.code))) ∧
     (Served s p false .normal 0x0017 ws →
       (∀ k bs, s.st.lastStatus = some (k, bs) → exec (.statusGet p) s = .next (respond s p false OK 0 0 k (bytesWords bs))) ∧
       (s.st.lastStatus = none →
         exec (.statusGet p) s = .next (respond s p false OK 0 0 (lastTick s) (bytesWords (statusBytes s)))))) ∧
  (∀ (s : State) (p : Part) (ws : List Word), Served s p true .urgent 0x0033 ws →
     (s.roleOf p < 2 → exec (.safeShutdown p) s = .next (answer s p true ROLE_DENIED (s.roleOf p))) ∧
     (2 ≤ s.roleOf p → s.st.pfStep ≠ 0 → exec (.safeShutdown p) s = .next (answer s p true WRONG_STATE s.st.phase.code)) ∧
     (2 ≤ s.roleOf p → s.st.pfStep = 0 →
       let tick := (s.grid.tick + 2) % 2 ^ 32
       (s.st.phase = .running → Gives (.safeShutdown p) s fun t =>
         t.st.phase = .stopped ∧ t.st.stopCause = 3 ∧ t.st.stopArg = p ∧ t.st.stopAt = some (s.grid.tick + 2) ∧ t.st.pfStep = 2 ∧
         t.st.shut = true ∧ Ended s t p true ACCEPTED 0 0 tick []) ∧
       (s.st.phase ≠ .running → s.svc.sup.feedA = true → s.svc.sup.feedB = true → Gives (.safeShutdown p) s fun t =>
         t.st.phase = s.st.phase ∧ t.st.pfStep = 0 ∧ t.st.shut = true ∧ Ended s t p true ACCEPTED 0 0 tick []) ∧
       (s.st.phase ≠ .running → s.svc.sup.feedA = false → s.svc.sup.feedB = false → Gives (.safeShutdown p) s fun t =>
         t.st.phase = s.st.phase ∧ t.st.pfStep = 5 ∧ t.st.shut = true ∧ Ended s t p true ACCEPTED 0 0 tick [])))

/-! Data commands (03, 08, 11, 18) -/

/-- IMAGE_READ (R96) with good fields answers bytes of the image frozen at the last output cut-off, in the response or as a transfer
to a region; the loop commands (R237, R240, R241) with good fields are held for the loop engine's next pass, and words staged with
HOLD are answered at once; a symbol patch (R92, R207, R208) that every check accepts joins the batches with the tick at which it is
applied, and is answered with that tick, the first check that fails answers its status, and a list in a region is fetched first. -/
def Obligations.DataRows : Prop :=
  ∀ (s : State) (p : Part) (ws : List Word),
    (Served s p false .normal 0x0043 ws → word ws 1 % 4 = 0 → word ws 2 % 4 = 0 → 4 ≤ word ws 2 →
      let bs := frozenBytes s (word ws 1) (word ws 2)
      let r := fld (word ws 3) 0 8
      (ws.length = 3 → word ws 2 ≤ 112 →
        (addrOk s (word ws 1) (word ws 2) = true → exec (.imageRead p) s =
          .next (respond s p false OK 0 0 (lastTick s) (bytesWords bs))) ∧
        (addrOk s (word ws 1) (word ws 2) = false → exec (.imageRead p) s = .next (answer s p false BAD_FIELD 4))) ∧
      (ws.length = 5 → word ws 2 ≤ 65536 → addrOk s (word ws 1) (word ws 2) = true → regionOk r = true → word ws 3 / 256 = 0 →
        regionOffOk r (word ws 4) = true →
        (descBad s p r (word ws 4) (word ws 2) 1 = none → exec (.imageRead p) s =
          .next (beginXfer s p false (.toHost bs r (word ws 4) 0 (lastTick s) [] false))) ∧
        (∀ st, descBad s p r (word ws 4) (word ws 2) 1 = some st → exec (.imageRead p) s = .next (answer s p false st r)))) ∧
    (Served s p true .urgent 0x0041 ws →
      let n := fld (word ws 1) 0 8
      let mode := fld (word ws 1) 8 2
      (s.roleOf p < 2 → exec (.loopMode p) s = .next (answer s p true ROLE_DENIED (s.roleOf p))) ∧
      (2 ≤ s.roleOf p → s.cfgRec 0x0801 n = none → exec (.loopMode p) s = .next (answer s p true BAD_FIELD 4)) ∧
      (2 ≤ s.roleOf p → ∀ r, s.cfgRec 0x0801 n = some r → mode ≠ 3 → fld (word ws 1) 10 22 = 0 →
        (bit (r.u 8 2) 6 = false → exec (.loopMode p) s = .next (answer s p true ROLE_DENIED (s.roleOf p))) ∧
        (bit (r.u 8 2) 6 = true → s.st.phase ≠ .running → exec (.loopMode p) s = .next (answer s p true WRONG_STATE s.st.phase.code)) ∧
        (bit (r.u 8 2) 6 = true → s.st.phase = .running → exec (.loopMode p) s =
          .next ((s.updSt fun t => { t with loopModes := t.loopModes ++ [{ part := p, loop := n, mode := mode, tick := nextPass s }] }).updMb p true
            fun m => { m with phase := .waiting })))) ∧
    (Served s p false .normal 0x0042 ws →
      let n := fld (word ws 1) 0 8
      let off := fld (word ws 1) 16 16
      (s.st.lock ≠ some p.val → exec (.loopParam p) s = .next (answer s p false LOCK_REQUIRED)) ∧
      (s.st.lock = some p.val → ∀ r, s.cfgRec 0x0801 n = some r → fld (word ws 1) 9 7 = 0 → 0x54 ≤ off → off % 4 = 0 →
        off + 4 * (paramWords ws).length ≤ 0x118 → (∀ w ∈ paramWords ws, paramWordBad w.1 w.2 = none) →
        let merged := mergeWords (s.st.loopStage.get n []) (paramWords ws)
        (bit (word ws 1) 8 = true → exec (.loopParam p) s =
          .next (answer (s.updSt fun t => { t with loopStage := t.loopStage.set n merged }) p false OK)) ∧
        (bit (word ws 1) 8 = false → paramInconsistent (withWords r merged) = none → exec (.loopParam p) s =
          .next ((s.updSt fun t =>
            { t with loopParams := t.loopParams ++ [{ part := p, loop := n, words := merged, tick := nextPass s }] }).updMb p false
            fun m => { m with phase := .waiting })) ∧
        (∀ o, bit (word ws 1) 8 = false → paramInconsistent (withWords r merged) = some o →
          exec (.loopParam p) s = .next (answer s p false BAD_RECORD o)))) ∧
    (Served s p true .urgent 0x0040 ws →
      let n := fld (word ws 1) 0 8
      let src := fld (word ws 1) 8 8
      let items := patchItems ((wordBytes ws).drop 12) n
      (s.roleOf p < 2 → exec (.valuePatch p) s = .next (answer s p true ROLE_DENIED (s.roleOf p))) ∧
      (2 ≤ s.roleOf p → (∀ o, patchFields ws = some o → exec (.valuePatch p) s = .next (answer s p true BAD_FIELD o)) ∧
        (patchFields ws = none → src ≠ 0xFE →
          (descBad s p src (word ws 2) (12 * n) 0 = none →
            exec (.valuePatch p) s = .next (beginXfer s p true (.patches n src (word ws 2)))) ∧
          (∀ st, descBad s p src (word ws 2) (12 * n) 0 = some st → exec (.valuePatch p) s = .next (answer s p true st src))) ∧
        (patchFields ws = none → src = 0xFE → ∀ img, s.st.prog = some img →
          (∀ i r, i < items.length → (∀ j, j < i → patchBad s img (s.roleOf p) j items = none) →
            patchBad s img (s.roleOf p) i items = some r → exec (.valuePatch p) s = .next (answer s p true r.status r.d0 r.d1)) ∧
          (∀ t, (∀ i, i < items.length → patchBad s img (s.roleOf p) i items = none) →
            ((symDefs img).find? fun y => y.no == (items.getD 0 (0, [])).1).bind (fun y => s.taskDef y.level) = some t →
            Gives (.valuePatch p) s fun u =>
              u.st.batches = s.st.batches ++ [⟨p, (s.part p).urg.order, t.level, dueTick s t, items⟩] ∧
              Ended s u p true OK 0 0 (dueTick s t % 2 ^ 32) []))))

/-- The commands that start a transfer to the host (R318, R470, R477): with good fields and a region that takes the data, the main
mailbox runs that transfer: recorder slots from FIRST on, at most what is written; flow statistics; bytes of the retained bank that
SELECT names. A sequence that is gone is RANGE_GONE with the oldest one; without the service domain the recorder's commands end
RECORDER_DOWN; a bank that holds nothing valid is BAD_FIELD; RETAINED_READ is the lock holder's. -/
def Obligations.TransferRows : Prop :=
  ∀ (s : State) (p : Part) (ws : List Word),
    (Served s p false .bulk 0x0050 ws → fld (word ws 2) 16 16 = 0 → 1 ≤ word ws 3 → word ws 3 ≤ ringSlots →
      let r := fld (word ws 4) 0 8
      regionOk r = true → word ws 4 / 256 = 0 → regionOffOk r (word ws 5) = true →
      let first := word ws 1 + fld (word ws 2) 0 16 * 2 ^ 32
      let old := oldestSeq s.svc.rcd
      (s.svc.up = false → exec (.recorderRead p) s = .next (answer s p false RECORDER_DOWN)) ∧
      (s.svc.up = true → first < old → exec (.recorderRead p) s = .next (answer s p false RANGE_GONE (old % 2 ^ 32) (old / 2 ^ 32))) ∧
      (s.svc.up = true → old ≤ first →
        (∀ st, descBad s p r (word ws 5) (64 * word ws 3) 1 = some st → exec (.recorderRead p) s = .next (answer s p false st r)) ∧
        (descBad s p r (word ws 5) (64 * word ws 3) 1 = none → exec (.recorderRead p) s = .next (beginXfer s p false
          (.slots first (min (word ws 3) (s.svc.rcd.next - first)) r (word ws 5)))))) ∧
    (Served s p false .bulk 0x0052 ws → word ws 1 / 65536 = 0 → regionOk (word ws 2) = true → regionOffOk (word ws 2) (word ws 3) = true →
      let first := fld (word ws 1) 0 8
      let n := min (fld (word ws 1) 8 8 + 1) (256 - first)
      (∀ st, descBad s p (word ws 2) (word ws 3) (64 * n) 1 = some st → exec (.flowStats p) s = .next (answer s p false st (word ws 2))) ∧
      (descBad s p (word ws 2) (word ws 3) (64 * n) 1 = none → exec (.flowStats p) s = .next (beginXfer s p false
        (.toHost ((List.range n).flatMap fun i => flowStat s s.mainLane (first + i)) (word ws 2) (word ws 3) 0 s.tickNo [] false)))) ∧
    (Served s p false .bulk 0x0053 ws →
      let sel := fld (word ws 1) 0 2
      let r := fld (word ws 1) 8 8
      let bank := if sel = 0 then s.svc.rcd.offered.map (fun i => bankOf s.svc.rcd i.val) else some (bankOf s.svc.rcd (sel - 1))
      (s.st.lock ≠ some p.val → exec (.retainedRead p) s = .next (answer s p false LOCK_REQUIRED)) ∧
      (s.st.lock = some p.val → sel < 3 → fld (word ws 1) 2 6 = 0 → regionOk r = true → word ws 1 / 65536 = 0 → word ws 2 % 4 = 0 →
        word ws 3 % 4 = 0 → 4 ≤ word ws 3 → word ws 3 ≤ 16777280 → regionOffOk r (word ws 4) = true →
        (s.svc.up = false → exec (.retainedRead p) s = .next (answer s p false RECORDER_DOWN)) ∧
        (s.svc.up = true → (∀ b, bank = some b → b.valid = false) → exec (.retainedRead p) s = .next (answer s p false BAD_FIELD 4)) ∧
        (∀ b, s.svc.up = true → bank = some b → b.valid = true →
          (64 + b.payload.length < word ws 2 + word ws 3 → exec (.retainedRead p) s = .next (answer s p false BAD_FIELD 8)) ∧
          (word ws 2 + word ws 3 ≤ 64 + b.payload.length →
            (∀ st, descBad s p r (word ws 4) (word ws 3) 1 = some st → exec (.retainedRead p) s = .next (answer s p false st r)) ∧
            (descBad s p r (word ws 4) (word ws 3) 1 = none → exec (.retainedRead p) s = .next (beginXfer s p false
              (.toHost (((bankBytes b).drop (word ws 2)).take (word ws 3)) r (word ws 4) 0 s.tickNo [b.seq] true)))))))

/-! Bulk transfers and THL (03) -/

/-- Bulk transfers (R77, R83, R90, R98 to R100). At a 4 KiB boundary a transfer from the host is held while an urgent command
stands in any mailbox, a held one goes on when none does, and one of a partition that is detaching ends DETACHED; a completion
adds its bytes to the staging area of a chunk; in either mailbox a failed completion and a 50 ms silence end a DMA command with
DMA_FAULT and the bytes that had moved. -/
def Obligations.BulkRows : Prop :=
  (∀ (s : State) (p : Part) (x : Xfer), (s.part p).main.xfer = some x → (s.part p).main.busy = true → (s.part p).main.phase = .running →
    (s.st.bulkQueue.head? = some p.val → x.isIn = true → (s.part p).main.atBoundary 4096 = true →
      ((s.part p).main.preempted = false → (s.part p).att = .detaching → Gives .bulkBoundary s fun t =>
        Ended s t p false DETACHED (s.part p).main.bytes 0 s.tickNo [] ∧ Emptied t p) ∧
      ((s.part p).main.preempted = false → (s.part p).att ≠ .detaching → (s.part p).main.bytes < x.size → urgentBusy s = true →
        Gives .bulkBoundary s fun t => (t.part p).main.preempted = true ∧ (t.part p).main.busy = true ∧
          (t.part p).main.bytes = (s.part p).main.bytes ∧
          (t.part p).main.resp = respBytes PREEMPTED (s.part p).main.seq (s.part p).main.bytes 0 0 [] ∧ OthersSame s t p) ∧
      ((s.part p).main.preempted = true → (s.part p).att ≠ .detaching → (s.part p).main.bytes < x.size → urgentBusy s = false →
        (∀ t n h, x ≠ .validate t n h) → Gives .bulkBoundary s fun t => (t.part p).main.preempted = false ∧
          (t.part p).main.busy = true ∧ (t.part p).main.bytes = (s.part p).main.bytes ∧
          (t.part p).main.resp = respBytes RUNNING (s.part p).main.seq (s.part p).main.bytes 0 0 [] ∧ OthersSame s t p)) ∧
    (∀ t off len r o a status data, (s.part p).main.preempted = false → x = .chunk t off len r o → r ≠ 0xFF →
      s.st.stage.get? t = some a → off + len ≤ a.total → data ≠ [] → data.length ≤ 512 →
      data.length ≤ 4096 - (s.part p).main.bytes % 4096 → (s.part p).main.bytes + data.length < len → (s.part p).att ≠ .detaching →
      urgentBusy s = false → Gives (.dmaCompletion p false true status data) s fun u =>
        u.st.stage.get? t = some (a.put (off + (s.part p).main.bytes) data) ∧
        (u.part p).main.bytes = (s.part p).main.bytes + data.length ∧ (u.part p).main.busy = true ∧ OthersSame s u p)) ∧
  (∀ (s : State) (p : Part) (urg : Bool) (x : Xfer), (s.mbox p urg).xfer = some x →
    let moved := if x.isIn then (s.mbox p urg).bytes else (s.mbox p urg).flushed
    ((s.mbox p urg).busy = true → (s.mbox p urg).phase = .running → (s.mbox p urg).preempted = false → x.isDma = true →
      (∀ status data, exec (.dmaCompletion p urg false status data) s = .next (answer s p urg DMA_FAULT moved status.toNat)) ∧
      exec (.dmaCompletionTimeout p urg) s = .next (answer s p urg DMA_FAULT moved 0xFFFFFFFF)) ∧
    (x.isDma = false → exec (.dmaCompletionTimeout p urg) s = .next s))

/-- The THL port (R101 to R103, R313). A message that PRP discards or the load limit sheds does nothing else. HELLO on a served
port with a base key opens a session whose identifier and nonce are free values and whose key derives from the nonces, and answers
its nonce in the session's first message; without a base key it is refused. A register message with a right tag and a fresh
sequence takes effect as that access, and a read is answered; a message of an unknown session does nothing; a wrong tag or an old
sequence is counted and discarded, and a wrong tag on data ends its command; data is taken in offset order and acknowledged; an
acknowledgement in order lets the next piece go; 200 ms of silence end the command. -/
def Obligations.ThlRows : Prop :=
  (∀ (s s1 : State) (p : Part) (rx : Rx) (l : LaneId) (nonce : List Byte) (pass : Bool),
    (thlServed s l = false → exec (.thlHello p rx l nonce) s = .next s) ∧
    (thlServed s l = true → thlIn s l p rx = (pass, s1) →
      (pass = false → exec (.thlHello p rx l nonce) s = .next s1) ∧
      (pass = true → thlBase s1 p = none → exec (.thlHello p rx l nonce) s = .next s1) ∧
      (∀ base, pass = true → thlBase s1 p = some base → Gives (.thlHello p rx l nonce) s fun t =>
        let own := (List.range nonce.length).map fun i => Config.nonceByte s1.free i
        let key := hkdf256 base (Config.thlSalt nonce own) Config.thlInfo
        t.free = s1.free + 1 ∧ ∃ v k prp, (t.part p).thl = some v ∧ v.lane = l ∧ v.high = 0 ∧ v.seen = [] ∧ v.sent = 1 ∧
          v.id = Config.freeNat s1.free % 2 ^ 32 ∧ v.key = key ∧
          t.out = s1.out ++ [.thl k prp p v.id 1 .hello own (thlTag v p 1 .hello own)]))) ∧
  (∀ (s s1 : State) (p : Part) (rx : Rx) (v : ThlSess) (sess seq : Nat) (tag : List Byte), (s.part p).thl = some v →
    thlIn s (s.thlLane v) p rx = (true, s1) →
    let d := setThl s1 p fun t => { t with discarded := t.discarded + 1 }
    let u := setThl s1 p fun t => takeSeq t seq
    (∀ addr,
      let j := thlCheck s1 p sess seq .regRead (leBytes addr 2) tag
      let r := hostRead u p .thl (u.thlLane v) addr 4 (skReady u)
      (j = .none → exec (.thlRegRead p rx sess seq addr tag) s = .next s1) ∧
      (j = .badTag ∨ j = .old → exec (.thlRegRead p rx sess seq addr tag) s = .next d) ∧
      (j = .good v → exec (.thlRegRead p rx sess seq addr tag) s = .next (thlSend r.2 p .regRead (leBytes addr 2 ++ leBytes r.1 4)))) ∧
    (∀ addr (w : Word) dt,
      let j := thlCheck s1 p sess seq .regWrite (leBytes addr 2 ++ leBytes w.toNat 4) tag
      (j = .none → exec (.thlRegWrite p rx sess seq addr w tag dt) s = .next s1) ∧
      (j = .badTag ∨ j = .old → exec (.thlRegWrite p rx sess seq addr w tag dt) s = .next d) ∧
      (j = .good v → exec (.thlRegWrite p rx sess seq addr w tag dt) s = .next (
        if decodeWindow addr = 0x008 then writeWinCtrl u p .thl (u.thlLane v) w.toNat
        else if viaOk u p .thl (u.thlLane v) then windowWrite u p (u.thlLane v) addr 4 w dt else u))) ∧
    (∀ cs off data,
      let j := thlCheck s1 p sess seq .data (leBytes cs 1 ++ leBytes off 4 ++ data) tag
      let acked := thlSend u p .ack (leBytes cs 1 ++ leBytes off 4)
      (j = .none → exec (.thlData p rx sess seq cs off data tag) s = .next s1) ∧
      (j = .old → exec (.thlData p rx sess seq cs off data tag) s = .next d) ∧
      (∀ urg, j = .badTag → thlMailbox d p cs true = some urg →
        exec (.thlData p rx sess seq cs off data tag) s = .next (answer d p urg THL_AUTH (seq % 2 ^ 32))) ∧
      (j = .badTag → thlMailbox d p cs true = none → exec (.thlData p rx sess seq cs off data tag) s = .next d) ∧
      (j = .good v → thlMailbox u p cs true = none → exec (.thlData p rx sess seq cs off data tag) s = .next u) ∧
      (∀ urg x, j = .good v → thlMailbox u p cs true = some urg → (u.mbox p urg).xfer = some x → (u.mbox p urg).preempted = false →
        (off + data.length ≤ (u.mbox p urg).bytes → exec (.thlData p rx sess seq cs off data tag) s = .next acked) ∧
        (off ≠ (u.mbox p urg).bytes → (u.mbox p urg).bytes < off + data.length →
          exec (.thlData p rx sess seq cs off data tag) s = .next u) ∧
        (off = (u.mbox p urg).bytes → data ≠ [] → data.length ≤ 1024 →
          exec (.thlData p rx sess seq cs off data tag) s = .next (takeIn acked p urg x data)))) ∧
    (∀ cs off,
      let j := thlCheck s1 p sess seq .ack (leBytes cs 1 ++ leBytes off 4) tag
      (j = .none → exec (.thlAck p rx sess seq cs off tag) s = .next s1) ∧
      (j = .badTag ∨ j = .old → exec (.thlAck p rx sess seq cs off tag) s = .next d) ∧
      (j = .good v → thlMailbox u p cs false = none → exec (.thlAck p rx sess seq cs off tag) s = .next u) ∧
      (∀ urg x, j = .good v → thlMailbox u p cs false = some urg → (u.mbox p urg).xfer = some x → (u.mbox p urg).preempted = false →
        (off ≠ (u.mbox p urg).flushed ∨ (u.mbox p urg).bytes = (u.mbox p urg).flushed →
          exec (.thlAck p rx sess seq cs off tag) s = .next u) ∧
        (off = (u.mbox p urg).flushed → (u.mbox p urg).bytes ≠ (u.mbox p urg).flushed →
          exec (.thlAck p rx sess seq cs off tag) s = .next (goOn (u.updMb p urg fun m => { m with flushed := m.bytes }) p urg x))))) ∧
  (∀ (s : State) (p : Part) (urg : Bool) (x : Xfer), (s.mbox p urg).xfer = some x → (s.mbox p urg).busy = true →
    (s.mbox p urg).phase = .running → (s.mbox p urg).preempted = false →
    (x.region.1 = 0xFF → exec (.thlStalled p urg) s =
      .next (answer s p urg THL_STALLED (if x.isIn then (s.mbox p urg).bytes else (s.mbox p urg).flushed))) ∧
    (x.region.1 ≠ 0xFF → exec (.thlStalled p urg) s = .next s))

/-! Start-up (04) -/

/-- Logic power-good and the start of a lane (R2, R53, R106, R517): from no feed the lane gets its feed; reset is released, and the
lane starts, only on carrier identity 0b1010; then its firmware brings the window up in role OFFLINE with nothing of start-up done,
and the windows that it carries, and with the other lane's windows down those of every detached partition, are at their reset values
but for a partition whose state is held. What a lane that stopped showed as failed, or SUSPECT, it shows again. -/
def Obligations.LanePowerRows : Prop :=
  ∀ (s : State) (l : LaneId),
    (∀ cid mv mac map, (s.lane l).feed = false → Gives (.logicPowerGood l cid mv mac map) s fun t =>
      t.lane l = { feed := true, phase := if cid = 0b1010#4 then .starting else .stopped, cidOk := decide (cid = 0b1010#4), mac := mac,
                   suspect := (s.lane l).suspect, feedCycled := true, lateBase := (s.lane l).lateBase, img := bareImage,
                   frozen := bareImage }) ∧
    (∀ cid mv mac map, (s.lane l).feed = true → exec (.logicPowerGood l cid mv mac map) s = .next s) ∧
    (∀ fw, (s.lane l).feed = true → (s.lane l).cidOk = true → (s.lane l).phase = .starting ∨ (s.lane l).phase = .stopped →
      let failed := (s.lane l).phase == .starting && (s.lane l).failStep != 0
      Gives (.windowUp l fw) s fun t =>
        t.lane l = { s.lane l with
          phase := .running, winUp := true, fw := fw, lit := true, role := .offline,
          health := if failed || (s.lane l).needCycle then .failed else if (s.lane l).suspect then .suspect else .good,
          cause := if failed then .startup else if (s.lane l).needCycle then (s.lane l).cause else .none,
          failStep := if failed then (s.lane l).failStep else 0, failCode := if failed then (s.lane l).failCode else 0,
          clkQual := false, rolesStep := false, startDone := false, beat := {}, clocks := {}, opp := {}, sent := none, endsSeen := none } ∧
        t.lane (other l) = s.lane (other l) ∧ t.st = s.st ∧
        ∀ p : Part, t.part p = if s.holdsRing p = false ∧ (if (s.part p).att = .detached then (s.lane (other l)).winUp = false
            else (s.part p).bus = .pcie ∧ (s.part p).lane = l) then
          { bus := (s.part p).bus, lane := (s.part p).lane, thl := (s.part p).thl } else s.part p) ∧
    (∀ fw, (s.lane l).feed = false ∨ (s.lane l).cidOk = false ∨ ((s.lane l).phase ≠ .starting ∧ (s.lane l).phase ≠ .stopped) →
      exec (.windowUp l fw) s = .next s)

/-- The steps of start-up (R22, R105 to R109, R112, R264): the clocks qualify with both counts in their ranges, or the step fails;
at the roles step a lane whose partner runs other firmware is FAILED with its event and settles nothing, one whose partner runs
the station stays as it is, Lane A asks for the token, and so does Lane B beside a FAILED partner; Lane B alone asks after 500 ms;
the first lane whose role is settled makes the station ready and STOPPED, and an acting lane whose partner is OFFLINE is SOLO; a
failed step, in start-up or as a lane leaves retention, leaves its lane OFFLINE and FAILED with the step and the code, its beacon
lit. -/
def Obligations.StartupRows : Prop :=
  (∀ (s : State) (l : LaneId),
    let v := s.lane l
    (∀ n k, v.phase = .running → v.clkQual = false →
      (tcxoPasses n = true → rcPasses k = true → exec (.clockQualification l n k) s = .next (s.updLane l fun v =>
        { v with clkQual := true, clocks := { v.clocks with src := .tcxo, tcxoGood := true, rcQual := true } })) ∧
      (tcxoPasses n = false ∨ rcPasses k = false → Becomes (.clockQualification l n k) s (s.updLane l fun v =>
        { v with role := .offline, cause := .startup, health := .failed, failStep := 4, failCode := Config.unnamedCode 17, tok := {},
                 lit := true }))) ∧
    (∀ n k, v.phase ≠ .running ∨ v.clkQual = true → exec (.clockQualification l n k) s = .next s) ∧
    (v.phase = .running → v.clkQual = true → v.rolesStep = false → v.cause ≠ .startup →
      (∀ w, v.beat.word = some w → w.fw ≠ v.fw → exec (.rolesStep l) s = .next (raise (s.updLane l fun v =>
          { v with rolesStep := true, cause := .firmware, health := .failed, needCycle := true, startDone := true, tok := {} })
        { src := 38, code := 4, data := w.fw % 2 ^ 32, lane := l, pay := leBytes v.fw 4 })) ∧
      (∀ w, v.beat.word = some w → w.fw = v.fw → w.role = 2 ∨ w.role = 3 →
        exec (.rolesStep l) s = .next (s.updLane l fun v => { v with rolesStep := true, startDone := true })) ∧
      (∀ asks : Bool, (v.beat.word = none ∧ asks = (l == .a)) ∨
          (∃ w, v.beat.word = some w ∧ w.fw = v.fw ∧ w.role ≠ 2 ∧ w.role ≠ 3 ∧ asks = (l == .a || w.health == 3)) →
        exec (.rolesStep l) s = .next (s.updLane l fun v =>
          { v with rolesStep := true, tok := if asks then { v.tok with asked := some .startUp, reply := none } else v.tok }))) ∧
    (v.phase ≠ .running ∨ v.clkQual = false ∨ v.rolesStep = true ∨ v.cause = .startup → exec (.rolesStep l) s = .next s) ∧
    (v.phase = .running → v.rolesStep = true → v.startDone = false →
      (s.st.ready = false → v.role ≠ .offline → Gives (.startupComplete l) s fun t =>
        t.st.ready = true ∧ t.st.phase = .stopped ∧ t.st.power.ps = .lit ∧ t.st.power.entering = none ∧ (t.lane l).startDone = true ∧
        (∀ x, s.activeLane = some x → (t.lane x).role = (if (s.lane (other x)).role = .offline then .solo else (s.lane x).role) ∧
          (t.lane (other x)).role = (s.lane (other x)).role) ∧
        (s.activeLane = none → ∀ x, (t.lane x).role = (s.lane x).role)) ∧
      (s.st.ready = true ∨ v.role = .offline →
        exec (.startupComplete l) s = .next (s.updLane l fun v => { v with startDone := true }))) ∧
    (∀ step code, v.startDone = false ∨ v.resumes = true → v.phase = .running ∨ v.phase = .starting →
      Becomes (.startupStepFail l step code) s (s.updLane l fun v =>
        { v with role := .offline, cause := .startup, health := .failed, failStep := step, failCode := code, tok := {}, lit := true })) ∧
    (∀ step code, v.startDone = true → v.resumes = false → exec (.startupStepFail l step code) s = .next s)) ∧
  (∀ s : State,
    let waits := waitsForRole s.b = true ∧ ∀ w, s.b.beat.word = some w → w.role ≠ 2 ∧ w.role ≠ 3
    (waits → exec .roleWaitTimeout s =
      .next (s.updLane .b fun v => { v with tok := { v.tok with asked := some .startUp, reply := none } })) ∧
    (¬ waits → exec .roleWaitTimeout s = .next s))

/-! Roles and redundancy (10) -/

/-- The two changes of role (R263, R280): a lane that goes OFFLINE has that role and the cause, runs no task, and an ACTIVE partner
becomes SOLO; a lane that takes over is SOLO, with no cause, its takeover tick begun and the next release of each of its tasks the
takeover period, and its partner's role is untouched. -/
def Obligations.RoleChanges : Prop :=
  ∀ (s : State) (l : LaneId),
    (∀ c, (s.lane l).role ≠ .offline →
      ((goOffline s l c).lane l).role = .offline ∧ ((goOffline s l c).lane l).cause = c ∧
      ((goOffline s l c).lane l).be.window = false ∧ (∀ e ∈ ((goOffline s l c).lane l).be.ctxs, e.2.phase = .dormant) ∧
      ((goOffline s l c).lane (other l)).role = if (s.lane (other l)).role = .active then .solo else (s.lane (other l)).role) ∧
    ((becomeSolo s l).lane l).role = .solo ∧ ((becomeSolo s l).lane l).cause = .none ∧ ((becomeSolo s l).lane l).takeover = true ∧
    (∀ e ∈ ((becomeSolo s l).lane l).be.ctxs, e.2.takePending = true) ∧
    ((becomeSolo s l).lane (other l)).role = (s.lane (other l)).role

/-- The partner's failure (R104, R263, R268, R269, R274, R279): declared once both counts are 2, from which an ACTIVE lane is SOLO
and a STANDBY lane asks for the token; a partner never heard of, or last shown OFFLINE, is only noted. At the grant edge the
STANDBY lane that holds the token becomes SOLO, and what the dead lane had not served is lost. One path at 2 while the other is
not, or a second group of the light character in a row that cannot be decoded, is a path fault, which makes a good lane DEGRADED
until it is restored; the heartbeats of a parked lane are not missed; an end not refreshed goes dark, but for a lane's that has
failed its start-up and goes on flashing (log entry 137). -/
def Obligations.PartnerRows : Prop :=
  ∀ (s : State) (l : LaneId),
    let v := s.lane l
    let degrade (h : Health) : Health := if h = .good then .degraded else h
    (2 ≤ v.beat.missBridge → 2 ≤ v.beat.missBeacon → v.beat.declared = false →
      ((∃ w, v.beat.word = some w ∧ w.role ≠ 0) →
        (v.role = .active → Becomes (.partnerFailureDeclared l) s (s.updLane l fun v =>
          { v with role := .solo, beat := { v.beat with declared := true } })) ∧
        (v.role = .standby → Gives (.partnerFailureDeclared l) s fun t =>
          (t.lane l).tok.asked = some .takeover ∧ (t.lane l).tok.reply = none ∧ (t.lane l).role = .standby ∧
          (t.lane l).beat.declared = true ∧ t.st.stage = s.st.stage) ∧
        (v.role = .solo ∨ v.role = .offline → exec (.partnerFailureDeclared l) s =
          .next (s.updLane l fun v => { v with beat := { v.beat with declared := true } }))) ∧
      ((∀ w, v.beat.word = some w → w.role = 0) → Becomes (.partnerFailureDeclared l) s (s.updLane l fun v =>
        { v with beat := { v.beat with declared := true } }))) ∧
    (v.beat.missBridge < 2 ∨ v.beat.missBeacon < 2 ∨ v.beat.declared = true → exec (.partnerFailureDeclared l) s = .next s) ∧
    (let holds := v.role = .standby ∧ v.tok.asked = some .takeover ∧
       (s.island s.st.referee).holder = some l
     (holds → Gives (.takeoverTick l) s fun t => (t.lane l).role = .solo ∧ (t.lane l).cause = .none ∧ (t.lane l).takeover = true ∧
       (t.lane l).tok.asked = none ∧ t.st.ends.s = none ∧ t.st.stage = [] ∧ t.st.loopModes = [] ∧ t.st.loopParams = []) ∧
     (¬ holds → exec (.takeoverTick l) s = .next s)) ∧
    (2 ≤ v.beat.missBridge → v.beat.missBeacon < 2 → v.beat.faultBridge = false → (s.lane (other l)).phase ≠ .parked →
      Becomes (.pathFault l .bridge) s (s.updLane l fun v =>
        { v with health := degrade v.health, beat := { v.beat with faultBridge := true } })) ∧
    ((s.lane (other l)).phase = .parked → exec (.pathFault l .bridge) s = .next s) ∧
    (2 ≤ v.beat.missBeacon → v.beat.missBridge < 2 → v.beat.faultBeacon = false →
      Becomes (.pathFault l .beacon) s (s.updLane l fun v =>
        { v with health := degrade v.health, beat := { v.beat with faultBeacon := true } })) ∧
    (∀ f x, decodeGroup f = some x → exec (.pathFault l (.group f)) s = .next (s.updLane l fun v => { v with beat := { v.beat with
      light := some x, undecodable := if v.beat.undecodable < 2 then 0 else v.beat.undecodable } })) ∧
    (∀ f, decodeGroup f = none → Becomes (.pathFault l (.group f)) s (s.updLane l fun v =>
      { v with health := if v.beat.undecodable = 1 then degrade v.health else v.health,
               beat := { v.beat with undecodable := v.beat.undecodable + 1 } })) ∧
    (v.beat.missBridge = 0 → v.beat.missBeacon = 0 → pathFaultSeen v = true →
      Becomes (.pathFault l .restored) s (s.updLane l fun v =>
        { v with health := if v.health = .degraded then .good else v.health,
                 beat := { v.beat with faultBridge := false, faultBeacon := false, undecodable := 0 } })) ∧
    exec (.beaconExtinguish l) s = .next (s.updLane l fun v =>
      { v with lit := v.lit && v.feed && v.phase == .starting && v.cause == .startup, hold := v.hold && v.feed })

/-- Heartbeat words (R22, R109, R263, R266, R277, R286, R434, R447 to R449): one with a bad CRC, or to a lane that does not run,
does nothing; a good one is kept. An ACTIVE lane past its start-up whose partner shows OFFLINE is SOLO; a lane whose role is not
settled and whose partner runs other firmware is FAILED; Lane B waiting for its role beside an ACTIVE partner is STANDBY; a
proposal of a change of ends is kept by the STANDBY lane, a confirmation of the present one confirms it; a word that closes a
snapshot lets it be applied; PARK sends the gate requests of the STANDBY lane's parking out; a parked lane stays parked while PARK
is set and leaves retention without it. A parked lane that has missed its partner's line in two groups, with no lane acting,
leaves retention and asks for the token with no images. -/
def Obligations.HeartbeatRows : Prop :=
  (∀ (s : State) (l : LaneId) (w : HbWord),
    let v := s.lane l
    let kept := s.updLane l fun v => { v with beat := { v.beat with word := some w } }
    let gate (u : State) := if bit w.hflags 5 then requestGates u l parkBlocks else u
    (exec (.heartbeatWord l w false) s = .next s) ∧
    (v.runs = false → v.phase ≠ .parked → exec (.heartbeatWord l w true) s = .next s) ∧
    (v.runs = true → (receives v = true → bit w.hflags 4 = false) →
      s.st.ends.s = none ∨ bit w.hflags 3 = false ∨ s.st.ends.confirmed = true →
      (v.role = .active → v.startDone = true → w.role = 0 → Becomes (.heartbeatWord l w true) s (s.updLane l fun v =>
        { v with role := .solo, beat := { v.beat with word := some w } })) ∧
      (v.role = .active → v.startDone = false ∨ w.role ≠ 0 → exec (.heartbeatWord l w true) s = .next kept) ∧
      (v.role = .solo → exec (.heartbeatWord l w true) s = .next kept) ∧
      (v.role = .standby → exec (.heartbeatWord l w true) s =
        .next (if bit w.hflags 2 then (gate kept).updLane l fun v => { v with endsSeen := some (w.endsTick % 2 ^ 32) } else gate kept)) ∧
      (unsettled v = true → w.fw ≠ v.fw → Becomes (.heartbeatWord l w true) s (s.updLane l fun v =>
        { v with cause := .firmware, health := .failed, needCycle := true, startDone := true, tok := {},
                 beat := { v.beat with word := some w } })) ∧
      (l = .b → waitsForRole v = true → w.fw = v.fw →
        (w.role = 2 → Becomes (.heartbeatWord l w true) s (s.updLane l fun v =>
          { v with role := .standby, cause := .none, beat := { v.beat with word := some w } })) ∧
        (w.role ≠ 2 → exec (.heartbeatWord l w true) s = .next (if w.health = 3 then kept.updLane l fun v =>
          { v with tok := { v.tok with asked := some .startUp, reply := none } } else kept)))) ∧
    (∀ sw, v.runs = true → v.role = .active ∨ v.role = .solo → v.startDone = false ∨ w.role ≠ 0 → s.st.ends.s = some sw →
      bit w.hflags 3 = true → w.endsTick % 2 ^ 32 = sw % 2 ^ 32 → s.st.ends.confirmed = false →
      Gives (.heartbeatWord l w true) s fun t => t.st.ends.confirmed = true ∧ t.st.ends.s = some sw ∧ t.st.ends.asked = [] ∧
        (t.lane l).beat.word = some w) ∧
    (v.runs = true → v.role = .standby → bit w.hflags 4 = true → bit w.hflags 2 = false →
      exec (.heartbeatWord l w true) s = .next (gate (applySnapshot
        (kept.updLane l fun v => { v with mirror := { v.mirror with closed := some (w.snapLen, w.snapCrc) } }) l))) ∧
    (v.phase = .parked → receives v = false → v.role = .offline →
      (bit w.hflags 5 = true → exec (.heartbeatWord l w true) s = .next kept) ∧
      (bit w.hflags 5 = false → Gives (.heartbeatWord l w true) s fun t => (t.lane l).phase = .running ∧ (t.lane l).hold = false ∧
        (t.lane l).winUp = true ∧ (t.lane l).role = v.role ∧ (t.lane l).opp.gated = []))) ∧
  (∀ (s : State) (l : LaneId),
    let wakes := (s.lane l).phase = .parked ∧ lineDark s l = true ∧ 2 ≤ (s.lane l).beat.missBeacon ∧ s.activeLane = none
    (wakes → Gives (.partnerBeaconLost l) s fun t => (t.lane l).phase = .running ∧ (t.lane l).tok.asked = some .startUp ∧
      t.st.power = {} ∧
      t.st.prog = none ∧ t.st.cfg = none ∧ t.st.access = none ∧ t.st.safety = none ∧ t.st.stage = [] ∧ t.st.lock = none) ∧
    (¬ wakes → exec (.partnerBeaconLost l) s = .next s))

/-- The mirror (R275 to R277). A piece that reaches a lane that tracks the station is buffered once, with its tick. At the limit a
snapshot that its heartbeat word has closed, with its length and CRC, and of which every piece is here is written whole, and
changes no byte outside its ranges; any other is discarded whole, which counts and starts the consecutive count again, and so are
the pieces of a past tick whose sender never closed them. -/
def Obligations.MirrorRows : Prop :=
  ∀ (s : State) (l : LaneId),
    let v := s.lane l
    let discarded (tick : Nat) := s.updLane l fun v =>
      { v with health := if v.health = .good ∧ v.role = .standby then .degraded else v.health,
               mirror := { v.mirror with pieces := v.mirror.pieces.filter (fun e => decide (tick < e.1)), closed := none,
                                         drops := (v.mirror.drops + 1) % 2 ^ 32, consecutive := 0, judged := some tick } }
    (receives v = true → ∀ tick piece, exec (.snapshotPiece l tick piece) s = .next (s.updLane l fun v => { v with mirror :=
      { v.mirror with pieces := if v.mirror.pieces.contains (tick, piece) then v.mirror.pieces else v.mirror.pieces ++ [(tick, piece)] } })) ∧
    (receives v = false → exec (.snapshotDiscard l) s = .next s ∧ ∀ tick piece, exec (.snapshotPiece l tick piece) s = .next s) ∧
    (receives v = true → ∀ d, (s.lane (other l)).mirror.sent = some d → v.mirror.judged ≠ some d.tick →
      let whole := v.mirror.closed = some (d.len, d.crc) ∧ ∀ p ∈ neededPieces s (other l), (d.tick, p) ∈ v.mirror.pieces
      (¬ whole → Becomes (.snapshotDiscard l) s (discarded d.tick)) ∧
      (whole → (∀ e ∈ v.mirror.pieces, d.tick < e.1 → s.grid.tick ≤ e.1) →
        exec (.snapshotDiscard l) s = .next (writeSnapshot s l d) ∧
        (∀ a n, (∀ r ∈ d.ranges, a + n ≤ r.2.1 ∨ r.2.1 + r.2.2.length ≤ a) →
          ((writeSnapshot s l d).lane l).img.readN a n = (s.lane l).img.readN a n))) ∧
    (receives v = true → (∀ d, (s.lane (other l)).mirror.sent = some d → v.mirror.judged = some d.tick) →
      (∀ t, leftOver s l = some t → Becomes (.snapshotDiscard l) s (discarded t)) ∧
      (leftOver s l = none → exec (.snapshotDiscard l) s = .next s))

/-- Change of ends (R263, R285 to R288): with every condition met the timer, the first good tick after a deferral and an
operator's command start it at the tick after next, raised as EV037; with one failing the timer defers it and the command is
refused with that condition; a command during a change waits for its confirmation, or is accepted with its tick, or is refused
where no lane is left to confirm it. At the edge of S + 1, with the token at the new lane, the roles exchange, and a lane that
must leave goes OFFLINE; a new lane that has died leaves the former one STANDBY. A failed self-check gives the ends back in the
next tick. (That a DEGRADED partner defers the timer with a free code is log entry 120.) -/
def Obligations.EndsRows : Prop :=
  ∀ (s : State) (p : Part) (ws : List Word),
    (s.activeLane ≠ none → s.st.ends.s = none →
      (timerBlocked s = none → exec .endsIntervalDue s = .next (startEnds s .timer none)) ∧
      (∀ code, timerBlocked s = some code → Becomes .endsIntervalDue s (({ s with free := s.free + 1 } : State).updSt fun t =>
        { t with ends := { t.ends with due := true, deferred := true } }))) ∧
    (s.activeLane = none ∨ s.st.ends.s ≠ none → exec .endsIntervalDue s = .next s) ∧
    (s.st.ends.due = true → s.st.ends.s = none → timerBlocked s = none → exec .endsDeferredStart s = .next (startEnds s .timer none)) ∧
    (s.st.ends.due = false ∨ s.st.ends.s ≠ none ∨ timerBlocked s ≠ none → exec .endsDeferredStart s = .next s) ∧
    (∀ c o, (startEnds s c o).st.ends.s = some (if c = .swapBack then s.grid.tick + 1 else s.grid.tick + 2)) ∧
    (Served s p true .urgent 0x0032 ws →
      (s.roleOf p < 2 → exec (.endsChange p) s = .next (answer s p true ROLE_DENIED (s.roleOf p))) ∧
      (2 ≤ s.roleOf p → s.st.ends.s = none →
        (∀ code, endsBlocked s = some code → exec (.endsChange p) s = .next (answer s p true WRONG_STATE s.st.phase.code code)) ∧
        (endsBlocked s = none → exec (.endsChange p) s = .next (((startEnds s (.host p) none).updSt fun t =>
          { t with ends := { t.ends with asked := t.ends.asked ++ [p.val] } }).updMb p true fun m => { m with phase := .waiting }))) ∧
      (∀ sw, 2 ≤ s.roleOf p → s.st.ends.s = some sw →
        (s.st.ends.confirmed = true → exec (.endsChange p) s = .next (respond s p true ACCEPTED 0 0 ((sw + 1) % 2 ^ 32))) ∧
        (s.st.ends.confirmed = false → s.standbyLane = none →
          exec (.endsChange p) s = .next (answer s p true WRONG_STATE s.st.phase.code 1)) ∧
        (s.st.ends.confirmed = false → s.standbyLane ≠ none → exec (.endsChange p) s = .next ((s.updSt fun t =>
          { t with ends := { t.ends with asked := t.ends.asked ++ [p.val] } }).updMb p true fun m => { m with phase := .waiting })))) ∧
    (∀ sw l, s.st.ends.s = some sw → s.activeLane = some l →
      let at_ := s.grid.tick = sw + 1 ∧ s.st.ends.confirmed = true ∧ (s.island s.st.referee).holder = some (other l)
      let back := s.st.ends.cause = .swapBack
      (¬ at_ → exec .endsSwapEdge s = .next s) ∧
      (at_ → (s.lane (other l)).role = .standby → s.st.ends.offAfter = none → Gives .endsSwapEdge s fun t =>
        (t.lane l).role = .standby ∧ (t.lane (other l)).role = .active ∧ (t.lane (other l)).takeover = true ∧ t.st.ends.s = none ∧
        t.st.ends.check = (if back then 0 else 8) ∧ (t.lane l).suspect = ((s.lane l).suspect || decide back)) ∧
      (∀ c, at_ → (s.lane (other l)).role = .standby → s.st.ends.offAfter = some c → Gives .endsSwapEdge s fun t =>
        (t.lane l).role = .offline ∧ (t.lane l).cause = c ∧ (t.lane (other l)).role = .solo ∧ t.st.ends.s = none) ∧
      (at_ → (s.lane (other l)).role ≠ .standby → s.st.ends.offAfter = none → Gives .endsSwapEdge s fun t =>
        (t.lane l).role = .standby ∧ (t.lane (other l)).role = (s.lane (other l)).role ∧ t.st.ends.s = none ∧ t.st.ends.check = 0)) ∧
    (s.st.ends.s = none ∨ s.activeLane = none → exec .endsSwapEdge s = .next s) ∧
    (let fails := s.st.ends.check ≠ 0 ∧ s.st.ends.s = none ∧ s.standbyLane ≠ none ∧ ∃ l, s.activeLane = some l ∧ selfCheckFails s l = true
     (fails → exec .selfCheckFail s = .next (startEnds (s.updSt fun t => { t with ends := { t.ends with check := 0 } }) .swapBack none)) ∧
     (¬ fails → exec .selfCheckFail s = .next s))

/-- Re-integration (R22, R289, R290): a lane that may re-integrate, of its partner's firmware version, starts copying once it has
validated the accepted images; another version, and images that do not hold, leave it FAILED until its feed is cycled. At the copy's
close it holds its partner's image and tracks; after 16 consecutive snapshots with both heartbeats it is STANDBY beside an ACTIVE
partner; a copy that does not close in 2 s starts again three times and then leaves the lane OFFLINE until it is tried again. -/
def Obligations.ReintRows : Prop :=
  ∀ (s : State) (l : LaneId),
    let v := s.lane l
    let begins (i : Instr) : Prop :=
      (v.fw = (s.lane (other l)).fw → imagesHold s = true →
        Becomes i s (s.updLane l fun v => { v with reint := { step := .copying } })) ∧
      (v.fw = (s.lane (other l)).fw → imagesHold s = false →
        exec i s = .next (s.updLane l fun v => { v with cause := .reintFailed, health := .failed, needCycle := true })) ∧
      (v.fw ≠ (s.lane (other l)).fw → Becomes i s (s.updLane l fun v =>
        { v with cause := .firmware, health := .failed, needCycle := true, startDone := true, tok := {} }))
    (mayReint s l = true → v.reint.step = .idle → begins (.reintStart l)) ∧
    (mayReint s l = true → v.reint.step = .waitRetry → begins (.reintRetryDue l)) ∧
    (mayReint s l = false ∨ v.reint.step ≠ .idle → exec (.reintStart l) s = .next s) ∧
    (mayReint s l = false ∨ v.reint.step ≠ .waitRetry → exec (.reintRetryDue l) s = .next s) ∧
    (v.reint.step = .copying → (s.lane (other l)).frozenTick = some s.grid.tick → Gives (.reintCopyClosed l) s fun t =>
      (t.lane l).img = (s.lane (other l)).frozen ∧ (t.lane l).frozen = (s.lane (other l)).frozen ∧
      (t.lane l).tmpl = (s.lane (other l)).tmpl ∧ (t.lane l).loops = (s.lane (other l)).loops ∧
      (t.lane l).chains = (s.lane (other l)).chains ∧ (t.lane l).frozenTick = some s.grid.tick ∧ (t.lane l).reint.step = .tracking ∧
      (t.lane l).reint.count = 0 ∧ (t.lane l).role = v.role) ∧
    (v.reint.step ≠ .copying ∨ (s.lane (other l)).frozenTick ≠ some s.grid.tick → exec (.reintCopyClosed l) s = .next s) ∧
    (v.reint.step = .copying →
      (v.reint.restarts < 3 → Becomes (.reintCopyTimeout l) s (s.updLane l fun v =>
        { v with reint := { v.reint with restarts := v.reint.restarts + 1 } })) ∧
      (3 ≤ v.reint.restarts → Becomes (.reintCopyTimeout l) s (s.updLane l fun v =>
        { v with reint := { step := .waitRetry }, cause := .reintFailed, health := .failed }))) ∧
    (v.reint.step ≠ .copying → exec (.reintCopyTimeout l) s = .next s) ∧
    (let ready := v.reint.step = .tracking ∧ 16 ≤ v.reint.count ∧ ((s.lane (other l)).role = .active ∨ (s.lane (other l)).role = .solo)
     (ready → Gives (.reintStandby l) s fun t => (t.lane l).role = .standby ∧ (t.lane l).cause = .none ∧
       (t.lane (other l)).role = .active ∧ (t.lane l).suspect = (v.suspect && !v.feedCycled) ∧
       (t.lane l).health = (if v.suspect = true ∧ v.feedCycled = false then .suspect else .good)) ∧
     (¬ ready → exec (.reintStandby l) s = .next s))

/-! Tokens (10) -/

/-- Requests, replies, grants and releases (R271 to R274). The referee answers its holder with the grant in force, repeats a grant
that is pending, grants a token that is free or released for the next edge with a new epoch, keeps a request pending while the
holder announces its release, and refuses any other; a retry of an unanswered request is answered alike. The lane takes a grant,
and at start-up its role with it, with no images where the station has run; a refused takeover isolates it. An acting lane that
finds the token free asks for it again. A good grant record of the granted lane's epoch, and the holder's release word, stand at
the island for the next edge. -/
def Obligations.TokenRows : Prop :=
  ∀ (s : State) (l : LaneId),
    let v := s.lane l
    let r := s.island s.st.referee
    let g : Grant := ⟨s.st.referee, l, (r.epoch + 1) % 65536, (s.grid.tick + 1) % 2 ^ 32⟩
    let replies (u : State) (k : TokReply) := u.updLane l fun v => { v with tok := { v.tok with reply := some k } }
    (∀ w, v.tok.asked = some w → r.powered = true →
      (r.holder = some l → exec (.tokenRequest l) s =
        .next (replies s (.granted (r.inForce.getD ⟨s.st.referee, l, r.lastApplied, s.tickNo⟩)))) ∧
      (∀ x, r.holder ≠ some l → r.pendGrant = some x →
        exec (.tokenRequest l) s = .next (replies s (if x.lane = l then .granted x else .refused))) ∧
      (r.holder ≠ some l → r.pendGrant = none →
        (r.holder = none ∨ r.released = some (s.grid.tick + 1) → exec (.tokenRequest l) s = .next
          (replies (s.updIsl s.st.referee fun i => { i with epoch := g.epoch, pendGrant := some g, waiting := none }) (.granted g))) ∧
        (∀ e, r.holder = some (other l) → r.released ≠ some (s.grid.tick + 1) → r.announced = some e → s.grid.tick ≤ e →
          exec (.tokenRequest l) s = .next (replies (s.updIsl s.st.referee fun i => { i with waiting := some l }) .pending)) ∧
        (r.holder = some (other l) → r.released ≠ some (s.grid.tick + 1) → (∀ e, r.announced = some e → e < s.grid.tick) →
          exec (.tokenRequest l) s = .next (replies s .refused))) ∧
      (v.tok.reply = none → exec (.tokenRequestRetry l) s = exec (.tokenRequest l) s)) ∧
    (v.tok.asked = none ∨ r.powered = false → exec (.tokenRequest l) s = .next s) ∧
    (v.tok.asked = none ∨ r.powered = false ∨ v.tok.reply ≠ none → exec (.tokenRequestRetry l) s = .next s) ∧
    (∀ x, v.tok.reply = some (.granted x) →
      (v.tok.asked = some .startUp → s.st.ready = false → Becomes (.tokenReply l) s (s.updLane l fun v =>
        { v with role := if l = .a then .active else .solo, cause := .none,
                 tok := { v.tok with asked := none, reply := none, grant := some x } })) ∧
      (v.tok.asked = some .startUp → s.st.ready = true → Gives (.tokenReply l) s fun t => (t.lane l).role = .solo ∧
        (t.lane l).tok.grant = some x ∧ (t.lane l).tok.asked = none ∧ t.st.prog = none ∧ t.st.cfg = none ∧ t.st.access = none ∧
        t.st.phase = .stopped) ∧
      (v.tok.asked = some .takeover ∨ v.tok.asked = some .ends → Becomes (.tokenReply l) s (s.updLane l fun v =>
        { v with tok := { v.tok with reply := none, grant := some x } })) ∧
      (v.tok.asked = some .again → Becomes (.tokenReply l) s (s.updLane l fun v =>
        { v with tok := { v.tok with asked := none, reply := none, grant := some x } }))) ∧
    (v.tok.reply = some .refused →
      (v.tok.asked = some .takeover → v.role = .standby →
        Gives (.tokenReply l) s fun t => (t.lane l).role = .offline ∧ (t.lane l).cause = .isolated) ∧
      (v.tok.asked = some .startUp ∨ v.tok.asked = some .ends ∨ v.tok.asked = some .again ∨
          (v.tok.asked = some .takeover ∧ v.role ≠ .standby) →
        Becomes (.tokenReply l) s (s.updLane l fun v => { v with tok := { v.tok with asked := none, reply := none } }))) ∧
    (v.tok.reply = none ∨ v.tok.reply = some .pending ∨ v.tok.asked = none → exec (.tokenReply l) s = .next s) ∧
    (∀ (i : Isl) (record : List Byte),
      (∀ x y, v.tok.grant = some x → grantOf record = some y → tokenIslands.contains i.val = true → i.val ≠ s.st.referee →
        (s.island i.val).powered = true → y.lane = x.lane → y.epoch = x.epoch →
        exec (.grantRecord i l record) s = .next (s.updIsl i.val fun k => { k with pendGrant := some y })) ∧
      (grantOf record = none → exec (.grantRecord i l record) s = .next s)) ∧
    (∀ i : Isl,
      let free := s.updIsl i.val fun x => { x with released := some (s.grid.tick + 1) }
      ((s.island i.val).holder = some l → s.st.ends.released = true →
        (i.val ≠ s.st.referee ∨ (s.island i.val).waiting = none → exec (.releaseWord i l) s = .next free) ∧
        (∀ w, i.val = s.st.referee → (s.island i.val).waiting = some w → exec (.releaseWord i l) s = .next (grantTo free w))) ∧
      ((s.island i.val).holder ≠ some l ∨ s.st.ends.released = false → exec (.releaseWord i l) s = .next s))

/-! Clocks and power (17) -/

/-- Clock failures (R430 to R437). The stopped-clock detector, and a window whose count does not pass while the RC's own window
does, are a TCXO failure, which abandons an entry to Occulting: a qualified RC carries the lane on (SOLO: DEGRADED; STANDBY:
OFFLINE; ACTIVE beside a good partner: a change of ends), without one the lane is held, and the RC's qualification restarts it or
200 µs stop it. A good window's count is kept for the RC's rate. A failed window of the RC restarts it where the partner's own
passes, and marks both crystals where both fail. The TCXO comes back at an edge, with its own rate; a lockstep mismatch stops the
lane. -/
def Obligations.ClockRows : Prop :=
  ∀ (s : State) (l : LaneId),
    let v := s.lane l
    let o := s.lane (other l)
    let e := abandonEntry s 1
    let bad (c : Option Nat) : Prop := c = none ∨ ∃ n, c = some n ∧ tcxoPasses n = false ∧ v.clocks.rcQual = true ∧ v.clocks.rcBad = false
    (∀ c, v.monitored = true → v.clocks.tcxoGood = true → bad c →
      (v.clocks.src ≠ .rc → v.clocks.rcQual = false → exec (.tcxoFailure l c) s = .next (e.updLane l fun v =>
        { v with clocks := { v.clocks with tcxoGood := false, held := true } })) ∧
      (v.clocks.src ≠ .rc → v.clocks.rcQual = true → exec (.tcxoFailure l c) s = .next (actOnRc (clockFailEvent (e.updLane l fun v =>
        { v with clocks := { v.clocks with tcxoGood := false, src := .rc } }) l 1) l)) ∧
      (v.clocks.src = .rc → exec (.tcxoFailure l c) s = .next (e.updLane l fun v => { v with clocks := { v.clocks with tcxoGood := false } })) ∧
      (v.clocks.src ≠ .rc → v.clocks.rcQual = true →
        (v.role = .solo → v.health = .good → Gives (.tcxoFailure l c) s fun t => (t.lane l).clocks.src = .rc ∧
          (t.lane l).clocks.tcxoGood = false ∧ (t.lane l).role = .solo ∧ (t.lane l).health = .degraded) ∧
        (v.role = .standby → Gives (.tcxoFailure l c) s fun t => (t.lane l).role = .offline ∧ (t.lane l).cause = .clock) ∧
        (v.role = .active → o.role = .standby → o.suspect = false → s.st.ends.s = none → s.st.commit = none →
          Gives (.tcxoFailure l c) s fun t => (t.lane l).clocks.src = .rc ∧ t.st.ends.s = some (s.grid.tick + 2) ∧
            t.st.ends.offAfter = some .clock))) ∧
    (∀ n, v.monitored = true → v.clocks.tcxoGood = true → v.clocks.rcQual = false → exec (.tcxoFailure l (some n)) s = .next s) ∧
    (∀ n, v.monitored = true → v.clocks.tcxoGood = true → v.clocks.rcQual = true → tcxoPasses n = true →
      exec (.tcxoFailure l (some n)) s = .next (s.updLane l fun v => { v with clocks := { v.clocks with tcxoCount := n } })) ∧
    (∀ n, v.monitored = true → v.clocks.tcxoGood = true → tcxoPasses n = false → v.clocks.rcQual = true → v.clocks.rcBad = true →
      Becomes (.tcxoFailure l (some n)) s (s.updLane l fun v => { v with clocks := { v.clocks with rcQual := false, rcRestarting := true } })) ∧
    (v.monitored = true → v.clocks.rcRestarting = false →
      (∀ n k, rcPasses n = true → exec (.rcFault l n k) s = .next (s.updLane l fun v => { v with clocks := { v.clocks with rcBad := false } })) ∧
      (∀ n k, rcPasses n = false → v.clocks.tcxoGood = true → o.monitored = true → rcPasses k = true →
        Becomes (.rcFault l n (some k)) s (s.updLane l fun v =>
          { v with clocks := { v.clocks with rcBad := true, rcQual := false, rcRestarting := true } })) ∧
      (∀ n k, rcPasses n = false → v.clocks.tcxoGood = true → o.monitored = true → rcPasses k = false → o.clocks.tcxoGood = true →
        Becomes (.rcFault l n (some k)) s (bothLanes (fun s m => s.updLane m fun v =>
          { v with clocks := { v.clocks with xtalSuspect := true, rcBad := if m = l then true else v.clocks.rcBad } }) s)) ∧
      (∀ n, rcPasses n = false → exec (.rcFault l n none) s = .next (s.updLane l fun v => { v with clocks := { v.clocks with rcBad := true } }))) ∧
    (∀ n, v.clocks.rcRestarting = true → v.clocks.tcxoGood = false ∨ tcxoPasses n = true →
      let q := s.updLane l fun v => { v with clocks := { v.clocks with
        rcQual := true, rcRestarting := false, rcBad := false, tcxoCount := if v.clocks.tcxoGood then n else v.clocks.tcxoCount } }
      (v.clocks.held = false → Becomes (.rcQualified l n) s q) ∧
      (v.clocks.held = true → exec (.rcQualified l n) s = .next (actOnRc (clockFailEvent ((laneClockEvent q l 242 2).updLane l fun v =>
        { v with clocks := { v.clocks with held := false, src := .rc } }) l 2) l))) ∧
    (∀ n, v.clocks.rcRestarting = false ∨ (v.clocks.tcxoGood = true ∧ tcxoPasses n = false) → exec (.rcQualified l n) s = .next s) ∧
    (v.clocks.held = true → Gives (.rcQualTimeout l) s fun t => (t.lane l).phase = .stopped ∧ (t.lane l).role = .offline) ∧
    (v.clocks.held = false → exec (.rcQualTimeout l) s = .next s) ∧
    (v.phase = .running → v.clocks.src = .rc → v.clocks.tcxoGood = false → Becomes (.tcxoReturn l) s (tcxoTime (s.updLane l fun v =>
      { v with health := if v.health = .degraded ∨ v.cause = .clock then .good else v.health,
               clocks := { v.clocks with src := .tcxo, tcxoGood := true } }) l)) ∧
    (v.phase ≠ .running ∨ v.clocks.src ≠ .rc ∨ v.clocks.tcxoGood = true → exec (.tcxoReturn l) s = .next s) ∧
    (v.phase = .running → Gives (.lockstepMismatch l) s fun t =>
      (t.lane l).phase = .stopped ∧ (t.lane l).role = .offline ∧ (t.lane l).cause = .stopped) ∧
    (v.phase ≠ .running → exec (.lockstepMismatch l) s = .next s)

/-- Operating points, gating and power states (R438 to R455): a done voltage step makes its supply and the next step follows; a
gate request whose access does not complete ends, with those of the blocks above it, and an entry to Occulting then moves to a
later edge and is given up after a hundred in a row; a state that has been chosen for DWELL_S and still is is entered, Occulting
with PARK, Dark at the
next edge with its lanes down, unless a condition of R446 has gone by then; a wake that is enabled waits for the entry to Dark, and brings the station
back to LIT and starting, with the images whose trailers hold; the clock outputs take a code that the present sources can drive,
from the present output's next falling edge, and refuse another. -/
def Obligations.PowerRows : Prop :=
  ∀ (s : State) (l : LaneId),
    (∀ n, (s.lane l).opp.stepTo = some n → exec (.voltageStepDone l) s = .next (s.updLane l fun v =>
      { v with opp := nextStep { v.opp with supply := n, stepTo := none } })) ∧
    ((s.lane l).opp.stepTo = none → exec (.voltageStepDone l) s = .next s) ∧
    (∀ block, (s.lane l).phase = .running → block ∈ (s.lane l).opp.asked →
      let pw := s.st.power
      let n := if pw.busyTick = some s.grid.tick then pw.busyEdges else if pw.busyTick = some (s.grid.tick - 1) then pw.busyEdges + 1 else 1
      ∃ g, let u := s.updLane l fun v => { v with opp := { v.opp with asked := g } }
        block ∉ g ∧ (∀ b ∈ g, b ∈ (s.lane l).opp.asked) ∧
        (∀ b ∈ (s.lane l).opp.asked, b ≠ block → childrenOf b = [] → b ∈ g) ∧
        (∀ b, block ∈ childrenOf b → block ∉ (s.lane l).opp.gated → b ∉ g) ∧
        (parking (s.lane l) = false ∨ pw.entering ≠ some .occulting → Becomes (.gateBusyTimeout l block) s u) ∧
        (parking (s.lane l) = true → pw.entering = some .occulting → n < 100 → Becomes (.gateBusyTimeout l block) s (u.updSt fun t =>
          { t with power := { t.power with busyTick := some s.grid.tick, busyEdges := n } })) ∧
        (parking (s.lane l) = true → pw.entering = some .occulting → 100 ≤ n → Becomes (.gateBusyTimeout l block) s (u.updSt fun t =>
          { t with power := { t.power with entering := none, park := false, busyTick := none, busyEdges := 0 } }))) ∧
    (∀ block, (s.lane l).phase ≠ .running ∨ block ∉ (s.lane l).opp.asked → exec (.gateBusyTimeout l block) s = .next s) ∧
    (let dwell := (s.cfgRec 0x0201 0).elim 0 fun r => r.u 0x10 2
     let enters (c : PowerState) := s.st.power.dwell = some c ∧ s.activeLane ≠ none ∧ s.st.power.entering = none ∧
       chosenState s (computeTmin s) = c ∧ s.st.power.dwellFrom + dwell * 1000000000 ≤ s.grid.mono
     (enters .occulting → exec .powerDwellExpired s = .next (s.updSt fun t => { t with power := { t.power with
       entering := some .occulting, park := true, dwell := none, busyTick := none, busyEdges := 0 } })) ∧
     (enters .dark → exec .powerDwellExpired s = .next (s.updSt fun t => { t with power := { t.power with
       entering := some .dark, dwell := none, wake := none } })) ∧
     ((∀ c, ¬ enters c) → exec .powerDwellExpired s = .next s)) ∧
    (∀ skew, ticking s = true → s.st.power.entering = some .dark → powerAllowed s .dark = true →
      (s.st.power.wake = none → Gives (.tickEdge skew) s fun t => t.st.power.ps = .dark ∧ t.st.power.entering = none ∧
        t.st.phase = .starting ∧ ∀ m, (t.lane m).winUp = false) ∧
      (∀ w, s.st.power.wake = some w → Gives (.tickEdge skew) s fun t => t.st.power.entering ≠ some .dark ∧ t.st.phase = .starting)) ∧
    (s.st.power.entering = some .dark → powerAllowed s .dark = false → darkEdge s =
      s.updSt fun t => { t with power := { t.power with entering := none } }) ∧
    (s.st.power.entering = some .dark → powerAllowed s .dark = true →
      (s.st.power.wake = none → (darkEdge s).st.power.ps = .dark ∧ (darkEdge s).st.phase = .starting ∧ (darkEdge s).st.ready = false ∧
        (darkEdge s).st.lock = none ∧ ∀ m, ((darkEdge s).lane m).role = .offline ∧ ((darkEdge s).lane m).winUp = false) ∧
      (∀ w, s.st.power.wake = some w → darkEdge s = darkWake (darkEntry s skDormant) w)) ∧
    (s.st.power.entering ≠ some .dark → darkEdge s = s) ∧
    (∀ w,
      let enabled := wakeEnabled s w = true ∧ ∀ p, w = .pair p → (pairRec s p.val).isSome = true
      (enabled → s.st.power.entering = some .dark → exec (.darkWake w) s = .next (s.updSt fun t =>
        { t with power := { t.power with wake := some w } })) ∧
      (enabled → s.st.power.entering ≠ some .dark → s.st.power.ps = .dark → Gives (.darkWake w) s fun t =>
        t.st.power.ps = .lit ∧ t.st.power.entering = some .lit ∧ t.st.phase = .starting ∧ t.st.ready = false ∧
        t.st.prog = s.st.prog.filter trailerOk ∧ t.st.cfg = (if trailerOk s.st.cfgImage then s.st.cfg else none) ∧
        t.st.access = (if trailerOk s.st.accessImage then s.st.access else none) ∧ t.st.safety = s.st.safety.filter trailerOk ∧
        ((s.lane l).phase = .dark → (t.lane l).phase = .starting)) ∧
      (¬ enabled ∨ (s.st.power.entering ≠ some .dark ∧ s.st.power.ps ≠ .dark) → exec (.darkWake w) s = .next s)) ∧
    (∀ (p : Part) (outB : Bool) (d : Word),
      let code := fld d.toNat 31 1 * 2 ^ 31 + fld d.toNat 16 10 * 2 ^ 16 + fld d.toNat 0 5
      (s.svc.up = false → exec (.clkoutSelWrite p outB d) s = .next s ∧ exec (.clkoutStatusClear p d) s = .next s) ∧
      (s.svc.up = true →
        (clkOk s d.toNat = true → exec (.clkoutSelWrite p outB d) s = .next (s.updSvc fun x => { x with clk :=
          if outB then { x.clk with selB := code, wasB := x.clk.selB } else { x.clk with selA := code, wasA := x.clk.selA } })) ∧
        (clkOk s d.toNat = false → exec (.clkoutSelWrite p outB d) s = .next (s.updSvc fun x => { x with clk :=
          if outB then { x.clk with rejB := true } else { x.clk with rejA := true } })) ∧
        exec (.clkoutStatusClear p d) s = .next (s.updSvc fun x => { x with clk := { x.clk with
          rejA := x.clk.rejA && !bit d.toNat 0, rejB := x.clk.rejB && !bit d.toNat 1 } })))

/-! Block engine (07) -/

/-- Arithmetic of slot A (R189 to R191): a fitting bundle of an operation on a type that the operation takes writes its result to
D, or NUMF, uses its cycles and goes on to the next bundle; a divisor of 0 fails the task's period as DIV0. On a type that the
operation does not take the bundle is ILLEGAL. -/
def Obligations.BlockArithmetic : Prop :=
  ∀ (s : State) (l : LaneId) (n : Nat) (prog : List Byte) (t : TaskDef) (b : Word) (sb : Slot) (ty : Ty) (d s1 s2 : VReg)
    (imm : BitVec 11),
    let c := ctxOf s l n
    let row (i : Instr) (o : AluOp) (s2 : VReg) (imm : BitVec 11) : Prop :=
      let a := Slot.alu o ty d s1 s2 imm
      let k := aluCycles o ty
      let stops (x : Nat) : Prop := exec i s = .next (failPeriod (spendCycles s l n (bundleCycles s l n t a k) t) l n 4 (faultPay x c.pc))
      BundleFits s l n prog t a b sb k →
      (∀ v f, tyOk o ty = true → alu o ty (c.v64 d) (c.v64 s1) (c.v64 s2) s2.val imm = .val v f → exec i s =
        .next (bundleGoes s l n t a sb k (fun x => { x.setV d v with pc := x.pc + 8, numf := x.numf || f }) (s.lane l).img)) ∧
      (tyOk o ty = true → alu o ty (c.v64 d) (c.v64 s1) (c.v64 s2) s2.val imm = .div0 → stops fDIV0) ∧
      (tyOk o ty = false → stops fILLEGAL)
    (∀ r ∈ alu3, row (r.2 l ty d s1 s2 b) r.1 s2 0) ∧
    (∀ r ∈ alu2, row (r.2 l ty d s1 b) r.1 0 0) ∧
    row (.beShl l ty d s1 imm b) .shl 0 imm ∧
    row (.beShr l ty d s1 imm b) .shr 0 imm ∧
    (s1 = 0 → row (.beMovi l ty d imm b) .movi 0 imm) ∧
    (∀ src, row (.beCvt l ty d s1 src b) .cvt (Fin.ofNat 32 (tyCode src)) 0)

/-- Values (R186, R191) for the integer types: ADD, SUB and MUL wrap, ADDS and SUBS saturate, DIV truncates toward zero and MOD
has the dividend's sign, a divisor of 0 is DIV0, SHL by the width or more gives 0, CEQ and CLT give TRUE or FALSE. -/
def Obligations.IntegerArithmetic : Prop :=
  ∀ (ty : Ty) (d a b : DWord) (k : Nat) (imm : BitVec 11), isInt ty = true →
    let w := tyWidth ty
    let int (x : DWord) : Int := signed w x.toNat
    let wraps (r : AluRes) (i : Int) : Prop := ∃ v, r = .val v false ∧ (int v - i) % (2 ^ w : Int) = 0
    wraps (alu .add ty d a b k imm) (int a + int b) ∧
    wraps (alu .sub ty d a b k imm) (int a - int b) ∧
    wraps (alu .mul ty d a b k imm) (int a * int b) ∧
    (∃ v, alu .adds ty d a b k imm = .val v false ∧ int v = max (-(2 ^ (w - 1) : Int)) (min (2 ^ (w - 1) - 1) (int a + int b))) ∧
    (∃ v, alu .subs ty d a b k imm = .val v false ∧ int v = max (-(2 ^ (w - 1) : Int)) (min (2 ^ (w - 1) - 1) (int a - int b))) ∧
    (int b = 0 → alu .div ty d a b k imm = .div0 ∧ alu .mod ty d a b k imm = .div0) ∧
    (int b ≠ 0 → (∃ v, alu .mod ty d a b k imm = .val v false ∧ int v = (int a).tmod (int b))) ∧
    (int b ≠ 0 → ¬(int a = -(2 ^ (w - 1) : Int) ∧ int b = -1) →
      ∃ v, alu .div ty d a b k imm = .val v false ∧ int v = (int a).tdiv (int b)) ∧
    (w ≤ imm.toNat % 64 → alu .shl ty d a b k imm = .val 0 false) ∧
    alu .ceq ty d a b k imm = .val (if int a = int b then 1 else 0) false ∧
    alu .clt ty d a b k imm = .val (if int a < int b then 1 else 0) false

/-- Loads and stores of slot A (R165, R167, R172 to R174, R190). LD reads the value at A + DISP, what this task has stored above
the image, and counts a corrected error of INST; ST outside INST joins the task output buffer and ST to INST the block's write
buffer, and neither writes the image; LDA loads an address word of CONST; IDXC adds a scaled index below its bound and fails the
period as INDEX otherwise. A DISP off the size is ILLEGAL, an address off it or not permitted is a protection fault, a poisoned
word a memory error. -/
def Obligations.BlockMemory : Prop :=
  ∀ (s : State) (l : LaneId) (n : Nat) (prog : List Byte) (t : TaskDef) (b : Word) (sb : Slot) (ty : Ty) (v : VReg) (a d : AReg)
    (disp : BitVec 13),
    let c := ctxOf s l n
    let img := (s.lane l).img
    let addr := beAddr c a disp.toNat
    let w := tySize ty
    let stops (i : Instr) (slot : Slot) (k cause x : Nat) : Prop :=
      exec i s = .next (failPeriod (spendCycles s l n (bundleCycles s l n t slot k) t) l n cause (faultPay x c.pc))
    (∀ ecc, let slot := Slot.ld ty v a disp
      let k := ldCycles addr
      let i := Instr.beLd l ty v a disp ecc b
      let goes := bundleGoes s l n t slot sb k
        (fun x => { x.setV v (patReg ty (seenNat c img addr w)) with pc := x.pc + 8 }) img
      BundleFits s l n prog t slot b sb k →
      (disp.toNat % w ≠ 0 → stops i slot k 4 fILLEGAL) ∧
      (disp.toNat % w = 0 → addr % w ≠ 0 ∨ readOk (bundleIn s l n prog t slot sb k) addr w = false → stops i slot k 3 addr) ∧
      (disp.toNat % w = 0 → addr % w = 0 → readOk (bundleIn s l n prog t slot sb k) addr w = true →
        (∀ x, poisoned (bundleIn s l n prog t slot sb k) addr w = some x → exec i s =
          .next (taskMemoryError (spendCycles s l n (bundleCycles s l n t slot k) t) l n (.image x))) ∧
        (poisoned (bundleIn s l n prog t slot sb k) addr w = none →
          (ecc = false ∨ addr / 2 ^ 28 ≠ 0xA → exec i s = .next goes) ∧
          (ecc = true → addr / 2 ^ 28 = 0xA → exec i s = .next (noteCorrection goes l))))) ∧
    (let slot := Slot.st ty v a disp
      let i := Instr.beSt l ty v a disp b
      BundleFits s l n prog t slot b sb 1 →
      (disp.toNat % w ≠ 0 → stops i slot 1 4 fILLEGAL) ∧
      (disp.toNat % w = 0 → addr % w ≠ 0 ∨ writeOk (bundleIn s l n prog t slot sb 1) addr w = false → stops i slot 1 3 addr) ∧
      (disp.toNat % w = 0 → addr % w = 0 → writeOk (bundleIn s l n prog t slot sb 1) addr w = true →
        (addr / 2 ^ 28 ≠ 0xA → exec i s = .next (bundleGoes s l n t slot sb 1
          (fun x => { x with tob := bufBytes x.tob addr (stBytes ty (c.v64 v)), pc := x.pc + 8 }) img)) ∧
        (∀ f r, addr / 2 ^ 28 = 0xA → c.frames = f :: r → exec i s = .next (bundleGoes s l n t slot sb 1
          (fun x => { x with frames := { f with buf := bufBytes f.buf addr (stBytes ty (c.v64 v)) } :: r, pc := x.pc + 8 }) img)))) ∧
    (let slot := Slot.lda d a disp
      let i := Instr.beLda l d a disp b
      BundleFits s l n prog t slot b sb 2 →
      (disp.toNat % 4 ≠ 0 → stops i slot 2 4 fILLEGAL) ∧
      (disp.toNat % 4 = 0 → addr % 4 ≠ 0 ∨ addr / 2 ^ 28 ≠ 0xB ∨ readOk (bundleIn s l n prog t slot sb 2) addr 4 = false →
        stops i slot 2 3 addr) ∧
      (disp.toNat % 4 = 0 → addr % 4 = 0 → addr / 2 ^ 28 = 0xB → readOk (bundleIn s l n prog t slot sb 2) addr 4 = true →
        (∀ x, poisoned (bundleIn s l n prog t slot sb 2) addr 4 = some x → exec i s =
          .next (taskMemoryError (spendCycles s l n (bundleCycles s l n t slot 2) t) l n (.image x))) ∧
        (poisoned (bundleIn s l n prog t slot sb 2) addr 4 = none → exec i s = .next (bundleGoes s l n t slot sb 2
          (fun x => { x.setA d (BitVec.ofNat 32 (seenNat c img addr 4)) with pc := x.pc + 8 }) img)))) ∧
    (∀ (scale : Fin 4) (bound : BitVec 10), let slot := Slot.idxc scale d a v bound
      BundleFits s l n prog t slot b sb 2 →
      ((c.v64 v).toNat ≤ bound.toNat → exec (.beIdxc l scale d a v bound b) s = .next (bundleGoes s l n t slot sb 2
        (fun x => { x.setA d (BitVec.ofNat 32 ((c.a32 a).toNat + (c.v64 v).toNat * 2 ^ scale.val)) with pc := x.pc + 8 }) img)) ∧
      (bound.toNat < (c.v64 v).toNat → stops (.beIdxc l scale d a v bound b) slot 2 4 fINDEX))

/-- Control flow of slot A (R189, R190): NOP goes on; a branch goes forward by OFF bundles when its condition holds, in 2 cycles,
and goes on in 1 when it does not; LOOP with a count opens its body, with a count of 0 skips past its ENDL, and ENDL passes the
body that often; CALLB enters the type's code with an empty buffer for its level; END of an initial part goes over to the main
entry. An OFF outside 1 to 32 767, a LOOP with bound 0 or without an ENDL, an ENDL outside a loop and an unknown type are ILLEGAL,
a ninth level DEPTH. -/
def Obligations.BlockControl : Prop :=
  ∀ (s : State) (l : LaneId) (n : Nat) (prog : List Byte) (t : TaskDef) (b : Word) (sb : Slot) (v : VReg) (off : BitVec 16),
    let c := ctxOf s l n
    let goes (slot : Slot) (k : Nat) (f : Ctx → Ctx) : State := bundleGoes s l n t slot sb k f (s.lane l).img
    let stops (i : Instr) (slot : Slot) (k x : Nat) : Prop :=
      exec i s = .next (failPeriod (spendCycles s l n (bundleCycles s l n t slot k) t) l n 4 (faultPay x c.pc))
    let branch (i : Instr) (slot : Slot) (taken : Prop) (k : Nat) : Prop :=
      BundleFits s l n prog t slot b sb k →
      (off.toNat = 0 ∨ 32767 < off.toNat → stops i slot k fILLEGAL) ∧
      (1 ≤ off.toNat → off.toNat ≤ 32767 → taken → exec i s =
        .next (goes slot k fun x => { x with pc := x.pc + 8 + 8 * off.toNat })) ∧
      (1 ≤ off.toNat → off.toNat ≤ 32767 → ¬taken → exec i s = .next (goes slot k fun x => { x with pc := x.pc + 8 }))
    (BundleFits s l n prog t .nop b sb 1 → exec (.beNop l b) s = .next (goes .nop 1 fun x => { x with pc := x.pc + 8 })) ∧
    branch (.beBra l off b) (.bra off) True 2 ∧
    branch (.beBrz l v off b) (.brz v off) (c.v64 v = 0) (if c.v64 v = 0 then 2 else 1) ∧
    branch (.beBrnz l v off b) (.brnz v off) (c.v64 v ≠ 0) (if c.v64 v = 0 then 1 else 2) ∧
    (let slot := Slot.loop v off
      let i := Instr.beLoop l v off b
      let m := (c.v64 v).toNat % 2 ^ 32
      BundleFits s l n prog t slot b sb 2 →
      (off = 0 → stops i slot 2 fILLEGAL) ∧
      (off ≠ 0 → m ≠ 0 → exec i s =
        .next (goes slot 2 fun x => { x.setLoops (⟨c.pc + 8, m⟩ :: x.loopStack) with pc := x.pc + 8 })) ∧
      (off ≠ 0 → m = 0 → ∀ pc, afterEndl prog (secLen prog 1) (c.pc + 8) 0 = some pc → exec i s =
        .next (goes slot 2 fun x => { x with pc := pc })) ∧
      (off ≠ 0 → m = 0 → afterEndl prog (secLen prog 1) (c.pc + 8) 0 = none → stops i slot 2 fILLEGAL)) ∧
    (BundleFits s l n prog t .endl b sb 1 →
      (c.loopStack = [] → stops (.beEndl l b) .endl 1 fILLEGAL) ∧
      (∀ f r, c.loopStack = f :: r →
        (1 < f.left → exec (.beEndl l b) s =
          .next (goes .endl 1 fun x => { x.setLoops ({ f with left := f.left - 1 } :: r) with pc := f.start })) ∧
        (f.left ≤ 1 → exec (.beEndl l b) s = .next (goes .endl 1 fun x => { x.setLoops r with pc := x.pc + 8 })))) ∧
    (∀ (a : AReg) (ty : BitVec 12), let slot := Slot.callb a ty
      let i := Instr.beCallb l a ty b
      BundleFits s l n prog t slot b sb 6 →
      (findType (typeDefs prog) ty.toNat = none → stops i slot 6 fILLEGAL) ∧
      (∀ y, findType (typeDefs prog) ty.toNat = some y →
        (c.frames.length < 8 → exec i s = .next (goes slot 6 fun x =>
          { x with a := (x.a.set 0 (c.a32 a)).set 6 (BitVec.ofNat 32 (aCONST + y.ctab)), pc := y.code,
                   frames := { typeNo := y.no, ret := c.pc + 8, savedA := x.a, savedV := x.v.filter fun e => decide (16 ≤ e.1),
                               buf := [], loops := [] } :: x.frames })) ∧
        (8 ≤ c.frames.length → stops i slot 6 fDEPTH))) ∧
    (BundleFits s l n prog t .endE b sb 2 → c.part ≠ .main →
      (c.frames = [] → exec (.beEnd l b) s =
        .next (goes .endE 2 fun x => { x with v := [], a := relA, pc := t.main, part := .main, loops := [] })) ∧
      (c.frames ≠ [] → stops (.beEnd l b) .endE 2 fILLEGAL))

/-- Commits and restores (R165, R168, R190, R203 to R205): RETB commits its level's buffer to the image and restores the caller,
and is ILLEGAL outside a block; END of the main part commits the output buffer, one cycle more for each of its words, and ends the
period, is an overrun of the clock that runs out first where those cycles are not left (log entry 144), and is ILLEGAL inside a
block; ITPL restores its words from the template, and is ILLEGAL in a main part or a block and a protection fault outside the
task's ranges of INST. -/
def Obligations.BlockCommits : Prop :=
  ∀ (s : State) (l : LaneId) (n : Nat) (prog : List Byte) (t : TaskDef) (b : Word) (sb : Slot),
    let c := ctxOf s l n
    let img := (s.lane l).img
    let spent (slot : Slot) (k : Nat) : State := spendCycles s l n (bundleCycles s l n t slot k) t
    (∀ k, k = 4 + frameWords (bundleIn s l n prog t .retb sb 0) → BundleFits s l n prog t .retb b sb k →
      (c.frames = [] → exec (.beRetb l b) s = .next (failPeriod (spent .retb k) l n 4 (faultPay fILLEGAL c.pc))) ∧
      (∀ f r, c.frames = f :: r → exec (.beRetb l b) s = .next (noteCommit l s (bundleGoes s l n t .retb sb k
        (fun x => { x with frames := r, pc := f.ret, a := f.savedA,
                           v := f.savedV.foldl (fun t e => t.set e.1 e.2) (x.v.filter fun e => decide (e.1 < 16)) })
        (commitBuf img f.buf))))) ∧
    (BundleFits s l n prog t .endE b sb 2 → c.part = .main →
      let e := bufEntries c.tob
      let all := bundleCycles s l n t .endE 2
      (c.frames ≠ [] → exec (.beEnd l b) s = .next (failPeriod (spent .endE 2) l n 4 (faultPay fILLEGAL c.pc))) ∧
      (c.frames = [] → t.shot < c.cyc + all + e ∨ windowCycles s l < (s.lane l).be.used + all + e → exec (.beEnd l b) s =
        .next (failPeriod (spent .endE 2) l n (if t.shot - c.cyc ≤ windowCycles s l - (s.lane l).be.used then 1 else 2) [])) ∧
      (c.frames = [] → c.cyc + all + e ≤ t.shot → (s.lane l).be.used + all + e ≤ windowCycles s l → exec (.beEnd l b) s =
        .next (endPeriod (s.updLane l fun v => { v with
          img := commitBuf img c.tob, be := { v.be with used := v.be.used + all + e } }) l n
          { c.afterB sb all with cyc := c.cyc + all + e } t))) ∧
    (∀ (a : AReg) (count : BitVec 13),
      let addr := (c.a32 a).toNat
      let m := 8 * count.toNat
      let slot := Slot.itpl a count
      let k := 8 + 40 * linesOf addr m
      let stops (cause x : Nat) : Prop := exec (.beItpl l a count b) s = .next (failPeriod (spent slot k) l n cause (faultPay x c.pc))
      let allowed := m = 0 ∨ (inRanges t.ranges (addr % 2 ^ 28) m = true ∧ hitsHeader prog (addr % 2 ^ 28) m = false ∧
        addrOk s addr m = true)
      BundleFits s l n prog t slot b sb k →
      (c.part = .main ∨ c.frames ≠ [] → stops 4 fILLEGAL) ∧
      (c.part ≠ .main → c.frames = [] → addr / 2 ^ 28 ≠ 0xA ∨ addr % 8 ≠ 0 ∨ ¬allowed → stops 3 addr) ∧
      (c.part ≠ .main → c.frames = [] → addr / 2 ^ 28 = 0xA → addr % 8 = 0 → allowed → exec (.beItpl l a count b) s =
        .next (bundleGoes s l n t slot sb k (fun x => { x with pc := x.pc + 8 }) (img.writeN addr ((s.lane l).tmpl.readN addr m)))))

/-- Bundles that do not run. Without a running level, an open window or a running lane a bundle does nothing. A bad code word
fails the period as a memory error, on every row (R174); a slot B that does not decode, or is not one of slot B's operations, or
writes slot A's register, makes every row ILLEGAL (R189, R192). On the rows with two sources: with too few cycles of the shot
clock left the period fails as an overrun, with too few left of the window, the earlier limit, the bundle does not end and what is
left is spent (R161, R169, R178). -/
def Obligations.BundleStops : Prop :=
  ∀ (s : State) (l : LaneId) (b : Word),
    (∀ a : Slot, runningLevel s l = none ∨ (s.lane l).be.window = false ∨ (s.lane l).runs = false →
      exec (a.instr l b) s = .next s) ∧
    (∀ n prog t, runningLevel s l = some n → s.st.prog = some prog → s.taskDef n = some t → (s.lane l).be.window = true →
      (s.lane l).runs = true →
      let c := ctxOf s l n
      (∀ a : Slot, c.pc ∈ (s.lane l).be.poisonedCode → exec (a.instr l b) s = .next (taskMemoryError s l n (.code c.pc))) ∧
      (c.pc ∉ (s.lane l).be.poisonedCode →
        (∀ a : Slot, decodeSlot b = none ∨ (∃ sb, decodeSlot b = some sb ∧ bundleOk a sb = false) →
          exec (a.instr l b) s = .next (failPeriod s l n 4 (faultPay fILLEGAL c.pc))) ∧
        (∀ r ∈ alu3, ∀ (ty : Ty) (d s1 s2 : VReg) (sb : Slot),
          let a := Slot.alu r.1 ty d s1 s2 0
          let k := bundleCycles s l n t a (aluCycles r.1 ty)
          let shot := t.shot - c.cyc
          let win := windowCycles s l - (s.lane l).be.used
          decodeSlot b = some sb → bundleOk a sb = true →
            (shot < k → shot ≤ win → exec (r.2 l ty d s1 s2 b) s = .next (failPeriod (spendCycles s l n shot t) l n 1 [])) ∧
            (win < k → win < shot → exec (r.2 l ty d s1 s2 b) s = .next (spendCycles s l n win t)))))

/-- Task time and memory errors (R155, R161, R169, R173, R174). An expired shot clock fails the running period at its limit, the
cycles up to it spent, and does nothing where no task runs. The window closes, once. A word found bad is poisoned: on the lane of
a running task it fails the period that met it, and without one it goes by the lane's role. A read of the scrubber that finds
nothing does nothing, one that finds a bad word goes by the role, and a corrected one is counted, reported with the count at most
once a second. None of this is met on a lane that does not run. -/
def Obligations.TaskFaultRows : Prop :=
  ∀ (s : State) (l : LaneId),
    let key := (9 * 65536 + 1) * 2 ^ 32 + laneNo l
    let counted (n : Nat) : State := s.updLane l fun v => { v with be := { v.be with corrections := n } }
    (∀ n t, runningLevel s l = some n → s.taskDef n = some t → exec (.shotClockExpired l) s =
      .next (failPeriod (s.updLane l fun v => { v with be := { v.be with
        ctxs := v.be.ctxs.set n { ctxOf s l n with cyc := t.shot },
        used := v.be.used + (t.shot - (ctxOf s l n).cyc) } }) l n 1 [])) ∧
    (runningLevel s l = none → exec (.shotClockExpired l) s = .next s) ∧
    ((s.lane l).be.window = true → Gives (.beWindowClose l) s fun t => (t.lane l).be.window = false) ∧
    ((s.lane l).be.window = false → exec (.beWindowClose l) s = .next s) ∧
    (∀ n site, (s.lane l).runs = true → runningLevel s l = some n → exec (.uncorrectableError l site) s =
      .next (memoryByRole (failPeriod (memEvent (poison s l site) l (siteNo site)) l n 5 []) l site)) ∧
    (∀ site, (s.lane l).runs = true → runningLevel s l = none → exec (.uncorrectableError l site) s =
      .next (memoryByRole (memEvent (poison s l site) l (siteNo site)) l site)) ∧
    (∀ addr, exec (.scrubberRead l addr .clean) s = .next s) ∧
    (∀ addr, (s.lane l).runs = true → exec (.scrubberRead l addr .uncorrectable) s =
      .next (memoryByRole (memEvent (poison s l (.image addr)) l addr) l (.image addr))) ∧
    (∀ addr, (s.lane l).runs = true →
      (∀ m, (limitsOf s l).get? key = some m → s.grid.mono < m.at_ + 1000000000 →
        Becomes (.scrubberRead l addr .corrected) s (counted ((s.lane l).be.corrections + 1))) ∧
      (∀ m, (limitsOf s l).get? key = some m → m.at_ + 1000000000 ≤ s.grid.mono →
        Becomes (.scrubberRead l addr .corrected) s (counted 0)) ∧
      ((limitsOf s l).get? key = none → Becomes (.scrubberRead l addr .corrected) s (counted 0))) ∧
    ((s.lane l).runs = false → (∀ site, exec (.uncorrectableError l site) s = .next s) ∧
      ∀ addr r, exec (.scrubberRead l addr r) s = .next s)

/-! The tick and the islands (01, 05) -/

/-- TICK_EDGE (R125 to R127): with a lane running, the grid goes on by its rule, with the step of station time that waits once the
station is STOPPED and its last stop has taken effect; without one the tick count rises by one and station time is that many tick
lengths. With no lane running nothing moves. -/
def Obligations.TickRow : Prop :=
  ∀ (s : State) (skew : Int),
    let v := s.lane s.timeLane
    let step := if s.st.phase ≠ .running ∧ s.st.engaged = false ∧ (s.st.stopAt.any fun a => decide (s.grid.tick < a)) = false then v.net.step
      else none
    let g := advanceGrid step v.net.increment (v.clocks.src == .rc) s.lenNs s.grid
    (ticking s = false → exec (.tickEdge skew) s = .next s) ∧
    (ticking s = true → Gives (.tickEdge skew) s fun t => { t.grid with stepped := g.stepped } = g ∧
      (step = none → t.grid.tick = s.grid.tick + 1 ∧ t.grid.now = (s.grid.tick + 1) * s.lenNs ∧ t.grid.skipped = s.grid.skipped))

/-- The swaps and the cut-off (R133, R136, R138 to R140, R267, R269). A parked lane only judges the partner's heartbeat; the input
swap of a running lane is made once a tick, is the same on a lane that does not track, and opens the window on one that does. The
swap of MX-1's part is made once a tick, after the input swap, by a lane that tracks, and releases the tasks that wait for it
while the window is open. A cut-off is made once a tick by a running lane: one that does not track sends its heartbeat alone, one
that does closes the window, makes the passes that are due, freezes its image and closes its snapshot. -/
def Obligations.SwapRows : Prop :=
  ∀ (s : State) (l : LaneId),
    let t := s.grid.tick
    let v := s.lane l
    (v.phase = .parked → exec (.inputSwap l) s = .next (judgeHeartbeat s l)) ∧
    (v.phase ≠ .parked → v.runs = false ∨ v.swapTick = some t → exec (.inputSwap l) s = .next s) ∧
    (v.runs = true → v.swapTick ≠ some t →
      let h := judgeHeartbeat (s.updLane l fun v => { v with swapTick := some t }) l
      (tracks v = false → exec (.inputSwap l) s = .next h) ∧
      (tracks v = true → Gives (.inputSwap l) s fun u => (u.lane l).be.window = true) ∧
      (tracks v = true →
        let w := writeSys (canSwaps (flowSwaps (regainToken (((judgeSnapshot h l).updLane l (countReint t)).updLane l fun v =>
          [0, 1, 2, 3, 4, 6].foldl (fun v i => takeIsland t i v) v) l) l) l) l
        w.st.stopAt = some (t + 1) → w.st.ends.s = none → exec (.inputSwap l) s = .next (openWindow w l))) ∧
    (v.runs = false ∨ tracks v = false ∨ v.swapTick ≠ some t ∨ v.mxTick = some t → exec (.mx1Swap l) s = .next s) ∧
    (v.runs = true → tracks v = true → v.swapTick = some t → v.mxTick ≠ some t →
      let u := s.updLane l fun v => { takeIsland t mxIsl v with mxTick := some t }
      (v.be.window = false → exec (.mx1Swap l) s = .next u) ∧
      (v.be.window = true → exec (.mx1Swap l) s = .next (releaseTasks (updBe u l fun b =>
        { b with used := max b.used (tSsiOf s.cfgRecs * opMHz v.opp.op / 1000) }) l true))) ∧
    (∀ n, v.runs = false ∨ v.frozenTick = some t → exec (.outputCutoff l n) s = .next s) ∧
    (∀ n, v.runs = true → v.frozenTick ≠ some t →
      (tracks v = false → exec (.outputCutoff l n) s =
        .next (sendHeartbeat (s.updLane l fun v => { v with frozenTick := some t }) l)) ∧
      (tracks v = true →
        let u := publishLoops (publishChains (loopPasses (chainPasses (closeWindow s l) l) l (n.map fun k => k.val)) l) l
        let w := if u.st.stopAt = some (t + 1) then substAll u l else u
        exec (.outputCutoff l n) s = .next (keepStatus (restoreAtStart (bankAfterPatch (stopBank (sendHeartbeat (closeSnapshot
          ((writeDescs w l fun c => (w.lane l).skPdus.get c []).updLane l fun v =>
            { v with frozen := v.img, frozenTick := some t, loopLate := n.isSome, health := healthNow v })
          l) l) l) l) l) l)))

/-- What a swap takes (R136, R144): a good frame of this edge is copied over the island's part of the image byte for byte, and the
rest of the image stays; a frame that is bad or missing counts as lost. -/
def Obligations.SwapTakesFrame : Prop :=
  ∀ (t i : Nat) (v : Lane), v.img.wf →
    (∀ a : IslArrived, v.arrived.get? i = some a → a.frame.tick = t → a.frame.data.wf →
      (a.good = true →
        (∀ x, (islRange i).1 ≤ x → x < (islRange i).1 + (islRange i).2 → (takeIsland t i v).img.read x = a.frame.data.read x) ∧
        (∀ x, x < (islRange i).1 ∨ (islRange i).1 + (islRange i).2 ≤ x → (takeIsland t i v).img.read x = v.img.read x) ∧
        (takeIsland t i v).linkLost.get i 0 = 0) ∧
      (a.good = false → (takeIsland t i v).linkLost.get i 0 = v.linkLost.get i 0 + 1)) ∧
    ((∀ a : IslArrived, v.arrived.get? i = some a → a.frame.tick ≠ t) →
      (takeIsland t i v).linkLost.get i 0 = v.linkLost.get i 0 + 1)

/-- Islands (R26 to R28, R31, R129, R130, R140, R273). At its edge a powered island sends a frame that carries its tick, its
holder and its epoch; an expired watchdog substitutes; a marker of a running lane is kept with its correction; an input frame of
this tick that comes before its swap is kept, one with a bad check sum is counted and kept only as bad; one that shows the other
lane as holder deposes a lane with a role. An output frame with a bad check sum, from a lane without the token, or late is counted
and does nothing else; one that is in time is latched, SK-1's kept as the lane's newest. Anything else is let pass. -/
def Obligations.IslandRows : Prop :=
  ∀ (s : State) (i : Isl) (l : LaneId),
    let x := s.island i.val
    let v := s.lane l
    let due := x.powered = true ∧ tokenIslands.contains i.val = true ∧ x.latched = none ∧ s.islandWd ≤ x.wdCount + 1
    (∀ d, x.powered = false → exec (.islandEdge i d) s = .next s) ∧
    (∀ d, x.powered = true → Gives (.islandEdge i d) s fun t => ∃ f, (t.island i.val).frame = some f ∧
      f.tick = s.grid.tick ∧ f.holder = (t.island i.val).holder ∧ f.epoch = (t.island i.val).epoch) ∧
    (due → exec (.islandWatchdogExpired i) s = .next (s.updIsl i.val fun x => { x with subst := true, wdFired := true })) ∧
    (¬due → exec (.islandWatchdogExpired i) s = .next s) ∧
    (∀ ns, (x.powered = true → v.runs = true → exec (.edgeMarker i l ns) s = .next (s.updIsl i.val fun x => match l with
        | .a => { x with markA := some ns }
        | .b => { x with markB := some ns })) ∧
      (x.powered = false ∨ v.runs = false → exec (.edgeMarker i l ns) s = .next s)) ∧
    (∀ ok, x.frame = none → exec (.islandInputFrame i l ok) s = .next s) ∧
    (∀ f, x.frame = some f →
      let taken := v.runs = true ∧ x.powered = true ∧ f.tick = s.grid.tick ∧ swapDone s l i.val = false
      let u := s.updLane l fun v => takeFrame v l i.val f
      let deposes := runsRole v.role = true ∧ f.holder = some (other l) ∧ endsPassing s = false
      let kept := ∃ a, v.arrived.get? i.val = some a ∧ a.good = true ∧ a.frame.tick = f.tick
      (¬taken → ∀ ok, exec (.islandInputFrame i l ok) s = .next s) ∧
      (taken →
        Gives (.islandInputFrame i l false) s (fun t => (t.lane l).linkCnt = bump v.linkCnt (8 * i.val + 1) 1 ∧
          (t.lane l).img = v.img ∧ (kept → (t.lane l).arrived = v.arrived) ∧
          (¬kept → (t.lane l).arrived.get? i.val = some ⟨f, false⟩)) ∧
        (i.val = skIsl → exec (.islandInputFrame i l true) s = .next u) ∧
        (i.val ≠ skIsl → deposes → exec (.islandInputFrame i l true) s = .next (goOffline u l .deposed)) ∧
        (i.val ≠ skIsl → ¬deposes →
          (v.tok.grant = none → exec (.islandInputFrame i l true) s = .next u) ∧
          (∀ g, v.tok.grant = some g → f.holder ≠ some l → f.tick < g.edge ∨ i.val ∈ v.tok.missing →
            exec (.islandInputFrame i l true) s = .next u) ∧
          (∀ g, v.tok.grant = some g → f.holder ≠ some l → g.edge ≤ f.tick → i.val ∉ v.tok.missing →
            Becomes (.islandInputFrame i l true) s (u.updLane l fun v =>
              { v with tok := { v.tok with missing := v.tok.missing ++ [i.val] } })) ∧
          (∀ g, v.tok.grant = some g → f.holder = some l → Gives (.islandInputFrame i l true) s fun t =>
            i.val ∉ (t.lane l).tok.missing ∧ (t.lane l).arrived = (u.lane l).arrived)))) ∧
    (∀ ok late, x.powered = false ∨ sendsOutput s l = false → exec (.islandOutputFrame i l ok late) s = .next s) ∧
    (x.powered = true → sendsOutput s l = true →
      let isLate (late : Bool) : Prop := late = true ∨ v.frozenTick ≠ some s.grid.tick
      (∀ late, exec (.islandOutputFrame i l false late) s = .next (s.updIsl i.val fun x => countLink x l 0)) ∧
      (i.val ≠ skIsl → x.holder ≠ some l →
        ∀ late, exec (.islandOutputFrame i l true late) s = .next (s.updIsl i.val fun x => countLink x l 1)) ∧
      (i.val = skIsl ∨ x.holder = some l → ∀ late, isLate late →
        exec (.islandOutputFrame i l true late) s = .next (s.updIsl i.val fun x => countLink x l 2)) ∧
      (i.val ≠ skIsl → x.holder = some l → ¬isLate false → Gives (.islandOutputFrame i l true false) s fun t =>
        (t.island i.val).latched = some (latchOf s l (x.baseline == some l)) ∧ (t.island i.val).baseline = none ∧
        (t.island i.val).accNext = true) ∧
      (i.val = skIsl → ¬isLate false →
        (runsRole v.role = false → exec (.islandOutputFrame i l true false) s = .next s) ∧
        (runsRole v.role = true → exec (.islandOutputFrame i l true false) s = .next (s.updSk fun k => match l with
          | .a => { k with rxA := some (skFrame s .a k.rxA) }
          | .b => { k with rxB := some (skFrame s .b k.rxB) }))))

/-- Field supplies (R353, R364, R368, R400, R490): a supply that falls marks its island or its group of eight outputs, and SK-1's
switches its outputs off; its return clears the mark; one that already stands so changes nothing. -/
def Obligations.SupplyRows : Prop :=
  ∀ s : State,
    (∀ dio2 (g : Fin 4), let i := dioNo dio2
      (bit (s.island i).dio.low g = true → exec (.fieldSupplyLow (.dioGroup dio2 g)) s = .next s ∧
        Becomes (.fieldSupplyRestored (.dioGroup dio2 g)) s (updDio s i fun d => { d with low := d.low - 2 ^ g.val })) ∧
      (bit (s.island i).dio.low g = false → exec (.fieldSupplyRestored (.dioGroup dio2 g)) s = .next s ∧
        Becomes (.fieldSupplyLow (.dioGroup dio2 g)) s (updDio s i fun d => { d with low := d.low + 2 ^ g.val }))) ∧
    exec (.fieldSupplyLow .ai1) s = .next (s.updIsl 2 fun v => { v with ai := { v.ai with low := true } }) ∧
    exec (.fieldSupplyRestored .ai1) s = .next (s.updIsl 2 fun v => { v with ai := { v.ai with low := false } }) ∧
    exec (.fieldSupplyLow .ai2) s = .next (s.updIsl 3 fun v => { v with ai := { v.ai with low := true } }) ∧
    exec (.fieldSupplyRestored .ai2) s = .next (s.updIsl 3 fun v => { v with ai := { v.ai with low := false } }) ∧
    exec (.fieldSupplyLow .ao1) s = .next (s.updIsl 4 fun v => { v with ao := { v.ao with low := true } }) ∧
    exec (.fieldSupplyRestored .ao1) s = .next (s.updIsl 4 fun v => { v with ao := { v.ao with low := false } }) ∧
    ((s.island mxIsl).mx.low = false →
      Becomes (.fieldSupplyLow .mx1) s (s.updIsl mxIsl fun v => { v with mx := { v.mx with low := true } })) ∧
    ((s.island mxIsl).mx.low = true → exec (.fieldSupplyLow .mx1) s = .next s) ∧
    exec (.fieldSupplyRestored .mx1) s = .next (s.updIsl mxIsl fun v => { v with mx := { v.mx with low := false } }) ∧
    (s.sk.supplyLow = false → s.sk.powered = true → Becomes (.fieldSupplyLow .sk1) s (s.updSk fun k =>
      { k with supplyLow := true, outs := k.outs.map fun e => (e.1, e.2.off) })) ∧
    (s.sk.supplyLow = true ∨ s.sk.powered = false → exec (.fieldSupplyLow .sk1) s = .next s) ∧
    (s.sk.supplyLow = true → Becomes (.fieldSupplyRestored .sk1) s (s.updSk fun k => { k with supplyLow := false })) ∧
    (s.sk.supplyLow = false → exec (.fieldSupplyRestored .sk1) s = .next s)

/-! Field islands (13, 14) -/

/-- Digital and analogue rows (R350, R353, R362, R364). A switch that is on and reaches 170 °C latches OVERLOAD and is off; a
latch under automatic retry is re-armed at most three times in a row, and keeps for the next edge whether its switch is at 170 °C;
a group trip switches its eight outputs off, once; a transmitter supply that is off comes back for its retry; calibration marks
exactly the channels that failed. -/
def Obligations.FieldRows : Prop :=
  ∀ (s : State) (dio2 : Bool) (c : Fin 32) (g : Fin 4),
    let i := dioNo dio2
    let x := dioCh s i c
    (dioMode s i c = 3 → x.on = true → Becomes (.dioOverload dio2 c) s (setDioCh s i c { x with
      overl := true, on := false, limit := false, rearmed := none, armed := false, armHot := false,
      retries := x.rearmed.elim 0 fun t => if s.grid.mono ≤ t + 1000000000 then x.retries + 1 else 0 })) ∧
    (dioMode s i c ≠ 3 ∨ x.on = false → exec (.dioOverload dio2 c) s = .next s) ∧
    (let due := (∃ r, dioRec s i c = some r ∧ r.u 8 1 = 3 ∧ bit (r.u 9 1) 2 = true) ∧ x.overl = true ∧ x.retries < 3
      ∀ temp, (due → Becomes (.dioAutoRetry dio2 c temp) s (setDioCh s i c { x with
          overl := false, armed := true, armHot := decide (1700 ≤ temp), held := true, rearmed := some s.grid.mono })) ∧
        (¬due → exec (.dioAutoRetry dio2 c temp) s = .next s)) ∧
    (bit (s.island i).dio.trip g = true → exec (.dioGroupTrip dio2 g) s = .next s) ∧
    (bit (s.island i).dio.trip g = false → Gives (.dioGroupTrip dio2 g) s fun t =>
      (t.island i).dio.trip = (s.island i).dio.trip + 2 ^ g.val ∧ (∀ k < 8, (dioCh t i (8 * g.val + k)).on = false) ∧
      (∀ k, k < 8 * g.val ∨ 8 * g.val + 8 ≤ k → dioCh t i k = dioCh s i k)) ∧
    (∀ ai2 (n : Fin 16), let y := aiCh s (aiNo ai2) n
      (y.off = true → exec (.aiSupplyRetry ai2 n) s = .next (setAiCh s (aiNo ai2) n { y with off := false, shortRun := 0 })) ∧
      (y.off = false → exec (.aiSupplyRetry ai2 n) s = .next s)) ∧
    (∀ fails, Gives (.analogueCalibrationDone fails) s fun t => ∀ n : Fin 16,
      (n.val ∈ (t.island 2).ai.cal ↔ (0, n) ∈ fails) ∧ (n.val ∈ (t.island 3).ai.cal ↔ (1, n) ∈ fails) ∧
      (n.val ∈ (t.island 4).ao.cal ↔ (2, n) ∈ fails))

/-- Rows of MX-1 (R371, R373, R377, R379). A quadrature step counts by one in its direction, INVERT the other way, and a double
step is an error that does not count; a Z edge latches the count and judges Z_PERIOD; an SSI frame's position is taken only when
no check fails; a sentence joins the ring or counts as a failure; the sentence that waits is sent next, outside the dead ball. On
an interface or port without the record that the row needs the levels of A and B are followed and nothing else happens. -/
def Obligations.MxRows : Prop :=
  ∀ (s : State) (n : Fin 8) (p : Fin 4),
    let x := encOf s n
    let y := rsOf s p
    ((¬∃ r, encRec s n = some r ∧ r.u 8 1 = 1) →
      ∀ a b dt fast, exec (.encoderEdge n a b dt fast) s = .next (setEnc s n { x with a := a, b := b })) ∧
    (∀ r, encRec s n = some r → r.u 8 1 = 1 → ∀ a b dt tooFast,
      let x' := { x with a := a, b := b, rate := x.rate || tooFast }
      let d := (quadPos a b + 4 - quadPos x.a x.b) % 4
      let at10 := (s.grid.now + dt) / 10 * 10
      let counts (k : Int) : Prop := exec (.encoderEdge n a b dt tooFast) s = .next (setEnc s n
        { x' with count := wrap32 (x.count + k), run := x.run + k, last := some (at10, x.run + k), fresh := true })
      (d = 0 → exec (.encoderEdge n a b dt tooFast) s = .next (setEnc s n x')) ∧
      (d = 2 → exec (.encoderEdge n a b dt tooFast) s = .next (setEnc s n { x' with quad := true })) ∧
      (d = 1 → bit (r.u 9 1) 1 = false → counts 1) ∧ (d = 1 → bit (r.u 9 1) 1 = true → counts (-1)) ∧
      (d = 3 → bit (r.u 9 1) 1 = true → counts 1) ∧ (d = 3 → bit (r.u 9 1) 1 = false → counts (-1))) ∧
    ((¬∃ r, encRec s n = some r ∧ r.u 8 1 = 1 ∧ bit (r.u 9 1) 0 = true) → exec (.encoderZEdge n) s = .next s) ∧
    (∀ r, encRec s n = some r → r.u 8 1 = 1 → bit (r.u 9 1) 0 = true →
      let d := signed 32 (x.count + 2 ^ 32 - x.zCount)
      let bad := if r.u 0x14 4 = 0 ∨ x.zSeen = false then x.zErr else decide (d ≠ (r.u 0x14 4 : Int) ∧ d ≠ -(r.u 0x14 4 : Int))
      Becomes (.encoderZEdge n) s (setEnc s n { x with zCount := x.count, zSeq := (x.zSeq + 1) % 256, zSeen := true, zErr := bad })) ∧
    ((¬∃ r, encRec s n = some r ∧ r.u 8 1 = 2) → ∀ a b c, exec (.ssiFrameComplete n a b c) s = .next s) ∧
    (∀ r, encRec s n = some r → r.u 8 1 = 2 → ∀ ready monoflop (bits : List Bool),
      let all := (bits ++ List.replicate (r.u 0x0A 1) false).take (r.u 0x0A 1)
      let ssi := !ready || !monoflop
      let parity := bit (r.u 9 1) 3 && (all.filter id).length % 2 == 1
      let err := r.u 0x0F 1 != 0xFF && all.getD (r.u 0x0F 1) false
      Gives (.ssiFrameComplete n ready bits monoflop) s fun t =>
        (encOf t n).ssi = ssi ∧ (encOf t n).parity = parity ∧ (encOf t n).err = err ∧
        (encOf t n).count = if ssi = false ∧ parity = false ∧ err = false then ssiPosition r all else x.count) ∧
    (rsRec s p = none → ∀ text e dt, exec (.rs422Sentence p text e dt) s = .next s) ∧
    (∀ q, rsRec s p = some q → ∀ text dt,
      let t := chop text
      let good := t.length ≤ 80 ∧ nmeaOk t (bit (q.u 9 1) 0) = true
      (good → exec (.rs422Sentence p text false dt) s = .next (setRs s p
        { y with sentences := (y.sentences + 1) % 2 ^ 32, rx := y.rx ++ [⟨s.grid.tick, s.grid.now + dt, t⟩] })) ∧
      (¬good → Becomes (.rs422Sentence p text false dt) s (setRs s p { y with csFail := (y.csFail + 1) % 2 ^ 32 })) ∧
      Becomes (.rs422Sentence p text true dt) s (setRs s p { y with csFail := (y.csFail + 1) % 2 ^ 32 })) ∧
    (y.sending = none → exec (.rs422TxDone p) s = .next s) ∧
    (y.sending ≠ none →
      (y.waiting = none ∨ (s.island mxIsl).driven = false → exec (.rs422TxDone p) s = .next (setRs s p { y with sending := none })) ∧
      (∀ t, y.waiting = some t → (s.island mxIsl).driven = true →
        exec (.rs422TxDone p) s = .next ((setRs s p { y with sending := some t, waiting := none }).emit (.rs422 p t))))

/-! CAN (12) -/

/-- CAN rows (R327, R328, R333 to R343). A frame received by a port that runs is stored by its filter's verdict and counted, and
lowers REC; a CAN FD frame is an error on a classical port. A request that stands in the frozen control fields is taken once, and
refused without another effect where its condition fails. A wake frame, or any where no pattern is set, wakes a sleeping port.
Errors count by the port's state; bus-off flushes the FIFO and recovers; a frame sent leaves the FIFO, and the other lane's copy
of it, and a FD frame of an error-passive port carries ESI; a frame received leaves the shadow that a STANDBY port holds of it; a
sensor port's rate is taken while it is detected, and silence reported once. A port without a record does nothing. -/
def Obligations.CanRows : Prop :=
  ∀ (s : State) (l : LaneId) (port : Fin 10),
    let c := canPort s l port
    let bus := isSc port = false
    let requests : List (Nat × Instr) := [(1, .canSleepRequest l port), (2, .canWakeRequest l port), (3, .canRecoverRequest l port)]
    (canRec s port = none → (∀ f dt, exec (.canFrameReceived l port f dt) s = .next s) ∧
      (∀ i ∈ requests, exec i.2 s = .next s) ∧ (∀ f, exec (.canBusWake l port f) s = .next s) ∧
      ∀ (sc : Fin 2) (rate : Fin 12), port.val = 8 + sc.val → exec (.scRateDetected sc rate) s = .next s) ∧
    (∀ r, canRec s port = some r →
      let m := canFields s l port
      let seq := m.rdU (canCtlBase port) 1
      let req := m.rdU (canCtlBase port + 1) 1
      let taken := updCan s l port fun c => { c with ctrl := seq }
      let woken (s : State) := updCan s l port fun c =>
        { c.flush with pstate := workState s l port, woke := true, finishing := false }
      let hears := c.pstate ≠ 0 ∧ c.pstate ≠ 4 ∧ (isSc port = true ∨ tracks (s.lane l) = true)
      (∀ f dt,
        let shadow := if c.pstate = 1 then dropOldest f.ide f.ident c.fifo else c.fifo
        let counted : CanPort :=
          { ({ c with rc := c.rc - 1 } : CanPort).bump 0 1 with rxFrames := (c.rxFrames + 1) % 2 ^ 32, fifo := shadow }
        let entry := rxEntry f s.tickNo (s.shortTime dt)
        let stored (b : Option Nat) : Prop := exec (.canFrameReceived l port f dt) s =
          .next (updCan s l port fun _ => { counted with pending := c.pending ++ [⟨s.grid.tick, b, entry⟩] })
        (¬hears → exec (.canFrameReceived l port f dt) s = .next s) ∧
        (hears → f.fdf = true → r.u 8 1 = 0 → exec (.canFrameReceived l port f dt) s = .next (rxError s l port false)) ∧
        (hears → (f.fdf = true → r.u 8 1 ≠ 0) →
          (c.rc ≤ 127 →
            (∀ b, canFilter s port f = some (2, b) → stored (some b)) ∧
            (∀ b, canFilter s port f = some (1, b) → stored none) ∧
            (canFilter s port f = none → r.u 9 1 = 0 → stored none) ∧
            ((canFilter s port f = none ∧ r.u 9 1 ≠ 0) ∨ (∃ v, canFilter s port f = some v ∧ v.1 ≠ 1 ∧ v.1 ≠ 2) →
              exec (.canFrameReceived l port f dt) s = .next (updCan s l port fun _ => counted.bump 2 1))) ∧
          (127 < c.rc → Gives (.canFrameReceived l port f dt) s fun t => 119 ≤ (canPort t l port).rc ∧ (canPort t l port).rc ≤ 127 ∧
            (canPort t l port).rxFrames = (c.rxFrames + 1) % 2 ^ 32 ∧ (canPort t l port).fifo = shadow))) ∧
      (∀ i ∈ requests, c.ctrl = seq ∨ req ≠ i.1 → exec i.2 s = .next s) ∧
      (c.ctrl ≠ seq →
        (req = 1 → bit (r.u 0x0A 1) 2 = true ∧ c.quality = true →
          Becomes (.canSleepRequest l port) s (updCan taken l port CanPort.toSleep)) ∧
        (req = 1 → ¬(bit (r.u 0x0A 1) 2 = true ∧ c.quality = true) → Becomes (.canSleepRequest l port) s taken) ∧
        (req = 2 → c.pstate = 4 → Becomes (.canWakeRequest l port) s (woken taken)) ∧
        (req = 2 → c.pstate ≠ 4 → Becomes (.canWakeRequest l port) s taken) ∧
        (req = 3 → c.pstate = 3 → c.recovering = false → exec (.canRecoverRequest l port) s =
          .next (updCan taken l port fun c => { c with recovering := true })) ∧
        (req = 3 → c.pstate ≠ 3 ∨ c.recovering = true → Becomes (.canRecoverRequest l port) s taken)) ∧
      (∀ f : Option CanFrame,
        let wakes := c.pstate = 4 ∧ (bit (r.u 0x0A 1) 3 = false ∨ ∃ x, f = some x ∧ wakeFrame r x = true)
        (wakes → Becomes (.canBusWake l port f) s (woken s)) ∧ (¬wakes → exec (.canBusWake l port f) s = .next s)) ∧
      (∀ (sc : Fin 2) (rate : Fin 12), port.val = 8 + sc.val →
        let fits := c.pstate = 5 ∧ rate.val ≠ 0 ∧ (r.u 0x0B 1 = 0 ∨ r.u 0x0B 1 = rate.val)
        (fits → Becomes (.scRateDetected sc rate) s
          (updCan s l port fun c => { c with pstate := 2, rate := rate.val, quiet := false })) ∧
        (¬fits → exec (.scRateDetected sc rate) s = .next s))) ∧
    (∀ e, c.pstate = 0 ∨ (c.pstate = 4 ∧ c.finishing = false) → exec (.canError l port e) s = .next s) ∧
    (¬(c.pstate = 0 ∨ (c.pstate = 4 ∧ c.finishing = false)) →
      exec (.canError l port .arbitration) s = .next (updCan s l port fun c => (c.bump 7 1).unfinish) ∧
      Becomes (.canError l port .protocolException) s s ∧
      Becomes (.canError l port .tdcOutside) s (updCan s l port fun c => { c with tdc := true }) ∧
      (c.pstate = 5 → exec (.canError l port .rateFailed) s = .next (updCan s l port fun c => { c with rate := 0 })) ∧
      (c.pstate ≠ 5 → exec (.canError l port .rateFailed) s = .next s) ∧
      (c.pstate ≠ 2 → exec (.canError l port .tx) s = .next (updCan s l port fun c => (c.bump 4 1).unfinish) ∧
        ∀ step8, exec (.canError l port (.rx step8)) s = .next (updCan s l port fun c => c.bump 4 1)) ∧
      (c.pstate = 2 → bus →
        (c.tec + 8 ≤ 255 → Becomes (.canError l port .tx) s
          (updCan s l port fun c => { c.bump 4 1 with finishing := false, tec := c.tec + 8 })) ∧
        (255 < c.tec + 8 → Gives (.canError l port .tx) s fun t => (canPort t l port).pstate = 3 ∧ (canPort t l port).fifo = [] ∧
          (canPort t l port).recovering = (canRec s port).elim false fun r => bit (r.u 0x0A 1) 1) ∧
        (∀ step8, Becomes (.canError l port (.rx step8)) s (updCan s l port fun c =>
          { c.bump 4 1 with rc := min (c.rc + if step8 then 8 else 1) 255 }))) ∧
      (c.pstate = 2 → isSc port = true → c.ec = 0 → 128 ≤ c.tec + 8 → Gives (.canError l port .tx) s fun t =>
        (canPort t l port).pstate = 5 ∧ (canPort t l port).rate = 0 ∧ (canPort t l port).tec = 0)) ∧
    (c.pstate = 3 → c.recovering = true → Becomes (.canBusoffRecovered l port) s (updCan s l port fun c =>
      { c with pstate := workState s l port, recovering := false, tec := 0, rc := 0 })) ∧
    (c.pstate ≠ 3 ∨ c.recovering = false → exec (.canBusoffRecovered l port) s = .next s) ∧
    (c.fifo = [] ∨ (c.pstate ≠ 2 ∧ c.finishing = false) → exec (.canFrameTxDone l port) s = .next s) ∧
    (∀ x rest, c.fifo = x :: rest → c.pstate = 2 ∨ c.finishing = true →
      let sent := updCan s l port fun c =>
        { c.bump 1 1 with finishing := false, fifo := rest, txDone := (c.txDone + 1) % 2 ^ 32, tec := c.tec - 1 }
      let onBus : CanFrame := { x.f with esi := x.f.fdf && c.ec == 1 }
      (bus → Gives (.canFrameTxDone l port) s fun t => Out.can l port onBus ∈ t.out ∧
        Reports (updCan sent (other l) port fun d =>
          if d.pstate = 1 ∨ d.pstate = 2 then { d with fifo := dropOldest x.f.ide x.f.ident d.fifo } else d) t) ∧
      (isSc port = true → Gives (.canFrameTxDone l port) s fun t => Out.can s.mainLane port onBus ∈ t.out ∧ Reports sent t)) ∧
    (∀ sc : Fin 2, port.val = 8 + sc.val →
      (c.pstate = 5 → c.quiet = false → Becomes (.scNoTraffic sc) s (updCan s l port fun c => { c with quiet := true })) ∧
      (c.pstate ≠ 5 ∨ c.quiet = true → exec (.scNoTraffic sc) s = .next s))

/-! Loops and chains (08, 09) -/

/-- Deadlines of loops and chains (R138, R230, R231, R255, R256): while the lane's engine may run them, the loop whose pass made
now, after its chain's, trips for the row's cause, and the chain whose pass made now leaves the state that the row names, is
passed now; a loop or chain that its deadline does not concern, that the lane's engine may not run yet, or that has no record, is
untouched. -/
def Obligations.DeadlineRows : Prop :=
  ∀ (s : State) (l : LaneId) (n : Fin 128) (k : Fin 16),
    (s.cfgRec 0x0801 n = none → exec (.loopQbadExpired l n) s = .next s ∧ exec (.loopFeExpired l n) s = .next s) ∧
    (∀ r, s.cfgRec 0x0801 n = some r →
      (engineReady s l (loopMx s r) = false ∨ s.st.engaged = false →
        exec (.loopQbadExpired l n) s = .next s ∧ exec (.loopFeExpired l n) s = .next s) ∧
      (engineReady s l (loopMx s r) = true → s.st.engaged = true →
        let w := if lpChain r then (s.cfgRec 0x0901 (r.u 0x2C 4 % 16)).elim s fun c => chainPass s l c else s
        let u := loopPass w l n
        let trips (cause : Nat) : Prop := (loopOf (s.lane l) n).st ≠ .tripped ∧ (loopOf (u.lane l) n).st = .tripped ∧
          (loopOf (u.lane l) n).cause = cause
        (trips 2 → exec (.loopQbadExpired l n) s = .next u) ∧ (¬trips 2 → exec (.loopQbadExpired l n) s = .next s) ∧
        (trips 1 → exec (.loopFeExpired l n) s = .next u) ∧ (¬trips 1 → exec (.loopFeExpired l n) s = .next s))) ∧
    (let rows : List Instr := [.chainStaleExpired l k, .chainHoldExpired l k, .chainFadeEnd l k, .chainSettleEnd l k]
     (s.cfgRec 0x0901 k = none → ∀ i ∈ rows, exec i s = .next s) ∧
     (∀ r, s.cfgRec 0x0901 k = some r → engineReady s l (chainMx r) = false → ∀ i ∈ rows, exec i s = .next s)) ∧
    (∀ r, s.cfgRec 0x0901 k = some r → engineReady s l (chainMx r) = true →
      let u := chainPass s l r
      let was := chainOf (s.lane l) k
      let is := chainOf (u.lane l) k
      let row (i : Instr) (p : Prop) : Prop := (p → exec i s = .next u) ∧ (¬p → exec i s = .next s)
      row (.chainStaleExpired l k) (was.st ≠ is.st ∧ bit is.cstat 3 = true ∧ is.sat = false) ∧
      row (.chainHoldExpired l k) (was.st = .hold ∧ is.st = .fadeOut) ∧
      row (.chainFadeEnd l k) ((was.st = .fadeOut ∧ is.st = .zero) ∨ (was.st = .fadeIn ∧ is.st = .run)) ∧
      row (.chainSettleEnd l k) (was.st = .settle ∧ is.st = .fadeIn))

/-! Plant network and station time (11) -/

/-- Plant network rows (R21, R106, R293 to R295, R303 to R319). A lane whose domains run counts what arrives, and takes it only in
another role than OFFLINE. A frame with a bad frame check counts as that alone; a second copy is discarded and counted; a frame of
another EtherType is shed and counted at its port; a newer frame of a receive flow joins its inbox, an older one counts, the third
in a period is shed, and one of no flow counts at its port; a flow goes DOWN when its update says so; a broadcast is taken for the
flows of its group and port, counts at its port where there are none, at each flow as shed where it is no UdPbC datagram, and
without a good sentence changes no entry; a descriptor at the head of its queue is removed beyond the horizon, held before its
target and launched at it, or LATE after it, and the flow's later descriptors stay; links, supervision frames and the bootstrap
address change the unit's state; a request for the lane's own address is answered on both ports, and beyond the limit dropped. -/
def Obligations.NetworkRows : Prop :=
  ∀ (s : State) (l : LaneId) (n : Fin 256),
    let v := (s.lane l).net
    let up := (s.lane l).feed = true ∧ (s.lane l).runs = true
    let on := up ∧ (s.lane l).role ≠ .offline
    (∀ (w : Tagged) f,
      let i := Instr.flowFrameReceived l w f
      let portB := w.portB
      let u := (plantIn s l ⟨portB, f.src, f.prp, w.fcs⟩).2
      let flow := (flowRecs s 1).find? fun r => r.u 9 1 != 2 && r.u 0x16 2 == f.station && r.u 0x14 2 == f.flowId &&
        r.u 0x24 2 == f.payload.length && r.u 0x1E 2 == w.vlan
      let foreign := ∃ r, netRec s = some r ∧ r.u 8 2 ≠ w.etherType
      (¬up → exec i s = .next s) ∧
      (up → w.fcs = false → exec i s = .next (countPort s l portB 2)) ∧
      (∀ q, up → w.fcs = true → f.prp = some q → (prpPass (countPort s l portB 0) l f.src q).1 = false →
        exec i s = .next (countPort (prpPass (countPort s l portB 0) l f.src q).2 l portB 3)) ∧
      (up → (plantIn s l ⟨portB, f.src, f.prp, w.fcs⟩).1 = true →
        (foreign → exec i s = .next (countPort u l portB 5)) ∧
        (¬foreign → flow = none → exec i s = .next (countPort u l portB 4)) ∧
        (∀ r, ¬foreign → flow = some r → ¬on → exec i s = .next u) ∧
        (∀ r, ¬foreign → flow = some r → on →
          let c := flowOf (s.lane l) r.inst
          let w := s.grid.tick / r.u 0x0C 2
          let k := if c.win = w then c.winCount else 0
          let old := ∃ q, c.lastSeq = some q ∧ diff32 f.seq q ≤ 0
          let c' := if c.lastSeq.any fun q => decide (1 < diff32 f.seq q) then c.bump 2 1 else c
          (old → exec i s = .next (updFlow u l r.inst fun c => c.bump 1 1)) ∧
          (¬old → 2 ≤ k → Becomes i s (countPort (updFlow u l r.inst fun c => c.bump 5 1) l portB 5)) ∧
          (¬old → k < 2 → exec i s = .next (updFlow u l r.inst fun _ =>
            { c' with lastSeq := some f.seq, win := w, winCount := k + 1, inbox := c.inbox ++ [f] }))))) ∧
    (∀ o, o = ((flowRecs s 1).find? fun r => r.inst == n.val && r.u 9 1 != 2) →
      (o = none → exec (.flowDown l n) s = .next s) ∧
      (∀ r, o = some r →
        let falls := (flowOf (s.lane l) n).rstate ≠ 2 ∧ (flowOf ((flowSwap s l r).lane l) n).rstate = 2
        (falls → exec (.flowDown l n) s = .next (flowSwap s l r)) ∧ (¬falls → exec (.flowDown l n) s = .next s))) ∧
    (∀ (rx : Rx) (g : Datagram450) dt ts,
      let i := Instr.udpbcDatagram l rx g dt ts
      let r := plantIn s l rx
      let flows := (flowRecs s 1).filter fun r => r.u 9 1 == 2 && (r.bytes.drop 0x18).take 6 == g.mac && r.u 0x14 2 == g.port
      let each (f : State → CfgRec → State) := exec i s = .next (flows.foldl f r.2)
      (¬up → exec i s = .next s) ∧ (up → r.1 = false → exec i s = .next r.2) ∧
      (up → r.1 = true →
        (flows = [] → exec i s = .next (countPort r.2 l rx.portB 5)) ∧
        (flows ≠ [] → ¬on → exec i s = .next r.2) ∧
        (flows ≠ [] → on →
          (g.udpbc = true → each fun s r => udpbcTake s l r dt ts) ∧
          (g.udpbc = true → (∀ t ∈ ts, nmeaOk (chop (skipTag t)) true = false) → each fun s r => updFlow s l r.inst fun c => c.bump 0 1) ∧
          (g.udpbc = false → each fun s r => updFlow s l r.inst fun c => c.bump 5 1)))) ∧
    (∀ now, (flowOf (s.lane l) n).descs = [] ∨ ((flowRecs s 0).find? fun r => r.inst == n.val) = none ∨
      runsRole (s.lane l).role = false → exec (.flowLaunch l n now) s = .next s) ∧
    (∀ r d rest now, ((flowRecs s 0).find? fun r => r.inst == n.val) = some r → (flowOf (s.lane l) n).descs = d :: rest →
      runsRole (s.lane l).role = true →
      let e := diff32 now.toNat d.target
      let count := ((flowOf (s.lane l) n).count + 1) % 2 ^ 32
      let gone (t : State) : Prop := (flowOf (t.lane l) n).descs.tail = rest.tail ∧
        (flowOf (t.lane l) n).descs.map FlowDesc.time = rest.map FlowDesc.time ∧ (flowOf (t.lane l) n).count = count
      let sent (late : Nat) : Prop := Gives (.flowLaunch l n now) s fun t => gone t ∧ ∃ ports w f, Out.flow l ports w f ∈ t.out ∧
        f.seq = count ∧ f.tickNumber = d.tick ∧ f.launchTime = d.time ∧ f.payload = d.payload ∧ f.fflags = d.flags + late
      (queueHead s l (r.u 0x0E 1) ≠ some n.val → exec (.flowLaunch l n now) s = .next s) ∧
      (queueHead s l (r.u 0x0E 1) = some n.val →
        ((horizon s : Int) < -e → Gives (.flowLaunch l n now) s gone) ∧
        (-e ≤ (horizon s : Int) →
          (d.held = true → -40 ≤ e → e ≤ 40 → sent 0) ∧
          (0 ≤ e → ¬(d.held = true ∧ e ≤ 40) → sent 1) ∧
          (e < 0 → ¬(d.held = true ∧ -40 ≤ e) → exec (.flowLaunch l n now) s = .next (updFlow s l n fun c =>
            { c with descs := { d with held := true } :: rest }))))) ∧
    (∀ portB : Bool,
      let now := if portB then v.upB else v.upA
      let there := (s.lane l).present = true
      let counted := countPort s l portB 0
      (∀ up, ¬there ∨ now = up → exec (.phyLinkChange l portB up) s = .next s) ∧
      (there → now = false → Becomes (.phyLinkChange l portB true) s
        (s.updNet l fun v => if portB then { v with upB := true } else { v with upA := true })) ∧
      (there → now = true → Becomes (.phyLinkChange l portB false) s
        (countPort (s.updNet l fun v => if portB then { v with upB := false } else { v with upA := false }) l portB 6)) ∧
      (∀ node,
        (¬there → exec (.prpSupervisionFrame l portB node) s = .next s ∧ exec (.prpSupervisionLost l portB node) s = .next s) ∧
        (there → exec (.prpSupervisionFrame l portB node) s = .next (counted.updNet l fun v =>
          { v with nodes := v.nodes.set node (v.nodes.get node 0 ||| 2 ^ portNo portB) })) ∧
        (there → bit (v.nodes.get node 0) (portNo portB) = true → Becomes (.prpSupervisionLost l portB node) s (s.updNet l fun v =>
          { v with nodes := v.nodes.set node (v.nodes.get node 0 - 2 ^ portNo portB) })) ∧
        (bit (v.nodes.get node 0) (portNo portB) = false → exec (.prpSupervisionLost l portB node) s = .next s))) ∧
    (on → (netRec s).isSome = true → exec (.prpSupervisionSend l) s =
      .next ((countPort (countPort (s.updNet l fun v => { v with prpSeq := (v.prpSeq + 1) % 65536 }) l false 1) l true 1).emit
        (.prpSupervision l v.prpSeq))) ∧
    (¬on ∨ netRec s = none → exec (.prpSupervisionSend l) s = .next s) ∧
    (∀ conflict : Bool,
      let runs := (s.lane l).phase = .running ∧ netRec s = none ∧ v.bootUp = false
      let o := (s.lane (other l)).net
      let meets := conflict = true ∨ (o.bootUp = true ∧ o.bootIp = v.bootIp)
      let linkLocal (ip : Nat) : Prop := 0xA9FE0100 ≤ ip ∧ ip < 0xA9FEFF00
      (¬runs → exec (.thlBootstrapStart l conflict) s = .next s) ∧
      (runs → v.bootIp ≠ 0 → ¬meets →
        exec (.thlBootstrapStart l conflict) s = .next (s.updNet l fun v => { v with bootUp := true })) ∧
      (runs → v.bootIp ≠ 0 → meets → Gives (.thlBootstrapStart l conflict) s fun t => linkLocal (t.lane l).net.bootIp ∧
        (t.lane l).net.bootIp ≠ o.bootIp ∧ (t.lane l).net.bootUp = false) ∧
      (runs → v.bootIp = 0 → Gives (.thlBootstrapStart l conflict) s fun t => linkLocal (t.lane l).net.bootIp ∧
        ((t.lane l).net.bootUp = true → (o.bootUp = true → o.bootIp ≠ (t.lane l).net.bootIp)))) ∧
    (∀ (rx : Rx) x, let i := Instr.arpIcmpFrame l rx x
      ((s.lane l).present = false → exec i s = .next s) ∧
      ((s.lane l).present = true →
        ((plantIn s l rx).1 = false → exec i s = .next (plantIn s l rx).2) ∧
        (∀ u, (plantIn s l rx).1 = true → admitRate (plantIn s l rx).2 l (40 + portNo rx.portB) 100 = (false, u) →
          Becomes i s (countPort u l rx.portB 5)) ∧
        (∀ u, (plantIn s l rx).1 = true → admitRate (plantIn s l rx).2 l (40 + portNo rx.portB) 100 = (true, u) →
          let answers := netRec s ≠ none ∧ (netRec s).elim false (fun r => bit (r.u 0x0A 2) 1) = true
          let claimed (ip : Word) := netRec s = none ∧ v.bootIp = ip.toNat ∧ v.bootIp ≠ 0
          (∀ ip, x = .arpRequest ip → ownsIp s l ip = true → exec i s = .next (sendPlant u l fun q => .arp l q ip)) ∧
          (∀ ip, x = .arpRequest ip → ownsIp s l ip = false → exec i s = .next u) ∧
          (∀ ip, x = .echo ip → ownsIp s l ip = true ∧ answers → exec i s = .next (sendPlant u l fun q => .echo l q ip)) ∧
          (∀ ip, x = .echo ip → ¬(ownsIp s l ip = true ∧ answers) → exec i s = .next u) ∧
          (∀ ip, x = .arpClaim ip → claimed ip → Gives i s fun t => 0xA9FE0100 ≤ (t.lane l).net.bootIp ∧
            (t.lane l).net.bootIp < 0xA9FEFF00 ∧ (t.lane l).net.bootIp ≠ (s.lane (other l)).net.bootIp ∧
            (t.lane l).net.bootUp = false) ∧
          (∀ ip, x = .arpClaim ip → ¬claimed ip → exec i s = .next u))))

/-- Station time (R110, R296 to R301, R313, R468). A message before clock qualification is let pass, one beyond the limits shed;
one without a time record or over the other transport only counts. An Announce of the station's domain joins its port's masters,
and the best of both ports is selected; a delay message sets the port's delay under the station's own mechanism, a neighbour's
request is answered; a Sync of the selected grandmaster has the port ask for its delay, and sets its offset where that is known;
on port A in use, an unlocked clock goes on to LOCKING, the sixteenth offset within LOCK locks it and the fourth beyond four times
LOCK unlocks it. The loss of every Sync ends the selection and takes the clock to HOLDOVER or FREE, the end of holdover to FREE; a
time anchor is written only while LOCKED, and changes only what reports change. -/
def Obligations.TimeRows : Prop :=
  ∀ (s : State) (l : LaneId),
    let v := (s.lane l).net
    (∀ (portB udp : Bool),
      let heard := (s.lane l).runs = true ∧ (s.lane l).clkQual = true
      let rows (typ : Nat) (i : Instr) : Prop := (typ = 0 ∧ ∃ m, i = .ptpAnnounce l portB udp m) ∨
        (∃ d, typ = delayType d ∧ i = .ptpDelayMessage l portB udp d) ∨ (typ = 2 ∧ ∃ a d o, i = .ptpSync l portB udp a d o)
      let admits (typ : Nat) := admitRate (countPort (countPort s l portB 0) l portB 7) l (2 * typ + portNo portB) 64
      (∀ typ i, rows typ i →
        (¬heard → exec i s = .next s) ∧
        (∀ u, heard → admits typ = (false, u) → Becomes i s (countPort u l portB 5)) ∧
        (∀ u, heard → admits typ = (true, u) → (timeRec s = none ∨ ∃ r, timeRec s = some r ∧ udp ≠ ptpUdp r) → exec i s = .next u)) ∧
      (∀ r, heard → timeRec s = some r → udp = ptpUdp r →
        (∀ u (m : Announce), admits 0 = (true, u) →
          (m.domain ≠ r.u 8 1 → exec (.ptpAnnounce l portB udp m) s = .next u) ∧
          (m.domain = r.u 8 1 → Gives (.ptpAnnounce l portB udp m) s fun t =>
            ((t.lane l).net.port portB).masters = m :: ((v.port portB).masters.filter fun a => a.identity != m.identity) ∧
            ∀ b, bestMaster ((t.lane l).net.portA.masters ++ (t.lane l).net.portB.masters) = some b →
              (t.lane l).net.gm = some b.identity)) ∧
        (∀ ns,
          let gives (m : PtpDelay) (f : State → State) : Prop :=
            ∀ u, admits (delayType m) = (true, u) → exec (.ptpDelayMessage l portB udp m) s = .next (f u)
          let takes (m : PtpDelay) : Prop := gives m fun u => u.updNet l fun v => v.setPort portB { v.port portB with delay := some ns }
          let passes (m : PtpDelay) : Prop := gives m id
          passes .delayReq ∧
          (peerDelay r = false → takes (.delayResp ns) ∧ passes (.peerResp ns) ∧ passes .peerReq) ∧
          (peerDelay r = true → passes (.delayResp ns) ∧ takes (.peerResp ns) ∧
            gives .peerReq fun u => sendPtp u l portB r .peerResp)) ∧
        (∀ u identity domain (off : Int), admits 2 = (true, u) →
          let i := Instr.ptpSync l portB udp identity domain off
          let asked := sendPtp u l portB r (if peerDelay r then .peerReq else .delayReq)
          let est := ((v.port v.useB).offset).getD 0
          let inBand := (off - est).natAbs ≤ 1000000000 ∨ v.time = .free ∨ v.time = .locking
          (domain ≠ r.u 8 1 ∨ v.gm ≠ some identity → exec i s = .next u) ∧
          (domain = r.u 8 1 → v.gm = some identity →
            ((v.port portB).delay = none ∨ ¬inBand → exec i s = .next asked) ∧
            ((v.port portB).delay ≠ none → inBand →
              Gives i s (fun t => ((t.lane l).net.port portB).offset = some off ∧ ((t.lane l).net.port portB).last = s.grid.mono) ∧
              (portB = false → v.useB = false →
                (v.time = .free ∨ v.time = .holdover → Gives i s fun t => (t.lane l).net.time = .locking) ∧
                (v.time = .locking → off.natAbs ≤ r.u 0x0C 4 → 15 ≤ v.goodRun → Gives i s fun t => (t.lane l).net.time = .locked) ∧
                (v.time = .locking → r.u 0x0C 4 < off.natAbs → Gives i s fun t =>
                  (t.lane l).net.time = .locking ∧ (t.lane l).net.goodRun = 0) ∧
                (v.time = .locked → 4 * r.u 0x0C 4 < off.natAbs → 3 ≤ v.badRun →
                  Gives i s fun t => (t.lane l).net.time = .locking))))))) ∧
    (let ended (t : State) : Prop := (t.lane l).net.gm = none ∧ (t.lane l).net.portA.masters = [] ∧ (t.lane l).net.portB.masters = []
     (v.time = .locked ∨ (v.time = .locking ∧ v.lockedBefore = true) →
       Gives (.announceTimeout l) s fun t => ended t ∧ (t.lane l).net.time = .holdover ∧ (t.lane l).net.holdAt = s.grid.mono) ∧
     (v.time = .locking → v.lockedBefore = false →
       Gives (.announceTimeout l) s fun t => ended t ∧ (t.lane l).net.time = .free) ∧
     (v.time = .free ∨ v.time = .holdover → Gives (.announceTimeout l) s fun t => ended t ∧ (t.lane l).net.time = v.time)) ∧
    (v.time = .holdover → Becomes (.holdoverExpired l) s (s.updNet l fun v =>
      { v with time := .free, goodRun := 0, badRun := 0, lockedBefore := false })) ∧
    (v.time ≠ .holdover → exec (.holdoverExpired l) s = .next s) ∧
    (s.activeLane = some l → v.time = .locked → Becomes .timeAnchorDue s s) ∧
    (s.activeLane = none ∨ (s.activeLane = some l ∧ v.time ≠ .locked) → exec .timeAnchorDue s = .next s)

/-! Recorder and retained banks (17) -/

/-- Recorder rows (R460 to R467, R474, R478). The record that arrived first is taken while the service domain is up, by its bucket
unless it was staged, and lanes that staged write back behind it; a flood window closes at whole minutes of operating time, the
service domain up or not; operating time steps while a feed stands, and in a staging lane; a periodic bank starts when it is due
and none is being written; a bank's write ends; without the service domain each running lane stages, and its return ends that.
RECORDER_CLEAR (R472) needs a session and the service domain; it empties the recorder up to its own record, whose sequence is the
new oldest one's base. -/
def Obligations.RecorderRows : Prop :=
  (∀ (s : State) (l : LaneId),
     let v := s.svc.rcd
     let calm := ∀ k, (s.lane k).staging.active = false ∧ (s.lane k).staging.recs = []
     (v.queue = [] ∨ s.svc.up = false → exec .recordArrival s = .next s) ∧
     (∀ r rest, v.queue = r :: rest → s.svc.up = true →
       let popped := s.updRec fun v => { v with queue := rest }
       exec .recordArrival s = .next (writeBack (bothLanes unstage (arrive popped r))) ∧
       (calm → r.staged = true → exec .recordArrival s = .next (s.updRec fun v => acceptRec { v with queue := rest } r r.withheld)) ∧
       (∀ ok k t, calm → r.staged = false →
         bucketJudge v.buckets (bucketSetting s r.src r.code) (r.stamps.elim v.optime fun x => x.1) r = (ok, k, t) →
         exec .recordArrival s = .next (s.updRec fun v =>
           if ok then acceptRec { v with queue := rest, buckets := t } r (r.withheld + k) else { v with queue := rest, buckets := t }))) ∧
     (v.optime % 960 ≠ 0 → exec .floodWindowEnd s = .next s) ∧
     (v.optime % 960 = 0 → Gives .floodWindowEnd s fun t => (∀ b ∈ t.svc.rcd.buckets, b.2.window = 0) ∧
       t.svc.rcd.buckets.map (fun b => (b.1, b.2.tokens, b.2.refused)) = v.buckets.map fun b => (b.1, b.2.tokens, b.2.refused)) ∧
     (∀ ns,
       let steps := s.a.feed = true ∨ s.b.feed = true
       ((∀ k, (s.lane k).staging.active = false) → steps → exec (.optimeStep ns) s =
         .next (s.updRec fun v => { v with optime := (v.optime + 1) % 2 ^ 48, stepAt := s.grid.now + ns })) ∧
       ((∀ k, (s.lane k).staging.active = false) → ¬steps → exec (.optimeStep ns) s = .next s) ∧
       ((s.lane l).staging.active = true → Gives (.optimeStep ns) s fun t =>
         (t.lane l).staging.optime = (s.lane l).staging.optime + 1 ∧
         t.svc.rcd.optime = if steps then (v.optime + 1) % 2 ^ 48 else v.optime)) ∧
     (let due := s.activeLane = some l ∧ s.st.phase = .running ∧ v.periodFrom + retainPeriod s ≤ s.grid.mono
      let restarted := s.updRec fun v => { v with periodFrom := s.grid.mono }
      (s.activeLane = none ∨ (s.activeLane = some l ∧ ¬due) → exec .retainPeriodDue s = .next s) ∧
      (due → s.st.prog ≠ none → s.svc.up = true → v.writing = none →
        let (i, q) := bankTarget v
        exec .retainPeriodDue s = .next (restarted.updRec fun v =>
          { setBank v i {} with writing := some ⟨i, { captureBank s l 1 with seq := q }, l⟩ })) ∧
      (due → s.st.prog = none ∨ (s.svc.up = true ∧ v.writing ≠ none) → exec .retainPeriodDue s = .next restarted) ∧
      (due → s.st.prog ≠ none → s.svc.up = false → Becomes .retainPeriodDue s restarted)) ∧
     (∀ w, v.writing = some w → v.waiting = none → s.st.pfStep ≠ 3 → Becomes .bankWriteDone s (s.updRec fun v =>
       { setBank v w.bank w.cap with writing := none, offered := some (if w.bank = 0 then 0 else 1) })) ∧
     (v.writing = none → s.st.pfStep ≠ 3 → exec .bankWriteDone s = .next s) ∧
     (∀ w, v.writing = some w → v.waiting = none → s.st.pfStep = 3 → exec .bankWriteDone s = .next (pfFinish (bankDone s))) ∧
     (s.svc.up = true → Gives .serviceDomainLost s fun t => t.svc.up = false ∧ t.svc.rcd.writing = none ∧
       ((s.lane l).phase = .running → (t.lane l).staging.active = true)) ∧
     (s.svc.up = false → exec .serviceDomainLost s = .next s) ∧
     (s.svc.up = true → (∀ k, (s.lane k).staging.active = false) → exec .serviceDomainReturned s = .next s) ∧
     (s.svc.up = false → calm → v.skipped = none → exec .serviceDomainReturned s = .next (s.updSvc fun v => { v with up := true })) ∧
     (s.svc.up = false ∨ (s.lane l).staging.active = true → Gives .serviceDomainReturned s fun t => t.svc.up = true)) ∧
  (∀ (s : State) (p : Part) (ws : List Word), Served s p false .normal 0x0051 ws →
     ((s.part p).session = false → exec (.recorderClear p) s = .next (answer s p false AUTH_REQUIRED)) ∧
     ((s.part p).session = true → s.svc.up = false → exec (.recorderClear p) s = .next (answer s p false RECORDER_DOWN)) ∧
     ((s.part p).session = true → s.svc.up = true → Gives (.recorderClear p) s fun t =>
       s.svc.rcd.next ≤ t.svc.rcd.clearBase ∧ t.svc.rcd.clearBase < t.svc.rcd.next ∧ Ended s t p false OK 0 0 s.tickNo []))

/-! Safety (15, 16) -/

/-- Safety inputs, sources and outputs (R390, R391, R394, R399, R403). Every sampled input takes its type 3 level and no other
input moves, and SK-1's own time goes on by the 50 us between samples (log entry 150); a pair whose discrepancy time has passed is
in FAULT; a driven source's pulse, overload and retry; a switch that its pulse does not open, and a readback that disagrees once
its time has passed, fault the output, which latches with its pair off; a readback in time or agreeing is only recorded, and one
that agrees that the output is off ends the fault's condition. -/
def Obligations.SafetyIoRows : Prop :=
  ∀ (s : State) (p : Fin 8) (k : Fin 4) (o : Fin 8),
    let x := s.sk.output o
    let on := x.x = true ∧ x.y = true
    let us := x.since * skCycleUs s - x.delay
    let off (t : State) (n : Nat) : Prop := (t.sk.output n).x = false ∧ (t.sk.output n).y = false
    let faulted (t : State) : Prop := (t.sk.output o).latched = true ∧ off t (2 * (o.val / 2)) ∧ off t (2 * (o.val / 2) + 1)
    let seen (high : Bool) := s.updOut o fun x => { x with high := high, seen := true }
    (∀ us mv, Gives (.safetyInputSample us mv) s fun t => t.sk.clock = s.sk.clock + (if s.sk.powered then 50000 else 0) ∧ ∀ i < 16,
      (inputSampled s i = true → (t.sk.input i).raw = type3 (s.sk.input i).raw (mv.getD i 0)) ∧
      (inputSampled s i = false → t.sk.input i = s.sk.input i)) ∧
    (let late := ((s.sk.pair p).phase = .closing ∨ (s.sk.pair p).phase = .demand) ∧ discSamples s p ≤ (s.sk.pair p).timer
     (late → Gives (.discTimerExpired p) s fun t =>
       (t.sk.pair p).phase = .fault ∧ (t.sk.pair p).disc = true ∧ (t.sk.pair p).armed = none) ∧
     (¬late → exec (.discTimerExpired p) s = .next s)) ∧
    (sourceDriven s k = true →
      (∀ bf, exec (.testSourcePulse k false bf) s = .next (updSrc s k fun x => { x with low := true })) ∧
      (∀ bf, (s.sk.src k).low = true → Becomes (.testSourcePulse k true bf) s (updSrc s k fun x => { x with low := false, back := bf })) ∧
      (∀ bf, (s.sk.src k).low = false → exec (.testSourcePulse k true bf) s = .next s) ∧
      Becomes (.testSourceOverload k) s (updSrc s k fun x => { x with overl := some s.sk.clock, low := false })) ∧
    (sourceDriven s k = false → exec (.testSourceOverload k) s = .next s ∧
      ∀ high bf, exec (.testSourcePulse k high bf) s = .next s) ∧
    (∀ t, (s.sk.src k).overl = some t →
      (t + 1000000000 ≤ s.sk.clock → exec (.testSourceRetry k) s = .next (updSrc s k fun x => { x with overl := none })) ∧
      (s.sk.clock < t + 1000000000 → exec (.testSourceRetry k) s = .next s)) ∧
    ((s.sk.src k).overl = none → exec (.testSourceRetry k) s = .next s) ∧
    (∀ skY mv, (on → 5000 < mv → Gives (.offPulse o skY mv) s fun t => faulted t ∧ (t.sk.output o).sw = true) ∧
      (¬on ∨ mv ≤ 5000 → exec (.offPulse o skY mv) s = .next s)) ∧
    (∀ (mv supply : Int) limit, let i := Instr.safetyOutputReadback o mv supply limit
      (s.sk.powered = false → exec i s = .next s) ∧
      (s.sk.powered = true →
        (on → 2000 ≤ us → mv < supply - 2000 → Gives i s fun t => faulted t ∧
          (limit = true → (t.sk.output o).overl = true) ∧ (limit = false → (t.sk.output o).sw = true)) ∧
        (on → us < 2000 ∨ supply - 2000 ≤ mv → exec i s = .next (seen (decide (5000 < mv)))) ∧
        (¬on → us < 5000 → exec i s = .next (seen (decide (5000 < mv)))) ∧
        (¬on → 5000 ≤ us → 5000 < mv → Gives i s fun t => faulted t ∧ (t.sk.output o).ext = true) ∧
        (¬on → 5000 ≤ us → mv ≤ 5000 → exec i s = .next ((seen false).updOut o fun x => { x with bad := false }))))

/-- The safety kernel (R383 to R389, R396, R402, R411 to R413). A kernel fault and a failed self-test stop it safely with every
output off; a passed self-test goes to WAIT_IMAGE, or to VERIFY of the image that it has to run, or back to SAFE_STOP; a forwarded
image is verified, and one that passes every check and its seal runs, one that does not gives way to the image that ran, or to
none; proof tests, the lane watchdog and a connection's time expire; a cycle's start takes the lanes' frames; its end, where both
processors have delivered the same results, commands the outputs that no latch and no low supply bars, and else is a kernel fault.
-/
def Obligations.SafetyKernelRows : Prop :=
  ∀ s : State,
    let k := s.sk
    let off (t : State) : Prop := ∀ o, (t.sk.output o).x = false ∧ (t.sk.output o).y = false
    let stopped (code : Nat) (t : State) : Prop := t.sk.phase = .safeStop ∧ t.sk.fault = code % 65536 ∧ t.sk.cand = none ∧ off t
    (∀ code,
      (k.powered = true → k.phase = .run ∨ k.phase = .verify → Gives (.skKernelFault code) s (stopped code)) ∧
      (k.powered = false ∨ (k.phase ≠ .run ∧ k.phase ≠ .verify) → exec (.skKernelFault code) s = .next s) ∧
      (k.powered = true → k.phase = .run → Gives (.skPeriodicSelftest false code) s (stopped code)) ∧
      (k.powered = false ∨ k.phase ≠ .run → exec (.skPeriodicSelftest false code) s = .next s) ∧
      exec (.skPeriodicSelftest true code) s = .next s ∧
      (k.powered = false ∨ k.phase ≠ .selftest → ∀ ok, exec (.skSelftestDone ok code) s = .next s) ∧
      (k.powered = true → k.phase = .selftest →
        Gives (.skSelftestDone false code) s (stopped code) ∧
        (k.left = none → k.cand = none → Gives (.skSelftestDone true code) s fun t => t.sk.phase = .waitImage) ∧
        (k.left = none → k.cand ≠ none → Gives (.skSelftestDone true code) s fun t => t.sk.phase = .verify ∧ t.sk.cand = k.cand) ∧
        (k.left = some .run ∨ k.left = some .verify → Gives (.skSelftestDone true code) s fun t =>
          t.sk.phase = .verify ∧ t.sk.left = none ∧ t.sk.cand = if k.cand.isSome then k.cand else k.image) ∧
        (k.left = some .safeStop → Gives (.skSelftestDone true code) s fun t => t.sk.phase = .safeStop ∧ t.sk.fault = k.fault ∧ off t) ∧
        (k.left = some .waitImage ∨ k.left = some .selftest ∨ k.left = some .dormant → Gives (.skSelftestDone true code) s fun t =>
          t.sk.phase = .waitImage))) ∧
    (let ready (c : Commit) : Prop := s.st.commit = some c ∧ c.target = 3 ∧ c.forwarded = false ∧ s.st.phase = .stopped ∧ k.powered = true
     (∀ c, ready c →
       (k.phase = .waitImage ∨ k.phase = .run → Gives .skImageForwarded s fun t =>
         t.sk.phase = .verify ∧ t.sk.cand = some c.image ∧ t.st.commit = some { c with forwarded := true }) ∧
       (k.phase = .safeStop → Gives .skImageForwarded s fun t => t.sk.phase = .selftest ∧ t.sk.cand = some c.image)) ∧
     ((¬∃ c, ready c) ∨ k.phase = .selftest ∨ k.phase = .verify ∨ k.phase = .dormant → exec .skImageForwarded s = .next s)) ∧
    (k.powered = true → laneTimeout s = true → Becomes .laneWatchdogExpired s
      (s.updSk fun k => { k with subst := true, req := safeRequest s })) ∧
    (k.powered = false ∨ laneTimeout s = false → exec .laneWatchdogExpired s = .next s) ∧
    (let cycles := k.powered = true ∧ k.phase ≠ .dormant ∧ k.phase ≠ .selftest
     (¬cycles → exec .skCycleStart s = .next s ∧ ∀ x y dt, exec (.skCycleEnd x y dt) s = .next s) ∧
     (cycles →
       (Gives .skCycleStart s fun t => t.sk.rxA = none ∧ t.sk.rxB = none ∧ t.sk.phase = k.phase ∧ t.sk.image = k.image) ∧
       (∀ x y dt, k.phase ≠ .run → exec (.skCycleEnd x y dt) s =
         .next (publish (s.updSk fun k => { k with outs := k.outs.map fun e => (e.1, e.2.age), cycle := (k.cycle + 1) % 2 ^ 32 }) dt)) ∧
       (∀ r dt, k.phase = .run → Gives (.skCycleEnd (some r) (some r) dt) s fun t => t.sk.phase = .run ∧
         t.sk.cycle = (k.cycle + 1) % 2 ^ 32 ∧ t.sk.statusOut = padTo 64 r.statusOut ∧
         ∀ o < 8, let q := o / 2
           let c := if outMode s q = 1 then r.soCmd.getD (2 * q) false else if outMode s q = 2 then r.soCmd.getD o false else false
           let drives := c && !((k.output (2 * q)).latched || (k.output (2 * q + 1)).latched || k.supplyLow)
           (t.sk.output o).cmd = c ∧ (t.sk.output o).x = drives ∧ (t.sk.output o).y = drives) ∧
       (∀ x y dt, k.phase = .run → (∀ r, ¬(x = some r ∧ y = some r)) → Gives (.skCycleEnd x y dt) s fun t =>
         t.sk.phase = .safeStop ∧ t.sk.fault ≠ 0 ∧ t.sk.cand = none ∧ off t ∧ t.sk.cycle = (k.cycle + 1) % 2 ^ 32))) ∧
    (∀ ok, k.phase ≠ .verify ∨ k.cand = none → exec (.skVerifyDone ok) s = .next s) ∧
    (∀ img ok, k.phase = .verify → k.cand = some img →
      let d := digestOf (safetyRecs img)
      let mayReplace := ∃ c, s.st.commit = some c ∧ c.target = 3 ∧ c.session = true ∧ s.svc.up = true
      let passes := checkSafety s img = none ∧ ok = true ∧ (k.digest = some d ∨ mayReplace)
      (passes → Gives (.skVerifyDone ok) s fun t => t.sk.phase = .run ∧ t.sk.image = some img ∧ t.sk.cand = none ∧ t.sk.digest = some d) ∧
      (¬passes → k.resume = false → Gives (.skVerifyDone ok) s fun t =>
        t.sk.phase = .waitImage ∧ t.sk.image = none ∧ t.sk.cand = none ∧ off t ∧
        (s.st.commit = none → t.st.safety = none ∧ t.st.safetyAccepted = false)) ∧
      (¬passes → k.resume = true → Gives (.skVerifyDone ok) s fun t =>
        t.sk.phase = .run ∧ t.sk.image = k.image ∧ t.sk.cand = none)) ∧
    (∀ p : Fin 8,
      (∀ t, (k.pair p).armed = some t → t + 600000000000 ≤ k.clock →
        Becomes (.proofTestExpired p) s (s.updPair p fun q => { q with armed := none })) ∧
      ((∀ t, (k.pair p).armed = some t → k.clock < t + 600000000000) → exec (.proofTestExpired p) s = .next s)) ∧
    (∀ p : Fin 8,
      let due := (∃ r, pairRec s p = some r ∧ r.u 0x10 2 ≠ 0 ∧ r.u 0x10 2 ≤ proofAge s p) ∧ (k.pair p).due = false
      (due → Becomes (.proofIntervalReached p) s (s.updPair p fun q => { q with due := true })) ∧
      (¬due → exec (.proofIntervalReached p) s = .next s)) ∧
    (∀ c : Fin 64,
      let has (rx : Option LaneRx) : Prop := ∃ q, rx = some q ∧ q.pdus.get? c ≠ none
      let late := (∃ r, findRec (skRecs s) 0x0A60 c = some r ∧ r.u 8 1 = 1 ∧ teUs r ≤ ((k.conn c).age + 1) * skCycleUs s) ∧
        k.phase = .run ∧ (k.conn c).phase = .run ∧ ¬has k.rxA ∧ ¬has k.rxB
      (late → Becomes (.connTimeExpired c) s (s.updConn c fun c =>
        { c with phase := .failed, cause := 1, valid := false, data := [] })) ∧
      (¬late → exec (.connTimeExpired c) s = .next s))

/-! Supplies and the service domain (18) -/

/-- Feeds and hold-up (R489 to R493). A feed below 16.0 V is lost and one at 18.0 V is back; a report that says neither changes
nothing. A lane whose feed is lost beside a good partner's stops without power; a feed that returns within the ride-through ends
it, and one that returns after the sequence has finished drives the panel again; with both lost the cartridge carries the lanes
that run or start, and without one, with its bank below 7.0 V, or with no such lane, everything is off; 20 ms later a RUNNING
station is STOPPED with cause 4, and one that is not finishes at once. -/
def Obligations.FeedRows : Prop :=
  ∀ (s : State) (l : LaneId) (mv : Nat),
    (feedOf s.svc.sup l = false ∨ 16000 ≤ mv → exec (.laneFeedLost l mv) s = .next s) ∧
    (feedOf s.svc.sup l = true → mv < 16000 →
      (feedOf s.svc.sup (other l) = true → Gives (.laneFeedLost l mv) s fun t =>
        feedOf t.svc.sup l = false ∧ (t.lane l).feed = false ∧ (t.lane l).feedCycled = true ∧ (t.lane l).role = .offline ∧
        t.svc.cart.elim false Cart.measuring = false) ∧
      (feedOf s.svc.sup (other l) = false → s.svc.cart.elim false Cart.measuring = false →
        Becomes (.laneFeedLost l mv) s (setFeed s l false mv)) ∧
      (feedOf s.svc.sup (other l) = false → s.svc.cart.elim false Cart.measuring = true → Gives (.laneFeedLost l mv) s fun t =>
        feedOf t.svc.sup l = false ∧ t.svc.cart.elim false Cart.measuring = false)) ∧
    (feedOf s.svc.sup l = true ∨ mv < 18000 → exec (.laneFeedRestored l mv) s = .next s) ∧
    (feedOf s.svc.sup l = false → 18000 ≤ mv →
      (s.st.pfStep ≠ 1 → s.st.pfStep ≠ 5 → Becomes (.laneFeedRestored l mv) s (tryMeasure (setFeed s l true mv))) ∧
      (s.st.pfStep = 1 ∨ s.st.pfStep = 5 → Gives (.laneFeedRestored l mv) s fun t =>
        feedOf t.svc.sup l = true ∧ t.svc.sup.holdup = false ∧ t.st.pfStep = 0 ∧
        (feedOf s.svc.sup (other l) = false → (t.lane (other l)).feed = false) ∧
        (s.st.pfStep = 5 → t.svc.pnl.cleared = false))) ∧
    (∀ bank a b, feedGone s.svc.sup.feedA a = true → feedGone s.svc.sup.feedB b = true → s.svc.sup.holdup = false →
      s.a.feed = true ∨ s.b.feed = true →
      let carried := ∃ k, (s.lane k).phase = .running ∨ (s.lane k).phase = .starting
      let held := bothLanes dropUncarried (s.updSup fun v => { v with feedA := false, feedB := false, mvA := a, mvB := b, holdup := true })
      (carried → ∀ k, dropUncarried s k = if (s.lane k).phase = .running ∨ (s.lane k).phase = .starting then s
        else s.updLane k fun v => { suspect := v.suspect, feedCycled := true }) ∧
      (s.svc.cart = none ∨ bank < 7000 ∨ ¬carried → Gives (.powerFailure bank a b) s fun t =>
        t.st = {} ∧ t.parts = [] ∧ t.isl = [] ∧ t.a.feed = false ∧ t.b.feed = false ∧ t.svc.up = false) ∧
      (∀ c, carried → s.svc.cart = some c → 7000 ≤ bank → c.measuring = false → s.st.pfStep = 0 → 12000 ≤ bank →
        Becomes (.powerFailure bank a b) s ((held.updCart fun c => { c with mv := bank }).updSt fun t => { t with pfStep := 1 })) ∧
      (∀ c, carried → s.svc.cart = some c → 7000 ≤ bank → c.measuring = false → s.st.pfStep ≠ 0 →
        Becomes (.powerFailure bank a b) s (held.updCart fun c => { c with mv := bank })) ∧
      (∀ c, carried → s.svc.cart = some c → 12000 ≤ bank → s.st.pfStep = 0 → Gives (.powerFailure bank a b) s fun t =>
        t.svc.sup.holdup = true ∧ t.st.pfStep = 1 ∧ t.svc.cart.elim false Cart.measuring = false) ∧
      (∀ c, carried → s.svc.cart = some c → 7000 ≤ bank → bank < 12000 → s.st.pfStep = 0 →
        (s.st.phase = .running → Gives (.powerFailure bank a b) s fun t => t.st.phase = .stopped ∧ t.st.stopCause = 4 ∧ t.st.pfStep = 2) ∧
        (s.st.phase ≠ .running → Gives (.powerFailure bank a b) s fun t => t.st.pfStep = 5 ∧ t.svc.pnl.cleared = true))) ∧
    (∀ bank a b, s.svc.sup.holdup = true ∨ (s.a.feed = false ∧ s.b.feed = false) ∨ feedGone s.svc.sup.feedA a = false ∨
      feedGone s.svc.sup.feedB b = false → exec (.powerFailure bank a b) s = .next s) ∧
    (s.st.pfStep ≠ 1 → exec .rideThroughEnd s = .next s) ∧
    (s.st.pfStep = 1 →
      (s.st.phase = .running → Gives .rideThroughEnd s fun t => t.st.phase = .stopped ∧ t.st.stopCause = 4 ∧ t.st.pfStep = 2) ∧
      (s.st.phase ≠ .running → s.svc.sup.feedA = false → s.svc.sup.feedB = false → Gives .rideThroughEnd s fun t =>
        t.st.pfStep = 5 ∧ t.svc.pnl.cleared = true)) ∧
    (s.svc.sup.holdup = true → s.svc.sup.feedA = false → s.svc.sup.feedB = false → 2 ≤ s.st.pfStep → Gives .holdupOff s fun t =>
      t.st = {} ∧ t.parts = [] ∧ t.isl = [] ∧ t.svc.up = false ∧ t.svc.sup.holdup = false) ∧
    (s.svc.sup.holdup = false ∨ s.svc.sup.feedA = true ∨ s.svc.sup.feedB = true ∨ s.st.pfStep < 2 → exec .holdupOff s = .next s)

/-- The cartridge (R493, R496 to R500). Insertion and removal set their flags in every partition; removal abandons a bank that is
being written (log entry 149), and while the cartridge carries the lanes ends everything without a feed, and hold-up with one; a
measurement asked for by an OWNER or due starts with both feeds and 13 V, and is postponed else; its end gives the capacitance of
a 1.00 A discharge over 1.5 V and the resistance of the voltage step of a 2.0 A load (rounded down, log entry 133), and the
warnings; hours count in the band of the temperature; each partition clears its own flags. -/
def Obligations.CartridgeRows : Prop :=
  ∀ (s : State) (p : Part) (d : Word),
    (s.svc.cart = none → ∀ id mv, Gives (.cartInserted id mv) s fun t =>
      (∃ c, t.svc.cart = some c ∧ c.id = id ∧ c.mv = mv) ∧ bit (t.part p).cartFlags 0 = true) ∧
    (s.svc.cart ≠ none → ∀ id mv, exec (.cartInserted id mv) s = .next s) ∧
    (s.svc.cart = none → exec .cartRemoved s = .next s ∧ (s.svc.up = true → Becomes .bayEmptyRepeat s s)) ∧
    (s.svc.cart ≠ none ∨ s.svc.up = false → exec .bayEmptyRepeat s = .next s) ∧
    (s.svc.cart ≠ none →
      (s.svc.sup.feedA = true ∨ s.svc.sup.feedB = true → Gives .cartRemoved s fun t =>
        t.svc.cart = none ∧ bit (t.part p).cartFlags 1 = true ∧ (s.svc.rcd.waiting = none → t.svc.rcd.writing = none) ∧
        (s.svc.sup.holdup = true → t.svc.sup.holdup = false ∧ t.st.pfStep = 0)) ∧
      (s.svc.sup.feedA = false → s.svc.sup.feedB = false →
        (s.svc.sup.holdup = true → Gives .cartRemoved s fun t => t.svc.cart = none ∧ t.st = {} ∧ t.isl = [] ∧ t.svc.up = false) ∧
        (s.svc.sup.holdup = false → Gives .cartRemoved s fun t => t.svc.cart = none ∧ t.svc.rtc = {} ∧ bit (t.part p).cartFlags 1 = true))) ∧
    (∀ c, s.svc.cart = some c → c.measuring = false →
      (s.svc.sup.feedA = true → s.svc.sup.feedB = true →
        (s.roleOf p = 3 → bit d.toNat 0 = true → 13000 ≤ c.mv → exec (.cartMeasNow p d) s =
          .next (s.updCart fun c => { c with measuring := true, due := false })) ∧
        (∀ mv, 13000 ≤ mv → exec (.cartMeasDue mv) s = .next (s.updCart fun c => { c with mv := mv, measuring := true, due := false }))) ∧
      (s.svc.sup.feedA = false ∨ s.svc.sup.feedB = false ∨ c.mv < 13000 → s.roleOf p = 3 → bit d.toNat 0 = true →
        exec (.cartMeasNow p d) s = .next (s.updCart fun c => { c with due := true })) ∧
      (∀ mv, 7000 ≤ mv → s.svc.sup.feedA = false ∨ s.svc.sup.feedB = false ∨ mv < 13000 →
        exec (.cartMeasDue mv) s = .next (s.updCart fun c => { c with mv := mv, due := true }))) ∧
    (s.roleOf p ≠ 3 ∨ bit d.toNat 0 = false → exec (.cartMeasNow p d) s = .next s) ∧
    (s.svc.cart = none → exec (.cartMeasNow p d) s = .next s ∧ ∀ mv, exec (.cartMeasDue mv) s = .next s) ∧
    (∀ c step ms, s.svc.cart = some c → c.measuring = true → Gives (.cartMeasDone step ms) s fun t => ∃ c', t.svc.cart = some c' ∧
      c'.measuring = false ∧ c'.cap = 2 * ms / 3 ∧ c'.esr = step / 2 ∧
      c'.warn = (c.warn || decide (10 * c'.cap ≤ 8 * (cartFactory c).1)) ∧
      c'.replace = (c.replace || decide (10 * c'.cap ≤ 7 * (cartFactory c).1) || decide (2 * (cartFactory c).2 ≤ c'.esr)) ∧
      bit (t.part p).cartFlags 2 = true) ∧
    (s.svc.cart.elim false Cart.measuring = false → ∀ step ms, exec (.cartMeasDone step ms) s = .next s) ∧
    (∀ c temp, s.svc.cart = some c → Gives (.cartHour temp) s fun t => ∃ c', t.svc.cart = some c' ∧ ∀ k < 5,
      c'.id.hours.getD k 0 = c.id.hours.getD k 0 + if k = hourBand temp then 1 else 0) ∧
    (s.svc.cart = none → ∀ temp, exec (.cartHour temp) s = .next s) ∧
    (Gives (.cartStatusClear p d) s fun t => OthersSame s t p ∧ ∀ k < 4,
      bit (t.part p).cartFlags k = (bit (s.part p).cartFlags k && !bit d.toNat (8 + k)))

/-- The real-time clock (R480 to R487). A second passes while the clock has a supply; a reading freezes time and date until the
date is read; the reading is a slow access of its own, and a port busy with another sets SLOW_DROP; a commit, an alarm and a trim
need a role and a value in range, and else only set their flag. -/
def Obligations.RtcRows : Prop :=
  ∀ (s : State) (p : Part) (d : Word),
    let q := s.part p
    let port (f : RtcPort → RtcPort) : State := s.updRtcPort p f
    let reads (a : Nat) : Prop := (q.slow.access = some none ∧ q.slow.addr = a) ∨ (winLive s p = true ∧ q.slow.access = none)
    let busy (a : Nat) : Prop := q.slow.access ≠ none ∧ ¬(q.slow.access = some none ∧ q.slow.addr = a)
    let dropped : State := s.updPart p fun q => { q with slowDrop := true }
    (rtcSupplied s = true → s.svc.up = false → exec .rtcSecond s = .next (s.updRtc fun r => { nextSecond r with trimNow := r.trim })) ∧
    (rtcSupplied s = false → exec .rtcSecond s = .next s) ∧
    (s.svc.rtc.sec < 59 → nextSecond s.svc.rtc = { s.svc.rtc with sec := s.svc.rtc.sec + 1 }) ∧
    (rtcSupplied s = true → s.svc.up = true → s.st.power.ps ≠ .dark → Gives .rtcSecond s fun t =>
      t.svc.rtc = { nextSecond s.svc.rtc with trimNow := s.svc.rtc.trim } ∧
      (t.part p).rtc.alm1 = (q.rtc.alm1 || alarmMatches (nextSecond s.svc.rtc) s.svc.rtc.alm1Time s.svc.rtc.alm1Date) ∧
      (t.part p).rtc.alm2 = (q.rtc.alm2 || alarmMatches (nextSecond s.svc.rtc) s.svc.rtc.alm2Time s.svc.rtc.alm2Date)) ∧
    (∀ sub cycles phase,
      let a := if sub then 4 else 8
      (reads a → q.rtc.frozen = true → exec (.rtcTimeRead p sub cycles phase) s = .next (s.updPart p fun q =>
        { q with slow := { q.slow with addr := a, access := none, data := BitVec.ofNat 32 (if sub then q.rtc.subsec else q.rtc.time) } })) ∧
      (reads a → q.rtc.frozen = false → Gives (.rtcTimeRead p sub cycles phase) s fun t => OthersSame s t p ∧
        (t.part p).rtc = { q.rtc with frozen := true, subsec := subsecAt s.svc.rtc phase cycles, time := rtcTime s.svc.rtc,
                                      date := rtcDate s.svc.rtc } ∧
        (t.part p).slow.access = none ∧
        (t.part p).slow.data = BitVec.ofNat 32 (if sub then subsecAt s.svc.rtc phase cycles else rtcTime s.svc.rtc)) ∧
      (winLive s p = true → busy a → exec (.rtcTimeRead p sub cycles phase) s = .next dropped) ∧
      (winLive s p = false → ¬reads a → exec (.rtcTimeRead p sub cycles phase) s = .next s)) ∧
    (reads 0x0C → Gives (.rtcDateRead p) s fun t => OthersSame s t p ∧ (t.part p).rtc = { q.rtc with frozen := false } ∧
      (t.part p).slow.access = none ∧ (t.part p).slow.data = BitVec.ofNat 32 (if q.rtc.frozen then q.rtc.date else rtcDate s.svc.rtc)) ∧
    (winLive s p = true → busy 0x0C → exec (.rtcDateRead p) s = .next dropped) ∧
    (winLive s p = false → ¬reads 0x0C → exec (.rtcDateRead p) s = .next s) ∧
    exec (.rtcStatusClear p d) s = .next (port fun q =>
      { q with wrDone := q.wrDone && !bit d.toNat 0, wrRej := q.wrRej && !bit d.toNat 1, trimRej := q.trimRej && !bit d.toNat 2,
               roleRej := q.roleRej && !bit d.toNat 3, alm1 := q.alm1 && !bit d.toNat 4, alm2 := q.alm2 && !bit d.toNat 5 }) ∧
    (s.roleOf p < 2 → ∀ i, i = Instr.rtcCommit p d ∨ i = .rtcTrimWrite p d ∨ (∃ alarm2 date, i = .rtcAlarmWrite p alarm2 date d) →
      exec i s = .next (port fun q => { q with roleRej := true })) ∧
    (2 ≤ s.roleOf p →
      (bit d.toNat 0 = true → pairOk q.rtc.setTime q.rtc.setDate = true → Becomes (.rtcCommit p d) s ((s.updRtc fun r =>
        { r with hour := fld q.rtc.setTime 16 5, min := fld q.rtc.setTime 8 6, sec := fld q.rtc.setTime 0 6,
                 year := fld q.rtc.setDate 16 12, month := fld q.rtc.setDate 8 4, day := fld q.rtc.setDate 0 5 }).updRtcPort p
          fun q => { q with wrDone := true })) ∧
      (bit d.toNat 0 = true → pairOk q.rtc.setTime q.rtc.setDate = false →
        Becomes (.rtcCommit p d) s (port fun q => { q with wrRej := true })) ∧
      (bit d.toNat 0 = false → exec (.rtcCommit p d) s = .next s) ∧
      (alarmOk false d.toNat = true →
        exec (.rtcAlarmWrite p false false d) s = .next (s.updRtc fun r => { r with alm1Time := d.toNat }) ∧
        exec (.rtcAlarmWrite p true false d) s = .next (s.updRtc fun r => { r with alm2Time := d.toNat })) ∧
      (alarmOk true d.toNat = true →
        exec (.rtcAlarmWrite p false true d) s = .next (s.updRtc fun r => { r with alm1Date := d.toNat }) ∧
        exec (.rtcAlarmWrite p true true d) s = .next (s.updRtc fun r => { r with alm2Date := d.toNat })) ∧
      (∀ alarm2 date, alarmOk date d.toNat = false →
        exec (.rtcAlarmWrite p alarm2 date d) s = .next (port fun q => { q with wrRej := true })) ∧
      (let v := signed 13 (fld d.toNat 0 13)
       (-3355 ≤ v → v ≤ 3355 → exec (.rtcTrimWrite p d) s = .next (s.updRtc fun r => { r with trim := fld d.toNat 0 13 })) ∧
       (v < -3355 ∨ 3355 < v → exec (.rtcTrimWrite p d) s = .next (port fun q => { q with trimRej := true }))))

/-- The panel (R504 to R514). A pass ends with the glass holding its lines and PASS_DONE with the page's owner; a frame ends a
pass that is left, applies the band, takes station lines at most once a second of operating time, and starts a pass over the lines
that differ, or none; 2 s of it without a difference are idle; nothing moves while the panel is cleared or off; a key wakes a dark
station or is told to every partition; a partition writes, stages and commits lines of its own pages only, and is refused
otherwise. -/
def Obligations.PanelRows : Prop :=
  ∀ (s : State) (p : Part) (d : Word),
    let v := s.svc.pnl
    let q := (s.part p).pnl
    let page := fld d.toNat 16 3
    let refused (i : Instr) : Prop := Becomes i s (s.updPnlPort p fun q => { q with writeRej := true })
    (v.pass = none → exec .panelPassDone s = .next s) ∧
    (∀ x, v.pass = some x → Gives .panelPassDone s fun t => t.svc.pnl.pass = none ∧
      t.svc.pnl.held = x.lines.foldl (fun (t : Tab (List Nat)) e => t.set e.1 e.2) v.held ∧
      (x.lines ≠ [] → pageOwner s x.page = some p.val → (t.part p).pnl.passDone = true) ∧
      (pageOwner s x.page ≠ some p.val → (t.part p).pnl.passDone = q.passDone)) ∧
    (s.svc.up = true → v.cleared = false →
      (v.pass ≠ none → ∀ temp st, ∃ t, exec .panelPassDone s = .next t ∧ exec (.panelFrame temp st) s = exec (.panelFrame temp st) t) ∧
      (∀ temp, v.pass = none → v.nextBand = v.band →
        let shown := if panelForced s = true then 0 else v.sel
        let u := s.updPnl fun v => { v with nextBand := selectBand v.band temp, temp := temp, common := !v.common, shown := shown }
        (differing u.svc.pnl shown = [] → exec (.panelFrame temp []) s = .next u) ∧
        (differing u.svc.pnl shown ≠ [] → exec (.panelFrame temp []) s = .next (u.updPnl fun v =>
          { v with pass := some ⟨shown, differing u.svc.pnl shown⟩, idle := false, lastDiff := s.svc.rcd.optime }))) ∧
      (∀ temp st, Gives (.panelFrame temp st) s fun t => t.svc.pnl.band = v.nextBand) ∧
      (∀ temp st t0, v.stationAt = some t0 → s.svc.rcd.optime < t0 + 16 →
        exec (.panelFrame temp st) s = exec (.panelFrame temp []) s) ∧
      (∀ temp n ws, (∀ t0, v.stationAt = some t0 → t0 + 16 ≤ s.svc.rcd.optime) →
        Gives (.panelFrame temp [(n, ws)]) s fun t => t.svc.pnl.stationAt = some s.svc.rcd.optime ∧
          t.svc.pnl.current.get? n.val = some ((ws.map fun w => w.toNat) ++ whiteLine |>.take 25))) ∧
    (s.svc.up = false ∨ v.cleared = true → ∀ temp st, exec (.panelFrame temp st) s = .next s) ∧
    (s.svc.up = true → v.pass = none → v.lastDiff + 32 ≤ s.svc.rcd.optime →
      exec .panelIdle s = .next (s.updPnl fun v => { v with idle := true })) ∧
    (s.svc.up = false ∨ v.pass ≠ none ∨ s.svc.rcd.optime < v.lastDiff + 32 → exec .panelIdle s = .next s) ∧
    (s.st.power.entering = some .dark → wakeEnabled s .key = true → exec .panelKey s = .next (s.updSt fun t =>
      { t with power := { t.power with wake := some .key } })) ∧
    (s.st.power.ps = .dark → s.st.power.entering ≠ some .dark → wakeEnabled s .key = true → Gives .panelKey s fun t =>
      t.st.power.ps = .lit ∧ t.st.phase = .starting ∧
      ∀ l, (t.lane l).phase = if (s.lane l).phase = .dark then .starting else (s.lane l).phase) ∧
    (s.st.power.ps = .dark ∨ s.st.power.entering = some .dark → wakeEnabled s .key = false → exec .panelKey s = .next s) ∧
    (s.st.power.ps ≠ .dark → s.st.power.entering ≠ some .dark →
      (s.svc.up = true → Gives .panelKey s fun t => (t.part p).pnl.key = true ∧
        t.svc.pnl.sel = if ((s.cfgRec 0x0C01 0).elim false fun r => bit (r.u 9 1) 0) = true then nextPage s v.sel else v.sel) ∧
      (s.svc.up = false → exec .panelKey s = .next s)) ∧
    (2 ≤ s.roleOf p → pageAssigned s (fld d.toNat 0 3) = true →
      exec (.pnlShowWrite p d) s = .next (s.updPnl fun v => { v with sel := fld d.toNat 0 3 })) ∧
    (s.roleOf p < 2 ∨ pageAssigned s (fld d.toNat 0 3) = false → refused (.pnlShowWrite p d)) ∧
    (pageOwner s page = some p.val → fld d.toNat 0 8 < 240 → exec (.pnlLineWrite p d) s = .next (s.updPnlPort p fun q =>
      { q with page := page, line := fld d.toNat 0 8, index := 0, words := [] })) ∧
    (pageOwner s page ≠ some p.val ∨ 240 ≤ fld d.toNat 0 8 → refused (.pnlLineWrite p d)) ∧
    (pageOwner s q.page = some p.val → q.line < 240 →
      (q.index < 24 → exec (.pnlDataWrite p d) s = .next (s.updPnlPort p fun q =>
        { q with words := q.words ++ [d.toNat], index := q.index + 1 })) ∧
      (24 ≤ q.index → exec (.pnlDataWrite p d) s = .next ((s.updPnl fun v =>
        { v with staged := v.staged.set (lineKey q.page q.line) (q.words ++ [d.toNat]) }).updPnlPort p fun q =>
          { q with words := [], index := 0, line := q.line + 1 }))) ∧
    (pageOwner s q.page ≠ some p.val ∨ 240 ≤ q.line → refused (.pnlDataWrite p d)) ∧
    (let first := fld d.toNat 0 8
     let last := fld d.toNat 8 8
     (pageOwner s page = some p.val → first ≤ last → last < 240 → v.cleared = false → ∀ started,
       Gives (.pnlCommit p d started) s fun t =>
         (∀ k, lineKey page first ≤ k → k ≤ lineKey page last → t.svc.pnl.staged.get? k = none) ∧
         (∀ k, k < lineKey page first ∨ lineKey page last < k →
           t.svc.pnl.staged.get? k = v.staged.get? k ∧ t.svc.pnl.current.get? k = v.current.get? k) ∧
         (∀ k ws, v.staged = [(k, ws)] → lineKey page first ≤ k → k ≤ lineKey page last → t.svc.pnl.current.get? k = some ws)) ∧
     (pageOwner s page ≠ some p.val ∨ last < first ∨ 240 ≤ last ∨ v.cleared = true → ∀ started, refused (.pnlCommit p d started))) ∧
    exec (.pnlStatusClear p d) s = .next (s.updPnlPort p fun q =>
      { q with writeRej := q.writeRej && !bit d.toNat 8, passDone := q.passDone && !bit d.toNat 9, key := q.key && !bit d.toNat 10 })

/-! Reset and frames -/

/-- The state at reset (R537): the metadata are cleared, no ring slot and neither bank is valid, the first power-up makes the
power-cycle count 1, operating time counts on from 0 and the first record receives sequence 0. The queue is empty, nothing is
accepted, and no lane runs. -/
def Obligations.ResetState : Prop :=
  State.reset.pending = [] ∧ AcceptedGood State.reset ∧ MemoriesGood State.reset ∧
  (∀ l, (State.reset.lane l).phase = .off ∧ (State.reset.lane l).role = .offline) ∧
  State.reset.st.phase = .starting ∧ State.reset.st.ready = false ∧
  (let v := State.reset.svc.rcd
   v.optime = 0 ∧ v.pcycle = 0 ∧ v.next = 0 ∧ v.clearBase = 0 ∧ (∀ q, recordAt v q = none) ∧ v.bank0.valid = false ∧
   v.bank1.valid = false) ∧
  (∀ l cid mv mac map, Gives (.logicPowerGood l cid mv mac map) State.reset fun t =>
    t.svc.rcd.pcycle = 1 ∧ t.svc.rcd.optime = 0 ∧ t.svc.rcd.next = 0 ∧ t.svc.rcd.seals = [] ∧ t.svc.up = true ∧
    (t.lane l).feed = true ∧ ∀ ns, Gives (.optimeStep ns) t fun u => u.svc.rcd.optime = 1 ∧ u.svc.rcd.stepAt = t.grid.now + ns) ∧
  (∀ v r k, v.next = 0 → v.seals = [] →
    (acceptRec v r k).next = 1 ∧ ∃ x, recordAt (acceptRec v r k) 0 = some x ∧ x.seq = 0)

/-- What a command leaves alone. Only the rows of `mayCommit` change an accepted image or the pending commit, and none the queue. -/
def Obligations.FrameOfImagesAccepted : Prop :=
  ∀ (i : Instr) (s t : State), exec i s = .next t → t.pending = s.pending ∧
    (mayCommit i = false → t.st.prog = s.st.prog ∧ t.st.cfgImage = s.st.cfgImage ∧ t.st.access = s.st.access ∧ t.st.accessImage = s.st.accessImage ∧
      t.st.safety = s.st.safety ∧ t.st.commit = s.st.commit ∧ t.sk.image = s.sk.image)

/-- Only the rows of `mayKernel` change SK-1, those of `mayTime` the tick grid, those of `mayImage` a byte of a lane's image, of its
frozen copy or of its template, and those of `mayService` the clock, supplies, cartridge, panel and clock outputs. -/
def Obligations.FrameOfParts : Prop :=
  ∀ (i : Instr) (s t : State), exec i s = .next t →
    (mayKernel i = false → t.sk = s.sk) ∧
    (mayTime i = false → t.grid = s.grid) ∧
    (mayImage i = false → ∀ l a, (t.lane l).img.readN a 1 = (s.lane l).img.readN a 1 ∧
      (t.lane l).frozen.readN a 1 = (s.lane l).frozen.readN a 1 ∧ (t.lane l).tmpl.readN a 1 = (s.lane l).tmpl.readN a 1) ∧
    (mayService i = false → t.svc.rtc = s.svc.rtc ∧ t.svc.sup = s.svc.sup ∧ t.svc.cart = s.svc.cart ∧ t.svc.pnl = s.svc.pnl ∧
      t.svc.clk = s.svc.clk)
end

