-- ==== Sys2Proof/Laws/Still.lean ====
section
/-! SUPPORT. SK-1, the tick grid, the process images and the service domain's objects, and the primitive updates that leave them alone. -/

namespace Sys2Proof.Machine

/-- SK-1, the tick grid, the process images of both lanes, and the service domain's clock, supplies, cartridge, panel and clock
outputs. -/
structure Still where
  sk : Sk
  grid : Grid
  imgs : (Mem × Mem × Mem) × (Mem × Mem × Mem)
  svc : Rtc × Supply × Option Cart × Panel × ClkOut
/-- The process images of a lane. -/
def Lane.imgs (v : Lane) : Mem × Mem × Mem := (v.img, v.frozen, v.tmpl)
/-- The objects of the service domain but its recorder. -/
def Svc.objs (v : Svc) : Rtc × Supply × Option Cart × Panel × ClkOut := (v.rtc, v.sup, v.cart, v.pnl, v.clk)
/-- That part of a state. -/
def State.still (s : State) : Still := ⟨s.sk, s.grid, (s.a.imgs, s.b.imgs), s.svc.objs⟩
@[simp] theorem still_mk (p f o g st a b pa i sk sv) : State.still (State.mk p f o g st a b pa i sk sv) = ⟨sk, g, (a.imgs, b.imgs), sv.objs⟩ := rfl
@[simp] theorem mk_still (s : State) : (Still.mk s.sk s.grid (s.a.imgs, s.b.imgs) s.svc.objs) = s.still := rfl
@[simp] theorem updLane_sk (s : State) (l) (v) : (s.updLane l v).still.sk = s.still.sk := by cases l <;> rfl
@[simp] theorem updLane_grid (s : State) (l) (v) : (s.updLane l v).still.grid = s.still.grid := by cases l <;> rfl
@[simp] theorem updLane_svc (s : State) (l) (v) : (s.updLane l v).still.svc = s.still.svc := by cases l <;> rfl
@[simp] theorem updLane_imgs (s : State) (l) (f : Lane → Lane) (h : (f (s.lane l)).imgs = (s.lane l).imgs) : (s.updLane l f).still = s.still := by
  cases l
  · show Still.mk _ _ ((f s.a).imgs, _) _ = _; rw [show (f s.a).imgs = s.a.imgs from h]; rfl
  · show Still.mk _ _ (_, (f s.b).imgs) _ = _; rw [show (f s.b).imgs = s.b.imgs from h]; rfl
theorem updLane_goes (s : State) (k : Still) (l) (f : Lane → Lane) (h : s.still = k) (hf : ∀ v, (f v).imgs = v.imgs) : (s.updLane l f).still = k := by
  rw [updLane_imgs _ _ _ (hf _), h]
theorem updLane_goes2 (s : State) (k) (l) (f : Lane → Lane) (h : s.still.imgs = k) (hf : ∀ v, (f v).imgs = v.imgs) : (s.updLane l f).still.imgs = k := by
  rw [updLane_imgs _ _ _ (hf _), h]
@[simp] theorem updPart_still (s : State) (l) (v) : (s.updPart l v).still = s.still := rfl
@[simp] theorem updIsl_still (s : State) (l) (v) : (s.updIsl l v).still = s.still := rfl
@[simp] theorem updSvc_still (s : State) (f : Svc → Svc) : (s.updSvc f).still = ⟨s.sk, s.grid, (s.a.imgs, s.b.imgs), (f s.svc).objs⟩ := rfl
@[simp] theorem updRec_still (s : State) (v) : (s.updRec v).still = s.still := rfl
@[simp] theorem emit_still (s : State) (v) : (s.emit v).still = s.still := rfl
@[simp] theorem updMb_still (s : State) (p u v) : (s.updMb p u v).still = s.still := rfl
@[simp] theorem takeFree_still (s : State) : (s.takeFree).2.still = s.still := rfl
@[simp] theorem updSt_still (s : State) (f) : (s.updSt f).still = s.still := rfl
@[simp] theorem updSk_imgs (s : State) (f : Sk → Sk) : (s.updSk f).still.imgs = s.still.imgs := rfl
@[simp] theorem updSk_stillgrid (s : State) (f : Sk → Sk) : (s.updSk f).still.grid = s.still.grid := rfl
@[simp] theorem updSk_stillsvc (s : State) (f : Sk → Sk) : (s.updSk f).still.svc = s.still.svc := rfl
@[simp] theorem imgs_mk (a1 a2 a3 a4 a5 a6 a7 a8 a9 a10 a11 a12 a13 a14 a15 a16 a17 a18 a19 a20 a21 a22 a23 a24 a25 a26 a27 a28 a29 a30 a31 a32 a33 a34 a35 a36 a37 a38 a39 a40 a41 a42 a43 a44 a45 a46) :
  Lane.imgs (Lane.mk a1 a2 a3 a4 a5 a6 a7 a8 a9 a10 a11 a12 a13 a14 a15 a16 a17 a18 a19 a20 a21 a22 a23 a24 a25 a26 a27 a28 a29 a30 a31 a32 a33 a34 a35 a36 a37 a38 a39 a40 a41 a42 a43 a44 a45 a46) = (a21, a22, a24) := rfl
@[simp] theorem restEngine_imgs (v : Lane) : (restEngine v).imgs = v.imgs := rfl
@[simp] theorem bootLane_imgs (fw : Nat) (v : Lane) : (bootLane fw v).imgs = v.imgs := rfl
@[simp] theorem mk_imgs (v : Lane) : (v.img, v.frozen, v.tmpl) = v.imgs := rfl
@[simp] theorem objs_mk (a b c d e f g) : Svc.objs (Svc.mk a b c d e f g) = (c, d, e, f, g) := rfl
@[simp] theorem mk_objs (v : Svc) : (v.rtc, v.sup, v.cart, v.pnl, v.clk) = v.objs := rfl

@[simp] theorem foldl_still {α} (f : State → α → State) (l : List α) (s : State) (h : ∀ s x, (f s x).still = s.still) : (l.foldl f s).still = s.still := by
  induction l generalizing s with
  | nil => rfl
  | cons a l ih => simp [ih, h]
theorem foldl_still_fst {α β} (f : State × β → α → State × β) (l : List α) (p : State × β) (h : ∀ p x, (f p x).1.still = p.1.still) : (l.foldl f p).1.still = p.1.still := by
  induction l generalizing p with
  | nil => rfl
  | cons a l ih => simp [ih, h]
theorem foldl_still_snd {α β} (f : β × State → α → β × State) (l : List α) (p : β × State) (h : ∀ p x, (f p x).2.still = p.2.still) : (l.foldl f p).2.still = p.2.still := by
  induction l generalizing p with
  | nil => rfl
  | cons a l ih => simp [ih, h]

@[simp] theorem foldl_stillsk {α} (f : State → α → State) (l : List α) (s : State) (h : ∀ s x, (f s x).still.sk = s.still.sk) : (l.foldl f s).still.sk = s.still.sk := by
  induction l generalizing s with
  | nil => rfl
  | cons a l ih => simp [ih, h]
theorem foldl_stillsk_fst {α β} (f : State × β → α → State × β) (l : List α) (p : State × β) (h : ∀ p x, (f p x).1.still.sk = p.1.still.sk) : (l.foldl f p).1.still.sk = p.1.still.sk := by
  induction l generalizing p with
  | nil => rfl
  | cons a l ih => simp [ih, h]
theorem foldl_stillsk_snd {α β} (f : β × State → α → β × State) (l : List α) (p : β × State) (h : ∀ p x, (f p x).2.still.sk = p.2.still.sk) : (l.foldl f p).2.still.sk = p.2.still.sk := by
  induction l generalizing p with
  | nil => rfl
  | cons a l ih => simp [ih, h]

@[simp] theorem foldl_stillgrid {α} (f : State → α → State) (l : List α) (s : State) (h : ∀ s x, (f s x).still.grid = s.still.grid) : (l.foldl f s).still.grid = s.still.grid := by
  induction l generalizing s with
  | nil => rfl
  | cons a l ih => simp [ih, h]
theorem foldl_stillgrid_fst {α β} (f : State × β → α → State × β) (l : List α) (p : State × β) (h : ∀ p x, (f p x).1.still.grid = p.1.still.grid) : (l.foldl f p).1.still.grid = p.1.still.grid := by
  induction l generalizing p with
  | nil => rfl
  | cons a l ih => simp [ih, h]
theorem foldl_stillgrid_snd {α β} (f : β × State → α → β × State) (l : List α) (p : β × State) (h : ∀ p x, (f p x).2.still.grid = p.2.still.grid) : (l.foldl f p).2.still.grid = p.2.still.grid := by
  induction l generalizing p with
  | nil => rfl
  | cons a l ih => simp [ih, h]

@[simp] theorem foldl_stillimgs {α} (f : State → α → State) (l : List α) (s : State) (h : ∀ s x, (f s x).still.imgs = s.still.imgs) : (l.foldl f s).still.imgs = s.still.imgs := by
  induction l generalizing s with
  | nil => rfl
  | cons a l ih => simp [ih, h]
theorem foldl_stillimgs_fst {α β} (f : State × β → α → State × β) (l : List α) (p : State × β) (h : ∀ p x, (f p x).1.still.imgs = p.1.still.imgs) : (l.foldl f p).1.still.imgs = p.1.still.imgs := by
  induction l generalizing p with
  | nil => rfl
  | cons a l ih => simp [ih, h]
theorem foldl_stillimgs_snd {α β} (f : β × State → α → β × State) (l : List α) (p : β × State) (h : ∀ p x, (f p x).2.still.imgs = p.2.still.imgs) : (l.foldl f p).2.still.imgs = p.2.still.imgs := by
  induction l generalizing p with
  | nil => rfl
  | cons a l ih => simp [ih, h]

@[simp] theorem foldl_stillsvc {α} (f : State → α → State) (l : List α) (s : State) (h : ∀ s x, (f s x).still.svc = s.still.svc) : (l.foldl f s).still.svc = s.still.svc := by
  induction l generalizing s with
  | nil => rfl
  | cons a l ih => simp [ih, h]
theorem foldl_stillsvc_fst {α β} (f : State × β → α → State × β) (l : List α) (p : State × β) (h : ∀ p x, (f p x).1.still.svc = p.1.still.svc) : (l.foldl f p).1.still.svc = p.1.still.svc := by
  induction l generalizing p with
  | nil => rfl
  | cons a l ih => simp [ih, h]
theorem foldl_stillsvc_snd {α β} (f : β × State → α → β × State) (l : List α) (p : β × State) (h : ∀ p x, (f p x).2.still.svc = p.2.still.svc) : (l.foldl f p).2.still.svc = p.2.still.svc := by
  induction l generalizing p with
  | nil => rfl
  | cons a l ih => simp [ih, h]

@[simp] theorem ite_still (c : Prop) [Decidable c] (x y : State) : (if c then x else y).still = if c then x.still else y.still := by split <;> rfl
/-- An outcome that leaves it, or a part of it, alone. -/
def Stays {α} (g : Still → α) (o : Host.Outcome State Fault Refusal) (s : State) : Prop := match o with | .next t => g t.still = g s.still | _ => True
@[simp] theorem stays_next {α} (g : Still → α) (t s : State) : Stays g (.next t) s = (g t.still = g s.still) := rfl

end Sys2Proof.Machine
end

