-- ==== Sys2Proof/Laws/Still1.lean ====
section
/-! SUPPORT. What leaves SK-1, the tick grid, the process images or the service domain's objects alone: Plant, Ops, Network, Can, Dio, Analogue, Recorder, Ptp, Hooks, Points, Roles, Tokens, Redundancy.
One lemma per operation, and one per row that is no writer of them. -/

namespace Sys2Proof.Machine

/-! Plant -/

@[simp] theorem still_State_updNet (s : State) (l : LaneId) (f : Net → Net) : (State.updNet s l f).still = s.still := by
  unfold State.updNet; repeat' (first | with_reducible rfl | (simp +zetaDelta; done) | (with_reducible apply updLane_goes; rotate_left; intro _) | split | extract_lets | (with_reducible apply foldl_still; intro _ _) | simp +zetaDelta)

@[simp] theorem still_countPort (s : State) (l : LaneId) (portB : Bool) (k : Nat) : (countPort s l portB k).still = s.still := by
  unfold countPort; repeat' (first | with_reducible rfl | (simp +zetaDelta; done) | (with_reducible apply updLane_goes; rotate_left; intro _) | split | extract_lets | (with_reducible apply foldl_still; intro _ _) | simp +zetaDelta)

@[simp] theorem still_sendBoth (s : State) (l : LaneId) : (sendBoth s l).2.still = s.still := by
  simp [sendBoth]

@[simp] theorem still_prpPass (s : State) (l : LaneId) (src seq : Nat) : (prpPass s l src seq).2.still = s.still := by
  unfold prpPass; repeat' (first | with_reducible rfl | (simp +zetaDelta; done) | (with_reducible apply updLane_goes; rotate_left; intro _) | split | extract_lets | (with_reducible apply foldl_still; intro _ _) | simp +zetaDelta)

@[simp] theorem still_plantIn (s : State) (l : LaneId) (rx : Rx) : (plantIn s l rx).2.still = s.still := by
  unfold plantIn; repeat' (first | with_reducible rfl | (simp +zetaDelta ; done) | (with_reducible apply updLane_goes; rotate_left; intro _) | split | extract_lets | (with_reducible apply foldl_still; intro _ _) | simp +zetaDelta )

@[simp] theorem still_sendPlant (s : State) (l : LaneId) (o : Nat → Out) : (sendPlant s l o).still = s.still := by
  simp [sendPlant]

@[simp] theorem still_thlSend (s : State) (p : Nat) (k : ThlKind) (content : List Byte) : (thlSend s p k content).still = s.still := by
  unfold thlSend; repeat' (first | with_reducible rfl | (simp +zetaDelta ; done) | (with_reducible apply updLane_goes; rotate_left; intro _) | split | extract_lets | (with_reducible apply foldl_still; intro _ _) | simp +zetaDelta )

@[simp] theorem still_notify (s : State) (p vec : Nat) : (notify s p vec).still = s.still := by
  unfold notify; repeat' (first | with_reducible rfl | (simp +zetaDelta ; done) | (with_reducible apply updLane_goes; rotate_left; intro _) | split | extract_lets | (with_reducible apply foldl_still; intro _ _) | simp +zetaDelta )

/-! Ops -/

@[simp] theorem still_ringPut (s : State) (p : Nat) (e : RingEntry) : (ringPut s p e).still = s.still := by
  unfold ringPut; repeat' (first | with_reducible rfl | (simp +zetaDelta; done) | (with_reducible apply updLane_goes; rotate_left; intro _) | split | extract_lets | (with_reducible apply foldl_still; intro _ _) | simp +zetaDelta)

@[simp] theorem still_offerEvent (s : State) (p : Nat) (e : RingEntry) : (offerEvent s p e).still = s.still := by
  simp [offerEvent]

@[simp] theorem still_offerNonMaskable (s : State) (p : Nat) (e : RingEntry) : (offerNonMaskable s p e).still = s.still := by
  simp [offerNonMaskable]

@[simp] theorem still_deliverEvent (s : State) (e : RingEntry) : (deliverEvent s e).still = s.still := by
  simp [deliverEvent]

@[simp] theorem still_releaseHeld (s : State) (p n : Nat) : (releaseHeld s p n).still = s.still := by
  induction n generalizing s with
  | zero => rfl
  | succ n ih => simp only [releaseHeld]; repeat' (first | rfl | split); all_goals simp [ih]

@[simp] theorem still_stageRecord (s : State) (l : LaneId) (r : RawRec) : (stageRecord s l r).still = s.still := by
  unfold stageRecord; repeat' (first | with_reducible rfl | (simp +zetaDelta; done) | (with_reducible apply updLane_goes; rotate_left; intro _) | split | extract_lets | (with_reducible apply foldl_still; intro _ _) | simp +zetaDelta)

@[simp] theorem still_beginStaging (s : State) (l : LaneId) : (beginStaging s l).still = s.still := by
  unfold beginStaging; repeat' (first | with_reducible rfl | (simp +zetaDelta; done) | (with_reducible apply updLane_goes; rotate_left; intro _) | split | extract_lets | (with_reducible apply foldl_still; intro _ _) | simp +zetaDelta)

@[simp] theorem still_offerRecord (s : State) (l : LaneId) (r : RawRec) : (offerRecord s l r).still = s.still := by
  unfold offerRecord; repeat' (first | with_reducible rfl | (simp +zetaDelta ; done) | (with_reducible apply updLane_goes; rotate_left; intro _) | split | extract_lets | (with_reducible apply foldl_still; intro _ _) | simp +zetaDelta )

@[simp] theorem still_report (s : State) (e : Ev) (withheld : Nat) : (report s e withheld).still = s.still := by
  simp [report]

@[simp] theorem still_setLimit (s : State) (l : LaneId) (k : Nat) (m : Limit) : (setLimit s l k m).still = s.still := by
  unfold setLimit; repeat' (first | with_reducible rfl | (simp +zetaDelta ; done) | (with_reducible apply updLane_goes; rotate_left; intro _) | split | extract_lets | (with_reducible apply foldl_still; intro _ _) | simp +zetaDelta )

@[simp] theorem still_raise (s : State) (e : Ev) : (raise s e).still = s.still := by
  unfold raise; repeat' (first | with_reducible rfl | (simp +zetaDelta; done) | (with_reducible apply updLane_goes; rotate_left; intro _) | split | extract_lets | (with_reducible apply foldl_still; intro _ _) | simp +zetaDelta)

@[simp] theorem still_noteUnnamed (s : State) (k : Unnamed) (l : LaneId) (pay : List Byte) : (noteUnnamed s k l pay).still = s.still := by
  simp [noteUnnamed]

@[simp] theorem still_tellUnnamed (s : State) (p : Nat) (k : Unnamed) : (tellUnnamed s p k).still = s.still := by
  simp [tellUnnamed]

@[simp] theorem still_raiseUnnamed (s : State) (k : Unnamed) (pay : List Byte) : (raiseUnnamed s k pay).still = s.still := by
  simp [raiseUnnamed]

@[simp] theorem still_respond (s : State) (p : Nat) (urg : Bool) (status d0 d1 tick : Nat) (data : List Nat := []) : (respond s p urg status d0 d1 tick data).still = s.still := by
  simp [respond]

@[simp] theorem still_answer (s : State) (p : Nat) (urg : Bool) (status : Nat) (d0 : Nat := 0) (d1 : Nat := 0) (data : List Nat := []) : (answer s p urg status d0 d1 data).still = s.still := by
  simp [answer]

@[simp] theorem still_progress (s : State) (p : Nat) (urg : Bool) (status : Nat) : (progress s p urg status).still = s.still := by
  rfl

@[simp] theorem still_serve (s : State) (p op : Nat) (f : State → List Word → State) (h : ∀ ws, (f s ws).still = s.still) : (serve s p op f).still = s.still := by
  unfold serve; simp only []; repeat' split
  all_goals simp [h]

@[simp] theorem still_sk_serve (s : State) (p op : Nat) (f : State → List Word → State) (h : ∀ ws, (f s ws).still.sk = s.still.sk) : (serve s p op f).still.sk = s.still.sk := by
  unfold serve; simp only []; repeat' split
  all_goals simp [h]

@[simp] theorem still_grid_serve (s : State) (p op : Nat) (f : State → List Word → State) (h : ∀ ws, (f s ws).still.grid = s.still.grid) : (serve s p op f).still.grid = s.still.grid := by
  unfold serve; simp only []; repeat' split
  all_goals simp [h]

@[simp] theorem still_imgs_serve (s : State) (p op : Nat) (f : State → List Word → State) (h : ∀ ws, (f s ws).still.imgs = s.still.imgs) : (serve s p op f).still.imgs = s.still.imgs := by
  unfold serve; simp only []; repeat' split
  all_goals simp [h]

@[simp] theorem still_svc_serve (s : State) (p op : Nat) (f : State → List Word → State) (h : ∀ ws, (f s ws).still.svc = s.still.svc) : (serve s p op f).still.svc = s.still.svc := by
  unfold serve; simp only []; repeat' split
  all_goals simp [h]

@[simp] theorem still_needOperator (s : State) (p : Nat) (urg : Bool) (k : State) (h : k.still = s.still) : (needOperator s p urg k).still = s.still := by
  unfold needOperator; split <;> simp [h]

@[simp] theorem still_sk_needOperator (s : State) (p : Nat) (urg : Bool) (k : State) (h : k.still.sk = s.still.sk) : (needOperator s p urg k).still.sk = s.still.sk := by
  unfold needOperator; split <;> simp [h]

@[simp] theorem still_grid_needOperator (s : State) (p : Nat) (urg : Bool) (k : State) (h : k.still.grid = s.still.grid) : (needOperator s p urg k).still.grid = s.still.grid := by
  unfold needOperator; split <;> simp [h]

@[simp] theorem still_imgs_needOperator (s : State) (p : Nat) (urg : Bool) (k : State) (h : k.still.imgs = s.still.imgs) : (needOperator s p urg k).still.imgs = s.still.imgs := by
  unfold needOperator; split <;> simp [h]

@[simp] theorem still_svc_needOperator (s : State) (p : Nat) (urg : Bool) (k : State) (h : k.still.svc = s.still.svc) : (needOperator s p urg k).still.svc = s.still.svc := by
  unfold needOperator; split <;> simp [h]

@[simp] theorem still_needLock (s : State) (p : Nat) (urg : Bool) (k : State) (h : k.still = s.still) : (needLock s p urg k).still = s.still := by
  unfold needLock; split <;> simp [h]

@[simp] theorem still_sk_needLock (s : State) (p : Nat) (urg : Bool) (k : State) (h : k.still.sk = s.still.sk) : (needLock s p urg k).still.sk = s.still.sk := by
  unfold needLock; split <;> simp [h]

@[simp] theorem still_grid_needLock (s : State) (p : Nat) (urg : Bool) (k : State) (h : k.still.grid = s.still.grid) : (needLock s p urg k).still.grid = s.still.grid := by
  unfold needLock; split <;> simp [h]

@[simp] theorem still_imgs_needLock (s : State) (p : Nat) (urg : Bool) (k : State) (h : k.still.imgs = s.still.imgs) : (needLock s p urg k).still.imgs = s.still.imgs := by
  unfold needLock; split <;> simp [h]

@[simp] theorem still_svc_needLock (s : State) (p : Nat) (urg : Bool) (k : State) (h : k.still.svc = s.still.svc) : (needLock s p urg k).still.svc = s.still.svc := by
  unfold needLock; split <;> simp [h]

@[simp] theorem still_discardLoopStage (s : State) : (discardLoopStage s).still = s.still := by
  simp [discardLoopStage]

@[simp] theorem still_dropLock (s : State) : (dropLock s).still = s.still := by
  simp [dropLock]

@[simp] theorem still_dropHoldings (s : State) (p : Nat) : (dropHoldings s p).still = s.still := by
  simp [dropHoldings]

@[simp] theorem still_endMainDetached (s : State) (p : Nat) : (endMainDetached s p).still = s.still := by
  simp [endMainDetached]

@[simp] theorem still_startDetach (s : State) (p : Nat) : (startDetach s p).still = s.still := by
  simp [startDetach]

@[simp] theorem still_resetWindow (s : State) (p : Nat) : (resetWindow s p).still = s.still := by
  simp [resetWindow]

@[simp] theorem still_finishDetach (s : State) (p : Nat) : (finishDetach s p).still = s.still := by
  simp [finishDetach]

@[simp] theorem still_sk_State_updImg (s : State) (l : LaneId) (f : Mem → Mem) : (State.updImg s l f).still.sk = s.still.sk := by
  simp [State.updImg]

@[simp] theorem still_grid_State_updImg (s : State) (l : LaneId) (f : Mem → Mem) : (State.updImg s l f).still.grid = s.still.grid := by
  simp [State.updImg]

@[simp] theorem still_svc_State_updImg (s : State) (l : LaneId) (f : Mem → Mem) : (State.updImg s l f).still.svc = s.still.svc := by
  simp [State.updImg]

@[simp] theorem still_sk_State_wrImg (s : State) (l : LaneId) (a n v : Nat) : (State.wrImg s l a n v).still.sk = s.still.sk := by
  simp [State.wrImg]

@[simp] theorem still_grid_State_wrImg (s : State) (l : LaneId) (a n v : Nat) : (State.wrImg s l a n v).still.grid = s.still.grid := by
  simp [State.wrImg]

@[simp] theorem still_svc_State_wrImg (s : State) (l : LaneId) (a n v : Nat) : (State.wrImg s l a n v).still.svc = s.still.svc := by
  simp [State.wrImg]

@[simp] theorem still_bothLanes (f : State → LaneId → State) (s : State) (h : ∀ s l, (f s l).still = s.still) : (bothLanes f s).still = s.still := by
  simp [bothLanes, h]

@[simp] theorem still_sk_bothLanes (f : State → LaneId → State) (s : State) (h : ∀ s l, (f s l).still.sk = s.still.sk) : (bothLanes f s).still.sk = s.still.sk := by
  simp [bothLanes, h]

@[simp] theorem still_grid_bothLanes (f : State → LaneId → State) (s : State) (h : ∀ s l, (f s l).still.grid = s.still.grid) : (bothLanes f s).still.grid = s.still.grid := by
  simp [bothLanes, h]

@[simp] theorem still_imgs_bothLanes (f : State → LaneId → State) (s : State) (h : ∀ s l, (f s l).still.imgs = s.still.imgs) : (bothLanes f s).still.imgs = s.still.imgs := by
  simp [bothLanes, h]

@[simp] theorem still_svc_bothLanes (f : State → LaneId → State) (s : State) (h : ∀ s l, (f s l).still.svc = s.still.svc) : (bothLanes f s).still.svc = s.still.svc := by
  simp [bothLanes, h]

/-! Network -/

@[simp] theorem still_updFlow (s : State) (l : LaneId) (n : Nat) (f : FlowCtx → FlowCtx) : (updFlow s l n f).still = s.still := by
  unfold updFlow; repeat' (first | with_reducible rfl | (simp +zetaDelta; done) | (with_reducible apply updLane_goes; rotate_left; intro _) | split | extract_lets | (with_reducible apply foldl_still; intro _ _) | simp +zetaDelta)

@[simp] theorem still_netEvent (s : State) (l : LaneId) (src code top : Nat) (obj : Option Nat := none) : (netEvent s l src code top obj).still = s.still := by
  unfold netEvent; repeat' (first | with_reducible rfl | (simp +zetaDelta; done) | (with_reducible apply updLane_goes; rotate_left; intro _) | split | extract_lets | (with_reducible apply foldl_still; intro _ _) | simp +zetaDelta)

@[simp] theorem still_actEvent (s : State) (l : LaneId) (src code top : Nat) : (actEvent s l src code top).still = s.still := by
  unfold actEvent; repeat' (first | with_reducible rfl | (simp +zetaDelta; done) | (with_reducible apply updLane_goes; rotate_left; intro _) | split | extract_lets | (with_reducible apply foldl_still; intro _ _) | simp +zetaDelta)

@[simp] theorem still_admitRate (s : State) (l : LaneId) (key limit : Nat) : (admitRate s l key limit).2.still = s.still := by
  unfold admitRate; repeat' (first | with_reducible rfl | (simp +zetaDelta; done) | (with_reducible apply updLane_goes; rotate_left; intro _) | split | extract_lets | (with_reducible apply foldl_still; intro _ _) | simp +zetaDelta)

@[simp] theorem still_shed (s : State) (l : LaneId) (portB : Bool) (cls : Nat) : (shed s l portB cls).still = s.still := by
  unfold shed; repeat' (first | with_reducible rfl | (simp +zetaDelta; done) | (with_reducible apply updLane_goes; rotate_left; intro _) | split | extract_lets | (with_reducible apply foldl_still; intro _ _) | simp +zetaDelta)

@[simp] theorem still_acceptFrame (s : State) (l : LaneId) (portB : Bool) (r : CfgRec) (f : FlowFrame) : (acceptFrame s l portB r f).still = s.still := by
  unfold acceptFrame; repeat' (first | with_reducible rfl | (simp +zetaDelta; done) | (with_reducible apply updLane_goes; rotate_left; intro _) | split | extract_lets | (with_reducible apply foldl_still; intro _ _) | simp +zetaDelta)

theorem still_execFlowFrameReceived (l : LaneId) (w : Tagged) (f : FlowFrame) (s : State) : Stays id (execFlowFrameReceived l w f s) s := by
  unfold execFlowFrameReceived; (repeat' (first | with_reducible rfl | (simp +zetaDelta; done) | (simp +zetaDelta [hq2]; done) | (rename_i hq; have hq2 := (congrArg (fun x => (State.still (Prod.snd x))) hq).symm; clear hq; simp +zetaDelta at hq2) | (rename_i hq; have hq2 := (congrArg (fun x => (State.still (Prod.fst x))) hq).symm; clear hq; simp +zetaDelta at hq2) | (with_reducible apply updLane_goes; rotate_left; intro _) | split | (extract_lets) | (with_reducible apply foldl_still; intro _ _) | (with_reducible apply foldl_still_fst; intro _ _) | (with_reducible apply foldl_still_snd; intro _ _) | (simp +zetaDelta)))

@[simp] theorem still_sk_flowSwap (s : State) (l : LaneId) (r : CfgRec) : (flowSwap s l r).still.sk = s.still.sk := by
  unfold flowSwap; repeat' (first | with_reducible rfl | (simp +zetaDelta; done) |  split | extract_lets | (with_reducible apply foldl_stillsk; intro _ _) | simp +zetaDelta)

@[simp] theorem still_grid_flowSwap (s : State) (l : LaneId) (r : CfgRec) : (flowSwap s l r).still.grid = s.still.grid := by
  unfold flowSwap; repeat' (first | with_reducible rfl | (simp +zetaDelta; done) |  split | extract_lets | (with_reducible apply foldl_stillgrid; intro _ _) | simp +zetaDelta)

@[simp] theorem still_svc_flowSwap (s : State) (l : LaneId) (r : CfgRec) : (flowSwap s l r).still.svc = s.still.svc := by
  unfold flowSwap; repeat' (first | with_reducible rfl | (simp +zetaDelta; done) |  split | extract_lets | (with_reducible apply foldl_stillsvc; intro _ _) | simp +zetaDelta)

@[simp] theorem still_sk_flowSwaps (s : State) (l : LaneId) : (flowSwaps s l).still.sk = s.still.sk := by
  unfold flowSwaps; repeat' (first | with_reducible rfl | (simp +zetaDelta; done) |  split | extract_lets | (with_reducible apply foldl_stillsk; intro _ _) | simp +zetaDelta)

@[simp] theorem still_grid_flowSwaps (s : State) (l : LaneId) : (flowSwaps s l).still.grid = s.still.grid := by
  unfold flowSwaps; repeat' (first | with_reducible rfl | (simp +zetaDelta; done) |  split | extract_lets | (with_reducible apply foldl_stillgrid; intro _ _) | simp +zetaDelta)

@[simp] theorem still_svc_flowSwaps (s : State) (l : LaneId) : (flowSwaps s l).still.svc = s.still.svc := by
  unfold flowSwaps; repeat' (first | with_reducible rfl | (simp +zetaDelta; done) |  split | extract_lets | (with_reducible apply foldl_stillsvc; intro _ _) | simp +zetaDelta)

theorem still_sk_execFlowDown (l : LaneId) (n : Fin 256) (s : State) : Stays Still.sk (execFlowDown l n s) s := by
  unfold execFlowDown; repeat' (first | with_reducible rfl | (simp +zetaDelta; done) |  split | extract_lets | (with_reducible apply foldl_stillsk; intro _ _) | simp +zetaDelta)

theorem still_grid_execFlowDown (l : LaneId) (n : Fin 256) (s : State) : Stays Still.grid (execFlowDown l n s) s := by
  unfold execFlowDown; repeat' (first | with_reducible rfl | (simp +zetaDelta; done) |  split | extract_lets | (with_reducible apply foldl_stillgrid; intro _ _) | simp +zetaDelta)

theorem still_svc_execFlowDown (l : LaneId) (n : Fin 256) (s : State) : Stays Still.svc (execFlowDown l n s) s := by
  unfold execFlowDown; repeat' (first | with_reducible rfl | (simp +zetaDelta; done) |  split | extract_lets | (with_reducible apply foldl_stillsvc; intro _ _) | simp +zetaDelta)

@[simp] theorem still_udpbcTake (s : State) (l : LaneId) (r : CfgRec) (dt : Nat) (sentences : List (List Byte)) : (udpbcTake s l r dt sentences).still = s.still := by
  unfold udpbcTake; repeat' (first | with_reducible rfl | (simp +zetaDelta ; done) | (with_reducible apply updLane_goes; rotate_left; intro _) | split | extract_lets | (with_reducible apply foldl_still; intro _ _) | simp +zetaDelta )

@[simp] theorem still_udpbcIn (s : State) (l : LaneId) (portB : Bool) (g : Datagram450) (dt : Nat) (sentences : List (List Byte)) : (udpbcIn s l portB g dt sentences).still = s.still := by
  unfold udpbcIn; repeat' (first | with_reducible rfl | (simp +zetaDelta ; done) | (with_reducible apply updLane_goes; rotate_left; intro _) | split | extract_lets | (with_reducible apply foldl_still; intro _ _) | simp +zetaDelta )

theorem still_execUdpbcDatagram (l : LaneId) (rx : Rx) (g : Datagram450) (dt : Nat) (sentences : List (List Byte)) (s : State) : Stays id (execUdpbcDatagram l rx g dt sentences s) s := by
  unfold execUdpbcDatagram; repeat' (first | with_reducible rfl | (simp +zetaDelta; done) | (with_reducible apply updLane_goes; rotate_left; intro _) | split | extract_lets | (with_reducible apply foldl_still; intro _ _) | simp +zetaDelta)

@[simp] theorem still_writeDescs (s : State) (l : LaneId) (pdu : Nat → List Byte) : (writeDescs s l pdu).still = s.still := by
  unfold writeDescs; repeat' (first | with_reducible rfl | (simp +zetaDelta; done) | (with_reducible apply updLane_goes; rotate_left; intro _) | split | extract_lets | (with_reducible apply foldl_still; intro _ _) | simp +zetaDelta)

@[simp] theorem still_headArrives (s : State) (l : LaneId) (q now : Nat) : (headArrives s l q now).still = s.still := by
  unfold headArrives; repeat' (first | with_reducible rfl | (simp +zetaDelta; done) | (with_reducible apply updLane_goes; rotate_left; intro _) | split | extract_lets | (with_reducible apply foldl_still; intro _ _) | simp +zetaDelta)

@[simp] theorem still_launchFrame (s : State) (l : LaneId) (r : CfgRec) (d : FlowDesc) (late : Bool) : (launchFrame s l r d late).still = s.still := by
  unfold launchFrame; repeat' (first | with_reducible rfl | (simp +zetaDelta; done) | (with_reducible apply updLane_goes; rotate_left; intro _) | split | extract_lets | (with_reducible apply foldl_still; intro _ _) | simp +zetaDelta)

theorem still_execFlowLaunch (l : LaneId) (n : Fin 256) (now : Word) (s : State) : Stays id (execFlowLaunch l n now s) s := by
  unfold execFlowLaunch; repeat' (first | with_reducible rfl | (simp +zetaDelta; done) | (with_reducible apply updLane_goes; rotate_left; intro _) | split | extract_lets | (with_reducible apply foldl_still; intro _ _) | simp +zetaDelta)

@[simp] theorem still_sk_substFlows (s : State) (l : LaneId) : (substFlows s l).still.sk = s.still.sk := by
  unfold substFlows; repeat' (first | with_reducible rfl | (simp +zetaDelta; done) |  split | extract_lets | (with_reducible apply foldl_stillsk; intro _ _) | simp +zetaDelta)

@[simp] theorem still_grid_substFlows (s : State) (l : LaneId) : (substFlows s l).still.grid = s.still.grid := by
  unfold substFlows; repeat' (first | with_reducible rfl | (simp +zetaDelta; done) |  split | extract_lets | (with_reducible apply foldl_stillgrid; intro _ _) | simp +zetaDelta)

@[simp] theorem still_svc_substFlows (s : State) (l : LaneId) : (substFlows s l).still.svc = s.still.svc := by
  unfold substFlows; repeat' (first | with_reducible rfl | (simp +zetaDelta; done) |  split | extract_lets | (with_reducible apply foldl_stillsvc; intro _ _) | simp +zetaDelta)

@[simp] theorem still_takeoverFlows (s : State) (l : LaneId) : (takeoverFlows s l).still = s.still := by
  unfold takeoverFlows; repeat' (first | with_reducible rfl | (simp +zetaDelta; done) | (with_reducible apply updLane_goes; rotate_left; intro _) | split | extract_lets | (with_reducible apply foldl_still; intro _ _) | simp +zetaDelta)

@[simp] theorem still_standbyFlows (s : State) (l : LaneId) : (standbyFlows s l).still = s.still := by
  unfold standbyFlows; repeat' (first | with_reducible rfl | (simp +zetaDelta; done) | (with_reducible apply updLane_goes; rotate_left; intro _) | split | extract_lets | (with_reducible apply foldl_still; intro _ _) | simp +zetaDelta)

@[simp] theorem still_offlineFlows (s : State) (l : LaneId) : (offlineFlows s l).still = s.still := by
  unfold offlineFlows; repeat' (first | with_reducible rfl | (simp +zetaDelta; done) | (with_reducible apply updLane_goes; rotate_left; intro _) | split | extract_lets | (with_reducible apply foldl_still; intro _ _) | simp +zetaDelta)

@[simp] theorem still_sk_flowApply (old new : List CfgRec) (before : Mem) (s : State) (l : LaneId) : (flowApply old new before s l).still.sk = s.still.sk := by
  unfold flowApply; repeat' (first | with_reducible rfl | (simp +zetaDelta; done) |  split | extract_lets | (with_reducible apply foldl_stillsk; intro _ _) | simp +zetaDelta)

@[simp] theorem still_grid_flowApply (old new : List CfgRec) (before : Mem) (s : State) (l : LaneId) : (flowApply old new before s l).still.grid = s.still.grid := by
  unfold flowApply; repeat' (first | with_reducible rfl | (simp +zetaDelta; done) |  split | extract_lets | (with_reducible apply foldl_stillgrid; intro _ _) | simp +zetaDelta)

@[simp] theorem still_svc_flowApply (old new : List CfgRec) (before : Mem) (s : State) (l : LaneId) : (flowApply old new before s l).still.svc = s.still.svc := by
  unfold flowApply; repeat' (first | with_reducible rfl | (simp +zetaDelta; done) |  split | extract_lets | (with_reducible apply foldl_stillsvc; intro _ _) | simp +zetaDelta)

theorem still_execPhyLinkChange (l : LaneId) (portB up : Bool) (s : State) : Stays id (execPhyLinkChange l portB up s) s := by
  unfold execPhyLinkChange; repeat' (first | with_reducible rfl | (simp +zetaDelta; done) | (with_reducible apply updLane_goes; rotate_left; intro _) | split | extract_lets | (with_reducible apply foldl_still; intro _ _) | simp +zetaDelta)

theorem still_execPrpSupervisionSend (l : LaneId) (s : State) : Stays id (execPrpSupervisionSend l s) s := by
  unfold execPrpSupervisionSend; repeat' (first | with_reducible rfl | (simp +zetaDelta; done) | (with_reducible apply updLane_goes; rotate_left; intro _) | split | extract_lets | (with_reducible apply foldl_still; intro _ _) | simp +zetaDelta)

theorem still_execPrpSupervisionFrame (l : LaneId) (portB : Bool) (node : Nat) (s : State) : Stays id (execPrpSupervisionFrame l portB node s) s := by
  unfold execPrpSupervisionFrame; repeat' (first | with_reducible rfl | (simp +zetaDelta; done) | (with_reducible apply updLane_goes; rotate_left; intro _) | split | extract_lets | (with_reducible apply foldl_still; intro _ _) | simp +zetaDelta)

theorem still_execPrpSupervisionLost (l : LaneId) (portB : Bool) (node : Nat) (s : State) : Stays id (execPrpSupervisionLost l portB node s) s := by
  unfold execPrpSupervisionLost; repeat' (first | with_reducible rfl | (simp +zetaDelta; done) | (with_reducible apply updLane_goes; rotate_left; intro _) | split | extract_lets | (with_reducible apply foldl_still; intro _ _) | simp +zetaDelta)

@[simp] theorem still_ipNext (s : State) (l : LaneId) : (ipNext s l).still = s.still := by
  unfold ipNext; repeat' (first | with_reducible rfl | (simp +zetaDelta; done) | (with_reducible apply updLane_goes; rotate_left; intro _) | split | extract_lets | (with_reducible apply foldl_still; intro _ _) | simp +zetaDelta)

@[simp] theorem still_ipStart (s : State) (l : LaneId) : (ipStart s l).still = s.still := by
  unfold ipStart; repeat' (first | with_reducible rfl | (simp +zetaDelta; done) | (with_reducible apply updLane_goes; rotate_left; intro _) | split | extract_lets | (with_reducible apply foldl_still; intro _ _) | simp +zetaDelta)

theorem still_execThlBootstrapStart (l : LaneId) (conflict : Bool) (s : State) : Stays id (execThlBootstrapStart l conflict s) s := by
  unfold execThlBootstrapStart; repeat' (first | with_reducible rfl | (simp +zetaDelta; done) | (with_reducible apply updLane_goes; rotate_left; intro _) | split | extract_lets | (with_reducible apply foldl_still; intro _ _) | simp +zetaDelta)

@[simp] theorem still_arpIcmpTake (s : State) (l : LaneId) (x0 : ArpIcmp) : (arpIcmpTake s l x0).still = s.still := by
  unfold arpIcmpTake; repeat' (first | with_reducible rfl | (simp +zetaDelta ; done) | (with_reducible apply updLane_goes; rotate_left; intro _) | split | extract_lets | (with_reducible apply foldl_still; intro _ _) | simp +zetaDelta )

theorem still_execArpIcmpFrame (l : LaneId) (rx : Rx) (f : ArpIcmp) (s : State) : Stays id (execArpIcmpFrame l rx f s) s := by
  unfold execArpIcmpFrame; simp only []; repeat' (first | with_reducible rfl | (simp +zetaDelta ; done) | (with_reducible apply updLane_goes; rotate_left; intro _) | split | extract_lets | (with_reducible apply foldl_still; intro _ _) | simp +zetaDelta )

@[simp] theorem still_releaseBootstrap (s : State) (l : LaneId) : (releaseBootstrap s l).still = s.still := by
  unfold releaseBootstrap; repeat' (first | with_reducible rfl | (simp +zetaDelta; done) | (with_reducible apply updLane_goes; rotate_left; intro _) | split | extract_lets | (with_reducible apply foldl_still; intro _ _) | simp +zetaDelta)

/-! Can -/

@[simp] theorem still_updCan (s : State) (l : LaneId) (p : Nat) (f : CanPort → CanPort) : (updCan s l p f).still = s.still := by
  unfold updCan; repeat' (first | with_reducible rfl | (simp +zetaDelta; done) | (with_reducible apply updLane_goes; rotate_left; intro _) | split | extract_lets | (with_reducible apply foldl_still; intro _ _) | simp +zetaDelta)

@[simp] theorem still_canEvent (s : State) (l : LaneId) (p src code : Nat) (low : Option Nat := none) (pay : List Byte := []) : (canEvent s l p src code low pay).still = s.still := by
  simp [canEvent]

@[simp] theorem still_recDown (s : State) (c : CanPort) : (recDown s c).2.still = s.still := by
  unfold recDown; repeat' (first | rfl | (simp; done) | split)

@[simp] theorem still_ecChange (s : State) (l : LaneId) (p before : Nat) : (ecChange s l p before).still = s.still := by
  simp [ecChange]

@[simp] theorem still_rxError (s : State) (l : LaneId) (p : Nat) (step8 : Bool) : (rxError s l p step8).still = s.still := by
  simp [rxError]

theorem still_execCanFrameReceived (l : LaneId) (port : Fin 10) (f : CanFrame) (dt : Nat) (s : State) : Stays id (execCanFrameReceived l port f dt s) s := by
  unfold execCanFrameReceived; repeat' (first | with_reducible rfl | (simp +zetaDelta; done) | (with_reducible apply updLane_goes; rotate_left; intro _) | split | extract_lets | (with_reducible apply foldl_still; intro _ _) | simp +zetaDelta)

@[simp] theorem still_sk_canSwaps (s : State) (l : LaneId) : (canSwaps s l).still.sk = s.still.sk := by
  unfold canSwaps; repeat' (first | with_reducible rfl | (simp +zetaDelta; done) |  split | extract_lets | (with_reducible apply foldl_stillsk; intro _ _) | simp +zetaDelta)

@[simp] theorem still_grid_canSwaps (s : State) (l : LaneId) : (canSwaps s l).still.grid = s.still.grid := by
  unfold canSwaps; repeat' (first | with_reducible rfl | (simp +zetaDelta; done) |  split | extract_lets | (with_reducible apply foldl_stillgrid; intro _ _) | simp +zetaDelta)

@[simp] theorem still_svc_canSwaps (s : State) (l : LaneId) : (canSwaps s l).still.svc = s.still.svc := by
  unfold canSwaps; repeat' (first | with_reducible rfl | (simp +zetaDelta; done) |  split | extract_lets | (with_reducible apply foldl_stillsvc; intro _ _) | simp +zetaDelta)

@[simp] theorem still_canEnqueue (s : State) (l : LaneId) (p : Nat) (m : Mem) : (canEnqueue s l p m).still = s.still := by
  unfold canEnqueue; repeat' (first | with_reducible rfl | (simp +zetaDelta; done) | (with_reducible apply updLane_goes; rotate_left; intro _) | split | extract_lets | (with_reducible apply foldl_still; intro _ _) | simp +zetaDelta)

@[simp] theorem still_canWake (s : State) (l : LaneId) (p code : Nat) : (canWake s l p code).still = s.still := by
  simp [canWake]

@[simp] theorem still_canRequest (s : State) (l : LaneId) (p req : Nat) : (canRequest s l p req).still = s.still := by
  unfold canRequest; repeat' (first | rfl | (simp; done) | split)

@[simp] theorem still_canControl (s : State) (l : LaneId) (p : Nat) (m : Mem) (only : Option Nat) : (canControl s l p m only).still = s.still := by
  unfold canControl; repeat' (first | rfl | (simp; done) | split)

@[simp] theorem still_canEdge (s : State) (l : LaneId) : (canEdge s l).still = s.still := by
  simp [canEdge]

theorem still_execCanSleepRequest (l : LaneId) (port : Fin 10) (s : State) : Stays id (execCanSleepRequest l port s) s := by
  simp [execCanSleepRequest]

theorem still_execCanWakeRequest (l : LaneId) (port : Fin 10) (s : State) : Stays id (execCanWakeRequest l port s) s := by
  simp [execCanWakeRequest]

theorem still_execCanRecoverRequest (l : LaneId) (port : Fin 10) (s : State) : Stays id (execCanRecoverRequest l port s) s := by
  simp [execCanRecoverRequest]

theorem still_execCanBusWake (l : LaneId) (port : Fin 10) (f : Option CanFrame) (s : State) : Stays id (execCanBusWake l port f s) s := by
  unfold execCanBusWake; repeat' (first | with_reducible rfl | (simp +zetaDelta; done) | (with_reducible apply updLane_goes; rotate_left; intro _) | split | extract_lets | (with_reducible apply foldl_still; intro _ _) | simp +zetaDelta)

@[simp] theorem still_busOff (s : State) (l : LaneId) (p : Nat) : (busOff s l p).still = s.still := by
  simp [busOff]

theorem still_execCanError (l : LaneId) (port : Fin 10) (e : CanErr) (s : State) : Stays id (execCanError l port e s) s := by
  unfold execCanError; repeat' (first | rfl | (simp; done) | split)

theorem still_execCanBusoffRecovered (l : LaneId) (port : Fin 10) (s : State) : Stays id (execCanBusoffRecovered l port s) s := by
  simp [execCanBusoffRecovered]

theorem still_execCanFrameTxDone (l : LaneId) (port : Fin 10) (s : State) : Stays id (execCanFrameTxDone l port s) s := by
  unfold execCanFrameTxDone; repeat' (first | with_reducible rfl | (simp +zetaDelta; done) | (with_reducible apply updLane_goes; rotate_left; intro _) | split | extract_lets | (with_reducible apply foldl_still; intro _ _) | simp +zetaDelta)

theorem still_execScRateDetected (port : Fin 2) (rate : Fin 12) (s : State) : Stays id (execScRateDetected port rate s) s := by
  unfold execScRateDetected; repeat' (first | with_reducible rfl | (simp +zetaDelta; done) | (with_reducible apply updLane_goes; rotate_left; intro _) | split | extract_lets | (with_reducible apply foldl_still; intro _ _) | simp +zetaDelta)

theorem still_execScNoTraffic (port : Fin 2) (s : State) : Stays id (execScNoTraffic port s) s := by
  simp [execScNoTraffic]

@[simp] theorem still_canTakeover (s : State) (l : LaneId) : (canTakeover s l).still = s.still := by
  unfold canTakeover; repeat' (first | with_reducible rfl | (simp +zetaDelta; done) | (with_reducible apply updLane_goes; rotate_left; intro _) | split | extract_lets | (with_reducible apply foldl_still; intro _ _) | simp +zetaDelta)

@[simp] theorem still_canListen (s : State) (l : LaneId) (clear : Bool) : (canListen s l clear).still = s.still := by
  unfold canListen; repeat' (first | with_reducible rfl | (simp +zetaDelta; done) | (with_reducible apply updLane_goes; rotate_left; intro _) | split | extract_lets | (with_reducible apply foldl_still; intro _ _) | simp +zetaDelta)

@[simp] theorem still_sk_substCan (s : State) (l : LaneId) : (substCan s l).still.sk = s.still.sk := by
  simp [substCan]

@[simp] theorem still_grid_substCan (s : State) (l : LaneId) : (substCan s l).still.grid = s.still.grid := by
  simp [substCan]

@[simp] theorem still_svc_substCan (s : State) (l : LaneId) : (substCan s l).still.svc = s.still.svc := by
  simp [substCan]

@[simp] theorem still_sk_canApplyPort (old new : List CfgRec) (p : Nat) (s : State) (l : LaneId) : (canApplyPort old new p s l).still.sk = s.still.sk := by
  unfold canApplyPort; repeat' (first | rfl | (simp; done) | split)

@[simp] theorem still_grid_canApplyPort (old new : List CfgRec) (p : Nat) (s : State) (l : LaneId) : (canApplyPort old new p s l).still.grid = s.still.grid := by
  unfold canApplyPort; repeat' (first | rfl | (simp; done) | split)

@[simp] theorem still_svc_canApplyPort (old new : List CfgRec) (p : Nat) (s : State) (l : LaneId) : (canApplyPort old new p s l).still.svc = s.still.svc := by
  unfold canApplyPort; repeat' (first | rfl | (simp; done) | split)

@[simp] theorem still_sk_canApplyFields (old new : List CfgRec) (p : Nat) (s : State) (l : LaneId) : (canApplyFields old new p s l).still.sk = s.still.sk := by
  unfold canApplyFields; repeat' (first | with_reducible rfl | (simp +zetaDelta ; done) | split | extract_lets | (with_reducible apply foldl_stillsk; intro _ _) | simp +zetaDelta )

@[simp] theorem still_grid_canApplyFields (old new : List CfgRec) (p : Nat) (s : State) (l : LaneId) : (canApplyFields old new p s l).still.grid = s.still.grid := by
  unfold canApplyFields; repeat' (first | with_reducible rfl | (simp +zetaDelta ; done) | split | extract_lets | (with_reducible apply foldl_stillgrid; intro _ _) | simp +zetaDelta )

@[simp] theorem still_svc_canApplyFields (old new : List CfgRec) (p : Nat) (s : State) (l : LaneId) : (canApplyFields old new p s l).still.svc = s.still.svc := by
  unfold canApplyFields; repeat' (first | with_reducible rfl | (simp +zetaDelta ; done) | split | extract_lets | (with_reducible apply foldl_stillsvc; intro _ _) | simp +zetaDelta )

@[simp] theorem still_sk_canApply (old new : List CfgRec) (s : State) (l : LaneId) : (canApply old new s l).still.sk = s.still.sk := by
  unfold canApply; repeat' (first | with_reducible rfl | (simp +zetaDelta ; done) | split | extract_lets | (with_reducible apply foldl_stillsk; intro _ _) | simp +zetaDelta )

@[simp] theorem still_grid_canApply (old new : List CfgRec) (s : State) (l : LaneId) : (canApply old new s l).still.grid = s.still.grid := by
  unfold canApply; repeat' (first | with_reducible rfl | (simp +zetaDelta ; done) | split | extract_lets | (with_reducible apply foldl_stillgrid; intro _ _) | simp +zetaDelta )

@[simp] theorem still_svc_canApply (old new : List CfgRec) (s : State) (l : LaneId) : (canApply old new s l).still.svc = s.still.svc := by
  unfold canApply; repeat' (first | with_reducible rfl | (simp +zetaDelta ; done) | split | extract_lets | (with_reducible apply foldl_stillsvc; intro _ _) | simp +zetaDelta )

@[simp] theorem still_canApplySend (old new : List CfgRec) (s : State) (l : LaneId) : (canApplySend old new s l).still = s.still := by
  simp [canApplySend]

@[simp] theorem still_canStart (s : State) (l : LaneId) (ps : List Nat) : (canStart s l ps).still = s.still := by
  simp [canStart]

/-! Dio -/

@[simp] theorem still_updDio (s : State) (i : Nat) (f : DioIsl → DioIsl) : (updDio s i f).still = s.still := by
  rfl

@[simp] theorem still_setDioCh (s : State) (i c : Nat) (x : DioCh) : (setDioCh s i c x).still = s.still := by
  rfl

@[simp] theorem still_dioEvent (s : State) (i c code : Nat) (pay : List Byte := []) : (dioEvent s i c code pay).still = s.still := by
  simp [dioEvent]

@[simp] theorem still_groupEvent (s : State) (i g code : Nat) : (groupEvent s i g code).still = s.still := by
  simp [groupEvent]

@[simp] theorem still_dioLatch (s : State) (i c : Nat) : (dioLatch s i c).still = s.still := by
  simp [dioLatch]

@[simp] theorem still_dioRearm (s : State) (i c cause : Nat) (hot : Bool := false) : (dioRearm s i c cause hot).still = s.still := by
  simp [dioRearm]

@[simp] theorem still_dioSwitch (s : State) (i c : Nat) (x : DioSample) : (dioSwitch s i c x).still = s.still := by
  unfold dioSwitch; repeat' (first | rfl | (simp; done) | split)

@[simp] theorem still_groupAcks (s : State) (i : Nat) : (groupAcks s i).still = s.still := by
  simp [groupAcks]

@[simp] theorem still_dioChanges (s : State) (i c : Nat) (b a : DioCh) : (dioChanges s i c b a).still = s.still := by
  simp [dioChanges]

@[simp] theorem still_dioEdge (s : State) (i : Nat) (ch : List DioSample) (groupMa : List Nat) (temp : Int) (m : Mem) : (dioEdge s i ch groupMa temp m).1.still = s.still := by
  unfold dioEdge; repeat' (first | with_reducible rfl | (simp +zetaDelta; done) | (with_reducible apply updLane_goes; rotate_left; intro _) | split | extract_lets | (with_reducible apply foldl_still; intro _ _) | simp +zetaDelta)

theorem still_execDioOverload (dio2 : Bool) (ch : Fin 32) (s : State) : Stays id (execDioOverload dio2 ch s) s := by
  simp [execDioOverload]

theorem still_execDioAutoRetry (dio2 : Bool) (ch : Fin 32) (temp : Int) (s : State) : Stays id (execDioAutoRetry dio2 ch temp s) s := by
  unfold execDioAutoRetry; repeat' (first | with_reducible rfl | (simp +zetaDelta; done) | (with_reducible apply updLane_goes; rotate_left; intro _) | split | extract_lets | (with_reducible apply foldl_still; intro _ _) | simp +zetaDelta)

theorem still_execDioGroupTrip (dio2 : Bool) (g : Fin 4) (s : State) : Stays id (execDioGroupTrip dio2 g s) s := by
  simp [execDioGroupTrip]

@[simp] theorem still_dioApply (old new : List CfgRec) (s : State) : (dioApply old new s).still = s.still := by
  simp [dioApply]

@[simp] theorem still_sk_substDio (s : State) (l : LaneId) : (substDio s l).still.sk = s.still.sk := by
  unfold substDio; repeat' (first | with_reducible rfl | (simp +zetaDelta; done) |  split | extract_lets | (with_reducible apply foldl_stillsk; intro _ _) | simp +zetaDelta)

@[simp] theorem still_grid_substDio (s : State) (l : LaneId) : (substDio s l).still.grid = s.still.grid := by
  unfold substDio; repeat' (first | with_reducible rfl | (simp +zetaDelta; done) |  split | extract_lets | (with_reducible apply foldl_stillgrid; intro _ _) | simp +zetaDelta)

@[simp] theorem still_svc_substDio (s : State) (l : LaneId) : (substDio s l).still.svc = s.still.svc := by
  unfold substDio; repeat' (first | with_reducible rfl | (simp +zetaDelta; done) |  split | extract_lets | (with_reducible apply foldl_stillsvc; intro _ _) | simp +zetaDelta)

/-! Analogue -/

@[simp] theorem still_setAiCh (s : State) (i c : Nat) (x : AiCh) : (setAiCh s i c x).still = s.still := by
  rfl

@[simp] theorem still_setAoCh (s : State) (c : Nat) (x : AoCh) : (setAoCh s c x).still = s.still := by
  rfl

@[simp] theorem still_anaEvent (s : State) (src c code : Nat) (pay : List Byte := []) : (anaEvent s src c code pay).still = s.still := by
  simp [anaEvent]

@[simp] theorem still_sk_aiSample (s : State) (i ch : Nat) (r : CfgRec) (x : AiSample) : (aiSample s i ch r x).1.still.sk = s.still.sk := by
  simp [aiSample]

@[simp] theorem still_grid_aiSample (s : State) (i ch : Nat) (r : CfgRec) (x : AiSample) : (aiSample s i ch r x).1.still.grid = s.still.grid := by
  simp [aiSample]

@[simp] theorem still_imgs_aiSample (s : State) (i ch : Nat) (r : CfgRec) (x : AiSample) : (aiSample s i ch r x).1.still.imgs = s.still.imgs := by
  simp [aiSample]

@[simp] theorem still_sk_aiEdge (s : State) (i : Nat) (ch : List AiSample) (temp : Int) (m : Mem) : (aiEdge s i ch temp m).1.still.sk = s.still.sk := by
  unfold aiEdge; (repeat' (first | with_reducible rfl | (simp +zetaDelta; done) | (simp +zetaDelta [hq2]; done) | (rename_i hq; have hq2 := (congrArg (fun x => (State.still (Prod.snd x)).sk) hq).symm; clear hq; simp +zetaDelta at hq2) | (rename_i hq; have hq2 := (congrArg (fun x => (State.still (Prod.fst x)).sk) hq).symm; clear hq; simp +zetaDelta at hq2) | split | (extract_lets) | (with_reducible apply foldl_stillsk; intro _ _) | (with_reducible apply foldl_stillsk_fst; intro _ _) | (with_reducible apply foldl_stillsk_snd; intro _ _) | (simp +zetaDelta)))

@[simp] theorem still_grid_aiEdge (s : State) (i : Nat) (ch : List AiSample) (temp : Int) (m : Mem) : (aiEdge s i ch temp m).1.still.grid = s.still.grid := by
  unfold aiEdge; (repeat' (first | with_reducible rfl | (simp +zetaDelta; done) | (simp +zetaDelta [hq2]; done) | (rename_i hq; have hq2 := (congrArg (fun x => (State.still (Prod.snd x)).grid) hq).symm; clear hq; simp +zetaDelta at hq2) | (rename_i hq; have hq2 := (congrArg (fun x => (State.still (Prod.fst x)).grid) hq).symm; clear hq; simp +zetaDelta at hq2) | split | (extract_lets) | (with_reducible apply foldl_stillgrid; intro _ _) | (with_reducible apply foldl_stillgrid_fst; intro _ _) | (with_reducible apply foldl_stillgrid_snd; intro _ _) | (simp +zetaDelta)))

@[simp] theorem still_imgs_aiEdge (s : State) (i : Nat) (ch : List AiSample) (temp : Int) (m : Mem) : (aiEdge s i ch temp m).1.still.imgs = s.still.imgs := by
  unfold aiEdge; (repeat' (first | with_reducible rfl | (simp +zetaDelta; done) | (simp +zetaDelta [hq2]; done) | (rename_i hq; have hq2 := (congrArg (fun x => (State.still (Prod.snd x)).imgs) hq).symm; clear hq; simp +zetaDelta at hq2) | (rename_i hq; have hq2 := (congrArg (fun x => (State.still (Prod.fst x)).imgs) hq).symm; clear hq; simp +zetaDelta at hq2) | (with_reducible apply updLane_goes2; rotate_left; intro _) | split | (extract_lets) | (with_reducible apply foldl_stillimgs; intro _ _) | (with_reducible apply foldl_stillimgs_fst; intro _ _) | (with_reducible apply foldl_stillimgs_snd; intro _ _) | (simp +zetaDelta)))

theorem still_execAiSupplyRetry (ai2 : Bool) (ch : Fin 16) (s : State) : Stays id (execAiSupplyRetry ai2 ch s) s := by
  simp [execAiSupplyRetry]

@[simp] theorem still_aoSample (s : State) (ch : Nat) (r : CfgRec) (x : AoSample) : (aoSample s ch r x).1.still = s.still := by
  simp [aoSample]

@[simp] theorem still_aoEdge (s : State) (ch : List AoSample) (temp : Int) (m : Mem) : (aoEdge s ch temp m).1.still = s.still := by
  unfold aoEdge; (repeat' (first | with_reducible rfl | (simp +zetaDelta; done) | (simp +zetaDelta [hq2]; done) | (rename_i hq; have hq2 := (congrArg (fun x => (State.still (Prod.snd x))) hq).symm; clear hq; simp +zetaDelta at hq2) | (rename_i hq; have hq2 := (congrArg (fun x => (State.still (Prod.fst x))) hq).symm; clear hq; simp +zetaDelta at hq2) | (with_reducible apply updLane_goes; rotate_left; intro _) | split | (extract_lets) | (with_reducible apply foldl_still; intro _ _) | (with_reducible apply foldl_still_fst; intro _ _) | (with_reducible apply foldl_still_snd; intro _ _) | (simp +zetaDelta)))

theorem still_execAnalogueCalibrationDone (fails : List (Fin 3 × Fin 16)) (s : State) : Stays id (execAnalogueCalibrationDone fails s) s := by
  rfl

@[simp] theorem still_anaApply (old new : List CfgRec) (s : State) : (anaApply old new s).still = s.still := by
  simp [anaApply]

@[simp] theorem still_sk_substAo (s : State) (l : LaneId) : (substAo s l).still.sk = s.still.sk := by
  unfold substAo; repeat' (first | with_reducible rfl | (simp +zetaDelta; done) |  split | extract_lets | (with_reducible apply foldl_stillsk; intro _ _) | simp +zetaDelta)

@[simp] theorem still_grid_substAo (s : State) (l : LaneId) : (substAo s l).still.grid = s.still.grid := by
  unfold substAo; repeat' (first | with_reducible rfl | (simp +zetaDelta; done) |  split | extract_lets | (with_reducible apply foldl_stillgrid; intro _ _) | simp +zetaDelta)

@[simp] theorem still_svc_substAo (s : State) (l : LaneId) : (substAo s l).still.svc = s.still.svc := by
  unfold substAo; repeat' (first | with_reducible rfl | (simp +zetaDelta; done) |  split | extract_lets | (with_reducible apply foldl_stillsvc; intro _ _) | simp +zetaDelta)

@[simp] theorem still_setSupply (s : State) (f : FieldSupply) (low : Bool) : (setSupply s f low).still = s.still := by
  unfold setSupply; repeat' (first | rfl | (simp; done) | split)

/-! Recorder -/

@[simp] theorem still_arrive (s : State) (r : RawRec) : (arrive s r).still = s.still := by
  simp [arrive]

@[simp] theorem still_writeBack (s : State) : (writeBack s).still = s.still := by
  unfold writeBack; simp only []; repeat' (first | with_reducible rfl | (simp +zetaDelta ; done) | (with_reducible apply updLane_goes; rotate_left; intro _) | split | extract_lets | (with_reducible apply foldl_still; intro _ _) | simp +zetaDelta )

@[simp] theorem still_unstage (s : State) (l : LaneId) : (unstage s l).still = s.still := by
  unfold unstage; repeat' (first | with_reducible rfl | (simp +zetaDelta ; done) | (with_reducible apply updLane_goes; rotate_left; intro _) | split | extract_lets | (with_reducible apply foldl_still; intro _ _) | simp +zetaDelta )

theorem still_execRecordArrival (s : State) : Stays id (execRecordArrival s) s := by
  unfold execRecordArrival; repeat' (first | rfl | (simp; done) | split)

@[simp] theorem still_drainQueue (n : Nat) (s : State) : (drainQueue n s).still = s.still := by
  induction n generalizing s with
  | zero => rfl
  | succ n ih => simp only [drainQueue]; repeat' (first | rfl | split); all_goals simp [ih]

@[simp] theorem still_writeNow (s : State) (r : RawRec) : (writeNow s r).still = s.still := by
  simp [writeNow]

@[simp] theorem still_floodStaged (s : State) (l : LaneId) : (floodStaged s l).still = s.still := by
  unfold floodStaged; repeat' (first | with_reducible rfl | (simp +zetaDelta ; done) | (with_reducible apply updLane_goes; rotate_left; intro _) | split | extract_lets | (with_reducible apply foldl_still; intro _ _) | simp +zetaDelta )

theorem still_execFloodWindowEnd (s : State) : Stays id (execFloodWindowEnd s) s := by
  unfold execFloodWindowEnd; repeat' (first | rfl | (simp; done) | split)

theorem still_execOptimeStep (ns : Nat) (s : State) : Stays id (execOptimeStep ns s) s := by
  unfold execOptimeStep; extract_lets s1
  have h1 : s1.still = s.still := by
    apply still_bothLanes; intro s l; apply updLane_goes; rfl; intro v; split <;> rfl
  rw [stays_next]; split
  · exact h1
  · exact h1

@[simp] theorem still_writeAnchor (s : State) (l : LaneId) (gm : Nat) (offset : Int) : (writeAnchor s l gm offset).still = s.still := by
  simp [writeAnchor]

@[simp] theorem still_bankEvent (s : State) (l : LaneId) (code bank cause bflags seq : Nat) : (bankEvent s l code bank cause bflags seq).still = s.still := by
  simp [bankEvent]

@[simp] theorem still_startBank (s : State) (l : LaneId) (b : Bank) : (startBank s l b).still = s.still := by
  simp [startBank]

@[simp] theorem still_abandonBank (s : State) (cause : Nat) : (abandonBank s cause).still = s.still := by
  unfold abandonBank; repeat' (first | with_reducible rfl | (simp +zetaDelta ; done) | (with_reducible apply updLane_goes; rotate_left; intro _) | split | extract_lets | (with_reducible apply foldl_still; intro _ _) | simp +zetaDelta )

@[simp] theorem still_bankDone (s : State) : (bankDone s).still = s.still := by
  unfold bankDone; repeat' (first | with_reducible rfl | (simp +zetaDelta; done) | (with_reducible apply updLane_goes; rotate_left; intro _) | split | extract_lets | (with_reducible apply foldl_still; intro _ _) | simp +zetaDelta)

theorem still_execRetainPeriodDue (s : State) : Stays id (execRetainPeriodDue s) s := by
  unfold execRetainPeriodDue; repeat' (first | rfl | (simp; done) | split)

theorem still_execServiceDomainLost (s : State) : Stays id (execServiceDomainLost s) s := by
  unfold execServiceDomainLost; repeat' (first | rfl | (simp; done) | split)

theorem still_execServiceDomainReturned (s : State) : Stays id (execServiceDomainReturned s) s := by
  unfold execServiceDomainReturned; (repeat' (first | with_reducible rfl | (simp +zetaDelta; done) | (simp +zetaDelta [hq2]; done) | (rename_i hq; have hq2 := (congrArg (fun x => (State.still (Prod.snd x))) hq).symm; clear hq; simp +zetaDelta at hq2) | (rename_i hq; have hq2 := (congrArg (fun x => (State.still (Prod.fst x))) hq).symm; clear hq; simp +zetaDelta at hq2) | (with_reducible apply updLane_goes; rotate_left; intro _) | split | (extract_lets) | (with_reducible apply foldl_still; intro _ _) | (with_reducible apply foldl_still_fst; intro _ _) | (with_reducible apply foldl_still_snd; intro _ _) | (simp +zetaDelta)))

@[simp] theorem still_chooseBank (s : State) : (chooseBank s).still = s.still := by
  simp [chooseBank]

theorem still_execRecorderClear (p : Part) (s : State) : Stays id (execRecorderClear p s) s := by
  simp [execRecorderClear]

/-! Ptp -/

@[simp] theorem still_enterTime (s : State) (l : LaneId) (t : TimeState) : (enterTime s l t).still = s.still := by
  simp [enterTime]

@[simp] theorem still_holdLaneRate (s : State) (l : LaneId) : (holdLaneRate s l).still = s.still := by
  simp [holdLaneRate]

@[simp] theorem still_startServo (s : State) (l : LaneId) : (startServo s l).still = s.still := by
  simp [startServo]

@[simp] theorem still_enterHoldover (s : State) (l : LaneId) : (enterHoldover s l).still = s.still := by
  simp [enterHoldover]

@[simp] theorem still_selectMaster (s : State) (l : LaneId) : (selectMaster s l).still = s.still := by
  unfold selectMaster; repeat' (first | with_reducible rfl | (simp +zetaDelta; done) | (with_reducible apply updLane_goes; rotate_left; intro _) | split | extract_lets | (with_reducible apply foldl_still; intro _ _) | simp +zetaDelta)

@[simp] theorem still_ptpArrives (s : State) (l : LaneId) (portB udp : Bool) (typ : Nat) (k : State → CfgRec → State) (hk : ∀ s y1, (k s y1).still = s.still) : (ptpArrives s l portB udp typ k).still = s.still := by
  unfold ptpArrives
  split
  · rfl
  · extract_lets s1; split; rename_i ok s2 hq
    have hq2 := (congrArg (fun x => (State.still (Prod.snd x))) hq).symm; simp [s1] at hq2
    split
    · simp [hq2]
    · split
      · exact hq2
      · split
        · exact hq2
        · simp [hk, hq2]

@[simp] theorem still_sk_ptpArrives (s : State) (l : LaneId) (portB udp : Bool) (typ : Nat) (k : State → CfgRec → State) (hk : ∀ s y1, (k s y1).still.sk = s.still.sk) : (ptpArrives s l portB udp typ k).still.sk = s.still.sk := by
  unfold ptpArrives
  split
  · rfl
  · extract_lets s1; split; rename_i ok s2 hq
    have hq2 := (congrArg (fun x => (State.still (Prod.snd x)).sk) hq).symm; simp [s1] at hq2
    split
    · simp [hq2]
    · split
      · exact hq2
      · split
        · exact hq2
        · simp [hk, hq2]

@[simp] theorem still_grid_ptpArrives (s : State) (l : LaneId) (portB udp : Bool) (typ : Nat) (k : State → CfgRec → State) (hk : ∀ s y1, (k s y1).still.grid = s.still.grid) : (ptpArrives s l portB udp typ k).still.grid = s.still.grid := by
  unfold ptpArrives
  split
  · rfl
  · extract_lets s1; split; rename_i ok s2 hq
    have hq2 := (congrArg (fun x => (State.still (Prod.snd x)).grid) hq).symm; simp [s1] at hq2
    split
    · simp [hq2]
    · split
      · exact hq2
      · split
        · exact hq2
        · simp [hk, hq2]

@[simp] theorem still_imgs_ptpArrives (s : State) (l : LaneId) (portB udp : Bool) (typ : Nat) (k : State → CfgRec → State) (hk : ∀ s y1, (k s y1).still.imgs = s.still.imgs) : (ptpArrives s l portB udp typ k).still.imgs = s.still.imgs := by
  unfold ptpArrives
  split
  · rfl
  · extract_lets s1; split; rename_i ok s2 hq
    have hq2 := (congrArg (fun x => (State.still (Prod.snd x)).imgs) hq).symm; simp [s1] at hq2
    split
    · simp [hq2]
    · split
      · exact hq2
      · split
        · exact hq2
        · simp [hk, hq2]

@[simp] theorem still_svc_ptpArrives (s : State) (l : LaneId) (portB udp : Bool) (typ : Nat) (k : State → CfgRec → State) (hk : ∀ s y1, (k s y1).still.svc = s.still.svc) : (ptpArrives s l portB udp typ k).still.svc = s.still.svc := by
  unfold ptpArrives
  split
  · rfl
  · extract_lets s1; split; rename_i ok s2 hq
    have hq2 := (congrArg (fun x => (State.still (Prod.snd x)).svc) hq).symm; simp [s1] at hq2
    split
    · simp [hq2]
    · split
      · exact hq2
      · split
        · exact hq2
        · simp [hk, hq2]

@[simp] theorem still_sendPtp (s : State) (l : LaneId) (portB : Bool) (r : CfgRec) (m : PtpAsk) : (sendPtp s l portB r m).still = s.still := by
  simp [sendPtp]

theorem still_execPtpAnnounce (l : LaneId) (portB udp : Bool) (m : Announce) (s : State) : Stays id (execPtpAnnounce l portB udp m s) s := by
  unfold execPtpAnnounce; repeat' (first | with_reducible rfl | (simp +zetaDelta; done) | (simp +zetaDelta [hq2]; done) | (rename_i hq; have hq2 := (congrArg (fun x => (State.still (Prod.snd x))) hq).symm; clear hq; simp +zetaDelta at hq2) | (rename_i hq; have hq2 := (congrArg (fun x => (State.still (Prod.fst x))) hq).symm; clear hq; simp +zetaDelta at hq2) | (with_reducible apply updLane_goes; rotate_left; intro _) | split | (extract_lets) | (with_reducible apply foldl_still; intro _ _) | (simp +zetaDelta))

theorem still_execPtpDelayMessage (l : LaneId) (portB udp : Bool) (m : PtpDelay) (s : State) : Stays id (execPtpDelayMessage l portB udp m s) s := by
  unfold execPtpDelayMessage; repeat' (first | with_reducible rfl | (simp +zetaDelta ; done) | (with_reducible apply updLane_goes; rotate_left; intro _) | split | extract_lets | (with_reducible apply foldl_still; intro _ _) | simp +zetaDelta )

@[simp] theorem still_servoIncrement (s : State) (l : LaneId) (r : CfgRec) (off : Int) : (servoIncrement s l r off).still = s.still := by
  simp [servoIncrement]

@[simp] theorem still_servoPort (s : State) (l : LaneId) (r : CfgRec) (portB : Bool) : (servoPort s l r portB).still = s.still := by
  simp [servoPort]

@[simp] theorem still_compareOffsets (s : State) (l : LaneId) : (compareOffsets s l).still = s.still := by
  unfold compareOffsets; repeat' (first | with_reducible rfl | (simp +zetaDelta; done) | (with_reducible apply updLane_goes; rotate_left; intro _) | split | extract_lets | (with_reducible apply foldl_still; intro _ _) | simp +zetaDelta)

@[simp] theorem still_timeSync (s : State) (l : LaneId) (r : CfgRec) (off : Int) : (timeSync s l r off).still = s.still := by
  unfold timeSync; repeat' (first | with_reducible rfl | (simp +zetaDelta; done) | (with_reducible apply updLane_goes; rotate_left; intro _) | split | extract_lets | (with_reducible apply foldl_still; intro _ _) | simp +zetaDelta)

theorem still_execPtpSync (l : LaneId) (portB udp : Bool) (identity domain : Nat) (offsetNs : Int) (s : State) : Stays id (execPtpSync l portB udp identity domain offsetNs s) s := by
  unfold execPtpSync; repeat' (first | with_reducible rfl | (simp +zetaDelta; done) | (simp +zetaDelta [hq2]; done) | (rename_i hq; have hq2 := (congrArg (fun x => (State.still (Prod.snd x))) hq).symm; clear hq; simp +zetaDelta at hq2) | (rename_i hq; have hq2 := (congrArg (fun x => (State.still (Prod.fst x))) hq).symm; clear hq; simp +zetaDelta at hq2) | (with_reducible apply updLane_goes; rotate_left; intro _) | split | (extract_lets) | (with_reducible apply foldl_still; intro _ _) | (simp +zetaDelta))

theorem still_execAnnounceTimeout (l : LaneId) (s : State) : Stays id (execAnnounceTimeout l s) s := by
  unfold execAnnounceTimeout; repeat' (first | rfl | (simp; done) | split)

theorem still_execHoldoverExpired (l : LaneId) (s : State) : Stays id (execHoldoverExpired l s) s := by
  simp [execHoldoverExpired]

theorem still_execTimeAnchorDue (s : State) : Stays id (execTimeAnchorDue s) s := by
  unfold execTimeAnchorDue; repeat' (first | rfl | (simp; done) | split)

@[simp] theorem still_takeStep (s : State) (l : LaneId) : (takeStep s l).2.still = s.still := by
  unfold takeStep; repeat' (first | with_reducible rfl | (simp +zetaDelta; done) | (with_reducible apply updLane_goes; rotate_left; intro _) | split | extract_lets | (with_reducible apply foldl_still; intro _ _) | simp +zetaDelta)

@[simp] theorem still_dropStep (s : State) (l : LaneId) : (dropStep s l).still = s.still := by
  simp [dropStep]

@[simp] theorem still_lanesDiffer (s : State) (skewNs : Int) : (lanesDiffer s skewNs).still = s.still := by
  unfold lanesDiffer; repeat' (first | with_reducible rfl | (simp +zetaDelta ; done) | (with_reducible apply updLane_goes; rotate_left; intro _) | split | extract_lets | (with_reducible apply foldl_still; intro _ _) | simp +zetaDelta )

@[simp] theorem still_rcTime (s : State) (l : LaneId) (alone : Bool) : (rcTime s l alone).still = s.still := by
  simp [rcTime]

@[simp] theorem still_tcxoTime (s : State) (l : LaneId) : (tcxoTime s l).still = s.still := by
  simp [tcxoTime]

/-! Hooks -/

@[simp] theorem still_hookStandby (s : State) (l : LaneId) : (hookStandby s l).still = s.still := by
  simp [hookStandby]

@[simp] theorem still_takeoverTasks (s : State) (l : LaneId) : (takeoverTasks s l).still = s.still := by
  unfold takeoverTasks; repeat' (first | with_reducible rfl | (simp +zetaDelta ; done) | (with_reducible apply updLane_goes; rotate_left; intro _) | split | extract_lets | (with_reducible apply foldl_still; intro _ _) | simp +zetaDelta )

@[simp] theorem still_hookTakeover (s : State) (l : LaneId) : (hookTakeover s l).still = s.still := by
  simp [hookTakeover]

@[simp] theorem still_hookOffline (s : State) (l : LaneId) : (hookOffline s l).still = s.still := by
  simp [hookOffline]

@[simp] theorem still_hookTcxoReturn (s : State) (l : LaneId) : (hookTcxoReturn s l).still = s.still := by
  simp [hookTcxoReturn]

@[simp] theorem still_hookRcSwitch (s : State) (l : LaneId) (alone : Bool) : (hookRcSwitch s l alone).still = s.still := by
  simp [hookRcSwitch]

/-! Points -/

@[simp] theorem still_setTarget (s : State) (l : LaneId) (p : Nat) : (setTarget s l p).still = s.still := by
  unfold setTarget; repeat' (first | with_reducible rfl | (simp +zetaDelta; done) | (with_reducible apply updLane_goes; rotate_left; intro _) | split | extract_lets | (with_reducible apply foldl_still; intro _ _) | simp +zetaDelta)

@[simp] theorem still_setRise (b : Bool) (s : State) : (setRise b s).still = s.still := by
  unfold setRise; repeat' (first | rfl | (simp ; done) | split)

@[simp] theorem still_laneClockEvent (s : State) (l : LaneId) (base code : Nat) (pay : List Byte := []) : (laneClockEvent s l base code pay).still = s.still := by
  simp [laneClockEvent]

@[simp] theorem still_requestGate (s : State) (l : LaneId) (b : GateBlock) : (requestGate s l b).still = s.still := by
  unfold requestGate; repeat' (first | with_reducible rfl | (simp +zetaDelta; done) | (with_reducible apply updLane_goes; rotate_left; intro _) | split | extract_lets | (with_reducible apply foldl_still; intro _ _) | simp +zetaDelta)

@[simp] theorem still_requestGates (s : State) (l : LaneId) (bs : List GateBlock) : (requestGates s l bs).still = s.still := by
  simp [requestGates]

/-! Roles -/

@[simp] theorem still_redEvent (s : State) (l : LaneId) (src code : Nat) (pay : List Byte := []) : (redEvent s l src code pay).still = s.still := by
  simp [redEvent]

@[simp] theorem still_noteRole (s : State) (l : LaneId) (r : Role) : (noteRole s l r).still = s.still := by
  simp [noteRole]

@[simp] theorem still_partnerGone (s : State) (l : LaneId) : (partnerGone s l).still = s.still := by
  unfold partnerGone; repeat' (first | with_reducible rfl | (simp +zetaDelta; done) | (with_reducible apply updLane_goes; rotate_left; intro _) | split | extract_lets | (with_reducible apply foldl_still; intro _ _) | simp +zetaDelta)

@[simp] theorem still_goOffline (s : State) (l : LaneId) (c : OffCause) : (goOffline s l c).still = s.still := by
  unfold goOffline; repeat' (first | with_reducible rfl | (simp +zetaDelta; done) | (with_reducible apply updLane_goes; rotate_left; intro _) | split | extract_lets | (with_reducible apply foldl_still; intro _ _) | simp +zetaDelta)

@[simp] theorem still_sk_goOffline (s : State) (l : LaneId) (c : OffCause) : (goOffline s l c).still.sk = s.still.sk := by
  unfold goOffline; repeat' (first | with_reducible rfl | (simp +zetaDelta ; done) | split | extract_lets | (with_reducible apply foldl_stillsk; intro _ _) | simp +zetaDelta )

@[simp] theorem still_grid_goOffline (s : State) (l : LaneId) (c : OffCause) : (goOffline s l c).still.grid = s.still.grid := by
  unfold goOffline; repeat' (first | with_reducible rfl | (simp +zetaDelta ; done) | split | extract_lets | (with_reducible apply foldl_stillgrid; intro _ _) | simp +zetaDelta )

@[simp] theorem still_imgs_goOffline (s : State) (l : LaneId) (c : OffCause) : (goOffline s l c).still.imgs = s.still.imgs := by
  unfold goOffline; simp only []; repeat' (first | with_reducible rfl | (simp +zetaDelta; done) | (simp +zetaDelta [hq2]; done) | (rename_i hq; have hq2 := (congrArg (fun x => (State.still (Prod.snd x)).imgs) hq).symm; clear hq; simp +zetaDelta at hq2) | (rename_i hq; have hq2 := (congrArg (fun x => (State.still (Prod.fst x)).imgs) hq).symm; clear hq; simp +zetaDelta at hq2) | (with_reducible apply updLane_goes2; rotate_left; intro _) | split | (extract_lets) | (with_reducible apply foldl_stillimgs; intro _ _) | (simp +zetaDelta))

@[simp] theorem still_svc_goOffline (s : State) (l : LaneId) (c : OffCause) : (goOffline s l c).still.svc = s.still.svc := by
  unfold goOffline; repeat' (first | with_reducible rfl | (simp +zetaDelta ; done) | split | extract_lets | (with_reducible apply foldl_stillsvc; intro _ _) | simp +zetaDelta )

@[simp] theorem still_laneStops (s : State) (l : LaneId) (ph : LanePhase) : (laneStops s l ph).still = s.still := by
  unfold laneStops; repeat' (first | with_reducible rfl | (simp +zetaDelta; done) | (with_reducible apply updLane_goes; rotate_left; intro _) | split | extract_lets | (with_reducible apply foldl_still; intro _ _) | simp +zetaDelta)

@[simp] theorem still_sk_laneStops (s : State) (l : LaneId) (ph : LanePhase) : (laneStops s l ph).still.sk = s.still.sk := by
  simp [laneStops]

@[simp] theorem still_grid_laneStops (s : State) (l : LaneId) (ph : LanePhase) : (laneStops s l ph).still.grid = s.still.grid := by
  simp [laneStops]

@[simp] theorem still_imgs_laneStops (s : State) (l : LaneId) (ph : LanePhase) : (laneStops s l ph).still.imgs = s.still.imgs := by
  unfold laneStops; simp only []; repeat' (first | with_reducible rfl | (simp +zetaDelta; done) | (simp +zetaDelta [hq2]; done) | (rename_i hq; have hq2 := (congrArg (fun x => (State.still (Prod.snd x)).imgs) hq).symm; clear hq; simp +zetaDelta at hq2) | (rename_i hq; have hq2 := (congrArg (fun x => (State.still (Prod.fst x)).imgs) hq).symm; clear hq; simp +zetaDelta at hq2) | (with_reducible apply updLane_goes2; rotate_left; intro _) | split | (extract_lets) | (with_reducible apply foldl_stillimgs; intro _ _) | (simp +zetaDelta))

@[simp] theorem still_svc_laneStops (s : State) (l : LaneId) (ph : LanePhase) : (laneStops s l ph).still.svc = s.still.svc := by
  simp [laneStops]

@[simp] theorem still_becomeSolo (s : State) (l : LaneId) : (becomeSolo s l).still = s.still := by
  unfold becomeSolo; repeat' (first | with_reducible rfl | (simp +zetaDelta; done) | (with_reducible apply updLane_goes; rotate_left; intro _) | split | extract_lets | (with_reducible apply foldl_still; intro _ _) | simp +zetaDelta)

/-! Tokens -/

@[simp] theorem still_grantTo (s : State) (l : LaneId) : (grantTo s l).still = s.still := by
  unfold grantTo; repeat' (first | with_reducible rfl | (simp +zetaDelta; done) | (with_reducible apply updLane_goes; rotate_left; intro _) | split | extract_lets | (with_reducible apply foldl_still; intro _ _) | simp +zetaDelta)

@[simp] theorem still_refereeAnswer (s : State) (l : LaneId) : (refereeAnswer s l).still = s.still := by
  unfold refereeAnswer; repeat' (first | with_reducible rfl | (simp +zetaDelta; done) | (with_reducible apply updLane_goes; rotate_left; intro _) | split | extract_lets | (with_reducible apply foldl_still; intro _ _) | simp +zetaDelta)

@[simp] theorem still_askToken (s : State) (l : LaneId) (w : TokWhy) : (askToken s l w).still = s.still := by
  unfold askToken; repeat' (first | with_reducible rfl | (simp +zetaDelta; done) | (with_reducible apply updLane_goes; rotate_left; intro _) | split | extract_lets | (with_reducible apply foldl_still; intro _ _) | simp +zetaDelta)

theorem still_execTokenRequest (l : LaneId) (s : State) : Stays id (execTokenRequest l s) s := by
  simp [execTokenRequest]

theorem still_execTokenRequestRetry (l : LaneId) (s : State) : Stays id (execTokenRequestRetry l s) s := by
  simp [execTokenRequestRetry]

@[simp] theorem still_sk_forgetImages (s : State) : (forgetImages s).still.sk = s.still.sk := by
  simp [forgetImages]

@[simp] theorem still_grid_forgetImages (s : State) : (forgetImages s).still.grid = s.still.grid := by
  simp [forgetImages]

@[simp] theorem still_svc_forgetImages (s : State) : (forgetImages s).still.svc = s.still.svc := by
  simp [forgetImages]

@[simp] theorem still_sk_grantReceived (s : State) (l : LaneId) (g : Grant) (w : TokWhy) : (grantReceived s l g w).still.sk = s.still.sk := by
  unfold grantReceived; repeat' (first | with_reducible rfl | (simp +zetaDelta ; done) | split | extract_lets | (with_reducible apply foldl_stillsk; intro _ _) | simp +zetaDelta )

@[simp] theorem still_grid_grantReceived (s : State) (l : LaneId) (g : Grant) (w : TokWhy) : (grantReceived s l g w).still.grid = s.still.grid := by
  unfold grantReceived; repeat' (first | with_reducible rfl | (simp +zetaDelta ; done) | split | extract_lets | (with_reducible apply foldl_stillgrid; intro _ _) | simp +zetaDelta )

@[simp] theorem still_svc_grantReceived (s : State) (l : LaneId) (g : Grant) (w : TokWhy) : (grantReceived s l g w).still.svc = s.still.svc := by
  unfold grantReceived; repeat' (first | with_reducible rfl | (simp +zetaDelta ; done) | split | extract_lets | (with_reducible apply foldl_stillsvc; intro _ _) | simp +zetaDelta )

@[simp] theorem still_regainToken (s : State) (l : LaneId) : (regainToken s l).still = s.still := by
  simp [regainToken]

theorem still_sk_execTokenReply (l : LaneId) (s : State) : Stays Still.sk (execTokenReply l s) s := by
  unfold execTokenReply; repeat' (first | with_reducible rfl | (simp +zetaDelta ; done) | split | extract_lets | (with_reducible apply foldl_stillsk; intro _ _) | simp +zetaDelta )

theorem still_grid_execTokenReply (l : LaneId) (s : State) : Stays Still.grid (execTokenReply l s) s := by
  unfold execTokenReply; repeat' (first | with_reducible rfl | (simp +zetaDelta ; done) | split | extract_lets | (with_reducible apply foldl_stillgrid; intro _ _) | simp +zetaDelta )

theorem still_svc_execTokenReply (l : LaneId) (s : State) : Stays Still.svc (execTokenReply l s) s := by
  unfold execTokenReply; repeat' (first | with_reducible rfl | (simp +zetaDelta ; done) | split | extract_lets | (with_reducible apply foldl_stillsvc; intro _ _) | simp +zetaDelta )

theorem still_execGrantRecord (i : Isl) (l : LaneId) (record : List Byte) (s : State) : Stays id (execGrantRecord i l record s) s := by
  unfold execGrantRecord; repeat' (first | rfl | (simp; done) | split)

theorem still_execReleaseWord (i : Isl) (l : LaneId) (s : State) : Stays id (execReleaseWord i l s) s := by
  unfold execReleaseWord; repeat' (first | with_reducible rfl | (simp +zetaDelta; done) | (with_reducible apply updLane_goes; rotate_left; intro _) | split | extract_lets | (with_reducible apply foldl_still; intro _ _) | simp +zetaDelta)

@[simp] theorem still_tokenEdge (s : State) (i : Nat) : (tokenEdge s i).still = s.still := by
  unfold tokenEdge; repeat' (first | with_reducible rfl | (simp +zetaDelta; done) | (with_reducible apply updLane_goes; rotate_left; intro _) | split | extract_lets | (with_reducible apply foldl_still; intro _ _) | simp +zetaDelta)

/-! Redundancy -/

@[simp] theorem still_sendHeartbeat (s : State) (l : LaneId) : (sendHeartbeat s l).still = s.still := by
  unfold sendHeartbeat; repeat' (first | with_reducible rfl | (simp +zetaDelta ; done) | (with_reducible apply updLane_goes; rotate_left; intro _) | split | extract_lets | (with_reducible apply foldl_still; intro _ _) | simp +zetaDelta )

@[simp] theorem still_judgeHeartbeat (s : State) (l : LaneId) : (judgeHeartbeat s l).still = s.still := by
  unfold judgeHeartbeat; extract_lets; apply updLane_goes; rfl; intro v; rfl

@[simp] theorem still_loseCommands (s : State) : (loseCommands s).still = s.still := by
  simp [loseCommands]

theorem still_execPartnerFailureDeclared (l : LaneId) (s : State) : Stays id (execPartnerFailureDeclared l s) s := by
  unfold execPartnerFailureDeclared; repeat' (first | with_reducible rfl | (simp +zetaDelta; done) | (with_reducible apply updLane_goes; rotate_left; intro _) | split | extract_lets | (with_reducible apply foldl_still; intro _ _) | simp +zetaDelta)

theorem still_execPathFault (l : LaneId) (kind : PathFaultKind) (s : State) : Stays id (execPathFault l kind s) s := by
  unfold execPathFault; repeat' (first | with_reducible rfl | (simp +zetaDelta; done) | (with_reducible apply updLane_goes; rotate_left; intro _) | split | extract_lets | (with_reducible apply foldl_still; intro _ _) | simp +zetaDelta)

theorem still_execBeaconExtinguish (l : LaneId) (s : State) : Stays id (execBeaconExtinguish l s) s := by
  unfold execBeaconExtinguish; repeat' (first | with_reducible rfl | (simp +zetaDelta; done) | (with_reducible apply updLane_goes; rotate_left; intro _) | split | extract_lets | (with_reducible apply foldl_still; intro _ _) | simp +zetaDelta)

theorem still_execSnapshotPiece (l : LaneId) (tick : Nat) (piece : SnapPiece) (s : State) : Stays id (execSnapshotPiece l tick piece s) s := by
  unfold execSnapshotPiece; repeat' (first | with_reducible rfl | (simp +zetaDelta; done) | (with_reducible apply updLane_goes; rotate_left; intro _) | split | extract_lets | (with_reducible apply foldl_still; intro _ _) | simp +zetaDelta)

@[simp] theorem still_sk_writeSnapshot (s : State) (l : LaneId) (d : SnapData) : (writeSnapshot s l d).still.sk = s.still.sk := by
  simp [writeSnapshot]

@[simp] theorem still_grid_writeSnapshot (s : State) (l : LaneId) (d : SnapData) : (writeSnapshot s l d).still.grid = s.still.grid := by
  simp [writeSnapshot]

@[simp] theorem still_svc_writeSnapshot (s : State) (l : LaneId) (d : SnapData) : (writeSnapshot s l d).still.svc = s.still.svc := by
  simp [writeSnapshot]

@[simp] theorem still_discardSnapshot (s : State) (l : LaneId) (tick : Nat) : (discardSnapshot s l tick).still = s.still := by
  unfold discardSnapshot; repeat' (first | with_reducible rfl | (simp +zetaDelta; done) | (with_reducible apply updLane_goes; rotate_left; intro _) | split | extract_lets | (with_reducible apply foldl_still; intro _ _) | simp +zetaDelta)

@[simp] theorem still_sk_applySnapshot (s : State) (l : LaneId) : (applySnapshot s l).still.sk = s.still.sk := by
  unfold applySnapshot; repeat' (first | rfl | (simp; done) | split)

@[simp] theorem still_grid_applySnapshot (s : State) (l : LaneId) : (applySnapshot s l).still.grid = s.still.grid := by
  unfold applySnapshot; repeat' (first | rfl | (simp; done) | split)

@[simp] theorem still_svc_applySnapshot (s : State) (l : LaneId) : (applySnapshot s l).still.svc = s.still.svc := by
  unfold applySnapshot; repeat' (first | rfl | (simp; done) | split)

@[simp] theorem still_sk_judgeSnapshot (s : State) (l : LaneId) : (judgeSnapshot s l).still.sk = s.still.sk := by
  unfold judgeSnapshot; repeat' (first | with_reducible rfl | (simp +zetaDelta; done) |  split | extract_lets | (with_reducible apply foldl_stillsk; intro _ _) | simp +zetaDelta)

@[simp] theorem still_grid_judgeSnapshot (s : State) (l : LaneId) : (judgeSnapshot s l).still.grid = s.still.grid := by
  unfold judgeSnapshot; repeat' (first | with_reducible rfl | (simp +zetaDelta; done) |  split | extract_lets | (with_reducible apply foldl_stillgrid; intro _ _) | simp +zetaDelta)

@[simp] theorem still_svc_judgeSnapshot (s : State) (l : LaneId) : (judgeSnapshot s l).still.svc = s.still.svc := by
  unfold judgeSnapshot; repeat' (first | with_reducible rfl | (simp +zetaDelta; done) |  split | extract_lets | (with_reducible apply foldl_stillsvc; intro _ _) | simp +zetaDelta)

theorem still_sk_execSnapshotDiscard (l : LaneId) (s : State) : Stays Still.sk (execSnapshotDiscard l s) s := by
  simp [execSnapshotDiscard]

theorem still_grid_execSnapshotDiscard (l : LaneId) (s : State) : Stays Still.grid (execSnapshotDiscard l s) s := by
  simp [execSnapshotDiscard]

theorem still_svc_execSnapshotDiscard (l : LaneId) (s : State) : Stays Still.svc (execSnapshotDiscard l s) s := by
  simp [execSnapshotDiscard]

@[simp] theorem still_startEnds (s : State) (c : EndsCause) (off : Option OffCause) : (startEnds s c off).still = s.still := by
  simp [startEnds]

@[simp] theorem still_immediateEnds (s : State) (c : EndsCause) (off : Option OffCause) : (immediateEnds s c off).still = s.still := by
  simp [immediateEnds]

@[simp] theorem still_retryEnds (s : State) : (retryEnds s).still = s.still := by
  unfold retryEnds; repeat' (first | rfl | (simp; done) | split)

theorem still_execEndsIntervalDue (s : State) : Stays id (execEndsIntervalDue s) s := by
  unfold execEndsIntervalDue; repeat' (first | rfl | (simp; done) | split)

theorem still_execEndsDeferredStart (s : State) : Stays id (execEndsDeferredStart s) s := by
  simp [execEndsDeferredStart]

theorem still_execEndsChange (p : Part) (s : State) : Stays id (execEndsChange p s) s := by
  unfold execEndsChange
  apply still_serve; intro ws; apply still_needOperator
  split
  · split <;> simp
  · split <;> simp

@[simp] theorem still_confirmEnds (s : State) (sw : Nat) : (confirmEnds s sw).still = s.still := by
  simp [confirmEnds]

@[simp] theorem still_dropEnds (s : State) : (dropEnds s).still = s.still := by
  simp [dropEnds]

@[simp] theorem still_yieldEnds (s : State) (l : LaneId) (back : Bool) : (yieldEnds s l back).still = s.still := by
  unfold yieldEnds; repeat' (first | with_reducible rfl | (simp +zetaDelta ; done) | (with_reducible apply updLane_goes; rotate_left; intro _) | split | extract_lets | (with_reducible apply foldl_still; intro _ _) | simp +zetaDelta )

@[simp] theorem still_takeEnds (s : State) (o : LaneId) : (takeEnds s o).still = s.still := by
  unfold takeEnds; repeat' (first | with_reducible rfl | (simp +zetaDelta ; done) | (with_reducible apply updLane_goes; rotate_left; intro _) | split | extract_lets | (with_reducible apply foldl_still; intro _ _) | simp +zetaDelta )

theorem still_execEndsSwapEdge (s : State) : Stays id (execEndsSwapEdge s) s := by
  unfold execEndsSwapEdge; simp only []; repeat' (first | with_reducible rfl | (simp +zetaDelta ; done) | (with_reducible apply updLane_goes; rotate_left; intro _) | split | extract_lets | (with_reducible apply foldl_still; intro _ _) | simp +zetaDelta )

theorem still_execSelfCheckFail (s : State) : Stays id (execSelfCheckFail s) s := by
  simp [execSelfCheckFail]

theorem still_execTakeoverTick (l : LaneId) (s : State) : Stays id (execTakeoverTick l s) s := by
  simp [execTakeoverTick]

@[simp] theorem still_parkLane (s : State) (l : LaneId) : (parkLane s l).still = s.still := by
  unfold parkLane; repeat' (first | with_reducible rfl | (simp +zetaDelta; done) | (simp +zetaDelta [hq2]; done) | (rename_i hq; have hq2 := (congrArg (fun x => (State.still (Prod.snd x))) hq).symm; clear hq; simp +zetaDelta at hq2) | (rename_i hq; have hq2 := (congrArg (fun x => (State.still (Prod.fst x))) hq).symm; clear hq; simp +zetaDelta at hq2) | (with_reducible apply updLane_goes; rotate_left; intro _) | split | (extract_lets) | (with_reducible apply foldl_still; intro _ _) | (simp +zetaDelta))

@[simp] theorem still_unparkLane (s : State) (l : LaneId) : (unparkLane s l).still = s.still := by
  unfold unparkLane; repeat' (first | with_reducible rfl | (simp +zetaDelta; done) | (with_reducible apply updLane_goes; rotate_left; intro _) | split | extract_lets | (with_reducible apply foldl_still; intro _ _) | simp +zetaDelta)

@[simp] theorem still_versionsDiffer (s : State) (l : LaneId) (partner : Nat) : (versionsDiffer s l partner).still = s.still := by
  unfold versionsDiffer; repeat' (first | with_reducible rfl | (simp +zetaDelta ; done) | (with_reducible apply updLane_goes; rotate_left; intro _) | split | extract_lets | (with_reducible apply foldl_still; intro _ _) | simp +zetaDelta )

theorem still_sk_execHeartbeatWord (l : LaneId) (w : HbWord) (crcOk : Bool) (s : State) : Stays Still.sk (execHeartbeatWord l w crcOk s) s := by
  unfold execHeartbeatWord; extract_lets v s1 s2 s3 s4; split
  · simp
  · have h1 : s1.still.sk = s.still.sk := by simp [s1]
    have h2 : s2.still.sk = s.still.sk := by simp only [s2]; split <;> simp [h1]
    have h3 : s3.still.sk = s.still.sk := by simp only [s3]; split <;> simp [h2]
    have h4 : s4.still.sk = s.still.sk := by
      simp only [s4]; split
      · split <;> simp [h3]
      · exact h3
    clear_value s4
    repeat' (first | (simp [h4]; done) | split)

theorem still_grid_execHeartbeatWord (l : LaneId) (w : HbWord) (crcOk : Bool) (s : State) : Stays Still.grid (execHeartbeatWord l w crcOk s) s := by
  unfold execHeartbeatWord; extract_lets v s1 s2 s3 s4; split
  · simp
  · have h1 : s1.still.grid = s.still.grid := by simp [s1]
    have h2 : s2.still.grid = s.still.grid := by simp only [s2]; split <;> simp [h1]
    have h3 : s3.still.grid = s.still.grid := by simp only [s3]; split <;> simp [h2]
    have h4 : s4.still.grid = s.still.grid := by
      simp only [s4]; split
      · split <;> simp [h3]
      · exact h3
    clear_value s4
    repeat' (first | (simp [h4]; done) | split)

theorem still_svc_execHeartbeatWord (l : LaneId) (w : HbWord) (crcOk : Bool) (s : State) : Stays Still.svc (execHeartbeatWord l w crcOk s) s := by
  unfold execHeartbeatWord; extract_lets v s1 s2 s3 s4; split
  · simp
  · have h1 : s1.still.svc = s.still.svc := by simp [s1]
    have h2 : s2.still.svc = s.still.svc := by simp only [s2]; split <;> simp [h1]
    have h3 : s3.still.svc = s.still.svc := by simp only [s3]; split <;> simp [h2]
    have h4 : s4.still.svc = s.still.svc := by
      simp only [s4]; split
      · split <;> simp [h3]
      · exact h3
    clear_value s4
    repeat' (first | (simp [h4]; done) | split)

theorem still_sk_execPartnerBeaconLost (l : LaneId) (s : State) : Stays Still.sk (execPartnerBeaconLost l s) s := by
  unfold execPartnerBeaconLost; repeat' (first | with_reducible rfl | (simp +zetaDelta ; done) | split | extract_lets | (with_reducible apply foldl_stillsk; intro _ _) | simp +zetaDelta )

theorem still_grid_execPartnerBeaconLost (l : LaneId) (s : State) : Stays Still.grid (execPartnerBeaconLost l s) s := by
  unfold execPartnerBeaconLost; repeat' (first | with_reducible rfl | (simp +zetaDelta ; done) | split | extract_lets | (with_reducible apply foldl_stillgrid; intro _ _) | simp +zetaDelta )

theorem still_svc_execPartnerBeaconLost (l : LaneId) (s : State) : Stays Still.svc (execPartnerBeaconLost l s) s := by
  unfold execPartnerBeaconLost; repeat' (first | with_reducible rfl | (simp +zetaDelta ; done) | split | extract_lets | (with_reducible apply foldl_stillsvc; intro _ _) | simp +zetaDelta )

end Sys2Proof.Machine
end

