-- ==== Sys2Proof/Laws/Still2.lean ====
section
/-! SUPPORT. What leaves SK-1, the tick grid, the process images or the service domain's objects alone: StationState, Tasks, BlockMem, BlockEngine, Mailbox, Patch, Bulk, Chains, Clocks, Commit, Loops.
One lemma per operation, and one per row that is no writer of them. -/

namespace Sys2Proof.Machine

/-! StationState -/

@[simp] theorem still_dropBatches (s : State) (cause : Nat) : (dropBatches s cause).still = s.still := by
  simp [dropBatches]

@[simp] theorem still_enterStopped (s : State) (cause arg : Nat) : (enterStopped s cause arg).still = s.still := by
  simp [enterStopped]

/-! Tasks -/

@[simp] theorem still_updBe (s : State) (l : LaneId) (f : BlockEngine → BlockEngine) : (updBe s l f).still = s.still := by
  unfold updBe; repeat' (first | with_reducible rfl | (simp +zetaDelta; done) | (with_reducible apply updLane_goes; rotate_left; intro _) | split | extract_lets | (with_reducible apply foldl_still; intro _ _) | simp +zetaDelta)

@[simp] theorem still_updCtx (s : State) (l : LaneId) (n : Nat) (f : Ctx → Ctx) : (updCtx s l n f).still = s.still := by
  simp [updCtx]

@[simp] theorem still_dispatchTask (s : State) (l : LaneId) : (dispatchTask s l).still = s.still := by
  unfold dispatchTask; repeat' (first | rfl | (simp; done) | split)

@[simp] theorem still_releaseTasks (s : State) (l : LaneId) (mx : Bool) : (releaseTasks s l mx).still = s.still := by
  simp [releaseTasks]

@[simp] theorem still_startTasks (s : State) (l : LaneId) : (startTasks s l).still = s.still := by
  simp [startTasks]

@[simp] theorem still_stopTasks (s : State) (l : LaneId) : (stopTasks s l).still = s.still := by
  simp [stopTasks]

@[simp] theorem still_keepLevels (s : State) (l : LaneId) : (keepLevels s l).still = s.still := by
  simp [keepLevels]

@[simp] theorem still_taskEvent (s : State) (l : LaneId) (n code : Nat) (pay : List Byte) (limited : Bool) : (taskEvent s l n code pay limited).still = s.still := by
  simp [taskEvent]

@[simp] theorem still_abandonPeriod (s : State) (l : LaneId) (t : TaskDef) (cause : Nat) (p : TaskPhase) : (abandonPeriod s l t cause p).still = s.still := by
  simp [abandonPeriod]

@[simp] theorem still_haltTask (s : State) (t : TaskDef) (cause : Nat) : (haltTask s t cause).still = s.still := by
  simp [haltTask]

@[simp] theorem still_roleChangeAction (s : State) (l : LaneId) (t : TaskDef) : (roleChangeAction s l t).still = s.still := by
  simp [roleChangeAction]

@[simp] theorem still_decideRoleAsks (s : State) : (decideRoleAsks s).still = s.still := by
  unfold decideRoleAsks; extract_lets ns s1; have h1 : s1.still = s.still := by simp [s1]
  split
  · exact h1
  · split
    · exact h1
    · rw [foldl_still]; · exact h1
      intro s n; split
      · rfl
      · simp

@[simp] theorem still_sk_decideRoleAsks (s : State) : (decideRoleAsks s).still.sk = s.still.sk := by
  unfold decideRoleAsks; extract_lets ns s1; have h1 : s1.still.sk = s.still.sk := by simp [s1]
  split
  · exact h1
  · split
    · exact h1
    · rw [foldl_stillsk]; · exact h1
      intro s n; split
      · rfl
      · simp

@[simp] theorem still_grid_decideRoleAsks (s : State) : (decideRoleAsks s).still.grid = s.still.grid := by
  unfold decideRoleAsks; extract_lets ns s1; have h1 : s1.still.grid = s.still.grid := by simp [s1]
  split
  · exact h1
  · split
    · exact h1
    · rw [foldl_stillgrid]; · exact h1
      intro s n; split
      · rfl
      · simp

@[simp] theorem still_imgs_decideRoleAsks (s : State) : (decideRoleAsks s).still.imgs = s.still.imgs := by
  unfold decideRoleAsks; extract_lets ns s1; have h1 : s1.still.imgs = s.still.imgs := by simp [s1]
  split
  · exact h1
  · split
    · exact h1
    · rw [foldl_stillimgs]; · exact h1
      intro s n; split
      · rfl
      · simp

@[simp] theorem still_svc_decideRoleAsks (s : State) : (decideRoleAsks s).still.svc = s.still.svc := by
  unfold decideRoleAsks; extract_lets ns s1; have h1 : s1.still.svc = s.still.svc := by simp [s1]
  split
  · exact h1
  · split
    · exact h1
    · rw [foldl_stillsvc]; · exact h1
      intro s n; split
      · rfl
      · simp

@[simp] theorem still_toleranceExceeded (s : State) (l : LaneId) (t : TaskDef) (cause : Nat) : (toleranceExceeded s l t cause).still = s.still := by
  unfold toleranceExceeded; repeat' (first | rfl | (simp; done) | split)

@[simp] theorem still_failPeriod (s : State) (l : LaneId) (n cause : Nat) (pay : List Byte) : (failPeriod s l n cause pay).still = s.still := by
  unfold failPeriod; repeat' (first | rfl | (simp; done) | split)

theorem still_execShotClockExpired (l : LaneId) (s : State) : Stays id (execShotClockExpired l s) s := by
  unfold execShotClockExpired; repeat' (first | rfl | (simp; done) | split)

@[simp] theorem still_closeWindow (s : State) (l : LaneId) : (closeWindow s l).still = s.still := by
  unfold closeWindow; extract_lets close s1
  have hc : ∀ s n, (close s n).still = s.still := by intro s n; simp only [close]; split <;> simp
  have h2 : s1.still = s.still := by
    show (updBe (levels.reverse.foldl close s) l fun b => { b with window := false }).still = s.still
    rw [still_updBe]; exact foldl_still _ _ _ hc
  split
  · rfl
  · split
    · exact h2
    · exact h2

theorem still_execBeWindowClose (l : LaneId) (s : State) : Stays id (execBeWindowClose l s) s := by
  simp [execBeWindowClose]

@[simp] theorem still_memEvent (s : State) (l : LaneId) (x : Nat) : (memEvent s l x).still = s.still := by
  simp [memEvent]

@[simp] theorem still_sk_restoreWord (s : State) (l : LaneId) (a : Nat) : (restoreWord s l a).still.sk = s.still.sk := by
  unfold restoreWord; repeat' (first | rfl | (simp; done) | split)

@[simp] theorem still_grid_restoreWord (s : State) (l : LaneId) (a : Nat) : (restoreWord s l a).still.grid = s.still.grid := by
  unfold restoreWord; repeat' (first | rfl | (simp; done) | split)

@[simp] theorem still_svc_restoreWord (s : State) (l : LaneId) (a : Nat) : (restoreWord s l a).still.svc = s.still.svc := by
  unfold restoreWord; repeat' (first | rfl | (simp; done) | split)

@[simp] theorem still_sk_memoryByRole (s : State) (l : LaneId) (site : EccSite) : (memoryByRole s l site).still.sk = s.still.sk := by
  unfold memoryByRole; repeat' (first | rfl | (simp; done) | split)

@[simp] theorem still_grid_memoryByRole (s : State) (l : LaneId) (site : EccSite) : (memoryByRole s l site).still.grid = s.still.grid := by
  unfold memoryByRole; repeat' (first | rfl | (simp; done) | split)

@[simp] theorem still_svc_memoryByRole (s : State) (l : LaneId) (site : EccSite) : (memoryByRole s l site).still.svc = s.still.svc := by
  unfold memoryByRole; repeat' (first | rfl | (simp; done) | split)

@[simp] theorem still_poison (s : State) (l : LaneId) (site : EccSite) : (poison s l site).still = s.still := by
  simp [poison]

@[simp] theorem still_sk_taskMemoryError (s : State) (l : LaneId) (n : Nat) (site : EccSite) : (taskMemoryError s l n site).still.sk = s.still.sk := by
  simp [taskMemoryError]

@[simp] theorem still_grid_taskMemoryError (s : State) (l : LaneId) (n : Nat) (site : EccSite) : (taskMemoryError s l n site).still.grid = s.still.grid := by
  simp [taskMemoryError]

@[simp] theorem still_svc_taskMemoryError (s : State) (l : LaneId) (n : Nat) (site : EccSite) : (taskMemoryError s l n site).still.svc = s.still.svc := by
  simp [taskMemoryError]

theorem still_sk_execUncorrectableError (l : LaneId) (site : EccSite) (s : State) : Stays Still.sk (execUncorrectableError l site s) s := by
  unfold execUncorrectableError; repeat' (first | rfl | (simp; done) | split)

theorem still_grid_execUncorrectableError (l : LaneId) (site : EccSite) (s : State) : Stays Still.grid (execUncorrectableError l site s) s := by
  unfold execUncorrectableError; repeat' (first | rfl | (simp; done) | split)

theorem still_svc_execUncorrectableError (l : LaneId) (site : EccSite) (s : State) : Stays Still.svc (execUncorrectableError l site s) s := by
  unfold execUncorrectableError; repeat' (first | rfl | (simp; done) | split)

@[simp] theorem still_noteCorrection (s : State) (l : LaneId) : (noteCorrection s l).still = s.still := by
  simp [noteCorrection]

theorem still_sk_execScrubberRead (l : LaneId) (addr : Nat) (r : ScrubResult) (s : State) : Stays Still.sk (execScrubberRead l addr r s) s := by
  unfold execScrubberRead; repeat' (first | rfl | (simp; done) | split)

theorem still_grid_execScrubberRead (l : LaneId) (addr : Nat) (r : ScrubResult) (s : State) : Stays Still.grid (execScrubberRead l addr r s) s := by
  unfold execScrubberRead; repeat' (first | rfl | (simp; done) | split)

theorem still_svc_execScrubberRead (l : LaneId) (addr : Nat) (r : ScrubResult) (s : State) : Stays Still.svc (execScrubberRead l addr r s) s := by
  unfold execScrubberRead; repeat' (first | rfl | (simp; done) | split)

/-! BlockMem -/

@[simp] theorem still_endPeriod (s : State) (l : LaneId) (n : Nat) (c : Ctx) (t : TaskDef) : (endPeriod s l n c t).still = s.still := by
  simp [endPeriod]

@[simp] theorem still_spendCycles (s : State) (l : LaneId) (n k : Nat) (t : TaskDef) : (spendCycles s l n k t).still = s.still := by
  simp [spendCycles]

@[simp] theorem still_sk_beBundle (l : LaneId) (slotA : Slot) (b : Word) (cost : BeIn → Nat) (sa : BeIn → BeRes) (s : State) : (beBundle l slotA b cost sa s).still.sk = s.still.sk := by
  unfold beBundle
  split
  · split
    · rfl
    · extract_lets c shot win stall x0 k part kk s1
      by_cases h1 : (!((s.lane l).be.window && (s.lane l).runs)) = true
      · rw [if_pos h1]
      · rw [if_neg h1]
        by_cases h2 : (s.lane l).be.poisonedCode.contains c.pc = true
        · rw [if_pos h2]; simp
        · rw [if_neg h2]; clear_value part k x0
          split
          · simp
          · by_cases h3 : (!bundleOk slotA ‹_›) = true
            · rw [if_pos h3]; simp
            · rw [if_neg h3]
              by_cases h4 : part = false ∧ shot < k ∧ shot ≤ win
              · rw [if_pos h4]; simp
              · rw [if_neg h4]
                by_cases h5 : part = false ∧ win < k
                · rw [if_pos h5]; simp
                · rw [if_neg h5]; extract_lets; have h6 : s1.still.sk = s.still.sk := by simp [s1]
                  split <;> simp [h6]
  · rfl

@[simp] theorem still_grid_beBundle (l : LaneId) (slotA : Slot) (b : Word) (cost : BeIn → Nat) (sa : BeIn → BeRes) (s : State) : (beBundle l slotA b cost sa s).still.grid = s.still.grid := by
  unfold beBundle
  split
  · split
    · rfl
    · extract_lets c shot win stall x0 k part kk s1
      by_cases h1 : (!((s.lane l).be.window && (s.lane l).runs)) = true
      · rw [if_pos h1]
      · rw [if_neg h1]
        by_cases h2 : (s.lane l).be.poisonedCode.contains c.pc = true
        · rw [if_pos h2]; simp
        · rw [if_neg h2]; clear_value part k x0
          split
          · simp
          · by_cases h3 : (!bundleOk slotA ‹_›) = true
            · rw [if_pos h3]; simp
            · rw [if_neg h3]
              by_cases h4 : part = false ∧ shot < k ∧ shot ≤ win
              · rw [if_pos h4]; simp
              · rw [if_neg h4]
                by_cases h5 : part = false ∧ win < k
                · rw [if_pos h5]; simp
                · rw [if_neg h5]; extract_lets; have h6 : s1.still.grid = s.still.grid := by simp [s1]
                  split <;> simp [h6]
  · rfl

@[simp] theorem still_svc_beBundle (l : LaneId) (slotA : Slot) (b : Word) (cost : BeIn → Nat) (sa : BeIn → BeRes) (s : State) : (beBundle l slotA b cost sa s).still.svc = s.still.svc := by
  unfold beBundle
  split
  · split
    · rfl
    · extract_lets c shot win stall x0 k part kk s1
      by_cases h1 : (!((s.lane l).be.window && (s.lane l).runs)) = true
      · rw [if_pos h1]
      · rw [if_neg h1]
        by_cases h2 : (s.lane l).be.poisonedCode.contains c.pc = true
        · rw [if_pos h2]; simp
        · rw [if_neg h2]; clear_value part k x0
          split
          · simp
          · by_cases h3 : (!bundleOk slotA ‹_›) = true
            · rw [if_pos h3]; simp
            · rw [if_neg h3]
              by_cases h4 : part = false ∧ shot < k ∧ shot ≤ win
              · rw [if_pos h4]; simp
              · rw [if_neg h4]
                by_cases h5 : part = false ∧ win < k
                · rw [if_pos h5]; simp
                · rw [if_neg h5]; extract_lets; have h6 : s1.still.svc = s.still.svc := by simp [s1]
                  split <;> simp [h6]
  · rfl

@[simp] theorem still_sk_beAlu (l : LaneId) (o : AluOp) (t : Ty) (d s1 : VReg) (s2 : Fin 32) (imm : BitVec 11) (b : Word) (s : State) : (beAlu l o t d s1 s2 imm b s).still.sk = s.still.sk := by
  simp [beAlu]

@[simp] theorem still_grid_beAlu (l : LaneId) (o : AluOp) (t : Ty) (d s1 : VReg) (s2 : Fin 32) (imm : BitVec 11) (b : Word) (s : State) : (beAlu l o t d s1 s2 imm b s).still.grid = s.still.grid := by
  simp [beAlu]

@[simp] theorem still_svc_beAlu (l : LaneId) (o : AluOp) (t : Ty) (d s1 : VReg) (s2 : Fin 32) (imm : BitVec 11) (b : Word) (s : State) : (beAlu l o t d s1 s2 imm b s).still.svc = s.still.svc := by
  simp [beAlu]

/-! BlockEngine -/

theorem still_sk_execBeNop (l : LaneId) (b : Word) (s : State) : Stays Still.sk (execBeNop l b s) s := by
  simp [execBeNop]

theorem still_grid_execBeNop (l : LaneId) (b : Word) (s : State) : Stays Still.grid (execBeNop l b s) s := by
  simp [execBeNop]

theorem still_svc_execBeNop (l : LaneId) (b : Word) (s : State) : Stays Still.svc (execBeNop l b s) s := by
  simp [execBeNop]

theorem still_sk_execBeAdd (l : LaneId) (ty : Ty) (d s1 s2 : VReg) (b : Word) (s : State) : Stays Still.sk (execBeAdd l ty d s1 s2 b s) s := by
  simp [execBeAdd]

theorem still_grid_execBeAdd (l : LaneId) (ty : Ty) (d s1 s2 : VReg) (b : Word) (s : State) : Stays Still.grid (execBeAdd l ty d s1 s2 b s) s := by
  simp [execBeAdd]

theorem still_svc_execBeAdd (l : LaneId) (ty : Ty) (d s1 s2 : VReg) (b : Word) (s : State) : Stays Still.svc (execBeAdd l ty d s1 s2 b s) s := by
  simp [execBeAdd]

theorem still_sk_execBeSub (l : LaneId) (ty : Ty) (d s1 s2 : VReg) (b : Word) (s : State) : Stays Still.sk (execBeSub l ty d s1 s2 b s) s := by
  simp [execBeSub]

theorem still_grid_execBeSub (l : LaneId) (ty : Ty) (d s1 s2 : VReg) (b : Word) (s : State) : Stays Still.grid (execBeSub l ty d s1 s2 b s) s := by
  simp [execBeSub]

theorem still_svc_execBeSub (l : LaneId) (ty : Ty) (d s1 s2 : VReg) (b : Word) (s : State) : Stays Still.svc (execBeSub l ty d s1 s2 b s) s := by
  simp [execBeSub]

theorem still_sk_execBeAdds (l : LaneId) (ty : Ty) (d s1 s2 : VReg) (b : Word) (s : State) : Stays Still.sk (execBeAdds l ty d s1 s2 b s) s := by
  simp [execBeAdds]

theorem still_grid_execBeAdds (l : LaneId) (ty : Ty) (d s1 s2 : VReg) (b : Word) (s : State) : Stays Still.grid (execBeAdds l ty d s1 s2 b s) s := by
  simp [execBeAdds]

theorem still_svc_execBeAdds (l : LaneId) (ty : Ty) (d s1 s2 : VReg) (b : Word) (s : State) : Stays Still.svc (execBeAdds l ty d s1 s2 b s) s := by
  simp [execBeAdds]

theorem still_sk_execBeSubs (l : LaneId) (ty : Ty) (d s1 s2 : VReg) (b : Word) (s : State) : Stays Still.sk (execBeSubs l ty d s1 s2 b s) s := by
  simp [execBeSubs]

theorem still_grid_execBeSubs (l : LaneId) (ty : Ty) (d s1 s2 : VReg) (b : Word) (s : State) : Stays Still.grid (execBeSubs l ty d s1 s2 b s) s := by
  simp [execBeSubs]

theorem still_svc_execBeSubs (l : LaneId) (ty : Ty) (d s1 s2 : VReg) (b : Word) (s : State) : Stays Still.svc (execBeSubs l ty d s1 s2 b s) s := by
  simp [execBeSubs]

theorem still_sk_execBeMul (l : LaneId) (ty : Ty) (d s1 s2 : VReg) (b : Word) (s : State) : Stays Still.sk (execBeMul l ty d s1 s2 b s) s := by
  simp [execBeMul]

theorem still_grid_execBeMul (l : LaneId) (ty : Ty) (d s1 s2 : VReg) (b : Word) (s : State) : Stays Still.grid (execBeMul l ty d s1 s2 b s) s := by
  simp [execBeMul]

theorem still_svc_execBeMul (l : LaneId) (ty : Ty) (d s1 s2 : VReg) (b : Word) (s : State) : Stays Still.svc (execBeMul l ty d s1 s2 b s) s := by
  simp [execBeMul]

theorem still_sk_execBeDiv (l : LaneId) (ty : Ty) (d s1 s2 : VReg) (b : Word) (s : State) : Stays Still.sk (execBeDiv l ty d s1 s2 b s) s := by
  simp [execBeDiv]

theorem still_grid_execBeDiv (l : LaneId) (ty : Ty) (d s1 s2 : VReg) (b : Word) (s : State) : Stays Still.grid (execBeDiv l ty d s1 s2 b s) s := by
  simp [execBeDiv]

theorem still_svc_execBeDiv (l : LaneId) (ty : Ty) (d s1 s2 : VReg) (b : Word) (s : State) : Stays Still.svc (execBeDiv l ty d s1 s2 b s) s := by
  simp [execBeDiv]

theorem still_sk_execBeMod (l : LaneId) (ty : Ty) (d s1 s2 : VReg) (b : Word) (s : State) : Stays Still.sk (execBeMod l ty d s1 s2 b s) s := by
  simp [execBeMod]

theorem still_grid_execBeMod (l : LaneId) (ty : Ty) (d s1 s2 : VReg) (b : Word) (s : State) : Stays Still.grid (execBeMod l ty d s1 s2 b s) s := by
  simp [execBeMod]

theorem still_svc_execBeMod (l : LaneId) (ty : Ty) (d s1 s2 : VReg) (b : Word) (s : State) : Stays Still.svc (execBeMod l ty d s1 s2 b s) s := by
  simp [execBeMod]

theorem still_sk_execBeMin (l : LaneId) (ty : Ty) (d s1 s2 : VReg) (b : Word) (s : State) : Stays Still.sk (execBeMin l ty d s1 s2 b s) s := by
  simp [execBeMin]

theorem still_grid_execBeMin (l : LaneId) (ty : Ty) (d s1 s2 : VReg) (b : Word) (s : State) : Stays Still.grid (execBeMin l ty d s1 s2 b s) s := by
  simp [execBeMin]

theorem still_svc_execBeMin (l : LaneId) (ty : Ty) (d s1 s2 : VReg) (b : Word) (s : State) : Stays Still.svc (execBeMin l ty d s1 s2 b s) s := by
  simp [execBeMin]

theorem still_sk_execBeMax (l : LaneId) (ty : Ty) (d s1 s2 : VReg) (b : Word) (s : State) : Stays Still.sk (execBeMax l ty d s1 s2 b s) s := by
  simp [execBeMax]

theorem still_grid_execBeMax (l : LaneId) (ty : Ty) (d s1 s2 : VReg) (b : Word) (s : State) : Stays Still.grid (execBeMax l ty d s1 s2 b s) s := by
  simp [execBeMax]

theorem still_svc_execBeMax (l : LaneId) (ty : Ty) (d s1 s2 : VReg) (b : Word) (s : State) : Stays Still.svc (execBeMax l ty d s1 s2 b s) s := by
  simp [execBeMax]

theorem still_sk_execBeAnd (l : LaneId) (ty : Ty) (d s1 s2 : VReg) (b : Word) (s : State) : Stays Still.sk (execBeAnd l ty d s1 s2 b s) s := by
  simp [execBeAnd]

theorem still_grid_execBeAnd (l : LaneId) (ty : Ty) (d s1 s2 : VReg) (b : Word) (s : State) : Stays Still.grid (execBeAnd l ty d s1 s2 b s) s := by
  simp [execBeAnd]

theorem still_svc_execBeAnd (l : LaneId) (ty : Ty) (d s1 s2 : VReg) (b : Word) (s : State) : Stays Still.svc (execBeAnd l ty d s1 s2 b s) s := by
  simp [execBeAnd]

theorem still_sk_execBeOr (l : LaneId) (ty : Ty) (d s1 s2 : VReg) (b : Word) (s : State) : Stays Still.sk (execBeOr l ty d s1 s2 b s) s := by
  simp [execBeOr]

theorem still_grid_execBeOr (l : LaneId) (ty : Ty) (d s1 s2 : VReg) (b : Word) (s : State) : Stays Still.grid (execBeOr l ty d s1 s2 b s) s := by
  simp [execBeOr]

theorem still_svc_execBeOr (l : LaneId) (ty : Ty) (d s1 s2 : VReg) (b : Word) (s : State) : Stays Still.svc (execBeOr l ty d s1 s2 b s) s := by
  simp [execBeOr]

theorem still_sk_execBeXor (l : LaneId) (ty : Ty) (d s1 s2 : VReg) (b : Word) (s : State) : Stays Still.sk (execBeXor l ty d s1 s2 b s) s := by
  simp [execBeXor]

theorem still_grid_execBeXor (l : LaneId) (ty : Ty) (d s1 s2 : VReg) (b : Word) (s : State) : Stays Still.grid (execBeXor l ty d s1 s2 b s) s := by
  simp [execBeXor]

theorem still_svc_execBeXor (l : LaneId) (ty : Ty) (d s1 s2 : VReg) (b : Word) (s : State) : Stays Still.svc (execBeXor l ty d s1 s2 b s) s := by
  simp [execBeXor]

theorem still_sk_execBeCeq (l : LaneId) (ty : Ty) (d s1 s2 : VReg) (b : Word) (s : State) : Stays Still.sk (execBeCeq l ty d s1 s2 b s) s := by
  simp [execBeCeq]

theorem still_grid_execBeCeq (l : LaneId) (ty : Ty) (d s1 s2 : VReg) (b : Word) (s : State) : Stays Still.grid (execBeCeq l ty d s1 s2 b s) s := by
  simp [execBeCeq]

theorem still_svc_execBeCeq (l : LaneId) (ty : Ty) (d s1 s2 : VReg) (b : Word) (s : State) : Stays Still.svc (execBeCeq l ty d s1 s2 b s) s := by
  simp [execBeCeq]

theorem still_sk_execBeCne (l : LaneId) (ty : Ty) (d s1 s2 : VReg) (b : Word) (s : State) : Stays Still.sk (execBeCne l ty d s1 s2 b s) s := by
  simp [execBeCne]

theorem still_grid_execBeCne (l : LaneId) (ty : Ty) (d s1 s2 : VReg) (b : Word) (s : State) : Stays Still.grid (execBeCne l ty d s1 s2 b s) s := by
  simp [execBeCne]

theorem still_svc_execBeCne (l : LaneId) (ty : Ty) (d s1 s2 : VReg) (b : Word) (s : State) : Stays Still.svc (execBeCne l ty d s1 s2 b s) s := by
  simp [execBeCne]

theorem still_sk_execBeClt (l : LaneId) (ty : Ty) (d s1 s2 : VReg) (b : Word) (s : State) : Stays Still.sk (execBeClt l ty d s1 s2 b s) s := by
  simp [execBeClt]

theorem still_grid_execBeClt (l : LaneId) (ty : Ty) (d s1 s2 : VReg) (b : Word) (s : State) : Stays Still.grid (execBeClt l ty d s1 s2 b s) s := by
  simp [execBeClt]

theorem still_svc_execBeClt (l : LaneId) (ty : Ty) (d s1 s2 : VReg) (b : Word) (s : State) : Stays Still.svc (execBeClt l ty d s1 s2 b s) s := by
  simp [execBeClt]

theorem still_sk_execBeCle (l : LaneId) (ty : Ty) (d s1 s2 : VReg) (b : Word) (s : State) : Stays Still.sk (execBeCle l ty d s1 s2 b s) s := by
  simp [execBeCle]

theorem still_grid_execBeCle (l : LaneId) (ty : Ty) (d s1 s2 : VReg) (b : Word) (s : State) : Stays Still.grid (execBeCle l ty d s1 s2 b s) s := by
  simp [execBeCle]

theorem still_svc_execBeCle (l : LaneId) (ty : Ty) (d s1 s2 : VReg) (b : Word) (s : State) : Stays Still.svc (execBeCle l ty d s1 s2 b s) s := by
  simp [execBeCle]

theorem still_sk_execBeMov (l : LaneId) (ty : Ty) (d s1 : VReg) (b : Word) (s : State) : Stays Still.sk (execBeMov l ty d s1 b s) s := by
  simp [execBeMov]

theorem still_grid_execBeMov (l : LaneId) (ty : Ty) (d s1 : VReg) (b : Word) (s : State) : Stays Still.grid (execBeMov l ty d s1 b s) s := by
  simp [execBeMov]

theorem still_svc_execBeMov (l : LaneId) (ty : Ty) (d s1 : VReg) (b : Word) (s : State) : Stays Still.svc (execBeMov l ty d s1 b s) s := by
  simp [execBeMov]

theorem still_sk_execBeNeg (l : LaneId) (ty : Ty) (d s1 : VReg) (b : Word) (s : State) : Stays Still.sk (execBeNeg l ty d s1 b s) s := by
  simp [execBeNeg]

theorem still_grid_execBeNeg (l : LaneId) (ty : Ty) (d s1 : VReg) (b : Word) (s : State) : Stays Still.grid (execBeNeg l ty d s1 b s) s := by
  simp [execBeNeg]

theorem still_svc_execBeNeg (l : LaneId) (ty : Ty) (d s1 : VReg) (b : Word) (s : State) : Stays Still.svc (execBeNeg l ty d s1 b s) s := by
  simp [execBeNeg]

theorem still_sk_execBeAbs (l : LaneId) (ty : Ty) (d s1 : VReg) (b : Word) (s : State) : Stays Still.sk (execBeAbs l ty d s1 b s) s := by
  simp [execBeAbs]

theorem still_grid_execBeAbs (l : LaneId) (ty : Ty) (d s1 : VReg) (b : Word) (s : State) : Stays Still.grid (execBeAbs l ty d s1 b s) s := by
  simp [execBeAbs]

theorem still_svc_execBeAbs (l : LaneId) (ty : Ty) (d s1 : VReg) (b : Word) (s : State) : Stays Still.svc (execBeAbs l ty d s1 b s) s := by
  simp [execBeAbs]

theorem still_sk_execBeSqrt (l : LaneId) (ty : Ty) (d s1 : VReg) (b : Word) (s : State) : Stays Still.sk (execBeSqrt l ty d s1 b s) s := by
  simp [execBeSqrt]

theorem still_grid_execBeSqrt (l : LaneId) (ty : Ty) (d s1 : VReg) (b : Word) (s : State) : Stays Still.grid (execBeSqrt l ty d s1 b s) s := by
  simp [execBeSqrt]

theorem still_svc_execBeSqrt (l : LaneId) (ty : Ty) (d s1 : VReg) (b : Word) (s : State) : Stays Still.svc (execBeSqrt l ty d s1 b s) s := by
  simp [execBeSqrt]

theorem still_sk_execBeNot (l : LaneId) (ty : Ty) (d s1 : VReg) (b : Word) (s : State) : Stays Still.sk (execBeNot l ty d s1 b s) s := by
  simp [execBeNot]

theorem still_grid_execBeNot (l : LaneId) (ty : Ty) (d s1 : VReg) (b : Word) (s : State) : Stays Still.grid (execBeNot l ty d s1 b s) s := by
  simp [execBeNot]

theorem still_svc_execBeNot (l : LaneId) (ty : Ty) (d s1 : VReg) (b : Word) (s : State) : Stays Still.svc (execBeNot l ty d s1 b s) s := by
  simp [execBeNot]

theorem still_sk_execBeMovi (l : LaneId) (ty : Ty) (d : VReg) (imm : BitVec 11) (b : Word) (s : State) : Stays Still.sk (execBeMovi l ty d imm b s) s := by
  simp [execBeMovi]

theorem still_grid_execBeMovi (l : LaneId) (ty : Ty) (d : VReg) (imm : BitVec 11) (b : Word) (s : State) : Stays Still.grid (execBeMovi l ty d imm b s) s := by
  simp [execBeMovi]

theorem still_svc_execBeMovi (l : LaneId) (ty : Ty) (d : VReg) (imm : BitVec 11) (b : Word) (s : State) : Stays Still.svc (execBeMovi l ty d imm b s) s := by
  simp [execBeMovi]

theorem still_sk_execBeShl (l : LaneId) (ty : Ty) (d s1 : VReg) (imm : BitVec 11) (b : Word) (s : State) : Stays Still.sk (execBeShl l ty d s1 imm b s) s := by
  simp [execBeShl]

theorem still_grid_execBeShl (l : LaneId) (ty : Ty) (d s1 : VReg) (imm : BitVec 11) (b : Word) (s : State) : Stays Still.grid (execBeShl l ty d s1 imm b s) s := by
  simp [execBeShl]

theorem still_svc_execBeShl (l : LaneId) (ty : Ty) (d s1 : VReg) (imm : BitVec 11) (b : Word) (s : State) : Stays Still.svc (execBeShl l ty d s1 imm b s) s := by
  simp [execBeShl]

theorem still_sk_execBeShr (l : LaneId) (ty : Ty) (d s1 : VReg) (imm : BitVec 11) (b : Word) (s : State) : Stays Still.sk (execBeShr l ty d s1 imm b s) s := by
  simp [execBeShr]

theorem still_grid_execBeShr (l : LaneId) (ty : Ty) (d s1 : VReg) (imm : BitVec 11) (b : Word) (s : State) : Stays Still.grid (execBeShr l ty d s1 imm b s) s := by
  simp [execBeShr]

theorem still_svc_execBeShr (l : LaneId) (ty : Ty) (d s1 : VReg) (imm : BitVec 11) (b : Word) (s : State) : Stays Still.svc (execBeShr l ty d s1 imm b s) s := by
  simp [execBeShr]

theorem still_sk_execBeCvt (l : LaneId) (ty : Ty) (d s1 : VReg) (src : Ty) (b : Word) (s : State) : Stays Still.sk (execBeCvt l ty d s1 src b s) s := by
  simp [execBeCvt]

theorem still_grid_execBeCvt (l : LaneId) (ty : Ty) (d s1 : VReg) (src : Ty) (b : Word) (s : State) : Stays Still.grid (execBeCvt l ty d s1 src b s) s := by
  simp [execBeCvt]

theorem still_svc_execBeCvt (l : LaneId) (ty : Ty) (d s1 : VReg) (src : Ty) (b : Word) (s : State) : Stays Still.svc (execBeCvt l ty d s1 src b s) s := by
  simp [execBeCvt]

theorem still_sk_execBeSel (l : LaneId) (ty : Ty) (d s1 s2 : VReg) (b : Word) (s : State) : Stays Still.sk (execBeSel l ty d s1 s2 b s) s := by
  simp [execBeSel]

theorem still_grid_execBeSel (l : LaneId) (ty : Ty) (d s1 s2 : VReg) (b : Word) (s : State) : Stays Still.grid (execBeSel l ty d s1 s2 b s) s := by
  simp [execBeSel]

theorem still_svc_execBeSel (l : LaneId) (ty : Ty) (d s1 s2 : VReg) (b : Word) (s : State) : Stays Still.svc (execBeSel l ty d s1 s2 b s) s := by
  simp [execBeSel]

theorem still_sk_execBeLd (l : LaneId) (ty : Ty) (v : VReg) (a : AReg) (disp : BitVec 13) (ecc : Bool) (b : Word) (s : State) : Stays Still.sk (execBeLd l ty v a disp ecc b s) s := by
  simp [execBeLd]

theorem still_grid_execBeLd (l : LaneId) (ty : Ty) (v : VReg) (a : AReg) (disp : BitVec 13) (ecc : Bool) (b : Word) (s : State) : Stays Still.grid (execBeLd l ty v a disp ecc b s) s := by
  simp [execBeLd]

theorem still_svc_execBeLd (l : LaneId) (ty : Ty) (v : VReg) (a : AReg) (disp : BitVec 13) (ecc : Bool) (b : Word) (s : State) : Stays Still.svc (execBeLd l ty v a disp ecc b s) s := by
  simp [execBeLd]

theorem still_sk_execBeSt (l : LaneId) (ty : Ty) (v : VReg) (a : AReg) (disp : BitVec 13) (b : Word) (s : State) : Stays Still.sk (execBeSt l ty v a disp b s) s := by
  simp [execBeSt]

theorem still_grid_execBeSt (l : LaneId) (ty : Ty) (v : VReg) (a : AReg) (disp : BitVec 13) (b : Word) (s : State) : Stays Still.grid (execBeSt l ty v a disp b s) s := by
  simp [execBeSt]

theorem still_svc_execBeSt (l : LaneId) (ty : Ty) (v : VReg) (a : AReg) (disp : BitVec 13) (b : Word) (s : State) : Stays Still.svc (execBeSt l ty v a disp b s) s := by
  simp [execBeSt]

theorem still_sk_execBeLda (l : LaneId) (d a : AReg) (disp : BitVec 13) (b : Word) (s : State) : Stays Still.sk (execBeLda l d a disp b s) s := by
  simp [execBeLda]

theorem still_grid_execBeLda (l : LaneId) (d a : AReg) (disp : BitVec 13) (b : Word) (s : State) : Stays Still.grid (execBeLda l d a disp b s) s := by
  simp [execBeLda]

theorem still_svc_execBeLda (l : LaneId) (d a : AReg) (disp : BitVec 13) (b : Word) (s : State) : Stays Still.svc (execBeLda l d a disp b s) s := by
  simp [execBeLda]

theorem still_sk_execBeIdxc (l : LaneId) (scale : Fin 4) (d a : AReg) (v : VReg) (boundM1 : BitVec 10) (b : Word) (s : State) : Stays Still.sk (execBeIdxc l scale d a v boundM1 b s) s := by
  simp [execBeIdxc]

theorem still_grid_execBeIdxc (l : LaneId) (scale : Fin 4) (d a : AReg) (v : VReg) (boundM1 : BitVec 10) (b : Word) (s : State) : Stays Still.grid (execBeIdxc l scale d a v boundM1 b s) s := by
  simp [execBeIdxc]

theorem still_svc_execBeIdxc (l : LaneId) (scale : Fin 4) (d a : AReg) (v : VReg) (boundM1 : BitVec 10) (b : Word) (s : State) : Stays Still.svc (execBeIdxc l scale d a v boundM1 b s) s := by
  simp [execBeIdxc]

theorem still_sk_execBeItpl (l : LaneId) (a : AReg) (count : BitVec 13) (b : Word) (s : State) : Stays Still.sk (execBeItpl l a count b s) s := by
  simp [execBeItpl]

theorem still_grid_execBeItpl (l : LaneId) (a : AReg) (count : BitVec 13) (b : Word) (s : State) : Stays Still.grid (execBeItpl l a count b s) s := by
  simp [execBeItpl]

theorem still_svc_execBeItpl (l : LaneId) (a : AReg) (count : BitVec 13) (b : Word) (s : State) : Stays Still.svc (execBeItpl l a count b s) s := by
  simp [execBeItpl]

theorem still_sk_execBeBra (l : LaneId) (off : BitVec 16) (b : Word) (s : State) : Stays Still.sk (execBeBra l off b s) s := by
  simp [execBeBra]

theorem still_grid_execBeBra (l : LaneId) (off : BitVec 16) (b : Word) (s : State) : Stays Still.grid (execBeBra l off b s) s := by
  simp [execBeBra]

theorem still_svc_execBeBra (l : LaneId) (off : BitVec 16) (b : Word) (s : State) : Stays Still.svc (execBeBra l off b s) s := by
  simp [execBeBra]

theorem still_sk_execBeBrz (l : LaneId) (v : VReg) (off : BitVec 16) (b : Word) (s : State) : Stays Still.sk (execBeBrz l v off b s) s := by
  simp [execBeBrz]

theorem still_grid_execBeBrz (l : LaneId) (v : VReg) (off : BitVec 16) (b : Word) (s : State) : Stays Still.grid (execBeBrz l v off b s) s := by
  simp [execBeBrz]

theorem still_svc_execBeBrz (l : LaneId) (v : VReg) (off : BitVec 16) (b : Word) (s : State) : Stays Still.svc (execBeBrz l v off b s) s := by
  simp [execBeBrz]

theorem still_sk_execBeBrnz (l : LaneId) (v : VReg) (off : BitVec 16) (b : Word) (s : State) : Stays Still.sk (execBeBrnz l v off b s) s := by
  simp [execBeBrnz]

theorem still_grid_execBeBrnz (l : LaneId) (v : VReg) (off : BitVec 16) (b : Word) (s : State) : Stays Still.grid (execBeBrnz l v off b s) s := by
  simp [execBeBrnz]

theorem still_svc_execBeBrnz (l : LaneId) (v : VReg) (off : BitVec 16) (b : Word) (s : State) : Stays Still.svc (execBeBrnz l v off b s) s := by
  simp [execBeBrnz]

theorem still_sk_execBeLoop (l : LaneId) (v : VReg) (bound : BitVec 16) (b : Word) (s : State) : Stays Still.sk (execBeLoop l v bound b s) s := by
  simp [execBeLoop]

theorem still_grid_execBeLoop (l : LaneId) (v : VReg) (bound : BitVec 16) (b : Word) (s : State) : Stays Still.grid (execBeLoop l v bound b s) s := by
  simp [execBeLoop]

theorem still_svc_execBeLoop (l : LaneId) (v : VReg) (bound : BitVec 16) (b : Word) (s : State) : Stays Still.svc (execBeLoop l v bound b s) s := by
  simp [execBeLoop]

theorem still_sk_execBeEndl (l : LaneId) (b : Word) (s : State) : Stays Still.sk (execBeEndl l b s) s := by
  simp [execBeEndl]

theorem still_grid_execBeEndl (l : LaneId) (b : Word) (s : State) : Stays Still.grid (execBeEndl l b s) s := by
  simp [execBeEndl]

theorem still_svc_execBeEndl (l : LaneId) (b : Word) (s : State) : Stays Still.svc (execBeEndl l b s) s := by
  simp [execBeEndl]

theorem still_sk_execBeCallb (l : LaneId) (a : AReg) (typeNo : BitVec 12) (b : Word) (s : State) : Stays Still.sk (execBeCallb l a typeNo b s) s := by
  simp [execBeCallb]

theorem still_grid_execBeCallb (l : LaneId) (a : AReg) (typeNo : BitVec 12) (b : Word) (s : State) : Stays Still.grid (execBeCallb l a typeNo b s) s := by
  simp [execBeCallb]

theorem still_svc_execBeCallb (l : LaneId) (a : AReg) (typeNo : BitVec 12) (b : Word) (s : State) : Stays Still.svc (execBeCallb l a typeNo b s) s := by
  simp [execBeCallb]

@[simp] theorem still_noteCommit (l : LaneId) (before after : State) : (noteCommit l before after).still = after.still := by
  unfold noteCommit; split
  · split
    · rfl
    · split
      · apply updLane_goes; rfl; intro v; rfl
      · rfl
  · rfl

theorem still_sk_execBeRetb (l : LaneId) (b : Word) (s : State) : Stays Still.sk (execBeRetb l b s) s := by
  simp [execBeRetb]

theorem still_grid_execBeRetb (l : LaneId) (b : Word) (s : State) : Stays Still.grid (execBeRetb l b s) s := by
  simp [execBeRetb]

theorem still_svc_execBeRetb (l : LaneId) (b : Word) (s : State) : Stays Still.svc (execBeRetb l b s) s := by
  simp [execBeRetb]

theorem still_sk_execBeEnd (l : LaneId) (b : Word) (s : State) : Stays Still.sk (execBeEnd l b s) s := by
  simp [execBeEnd]

theorem still_grid_execBeEnd (l : LaneId) (b : Word) (s : State) : Stays Still.grid (execBeEnd l b s) s := by
  simp [execBeEnd]

theorem still_svc_execBeEnd (l : LaneId) (b : Word) (s : State) : Stays Still.svc (execBeEnd l b s) s := by
  simp [execBeEnd]

@[simp] theorem still_illegalBundle (s : State) (l : LaneId) : (illegalBundle s l).still = s.still := by
  unfold illegalBundle; repeat' (first | rfl | (simp; done) | split)

/-! Mailbox -/

@[simp] theorem still_endGrace (s : State) (p : Nat) : (endGrace s p).still = s.still := by
  simp [endGrace]

@[simp] theorem still_attachFinal (s : State) (p : Nat) (ws : List Word) (resume : Bool) : (attachFinal s p ws resume).still = s.still := by
  simp [attachFinal]

theorem still_execAttach (p : Part) (s : State) : Stays id (execAttach p s) s := by
  unfold execAttach
  refine still_serve _ _ _ _ (fun ws => ?_)
  try refine still_needLock _ _ _ _ ?_
  try refine still_needOperator _ _ _ _ ?_
  simp only []
  repeat' (first | with_reducible rfl | (simp; done) | split)

@[simp] theorem still_sessionEvent (s : State) (src code p : Nat) : (sessionEvent s src code p).still = s.still := by
  simp [sessionEvent]

@[simp] theorem still_sessionPhase1 (s : State) (p : Nat) : (sessionPhase1 s p).still = s.still := by
  unfold sessionPhase1; repeat' (first | rfl | (simp; done) | split)

@[simp] theorem still_sessionPhase2 (s : State) (p : Nat) (ws : List Word) : (sessionPhase2 s p ws).still = s.still := by
  simp [sessionPhase2]

theorem still_execSessionOpen (p : Part) (s : State) : Stays id (execSessionOpen p s) s := by
  simp [execSessionOpen]

@[simp] theorem still_closeSession (s : State) (p : Nat) : (closeSession s p).still = s.still := by
  simp [closeSession]

theorem still_execSessionClose (p : Part) (s : State) : Stays id (execSessionClose p s) s := by
  simp [execSessionClose]

theorem still_execSessionIdleTimeout (p : Part) (s : State) : Stays id (execSessionIdleTimeout p s) s := by
  simp [execSessionIdleTimeout]

theorem still_execAuthLockoutEnd (s : State) : Stays id (execAuthLockoutEnd s) s := by
  simp [execAuthLockoutEnd]

@[simp] theorem still_grantLock (s : State) (p : Nat) : (grantLock s p).still = s.still := by
  simp [grantLock]

theorem still_execLockAcquire (p : Part) (s : State) : Stays id (execLockAcquire p s) s := by
  unfold execLockAcquire
  refine still_serve _ _ _ _ (fun ws => ?_)
  try refine still_needLock _ _ _ _ ?_
  try refine still_needOperator _ _ _ _ ?_
  simp only []
  repeat' (first | with_reducible rfl | (simp; done) | split)

theorem still_execLockRelease (p : Part) (s : State) : Stays id (execLockRelease p s) s := by
  simp [execLockRelease]

theorem still_execEventSubscribe (p : Part) (s : State) : Stays id (execEventSubscribe p s) s := by
  simp [execEventSubscribe]

theorem still_execEventRead (p : Part) (s : State) : Stays id (execEventRead p s) s := by
  simp [execEventRead]

theorem still_execConfigBegin (p : Part) (s : State) : Stays id (execConfigBegin p s) s := by
  simp [execConfigBegin]

theorem still_execConfigAbort (p : Part) (s : State) : Stays id (execConfigAbort p s) s := by
  simp [execConfigAbort]

theorem still_execHostLinkLost (p : Part) (s : State) : Stays id (execHostLinkLost p s) s := by
  unfold execHostLinkLost; repeat' (first | rfl | (simp; done) | split)

theorem still_execLinkGraceExpired (p : Part) (s : State) : Stays id (execLinkGraceExpired p s) s := by
  simp [execLinkGraceExpired]

/-! Patch -/

@[simp] theorem still_submitPatch (s : State) (p : Nat) (items : List (Nat × List Byte)) : (submitPatch s p items).still = s.still := by
  unfold submitPatch; repeat' (first | with_reducible rfl | (simp +zetaDelta; done) | (with_reducible apply updLane_goes; rotate_left; intro _) | split | extract_lets | (with_reducible apply foldl_still; intro _ _) | simp +zetaDelta)

@[simp] theorem still_sk_applyItem (img : List Byte) (l : LaneId) (s : State) (it : Nat × List Byte) : (applyItem img l s it).still.sk = s.still.sk := by
  unfold applyItem; repeat' (first | with_reducible rfl | (simp +zetaDelta ; done) | split | extract_lets | (with_reducible apply foldl_stillsk; intro _ _) | simp +zetaDelta )

@[simp] theorem still_grid_applyItem (img : List Byte) (l : LaneId) (s : State) (it : Nat × List Byte) : (applyItem img l s it).still.grid = s.still.grid := by
  unfold applyItem; repeat' (first | with_reducible rfl | (simp +zetaDelta ; done) | split | extract_lets | (with_reducible apply foldl_stillgrid; intro _ _) | simp +zetaDelta )

@[simp] theorem still_svc_applyItem (img : List Byte) (l : LaneId) (s : State) (it : Nat × List Byte) : (applyItem img l s it).still.svc = s.still.svc := by
  unfold applyItem; repeat' (first | with_reducible rfl | (simp +zetaDelta ; done) | split | extract_lets | (with_reducible apply foldl_stillsvc; intro _ _) | simp +zetaDelta )

@[simp] theorem still_sk_applyPatches (s : State) (l : LaneId) : (applyPatches s l).still.sk = s.still.sk := by
  unfold applyPatches; repeat' (first | rfl | (simp; done) | split)

@[simp] theorem still_grid_applyPatches (s : State) (l : LaneId) : (applyPatches s l).still.grid = s.still.grid := by
  unfold applyPatches; repeat' (first | rfl | (simp; done) | split)

@[simp] theorem still_svc_applyPatches (s : State) (l : LaneId) : (applyPatches s l).still.svc = s.still.svc := by
  unfold applyPatches; repeat' (first | rfl | (simp; done) | split)

@[simp] theorem still_redueBatches (was : Nat) (s : State) : (redueBatches was s).still = s.still := by
  simp [redueBatches]

@[simp] theorem still_batchEdge (was : Nat) (s : State) : (batchEdge was s).still = s.still := by
  simp [batchEdge]

@[simp] theorem still_bankAfterPatch (s : State) (l : LaneId) : (bankAfterPatch s l).still = s.still := by
  unfold bankAfterPatch; repeat' (first | rfl | (simp; done) | split)

/-! Bulk -/

@[simp] theorem still_endXfer (s : State) (p : Nat) (urg : Bool) (x : Xfer) : (endXfer s p urg x).still = s.still := by
  unfold endXfer; repeat' (first | rfl | (simp; done) | split)

@[simp] theorem still_sendPiece (s : State) (p : Nat) (urg : Bool) (x : Xfer) : (sendPiece s p urg x).still = s.still := by
  simp [sendPiece]

@[simp] theorem still_goOn (s : State) (p : Nat) (urg : Bool) (x : Xfer) : (goOn s p urg x).still = s.still := by
  simp [goOn]

@[simp] theorem still_beginXfer (s : State) (p : Nat) (urg : Bool) (x : Xfer) : (beginXfer s p urg x).still = s.still := by
  simp [beginXfer]

@[simp] theorem still_takeIn (s : State) (p : Nat) (urg : Bool) (x : Xfer) (data : List Byte) : (takeIn s p urg x data).still = s.still := by
  unfold takeIn; repeat' (first | rfl | (simp; done) | split)

@[simp] theorem still_resumeHeld (s : State) (p : Nat) : (resumeHeld s p).still = s.still := by
  unfold resumeHeld; repeat' (first | with_reducible rfl | (simp +zetaDelta; done) | (with_reducible apply updLane_goes; rotate_left; intro _) | split | extract_lets | (with_reducible apply foldl_still; intro _ _) | simp +zetaDelta)

theorem still_execDmaCompletion (p : Part) (urgent ok : Bool) (status : Word) (data : List Byte) (s : State) : Stays id (execDmaCompletion p urgent ok status data s) s := by
  unfold execDmaCompletion; repeat' (first | with_reducible rfl | (simp +zetaDelta; done) | (with_reducible apply updLane_goes; rotate_left; intro _) | split | extract_lets | (with_reducible apply foldl_still; intro _ _) | simp +zetaDelta)

theorem still_execDmaCompletionTimeout (p : Part) (urgent : Bool) (s : State) : Stays id (execDmaCompletionTimeout p urgent s) s := by
  unfold execDmaCompletionTimeout; repeat' (first | with_reducible rfl | (simp +zetaDelta; done) | (with_reducible apply updLane_goes; rotate_left; intro _) | split | extract_lets | (with_reducible apply foldl_still; intro _ _) | simp +zetaDelta)

theorem still_execConfigChunk (p : Part) (s : State) : Stays id (execConfigChunk p s) s := by
  unfold execConfigChunk
  refine still_serve _ _ _ _ (fun ws => ?_)
  try refine still_needLock _ _ _ _ ?_
  try refine still_needOperator _ _ _ _ ?_
  simp only []
  repeat' (first | with_reducible rfl | (simp; done) | split)

theorem still_execValuePatch (p : Part) (s : State) : Stays id (execValuePatch p s) s := by
  unfold execValuePatch
  refine still_serve _ _ _ _ (fun ws => ?_)
  try refine still_needLock _ _ _ _ ?_
  try refine still_needOperator _ _ _ _ ?_
  simp only []
  repeat' (first | with_reducible rfl | (simp; done) | split)

theorem still_execImageRead (p : Part) (s : State) : Stays id (execImageRead p s) s := by
  unfold execImageRead
  refine still_serve _ _ _ _ (fun ws => ?_)
  try refine still_needLock _ _ _ _ ?_
  try refine still_needOperator _ _ _ _ ?_
  simp only []
  repeat' (first | with_reducible rfl | (simp; done) | split)

theorem still_execRecorderRead (p : Part) (s : State) : Stays id (execRecorderRead p s) s := by
  unfold execRecorderRead
  refine still_serve _ _ _ _ (fun ws => ?_)
  try refine still_needLock _ _ _ _ ?_
  try refine still_needOperator _ _ _ _ ?_
  simp only []
  repeat' (first | with_reducible rfl | (simp; done) | split)

theorem still_execFlowStats (p : Part) (s : State) : Stays id (execFlowStats p s) s := by
  unfold execFlowStats
  refine still_serve _ _ _ _ (fun ws => ?_)
  try refine still_needLock _ _ _ _ ?_
  try refine still_needOperator _ _ _ _ ?_
  simp only []
  repeat' (first | with_reducible rfl | (simp; done) | split)

theorem still_execRetainedRead (p : Part) (s : State) : Stays id (execRetainedRead p s) s := by
  unfold execRetainedRead
  refine still_serve _ _ _ _ (fun ws => ?_)
  try refine still_needLock _ _ _ _ ?_
  try refine still_needOperator _ _ _ _ ?_
  simp only []
  repeat' (first | with_reducible rfl | (simp; done) | split)

/-! Chains -/

@[simp] theorem still_chainEvents (s : State) (l : LaneId) (n : Nat) (entered : List ChainPhase) (sat : Option Nat) (rej : Bool) : (chainEvents s l n entered sat rej).still = s.still := by
  unfold chainEvents; repeat' (first | rfl | (simp; done) | split)

@[simp] theorem still_sk_chainPass (s : State) (l : LaneId) (r : CfgRec) : (chainPass s l r).still.sk = s.still.sk := by
  unfold chainPass; repeat' (first | with_reducible rfl | (simp +zetaDelta; done) |  split | extract_lets | (with_reducible apply foldl_stillsk; intro _ _) | simp +zetaDelta)

@[simp] theorem still_grid_chainPass (s : State) (l : LaneId) (r : CfgRec) : (chainPass s l r).still.grid = s.still.grid := by
  unfold chainPass; repeat' (first | with_reducible rfl | (simp +zetaDelta; done) |  split | extract_lets | (with_reducible apply foldl_stillgrid; intro _ _) | simp +zetaDelta)

@[simp] theorem still_svc_chainPass (s : State) (l : LaneId) (r : CfgRec) : (chainPass s l r).still.svc = s.still.svc := by
  unfold chainPass; repeat' (first | with_reducible rfl | (simp +zetaDelta; done) |  split | extract_lets | (with_reducible apply foldl_stillsvc; intro _ _) | simp +zetaDelta)

@[simp] theorem still_sk_chainPasses (s : State) (l : LaneId) : (chainPasses s l).still.sk = s.still.sk := by
  simp [chainPasses]

@[simp] theorem still_grid_chainPasses (s : State) (l : LaneId) : (chainPasses s l).still.grid = s.still.grid := by
  simp [chainPasses]

@[simp] theorem still_svc_chainPasses (s : State) (l : LaneId) : (chainPasses s l).still.svc = s.still.svc := by
  simp [chainPasses]

@[simp] theorem still_sk_publishChains (s : State) (l : LaneId) : (publishChains s l).still.sk = s.still.sk := by
  simp [publishChains]

@[simp] theorem still_grid_publishChains (s : State) (l : LaneId) : (publishChains s l).still.grid = s.still.grid := by
  simp [publishChains]

@[simp] theorem still_svc_publishChains (s : State) (l : LaneId) : (publishChains s l).still.svc = s.still.svc := by
  simp [publishChains]

@[simp] theorem still_sk_chainApply (old new : List CfgRec) (s : State) (l : LaneId) : (chainApply old new s l).still.sk = s.still.sk := by
  unfold chainApply; repeat' (first | with_reducible rfl | (simp +zetaDelta; done) |  split | extract_lets | (with_reducible apply foldl_stillsk; intro _ _) | simp +zetaDelta)

@[simp] theorem still_grid_chainApply (old new : List CfgRec) (s : State) (l : LaneId) : (chainApply old new s l).still.grid = s.still.grid := by
  unfold chainApply; repeat' (first | with_reducible rfl | (simp +zetaDelta; done) |  split | extract_lets | (with_reducible apply foldl_stillgrid; intro _ _) | simp +zetaDelta)

@[simp] theorem still_svc_chainApply (old new : List CfgRec) (s : State) (l : LaneId) : (chainApply old new s l).still.svc = s.still.svc := by
  unfold chainApply; repeat' (first | with_reducible rfl | (simp +zetaDelta; done) |  split | extract_lets | (with_reducible apply foldl_stillsvc; intro _ _) | simp +zetaDelta)

@[simp] theorem still_sk_chainRow (s : State) (l : LaneId) (n : Nat) (is : ChainSt → ChainSt → Bool) : (chainRow s l n is).still.sk = s.still.sk := by
  unfold chainRow; repeat' (first | with_reducible rfl | (simp +zetaDelta; done) |  split | extract_lets | (with_reducible apply foldl_stillsk; intro _ _) | simp +zetaDelta)

@[simp] theorem still_grid_chainRow (s : State) (l : LaneId) (n : Nat) (is : ChainSt → ChainSt → Bool) : (chainRow s l n is).still.grid = s.still.grid := by
  unfold chainRow; repeat' (first | with_reducible rfl | (simp +zetaDelta; done) |  split | extract_lets | (with_reducible apply foldl_stillgrid; intro _ _) | simp +zetaDelta)

@[simp] theorem still_svc_chainRow (s : State) (l : LaneId) (n : Nat) (is : ChainSt → ChainSt → Bool) : (chainRow s l n is).still.svc = s.still.svc := by
  unfold chainRow; repeat' (first | with_reducible rfl | (simp +zetaDelta; done) |  split | extract_lets | (with_reducible apply foldl_stillsvc; intro _ _) | simp +zetaDelta)

theorem still_sk_execChainStaleExpired (l : LaneId) (n : Fin 16) (s : State) : Stays Still.sk (execChainStaleExpired l n s) s := by
  simp [execChainStaleExpired]

theorem still_grid_execChainStaleExpired (l : LaneId) (n : Fin 16) (s : State) : Stays Still.grid (execChainStaleExpired l n s) s := by
  simp [execChainStaleExpired]

theorem still_svc_execChainStaleExpired (l : LaneId) (n : Fin 16) (s : State) : Stays Still.svc (execChainStaleExpired l n s) s := by
  simp [execChainStaleExpired]

theorem still_sk_execChainHoldExpired (l : LaneId) (n : Fin 16) (s : State) : Stays Still.sk (execChainHoldExpired l n s) s := by
  simp [execChainHoldExpired]

theorem still_grid_execChainHoldExpired (l : LaneId) (n : Fin 16) (s : State) : Stays Still.grid (execChainHoldExpired l n s) s := by
  simp [execChainHoldExpired]

theorem still_svc_execChainHoldExpired (l : LaneId) (n : Fin 16) (s : State) : Stays Still.svc (execChainHoldExpired l n s) s := by
  simp [execChainHoldExpired]

theorem still_sk_execChainFadeEnd (l : LaneId) (n : Fin 16) (s : State) : Stays Still.sk (execChainFadeEnd l n s) s := by
  simp [execChainFadeEnd]

theorem still_grid_execChainFadeEnd (l : LaneId) (n : Fin 16) (s : State) : Stays Still.grid (execChainFadeEnd l n s) s := by
  simp [execChainFadeEnd]

theorem still_svc_execChainFadeEnd (l : LaneId) (n : Fin 16) (s : State) : Stays Still.svc (execChainFadeEnd l n s) s := by
  simp [execChainFadeEnd]

theorem still_sk_execChainSettleEnd (l : LaneId) (n : Fin 16) (s : State) : Stays Still.sk (execChainSettleEnd l n s) s := by
  simp [execChainSettleEnd]

theorem still_grid_execChainSettleEnd (l : LaneId) (n : Fin 16) (s : State) : Stays Still.grid (execChainSettleEnd l n s) s := by
  simp [execChainSettleEnd]

theorem still_svc_execChainSettleEnd (l : LaneId) (n : Fin 16) (s : State) : Stays Still.svc (execChainSettleEnd l n s) s := by
  simp [execChainSettleEnd]

/-! Clocks -/

@[simp] theorem still_clockFailEvent (s : State) (l : LaneId) (code : Nat) : (clockFailEvent s l code).still = s.still := by
  simp [clockFailEvent]

@[simp] theorem still_abandonEntry (s : State) (cause : Nat) : (abandonEntry s cause).still = s.still := by
  simp [abandonEntry]

@[simp] theorem still_actOnRc (s : State) (l : LaneId) : (actOnRc s l).still = s.still := by
  unfold actOnRc; repeat' (first | with_reducible rfl | (simp +zetaDelta; done) | (simp +zetaDelta [hq2]; done) | (rename_i hq; have hq2 := (congrArg (fun x => (State.still (Prod.snd x))) hq).symm; clear hq; simp +zetaDelta at hq2) | (rename_i hq; have hq2 := (congrArg (fun x => (State.still (Prod.fst x))) hq).symm; clear hq; simp +zetaDelta at hq2) | (with_reducible apply updLane_goes; rotate_left; intro _) | split | (extract_lets) | (with_reducible apply foldl_still; intro _ _) | (simp +zetaDelta))

@[simp] theorem still_tcxoFails (s : State) (l : LaneId) : (tcxoFails s l).still = s.still := by
  unfold tcxoFails; repeat' (first | with_reducible rfl | (simp +zetaDelta ; done) | (with_reducible apply updLane_goes; rotate_left; intro _) | split | extract_lets | (with_reducible apply foldl_still; intro _ _) | simp +zetaDelta )

@[simp] theorem still_rcFails (s : State) (l : LaneId) : (rcFails s l).still = s.still := by
  unfold rcFails; repeat' (first | with_reducible rfl | (simp +zetaDelta ; done) | (with_reducible apply updLane_goes; rotate_left; intro _) | split | extract_lets | (with_reducible apply foldl_still; intro _ _) | simp +zetaDelta )

theorem still_execTcxoFailure (l : LaneId) (count : Option Nat) (s : State) : Stays id (execTcxoFailure l count s) s := by
  unfold execTcxoFailure; repeat' (first | with_reducible rfl | (simp +zetaDelta; done) | (with_reducible apply updLane_goes; rotate_left; intro _) | split | extract_lets | (with_reducible apply foldl_still; intro _ _) | simp +zetaDelta)

theorem still_execRcFault (l : LaneId) (count : Nat) (partner : Option Nat) (s : State) : Stays id (execRcFault l count partner s) s := by
  unfold execRcFault; extract_lets v o s1
  rw [stays_next]; split
  · rfl
  · have h1 : s1.still = s.still := updLane_imgs _ _ _ rfl
    repeat' split
    all_goals first | (simp [h1]; done) | exact (still_bothLanes _ _ fun s l => (still_laneClockEvent ..).trans (updLane_imgs _ _ _ rfl)).trans h1

theorem still_sk_execRcFault (l : LaneId) (count : Nat) (partner : Option Nat) (s : State) : Stays Still.sk (execRcFault l count partner s) s := by
  unfold execRcFault; repeat' (first | with_reducible rfl | (simp +zetaDelta ; done) | split | extract_lets | (with_reducible apply foldl_stillsk; intro _ _) | simp +zetaDelta )

theorem still_grid_execRcFault (l : LaneId) (count : Nat) (partner : Option Nat) (s : State) : Stays Still.grid (execRcFault l count partner s) s := by
  unfold execRcFault; repeat' (first | with_reducible rfl | (simp +zetaDelta ; done) | split | extract_lets | (with_reducible apply foldl_stillgrid; intro _ _) | simp +zetaDelta )

theorem still_svc_execRcFault (l : LaneId) (count : Nat) (partner : Option Nat) (s : State) : Stays Still.svc (execRcFault l count partner s) s := by
  unfold execRcFault; repeat' (first | with_reducible rfl | (simp +zetaDelta ; done) | split | extract_lets | (with_reducible apply foldl_stillsvc; intro _ _) | simp +zetaDelta )

theorem still_execRcQualified (l : LaneId) (count : Nat) (s : State) : Stays id (execRcQualified l count s) s := by
  unfold execRcQualified; repeat' (first | with_reducible rfl | (simp +zetaDelta; done) | (with_reducible apply updLane_goes; rotate_left; intro _) | split | extract_lets | (with_reducible apply foldl_still; intro _ _) | simp +zetaDelta)

theorem still_execRcQualTimeout (l : LaneId) (s : State) : Stays id (execRcQualTimeout l s) s := by
  unfold execRcQualTimeout; repeat' (first | with_reducible rfl | (simp +zetaDelta; done) | (simp +zetaDelta [hq2]; done) | (rename_i hq; have hq2 := (congrArg (fun x => (State.still (Prod.snd x))) hq).symm; clear hq; simp +zetaDelta at hq2) | (rename_i hq; have hq2 := (congrArg (fun x => (State.still (Prod.fst x))) hq).symm; clear hq; simp +zetaDelta at hq2) | (with_reducible apply updLane_goes; rotate_left; intro _) | split | (extract_lets) | (with_reducible apply foldl_still; intro _ _) | (simp +zetaDelta))

theorem still_execTcxoReturn (l : LaneId) (s : State) : Stays id (execTcxoReturn l s) s := by
  unfold execTcxoReturn; repeat' (first | with_reducible rfl | (simp +zetaDelta; done) | (with_reducible apply updLane_goes; rotate_left; intro _) | split | extract_lets | (with_reducible apply foldl_still; intro _ _) | simp +zetaDelta)

theorem still_execLockstepMismatch (l : LaneId) (s : State) : Stays id (execLockstepMismatch l s) s := by
  unfold execLockstepMismatch; repeat' (first | with_reducible rfl | (simp +zetaDelta; done) | (simp +zetaDelta [hq2]; done) | (rename_i hq; have hq2 := (congrArg (fun x => (State.still (Prod.snd x))) hq).symm; clear hq; simp +zetaDelta at hq2) | (rename_i hq; have hq2 := (congrArg (fun x => (State.still (Prod.fst x))) hq).symm; clear hq; simp +zetaDelta at hq2) | (with_reducible apply updLane_goes; rotate_left; intro _) | split | (extract_lets) | (with_reducible apply foldl_still; intro _ _) | (simp +zetaDelta))

theorem still_execVoltageStepDone (l : LaneId) (s : State) : Stays id (execVoltageStepDone l s) s := by
  unfold execVoltageStepDone; repeat' (first | with_reducible rfl | (simp +zetaDelta; done) | (with_reducible apply updLane_goes; rotate_left; intro _) | split | extract_lets | (with_reducible apply foldl_still; intro _ _) | simp +zetaDelta)

@[simp] theorem still_freqEdge (s : State) (l : LaneId) : (freqEdge s l).still = s.still := by
  unfold freqEdge; repeat' (first | with_reducible rfl | (simp +zetaDelta; done) | (with_reducible apply updLane_goes; rotate_left; intro _) | split | extract_lets | (with_reducible apply foldl_still; intro _ _) | simp +zetaDelta)

@[simp] theorem still_gateEdge (s : State) (l : LaneId) : (gateEdge s l).still = s.still := by
  unfold gateEdge; repeat' (first | with_reducible rfl | (simp +zetaDelta; done) | (with_reducible apply updLane_goes; rotate_left; intro _) | split | extract_lets | (with_reducible apply foldl_still; intro _ _) | simp +zetaDelta)

@[simp] theorem still_busyEdge (s : State) : (busyEdge s).still = s.still := by
  simp [busyEdge]

@[simp] theorem still_refuseAbove (s : State) (l : LaneId) (b : GateBlock) : (refuseAbove s l b).still = s.still := by
  unfold refuseAbove; repeat' (first | with_reducible rfl | (simp +zetaDelta ; done) | (with_reducible apply updLane_goes; rotate_left; intro _) | split | extract_lets | (with_reducible apply foldl_still; intro _ _) | simp +zetaDelta )

theorem still_execGateBusyTimeout (l : LaneId) (block : GateBlock) (s : State) : Stays id (execGateBusyTimeout l block s) s := by
  unfold execGateBusyTimeout; repeat' (first | with_reducible rfl | (simp +zetaDelta; done) | (with_reducible apply updLane_goes; rotate_left; intro _) | split | extract_lets | (with_reducible apply foldl_still; intro _ _) | simp +zetaDelta)

@[simp] theorem still_powerEvent (s : State) (p : PowerState) : (powerEvent s p).still = s.still := by
  simp [powerEvent]

@[simp] theorem still_enterShallow (hold4 : Bool) (s : State) (p : PowerState) : (enterShallow hold4 s p).still = s.still := by
  simp [enterShallow]

@[simp] theorem still_litEdge (s : State) : (litEdge s).still = s.still := by
  simp [litEdge]

@[simp] theorem still_parkEdge (s : State) (l : LaneId) : (parkEdge s l).still = s.still := by
  unfold parkEdge; repeat' (first | with_reducible rfl | (simp +zetaDelta ; done) | (with_reducible apply updLane_goes; rotate_left; intro _) | split | extract_lets | (with_reducible apply foldl_still; intro _ _) | simp +zetaDelta )

@[simp] theorem still_raisePoints (hold4 : Bool) (s : State) : (raisePoints hold4 s).still = s.still := by
  simp [raisePoints]

@[simp] theorem still_powerEdge (hold4 : Bool) (s : State) : (powerEdge hold4 s).still = s.still := by
  unfold powerEdge; repeat' (first | with_reducible rfl | (simp +zetaDelta; done) | (with_reducible apply updLane_goes; rotate_left; intro _) | split | extract_lets | (with_reducible apply foldl_still; intro _ _) | simp +zetaDelta)

@[simp] theorem still_grid_darkEntry (s : State) (dormant : State → State) (h : ∀ s, (dormant s).still.grid = s.still.grid) : (darkEntry s dormant).still.grid = s.still.grid := by
  unfold darkEntry; extract_lets s1 s2 s3 s4 s5 down s6
  have h3 : s3.still.grid = s.still.grid := by
    have : s2.still.grid = s.still.grid := by simp [s2, s1]
    rw [← this]; apply foldl_stillgrid; intro s x; split <;> simp
  have h5 : s5.still.grid = s.still.grid := by simp only [s5, s4, still_drainQueue, h, h3]
  have h6 : s6.still.grid = s5.still.grid := rfl
  exact h6.trans h5

@[simp] theorem still_imgs_darkEntry (s : State) (dormant : State → State) (h : ∀ s, (dormant s).still.imgs = s.still.imgs) : (darkEntry s dormant).still.imgs = s.still.imgs := by
  unfold darkEntry; extract_lets s1 s2 s3 s4 s5 down s6
  have h3 : s3.still.imgs = s.still.imgs := by
    simp only [s3]; rw [foldl_stillimgs] <;> [simp [s2, s1]; (intro _ _; split <;> simp)]
  have h5 : s5.still.imgs = s.still.imgs := by simp [s5, s4, h, h3]
  rw [updSt_still]; exact h5

@[simp] theorem still_svc_darkEntry (s : State) (dormant : State → State) (h : ∀ s, (dormant s).still.svc = s.still.svc) : (darkEntry s dormant).still.svc = s.still.svc := by
  unfold darkEntry; extract_lets s1 s2 s3 s4 s5 down s6
  have h3 : s3.still.svc = s.still.svc := by
    have : s2.still.svc = s.still.svc := by simp [s2, s1]
    rw [← this]; apply foldl_stillsvc; intro s x; split <;> simp
  have h5 : s5.still.svc = s.still.svc := by simp only [s5, s4, still_drainQueue, h, h3]
  have h6 : s6.still.svc = s5.still.svc := rfl
  exact h6.trans h5

/-! Commit -/

@[simp] theorem still_sealRecord (s : State) (code : Nat) (pay : List Byte) : (sealRecord s code pay).still = s.still := by
  simp [sealRecord]

@[simp] theorem still_changeLog (s : State) (target part cflags : Nat) (old new : List Byte) : (changeLog s target part cflags old new).still = s.still := by
  simp [changeLog]

@[simp] theorem still_sealEvent (s : State) (code target : Nat) : (sealEvent s code target).still = s.still := by
  simp [sealEvent]

@[simp] theorem still_writeSeal (s : State) (target code part cflags : Nat) (digest : List Byte) : (writeSeal s target code part cflags digest).still = s.still := by
  simp [writeSeal]

@[simp] theorem still_commitFail (s : State) (c : Commit) (r : Reject) : (commitFail s c r).still = s.still := by
  simp [commitFail]

@[simp] theorem still_commitOk (s : State) (c : Commit) (d0 tick : Nat) : (commitOk s c d0 tick).still = s.still := by
  simp [commitOk]

/-! Loops -/

@[simp] theorem still_sk_sinkGood (s : State) (l : LaneId) (r : CfgRec) (tripped : Bool) : (sinkGood s l r tripped).still.sk = s.still.sk := by
  unfold sinkGood; repeat' (first | with_reducible rfl | (simp +zetaDelta ; done) | split | extract_lets | (with_reducible apply foldl_stillsk; intro _ _) | simp +zetaDelta )

@[simp] theorem still_grid_sinkGood (s : State) (l : LaneId) (r : CfgRec) (tripped : Bool) : (sinkGood s l r tripped).still.grid = s.still.grid := by
  unfold sinkGood; repeat' (first | with_reducible rfl | (simp +zetaDelta ; done) | split | extract_lets | (with_reducible apply foldl_stillgrid; intro _ _) | simp +zetaDelta )

@[simp] theorem still_svc_sinkGood (s : State) (l : LaneId) (r : CfgRec) (tripped : Bool) : (sinkGood s l r tripped).still.svc = s.still.svc := by
  unfold sinkGood; repeat' (first | with_reducible rfl | (simp +zetaDelta ; done) | split | extract_lets | (with_reducible apply foldl_stillsvc; intro _ _) | simp +zetaDelta )

@[simp] theorem still_sk_writeSink (s : State) (l : LaneId) (r : CfgRec) (raw : Nat) (tripped : Bool) : (writeSink s l r raw tripped).still.sk = s.still.sk := by
  unfold writeSink; repeat' (first | with_reducible rfl | (simp +zetaDelta; done) |  split | extract_lets | (with_reducible apply foldl_stillsk; intro _ _) | simp +zetaDelta)

@[simp] theorem still_grid_writeSink (s : State) (l : LaneId) (r : CfgRec) (raw : Nat) (tripped : Bool) : (writeSink s l r raw tripped).still.grid = s.still.grid := by
  unfold writeSink; repeat' (first | with_reducible rfl | (simp +zetaDelta; done) |  split | extract_lets | (with_reducible apply foldl_stillgrid; intro _ _) | simp +zetaDelta)

@[simp] theorem still_svc_writeSink (s : State) (l : LaneId) (r : CfgRec) (raw : Nat) (tripped : Bool) : (writeSink s l r raw tripped).still.svc = s.still.svc := by
  unfold writeSink; repeat' (first | with_reducible rfl | (simp +zetaDelta; done) |  split | extract_lets | (with_reducible apply foldl_stillsvc; intro _ _) | simp +zetaDelta)

@[simp] theorem still_loopReport (s : State) (l : LaneId) (n : Nat) (e : LoopEv) : (loopReport s l n e).still = s.still := by
  unfold loopReport; repeat' (first | rfl | (simp; done) | split)

@[simp] theorem still_setLoopRec (s : State) (r : CfgRec) : (setLoopRec s r).still = s.still := by
  rfl

@[simp] theorem still_paramRecords (s : State) (old new : CfgRec) (ws : List (Nat × Nat)) : (paramRecords s old new ws).still = s.still := by
  simp [paramRecords]

@[simp] theorem still_applyParam (s : State) (q : LoopAsk) : (applyParam s q).still = s.still := by
  unfold applyParam; repeat' (first | with_reducible rfl | (simp +zetaDelta; done) | (with_reducible apply updLane_goes; rotate_left; intro _) | split | extract_lets | (with_reducible apply foldl_still; intro _ _) | simp +zetaDelta)

@[simp] theorem still_applyParams (s : State) (n : Nat) : (applyParams s n).still = s.still := by
  simp [applyParams]

@[simp] theorem still_answerMode (s : State) (n : Nat) (o : LoopAsk × Bool × Nat) : (answerMode s n o).still = s.still := by
  simp [answerMode]

@[simp] theorem still_sk_loopPass (s0 : State) (l : LaneId) (n : Nat) : (loopPass s0 l n).still.sk = s0.still.sk := by
  unfold loopPass; (repeat' (first | with_reducible rfl | (simp +zetaDelta; done) | (simp +zetaDelta [hq2]; done) | (rename_i hq; have hq2 := (congrArg (fun x => (State.still (Prod.snd x)).sk) hq).symm; clear hq; simp +zetaDelta at hq2) | (rename_i hq; have hq2 := (congrArg (fun x => (State.still (Prod.fst x)).sk) hq).symm; clear hq; simp +zetaDelta at hq2) | split | (extract_lets) | (with_reducible apply foldl_stillsk; intro _ _) | (with_reducible apply foldl_stillsk_fst; intro _ _) | (with_reducible apply foldl_stillsk_snd; intro _ _) | (simp +zetaDelta)))

@[simp] theorem still_grid_loopPass (s0 : State) (l : LaneId) (n : Nat) : (loopPass s0 l n).still.grid = s0.still.grid := by
  unfold loopPass; (repeat' (first | with_reducible rfl | (simp +zetaDelta; done) | (simp +zetaDelta [hq2]; done) | (rename_i hq; have hq2 := (congrArg (fun x => (State.still (Prod.snd x)).grid) hq).symm; clear hq; simp +zetaDelta at hq2) | (rename_i hq; have hq2 := (congrArg (fun x => (State.still (Prod.fst x)).grid) hq).symm; clear hq; simp +zetaDelta at hq2) | split | (extract_lets) | (with_reducible apply foldl_stillgrid; intro _ _) | (with_reducible apply foldl_stillgrid_fst; intro _ _) | (with_reducible apply foldl_stillgrid_snd; intro _ _) | (simp +zetaDelta)))

@[simp] theorem still_svc_loopPass (s0 : State) (l : LaneId) (n : Nat) : (loopPass s0 l n).still.svc = s0.still.svc := by
  unfold loopPass; (repeat' (first | with_reducible rfl | (simp +zetaDelta; done) | (simp +zetaDelta [hq2]; done) | (rename_i hq; have hq2 := (congrArg (fun x => (State.still (Prod.snd x)).svc) hq).symm; clear hq; simp +zetaDelta at hq2) | (rename_i hq; have hq2 := (congrArg (fun x => (State.still (Prod.fst x)).svc) hq).symm; clear hq; simp +zetaDelta at hq2) | split | (extract_lets) | (with_reducible apply foldl_stillsvc; intro _ _) | (with_reducible apply foldl_stillsvc_fst; intro _ _) | (with_reducible apply foldl_stillsvc_snd; intro _ _) | (simp +zetaDelta)))

@[simp] theorem still_sk_substSink (s : State) (l : LaneId) (r : CfgRec) : (substSink s l r).still.sk = s.still.sk := by
  unfold substSink; repeat' (first | with_reducible rfl | (simp +zetaDelta ; done) | split | extract_lets | (with_reducible apply foldl_stillsk; intro _ _) | simp +zetaDelta )

@[simp] theorem still_grid_substSink (s : State) (l : LaneId) (r : CfgRec) : (substSink s l r).still.grid = s.still.grid := by
  unfold substSink; repeat' (first | with_reducible rfl | (simp +zetaDelta ; done) | split | extract_lets | (with_reducible apply foldl_stillgrid; intro _ _) | simp +zetaDelta )

@[simp] theorem still_svc_substSink (s : State) (l : LaneId) (r : CfgRec) : (substSink s l r).still.svc = s.still.svc := by
  unfold substSink; repeat' (first | with_reducible rfl | (simp +zetaDelta ; done) | split | extract_lets | (with_reducible apply foldl_stillsvc; intro _ _) | simp +zetaDelta )

@[simp] theorem still_sk_publishLoop (s : State) (l : LaneId) (r : CfgRec) : (publishLoop s l r).still.sk = s.still.sk := by
  unfold publishLoop; repeat' (first | with_reducible rfl | (simp +zetaDelta ; done) | split | extract_lets | (with_reducible apply foldl_stillsk; intro _ _) | simp +zetaDelta )

@[simp] theorem still_grid_publishLoop (s : State) (l : LaneId) (r : CfgRec) : (publishLoop s l r).still.grid = s.still.grid := by
  unfold publishLoop; repeat' (first | with_reducible rfl | (simp +zetaDelta ; done) | split | extract_lets | (with_reducible apply foldl_stillgrid; intro _ _) | simp +zetaDelta )

@[simp] theorem still_svc_publishLoop (s : State) (l : LaneId) (r : CfgRec) : (publishLoop s l r).still.svc = s.still.svc := by
  unfold publishLoop; repeat' (first | with_reducible rfl | (simp +zetaDelta ; done) | split | extract_lets | (with_reducible apply foldl_stillsvc; intro _ _) | simp +zetaDelta )

@[simp] theorem still_sk_publishLoops (s : State) (l : LaneId) : (publishLoops s l).still.sk = s.still.sk := by
  simp [publishLoops]

@[simp] theorem still_grid_publishLoops (s : State) (l : LaneId) : (publishLoops s l).still.grid = s.still.grid := by
  simp [publishLoops]

@[simp] theorem still_svc_publishLoops (s : State) (l : LaneId) : (publishLoops s l).still.svc = s.still.svc := by
  simp [publishLoops]

@[simp] theorem still_refuseModes (s : State) : (refuseModes s).still = s.still := by
  simp [refuseModes]

@[simp] theorem still_sk_loopPasses (s : State) (l : LaneId) (late : Option Nat) : (loopPasses s l late).still.sk = s.still.sk := by
  unfold loopPasses; repeat' (first | rfl | (simp; done) | split)

@[simp] theorem still_grid_loopPasses (s : State) (l : LaneId) (late : Option Nat) : (loopPasses s l late).still.grid = s.still.grid := by
  unfold loopPasses; repeat' (first | rfl | (simp; done) | split)

@[simp] theorem still_svc_loopPasses (s : State) (l : LaneId) (late : Option Nat) : (loopPasses s l late).still.svc = s.still.svc := by
  unfold loopPasses; repeat' (first | rfl | (simp; done) | split)

@[simp] theorem still_startLoop (s : State) (l : LaneId) (r : CfgRec) : (startLoop s l r).still = s.still := by
  unfold startLoop; repeat' (first | with_reducible rfl | (simp +zetaDelta; done) | (with_reducible apply updLane_goes; rotate_left; intro _) | split | extract_lets | (with_reducible apply foldl_still; intro _ _) | simp +zetaDelta)

@[simp] theorem still_startLoops (s : State) (l : LaneId) : (startLoops s l).still = s.still := by
  simp [startLoops]

@[simp] theorem still_stopLoop (s : State) (l : LaneId) (r : CfgRec) : (stopLoop s l r).still = s.still := by
  unfold stopLoop; repeat' (first | with_reducible rfl | (simp +zetaDelta; done) | (with_reducible apply updLane_goes; rotate_left; intro _) | split | extract_lets | (with_reducible apply foldl_still; intro _ _) | simp +zetaDelta)

@[simp] theorem still_stopLoops (s : State) (l : LaneId) : (stopLoops s l).still = s.still := by
  simp [stopLoops]

@[simp] theorem still_sk_loopApply (old new : List CfgRec) (s : State) (l : LaneId) : (loopApply old new s l).still.sk = s.still.sk := by
  unfold loopApply; repeat' (first | with_reducible rfl | (simp +zetaDelta; done) |  split | extract_lets | (with_reducible apply foldl_stillsk; intro _ _) | simp +zetaDelta)

@[simp] theorem still_grid_loopApply (old new : List CfgRec) (s : State) (l : LaneId) : (loopApply old new s l).still.grid = s.still.grid := by
  unfold loopApply; repeat' (first | with_reducible rfl | (simp +zetaDelta; done) |  split | extract_lets | (with_reducible apply foldl_stillgrid; intro _ _) | simp +zetaDelta)

@[simp] theorem still_svc_loopApply (old new : List CfgRec) (s : State) (l : LaneId) : (loopApply old new s l).still.svc = s.still.svc := by
  unfold loopApply; repeat' (first | with_reducible rfl | (simp +zetaDelta; done) |  split | extract_lets | (with_reducible apply foldl_stillsvc; intro _ _) | simp +zetaDelta)

theorem still_execLoopMode (p : Part) (s : State) : Stays id (execLoopMode p s) s := by
  unfold execLoopMode
  refine still_serve _ _ _ _ (fun ws => ?_)
  try refine still_needLock _ _ _ _ ?_
  try refine still_needOperator _ _ _ _ ?_
  simp only []
  repeat' (first | with_reducible rfl | (simp; done) | split)

theorem still_execLoopParam (p : Part) (s : State) : Stays id (execLoopParam p s) s := by
  unfold execLoopParam
  refine still_serve _ _ _ _ (fun ws => ?_)
  try refine still_needLock _ _ _ _ ?_
  try refine still_needOperator _ _ _ _ ?_
  simp only []
  repeat' (first | with_reducible rfl | (simp; done) | split)

@[simp] theorem still_sk_loopRow (s : State) (l : LaneId) (n cause : Nat) : (loopRow s l n cause).still.sk = s.still.sk := by
  unfold loopRow; split
  · rfl
  · split
    · rfl
    · extract_lets s1 s2 c
      have h1 : s1.still.sk = s.still.sk := by
        simp only [s1]; split
        · cases State.cfgRec s 0x0901 _ <;> simp
        · rfl
      split
      · simp only [s2, still_sk_loopPass]; exact h1
      · rfl

@[simp] theorem still_grid_loopRow (s : State) (l : LaneId) (n cause : Nat) : (loopRow s l n cause).still.grid = s.still.grid := by
  unfold loopRow; split
  · rfl
  · split
    · rfl
    · extract_lets s1 s2 c
      have h1 : s1.still.grid = s.still.grid := by
        simp only [s1]; split
        · cases State.cfgRec s 0x0901 _ <;> simp
        · rfl
      split
      · simp only [s2, still_grid_loopPass]; exact h1
      · rfl

@[simp] theorem still_svc_loopRow (s : State) (l : LaneId) (n cause : Nat) : (loopRow s l n cause).still.svc = s.still.svc := by
  unfold loopRow; split
  · rfl
  · split
    · rfl
    · extract_lets s1 s2 c
      have h1 : s1.still.svc = s.still.svc := by
        simp only [s1]; split
        · cases State.cfgRec s 0x0901 _ <;> simp
        · rfl
      split
      · simp only [s2, still_svc_loopPass]; exact h1
      · rfl

theorem still_sk_execLoopQbadExpired (l : LaneId) (n : Fin 128) (s : State) : Stays Still.sk (execLoopQbadExpired l n s) s := by
  simp [execLoopQbadExpired]

theorem still_grid_execLoopQbadExpired (l : LaneId) (n : Fin 128) (s : State) : Stays Still.grid (execLoopQbadExpired l n s) s := by
  simp [execLoopQbadExpired]

theorem still_svc_execLoopQbadExpired (l : LaneId) (n : Fin 128) (s : State) : Stays Still.svc (execLoopQbadExpired l n s) s := by
  simp [execLoopQbadExpired]

theorem still_sk_execLoopFeExpired (l : LaneId) (n : Fin 128) (s : State) : Stays Still.sk (execLoopFeExpired l n s) s := by
  simp [execLoopFeExpired]

theorem still_grid_execLoopFeExpired (l : LaneId) (n : Fin 128) (s : State) : Stays Still.grid (execLoopFeExpired l n s) s := by
  simp [execLoopFeExpired]

theorem still_svc_execLoopFeExpired (l : LaneId) (n : Fin 128) (s : State) : Stays Still.svc (execLoopFeExpired l n s) s := by
  simp [execLoopFeExpired]

end Sys2Proof.Machine
end

