-- ==== Sys2Proof/Laws/Still3.lean ====
section
/-! SUPPORT. What leaves SK-1, the tick grid, the process images or the service domain's objects alone: Mx, SafetyKernel, Islands, Startup, Power, Wide, Window, Rtc.
One lemma per operation, and one per row that is no writer of them. -/

namespace Sys2Proof.Machine

/-! Mx -/

@[simp] theorem still_setEnc (s : State) (n : Nat) (x : Enc) : (setEnc s n x).still = s.still := by
  rfl

@[simp] theorem still_setRs (s : State) (p : Nat) (x : Rs422) : (setRs s p x).still = s.still := by
  rfl

theorem still_execEncoderEdge (n : Fin 8) (a b : Bool) (dt : Nat) (tooFast : Bool) (s : State) : Stays id (execEncoderEdge n a b dt tooFast s) s := by
  unfold execEncoderEdge; repeat' (first | rfl | (simp; done) | split)

@[simp] theorem still_encEvent (s : State) (n code : Nat) : (encEvent s n code).still = s.still := by
  simp [encEvent]

@[simp] theorem still_rsEvent (s : State) (p code : Nat) : (rsEvent s p code).still = s.still := by
  simp [rsEvent]

theorem still_execEncoderZEdge (n : Fin 8) (s : State) : Stays id (execEncoderZEdge n s) s := by
  unfold execEncoderZEdge; repeat' (first | rfl | (simp; done) | split)

@[simp] theorem still_encEdge (s : State) (n : Nat) (wire : Bool) : (encEdge s n wire).1.still = s.still := by
  unfold encEdge; repeat' (first | rfl | (simp; done) | split)

theorem still_execSsiFrameComplete (n : Fin 8) (ready : Bool) (bits : List Bool) (monoflop : Bool) (s : State) : Stays id (execSsiFrameComplete n ready bits monoflop s) s := by
  unfold execSsiFrameComplete; repeat' (first | rfl | (simp; done) | split)

theorem still_execRs422Sentence (port : Fin 4) (text : List Byte) (framingError : Bool) (dt : Nat) (s : State) : Stays id (execRs422Sentence port text framingError dt s) s := by
  unfold execRs422Sentence; repeat' (first | with_reducible rfl | (simp +zetaDelta; done) | (with_reducible apply updLane_goes; rotate_left; intro _) | split | extract_lets | (with_reducible apply foldl_still; intro _ _) | simp +zetaDelta)

@[simp] theorem still_rsTransmit (s : State) (p : Nat) (r : CfgRec) : (rsTransmit s p r).still = s.still := by
  unfold rsTransmit; repeat' (first | with_reducible rfl | (simp +zetaDelta; done) | (with_reducible apply updLane_goes; rotate_left; intro _) | split | extract_lets | (with_reducible apply foldl_still; intro _ _) | simp +zetaDelta)

theorem still_execRs422TxDone (port : Fin 4) (s : State) : Stays id (execRs422TxDone port s) s := by
  unfold execRs422TxDone; repeat' (first | with_reducible rfl | (simp +zetaDelta; done) | (with_reducible apply updLane_goes; rotate_left; intro _) | split | extract_lets | (with_reducible apply foldl_still; intro _ _) | simp +zetaDelta)

@[simp] theorem still_rsEdge (s : State) (p : Nat) (line : Bool) (m : Mem) : (rsEdge s p line m).1.still = s.still := by
  unfold rsEdge; repeat' (first | rfl | (simp; done) | split)

@[simp] theorem still_scEdge (s : State) (m : Mem) : (scEdge s m).1.still = s.still := by
  unfold scEdge; repeat' (first | with_reducible rfl | (simp +zetaDelta; done) | (with_reducible apply updLane_goes; rotate_left; intro _) | split | extract_lets | (with_reducible apply foldl_still; intro _ _) | simp +zetaDelta)

@[simp] theorem still_mxEdge (s : State) (wire line : List Bool) (temp : Int) (m : Mem) : (mxEdge s wire line temp m).1.still = s.still := by
  unfold mxEdge; extract_lets m1
  generalize hx : List.foldl _ (s, m1) (List.range 8) = x
  have h1 : x.1.still = s.still := by
    rw [← hx]; refine (foldl_still_fst _ _ _ ?_); intro p n; simp
  obtain ⟨s1, m2⟩ := x
  simp only at h1 ⊢
  generalize hy : List.foldl _ (s1, m2) (List.range 4) = y
  have h2 : y.1.still = s1.still := by
    rw [← hy]; refine (foldl_still_fst _ _ _ ?_); intro p n; simp
  simp [h1, h2]

@[simp] theorem still_sk_mxApply (old new : List CfgRec) (s : State) : (mxApply old new s).still.sk = s.still.sk := by
  unfold mxApply; repeat' (first | with_reducible rfl | (simp +zetaDelta ; done) | split | extract_lets | (with_reducible apply foldl_stillsk; intro _ _) | simp +zetaDelta )

@[simp] theorem still_grid_mxApply (old new : List CfgRec) (s : State) : (mxApply old new s).still.grid = s.still.grid := by
  unfold mxApply; repeat' (first | with_reducible rfl | (simp +zetaDelta ; done) | split | extract_lets | (with_reducible apply foldl_stillgrid; intro _ _) | simp +zetaDelta )

@[simp] theorem still_svc_mxApply (old new : List CfgRec) (s : State) : (mxApply old new s).still.svc = s.still.svc := by
  unfold mxApply; repeat' (first | with_reducible rfl | (simp +zetaDelta ; done) | split | extract_lets | (with_reducible apply foldl_stillsvc; intro _ _) | simp +zetaDelta )

/-! SafetyKernel -/

@[simp] theorem still_grid_State_updPair (s : State) (p : Nat) (f : SkPair → SkPair) : (State.updPair s p f).still.grid = s.still.grid := by
  unfold State.updPair; repeat' (first | rfl | (simp; done) | split)

@[simp] theorem still_imgs_State_updPair (s : State) (p : Nat) (f : SkPair → SkPair) : (State.updPair s p f).still.imgs = s.still.imgs := by
  unfold State.updPair; repeat' (first | rfl | (simp; done) | split)

@[simp] theorem still_svc_State_updPair (s : State) (p : Nat) (f : SkPair → SkPair) : (State.updPair s p f).still.svc = s.still.svc := by
  unfold State.updPair; repeat' (first | rfl | (simp; done) | split)

@[simp] theorem still_grid_State_updOut (s : State) (o : Nat) (f : SkOut → SkOut) : (State.updOut s o f).still.grid = s.still.grid := by
  unfold State.updOut; repeat' (first | rfl | (simp; done) | split)

@[simp] theorem still_imgs_State_updOut (s : State) (o : Nat) (f : SkOut → SkOut) : (State.updOut s o f).still.imgs = s.still.imgs := by
  unfold State.updOut; repeat' (first | rfl | (simp; done) | split)

@[simp] theorem still_svc_State_updOut (s : State) (o : Nat) (f : SkOut → SkOut) : (State.updOut s o f).still.svc = s.still.svc := by
  unfold State.updOut; repeat' (first | rfl | (simp; done) | split)

@[simp] theorem still_grid_State_updConn (s : State) (c : Nat) (f : SkConn → SkConn) : (State.updConn s c f).still.grid = s.still.grid := by
  unfold State.updConn; repeat' (first | rfl | (simp; done) | split)

@[simp] theorem still_imgs_State_updConn (s : State) (c : Nat) (f : SkConn → SkConn) : (State.updConn s c f).still.imgs = s.still.imgs := by
  unfold State.updConn; repeat' (first | rfl | (simp; done) | split)

@[simp] theorem still_svc_State_updConn (s : State) (c : Nat) (f : SkConn → SkConn) : (State.updConn s c f).still.svc = s.still.svc := by
  unfold State.updConn; repeat' (first | rfl | (simp; done) | split)

@[simp] theorem still_skEvent (s : State) (src code obj : Nat) (pay : List Byte := []) (limited : Bool := true) : (skEvent s src code obj pay limited).still = s.still := by
  unfold skEvent; repeat' (first | rfl | (simp; done) | split)

@[simp] theorem still_grid_outputsOff (s : State) : (outputsOff s).still.grid = s.still.grid := by
  unfold outputsOff; repeat' (first | rfl | (simp; done) | split)

@[simp] theorem still_imgs_outputsOff (s : State) : (outputsOff s).still.imgs = s.still.imgs := by
  unfold outputsOff; repeat' (first | rfl | (simp; done) | split)

@[simp] theorem still_svc_outputsOff (s : State) : (outputsOff s).still.svc = s.still.svc := by
  unfold outputsOff; repeat' (first | rfl | (simp; done) | split)

@[simp] theorem still_grid_enterSk (s : State) (ph : SkPhase) (pay : List Byte := []) : (enterSk s ph pay).still.grid = s.still.grid := by
  unfold enterSk; repeat' (first | rfl | (simp; done) | split)

@[simp] theorem still_imgs_enterSk (s : State) (ph : SkPhase) (pay : List Byte := []) : (enterSk s ph pay).still.imgs = s.still.imgs := by
  unfold enterSk; repeat' (first | rfl | (simp; done) | split)

@[simp] theorem still_svc_enterSk (s : State) (ph : SkPhase) (pay : List Byte := []) : (enterSk s ph pay).still.svc = s.still.svc := by
  unfold enterSk; repeat' (first | rfl | (simp; done) | split)

@[simp] theorem still_grid_safeStop (s : State) (code : Nat) : (safeStop s code).still.grid = s.still.grid := by
  unfold safeStop; repeat' (first | with_reducible rfl | (simp +zetaDelta; done) |  split | extract_lets | (with_reducible apply foldl_stillgrid; intro _ _) | simp +zetaDelta)

@[simp] theorem still_imgs_safeStop (s : State) (code : Nat) : (safeStop s code).still.imgs = s.still.imgs := by
  unfold safeStop; repeat' (first | with_reducible rfl | (simp +zetaDelta; done) | (with_reducible apply updLane_goes2; rotate_left; intro _) | split | extract_lets | (with_reducible apply foldl_stillimgs; intro _ _) | simp +zetaDelta)

@[simp] theorem still_svc_safeStop (s : State) (code : Nat) : (safeStop s code).still.svc = s.still.svc := by
  unfold safeStop; repeat' (first | with_reducible rfl | (simp +zetaDelta; done) |  split | extract_lets | (with_reducible apply foldl_stillsvc; intro _ _) | simp +zetaDelta)

theorem still_grid_execSkKernelFault (code : Nat) (s : State) : Stays Still.grid (execSkKernelFault code s) s := by
  unfold execSkKernelFault; repeat' (first | rfl | (simp; done) | split)

theorem still_imgs_execSkKernelFault (code : Nat) (s : State) : Stays Still.imgs (execSkKernelFault code s) s := by
  unfold execSkKernelFault; repeat' (first | rfl | (simp; done) | split)

theorem still_svc_execSkKernelFault (code : Nat) (s : State) : Stays Still.svc (execSkKernelFault code s) s := by
  unfold execSkKernelFault; repeat' (first | rfl | (simp; done) | split)

theorem still_grid_execSkPeriodicSelftest (ok : Bool) (code : Nat) (s : State) : Stays Still.grid (execSkPeriodicSelftest ok code s) s := by
  unfold execSkPeriodicSelftest; repeat' (first | rfl | (simp; done) | split)

theorem still_imgs_execSkPeriodicSelftest (ok : Bool) (code : Nat) (s : State) : Stays Still.imgs (execSkPeriodicSelftest ok code s) s := by
  unfold execSkPeriodicSelftest; repeat' (first | rfl | (simp; done) | split)

theorem still_svc_execSkPeriodicSelftest (ok : Bool) (code : Nat) (s : State) : Stays Still.svc (execSkPeriodicSelftest ok code s) s := by
  unfold execSkPeriodicSelftest; repeat' (first | rfl | (simp; done) | split)

theorem still_grid_execSkSelftestDone (ok : Bool) (code : Nat) (s : State) : Stays Still.grid (execSkSelftestDone ok code s) s := by
  unfold execSkSelftestDone; repeat' (first | with_reducible rfl | (simp +zetaDelta; done) |  split | extract_lets | (with_reducible apply foldl_stillgrid; intro _ _) | simp +zetaDelta)

theorem still_imgs_execSkSelftestDone (ok : Bool) (code : Nat) (s : State) : Stays Still.imgs (execSkSelftestDone ok code s) s := by
  unfold execSkSelftestDone; repeat' (first | with_reducible rfl | (simp +zetaDelta; done) | (with_reducible apply updLane_goes2; rotate_left; intro _) | split | extract_lets | (with_reducible apply foldl_stillimgs; intro _ _) | simp +zetaDelta)

theorem still_svc_execSkSelftestDone (ok : Bool) (code : Nat) (s : State) : Stays Still.svc (execSkSelftestDone ok code s) s := by
  unfold execSkSelftestDone; repeat' (first | with_reducible rfl | (simp +zetaDelta; done) |  split | extract_lets | (with_reducible apply foldl_stillsvc; intro _ _) | simp +zetaDelta)

@[simp] theorem still_grid_lockPairs (s : State) : (lockPairs s).still.grid = s.still.grid := by
  unfold lockPairs; repeat' (first | rfl | (simp; done) | split)

@[simp] theorem still_imgs_lockPairs (s : State) : (lockPairs s).still.imgs = s.still.imgs := by
  unfold lockPairs; repeat' (first | rfl | (simp; done) | split)

@[simp] theorem still_svc_lockPairs (s : State) : (lockPairs s).still.svc = s.still.svc := by
  unfold lockPairs; repeat' (first | rfl | (simp; done) | split)

theorem still_grid_execSkImageForwarded (s : State) : Stays Still.grid (execSkImageForwarded s) s := by
  unfold execSkImageForwarded; repeat' (first | rfl | (simp; done) | split)

theorem still_imgs_execSkImageForwarded (s : State) : Stays Still.imgs (execSkImageForwarded s) s := by
  unfold execSkImageForwarded; repeat' (first | rfl | (simp; done) | split)

theorem still_svc_execSkImageForwarded (s : State) : Stays Still.svc (execSkImageForwarded s) s := by
  unfold execSkImageForwarded; repeat' (first | rfl | (simp; done) | split)

@[simp] theorem still_grid_startConns (s : State) : (startConns s).still.grid = s.still.grid := by
  unfold startConns; repeat' (first | rfl | (simp; done) | split)

@[simp] theorem still_imgs_startConns (s : State) : (startConns s).still.imgs = s.still.imgs := by
  unfold startConns; repeat' (first | rfl | (simp; done) | split)

@[simp] theorem still_svc_startConns (s : State) : (startConns s).still.svc = s.still.svc := by
  unfold startConns; repeat' (first | rfl | (simp; done) | split)

@[simp] theorem still_grid_enterRun (s : State) (img : List Byte) : (enterRun s img).still.grid = s.still.grid := by
  unfold enterRun; repeat' (first | with_reducible rfl | (simp +zetaDelta; done) |  split | extract_lets | (with_reducible apply foldl_stillgrid; intro _ _) | simp +zetaDelta)

@[simp] theorem still_imgs_enterRun (s : State) (img : List Byte) : (enterRun s img).still.imgs = s.still.imgs := by
  unfold enterRun; repeat' (first | with_reducible rfl | (simp +zetaDelta; done) | (with_reducible apply updLane_goes2; rotate_left; intro _) | split | extract_lets | (with_reducible apply foldl_stillimgs; intro _ _) | simp +zetaDelta)

@[simp] theorem still_svc_enterRun (s : State) (img : List Byte) : (enterRun s img).still.svc = s.still.svc := by
  unfold enterRun; repeat' (first | with_reducible rfl | (simp +zetaDelta; done) |  split | extract_lets | (with_reducible apply foldl_stillsvc; intro _ _) | simp +zetaDelta)

@[simp] theorem still_grid_verifyFails (s : State) (r : Reject) : (verifyFails s r).still.grid = s.still.grid := by
  unfold verifyFails; repeat' (first | with_reducible rfl | (simp +zetaDelta; done) |  split | extract_lets | (with_reducible apply foldl_stillgrid; intro _ _) | simp +zetaDelta)

@[simp] theorem still_imgs_verifyFails (s : State) (r : Reject) : (verifyFails s r).still.imgs = s.still.imgs := by
  unfold verifyFails; repeat' (first | with_reducible rfl | (simp +zetaDelta; done) | (with_reducible apply updLane_goes2; rotate_left; intro _) | split | extract_lets | (with_reducible apply foldl_stillimgs; intro _ _) | simp +zetaDelta)

@[simp] theorem still_svc_verifyFails (s : State) (r : Reject) : (verifyFails s r).still.svc = s.still.svc := by
  unfold verifyFails; repeat' (first | with_reducible rfl | (simp +zetaDelta; done) |  split | extract_lets | (with_reducible apply foldl_stillsvc; intro _ _) | simp +zetaDelta)

@[simp] theorem still_grid_verifyPasses (s : State) (img digest : List Byte) (d0 : Nat) : (verifyPasses s img digest d0).still.grid = s.still.grid := by
  unfold verifyPasses; repeat' (first | with_reducible rfl | (simp +zetaDelta; done) |  split | extract_lets | (with_reducible apply foldl_stillgrid; intro _ _) | simp +zetaDelta)

@[simp] theorem still_imgs_verifyPasses (s : State) (img digest : List Byte) (d0 : Nat) : (verifyPasses s img digest d0).still.imgs = s.still.imgs := by
  unfold verifyPasses; repeat' (first | with_reducible rfl | (simp +zetaDelta; done) | (with_reducible apply updLane_goes2; rotate_left; intro _) | split | extract_lets | (with_reducible apply foldl_stillimgs; intro _ _) | simp +zetaDelta)

@[simp] theorem still_svc_verifyPasses (s : State) (img digest : List Byte) (d0 : Nat) : (verifyPasses s img digest d0).still.svc = s.still.svc := by
  unfold verifyPasses; repeat' (first | with_reducible rfl | (simp +zetaDelta; done) |  split | extract_lets | (with_reducible apply foldl_stillsvc; intro _ _) | simp +zetaDelta)

@[simp] theorem still_grid_sealCheck (s : State) (img : List Byte) : (sealCheck s img).still.grid = s.still.grid := by
  unfold sealCheck; repeat' (first | with_reducible rfl | (simp +zetaDelta; done) | (simp +zetaDelta [hq2]; done) | (rename_i hq; have hq2 := (congrArg (fun x => (State.still (Prod.snd x)).grid) hq).symm; clear hq; simp +zetaDelta at hq2) | (rename_i hq; have hq2 := (congrArg (fun x => (State.still (Prod.fst x)).grid) hq).symm; clear hq; simp +zetaDelta at hq2) | split | (extract_lets) | (with_reducible apply foldl_stillgrid; intro _ _) | (simp +zetaDelta))

@[simp] theorem still_imgs_sealCheck (s : State) (img : List Byte) : (sealCheck s img).still.imgs = s.still.imgs := by
  unfold sealCheck; repeat' (first | with_reducible rfl | (simp +zetaDelta; done) | (with_reducible apply updLane_goes2; rotate_left; intro _) | split | extract_lets | (with_reducible apply foldl_stillimgs; intro _ _) | simp +zetaDelta)

@[simp] theorem still_svc_sealCheck (s : State) (img : List Byte) : (sealCheck s img).still.svc = s.still.svc := by
  unfold sealCheck; repeat' (first | with_reducible rfl | (simp +zetaDelta; done) | (simp +zetaDelta [hq2]; done) | (rename_i hq; have hq2 := (congrArg (fun x => (State.still (Prod.snd x)).svc) hq).symm; clear hq; simp +zetaDelta at hq2) | (rename_i hq; have hq2 := (congrArg (fun x => (State.still (Prod.fst x)).svc) hq).symm; clear hq; simp +zetaDelta at hq2) | split | (extract_lets) | (with_reducible apply foldl_stillsvc; intro _ _) | (simp +zetaDelta))

theorem still_grid_execSkVerifyDone (execOk : Bool) (s : State) : Stays Still.grid (execSkVerifyDone execOk s) s := by
  unfold execSkVerifyDone; repeat' (first | rfl | (simp; done) | split)

theorem still_imgs_execSkVerifyDone (execOk : Bool) (s : State) : Stays Still.imgs (execSkVerifyDone execOk s) s := by
  unfold execSkVerifyDone; repeat' (first | rfl | (simp; done) | split)

theorem still_svc_execSkVerifyDone (execOk : Bool) (s : State) : Stays Still.svc (execSkVerifyDone execOk s) s := by
  unfold execSkVerifyDone; repeat' (first | rfl | (simp; done) | split)

@[simp] theorem still_grid_skDormant (s : State) : (skDormant s).still.grid = s.still.grid := by
  unfold skDormant; repeat' (first | rfl | (simp; done) | split)

@[simp] theorem still_imgs_skDormant (s : State) : (skDormant s).still.imgs = s.still.imgs := by
  unfold skDormant; repeat' (first | rfl | (simp; done) | split)

@[simp] theorem still_svc_skDormant (s : State) : (skDormant s).still.svc = s.still.svc := by
  unfold skDormant; repeat' (first | rfl | (simp; done) | split)

@[simp] theorem still_grid_skWake (s : State) : (skWake s).still.grid = s.still.grid := by
  unfold skWake; repeat' (first | with_reducible rfl | (simp +zetaDelta; done) | (simp +zetaDelta [hq2]; done) | (rename_i hq; have hq2 := (congrArg (fun x => (State.still (Prod.snd x)).grid) hq).symm; clear hq; simp +zetaDelta at hq2) | (rename_i hq; have hq2 := (congrArg (fun x => (State.still (Prod.fst x)).grid) hq).symm; clear hq; simp +zetaDelta at hq2) | split | (extract_lets) | (with_reducible apply foldl_stillgrid; intro _ _) | (simp +zetaDelta))

@[simp] theorem still_imgs_skWake (s : State) : (skWake s).still.imgs = s.still.imgs := by
  unfold skWake; repeat' (first | rfl | (simp; done) | split)

@[simp] theorem still_svc_skWake (s : State) : (skWake s).still.svc = s.still.svc := by
  unfold skWake; repeat' (first | with_reducible rfl | (simp +zetaDelta; done) | (simp +zetaDelta [hq2]; done) | (rename_i hq; have hq2 := (congrArg (fun x => (State.still (Prod.snd x)).svc) hq).symm; clear hq; simp +zetaDelta at hq2) | (rename_i hq; have hq2 := (congrArg (fun x => (State.still (Prod.fst x)).svc) hq).symm; clear hq; simp +zetaDelta at hq2) | split | (extract_lets) | (with_reducible apply foldl_stillsvc; intro _ _) | (simp +zetaDelta))

@[simp] theorem still_proofEvent (s : State) (p code : Nat) (pay : List Byte := []) : (proofEvent s p code pay).still = s.still := by
  unfold proofEvent; repeat' (first | rfl | (simp; done) | split)

@[simp] theorem still_grid_armProof (s : State) (p : Nat) : (armProof s p).still.grid = s.still.grid := by
  unfold armProof; repeat' (first | rfl | (simp; done) | split)

@[simp] theorem still_imgs_armProof (s : State) (p : Nat) : (armProof s p).still.imgs = s.still.imgs := by
  unfold armProof; repeat' (first | rfl | (simp; done) | split)

@[simp] theorem still_svc_armProof (s : State) (p : Nat) : (armProof s p).still.svc = s.still.svc := by
  unfold armProof; repeat' (first | rfl | (simp; done) | split)

@[simp] theorem still_grid_proofNotPassed (s : State) (p : Nat) : (proofNotPassed s p).still.grid = s.still.grid := by
  unfold proofNotPassed; repeat' (first | rfl | (simp; done) | split)

@[simp] theorem still_imgs_proofNotPassed (s : State) (p : Nat) : (proofNotPassed s p).still.imgs = s.still.imgs := by
  unfold proofNotPassed; repeat' (first | rfl | (simp; done) | split)

@[simp] theorem still_svc_proofNotPassed (s : State) (p : Nat) : (proofNotPassed s p).still.svc = s.still.svc := by
  unfold proofNotPassed; repeat' (first | rfl | (simp; done) | split)

@[simp] theorem still_grid_proofPassed (s : State) (p : Nat) : (proofPassed s p).still.grid = s.still.grid := by
  unfold proofPassed; repeat' (first | rfl | (simp; done) | split)

@[simp] theorem still_imgs_proofPassed (s : State) (p : Nat) : (proofPassed s p).still.imgs = s.still.imgs := by
  unfold proofPassed; repeat' (first | rfl | (simp; done) | split)

@[simp] theorem still_svc_proofPassed (s : State) (p : Nat) : (proofPassed s p).still.svc = s.still.svc := by
  unfold proofPassed; repeat' (first | rfl | (simp; done) | split)

theorem still_grid_execProofTestExpired (p : Fin 8) (s : State) : Stays Still.grid (execProofTestExpired p s) s := by
  unfold execProofTestExpired; repeat' (first | rfl | (simp; done) | split)

theorem still_imgs_execProofTestExpired (p : Fin 8) (s : State) : Stays Still.imgs (execProofTestExpired p s) s := by
  unfold execProofTestExpired; repeat' (first | rfl | (simp; done) | split)

theorem still_svc_execProofTestExpired (p : Fin 8) (s : State) : Stays Still.svc (execProofTestExpired p s) s := by
  unfold execProofTestExpired; repeat' (first | rfl | (simp; done) | split)

@[simp] theorem still_grid_proofDue (s : State) (p : Nat) : (proofDue s p).still.grid = s.still.grid := by
  unfold proofDue; repeat' (first | rfl | (simp; done) | split)

@[simp] theorem still_imgs_proofDue (s : State) (p : Nat) : (proofDue s p).still.imgs = s.still.imgs := by
  unfold proofDue; repeat' (first | rfl | (simp; done) | split)

@[simp] theorem still_svc_proofDue (s : State) (p : Nat) : (proofDue s p).still.svc = s.still.svc := by
  unfold proofDue; repeat' (first | rfl | (simp; done) | split)

theorem still_grid_execProofIntervalReached (p : Fin 8) (s : State) : Stays Still.grid (execProofIntervalReached p s) s := by
  unfold execProofIntervalReached; repeat' (first | rfl | (simp; done) | split)

theorem still_imgs_execProofIntervalReached (p : Fin 8) (s : State) : Stays Still.imgs (execProofIntervalReached p s) s := by
  unfold execProofIntervalReached; repeat' (first | rfl | (simp; done) | split)

theorem still_svc_execProofIntervalReached (p : Fin 8) (s : State) : Stays Still.svc (execProofIntervalReached p s) s := by
  unfold execProofIntervalReached; repeat' (first | rfl | (simp; done) | split)

@[simp] theorem still_grid_ackOutputs (s : State) : (ackOutputs s).still.grid = s.still.grid := by
  unfold ackOutputs; repeat' (first | rfl | (simp; done) | split)

@[simp] theorem still_imgs_ackOutputs (s : State) : (ackOutputs s).still.imgs = s.still.imgs := by
  unfold ackOutputs; repeat' (first | rfl | (simp; done) | split)

@[simp] theorem still_svc_ackOutputs (s : State) : (ackOutputs s).still.svc = s.still.svc := by
  unfold ackOutputs; repeat' (first | rfl | (simp; done) | split)

@[simp] theorem still_grid_takeLane (s : State) (rx : LaneRx) : (takeLane s rx).still.grid = s.still.grid := by
  unfold takeLane; extract_lets proof ack old base s1 s2 s3
  have h1 : s1.still.grid = s.still.grid := by simp only [s1]; split <;> simp
  have h2 : s2.still.grid = s.still.grid := h1
  have h3 : s3.still.grid = s.still.grid := by
    rw [← h2]; apply foldl_stillgrid; intro s p; split <;> simp
  split
  · exact h2
  · split
    · exact h3
    · simp [h3]

@[simp] theorem still_imgs_takeLane (s : State) (rx : LaneRx) : (takeLane s rx).still.imgs = s.still.imgs := by
  unfold takeLane; extract_lets proof ack old base s1 s2 s3
  have h1 : s1.still.imgs = s.still.imgs := by simp only [s1]; split <;> simp
  have h2 : s2.still.imgs = s.still.imgs := h1
  have h3 : s3.still.imgs = s.still.imgs := by
    rw [← h2]; apply foldl_stillimgs; intro s p; split <;> simp
  split
  · exact h2
  · split
    · exact h3
    · simp [h3]

@[simp] theorem still_svc_takeLane (s : State) (rx : LaneRx) : (takeLane s rx).still.svc = s.still.svc := by
  unfold takeLane; extract_lets proof ack old base s1 s2 s3
  have h1 : s1.still.svc = s.still.svc := by simp only [s1]; split <;> simp
  have h2 : s2.still.svc = s.still.svc := h1
  have h3 : s3.still.svc = s.still.svc := by
    rw [← h2]; apply foldl_stillsvc; intro s p; split <;> simp
  split
  · exact h2
  · split
    · exact h3
    · simp [h3]

@[simp] theorem still_grid_substLane (s : State) : (substLane s).still.grid = s.still.grid := by
  unfold substLane; repeat' (first | rfl | (simp; done) | split)

@[simp] theorem still_imgs_substLane (s : State) : (substLane s).still.imgs = s.still.imgs := by
  unfold substLane; repeat' (first | rfl | (simp; done) | split)

@[simp] theorem still_svc_substLane (s : State) : (substLane s).still.svc = s.still.svc := by
  unfold substLane; repeat' (first | rfl | (simp; done) | split)

theorem still_grid_execLaneWatchdogExpired (s : State) : Stays Still.grid (execLaneWatchdogExpired s) s := by
  unfold execLaneWatchdogExpired; repeat' (first | rfl | (simp; done) | split)

theorem still_imgs_execLaneWatchdogExpired (s : State) : Stays Still.imgs (execLaneWatchdogExpired s) s := by
  unfold execLaneWatchdogExpired; repeat' (first | rfl | (simp; done) | split)

theorem still_svc_execLaneWatchdogExpired (s : State) : Stays Still.svc (execLaneWatchdogExpired s) s := by
  unfold execLaneWatchdogExpired; repeat' (first | rfl | (simp; done) | split)

@[simp] theorem still_grid_laneValues (s : State) : (laneValues s).2.still.grid = s.still.grid := by
  unfold laneValues; repeat' (first | with_reducible rfl | (simp +zetaDelta; done) |  split | extract_lets | (with_reducible apply foldl_stillgrid; intro _ _) | simp +zetaDelta)

@[simp] theorem still_imgs_laneValues (s : State) : (laneValues s).2.still.imgs = s.still.imgs := by
  unfold laneValues; repeat' (first | with_reducible rfl | (simp +zetaDelta; done) | (with_reducible apply updLane_goes2; rotate_left; intro _) | split | extract_lets | (with_reducible apply foldl_stillimgs; intro _ _) | simp +zetaDelta)

@[simp] theorem still_svc_laneValues (s : State) : (laneValues s).2.still.svc = s.still.svc := by
  unfold laneValues; repeat' (first | with_reducible rfl | (simp +zetaDelta; done) |  split | extract_lets | (with_reducible apply foldl_stillsvc; intro _ _) | simp +zetaDelta)

@[simp] theorem still_grid_produce (s : State) (r : CfgRec) (out : Bool × List Byte) : (produce s r out).still.grid = s.still.grid := by
  unfold produce; repeat' (first | rfl | (simp; done) | split)

@[simp] theorem still_imgs_produce (s : State) (r : CfgRec) (out : Bool × List Byte) : (produce s r out).still.imgs = s.still.imgs := by
  unfold produce; repeat' (first | rfl | (simp; done) | split)

@[simp] theorem still_svc_produce (s : State) (r : CfgRec) (out : Bool × List Byte) : (produce s r out).still.svc = s.still.svc := by
  unfold produce; repeat' (first | rfl | (simp; done) | split)

@[simp] theorem still_grid_connFails (s : State) (n cause : Nat) : (connFails s n cause).still.grid = s.still.grid := by
  unfold connFails; repeat' (first | with_reducible rfl | (simp +zetaDelta; done) |  split | extract_lets | (with_reducible apply foldl_stillgrid; intro _ _) | simp +zetaDelta)

@[simp] theorem still_imgs_connFails (s : State) (n cause : Nat) : (connFails s n cause).still.imgs = s.still.imgs := by
  unfold connFails; repeat' (first | with_reducible rfl | (simp +zetaDelta; done) | (with_reducible apply updLane_goes2; rotate_left; intro _) | split | extract_lets | (with_reducible apply foldl_stillimgs; intro _ _) | simp +zetaDelta)

@[simp] theorem still_svc_connFails (s : State) (n cause : Nat) : (connFails s n cause).still.svc = s.still.svc := by
  unfold connFails; repeat' (first | with_reducible rfl | (simp +zetaDelta; done) |  split | extract_lets | (with_reducible apply foldl_stillsvc; intro _ _) | simp +zetaDelta)

@[simp] theorem still_grid_connAccepts (s : State) (r : CfgRec) (pdu : List Byte) : (connAccepts s r pdu).still.grid = s.still.grid := by
  unfold connAccepts; repeat' (first | rfl | (simp; done) | split)

@[simp] theorem still_imgs_connAccepts (s : State) (r : CfgRec) (pdu : List Byte) : (connAccepts s r pdu).still.imgs = s.still.imgs := by
  unfold connAccepts; repeat' (first | rfl | (simp; done) | split)

@[simp] theorem still_svc_connAccepts (s : State) (r : CfgRec) (pdu : List Byte) : (connAccepts s r pdu).still.svc = s.still.svc := by
  unfold connAccepts; repeat' (first | rfl | (simp; done) | split)

@[simp] theorem still_grid_consume (s : State) (r : CfgRec) (pdu : Option (List Byte)) : (consume s r pdu).still.grid = s.still.grid := by
  unfold consume; repeat' (first | with_reducible rfl | (simp +zetaDelta; done) |  split | extract_lets | (with_reducible apply foldl_stillgrid; intro _ _) | simp +zetaDelta)

@[simp] theorem still_imgs_consume (s : State) (r : CfgRec) (pdu : Option (List Byte)) : (consume s r pdu).still.imgs = s.still.imgs := by
  unfold consume; repeat' (first | with_reducible rfl | (simp +zetaDelta; done) | (with_reducible apply updLane_goes2; rotate_left; intro _) | split | extract_lets | (with_reducible apply foldl_stillimgs; intro _ _) | simp +zetaDelta)

@[simp] theorem still_svc_consume (s : State) (r : CfgRec) (pdu : Option (List Byte)) : (consume s r pdu).still.svc = s.still.svc := by
  unfold consume; repeat' (first | with_reducible rfl | (simp +zetaDelta; done) |  split | extract_lets | (with_reducible apply foldl_stillsvc; intro _ _) | simp +zetaDelta)

@[simp] theorem still_grid_consumers (s : State) (pdus : Tab (List Byte)) : (consumers s pdus).still.grid = s.still.grid := by
  unfold consumers; repeat' (first | rfl | (simp; done) | split)

@[simp] theorem still_imgs_consumers (s : State) (pdus : Tab (List Byte)) : (consumers s pdus).still.imgs = s.still.imgs := by
  unfold consumers; repeat' (first | rfl | (simp; done) | split)

@[simp] theorem still_svc_consumers (s : State) (pdus : Tab (List Byte)) : (consumers s pdus).still.svc = s.still.svc := by
  unfold consumers; repeat' (first | rfl | (simp; done) | split)

theorem still_grid_execConnTimeExpired (c : Fin 64) (s : State) : Stays Still.grid (execConnTimeExpired c s) s := by
  unfold execConnTimeExpired; repeat' (first | with_reducible rfl | (simp +zetaDelta; done) |  split | extract_lets | (with_reducible apply foldl_stillgrid; intro _ _) | simp +zetaDelta)

theorem still_imgs_execConnTimeExpired (c : Fin 64) (s : State) : Stays Still.imgs (execConnTimeExpired c s) s := by
  unfold execConnTimeExpired; repeat' (first | with_reducible rfl | (simp +zetaDelta; done) | (with_reducible apply updLane_goes2; rotate_left; intro _) | split | extract_lets | (with_reducible apply foldl_stillimgs; intro _ _) | simp +zetaDelta)

theorem still_svc_execConnTimeExpired (c : Fin 64) (s : State) : Stays Still.svc (execConnTimeExpired c s) s := by
  unfold execConnTimeExpired; repeat' (first | with_reducible rfl | (simp +zetaDelta; done) |  split | extract_lets | (with_reducible apply foldl_stillsvc; intro _ _) | simp +zetaDelta)

@[simp] theorem still_grid_publish (s : State) (dt : Nat) : (publish s dt).still.grid = s.still.grid := by
  unfold publish; repeat' (first | rfl | (simp; done) | split)

@[simp] theorem still_imgs_publish (s : State) (dt : Nat) : (publish s dt).still.imgs = s.still.imgs := by
  unfold publish; repeat' (first | rfl | (simp; done) | split)

@[simp] theorem still_svc_publish (s : State) (dt : Nat) : (publish s dt).still.svc = s.still.svc := by
  unfold publish; repeat' (first | rfl | (simp; done) | split)

@[simp] theorem still_grid_clearLatch (s : State) (o : Nat) : (clearLatch s o).still.grid = s.still.grid := by
  unfold clearLatch; repeat' (first | with_reducible rfl | (simp +zetaDelta; done) |  split | extract_lets | (with_reducible apply foldl_stillgrid; intro _ _) | simp +zetaDelta)

@[simp] theorem still_imgs_clearLatch (s : State) (o : Nat) : (clearLatch s o).still.imgs = s.still.imgs := by
  unfold clearLatch; repeat' (first | with_reducible rfl | (simp +zetaDelta; done) | (with_reducible apply updLane_goes2; rotate_left; intro _) | split | extract_lets | (with_reducible apply foldl_stillimgs; intro _ _) | simp +zetaDelta)

@[simp] theorem still_svc_clearLatch (s : State) (o : Nat) : (clearLatch s o).still.svc = s.still.svc := by
  unfold clearLatch; repeat' (first | with_reducible rfl | (simp +zetaDelta; done) |  split | extract_lets | (with_reducible apply foldl_stillsvc; intro _ _) | simp +zetaDelta)

theorem still_grid_execSkCycleStart (s : State) : Stays Still.grid (execSkCycleStart s) s := by
  unfold execSkCycleStart; repeat' (first | with_reducible rfl | (simp +zetaDelta; done) |  split | extract_lets | (with_reducible apply foldl_stillgrid; intro _ _) | simp +zetaDelta)

theorem still_imgs_execSkCycleStart (s : State) : Stays Still.imgs (execSkCycleStart s) s := by
  unfold execSkCycleStart; repeat' (first | with_reducible rfl | (simp +zetaDelta; done) | (with_reducible apply updLane_goes2; rotate_left; intro _) | split | extract_lets | (with_reducible apply foldl_stillimgs; intro _ _) | simp +zetaDelta)

theorem still_svc_execSkCycleStart (s : State) : Stays Still.svc (execSkCycleStart s) s := by
  unfold execSkCycleStart; repeat' (first | with_reducible rfl | (simp +zetaDelta; done) |  split | extract_lets | (with_reducible apply foldl_stillsvc; intro _ _) | simp +zetaDelta)

@[simp] theorem still_grid_commandOut (s : State) (cmds : List Bool) (us o : Nat) : (commandOut s cmds us o).still.grid = s.still.grid := by
  unfold commandOut; repeat' (first | rfl | (simp; done) | split)

@[simp] theorem still_imgs_commandOut (s : State) (cmds : List Bool) (us o : Nat) : (commandOut s cmds us o).still.imgs = s.still.imgs := by
  unfold commandOut; repeat' (first | rfl | (simp; done) | split)

@[simp] theorem still_svc_commandOut (s : State) (cmds : List Bool) (us o : Nat) : (commandOut s cmds us o).still.svc = s.still.svc := by
  unfold commandOut; repeat' (first | rfl | (simp; done) | split)

@[simp] theorem still_grid_takeResults (s : State) (r : SkResult) (us : Nat) : (takeResults s r us).still.grid = s.still.grid := by
  simp [takeResults]

@[simp] theorem still_imgs_takeResults (s : State) (r : SkResult) (us : Nat) : (takeResults s r us).still.imgs = s.still.imgs := by
  simp [takeResults]

@[simp] theorem still_svc_takeResults (s : State) (r : SkResult) (us : Nat) : (takeResults s r us).still.svc = s.still.svc := by
  simp [takeResults]

@[simp] theorem still_grid_exchange (s : State) (x y : Option SkResult) (us : Nat) : (exchange s x y us).still.grid = s.still.grid := by
  unfold exchange; repeat' (first | with_reducible rfl | (simp +zetaDelta ; done) | split | extract_lets | (with_reducible apply foldl_stillgrid; intro _ _) | simp +zetaDelta )

@[simp] theorem still_imgs_exchange (s : State) (x y : Option SkResult) (us : Nat) : (exchange s x y us).still.imgs = s.still.imgs := by
  unfold exchange; repeat' (first | with_reducible rfl | (simp +zetaDelta ; done) | (with_reducible apply updLane_goes2; rotate_left; intro _) | split | extract_lets | (with_reducible apply foldl_stillimgs; intro _ _) | simp +zetaDelta )

@[simp] theorem still_svc_exchange (s : State) (x y : Option SkResult) (us : Nat) : (exchange s x y us).still.svc = s.still.svc := by
  unfold exchange; repeat' (first | with_reducible rfl | (simp +zetaDelta ; done) | split | extract_lets | (with_reducible apply foldl_stillsvc; intro _ _) | simp +zetaDelta )

theorem still_grid_execSkCycleEnd (x y : Option SkResult) (dt : Nat) (s : State) : Stays Still.grid (execSkCycleEnd x y dt s) s := by
  unfold execSkCycleEnd; repeat' (first | with_reducible rfl | (simp +zetaDelta ; done) | split | extract_lets | (with_reducible apply foldl_stillgrid; intro _ _) | simp +zetaDelta )

theorem still_imgs_execSkCycleEnd (x y : Option SkResult) (dt : Nat) (s : State) : Stays Still.imgs (execSkCycleEnd x y dt s) s := by
  unfold execSkCycleEnd; repeat' (first | with_reducible rfl | (simp +zetaDelta ; done) | (with_reducible apply updLane_goes2; rotate_left; intro _) | split | extract_lets | (with_reducible apply foldl_stillimgs; intro _ _) | simp +zetaDelta )

theorem still_svc_execSkCycleEnd (x y : Option SkResult) (dt : Nat) (s : State) : Stays Still.svc (execSkCycleEnd x y dt s) s := by
  unfold execSkCycleEnd; repeat' (first | with_reducible rfl | (simp +zetaDelta ; done) | split | extract_lets | (with_reducible apply foldl_stillsvc; intro _ _) | simp +zetaDelta )

/-! Islands -/

@[simp] theorem still_timerEdge (s : State) (i : Nat) : (timerEdge s i).still = s.still := by
  simp [timerEdge]

@[simp] theorem still_sendFrame (s : State) (i : Nat) (data : Mem) (pdus : Tab (List Byte)) : (sendFrame s i data pdus).still = s.still := by
  rfl

@[simp] theorem still_sk_frontEnd (s : State) (i : Nat) (x : FieldSample) (m : Mem) : (frontEnd s i x m).1.still.sk = s.still.sk := by
  unfold frontEnd; repeat' (first | with_reducible rfl | (simp +zetaDelta; done) |  split | extract_lets | (with_reducible apply foldl_stillsk; intro _ _) | simp +zetaDelta)

@[simp] theorem still_grid_frontEnd (s : State) (i : Nat) (x : FieldSample) (m : Mem) : (frontEnd s i x m).1.still.grid = s.still.grid := by
  unfold frontEnd; repeat' (first | with_reducible rfl | (simp +zetaDelta; done) |  split | extract_lets | (with_reducible apply foldl_stillgrid; intro _ _) | simp +zetaDelta)

@[simp] theorem still_imgs_frontEnd (s : State) (i : Nat) (x : FieldSample) (m : Mem) : (frontEnd s i x m).1.still.imgs = s.still.imgs := by
  unfold frontEnd; repeat' (first | with_reducible rfl | (simp +zetaDelta; done) | (with_reducible apply updLane_goes2; rotate_left; intro _) | split | extract_lets | (with_reducible apply foldl_stillimgs; intro _ _) | simp +zetaDelta)

theorem still_sk_execIslandEdge (i : Isl) (sample : FieldSample) (s : State) : Stays Still.sk (execIslandEdge i sample s) s := by
  unfold execIslandEdge; repeat' (first | rfl | (simp; done) | split)

theorem still_grid_execIslandEdge (i : Isl) (sample : FieldSample) (s : State) : Stays Still.grid (execIslandEdge i sample s) s := by
  unfold execIslandEdge; repeat' (first | rfl | (simp; done) | split)

theorem still_imgs_execIslandEdge (i : Isl) (sample : FieldSample) (s : State) : Stays Still.imgs (execIslandEdge i sample s) s := by
  unfold execIslandEdge; repeat' (first | rfl | (simp; done) | split)

theorem still_execIslandWatchdogExpired (i : Isl) (s : State) : Stays id (execIslandWatchdogExpired i s) s := by
  simp [execIslandWatchdogExpired]

theorem still_execEdgeMarker (i : Isl) (l : LaneId) (correctionNs : Nat) (s : State) : Stays id (execEdgeMarker i l correctionNs s) s := by
  simp [execEdgeMarker]

@[simp] theorem still_frameToken (s : State) (l : LaneId) (i : Nat) (f : IslFrame) : (frameToken s l i f).still = s.still := by
  unfold frameToken; repeat' (first | with_reducible rfl | (simp +zetaDelta; done) | (simp +zetaDelta [hq2]; done) | (rename_i hq; have hq2 := (congrArg (fun x => (State.still (Prod.snd x))) hq).symm; clear hq; simp +zetaDelta at hq2) | (rename_i hq; have hq2 := (congrArg (fun x => (State.still (Prod.fst x))) hq).symm; clear hq; simp +zetaDelta at hq2) | (with_reducible apply updLane_goes; rotate_left; intro _) | split | (extract_lets) | (with_reducible apply foldl_still; intro _ _) | (simp +zetaDelta))

theorem still_execIslandInputFrame (i : Isl) (l : LaneId) (crcOk : Bool) (s : State) : Stays id (execIslandInputFrame i l crcOk s) s := by
  unfold execIslandInputFrame; extract_lets v; rw [stays_next]; split
  · rfl
  · rename_i f hf
    split
    · rfl
    · split
      · extract_lets s1
        have h1 : s1.still = s.still := by
          apply updLane_goes; rfl; intro v; unfold takeFrame; (repeat' (first | rfl | split | extract_lets))
        split
        · exact h1
        · simp only [id, still_frameToken, h1]
      · apply updLane_goes; rfl; intro v; rfl

@[simp] theorem still_acceptUpdate (s : State) (i : Nat) (l : LaneId) : (acceptUpdate s i l).still = s.still := by
  unfold acceptUpdate; repeat' (first | with_reducible rfl | (simp +zetaDelta; done) | (with_reducible apply updLane_goes; rotate_left; intro _) | split | extract_lets | (with_reducible apply foldl_still; intro _ _) | simp +zetaDelta)

theorem still_grid_execIslandOutputFrame (i : Isl) (l : LaneId) (crcOk late : Bool) (s : State) : Stays Still.grid (execIslandOutputFrame i l crcOk late s) s := by
  unfold execIslandOutputFrame; repeat' (first | with_reducible rfl | (simp +zetaDelta; done) |  split | extract_lets | (with_reducible apply foldl_stillgrid; intro _ _) | simp +zetaDelta)

theorem still_imgs_execIslandOutputFrame (i : Isl) (l : LaneId) (crcOk late : Bool) (s : State) : Stays Still.imgs (execIslandOutputFrame i l crcOk late s) s := by
  unfold execIslandOutputFrame; repeat' (first | with_reducible rfl | (simp +zetaDelta; done) | (with_reducible apply updLane_goes2; rotate_left; intro _) | split | extract_lets | (with_reducible apply foldl_stillimgs; intro _ _) | simp +zetaDelta)

theorem still_svc_execIslandOutputFrame (i : Isl) (l : LaneId) (crcOk late : Bool) (s : State) : Stays Still.svc (execIslandOutputFrame i l crcOk late s) s := by
  unfold execIslandOutputFrame; repeat' (first | with_reducible rfl | (simp +zetaDelta; done) |  split | extract_lets | (with_reducible apply foldl_stillsvc; intro _ _) | simp +zetaDelta)

theorem still_grid_execFieldSupplyLow (f : FieldSupply) (s : State) : Stays Still.grid (execFieldSupplyLow f s) s := by
  unfold execFieldSupplyLow; repeat' (first | rfl | (simp; done) | split)

theorem still_imgs_execFieldSupplyLow (f : FieldSupply) (s : State) : Stays Still.imgs (execFieldSupplyLow f s) s := by
  unfold execFieldSupplyLow; repeat' (first | rfl | (simp; done) | split)

theorem still_svc_execFieldSupplyLow (f : FieldSupply) (s : State) : Stays Still.svc (execFieldSupplyLow f s) s := by
  unfold execFieldSupplyLow; repeat' (first | rfl | (simp; done) | split)

theorem still_grid_execFieldSupplyRestored (f : FieldSupply) (s : State) : Stays Still.grid (execFieldSupplyRestored f s) s := by
  unfold execFieldSupplyRestored; repeat' (first | rfl | (simp; done) | split)

theorem still_imgs_execFieldSupplyRestored (f : FieldSupply) (s : State) : Stays Still.imgs (execFieldSupplyRestored f s) s := by
  unfold execFieldSupplyRestored; repeat' (first | rfl | (simp; done) | split)

theorem still_svc_execFieldSupplyRestored (f : FieldSupply) (s : State) : Stays Still.svc (execFieldSupplyRestored f s) s := by
  unfold execFieldSupplyRestored; repeat' (first | rfl | (simp; done) | split)

/-! Startup -/

@[simp] theorem still_grid_coldStart (s : State) (fromDark : Bool) : (coldStart s fromDark).still.grid = s.still.grid := by
  rfl

@[simp] theorem still_imgs_coldStart (s : State) (fromDark : Bool) : (coldStart s fromDark).still.imgs = s.still.imgs := by
  rfl

@[simp] theorem still_svc_coldStart (s : State) (fromDark : Bool) : (coldStart s fromDark).still.svc = s.still.svc := by
  rfl

@[simp] theorem still_grid_powerIslands (s : State) : (powerIslands s).still.grid = s.still.grid := by
  unfold powerIslands; repeat' (first | with_reducible rfl | (simp +zetaDelta; done) |  split | extract_lets | (with_reducible apply foldl_stillgrid; intro _ _) | simp +zetaDelta)

@[simp] theorem still_imgs_powerIslands (s : State) : (powerIslands s).still.imgs = s.still.imgs := by
  unfold powerIslands; repeat' (first | with_reducible rfl | (simp +zetaDelta; done) | (with_reducible apply updLane_goes2; rotate_left; intro _) | split | extract_lets | (with_reducible apply foldl_stillimgs; intro _ _) | simp +zetaDelta)

@[simp] theorem still_svc_powerIslands (s : State) : (powerIslands s).still.svc = s.still.svc := by
  unfold powerIslands; repeat' (first | with_reducible rfl | (simp +zetaDelta; done) |  split | extract_lets | (with_reducible apply foldl_stillsvc; intro _ _) | simp +zetaDelta)

@[simp] theorem still_sk_panelPowerUp (s : State) (map : Option (List (Nat × Fin 4))) : (panelPowerUp s map).still.sk = s.still.sk := by
  unfold panelPowerUp; extract_lets s1; have h1 : s1.still.sk = s.still.sk := rfl
  split
  · exact h1
  · rw [still_raise]; exact h1

@[simp] theorem still_grid_panelPowerUp (s : State) (map : Option (List (Nat × Fin 4))) : (panelPowerUp s map).still.grid = s.still.grid := by
  unfold panelPowerUp; extract_lets s1; have h1 : s1.still.grid = s.still.grid := rfl
  split
  · exact h1
  · rw [still_raise]; exact h1

@[simp] theorem still_imgs_panelPowerUp (s : State) (map : Option (List (Nat × Fin 4))) : (panelPowerUp s map).still.imgs = s.still.imgs := by
  unfold panelPowerUp; extract_lets s1; have h1 : s1.still.imgs = s.still.imgs := rfl
  split
  · exact h1
  · rw [still_raise]; exact h1

theorem still_grid_execLogicPowerGood (l : LaneId) (cid : BitVec 4) (feedMv mac : Nat) (map : Option (List (Nat × Fin 4))) (s : State) : Stays Still.grid (execLogicPowerGood l cid feedMv mac map s) s := by
  unfold execLogicPowerGood; split
  · rfl
  · extract_lets dark both s1 s2 s3 s4 s5
    rw [stays_next]
    have h1 : s1.still.grid = s.still.grid := by simp only [s1]; split <;> simp
    have h2 : s2.still.grid = s.still.grid := by simp only [s2]; split <;> simp [h1]
    have h3 : s3.still.grid = s.still.grid := by simp [s3, h2]
    have h4 : s4.still.grid = s.still.grid := h3
    have h5 : s5.still.grid = s.still.grid := by simp only [s5]; split <;> simp [h4]
    simp [h5]

theorem still_execWindowUp (l : LaneId) (fw : Nat) (s : State) : Stays id (execWindowUp l fw s) s := by
  unfold execWindowUp; repeat' (first | with_reducible rfl | (simp +zetaDelta; done) | (with_reducible apply updLane_goes; rotate_left; intro _) | split | extract_lets | (with_reducible apply foldl_still; intro _ _) | simp +zetaDelta)

theorem still_sk_execWindowUp (l : LaneId) (fw : Nat) (s : State) : Stays Still.sk (execWindowUp l fw s) s := by
  unfold execWindowUp; repeat' (first | with_reducible rfl | (simp +zetaDelta ; done) | split | extract_lets | (with_reducible apply foldl_stillsk; intro _ _) | simp +zetaDelta )

theorem still_grid_execWindowUp (l : LaneId) (fw : Nat) (s : State) : Stays Still.grid (execWindowUp l fw s) s := by
  unfold execWindowUp; repeat' (first | with_reducible rfl | (simp +zetaDelta ; done) | split | extract_lets | (with_reducible apply foldl_stillgrid; intro _ _) | simp +zetaDelta )

theorem still_svc_execWindowUp (l : LaneId) (fw : Nat) (s : State) : Stays Still.svc (execWindowUp l fw s) s := by
  unfold execWindowUp; repeat' (first | with_reducible rfl | (simp +zetaDelta ; done) | split | extract_lets | (with_reducible apply foldl_stillsvc; intro _ _) | simp +zetaDelta )

@[simp] theorem still_stepFails (s : State) (l : LaneId) (step code : Nat) : (stepFails s l step code).still = s.still := by
  unfold stepFails; repeat' (first | with_reducible rfl | (simp +zetaDelta; done) | (with_reducible apply updLane_goes; rotate_left; intro _) | split | extract_lets | (with_reducible apply foldl_still; intro _ _) | simp +zetaDelta)

theorem still_execClockQualification (l : LaneId) (tcxo rc : Nat) (s : State) : Stays id (execClockQualification l tcxo rc s) s := by
  unfold execClockQualification; repeat' (first | with_reducible rfl | (simp +zetaDelta; done) | (with_reducible apply updLane_goes; rotate_left; intro _) | split | extract_lets | (with_reducible apply foldl_still; intro _ _) | simp +zetaDelta)

theorem still_execRolesStep (l : LaneId) (s : State) : Stays id (execRolesStep l s) s := by
  unfold execRolesStep; repeat' (first | with_reducible rfl | (simp +zetaDelta; done) | (with_reducible apply updLane_goes; rotate_left; intro _) | split | extract_lets | (with_reducible apply foldl_still; intro _ _) | simp +zetaDelta)

theorem still_execRoleWaitTimeout (s : State) : Stays id (execRoleWaitTimeout s) s := by
  simp [execRoleWaitTimeout]

theorem still_execStartupComplete (l : LaneId) (s : State) : Stays id (execStartupComplete l s) s := by
  unfold execStartupComplete; repeat' (first | with_reducible rfl | (simp +zetaDelta; done) | (with_reducible apply updLane_goes; rotate_left; intro _) | split | extract_lets | (with_reducible apply foldl_still; intro _ _) | simp +zetaDelta)

theorem still_execStartupStepFail (l : LaneId) (step code : Nat) (s : State) : Stays id (execStartupStepFail l step code s) s := by
  simp [execStartupStepFail]

/-! Power -/

theorem still_execPowerDwellExpired (s : State) : Stays id (execPowerDwellExpired s) s := by
  unfold execPowerDwellExpired; repeat' (first | with_reducible rfl | (simp +zetaDelta ; done) | (with_reducible apply updLane_goes; rotate_left; intro _) | split | extract_lets | (with_reducible apply foldl_still; intro _ _) | simp +zetaDelta )

@[simp] theorem still_grid_darkWake (s : State) (w : WakeSource) : (darkWake s w).still.grid = s.still.grid := by
  unfold darkWake; repeat' (first | with_reducible rfl | (simp +zetaDelta; done) | (simp +zetaDelta [hq2]; done) | (rename_i hq; have hq2 := (congrArg (fun x => (State.still (Prod.snd x)).grid) hq).symm; clear hq; simp +zetaDelta at hq2) | (rename_i hq; have hq2 := (congrArg (fun x => (State.still (Prod.fst x)).grid) hq).symm; clear hq; simp +zetaDelta at hq2) | split | (extract_lets) | (with_reducible apply foldl_stillgrid; intro _ _) | (simp +zetaDelta))

@[simp] theorem still_imgs_darkWake (s : State) (w : WakeSource) : (darkWake s w).still.imgs = s.still.imgs := by
  unfold darkWake; extract_lets pairOk s1 s2 s3
  have h1 : s1.still.imgs = s.still.imgs := by simp only [s1]; split <;> simp
  have h3 : s3.still.imgs = s2.still.imgs := still_imgs_bothLanes _ _ fun s l =>
    congrArg Still.imgs (updLane_imgs _ _ _ (by split <;> rfl))
  split
  · rfl
  · split
    · rfl
    · split
      · rw [updSt_still, h3]; simp [s2, h1]
      · rfl

@[simp] theorem still_svc_darkWake (s : State) (w : WakeSource) : (darkWake s w).still.svc = s.still.svc := by
  unfold darkWake; repeat' (first | with_reducible rfl | (simp +zetaDelta; done) | (simp +zetaDelta [hq2]; done) | (rename_i hq; have hq2 := (congrArg (fun x => (State.still (Prod.snd x)).svc) hq).symm; clear hq; simp +zetaDelta at hq2) | (rename_i hq; have hq2 := (congrArg (fun x => (State.still (Prod.fst x)).svc) hq).symm; clear hq; simp +zetaDelta at hq2) | split | (extract_lets) | (with_reducible apply foldl_stillsvc; intro _ _) | (simp +zetaDelta))

@[simp] theorem still_grid_darkEdge (s : State) : (darkEdge s).still.grid = s.still.grid := by
  unfold darkEdge; split
  · rfl
  · split
    · rfl
    · have h1 : (darkEntry s skDormant).still.grid = s.still.grid := still_grid_darkEntry _ _ still_grid_skDormant
      simp only []; generalize darkEntry s skDormant = u at h1 ⊢
      cases s.st.power.wake with
      | none => exact h1
      | some w => exact (still_grid_darkWake u w).trans h1

@[simp] theorem still_imgs_darkEdge (s : State) : (darkEdge s).still.imgs = s.still.imgs := by
  unfold darkEdge; split
  · rfl
  · split
    · rfl
    · have h1 : (darkEntry s skDormant).still.imgs = s.still.imgs := still_imgs_darkEntry _ _ still_imgs_skDormant
      simp only []; generalize darkEntry s skDormant = u at h1 ⊢
      cases s.st.power.wake with
      | none => exact h1
      | some w => exact (still_imgs_darkWake u w).trans h1

@[simp] theorem still_svc_darkEdge (s : State) : (darkEdge s).still.svc = s.still.svc := by
  unfold darkEdge; split
  · rfl
  · split
    · rfl
    · have h1 : (darkEntry s skDormant).still.svc = s.still.svc := still_svc_darkEntry _ _ still_svc_skDormant
      simp only []; generalize darkEntry s skDormant = u at h1 ⊢
      cases s.st.power.wake with
      | none => exact h1
      | some w => exact (still_svc_darkWake u w).trans h1

theorem still_grid_execDarkWake (w : WakeSource) (s : State) : Stays Still.grid (execDarkWake w s) s := by
  simp [execDarkWake]

theorem still_imgs_execDarkWake (w : WakeSource) (s : State) : Stays Still.imgs (execDarkWake w s) s := by
  simp [execDarkWake]

theorem still_svc_execDarkWake (w : WakeSource) (s : State) : Stays Still.svc (execDarkWake w s) s := by
  simp [execDarkWake]

@[simp] theorem still_sk_clkSelect (s : State) (outB : Bool) (d : Nat) : (clkSelect s outB d).still.sk = s.still.sk := by
  rfl

@[simp] theorem still_grid_clkSelect (s : State) (outB : Bool) (d : Nat) : (clkSelect s outB d).still.grid = s.still.grid := by
  rfl

@[simp] theorem still_imgs_clkSelect (s : State) (outB : Bool) (d : Nat) : (clkSelect s outB d).still.imgs = s.still.imgs := by
  rfl

@[simp] theorem still_sk_clkClear (s : State) (d : Nat) : (clkClear s d).still.sk = s.still.sk := by
  rfl

@[simp] theorem still_grid_clkClear (s : State) (d : Nat) : (clkClear s d).still.grid = s.still.grid := by
  rfl

@[simp] theorem still_imgs_clkClear (s : State) (d : Nat) : (clkClear s d).still.imgs = s.still.imgs := by
  rfl

theorem still_sk_execClkoutSelWrite (_p : Part) (outB : Bool) (data : Word) (s : State) : Stays Still.sk (execClkoutSelWrite _p outB data s) s := by
  unfold execClkoutSelWrite; repeat' (first | rfl | (simp; done) | split)

theorem still_grid_execClkoutSelWrite (_p : Part) (outB : Bool) (data : Word) (s : State) : Stays Still.grid (execClkoutSelWrite _p outB data s) s := by
  unfold execClkoutSelWrite; repeat' (first | rfl | (simp; done) | split)

theorem still_imgs_execClkoutSelWrite (_p : Part) (outB : Bool) (data : Word) (s : State) : Stays Still.imgs (execClkoutSelWrite _p outB data s) s := by
  unfold execClkoutSelWrite; repeat' (first | rfl | (simp; done) | split)

theorem still_sk_execClkoutStatusClear (_p : Part) (data : Word) (s : State) : Stays Still.sk (execClkoutStatusClear _p data s) s := by
  unfold execClkoutStatusClear; repeat' (first | rfl | (simp; done) | split)

theorem still_grid_execClkoutStatusClear (_p : Part) (data : Word) (s : State) : Stays Still.grid (execClkoutStatusClear _p data s) s := by
  unfold execClkoutStatusClear; repeat' (first | rfl | (simp; done) | split)

theorem still_imgs_execClkoutStatusClear (_p : Part) (data : Word) (s : State) : Stays Still.imgs (execClkoutStatusClear _p data s) s := by
  unfold execClkoutStatusClear; repeat' (first | rfl | (simp; done) | split)

/-! Wide -/

@[simp] theorem still_writeWideSel (s : State) (p : Nat) (via : LaneId) (d : Word) (dt : Nat) : (writeWideSel s p via d dt).still = s.still := by
  simp [writeWideSel]

theorem still_execWideSelWrite (p : Part) (data : Word) (via : Arrival) (s : State) : Stays id (execWideSelWrite p data via s) s := by
  simp [execWideSelWrite]

theorem still_execWideCaptureDone (p : Part) (s : State) : Stays id (execWideCaptureDone p s) s := by
  unfold execWideCaptureDone; repeat' (first | with_reducible rfl | (simp +zetaDelta; done) | (with_reducible apply updLane_goes; rotate_left; intro _) | split | extract_lets | (with_reducible apply foldl_still; intro _ _) | simp +zetaDelta)

/-! Window -/

@[simp] theorem still_winAttach (s : State) (p : Nat) (bus : Bus) (lane : LaneId) (d : Nat) : (winAttach s p bus lane d).still = s.still := by
  unfold winAttach; repeat' (first | with_reducible rfl | (simp +zetaDelta; done) | (with_reducible apply updLane_goes; rotate_left; intro _) | split | extract_lets | (with_reducible apply foldl_still; intro _ _) | simp +zetaDelta)

@[simp] theorem still_winDetach (s : State) (p : Nat) (d : Nat) : (winDetach s p d).still = s.still := by
  simp [winDetach]

@[simp] theorem still_writeWinCtrl (s : State) (p : Nat) (bus : Bus) (lane : LaneId) (d : Nat) : (writeWinCtrl s p bus lane d).still = s.still := by
  simp [writeWinCtrl]

@[simp] theorem still_writeEvStatus (s : State) (p : Nat) (d : Nat) : (writeEvStatus s p d).still = s.still := by
  simp [writeEvStatus]

@[simp] theorem still_writeEvIndex (s : State) (p : Nat) (d : Nat) : (writeEvIndex s p d).still = s.still := by
  simp [writeEvIndex]

@[simp] theorem still_writeLatTol (s : State) (p : Nat) (d : Word) : (writeLatTol s p d).still = s.still := by
  simp [writeLatTol]

@[simp] theorem still_doorbell (s : State) (p : Nat) (d : Nat) : (doorbell s p d).still = s.still := by
  unfold doorbell; repeat' (first | with_reducible rfl | (simp +zetaDelta; done) | (with_reducible apply updLane_goes; rotate_left; intro _) | split | extract_lets | (with_reducible apply foldl_still; intro _ _) | simp +zetaDelta)

@[simp] theorem still_writeSlowAddr (s : State) (p : Nat) (d : Nat) : (writeSlowAddr s p d).still = s.still := by
  simp [writeSlowAddr]

@[simp] theorem still_writeSlowData (s : State) (p : Nat) (d : Word) : (writeSlowData s p d).still = s.still := by
  simp [writeSlowData]

@[simp] theorem still_writeArea (s : State) (p : Nat) (o lane size d : Nat) : (writeArea s p o lane size d).still = s.still := by
  simp [writeArea]

@[simp] theorem still_windowWrite (s : State) (p : Nat) (via : LaneId) (addr size : Nat) (d : Word) (dt : Nat) : (windowWrite s p via addr size d dt).still = s.still := by
  unfold windowWrite; repeat' (first | with_reducible rfl | (simp +zetaDelta; done) | (with_reducible apply updLane_goes; rotate_left; intro _) | split | extract_lets | (with_reducible apply foldl_still; intro _ _) | simp +zetaDelta)

@[simp] theorem still_hostWrite (s : State) (p : Nat) (via : LaneId) (addr size : Nat) (d : DWord) (dt : Nat) : (hostWrite s p via addr size d dt).still = s.still := by
  simp [hostWrite]

@[simp] theorem still_readEffect (s : State) (p : Nat) (addr : Nat) : (readEffect s p addr).still = s.still := by
  simp [readEffect]

@[simp] theorem still_narrowRead (s : State) (p : Nat) (bus : Bus) (lane : LaneId) (addr size : Nat) (skReady : Bool) : (narrowRead s p bus lane addr size skReady).2.still = s.still := by
  simp [narrowRead]

@[simp] theorem still_hostRead (s : State) (p : Nat) (bus : Bus) (lane : LaneId) (addr size : Nat) (skReady : Bool) : (hostRead s p bus lane addr size skReady).2.still = s.still := by
  unfold hostRead; repeat' (first | with_reducible rfl | (simp +zetaDelta ; done) | (with_reducible apply updLane_goes; rotate_left; intro _) | split | extract_lets | (with_reducible apply foldl_still; intro _ _) | simp +zetaDelta )

theorem still_execRegisterWrite (p : Part) (slow : Bool) (addr size : Nat) (data : DWord) (via : Arrival) (s : State) : Stays id (execRegisterWrite p slow addr size data via s) s := by
  unfold execRegisterWrite; repeat' (first | rfl | (simp; done) | split)

theorem still_execWinCtrlAttach (p : Part) (bus : Bus) (lane : LaneId) (data : Word) (s : State) : Stays id (execWinCtrlAttach p bus lane data s) s := by
  simp [execWinCtrlAttach]

theorem still_execWinCtrlDetach (p : Part) (data : Word) (s : State) : Stays id (execWinCtrlDetach p data s) s := by
  simp [execWinCtrlDetach]

theorem still_execDetachComplete (p : Part) (s : State) : Stays id (execDetachComplete p s) s := by
  simp [execDetachComplete]

theorem still_execEvStatusClear (p : Part) (data : Word) (s : State) : Stays id (execEvStatusClear p data s) s := by
  simp [execEvStatusClear]

theorem still_execEvIndexWrite (p : Part) (data : Word) (s : State) : Stays id (execEvIndexWrite p data s) s := by
  simp [execEvIndexWrite]

theorem still_execLatTolWrite (p : Part) (data : Word) (s : State) : Stays id (execLatTolWrite p data s) s := by
  simp [execLatTolWrite]

theorem still_execMbDoorbell (p : Part) (data : Word) (s : State) : Stays id (execMbDoorbell p data s) s := by
  simp [execMbDoorbell]

theorem still_execWideD3Read (p : Part) (s : State) : Stays id (execWideD3Read p s) s := by
  simp [execWideD3Read]

theorem still_execSlowReadStart (p : Part) (data : Word) (s : State) : Stays id (execSlowReadStart p data s) s := by
  simp [execSlowReadStart]

theorem still_execSlowWritePost (p : Part) (data : Word) (s : State) : Stays id (execSlowWritePost p data s) s := by
  simp [execSlowWritePost]

/-! Rtc -/

@[simp] theorem still_sk_State_updRtc (s : State) (f : Rtc → Rtc) : (State.updRtc s f).still.sk = s.still.sk := by
  rfl

@[simp] theorem still_grid_State_updRtc (s : State) (f : Rtc → Rtc) : (State.updRtc s f).still.grid = s.still.grid := by
  rfl

@[simp] theorem still_imgs_State_updRtc (s : State) (f : Rtc → Rtc) : (State.updRtc s f).still.imgs = s.still.imgs := by
  rfl

@[simp] theorem still_State_updRtcPort (s : State) (p : Nat) (f : RtcPort → RtcPort) : (State.updRtcPort s p f).still = s.still := by
  rfl

@[simp] theorem still_rtcEvent (s : State) (src code : Nat) (pay : List Byte) (never : Bool) : (rtcEvent s src code pay never).still = s.still := by
  simp [rtcEvent]

@[simp] theorem still_grid_fireAlarm (s : State) (n : Nat) : (fireAlarm s n).still.grid = s.still.grid := by
  simp [fireAlarm]

@[simp] theorem still_imgs_fireAlarm (s : State) (n : Nat) : (fireAlarm s n).still.imgs = s.still.imgs := by
  simp [fireAlarm]

@[simp] theorem still_svc_fireAlarm (s : State) (n : Nat) : (fireAlarm s n).still.svc = s.still.svc := by
  simp [fireAlarm]

theorem still_grid_execRtcSecond (s : State) : Stays Still.grid (execRtcSecond s) s := by
  unfold execRtcSecond; repeat' (first | with_reducible rfl | (simp +zetaDelta; done) |  split | extract_lets | (with_reducible apply foldl_stillgrid; intro _ _) | simp +zetaDelta)

theorem still_imgs_execRtcSecond (s : State) : Stays Still.imgs (execRtcSecond s) s := by
  unfold execRtcSecond; repeat' (first | with_reducible rfl | (simp +zetaDelta; done) | (with_reducible apply updLane_goes2; rotate_left; intro _) | split | extract_lets | (with_reducible apply foldl_stillimgs; intro _ _) | simp +zetaDelta)

@[simp] theorem still_rtcRead (s : State) (p : Nat) (sub : Bool) (cycles phase : Nat) : (rtcRead s p sub cycles phase).2.still = s.still := by
  simp [rtcRead]

@[simp] theorem still_rtcReadDate (s : State) (p : Nat) : (rtcReadDate s p).2.still = s.still := by
  unfold rtcReadDate; repeat' (first | with_reducible rfl | (simp +zetaDelta; done) | (with_reducible apply updLane_goes; rotate_left; intro _) | split | extract_lets | (with_reducible apply foldl_still; intro _ _) | simp +zetaDelta)

@[simp] theorem still_slowResult (p : Nat) (x : Nat × State) : (slowResult p x).still = x.2.still := rfl

@[simp] theorem still_slowReadWhole (s : State) (p a : Nat) (f : State → Nat × State) (hf : ∀ s, (f s).2.still = s.still) : (slowReadWhole s p a f).still = s.still := by
  simp [slowReadWhole, hf]

theorem still_execRtcTimeRead (p : Part) (sub : Bool) (cycles phase : Nat) (s : State) : Stays id (execRtcTimeRead p sub cycles phase s) s := by
  simp [execRtcTimeRead]

theorem still_execRtcDateRead (p : Part) (s : State) : Stays id (execRtcDateRead p s) s := by
  simp [execRtcDateRead]

@[simp] theorem still_rtcClear (s : State) (p d : Nat) : (rtcClear s p d).still = s.still := by
  rfl

theorem still_execRtcStatusClear (p : Part) (data : Word) (s : State) : Stays id (execRtcStatusClear p data s) s := by
  rfl

@[simp] theorem still_rtcShared (s : State) (p : Nat) (k : State) (h : k.still = s.still) : (rtcShared s p k).still = s.still := by
  unfold rtcShared; split
  · exact h
  · rfl

@[simp] theorem still_sk_rtcShared (s : State) (p : Nat) (k : State) (h : k.still.sk = s.still.sk) : (rtcShared s p k).still.sk = s.still.sk := by
  unfold rtcShared; split
  · exact h
  · rfl

@[simp] theorem still_grid_rtcShared (s : State) (p : Nat) (k : State) (h : k.still.grid = s.still.grid) : (rtcShared s p k).still.grid = s.still.grid := by
  unfold rtcShared; split
  · exact h
  · rfl

@[simp] theorem still_imgs_rtcShared (s : State) (p : Nat) (k : State) (h : k.still.imgs = s.still.imgs) : (rtcShared s p k).still.imgs = s.still.imgs := by
  unfold rtcShared; split
  · exact h
  · rfl

@[simp] theorem still_svc_rtcShared (s : State) (p : Nat) (k : State) (h : k.still.svc = s.still.svc) : (rtcShared s p k).still.svc = s.still.svc := by
  unfold rtcShared; split
  · exact h
  · rfl

@[simp] theorem still_sk_rtcCommit (s : State) (p d : Nat) : (rtcCommit s p d).still.sk = s.still.sk := by
  unfold rtcCommit; repeat' (first | with_reducible rfl | (simp +zetaDelta; done) |  split | extract_lets | (with_reducible apply foldl_stillsk; intro _ _) | simp +zetaDelta)

@[simp] theorem still_grid_rtcCommit (s : State) (p d : Nat) : (rtcCommit s p d).still.grid = s.still.grid := by
  unfold rtcCommit; repeat' (first | with_reducible rfl | (simp +zetaDelta; done) |  split | extract_lets | (with_reducible apply foldl_stillgrid; intro _ _) | simp +zetaDelta)

@[simp] theorem still_imgs_rtcCommit (s : State) (p d : Nat) : (rtcCommit s p d).still.imgs = s.still.imgs := by
  unfold rtcCommit; repeat' (first | with_reducible rfl | (simp +zetaDelta; done) | (with_reducible apply updLane_goes2; rotate_left; intro _) | split | extract_lets | (with_reducible apply foldl_stillimgs; intro _ _) | simp +zetaDelta)

theorem still_sk_execRtcCommit (p : Part) (data : Word) (s : State) : Stays Still.sk (execRtcCommit p data s) s := by
  simp [execRtcCommit]

theorem still_grid_execRtcCommit (p : Part) (data : Word) (s : State) : Stays Still.grid (execRtcCommit p data s) s := by
  simp [execRtcCommit]

theorem still_imgs_execRtcCommit (p : Part) (data : Word) (s : State) : Stays Still.imgs (execRtcCommit p data s) s := by
  simp [execRtcCommit]

@[simp] theorem still_sk_rtcAlarm (s : State) (p : Nat) (alarm2 date : Bool) (d : Nat) : (rtcAlarm s p alarm2 date d).still.sk = s.still.sk := by
  unfold rtcAlarm; repeat' (first | rfl | (simp; done) | split)

@[simp] theorem still_grid_rtcAlarm (s : State) (p : Nat) (alarm2 date : Bool) (d : Nat) : (rtcAlarm s p alarm2 date d).still.grid = s.still.grid := by
  unfold rtcAlarm; repeat' (first | rfl | (simp; done) | split)

@[simp] theorem still_imgs_rtcAlarm (s : State) (p : Nat) (alarm2 date : Bool) (d : Nat) : (rtcAlarm s p alarm2 date d).still.imgs = s.still.imgs := by
  unfold rtcAlarm; repeat' (first | rfl | (simp; done) | split)

theorem still_sk_execRtcAlarmWrite (p : Part) (alarm2 date : Bool) (data : Word) (s : State) : Stays Still.sk (execRtcAlarmWrite p alarm2 date data s) s := by
  simp [execRtcAlarmWrite]

theorem still_grid_execRtcAlarmWrite (p : Part) (alarm2 date : Bool) (data : Word) (s : State) : Stays Still.grid (execRtcAlarmWrite p alarm2 date data s) s := by
  simp [execRtcAlarmWrite]

theorem still_imgs_execRtcAlarmWrite (p : Part) (alarm2 date : Bool) (data : Word) (s : State) : Stays Still.imgs (execRtcAlarmWrite p alarm2 date data s) s := by
  simp [execRtcAlarmWrite]

@[simp] theorem still_sk_rtcTrim (s : State) (p d : Nat) : (rtcTrim s p d).still.sk = s.still.sk := by
  unfold rtcTrim; repeat' (first | with_reducible rfl | (simp +zetaDelta; done) |  split | extract_lets | (with_reducible apply foldl_stillsk; intro _ _) | simp +zetaDelta)

@[simp] theorem still_grid_rtcTrim (s : State) (p d : Nat) : (rtcTrim s p d).still.grid = s.still.grid := by
  unfold rtcTrim; repeat' (first | with_reducible rfl | (simp +zetaDelta; done) |  split | extract_lets | (with_reducible apply foldl_stillgrid; intro _ _) | simp +zetaDelta)

@[simp] theorem still_imgs_rtcTrim (s : State) (p d : Nat) : (rtcTrim s p d).still.imgs = s.still.imgs := by
  unfold rtcTrim; repeat' (first | with_reducible rfl | (simp +zetaDelta; done) | (with_reducible apply updLane_goes2; rotate_left; intro _) | split | extract_lets | (with_reducible apply foldl_stillimgs; intro _ _) | simp +zetaDelta)

theorem still_sk_execRtcTrimWrite (p : Part) (data : Word) (s : State) : Stays Still.sk (execRtcTrimWrite p data s) s := by
  simp [execRtcTrimWrite]

theorem still_grid_execRtcTrimWrite (p : Part) (data : Word) (s : State) : Stays Still.grid (execRtcTrimWrite p data s) s := by
  simp [execRtcTrimWrite]

theorem still_imgs_execRtcTrimWrite (p : Part) (data : Word) (s : State) : Stays Still.imgs (execRtcTrimWrite p data s) s := by
  simp [execRtcTrimWrite]

@[simp] theorem still_sk_rtcPowerLost (s : State) : (rtcPowerLost s).still.sk = s.still.sk := by
  rfl

@[simp] theorem still_grid_rtcPowerLost (s : State) : (rtcPowerLost s).still.grid = s.still.grid := by
  rfl

@[simp] theorem still_imgs_rtcPowerLost (s : State) : (rtcPowerLost s).still.imgs = s.still.imgs := by
  rfl

@[simp] theorem still_rtcSlowRead (s : State) (p a cycles phase : Nat) : (rtcSlowRead s p a cycles phase).2.still = s.still := by
  unfold rtcSlowRead; repeat' (first | rfl | (simp; done) | split)

@[simp] theorem still_sk_rtcSlowWrite (s : State) (p a d : Nat) : (rtcSlowWrite s p a d).still.sk = s.still.sk := by
  unfold rtcSlowWrite; repeat' (first | rfl | (simp; done) | split)

@[simp] theorem still_grid_rtcSlowWrite (s : State) (p a d : Nat) : (rtcSlowWrite s p a d).still.grid = s.still.grid := by
  unfold rtcSlowWrite; repeat' (first | rfl | (simp; done) | split)

@[simp] theorem still_imgs_rtcSlowWrite (s : State) (p a d : Nat) : (rtcSlowWrite s p a d).still.imgs = s.still.imgs := by
  unfold rtcSlowWrite; repeat' (first | rfl | (simp; done) | split)

end Sys2Proof.Machine
end

