-- ==== Sys2Proof/Laws/Still4.lean ====
section
/-! SUPPORT. What leaves SK-1, the tick grid, the process images or the service domain's objects alone: Panel, Supplies, Status, Tick, ConfigCommit, Reint, SafetyIo, Thl, Station.
One lemma per operation, and one per row that is no writer of them. -/

namespace Sys2Proof.Machine

/-! Panel -/

@[simp] theorem still_sk_State_updPnl (s : State) (f : Panel → Panel) : (State.updPnl s f).still.sk = s.still.sk := by
  rfl

@[simp] theorem still_grid_State_updPnl (s : State) (f : Panel → Panel) : (State.updPnl s f).still.grid = s.still.grid := by
  rfl

@[simp] theorem still_imgs_State_updPnl (s : State) (f : Panel → Panel) : (State.updPnl s f).still.imgs = s.still.imgs := by
  rfl

@[simp] theorem still_State_updPnlPort (s : State) (p : Nat) (f : PnlPort → PnlPort) : (State.updPnlPort s p f).still = s.still := by
  rfl

@[simp] theorem still_pnlEvent (s : State) (code data : Nat) : (pnlEvent s code data).still = s.still := by
  simp [pnlEvent]

@[simp] theorem still_pnlOpen (s : State) (code : Nat) : (pnlOpen s code).still = s.still := by
  simp [pnlOpen]

@[simp] theorem still_sk_endPass (s : State) : (endPass s).still.sk = s.still.sk := by
  unfold endPass; repeat' (first | with_reducible rfl | (simp +zetaDelta; done) |  split | extract_lets | (with_reducible apply foldl_stillsk; intro _ _) | simp +zetaDelta)

@[simp] theorem still_grid_endPass (s : State) : (endPass s).still.grid = s.still.grid := by
  unfold endPass; repeat' (first | with_reducible rfl | (simp +zetaDelta; done) |  split | extract_lets | (with_reducible apply foldl_stillgrid; intro _ _) | simp +zetaDelta)

@[simp] theorem still_imgs_endPass (s : State) : (endPass s).still.imgs = s.still.imgs := by
  unfold endPass; repeat' (first | with_reducible rfl | (simp +zetaDelta; done) | (with_reducible apply updLane_goes2; rotate_left; intro _) | split | extract_lets | (with_reducible apply foldl_stillimgs; intro _ _) | simp +zetaDelta)

theorem still_sk_execPanelPassDone (s : State) : Stays Still.sk (execPanelPassDone s) s := by
  simp [execPanelPassDone]

theorem still_grid_execPanelPassDone (s : State) : Stays Still.grid (execPanelPassDone s) s := by
  simp [execPanelPassDone]

theorem still_imgs_execPanelPassDone (s : State) : Stays Still.imgs (execPanelPassDone s) s := by
  simp [execPanelPassDone]

theorem still_sk_execPanelFrame (temp : Int) (station : List (Fin 240 × List Word)) (s : State) : Stays Still.sk (execPanelFrame temp station s) s := by
  unfold execPanelFrame; repeat' (first | with_reducible rfl | (simp +zetaDelta; done) |  split | extract_lets | (with_reducible apply foldl_stillsk; intro _ _) | simp +zetaDelta)

theorem still_grid_execPanelFrame (temp : Int) (station : List (Fin 240 × List Word)) (s : State) : Stays Still.grid (execPanelFrame temp station s) s := by
  unfold execPanelFrame; repeat' (first | with_reducible rfl | (simp +zetaDelta; done) |  split | extract_lets | (with_reducible apply foldl_stillgrid; intro _ _) | simp +zetaDelta)

theorem still_imgs_execPanelFrame (temp : Int) (station : List (Fin 240 × List Word)) (s : State) : Stays Still.imgs (execPanelFrame temp station s) s := by
  unfold execPanelFrame; repeat' (first | with_reducible rfl | (simp +zetaDelta; done) | (with_reducible apply updLane_goes2; rotate_left; intro _) | split | extract_lets | (with_reducible apply foldl_stillimgs; intro _ _) | simp +zetaDelta)

theorem still_sk_execPanelIdle (s : State) : Stays Still.sk (execPanelIdle s) s := by
  unfold execPanelIdle; repeat' (first | with_reducible rfl | (simp +zetaDelta; done) |  split | extract_lets | (with_reducible apply foldl_stillsk; intro _ _) | simp +zetaDelta)

theorem still_grid_execPanelIdle (s : State) : Stays Still.grid (execPanelIdle s) s := by
  unfold execPanelIdle; repeat' (first | with_reducible rfl | (simp +zetaDelta; done) |  split | extract_lets | (with_reducible apply foldl_stillgrid; intro _ _) | simp +zetaDelta)

theorem still_imgs_execPanelIdle (s : State) : Stays Still.imgs (execPanelIdle s) s := by
  unfold execPanelIdle; repeat' (first | with_reducible rfl | (simp +zetaDelta; done) | (with_reducible apply updLane_goes2; rotate_left; intro _) | split | extract_lets | (with_reducible apply foldl_stillimgs; intro _ _) | simp +zetaDelta)

theorem still_grid_execPanelKey (s : State) : Stays Still.grid (execPanelKey s) s := by
  unfold execPanelKey; repeat' (first | with_reducible rfl | (simp +zetaDelta; done) |  split | extract_lets | (with_reducible apply foldl_stillgrid; intro _ _) | simp +zetaDelta)

theorem still_imgs_execPanelKey (s : State) : Stays Still.imgs (execPanelKey s) s := by
  unfold execPanelKey; repeat' (first | with_reducible rfl | (simp +zetaDelta; done) | (with_reducible apply updLane_goes2; rotate_left; intro _) | split | extract_lets | (with_reducible apply foldl_stillimgs; intro _ _) | simp +zetaDelta)

@[simp] theorem still_pnlReject (s : State) (p : Nat) : (pnlReject s p).still = s.still := by
  simp [pnlReject]

@[simp] theorem still_sk_pnlShow (s : State) (p d : Nat) : (pnlShow s p d).still.sk = s.still.sk := by
  unfold pnlShow; repeat' (first | rfl | (simp; done) | split)

@[simp] theorem still_grid_pnlShow (s : State) (p d : Nat) : (pnlShow s p d).still.grid = s.still.grid := by
  unfold pnlShow; repeat' (first | rfl | (simp; done) | split)

@[simp] theorem still_imgs_pnlShow (s : State) (p d : Nat) : (pnlShow s p d).still.imgs = s.still.imgs := by
  unfold pnlShow; repeat' (first | rfl | (simp; done) | split)

theorem still_sk_execPnlShowWrite (p : Part) (data : Word) (s : State) : Stays Still.sk (execPnlShowWrite p data s) s := by
  simp [execPnlShowWrite]

theorem still_grid_execPnlShowWrite (p : Part) (data : Word) (s : State) : Stays Still.grid (execPnlShowWrite p data s) s := by
  simp [execPnlShowWrite]

theorem still_imgs_execPnlShowWrite (p : Part) (data : Word) (s : State) : Stays Still.imgs (execPnlShowWrite p data s) s := by
  simp [execPnlShowWrite]

@[simp] theorem still_pnlLine (s : State) (p d : Nat) : (pnlLine s p d).still = s.still := by
  simp [pnlLine]

theorem still_execPnlLineWrite (p : Part) (data : Word) (s : State) : Stays id (execPnlLineWrite p data s) s := by
  simp [execPnlLineWrite]

@[simp] theorem still_sk_pnlData (s : State) (p d : Nat) : (pnlData s p d).still.sk = s.still.sk := by
  unfold pnlData; repeat' (first | with_reducible rfl | (simp +zetaDelta; done) |  split | extract_lets | (with_reducible apply foldl_stillsk; intro _ _) | simp +zetaDelta)

@[simp] theorem still_grid_pnlData (s : State) (p d : Nat) : (pnlData s p d).still.grid = s.still.grid := by
  unfold pnlData; repeat' (first | with_reducible rfl | (simp +zetaDelta; done) |  split | extract_lets | (with_reducible apply foldl_stillgrid; intro _ _) | simp +zetaDelta)

@[simp] theorem still_imgs_pnlData (s : State) (p d : Nat) : (pnlData s p d).still.imgs = s.still.imgs := by
  unfold pnlData; repeat' (first | with_reducible rfl | (simp +zetaDelta; done) | (with_reducible apply updLane_goes2; rotate_left; intro _) | split | extract_lets | (with_reducible apply foldl_stillimgs; intro _ _) | simp +zetaDelta)

theorem still_sk_execPnlDataWrite (p : Part) (data : Word) (s : State) : Stays Still.sk (execPnlDataWrite p data s) s := by
  simp [execPnlDataWrite]

theorem still_grid_execPnlDataWrite (p : Part) (data : Word) (s : State) : Stays Still.grid (execPnlDataWrite p data s) s := by
  simp [execPnlDataWrite]

theorem still_imgs_execPnlDataWrite (p : Part) (data : Word) (s : State) : Stays Still.imgs (execPnlDataWrite p data s) s := by
  simp [execPnlDataWrite]

@[simp] theorem still_sk_pnlCommitTo (s : State) (p d started : Nat) : (pnlCommitTo s p d started).still.sk = s.still.sk := by
  unfold pnlCommitTo; repeat' (first | with_reducible rfl | (simp +zetaDelta; done) |  split | extract_lets | (with_reducible apply foldl_stillsk; intro _ _) | simp +zetaDelta)

@[simp] theorem still_grid_pnlCommitTo (s : State) (p d started : Nat) : (pnlCommitTo s p d started).still.grid = s.still.grid := by
  unfold pnlCommitTo; repeat' (first | with_reducible rfl | (simp +zetaDelta; done) |  split | extract_lets | (with_reducible apply foldl_stillgrid; intro _ _) | simp +zetaDelta)

@[simp] theorem still_imgs_pnlCommitTo (s : State) (p d started : Nat) : (pnlCommitTo s p d started).still.imgs = s.still.imgs := by
  unfold pnlCommitTo; repeat' (first | with_reducible rfl | (simp +zetaDelta; done) | (with_reducible apply updLane_goes2; rotate_left; intro _) | split | extract_lets | (with_reducible apply foldl_stillimgs; intro _ _) | simp +zetaDelta)

theorem still_sk_execPnlCommit (p : Part) (data : Word) (started : Nat) (s : State) : Stays Still.sk (execPnlCommit p data started s) s := by
  simp [execPnlCommit]

theorem still_grid_execPnlCommit (p : Part) (data : Word) (started : Nat) (s : State) : Stays Still.grid (execPnlCommit p data started s) s := by
  simp [execPnlCommit]

theorem still_imgs_execPnlCommit (p : Part) (data : Word) (started : Nat) (s : State) : Stays Still.imgs (execPnlCommit p data started s) s := by
  simp [execPnlCommit]

@[simp] theorem still_pnlClear (s : State) (p d : Nat) : (pnlClear s p d).still = s.still := by
  rfl

theorem still_execPnlStatusClear (p : Part) (data : Word) (s : State) : Stays id (execPnlStatusClear p data s) s := by
  rfl

@[simp] theorem still_sk_pnlSlowWrite (s : State) (p a d started : Nat) : (pnlSlowWrite s p a d started).still.sk = s.still.sk := by
  unfold pnlSlowWrite; repeat' (first | rfl | (simp; done) | split)

@[simp] theorem still_grid_pnlSlowWrite (s : State) (p a d started : Nat) : (pnlSlowWrite s p a d started).still.grid = s.still.grid := by
  unfold pnlSlowWrite; repeat' (first | rfl | (simp; done) | split)

@[simp] theorem still_imgs_pnlSlowWrite (s : State) (p a d started : Nat) : (pnlSlowWrite s p a d started).still.imgs = s.still.imgs := by
  unfold pnlSlowWrite; repeat' (first | rfl | (simp; done) | split)

@[simp] theorem still_sk_panelBlank (s : State) : (panelBlank s).still.sk = s.still.sk := by
  rfl

@[simp] theorem still_grid_panelBlank (s : State) : (panelBlank s).still.grid = s.still.grid := by
  rfl

@[simp] theorem still_imgs_panelBlank (s : State) : (panelBlank s).still.imgs = s.still.imgs := by
  rfl

@[simp] theorem still_sk_panelRedraw (s : State) : (panelRedraw s).still.sk = s.still.sk := by
  rfl

@[simp] theorem still_grid_panelRedraw (s : State) : (panelRedraw s).still.grid = s.still.grid := by
  rfl

@[simp] theorem still_imgs_panelRedraw (s : State) : (panelRedraw s).still.imgs = s.still.imgs := by
  rfl

@[simp] theorem still_sk_panelApply (old new : List CfgRec) (s : State) : (panelApply old new s).still.sk = s.still.sk := by
  rfl

@[simp] theorem still_grid_panelApply (old new : List CfgRec) (s : State) : (panelApply old new s).still.grid = s.still.grid := by
  rfl

@[simp] theorem still_imgs_panelApply (old new : List CfgRec) (s : State) : (panelApply old new s).still.imgs = s.still.imgs := by
  rfl

/-! Supplies -/

@[simp] theorem still_sk_State_updSup (s : State) (f : Supply → Supply) : (State.updSup s f).still.sk = s.still.sk := by
  rfl

@[simp] theorem still_grid_State_updSup (s : State) (f : Supply → Supply) : (State.updSup s f).still.grid = s.still.grid := by
  rfl

@[simp] theorem still_imgs_State_updSup (s : State) (f : Supply → Supply) : (State.updSup s f).still.imgs = s.still.imgs := by
  rfl

@[simp] theorem still_sk_State_updCart (s : State) (f : Cart → Cart) : (State.updCart s f).still.sk = s.still.sk := by
  rfl

@[simp] theorem still_grid_State_updCart (s : State) (f : Cart → Cart) : (State.updCart s f).still.grid = s.still.grid := by
  rfl

@[simp] theorem still_imgs_State_updCart (s : State) (f : Cart → Cart) : (State.updCart s f).still.imgs = s.still.imgs := by
  rfl

@[simp] theorem still_sk_setFeed (s : State) (l : LaneId) (on : Bool) (mv : Nat) : (setFeed s l on mv).still.sk = s.still.sk := by
  rfl

@[simp] theorem still_grid_setFeed (s : State) (l : LaneId) (on : Bool) (mv : Nat) : (setFeed s l on mv).still.grid = s.still.grid := by
  rfl

@[simp] theorem still_imgs_setFeed (s : State) (l : LaneId) (on : Bool) (mv : Nat) : (setFeed s l on mv).still.imgs = s.still.imgs := by
  rfl

@[simp] theorem still_supEvent (s : State) (src code : Nat) (pay : List Byte := []) : (supEvent s src code pay).still = s.still := by
  simp [supEvent]

@[simp] theorem still_cartFlag (s : State) (k : Nat) : (cartFlag s k).still = s.still := by
  unfold cartFlag; repeat' (first | with_reducible rfl | (simp +zetaDelta; done) | (with_reducible apply updLane_goes; rotate_left; intro _) | split | extract_lets | (with_reducible apply foldl_still; intro _ _) | simp +zetaDelta)

@[simp] theorem still_sk_bankVolts (s : State) (mv : Nat) : (bankVolts s mv).still.sk = s.still.sk := by
  rfl

@[simp] theorem still_grid_bankVolts (s : State) (mv : Nat) : (bankVolts s mv).still.grid = s.still.grid := by
  rfl

@[simp] theorem still_imgs_bankVolts (s : State) (mv : Nat) : (bankVolts s mv).still.imgs = s.still.imgs := by
  rfl

@[simp] theorem still_sk_abandonMeasure (s : State) : (abandonMeasure s).still.sk = s.still.sk := by
  unfold abandonMeasure; repeat' (first | rfl | (simp; done) | split)

@[simp] theorem still_grid_abandonMeasure (s : State) : (abandonMeasure s).still.grid = s.still.grid := by
  unfold abandonMeasure; repeat' (first | rfl | (simp; done) | split)

@[simp] theorem still_imgs_abandonMeasure (s : State) : (abandonMeasure s).still.imgs = s.still.imgs := by
  unfold abandonMeasure; repeat' (first | rfl | (simp; done) | split)

@[simp] theorem still_tearWrite (s : State) : (tearWrite s).still = s.still := by
  simp [tearWrite]

@[simp] theorem still_grid_powerOff (s : State) : (powerOff s).still.grid = s.still.grid := by
  have h (u : State) : (panelBlank (rtcPowerLost (tearWrite u))).still.grid = u.still.grid := by simp
  unfold powerOff; extract_lets s1 s2 off s3 s4 s5
  have h2 : s2.still.grid = s.still.grid := (h (abandonBank s 2)).trans (by simp)
  clear_value s2
  exact h2

@[simp] theorem still_sk_unpowerLane (s : State) (l : LaneId) : (unpowerLane s l).still.sk = s.still.sk := by
  unfold unpowerLane; extract_lets s1
  have h1 : s1.still.sk = s.still.sk := by simp only [s1]; split <;> simp
  simp [h1]

@[simp] theorem still_grid_unpowerLane (s : State) (l : LaneId) : (unpowerLane s l).still.grid = s.still.grid := by
  unfold unpowerLane; extract_lets s1
  have h1 : s1.still.grid = s.still.grid := by simp only [s1]; split <;> simp
  simp [h1]

@[simp] theorem still_svc_unpowerLane (s : State) (l : LaneId) : (unpowerLane s l).still.svc = s.still.svc := by
  unfold unpowerLane; extract_lets s1
  have h1 : s1.still.svc = s.still.svc := by simp only [s1]; split <;> simp
  simp [h1]

@[simp] theorem still_sk_endHoldup (s : State) : (endHoldup s).still.sk = s.still.sk := by
  unfold endHoldup; repeat' (first | with_reducible rfl | (simp +zetaDelta; done) |  split | extract_lets | (with_reducible apply foldl_stillsk; intro _ _) | simp +zetaDelta)

@[simp] theorem still_grid_endHoldup (s : State) : (endHoldup s).still.grid = s.still.grid := by
  unfold endHoldup; repeat' (first | with_reducible rfl | (simp +zetaDelta; done) |  split | extract_lets | (with_reducible apply foldl_stillgrid; intro _ _) | simp +zetaDelta)

@[simp] theorem still_sk_pfFinish (s : State) : (pfFinish s).still.sk = s.still.sk := by
  unfold pfFinish; repeat' (first | with_reducible rfl | (simp +zetaDelta; done) |  split | extract_lets | (with_reducible apply foldl_stillsk; intro _ _) | simp +zetaDelta)

@[simp] theorem still_grid_pfFinish (s : State) : (pfFinish s).still.grid = s.still.grid := by
  unfold pfFinish; repeat' (first | with_reducible rfl | (simp +zetaDelta; done) |  split | extract_lets | (with_reducible apply foldl_stillgrid; intro _ _) | simp +zetaDelta)

@[simp] theorem still_sk_pfStop (s : State) (cause arg : Nat) : (pfStop s cause arg).still.sk = s.still.sk := by
  unfold pfStop; repeat' (first | rfl | (simp; done) | split)

@[simp] theorem still_grid_pfStop (s : State) (cause arg : Nat) : (pfStop s cause arg).still.grid = s.still.grid := by
  unfold pfStop; repeat' (first | rfl | (simp; done) | split)

@[simp] theorem still_sk_pfBank (s : State) (l : LaneId) : (pfBank s l).still.sk = s.still.sk := by
  unfold pfBank; repeat' (first | with_reducible rfl | (simp +zetaDelta; done) |  split | extract_lets | (with_reducible apply foldl_stillsk; intro _ _) | simp +zetaDelta)

@[simp] theorem still_grid_pfBank (s : State) (l : LaneId) : (pfBank s l).still.grid = s.still.grid := by
  unfold pfBank; repeat' (first | with_reducible rfl | (simp +zetaDelta; done) |  split | extract_lets | (with_reducible apply foldl_stillgrid; intro _ _) | simp +zetaDelta)

theorem still_sk_execBankWriteDone (s : State) : Stays Still.sk (execBankWriteDone s) s := by
  unfold execBankWriteDone; repeat' (first | with_reducible rfl | (simp +zetaDelta; done) |  split | extract_lets | (with_reducible apply foldl_stillsk; intro _ _) | simp +zetaDelta)

theorem still_grid_execBankWriteDone (s : State) : Stays Still.grid (execBankWriteDone s) s := by
  unfold execBankWriteDone; repeat' (first | with_reducible rfl | (simp +zetaDelta; done) |  split | extract_lets | (with_reducible apply foldl_stillgrid; intro _ _) | simp +zetaDelta)

theorem still_sk_execLaneFeedLost (l : LaneId) (feedMv : Nat) (s : State) : Stays Still.sk (execLaneFeedLost l feedMv s) s := by
  unfold execLaneFeedLost; repeat' (first | with_reducible rfl | (simp +zetaDelta; done) |  split | extract_lets | (with_reducible apply foldl_stillsk; intro _ _) | simp +zetaDelta)

theorem still_grid_execLaneFeedLost (l : LaneId) (feedMv : Nat) (s : State) : Stays Still.grid (execLaneFeedLost l feedMv s) s := by
  unfold execLaneFeedLost; repeat' (first | with_reducible rfl | (simp +zetaDelta; done) |  split | extract_lets | (with_reducible apply foldl_stillgrid; intro _ _) | simp +zetaDelta)

@[simp] theorem still_sk_tryMeasure (s : State) : (tryMeasure s).still.sk = s.still.sk := by
  rfl

@[simp] theorem still_grid_tryMeasure (s : State) : (tryMeasure s).still.grid = s.still.grid := by
  rfl

@[simp] theorem still_imgs_tryMeasure (s : State) : (tryMeasure s).still.imgs = s.still.imgs := by
  rfl

theorem still_sk_execLaneFeedRestored (l : LaneId) (feedMv : Nat) (s : State) : Stays Still.sk (execLaneFeedRestored l feedMv s) s := by
  unfold execLaneFeedRestored; repeat' (first | with_reducible rfl | (simp +zetaDelta; done) |  split | extract_lets | (with_reducible apply foldl_stillsk; intro _ _) | simp +zetaDelta)

theorem still_grid_execLaneFeedRestored (l : LaneId) (feedMv : Nat) (s : State) : Stays Still.grid (execLaneFeedRestored l feedMv s) s := by
  unfold execLaneFeedRestored; repeat' (first | with_reducible rfl | (simp +zetaDelta; done) |  split | extract_lets | (with_reducible apply foldl_stillgrid; intro _ _) | simp +zetaDelta)

@[simp] theorem still_sk_dropUncarried (s : State) (l : LaneId) : (dropUncarried s l).still.sk = s.still.sk := by
  simp [dropUncarried]

@[simp] theorem still_grid_dropUncarried (s : State) (l : LaneId) : (dropUncarried s l).still.grid = s.still.grid := by
  simp [dropUncarried]

@[simp] theorem still_svc_dropUncarried (s : State) (l : LaneId) : (dropUncarried s l).still.svc = s.still.svc := by
  simp [dropUncarried]

theorem still_grid_execPowerFailure (bankMv feedAMv feedBMv : Nat) (s : State) : Stays Still.grid (execPowerFailure bankMv feedAMv feedBMv s) s := by
  unfold execPowerFailure; repeat' (first | with_reducible rfl | (simp +zetaDelta; done) |  split | extract_lets | (with_reducible apply foldl_stillgrid; intro _ _) | simp +zetaDelta)

theorem still_sk_execRideThroughEnd (s : State) : Stays Still.sk (execRideThroughEnd s) s := by
  unfold execRideThroughEnd; repeat' (first | rfl | (simp; done) | split)

theorem still_grid_execRideThroughEnd (s : State) : Stays Still.grid (execRideThroughEnd s) s := by
  unfold execRideThroughEnd; repeat' (first | rfl | (simp; done) | split)

theorem still_grid_execHoldupOff (s : State) : Stays Still.grid (execHoldupOff s) s := by
  unfold execHoldupOff; repeat' (first | with_reducible rfl | (simp +zetaDelta; done) |  split | extract_lets | (with_reducible apply foldl_stillgrid; intro _ _) | simp +zetaDelta)

theorem still_sk_execSafeShutdown (p : Part) (s : State) : Stays Still.sk (execSafeShutdown p s) s := by
  unfold execSafeShutdown
  refine still_sk_serve _ _ _ _ (fun ws => ?_)
  refine still_sk_needOperator _ _ _ _ ?_
  split
  · simp
  · simp

theorem still_grid_execSafeShutdown (p : Part) (s : State) : Stays Still.grid (execSafeShutdown p s) s := by
  unfold execSafeShutdown
  refine still_grid_serve _ _ _ _ (fun ws => ?_)
  refine still_grid_needOperator _ _ _ _ ?_
  split
  · simp
  · simp

theorem still_sk_execCartInserted (id : CartId) (bankMv : Nat) (s : State) : Stays Still.sk (execCartInserted id bankMv s) s := by
  unfold execCartInserted; rw [stays_next]; split
  · rfl
  · extract_lets s1 s2
    have h1 : s1.still.sk = s.still.sk := rfl
    have h2 : s2.still.sk = s.still.sk := by simp [s2, h1]
    rw [still_sk_tryMeasure]; split <;> simp [h2]

theorem still_grid_execCartInserted (id : CartId) (bankMv : Nat) (s : State) : Stays Still.grid (execCartInserted id bankMv s) s := by
  unfold execCartInserted; rw [stays_next]; split
  · rfl
  · extract_lets s1 s2
    have h1 : s1.still.grid = s.still.grid := rfl
    have h2 : s2.still.grid = s.still.grid := by simp [s2, h1]
    rw [still_grid_tryMeasure]; split <;> simp [h2]

theorem still_imgs_execCartInserted (id : CartId) (bankMv : Nat) (s : State) : Stays Still.imgs (execCartInserted id bankMv s) s := by
  unfold execCartInserted; rw [stays_next]; split
  · rfl
  · extract_lets s1 s2
    have h1 : s1.still.imgs = s.still.imgs := rfl
    have h2 : s2.still.imgs = s.still.imgs := by simp [s2, h1]
    rw [still_imgs_tryMeasure]; split <;> simp [h2]

theorem still_grid_execCartRemoved (s : State) : Stays Still.grid (execCartRemoved s) s := by
  have h (u : State) : (abandonBank u 3).still.grid = u.still.grid := by simp
  unfold execCartRemoved; rw [stays_next]; split
  · rfl
  · extract_lets s1 held s2 s3
    have h3 : s3.still.grid = s.still.grid := h _ |>.trans (show s2.still.grid = _ by simp [s2, s1])
    split
    · simp [h3]
    · split
      · simp [h3]
      · split
        · simp [h3]
        · split
          · simp [h3]
          · exact h3

theorem still_execBayEmptyRepeat (s : State) : Stays id (execBayEmptyRepeat s) s := by
  simp [execBayEmptyRepeat]

@[simp] theorem still_sk_cartCtrl (s : State) (p d : Nat) : (cartCtrl s p d).still.sk = s.still.sk := by
  unfold cartCtrl; repeat' (first | rfl | (simp; done) | split)

@[simp] theorem still_grid_cartCtrl (s : State) (p d : Nat) : (cartCtrl s p d).still.grid = s.still.grid := by
  unfold cartCtrl; repeat' (first | rfl | (simp; done) | split)

@[simp] theorem still_imgs_cartCtrl (s : State) (p d : Nat) : (cartCtrl s p d).still.imgs = s.still.imgs := by
  unfold cartCtrl; repeat' (first | rfl | (simp; done) | split)

theorem still_sk_execCartMeasNow (p : Part) (data : Word) (s : State) : Stays Still.sk (execCartMeasNow p data s) s := by
  simp [execCartMeasNow]

theorem still_grid_execCartMeasNow (p : Part) (data : Word) (s : State) : Stays Still.grid (execCartMeasNow p data s) s := by
  simp [execCartMeasNow]

theorem still_imgs_execCartMeasNow (p : Part) (data : Word) (s : State) : Stays Still.imgs (execCartMeasNow p data s) s := by
  simp [execCartMeasNow]

theorem still_sk_execCartMeasDue (bankMv : Nat) (s : State) : Stays Still.sk (execCartMeasDue bankMv s) s := by
  rfl

theorem still_grid_execCartMeasDue (bankMv : Nat) (s : State) : Stays Still.grid (execCartMeasDue bankMv s) s := by
  rfl

theorem still_imgs_execCartMeasDue (bankMv : Nat) (s : State) : Stays Still.imgs (execCartMeasDue bankMv s) s := by
  rfl

theorem still_sk_execCartMeasDone (stepMv dischargeMs : Nat) (s : State) : Stays Still.sk (execCartMeasDone stepMv dischargeMs s) s := by
  unfold execCartMeasDone; repeat' (first | rfl | (simp; done) | split)

theorem still_grid_execCartMeasDone (stepMv dischargeMs : Nat) (s : State) : Stays Still.grid (execCartMeasDone stepMv dischargeMs s) s := by
  unfold execCartMeasDone; repeat' (first | rfl | (simp; done) | split)

theorem still_imgs_execCartMeasDone (stepMv dischargeMs : Nat) (s : State) : Stays Still.imgs (execCartMeasDone stepMv dischargeMs s) s := by
  unfold execCartMeasDone; repeat' (first | rfl | (simp; done) | split)

theorem still_sk_execCartHour (tempC : Int) (s : State) : Stays Still.sk (execCartHour tempC s) s := by
  rfl

theorem still_grid_execCartHour (tempC : Int) (s : State) : Stays Still.grid (execCartHour tempC s) s := by
  rfl

theorem still_imgs_execCartHour (tempC : Int) (s : State) : Stays Still.imgs (execCartHour tempC s) s := by
  rfl

@[simp] theorem still_cartClear (s : State) (p d : Nat) : (cartClear s p d).still = s.still := by
  rfl

theorem still_execCartStatusClear (p : Part) (data : Word) (s : State) : Stays id (execCartStatusClear p data s) s := by
  rfl

@[simp] theorem still_sk_slowRead (s : State) (p a : Nat) (x : SlowSample) : (slowRead s p a x).2.still.sk = s.still.sk := by
  unfold slowRead; repeat' (first | rfl | (simp; done) | split)

@[simp] theorem still_grid_slowRead (s : State) (p a : Nat) (x : SlowSample) : (slowRead s p a x).2.still.grid = s.still.grid := by
  unfold slowRead; repeat' (first | rfl | (simp; done) | split)

@[simp] theorem still_imgs_slowRead (s : State) (p a : Nat) (x : SlowSample) : (slowRead s p a x).2.still.imgs = s.still.imgs := by
  unfold slowRead; repeat' (first | rfl | (simp; done) | split)

@[simp] theorem still_sk_slowWrite (s : State) (p a d started : Nat) : (slowWrite s p a d started).still.sk = s.still.sk := by
  unfold slowWrite; repeat' (first | rfl | (simp; done) | split)

@[simp] theorem still_grid_slowWrite (s : State) (p a d started : Nat) : (slowWrite s p a d started).still.grid = s.still.grid := by
  unfold slowWrite; repeat' (first | rfl | (simp; done) | split)

@[simp] theorem still_imgs_slowWrite (s : State) (p a d started : Nat) : (slowWrite s p a d started).still.imgs = s.still.imgs := by
  unfold slowWrite; repeat' (first | rfl | (simp; done) | split)

@[simp] theorem still_sk_slowServe (s : State) (p : Nat) (x : SlowSample) : (slowServe s p x).still.sk = s.still.sk := by
  unfold slowServe; repeat' (first | with_reducible rfl | (simp +zetaDelta ; done) | split | extract_lets | (with_reducible apply foldl_stillsk; intro _ _) | simp +zetaDelta )

@[simp] theorem still_grid_slowServe (s : State) (p : Nat) (x : SlowSample) : (slowServe s p x).still.grid = s.still.grid := by
  unfold slowServe; repeat' (first | with_reducible rfl | (simp +zetaDelta ; done) | split | extract_lets | (with_reducible apply foldl_stillgrid; intro _ _) | simp +zetaDelta )

@[simp] theorem still_imgs_slowServe (s : State) (p : Nat) (x : SlowSample) : (slowServe s p x).still.imgs = s.still.imgs := by
  unfold slowServe; repeat' (first | with_reducible rfl | (simp +zetaDelta ; done) | (with_reducible apply updLane_goes2; rotate_left; intro _) | split | extract_lets | (with_reducible apply foldl_stillimgs; intro _ _) | simp +zetaDelta )

@[simp] theorem still_sk_slowCycle (xs : List (Nat × SlowSample)) (s : State) : (slowCycle xs s).still.sk = s.still.sk := by
  unfold slowCycle; extract_lets _ _ _ _ _
  rw [updSvc_still]; show (State.still _).sk = _
  rw [foldl_stillsk]; intro _ _; simp

@[simp] theorem still_grid_slowCycle (xs : List (Nat × SlowSample)) (s : State) : (slowCycle xs s).still.grid = s.still.grid := by
  unfold slowCycle; extract_lets _ _ _ _ _
  rw [updSvc_still]; show (State.still _).grid = _
  rw [foldl_stillgrid]; intro _ _; simp

@[simp] theorem still_imgs_slowCycle (xs : List (Nat × SlowSample)) (s : State) : (slowCycle xs s).still.imgs = s.still.imgs := by
  unfold slowCycle; extract_lets _ _ _ _ _
  rw [updSvc_still]; show (State.still _).imgs = _
  rw [foldl_stillimgs]; intro _ _; simp

theorem still_sk_execSlowAccessDone (p : Part) (x : SlowSample) (cycle : List (Part × SlowSample)) (s : State) : Stays Still.sk (execSlowAccessDone p x cycle s) s := by
  simp [execSlowAccessDone]

theorem still_grid_execSlowAccessDone (p : Part) (x : SlowSample) (cycle : List (Part × SlowSample)) (s : State) : Stays Still.grid (execSlowAccessDone p x cycle s) s := by
  simp [execSlowAccessDone]

theorem still_imgs_execSlowAccessDone (p : Part) (x : SlowSample) (cycle : List (Part × SlowSample)) (s : State) : Stays Still.imgs (execSlowAccessDone p x cycle s) s := by
  unfold execSlowAccessDone; repeat' (first | with_reducible rfl | (simp +zetaDelta; done) | (with_reducible apply updLane_goes2; rotate_left; intro _) | split | extract_lets | (with_reducible apply foldl_stillimgs; intro _ _) | simp +zetaDelta)

/-! Status -/

@[simp] theorem still_keepStatus (s : State) (l : LaneId) : (keepStatus s l).still = s.still := by
  simp [keepStatus]

/-! Tick -/

@[simp] theorem still_sk_startEdge (s : State) : (startEdge s).still.sk = s.still.sk := by
  unfold startEdge; extract_lets s1 s2 s3 s4
  have h1 : s1.still.sk = s.still.sk := still_sk_bothLanes _ _ fun s l => by split <;> simp
  have h2 : s2.still.sk = s1.still.sk := still_sk_bothLanes _ _ fun s l => by simp
  have h4 : s4.still.sk = s2.still.sk := by simp [s4, s3]
  exact (show _ = s4.still.sk from rfl).trans (h4.trans (h2.trans h1))

@[simp] theorem still_imgs_startEdge (s : State) : (startEdge s).still.imgs = s.still.imgs := by
  unfold startEdge; extract_lets s1 s2 s3 s4
  have h1 : s1.still.imgs = s.still.imgs := still_imgs_bothLanes _ _ fun s l => by split <;> simp
  have h2 : s2.still.imgs = s1.still.imgs := still_imgs_bothLanes _ _ fun s l => congrArg Still.imgs (updLane_imgs _ _ _ rfl)
  have h4 : s4.still.imgs = s2.still.imgs := by simp [s4, s3]
  exact (show _ = s4.still.imgs from rfl).trans (h4.trans (h2.trans h1))

@[simp] theorem still_svc_startEdge (s : State) : (startEdge s).still.svc = s.still.svc := by
  unfold startEdge; extract_lets s1 s2 s3 s4
  have h1 : s1.still.svc = s.still.svc := still_svc_bothLanes _ _ fun s l => by split <;> simp
  have h2 : s2.still.svc = s1.still.svc := still_svc_bothLanes _ _ fun s l => by simp
  have h4 : s4.still.svc = s2.still.svc := by simp [s4, s3]
  exact (show _ = s4.still.svc from rfl).trans (h4.trans (h2.trans h1))

@[simp] theorem still_answerStops (s : State) : (answerStops s).still = s.still := by
  simp [answerStops]

@[simp] theorem still_sk_stationEdge (s : State) : (stationEdge s).still.sk = s.still.sk := by
  unfold stationEdge; repeat' (first | with_reducible rfl | (simp +zetaDelta; done) |  split | extract_lets | (with_reducible apply foldl_stillsk; intro _ _) | simp +zetaDelta)

@[simp] theorem still_imgs_stationEdge (s : State) : (stationEdge s).still.imgs = s.still.imgs := by
  unfold stationEdge; repeat' (first | with_reducible rfl | (simp +zetaDelta; done) | (with_reducible apply updLane_goes2; rotate_left; intro _) | split | extract_lets | (with_reducible apply foldl_stillimgs; intro _ _) | simp +zetaDelta)

@[simp] theorem still_svc_stationEdge (s : State) : (stationEdge s).still.svc = s.still.svc := by
  unfold stationEdge; repeat' (first | with_reducible rfl | (simp +zetaDelta; done) |  split | extract_lets | (with_reducible apply foldl_stillsvc; intro _ _) | simp +zetaDelta)

@[simp] theorem still_forgetSeen (s : State) (l : LaneId) : (forgetSeen s l).still = s.still := by
  unfold forgetSeen; repeat' (first | with_reducible rfl | (simp +zetaDelta ; done) | (with_reducible apply updLane_goes; rotate_left; intro _) | split | extract_lets | (with_reducible apply foldl_still; intro _ _) | simp +zetaDelta )

@[simp] theorem still_endsEdge (s : State) : (endsEdge s).still = s.still := by
  unfold endsEdge; repeat' (first | with_reducible rfl | (simp +zetaDelta; done) | (with_reducible apply updLane_goes; rotate_left; intro _) | split | extract_lets | (with_reducible apply foldl_still; intro _ _) | simp +zetaDelta)

@[simp] theorem still_partsEdge (s : State) : (partsEdge s).still = s.still := by
  rfl

theorem still_imgs_execTickEdge (skewNs : Int) (s : State) : Stays Still.imgs (execTickEdge skewNs s) s := by
  unfold execTickEdge; rw [stays_next]; split
  · rfl
  · extract_lets l was; split; rename_i d s1 hq; extract_lets g s2 s3 hold4 s4 s5 s6
    have hq2 := (congrArg (fun x => (State.still (Prod.snd x)).imgs) hq).symm
    have h1 : s1.still.imgs = s.still.imgs := hq2.trans (by simp)
    have h2 : s2.still.imgs = s.still.imgs := by
      simp only [s2]; split
      · exact h1
      · simp only [still_raiseUnnamed]; exact h1
    have h3 : s3.still.imgs = s.still.imgs := (still_imgs_bothLanes _ _ fun s l => congrArg Still.imgs (updLane_imgs _ _ _ rfl)).trans (by simp [h2])
    have h4 : s4.still.imgs = s.still.imgs := by simp [s4, h3]
    have h5 : s5.still.imgs = s.still.imgs := (still_imgs_bothLanes _ _ fun s l => by split <;> simp).trans h4
    have h6 : s6.still.imgs = s.still.imgs := by simp [s6, h5]
    rw [still_imgs_darkEdge, show (litEdge _).still.imgs = _ from congrArg Still.imgs (still_litEdge _)]
    refine (still_imgs_bothLanes _ _ fun s l => ?_).trans h6
    split <;> simp

theorem still_svc_execTickEdge (skewNs : Int) (s : State) : Stays Still.svc (execTickEdge skewNs s) s := by
  unfold execTickEdge; rw [stays_next]; split
  · rfl
  · extract_lets l was; split; rename_i d s1 hq; extract_lets g s2 s3 hold4 s4 s5 s6
    have hq2 := (congrArg (fun x => (State.still (Prod.snd x)).svc) hq).symm
    have h1 : s1.still.svc = s.still.svc := hq2.trans (by simp)
    have h2 : s2.still.svc = s.still.svc := by
      simp only [s2]; split
      · exact h1
      · simp only [still_raiseUnnamed]; exact h1
    have h3 : s3.still.svc = s.still.svc := (still_svc_bothLanes _ _ fun s l => by simp).trans (by simp [h2])
    have h4 : s4.still.svc = s.still.svc := by simp [s4, h3]
    have h5 : s5.still.svc = s.still.svc := (still_svc_bothLanes _ _ fun s l => by split <;> simp).trans h4
    have h6 : s6.still.svc = s.still.svc := by simp [s6, h5]
    rw [still_svc_darkEdge, show (litEdge _).still.svc = _ from congrArg Still.svc (still_litEdge _)]
    refine (still_svc_bothLanes _ _ fun s l => ?_).trans h6
    split <;> simp

@[simp] theorem still_sk_writeSys (s : State) (l : LaneId) : (writeSys s l).still.sk = s.still.sk := by
  simp [writeSys]

@[simp] theorem still_grid_writeSys (s : State) (l : LaneId) : (writeSys s l).still.grid = s.still.grid := by
  simp [writeSys]

@[simp] theorem still_svc_writeSys (s : State) (l : LaneId) : (writeSys s l).still.svc = s.still.svc := by
  simp [writeSys]

@[simp] theorem still_openWindow (s : State) (l : LaneId) : (openWindow s l).still = s.still := by
  simp [openWindow]

theorem still_sk_execInputSwap (l : LaneId) (s : State) : Stays Still.sk (execInputSwap l s) s := by
  unfold execInputSwap; extract_lets v t s1 s2 s3 s4 s5 s6
  rw [stays_next]
  have h1 : s1.still.sk = s.still.sk := by simp [s1]
  have h2 : s2.still.sk = s.still.sk := by simp [s2, h1]
  have h3 : s3.still.sk = s.still.sk := by simp [s3, h2]
  have h4 : s4.still.sk = s.still.sk := by simp [s4, h3]
  have h5 : s5.still.sk = s.still.sk := by simp only [s5]; split <;> simp [h4]
  have h6 : s6.still.sk = s.still.sk := by simp only [s6]; split <;> simp [h5]
  split
  · simp
  · split
    · rfl
    · split
      · exact h1
      · simp [h6]

theorem still_grid_execInputSwap (l : LaneId) (s : State) : Stays Still.grid (execInputSwap l s) s := by
  unfold execInputSwap; extract_lets v t s1 s2 s3 s4 s5 s6
  rw [stays_next]
  have h1 : s1.still.grid = s.still.grid := by simp [s1]
  have h2 : s2.still.grid = s.still.grid := by simp [s2, h1]
  have h3 : s3.still.grid = s.still.grid := by simp [s3, h2]
  have h4 : s4.still.grid = s.still.grid := by simp [s4, h3]
  have h5 : s5.still.grid = s.still.grid := by simp only [s5]; split <;> simp [h4]
  have h6 : s6.still.grid = s.still.grid := by simp only [s6]; split <;> simp [h5]
  split
  · simp
  · split
    · rfl
    · split
      · exact h1
      · simp [h6]

theorem still_svc_execInputSwap (l : LaneId) (s : State) : Stays Still.svc (execInputSwap l s) s := by
  unfold execInputSwap; extract_lets v t s1 s2 s3 s4 s5 s6
  rw [stays_next]
  have h1 : s1.still.svc = s.still.svc := by simp [s1]
  have h2 : s2.still.svc = s.still.svc := by simp [s2, h1]
  have h3 : s3.still.svc = s.still.svc := by simp [s3, h2]
  have h4 : s4.still.svc = s.still.svc := by simp [s4, h3]
  have h5 : s5.still.svc = s.still.svc := by simp only [s5]; split <;> simp [h4]
  have h6 : s6.still.svc = s.still.svc := by simp only [s6]; split <;> simp [h5]
  split
  · simp
  · split
    · rfl
    · split
      · exact h1
      · simp [h6]

theorem still_sk_execMx1Swap (l : LaneId) (s : State) : Stays Still.sk (execMx1Swap l s) s := by
  unfold execMx1Swap; repeat' (first | with_reducible rfl | (simp +zetaDelta; done) |  split | extract_lets | (with_reducible apply foldl_stillsk; intro _ _) | simp +zetaDelta)

theorem still_grid_execMx1Swap (l : LaneId) (s : State) : Stays Still.grid (execMx1Swap l s) s := by
  unfold execMx1Swap; repeat' (first | with_reducible rfl | (simp +zetaDelta; done) |  split | extract_lets | (with_reducible apply foldl_stillgrid; intro _ _) | simp +zetaDelta)

theorem still_svc_execMx1Swap (l : LaneId) (s : State) : Stays Still.svc (execMx1Swap l s) s := by
  unfold execMx1Swap; repeat' (first | with_reducible rfl | (simp +zetaDelta; done) |  split | extract_lets | (with_reducible apply foldl_stillsvc; intro _ _) | simp +zetaDelta)

@[simp] theorem still_sk_substSinks (s : State) (l : LaneId) : (substSinks s l).still.sk = s.still.sk := by
  unfold substSinks; repeat' (first | with_reducible rfl | (simp +zetaDelta; done) |  split | extract_lets | (with_reducible apply foldl_stillsk; intro _ _) | simp +zetaDelta)

@[simp] theorem still_grid_substSinks (s : State) (l : LaneId) : (substSinks s l).still.grid = s.still.grid := by
  unfold substSinks; repeat' (first | with_reducible rfl | (simp +zetaDelta; done) |  split | extract_lets | (with_reducible apply foldl_stillgrid; intro _ _) | simp +zetaDelta)

@[simp] theorem still_svc_substSinks (s : State) (l : LaneId) : (substSinks s l).still.svc = s.still.svc := by
  unfold substSinks; repeat' (first | with_reducible rfl | (simp +zetaDelta; done) |  split | extract_lets | (with_reducible apply foldl_stillsvc; intro _ _) | simp +zetaDelta)

@[simp] theorem still_sk_substAll (s : State) (l : LaneId) : (substAll s l).still.sk = s.still.sk := by
  simp [substAll]

@[simp] theorem still_grid_substAll (s : State) (l : LaneId) : (substAll s l).still.grid = s.still.grid := by
  simp [substAll]

@[simp] theorem still_svc_substAll (s : State) (l : LaneId) : (substAll s l).still.svc = s.still.svc := by
  simp [substAll]

@[simp] theorem still_closeSnapshot (s : State) (l : LaneId) : (closeSnapshot s l).still = s.still := by
  unfold closeSnapshot; repeat' (first | with_reducible rfl | (simp +zetaDelta; done) | (with_reducible apply updLane_goes; rotate_left; intro _) | split | extract_lets | (with_reducible apply foldl_still; intro _ _) | simp +zetaDelta)

@[simp] theorem still_sk_setRetained (s : State) (img : List Byte) (bank : Option (List Byte)) : (setRetained s img bank).still.sk = s.still.sk := by
  unfold setRetained; apply still_sk_bothLanes; intro s l; split <;> simp

@[simp] theorem still_grid_setRetained (s : State) (img : List Byte) (bank : Option (List Byte)) : (setRetained s img bank).still.grid = s.still.grid := by
  unfold setRetained; apply still_grid_bothLanes; intro s l; split <;> simp

@[simp] theorem still_svc_setRetained (s : State) (img : List Byte) (bank : Option (List Byte)) : (setRetained s img bank).still.svc = s.still.svc := by
  unfold setRetained; apply still_svc_bothLanes; intro s l; split <;> simp

@[simp] theorem still_sk_startRetained (s : State) (img : List Byte) : (startRetained s img).still.sk = s.still.sk := by
  unfold startRetained; repeat' (first | rfl | (simp; done) | split)

@[simp] theorem still_grid_startRetained (s : State) (img : List Byte) : (startRetained s img).still.grid = s.still.grid := by
  unfold startRetained; repeat' (first | rfl | (simp; done) | split)

@[simp] theorem still_svc_startRetained (s : State) (img : List Byte) : (startRetained s img).still.svc = s.still.svc := by
  unfold startRetained; repeat' (first | rfl | (simp; done) | split)

@[simp] theorem still_sk_stopBank (s : State) (l : LaneId) : (stopBank s l).still.sk = s.still.sk := by
  unfold stopBank; repeat' (first | with_reducible rfl | (simp +zetaDelta ; done) | split | extract_lets | (with_reducible apply foldl_stillsk; intro _ _) | simp +zetaDelta )

@[simp] theorem still_grid_stopBank (s : State) (l : LaneId) : (stopBank s l).still.grid = s.still.grid := by
  unfold stopBank; repeat' (first | with_reducible rfl | (simp +zetaDelta ; done) | split | extract_lets | (with_reducible apply foldl_stillgrid; intro _ _) | simp +zetaDelta )

@[simp] theorem still_sk_restoreAtStart (s : State) (l : LaneId) : (restoreAtStart s l).still.sk = s.still.sk := by
  unfold restoreAtStart; repeat' (first | with_reducible rfl | (simp +zetaDelta ; done) | split | extract_lets | (with_reducible apply foldl_stillsk; intro _ _) | simp +zetaDelta )

@[simp] theorem still_grid_restoreAtStart (s : State) (l : LaneId) : (restoreAtStart s l).still.grid = s.still.grid := by
  unfold restoreAtStart; repeat' (first | with_reducible rfl | (simp +zetaDelta ; done) | split | extract_lets | (with_reducible apply foldl_stillgrid; intro _ _) | simp +zetaDelta )

@[simp] theorem still_svc_restoreAtStart (s : State) (l : LaneId) : (restoreAtStart s l).still.svc = s.still.svc := by
  unfold restoreAtStart; repeat' (first | with_reducible rfl | (simp +zetaDelta ; done) | split | extract_lets | (with_reducible apply foldl_stillsvc; intro _ _) | simp +zetaDelta )

theorem still_sk_execOutputCutoff (l : LaneId) (leLate : Option (Fin 128)) (s : State) : Stays Still.sk (execOutputCutoff l leLate s) s := by
  unfold execOutputCutoff; repeat' (first | with_reducible rfl | (simp +zetaDelta; done) |  split | extract_lets | (with_reducible apply foldl_stillsk; intro _ _) | simp +zetaDelta)

theorem still_grid_execOutputCutoff (l : LaneId) (leLate : Option (Fin 128)) (s : State) : Stays Still.grid (execOutputCutoff l leLate s) s := by
  unfold execOutputCutoff; repeat' (first | with_reducible rfl | (simp +zetaDelta; done) |  split | extract_lets | (with_reducible apply foldl_stillgrid; intro _ _) | simp +zetaDelta)

/-! ConfigCommit -/

@[simp] theorem still_endValidate (s : State) (p t : Nat) (session : Bool) : (endValidate s p t session).still = s.still := by
  unfold endValidate; repeat' (first | with_reducible rfl | (simp +zetaDelta ; done) | (with_reducible apply updLane_goes; rotate_left; intro _) | split | extract_lets | (with_reducible apply foldl_still; intro _ _) | simp +zetaDelta )

theorem still_execConfigCommit (p : Part) (s : State) : Stays id (execConfigCommit p s) s := by
  unfold execConfigCommit; rw [stays_next]; split
  · rfl
  · refine still_serve _ _ _ _ (fun ws => still_needLock _ _ _ _ ?_)
    extract_lets; repeat' split
    all_goals simp

theorem still_sk_execConfigCommit (p : Part) (s : State) : Stays Still.sk (execConfigCommit p s) s := by
  unfold execConfigCommit; rw [stays_next]; split
  · rfl
  · refine still_sk_serve _ _ _ _ (fun ws => still_sk_needLock _ _ _ _ ?_)
    extract_lets; repeat' split
    all_goals simp

theorem still_grid_execConfigCommit (p : Part) (s : State) : Stays Still.grid (execConfigCommit p s) s := by
  unfold execConfigCommit; rw [stays_next]; split
  · rfl
  · refine still_grid_serve _ _ _ _ (fun ws => still_grid_needLock _ _ _ _ ?_)
    extract_lets; repeat' split
    all_goals simp

theorem still_imgs_execConfigCommit (p : Part) (s : State) : Stays Still.imgs (execConfigCommit p s) s := by
  unfold execConfigCommit; rw [stays_next]; split
  · rfl
  · refine still_imgs_serve _ _ _ _ (fun ws => still_imgs_needLock _ _ _ _ ?_)
    extract_lets; repeat' split
    all_goals simp

theorem still_svc_execConfigCommit (p : Part) (s : State) : Stays Still.svc (execConfigCommit p s) s := by
  unfold execConfigCommit; rw [stays_next]; split
  · rfl
  · refine still_svc_serve _ _ _ _ (fun ws => still_svc_needLock _ _ _ _ ?_)
    extract_lets; repeat' split
    all_goals simp

@[simp] theorem still_stepValidate (s : State) (p t n : Nat) (session : Bool) : (stepValidate s p t n session).still = s.still := by
  simp [stepValidate]

theorem still_execBulkBoundary (s : State) : Stays id (execBulkBoundary s) s := by
  unfold execBulkBoundary; repeat' (first | with_reducible rfl | (simp +zetaDelta; done) | (with_reducible apply updLane_goes; rotate_left; intro _) | split | extract_lets | (with_reducible apply foldl_still; intro _ _) | simp +zetaDelta)

@[simp] theorem still_confirmCommit (s : State) (c : Commit) : (confirmCommit s c).still = s.still := by
  rfl

theorem still_execCommitConfirm (s : State) : Stays id (execCommitConfirm s) s := by
  unfold execCommitConfirm; repeat' (first | rfl | (simp; done) | split)

theorem still_execCommitConfirmTimeout (s : State) : Stays id (execCommitConfirmTimeout s) s := by
  unfold execCommitConfirmTimeout; simp only []; repeat' (first | with_reducible rfl | (simp +zetaDelta ; done) | (with_reducible apply updLane_goes; rotate_left; intro _) | split | extract_lets | (with_reducible apply foldl_still; intro _ _) | simp +zetaDelta )

@[simp] theorem still_eachTracking (f : State → LaneId → State) (s : State) (h : ∀ s l, (f s l).still = s.still) : (eachTracking f s).still = s.still := by
  unfold eachTracking; apply still_bothLanes; intro s l; split <;> simp [h]

@[simp] theorem still_sk_eachTracking (f : State → LaneId → State) (s : State) (h : ∀ s l, (f s l).still.sk = s.still.sk) : (eachTracking f s).still.sk = s.still.sk := by
  unfold eachTracking; apply still_sk_bothLanes; intro s l; split <;> simp [h]

@[simp] theorem still_grid_eachTracking (f : State → LaneId → State) (s : State) (h : ∀ s l, (f s l).still.grid = s.still.grid) : (eachTracking f s).still.grid = s.still.grid := by
  unfold eachTracking; apply still_grid_bothLanes; intro s l; split <;> simp [h]

@[simp] theorem still_imgs_eachTracking (f : State → LaneId → State) (s : State) (h : ∀ s l, (f s l).still.imgs = s.still.imgs) : (eachTracking f s).still.imgs = s.still.imgs := by
  unfold eachTracking; apply still_imgs_bothLanes; intro s l; split <;> simp [h]

@[simp] theorem still_svc_eachTracking (f : State → LaneId → State) (s : State) (h : ∀ s l, (f s l).still.svc = s.still.svc) : (eachTracking f s).still.svc = s.still.svc := by
  unfold eachTracking; apply still_svc_bothLanes; intro s l; split <;> simp [h]

@[simp] theorem still_sk_outApply (old new : List CfgRec) (s : State) (l : LaneId) : (outApply old new s l).still.sk = s.still.sk := by
  unfold outApply; extract_lets mode s1
  have h1 : s1.still.sk = s.still.sk := by apply foldl_stillsk; intro s k; extract_lets n; split <;> simp
  rw [← h1]; apply foldl_stillsk; intro s k; split <;> simp

@[simp] theorem still_grid_outApply (old new : List CfgRec) (s : State) (l : LaneId) : (outApply old new s l).still.grid = s.still.grid := by
  unfold outApply; extract_lets mode s1
  have h1 : s1.still.grid = s.still.grid := by apply foldl_stillgrid; intro s k; extract_lets n; split <;> simp
  rw [← h1]; apply foldl_stillgrid; intro s k; split <;> simp

@[simp] theorem still_svc_outApply (old new : List CfgRec) (s : State) (l : LaneId) : (outApply old new s l).still.svc = s.still.svc := by
  unfold outApply; extract_lets mode s1
  have h1 : s1.still.svc = s.still.svc := by apply foldl_stillsvc; intro s k; extract_lets n; split <;> simp
  rw [← h1]; apply foldl_stillsvc; intro s k; split <;> simp

@[simp] theorem still_sk_sinkApply (old : List CfgRec) (before : Mem) (s : State) (l : LaneId) : (sinkApply old before s l).still.sk = s.still.sk := by
  unfold sinkApply; repeat' (first | with_reducible rfl | (simp +zetaDelta; done) |  split | extract_lets | (with_reducible apply foldl_stillsk; intro _ _) | simp +zetaDelta)

@[simp] theorem still_grid_sinkApply (old : List CfgRec) (before : Mem) (s : State) (l : LaneId) : (sinkApply old before s l).still.grid = s.still.grid := by
  unfold sinkApply; repeat' (first | with_reducible rfl | (simp +zetaDelta; done) |  split | extract_lets | (with_reducible apply foldl_stillgrid; intro _ _) | simp +zetaDelta)

@[simp] theorem still_svc_sinkApply (old : List CfgRec) (before : Mem) (s : State) (l : LaneId) : (sinkApply old before s l).still.svc = s.still.svc := by
  unfold sinkApply; repeat' (first | with_reducible rfl | (simp +zetaDelta; done) |  split | extract_lets | (with_reducible apply foldl_stillsvc; intro _ _) | simp +zetaDelta)

@[simp] theorem still_sk_laneConfig (old new : List CfgRec) (s : State) (l : LaneId) : (laneConfig old new s l).still.sk = s.still.sk := by
  simp [laneConfig]

@[simp] theorem still_grid_laneConfig (old new : List CfgRec) (s : State) (l : LaneId) : (laneConfig old new s l).still.grid = s.still.grid := by
  simp [laneConfig]

@[simp] theorem still_svc_laneConfig (old new : List CfgRec) (s : State) (l : LaneId) : (laneConfig old new s l).still.svc = s.still.svc := by
  simp [laneConfig]

@[simp] theorem still_thlConfig (old : List CfgRec) (s : State) : (thlConfig old s).still = s.still := by
  simp [thlConfig]

@[simp] theorem still_sk_retick (before : Nat) (s : State) : (retick before s).still.sk = s.still.sk := by
  unfold retick; split <;> rfl

@[simp] theorem still_imgs_retick (before : Nat) (s : State) : (retick before s).still.imgs = s.still.imgs := by
  unfold retick; split <;> rfl

@[simp] theorem still_svc_retick (before : Nat) (s : State) : (retick before s).still.svc = s.still.svc := by
  unfold retick; split <;> rfl

@[simp] theorem still_latchApply (s : State) : (latchApply s).still = s.still := by
  rfl

@[simp] theorem still_sk_applyConfig (s : State) (img : List Byte) : (applyConfig s img).still.sk = s.still.sk := by
  simp [applyConfig]

@[simp] theorem still_sk_laneProgram (img : List Byte) (s : State) (l : LaneId) : (laneProgram img s l).still.sk = s.still.sk := by
  simp [laneProgram]

@[simp] theorem still_grid_laneProgram (img : List Byte) (s : State) (l : LaneId) : (laneProgram img s l).still.grid = s.still.grid := by
  simp [laneProgram]

@[simp] theorem still_svc_laneProgram (img : List Byte) (s : State) (l : LaneId) : (laneProgram img s l).still.svc = s.still.svc := by
  simp [laneProgram]

@[simp] theorem still_sk_applyProgram (s : State) (img : List Byte) : (applyProgram s img).still.sk = s.still.sk := by
  simp [applyProgram]

@[simp] theorem still_grid_applyProgram (s : State) (img : List Byte) : (applyProgram s img).still.grid = s.still.grid := by
  simp [applyProgram]

@[simp] theorem still_svc_applyProgram (s : State) (img : List Byte) : (applyProgram s img).still.svc = s.still.svc := by
  simp [applyProgram]

@[simp] theorem still_grid_setPassword (s : State) (part cflags : Nat) (r : CfgRec) : (setPassword s part cflags r).still.grid = s.still.grid := by
  simp [setPassword]

@[simp] theorem still_imgs_setPassword (s : State) (part cflags : Nat) (r : CfgRec) : (setPassword s part cflags r).still.imgs = s.still.imgs := by
  simp [setPassword]

@[simp] theorem still_svc_setPassword (s : State) (part cflags : Nat) (r : CfgRec) : (setPassword s part cflags r).still.svc = s.still.svc := by
  simp [setPassword]

@[simp] theorem still_detachForbidden (s : State) : (detachForbidden s).still = s.still := by
  simp [detachForbidden]

@[simp] theorem still_grid_applyAccess (s : State) (c : Commit) : (applyAccess s c).still.grid = s.still.grid := by
  unfold applyAccess; repeat' (first | with_reducible rfl | (simp +zetaDelta; done) | (simp +zetaDelta [hq2]; done) | (rename_i hq; have hq2 := (congrArg (fun x => (State.still (Prod.snd x)).grid) hq).symm; clear hq; simp +zetaDelta at hq2) | (rename_i hq; have hq2 := (congrArg (fun x => (State.still (Prod.fst x)).grid) hq).symm; clear hq; simp +zetaDelta at hq2) | split | (extract_lets) | (with_reducible apply foldl_stillgrid; intro _ _) | (simp +zetaDelta))

@[simp] theorem still_imgs_applyAccess (s : State) (c : Commit) : (applyAccess s c).still.imgs = s.still.imgs := by
  unfold applyAccess; repeat' (first | with_reducible rfl | (simp +zetaDelta; done) | (with_reducible apply updLane_goes2; rotate_left; intro _) | split | extract_lets | (with_reducible apply foldl_stillimgs; intro _ _) | simp +zetaDelta)

@[simp] theorem still_svc_applyAccess (s : State) (c : Commit) : (applyAccess s c).still.svc = s.still.svc := by
  unfold applyAccess; repeat' (first | with_reducible rfl | (simp +zetaDelta; done) | (simp +zetaDelta [hq2]; done) | (rename_i hq; have hq2 := (congrArg (fun x => (State.still (Prod.snd x)).svc) hq).symm; clear hq; simp +zetaDelta at hq2) | (rename_i hq; have hq2 := (congrArg (fun x => (State.still (Prod.fst x)).svc) hq).symm; clear hq; simp +zetaDelta at hq2) | split | (extract_lets) | (with_reducible apply foldl_stillsvc; intro _ _) | (simp +zetaDelta))

/-! Reint -/

@[simp] theorem still_beginReint (s : State) (l : LaneId) : (beginReint s l).still = s.still := by
  unfold beginReint; repeat' (first | with_reducible rfl | (simp +zetaDelta; done) | (with_reducible apply updLane_goes; rotate_left; intro _) | split | extract_lets | (with_reducible apply foldl_still; intro _ _) | simp +zetaDelta)

theorem still_execReintStart (l : LaneId) (s : State) : Stays id (execReintStart l s) s := by
  simp [execReintStart]

@[simp] theorem still_sk_copyLane (s : State) (l : LaneId) : (copyLane s l).still.sk = s.still.sk := by
  simp [copyLane]

@[simp] theorem still_grid_copyLane (s : State) (l : LaneId) : (copyLane s l).still.grid = s.still.grid := by
  simp [copyLane]

@[simp] theorem still_svc_copyLane (s : State) (l : LaneId) : (copyLane s l).still.svc = s.still.svc := by
  simp [copyLane]

theorem still_sk_execReintCopyClosed (l : LaneId) (s : State) : Stays Still.sk (execReintCopyClosed l s) s := by
  unfold execReintCopyClosed; repeat' (first | rfl | (simp; done) | split)

theorem still_grid_execReintCopyClosed (l : LaneId) (s : State) : Stays Still.grid (execReintCopyClosed l s) s := by
  unfold execReintCopyClosed; repeat' (first | rfl | (simp; done) | split)

theorem still_svc_execReintCopyClosed (l : LaneId) (s : State) : Stays Still.svc (execReintCopyClosed l s) s := by
  unfold execReintCopyClosed; repeat' (first | rfl | (simp; done) | split)

theorem still_execReintCopyTimeout (l : LaneId) (s : State) : Stays id (execReintCopyTimeout l s) s := by
  unfold execReintCopyTimeout; repeat' (first | with_reducible rfl | (simp +zetaDelta; done) | (with_reducible apply updLane_goes; rotate_left; intro _) | split | extract_lets | (with_reducible apply foldl_still; intro _ _) | simp +zetaDelta)

theorem still_execReintRetryDue (l : LaneId) (s : State) : Stays id (execReintRetryDue l s) s := by
  simp [execReintRetryDue]

theorem still_execReintStandby (l : LaneId) (s : State) : Stays id (execReintStandby l s) s := by
  unfold execReintStandby; repeat' (first | with_reducible rfl | (simp +zetaDelta; done) | (with_reducible apply updLane_goes; rotate_left; intro _) | split | extract_lets | (with_reducible apply foldl_still; intro _ _) | simp +zetaDelta)

/-! SafetyIo -/

@[simp] theorem still_grid_updIn (s : State) (i : Nat) (f : SkIn → SkIn) : (updIn s i f).still.grid = s.still.grid := by
  rfl

@[simp] theorem still_imgs_updIn (s : State) (i : Nat) (f : SkIn → SkIn) : (updIn s i f).still.imgs = s.still.imgs := by
  rfl

@[simp] theorem still_svc_updIn (s : State) (i : Nat) (f : SkIn → SkIn) : (updIn s i f).still.svc = s.still.svc := by
  rfl

@[simp] theorem still_grid_updSrc (s : State) (t : Nat) (f : SkSrc → SkSrc) : (updSrc s t f).still.grid = s.still.grid := by
  rfl

@[simp] theorem still_imgs_updSrc (s : State) (t : Nat) (f : SkSrc → SkSrc) : (updSrc s t f).still.imgs = s.still.imgs := by
  rfl

@[simp] theorem still_svc_updSrc (s : State) (t : Nat) (f : SkSrc → SkSrc) : (updSrc s t f).still.svc = s.still.svc := by
  rfl

@[simp] theorem still_grid_setTestFail (s : State) (i : Nat) (v : Bool) : (setTestFail s i v).still.grid = s.still.grid := by
  unfold setTestFail; repeat' (first | rfl | (simp; done) | split)

@[simp] theorem still_imgs_setTestFail (s : State) (i : Nat) (v : Bool) : (setTestFail s i v).still.imgs = s.still.imgs := by
  unfold setTestFail; repeat' (first | rfl | (simp; done) | split)

@[simp] theorem still_svc_setTestFail (s : State) (i : Nat) (v : Bool) : (setTestFail s i v).still.svc = s.still.svc := by
  unfold setTestFail; repeat' (first | rfl | (simp; done) | split)

@[simp] theorem still_grid_sampleInput (us : Nat) (mv : List Int) (s : State) (i : Nat) : (sampleInput us mv s i).still.grid = s.still.grid := by
  unfold sampleInput; repeat' (first | with_reducible rfl | (simp +zetaDelta; done) |  split | extract_lets | (with_reducible apply foldl_stillgrid; intro _ _) | simp +zetaDelta)

@[simp] theorem still_imgs_sampleInput (us : Nat) (mv : List Int) (s : State) (i : Nat) : (sampleInput us mv s i).still.imgs = s.still.imgs := by
  unfold sampleInput; repeat' (first | with_reducible rfl | (simp +zetaDelta; done) | (with_reducible apply updLane_goes2; rotate_left; intro _) | split | extract_lets | (with_reducible apply foldl_stillimgs; intro _ _) | simp +zetaDelta)

@[simp] theorem still_svc_sampleInput (us : Nat) (mv : List Int) (s : State) (i : Nat) : (sampleInput us mv s i).still.svc = s.still.svc := by
  unfold sampleInput; repeat' (first | with_reducible rfl | (simp +zetaDelta; done) |  split | extract_lets | (with_reducible apply foldl_stillsvc; intro _ _) | simp +zetaDelta)

@[simp] theorem still_grid_pairFault (s : State) (p : Nat) (test : Bool) : (pairFault s p test).still.grid = s.still.grid := by
  simp [pairFault]

@[simp] theorem still_imgs_pairFault (s : State) (p : Nat) (test : Bool) : (pairFault s p test).still.imgs = s.still.imgs := by
  simp [pairFault]

@[simp] theorem still_svc_pairFault (s : State) (p : Nat) (test : Bool) : (pairFault s p test).still.svc = s.still.svc := by
  simp [pairFault]

@[simp] theorem still_grid_setPair (s : State) (p : Nat) (ph : PairPhase) : (setPair s p ph).still.grid = s.still.grid := by
  rfl

@[simp] theorem still_imgs_setPair (s : State) (p : Nat) (ph : PairPhase) : (setPair s p ph).still.imgs = s.still.imgs := by
  rfl

@[simp] theorem still_svc_setPair (s : State) (p : Nat) (ph : PairPhase) : (setPair s p ph).still.svc = s.still.svc := by
  rfl

@[simp] theorem still_grid_pairReleased (s : State) (p : Nat) : (pairReleased s p).still.grid = s.still.grid := by
  unfold pairReleased; repeat' (first | with_reducible rfl | (simp +zetaDelta; done) |  split | extract_lets | (with_reducible apply foldl_stillgrid; intro _ _) | simp +zetaDelta)

@[simp] theorem still_imgs_pairReleased (s : State) (p : Nat) : (pairReleased s p).still.imgs = s.still.imgs := by
  unfold pairReleased; repeat' (first | with_reducible rfl | (simp +zetaDelta; done) | (with_reducible apply updLane_goes2; rotate_left; intro _) | split | extract_lets | (with_reducible apply foldl_stillimgs; intro _ _) | simp +zetaDelta)

@[simp] theorem still_svc_pairReleased (s : State) (p : Nat) : (pairReleased s p).still.svc = s.still.svc := by
  unfold pairReleased; repeat' (first | with_reducible rfl | (simp +zetaDelta; done) |  split | extract_lets | (with_reducible apply foldl_stillsvc; intro _ _) | simp +zetaDelta)

@[simp] theorem still_grid_pairSample (s : State) (p : Nat) : (pairSample s p).still.grid = s.still.grid := by
  unfold pairSample; repeat' (first | with_reducible rfl | (simp +zetaDelta; done) |  split | extract_lets | (with_reducible apply foldl_stillgrid; intro _ _) | simp +zetaDelta)

@[simp] theorem still_imgs_pairSample (s : State) (p : Nat) : (pairSample s p).still.imgs = s.still.imgs := by
  unfold pairSample; repeat' (first | with_reducible rfl | (simp +zetaDelta; done) | (with_reducible apply updLane_goes2; rotate_left; intro _) | split | extract_lets | (with_reducible apply foldl_stillimgs; intro _ _) | simp +zetaDelta)

@[simp] theorem still_svc_pairSample (s : State) (p : Nat) : (pairSample s p).still.svc = s.still.svc := by
  unfold pairSample; repeat' (first | with_reducible rfl | (simp +zetaDelta; done) |  split | extract_lets | (with_reducible apply foldl_stillsvc; intro _ _) | simp +zetaDelta)

theorem still_grid_execSafetyInputSample (us : Nat) (mv : List Int) (s : State) : Stays Still.grid (execSafetyInputSample us mv s) s := by
  unfold execSafetyInputSample; repeat' (first | with_reducible rfl | (simp +zetaDelta ; done) | split | extract_lets | (with_reducible apply foldl_stillgrid; intro _ _) | simp +zetaDelta )

theorem still_imgs_execSafetyInputSample (us : Nat) (mv : List Int) (s : State) : Stays Still.imgs (execSafetyInputSample us mv s) s := by
  unfold execSafetyInputSample; repeat' (first | with_reducible rfl | (simp +zetaDelta ; done) | (with_reducible apply updLane_goes2; rotate_left; intro _) | split | extract_lets | (with_reducible apply foldl_stillimgs; intro _ _) | simp +zetaDelta )

theorem still_svc_execSafetyInputSample (us : Nat) (mv : List Int) (s : State) : Stays Still.svc (execSafetyInputSample us mv s) s := by
  unfold execSafetyInputSample; repeat' (first | with_reducible rfl | (simp +zetaDelta ; done) | split | extract_lets | (with_reducible apply foldl_stillsvc; intro _ _) | simp +zetaDelta )

theorem still_grid_execDiscTimerExpired (p : Fin 8) (s : State) : Stays Still.grid (execDiscTimerExpired p s) s := by
  unfold execDiscTimerExpired; repeat' (first | with_reducible rfl | (simp +zetaDelta; done) |  split | extract_lets | (with_reducible apply foldl_stillgrid; intro _ _) | simp +zetaDelta)

theorem still_imgs_execDiscTimerExpired (p : Fin 8) (s : State) : Stays Still.imgs (execDiscTimerExpired p s) s := by
  unfold execDiscTimerExpired; repeat' (first | with_reducible rfl | (simp +zetaDelta; done) | (with_reducible apply updLane_goes2; rotate_left; intro _) | split | extract_lets | (with_reducible apply foldl_stillimgs; intro _ _) | simp +zetaDelta)

theorem still_svc_execDiscTimerExpired (p : Fin 8) (s : State) : Stays Still.svc (execDiscTimerExpired p s) s := by
  unfold execDiscTimerExpired; repeat' (first | with_reducible rfl | (simp +zetaDelta; done) |  split | extract_lets | (with_reducible apply foldl_stillsvc; intro _ _) | simp +zetaDelta)

theorem still_grid_execTestSourcePulse (k : Fin 4) (high backfeed : Bool) (s : State) : Stays Still.grid (execTestSourcePulse k high backfeed s) s := by
  unfold execTestSourcePulse; repeat' (first | rfl | (simp; done) | split)

theorem still_imgs_execTestSourcePulse (k : Fin 4) (high backfeed : Bool) (s : State) : Stays Still.imgs (execTestSourcePulse k high backfeed s) s := by
  unfold execTestSourcePulse; repeat' (first | rfl | (simp; done) | split)

theorem still_svc_execTestSourcePulse (k : Fin 4) (high backfeed : Bool) (s : State) : Stays Still.svc (execTestSourcePulse k high backfeed s) s := by
  unfold execTestSourcePulse; repeat' (first | rfl | (simp; done) | split)

theorem still_grid_execTestSourceOverload (k : Fin 4) (s : State) : Stays Still.grid (execTestSourceOverload k s) s := by
  unfold execTestSourceOverload; repeat' (first | rfl | (simp; done) | split)

theorem still_imgs_execTestSourceOverload (k : Fin 4) (s : State) : Stays Still.imgs (execTestSourceOverload k s) s := by
  unfold execTestSourceOverload; repeat' (first | rfl | (simp; done) | split)

theorem still_svc_execTestSourceOverload (k : Fin 4) (s : State) : Stays Still.svc (execTestSourceOverload k s) s := by
  unfold execTestSourceOverload; repeat' (first | rfl | (simp; done) | split)

theorem still_grid_execTestSourceRetry (k : Fin 4) (s : State) : Stays Still.grid (execTestSourceRetry k s) s := by
  unfold execTestSourceRetry; repeat' (first | rfl | (simp; done) | split)

theorem still_imgs_execTestSourceRetry (k : Fin 4) (s : State) : Stays Still.imgs (execTestSourceRetry k s) s := by
  unfold execTestSourceRetry; repeat' (first | rfl | (simp; done) | split)

theorem still_svc_execTestSourceRetry (k : Fin 4) (s : State) : Stays Still.svc (execTestSourceRetry k s) s := by
  unfold execTestSourceRetry; repeat' (first | rfl | (simp; done) | split)

@[simp] theorem still_grid_outFault (s : State) (o code : Nat) : (outFault s o code).still.grid = s.still.grid := by
  simp [outFault]

@[simp] theorem still_imgs_outFault (s : State) (o code : Nat) : (outFault s o code).still.imgs = s.still.imgs := by
  simp [outFault]

@[simp] theorem still_svc_outFault (s : State) (o code : Nat) : (outFault s o code).still.svc = s.still.svc := by
  simp [outFault]

theorem still_grid_execOffPulse (o : Fin 8) (_skY : Bool) (readbackMv : Int) (s : State) : Stays Still.grid (execOffPulse o _skY readbackMv s) s := by
  unfold execOffPulse; repeat' (first | with_reducible rfl | (simp +zetaDelta; done) |  split | extract_lets | (with_reducible apply foldl_stillgrid; intro _ _) | simp +zetaDelta)

theorem still_imgs_execOffPulse (o : Fin 8) (_skY : Bool) (readbackMv : Int) (s : State) : Stays Still.imgs (execOffPulse o _skY readbackMv s) s := by
  unfold execOffPulse; repeat' (first | with_reducible rfl | (simp +zetaDelta; done) | (with_reducible apply updLane_goes2; rotate_left; intro _) | split | extract_lets | (with_reducible apply foldl_stillimgs; intro _ _) | simp +zetaDelta)

theorem still_svc_execOffPulse (o : Fin 8) (_skY : Bool) (readbackMv : Int) (s : State) : Stays Still.svc (execOffPulse o _skY readbackMv s) s := by
  unfold execOffPulse; repeat' (first | with_reducible rfl | (simp +zetaDelta; done) |  split | extract_lets | (with_reducible apply foldl_stillsvc; intro _ _) | simp +zetaDelta)

theorem still_grid_execSafetyOutputReadback (o : Fin 8) (mv supplyMv : Int) (limit : Bool) (s : State) : Stays Still.grid (execSafetyOutputReadback o mv supplyMv limit s) s := by
  unfold execSafetyOutputReadback; repeat' (first | with_reducible rfl | (simp +zetaDelta; done) |  split | extract_lets | (with_reducible apply foldl_stillgrid; intro _ _) | simp +zetaDelta)

theorem still_imgs_execSafetyOutputReadback (o : Fin 8) (mv supplyMv : Int) (limit : Bool) (s : State) : Stays Still.imgs (execSafetyOutputReadback o mv supplyMv limit s) s := by
  unfold execSafetyOutputReadback; repeat' (first | with_reducible rfl | (simp +zetaDelta; done) | (with_reducible apply updLane_goes2; rotate_left; intro _) | split | extract_lets | (with_reducible apply foldl_stillimgs; intro _ _) | simp +zetaDelta)

theorem still_svc_execSafetyOutputReadback (o : Fin 8) (mv supplyMv : Int) (limit : Bool) (s : State) : Stays Still.svc (execSafetyOutputReadback o mv supplyMv limit s) s := by
  unfold execSafetyOutputReadback; repeat' (first | with_reducible rfl | (simp +zetaDelta; done) |  split | extract_lets | (with_reducible apply foldl_stillsvc; intro _ _) | simp +zetaDelta)

/-! Thl -/

@[simp] theorem still_thlIn (s : State) (l : LaneId) (p : Nat) (rx : Rx) : (thlIn s l p rx).2.still = s.still := by
  unfold thlIn; simp only []; repeat' (first | with_reducible rfl | (simp +zetaDelta ; done) | (with_reducible apply updLane_goes; rotate_left; intro _) | split | extract_lets | (with_reducible apply foldl_still; intro _ _) | simp +zetaDelta )

@[simp] theorem still_thlOpen (s : State) (p : Nat) (lane : LaneId) (nonce : List Byte) (b : Option (List Byte)) : (thlOpen s p lane nonce b).still = s.still := by
  unfold thlOpen; repeat' (first | with_reducible rfl | (simp +zetaDelta ; done) | (with_reducible apply updLane_goes; rotate_left; intro _) | split | extract_lets | (with_reducible apply foldl_still; intro _ _) | simp +zetaDelta )

theorem still_execThlHello (p : Part) (rx : Rx) (lane : LaneId) (nonce : List Byte) (s : State) : Stays id (execThlHello p rx lane nonce s) s := by
  simp [execThlHello]

@[simp] theorem still_setThl (s : State) (p : Nat) (f : ThlSess → ThlSess) : (setThl s p f).still = s.still := by
  unfold setThl; repeat' (first | rfl | (simp; done) | split)

@[simp] theorem still_thlAct (s : State) (p seq : Nat) (bad : State → State) (f : State → ThlSess → State) (c : ThlCheck)
    (hb : ∀ s, (bad s).still = s.still) (hf : ∀ s t, (f s t).still = s.still) : (thlAct s p seq bad f c).still = s.still := by
  cases c <;> simp [thlAct, setThl, hb, hf]

@[simp] theorem still_thlTake (s : State) (p : Nat) (rx : Rx) (sess seq : Nat) (k : ThlKind) (content tag : List Byte) (bad : State → State) (f : State → ThlSess → State) (hbad : ∀ s, (bad s).still = s.still) (hf : ∀ s y1, (f s y1).still = s.still) : (thlTake s p rx sess seq k content tag bad f).still = s.still := by
  simp [thlTake, hbad, hf]

theorem still_execThlRegRead (p : Part) (rx : Rx) (sess seq addr : Nat) (tag : List Byte) (s : State) : Stays id (execThlRegRead p rx sess seq addr tag s) s := by
  unfold execThlRegRead; rw [stays_next, still_thlTake] <;> intros <;> simp

theorem still_execThlRegWrite (p : Part) (rx : Rx) (sess seq addr : Nat) (data : Word) (tag : List Byte) (dt : Nat) (s : State) : Stays id (execThlRegWrite p rx sess seq addr data tag dt s) s := by
  unfold execThlRegWrite; rw [stays_next, still_thlTake] <;> intros
  · rfl
  · split <;> simp

theorem still_execThlData (p : Part) (rx : Rx) (sess seq cmdSeq offset : Nat) (data tag : List Byte) (s : State) : Stays id (execThlData p rx sess seq cmdSeq offset data tag s) s := by
  unfold execThlData; simp only []; rw [stays_next, still_thlTake] <;> intros
  · split <;> simp
  · split
    · rfl
    · repeat' (first | with_reducible rfl | (simp; done) | split)

theorem still_execThlAck (p : Part) (rx : Rx) (sess seq cmdSeq offset : Nat) (tag : List Byte) (s : State) : Stays id (execThlAck p rx sess seq cmdSeq offset tag s) s := by
  unfold execThlAck; rw [stays_next, still_thlTake] <;> intros
  · rfl
  · split
    · rfl
    · simp only []; repeat' (first | with_reducible rfl | (simp; done) | split)

theorem still_execThlStalled (p : Part) (urgent : Bool) (s : State) : Stays id (execThlStalled p urgent s) s := by
  unfold execThlStalled; repeat' (first | with_reducible rfl | (simp +zetaDelta; done) | (with_reducible apply updLane_goes; rotate_left; intro _) | split | extract_lets | (with_reducible apply foldl_still; intro _ _) | simp +zetaDelta)

/-! Station -/

theorem still_sk_execStart (p : Part) (s : State) : Stays Still.sk (execStart p s) s := by
  unfold execStart
  refine still_sk_serve _ _ _ _ (fun ws => ?_)
  try refine still_sk_needLock _ _ _ _ ?_
  try refine still_sk_needOperator _ _ _ _ ?_
  simp only []
  repeat' (first | with_reducible rfl | (simp; done) | split)

theorem still_grid_execStart (p : Part) (s : State) : Stays Still.grid (execStart p s) s := by
  unfold execStart
  refine still_grid_serve _ _ _ _ (fun ws => ?_)
  try refine still_grid_needLock _ _ _ _ ?_
  try refine still_grid_needOperator _ _ _ _ ?_
  simp only []
  repeat' (first | with_reducible rfl | (simp; done) | split)

theorem still_execStop (p : Part) (s : State) : Stays id (execStop p s) s := by
  simp [execStop]

theorem still_execStatusGet (p : Part) (s : State) : Stays id (execStatusGet p s) s := by
  simp [execStatusGet]

end Sys2Proof.Machine
end

