-- ==== Sys2Proof/Laws/Table.lean ====
section
/-! SUPPORT. Sparse tables and sparse memory: reading after writing, and the canonical form of a memory. -/

namespace Sys2Proof.Machine

@[simp] theorem Tab.get_set {α : Type} (t : Tab α) (i : Nat) (v d : α) : (t.set i v).get i d = v := by
  induction t with
  | nil => simp [Tab.set, Tab.get]
  | cons e r ih =>
    obtain ⟨k, w⟩ := e
    by_cases h : k = i
    · simp [Tab.set, Tab.get, h]
    · by_cases g : i < k <;> simp [Tab.set, Tab.get, h, g, ih]

theorem Tab.get_set_ne {α : Type} (t : Tab α) (i j : Nat) (v d : α) (h : j ≠ i) : (t.set i v).get j d = t.get j d := by
  induction t with
  | nil => simp [Tab.set, Tab.get, Ne.symm h]
  | cons e r ih =>
    obtain ⟨k, w⟩ := e
    by_cases hk : k = i
    · subst hk; simp [Tab.set, Tab.get, Ne.symm h]
    · by_cases g : i < k <;> simp [Tab.set, Tab.get, hk, g, Ne.symm h, ih]

@[simp] theorem Tab.set_set {α : Type} (t : Tab α) (i : Nat) (v w : α) : (t.set i v).set i w = t.set i w := by
  induction t with
  | nil => simp [Tab.set]
  | cons e r ih =>
    obtain ⟨k, u⟩ := e
    simp only [Tab.set]
    split
    · simp [Tab.set]
    · split
      · simp [Tab.set]
      · simp_all [Tab.set]
@[simp] theorem Tab.get?_set {α : Type} (t : Tab α) (i : Nat) (v : α) : (t.set i v).get? i = some v := by
  induction t with
  | nil => simp [Tab.set, Tab.get?]
  | cons e r ih =>
    obtain ⟨k, w⟩ := e
    by_cases h : k = i
    · simp [Tab.set, Tab.get?, h]
    · by_cases g : i < k <;> simp [Tab.set, Tab.get?, h, g, ih]

theorem Tab.get?_set_ne {α : Type} (t : Tab α) (i j : Nat) (v : α) (h : j ≠ i) : (t.set i v).get? j = t.get? j := by
  induction t with
  | nil => simp [Tab.set, Tab.get?, Ne.symm h]
  | cons e r ih =>
    obtain ⟨k, w⟩ := e
    by_cases hk : k = i
    · subst hk; simp [Tab.set, Tab.get?, Ne.symm h]
    · by_cases g : i < k <;> simp [Tab.set, Tab.get?, hk, g, Ne.symm h, ih]

theorem Tab.get?_erase {α : Type} (t : Tab α) (i : Nat) : (t.erase i).get? i = none := by
  induction t with
  | nil => rfl
  | cons e r ih =>
    obtain ⟨k, w⟩ := e
    by_cases hk : k = i
    · subst hk; simpa [Tab.erase] using ih
    · simpa [Tab.erase, Tab.get?, hk] using ih

/-! Memory -/

theorem Mem.read_write_ne (m : Mem) (a c : Nat) (b : Byte) (h : c ≠ a) : (m.write a b).read c = m.read c := by
  induction m with
  | nil => by_cases hb : b = Mem.empty <;> simp [Mem.write, Mem.read, hb, Ne.symm h]
  | cons e r ih =>
    obtain ⟨k, v⟩ := e
    by_cases g : a < k
    · by_cases hb : b = Mem.empty <;> simp [Mem.write, Mem.read, g, hb, Ne.symm h]
    · by_cases hk : a = k
      · subst hk
        by_cases hb : b = Mem.empty <;> simp [Mem.write, Mem.read, hb, Ne.symm h]
      · simp [Mem.write, Mem.read, g, hk, ih]

theorem Mem.wf_tail {e : Host.Cell} {r : Mem} (h : Mem.wf (e :: r)) : Mem.wf r :=
  ⟨(List.pairwise_cons.mp h.1).2, fun p hp => h.2 p (List.mem_cons_of_mem _ hp)⟩

/-- An address below every listed one reads as the empty byte. -/
theorem Mem.read_low (m : Mem) (a : Nat) (h : ∀ p ∈ m, a < p.1) : m.read a = Mem.empty := by
  induction m with
  | nil => rfl
  | cons e r ih =>
    obtain ⟨k, v⟩ := e
    have hk : a < k := h (k, v) (List.mem_cons_self ..)
    have : k ≠ a := by omega
    simp [Mem.read, this, ih (fun p hp => h p (List.mem_cons_of_mem _ hp))]

theorem Mem.read_write (m : Mem) (a : Nat) (b : Byte) (h : m.wf) : (m.write a b).read a = b := by
  induction m with
  | nil => by_cases hb : b = Mem.empty <;> simp [Mem.write, Mem.read, hb]
  | cons e r ih =>
    obtain ⟨k, v⟩ := e
    have hr : ∀ p ∈ r, k < p.1 := (List.pairwise_cons.mp h.1).1
    by_cases g : a < k
    · by_cases hb : b = Mem.empty
      · have : k ≠ a := by omega
        simp [Mem.write, g, hb, Mem.read, this, Mem.read_low r a (fun p hp => by have := hr p hp; omega)]
      · simp [Mem.write, g, hb, Mem.read]
    · by_cases hk : a = k
      · subst hk
        by_cases hb : b = Mem.empty
        · simp [Mem.write, hb, Mem.read_low r a hr]
        · simp [Mem.write, hb, Mem.read]
      · have : k ≠ a := Ne.symm hk
        simp [Mem.write, g, hk, Mem.read, this, ih (Mem.wf_tail h)]

theorem Mem.mem_write {m : Mem} {a : Nat} {b : Byte} {p : Host.Cell} (h : p ∈ m.write a b) : p ∈ m ∨ (p = (a, b) ∧ b ≠ Mem.empty) := by
  induction m with
  | nil =>
    by_cases hb : b = Mem.empty
    · simp [Mem.write, hb] at h
    · simp only [Mem.write, hb, if_false, List.mem_singleton] at h; exact Or.inr ⟨h, hb⟩
  | cons e r ih =>
    obtain ⟨k, v⟩ := e
    by_cases g : a < k
    · by_cases hb : b = Mem.empty
      · simp only [Mem.write, g, hb, if_true] at h; exact Or.inl h
      · simp only [Mem.write, g, hb, if_true, if_false, List.mem_cons] at h
        rcases h with h | h
        · exact Or.inr ⟨h, hb⟩
        · exact Or.inl (List.mem_cons.mpr h)
    · by_cases hk : a = k
      · by_cases hb : b = Mem.empty
        · simp only [Mem.write, g, hk, hb, if_true, if_false] at h; simp only [Nat.lt_irrefl, if_false] at h
          exact Or.inl (List.mem_cons_of_mem _ h)
        · simp only [Mem.write, hk, hb, Nat.lt_irrefl, if_true, if_false, List.mem_cons] at h
          rcases h with h | h
          · exact Or.inr ⟨hk ▸ h, hb⟩
          · exact Or.inl (List.mem_cons_of_mem _ h)
      · simp only [Mem.write, g, hk, if_false, List.mem_cons] at h
        rcases h with h | h
        · exact Or.inl (List.mem_cons.mpr (Or.inl h))
        · rcases ih h with h | h
          · exact Or.inl (List.mem_cons_of_mem _ h)
          · exact Or.inr h

/-- A write keeps the canonical form. -/
theorem Mem.wf_write (m : Mem) (a : Nat) (b : Byte) (h : m.wf) : (m.write a b).wf := by
  refine ⟨?_, fun p hp => ?_⟩
  · induction m with
    | nil => by_cases hb : b = Mem.empty <;> simp [Mem.write, hb]
    | cons e r ih =>
      obtain ⟨k, v⟩ := e
      have hr : ∀ p ∈ r, k < p.1 := (List.pairwise_cons.mp h.1).1
      have hp := (List.pairwise_cons.mp h.1).2
      by_cases g : a < k
      · by_cases hb : b = Mem.empty
        · simpa only [Mem.write, g, hb, if_true] using h.1
        · simp only [Mem.write, g, hb, if_true, if_false]
          refine List.pairwise_cons.mpr ⟨fun p hp => ?_, h.1⟩
          rcases List.mem_cons.mp hp with rfl | hp
          · exact g
          · exact Nat.lt_trans g (hr p hp)
      · by_cases hk : a = k
        · subst hk
          by_cases hb : b = Mem.empty
          · simpa only [Mem.write, hb, Nat.lt_irrefl, if_true, if_false] using hp
          · simp only [Mem.write, hb, Nat.lt_irrefl, if_true, if_false]
            exact List.pairwise_cons.mpr ⟨hr, hp⟩
        · simp only [Mem.write, g, hk, if_false]
          refine List.pairwise_cons.mpr ⟨fun p hp => ?_, ih (Mem.wf_tail h)⟩
          rcases Mem.mem_write hp with hp | ⟨rfl, -⟩
          · exact hr p hp
          · show k < a; omega
  · rcases Mem.mem_write hp with hp | ⟨rfl, hb⟩
    · exact h.2 p hp
    · exact hb

theorem Mem.wf_writeN (m : Mem) (a : Nat) (bs : List Byte) (h : m.wf) : (m.writeN a bs).wf := by
  induction bs generalizing m a with
  | nil => exact h
  | cons b r ih => exact ih _ _ (Mem.wf_write m a b h)

theorem Mem.wf_wrU (m : Mem) (a n v : Nat) (h : m.wf) : (m.wrU a n v).wf := Mem.wf_writeN _ _ _ h

theorem Mem.wf_filter (m : Mem) (f : Host.Cell → Bool) (h : m.wf) : Mem.wf (m.filter f) :=
  ⟨h.1.sublist List.filter_sublist, fun p hp => h.2 p (List.mem_of_mem_filter hp)⟩

theorem Mem.wf_clear (m : Mem) (a n : Nat) (h : m.wf) : (m.clear a n).wf := Mem.wf_filter _ _ h

theorem Mem.wf_foldl_write (t : List (Nat × Byte)) (m : Mem) (h : m.wf) : Mem.wf (t.foldl (fun (m : Mem) e => m.write e.1 e.2) m) := by
  induction t generalizing m with
  | nil => exact h
  | cons e r ih => exact ih _ (Mem.wf_write _ _ _ h)

theorem Mem.wf_copyRange (m src : Mem) (a n : Nat) (h : m.wf) : (m.copyRange src a n).wf :=
  Mem.wf_foldl_write _ _ (Mem.wf_clear _ _ _ h)

theorem Mem.wf_empty : Mem.wf [] := ⟨List.Pairwise.nil, by simp⟩

theorem Mem.read_writeN_out (m : Mem) (a c : Nat) (bs : List Byte) (h : c < a ∨ a + bs.length ≤ c) :
    (m.writeN a bs).read c = m.read c := by
  induction bs generalizing m a with
  | nil => rfl
  | cons b r ih =>
    simp only [List.length_cons] at h
    rw [Mem.writeN, ih _ _ (by omega), Mem.read_write_ne _ _ _ _ (by omega)]

theorem Mem.readN_writeN (m : Mem) (a : Nat) (bs : List Byte) (h : m.wf) : (m.writeN a bs).readN a bs.length = bs := by
  induction bs generalizing m a with
  | nil => rfl
  | cons b r ih =>
    simp only [List.length_cons, Mem.readN, Mem.writeN]
    rw [Mem.read_writeN_out _ _ _ _ (by omega), Mem.read_write _ _ _ h, ih _ _ (Mem.wf_write _ _ _ h)]

end Sys2Proof.Machine
end

