-- ==== Sys2Proof/Laws/Keep.lean ====
section
/-! SUPPORT. The queue, the accepted images and the commit in progress, and the primitive updates that leave them alone. -/

namespace Sys2Proof.Machine

/-- What few commands write: the queue, the accepted images and the commit in progress. -/
structure Kept where
  pending : List Instr
  image : Option (List Byte)
  prog : Option (List Byte)
  commit : Option Commit
  cfgImage : List Byte
  access : Option (List CfgRec)
  accessImage : List Byte
  safety : Option (List Byte)
/-- That part of a state. -/
def State.kept (s : State) : Kept :=
  ⟨s.pending, s.sk.image, s.st.prog, s.st.commit, s.st.cfgImage, s.st.access, s.st.accessImage, s.st.safety⟩
@[simp] theorem kept_mk (p f o g st a b pa i sk sv) : State.kept (State.mk p f o g st a b pa i sk sv) =
  ⟨p, sk.image, st.prog, st.commit, st.cfgImage, st.access, st.accessImage, st.safety⟩ := rfl
@[simp] theorem mk_kept (s : State) :
  Kept.mk s.pending s.sk.image s.st.prog s.st.commit s.st.cfgImage s.st.access s.st.accessImage s.st.safety = s.kept := rfl
@[simp] theorem setLane_kept (s : State) (l) (v) : (s.setLane l v).kept = s.kept := by cases l <;> rfl
@[simp] theorem updLane_kept (s : State) (l) (v) : (s.updLane l v).kept = s.kept := by cases l <;> rfl
@[simp] theorem updPart_kept (s : State) (l) (v) : (s.updPart l v).kept = s.kept := rfl
@[simp] theorem updIsl_kept (s : State) (l) (v) : (s.updIsl l v).kept = s.kept := rfl
@[simp] theorem updSvc_kept (s : State) (v) : (s.updSvc v).kept = s.kept := rfl
@[simp] theorem updRec_kept (s : State) (v) : (s.updRec v).kept = s.kept := rfl
@[simp] theorem emit_kept (s : State) (v) : (s.emit v).kept = s.kept := rfl
@[simp] theorem updMb_kept (s : State) (p u v) : (s.updMb p u v).kept = s.kept := rfl
@[simp] theorem takeFree_kept (s : State) : (s.takeFree).2.kept = s.kept := rfl
@[simp] theorem updSt_kept (s : State) (f) : (s.updSt f).kept =
  ⟨s.pending, s.sk.image, (f s.st).prog, (f s.st).commit, (f s.st).cfgImage, (f s.st).access, (f s.st).accessImage, (f s.st).safety⟩ := rfl
@[simp] theorem updSk_kept (s : State) (f : Sk → Sk) : (s.updSk f).kept =
  ⟨s.pending, (f s.sk).image, s.st.prog, s.st.commit, s.st.cfgImage, s.st.access, s.st.accessImage, s.st.safety⟩ := rfl
@[simp] theorem foldl_kept {α} (f : State → α → State) (l : List α) (s : State) (h : ∀ s x, (f s x).kept = s.kept) : (l.foldl f s).kept = s.kept := by
  induction l generalizing s with
  | nil => rfl
  | cons a l ih => simp [ih, h]
@[simp] theorem ite_kept (c : Prop) [Decidable c] (x y : State) : (if c then x else y).kept = if c then x.kept else y.kept := by split <;> rfl
@[simp] theorem foldl_kept_fst {α β} (f : State × β → α → State × β) (l : List α) (p : State × β) (h : ∀ p x, (f p x).1.kept = p.1.kept) : (l.foldl f p).1.kept = p.1.kept := by
  induction l generalizing p with
  | nil => rfl
  | cons a l ih => simp [ih, h]
@[simp] theorem foldl_kept_snd {α β} (f : β × State → α → β × State) (l : List α) (p : β × State) (h : ∀ p x, (f p x).2.kept = p.2.kept) : (l.foldl f p).2.kept = p.2.kept := by
  induction l generalizing p with
  | nil => rfl
  | cons a l ih => simp [ih, h]
/-- An outcome that leaves it alone. -/
def Keeps (o : Host.Outcome State Fault Refusal) (s : State) : Prop := match o with | .next t => t.kept = s.kept | _ => True
@[simp] theorem keeps_next (t s : State) : Keeps (.next t) s = (t.kept = s.kept) := rfl

end Sys2Proof.Machine
end

