-- ==== Sys2Proof/Laws/Keep1.lean ====
section
/-! SUPPORT. What leaves the queue, the accepted images and the commit in progress alone: Plant, Ops, Network, Can, Dio, Analogue, Recorder, Ptp, Hooks, Points, Roles.
One lemma per operation, and one per row that is no writer of them. -/

namespace Sys2Proof.Machine

/-! Plant -/

@[simp] theorem keep_State_updNet (s : State) (l : LaneId) (f : Net → Net) : (State.updNet s l f).kept = s.kept := by
  unfold State.updNet; repeat' (first | with_reducible rfl | (simp +zetaDelta; done) | split | extract_lets | (with_reducible apply foldl_kept; intro _ _) | simp +zetaDelta)

@[simp] theorem keep_countPort (s : State) (l : LaneId) (portB : Bool) (k : Nat) : (countPort s l portB k).kept = s.kept := by
  unfold countPort; repeat' (first | with_reducible rfl | (simp +zetaDelta; done) | split | extract_lets | (with_reducible apply foldl_kept; intro _ _) | simp +zetaDelta)

@[simp] theorem keep_sendBoth (s : State) (l : LaneId) : (sendBoth s l).2.kept = s.kept := by
  simp [sendBoth]

@[simp] theorem keep_prpPass (s : State) (l : LaneId) (src seq : Nat) : (prpPass s l src seq).2.kept = s.kept := by
  unfold prpPass; repeat' (first | with_reducible rfl | (simp +zetaDelta; done) | split | extract_lets | (with_reducible apply foldl_kept; intro _ _) | simp +zetaDelta)

@[simp] theorem keep_plantIn (s : State) (l : LaneId) (rx : Rx) : (plantIn s l rx).2.kept = s.kept := by
  unfold plantIn; repeat' (first | with_reducible rfl | (simp +zetaDelta ; done) | split | extract_lets | (with_reducible apply foldl_kept; intro _ _) | simp +zetaDelta )

@[simp] theorem keep_sendPlant (s : State) (l : LaneId) (o : Nat → Out) : (sendPlant s l o).kept = s.kept := by
  simp [sendPlant]

@[simp] theorem keep_thlSend (s : State) (p : Nat) (k : ThlKind) (content : List Byte) : (thlSend s p k content).kept = s.kept := by
  unfold thlSend; repeat' (first | with_reducible rfl | (simp +zetaDelta ; done) | split | extract_lets | (with_reducible apply foldl_kept; intro _ _) | simp +zetaDelta )

@[simp] theorem keep_notify (s : State) (p vec : Nat) : (notify s p vec).kept = s.kept := by
  unfold notify; repeat' (first | with_reducible rfl | (simp +zetaDelta ; done) | split | extract_lets | (with_reducible apply foldl_kept; intro _ _) | simp +zetaDelta )

/-! Ops -/

@[simp] theorem keep_ringPut (s : State) (p : Nat) (e : RingEntry) : (ringPut s p e).kept = s.kept := by
  unfold ringPut; repeat' (first | with_reducible rfl | (simp +zetaDelta; done) | split | extract_lets | (with_reducible apply foldl_kept; intro _ _) | simp +zetaDelta)

@[simp] theorem keep_offerEvent (s : State) (p : Nat) (e : RingEntry) : (offerEvent s p e).kept = s.kept := by
  simp [offerEvent]

@[simp] theorem keep_offerNonMaskable (s : State) (p : Nat) (e : RingEntry) : (offerNonMaskable s p e).kept = s.kept := by
  simp [offerNonMaskable]

@[simp] theorem keep_deliverEvent (s : State) (e : RingEntry) : (deliverEvent s e).kept = s.kept := by
  simp [deliverEvent]

@[simp] theorem keep_releaseHeld (s : State) (p n : Nat) : (releaseHeld s p n).kept = s.kept := by
  induction n generalizing s with
  | zero => rfl
  | succ n ih => simp only [releaseHeld]; repeat' (first | rfl | split); all_goals simp [ih]

@[simp] theorem keep_stageRecord (s : State) (l : LaneId) (r : RawRec) : (stageRecord s l r).kept = s.kept := by
  simp [stageRecord]

@[simp] theorem keep_beginStaging (s : State) (l : LaneId) : (beginStaging s l).kept = s.kept := by
  simp [beginStaging]

@[simp] theorem keep_offerRecord (s : State) (l : LaneId) (r : RawRec) : (offerRecord s l r).kept = s.kept := by
  simp [offerRecord]

@[simp] theorem keep_report (s : State) (e : Ev) (withheld : Nat) : (report s e withheld).kept = s.kept := by
  simp [report]

@[simp] theorem keep_setLimit (s : State) (l : LaneId) (k : Nat) (m : Limit) : (setLimit s l k m).kept = s.kept := by
  simp [setLimit]

@[simp] theorem keep_raise (s : State) (e : Ev) : (raise s e).kept = s.kept := by
  unfold raise; repeat' (first | with_reducible rfl | (simp +zetaDelta; done) | split | extract_lets | (with_reducible apply foldl_kept; intro _ _) | simp +zetaDelta)

@[simp] theorem keep_noteUnnamed (s : State) (k : Unnamed) (l : LaneId) (pay : List Byte) : (noteUnnamed s k l pay).kept = s.kept := by
  simp [noteUnnamed]

@[simp] theorem keep_tellUnnamed (s : State) (p : Nat) (k : Unnamed) : (tellUnnamed s p k).kept = s.kept := by
  simp [tellUnnamed]

@[simp] theorem keep_raiseUnnamed (s : State) (k : Unnamed) (pay : List Byte) : (raiseUnnamed s k pay).kept = s.kept := by
  simp [raiseUnnamed]

@[simp] theorem keep_respond (s : State) (p : Nat) (urg : Bool) (status d0 d1 tick : Nat) (data : List Nat := []) : (respond s p urg status d0 d1 tick data).kept = s.kept := by
  simp [respond]

@[simp] theorem keep_answer (s : State) (p : Nat) (urg : Bool) (status : Nat) (d0 : Nat := 0) (d1 : Nat := 0) (data : List Nat := []) : (answer s p urg status d0 d1 data).kept = s.kept := by
  simp [answer]

@[simp] theorem keep_progress (s : State) (p : Nat) (urg : Bool) (status : Nat) : (progress s p urg status).kept = s.kept := by
  simp [progress]

@[simp] theorem keep_serve (s : State) (p op : Nat) (f : State → List Word → State) (h : ∀ ws, (f s ws).kept = s.kept) : (serve s p op f).kept = s.kept := by
  unfold serve; simp only []; repeat' split
  all_goals simp [h]

@[simp] theorem keep_needOperator (s : State) (p : Nat) (urg : Bool) (k : State) (h : k.kept = s.kept) : (needOperator s p urg k).kept = s.kept := by
  unfold needOperator; split <;> simp [h]

@[simp] theorem keep_needLock (s : State) (p : Nat) (urg : Bool) (k : State) (h : k.kept = s.kept) : (needLock s p urg k).kept = s.kept := by
  unfold needLock; split <;> simp [h]

@[simp] theorem keep_discardLoopStage (s : State) : (discardLoopStage s).kept = s.kept := by
  simp [discardLoopStage]

@[simp] theorem keep_dropLock (s : State) : (dropLock s).kept = s.kept := by
  simp [dropLock]

@[simp] theorem keep_dropHoldings (s : State) (p : Nat) : (dropHoldings s p).kept = s.kept := by
  simp [dropHoldings]

@[simp] theorem keep_resetWindow (s : State) (p : Nat) : (resetWindow s p).kept = s.kept := by
  simp [resetWindow]

@[simp] theorem keep_State_updImg (s : State) (l : LaneId) (f : Mem → Mem) : (State.updImg s l f).kept = s.kept := by
  simp [State.updImg]

@[simp] theorem keep_State_wrImg (s : State) (l : LaneId) (a n v : Nat) : (State.wrImg s l a n v).kept = s.kept := by
  simp [State.wrImg]

@[simp] theorem keep_bothLanes (f : State → LaneId → State) (s : State) (h : ∀ s l, (f s l).kept = s.kept) : (bothLanes f s).kept = s.kept := by
  simp [bothLanes, h]

/-! Network -/

@[simp] theorem keep_updFlow (s : State) (l : LaneId) (n : Nat) (f : FlowCtx → FlowCtx) : (updFlow s l n f).kept = s.kept := by
  unfold updFlow; repeat' (first | with_reducible rfl | (simp +zetaDelta; done) | split | extract_lets | (with_reducible apply foldl_kept; intro _ _) | simp +zetaDelta)

@[simp] theorem keep_netEvent (s : State) (l : LaneId) (src code top : Nat) (obj : Option Nat := none) : (netEvent s l src code top obj).kept = s.kept := by
  unfold netEvent; repeat' (first | with_reducible rfl | (simp +zetaDelta; done) | split | extract_lets | (with_reducible apply foldl_kept; intro _ _) | simp +zetaDelta)

@[simp] theorem keep_actEvent (s : State) (l : LaneId) (src code top : Nat) : (actEvent s l src code top).kept = s.kept := by
  unfold actEvent; repeat' (first | with_reducible rfl | (simp +zetaDelta; done) | split | extract_lets | (with_reducible apply foldl_kept; intro _ _) | simp +zetaDelta)

@[simp] theorem keep_admitRate (s : State) (l : LaneId) (key limit : Nat) : (admitRate s l key limit).2.kept = s.kept := by
  unfold admitRate; repeat' (first | with_reducible rfl | (simp +zetaDelta; done) | split | extract_lets | (with_reducible apply foldl_kept; intro _ _) | simp +zetaDelta)

@[simp] theorem keep_shed (s : State) (l : LaneId) (portB : Bool) (cls : Nat) : (shed s l portB cls).kept = s.kept := by
  unfold shed; repeat' (first | with_reducible rfl | (simp +zetaDelta; done) | split | extract_lets | (with_reducible apply foldl_kept; intro _ _) | simp +zetaDelta)

@[simp] theorem keep_acceptFrame (s : State) (l : LaneId) (portB : Bool) (r : CfgRec) (f : FlowFrame) : (acceptFrame s l portB r f).kept = s.kept := by
  unfold acceptFrame; repeat' (first | with_reducible rfl | (simp +zetaDelta; done) | split | extract_lets | (with_reducible apply foldl_kept; intro _ _) | simp +zetaDelta)

theorem keep_execFlowFrameReceived (l : LaneId) (w : Tagged) (f : FlowFrame) (s : State) : Keeps (execFlowFrameReceived l w f s) s := by
  unfold execFlowFrameReceived; (repeat' (first | with_reducible rfl | (simp +zetaDelta; done) | (simp +zetaDelta [hq2]; done) | (rename_i hq; have hq2 := (congrArg (fun x => State.kept (Prod.snd x)) hq).symm; clear hq; simp +zetaDelta at hq2) | (rename_i hq; have hq2 := (congrArg (fun x => State.kept (Prod.fst x)) hq).symm; clear hq; simp +zetaDelta at hq2) | split | (extract_lets) | (with_reducible apply foldl_kept; intro _ _) | (with_reducible apply foldl_kept_fst; intro _ _) | (with_reducible apply foldl_kept_snd; intro _ _) | (simp +zetaDelta)))

@[simp] theorem keep_flowSwap (s : State) (l : LaneId) (r : CfgRec) : (flowSwap s l r).kept = s.kept := by
  unfold flowSwap; repeat' (first | with_reducible rfl | (simp +zetaDelta; done) | split | extract_lets | (with_reducible apply foldl_kept; intro _ _) | simp +zetaDelta)

@[simp] theorem keep_flowSwaps (s : State) (l : LaneId) : (flowSwaps s l).kept = s.kept := by
  unfold flowSwaps; repeat' (first | with_reducible rfl | (simp +zetaDelta; done) | split | extract_lets | (with_reducible apply foldl_kept; intro _ _) | simp +zetaDelta)

theorem keep_execFlowDown (l : LaneId) (n : Fin 256) (s : State) : Keeps (execFlowDown l n s) s := by
  unfold execFlowDown; repeat' (first | with_reducible rfl | (simp +zetaDelta; done) | split | extract_lets | (with_reducible apply foldl_kept; intro _ _) | simp +zetaDelta)

@[simp] theorem keep_udpbcTake (s : State) (l : LaneId) (r : CfgRec) (dt : Nat) (sentences : List (List Byte)) : (udpbcTake s l r dt sentences).kept = s.kept := by
  unfold udpbcTake; repeat' (first | with_reducible rfl | (simp +zetaDelta ; done) | split | extract_lets | (with_reducible apply foldl_kept; intro _ _) | simp +zetaDelta )

@[simp] theorem keep_udpbcIn (s : State) (l : LaneId) (portB : Bool) (g : Datagram450) (dt : Nat) (sentences : List (List Byte)) : (udpbcIn s l portB g dt sentences).kept = s.kept := by
  unfold udpbcIn; repeat' (first | with_reducible rfl | (simp +zetaDelta ; done) | split | extract_lets | (with_reducible apply foldl_kept; intro _ _) | simp +zetaDelta )

theorem keep_execUdpbcDatagram (l : LaneId) (rx : Rx) (g : Datagram450) (dt : Nat) (sentences : List (List Byte)) (s : State) : Keeps (execUdpbcDatagram l rx g dt sentences s) s := by
  unfold execUdpbcDatagram; repeat' (first | with_reducible rfl | (simp +zetaDelta; done) | split | extract_lets | (with_reducible apply foldl_kept; intro _ _) | simp +zetaDelta)

@[simp] theorem keep_writeDescs (s : State) (l : LaneId) (pdu : Nat → List Byte) : (writeDescs s l pdu).kept = s.kept := by
  unfold writeDescs; repeat' (first | with_reducible rfl | (simp +zetaDelta; done) | split | extract_lets | (with_reducible apply foldl_kept; intro _ _) | simp +zetaDelta)

@[simp] theorem keep_headArrives (s : State) (l : LaneId) (q now : Nat) : (headArrives s l q now).kept = s.kept := by
  unfold headArrives; repeat' (first | with_reducible rfl | (simp +zetaDelta; done) | split | extract_lets | (with_reducible apply foldl_kept; intro _ _) | simp +zetaDelta)

@[simp] theorem keep_launchFrame (s : State) (l : LaneId) (r : CfgRec) (d : FlowDesc) (late : Bool) : (launchFrame s l r d late).kept = s.kept := by
  unfold launchFrame; repeat' (first | with_reducible rfl | (simp +zetaDelta; done) | split | extract_lets | (with_reducible apply foldl_kept; intro _ _) | simp +zetaDelta)

theorem keep_execFlowLaunch (l : LaneId) (n : Fin 256) (now : Word) (s : State) : Keeps (execFlowLaunch l n now s) s := by
  unfold execFlowLaunch; repeat' (first | with_reducible rfl | (simp +zetaDelta; done) | split | extract_lets | (with_reducible apply foldl_kept; intro _ _) | simp +zetaDelta)

@[simp] theorem keep_substFlows (s : State) (l : LaneId) : (substFlows s l).kept = s.kept := by
  unfold substFlows; repeat' (first | with_reducible rfl | (simp +zetaDelta; done) | split | extract_lets | (with_reducible apply foldl_kept; intro _ _) | simp +zetaDelta)

@[simp] theorem keep_takeoverFlows (s : State) (l : LaneId) : (takeoverFlows s l).kept = s.kept := by
  unfold takeoverFlows; repeat' (first | with_reducible rfl | (simp +zetaDelta; done) | split | extract_lets | (with_reducible apply foldl_kept; intro _ _) | simp +zetaDelta)

@[simp] theorem keep_standbyFlows (s : State) (l : LaneId) : (standbyFlows s l).kept = s.kept := by
  unfold standbyFlows; repeat' (first | with_reducible rfl | (simp +zetaDelta; done) | split | extract_lets | (with_reducible apply foldl_kept; intro _ _) | simp +zetaDelta)

@[simp] theorem keep_offlineFlows (s : State) (l : LaneId) : (offlineFlows s l).kept = s.kept := by
  unfold offlineFlows; repeat' (first | with_reducible rfl | (simp +zetaDelta; done) | split | extract_lets | (with_reducible apply foldl_kept; intro _ _) | simp +zetaDelta)

@[simp] theorem keep_flowApply (old new : List CfgRec) (before : Mem) (s : State) (l : LaneId) : (flowApply old new before s l).kept = s.kept := by
  unfold flowApply; repeat' (first | with_reducible rfl | (simp +zetaDelta; done) | split | extract_lets | (with_reducible apply foldl_kept; intro _ _) | simp +zetaDelta)

theorem keep_execPhyLinkChange (l : LaneId) (portB up : Bool) (s : State) : Keeps (execPhyLinkChange l portB up s) s := by
  unfold execPhyLinkChange; repeat' (first | with_reducible rfl | (simp +zetaDelta; done) | split | extract_lets | (with_reducible apply foldl_kept; intro _ _) | simp +zetaDelta)

theorem keep_execPrpSupervisionSend (l : LaneId) (s : State) : Keeps (execPrpSupervisionSend l s) s := by
  unfold execPrpSupervisionSend; repeat' (first | with_reducible rfl | (simp +zetaDelta; done) | split | extract_lets | (with_reducible apply foldl_kept; intro _ _) | simp +zetaDelta)

theorem keep_execPrpSupervisionFrame (l : LaneId) (portB : Bool) (node : Nat) (s : State) : Keeps (execPrpSupervisionFrame l portB node s) s := by
  unfold execPrpSupervisionFrame; repeat' (first | with_reducible rfl | (simp +zetaDelta; done) | split | extract_lets | (with_reducible apply foldl_kept; intro _ _) | simp +zetaDelta)

theorem keep_execPrpSupervisionLost (l : LaneId) (portB : Bool) (node : Nat) (s : State) : Keeps (execPrpSupervisionLost l portB node s) s := by
  unfold execPrpSupervisionLost; repeat' (first | with_reducible rfl | (simp +zetaDelta; done) | split | extract_lets | (with_reducible apply foldl_kept; intro _ _) | simp +zetaDelta)

@[simp] theorem keep_ipNext (s : State) (l : LaneId) : (ipNext s l).kept = s.kept := by
  unfold ipNext; repeat' (first | with_reducible rfl | (simp +zetaDelta; done) | split | extract_lets | (with_reducible apply foldl_kept; intro _ _) | simp +zetaDelta)

@[simp] theorem keep_ipStart (s : State) (l : LaneId) : (ipStart s l).kept = s.kept := by
  unfold ipStart; repeat' (first | with_reducible rfl | (simp +zetaDelta; done) | split | extract_lets | (with_reducible apply foldl_kept; intro _ _) | simp +zetaDelta)

theorem keep_execThlBootstrapStart (l : LaneId) (conflict : Bool) (s : State) : Keeps (execThlBootstrapStart l conflict s) s := by
  unfold execThlBootstrapStart; repeat' (first | with_reducible rfl | (simp +zetaDelta; done) | split | extract_lets | (with_reducible apply foldl_kept; intro _ _) | simp +zetaDelta)

@[simp] theorem keep_arpIcmpTake (s : State) (l : LaneId) (x0 : ArpIcmp) : (arpIcmpTake s l x0).kept = s.kept := by
  unfold arpIcmpTake; repeat' (first | with_reducible rfl | (simp +zetaDelta ; done) | split | extract_lets | (with_reducible apply foldl_kept; intro _ _) | simp +zetaDelta )

theorem keep_execArpIcmpFrame (l : LaneId) (rx : Rx) (f : ArpIcmp) (s : State) : Keeps (execArpIcmpFrame l rx f s) s := by
  unfold execArpIcmpFrame; simp only []; repeat' (first | with_reducible rfl | (simp +zetaDelta ; done) | split | extract_lets | (with_reducible apply foldl_kept; intro _ _) | simp +zetaDelta )

@[simp] theorem keep_releaseBootstrap (s : State) (l : LaneId) : (releaseBootstrap s l).kept = s.kept := by
  unfold releaseBootstrap; repeat' (first | with_reducible rfl | (simp +zetaDelta; done) | split | extract_lets | (with_reducible apply foldl_kept; intro _ _) | simp +zetaDelta)

/-! Can -/

@[simp] theorem keep_updCan (s : State) (l : LaneId) (p : Nat) (f : CanPort → CanPort) : (updCan s l p f).kept = s.kept := by
  simp [updCan]

@[simp] theorem keep_canEvent (s : State) (l : LaneId) (p src code : Nat) (low : Option Nat := none) (pay : List Byte := []) : (canEvent s l p src code low pay).kept = s.kept := by
  simp [canEvent]

@[simp] theorem keep_recDown (s : State) (c : CanPort) : (recDown s c).2.kept = s.kept := by
  unfold recDown; repeat' (first | rfl | (simp; done) | split)

@[simp] theorem keep_ecChange (s : State) (l : LaneId) (p before : Nat) : (ecChange s l p before).kept = s.kept := by
  simp [ecChange]

@[simp] theorem keep_rxError (s : State) (l : LaneId) (p : Nat) (step8 : Bool) : (rxError s l p step8).kept = s.kept := by
  simp [rxError]

theorem keep_execCanFrameReceived (l : LaneId) (port : Fin 10) (f : CanFrame) (dt : Nat) (s : State) : Keeps (execCanFrameReceived l port f dt s) s := by
  unfold execCanFrameReceived; repeat' (first | with_reducible rfl | (simp +zetaDelta; done) | split | extract_lets | (with_reducible apply foldl_kept; intro _ _) | simp +zetaDelta)

@[simp] theorem keep_canSwaps (s : State) (l : LaneId) : (canSwaps s l).kept = s.kept := by
  unfold canSwaps; repeat' (first | with_reducible rfl | (simp +zetaDelta; done) | split | extract_lets | (with_reducible apply foldl_kept; intro _ _) | simp +zetaDelta)

@[simp] theorem keep_canEnqueue (s : State) (l : LaneId) (p : Nat) (m : Mem) : (canEnqueue s l p m).kept = s.kept := by
  unfold canEnqueue; repeat' (first | with_reducible rfl | (simp +zetaDelta; done) | split | extract_lets | (with_reducible apply foldl_kept; intro _ _) | simp +zetaDelta)

@[simp] theorem keep_canWake (s : State) (l : LaneId) (p code : Nat) : (canWake s l p code).kept = s.kept := by
  simp [canWake]

@[simp] theorem keep_canRequest (s : State) (l : LaneId) (p req : Nat) : (canRequest s l p req).kept = s.kept := by
  unfold canRequest; split <;> simp

@[simp] theorem keep_canControl (s : State) (l : LaneId) (p : Nat) (m : Mem) (only : Option Nat) : (canControl s l p m only).kept = s.kept := by
  unfold canControl; split <;> simp

@[simp] theorem keep_canEdge (s : State) (l : LaneId) : (canEdge s l).kept = s.kept := by
  simp [canEdge]

theorem keep_execCanSleepRequest (l : LaneId) (port : Fin 10) (s : State) : Keeps (execCanSleepRequest l port s) s := by
  simp [execCanSleepRequest]

theorem keep_execCanWakeRequest (l : LaneId) (port : Fin 10) (s : State) : Keeps (execCanWakeRequest l port s) s := by
  simp [execCanWakeRequest]

theorem keep_execCanRecoverRequest (l : LaneId) (port : Fin 10) (s : State) : Keeps (execCanRecoverRequest l port s) s := by
  simp [execCanRecoverRequest]

theorem keep_execCanBusWake (l : LaneId) (port : Fin 10) (f : Option CanFrame) (s : State) : Keeps (execCanBusWake l port f s) s := by
  unfold execCanBusWake; repeat' (first | with_reducible rfl | (simp +zetaDelta; done) | split | extract_lets | (with_reducible apply foldl_kept; intro _ _) | simp +zetaDelta)

@[simp] theorem keep_busOff (s : State) (l : LaneId) (p : Nat) : (busOff s l p).kept = s.kept := by
  simp [busOff]

theorem keep_execCanError (l : LaneId) (port : Fin 10) (e : CanErr) (s : State) : Keeps (execCanError l port e s) s := by
  unfold execCanError; split <;> simp

theorem keep_execCanBusoffRecovered (l : LaneId) (port : Fin 10) (s : State) : Keeps (execCanBusoffRecovered l port s) s := by
  simp [execCanBusoffRecovered]

theorem keep_execCanFrameTxDone (l : LaneId) (port : Fin 10) (s : State) : Keeps (execCanFrameTxDone l port s) s := by
  unfold execCanFrameTxDone; repeat' (first | with_reducible rfl | (simp +zetaDelta; done) | split | extract_lets | (with_reducible apply foldl_kept; intro _ _) | simp +zetaDelta)

theorem keep_execScRateDetected (port : Fin 2) (rate : Fin 12) (s : State) : Keeps (execScRateDetected port rate s) s := by
  unfold execScRateDetected; repeat' (first | with_reducible rfl | (simp +zetaDelta; done) | split | extract_lets | (with_reducible apply foldl_kept; intro _ _) | simp +zetaDelta)

theorem keep_execScNoTraffic (port : Fin 2) (s : State) : Keeps (execScNoTraffic port s) s := by
  simp [execScNoTraffic]

@[simp] theorem keep_canTakeover (s : State) (l : LaneId) : (canTakeover s l).kept = s.kept := by
  unfold canTakeover; repeat' (first | with_reducible rfl | (simp +zetaDelta; done) | split | extract_lets | (with_reducible apply foldl_kept; intro _ _) | simp +zetaDelta)

@[simp] theorem keep_canListen (s : State) (l : LaneId) (clear : Bool) : (canListen s l clear).kept = s.kept := by
  simp [canListen]

@[simp] theorem keep_substCan (s : State) (l : LaneId) : (substCan s l).kept = s.kept := by
  simp [substCan]

@[simp] theorem keep_canApplyPort (old new : List CfgRec) (p : Nat) (s : State) (l : LaneId) : (canApplyPort old new p s l).kept = s.kept := by
  simp [canApplyPort]

@[simp] theorem keep_canApplyFields (old new : List CfgRec) (p : Nat) (s : State) (l : LaneId) : (canApplyFields old new p s l).kept = s.kept := by
  simp [canApplyFields]

@[simp] theorem keep_canApply (old new : List CfgRec) (s : State) (l : LaneId) : (canApply old new s l).kept = s.kept := by
  simp [canApply]

@[simp] theorem keep_canApplySend (old new : List CfgRec) (s : State) (l : LaneId) : (canApplySend old new s l).kept = s.kept := by
  simp [canApplySend]

@[simp] theorem keep_canStart (s : State) (l : LaneId) (ps : List Nat) : (canStart s l ps).kept = s.kept := by
  simp [canStart]

/-! Dio -/

@[simp] theorem keep_updDio (s : State) (i : Nat) (f : DioIsl → DioIsl) : (updDio s i f).kept = s.kept := by
  simp [updDio]

@[simp] theorem keep_setDioCh (s : State) (i c : Nat) (x : DioCh) : (setDioCh s i c x).kept = s.kept := by
  simp [setDioCh]

@[simp] theorem keep_dioEvent (s : State) (i c code : Nat) (pay : List Byte := []) : (dioEvent s i c code pay).kept = s.kept := by
  simp [dioEvent]

@[simp] theorem keep_groupEvent (s : State) (i g code : Nat) : (groupEvent s i g code).kept = s.kept := by
  simp [groupEvent]

@[simp] theorem keep_dioLatch (s : State) (i c : Nat) : (dioLatch s i c).kept = s.kept := by
  simp [dioLatch]

@[simp] theorem keep_dioRearm (s : State) (i c cause : Nat) (hot : Bool := false) : (dioRearm s i c cause hot).kept = s.kept := by
  simp [dioRearm]

@[simp] theorem keep_dioSwitch (s : State) (i c : Nat) (x : DioSample) : (dioSwitch s i c x).kept = s.kept := by
  unfold dioSwitch; split <;> simp

@[simp] theorem keep_groupAcks (s : State) (i : Nat) : (groupAcks s i).kept = s.kept := by
  simp [groupAcks]

@[simp] theorem keep_dioChanges (s : State) (i c : Nat) (b a : DioCh) : (dioChanges s i c b a).kept = s.kept := by
  simp [dioChanges]

@[simp] theorem keep_dioEdge (s : State) (i : Nat) (ch : List DioSample) (groupMa : List Nat) (temp : Int) (m : Mem) : (dioEdge s i ch groupMa temp m).1.kept = s.kept := by
  unfold dioEdge; repeat' (first | with_reducible rfl | (simp +zetaDelta; done) | split | extract_lets | (with_reducible apply foldl_kept; intro _ _) | simp +zetaDelta)

theorem keep_execDioOverload (dio2 : Bool) (ch : Fin 32) (s : State) : Keeps (execDioOverload dio2 ch s) s := by
  simp [execDioOverload]

theorem keep_execDioAutoRetry (dio2 : Bool) (ch : Fin 32) (temp : Int) (s : State) : Keeps (execDioAutoRetry dio2 ch temp s) s := by
  unfold execDioAutoRetry; repeat' (first | with_reducible rfl | (simp +zetaDelta; done) | split | extract_lets | (with_reducible apply foldl_kept; intro _ _) | simp +zetaDelta)

theorem keep_execDioGroupTrip (dio2 : Bool) (g : Fin 4) (s : State) : Keeps (execDioGroupTrip dio2 g s) s := by
  simp [execDioGroupTrip]

@[simp] theorem keep_dioApply (old new : List CfgRec) (s : State) : (dioApply old new s).kept = s.kept := by
  simp [dioApply]

@[simp] theorem keep_substDio (s : State) (l : LaneId) : (substDio s l).kept = s.kept := by
  unfold substDio; repeat' (first | with_reducible rfl | (simp +zetaDelta; done) | split | extract_lets | (with_reducible apply foldl_kept; intro _ _) | simp +zetaDelta)

/-! Analogue -/

@[simp] theorem keep_setAiCh (s : State) (i c : Nat) (x : AiCh) : (setAiCh s i c x).kept = s.kept := by
  simp [setAiCh]

@[simp] theorem keep_setAoCh (s : State) (c : Nat) (x : AoCh) : (setAoCh s c x).kept = s.kept := by
  simp [setAoCh]

@[simp] theorem keep_anaEvent (s : State) (src c code : Nat) (pay : List Byte := []) : (anaEvent s src c code pay).kept = s.kept := by
  simp [anaEvent]

@[simp] theorem keep_aiSample (s : State) (i ch : Nat) (r : CfgRec) (x : AiSample) : (aiSample s i ch r x).1.kept = s.kept := by
  simp [aiSample]

@[simp] theorem keep_aiEdge (s : State) (i : Nat) (ch : List AiSample) (temp : Int) (m : Mem) : (aiEdge s i ch temp m).1.kept = s.kept := by
  unfold aiEdge; (repeat' (first | with_reducible rfl | (simp +zetaDelta; done) | (simp +zetaDelta [hq2]; done) | (rename_i hq; have hq2 := (congrArg (fun x => State.kept (Prod.snd x)) hq).symm; clear hq; simp +zetaDelta at hq2) | (rename_i hq; have hq2 := (congrArg (fun x => State.kept (Prod.fst x)) hq).symm; clear hq; simp +zetaDelta at hq2) | split | (extract_lets) | (with_reducible apply foldl_kept; intro _ _) | (with_reducible apply foldl_kept_fst; intro _ _) | (with_reducible apply foldl_kept_snd; intro _ _) | (simp +zetaDelta)))

theorem keep_execAiSupplyRetry (ai2 : Bool) (ch : Fin 16) (s : State) : Keeps (execAiSupplyRetry ai2 ch s) s := by
  simp [execAiSupplyRetry]

@[simp] theorem keep_aoSample (s : State) (ch : Nat) (r : CfgRec) (x : AoSample) : (aoSample s ch r x).1.kept = s.kept := by
  simp [aoSample]

@[simp] theorem keep_aoEdge (s : State) (ch : List AoSample) (temp : Int) (m : Mem) : (aoEdge s ch temp m).1.kept = s.kept := by
  unfold aoEdge; (repeat' (first | with_reducible rfl | (simp +zetaDelta; done) | (simp +zetaDelta [hq2]; done) | (rename_i hq; have hq2 := (congrArg (fun x => State.kept (Prod.snd x)) hq).symm; clear hq; simp +zetaDelta at hq2) | (rename_i hq; have hq2 := (congrArg (fun x => State.kept (Prod.fst x)) hq).symm; clear hq; simp +zetaDelta at hq2) | split | (extract_lets) | (with_reducible apply foldl_kept; intro _ _) | (with_reducible apply foldl_kept_fst; intro _ _) | (with_reducible apply foldl_kept_snd; intro _ _) | (simp +zetaDelta)))

theorem keep_execAnalogueCalibrationDone (fails : List (Fin 3 × Fin 16)) (s : State) : Keeps (execAnalogueCalibrationDone fails s) s := by
  simp [execAnalogueCalibrationDone]

@[simp] theorem keep_anaApply (old new : List CfgRec) (s : State) : (anaApply old new s).kept = s.kept := by
  simp [anaApply]

@[simp] theorem keep_substAo (s : State) (l : LaneId) : (substAo s l).kept = s.kept := by
  unfold substAo; repeat' (first | with_reducible rfl | (simp +zetaDelta; done) | split | extract_lets | (with_reducible apply foldl_kept; intro _ _) | simp +zetaDelta)

@[simp] theorem keep_setSupply (s : State) (f : FieldSupply) (low : Bool) : (setSupply s f low).kept = s.kept := by
  unfold setSupply; split <;> simp

/-! Recorder -/

@[simp] theorem keep_arrive (s : State) (r : RawRec) : (arrive s r).kept = s.kept := by
  simp [arrive]

@[simp] theorem keep_writeBack (s : State) : (writeBack s).kept = s.kept := by
  simp [writeBack]

@[simp] theorem keep_unstage (s : State) (l : LaneId) : (unstage s l).kept = s.kept := by
  simp [unstage]

theorem keep_execRecordArrival (s : State) : Keeps (execRecordArrival s) s := by
  unfold execRecordArrival; split <;> simp

@[simp] theorem keep_drainQueue (n : Nat) (s : State) : (drainQueue n s).kept = s.kept := by
  induction n generalizing s with
  | zero => rfl
  | succ n ih => simp only [drainQueue]; repeat' (first | rfl | split); all_goals simp [ih]

@[simp] theorem keep_writeNow (s : State) (r : RawRec) : (writeNow s r).kept = s.kept := by
  simp [writeNow]

@[simp] theorem keep_floodStaged (s : State) (l : LaneId) : (floodStaged s l).kept = s.kept := by
  simp [floodStaged]

theorem keep_execFloodWindowEnd (s : State) : Keeps (execFloodWindowEnd s) s := by
  unfold execFloodWindowEnd; split <;> simp

theorem keep_execOptimeStep (ns : Nat) (s : State) : Keeps (execOptimeStep ns s) s := by
  simp [execOptimeStep]

@[simp] theorem keep_writeAnchor (s : State) (l : LaneId) (gm : Nat) (offset : Int) : (writeAnchor s l gm offset).kept = s.kept := by
  simp [writeAnchor]

@[simp] theorem keep_bankEvent (s : State) (l : LaneId) (code bank cause bflags seq : Nat) : (bankEvent s l code bank cause bflags seq).kept = s.kept := by
  simp [bankEvent]

@[simp] theorem keep_startBank (s : State) (l : LaneId) (b : Bank) : (startBank s l b).kept = s.kept := by
  simp [startBank]

@[simp] theorem keep_abandonBank (s : State) (cause : Nat) : (abandonBank s cause).kept = s.kept := by
  unfold abandonBank; repeat' (first | with_reducible rfl | (simp +zetaDelta ; done) | split | extract_lets | (with_reducible apply foldl_kept; intro _ _) | simp +zetaDelta )

@[simp] theorem keep_bankDone (s : State) : (bankDone s).kept = s.kept := by
  unfold bankDone; repeat' (first | with_reducible rfl | (simp +zetaDelta; done) | split | extract_lets | (with_reducible apply foldl_kept; intro _ _) | simp +zetaDelta)

theorem keep_execRetainPeriodDue (s : State) : Keeps (execRetainPeriodDue s) s := by
  unfold execRetainPeriodDue; split <;> simp

theorem keep_execServiceDomainLost (s : State) : Keeps (execServiceDomainLost s) s := by
  unfold execServiceDomainLost; split <;> simp

theorem keep_execServiceDomainReturned (s : State) : Keeps (execServiceDomainReturned s) s := by
  unfold execServiceDomainReturned; (repeat' (first | with_reducible rfl | (simp +zetaDelta; done) | (simp +zetaDelta [hq2]; done) | (rename_i hq; have hq2 := (congrArg (fun x => State.kept (Prod.snd x)) hq).symm; clear hq; simp +zetaDelta at hq2) | (rename_i hq; have hq2 := (congrArg (fun x => State.kept (Prod.fst x)) hq).symm; clear hq; simp +zetaDelta at hq2) | split | (extract_lets) | (with_reducible apply foldl_kept; intro _ _) | (with_reducible apply foldl_kept_fst; intro _ _) | (with_reducible apply foldl_kept_snd; intro _ _) | (simp +zetaDelta)))

@[simp] theorem keep_chooseBank (s : State) : (chooseBank s).kept = s.kept := by
  simp [chooseBank]

theorem keep_execRecorderClear (p : Part) (s : State) : Keeps (execRecorderClear p s) s := by
  simp [execRecorderClear]

/-! Ptp -/

@[simp] theorem keep_enterTime (s : State) (l : LaneId) (t : TimeState) : (enterTime s l t).kept = s.kept := by
  simp [enterTime]

@[simp] theorem keep_holdLaneRate (s : State) (l : LaneId) : (holdLaneRate s l).kept = s.kept := by
  simp [holdLaneRate]

@[simp] theorem keep_startServo (s : State) (l : LaneId) : (startServo s l).kept = s.kept := by
  simp [startServo]

@[simp] theorem keep_enterHoldover (s : State) (l : LaneId) : (enterHoldover s l).kept = s.kept := by
  simp [enterHoldover]

@[simp] theorem keep_selectMaster (s : State) (l : LaneId) : (selectMaster s l).kept = s.kept := by
  unfold selectMaster; repeat' (first | with_reducible rfl | (simp +zetaDelta; done) | split | extract_lets | (with_reducible apply foldl_kept; intro _ _) | simp +zetaDelta)

@[simp] theorem keep_ptpArrives (s : State) (l : LaneId) (portB udp : Bool) (typ : Nat) (k : State → CfgRec → State) (hk : ∀ s y1, (k s y1).kept = s.kept) : (ptpArrives s l portB udp typ k).kept = s.kept := by
  unfold ptpArrives
  split
  · rfl
  · extract_lets s1; split; rename_i ok s2 hq
    have hq2 := (congrArg (fun x => State.kept (Prod.snd x)) hq).symm; simp [s1] at hq2
    split
    · simp [hq2]
    · split
      · exact hq2
      · split
        · exact hq2
        · simp [hk, hq2]

@[simp] theorem keep_sendPtp (s : State) (l : LaneId) (portB : Bool) (r : CfgRec) (m : PtpAsk) : (sendPtp s l portB r m).kept = s.kept := by
  simp [sendPtp]

theorem keep_execPtpAnnounce (l : LaneId) (portB udp : Bool) (m : Announce) (s : State) : Keeps (execPtpAnnounce l portB udp m s) s := by
  unfold execPtpAnnounce; simp only []; repeat' (first | with_reducible rfl | (simp +zetaDelta ; done) | split | extract_lets | (with_reducible apply foldl_kept; intro _ _) | simp +zetaDelta )

theorem keep_execPtpDelayMessage (l : LaneId) (portB udp : Bool) (m : PtpDelay) (s : State) : Keeps (execPtpDelayMessage l portB udp m s) s := by
  unfold execPtpDelayMessage; simp only []; repeat' (first | with_reducible rfl | (simp +zetaDelta; done) | (simp +zetaDelta [hq2]; done) | (rename_i hq; have hq2 := (congrArg (fun x => (State.kept (Prod.snd x))) hq).symm; clear hq; simp +zetaDelta at hq2) | (rename_i hq; have hq2 := (congrArg (fun x => (State.kept (Prod.fst x))) hq).symm; clear hq; simp +zetaDelta at hq2) | split | (extract_lets) | (with_reducible apply foldl_kept; intro _ _) | (simp +zetaDelta))

@[simp] theorem keep_servoIncrement (s : State) (l : LaneId) (r : CfgRec) (off : Int) : (servoIncrement s l r off).kept = s.kept := by
  simp [servoIncrement]

@[simp] theorem keep_servoPort (s : State) (l : LaneId) (r : CfgRec) (portB : Bool) : (servoPort s l r portB).kept = s.kept := by
  simp [servoPort]

@[simp] theorem keep_compareOffsets (s : State) (l : LaneId) : (compareOffsets s l).kept = s.kept := by
  unfold compareOffsets; repeat' (first | with_reducible rfl | (simp +zetaDelta; done) | split | extract_lets | (with_reducible apply foldl_kept; intro _ _) | simp +zetaDelta)

@[simp] theorem keep_timeSync (s : State) (l : LaneId) (r : CfgRec) (off : Int) : (timeSync s l r off).kept = s.kept := by
  unfold timeSync; repeat' (first | with_reducible rfl | (simp +zetaDelta; done) | split | extract_lets | (with_reducible apply foldl_kept; intro _ _) | simp +zetaDelta)

theorem keep_execPtpSync (l : LaneId) (portB udp : Bool) (identity domain : Nat) (offsetNs : Int) (s : State) : Keeps (execPtpSync l portB udp identity domain offsetNs s) s := by
  unfold execPtpSync; simp only []; repeat' (first | with_reducible rfl | (simp +zetaDelta ; done) | split | extract_lets | (with_reducible apply foldl_kept; intro _ _) | simp +zetaDelta )

theorem keep_execAnnounceTimeout (l : LaneId) (s : State) : Keeps (execAnnounceTimeout l s) s := by
  unfold execAnnounceTimeout; split <;> simp

theorem keep_execHoldoverExpired (l : LaneId) (s : State) : Keeps (execHoldoverExpired l s) s := by
  simp [execHoldoverExpired]

theorem keep_execTimeAnchorDue (s : State) : Keeps (execTimeAnchorDue s) s := by
  unfold execTimeAnchorDue; split <;> simp

@[simp] theorem keep_takeStep (s : State) (l : LaneId) : (takeStep s l).2.kept = s.kept := by
  unfold takeStep; repeat' (first | with_reducible rfl | (simp +zetaDelta; done) | split | extract_lets | (with_reducible apply foldl_kept; intro _ _) | simp +zetaDelta)

@[simp] theorem keep_dropStep (s : State) (l : LaneId) : (dropStep s l).kept = s.kept := by
  simp [dropStep]

@[simp] theorem keep_lanesDiffer (s : State) (skewNs : Int) : (lanesDiffer s skewNs).kept = s.kept := by
  unfold lanesDiffer; repeat' (first | with_reducible rfl | (simp +zetaDelta ; done) | split | extract_lets | (with_reducible apply foldl_kept; intro _ _) | simp +zetaDelta )

@[simp] theorem keep_rcTime (s : State) (l : LaneId) (alone : Bool) : (rcTime s l alone).kept = s.kept := by
  simp [rcTime]

@[simp] theorem keep_tcxoTime (s : State) (l : LaneId) : (tcxoTime s l).kept = s.kept := by
  simp [tcxoTime]

/-! Hooks -/

@[simp] theorem keep_hookStandby (s : State) (l : LaneId) : (hookStandby s l).kept = s.kept := by
  simp [hookStandby]

@[simp] theorem keep_takeoverTasks (s : State) (l : LaneId) : (takeoverTasks s l).kept = s.kept := by
  simp [takeoverTasks]

@[simp] theorem keep_hookTakeover (s : State) (l : LaneId) : (hookTakeover s l).kept = s.kept := by
  simp [hookTakeover]

@[simp] theorem keep_hookOffline (s : State) (l : LaneId) : (hookOffline s l).kept = s.kept := by
  simp [hookOffline]

@[simp] theorem keep_hookTcxoReturn (s : State) (l : LaneId) : (hookTcxoReturn s l).kept = s.kept := by
  simp [hookTcxoReturn]

@[simp] theorem keep_hookRcSwitch (s : State) (l : LaneId) (alone : Bool) : (hookRcSwitch s l alone).kept = s.kept := by
  simp [hookRcSwitch]

/-! Points -/

@[simp] theorem keep_setTarget (s : State) (l : LaneId) (p : Nat) : (setTarget s l p).kept = s.kept := by
  simp [setTarget]

@[simp] theorem keep_setRise (b : Bool) (s : State) : (setRise b s).kept = s.kept := by
  simp [setRise]

@[simp] theorem keep_laneClockEvent (s : State) (l : LaneId) (base code : Nat) (pay : List Byte := []) : (laneClockEvent s l base code pay).kept = s.kept := by
  simp [laneClockEvent]

@[simp] theorem keep_requestGate (s : State) (l : LaneId) (b : GateBlock) : (requestGate s l b).kept = s.kept := by
  simp [requestGate]

@[simp] theorem keep_requestGates (s : State) (l : LaneId) (bs : List GateBlock) : (requestGates s l bs).kept = s.kept := by
  simp [requestGates]

/-! Roles -/

@[simp] theorem keep_redEvent (s : State) (l : LaneId) (src code : Nat) (pay : List Byte := []) : (redEvent s l src code pay).kept = s.kept := by
  simp [redEvent]

@[simp] theorem keep_noteRole (s : State) (l : LaneId) (r : Role) : (noteRole s l r).kept = s.kept := by
  simp [noteRole]

@[simp] theorem keep_partnerGone (s : State) (l : LaneId) : (partnerGone s l).kept = s.kept := by
  simp [partnerGone]

@[simp] theorem keep_goOffline (s : State) (l : LaneId) (c : OffCause) : (goOffline s l c).kept = s.kept := by
  simp [goOffline]

@[simp] theorem keep_laneStops (s : State) (l : LaneId) (ph : LanePhase) : (laneStops s l ph).kept = s.kept := by
  simp [laneStops]

@[simp] theorem keep_becomeSolo (s : State) (l : LaneId) : (becomeSolo s l).kept = s.kept := by
  simp [becomeSolo]

end Sys2Proof.Machine
end

