-- ==== Sys2Proof/Laws/Keep2.lean ====
section
/-! SUPPORT. What leaves the queue, the accepted images and the commit in progress alone: Tokens, Redundancy, StationState, Tasks, BlockMem, BlockEngine, Mailbox, Patch, Bulk, Chains, Clocks, Commit, Loops.
One lemma per operation, and one per row that is no writer of them. -/

namespace Sys2Proof.Machine

/-! Tokens -/

@[simp] theorem keep_grantTo (s : State) (l : LaneId) : (grantTo s l).kept = s.kept := by
  simp [grantTo]

@[simp] theorem keep_refereeAnswer (s : State) (l : LaneId) : (refereeAnswer s l).kept = s.kept := by
  unfold refereeAnswer; repeat' (first | with_reducible rfl | (simp +zetaDelta; done) | split | extract_lets | (with_reducible apply foldl_kept; intro _ _) | simp +zetaDelta)

@[simp] theorem keep_askToken (s : State) (l : LaneId) (w : TokWhy) : (askToken s l w).kept = s.kept := by
  simp [askToken]

theorem keep_execTokenRequest (l : LaneId) (s : State) : Keeps (execTokenRequest l s) s := by
  simp [execTokenRequest]

theorem keep_execTokenRequestRetry (l : LaneId) (s : State) : Keeps (execTokenRequestRetry l s) s := by
  simp [execTokenRequestRetry]

@[simp] theorem keep_regainToken (s : State) (l : LaneId) : (regainToken s l).kept = s.kept := by
  simp [regainToken]

theorem keep_execGrantRecord (i : Isl) (l : LaneId) (record : List Byte) (s : State) : Keeps (execGrantRecord i l record s) s := by
  unfold execGrantRecord; split <;> simp

theorem keep_execReleaseWord (i : Isl) (l : LaneId) (s : State) : Keeps (execReleaseWord i l s) s := by
  unfold execReleaseWord; repeat' (first | with_reducible rfl | (simp +zetaDelta; done) | split | extract_lets | (with_reducible apply foldl_kept; intro _ _) | simp +zetaDelta)

@[simp] theorem keep_tokenEdge (s : State) (i : Nat) : (tokenEdge s i).kept = s.kept := by
  unfold tokenEdge; repeat' (first | with_reducible rfl | (simp +zetaDelta; done) | split | extract_lets | (with_reducible apply foldl_kept; intro _ _) | simp +zetaDelta)

/-! Redundancy -/

@[simp] theorem keep_sendHeartbeat (s : State) (l : LaneId) : (sendHeartbeat s l).kept = s.kept := by
  simp [sendHeartbeat]

@[simp] theorem keep_judgeHeartbeat (s : State) (l : LaneId) : (judgeHeartbeat s l).kept = s.kept := updLane_kept _ _ _

theorem keep_execPartnerFailureDeclared (l : LaneId) (s : State) : Keeps (execPartnerFailureDeclared l s) s := by
  unfold execPartnerFailureDeclared; extract_lets v s1 partner
  have h1 : s1.kept = s.kept := updLane_kept ..
  split
  · rfl
  · split
    · simp [h1]
    · rw [keeps_next]; split <;> simp [h1]

theorem keep_execPathFault (l : LaneId) (kind : PathFaultKind) (s : State) : Keeps (execPathFault l kind s) s := by
  unfold execPathFault; repeat' (first | with_reducible rfl | (simp +zetaDelta ; done) | split | extract_lets | (with_reducible apply foldl_kept; intro _ _) | simp +zetaDelta )

theorem keep_execBeaconExtinguish (l : LaneId) (s : State) : Keeps (execBeaconExtinguish l s) s := by
  simp [execBeaconExtinguish]

theorem keep_execSnapshotPiece (l : LaneId) (tick : Nat) (piece : SnapPiece) (s : State) : Keeps (execSnapshotPiece l tick piece s) s := by
  simp [execSnapshotPiece]

@[simp] theorem keep_writeSnapshot (s : State) (l : LaneId) (d : SnapData) : (writeSnapshot s l d).kept = s.kept := by
  simp [writeSnapshot]

@[simp] theorem keep_discardSnapshot (s : State) (l : LaneId) (tick : Nat) : (discardSnapshot s l tick).kept = s.kept := by
  simp [discardSnapshot]

@[simp] theorem keep_applySnapshot (s : State) (l : LaneId) : (applySnapshot s l).kept = s.kept := by
  unfold applySnapshot; split <;> simp

@[simp] theorem keep_judgeSnapshot (s : State) (l : LaneId) : (judgeSnapshot s l).kept = s.kept := by
  unfold judgeSnapshot; repeat' (first | with_reducible rfl | (simp +zetaDelta; done) | split | extract_lets | (with_reducible apply foldl_kept; intro _ _) | simp +zetaDelta)

theorem keep_execSnapshotDiscard (l : LaneId) (s : State) : Keeps (execSnapshotDiscard l s) s := by
  simp [execSnapshotDiscard]

@[simp] theorem keep_startEnds (s : State) (c : EndsCause) (off : Option OffCause) : (startEnds s c off).kept = s.kept := by
  simp [startEnds]

@[simp] theorem keep_immediateEnds (s : State) (c : EndsCause) (off : Option OffCause) : (immediateEnds s c off).kept = s.kept := by
  simp [immediateEnds]

@[simp] theorem keep_retryEnds (s : State) : (retryEnds s).kept = s.kept := by
  unfold retryEnds; split <;> simp

theorem keep_execEndsIntervalDue (s : State) : Keeps (execEndsIntervalDue s) s := by
  unfold execEndsIntervalDue; repeat' (first | rfl | (simp; done) | split)

theorem keep_execEndsDeferredStart (s : State) : Keeps (execEndsDeferredStart s) s := by
  simp [execEndsDeferredStart]

theorem keep_execEndsChange (p : Part) (s : State) : Keeps (execEndsChange p s) s := by
  unfold execEndsChange
  apply keep_serve; intro ws; apply keep_needOperator
  split
  · split <;> simp
  · split <;> simp

@[simp] theorem keep_confirmEnds (s : State) (sw : Nat) : (confirmEnds s sw).kept = s.kept := by
  simp [confirmEnds]

@[simp] theorem keep_dropEnds (s : State) : (dropEnds s).kept = s.kept := by
  simp [dropEnds]

@[simp] theorem keep_yieldEnds (s : State) (l : LaneId) (back : Bool) : (yieldEnds s l back).kept = s.kept := by
  simp [yieldEnds]

@[simp] theorem keep_takeEnds (s : State) (o : LaneId) : (takeEnds s o).kept = s.kept := by
  simp [takeEnds]

theorem keep_execEndsSwapEdge (s : State) : Keeps (execEndsSwapEdge s) s := by
  unfold execEndsSwapEdge; repeat' (first | with_reducible rfl | (simp +zetaDelta; done) | split | extract_lets | (with_reducible apply foldl_kept; intro _ _) | simp +zetaDelta)

theorem keep_execSelfCheckFail (s : State) : Keeps (execSelfCheckFail s) s := by
  simp [execSelfCheckFail]

@[simp] theorem keep_parkLane (s : State) (l : LaneId) : (parkLane s l).kept = s.kept := by
  simp [parkLane]

@[simp] theorem keep_unparkLane (s : State) (l : LaneId) : (unparkLane s l).kept = s.kept := by
  simp [unparkLane]

@[simp] theorem keep_versionsDiffer (s : State) (l : LaneId) (partner : Nat) : (versionsDiffer s l partner).kept = s.kept := by
  simp [versionsDiffer]

theorem keep_execHeartbeatWord (l : LaneId) (w : HbWord) (crcOk : Bool) (s : State) : Keeps (execHeartbeatWord l w crcOk s) s := by
  unfold execHeartbeatWord; extract_lets v s1 s2 s3 s4; split
  · rfl
  · have h1 : s1.kept = s.kept := by simp [s1]
    have h2 : s2.kept = s.kept := by simp only [s2]; split <;> simp [h1]
    have h3 : s3.kept = s.kept := by simp only [s3]; split <;> simp [h2]
    have h4 : s4.kept = s.kept := by
      simp only [s4]; split
      · split <;> simp [h3]
      · exact h3
    clear_value s4
    repeat' (first | (simp [h4]; done) | split)

/-! StationState -/

@[simp] theorem keep_dropBatches (s : State) (cause : Nat) : (dropBatches s cause).kept = s.kept := by
  simp [dropBatches]

@[simp] theorem keep_enterStopped (s : State) (cause arg : Nat) : (enterStopped s cause arg).kept = s.kept := by
  simp [enterStopped]

/-! Tasks -/

@[simp] theorem keep_updBe (s : State) (l : LaneId) (f : BlockEngine → BlockEngine) : (updBe s l f).kept = s.kept := by
  simp [updBe]

@[simp] theorem keep_updCtx (s : State) (l : LaneId) (n : Nat) (f : Ctx → Ctx) : (updCtx s l n f).kept = s.kept := by
  simp [updCtx]

@[simp] theorem keep_dispatchTask (s : State) (l : LaneId) : (dispatchTask s l).kept = s.kept := by
  unfold dispatchTask; repeat' (first | rfl | (simp; done) | split)

@[simp] theorem keep_releaseTasks (s : State) (l : LaneId) (mx : Bool) : (releaseTasks s l mx).kept = s.kept := by
  simp [releaseTasks]

@[simp] theorem keep_startTasks (s : State) (l : LaneId) : (startTasks s l).kept = s.kept := by
  simp [startTasks]

@[simp] theorem keep_stopTasks (s : State) (l : LaneId) : (stopTasks s l).kept = s.kept := by
  simp [stopTasks]

@[simp] theorem keep_keepLevels (s : State) (l : LaneId) : (keepLevels s l).kept = s.kept := by
  simp [keepLevels]

@[simp] theorem keep_taskEvent (s : State) (l : LaneId) (n code : Nat) (pay : List Byte) (limited : Bool) : (taskEvent s l n code pay limited).kept = s.kept := by
  simp [taskEvent]

@[simp] theorem keep_abandonPeriod (s : State) (l : LaneId) (t : TaskDef) (cause : Nat) (p : TaskPhase) : (abandonPeriod s l t cause p).kept = s.kept := by
  simp [abandonPeriod]

@[simp] theorem keep_haltTask (s : State) (t : TaskDef) (cause : Nat) : (haltTask s t cause).kept = s.kept := by
  simp [haltTask]

@[simp] theorem keep_roleChangeAction (s : State) (l : LaneId) (t : TaskDef) : (roleChangeAction s l t).kept = s.kept := by
  simp [roleChangeAction]

@[simp] theorem keep_decideRoleAsks (s : State) : (decideRoleAsks s).kept = s.kept := by
  unfold decideRoleAsks; extract_lets ns s1; have h1 : s1.kept = s.kept := by simp [s1]
  split
  · exact h1
  · split
    · exact h1
    · rw [foldl_kept]; · exact h1
      intro s n; split
      · rfl
      · simp

@[simp] theorem keep_toleranceExceeded (s : State) (l : LaneId) (t : TaskDef) (cause : Nat) : (toleranceExceeded s l t cause).kept = s.kept := by
  unfold toleranceExceeded; repeat' (first | rfl | (simp; done) | split)

@[simp] theorem keep_failPeriod (s : State) (l : LaneId) (n cause : Nat) (pay : List Byte) : (failPeriod s l n cause pay).kept = s.kept := by
  unfold failPeriod; split <;> simp

theorem keep_execShotClockExpired (l : LaneId) (s : State) : Keeps (execShotClockExpired l s) s := by
  unfold execShotClockExpired; repeat' (first | rfl | (simp; done) | split)

@[simp] theorem keep_closeWindow (s : State) (l : LaneId) : (closeWindow s l).kept = s.kept := by
  unfold closeWindow; extract_lets close s1
  have hc : ∀ s n, (close s n).kept = s.kept := by intro s n; simp only [close]; split <;> simp
  have h2 : s1.kept = s.kept := by
    show (updBe (levels.reverse.foldl close s) l fun b => { b with window := false }).kept = s.kept
    rw [keep_updBe]; exact foldl_kept _ _ _ hc
  split
  · rfl
  · split
    · rw [updSt_kept]; exact h2
    · exact h2

theorem keep_execBeWindowClose (l : LaneId) (s : State) : Keeps (execBeWindowClose l s) s := by
  simp [execBeWindowClose]

@[simp] theorem keep_memEvent (s : State) (l : LaneId) (x : Nat) : (memEvent s l x).kept = s.kept := by
  simp [memEvent]

@[simp] theorem keep_restoreWord (s : State) (l : LaneId) (a : Nat) : (restoreWord s l a).kept = s.kept := by
  unfold restoreWord; repeat' (first | rfl | (simp; done) | split)

@[simp] theorem keep_memoryByRole (s : State) (l : LaneId) (site : EccSite) : (memoryByRole s l site).kept = s.kept := by
  unfold memoryByRole; repeat' (first | rfl | (simp; done) | split)

@[simp] theorem keep_poison (s : State) (l : LaneId) (site : EccSite) : (poison s l site).kept = s.kept := by
  simp [poison]

@[simp] theorem keep_taskMemoryError (s : State) (l : LaneId) (n : Nat) (site : EccSite) : (taskMemoryError s l n site).kept = s.kept := by
  simp [taskMemoryError]

theorem keep_execUncorrectableError (l : LaneId) (site : EccSite) (s : State) : Keeps (execUncorrectableError l site s) s := by
  unfold execUncorrectableError; repeat' (first | rfl | (simp; done) | split)

@[simp] theorem keep_noteCorrection (s : State) (l : LaneId) : (noteCorrection s l).kept = s.kept := by
  simp [noteCorrection]

theorem keep_execScrubberRead (l : LaneId) (addr : Nat) (r : ScrubResult) (s : State) : Keeps (execScrubberRead l addr r s) s := by
  unfold execScrubberRead; repeat' (first | rfl | (simp; done) | split)

/-! BlockMem -/

@[simp] theorem keep_endPeriod (s : State) (l : LaneId) (n : Nat) (c : Ctx) (t : TaskDef) : (endPeriod s l n c t).kept = s.kept := by
  simp [endPeriod]

@[simp] theorem keep_spendCycles (s : State) (l : LaneId) (n k : Nat) (t : TaskDef) : (spendCycles s l n k t).kept = s.kept := by
  simp [spendCycles]

@[simp] theorem keep_beBundle (l : LaneId) (slotA : Slot) (b : Word) (cost : BeIn → Nat) (sa : BeIn → BeRes) (s : State) : (beBundle l slotA b cost sa s).kept = s.kept := by
  unfold beBundle
  split
  · split
    · rfl
    · extract_lets c shot win stall x0 k part kk s1
      by_cases h1 : (!((s.lane l).be.window && (s.lane l).runs)) = true
      · rw [if_pos h1]
      · rw [if_neg h1]
        by_cases h2 : (s.lane l).be.poisonedCode.contains c.pc = true
        · rw [if_pos h2]; exact keep_taskMemoryError ..
        · rw [if_neg h2]; clear_value part k x0
          split
          · exact keep_failPeriod ..
          · by_cases h3 : (!bundleOk slotA ‹_›) = true
            · rw [if_pos h3]; exact keep_failPeriod ..
            · rw [if_neg h3]
              by_cases h4 : part = false ∧ shot < k ∧ shot ≤ win
              · rw [if_pos h4]; simp
              · rw [if_neg h4]
                by_cases h5 : part = false ∧ win < k
                · rw [if_pos h5]; simp
                · rw [if_neg h5]; extract_lets; have h6 : s1.kept = s.kept := by simp [s1]
                  split <;> simp [h6]
  · rfl

@[simp] theorem keep_beAlu (l : LaneId) (o : AluOp) (t : Ty) (d s1 : VReg) (s2 : Fin 32) (imm : BitVec 11) (b : Word) (s : State) : (beAlu l o t d s1 s2 imm b s).kept = s.kept := by
  simp [beAlu]

/-! BlockEngine -/

theorem keep_execBeNop (l : LaneId) (b : Word) (s : State) : Keeps (execBeNop l b s) s := by
  simp [execBeNop]

theorem keep_execBeAdd (l : LaneId) (ty : Ty) (d s1 s2 : VReg) (b : Word) (s : State) : Keeps (execBeAdd l ty d s1 s2 b s) s := by
  unfold execBeAdd; repeat' (first | rfl | (simp ; done) | split)

theorem keep_execBeSub (l : LaneId) (ty : Ty) (d s1 s2 : VReg) (b : Word) (s : State) : Keeps (execBeSub l ty d s1 s2 b s) s := by
  unfold execBeSub; repeat' (first | rfl | (simp ; done) | split)

theorem keep_execBeAdds (l : LaneId) (ty : Ty) (d s1 s2 : VReg) (b : Word) (s : State) : Keeps (execBeAdds l ty d s1 s2 b s) s := by
  unfold execBeAdds; repeat' (first | rfl | (simp ; done) | split)

theorem keep_execBeSubs (l : LaneId) (ty : Ty) (d s1 s2 : VReg) (b : Word) (s : State) : Keeps (execBeSubs l ty d s1 s2 b s) s := by
  unfold execBeSubs; repeat' (first | rfl | (simp ; done) | split)

theorem keep_execBeMul (l : LaneId) (ty : Ty) (d s1 s2 : VReg) (b : Word) (s : State) : Keeps (execBeMul l ty d s1 s2 b s) s := by
  unfold execBeMul; repeat' (first | rfl | (simp ; done) | split)

theorem keep_execBeDiv (l : LaneId) (ty : Ty) (d s1 s2 : VReg) (b : Word) (s : State) : Keeps (execBeDiv l ty d s1 s2 b s) s := by
  unfold execBeDiv; repeat' (first | rfl | (simp ; done) | split)

theorem keep_execBeMod (l : LaneId) (ty : Ty) (d s1 s2 : VReg) (b : Word) (s : State) : Keeps (execBeMod l ty d s1 s2 b s) s := by
  unfold execBeMod; repeat' (first | rfl | (simp ; done) | split)

theorem keep_execBeMin (l : LaneId) (ty : Ty) (d s1 s2 : VReg) (b : Word) (s : State) : Keeps (execBeMin l ty d s1 s2 b s) s := by
  unfold execBeMin; repeat' (first | rfl | (simp ; done) | split)

theorem keep_execBeMax (l : LaneId) (ty : Ty) (d s1 s2 : VReg) (b : Word) (s : State) : Keeps (execBeMax l ty d s1 s2 b s) s := by
  unfold execBeMax; repeat' (first | rfl | (simp ; done) | split)

theorem keep_execBeAnd (l : LaneId) (ty : Ty) (d s1 s2 : VReg) (b : Word) (s : State) : Keeps (execBeAnd l ty d s1 s2 b s) s := by
  unfold execBeAnd; repeat' (first | rfl | (simp ; done) | split)

theorem keep_execBeOr (l : LaneId) (ty : Ty) (d s1 s2 : VReg) (b : Word) (s : State) : Keeps (execBeOr l ty d s1 s2 b s) s := by
  unfold execBeOr; repeat' (first | rfl | (simp ; done) | split)

theorem keep_execBeXor (l : LaneId) (ty : Ty) (d s1 s2 : VReg) (b : Word) (s : State) : Keeps (execBeXor l ty d s1 s2 b s) s := by
  unfold execBeXor; repeat' (first | rfl | (simp ; done) | split)

theorem keep_execBeCeq (l : LaneId) (ty : Ty) (d s1 s2 : VReg) (b : Word) (s : State) : Keeps (execBeCeq l ty d s1 s2 b s) s := by
  unfold execBeCeq; repeat' (first | rfl | (simp ; done) | split)

theorem keep_execBeCne (l : LaneId) (ty : Ty) (d s1 s2 : VReg) (b : Word) (s : State) : Keeps (execBeCne l ty d s1 s2 b s) s := by
  unfold execBeCne; repeat' (first | rfl | (simp ; done) | split)

theorem keep_execBeClt (l : LaneId) (ty : Ty) (d s1 s2 : VReg) (b : Word) (s : State) : Keeps (execBeClt l ty d s1 s2 b s) s := by
  unfold execBeClt; repeat' (first | rfl | (simp ; done) | split)

theorem keep_execBeCle (l : LaneId) (ty : Ty) (d s1 s2 : VReg) (b : Word) (s : State) : Keeps (execBeCle l ty d s1 s2 b s) s := by
  unfold execBeCle; repeat' (first | rfl | (simp ; done) | split)

theorem keep_execBeMov (l : LaneId) (ty : Ty) (d s1 : VReg) (b : Word) (s : State) : Keeps (execBeMov l ty d s1 b s) s := by
  unfold execBeMov; repeat' (first | rfl | (simp ; done) | split)

theorem keep_execBeNeg (l : LaneId) (ty : Ty) (d s1 : VReg) (b : Word) (s : State) : Keeps (execBeNeg l ty d s1 b s) s := by
  unfold execBeNeg; repeat' (first | rfl | (simp ; done) | split)

theorem keep_execBeAbs (l : LaneId) (ty : Ty) (d s1 : VReg) (b : Word) (s : State) : Keeps (execBeAbs l ty d s1 b s) s := by
  unfold execBeAbs; repeat' (first | rfl | (simp ; done) | split)

theorem keep_execBeSqrt (l : LaneId) (ty : Ty) (d s1 : VReg) (b : Word) (s : State) : Keeps (execBeSqrt l ty d s1 b s) s := by
  unfold execBeSqrt; repeat' (first | rfl | (simp ; done) | split)

theorem keep_execBeNot (l : LaneId) (ty : Ty) (d s1 : VReg) (b : Word) (s : State) : Keeps (execBeNot l ty d s1 b s) s := by
  unfold execBeNot; repeat' (first | rfl | (simp ; done) | split)

theorem keep_execBeMovi (l : LaneId) (ty : Ty) (d : VReg) (imm : BitVec 11) (b : Word) (s : State) : Keeps (execBeMovi l ty d imm b s) s := by
  unfold execBeMovi; repeat' (first | rfl | (simp ; done) | split)

theorem keep_execBeShl (l : LaneId) (ty : Ty) (d s1 : VReg) (imm : BitVec 11) (b : Word) (s : State) : Keeps (execBeShl l ty d s1 imm b s) s := by
  unfold execBeShl; repeat' (first | rfl | (simp ; done) | split)

theorem keep_execBeShr (l : LaneId) (ty : Ty) (d s1 : VReg) (imm : BitVec 11) (b : Word) (s : State) : Keeps (execBeShr l ty d s1 imm b s) s := by
  unfold execBeShr; repeat' (first | rfl | (simp ; done) | split)

theorem keep_execBeCvt (l : LaneId) (ty : Ty) (d s1 : VReg) (src : Ty) (b : Word) (s : State) : Keeps (execBeCvt l ty d s1 src b s) s := by
  unfold execBeCvt; repeat' (first | rfl | (simp ; done) | split)

theorem keep_execBeSel (l : LaneId) (ty : Ty) (d s1 s2 : VReg) (b : Word) (s : State) : Keeps (execBeSel l ty d s1 s2 b s) s := by
  unfold execBeSel; repeat' (first | rfl | (simp ; done) | split)

theorem keep_execBeLd (l : LaneId) (ty : Ty) (v : VReg) (a : AReg) (disp : BitVec 13) (ecc : Bool) (b : Word) (s : State) : Keeps (execBeLd l ty v a disp ecc b s) s := by
  simp [execBeLd]

theorem keep_execBeSt (l : LaneId) (ty : Ty) (v : VReg) (a : AReg) (disp : BitVec 13) (b : Word) (s : State) : Keeps (execBeSt l ty v a disp b s) s := by
  simp [execBeSt]

theorem keep_execBeLda (l : LaneId) (d a : AReg) (disp : BitVec 13) (b : Word) (s : State) : Keeps (execBeLda l d a disp b s) s := by
  simp [execBeLda]

theorem keep_execBeIdxc (l : LaneId) (scale : Fin 4) (d a : AReg) (v : VReg) (boundM1 : BitVec 10) (b : Word) (s : State) : Keeps (execBeIdxc l scale d a v boundM1 b s) s := by
  simp [execBeIdxc]

theorem keep_execBeItpl (l : LaneId) (a : AReg) (count : BitVec 13) (b : Word) (s : State) : Keeps (execBeItpl l a count b s) s := by
  simp [execBeItpl]

theorem keep_execBeBra (l : LaneId) (off : BitVec 16) (b : Word) (s : State) : Keeps (execBeBra l off b s) s := by
  simp [execBeBra]

theorem keep_execBeBrz (l : LaneId) (v : VReg) (off : BitVec 16) (b : Word) (s : State) : Keeps (execBeBrz l v off b s) s := by
  simp [execBeBrz]

theorem keep_execBeBrnz (l : LaneId) (v : VReg) (off : BitVec 16) (b : Word) (s : State) : Keeps (execBeBrnz l v off b s) s := by
  simp [execBeBrnz]

theorem keep_execBeLoop (l : LaneId) (v : VReg) (bound : BitVec 16) (b : Word) (s : State) : Keeps (execBeLoop l v bound b s) s := by
  simp [execBeLoop]

theorem keep_execBeEndl (l : LaneId) (b : Word) (s : State) : Keeps (execBeEndl l b s) s := by
  simp [execBeEndl]

theorem keep_execBeCallb (l : LaneId) (a : AReg) (typeNo : BitVec 12) (b : Word) (s : State) : Keeps (execBeCallb l a typeNo b s) s := by
  simp [execBeCallb]

@[simp] theorem keep_noteCommit (l : LaneId) (before after : State) : (noteCommit l before after).kept = after.kept := by
  unfold noteCommit; split
  · split
    · rfl
    · split
      · exact updLane_kept _ _ _
      · rfl
  · rfl

theorem keep_execBeRetb (l : LaneId) (b : Word) (s : State) : Keeps (execBeRetb l b s) s := by
  simp [execBeRetb]

theorem keep_execBeEnd (l : LaneId) (b : Word) (s : State) : Keeps (execBeEnd l b s) s := by
  simp [execBeEnd]

@[simp] theorem keep_illegalBundle (s : State) (l : LaneId) : (illegalBundle s l).kept = s.kept := by
  unfold illegalBundle; split <;> simp

/-! Mailbox -/

@[simp] theorem keep_endGrace (s : State) (p : Nat) : (endGrace s p).kept = s.kept := by
  simp [endGrace]

@[simp] theorem keep_attachFinal (s : State) (p : Nat) (ws : List Word) (resume : Bool) : (attachFinal s p ws resume).kept = s.kept := by
  simp [attachFinal]

theorem keep_execAttach (p : Part) (s : State) : Keeps (execAttach p s) s := by
  unfold execAttach
  refine keep_serve _ _ _ _ (fun ws => ?_)
  try refine keep_needLock _ _ _ _ ?_
  try refine keep_needOperator _ _ _ _ ?_
  simp only []
  repeat' (first | with_reducible rfl | (simp; done) | split)

@[simp] theorem keep_sessionEvent (s : State) (src code p : Nat) : (sessionEvent s src code p).kept = s.kept := by
  simp [sessionEvent]

@[simp] theorem keep_sessionPhase1 (s : State) (p : Nat) : (sessionPhase1 s p).kept = s.kept := by
  unfold sessionPhase1; split <;> simp

@[simp] theorem keep_sessionPhase2 (s : State) (p : Nat) (ws : List Word) : (sessionPhase2 s p ws).kept = s.kept := by
  simp [sessionPhase2]

theorem keep_execSessionOpen (p : Part) (s : State) : Keeps (execSessionOpen p s) s := by
  simp [execSessionOpen]

@[simp] theorem keep_closeSession (s : State) (p : Nat) : (closeSession s p).kept = s.kept := by
  simp [closeSession]

theorem keep_execSessionClose (p : Part) (s : State) : Keeps (execSessionClose p s) s := by
  simp [execSessionClose]

theorem keep_execSessionIdleTimeout (p : Part) (s : State) : Keeps (execSessionIdleTimeout p s) s := by
  simp [execSessionIdleTimeout]

theorem keep_execAuthLockoutEnd (s : State) : Keeps (execAuthLockoutEnd s) s := by
  simp [execAuthLockoutEnd]

@[simp] theorem keep_grantLock (s : State) (p : Nat) : (grantLock s p).kept = s.kept := by
  simp [grantLock]

theorem keep_execLockAcquire (p : Part) (s : State) : Keeps (execLockAcquire p s) s := by
  unfold execLockAcquire
  refine keep_serve _ _ _ _ (fun ws => ?_)
  try refine keep_needLock _ _ _ _ ?_
  try refine keep_needOperator _ _ _ _ ?_
  simp only []
  repeat' (first | with_reducible rfl | (simp; done) | split)

theorem keep_execLockRelease (p : Part) (s : State) : Keeps (execLockRelease p s) s := by
  simp [execLockRelease]

theorem keep_execEventSubscribe (p : Part) (s : State) : Keeps (execEventSubscribe p s) s := by
  simp [execEventSubscribe]

theorem keep_execEventRead (p : Part) (s : State) : Keeps (execEventRead p s) s := by
  simp [execEventRead]

theorem keep_execConfigBegin (p : Part) (s : State) : Keeps (execConfigBegin p s) s := by
  simp [execConfigBegin]

theorem keep_execConfigAbort (p : Part) (s : State) : Keeps (execConfigAbort p s) s := by
  simp [execConfigAbort]

theorem keep_execHostLinkLost (p : Part) (s : State) : Keeps (execHostLinkLost p s) s := by
  unfold execHostLinkLost; split <;> simp

/-! Patch -/

@[simp] theorem keep_submitPatch (s : State) (p : Nat) (items : List (Nat × List Byte)) : (submitPatch s p items).kept = s.kept := by
  unfold submitPatch; repeat' (first | with_reducible rfl | (simp +zetaDelta; done) | split | extract_lets | (with_reducible apply foldl_kept; intro _ _) | simp +zetaDelta)

@[simp] theorem keep_applyItem (img : List Byte) (l : LaneId) (s : State) (it : Nat × List Byte) : (applyItem img l s it).kept = s.kept := by
  unfold applyItem; repeat' (first | with_reducible rfl | (simp +zetaDelta ; done) | split | extract_lets | (with_reducible apply foldl_kept; intro _ _) | simp +zetaDelta )

@[simp] theorem keep_applyPatches (s : State) (l : LaneId) : (applyPatches s l).kept = s.kept := by
  unfold applyPatches; split <;> simp

@[simp] theorem keep_redueBatches (was : Nat) (s : State) : (redueBatches was s).kept = s.kept := by
  simp [redueBatches]

@[simp] theorem keep_batchEdge (was : Nat) (s : State) : (batchEdge was s).kept = s.kept := by
  simp [batchEdge]

@[simp] theorem keep_bankAfterPatch (s : State) (l : LaneId) : (bankAfterPatch s l).kept = s.kept := by
  unfold bankAfterPatch; split <;> simp

/-! Bulk -/

@[simp] theorem keep_endXfer (s : State) (p : Nat) (urg : Bool) (x : Xfer) : (endXfer s p urg x).kept = s.kept := by
  unfold endXfer; split <;> simp

@[simp] theorem keep_sendPiece (s : State) (p : Nat) (urg : Bool) (x : Xfer) : (sendPiece s p urg x).kept = s.kept := by
  simp [sendPiece]

@[simp] theorem keep_beginXfer (s : State) (p : Nat) (urg : Bool) (x : Xfer) : (beginXfer s p urg x).kept = s.kept := by
  simp [beginXfer]

theorem keep_execDmaCompletionTimeout (p : Part) (urgent : Bool) (s : State) : Keeps (execDmaCompletionTimeout p urgent s) s := by
  unfold execDmaCompletionTimeout; repeat' (first | with_reducible rfl | (simp +zetaDelta; done) | split | extract_lets | (with_reducible apply foldl_kept; intro _ _) | simp +zetaDelta)

theorem keep_execConfigChunk (p : Part) (s : State) : Keeps (execConfigChunk p s) s := by
  unfold execConfigChunk
  refine keep_serve _ _ _ _ (fun ws => ?_)
  try refine keep_needLock _ _ _ _ ?_
  try refine keep_needOperator _ _ _ _ ?_
  simp only []
  repeat' (first | with_reducible rfl | (simp; done) | split)

theorem keep_execValuePatch (p : Part) (s : State) : Keeps (execValuePatch p s) s := by
  unfold execValuePatch
  refine keep_serve _ _ _ _ (fun ws => ?_)
  try refine keep_needLock _ _ _ _ ?_
  try refine keep_needOperator _ _ _ _ ?_
  simp only []
  repeat' (first | with_reducible rfl | (simp; done) | split)

theorem keep_execImageRead (p : Part) (s : State) : Keeps (execImageRead p s) s := by
  unfold execImageRead
  refine keep_serve _ _ _ _ (fun ws => ?_)
  try refine keep_needLock _ _ _ _ ?_
  try refine keep_needOperator _ _ _ _ ?_
  simp only []
  repeat' (first | with_reducible rfl | (simp; done) | split)

theorem keep_execRecorderRead (p : Part) (s : State) : Keeps (execRecorderRead p s) s := by
  unfold execRecorderRead
  refine keep_serve _ _ _ _ (fun ws => ?_)
  try refine keep_needLock _ _ _ _ ?_
  try refine keep_needOperator _ _ _ _ ?_
  simp only []
  repeat' (first | with_reducible rfl | (simp; done) | split)

theorem keep_execFlowStats (p : Part) (s : State) : Keeps (execFlowStats p s) s := by
  unfold execFlowStats
  refine keep_serve _ _ _ _ (fun ws => ?_)
  try refine keep_needLock _ _ _ _ ?_
  try refine keep_needOperator _ _ _ _ ?_
  simp only []
  repeat' (first | with_reducible rfl | (simp; done) | split)

theorem keep_execRetainedRead (p : Part) (s : State) : Keeps (execRetainedRead p s) s := by
  unfold execRetainedRead
  refine keep_serve _ _ _ _ (fun ws => ?_)
  try refine keep_needLock _ _ _ _ ?_
  try refine keep_needOperator _ _ _ _ ?_
  simp only []
  repeat' (first | with_reducible rfl | (simp; done) | split)

/-! Chains -/

@[simp] theorem keep_chainEvents (s : State) (l : LaneId) (n : Nat) (entered : List ChainPhase) (sat : Option Nat) (rej : Bool) : (chainEvents s l n entered sat rej).kept = s.kept := by
  unfold chainEvents; repeat' (first | rfl | (simp; done) | split)

@[simp] theorem keep_chainPass (s : State) (l : LaneId) (r : CfgRec) : (chainPass s l r).kept = s.kept := by
  simp [chainPass]

@[simp] theorem keep_chainPasses (s : State) (l : LaneId) : (chainPasses s l).kept = s.kept := by
  simp [chainPasses]

@[simp] theorem keep_publishChains (s : State) (l : LaneId) : (publishChains s l).kept = s.kept := by
  simp [publishChains]

@[simp] theorem keep_chainApply (old new : List CfgRec) (s : State) (l : LaneId) : (chainApply old new s l).kept = s.kept := by
  unfold chainApply; repeat' (first | with_reducible rfl | (simp +zetaDelta; done) | split | extract_lets | (with_reducible apply foldl_kept; intro _ _) | simp +zetaDelta)

@[simp] theorem keep_chainRow (s : State) (l : LaneId) (n : Nat) (is : ChainSt → ChainSt → Bool) : (chainRow s l n is).kept = s.kept := by
  unfold chainRow; split <;> simp

theorem keep_execChainStaleExpired (l : LaneId) (n : Fin 16) (s : State) : Keeps (execChainStaleExpired l n s) s := by
  simp [execChainStaleExpired]

theorem keep_execChainHoldExpired (l : LaneId) (n : Fin 16) (s : State) : Keeps (execChainHoldExpired l n s) s := by
  simp [execChainHoldExpired]

theorem keep_execChainFadeEnd (l : LaneId) (n : Fin 16) (s : State) : Keeps (execChainFadeEnd l n s) s := by
  simp [execChainFadeEnd]

theorem keep_execChainSettleEnd (l : LaneId) (n : Fin 16) (s : State) : Keeps (execChainSettleEnd l n s) s := by
  simp [execChainSettleEnd]

/-! Clocks -/

@[simp] theorem keep_clockFailEvent (s : State) (l : LaneId) (code : Nat) : (clockFailEvent s l code).kept = s.kept := by
  simp [clockFailEvent]

@[simp] theorem keep_abandonEntry (s : State) (cause : Nat) : (abandonEntry s cause).kept = s.kept := by
  simp [abandonEntry]

@[simp] theorem keep_actOnRc (s : State) (l : LaneId) : (actOnRc s l).kept = s.kept := by
  unfold actOnRc; repeat' (first | with_reducible rfl | (simp +zetaDelta; done) | split | extract_lets | (with_reducible apply foldl_kept; intro _ _) | simp +zetaDelta)

@[simp] theorem keep_tcxoFails (s : State) (l : LaneId) : (tcxoFails s l).kept = s.kept := by
  simp [tcxoFails]

@[simp] theorem keep_rcFails (s : State) (l : LaneId) : (rcFails s l).kept = s.kept := by
  simp [rcFails]

theorem keep_execTcxoFailure (l : LaneId) (count : Option Nat) (s : State) : Keeps (execTcxoFailure l count s) s := by
  unfold execTcxoFailure; repeat' (first | with_reducible rfl | (simp +zetaDelta; done) | split | extract_lets | (with_reducible apply foldl_kept; intro _ _) | simp +zetaDelta)

theorem keep_execRcFault (l : LaneId) (count : Nat) (partner : Option Nat) (s : State) : Keeps (execRcFault l count partner s) s := by
  unfold execRcFault; repeat' (first | rfl | (simp; done) | split)

theorem keep_execRcQualified (l : LaneId) (count : Nat) (s : State) : Keeps (execRcQualified l count s) s := by
  unfold execRcQualified; repeat' (first | with_reducible rfl | (simp +zetaDelta; done) | split | extract_lets | (with_reducible apply foldl_kept; intro _ _) | simp +zetaDelta)

theorem keep_execRcQualTimeout (l : LaneId) (s : State) : Keeps (execRcQualTimeout l s) s := by
  simp [execRcQualTimeout]

theorem keep_execTcxoReturn (l : LaneId) (s : State) : Keeps (execTcxoReturn l s) s := by
  unfold execTcxoReturn; repeat' (first | with_reducible rfl | (simp +zetaDelta; done) | split | extract_lets | (with_reducible apply foldl_kept; intro _ _) | simp +zetaDelta)

theorem keep_execLockstepMismatch (l : LaneId) (s : State) : Keeps (execLockstepMismatch l s) s := by
  simp [execLockstepMismatch]

theorem keep_execVoltageStepDone (l : LaneId) (s : State) : Keeps (execVoltageStepDone l s) s := by
  unfold execVoltageStepDone; split <;> simp

@[simp] theorem keep_freqEdge (s : State) (l : LaneId) : (freqEdge s l).kept = s.kept := by
  simp [freqEdge]

@[simp] theorem keep_gateEdge (s : State) (l : LaneId) : (gateEdge s l).kept = s.kept := by
  simp [gateEdge]

@[simp] theorem keep_busyEdge (s : State) : (busyEdge s).kept = s.kept := by
  simp [busyEdge]

@[simp] theorem keep_refuseAbove (s : State) (l : LaneId) (b : GateBlock) : (refuseAbove s l b).kept = s.kept := by
  simp [refuseAbove]

theorem keep_execGateBusyTimeout (l : LaneId) (block : GateBlock) (s : State) : Keeps (execGateBusyTimeout l block s) s := by
  unfold execGateBusyTimeout; split <;> simp

@[simp] theorem keep_powerEvent (s : State) (p : PowerState) : (powerEvent s p).kept = s.kept := by
  simp [powerEvent]

@[simp] theorem keep_enterShallow (hold4 : Bool) (s : State) (p : PowerState) : (enterShallow hold4 s p).kept = s.kept := by
  simp [enterShallow]

@[simp] theorem keep_litEdge (s : State) : (litEdge s).kept = s.kept := by
  simp [litEdge]

@[simp] theorem keep_parkEdge (s : State) (l : LaneId) : (parkEdge s l).kept = s.kept := by
  simp [parkEdge]

@[simp] theorem keep_raisePoints (hold4 : Bool) (s : State) : (raisePoints hold4 s).kept = s.kept := by
  simp [raisePoints]

@[simp] theorem keep_powerEdge (hold4 : Bool) (s : State) : (powerEdge hold4 s).kept = s.kept := by
  unfold powerEdge; repeat' (first | with_reducible rfl | (simp +zetaDelta; done) | split | extract_lets | (with_reducible apply foldl_kept; intro _ _) | simp +zetaDelta)

/-! Commit -/

@[simp] theorem keep_sealRecord (s : State) (code : Nat) (pay : List Byte) : (sealRecord s code pay).kept = s.kept := by
  simp [sealRecord]

@[simp] theorem keep_changeLog (s : State) (target part cflags : Nat) (old new : List Byte) : (changeLog s target part cflags old new).kept = s.kept := by
  simp [changeLog]

@[simp] theorem keep_sealEvent (s : State) (code target : Nat) : (sealEvent s code target).kept = s.kept := by
  simp [sealEvent]

@[simp] theorem keep_writeSeal (s : State) (target code part cflags : Nat) (digest : List Byte) : (writeSeal s target code part cflags digest).kept = s.kept := by
  simp [writeSeal]

/-! Loops -/

@[simp] theorem keep_sinkGood (s : State) (l : LaneId) (r : CfgRec) (tripped : Bool) : (sinkGood s l r tripped).kept = s.kept := by
  unfold sinkGood; repeat' (first | with_reducible rfl | (simp +zetaDelta ; done) | split | extract_lets | (with_reducible apply foldl_kept; intro _ _) | simp +zetaDelta )

@[simp] theorem keep_writeSink (s : State) (l : LaneId) (r : CfgRec) (raw : Nat) (tripped : Bool) : (writeSink s l r raw tripped).kept = s.kept := by
  unfold writeSink; repeat' (first | with_reducible rfl | (simp +zetaDelta; done) | split | extract_lets | (with_reducible apply foldl_kept; intro _ _) | simp +zetaDelta)

@[simp] theorem keep_loopReport (s : State) (l : LaneId) (n : Nat) (e : LoopEv) : (loopReport s l n e).kept = s.kept := by
  unfold loopReport; split <;> simp

@[simp] theorem keep_setLoopRec (s : State) (r : CfgRec) : (setLoopRec s r).kept = s.kept := by
  simp [setLoopRec]

@[simp] theorem keep_paramRecords (s : State) (old new : CfgRec) (ws : List (Nat × Nat)) : (paramRecords s old new ws).kept = s.kept := by
  simp [paramRecords]

@[simp] theorem keep_applyParam (s : State) (q : LoopAsk) : (applyParam s q).kept = s.kept := by
  unfold applyParam; repeat' (first | with_reducible rfl | (simp +zetaDelta; done) | split | extract_lets | (with_reducible apply foldl_kept; intro _ _) | simp +zetaDelta)

@[simp] theorem keep_applyParams (s : State) (n : Nat) : (applyParams s n).kept = s.kept := by
  simp [applyParams]

@[simp] theorem keep_answerMode (s : State) (n : Nat) (o : LoopAsk × Bool × Nat) : (answerMode s n o).kept = s.kept := by
  simp [answerMode]

@[simp] theorem keep_loopPass (s0 : State) (l : LaneId) (n : Nat) : (loopPass s0 l n).kept = s0.kept := by
  unfold loopPass; (repeat' (first | with_reducible rfl | (simp +zetaDelta; done) | (simp +zetaDelta [hq2]; done) | (rename_i hq; have hq2 := (congrArg (fun x => State.kept (Prod.snd x)) hq).symm; clear hq; simp +zetaDelta at hq2) | (rename_i hq; have hq2 := (congrArg (fun x => State.kept (Prod.fst x)) hq).symm; clear hq; simp +zetaDelta at hq2) | split | (extract_lets) | (with_reducible apply foldl_kept; intro _ _) | (with_reducible apply foldl_kept_fst; intro _ _) | (with_reducible apply foldl_kept_snd; intro _ _) | (simp +zetaDelta)))

@[simp] theorem keep_substSink (s : State) (l : LaneId) (r : CfgRec) : (substSink s l r).kept = s.kept := by
  unfold substSink; repeat' (first | with_reducible rfl | (simp +zetaDelta ; done) | split | extract_lets | (with_reducible apply foldl_kept; intro _ _) | simp +zetaDelta )

@[simp] theorem keep_publishLoop (s : State) (l : LaneId) (r : CfgRec) : (publishLoop s l r).kept = s.kept := by
  simp [publishLoop]

@[simp] theorem keep_publishLoops (s : State) (l : LaneId) : (publishLoops s l).kept = s.kept := by
  simp [publishLoops]

@[simp] theorem keep_refuseModes (s : State) : (refuseModes s).kept = s.kept := by
  simp [refuseModes]

@[simp] theorem keep_loopPasses (s : State) (l : LaneId) (late : Option Nat) : (loopPasses s l late).kept = s.kept := by
  unfold loopPasses; split <;> simp

@[simp] theorem keep_startLoop (s : State) (l : LaneId) (r : CfgRec) : (startLoop s l r).kept = s.kept := by
  simp [startLoop]

@[simp] theorem keep_startLoops (s : State) (l : LaneId) : (startLoops s l).kept = s.kept := by
  simp [startLoops]

@[simp] theorem keep_stopLoop (s : State) (l : LaneId) (r : CfgRec) : (stopLoop s l r).kept = s.kept := by
  simp [stopLoop]

@[simp] theorem keep_stopLoops (s : State) (l : LaneId) : (stopLoops s l).kept = s.kept := by
  simp [stopLoops]

@[simp] theorem keep_loopApply (old new : List CfgRec) (s : State) (l : LaneId) : (loopApply old new s l).kept = s.kept := by
  unfold loopApply; repeat' (first | with_reducible rfl | (simp +zetaDelta; done) | split | extract_lets | (with_reducible apply foldl_kept; intro _ _) | simp +zetaDelta)

theorem keep_execLoopMode (p : Part) (s : State) : Keeps (execLoopMode p s) s := by
  unfold execLoopMode
  refine keep_serve _ _ _ _ (fun ws => ?_)
  try refine keep_needLock _ _ _ _ ?_
  try refine keep_needOperator _ _ _ _ ?_
  simp only []
  repeat' (first | with_reducible rfl | (simp; done) | split)

theorem keep_execLoopParam (p : Part) (s : State) : Keeps (execLoopParam p s) s := by
  unfold execLoopParam
  refine keep_serve _ _ _ _ (fun ws => ?_)
  try refine keep_needLock _ _ _ _ ?_
  try refine keep_needOperator _ _ _ _ ?_
  simp only []
  repeat' (first | with_reducible rfl | (simp; done) | split)

@[simp] theorem keep_loopRow (s : State) (l : LaneId) (n cause : Nat) : (loopRow s l n cause).kept = s.kept := by
  unfold loopRow; split
  · rfl
  · split
    · rfl
    · extract_lets s1 s2 c
      have h1 : s1.kept = s.kept := by
        simp only [s1]; split
        · cases State.cfgRec s 0x0901 _ <;> simp
        · rfl
      split
      · simp only [s2, keep_loopPass]; exact h1
      · rfl

theorem keep_execLoopQbadExpired (l : LaneId) (n : Fin 128) (s : State) : Keeps (execLoopQbadExpired l n s) s := by
  simp [execLoopQbadExpired]

theorem keep_execLoopFeExpired (l : LaneId) (n : Fin 128) (s : State) : Keeps (execLoopFeExpired l n s) s := by
  simp [execLoopFeExpired]

end Sys2Proof.Machine
end

