-- ==== Sys2Proof/Laws/Keep3.lean ====
section
/-! SUPPORT. What leaves the queue, the accepted images and the commit in progress alone: Mx, SafetyKernel, Islands, Startup, Power, Wide, Window, Rtc, Panel, Supplies, Status, Tick, ConfigCommit, Reint, SafetyIo, Thl, Station.
One lemma per operation, and one per row that is no writer of them. -/

namespace Sys2Proof.Machine

/-! Mx -/

@[simp] theorem keep_setEnc (s : State) (n : Nat) (x : Enc) : (setEnc s n x).kept = s.kept := by
  simp [setEnc]

@[simp] theorem keep_setRs (s : State) (p : Nat) (x : Rs422) : (setRs s p x).kept = s.kept := by
  simp [setRs]

theorem keep_execEncoderEdge (n : Fin 8) (a b : Bool) (dt : Nat) (tooFast : Bool) (s : State) : Keeps (execEncoderEdge n a b dt tooFast s) s := by
  unfold execEncoderEdge; split <;> simp

@[simp] theorem keep_encEvent (s : State) (n code : Nat) : (encEvent s n code).kept = s.kept := by
  simp [encEvent]

@[simp] theorem keep_rsEvent (s : State) (p code : Nat) : (rsEvent s p code).kept = s.kept := by
  simp [rsEvent]

theorem keep_execEncoderZEdge (n : Fin 8) (s : State) : Keeps (execEncoderZEdge n s) s := by
  unfold execEncoderZEdge; split <;> simp

@[simp] theorem keep_encEdge (s : State) (n : Nat) (wire : Bool) : (encEdge s n wire).1.kept = s.kept := by
  unfold encEdge; repeat' (first | rfl | (simp; done) | split)

theorem keep_execSsiFrameComplete (n : Fin 8) (ready : Bool) (bits : List Bool) (monoflop : Bool) (s : State) : Keeps (execSsiFrameComplete n ready bits monoflop s) s := by
  unfold execSsiFrameComplete; split <;> simp

theorem keep_execRs422Sentence (port : Fin 4) (text : List Byte) (framingError : Bool) (dt : Nat) (s : State) : Keeps (execRs422Sentence port text framingError dt s) s := by
  unfold execRs422Sentence; repeat' (first | with_reducible rfl | (simp +zetaDelta; done) | split | extract_lets | (with_reducible apply foldl_kept; intro _ _) | simp +zetaDelta)

@[simp] theorem keep_rsTransmit (s : State) (p : Nat) (r : CfgRec) : (rsTransmit s p r).kept = s.kept := by
  unfold rsTransmit; repeat' (first | with_reducible rfl | (simp +zetaDelta; done) | split | extract_lets | (with_reducible apply foldl_kept; intro _ _) | simp +zetaDelta)

theorem keep_execRs422TxDone (port : Fin 4) (s : State) : Keeps (execRs422TxDone port s) s := by
  unfold execRs422TxDone; repeat' (first | with_reducible rfl | (simp +zetaDelta; done) | split | extract_lets | (with_reducible apply foldl_kept; intro _ _) | simp +zetaDelta)

@[simp] theorem keep_rsEdge (s : State) (p : Nat) (line : Bool) (m : Mem) : (rsEdge s p line m).1.kept = s.kept := by
  unfold rsEdge; split <;> simp

@[simp] theorem keep_scEdge (s : State) (m : Mem) : (scEdge s m).1.kept = s.kept := by
  unfold scEdge; repeat' (first | with_reducible rfl | (simp +zetaDelta; done) | split | extract_lets | (with_reducible apply foldl_kept; intro _ _) | simp +zetaDelta)

@[simp] theorem keep_mxEdge (s : State) (wire line : List Bool) (temp : Int) (m : Mem) : (mxEdge s wire line temp m).1.kept = s.kept := by
  simp [mxEdge]

@[simp] theorem keep_mxApply (old new : List CfgRec) (s : State) : (mxApply old new s).kept = s.kept := by
  simp [mxApply]

/-! SafetyKernel -/

@[simp] theorem keep_State_updPair (s : State) (p : Nat) (f : SkPair → SkPair) : (State.updPair s p f).kept = s.kept := by
  simp [State.updPair]

@[simp] theorem keep_State_updOut (s : State) (o : Nat) (f : SkOut → SkOut) : (State.updOut s o f).kept = s.kept := by
  simp [State.updOut]

@[simp] theorem keep_State_updConn (s : State) (c : Nat) (f : SkConn → SkConn) : (State.updConn s c f).kept = s.kept := by
  simp [State.updConn]

@[simp] theorem keep_skEvent (s : State) (src code obj : Nat) (pay : List Byte := []) (limited : Bool := true) : (skEvent s src code obj pay limited).kept = s.kept := by
  simp [skEvent]

@[simp] theorem keep_outputsOff (s : State) : (outputsOff s).kept = s.kept := by
  simp [outputsOff]

@[simp] theorem keep_enterSk (s : State) (ph : SkPhase) (pay : List Byte := []) : (enterSk s ph pay).kept = s.kept := by
  simp [enterSk]

@[simp] theorem keep_lockPairs (s : State) : (lockPairs s).kept = s.kept := by
  simp [lockPairs]

@[simp] theorem keep_startConns (s : State) : (startConns s).kept = s.kept := by
  simp [startConns]

@[simp] theorem keep_skDormant (s : State) : (skDormant s).kept = s.kept := by
  simp [skDormant]

@[simp] theorem keep_skWake (s : State) : (skWake s).kept = s.kept := by
  simp [skWake]

@[simp] theorem keep_proofEvent (s : State) (p code : Nat) (pay : List Byte := []) : (proofEvent s p code pay).kept = s.kept := by
  simp [proofEvent]

@[simp] theorem keep_armProof (s : State) (p : Nat) : (armProof s p).kept = s.kept := by
  simp [armProof]

@[simp] theorem keep_proofNotPassed (s : State) (p : Nat) : (proofNotPassed s p).kept = s.kept := by
  simp [proofNotPassed]

@[simp] theorem keep_proofPassed (s : State) (p : Nat) : (proofPassed s p).kept = s.kept := by
  simp [proofPassed]

theorem keep_execProofTestExpired (p : Fin 8) (s : State) : Keeps (execProofTestExpired p s) s := by
  unfold execProofTestExpired; split <;> simp

@[simp] theorem keep_proofDue (s : State) (p : Nat) : (proofDue s p).kept = s.kept := by
  unfold proofDue; split <;> simp

theorem keep_execProofIntervalReached (p : Fin 8) (s : State) : Keeps (execProofIntervalReached p s) s := by
  simp [execProofIntervalReached]

@[simp] theorem keep_ackOutputs (s : State) : (ackOutputs s).kept = s.kept := by
  simp [ackOutputs]

@[simp] theorem keep_takeLane (s : State) (rx : LaneRx) : (takeLane s rx).kept = s.kept := by
  simp [takeLane]

@[simp] theorem keep_substLane (s : State) : (substLane s).kept = s.kept := by
  simp [substLane]

theorem keep_execLaneWatchdogExpired (s : State) : Keeps (execLaneWatchdogExpired s) s := by
  simp [execLaneWatchdogExpired]

@[simp] theorem keep_laneValues (s : State) : (laneValues s).2.kept = s.kept := by
  unfold laneValues; repeat' (first | with_reducible rfl | (simp +zetaDelta; done) | split | extract_lets | (with_reducible apply foldl_kept; intro _ _) | simp +zetaDelta)

@[simp] theorem keep_produce (s : State) (r : CfgRec) (out : Bool × List Byte) : (produce s r out).kept = s.kept := by
  simp [produce]

@[simp] theorem keep_connFails (s : State) (n cause : Nat) : (connFails s n cause).kept = s.kept := by
  simp [connFails]

@[simp] theorem keep_connAccepts (s : State) (r : CfgRec) (pdu : List Byte) : (connAccepts s r pdu).kept = s.kept := by
  simp [connAccepts]

@[simp] theorem keep_consume (s : State) (r : CfgRec) (pdu : Option (List Byte)) : (consume s r pdu).kept = s.kept := by
  unfold consume; repeat' (first | with_reducible rfl | (simp +zetaDelta; done) | split | extract_lets | (with_reducible apply foldl_kept; intro _ _) | simp +zetaDelta)

@[simp] theorem keep_consumers (s : State) (pdus : Tab (List Byte)) : (consumers s pdus).kept = s.kept := by
  simp [consumers]

theorem keep_execConnTimeExpired (c : Fin 64) (s : State) : Keeps (execConnTimeExpired c s) s := by
  unfold execConnTimeExpired; split <;> simp

@[simp] theorem keep_publish (s : State) (dt : Nat) : (publish s dt).kept = s.kept := by
  simp [publish]

@[simp] theorem keep_clearLatch (s : State) (o : Nat) : (clearLatch s o).kept = s.kept := by
  simp [clearLatch]

theorem keep_execSkCycleStart (s : State) : Keeps (execSkCycleStart s) s := by
  simp [execSkCycleStart]

@[simp] theorem keep_commandOut (s : State) (cmds : List Bool) (us o : Nat) : (commandOut s cmds us o).kept = s.kept := by
  simp [commandOut]

@[simp] theorem keep_takeResults (s : State) (r : SkResult) (us : Nat) : (takeResults s r us).kept = s.kept := by
  simp [takeResults]

/-! Islands -/

@[simp] theorem keep_timerEdge (s : State) (i : Nat) : (timerEdge s i).kept = s.kept := by
  simp [timerEdge]

@[simp] theorem keep_sendFrame (s : State) (i : Nat) (data : Mem) (pdus : Tab (List Byte)) : (sendFrame s i data pdus).kept = s.kept := by
  simp [sendFrame]

@[simp] theorem keep_frontEnd (s : State) (i : Nat) (x : FieldSample) (m : Mem) : (frontEnd s i x m).1.kept = s.kept := by
  unfold frontEnd; repeat' (first | with_reducible rfl | (simp +zetaDelta; done) | split | extract_lets | (with_reducible apply foldl_kept; intro _ _) | simp +zetaDelta)

theorem keep_execIslandEdge (i : Isl) (sample : FieldSample) (s : State) : Keeps (execIslandEdge i sample s) s := by
  simp [execIslandEdge]

theorem keep_execIslandWatchdogExpired (i : Isl) (s : State) : Keeps (execIslandWatchdogExpired i s) s := by
  simp [execIslandWatchdogExpired]

theorem keep_execEdgeMarker (i : Isl) (l : LaneId) (correctionNs : Nat) (s : State) : Keeps (execEdgeMarker i l correctionNs s) s := by
  simp [execEdgeMarker]

@[simp] theorem keep_frameToken (s : State) (l : LaneId) (i : Nat) (f : IslFrame) : (frameToken s l i f).kept = s.kept := by
  unfold frameToken; repeat' (first | with_reducible rfl | (simp +zetaDelta; done) | split | extract_lets | (with_reducible apply foldl_kept; intro _ _) | simp +zetaDelta)

theorem keep_execIslandInputFrame (i : Isl) (l : LaneId) (crcOk : Bool) (s : State) : Keeps (execIslandInputFrame i l crcOk s) s := by
  unfold execIslandInputFrame; split <;> simp

@[simp] theorem keep_acceptUpdate (s : State) (i : Nat) (l : LaneId) : (acceptUpdate s i l).kept = s.kept := by
  unfold acceptUpdate; repeat' (first | with_reducible rfl | (simp +zetaDelta; done) | split | extract_lets | (with_reducible apply foldl_kept; intro _ _) | simp +zetaDelta)

theorem keep_execIslandOutputFrame (i : Isl) (l : LaneId) (crcOk late : Bool) (s : State) : Keeps (execIslandOutputFrame i l crcOk late s) s := by
  unfold execIslandOutputFrame; repeat' (first | rfl | (simp; done) | split)

theorem keep_execFieldSupplyLow (f : FieldSupply) (s : State) : Keeps (execFieldSupplyLow f s) s := by
  unfold execFieldSupplyLow; split <;> simp

theorem keep_execFieldSupplyRestored (f : FieldSupply) (s : State) : Keeps (execFieldSupplyRestored f s) s := by
  unfold execFieldSupplyRestored; split <;> simp

/-! Startup -/

@[simp] theorem keep_powerIslands (s : State) : (powerIslands s).kept = s.kept := by
  unfold powerIslands; repeat' (first | with_reducible rfl | (simp +zetaDelta; done) | split | extract_lets | (with_reducible apply foldl_kept; intro _ _) | simp +zetaDelta)

@[simp] theorem keep_panelPowerUp (s : State) (map : Option (List (Nat × Fin 4))) : (panelPowerUp s map).kept = s.kept := by
  simp [panelPowerUp]

theorem keep_execWindowUp (l : LaneId) (fw : Nat) (s : State) : Keeps (execWindowUp l fw s) s := by
  simp [execWindowUp]

@[simp] theorem keep_stepFails (s : State) (l : LaneId) (step code : Nat) : (stepFails s l step code).kept = s.kept := by
  simp [stepFails]

theorem keep_execClockQualification (l : LaneId) (tcxo rc : Nat) (s : State) : Keeps (execClockQualification l tcxo rc s) s := by
  simp [execClockQualification]

theorem keep_execRolesStep (l : LaneId) (s : State) : Keeps (execRolesStep l s) s := by
  unfold execRolesStep; repeat' (first | with_reducible rfl | (simp +zetaDelta; done) | split | extract_lets | (with_reducible apply foldl_kept; intro _ _) | simp +zetaDelta)

theorem keep_execRoleWaitTimeout (s : State) : Keeps (execRoleWaitTimeout s) s := by
  simp [execRoleWaitTimeout]

theorem keep_execStartupComplete (l : LaneId) (s : State) : Keeps (execStartupComplete l s) s := by
  unfold execStartupComplete; repeat' (first | with_reducible rfl | (simp +zetaDelta; done) | split | extract_lets | (with_reducible apply foldl_kept; intro _ _) | simp +zetaDelta)

theorem keep_execStartupStepFail (l : LaneId) (step code : Nat) (s : State) : Keeps (execStartupStepFail l step code s) s := by
  simp [execStartupStepFail]

/-! Power -/

theorem keep_execPowerDwellExpired (s : State) : Keeps (execPowerDwellExpired s) s := by
  unfold execPowerDwellExpired; repeat' (first | with_reducible rfl | (simp +zetaDelta ; done) | split | extract_lets | (with_reducible apply foldl_kept; intro _ _) | simp +zetaDelta )

@[simp] theorem keep_clkSelect (s : State) (outB : Bool) (d : Nat) : (clkSelect s outB d).kept = s.kept := by
  simp [clkSelect]

@[simp] theorem keep_clkClear (s : State) (d : Nat) : (clkClear s d).kept = s.kept := by
  simp [clkClear]

theorem keep_execClkoutSelWrite (_p : Part) (outB : Bool) (data : Word) (s : State) : Keeps (execClkoutSelWrite _p outB data s) s := by
  simp [execClkoutSelWrite]

theorem keep_execClkoutStatusClear (_p : Part) (data : Word) (s : State) : Keeps (execClkoutStatusClear _p data s) s := by
  simp [execClkoutStatusClear]

/-! Wide -/

@[simp] theorem keep_writeWideSel (s : State) (p : Nat) (via : LaneId) (d : Word) (dt : Nat) : (writeWideSel s p via d dt).kept = s.kept := by
  simp [writeWideSel]

theorem keep_execWideSelWrite (p : Part) (data : Word) (via : Arrival) (s : State) : Keeps (execWideSelWrite p data via s) s := by
  simp [execWideSelWrite]

theorem keep_execWideCaptureDone (p : Part) (s : State) : Keeps (execWideCaptureDone p s) s := by
  unfold execWideCaptureDone; repeat' (first | with_reducible rfl | (simp +zetaDelta; done) | split | extract_lets | (with_reducible apply foldl_kept; intro _ _) | simp +zetaDelta)

/-! Window -/

@[simp] theorem keep_winAttach (s : State) (p : Nat) (bus : Bus) (lane : LaneId) (d : Nat) : (winAttach s p bus lane d).kept = s.kept := by
  unfold winAttach; repeat' (first | with_reducible rfl | (simp +zetaDelta; done) | split | extract_lets | (with_reducible apply foldl_kept; intro _ _) | simp +zetaDelta)

@[simp] theorem keep_writeEvStatus (s : State) (p : Nat) (d : Nat) : (writeEvStatus s p d).kept = s.kept := by
  simp [writeEvStatus]

@[simp] theorem keep_writeEvIndex (s : State) (p : Nat) (d : Nat) : (writeEvIndex s p d).kept = s.kept := by
  simp [writeEvIndex]

@[simp] theorem keep_writeLatTol (s : State) (p : Nat) (d : Word) : (writeLatTol s p d).kept = s.kept := by
  simp [writeLatTol]

@[simp] theorem keep_doorbell (s : State) (p : Nat) (d : Nat) : (doorbell s p d).kept = s.kept := by
  unfold doorbell; repeat' (first | with_reducible rfl | (simp +zetaDelta; done) | split | extract_lets | (with_reducible apply foldl_kept; intro _ _) | simp +zetaDelta)

@[simp] theorem keep_writeSlowAddr (s : State) (p : Nat) (d : Nat) : (writeSlowAddr s p d).kept = s.kept := by
  simp [writeSlowAddr]

@[simp] theorem keep_writeSlowData (s : State) (p : Nat) (d : Word) : (writeSlowData s p d).kept = s.kept := by
  simp [writeSlowData]

@[simp] theorem keep_writeArea (s : State) (p : Nat) (o lane size d : Nat) : (writeArea s p o lane size d).kept = s.kept := by
  simp [writeArea]

@[simp] theorem keep_readEffect (s : State) (p : Nat) (addr : Nat) : (readEffect s p addr).kept = s.kept := by
  simp [readEffect]

@[simp] theorem keep_narrowRead (s : State) (p : Nat) (bus : Bus) (lane : LaneId) (addr size : Nat) (skReady : Bool) : (narrowRead s p bus lane addr size skReady).2.kept = s.kept := by
  simp [narrowRead]

@[simp] theorem keep_hostRead (s : State) (p : Nat) (bus : Bus) (lane : LaneId) (addr size : Nat) (skReady : Bool) : (hostRead s p bus lane addr size skReady).2.kept = s.kept := by
  unfold hostRead; repeat' (first | with_reducible rfl | (simp +zetaDelta ; done) | split | extract_lets | (with_reducible apply foldl_kept; intro _ _) | simp +zetaDelta )

theorem keep_execEvStatusClear (p : Part) (data : Word) (s : State) : Keeps (execEvStatusClear p data s) s := by
  simp [execEvStatusClear]

theorem keep_execEvIndexWrite (p : Part) (data : Word) (s : State) : Keeps (execEvIndexWrite p data s) s := by
  simp [execEvIndexWrite]

theorem keep_execLatTolWrite (p : Part) (data : Word) (s : State) : Keeps (execLatTolWrite p data s) s := by
  simp [execLatTolWrite]

theorem keep_execMbDoorbell (p : Part) (data : Word) (s : State) : Keeps (execMbDoorbell p data s) s := by
  simp [execMbDoorbell]

theorem keep_execWideD3Read (p : Part) (s : State) : Keeps (execWideD3Read p s) s := by
  simp [execWideD3Read]

theorem keep_execSlowReadStart (p : Part) (data : Word) (s : State) : Keeps (execSlowReadStart p data s) s := by
  simp [execSlowReadStart]

theorem keep_execSlowWritePost (p : Part) (data : Word) (s : State) : Keeps (execSlowWritePost p data s) s := by
  simp [execSlowWritePost]

/-! Rtc -/

@[simp] theorem keep_State_updRtc (s : State) (f : Rtc → Rtc) : (State.updRtc s f).kept = s.kept := by
  simp [State.updRtc]

@[simp] theorem keep_State_updRtcPort (s : State) (p : Nat) (f : RtcPort → RtcPort) : (State.updRtcPort s p f).kept = s.kept := by
  simp [State.updRtcPort]

@[simp] theorem keep_rtcEvent (s : State) (src code : Nat) (pay : List Byte) (never : Bool) : (rtcEvent s src code pay never).kept = s.kept := by
  simp [rtcEvent]

@[simp] theorem keep_rtcRead (s : State) (p : Nat) (sub : Bool) (cycles phase : Nat) : (rtcRead s p sub cycles phase).2.kept = s.kept := by
  simp [rtcRead]

@[simp] theorem keep_rtcReadDate (s : State) (p : Nat) : (rtcReadDate s p).2.kept = s.kept := by
  unfold rtcReadDate; repeat' (first | with_reducible rfl | (simp +zetaDelta; done) | split | extract_lets | (with_reducible apply foldl_kept; intro _ _) | simp +zetaDelta)

@[simp] theorem keep_slowResult (p : Nat) (x : Nat × State) : (slowResult p x).kept = x.2.kept := rfl

@[simp] theorem keep_slowReadWhole (s : State) (p a : Nat) (f : State → Nat × State) (hf : ∀ s, (f s).2.kept = s.kept) : (slowReadWhole s p a f).kept = s.kept := by
  simp [slowReadWhole, hf]

theorem keep_execRtcTimeRead (p : Part) (sub : Bool) (cycles phase : Nat) (s : State) : Keeps (execRtcTimeRead p sub cycles phase s) s := by
  simp [execRtcTimeRead]

theorem keep_execRtcDateRead (p : Part) (s : State) : Keeps (execRtcDateRead p s) s := by
  simp [execRtcDateRead]

@[simp] theorem keep_rtcClear (s : State) (p d : Nat) : (rtcClear s p d).kept = s.kept := by
  simp [rtcClear]

theorem keep_execRtcStatusClear (p : Part) (data : Word) (s : State) : Keeps (execRtcStatusClear p data s) s := by
  simp [execRtcStatusClear]

@[simp] theorem keep_rtcShared (s : State) (p : Nat) (k : State) (h : k.kept = s.kept) : (rtcShared s p k).kept = s.kept := by
  unfold rtcShared; split
  · exact h
  · simp

@[simp] theorem keep_rtcCommit (s : State) (p d : Nat) : (rtcCommit s p d).kept = s.kept := by
  simp [rtcCommit]

theorem keep_execRtcCommit (p : Part) (data : Word) (s : State) : Keeps (execRtcCommit p data s) s := by
  simp [execRtcCommit]

@[simp] theorem keep_rtcAlarm (s : State) (p : Nat) (alarm2 date : Bool) (d : Nat) : (rtcAlarm s p alarm2 date d).kept = s.kept := by
  simp [rtcAlarm]

theorem keep_execRtcAlarmWrite (p : Part) (alarm2 date : Bool) (data : Word) (s : State) : Keeps (execRtcAlarmWrite p alarm2 date data s) s := by
  simp [execRtcAlarmWrite]

@[simp] theorem keep_rtcTrim (s : State) (p d : Nat) : (rtcTrim s p d).kept = s.kept := by
  simp [rtcTrim]

theorem keep_execRtcTrimWrite (p : Part) (data : Word) (s : State) : Keeps (execRtcTrimWrite p data s) s := by
  simp [execRtcTrimWrite]

@[simp] theorem keep_rtcPowerLost (s : State) : (rtcPowerLost s).kept = s.kept := by
  simp [rtcPowerLost]

@[simp] theorem keep_rtcSlowRead (s : State) (p a cycles phase : Nat) : (rtcSlowRead s p a cycles phase).2.kept = s.kept := by
  unfold rtcSlowRead; split <;> simp

@[simp] theorem keep_rtcSlowWrite (s : State) (p a d : Nat) : (rtcSlowWrite s p a d).kept = s.kept := by
  unfold rtcSlowWrite; split <;> simp

/-! Panel -/

@[simp] theorem keep_State_updPnl (s : State) (f : Panel → Panel) : (State.updPnl s f).kept = s.kept := by
  simp [State.updPnl]

@[simp] theorem keep_State_updPnlPort (s : State) (p : Nat) (f : PnlPort → PnlPort) : (State.updPnlPort s p f).kept = s.kept := by
  simp [State.updPnlPort]

@[simp] theorem keep_pnlEvent (s : State) (code data : Nat) : (pnlEvent s code data).kept = s.kept := by
  simp [pnlEvent]

@[simp] theorem keep_pnlOpen (s : State) (code : Nat) : (pnlOpen s code).kept = s.kept := by
  simp [pnlOpen]

@[simp] theorem keep_endPass (s : State) : (endPass s).kept = s.kept := by
  unfold endPass; repeat' (first | with_reducible rfl | (simp +zetaDelta; done) | split | extract_lets | (with_reducible apply foldl_kept; intro _ _) | simp +zetaDelta)

theorem keep_execPanelPassDone (s : State) : Keeps (execPanelPassDone s) s := by
  simp [execPanelPassDone]

theorem keep_execPanelFrame (temp : Int) (station : List (Fin 240 × List Word)) (s : State) : Keeps (execPanelFrame temp station s) s := by
  simp [execPanelFrame]

theorem keep_execPanelIdle (s : State) : Keeps (execPanelIdle s) s := by
  simp [execPanelIdle]

@[simp] theorem keep_pnlReject (s : State) (p : Nat) : (pnlReject s p).kept = s.kept := by
  simp [pnlReject]

@[simp] theorem keep_pnlShow (s : State) (p d : Nat) : (pnlShow s p d).kept = s.kept := by
  simp [pnlShow]

theorem keep_execPnlShowWrite (p : Part) (data : Word) (s : State) : Keeps (execPnlShowWrite p data s) s := by
  simp [execPnlShowWrite]

@[simp] theorem keep_pnlLine (s : State) (p d : Nat) : (pnlLine s p d).kept = s.kept := by
  simp [pnlLine]

theorem keep_execPnlLineWrite (p : Part) (data : Word) (s : State) : Keeps (execPnlLineWrite p data s) s := by
  simp [execPnlLineWrite]

@[simp] theorem keep_pnlData (s : State) (p d : Nat) : (pnlData s p d).kept = s.kept := by
  simp [pnlData]

theorem keep_execPnlDataWrite (p : Part) (data : Word) (s : State) : Keeps (execPnlDataWrite p data s) s := by
  simp [execPnlDataWrite]

@[simp] theorem keep_pnlCommitTo (s : State) (p d started : Nat) : (pnlCommitTo s p d started).kept = s.kept := by
  simp [pnlCommitTo]

theorem keep_execPnlCommit (p : Part) (data : Word) (started : Nat) (s : State) : Keeps (execPnlCommit p data started s) s := by
  simp [execPnlCommit]

@[simp] theorem keep_pnlClear (s : State) (p d : Nat) : (pnlClear s p d).kept = s.kept := by
  simp [pnlClear]

theorem keep_execPnlStatusClear (p : Part) (data : Word) (s : State) : Keeps (execPnlStatusClear p data s) s := by
  simp [execPnlStatusClear]

@[simp] theorem keep_pnlSlowWrite (s : State) (p a d started : Nat) : (pnlSlowWrite s p a d started).kept = s.kept := by
  unfold pnlSlowWrite; split <;> simp

@[simp] theorem keep_panelBlank (s : State) : (panelBlank s).kept = s.kept := by
  simp [panelBlank]

@[simp] theorem keep_panelRedraw (s : State) : (panelRedraw s).kept = s.kept := by
  simp [panelRedraw]

@[simp] theorem keep_panelApply (old new : List CfgRec) (s : State) : (panelApply old new s).kept = s.kept := by
  simp [panelApply]

/-! Supplies -/

@[simp] theorem keep_State_updSup (s : State) (f : Supply → Supply) : (State.updSup s f).kept = s.kept := by
  simp [State.updSup]

@[simp] theorem keep_State_updCart (s : State) (f : Cart → Cart) : (State.updCart s f).kept = s.kept := by
  simp [State.updCart]

@[simp] theorem keep_setFeed (s : State) (l : LaneId) (on : Bool) (mv : Nat) : (setFeed s l on mv).kept = s.kept := by
  simp [setFeed]

@[simp] theorem keep_supEvent (s : State) (src code : Nat) (pay : List Byte := []) : (supEvent s src code pay).kept = s.kept := by
  simp [supEvent]

@[simp] theorem keep_cartFlag (s : State) (k : Nat) : (cartFlag s k).kept = s.kept := by
  unfold cartFlag; repeat' (first | with_reducible rfl | (simp +zetaDelta; done) | split | extract_lets | (with_reducible apply foldl_kept; intro _ _) | simp +zetaDelta)

@[simp] theorem keep_bankVolts (s : State) (mv : Nat) : (bankVolts s mv).kept = s.kept := by
  simp [bankVolts]

@[simp] theorem keep_abandonMeasure (s : State) : (abandonMeasure s).kept = s.kept := by
  simp [abandonMeasure]

@[simp] theorem keep_tearWrite (s : State) : (tearWrite s).kept = s.kept := by
  simp [tearWrite]

@[simp] theorem keep_unpowerLane (s : State) (l : LaneId) : (unpowerLane s l).kept = s.kept := by
  simp [unpowerLane]

@[simp] theorem keep_endHoldup (s : State) : (endHoldup s).kept = s.kept := by
  simp [endHoldup]

@[simp] theorem keep_pfFinish (s : State) : (pfFinish s).kept = s.kept := by
  simp [pfFinish]

@[simp] theorem keep_pfStop (s : State) (cause arg : Nat) : (pfStop s cause arg).kept = s.kept := by
  simp [pfStop]

@[simp] theorem keep_pfBank (s : State) (l : LaneId) : (pfBank s l).kept = s.kept := by
  simp [pfBank]

theorem keep_execBankWriteDone (s : State) : Keeps (execBankWriteDone s) s := by
  simp [execBankWriteDone]

theorem keep_execLaneFeedLost (l : LaneId) (feedMv : Nat) (s : State) : Keeps (execLaneFeedLost l feedMv s) s := by
  simp [execLaneFeedLost]

@[simp] theorem keep_tryMeasure (s : State) : (tryMeasure s).kept = s.kept := by
  simp [tryMeasure]

theorem keep_execLaneFeedRestored (l : LaneId) (feedMv : Nat) (s : State) : Keeps (execLaneFeedRestored l feedMv s) s := by
  simp [execLaneFeedRestored]

@[simp] theorem keep_dropUncarried (s : State) (l : LaneId) : (dropUncarried s l).kept = s.kept := by
  simp [dropUncarried]

theorem keep_execRideThroughEnd (s : State) : Keeps (execRideThroughEnd s) s := by
  simp [execRideThroughEnd]

theorem keep_execSafeShutdown (p : Part) (s : State) : Keeps (execSafeShutdown p s) s := by
  simp [execSafeShutdown]

theorem keep_execCartInserted (id : CartId) (bankMv : Nat) (s : State) : Keeps (execCartInserted id bankMv s) s := by
  simp [execCartInserted]

theorem keep_execBayEmptyRepeat (s : State) : Keeps (execBayEmptyRepeat s) s := by
  simp [execBayEmptyRepeat]

@[simp] theorem keep_cartCtrl (s : State) (p d : Nat) : (cartCtrl s p d).kept = s.kept := by
  simp [cartCtrl]

theorem keep_execCartMeasNow (p : Part) (data : Word) (s : State) : Keeps (execCartMeasNow p data s) s := by
  simp [execCartMeasNow]

theorem keep_execCartMeasDue (bankMv : Nat) (s : State) : Keeps (execCartMeasDue bankMv s) s := by
  simp [execCartMeasDue]

theorem keep_execCartMeasDone (stepMv dischargeMs : Nat) (s : State) : Keeps (execCartMeasDone stepMv dischargeMs s) s := by
  unfold execCartMeasDone; repeat' (first | with_reducible rfl | (simp +zetaDelta ; done) | split | extract_lets | (with_reducible apply foldl_kept; intro _ _) | simp +zetaDelta )

theorem keep_execCartHour (tempC : Int) (s : State) : Keeps (execCartHour tempC s) s := by
  simp [execCartHour]

@[simp] theorem keep_cartClear (s : State) (p d : Nat) : (cartClear s p d).kept = s.kept := by
  simp [cartClear]

theorem keep_execCartStatusClear (p : Part) (data : Word) (s : State) : Keeps (execCartStatusClear p data s) s := by
  simp [execCartStatusClear]

@[simp] theorem keep_slowRead (s : State) (p a : Nat) (x : SlowSample) : (slowRead s p a x).2.kept = s.kept := by
  unfold slowRead; repeat' (first | rfl | (simp; done) | split)

@[simp] theorem keep_slowWrite (s : State) (p a d started : Nat) : (slowWrite s p a d started).kept = s.kept := by
  simp [slowWrite]

@[simp] theorem keep_slowServe (s : State) (p : Nat) (x : SlowSample) : (slowServe s p x).kept = s.kept := by
  unfold slowServe; repeat' (first | with_reducible rfl | (simp +zetaDelta ; done) | split | extract_lets | (with_reducible apply foldl_kept; intro _ _) | simp +zetaDelta )

@[simp] theorem keep_slowCycle (xs : List (Nat × SlowSample)) (s : State) : (slowCycle xs s).kept = s.kept := by
  simp [slowCycle]

theorem keep_execSlowAccessDone (p : Part) (x : SlowSample) (cycle : List (Part × SlowSample)) (s : State) : Keeps (execSlowAccessDone p x cycle s) s := by
  unfold execSlowAccessDone; repeat' (first | with_reducible rfl | (simp +zetaDelta; done) | split | extract_lets | (with_reducible apply foldl_kept; intro _ _) | simp +zetaDelta)

/-! Status -/

@[simp] theorem keep_keepStatus (s : State) (l : LaneId) : (keepStatus s l).kept = s.kept := by
  simp [keepStatus]

/-! Tick -/

@[simp] theorem keep_startEdge (s : State) : (startEdge s).kept = s.kept := by
  simp [startEdge]

@[simp] theorem keep_answerStops (s : State) : (answerStops s).kept = s.kept := by
  simp [answerStops]

@[simp] theorem keep_stationEdge (s : State) : (stationEdge s).kept = s.kept := by
  simp [stationEdge]

@[simp] theorem keep_forgetSeen (s : State) (l : LaneId) : (forgetSeen s l).kept = s.kept := by
  simp [forgetSeen]

@[simp] theorem keep_endsEdge (s : State) : (endsEdge s).kept = s.kept := by
  unfold endsEdge; repeat' (first | with_reducible rfl | (simp +zetaDelta; done) | split | extract_lets | (with_reducible apply foldl_kept; intro _ _) | simp +zetaDelta)

@[simp] theorem keep_partsEdge (s : State) : (partsEdge s).kept = s.kept := by
  simp [partsEdge]

@[simp] theorem keep_writeSys (s : State) (l : LaneId) : (writeSys s l).kept = s.kept := by
  simp [writeSys]

@[simp] theorem keep_openWindow (s : State) (l : LaneId) : (openWindow s l).kept = s.kept := by
  simp [openWindow]

theorem keep_execInputSwap (l : LaneId) (s : State) : Keeps (execInputSwap l s) s := by
  unfold execInputSwap; simp only []; repeat' (first | with_reducible rfl | (simp +zetaDelta ; done) | split | extract_lets | (with_reducible apply foldl_kept; intro _ _) | simp +zetaDelta )

theorem keep_execMx1Swap (l : LaneId) (s : State) : Keeps (execMx1Swap l s) s := by
  simp [execMx1Swap]

@[simp] theorem keep_substSinks (s : State) (l : LaneId) : (substSinks s l).kept = s.kept := by
  unfold substSinks; repeat' (first | with_reducible rfl | (simp +zetaDelta; done) | split | extract_lets | (with_reducible apply foldl_kept; intro _ _) | simp +zetaDelta)

@[simp] theorem keep_substAll (s : State) (l : LaneId) : (substAll s l).kept = s.kept := by
  simp [substAll]

@[simp] theorem keep_closeSnapshot (s : State) (l : LaneId) : (closeSnapshot s l).kept = s.kept := by
  simp [closeSnapshot]

@[simp] theorem keep_setRetained (s : State) (img : List Byte) (bank : Option (List Byte)) : (setRetained s img bank).kept = s.kept := by
  simp [setRetained]

@[simp] theorem keep_startRetained (s : State) (img : List Byte) : (startRetained s img).kept = s.kept := by
  unfold startRetained; repeat' (first | rfl | (simp; done) | split)

@[simp] theorem keep_stopBank (s : State) (l : LaneId) : (stopBank s l).kept = s.kept := by
  simp [stopBank]

@[simp] theorem keep_restoreAtStart (s : State) (l : LaneId) : (restoreAtStart s l).kept = s.kept := by
  simp [restoreAtStart]

theorem keep_execOutputCutoff (l : LaneId) (leLate : Option (Fin 128)) (s : State) : Keeps (execOutputCutoff l leLate s) s := by
  simp [execOutputCutoff]

/-! ConfigCommit -/

@[simp] theorem keep_eachTracking (f : State → LaneId → State) (s : State) (h : ∀ s l, (f s l).kept = s.kept) : (eachTracking f s).kept = s.kept := by
  unfold eachTracking; apply keep_bothLanes; intro s l; split <;> simp [h]

@[simp] theorem keep_outApply (old new : List CfgRec) (s : State) (l : LaneId) : (outApply old new s l).kept = s.kept := by
  simp [outApply]

@[simp] theorem keep_sinkApply (old : List CfgRec) (before : Mem) (s : State) (l : LaneId) : (sinkApply old before s l).kept = s.kept := by
  unfold sinkApply; repeat' (first | with_reducible rfl | (simp +zetaDelta; done) | split | extract_lets | (with_reducible apply foldl_kept; intro _ _) | simp +zetaDelta)

@[simp] theorem keep_laneConfig (old new : List CfgRec) (s : State) (l : LaneId) : (laneConfig old new s l).kept = s.kept := by
  simp [laneConfig]

@[simp] theorem keep_thlConfig (old : List CfgRec) (s : State) : (thlConfig old s).kept = s.kept := by
  simp [thlConfig]

@[simp] theorem keep_retick (before : Nat) (s : State) : (retick before s).kept = s.kept := by
  simp [retick]

@[simp] theorem keep_latchApply (s : State) : (latchApply s).kept = s.kept := by
  simp [latchApply]

@[simp] theorem keep_laneProgram (img : List Byte) (s : State) (l : LaneId) : (laneProgram img s l).kept = s.kept := by
  simp [laneProgram]

@[simp] theorem keep_setPassword (s : State) (part cflags : Nat) (r : CfgRec) : (setPassword s part cflags r).kept = s.kept := by
  simp [setPassword]

/-! Reint -/

@[simp] theorem keep_beginReint (s : State) (l : LaneId) : (beginReint s l).kept = s.kept := by
  simp [beginReint]

theorem keep_execReintStart (l : LaneId) (s : State) : Keeps (execReintStart l s) s := by
  simp [execReintStart]

@[simp] theorem keep_copyLane (s : State) (l : LaneId) : (copyLane s l).kept = s.kept := by
  simp [copyLane]

theorem keep_execReintCopyClosed (l : LaneId) (s : State) : Keeps (execReintCopyClosed l s) s := by
  simp [execReintCopyClosed]

theorem keep_execReintCopyTimeout (l : LaneId) (s : State) : Keeps (execReintCopyTimeout l s) s := by
  simp [execReintCopyTimeout]

theorem keep_execReintRetryDue (l : LaneId) (s : State) : Keeps (execReintRetryDue l s) s := by
  simp [execReintRetryDue]

theorem keep_execReintStandby (l : LaneId) (s : State) : Keeps (execReintStandby l s) s := by
  simp [execReintStandby]

/-! SafetyIo -/

@[simp] theorem keep_updIn (s : State) (i : Nat) (f : SkIn → SkIn) : (updIn s i f).kept = s.kept := by
  simp [updIn]

@[simp] theorem keep_updSrc (s : State) (t : Nat) (f : SkSrc → SkSrc) : (updSrc s t f).kept = s.kept := by
  simp [updSrc]

@[simp] theorem keep_setTestFail (s : State) (i : Nat) (v : Bool) : (setTestFail s i v).kept = s.kept := by
  simp [setTestFail]

@[simp] theorem keep_sampleInput (us : Nat) (mv : List Int) (s : State) (i : Nat) : (sampleInput us mv s i).kept = s.kept := by
  unfold sampleInput; repeat' (first | rfl | (simp; done) | split)

@[simp] theorem keep_pairFault (s : State) (p : Nat) (test : Bool) : (pairFault s p test).kept = s.kept := by
  simp [pairFault]

@[simp] theorem keep_setPair (s : State) (p : Nat) (ph : PairPhase) : (setPair s p ph).kept = s.kept := by
  simp [setPair]

@[simp] theorem keep_pairReleased (s : State) (p : Nat) : (pairReleased s p).kept = s.kept := by
  unfold pairReleased; repeat' (first | with_reducible rfl | (simp +zetaDelta ; done) | split | extract_lets | (with_reducible apply foldl_kept; intro _ _) | simp +zetaDelta )

@[simp] theorem keep_pairSample (s : State) (p : Nat) : (pairSample s p).kept = s.kept := by
  unfold pairSample; repeat' (first | with_reducible rfl | (simp +zetaDelta; done) | split | extract_lets | (with_reducible apply foldl_kept; intro _ _) | simp +zetaDelta)

theorem keep_execSafetyInputSample (us : Nat) (mv : List Int) (s : State) : Keeps (execSafetyInputSample us mv s) s := by
  simp [execSafetyInputSample]

theorem keep_execDiscTimerExpired (p : Fin 8) (s : State) : Keeps (execDiscTimerExpired p s) s := by
  simp [execDiscTimerExpired]

theorem keep_execTestSourcePulse (k : Fin 4) (high backfeed : Bool) (s : State) : Keeps (execTestSourcePulse k high backfeed s) s := by
  simp [execTestSourcePulse]

theorem keep_execTestSourceOverload (k : Fin 4) (s : State) : Keeps (execTestSourceOverload k s) s := by
  simp [execTestSourceOverload]

theorem keep_execTestSourceRetry (k : Fin 4) (s : State) : Keeps (execTestSourceRetry k s) s := by
  unfold execTestSourceRetry; split <;> simp

@[simp] theorem keep_outFault (s : State) (o code : Nat) : (outFault s o code).kept = s.kept := by
  simp [outFault]

theorem keep_execOffPulse (o : Fin 8) (_skY : Bool) (readbackMv : Int) (s : State) : Keeps (execOffPulse o _skY readbackMv s) s := by
  simp [execOffPulse]

theorem keep_execSafetyOutputReadback (o : Fin 8) (mv supplyMv : Int) (limit : Bool) (s : State) : Keeps (execSafetyOutputReadback o mv supplyMv limit s) s := by
  simp [execSafetyOutputReadback]

/-! Thl -/

@[simp] theorem keep_thlIn (s : State) (l : LaneId) (p : Nat) (rx : Rx) : (thlIn s l p rx).2.kept = s.kept := by
  unfold thlIn; simp only []; repeat' (first | with_reducible rfl | (simp +zetaDelta ; done) | split | extract_lets | (with_reducible apply foldl_kept; intro _ _) | simp +zetaDelta )

@[simp] theorem keep_thlOpen (s : State) (p : Nat) (lane : LaneId) (nonce : List Byte) (b : Option (List Byte)) : (thlOpen s p lane nonce b).kept = s.kept := by
  unfold thlOpen; repeat' (first | with_reducible rfl | (simp +zetaDelta ; done) | split | extract_lets | (with_reducible apply foldl_kept; intro _ _) | simp +zetaDelta )

theorem keep_execThlHello (p : Part) (rx : Rx) (lane : LaneId) (nonce : List Byte) (s : State) : Keeps (execThlHello p rx lane nonce s) s := by
  simp [execThlHello]

@[simp] theorem keep_setThl (s : State) (p : Nat) (f : ThlSess → ThlSess) : (setThl s p f).kept = s.kept := by
  simp [setThl]

@[simp] theorem keep_thlAct (s : State) (p seq : Nat) (bad : State → State) (f : State → ThlSess → State) (c : ThlCheck)
    (hb : ∀ s, (bad s).kept = s.kept) (hf : ∀ s t, (f s t).kept = s.kept) : (thlAct s p seq bad f c).kept = s.kept := by
  cases c <;> simp [thlAct, hb, hf]

@[simp] theorem keep_thlTake (s : State) (p : Nat) (rx : Rx) (sess seq : Nat) (k : ThlKind) (content tag : List Byte) (bad : State → State) (f : State → ThlSess → State) (hbad : ∀ s, (bad s).kept = s.kept) (hf : ∀ s y1, (f s y1).kept = s.kept) : (thlTake s p rx sess seq k content tag bad f).kept = s.kept := by
  simp [thlTake, hbad, hf]

theorem keep_execThlRegRead (p : Part) (rx : Rx) (sess seq addr : Nat) (tag : List Byte) (s : State) : Keeps (execThlRegRead p rx sess seq addr tag s) s := by
  unfold execThlRegRead; rw [keeps_next, keep_thlTake] <;> intros <;> simp

theorem keep_execThlStalled (p : Part) (urgent : Bool) (s : State) : Keeps (execThlStalled p urgent s) s := by
  unfold execThlStalled; repeat' (first | with_reducible rfl | (simp +zetaDelta; done) | split | extract_lets | (with_reducible apply foldl_kept; intro _ _) | simp +zetaDelta)

/-! Station -/

theorem keep_execStart (p : Part) (s : State) : Keeps (execStart p s) s := by
  unfold execStart
  refine keep_serve _ _ _ _ (fun ws => ?_)
  try refine keep_needLock _ _ _ _ ?_
  try refine keep_needOperator _ _ _ _ ?_
  simp only []
  repeat' (first | with_reducible rfl | (simp; done) | split)

theorem keep_execStop (p : Part) (s : State) : Keeps (execStop p s) s := by
  simp [execStop]

theorem keep_execStatusGet (p : Part) (s : State) : Keeps (execStatusGet p s) s := by
  simp [execStatusGet]

end Sys2Proof.Machine
end

