-- ==== Sys2Proof/Laws/Writers.lean ====
section
/-! SUPPORT. The operations that write the accepted images or the commit in progress: what each leaves of them. -/

namespace Sys2Proof.Machine

/-- AcceptedGood, said of the part of the state that it is about. -/
structure Kept.Good (k : Kept) : Prop where
  sk : ∀ img, k.image = some img → trailerOk img = true
  safety : ∀ img, k.safety = some img → trailerOk img = true
  prog : ∀ img, k.prog = some img → trailerOk img = true
  cfg : k.cfgImage = [] ∨ trailerOk k.cfgImage = true
  access : k.accessImage = [] ∨ trailerOk k.accessImage = true
  commit : ∀ c, k.commit = some c → c.target ≠ 3 → trailerOk c.image = true

theorem acceptedGood_iff (s : State) : AcceptedGood s ↔ s.kept.Good :=
  ⟨fun h => ⟨h.sk, h.safety, h.prog, h.cfg, h.access, h.commit⟩, fun h => ⟨h.sk, h.safety, h.prog, h.cfg, h.access, h.commit⟩⟩

/-- The queue is the same, and good images stay good. -/
def Mild (s t : State) : Prop := t.pending = s.pending ∧ (s.kept.Good → t.kept.Good)

theorem Mild.refl (s : State) : Mild s s := ⟨rfl, id⟩
theorem Mild.trans {s t u : State} (h : Mild s t) (g : Mild t u) : Mild s u := ⟨g.1.trans h.1, fun x => g.2 (h.2 x)⟩
theorem mild_of_kept {s t : State} (h : t.kept = s.kept) : Mild s t :=
  ⟨congrArg Kept.pending h, fun x => h ▸ x⟩
theorem kept_trans_mild {s t u : State} (h : t.kept = s.kept) (g : Mild t u) : Mild s u := (mild_of_kept h).trans g
theorem mild_trans_kept {s t u : State} (h : Mild s t) (g : u.kept = t.kept) : Mild s u := h.trans (mild_of_kept g)
theorem mild_ite {s t u : State} {c : Prop} [Decidable c] (h : Mild s t) (g : Mild s u) : Mild s (if c then t else u) := by
  split <;> assumption

theorem mild_of_eq {s t : State} {k : Kept} (h : t.kept = k) (hp : k.pending = s.pending) (g : s.kept.Good → k.Good) : Mild s t := by
  subst h; exact ⟨hp, g⟩

theorem mild_foldl {α} (f : State → α → State) (l : List α) (s : State) (h : ∀ s x, Mild s (f s x)) : Mild s (l.foldl f s) := by
  induction l generalizing s with
  | nil => exact Mild.refl s
  | cons a l ih => exact (h s a).trans (ih _)
theorem mild_bothLanes (f : State → LaneId → State) (s : State) (h : ∀ s l, Mild s (f s l)) : Mild s (bothLanes f s) :=
  (h s .a).trans (h _ .b)

theorem forgetImages_mild (s : State) : Mild s (forgetImages s) := by
  unfold forgetImages; extract_lets s1
  have h1 : s1.kept = s.kept := (keep_bothLanes _ _ fun s l => updLane_kept s l _).trans (keep_discardLoopStage s)
  clear_value s1
  refine kept_trans_mild h1 ?_
  refine ⟨rfl, fun h => ⟨h.sk, by simp [State.kept, State.updSt], by simp [State.kept, State.updSt], Or.inl rfl, Or.inl rfl,
    by simp [State.kept, State.updSt]⟩⟩

theorem grantReceived_mild (s : State) (l : LaneId) (g : Grant) (w : TokWhy) : Mild s (grantReceived s l g w) := by
  unfold grantReceived; extract_lets s1 s2 role s3
  have h2 : s2.kept = s.kept := by simp [s2, s1]
  have h3 : Mild s2 s3 := mild_ite (forgetImages_mild _) (Mild.refl _)
  cases w
  case startUp => exact kept_trans_mild h2 (mild_trans_kept h3 (by rw [keep_noteRole, updLane_kept]))
  case again => exact mild_of_kept ((updLane_kept ..).trans h2)
  all_goals exact mild_of_kept h2

theorem commitNone_mild (s : State) : Mild s (s.updSt fun t => { t with commit := none }) :=
  ⟨rfl, fun h => ⟨h.sk, h.safety, h.prog, h.cfg, h.access, by simp [State.kept, State.updSt]⟩⟩

theorem commitFail_mild (s : State) (c : Commit) (r : Reject) : Mild s (commitFail s c r) := by
  unfold commitFail; extract_lets asked s1
  have h1 : Mild s s1 := commitNone_mild s
  split
  · exact mild_trans_kept h1 (keep_answer _ _ _ _ _ _ _)
  · exact h1

theorem commitOk_mild (s : State) (c : Commit) (d0 tick : Nat) : Mild s (commitOk s c d0 tick) := by
  unfold commitOk; extract_lets asked s1 s2
  have h1 : Mild s s1 := ⟨rfl, fun h => ⟨h.sk, h.safety, h.prog, h.cfg, h.access, by simp [s1, State.kept, State.updSt]⟩⟩
  have h2 : Mild s s2 := mild_trans_kept h1 (keep_noteUnnamed _ _ _ _)
  split
  · exact mild_trans_kept h2 (keep_respond _ _ _ _ _ _ _ _)
  · exact h2

theorem loseCommands_mild (s : State) : Mild s (loseCommands s) := by
  unfold loseCommands; extract_lets s1
  have h1 : Mild s s1 := by
    refine ⟨rfl, fun h => ⟨h.sk, h.safety, h.prog, h.cfg, h.access, fun c hc => ?_⟩⟩
    simp only [s1, State.kept, State.updSt] at hc
    cases hs : s.st.commit with
    | none => simp [hs] at hc
    | some d =>
      simp only [hs, Option.bind_some] at hc
      split at hc
      · exact h.commit c (by simpa [State.kept, hs] using hc)
      · cases hc
  refine mild_trans_kept h1 (foldl_kept _ _ _ ?_)
  intro s p; extract_lets keep s2 stops
  have h2 : s2.kept = s.kept := by simp only [s2]; split <;> simp
  split <;> simp [h2]

/-! The end of an attachment drops a commit of the partition that is pending (R83) -/

theorem endMainDetached_mild (s : State) (p : Nat) : Mild s (endMainDetached s p) := by
  unfold endMainDetached; extract_lets m s1
  have h1 : Mild s s1 := by
    refine ⟨rfl, fun h => ⟨h.sk, h.safety, h.prog, h.cfg, h.access, fun c hc => h.commit c ?_⟩⟩
    exact (Option.eq_some_of_filter_eq_some hc)
  exact mild_trans_kept h1 (by rw [keep_dropHoldings]; split <;> simp)

theorem startDetach_mild (s : State) (p : Nat) : Mild s (startDetach s p) := by
  unfold startDetach; extract_lets s1 m
  exact kept_trans_mild (updPart_kept s p _) (mild_ite (Mild.refl _) (endMainDetached_mild _ _))

theorem finishDetach_mild (s : State) (p : Nat) : Mild s (finishDetach s p) := by
  unfold finishDetach; extract_lets s1 s2 s3
  exact mild_trans_kept (endMainDetached_mild s p) (by simp [s3, s2, s1])

theorem detachForbidden_mild (s : State) : Mild s (detachForbidden s) :=
  mild_foldl _ _ _ fun s p => mild_ite (kept_trans_mild (keep_tellUnnamed _ _ _) (startDetach_mild _ _)) (Mild.refl _)

theorem winDetach_mild (s : State) (p d : Nat) : Mild s (winDetach s p d) := by
  unfold winDetach; extract_lets q s1
  exact mild_ite (Mild.refl _) (kept_trans_mild (updPart_kept s p _) (mild_ite (Mild.refl _) (startDetach_mild _ _)))

theorem writeWinCtrl_mild (s : State) (p : Nat) (b : Bus) (l : LaneId) (d : Nat) : Mild s (writeWinCtrl s p b l d) := by
  unfold writeWinCtrl
  exact mild_ite (winDetach_mild _ _ _) (mild_ite (mild_of_kept (keep_winAttach ..)) (mild_ite (mild_of_kept (updPart_kept ..)) (Mild.refl _)))

theorem windowWrite_mild (s : State) (p : Nat) (via : LaneId) (addr size : Nat) (d : Word) (dt : Nat) :
    Mild s (windowWrite s p via addr size d dt) := by
  unfold windowWrite; extract_lets o q
  refine mild_ite (mild_ite (mild_of_kept (keep_writeArea ..)) (Mild.refl _)) (mild_ite (Mild.refl _) ?_)
  clear_value o
  split
  case h_1 => exact writeWinCtrl_mild ..
  all_goals exact mild_of_kept (by simp)

theorem hostWrite_mild (s : State) (p : Nat) (via : LaneId) (addr size : Nat) (d : DWord) (dt : Nat) :
    Mild s (hostWrite s p via addr size d dt) :=
  mild_ite ((windowWrite_mild ..).trans (windowWrite_mild ..)) (windowWrite_mild ..)

theorem goOn_mild (s : State) (p : Nat) (u : Bool) (x : Xfer) : Mild s (goOn s p u x) := by
  unfold goOn; extract_lets m
  refine mild_ite (endMainDetached_mild _ _) (mild_of_kept ?_)
  repeat' split
  all_goals simp

theorem takeIn_mild (s : State) (p : Nat) (u : Bool) (x : Xfer) (data : List Byte) : Mild s (takeIn s p u x data) := by
  unfold takeIn; extract_lets m d step
  split
  · split
    · exact mild_of_kept (by simp)
    · refine mild_ite (mild_of_kept (by simp)) ?_
      exact kept_trans_mild (by simp) (goOn_mild _ _ _ _)
  · exact kept_trans_mild (updMb_kept _ _ _ _) (goOn_mild _ _ _ _)

theorem resumeHeld_mild (s : State) (p : Nat) : Mild s (resumeHeld s p) := by
  unfold resumeHeld; extract_lets m
  split
  · exact mild_ite (kept_trans_mild (updMb_kept _ _ _ _) (goOn_mild _ _ _ _)) (Mild.refl _)
  · exact Mild.refl _

theorem thlTake_mild (s : State) (p : Nat) (rx : Rx) (sess seq : Nat) (k : ThlKind) (content tag : List Byte) (bad : State → State)
    (f : State → ThlSess → State) (hb : ∀ s, Mild s (bad s)) (hf : ∀ s t, Mild s (f s t)) :
    Mild s (thlTake s p rx sess seq k content tag bad f) := by
  unfold thlTake thlAct; extract_lets r drop
  have hr : r.2.kept = s.kept := by simp [r]
  split
  · exact mild_of_kept hr
  · refine kept_trans_mild hr ?_
    split
    · exact Mild.refl _
    · exact kept_trans_mild (by simp [drop]) (hb _)
    · exact mild_of_kept (by simp [drop])
    · exact kept_trans_mild (by simp) (hf _ _)

theorem updSk_mild (s : State) (f : Sk → Sk) (h : (f s.sk).image = s.sk.image ∨ (f s.sk).image = none) : Mild s (s.updSk f) := by
  refine ⟨rfl, fun g => ⟨fun img hi => ?_, g.safety, g.prog, g.cfg, g.access, g.commit⟩⟩
  have hi' : (f s.sk).image = some img := hi
  rcases h with h | h
  · exact g.sk img (h.symm.trans hi')
  · rw [h] at hi'; cases hi'

theorem safeStop_mild (s : State) (code : Nat) : Mild s (safeStop s code) := by
  unfold safeStop; extract_lets verifying s1
  have h1 : s1.kept = s.kept := by simp [s1]
  split
  · split
    · split
      · exact kept_trans_mild h1 (kept_trans_mild (takeFree_kept s1) (commitFail_mild _ _ _))
      · exact mild_of_kept h1
    · exact mild_of_kept h1
  · exact mild_of_kept h1

theorem enterRun_kept (s : State) (img : List Byte) : (enterRun s img).kept = { s.kept with image := some img } := by
  unfold enterRun; extract_lets s1 s2 s3
  have h2 : s2.kept = s1.kept := by simp [s2]
  have h3 : s3.kept = s1.kept := by simp only [s3]; split <;> simp [h2]
  rw [keep_enterSk, h3]; rfl

theorem verifyFails_mild (s : State) (r : Reject) : Mild s (verifyFails s r) := by
  unfold verifyFails; extract_lets back s1 s2
  have h1 : Mild s s1 := updSk_mild _ _ (by dsimp only; split <;> simp)
  have h2 : Mild s s2 := mild_trans_kept h1 (by
    simp only [s2]; split
    · rw [keep_enterSk, keep_startConns, keep_lockPairs]
    · rw [keep_enterSk])
  clear_value s2
  split
  · exact mild_ite (h2.trans (commitFail_mild _ _ _)) h2
  · refine mild_ite h2 (h2.trans ?_)
    exact ⟨rfl, fun g => ⟨g.sk, by simp [State.kept, State.updSt], g.prog, g.cfg, g.access, g.commit⟩⟩

theorem verifyPasses_mild (s : State) (img digest : List Byte) (d0 : Nat) (hi : trailerOk img = true) :
    Mild s (verifyPasses s img digest d0) := by
  unfold verifyPasses; extract_lets s1 s2 s3
  have h1 : s1.kept = { s.kept with image := some img } := by simp only [s1, enterRun_kept]; simp
  have g1 : Mild s s1 := by
    refine ⟨by have := congrArg Kept.pending h1; exact this, fun g => ?_⟩
    rw [h1]; exact ⟨fun i h => by cases h; exact hi, g.safety, g.prog, g.cfg, g.access, g.commit⟩
  clear_value s1
  have g2 : Mild s1 s2 := ⟨rfl, fun g => ⟨g.sk, fun i h => by cases h; exact hi, g.prog, g.cfg, g.access, g.commit⟩⟩
  have h3 : s3.kept = s2.kept := by simp only [s3]; split <;> simp
  split
  · split
    · exact g1.trans (g2.trans (kept_trans_mild h3 (commitOk_mild _ _ _ _)))
    · exact g1
  · exact g1

theorem sealCheck_mild (s : State) (img : List Byte) (hi : trailerOk img = true) : Mild s (sealCheck s img) := by
  unfold sealCheck; extract_lets d
  split
  · exact verifyPasses_mild _ _ _ _ hi
  · split
    · split
      · exact verifyFails_mild _ _
      · split
        · exact verifyFails_mild _ _
        · exact kept_trans_mild (keep_writeSeal _ _ _ _ _ _) (verifyPasses_mild _ _ _ _ hi)
    · exact verifyFails_mild _ _

theorem confirmCommit_mild (s : State) (c : Commit) (h : s.st.commit = some c) : Mild s (confirmCommit s c) := by
  refine ⟨rfl, fun g => ⟨g.sk, g.safety, g.prog, g.cfg, g.access, fun d hd => ?_⟩⟩
  simp only [confirmCommit, State.kept, State.updSt, Option.some.injEq] at hd
  subst hd; exact g.commit c h

theorem applyConfig_kept (s : State) (img : List Byte) : (applyConfig s img).kept = { s.kept with cfgImage := img } := by
  unfold applyConfig; extract_lets old rs new len s1 s2 s3 s4
  have h1 : s1.kept = s.kept := keep_discardLoopStage s
  have h2 : s2.kept = { s.kept with cfgImage := img } := (show s2.kept = { s1.kept with cfgImage := img } from rfl).trans (by rw [h1])
  have h3 : s3.kept = s2.kept := keep_retick _ _
  have h4 : s4.kept = s2.kept := by
    simp only [s4]; rw [keep_panelApply, keep_mxApply, keep_anaApply, keep_dioApply, h3]
  rw [keep_latchApply, keep_thlConfig, keep_eachTracking _ _ (fun _ _ => keep_laneConfig _ _ _ _), h4, h2]

theorem applyProgram_kept (s : State) (img : List Byte) : (applyProgram s img).kept = { s.kept with prog := some img } := by
  unfold applyProgram; extract_lets xs s1 s2
  have h1 : s1.kept = s.kept := by simp [s1]
  have h2 : s2.kept = { s.kept with prog := some img } := (show s2.kept = { s1.kept with prog := some img } from rfl).trans (by rw [h1])
  rw [keep_eachTracking _ _ (fun _ _ => keep_laneProgram _ _ _), h2]

theorem applyAccess_mild (s : State) (c : Commit) (h : s.kept.Good → trailerOk c.image = true) : Mild s (applyAccess s c) := by
  unfold applyAccess; extract_lets rs cf s1 s2 s3
  have h1 : s1.kept = s.kept := by simp only [s1]; split <;> simp
  have h2 : s2.kept = s.kept := by simp only [s2]; split <;> simp [h1]
  have h3 : s3.kept = { s.kept with accessImage := c.image, access := some rs } :=
    (show s3.kept = { s2.kept with accessImage := c.image, access := some rs } from rfl).trans (by rw [h2])
  exact (mild_of_eq h3 rfl fun g => ⟨g.sk, g.safety, g.prog, g.cfg, Or.inr (h g), g.commit⟩).trans (detachForbidden_mild _)

theorem coldStart_mild (s : State) (d : Bool) : Mild s (coldStart s d) :=
  ⟨rfl, fun _ => ⟨by simp [State.kept, coldStart], by simp [State.kept, coldStart], by simp [State.kept, coldStart],
    Or.inl rfl, Or.inl rfl, by simp [State.kept, coldStart]⟩⟩

theorem powerOff_mild (s : State) : Mild s (powerOff s) := by
  unfold powerOff; extract_lets s1 s2 off s3 s4 s5
  have h2 : s2.kept = s.kept := by simp [s2, s1]
  have h3 : Mild s2 s3 := ⟨rfl, fun _ => ⟨by simp [State.kept, s3], by simp [State.kept, s3], by simp [State.kept, s3],
    Or.inl rfl, Or.inl rfl, by simp [State.kept, s3]⟩⟩
  exact kept_trans_mild h2 (mild_trans_kept h3 rfl)

/-! The checks of a commit judge the trailer -/

theorem orElse_none {a b : Check} (h : (a <|> b) = none) : a = none ∧ b = none := by
  cases a <;> simp_all

theorem checkConfig_trailer (s : State) (img : List Byte) (h : checkConfig s img = none) : trailerOk img = true := by
  unfold checkConfig at h; split at h
  · cases h
  · rename_i hn; revert hn; cases trailerOk img <;> simp

theorem checkAccess_trailer (img : List Byte) (h : checkAccess img = none) : trailerOk img = true := by
  unfold checkAccess at h; split at h
  · cases h
  · rename_i hn; revert hn; cases trailerOk img <;> simp

theorem checkSafety_trailer (s : State) (img : List Byte) (h : checkSafety s img = none) : trailerOk img = true := by
  unfold checkSafety at h; split at h
  · cases h
  · rename_i hn; revert hn; cases trailerOk img <;> simp

theorem checkProgram_trailer (rs : List CfgRec) (img : List Byte) (total : Nat)
    (h : checkProgram rs img total = none) : trailerOk img = true := by
  have h1 := (orElse_none h).1
  unfold checkSigned at h1; split at h1
  · rename_i hc; exact (Bool.and_eq_true _ _ ▸ hc : _ ∧ _).1
  · cases h1

theorem validateAccess_trailer (s : State) (p : Nat) (img : List Byte) (se : Bool) (h : (validateAccess s p img se).2 = none) :
    trailerOk img = true := by
  unfold validateAccess at h; extract_lets rs at h
  split at h
  · cases h
  · exact checkAccess_trailer _ ‹_›

/-- An image that passes the validation of a commit of target 1, 2 or 4 has a good trailer. -/
theorem validateImage_trailer (s : State) (p t : Nat) (a : StageArea) (se : Bool) (h : (validateImage s p t a se).2 = none) (ht : t ≠ 3) :
    trailerOk (a.bytes.readN 0 a.total) = true := by
  unfold validateImage at h
  extract_lets img at h
  split at h
  · cases h
  · split at h
    · exact checkConfig_trailer s _ h
    · exact checkProgram_trailer _ _ _ (orElse_none h).1
    · exact absurd rfl ht
    · exact validateAccess_trailer _ _ _ _ h

/-- An outcome that is a next state, mild from `s`. -/
def MildO (s : State) (o : Host.Outcome State Fault Refusal) : Prop := ∃ t, o = .next t ∧ Mild s t

/-! Rows that write them: each answers a next state, mild from its own -/

theorem mild_serve (s : State) (p op : Nat) (f : State → List Word → State) (h : ∀ ws, Mild s (f s ws)) : Mild s (serve s p op f) := by
  unfold serve; extract_lets c m; exact mild_ite (h _) (Mild.refl _)
theorem mild_needLock (s : State) (p : Nat) (u : Bool) (k : State) (h : Mild s k) : Mild s (needLock s p u k) := by
  unfold needLock; exact mild_ite h (mild_of_kept (keep_answer _ _ _ _ _ _ _))

theorem endValidate_mild (s : State) (p t : Nat) (session : Bool) : Mild s (endValidate s p t session) := by
  unfold endValidate
  split
  · exact mild_of_kept (keep_answer _ _ _ _ _ _ _)
  · rename_i a ha
    split
    rename_i d0 bad hm
    split
    · exact mild_of_kept (keep_answer _ _ _ _ _ _ _)
    · extract_lets alone c
      refine mild_trans_kept ?_ (updMb_kept _ _ _ _)
      refine ⟨rfl, fun g => ⟨g.sk, g.safety, g.prog, g.cfg, g.access, fun d hd ht => ?_⟩⟩
      simp only [State.kept, State.updSt, Option.some.injEq] at hd
      subst hd
      have : (validateImage s p t a session).2 = none := by
        split at hm
        · simp at hm
        · rw [hm]
      exact validateImage_trailer s p t a session this ht

theorem execConfigCommit_mild (p : Part) (s : State) : MildO s (execConfigCommit p s) := by
  refine ⟨_, rfl, mild_ite (Mild.refl _) (mild_serve _ _ _ _ fun ws => mild_needLock _ _ _ _ ?_)⟩
  extract_lets t session s1
  refine mild_ite (mild_of_kept (keep_answer _ _ _ _ _ _ _)) ?_
  split
  · exact mild_of_kept (keep_answer _ _ _ _ _ _ _)
  · exact kept_trans_mild (keep_beginXfer ..) (mild_ite (endValidate_mild ..) (Mild.refl _))

theorem stepValidate_mild (s : State) (p t n : Nat) (session : Bool) : Mild s (stepValidate s p t n session) := by
  unfold stepValidate; extract_lets s1
  exact kept_trans_mild (updMb_kept ..) (mild_ite (endValidate_mild ..) (mild_of_kept (keep_progress ..)))

theorem execBulkBoundary_mild (s : State) : MildO s (execBulkBoundary s) := by
  refine ⟨_, rfl, ?_⟩
  split
  · exact Mild.refl _
  · extract_lets m
    split
    · exact Mild.refl _
    · refine mild_ite (Mild.refl _) ?_
      extract_lets s1
      have h1 : Mild s s1 := mild_ite (resumeHeld_mild _ _) (mild_ite (goOn_mild _ _ _ _) (Mild.refl _))
      refine h1.trans ?_
      split
      · exact mild_ite (stepValidate_mild ..) (Mild.refl _)
      · exact Mild.refl _

theorem execWinCtrlAttach_mild (p : Part) (b : Bus) (l : LaneId) (d : Word) (s : State) : MildO s (execWinCtrlAttach p b l d s) :=
  ⟨_, rfl, writeWinCtrl_mild ..⟩
theorem execWinCtrlDetach_mild (p : Part) (d : Word) (s : State) : MildO s (execWinCtrlDetach p d s) := ⟨_, rfl, winDetach_mild ..⟩
theorem execDetachComplete_mild (p : Part) (s : State) : MildO s (execDetachComplete p s) :=
  ⟨_, rfl, mild_ite (finishDetach_mild ..) (Mild.refl _)⟩
theorem execLinkGraceExpired_mild (p : Part) (s : State) : MildO s (execLinkGraceExpired p s) :=
  ⟨_, rfl, mild_ite (startDetach_mild ..) (Mild.refl _)⟩
theorem execRegisterWrite_mild (p : Part) (slow : Bool) (addr size : Nat) (data : DWord) (via : Arrival) (s : State) :
    MildO s (execRegisterWrite p slow addr size data via s) := by
  unfold execRegisterWrite; split
  · exact ⟨_, rfl, mild_of_kept (by simp)⟩
  · exact ⟨_, rfl, hostWrite_mild ..⟩
theorem execThlRegWrite_mild (p : Part) (rx : Rx) (sess seq addr : Nat) (data : Word) (tag : List Byte) (dt : Nat) (s : State) :
    MildO s (execThlRegWrite p rx sess seq addr data tag dt s) :=
  ⟨_, rfl, thlTake_mild _ _ _ _ _ _ _ _ _ _ Mild.refl fun _ _ => mild_ite (writeWinCtrl_mild ..) (mild_ite (windowWrite_mild ..) (Mild.refl _))⟩

theorem execDmaCompletion_mild (p : Part) (urgent ok : Bool) (status : Word) (data : List Byte) (s : State) :
    MildO s (execDmaCompletion p urgent ok status data s) := by
  unfold execDmaCompletion; extract_lets s1 m
  have h1 : Mild s s1 := mild_ite (Mild.refl _) (resumeHeld_mild _ _)
  refine ⟨_, rfl, ?_⟩
  split
  · exact Mild.refl _
  · refine mild_ite (Mild.refl _) (h1.trans ?_)
    exact mild_ite (mild_of_kept (keep_answer _ _ _ _ _ _ _)) (mild_ite (mild_ite (Mild.refl _) (takeIn_mild ..))
      (kept_trans_mild (updMb_kept ..) (goOn_mild ..)))

theorem execThlData_mild (p : Part) (rx : Rx) (sess seq cmdSeq offset : Nat) (data tag : List Byte) (s : State) :
    MildO s (execThlData p rx sess seq cmdSeq offset data tag s) := by
  refine ⟨_, rfl, thlTake_mild _ _ _ _ _ _ _ _ _ _ (fun s => ?_) fun s _ => ?_⟩
  · split
    · exact mild_of_kept (keep_answer _ _ _ _ _ _ _)
    · exact Mild.refl _
  · split
    · exact Mild.refl _
    · extract_lets s1 m
      have h1 : Mild s s1 := mild_ite (Mild.refl _) (resumeHeld_mild _ _)
      split
      · exact h1
      · refine h1.trans (mild_ite (Mild.refl _) (mild_ite (mild_of_kept (keep_thlSend ..)) (mild_ite (Mild.refl _) ?_)))
        exact kept_trans_mild (keep_thlSend ..) (takeIn_mild ..)

theorem execThlAck_mild (p : Part) (rx : Rx) (sess seq cmdSeq offset : Nat) (tag : List Byte) (s : State) :
    MildO s (execThlAck p rx sess seq cmdSeq offset tag s) := by
  refine ⟨_, rfl, thlTake_mild _ _ _ _ _ _ _ _ _ _ Mild.refl fun s _ => ?_⟩
  split
  · exact Mild.refl _
  · extract_lets s1 m
    have h1 : Mild s s1 := mild_ite (Mild.refl _) (resumeHeld_mild _ _)
    split
    · exact h1
    · exact h1.trans (mild_ite (Mild.refl _) (kept_trans_mild (updMb_kept ..) (goOn_mild ..)))

theorem awaitsConfirm_some (s : State) (c : Commit) (h : awaitsConfirm s = some c) : s.st.commit = some c := by
  unfold awaitsConfirm at h
  cases hc : s.st.commit with
  | none => simp [hc] at h
  | some d =>
    simp only [hc, Option.bind_some] at h
    split at h
    · cases h
    · exact h

theorem execCommitConfirm_mild (s : State) : MildO s (execCommitConfirm s) := by
  refine ⟨_, rfl, ?_⟩
  split
  · exact confirmCommit_mild s _ (awaitsConfirm_some _ _ ‹_›)
  · exact Mild.refl _

theorem execCommitConfirmTimeout_mild (s : State) : MildO s (execCommitConfirmTimeout s) := by
  refine ⟨_, rfl, ?_⟩
  split
  · exact Mild.refl _
  · rename_i c hc
    have h1 := confirmCommit_mild s c (awaitsConfirm_some _ _ hc)
    refine mild_ite (Mild.refl _) ?_
    extract_lets s1
    split
    · exact mild_trans_kept h1 (keep_goOffline _ _ _)
    · exact h1

theorem execConfigApply_mild (s : State) : MildO s (execConfigApply s) := by
  refine ⟨_, rfl, ?_⟩
  split
  · rename_i c l hc hl
    split
    · exact Mild.refl _
    · rename_i hn
      split
      · exact commitFail_mild _ _ _
      · extract_lets s1
        refine Mild.trans ?_ (commitOk_mild _ _ _ _)
        have hi (g : s.kept.Good) : trailerOk c.image = true := g.commit c hc (fun h => hn (Or.inl h))
        simp only [s1]
        split
        · exact mild_of_eq (applyConfig_kept s c.image) rfl fun g => ⟨g.sk, g.safety, g.prog, Or.inr (hi g), g.access, g.commit⟩
        · exact mild_of_eq (applyProgram_kept s c.image) rfl fun g =>
            ⟨g.sk, g.safety, fun i h => by cases h; exact hi g, g.cfg, g.access, g.commit⟩
        · exact applyAccess_mild s c hi
  · exact Mild.refl _

theorem execTokenReply_mild (l : LaneId) (s : State) : MildO s (execTokenReply l s) := by
  refine ⟨_, rfl, ?_⟩
  split
  · exact grantReceived_mild _ _ _ _
  · extract_lets s1 s2
    have h : s2.kept = s.kept := by simp only [s2, s1, keep_redEvent, updLane_kept]
    split
    · exact mild_of_kept ((keep_goOffline _ _ _).trans h)
    · exact mild_of_kept h
  · exact Mild.refl _

theorem execPartnerBeaconLost_mild (l : LaneId) (s : State) : MildO s (execPartnerBeaconLost l s) := by
  have h : Mild s (forgetImages (unparkLane s l)) := kept_trans_mild (keep_unparkLane _ _) (forgetImages_mild _)
  refine ⟨_, rfl, mild_ite (h.trans (mild_of_kept ?_)) (Mild.refl _)⟩
  rw [keep_askToken]; simp

theorem execTakeoverTick_mild (l : LaneId) (s : State) : MildO s (execTakeoverTick l s) := by
  unfold execTakeoverTick; extract_lets v
  refine ⟨_, rfl, mild_ite (mild_trans_kept ?_ (keep_becomeSolo _ _)) (Mild.refl _)⟩
  refine kept_trans_mild ?_ (loseCommands_mild _)
  rfl

theorem exchange_mild (s : State) (x y : Option SkResult) (us : Nat) : Mild s (exchange s x y us) := by
  unfold exchange
  split
  · exact mild_ite (mild_of_kept (keep_takeResults ..)) (kept_trans_mild (takeFree_kept s) (safeStop_mild _ _))
  · exact kept_trans_mild (takeFree_kept s) (safeStop_mild _ _)

theorem execSkCycleEnd_mild (x y : Option SkResult) (dt : Nat) (s : State) : MildO s (execSkCycleEnd x y dt s) := by
  refine ⟨_, rfl, mild_ite (Mild.refl _) ?_⟩
  extract_lets s1 s2
  have h2 : Mild s1 s2 := mild_ite (exchange_mild ..) (Mild.refl _)
  exact mild_trans_kept (kept_trans_mild (t := s1) rfl h2) (by simp)

theorem darkEntry_mild (s : State) (f : State → State) (h : ∀ s, (f s).kept = s.kept) : Mild s (darkEntry s f) := by
  unfold darkEntry; extract_lets s1 s2 s3 s4 s5 down s6
  have h2 : s2.kept = s.kept := by simp [s2, s1]
  have h3 : Mild s2 s3 := mild_foldl _ _ _ fun s p => mild_ite ((startDetach_mild ..).trans (finishDetach_mild ..)) (Mild.refl _)
  have h5 : s5.kept = s3.kept := by simp only [s5, s4, keep_drainQueue, h]
  exact kept_trans_mild h2 (h3.trans (mild_of_kept (show s5.kept = s3.kept from h5)))

theorem keptImages_mild (s : State) (f : Station → Station)
    (h : ∀ t, (f t).prog = t.prog ∧ (f t).commit = t.commit ∧ (f t).cfgImage = t.cfgImage ∧ (f t).accessImage = t.accessImage ∧ (f t).safety = t.safety) :
    Mild s (s.updSt fun t => f (keptImages t)) := by
  obtain ⟨h1, h2, h3, h4, h5⟩ := h (keptImages s.st)
  refine ⟨rfl, fun g => ⟨g.sk, fun i hi => g.safety i ?_, fun i hi => g.prog i ?_, ?_, ?_, fun c hc => g.commit c (h2.symm.trans hc)⟩⟩
  · exact Option.eq_some_of_filter_eq_some (h5.symm.trans hi)
  · exact Option.eq_some_of_filter_eq_some (h1.symm.trans hi)
  · refine (?_ : (f (keptImages s.st)).cfgImage = [] ∨ trailerOk (f (keptImages s.st)).cfgImage = true)
    rw [h3]; simp only [keptImages]; split
    · exact g.cfg
    · exact Or.inl rfl
  · refine (?_ : (f (keptImages s.st)).accessImage = [] ∨ trailerOk (f (keptImages s.st)).accessImage = true)
    rw [h4]; simp only [keptImages]; split
    · exact g.access
    · exact Or.inl rfl

theorem darkWake_mild (s : State) (w : WakeSource) : Mild s (darkWake s w) := by
  unfold darkWake; extract_lets pairOk s1 s2 s3
  have h1 : s1.kept = s.kept := by simp only [s1]; split <;> simp
  have h3 : s3.kept = s.kept := (keep_bothLanes _ _ fun s l => updLane_kept s l _).trans (by simp [s2, h1])
  refine mild_ite (Mild.refl _) (mild_ite (mild_of_kept rfl) (mild_ite (kept_trans_mild h3 ?_) (Mild.refl _)))
  exact keptImages_mild s3 (fun t => { t with phase := .starting, ready := false, power := { t.power with ps := .lit, entering := some .lit } })
    fun _ => ⟨rfl, rfl, rfl, rfl, rfl⟩

theorem darkEdge_mild (s : State) : Mild s (darkEdge s) := by
  unfold darkEdge
  refine mild_ite (Mild.refl _) (mild_ite (mild_of_kept rfl) ((darkEntry_mild s skDormant keep_skDormant).trans ?_))
  generalize darkEntry s skDormant = u
  cases s.st.power.wake with
  | none => exact Mild.refl _
  | some w => exact darkWake_mild u w

theorem execTickEdge_mild (skewNs : Int) (s : State) : MildO s (execTickEdge skewNs s) := by
  unfold execTickEdge
  refine ⟨_, rfl, mild_ite (Mild.refl _) ?_⟩
  extract_lets l was; split; rename_i d s1 hq; extract_lets g s2 s3 hold4 s4 s5 s6
  have h1 : s1.kept = s.kept := ((congrArg (fun x => State.kept (Prod.snd x)) hq).symm).trans (by simp)
  have h2 : s2.kept = s.kept := by
    simp only [s2]; split
    · exact h1
    · simp only [keep_raiseUnnamed]; exact h1
  have h3 : s3.kept = s.kept := (keep_bothLanes _ _ fun s l => updLane_kept s l _).trans (by simp [h2])
  have h4 : s4.kept = s.kept := by simp [s4, h3]
  have h5 : s5.kept = s.kept := (keep_bothLanes _ _ fun s l => by split <;> simp).trans h4
  have h6 : s6.kept = s.kept := by simp [s6, h5]
  refine kept_trans_mild ?_ (darkEdge_mild _)
  rw [keep_litEdge]
  exact (keep_bothLanes _ _ fun s l => by split <;> simp).trans h6

theorem execDarkWake_mild (w : WakeSource) (s : State) : MildO s (execDarkWake w s) := ⟨_, rfl, darkWake_mild ..⟩

theorem fireAlarm_mild (s : State) (n : Nat) : Mild s (fireAlarm s n) := by
  unfold fireAlarm; extract_lets s1 s2
  exact kept_trans_mild (by simp [s2, s1]) (darkWake_mild s2 _)

theorem execRtcSecond_mild (s : State) : MildO s (execRtcSecond s) := by
  unfold execRtcSecond; extract_lets on s1 r s2
  have h1 : s1.kept = s.kept := by simp only [s1]; split <;> simp
  refine ⟨_, rfl, kept_trans_mild h1 (mild_ite (Mild.refl _) ?_)⟩
  exact Mild.trans (mild_ite (fireAlarm_mild ..) (Mild.refl _)) (mild_ite (fireAlarm_mild ..) (Mild.refl _))

theorem execPanelKey_mild (s : State) : MildO s (execPanelKey s) := by
  refine ⟨_, rfl, mild_ite (darkWake_mild ..) (mild_ite (Mild.refl _) (mild_of_kept ?_))⟩
  extract_lets cycle s1 s2
  have h1 : s1.kept = s.kept := by simp only [s1]; split <;> simp
  simp [s2, h1]

theorem execSkKernelFault_mild (code : Nat) (s : State) : MildO s (execSkKernelFault code s) :=
  ⟨_, rfl, mild_ite (safeStop_mild _ _) (Mild.refl _)⟩

theorem execSkPeriodicSelftest_mild (ok : Bool) (code : Nat) (s : State) : MildO s (execSkPeriodicSelftest ok code s) :=
  ⟨_, rfl, mild_ite (safeStop_mild _ _) (Mild.refl _)⟩

theorem execSkSelftestDone_mild (ok : Bool) (code : Nat) (s : State) : MildO s (execSkSelftestDone ok code s) := by
  refine ⟨_, rfl, mild_ite (Mild.refl _) (mild_ite (safeStop_mild _ _) ?_)⟩
  extract_lets s1
  have h1 : s1.kept = s.kept := rfl
  have h2 : Mild s1 (s1.updSk fun k => { k with cand := if k.cand.isSome then k.cand else k.image, image := none }) :=
    updSk_mild _ _ (Or.inr rfl)
  split
  · exact kept_trans_mild h1 (mild_trans_kept h2 (keep_enterSk _ _ _))
  · exact kept_trans_mild h1 (mild_trans_kept h2 (keep_enterSk _ _ _))
  · exact mild_of_kept ((keep_enterSk _ _ _).trans h1)
  · exact mild_of_kept ((keep_enterSk _ _ _).trans h1)
  · exact mild_of_kept (by split <;> rw [keep_enterSk, h1])

theorem execSkImageForwarded_mild (s : State) : MildO s (execSkImageForwarded s) := by
  refine ⟨_, rfl, ?_⟩
  split
  · exact Mild.refl _
  · rename_i c hc
    refine mild_ite (Mild.refl _) ?_
    extract_lets mark
    have h : Mild s (mark s) := by
      refine ⟨rfl, fun g => ⟨g.sk, g.safety, g.prog, g.cfg, g.access, fun d hd ht => ?_⟩⟩
      have : d = { c with forwarded := true } := by
        simp only [mark, State.kept, State.updSt, State.updSk, Option.some.injEq] at hd; exact hd.symm
      subst this; exact g.commit c hc ht
    split
    · exact mild_trans_kept h (keep_enterSk _ _ _)
    · exact mild_trans_kept h (keep_enterSk _ _ _)
    · exact mild_trans_kept h (keep_enterSk _ _ _)
    · exact Mild.refl _

theorem execSkVerifyDone_mild (ok : Bool) (s : State) : MildO s (execSkVerifyDone ok s) := by
  refine ⟨_, rfl, ?_⟩
  split
  · split
    · exact verifyFails_mild _ _
    · exact mild_ite (sealCheck_mild _ _ (checkSafety_trailer _ _ ‹_›)) (verifyFails_mild _ _)
  · exact Mild.refl _

theorem execLogicPowerGood_mild (l : LaneId) (cid : BitVec 4) (feedMv mac : Nat) (map : Option (List (Nat × Fin 4))) (s : State) :
    MildO s (execLogicPowerGood l cid feedMv mac map s) := by
  unfold execLogicPowerGood
  split
  · exact ⟨_, rfl, Mild.refl _⟩
  · extract_lets dark both s1 s2 s3 s4 s5
    refine ⟨_, rfl, ?_⟩
    have h1 : Mild s s1 := mild_ite (coldStart_mild _ _) (Mild.refl _)
    have h2 : s2.kept = s1.kept := by simp only [s2]; split <;> simp only [updLane_kept]
    have h3 : s3.kept = s2.kept := keep_powerIslands _
    have h4 : s4.kept = s3.kept := rfl
    have h5 : s5.kept = s4.kept := by simp only [s5]; split <;> simp only [keep_panelPowerUp]
    exact mild_trans_kept h1 (by rw [updLane_kept, h5, h4, h3, h2])

theorem execPowerFailure_mild (b fa fb : Nat) (s : State) : MildO s (execPowerFailure b fa fb s) := by
  refine ⟨_, rfl, mild_ite (Mild.refl _) ?_⟩
  extract_lets s1 s2 sc s3
  have h2 : s2.kept = s.kept := by simp only [s2, s1, keep_bankVolts, keep_abandonMeasure, keep_State_updSup]
  have hc : sc.kept = s.kept := (keep_bothLanes _ _ keep_dropUncarried).trans h2
  have h3 : s3.kept = s.kept := by simp only [s3, keep_supEvent, keep_State_updSup, hc]
  split
  · exact kept_trans_mild h2 (powerOff_mild _)
  · split
    · exact mild_of_kept h3
    · split
      · exact mild_of_kept (by rw [keep_pfStop, h3])
      · exact mild_of_kept (by rw [← h3]; rfl)

theorem execHoldupOff_mild (s : State) : MildO s (execHoldupOff s) := ⟨_, rfl, mild_ite (powerOff_mild _) (Mild.refl _)⟩

theorem execCartRemoved_mild (s : State) : MildO s (execCartRemoved s) := by
  refine ⟨_, rfl, mild_ite (Mild.refl _) ?_⟩
  extract_lets s1 held s2 s3
  have h2 : s2.kept = s.kept := by simp only [s2, s1, keep_supEvent, keep_cartFlag, keep_abandonMeasure]
  have h3 : s3.kept = s.kept := (keep_abandonBank _ _).trans h2
  clear_value s3
  split
  · exact kept_trans_mild h3 (powerOff_mild _)
  · refine mild_of_kept (Eq.trans ?_ h3)
    split
    · simp
    · split
      · simp
      · split <;> simp
end Sys2Proof.Machine
end

