-- ==== Sys2Proof/Laws/State.lean ====
section
/-! SUPPORT. One lemma per update of the state and field: what an update reads back as, and what it leaves alone. -/

namespace Sys2Proof.Machine

/-! State.updPart -/

@[simp] theorem updPart_pending (s : State) (p : Nat) (f : Partition → Partition) : (s.updPart p f).pending = s.pending := rfl
@[simp] theorem updPart_free (s : State) (p : Nat) (f : Partition → Partition) : (s.updPart p f).free = s.free := rfl
@[simp] theorem updPart_out (s : State) (p : Nat) (f : Partition → Partition) : (s.updPart p f).out = s.out := rfl
@[simp] theorem updPart_grid (s : State) (p : Nat) (f : Partition → Partition) : (s.updPart p f).grid = s.grid := rfl
@[simp] theorem updPart_st (s : State) (p : Nat) (f : Partition → Partition) : (s.updPart p f).st = s.st := rfl
@[simp] theorem updPart_a (s : State) (p : Nat) (f : Partition → Partition) : (s.updPart p f).a = s.a := rfl
@[simp] theorem updPart_b (s : State) (p : Nat) (f : Partition → Partition) : (s.updPart p f).b = s.b := rfl
@[simp] theorem updPart_isl (s : State) (p : Nat) (f : Partition → Partition) : (s.updPart p f).isl = s.isl := rfl
@[simp] theorem updPart_sk (s : State) (p : Nat) (f : Partition → Partition) : (s.updPart p f).sk = s.sk := rfl
@[simp] theorem updPart_svc (s : State) (p : Nat) (f : Partition → Partition) : (s.updPart p f).svc = s.svc := rfl

/-! State.updIsl -/

@[simp] theorem updIsl_pending (s : State) (i : Nat) (f : Island → Island) : (s.updIsl i f).pending = s.pending := rfl
@[simp] theorem updIsl_free (s : State) (i : Nat) (f : Island → Island) : (s.updIsl i f).free = s.free := rfl
@[simp] theorem updIsl_out (s : State) (i : Nat) (f : Island → Island) : (s.updIsl i f).out = s.out := rfl
@[simp] theorem updIsl_grid (s : State) (i : Nat) (f : Island → Island) : (s.updIsl i f).grid = s.grid := rfl
@[simp] theorem updIsl_st (s : State) (i : Nat) (f : Island → Island) : (s.updIsl i f).st = s.st := rfl
@[simp] theorem updIsl_a (s : State) (i : Nat) (f : Island → Island) : (s.updIsl i f).a = s.a := rfl
@[simp] theorem updIsl_b (s : State) (i : Nat) (f : Island → Island) : (s.updIsl i f).b = s.b := rfl
@[simp] theorem updIsl_parts (s : State) (i : Nat) (f : Island → Island) : (s.updIsl i f).parts = s.parts := rfl
@[simp] theorem updIsl_sk (s : State) (i : Nat) (f : Island → Island) : (s.updIsl i f).sk = s.sk := rfl
@[simp] theorem updIsl_svc (s : State) (i : Nat) (f : Island → Island) : (s.updIsl i f).svc = s.svc := rfl

/-! State.updSt -/

@[simp] theorem updSt_pending (s : State) (f : Station → Station) : (s.updSt f).pending = s.pending := rfl
@[simp] theorem updSt_free (s : State) (f : Station → Station) : (s.updSt f).free = s.free := rfl
@[simp] theorem updSt_out (s : State) (f : Station → Station) : (s.updSt f).out = s.out := rfl
@[simp] theorem updSt_grid (s : State) (f : Station → Station) : (s.updSt f).grid = s.grid := rfl
@[simp] theorem updSt_a (s : State) (f : Station → Station) : (s.updSt f).a = s.a := rfl
@[simp] theorem updSt_b (s : State) (f : Station → Station) : (s.updSt f).b = s.b := rfl
@[simp] theorem updSt_parts (s : State) (f : Station → Station) : (s.updSt f).parts = s.parts := rfl
@[simp] theorem updSt_isl (s : State) (f : Station → Station) : (s.updSt f).isl = s.isl := rfl
@[simp] theorem updSt_sk (s : State) (f : Station → Station) : (s.updSt f).sk = s.sk := rfl
@[simp] theorem updSt_svc (s : State) (f : Station → Station) : (s.updSt f).svc = s.svc := rfl

/-! State.updSvc -/

@[simp] theorem updSvc_pending (s : State) (f : Svc → Svc) : (s.updSvc f).pending = s.pending := rfl
@[simp] theorem updSvc_free (s : State) (f : Svc → Svc) : (s.updSvc f).free = s.free := rfl
@[simp] theorem updSvc_out (s : State) (f : Svc → Svc) : (s.updSvc f).out = s.out := rfl
@[simp] theorem updSvc_grid (s : State) (f : Svc → Svc) : (s.updSvc f).grid = s.grid := rfl
@[simp] theorem updSvc_st (s : State) (f : Svc → Svc) : (s.updSvc f).st = s.st := rfl
@[simp] theorem updSvc_a (s : State) (f : Svc → Svc) : (s.updSvc f).a = s.a := rfl
@[simp] theorem updSvc_b (s : State) (f : Svc → Svc) : (s.updSvc f).b = s.b := rfl
@[simp] theorem updSvc_parts (s : State) (f : Svc → Svc) : (s.updSvc f).parts = s.parts := rfl
@[simp] theorem updSvc_isl (s : State) (f : Svc → Svc) : (s.updSvc f).isl = s.isl := rfl
@[simp] theorem updSvc_sk (s : State) (f : Svc → Svc) : (s.updSvc f).sk = s.sk := rfl

/-! State.updRec -/

@[simp] theorem updRec_pending (s : State) (f : Recorder → Recorder) : (s.updRec f).pending = s.pending := rfl
@[simp] theorem updRec_free (s : State) (f : Recorder → Recorder) : (s.updRec f).free = s.free := rfl
@[simp] theorem updRec_out (s : State) (f : Recorder → Recorder) : (s.updRec f).out = s.out := rfl
@[simp] theorem updRec_grid (s : State) (f : Recorder → Recorder) : (s.updRec f).grid = s.grid := rfl
@[simp] theorem updRec_st (s : State) (f : Recorder → Recorder) : (s.updRec f).st = s.st := rfl
@[simp] theorem updRec_a (s : State) (f : Recorder → Recorder) : (s.updRec f).a = s.a := rfl
@[simp] theorem updRec_b (s : State) (f : Recorder → Recorder) : (s.updRec f).b = s.b := rfl
@[simp] theorem updRec_parts (s : State) (f : Recorder → Recorder) : (s.updRec f).parts = s.parts := rfl
@[simp] theorem updRec_isl (s : State) (f : Recorder → Recorder) : (s.updRec f).isl = s.isl := rfl
@[simp] theorem updRec_sk (s : State) (f : Recorder → Recorder) : (s.updRec f).sk = s.sk := rfl

/-! State.updSk -/

@[simp] theorem updSk_pending (s : State) (f : Sk → Sk) : (s.updSk f).pending = s.pending := rfl
@[simp] theorem updSk_free (s : State) (f : Sk → Sk) : (s.updSk f).free = s.free := rfl
@[simp] theorem updSk_out (s : State) (f : Sk → Sk) : (s.updSk f).out = s.out := rfl
@[simp] theorem updSk_grid (s : State) (f : Sk → Sk) : (s.updSk f).grid = s.grid := rfl
@[simp] theorem updSk_st (s : State) (f : Sk → Sk) : (s.updSk f).st = s.st := rfl
@[simp] theorem updSk_a (s : State) (f : Sk → Sk) : (s.updSk f).a = s.a := rfl
@[simp] theorem updSk_b (s : State) (f : Sk → Sk) : (s.updSk f).b = s.b := rfl
@[simp] theorem updSk_parts (s : State) (f : Sk → Sk) : (s.updSk f).parts = s.parts := rfl
@[simp] theorem updSk_isl (s : State) (f : Sk → Sk) : (s.updSk f).isl = s.isl := rfl
@[simp] theorem updSk_svc (s : State) (f : Sk → Sk) : (s.updSk f).svc = s.svc := rfl

/-! State.updMb -/

@[simp] theorem updMb_pending (s : State) (p : Nat) (u : Bool) (f : Mailbox → Mailbox) : (s.updMb p u f).pending = s.pending := rfl
@[simp] theorem updMb_free (s : State) (p : Nat) (u : Bool) (f : Mailbox → Mailbox) : (s.updMb p u f).free = s.free := rfl
@[simp] theorem updMb_out (s : State) (p : Nat) (u : Bool) (f : Mailbox → Mailbox) : (s.updMb p u f).out = s.out := rfl
@[simp] theorem updMb_grid (s : State) (p : Nat) (u : Bool) (f : Mailbox → Mailbox) : (s.updMb p u f).grid = s.grid := rfl
@[simp] theorem updMb_st (s : State) (p : Nat) (u : Bool) (f : Mailbox → Mailbox) : (s.updMb p u f).st = s.st := rfl
@[simp] theorem updMb_a (s : State) (p : Nat) (u : Bool) (f : Mailbox → Mailbox) : (s.updMb p u f).a = s.a := rfl
@[simp] theorem updMb_b (s : State) (p : Nat) (u : Bool) (f : Mailbox → Mailbox) : (s.updMb p u f).b = s.b := rfl
@[simp] theorem updMb_isl (s : State) (p : Nat) (u : Bool) (f : Mailbox → Mailbox) : (s.updMb p u f).isl = s.isl := rfl
@[simp] theorem updMb_sk (s : State) (p : Nat) (u : Bool) (f : Mailbox → Mailbox) : (s.updMb p u f).sk = s.sk := rfl
@[simp] theorem updMb_svc (s : State) (p : Nat) (u : Bool) (f : Mailbox → Mailbox) : (s.updMb p u f).svc = s.svc := rfl

/-! State.emit -/

@[simp] theorem emit_pending (s : State) (o : Out) : (s.emit o).pending = s.pending := rfl
@[simp] theorem emit_free (s : State) (o : Out) : (s.emit o).free = s.free := rfl
@[simp] theorem emit_grid (s : State) (o : Out) : (s.emit o).grid = s.grid := rfl
@[simp] theorem emit_st (s : State) (o : Out) : (s.emit o).st = s.st := rfl
@[simp] theorem emit_a (s : State) (o : Out) : (s.emit o).a = s.a := rfl
@[simp] theorem emit_b (s : State) (o : Out) : (s.emit o).b = s.b := rfl
@[simp] theorem emit_parts (s : State) (o : Out) : (s.emit o).parts = s.parts := rfl
@[simp] theorem emit_isl (s : State) (o : Out) : (s.emit o).isl = s.isl := rfl
@[simp] theorem emit_sk (s : State) (o : Out) : (s.emit o).sk = s.sk := rfl
@[simp] theorem emit_svc (s : State) (o : Out) : (s.emit o).svc = s.svc := rfl

/-! State.takeFree -/

@[simp] theorem takeFree_pending (s : State)  : (s.takeFree.2).pending = s.pending := rfl
@[simp] theorem takeFree_out (s : State)  : (s.takeFree.2).out = s.out := rfl
@[simp] theorem takeFree_grid (s : State)  : (s.takeFree.2).grid = s.grid := rfl
@[simp] theorem takeFree_st (s : State)  : (s.takeFree.2).st = s.st := rfl
@[simp] theorem takeFree_a (s : State)  : (s.takeFree.2).a = s.a := rfl
@[simp] theorem takeFree_b (s : State)  : (s.takeFree.2).b = s.b := rfl
@[simp] theorem takeFree_parts (s : State)  : (s.takeFree.2).parts = s.parts := rfl
@[simp] theorem takeFree_isl (s : State)  : (s.takeFree.2).isl = s.isl := rfl
@[simp] theorem takeFree_sk (s : State)  : (s.takeFree.2).sk = s.sk := rfl
@[simp] theorem takeFree_svc (s : State)  : (s.takeFree.2).svc = s.svc := rfl

/-! State.updLane -/

@[simp] theorem updLane_pending (s : State) (l : LaneId) (f : Lane → Lane) : (s.updLane l f).pending = s.pending := by cases l <;> rfl
@[simp] theorem updLane_free (s : State) (l : LaneId) (f : Lane → Lane) : (s.updLane l f).free = s.free := by cases l <;> rfl
@[simp] theorem updLane_out (s : State) (l : LaneId) (f : Lane → Lane) : (s.updLane l f).out = s.out := by cases l <;> rfl
@[simp] theorem updLane_grid_eq (s : State) (l : LaneId) (f : Lane → Lane) : (s.updLane l f).grid = s.grid := by cases l <;> rfl
@[simp] theorem updLane_st (s : State) (l : LaneId) (f : Lane → Lane) : (s.updLane l f).st = s.st := by cases l <;> rfl
@[simp] theorem updLane_parts (s : State) (l : LaneId) (f : Lane → Lane) : (s.updLane l f).parts = s.parts := by cases l <;> rfl
@[simp] theorem updLane_isl (s : State) (l : LaneId) (f : Lane → Lane) : (s.updLane l f).isl = s.isl := by cases l <;> rfl
@[simp] theorem updLane_sk_eq (s : State) (l : LaneId) (f : Lane → Lane) : (s.updLane l f).sk = s.sk := by cases l <;> rfl
@[simp] theorem updLane_svc_eq (s : State) (l : LaneId) (f : Lane → Lane) : (s.updLane l f).svc = s.svc := by cases l <;> rfl

@[simp] theorem lane_updLane (s : State) (l : LaneId) (f : Lane → Lane) : (s.updLane l f).lane l = f (s.lane l) := by cases l <;> rfl
theorem lane_updLane_ne (s : State) (l m : LaneId) (f : Lane → Lane) (h : m ≠ l) : (s.updLane l f).lane m = s.lane m := by
  cases l <;> cases m <;> first | rfl | exact absurd rfl h
@[simp] theorem lane_updLane_other (s : State) (l : LaneId) (f : Lane → Lane) : (s.updLane l f).lane (other l) = s.lane (other l) := by
  cases l <;> rfl
@[simp] theorem part_updLane (s : State) (l : LaneId) (f : Lane → Lane) (p : Nat) : (s.updLane l f).part p = s.part p := by cases l <;> rfl
@[simp] theorem island_updLane (s : State) (l : LaneId) (f : Lane → Lane) (i : Nat) : (s.updLane l f).island i = s.island i := by
  cases l <;> rfl

/-! Reading back -/

@[simp] theorem updSt_st (s : State) (f : Station → Station) : (s.updSt f).st = f s.st := rfl
@[simp] theorem updSvc_svc (s : State) (f : Svc → Svc) : (s.updSvc f).svc = f s.svc := rfl
@[simp] theorem updRec_svc (s : State) (f : Recorder → Recorder) : (s.updRec f).svc = { s.svc with rcd := f s.svc.rcd } := rfl
@[simp] theorem updSk_sk_eq (s : State) (f : Sk → Sk) : (s.updSk f).sk = f s.sk := rfl
@[simp] theorem emit_out (s : State) (o : Out) : (s.emit o).out = s.out ++ [o] := rfl
@[simp] theorem takeFree_fst (s : State) : s.takeFree.1 = s.free := rfl
@[simp] theorem takeFree_free (s : State) : s.takeFree.2.free = s.free + 1 := rfl
@[simp] theorem part_updPart (s : State) (p : Nat) (f : Partition → Partition) : (s.updPart p f).part p = f (s.part p) := by
  simp [State.part, State.updPart]
theorem part_updPart_ne (s : State) (p q : Nat) (f : Partition → Partition) (h : q ≠ p) : (s.updPart p f).part q = s.part q := by
  simp [State.part, State.updPart, Tab.get_set_ne _ _ _ _ _ h]
@[simp] theorem island_updIsl (s : State) (i : Nat) (f : Island → Island) : (s.updIsl i f).island i = f (s.island i) := by
  simp [State.island, State.updIsl]
theorem island_updIsl_ne (s : State) (i j : Nat) (f : Island → Island) (h : j ≠ i) : (s.updIsl i f).island j = s.island j := by
  simp [State.island, State.updIsl, Tab.get_set_ne _ _ _ _ _ h]
@[simp] theorem mbox_updMb (s : State) (p : Nat) (u : Bool) (f : Mailbox → Mailbox) : (s.updMb p u f).mbox p u = f (s.mbox p u) := by
  cases u <;> simp [State.mbox, State.updMb]
@[simp] theorem mbox_updMb_not (s : State) (p : Nat) (u : Bool) (f : Mailbox → Mailbox) :
    (s.updMb p u f).mbox p (!u) = s.mbox p (!u) := by
  cases u <;> simp [State.mbox, State.updMb]
theorem mbox_updMb_ne (s : State) (p q : Nat) (u v : Bool) (f : Mailbox → Mailbox) (h : q ≠ p) : (s.updMb p u f).mbox q v = s.mbox q v := by
  simp [State.mbox, State.updMb, part_updPart_ne _ _ _ _ h]
@[simp] theorem island_updPart (s : State) (p : Nat) (f : Partition → Partition) (j : Nat) : (s.updPart p f).island j = s.island j := rfl
@[simp] theorem lane_updPart (s : State) (p : Nat) (f : Partition → Partition) (l : LaneId) : (s.updPart p f).lane l = s.lane l := by cases l <;> rfl
@[simp] theorem part_updIsl (s : State) (i : Nat) (f : Island → Island) (q : Nat) : (s.updIsl i f).part q = s.part q := rfl
@[simp] theorem mbox_updIsl (s : State) (i : Nat) (f : Island → Island) (q : Nat) (v : Bool) : (s.updIsl i f).mbox q v = s.mbox q v := rfl
@[simp] theorem lane_updIsl (s : State) (i : Nat) (f : Island → Island) (l : LaneId) : (s.updIsl i f).lane l = s.lane l := by cases l <;> rfl
@[simp] theorem part_updSt (s : State) (f : Station → Station) (q : Nat) : (s.updSt f).part q = s.part q := rfl
@[simp] theorem mbox_updSt (s : State) (f : Station → Station) (q : Nat) (v : Bool) : (s.updSt f).mbox q v = s.mbox q v := rfl
@[simp] theorem island_updSt (s : State) (f : Station → Station) (j : Nat) : (s.updSt f).island j = s.island j := rfl
@[simp] theorem lane_updSt (s : State) (f : Station → Station) (l : LaneId) : (s.updSt f).lane l = s.lane l := by cases l <;> rfl
@[simp] theorem part_updSvc (s : State) (f : Svc → Svc) (q : Nat) : (s.updSvc f).part q = s.part q := rfl
@[simp] theorem mbox_updSvc (s : State) (f : Svc → Svc) (q : Nat) (v : Bool) : (s.updSvc f).mbox q v = s.mbox q v := rfl
@[simp] theorem island_updSvc (s : State) (f : Svc → Svc) (j : Nat) : (s.updSvc f).island j = s.island j := rfl
@[simp] theorem lane_updSvc (s : State) (f : Svc → Svc) (l : LaneId) : (s.updSvc f).lane l = s.lane l := by cases l <;> rfl
@[simp] theorem part_updRec (s : State) (f : Recorder → Recorder) (q : Nat) : (s.updRec f).part q = s.part q := rfl
@[simp] theorem mbox_updRec (s : State) (f : Recorder → Recorder) (q : Nat) (v : Bool) : (s.updRec f).mbox q v = s.mbox q v := rfl
@[simp] theorem island_updRec (s : State) (f : Recorder → Recorder) (j : Nat) : (s.updRec f).island j = s.island j := rfl
@[simp] theorem lane_updRec (s : State) (f : Recorder → Recorder) (l : LaneId) : (s.updRec f).lane l = s.lane l := by cases l <;> rfl
@[simp] theorem part_updSk (s : State) (f : Sk → Sk) (q : Nat) : (s.updSk f).part q = s.part q := rfl
@[simp] theorem mbox_updSk (s : State) (f : Sk → Sk) (q : Nat) (v : Bool) : (s.updSk f).mbox q v = s.mbox q v := rfl
@[simp] theorem island_updSk (s : State) (f : Sk → Sk) (j : Nat) : (s.updSk f).island j = s.island j := rfl
@[simp] theorem lane_updSk (s : State) (f : Sk → Sk) (l : LaneId) : (s.updSk f).lane l = s.lane l := by cases l <;> rfl
@[simp] theorem island_updMb (s : State) (p : Nat) (u : Bool) (f : Mailbox → Mailbox) (j : Nat) : (s.updMb p u f).island j = s.island j := rfl
@[simp] theorem lane_updMb (s : State) (p : Nat) (u : Bool) (f : Mailbox → Mailbox) (l : LaneId) : (s.updMb p u f).lane l = s.lane l := by cases l <;> rfl
@[simp] theorem part_emit (s : State) (o : Out) (q : Nat) : (s.emit o).part q = s.part q := rfl
@[simp] theorem mbox_emit (s : State) (o : Out) (q : Nat) (v : Bool) : (s.emit o).mbox q v = s.mbox q v := rfl
@[simp] theorem island_emit (s : State) (o : Out) (j : Nat) : (s.emit o).island j = s.island j := rfl
@[simp] theorem lane_emit (s : State) (o : Out) (l : LaneId) : (s.emit o).lane l = s.lane l := by cases l <;> rfl
@[simp] theorem part_takeFree (s : State)  (q : Nat) : (s.takeFree.2).part q = s.part q := rfl
@[simp] theorem mbox_takeFree (s : State)  (q : Nat) (v : Bool) : (s.takeFree.2).mbox q v = s.mbox q v := rfl
@[simp] theorem island_takeFree (s : State)  (j : Nat) : (s.takeFree.2).island j = s.island j := rfl
@[simp] theorem lane_takeFree (s : State)  (l : LaneId) : (s.takeFree.2).lane l = s.lane l := by cases l <;> rfl
@[simp] theorem mbox_updLane (s : State) (l : LaneId) (f : Lane → Lane) (q : Nat) (v : Bool) : (s.updLane l f).mbox q v = s.mbox q v := by cases l <;> rfl

/-! Two updates of one place -/

@[simp] theorem updPart_updPart (s : State) (p : Nat) (f g : Partition → Partition) :
    (s.updPart p f).updPart p g = s.updPart p fun q => g (f q) := by
  simp [State.updPart, State.part]
@[simp] theorem updIsl_updIsl (s : State) (i : Nat) (f g : Island → Island) : (s.updIsl i f).updIsl i g = s.updIsl i fun v => g (f v) := by
  simp [State.updIsl, State.island]
@[simp] theorem updSt_updSt (s : State) (f g : Station → Station) : (s.updSt f).updSt g = s.updSt fun v => g (f v) := rfl
@[simp] theorem updSvc_updSvc (s : State) (f g : Svc → Svc) : (s.updSvc f).updSvc g = s.updSvc fun v => g (f v) := rfl
@[simp] theorem updLane_updLane (s : State) (l : LaneId) (f g : Lane → Lane) : (s.updLane l f).updLane l g = s.updLane l fun v => g (f v) := by
  cases l <;> rfl

/-! Memories written in a row -/

theorem Mem.wf_foldl_writeN {α : Type} (l : List α) (m : Mem) (a : α → Nat) (b : α → List Byte) (h : m.wf) :
    (l.foldl (fun (m : Mem) x => m.writeN (a x) (b x)) m).wf := by
  induction l generalizing m with
  | nil => exact h
  | cons x r ih => exact ih _ (Mem.wf_writeN _ _ _ h)

theorem bareImage_wf : bareImage.wf :=
  Mem.wf_foldl_writeN _ _ _ _ (Mem.wf_foldl_writeN _ _ _ _ Mem.wf_empty)

end Sys2Proof.Machine
end

