-- ==== Sys2Proof/Laws/Raise.lean ====
section
/-! SUPPORT. What a report leaves alone: everything but the event rings, the recorder's queue, the rate limits, the staging areas and the outputs. -/

namespace Sys2Proof.Machine

theorem Reports.refl (s : State) : Reports s s := ⟨rfl, fun _ => rfl⟩
theorem Reports.trans {s t u : State} (h : Reports s t) (g : Reports t u) : Reports s u :=
  ⟨g.rest.trans h.rest, fun p => (g.parts p).trans (h.parts p)⟩
theorem reports_updLane {s t : State} (h : Reports s t) (l : LaneId) (f : Lane → Lane)
    (hf : ∀ v, (f v).lessStaging = v.lessStaging) : Reports s (t.updLane l f) := by
  refine h.trans ⟨?_, fun _ => by cases l <;> rfl⟩
  cases l <;> simp only [State.updLane, State.setLane, State.lane, State.lessReports, hf]
theorem reports_updPart {s t : State} (h : Reports s t) (p : Nat) (f : Partition → Partition)
    (hf : (f (t.part p)).lessRing = (t.part p).lessRing) : Reports s (t.updPart p f) := by
  refine h.trans ⟨rfl, fun r => ?_⟩
  by_cases hr : r = p
  · subst hr; rw [part_updPart, hf]
  · rw [part_updPart_ne _ _ _ _ hr]
theorem reports_emit {s t : State} (h : Reports s t) (o : Out) : Reports s (t.emit o) := h.trans ⟨rfl, fun _ => rfl⟩
theorem updRec_reports {s t : State} (h : Reports s t) (f : Recorder → Recorder)
    (hf : { (f t.svc.rcd) with queue := [] } = { t.svc.rcd with queue := [] }) : Reports s (t.updRec f) := by
  refine h.trans ⟨?_, fun _ => rfl⟩
  show State.lessReports { t with svc := { t.svc with rcd := f t.svc.rcd } } = _
  simp only [State.lessReports, hf]
theorem reports_foldl {α : Type} (f : State → α → State) (xs : List α) (hf : ∀ s x, Reports s (f s x)) (s : State) :
    Reports s (xs.foldl f s) := by
  induction xs generalizing s with
  | nil => exact .refl s
  | cons x xs ih => exact (hf s x).trans (ih _)
theorem notify_reports (s : State) (p vec : Nat) : Reports s (notify s p vec) := by
  unfold notify; split
  · exact reports_emit (.refl s) _
  · unfold thlSend; split
    · exact .refl s
    · rename_i t ht; extract_lets n l r
      refine reports_emit ?_ _
      have h1 : Reports s (s.updPart p fun q => { q with thl := some { t with sent := n } }) :=
        reports_updPart (.refl s) p _ (by simp [Partition.lessRing, ht])
      simp only [r, sendBoth, countPort, State.updNet]
      refine reports_updLane (reports_updLane (reports_updLane h1 l _ ?_) l _ ?_) l _ ?_ <;> exact fun _ => rfl
theorem ringPut_reports (s : State) (p : Nat) (e : RingEntry) : Reports s (ringPut s p e) := by
  unfold ringPut; extract_lets q b s1 s2
  have h1 : Reports s s1 := by
    simp only [s1]; split
    · exact .refl s
    · exact reports_emit (.refl s) _
  have h2 : Reports s s2 := reports_updPart h1 _ _ rfl
  split
  · exact h2.trans (notify_reports _ _ _)
  · exact h2
theorem offerEvent_reports (s : State) (p : Nat) (e : RingEntry) : Reports s (offerEvent s p e) := by
  unfold offerEvent; extract_lets q
  split
  · split
    · exact ringPut_reports s p e
    · exact reports_updPart (.refl s) _ _ rfl
  · exact .refl s
theorem offerNonMaskable_reports (s : State) (p : Nat) (e : RingEntry) : Reports s (offerNonMaskable s p e) := by
  unfold offerNonMaskable; extract_lets q
  split
  · split
    · exact reports_updPart (ringPut_reports s p e) _ _ rfl
    · exact reports_updPart (.refl s) _ _ rfl
  · exact .refl s
theorem deliverEvent_reports (s : State) (e : RingEntry) : Reports s (deliverEvent s e) :=
  reports_foldl _ _ (fun s p => by split; exacts [offerNonMaskable_reports s p e, offerEvent_reports s p e]) s
theorem stageRecord_reports (s : State) (l : LaneId) (r : RawRec) : Reports s (stageRecord s l r) := by
  unfold stageRecord
  apply reports_updLane (.refl s)
  intro v
  extract_lets g
  generalize bucketJudge _ _ _ _ = x
  obtain ⟨ok, n, t⟩ := x
  rfl
theorem beginStaging_reports (s : State) (l : LaneId) : Reports s (beginStaging s l) := by
  unfold beginStaging; split
  · exact .refl s
  · extract_lets s1 d s2
    have h1 : Reports s s1 := reports_updLane (.refl s) l _ fun _ => rfl
    have h2 : Reports s1 s2 := deliverEvent_reports s1 _
    exact (h1.trans h2).trans (stageRecord_reports s2 l _)
theorem offerRecord_reports (s : State) (l : LaneId) (r : RawRec) : Reports s (offerRecord s l r) := by
  unfold offerRecord; split
  · exact stageRecord_reports s l r
  · split
    · exact (beginStaging_reports s l).trans (stageRecord_reports _ l r)
    · split
      · exact reports_updLane (.refl s) l _ fun _ => rfl
      · exact updRec_reports (.refl s) _ rfl
theorem report_reports (s : State) (e : Ev) (n : Nat) : Reports s (report s e n) := by
  unfold report; extract_lets s1
  refine Reports.trans (t := s1) ?_ (offerRecord_reports _ _ _)
  simp only [s1]; split
  · exact deliverEvent_reports s _
  · exact .refl s
theorem setLimit_reports (s : State) (l : LaneId) (k : Nat) (m : Limit) : Reports s (setLimit s l k m) := by
  unfold setLimit; split
  · exact reports_updLane (.refl s) l _ fun _ => rfl
  · refine ⟨?_, fun _ => rfl⟩
    show State.lessReports { s with st := { s.st with limits := s.st.limits.set k m } } = _
    simp only [State.lessReports]
theorem raise_reports (s : State) (e : Ev) : Reports s (raise s e) := by
  unfold raise
  split
  · exact report_reports s e 0
  · extract_lets k; split
    · exact (setLimit_reports ..).trans (report_reports _ _ _)
    · split
      · exact setLimit_reports ..
      · exact (setLimit_reports ..).trans (report_reports _ _ _)
theorem noteUnnamed_reports (s : State) (k : Unnamed) (l : LaneId) (b : List Byte) : Reports s (noteUnnamed s k l b) := raise_reports _ _
theorem redEvent_reports (s : State) (l : LaneId) (a b : Nat) (x : List Byte) : Reports s (redEvent s l a b x) := by
  unfold redEvent; exact raise_reports _ _
theorem tellUnnamed_reports (s : State) (p : Nat) (k : Unnamed) : Reports s (tellUnnamed s p k) :=
  (offerEvent_reports ..).trans (offerRecord_reports ..)

/-! What a report leaves alone, field by field -/

theorem Reports.pending {s t : State} (h : Reports s t) : t.pending = s.pending := (congrArg State.pending h.rest :)
theorem Reports.free {s t : State} (h : Reports s t) : t.free = s.free := (congrArg State.free h.rest :)
theorem Reports.grid {s t : State} (h : Reports s t) : t.grid = s.grid := (congrArg State.grid h.rest :)
theorem Reports.isl {s t : State} (h : Reports s t) : t.isl = s.isl := (congrArg State.isl h.rest :)
theorem Reports.sk {s t : State} (h : Reports s t) : t.sk = s.sk := (congrArg State.sk h.rest :)
theorem Reports.st {s t : State} (h : Reports s t) : { t.st with limits := [] } = { s.st with limits := [] } := (congrArg State.st h.rest :)
theorem Reports.lane {s t : State} (h : Reports s t) (l : LaneId) : (t.lane l).lessStaging = (s.lane l).lessStaging := by
  cases l; exacts [(congrArg State.a h.rest :), (congrArg State.b h.rest :)]
@[simp] theorem raise_pending (s : State) (e : Ev) : (raise s e).pending = s.pending := (raise_reports s e).pending
@[simp] theorem raise_free (s : State) (e : Ev) : (raise s e).free = s.free := (raise_reports s e).free
@[simp] theorem raise_grid (s : State) (e : Ev) : (raise s e).grid = s.grid := (raise_reports s e).grid
@[simp] theorem raise_isl (s : State) (e : Ev) : (raise s e).isl = s.isl := (raise_reports s e).isl
@[simp] theorem raise_sk (s : State) (e : Ev) : (raise s e).sk = s.sk := (raise_reports s e).sk
@[simp] theorem raise_st_phase (s : State) (e : Ev) : (raise s e).st.phase = s.st.phase := (congrArg Station.phase (raise_reports s e).st :)
@[simp] theorem raise_st_ready (s : State) (e : Ev) : (raise s e).st.ready = s.st.ready := (congrArg Station.ready (raise_reports s e).st :)
@[simp] theorem raise_st_stopCause (s : State) (e : Ev) : (raise s e).st.stopCause = s.st.stopCause := (congrArg Station.stopCause (raise_reports s e).st :)
@[simp] theorem raise_st_stopArg (s : State) (e : Ev) : (raise s e).st.stopArg = s.st.stopArg := (congrArg Station.stopArg (raise_reports s e).st :)
@[simp] theorem raise_st_startAt (s : State) (e : Ev) : (raise s e).st.startAt = s.st.startAt := (congrArg Station.startAt (raise_reports s e).st :)
@[simp] theorem raise_st_stopAt (s : State) (e : Ev) : (raise s e).st.stopAt = s.st.stopAt := (congrArg Station.stopAt (raise_reports s e).st :)
@[simp] theorem raise_st_cfg (s : State) (e : Ev) : (raise s e).st.cfg = s.st.cfg := (congrArg Station.cfg (raise_reports s e).st :)
@[simp] theorem raise_st_cfgCrc (s : State) (e : Ev) : (raise s e).st.cfgCrc = s.st.cfgCrc := (congrArg Station.cfgCrc (raise_reports s e).st :)
@[simp] theorem raise_st_prog (s : State) (e : Ev) : (raise s e).st.prog = s.st.prog := (congrArg Station.prog (raise_reports s e).st :)
@[simp] theorem raise_st_access (s : State) (e : Ev) : (raise s e).st.access = s.st.access := (congrArg Station.access (raise_reports s e).st :)
@[simp] theorem raise_st_accessImage (s : State) (e : Ev) : (raise s e).st.accessImage = s.st.accessImage := (congrArg Station.accessImage (raise_reports s e).st :)
@[simp] theorem raise_st_cfgImage (s : State) (e : Ev) : (raise s e).st.cfgImage = s.st.cfgImage := (congrArg Station.cfgImage (raise_reports s e).st :)
@[simp] theorem raise_st_safety (s : State) (e : Ev) : (raise s e).st.safety = s.st.safety := (congrArg Station.safety (raise_reports s e).st :)
@[simp] theorem raise_st_safetyAccepted (s : State) (e : Ev) : (raise s e).st.safetyAccepted = s.st.safetyAccepted := (congrArg Station.safetyAccepted (raise_reports s e).st :)
@[simp] theorem raise_st_stage (s : State) (e : Ev) : (raise s e).st.stage = s.st.stage := (congrArg Station.stage (raise_reports s e).st :)
@[simp] theorem raise_st_commit (s : State) (e : Ev) : (raise s e).st.commit = s.st.commit := (congrArg Station.commit (raise_reports s e).st :)
@[simp] theorem raise_st_lock (s : State) (e : Ev) : (raise s e).st.lock = s.st.lock := (congrArg Station.lock (raise_reports s e).st :)
@[simp] theorem raise_st_wrongProofs (s : State) (e : Ev) : (raise s e).st.wrongProofs = s.st.wrongProofs := (congrArg Station.wrongProofs (raise_reports s e).st :)
@[simp] theorem raise_st_lockout (s : State) (e : Ev) : (raise s e).st.lockout = s.st.lockout := (congrArg Station.lockout (raise_reports s e).st :)
@[simp] theorem raise_st_lockoutAt (s : State) (e : Ev) : (raise s e).st.lockoutAt = s.st.lockoutAt := (congrArg Station.lockoutAt (raise_reports s e).st :)
@[simp] theorem raise_st_batches (s : State) (e : Ev) : (raise s e).st.batches = s.st.batches := (congrArg Station.batches (raise_reports s e).st :)
@[simp] theorem raise_st_mpu (s : State) (e : Ev) : (raise s e).st.mpu = s.st.mpu := (congrArg Station.mpu (raise_reports s e).st :)
@[simp] theorem raise_st_cold (s : State) (e : Ev) : (raise s e).st.cold = s.st.cold := (congrArg Station.cold (raise_reports s e).st :)
@[simp] theorem raise_st_roleAsks (s : State) (e : Ev) : (raise s e).st.roleAsks = s.st.roleAsks := (congrArg Station.roleAsks (raise_reports s e).st :)
@[simp] theorem raise_st_hasRun (s : State) (e : Ev) : (raise s e).st.hasRun = s.st.hasRun := (congrArg Station.hasRun (raise_reports s e).st :)
@[simp] theorem raise_st_bulkQueue (s : State) (e : Ev) : (raise s e).st.bulkQueue = s.st.bulkQueue := (congrArg Station.bulkQueue (raise_reports s e).st :)
@[simp] theorem raise_st_orderNo (s : State) (e : Ev) : (raise s e).st.orderNo = s.st.orderNo := (congrArg Station.orderNo (raise_reports s e).st :)
@[simp] theorem raise_st_ends (s : State) (e : Ev) : (raise s e).st.ends = s.st.ends := (congrArg Station.ends (raise_reports s e).st :)
@[simp] theorem raise_st_power (s : State) (e : Ev) : (raise s e).st.power = s.st.power := (congrArg Station.power (raise_reports s e).st :)
@[simp] theorem raise_st_referee (s : State) (e : Ev) : (raise s e).st.referee = s.st.referee := (congrArg Station.referee (raise_reports s e).st :)
@[simp] theorem raise_st_dimOp (s : State) (e : Ev) : (raise s e).st.dimOp = s.st.dimOp := (congrArg Station.dimOp (raise_reports s e).st :)
@[simp] theorem raise_st_loopStage (s : State) (e : Ev) : (raise s e).st.loopStage = s.st.loopStage := (congrArg Station.loopStage (raise_reports s e).st :)
@[simp] theorem raise_st_loopModes (s : State) (e : Ev) : (raise s e).st.loopModes = s.st.loopModes := (congrArg Station.loopModes (raise_reports s e).st :)
@[simp] theorem raise_st_loopParams (s : State) (e : Ev) : (raise s e).st.loopParams = s.st.loopParams := (congrArg Station.loopParams (raise_reports s e).st :)
@[simp] theorem raise_st_engaged (s : State) (e : Ev) : (raise s e).st.engaged = s.st.engaged := (congrArg Station.engaged (raise_reports s e).st :)
@[simp] theorem raise_st_pfStep (s : State) (e : Ev) : (raise s e).st.pfStep = s.st.pfStep := (congrArg Station.pfStep (raise_reports s e).st :)
@[simp] theorem raise_st_shut (s : State) (e : Ev) : (raise s e).st.shut = s.st.shut := (congrArg Station.shut (raise_reports s e).st :)
@[simp] theorem raise_st_lastStatus (s : State) (e : Ev) : (raise s e).st.lastStatus = s.st.lastStatus := (congrArg Station.lastStatus (raise_reports s e).st :)
@[simp] theorem raise_lane_feed (s : State) (e : Ev) (l : LaneId) : ((raise s e).lane l).feed = (s.lane l).feed := (congrArg Lane.feed ((raise_reports s e).lane l) :)
@[simp] theorem raise_lane_phase (s : State) (e : Ev) (l : LaneId) : ((raise s e).lane l).phase = (s.lane l).phase := (congrArg Lane.phase ((raise_reports s e).lane l) :)
@[simp] theorem raise_lane_cidOk (s : State) (e : Ev) (l : LaneId) : ((raise s e).lane l).cidOk = (s.lane l).cidOk := (congrArg Lane.cidOk ((raise_reports s e).lane l) :)
@[simp] theorem raise_lane_winUp (s : State) (e : Ev) (l : LaneId) : ((raise s e).lane l).winUp = (s.lane l).winUp := (congrArg Lane.winUp ((raise_reports s e).lane l) :)
@[simp] theorem raise_lane_clkQual (s : State) (e : Ev) (l : LaneId) : ((raise s e).lane l).clkQual = (s.lane l).clkQual := (congrArg Lane.clkQual ((raise_reports s e).lane l) :)
@[simp] theorem raise_lane_rolesStep (s : State) (e : Ev) (l : LaneId) : ((raise s e).lane l).rolesStep = (s.lane l).rolesStep := (congrArg Lane.rolesStep ((raise_reports s e).lane l) :)
@[simp] theorem raise_lane_startDone (s : State) (e : Ev) (l : LaneId) : ((raise s e).lane l).startDone = (s.lane l).startDone := (congrArg Lane.startDone ((raise_reports s e).lane l) :)
@[simp] theorem raise_lane_failStep (s : State) (e : Ev) (l : LaneId) : ((raise s e).lane l).failStep = (s.lane l).failStep := (congrArg Lane.failStep ((raise_reports s e).lane l) :)
@[simp] theorem raise_lane_failCode (s : State) (e : Ev) (l : LaneId) : ((raise s e).lane l).failCode = (s.lane l).failCode := (congrArg Lane.failCode ((raise_reports s e).lane l) :)
@[simp] theorem raise_lane_mac (s : State) (e : Ev) (l : LaneId) : ((raise s e).lane l).mac = (s.lane l).mac := (congrArg Lane.mac ((raise_reports s e).lane l) :)
@[simp] theorem raise_lane_fw (s : State) (e : Ev) (l : LaneId) : ((raise s e).lane l).fw = (s.lane l).fw := (congrArg Lane.fw ((raise_reports s e).lane l) :)
@[simp] theorem raise_lane_role (s : State) (e : Ev) (l : LaneId) : ((raise s e).lane l).role = (s.lane l).role := (congrArg Lane.role ((raise_reports s e).lane l) :)
@[simp] theorem raise_lane_cause (s : State) (e : Ev) (l : LaneId) : ((raise s e).lane l).cause = (s.lane l).cause := (congrArg Lane.cause ((raise_reports s e).lane l) :)
@[simp] theorem raise_lane_health (s : State) (e : Ev) (l : LaneId) : ((raise s e).lane l).health = (s.lane l).health := (congrArg Lane.health ((raise_reports s e).lane l) :)
@[simp] theorem raise_lane_suspect (s : State) (e : Ev) (l : LaneId) : ((raise s e).lane l).suspect = (s.lane l).suspect := (congrArg Lane.suspect ((raise_reports s e).lane l) :)
@[simp] theorem raise_lane_feedCycled (s : State) (e : Ev) (l : LaneId) : ((raise s e).lane l).feedCycled = (s.lane l).feedCycled := (congrArg Lane.feedCycled ((raise_reports s e).lane l) :)
@[simp] theorem raise_lane_needCycle (s : State) (e : Ev) (l : LaneId) : ((raise s e).lane l).needCycle = (s.lane l).needCycle := (congrArg Lane.needCycle ((raise_reports s e).lane l) :)
@[simp] theorem raise_lane_endsSeen (s : State) (e : Ev) (l : LaneId) : ((raise s e).lane l).endsSeen = (s.lane l).endsSeen := (congrArg Lane.endsSeen ((raise_reports s e).lane l) :)
@[simp] theorem raise_lane_sent (s : State) (e : Ev) (l : LaneId) : ((raise s e).lane l).sent = (s.lane l).sent := (congrArg Lane.sent ((raise_reports s e).lane l) :)
@[simp] theorem raise_lane_takeover (s : State) (e : Ev) (l : LaneId) : ((raise s e).lane l).takeover = (s.lane l).takeover := (congrArg Lane.takeover ((raise_reports s e).lane l) :)
@[simp] theorem raise_lane_img (s : State) (e : Ev) (l : LaneId) : ((raise s e).lane l).img = (s.lane l).img := (congrArg Lane.img ((raise_reports s e).lane l) :)
@[simp] theorem raise_lane_frozen (s : State) (e : Ev) (l : LaneId) : ((raise s e).lane l).frozen = (s.lane l).frozen := (congrArg Lane.frozen ((raise_reports s e).lane l) :)
@[simp] theorem raise_lane_frozenTick (s : State) (e : Ev) (l : LaneId) : ((raise s e).lane l).frozenTick = (s.lane l).frozenTick := (congrArg Lane.frozenTick ((raise_reports s e).lane l) :)
@[simp] theorem raise_lane_tmpl (s : State) (e : Ev) (l : LaneId) : ((raise s e).lane l).tmpl = (s.lane l).tmpl := (congrArg Lane.tmpl ((raise_reports s e).lane l) :)
@[simp] theorem raise_lane_arrived (s : State) (e : Ev) (l : LaneId) : ((raise s e).lane l).arrived = (s.lane l).arrived := (congrArg Lane.arrived ((raise_reports s e).lane l) :)
@[simp] theorem raise_lane_skPdus (s : State) (e : Ev) (l : LaneId) : ((raise s e).lane l).skPdus = (s.lane l).skPdus := (congrArg Lane.skPdus ((raise_reports s e).lane l) :)
@[simp] theorem raise_lane_swapTick (s : State) (e : Ev) (l : LaneId) : ((raise s e).lane l).swapTick = (s.lane l).swapTick := (congrArg Lane.swapTick ((raise_reports s e).lane l) :)
@[simp] theorem raise_lane_mxTick (s : State) (e : Ev) (l : LaneId) : ((raise s e).lane l).mxTick = (s.lane l).mxTick := (congrArg Lane.mxTick ((raise_reports s e).lane l) :)
@[simp] theorem raise_lane_lateBase (s : State) (e : Ev) (l : LaneId) : ((raise s e).lane l).lateBase = (s.lane l).lateBase := (congrArg Lane.lateBase ((raise_reports s e).lane l) :)
@[simp] theorem raise_lane_loopLate (s : State) (e : Ev) (l : LaneId) : ((raise s e).lane l).loopLate = (s.lane l).loopLate := (congrArg Lane.loopLate ((raise_reports s e).lane l) :)
@[simp] theorem raise_lane_linkCnt (s : State) (e : Ev) (l : LaneId) : ((raise s e).lane l).linkCnt = (s.lane l).linkCnt := (congrArg Lane.linkCnt ((raise_reports s e).lane l) :)
@[simp] theorem raise_lane_linkLost (s : State) (e : Ev) (l : LaneId) : ((raise s e).lane l).linkLost = (s.lane l).linkLost := (congrArg Lane.linkLost ((raise_reports s e).lane l) :)
@[simp] theorem raise_lane_clocks (s : State) (e : Ev) (l : LaneId) : ((raise s e).lane l).clocks = (s.lane l).clocks := (congrArg Lane.clocks ((raise_reports s e).lane l) :)
@[simp] theorem raise_lane_opp (s : State) (e : Ev) (l : LaneId) : ((raise s e).lane l).opp = (s.lane l).opp := (congrArg Lane.opp ((raise_reports s e).lane l) :)
@[simp] theorem raise_lane_lit (s : State) (e : Ev) (l : LaneId) : ((raise s e).lane l).lit = (s.lane l).lit := (congrArg Lane.lit ((raise_reports s e).lane l) :)
@[simp] theorem raise_lane_hold (s : State) (e : Ev) (l : LaneId) : ((raise s e).lane l).hold = (s.lane l).hold := (congrArg Lane.hold ((raise_reports s e).lane l) :)
@[simp] theorem raise_lane_beat (s : State) (e : Ev) (l : LaneId) : ((raise s e).lane l).beat = (s.lane l).beat := (congrArg Lane.beat ((raise_reports s e).lane l) :)
@[simp] theorem raise_lane_tok (s : State) (e : Ev) (l : LaneId) : ((raise s e).lane l).tok = (s.lane l).tok := (congrArg Lane.tok ((raise_reports s e).lane l) :)
@[simp] theorem raise_lane_mirror (s : State) (e : Ev) (l : LaneId) : ((raise s e).lane l).mirror = (s.lane l).mirror := (congrArg Lane.mirror ((raise_reports s e).lane l) :)
@[simp] theorem raise_lane_reint (s : State) (e : Ev) (l : LaneId) : ((raise s e).lane l).reint = (s.lane l).reint := (congrArg Lane.reint ((raise_reports s e).lane l) :)
@[simp] theorem raise_lane_be (s : State) (e : Ev) (l : LaneId) : ((raise s e).lane l).be = (s.lane l).be := (congrArg Lane.be ((raise_reports s e).lane l) :)
@[simp] theorem raise_lane_loops (s : State) (e : Ev) (l : LaneId) : ((raise s e).lane l).loops = (s.lane l).loops := (congrArg Lane.loops ((raise_reports s e).lane l) :)
@[simp] theorem raise_lane_chains (s : State) (e : Ev) (l : LaneId) : ((raise s e).lane l).chains = (s.lane l).chains := (congrArg Lane.chains ((raise_reports s e).lane l) :)
@[simp] theorem raise_lane_can (s : State) (e : Ev) (l : LaneId) : ((raise s e).lane l).can = (s.lane l).can := (congrArg Lane.can ((raise_reports s e).lane l) :)
@[simp] theorem raise_part_bus (s : State) (e : Ev) (p : Nat) : ((raise s e).part p).bus = (s.part p).bus := (congrArg Partition.bus ((raise_reports s e).parts p) :)
@[simp] theorem raise_part_lane (s : State) (e : Ev) (p : Nat) : ((raise s e).part p).lane = (s.part p).lane := (congrArg Partition.lane ((raise_reports s e).parts p) :)
@[simp] theorem raise_part_att (s : State) (e : Ev) (p : Nat) : ((raise s e).part p).att = (s.part p).att := (congrArg Partition.att ((raise_reports s e).parts p) :)
@[simp] theorem raise_part_roleReq (s : State) (e : Ev) (p : Nat) : ((raise s e).part p).roleReq = (s.part p).roleReq := (congrArg Partition.roleReq ((raise_reports s e).parts p) :)
@[simp] theorem raise_part_grace (s : State) (e : Ev) (p : Nat) : ((raise s e).part p).grace = (s.part p).grace := (congrArg Partition.grace ((raise_reports s e).parts p) :)
@[simp] theorem raise_part_resuming (s : State) (e : Ev) (p : Nat) : ((raise s e).part p).resuming = (s.part p).resuming := (congrArg Partition.resuming ((raise_reports s e).parts p) :)
@[simp] theorem raise_part_evEn (s : State) (e : Ev) (p : Nat) : ((raise s e).part p).evEn = (s.part p).evEn := (congrArg Partition.evEn ((raise_reports s e).parts p) :)
@[simp] theorem raise_part_evIrqEn (s : State) (e : Ev) (p : Nat) : ((raise s e).part p).evIrqEn = (s.part p).evIrqEn := (congrArg Partition.evIrqEn ((raise_reports s e).parts p) :)
@[simp] theorem raise_part_mbIrqEn (s : State) (e : Ev) (p : Nat) : ((raise s e).part p).mbIrqEn = (s.part p).mbIrqEn := (congrArg Partition.mbIrqEn ((raise_reports s e).parts p) :)
@[simp] theorem raise_part_slowDrop (s : State) (e : Ev) (p : Nat) : ((raise s e).part p).slowDrop = (s.part p).slowDrop := (congrArg Partition.slowDrop ((raise_reports s e).parts p) :)
@[simp] theorem raise_part_wideLost (s : State) (e : Ev) (p : Nat) : ((raise s e).part p).wideLost = (s.part p).wideLost := (congrArg Partition.wideLost ((raise_reports s e).parts p) :)
@[simp] theorem raise_part_tail (s : State) (e : Ev) (p : Nat) : ((raise s e).part p).tail = (s.part p).tail := (congrArg Partition.tail ((raise_reports s e).parts p) :)
@[simp] theorem raise_part_latTol (s : State) (e : Ev) (p : Nat) : ((raise s e).part p).latTol = (s.part p).latTol := (congrArg Partition.latTol ((raise_reports s e).parts p) :)
@[simp] theorem raise_part_latEff (s : State) (e : Ev) (p : Nat) : ((raise s e).part p).latEff = (s.part p).latEff := (congrArg Partition.latEff ((raise_reports s e).parts p) :)
@[simp] theorem raise_part_wide (s : State) (e : Ev) (p : Nat) : ((raise s e).part p).wide = (s.part p).wide := (congrArg Partition.wide ((raise_reports s e).parts p) :)
@[simp] theorem raise_part_slow (s : State) (e : Ev) (p : Nat) : ((raise s e).part p).slow = (s.part p).slow := (congrArg Partition.slow ((raise_reports s e).parts p) :)
@[simp] theorem raise_part_main (s : State) (e : Ev) (p : Nat) : ((raise s e).part p).main = (s.part p).main := (congrArg Partition.main ((raise_reports s e).parts p) :)
@[simp] theorem raise_part_urg (s : State) (e : Ev) (p : Nat) : ((raise s e).part p).urg = (s.part p).urg := (congrArg Partition.urg ((raise_reports s e).parts p) :)
@[simp] theorem raise_part_regions (s : State) (e : Ev) (p : Nat) : ((raise s e).part p).regions = (s.part p).regions := (congrArg Partition.regions ((raise_reports s e).parts p) :)
@[simp] theorem raise_part_ringRegion (s : State) (e : Ev) (p : Nat) : ((raise s e).part p).ringRegion = (s.part p).ringRegion := (congrArg Partition.ringRegion ((raise_reports s e).parts p) :)
@[simp] theorem raise_part_sub (s : State) (e : Ev) (p : Nat) : ((raise s e).part p).sub = (s.part p).sub := (congrArg Partition.sub ((raise_reports s e).parts p) :)
@[simp] theorem raise_part_subNext (s : State) (e : Ev) (p : Nat) : ((raise s e).part p).subNext = (s.part p).subNext := (congrArg Partition.subNext ((raise_reports s e).parts p) :)
@[simp] theorem raise_part_session (s : State) (e : Ev) (p : Nat) : ((raise s e).part p).session = (s.part p).session := (congrArg Partition.session ((raise_reports s e).parts p) :)
@[simp] theorem raise_part_nonce (s : State) (e : Ev) (p : Nat) : ((raise s e).part p).nonce = (s.part p).nonce := (congrArg Partition.nonce ((raise_reports s e).parts p) :)
@[simp] theorem raise_part_rtc (s : State) (e : Ev) (p : Nat) : ((raise s e).part p).rtc = (s.part p).rtc := (congrArg Partition.rtc ((raise_reports s e).parts p) :)
@[simp] theorem raise_part_pnl (s : State) (e : Ev) (p : Nat) : ((raise s e).part p).pnl = (s.part p).pnl := (congrArg Partition.pnl ((raise_reports s e).parts p) :)
@[simp] theorem raise_part_cartFlags (s : State) (e : Ev) (p : Nat) : ((raise s e).part p).cartFlags = (s.part p).cartFlags := (congrArg Partition.cartFlags ((raise_reports s e).parts p) :)
@[simp] theorem raise_svc_up (s : State) (e : Ev) : (raise s e).svc.up = s.svc.up := (congrArg (fun s => s.svc.up) (raise_reports s e).rest :)
@[simp] theorem raise_svc_rtc (s : State) (e : Ev) : (raise s e).svc.rtc = s.svc.rtc := (congrArg (fun s => s.svc.rtc) (raise_reports s e).rest :)
@[simp] theorem raise_svc_sup (s : State) (e : Ev) : (raise s e).svc.sup = s.svc.sup := (congrArg (fun s => s.svc.sup) (raise_reports s e).rest :)
@[simp] theorem raise_svc_cart (s : State) (e : Ev) : (raise s e).svc.cart = s.svc.cart := (congrArg (fun s => s.svc.cart) (raise_reports s e).rest :)
@[simp] theorem raise_svc_pnl (s : State) (e : Ev) : (raise s e).svc.pnl = s.svc.pnl := (congrArg (fun s => s.svc.pnl) (raise_reports s e).rest :)
@[simp] theorem raise_svc_clk (s : State) (e : Ev) : (raise s e).svc.clk = s.svc.clk := (congrArg (fun s => s.svc.clk) (raise_reports s e).rest :)
@[simp] theorem raise_rcd_optime (s : State) (e : Ev) : (raise s e).svc.rcd.optime = s.svc.rcd.optime := (congrArg (fun s => s.svc.rcd.optime) (raise_reports s e).rest :)
@[simp] theorem raise_rcd_pcycle (s : State) (e : Ev) : (raise s e).svc.rcd.pcycle = s.svc.rcd.pcycle := (congrArg (fun s => s.svc.rcd.pcycle) (raise_reports s e).rest :)
@[simp] theorem raise_rcd_stepAt (s : State) (e : Ev) : (raise s e).svc.rcd.stepAt = s.svc.rcd.stepAt := (congrArg (fun s => s.svc.rcd.stepAt) (raise_reports s e).rest :)
@[simp] theorem raise_rcd_next (s : State) (e : Ev) : (raise s e).svc.rcd.next = s.svc.rcd.next := (congrArg (fun s => s.svc.rcd.next) (raise_reports s e).rest :)
@[simp] theorem raise_rcd_clearBase (s : State) (e : Ev) : (raise s e).svc.rcd.clearBase = s.svc.rcd.clearBase := (congrArg (fun s => s.svc.rcd.clearBase) (raise_reports s e).rest :)
@[simp] theorem raise_rcd_ring (s : State) (e : Ev) : (raise s e).svc.rcd.ring = s.svc.rcd.ring := (congrArg (fun s => s.svc.rcd.ring) (raise_reports s e).rest :)
@[simp] theorem raise_rcd_buckets (s : State) (e : Ev) : (raise s e).svc.rcd.buckets = s.svc.rcd.buckets := (congrArg (fun s => s.svc.rcd.buckets) (raise_reports s e).rest :)
@[simp] theorem raise_rcd_bank0 (s : State) (e : Ev) : (raise s e).svc.rcd.bank0 = s.svc.rcd.bank0 := (congrArg (fun s => s.svc.rcd.bank0) (raise_reports s e).rest :)
@[simp] theorem raise_rcd_bank1 (s : State) (e : Ev) : (raise s e).svc.rcd.bank1 = s.svc.rcd.bank1 := (congrArg (fun s => s.svc.rcd.bank1) (raise_reports s e).rest :)
@[simp] theorem raise_rcd_offered (s : State) (e : Ev) : (raise s e).svc.rcd.offered = s.svc.rcd.offered := (congrArg (fun s => s.svc.rcd.offered) (raise_reports s e).rest :)
@[simp] theorem raise_rcd_writing (s : State) (e : Ev) : (raise s e).svc.rcd.writing = s.svc.rcd.writing := (congrArg (fun s => s.svc.rcd.writing) (raise_reports s e).rest :)
@[simp] theorem raise_rcd_waiting (s : State) (e : Ev) : (raise s e).svc.rcd.waiting = s.svc.rcd.waiting := (congrArg (fun s => s.svc.rcd.waiting) (raise_reports s e).rest :)
@[simp] theorem raise_rcd_skipped (s : State) (e : Ev) : (raise s e).svc.rcd.skipped = s.svc.rcd.skipped := (congrArg (fun s => s.svc.rcd.skipped) (raise_reports s e).rest :)
@[simp] theorem raise_rcd_seals (s : State) (e : Ev) : (raise s e).svc.rcd.seals = s.svc.rcd.seals := (congrArg (fun s => s.svc.rcd.seals) (raise_reports s e).rest :)
@[simp] theorem raise_rcd_anchor (s : State) (e : Ev) : (raise s e).svc.rcd.anchor = s.svc.rcd.anchor := (congrArg (fun s => s.svc.rcd.anchor) (raise_reports s e).rest :)
@[simp] theorem raise_rcd_periodFrom (s : State) (e : Ev) : (raise s e).svc.rcd.periodFrom = s.svc.rcd.periodFrom := (congrArg (fun s => s.svc.rcd.periodFrom) (raise_reports s e).rest :)

theorem activeLane_congr {s t : State} (h : ∀ l, (t.lane l).role = (s.lane l).role) : t.activeLane = s.activeLane := by
  have ha : t.a.role = s.a.role := h .a
  have hb : t.b.role = s.b.role := h .b
  unfold State.activeLane; rw [ha, hb]
theorem standbyLane_congr {s t : State} (h : ∀ l, (t.lane l).role = (s.lane l).role) : t.standbyLane = s.standbyLane := by
  have ha : t.a.role = s.a.role := h .a
  have hb : t.b.role = s.b.role := h .b
  unfold State.standbyLane; rw [ha, hb]
@[simp] theorem raise_activeLane (s : State) (e : Ev) : (raise s e).activeLane = s.activeLane := activeLane_congr fun l => raise_lane_role s e l
@[simp] theorem raise_standbyLane (s : State) (e : Ev) : (raise s e).standbyLane = s.standbyLane := standbyLane_congr fun l => raise_lane_role s e l
@[simp] theorem raise_mainLane (s : State) (e : Ev) : (raise s e).mainLane = s.mainLane := by
  simp only [State.mainLane, raise_activeLane]
@[simp] theorem raise_island (s : State) (e : Ev) (i : Nat) : (raise s e).island i = s.island i := by
  simp only [State.island, raise_isl]
@[simp] theorem raise_mbox (s : State) (e : Ev) (p : Nat) (u : Bool) : (raise s e).mbox p u = s.mbox p u := by
  cases u <;> simp [State.mbox]
@[simp] theorem raise_tickNo (s : State) (e : Ev) : (raise s e).tickNo = s.tickNo := by
  simp only [State.tickNo, raise_grid]
@[simp] theorem raise_cfgRec (s : State) (e : Ev) (a b : Nat) : (raise s e).cfgRec a b = s.cfgRec a b := by
  simp only [State.cfgRec, State.cfgRecs, raise_st_cfg]

/-! Updates on both sides -/

/-- A partition with the event ring of another. -/
def Partition.ringOf (q r : Partition) : Partition :=
  { q with ring := r.ring, held := r.held, head := r.head, ringNe := r.ringNe, ringOvf := r.ringOvf, nmPend := r.nmPend,
           thl := r.thl }
theorem Partition.eq_ringOf {q r : Partition} (h : q.lessRing = r.lessRing) : q = r.ringOf q :=
  calc q = q.lessRing.ringOf q := rfl
    _ = r.lessRing.ringOf q := by rw [h]
    _ = r.ringOf q := rfl
/-- A lane with the staging area and the counts of sent frames of another. -/
def Lane.sentOf (v w : Lane) : Lane :=
  { v with staging := w.staging, net := { v.net with cnt := w.net.cnt, prpSeq := w.net.prpSeq } }
theorem Lane.eq_sentOf {v w : Lane} (h : v.lessStaging = w.lessStaging) : v = w.sentOf v :=
  calc v = v.lessStaging.sentOf v := rfl
    _ = w.lessStaging.sentOf v := by rw [h]
    _ = w.sentOf v := rfl
theorem Reports.st_eq {s t : State} (h : Reports s t) : t.st = { s.st with limits := t.st.limits } :=
  calc t.st = { ({ t.st with limits := [] } : Station) with limits := t.st.limits } := rfl
    _ = { ({ s.st with limits := [] } : Station) with limits := t.st.limits } := by rw [h.st]
    _ = { s.st with limits := t.st.limits } := rfl
theorem Reports.updPart {s t : State} (h : Reports s t) (p : Nat) (f : Partition → Partition)
    (hf : ∀ q r, f (q.ringOf r) = (f q).ringOf r := by intros; rfl) : Reports (s.updPart p f) (t.updPart p f) := by
  refine ⟨h.rest, fun r => ?_⟩
  by_cases hr : r = p
  · subst hr; rw [part_updPart, part_updPart, Partition.eq_ringOf (h.parts r), hf]
    have e : (f (s.part r)).thl = (s.part r).thl := (congrArg Partition.thl (hf (s.part r) (s.part r)) :)
    have g : (t.part r).thl.map (fun x => { x with sent := 0 }) = (s.part r).thl.map fun x => { x with sent := 0 } :=
      (congrArg Partition.thl (h.parts r) :)
    simp only [Partition.lessRing, Partition.ringOf, g, e]
  · rw [part_updPart_ne _ _ _ _ hr, part_updPart_ne _ _ _ _ hr]; exact h.parts r
theorem Reports.updSt {s t : State} (h : Reports s t) (f : Station → Station)
    (hf : ∀ x l, f { x with limits := l } = { f x with limits := l } := by intros; rfl) : Reports (s.updSt f) (t.updSt f) := by
  have e : { f t.st with limits := [] } = { f s.st with limits := [] } := by rw [h.st_eq, hf]
  refine ⟨?_, h.parts⟩
  calc (t.updSt f).lessReports = { t.lessReports with st := { f t.st with limits := [] } } := rfl
    _ = { s.lessReports with st := { f s.st with limits := [] } } := by rw [h.rest, e]
    _ = (s.updSt f).lessReports := rfl
theorem Reports.updLane {s t : State} (h : Reports s t) (l : LaneId) (f : Lane → Lane)
    (hf : ∀ v w, f (v.sentOf w) = (f v).sentOf w := by intros; rfl) : Reports (s.updLane l f) (t.updLane l f) := by
  have e : (f (t.lane l)).lessStaging = (f (s.lane l)).lessStaging := by rw [Lane.eq_sentOf (h.lane l), hf]; rfl
  refine ⟨?_, fun p => by rw [part_updLane, part_updLane]; exact h.parts p⟩
  cases l
  · calc (t.updLane .a f).lessReports = { t.lessReports with a := (f t.a).lessStaging } := rfl
      _ = { s.lessReports with a := (f s.a).lessStaging } := by rw [h.rest, show (f t.a).lessStaging = (f s.a).lessStaging from e]
      _ = (s.updLane .a f).lessReports := rfl
  · calc (t.updLane .b f).lessReports = { t.lessReports with b := (f t.b).lessStaging } := rfl
      _ = { s.lessReports with b := (f s.b).lessStaging } := by rw [h.rest, show (f t.b).lessStaging = (f s.b).lessStaging from e]
      _ = (s.updLane .b f).lessReports := rfl
theorem Reports.updIsl {s t : State} (h : Reports s t) (i : Nat) (f : Island → Island) : Reports (s.updIsl i f) (t.updIsl i f) := by
  refine ⟨?_, h.parts⟩
  calc (t.updIsl i f).lessReports = t.lessReports.updIsl i f := rfl
    _ = s.lessReports.updIsl i f := by rw [h.rest]
    _ = (s.updIsl i f).lessReports := rfl
theorem Reports.updSk {s t : State} (h : Reports s t) (f : Sk → Sk) : Reports (s.updSk f) (t.updSk f) := by
  refine ⟨?_, h.parts⟩
  calc (t.updSk f).lessReports = t.lessReports.updSk f := rfl
    _ = s.lessReports.updSk f := by rw [h.rest]
    _ = (s.updSk f).lessReports := rfl
theorem Reports.emit {s t : State} (h : Reports s t) (o o' : Out) : Reports (s.emit o) (t.emit o') := ⟨h.rest, h.parts⟩
theorem Reports.updMb {s t : State} (h : Reports s t) (p : Nat) (u : Bool) (f : Mailbox → Mailbox) : Reports (s.updMb p u f) (t.updMb p u f) := by
  refine h.updPart p _ fun q r => ?_
  cases u <;> rfl
theorem Reports.mbox {s t : State} (h : Reports s t) (p : Nat) (u : Bool) : t.mbox p u = s.mbox p u := by
  have := h.parts p
  cases u
  · exact (congrArg Partition.main this :)
  · exact (congrArg Partition.urg this :)
theorem discardLoopStage_reports (s : State) : Reports (s.updSt fun t => { t with loopStage := [] }) (discardLoopStage s) :=
  reports_foldl _ _ (fun _ _ => raise_reports _ _) _
theorem dropLock_reports (s : State) : Reports (s.updSt fun t => { t with lock := none, loopStage := [] }) (dropLock s) :=
  discardLoopStage_reports (s.updSt fun t => { t with lock := none })
theorem Becomes.mk {i : Instr} {s u t : State} (h : exec i s = .next t) (r : Reports u t) : Becomes i s u := ⟨t, h, r⟩
end Sys2Proof.Machine
end

