-- ==== Sys2Proof/Laws/Answer.lean ====
section
/-! SUPPORT. The end of a command: what the response writes, and what it leaves alone. -/

namespace Sys2Proof.Machine

/-! A notice writes, on a THL link, the sequence of the session and the counts of sent frames, and nothing else -/

theorem notify_part (s : State) (p v r : Nat) : ∃ t, (notify s p v).part r = { s.part r with thl := t } := by
  unfold notify; split
  · exact ⟨_, rfl⟩
  · unfold thlSend; split
    · exact ⟨_, rfl⟩
    · extract_lets n l x
      simp only [x, sendBoth, countPort, State.updNet, part_emit, part_updLane]
      by_cases h : r = p
      · subst h; rw [part_updPart]; exact ⟨_, rfl⟩
      · rw [part_updPart_ne _ _ _ _ h]; exact ⟨_, rfl⟩
theorem notify_part_same (s : State) (p v r : Nat) (h : r ≠ p) : (notify s p v).part r = s.part r := by
  unfold notify; split
  · rfl
  · unfold thlSend; split
    · rfl
    · extract_lets n l x
      simp only [x, sendBoth, countPort, State.updNet, part_emit, part_updLane]
      rw [part_updPart_ne _ _ _ _ h]
theorem sendBoth_lane (s : State) (k l : LaneId) : ∃ c q, (sendBoth s k).2.lane l =
    { s.lane l with net := { (s.lane l).net with cnt := c, prpSeq := q } } := by
  simp only [sendBoth, countPort, State.updNet]
  by_cases h : l = k
  · subst h; simp only [lane_updLane]; exact ⟨_, _, rfl⟩
  · simp only [lane_updLane_ne _ _ _ _ h]; exact ⟨(s.lane l).net.cnt, (s.lane l).net.prpSeq, rfl⟩
theorem notify_lane (s : State) (p v : Nat) (l : LaneId) : ∃ c q, (notify s p v).lane l =
    { s.lane l with net := { (s.lane l).net with cnt := c, prpSeq := q } } := by
  unfold notify; split
  · exact ⟨_, _, rfl⟩
  · unfold thlSend; split
    · exact ⟨_, _, rfl⟩
    · extract_lets n k x
      exact sendBoth_lane (s.updPart p _) k l
theorem notify_st (s : State) (p v : Nat) : (notify s p v).st = s.st := by
  unfold notify; split
  · rfl
  · unfold thlSend; split
    · rfl
    · extract_lets n k x
      simp only [x, sendBoth, countPort, State.updNet, emit_st, updLane_st, updPart_st]

/-- The partition after a response, before its interrupt. -/
theorem respond_part (s : State) (p : Nat) (u : Bool) (st d0 d1 k : Nat) (d : List Nat) (r : Nat) : ∃ t, (respond s p u st d0 d1 k d).part r =
    { (s.updMb p u fun m => { m with busy := false, done := true, preempted := false, phase := .idle, xfer := none, buf := [],
                                     resp := respBytes st m.seq d0 d1 k d }).part r with thl := t } := by
  unfold respond; extract_lets s1 s2
  have h : s2.part r = s1.part r := by simp only [s2]; split <;> rfl
  split
  · obtain ⟨t, ht⟩ := notify_part s2 p (if u then 2 else 1) r
    exact ⟨t, by rw [ht, h]⟩
  · exact ⟨_, by rw [h]⟩
theorem respond_part_same (s : State) (p : Nat) (u : Bool) (st d0 d1 k : Nat) (d : List Nat) (r : Nat) (h : r ≠ p) : (respond s p u st d0 d1 k d).part r = s.part r := by
  unfold respond; extract_lets s1 s2
  have h1 : s1.part r = s.part r := by simp only [s1, State.updMb]; exact part_updPart_ne _ _ _ _ h
  have h2 : s2.part r = s1.part r := by simp only [s2]; split <;> rfl
  split
  · rw [notify_part_same _ _ _ _ h, h2, h1]
  · rw [h2, h1]
theorem respond_mbox (s : State) (p : Nat) (u : Bool) (st d0 d1 k : Nat) (d : List Nat) : (respond s p u st d0 d1 k d).mbox p u =
    { s.mbox p u with busy := false, done := true, preempted := false, phase := .idle, xfer := none, buf := [],
                      resp := respBytes st (s.mbox p u).seq d0 d1 k d } := by
  obtain ⟨t, h⟩ := respond_part s p u st d0 d1 k d p
  unfold State.mbox; rw [h]; cases u <;> simp [State.updMb]
theorem respond_ended (s : State) (p : Nat) (u : Bool) (st d0 d1 k : Nat) (d : List Nat) : Ended s (respond s p u st d0 d1 k d) p u st d0 d1 k d := by
  constructor <;> rw [respond_mbox]
theorem answer_ended (s : State) (p : Nat) (u : Bool) (st d0 d1 : Nat) (d : List Nat) :
    Ended s (answer s p u st d0 d1 d) p u st d0 d1 s.tickNo d := respond_ended s p u st d0 d1 s.tickNo d
theorem respond_bulk (s : State) (p : Nat) (u : Bool) (st d0 d1 k : Nat) (d : List Nat) : (respond s p u st d0 d1 k d).st.bulkQueue =
    if u then s.st.bulkQueue else s.st.bulkQueue.filter fun x => x != p := by
  unfold respond; extract_lets s1 s2
  have h : s2.st.bulkQueue = if u then s.st.bulkQueue else s.st.bulkQueue.filter fun x => x != p := by
    cases u <;> rfl
  split
  · rw [notify_st, h]
  · exact h
/-- A lane after a response: what it counts of sent frames may have moved. -/
theorem respond_lane (s : State) (p : Nat) (u : Bool) (st d0 d1 k : Nat) (d : List Nat) (l : LaneId) : ∃ c q, (respond s p u st d0 d1 k d).lane l =
    { s.lane l with net := { (s.lane l).net with cnt := c, prpSeq := q } } := by
  unfold respond; extract_lets s1 s2
  have h : s2.lane l = s.lane l := by simp only [s2, s1]; split <;> cases l <;> rfl
  split
  · obtain ⟨c, q, e⟩ := notify_lane s2 p (if u then 2 else 1) l
    exact ⟨c, q, by rw [e, h]⟩
  · exact ⟨(s.lane l).net.cnt, (s.lane l).net.prpSeq, h⟩

@[simp] theorem notify_pending (s : State) (p v : Nat) : (notify s p v).pending = s.pending := by
  unfold notify; split
  · rfl
  · unfold thlSend; split
    · rfl
    · extract_lets n k x
      simp [x, sendBoth, countPort, State.updNet]
@[simp] theorem respond_pending (s : State) (p : Nat) (u : Bool) (st d0 d1 k : Nat) (d : List Nat) : (respond s p u st d0 d1 k d).pending = s.pending := by
  unfold respond; extract_lets s1 s2
  have h : s2.pending = s.pending := by cases u <;> rfl
  split
  · rw [notify_pending, h]
  · exact h
@[simp] theorem notify_free (s : State) (p v : Nat) : (notify s p v).free = s.free := by
  unfold notify; split
  · rfl
  · unfold thlSend; split
    · rfl
    · extract_lets n k x
      simp [x, sendBoth, countPort, State.updNet]
@[simp] theorem respond_free (s : State) (p : Nat) (u : Bool) (st d0 d1 k : Nat) (d : List Nat) : (respond s p u st d0 d1 k d).free = s.free := by
  unfold respond; extract_lets s1 s2
  have h : s2.free = s.free := by cases u <;> rfl
  split
  · rw [notify_free, h]
  · exact h
@[simp] theorem notify_grid (s : State) (p v : Nat) : (notify s p v).grid = s.grid := by
  unfold notify; split
  · rfl
  · unfold thlSend; split
    · rfl
    · extract_lets n k x
      simp [x, sendBoth, countPort, State.updNet]
@[simp] theorem respond_grid (s : State) (p : Nat) (u : Bool) (st d0 d1 k : Nat) (d : List Nat) : (respond s p u st d0 d1 k d).grid = s.grid := by
  unfold respond; extract_lets s1 s2
  have h : s2.grid = s.grid := by cases u <;> rfl
  split
  · rw [notify_grid, h]
  · exact h
@[simp] theorem notify_isl (s : State) (p v : Nat) : (notify s p v).isl = s.isl := by
  unfold notify; split
  · rfl
  · unfold thlSend; split
    · rfl
    · extract_lets n k x
      simp [x, sendBoth, countPort, State.updNet]
@[simp] theorem respond_isl (s : State) (p : Nat) (u : Bool) (st d0 d1 k : Nat) (d : List Nat) : (respond s p u st d0 d1 k d).isl = s.isl := by
  unfold respond; extract_lets s1 s2
  have h : s2.isl = s.isl := by cases u <;> rfl
  split
  · rw [notify_isl, h]
  · exact h
@[simp] theorem notify_sk (s : State) (p v : Nat) : (notify s p v).sk = s.sk := by
  unfold notify; split
  · rfl
  · unfold thlSend; split
    · rfl
    · extract_lets n k x
      simp [x, sendBoth, countPort, State.updNet]
@[simp] theorem respond_sk (s : State) (p : Nat) (u : Bool) (st d0 d1 k : Nat) (d : List Nat) : (respond s p u st d0 d1 k d).sk = s.sk := by
  unfold respond; extract_lets s1 s2
  have h : s2.sk = s.sk := by cases u <;> rfl
  split
  · rw [notify_sk, h]
  · exact h
@[simp] theorem notify_svc (s : State) (p v : Nat) : (notify s p v).svc = s.svc := by
  unfold notify; split
  · rfl
  · unfold thlSend; split
    · rfl
    · extract_lets n k x
      simp [x, sendBoth, countPort, State.updNet]
@[simp] theorem respond_svc (s : State) (p : Nat) (u : Bool) (st d0 d1 k : Nat) (d : List Nat) : (respond s p u st d0 d1 k d).svc = s.svc := by
  unfold respond; extract_lets s1 s2
  have h : s2.svc = s.svc := by cases u <;> rfl
  split
  · rw [notify_svc, h]
  · exact h
@[simp] theorem respond_st_phase (s : State) (p : Nat) (u : Bool) (st d0 d1 k : Nat) (d : List Nat) : (respond s p u st d0 d1 k d).st.phase = s.st.phase := by
  unfold respond; extract_lets s1 s2
  have h : s2.st.phase = s.st.phase := by cases u <;> rfl
  split
  · rw [notify_st, h]
  · exact h
@[simp] theorem respond_st_ready (s : State) (p : Nat) (u : Bool) (st d0 d1 k : Nat) (d : List Nat) : (respond s p u st d0 d1 k d).st.ready = s.st.ready := by
  unfold respond; extract_lets s1 s2
  have h : s2.st.ready = s.st.ready := by cases u <;> rfl
  split
  · rw [notify_st, h]
  · exact h
@[simp] theorem respond_st_stopCause (s : State) (p : Nat) (u : Bool) (st d0 d1 k : Nat) (d : List Nat) : (respond s p u st d0 d1 k d).st.stopCause = s.st.stopCause := by
  unfold respond; extract_lets s1 s2
  have h : s2.st.stopCause = s.st.stopCause := by cases u <;> rfl
  split
  · rw [notify_st, h]
  · exact h
@[simp] theorem respond_st_stopArg (s : State) (p : Nat) (u : Bool) (st d0 d1 k : Nat) (d : List Nat) : (respond s p u st d0 d1 k d).st.stopArg = s.st.stopArg := by
  unfold respond; extract_lets s1 s2
  have h : s2.st.stopArg = s.st.stopArg := by cases u <;> rfl
  split
  · rw [notify_st, h]
  · exact h
@[simp] theorem respond_st_startAt (s : State) (p : Nat) (u : Bool) (st d0 d1 k : Nat) (d : List Nat) : (respond s p u st d0 d1 k d).st.startAt = s.st.startAt := by
  unfold respond; extract_lets s1 s2
  have h : s2.st.startAt = s.st.startAt := by cases u <;> rfl
  split
  · rw [notify_st, h]
  · exact h
@[simp] theorem respond_st_stopAt (s : State) (p : Nat) (u : Bool) (st d0 d1 k : Nat) (d : List Nat) : (respond s p u st d0 d1 k d).st.stopAt = s.st.stopAt := by
  unfold respond; extract_lets s1 s2
  have h : s2.st.stopAt = s.st.stopAt := by cases u <;> rfl
  split
  · rw [notify_st, h]
  · exact h
@[simp] theorem respond_st_cfg (s : State) (p : Nat) (u : Bool) (st d0 d1 k : Nat) (d : List Nat) : (respond s p u st d0 d1 k d).st.cfg = s.st.cfg := by
  unfold respond; extract_lets s1 s2
  have h : s2.st.cfg = s.st.cfg := by cases u <;> rfl
  split
  · rw [notify_st, h]
  · exact h
@[simp] theorem respond_st_cfgCrc (s : State) (p : Nat) (u : Bool) (st d0 d1 k : Nat) (d : List Nat) : (respond s p u st d0 d1 k d).st.cfgCrc = s.st.cfgCrc := by
  unfold respond; extract_lets s1 s2
  have h : s2.st.cfgCrc = s.st.cfgCrc := by cases u <;> rfl
  split
  · rw [notify_st, h]
  · exact h
@[simp] theorem respond_st_prog (s : State) (p : Nat) (u : Bool) (st d0 d1 k : Nat) (d : List Nat) : (respond s p u st d0 d1 k d).st.prog = s.st.prog := by
  unfold respond; extract_lets s1 s2
  have h : s2.st.prog = s.st.prog := by cases u <;> rfl
  split
  · rw [notify_st, h]
  · exact h
@[simp] theorem respond_st_access (s : State) (p : Nat) (u : Bool) (st d0 d1 k : Nat) (d : List Nat) : (respond s p u st d0 d1 k d).st.access = s.st.access := by
  unfold respond; extract_lets s1 s2
  have h : s2.st.access = s.st.access := by cases u <;> rfl
  split
  · rw [notify_st, h]
  · exact h
@[simp] theorem respond_st_accessImage (s : State) (p : Nat) (u : Bool) (st d0 d1 k : Nat) (d : List Nat) : (respond s p u st d0 d1 k d).st.accessImage = s.st.accessImage := by
  unfold respond; extract_lets s1 s2
  have h : s2.st.accessImage = s.st.accessImage := by cases u <;> rfl
  split
  · rw [notify_st, h]
  · exact h
@[simp] theorem respond_st_cfgImage (s : State) (p : Nat) (u : Bool) (st d0 d1 k : Nat) (d : List Nat) : (respond s p u st d0 d1 k d).st.cfgImage = s.st.cfgImage := by
  unfold respond; extract_lets s1 s2
  have h : s2.st.cfgImage = s.st.cfgImage := by cases u <;> rfl
  split
  · rw [notify_st, h]
  · exact h
@[simp] theorem respond_st_safety (s : State) (p : Nat) (u : Bool) (st d0 d1 k : Nat) (d : List Nat) : (respond s p u st d0 d1 k d).st.safety = s.st.safety := by
  unfold respond; extract_lets s1 s2
  have h : s2.st.safety = s.st.safety := by cases u <;> rfl
  split
  · rw [notify_st, h]
  · exact h
@[simp] theorem respond_st_safetyAccepted (s : State) (p : Nat) (u : Bool) (st d0 d1 k : Nat) (d : List Nat) : (respond s p u st d0 d1 k d).st.safetyAccepted = s.st.safetyAccepted := by
  unfold respond; extract_lets s1 s2
  have h : s2.st.safetyAccepted = s.st.safetyAccepted := by cases u <;> rfl
  split
  · rw [notify_st, h]
  · exact h
@[simp] theorem respond_st_stage (s : State) (p : Nat) (u : Bool) (st d0 d1 k : Nat) (d : List Nat) : (respond s p u st d0 d1 k d).st.stage = s.st.stage := by
  unfold respond; extract_lets s1 s2
  have h : s2.st.stage = s.st.stage := by cases u <;> rfl
  split
  · rw [notify_st, h]
  · exact h
@[simp] theorem respond_st_commit (s : State) (p : Nat) (u : Bool) (st d0 d1 k : Nat) (d : List Nat) : (respond s p u st d0 d1 k d).st.commit = s.st.commit := by
  unfold respond; extract_lets s1 s2
  have h : s2.st.commit = s.st.commit := by cases u <;> rfl
  split
  · rw [notify_st, h]
  · exact h
@[simp] theorem respond_st_lock (s : State) (p : Nat) (u : Bool) (st d0 d1 k : Nat) (d : List Nat) : (respond s p u st d0 d1 k d).st.lock = s.st.lock := by
  unfold respond; extract_lets s1 s2
  have h : s2.st.lock = s.st.lock := by cases u <;> rfl
  split
  · rw [notify_st, h]
  · exact h
@[simp] theorem respond_st_wrongProofs (s : State) (p : Nat) (u : Bool) (st d0 d1 k : Nat) (d : List Nat) : (respond s p u st d0 d1 k d).st.wrongProofs = s.st.wrongProofs := by
  unfold respond; extract_lets s1 s2
  have h : s2.st.wrongProofs = s.st.wrongProofs := by cases u <;> rfl
  split
  · rw [notify_st, h]
  · exact h
@[simp] theorem respond_st_lockout (s : State) (p : Nat) (u : Bool) (st d0 d1 k : Nat) (d : List Nat) : (respond s p u st d0 d1 k d).st.lockout = s.st.lockout := by
  unfold respond; extract_lets s1 s2
  have h : s2.st.lockout = s.st.lockout := by cases u <;> rfl
  split
  · rw [notify_st, h]
  · exact h
@[simp] theorem respond_st_lockoutAt (s : State) (p : Nat) (u : Bool) (st d0 d1 k : Nat) (d : List Nat) : (respond s p u st d0 d1 k d).st.lockoutAt = s.st.lockoutAt := by
  unfold respond; extract_lets s1 s2
  have h : s2.st.lockoutAt = s.st.lockoutAt := by cases u <;> rfl
  split
  · rw [notify_st, h]
  · exact h
@[simp] theorem respond_st_batches (s : State) (p : Nat) (u : Bool) (st d0 d1 k : Nat) (d : List Nat) : (respond s p u st d0 d1 k d).st.batches = s.st.batches := by
  unfold respond; extract_lets s1 s2
  have h : s2.st.batches = s.st.batches := by cases u <;> rfl
  split
  · rw [notify_st, h]
  · exact h
@[simp] theorem respond_st_mpu (s : State) (p : Nat) (u : Bool) (st d0 d1 k : Nat) (d : List Nat) : (respond s p u st d0 d1 k d).st.mpu = s.st.mpu := by
  unfold respond; extract_lets s1 s2
  have h : s2.st.mpu = s.st.mpu := by cases u <;> rfl
  split
  · rw [notify_st, h]
  · exact h
@[simp] theorem respond_st_cold (s : State) (p : Nat) (u : Bool) (st d0 d1 k : Nat) (d : List Nat) : (respond s p u st d0 d1 k d).st.cold = s.st.cold := by
  unfold respond; extract_lets s1 s2
  have h : s2.st.cold = s.st.cold := by cases u <;> rfl
  split
  · rw [notify_st, h]
  · exact h
@[simp] theorem respond_st_roleAsks (s : State) (p : Nat) (u : Bool) (st d0 d1 k : Nat) (d : List Nat) : (respond s p u st d0 d1 k d).st.roleAsks = s.st.roleAsks := by
  unfold respond; extract_lets s1 s2
  have h : s2.st.roleAsks = s.st.roleAsks := by cases u <;> rfl
  split
  · rw [notify_st, h]
  · exact h
@[simp] theorem respond_st_hasRun (s : State) (p : Nat) (u : Bool) (st d0 d1 k : Nat) (d : List Nat) : (respond s p u st d0 d1 k d).st.hasRun = s.st.hasRun := by
  unfold respond; extract_lets s1 s2
  have h : s2.st.hasRun = s.st.hasRun := by cases u <;> rfl
  split
  · rw [notify_st, h]
  · exact h
@[simp] theorem respond_st_orderNo (s : State) (p : Nat) (u : Bool) (st d0 d1 k : Nat) (d : List Nat) : (respond s p u st d0 d1 k d).st.orderNo = s.st.orderNo := by
  unfold respond; extract_lets s1 s2
  have h : s2.st.orderNo = s.st.orderNo := by cases u <;> rfl
  split
  · rw [notify_st, h]
  · exact h
@[simp] theorem respond_st_limits (s : State) (p : Nat) (u : Bool) (st d0 d1 k : Nat) (d : List Nat) : (respond s p u st d0 d1 k d).st.limits = s.st.limits := by
  unfold respond; extract_lets s1 s2
  have h : s2.st.limits = s.st.limits := by cases u <;> rfl
  split
  · rw [notify_st, h]
  · exact h
@[simp] theorem respond_st_ends (s : State) (p : Nat) (u : Bool) (st d0 d1 k : Nat) (d : List Nat) : (respond s p u st d0 d1 k d).st.ends = s.st.ends := by
  unfold respond; extract_lets s1 s2
  have h : s2.st.ends = s.st.ends := by cases u <;> rfl
  split
  · rw [notify_st, h]
  · exact h
@[simp] theorem respond_st_power (s : State) (p : Nat) (u : Bool) (st d0 d1 k : Nat) (d : List Nat) : (respond s p u st d0 d1 k d).st.power = s.st.power := by
  unfold respond; extract_lets s1 s2
  have h : s2.st.power = s.st.power := by cases u <;> rfl
  split
  · rw [notify_st, h]
  · exact h
@[simp] theorem respond_st_referee (s : State) (p : Nat) (u : Bool) (st d0 d1 k : Nat) (d : List Nat) : (respond s p u st d0 d1 k d).st.referee = s.st.referee := by
  unfold respond; extract_lets s1 s2
  have h : s2.st.referee = s.st.referee := by cases u <;> rfl
  split
  · rw [notify_st, h]
  · exact h
@[simp] theorem respond_st_dimOp (s : State) (p : Nat) (u : Bool) (st d0 d1 k : Nat) (d : List Nat) : (respond s p u st d0 d1 k d).st.dimOp = s.st.dimOp := by
  unfold respond; extract_lets s1 s2
  have h : s2.st.dimOp = s.st.dimOp := by cases u <;> rfl
  split
  · rw [notify_st, h]
  · exact h
@[simp] theorem respond_st_loopStage (s : State) (p : Nat) (u : Bool) (st d0 d1 k : Nat) (d : List Nat) : (respond s p u st d0 d1 k d).st.loopStage = s.st.loopStage := by
  unfold respond; extract_lets s1 s2
  have h : s2.st.loopStage = s.st.loopStage := by cases u <;> rfl
  split
  · rw [notify_st, h]
  · exact h
@[simp] theorem respond_st_loopModes (s : State) (p : Nat) (u : Bool) (st d0 d1 k : Nat) (d : List Nat) : (respond s p u st d0 d1 k d).st.loopModes = s.st.loopModes := by
  unfold respond; extract_lets s1 s2
  have h : s2.st.loopModes = s.st.loopModes := by cases u <;> rfl
  split
  · rw [notify_st, h]
  · exact h
@[simp] theorem respond_st_loopParams (s : State) (p : Nat) (u : Bool) (st d0 d1 k : Nat) (d : List Nat) : (respond s p u st d0 d1 k d).st.loopParams = s.st.loopParams := by
  unfold respond; extract_lets s1 s2
  have h : s2.st.loopParams = s.st.loopParams := by cases u <;> rfl
  split
  · rw [notify_st, h]
  · exact h
@[simp] theorem respond_st_engaged (s : State) (p : Nat) (u : Bool) (st d0 d1 k : Nat) (d : List Nat) : (respond s p u st d0 d1 k d).st.engaged = s.st.engaged := by
  unfold respond; extract_lets s1 s2
  have h : s2.st.engaged = s.st.engaged := by cases u <;> rfl
  split
  · rw [notify_st, h]
  · exact h
@[simp] theorem respond_st_pfStep (s : State) (p : Nat) (u : Bool) (st d0 d1 k : Nat) (d : List Nat) : (respond s p u st d0 d1 k d).st.pfStep = s.st.pfStep := by
  unfold respond; extract_lets s1 s2
  have h : s2.st.pfStep = s.st.pfStep := by cases u <;> rfl
  split
  · rw [notify_st, h]
  · exact h
@[simp] theorem respond_st_shut (s : State) (p : Nat) (u : Bool) (st d0 d1 k : Nat) (d : List Nat) : (respond s p u st d0 d1 k d).st.shut = s.st.shut := by
  unfold respond; extract_lets s1 s2
  have h : s2.st.shut = s.st.shut := by cases u <;> rfl
  split
  · rw [notify_st, h]
  · exact h
@[simp] theorem respond_st_lastStatus (s : State) (p : Nat) (u : Bool) (st d0 d1 k : Nat) (d : List Nat) : (respond s p u st d0 d1 k d).st.lastStatus = s.st.lastStatus := by
  unfold respond; extract_lets s1 s2
  have h : s2.st.lastStatus = s.st.lastStatus := by cases u <;> rfl
  split
  · rw [notify_st, h]
  · exact h
@[simp] theorem respond_lane_feed (s : State) (p : Nat) (u : Bool) (st d0 d1 k : Nat) (d : List Nat) (l : LaneId) : ((respond s p u st d0 d1 k d).lane l).feed = (s.lane l).feed := by
  obtain ⟨c, q, h⟩ := respond_lane s p u st d0 d1 k d l; rw [h]
@[simp] theorem respond_lane_phase (s : State) (p : Nat) (u : Bool) (st d0 d1 k : Nat) (d : List Nat) (l : LaneId) : ((respond s p u st d0 d1 k d).lane l).phase = (s.lane l).phase := by
  obtain ⟨c, q, h⟩ := respond_lane s p u st d0 d1 k d l; rw [h]
@[simp] theorem respond_lane_cidOk (s : State) (p : Nat) (u : Bool) (st d0 d1 k : Nat) (d : List Nat) (l : LaneId) : ((respond s p u st d0 d1 k d).lane l).cidOk = (s.lane l).cidOk := by
  obtain ⟨c, q, h⟩ := respond_lane s p u st d0 d1 k d l; rw [h]
@[simp] theorem respond_lane_winUp (s : State) (p : Nat) (u : Bool) (st d0 d1 k : Nat) (d : List Nat) (l : LaneId) : ((respond s p u st d0 d1 k d).lane l).winUp = (s.lane l).winUp := by
  obtain ⟨c, q, h⟩ := respond_lane s p u st d0 d1 k d l; rw [h]
@[simp] theorem respond_lane_clkQual (s : State) (p : Nat) (u : Bool) (st d0 d1 k : Nat) (d : List Nat) (l : LaneId) : ((respond s p u st d0 d1 k d).lane l).clkQual = (s.lane l).clkQual := by
  obtain ⟨c, q, h⟩ := respond_lane s p u st d0 d1 k d l; rw [h]
@[simp] theorem respond_lane_rolesStep (s : State) (p : Nat) (u : Bool) (st d0 d1 k : Nat) (d : List Nat) (l : LaneId) : ((respond s p u st d0 d1 k d).lane l).rolesStep = (s.lane l).rolesStep := by
  obtain ⟨c, q, h⟩ := respond_lane s p u st d0 d1 k d l; rw [h]
@[simp] theorem respond_lane_startDone (s : State) (p : Nat) (u : Bool) (st d0 d1 k : Nat) (d : List Nat) (l : LaneId) : ((respond s p u st d0 d1 k d).lane l).startDone = (s.lane l).startDone := by
  obtain ⟨c, q, h⟩ := respond_lane s p u st d0 d1 k d l; rw [h]
@[simp] theorem respond_lane_failStep (s : State) (p : Nat) (u : Bool) (st d0 d1 k : Nat) (d : List Nat) (l : LaneId) : ((respond s p u st d0 d1 k d).lane l).failStep = (s.lane l).failStep := by
  obtain ⟨c, q, h⟩ := respond_lane s p u st d0 d1 k d l; rw [h]
@[simp] theorem respond_lane_failCode (s : State) (p : Nat) (u : Bool) (st d0 d1 k : Nat) (d : List Nat) (l : LaneId) : ((respond s p u st d0 d1 k d).lane l).failCode = (s.lane l).failCode := by
  obtain ⟨c, q, h⟩ := respond_lane s p u st d0 d1 k d l; rw [h]
@[simp] theorem respond_lane_mac (s : State) (p : Nat) (u : Bool) (st d0 d1 k : Nat) (d : List Nat) (l : LaneId) : ((respond s p u st d0 d1 k d).lane l).mac = (s.lane l).mac := by
  obtain ⟨c, q, h⟩ := respond_lane s p u st d0 d1 k d l; rw [h]
@[simp] theorem respond_lane_fw (s : State) (p : Nat) (u : Bool) (st d0 d1 k : Nat) (d : List Nat) (l : LaneId) : ((respond s p u st d0 d1 k d).lane l).fw = (s.lane l).fw := by
  obtain ⟨c, q, h⟩ := respond_lane s p u st d0 d1 k d l; rw [h]
@[simp] theorem respond_lane_role (s : State) (p : Nat) (u : Bool) (st d0 d1 k : Nat) (d : List Nat) (l : LaneId) : ((respond s p u st d0 d1 k d).lane l).role = (s.lane l).role := by
  obtain ⟨c, q, h⟩ := respond_lane s p u st d0 d1 k d l; rw [h]
@[simp] theorem respond_lane_cause (s : State) (p : Nat) (u : Bool) (st d0 d1 k : Nat) (d : List Nat) (l : LaneId) : ((respond s p u st d0 d1 k d).lane l).cause = (s.lane l).cause := by
  obtain ⟨c, q, h⟩ := respond_lane s p u st d0 d1 k d l; rw [h]
@[simp] theorem respond_lane_health (s : State) (p : Nat) (u : Bool) (st d0 d1 k : Nat) (d : List Nat) (l : LaneId) : ((respond s p u st d0 d1 k d).lane l).health = (s.lane l).health := by
  obtain ⟨c, q, h⟩ := respond_lane s p u st d0 d1 k d l; rw [h]
@[simp] theorem respond_lane_suspect (s : State) (p : Nat) (u : Bool) (st d0 d1 k : Nat) (d : List Nat) (l : LaneId) : ((respond s p u st d0 d1 k d).lane l).suspect = (s.lane l).suspect := by
  obtain ⟨c, q, h⟩ := respond_lane s p u st d0 d1 k d l; rw [h]
@[simp] theorem respond_lane_feedCycled (s : State) (p : Nat) (u : Bool) (st d0 d1 k : Nat) (d : List Nat) (l : LaneId) : ((respond s p u st d0 d1 k d).lane l).feedCycled = (s.lane l).feedCycled := by
  obtain ⟨c, q, h⟩ := respond_lane s p u st d0 d1 k d l; rw [h]
@[simp] theorem respond_lane_needCycle (s : State) (p : Nat) (u : Bool) (st d0 d1 k : Nat) (d : List Nat) (l : LaneId) : ((respond s p u st d0 d1 k d).lane l).needCycle = (s.lane l).needCycle := by
  obtain ⟨c, q, h⟩ := respond_lane s p u st d0 d1 k d l; rw [h]
@[simp] theorem respond_lane_endsSeen (s : State) (p : Nat) (u : Bool) (st d0 d1 k : Nat) (d : List Nat) (l : LaneId) : ((respond s p u st d0 d1 k d).lane l).endsSeen = (s.lane l).endsSeen := by
  obtain ⟨c, q, h⟩ := respond_lane s p u st d0 d1 k d l; rw [h]
@[simp] theorem respond_lane_sent (s : State) (p : Nat) (u : Bool) (st d0 d1 k : Nat) (d : List Nat) (l : LaneId) : ((respond s p u st d0 d1 k d).lane l).sent = (s.lane l).sent := by
  obtain ⟨c, q, h⟩ := respond_lane s p u st d0 d1 k d l; rw [h]
@[simp] theorem respond_lane_takeover (s : State) (p : Nat) (u : Bool) (st d0 d1 k : Nat) (d : List Nat) (l : LaneId) : ((respond s p u st d0 d1 k d).lane l).takeover = (s.lane l).takeover := by
  obtain ⟨c, q, h⟩ := respond_lane s p u st d0 d1 k d l; rw [h]
@[simp] theorem respond_lane_img (s : State) (p : Nat) (u : Bool) (st d0 d1 k : Nat) (d : List Nat) (l : LaneId) : ((respond s p u st d0 d1 k d).lane l).img = (s.lane l).img := by
  obtain ⟨c, q, h⟩ := respond_lane s p u st d0 d1 k d l; rw [h]
@[simp] theorem respond_lane_frozen (s : State) (p : Nat) (u : Bool) (st d0 d1 k : Nat) (d : List Nat) (l : LaneId) : ((respond s p u st d0 d1 k d).lane l).frozen = (s.lane l).frozen := by
  obtain ⟨c, q, h⟩ := respond_lane s p u st d0 d1 k d l; rw [h]
@[simp] theorem respond_lane_frozenTick (s : State) (p : Nat) (u : Bool) (st d0 d1 k : Nat) (d : List Nat) (l : LaneId) : ((respond s p u st d0 d1 k d).lane l).frozenTick = (s.lane l).frozenTick := by
  obtain ⟨c, q, h⟩ := respond_lane s p u st d0 d1 k d l; rw [h]
@[simp] theorem respond_lane_tmpl (s : State) (p : Nat) (u : Bool) (st d0 d1 k : Nat) (d : List Nat) (l : LaneId) : ((respond s p u st d0 d1 k d).lane l).tmpl = (s.lane l).tmpl := by
  obtain ⟨c, q, h⟩ := respond_lane s p u st d0 d1 k d l; rw [h]
@[simp] theorem respond_lane_arrived (s : State) (p : Nat) (u : Bool) (st d0 d1 k : Nat) (d : List Nat) (l : LaneId) : ((respond s p u st d0 d1 k d).lane l).arrived = (s.lane l).arrived := by
  obtain ⟨c, q, h⟩ := respond_lane s p u st d0 d1 k d l; rw [h]
@[simp] theorem respond_lane_skPdus (s : State) (p : Nat) (u : Bool) (st d0 d1 k : Nat) (d : List Nat) (l : LaneId) : ((respond s p u st d0 d1 k d).lane l).skPdus = (s.lane l).skPdus := by
  obtain ⟨c, q, h⟩ := respond_lane s p u st d0 d1 k d l; rw [h]
@[simp] theorem respond_lane_swapTick (s : State) (p : Nat) (u : Bool) (st d0 d1 k : Nat) (d : List Nat) (l : LaneId) : ((respond s p u st d0 d1 k d).lane l).swapTick = (s.lane l).swapTick := by
  obtain ⟨c, q, h⟩ := respond_lane s p u st d0 d1 k d l; rw [h]
@[simp] theorem respond_lane_mxTick (s : State) (p : Nat) (u : Bool) (st d0 d1 k : Nat) (d : List Nat) (l : LaneId) : ((respond s p u st d0 d1 k d).lane l).mxTick = (s.lane l).mxTick := by
  obtain ⟨c, q, h⟩ := respond_lane s p u st d0 d1 k d l; rw [h]
@[simp] theorem respond_lane_lateBase (s : State) (p : Nat) (u : Bool) (st d0 d1 k : Nat) (d : List Nat) (l : LaneId) : ((respond s p u st d0 d1 k d).lane l).lateBase = (s.lane l).lateBase := by
  obtain ⟨c, q, h⟩ := respond_lane s p u st d0 d1 k d l; rw [h]
@[simp] theorem respond_lane_loopLate (s : State) (p : Nat) (u : Bool) (st d0 d1 k : Nat) (d : List Nat) (l : LaneId) : ((respond s p u st d0 d1 k d).lane l).loopLate = (s.lane l).loopLate := by
  obtain ⟨c, q, h⟩ := respond_lane s p u st d0 d1 k d l; rw [h]
@[simp] theorem respond_lane_linkCnt (s : State) (p : Nat) (u : Bool) (st d0 d1 k : Nat) (d : List Nat) (l : LaneId) : ((respond s p u st d0 d1 k d).lane l).linkCnt = (s.lane l).linkCnt := by
  obtain ⟨c, q, h⟩ := respond_lane s p u st d0 d1 k d l; rw [h]
@[simp] theorem respond_lane_linkLost (s : State) (p : Nat) (u : Bool) (st d0 d1 k : Nat) (d : List Nat) (l : LaneId) : ((respond s p u st d0 d1 k d).lane l).linkLost = (s.lane l).linkLost := by
  obtain ⟨c, q, h⟩ := respond_lane s p u st d0 d1 k d l; rw [h]
@[simp] theorem respond_lane_clocks (s : State) (p : Nat) (u : Bool) (st d0 d1 k : Nat) (d : List Nat) (l : LaneId) : ((respond s p u st d0 d1 k d).lane l).clocks = (s.lane l).clocks := by
  obtain ⟨c, q, h⟩ := respond_lane s p u st d0 d1 k d l; rw [h]
@[simp] theorem respond_lane_opp (s : State) (p : Nat) (u : Bool) (st d0 d1 k : Nat) (d : List Nat) (l : LaneId) : ((respond s p u st d0 d1 k d).lane l).opp = (s.lane l).opp := by
  obtain ⟨c, q, h⟩ := respond_lane s p u st d0 d1 k d l; rw [h]
@[simp] theorem respond_lane_lit (s : State) (p : Nat) (u : Bool) (st d0 d1 k : Nat) (d : List Nat) (l : LaneId) : ((respond s p u st d0 d1 k d).lane l).lit = (s.lane l).lit := by
  obtain ⟨c, q, h⟩ := respond_lane s p u st d0 d1 k d l; rw [h]
@[simp] theorem respond_lane_hold (s : State) (p : Nat) (u : Bool) (st d0 d1 k : Nat) (d : List Nat) (l : LaneId) : ((respond s p u st d0 d1 k d).lane l).hold = (s.lane l).hold := by
  obtain ⟨c, q, h⟩ := respond_lane s p u st d0 d1 k d l; rw [h]
@[simp] theorem respond_lane_beat (s : State) (p : Nat) (u : Bool) (st d0 d1 k : Nat) (d : List Nat) (l : LaneId) : ((respond s p u st d0 d1 k d).lane l).beat = (s.lane l).beat := by
  obtain ⟨c, q, h⟩ := respond_lane s p u st d0 d1 k d l; rw [h]
@[simp] theorem respond_lane_tok (s : State) (p : Nat) (u : Bool) (st d0 d1 k : Nat) (d : List Nat) (l : LaneId) : ((respond s p u st d0 d1 k d).lane l).tok = (s.lane l).tok := by
  obtain ⟨c, q, h⟩ := respond_lane s p u st d0 d1 k d l; rw [h]
@[simp] theorem respond_lane_mirror (s : State) (p : Nat) (u : Bool) (st d0 d1 k : Nat) (d : List Nat) (l : LaneId) : ((respond s p u st d0 d1 k d).lane l).mirror = (s.lane l).mirror := by
  obtain ⟨c, q, h⟩ := respond_lane s p u st d0 d1 k d l; rw [h]
@[simp] theorem respond_lane_reint (s : State) (p : Nat) (u : Bool) (st d0 d1 k : Nat) (d : List Nat) (l : LaneId) : ((respond s p u st d0 d1 k d).lane l).reint = (s.lane l).reint := by
  obtain ⟨c, q, h⟩ := respond_lane s p u st d0 d1 k d l; rw [h]
@[simp] theorem respond_lane_staging (s : State) (p : Nat) (u : Bool) (st d0 d1 k : Nat) (d : List Nat) (l : LaneId) : ((respond s p u st d0 d1 k d).lane l).staging = (s.lane l).staging := by
  obtain ⟨c, q, h⟩ := respond_lane s p u st d0 d1 k d l; rw [h]
@[simp] theorem respond_lane_be (s : State) (p : Nat) (u : Bool) (st d0 d1 k : Nat) (d : List Nat) (l : LaneId) : ((respond s p u st d0 d1 k d).lane l).be = (s.lane l).be := by
  obtain ⟨c, q, h⟩ := respond_lane s p u st d0 d1 k d l; rw [h]
@[simp] theorem respond_lane_loops (s : State) (p : Nat) (u : Bool) (st d0 d1 k : Nat) (d : List Nat) (l : LaneId) : ((respond s p u st d0 d1 k d).lane l).loops = (s.lane l).loops := by
  obtain ⟨c, q, h⟩ := respond_lane s p u st d0 d1 k d l; rw [h]
@[simp] theorem respond_lane_chains (s : State) (p : Nat) (u : Bool) (st d0 d1 k : Nat) (d : List Nat) (l : LaneId) : ((respond s p u st d0 d1 k d).lane l).chains = (s.lane l).chains := by
  obtain ⟨c, q, h⟩ := respond_lane s p u st d0 d1 k d l; rw [h]
@[simp] theorem respond_lane_can (s : State) (p : Nat) (u : Bool) (st d0 d1 k : Nat) (d : List Nat) (l : LaneId) : ((respond s p u st d0 d1 k d).lane l).can = (s.lane l).can := by
  obtain ⟨c, q, h⟩ := respond_lane s p u st d0 d1 k d l; rw [h]
@[simp] theorem respond_part_bus (s : State) (p : Nat) (u : Bool) (st d0 d1 k : Nat) (d : List Nat) (r : Nat) : ((respond s p u st d0 d1 k d).part r).bus = (s.part r).bus := by
  obtain ⟨t, e⟩ := respond_part s p u st d0 d1 k d r
  rw [e]; by_cases h : r = p
  · subst h; cases u <;> simp [State.updMb]
  · simp [State.updMb, part_updPart_ne _ _ _ _ h]
@[simp] theorem respond_part_lane (s : State) (p : Nat) (u : Bool) (st d0 d1 k : Nat) (d : List Nat) (r : Nat) : ((respond s p u st d0 d1 k d).part r).lane = (s.part r).lane := by
  obtain ⟨t, e⟩ := respond_part s p u st d0 d1 k d r
  rw [e]; by_cases h : r = p
  · subst h; cases u <;> simp [State.updMb]
  · simp [State.updMb, part_updPart_ne _ _ _ _ h]
@[simp] theorem respond_part_att (s : State) (p : Nat) (u : Bool) (st d0 d1 k : Nat) (d : List Nat) (r : Nat) : ((respond s p u st d0 d1 k d).part r).att = (s.part r).att := by
  obtain ⟨t, e⟩ := respond_part s p u st d0 d1 k d r
  rw [e]; by_cases h : r = p
  · subst h; cases u <;> simp [State.updMb]
  · simp [State.updMb, part_updPart_ne _ _ _ _ h]
@[simp] theorem respond_part_roleReq (s : State) (p : Nat) (u : Bool) (st d0 d1 k : Nat) (d : List Nat) (r : Nat) : ((respond s p u st d0 d1 k d).part r).roleReq = (s.part r).roleReq := by
  obtain ⟨t, e⟩ := respond_part s p u st d0 d1 k d r
  rw [e]; by_cases h : r = p
  · subst h; cases u <;> simp [State.updMb]
  · simp [State.updMb, part_updPart_ne _ _ _ _ h]
@[simp] theorem respond_part_grace (s : State) (p : Nat) (u : Bool) (st d0 d1 k : Nat) (d : List Nat) (r : Nat) : ((respond s p u st d0 d1 k d).part r).grace = (s.part r).grace := by
  obtain ⟨t, e⟩ := respond_part s p u st d0 d1 k d r
  rw [e]; by_cases h : r = p
  · subst h; cases u <;> simp [State.updMb]
  · simp [State.updMb, part_updPart_ne _ _ _ _ h]
@[simp] theorem respond_part_resuming (s : State) (p : Nat) (u : Bool) (st d0 d1 k : Nat) (d : List Nat) (r : Nat) : ((respond s p u st d0 d1 k d).part r).resuming = (s.part r).resuming := by
  obtain ⟨t, e⟩ := respond_part s p u st d0 d1 k d r
  rw [e]; by_cases h : r = p
  · subst h; cases u <;> simp [State.updMb]
  · simp [State.updMb, part_updPart_ne _ _ _ _ h]
@[simp] theorem respond_part_evEn (s : State) (p : Nat) (u : Bool) (st d0 d1 k : Nat) (d : List Nat) (r : Nat) : ((respond s p u st d0 d1 k d).part r).evEn = (s.part r).evEn := by
  obtain ⟨t, e⟩ := respond_part s p u st d0 d1 k d r
  rw [e]; by_cases h : r = p
  · subst h; cases u <;> simp [State.updMb]
  · simp [State.updMb, part_updPart_ne _ _ _ _ h]
@[simp] theorem respond_part_evIrqEn (s : State) (p : Nat) (u : Bool) (st d0 d1 k : Nat) (d : List Nat) (r : Nat) : ((respond s p u st d0 d1 k d).part r).evIrqEn = (s.part r).evIrqEn := by
  obtain ⟨t, e⟩ := respond_part s p u st d0 d1 k d r
  rw [e]; by_cases h : r = p
  · subst h; cases u <;> simp [State.updMb]
  · simp [State.updMb, part_updPart_ne _ _ _ _ h]
@[simp] theorem respond_part_mbIrqEn (s : State) (p : Nat) (u : Bool) (st d0 d1 k : Nat) (d : List Nat) (r : Nat) : ((respond s p u st d0 d1 k d).part r).mbIrqEn = (s.part r).mbIrqEn := by
  obtain ⟨t, e⟩ := respond_part s p u st d0 d1 k d r
  rw [e]; by_cases h : r = p
  · subst h; cases u <;> simp [State.updMb]
  · simp [State.updMb, part_updPart_ne _ _ _ _ h]
@[simp] theorem respond_part_ringNe (s : State) (p : Nat) (u : Bool) (st d0 d1 k : Nat) (d : List Nat) (r : Nat) : ((respond s p u st d0 d1 k d).part r).ringNe = (s.part r).ringNe := by
  obtain ⟨t, e⟩ := respond_part s p u st d0 d1 k d r
  rw [e]; by_cases h : r = p
  · subst h; cases u <;> simp [State.updMb]
  · simp [State.updMb, part_updPart_ne _ _ _ _ h]
@[simp] theorem respond_part_ringOvf (s : State) (p : Nat) (u : Bool) (st d0 d1 k : Nat) (d : List Nat) (r : Nat) : ((respond s p u st d0 d1 k d).part r).ringOvf = (s.part r).ringOvf := by
  obtain ⟨t, e⟩ := respond_part s p u st d0 d1 k d r
  rw [e]; by_cases h : r = p
  · subst h; cases u <;> simp [State.updMb]
  · simp [State.updMb, part_updPart_ne _ _ _ _ h]
@[simp] theorem respond_part_nmPend (s : State) (p : Nat) (u : Bool) (st d0 d1 k : Nat) (d : List Nat) (r : Nat) : ((respond s p u st d0 d1 k d).part r).nmPend = (s.part r).nmPend := by
  obtain ⟨t, e⟩ := respond_part s p u st d0 d1 k d r
  rw [e]; by_cases h : r = p
  · subst h; cases u <;> simp [State.updMb]
  · simp [State.updMb, part_updPart_ne _ _ _ _ h]
@[simp] theorem respond_part_slowDrop (s : State) (p : Nat) (u : Bool) (st d0 d1 k : Nat) (d : List Nat) (r : Nat) : ((respond s p u st d0 d1 k d).part r).slowDrop = (s.part r).slowDrop := by
  obtain ⟨t, e⟩ := respond_part s p u st d0 d1 k d r
  rw [e]; by_cases h : r = p
  · subst h; cases u <;> simp [State.updMb]
  · simp [State.updMb, part_updPart_ne _ _ _ _ h]
@[simp] theorem respond_part_wideLost (s : State) (p : Nat) (u : Bool) (st d0 d1 k : Nat) (d : List Nat) (r : Nat) : ((respond s p u st d0 d1 k d).part r).wideLost = (s.part r).wideLost := by
  obtain ⟨t, e⟩ := respond_part s p u st d0 d1 k d r
  rw [e]; by_cases h : r = p
  · subst h; cases u <;> simp [State.updMb]
  · simp [State.updMb, part_updPart_ne _ _ _ _ h]
@[simp] theorem respond_part_head (s : State) (p : Nat) (u : Bool) (st d0 d1 k : Nat) (d : List Nat) (r : Nat) : ((respond s p u st d0 d1 k d).part r).head = (s.part r).head := by
  obtain ⟨t, e⟩ := respond_part s p u st d0 d1 k d r
  rw [e]; by_cases h : r = p
  · subst h; cases u <;> simp [State.updMb]
  · simp [State.updMb, part_updPart_ne _ _ _ _ h]
@[simp] theorem respond_part_tail (s : State) (p : Nat) (u : Bool) (st d0 d1 k : Nat) (d : List Nat) (r : Nat) : ((respond s p u st d0 d1 k d).part r).tail = (s.part r).tail := by
  obtain ⟨t, e⟩ := respond_part s p u st d0 d1 k d r
  rw [e]; by_cases h : r = p
  · subst h; cases u <;> simp [State.updMb]
  · simp [State.updMb, part_updPart_ne _ _ _ _ h]
@[simp] theorem respond_part_ring (s : State) (p : Nat) (u : Bool) (st d0 d1 k : Nat) (d : List Nat) (r : Nat) : ((respond s p u st d0 d1 k d).part r).ring = (s.part r).ring := by
  obtain ⟨t, e⟩ := respond_part s p u st d0 d1 k d r
  rw [e]; by_cases h : r = p
  · subst h; cases u <;> simp [State.updMb]
  · simp [State.updMb, part_updPart_ne _ _ _ _ h]
@[simp] theorem respond_part_held (s : State) (p : Nat) (u : Bool) (st d0 d1 k : Nat) (d : List Nat) (r : Nat) : ((respond s p u st d0 d1 k d).part r).held = (s.part r).held := by
  obtain ⟨t, e⟩ := respond_part s p u st d0 d1 k d r
  rw [e]; by_cases h : r = p
  · subst h; cases u <;> simp [State.updMb]
  · simp [State.updMb, part_updPart_ne _ _ _ _ h]
@[simp] theorem respond_part_latTol (s : State) (p : Nat) (u : Bool) (st d0 d1 k : Nat) (d : List Nat) (r : Nat) : ((respond s p u st d0 d1 k d).part r).latTol = (s.part r).latTol := by
  obtain ⟨t, e⟩ := respond_part s p u st d0 d1 k d r
  rw [e]; by_cases h : r = p
  · subst h; cases u <;> simp [State.updMb]
  · simp [State.updMb, part_updPart_ne _ _ _ _ h]
@[simp] theorem respond_part_latEff (s : State) (p : Nat) (u : Bool) (st d0 d1 k : Nat) (d : List Nat) (r : Nat) : ((respond s p u st d0 d1 k d).part r).latEff = (s.part r).latEff := by
  obtain ⟨t, e⟩ := respond_part s p u st d0 d1 k d r
  rw [e]; by_cases h : r = p
  · subst h; cases u <;> simp [State.updMb]
  · simp [State.updMb, part_updPart_ne _ _ _ _ h]
@[simp] theorem respond_part_wide (s : State) (p : Nat) (u : Bool) (st d0 d1 k : Nat) (d : List Nat) (r : Nat) : ((respond s p u st d0 d1 k d).part r).wide = (s.part r).wide := by
  obtain ⟨t, e⟩ := respond_part s p u st d0 d1 k d r
  rw [e]; by_cases h : r = p
  · subst h; cases u <;> simp [State.updMb]
  · simp [State.updMb, part_updPart_ne _ _ _ _ h]
@[simp] theorem respond_part_slow (s : State) (p : Nat) (u : Bool) (st d0 d1 k : Nat) (d : List Nat) (r : Nat) : ((respond s p u st d0 d1 k d).part r).slow = (s.part r).slow := by
  obtain ⟨t, e⟩ := respond_part s p u st d0 d1 k d r
  rw [e]; by_cases h : r = p
  · subst h; cases u <;> simp [State.updMb]
  · simp [State.updMb, part_updPart_ne _ _ _ _ h]
@[simp] theorem respond_part_regions (s : State) (p : Nat) (u : Bool) (st d0 d1 k : Nat) (d : List Nat) (r : Nat) : ((respond s p u st d0 d1 k d).part r).regions = (s.part r).regions := by
  obtain ⟨t, e⟩ := respond_part s p u st d0 d1 k d r
  rw [e]; by_cases h : r = p
  · subst h; cases u <;> simp [State.updMb]
  · simp [State.updMb, part_updPart_ne _ _ _ _ h]
@[simp] theorem respond_part_ringRegion (s : State) (p : Nat) (u : Bool) (st d0 d1 k : Nat) (d : List Nat) (r : Nat) : ((respond s p u st d0 d1 k d).part r).ringRegion = (s.part r).ringRegion := by
  obtain ⟨t, e⟩ := respond_part s p u st d0 d1 k d r
  rw [e]; by_cases h : r = p
  · subst h; cases u <;> simp [State.updMb]
  · simp [State.updMb, part_updPart_ne _ _ _ _ h]
@[simp] theorem respond_part_sub (s : State) (p : Nat) (u : Bool) (st d0 d1 k : Nat) (d : List Nat) (r : Nat) : ((respond s p u st d0 d1 k d).part r).sub = (s.part r).sub := by
  obtain ⟨t, e⟩ := respond_part s p u st d0 d1 k d r
  rw [e]; by_cases h : r = p
  · subst h; cases u <;> simp [State.updMb]
  · simp [State.updMb, part_updPart_ne _ _ _ _ h]
@[simp] theorem respond_part_subNext (s : State) (p : Nat) (u : Bool) (st d0 d1 k : Nat) (d : List Nat) (r : Nat) : ((respond s p u st d0 d1 k d).part r).subNext = (s.part r).subNext := by
  obtain ⟨t, e⟩ := respond_part s p u st d0 d1 k d r
  rw [e]; by_cases h : r = p
  · subst h; cases u <;> simp [State.updMb]
  · simp [State.updMb, part_updPart_ne _ _ _ _ h]
@[simp] theorem respond_part_session (s : State) (p : Nat) (u : Bool) (st d0 d1 k : Nat) (d : List Nat) (r : Nat) : ((respond s p u st d0 d1 k d).part r).session = (s.part r).session := by
  obtain ⟨t, e⟩ := respond_part s p u st d0 d1 k d r
  rw [e]; by_cases h : r = p
  · subst h; cases u <;> simp [State.updMb]
  · simp [State.updMb, part_updPart_ne _ _ _ _ h]
@[simp] theorem respond_part_nonce (s : State) (p : Nat) (u : Bool) (st d0 d1 k : Nat) (d : List Nat) (r : Nat) : ((respond s p u st d0 d1 k d).part r).nonce = (s.part r).nonce := by
  obtain ⟨t, e⟩ := respond_part s p u st d0 d1 k d r
  rw [e]; by_cases h : r = p
  · subst h; cases u <;> simp [State.updMb]
  · simp [State.updMb, part_updPart_ne _ _ _ _ h]
@[simp] theorem respond_part_rtc (s : State) (p : Nat) (u : Bool) (st d0 d1 k : Nat) (d : List Nat) (r : Nat) : ((respond s p u st d0 d1 k d).part r).rtc = (s.part r).rtc := by
  obtain ⟨t, e⟩ := respond_part s p u st d0 d1 k d r
  rw [e]; by_cases h : r = p
  · subst h; cases u <;> simp [State.updMb]
  · simp [State.updMb, part_updPart_ne _ _ _ _ h]
@[simp] theorem respond_part_pnl (s : State) (p : Nat) (u : Bool) (st d0 d1 k : Nat) (d : List Nat) (r : Nat) : ((respond s p u st d0 d1 k d).part r).pnl = (s.part r).pnl := by
  obtain ⟨t, e⟩ := respond_part s p u st d0 d1 k d r
  rw [e]; by_cases h : r = p
  · subst h; cases u <;> simp [State.updMb]
  · simp [State.updMb, part_updPart_ne _ _ _ _ h]
@[simp] theorem respond_part_cartFlags (s : State) (p : Nat) (u : Bool) (st d0 d1 k : Nat) (d : List Nat) (r : Nat) : ((respond s p u st d0 d1 k d).part r).cartFlags = (s.part r).cartFlags := by
  obtain ⟨t, e⟩ := respond_part s p u st d0 d1 k d r
  rw [e]; by_cases h : r = p
  · subst h; cases u <;> simp [State.updMb]
  · simp [State.updMb, part_updPart_ne _ _ _ _ h]
@[simp] theorem respond_island (s : State) (p : Nat) (u : Bool) (st d0 d1 k : Nat) (d : List Nat) (i : Nat) : (respond s p u st d0 d1 k d).island i = s.island i := by
  simp only [State.island, respond_isl]

/-- A served command runs its meaning on its words. -/
theorem serve_eq {s : State} {p : Nat} {u : Bool} {c : CmdClass} {op : Nat} {ws : List Word} (h : Served s p u c op ws)
    {ls : List Nat} (hc : opInfo [BitVec.ofNat 32 op] = some (c, ls)) (hu : u = (c == .urgent)) (f : State → List Word → State) :
    serve s p op f = f s ws := by
  obtain ⟨h1, h2, h3, h4, h5⟩ := h
  subst hu
  simp only [serve, hc]
  simp only [h1, h2, h3, h4, h5]
  simp

end Sys2Proof.Machine
end

