-- ==== Sys2Proof/Laws/Bundle.lean ====
section
/-! SUPPORT. What a bundle that fits does, by the outcome of its slot A. -/

namespace Sys2Proof.Machine

@[simp] theorem bundleIn_s (s l n prog t a sb k) : (bundleIn s l n prog t a sb k).s = s := rfl
@[simp] theorem bundleIn_l (s l n prog t a sb k) : (bundleIn s l n prog t a sb k).l = l := rfl
@[simp] theorem bundleIn_prog (s l n prog t a sb k) : (bundleIn s l n prog t a sb k).prog = prog := rfl
@[simp] theorem bundleIn_t (s l n prog t a sb k) : (bundleIn s l n prog t a sb k).t = t := rfl
@[simp] theorem bundleIn_c0 (s l n prog t a sb k) : (bundleIn s l n prog t a sb k).c0 = ctxOf s l n := rfl
@[simp] theorem bundleIn_c1 (s l n prog t a sb k) : (bundleIn s l n prog t a sb k).c1 = (ctxOf s l n).afterB sb (bundleCycles s l n t a k) := rfl
@[simp] theorem bundleIn_img (s l n prog t a sb k) : (bundleIn s l n prog t a sb k).img = (s.lane l).img := rfl

/-- What a fitting bundle answers: the outcome of its slot A, and nothing before it. -/
theorem beBundle_fits {s : State} {l n prog t a b sb k} (h : BundleFits s l n prog t a b sb k) (cost : BeIn → Nat) (sa : BeIn → BeRes)
    (hk : ∀ x : BeIn, x.s = s → x.l = l → x.prog = prog → x.t = t → x.c0 = ctxOf s l n → x.shotLeft = t.shot - (ctxOf s l n).cyc →
      x.room = min (t.shot - (ctxOf s l n).cyc) (windowCycles s l - (s.lane l).be.used) - stallCycles s l t (ctxOf s l n) a → cost x = k) :
    beBundle l a b cost sa s =
      (let c := ctxOf s l n
       let c1 := c.afterB sb (bundleCycles s l n t a k)
       let s1 := updBe s l fun b => { b with used := b.used + bundleCycles s l n t a k }
       match sa (bundleIn s l n prog t a sb k) with
       | .go c2 m => updCtx (s1.updLane l fun v => { v with img := m }) l n fun _ => c2.fetched c.pc
       | .fixed c2 => noteCorrection (updCtx s1 l n fun _ => c2.fetched c.pc) l
       | .done c2 m =>
         endPeriod (updBe (s1.updLane l fun v => { v with img := m }) l fun b => { b with used := b.used + (c2.cyc - c1.cyc) })
           l n c2 t
       | .fail 5 w => taskMemoryError (spendCycles s l n (bundleCycles s l n t a k) t) l n (.image w)
       | .fail cause w => failPeriod (spendCycles s l n (bundleCycles s l n t a k) t) l n cause (if 3 ≤ cause then faultPay w c.pc else [])
       | .failImg cause m => failPeriod ((spendCycles s l n (bundleCycles s l n t a k) t).updLane l fun v => { v with img := m }) l n cause []) := by
  obtain ⟨h1, h2, h3, hr, h4, h5, h6, h7, h8, h9⟩ := h
  unfold beBundle
  simp only [h1, h2, h3]
  rw [hk _ rfl rfl rfl rfl rfl rfl rfl]
  have g5 : (s.lane l).be.poisonedCode.contains (ctxOf s l n).pc = false := by simpa using h5
  simp only [h4, hr, g5, h6, h7, Bool.and_self, Bool.not_true, Bool.false_eq_true, if_false]
  unfold bundleCycles at h8 h9 ⊢
  rw [if_neg (by omega), if_neg (by omega)]
  have e0 : min (stallCycles s l t (ctxOf s l n) a + k) (min (t.shot - (ctxOf s l n).cyc) (windowCycles s l - (s.lane l).be.used)) =
      stallCycles s l t (ctxOf s l n) a + k := by omega
  have e : min ((ctxOf s l n).cyc + (stallCycles s l t (ctxOf s l n) a + k)) t.shot =
      (ctxOf s l n).cyc + (stallCycles s l t (ctxOf s l n) a + k) := by omega
  simp only [e0, e]
  rfl

/-- A fitting bundle whose slot A goes on. -/
theorem beBundle_go {s : State} {l n prog t a b sb k} (h : BundleFits s l n prog t a b sb k) (cost : BeIn → Nat) (sa : BeIn → BeRes)
    (hk : ∀ x : BeIn, x.s = s → x.l = l → x.prog = prog → x.t = t → x.c0 = ctxOf s l n → x.shotLeft = t.shot - (ctxOf s l n).cyc →
      x.room = min (t.shot - (ctxOf s l n).cyc) (windowCycles s l - (s.lane l).be.used) - stallCycles s l t (ctxOf s l n) a → cost x = k)
    (f : Ctx → Ctx) (m : Mem)
    (hs : sa (bundleIn s l n prog t a sb k) = .go (f ((ctxOf s l n).afterB sb (bundleCycles s l n t a k))) m) :
    beBundle l a b cost sa s = bundleGoes s l n t a sb k f m := by
  rw [beBundle_fits h cost sa hk]
  simp only [hs, updCtx, updBe, updLane_updLane]
  rfl

/-- A fitting bundle whose slot A fails, and whose cause is cause 4. -/
theorem beBundle_fail {s : State} {l n prog t a b sb k} (h : BundleFits s l n prog t a b sb k) (cost : BeIn → Nat) (sa : BeIn → BeRes)
    (hk : ∀ x : BeIn, x.s = s → x.l = l → x.prog = prog → x.t = t → x.c0 = ctxOf s l n → x.shotLeft = t.shot - (ctxOf s l n).cyc →
      x.room = min (t.shot - (ctxOf s l n).cyc) (windowCycles s l - (s.lane l).be.used) - stallCycles s l t (ctxOf s l n) a → cost x = k) (w : Nat)
    (hs : sa (bundleIn s l n prog t a sb k) = .fail 4 w) : beBundle l a b cost sa s =
      failPeriod (spendCycles s l n (bundleCycles s l n t a k) t) l n 4 (faultPay w (ctxOf s l n).pc) := by
  rw [beBundle_fits h cost sa hk]; simp only [hs]; rfl

/-- A bundle that ends its task (R203). -/
theorem beBundle_done {s : State} {l n prog t a b sb k} (h : BundleFits s l n prog t a b sb k) (cost : BeIn → Nat) (sa : BeIn → BeRes)
    (hk : ∀ x : BeIn, x.s = s → x.l = l → x.prog = prog → x.t = t → x.c0 = ctxOf s l n → x.shotLeft = t.shot - (ctxOf s l n).cyc →
      x.room = min (t.shot - (ctxOf s l n).cyc) (windowCycles s l - (s.lane l).be.used) - stallCycles s l t (ctxOf s l n) a → cost x = k)
    (c : Ctx) (m : Mem) (hs : sa (bundleIn s l n prog t a sb k) = .done c m) :
    beBundle l a b cost sa s = endPeriod (updBe ((updBe s l fun b => { b with used := b.used + bundleCycles s l n t a k }).updLane l
        fun v => { v with img := m }) l
      fun b => { b with used := b.used + (c.cyc - ((ctxOf s l n).cyc + bundleCycles s l n t a k)) }) l n c t := by
  rw [beBundle_fits h cost sa hk]; simp only [hs]; rfl

/-- Slot B writes value registers alone. -/
theorem slotB_rest (c : Ctx) (sb : Slot) : (slotB c sb).pc = c.pc ∧ (slotB c sb).frames = c.frames ∧ (slotB c sb).loops = c.loops ∧ (slotB c sb).a = c.a := by
  unfold slotB; split
  · split
    · exact ⟨rfl, rfl, rfl, rfl⟩
    · exact ⟨rfl, rfl, rfl, rfl⟩
  · exact ⟨rfl, rfl, rfl, rfl⟩

end Sys2Proof.Machine
end

