-- ==== Sys2Proof/Laws/Detach.lean ====
section
/-! SUPPORT. What dropping a partition's holdings and starting its detachment do. -/

namespace Sys2Proof.Machine

/-- Detachment takes the staging areas, the lock with the staged loop words, and the session (R83). -/
def Partition.dropped (q : Partition) : Partition := { q with session := false, nonce := none }
/-- What detachment leaves of the station's holdings. -/
def Station.dropped (t : Station) (p : Nat) : Station :=
  { t with stage := t.stage.filter fun e => e.2.part != p, lock := if t.lock = some p then none else t.lock,
           loopStage := if t.lock = some p then [] else t.loopStage }

theorem dropHoldings_reports (s : State) (p : Nat) :
    Reports ((s.updSt fun t => t.dropped p).updPart p Partition.dropped) (dropHoldings s p) := by
  unfold dropHoldings; extract_lets s1 s2 s3
  have h1 : Reports (s.updSt fun t => t.dropped p) s2 := by
    simp only [s2]; split
    · rename_i h
      have h' : s.st.lock = some p := h
      refine Reports.trans ?_ (noteUnnamed_reports _ _ _ _)
      have e : (s.updSt fun t => t.dropped p) = s1.updSt fun t => { t with lock := none, loopStage := [] } := by
        simp only [s1, State.updSt, Station.dropped, h', if_true]
      rw [e]; exact dropLock_reports s1
    · rename_i h
      have h' : ¬ s.st.lock = some p := h
      have e : (s.updSt fun t => t.dropped p) = s1 := by
        simp only [s1, State.updSt, Station.dropped, h', if_false]
      rw [e]; exact .refl s1
  have h2 : Reports (s.updSt fun t => t.dropped p) s3 := by
    simp only [s3]; split
    · exact h1.trans (raise_reports _ _)
    · exact h1
  exact h2.updPart p _

theorem dropHoldings_emptied (s : State) (p : Nat) (h : ∀ c, s.st.commit = some c → c.part ≠ p) : Emptied (dropHoldings s p) p := by
  have r := dropHoldings_reports s p
  have hp := r.parts p
  have hs := r.st
  rw [part_updPart, part_updSt] at hp
  simp only [updPart_st, updSt_st] at hs
  generalize dropHoldings s p = x at hp hs ⊢
  have e3 : x.st.lock = (s.st.dropped p).lock := (congrArg Station.lock hs :)
  have e4 : x.st.stage = (s.st.dropped p).stage := (congrArg Station.stage hs :)
  have e5 : x.st.commit = s.st.commit := (congrArg Station.commit hs :)
  refine ⟨(congrArg Partition.session hp :), (congrArg Partition.nonce hp :), ?_, ?_, fun c hc => h c (e5 ▸ hc)⟩
  · rw [e3]; simp only [Station.dropped]; split
    · simp
    · assumption
  · rw [e4]; intro e he
    have he : e ∈ s.st.stage.filter fun e => e.2.part != p := he
    simpa using (List.mem_filter.mp he).2

/-- The end of a main mailbox's command by a detachment: a commit of the partition that is pending goes with it. -/
theorem endMainDetached_emptied (s : State) (p : Nat) :
    Emptied (endMainDetached s p) p ∧ ((endMainDetached s p).part p).att = (s.part p).att ∧
    ((endMainDetached s p).part p).grace = (s.part p).grace := by
  unfold endMainDetached; extract_lets m s1
  have h1 : ∀ c, s1.st.commit = some c → c.part ≠ p := by
    intro c hc
    have hc : s.st.commit.filter (fun c => c.part != p) = some c := hc
    simpa using (Option.filter_eq_some_iff.mp hc).2
  have h2 : ∀ x : State, x.st.commit = s1.st.commit → (x.part p).att = (s.part p).att → (x.part p).grace = (s.part p).grace →
      Emptied (dropHoldings x p) p ∧ ((dropHoldings x p).part p).att = (s.part p).att ∧
      ((dropHoldings x p).part p).grace = (s.part p).grace := by
    intro x hx ha hg
    have hp := (dropHoldings_reports x p).parts p
    rw [part_updPart, part_updSt] at hp
    refine ⟨dropHoldings_emptied x p fun c hc => h1 c (hx ▸ hc), ?_, ?_⟩
    · exact (congrArg Partition.att hp :).trans ha
    · exact (congrArg Partition.grace hp :).trans hg
  split
  · exact h2 _ (respond_st_commit ..) ((respond_part_att ..).trans rfl) ((respond_part_grace ..).trans rfl)
  · exact h2 _ rfl rfl rfl

/-- A detachment starts; unless a command of the main mailbox runs between two 4 KiB boundaries, the holdings go at once. -/
theorem startDetach_part (s : State) (p : Nat) :
    ((startDetach s p).part p).att = .detaching ∧ ((startDetach s p).part p).grace = false ∧
    (((s.part p).main.busy && (s.part p).main.phase == .running && !(s.part p).main.atBoundary 4096) = false → Emptied (startDetach s p) p) := by
  unfold startDetach; extract_lets s1 m
  have hm : m = (s.part p).main := by simp only [m, s1, part_updPart]
  have ha : (s1.part p).att = .detaching ∧ (s1.part p).grace = false := by simp [s1]
  obtain ⟨he, h1, h2⟩ := endMainDetached_emptied s1 p
  rw [← hm]
  split
  · rename_i h; exact ⟨ha.1, ha.2, fun h' => absurd h (by simp only [h']; exact Bool.false_ne_true)⟩
  · exact ⟨h1.trans ha.1, h2.trans ha.2, fun _ => he⟩

end Sys2Proof.Machine
end

