-- ==== Sys2Proof/Laws/Duty.lean ====
section
/-! SUPPORT. What a change of a lane's role does to its flows, CAN ports and tasks leaves everything else alone but reports. -/

namespace Sys2Proof.Machine

/-- A lane less its flows, CAN ports, block engine and staging area. -/
def Lane.duty (v : Lane) : Lane := { v with net := {}, can := [], be := {}, staging := {} }
/-- A state less reports, flows, CAN ports and block engines. -/
def State.lessNet (s : State) : State := { s.lessReports with a := s.a.duty, b := s.b.duty }
/-- `t` is `s` but for reports, flows, CAN ports and block engines. -/
structure Netted (s t : State) : Prop where
  rest : t.lessNet = s.lessNet
  parts : ∀ p, (t.part p).lessRing = (s.part p).lessRing

theorem Netted.refl (s : State) : Netted s s := ⟨rfl, fun _ => rfl⟩
theorem Netted.trans {s t u : State} (h : Netted s t) (g : Netted t u) : Netted s u :=
  ⟨g.rest.trans h.rest, fun p => (g.parts p).trans (h.parts p)⟩
theorem Reports.netted {s t : State} (h : Reports s t) : Netted s t := by
  refine ⟨?_, h.parts⟩
  have ea : t.a.duty = s.a.duty := (congrArg (fun v : Lane => v.duty) (h.lane .a) :)
  have eb : t.b.duty = s.b.duty := (congrArg (fun v : Lane => v.duty) (h.lane .b) :)
  simp only [State.lessNet, ea, eb, h.rest]
theorem netted_updLane (s : State) (l : LaneId) (f : Lane → Lane) (hf : (f (s.lane l)).duty = (s.lane l).duty) : Netted s (s.updLane l f) := by
  refine ⟨?_, fun p => by rw [part_updLane]⟩
  cases l
  · show { (s.updLane .a f).lessReports with a := (f (s.lane .a)).duty, b := s.b.duty } = _
    rw [hf]; rfl
  · show { (s.updLane .b f).lessReports with a := s.a.duty, b := (f (s.lane .b)).duty } = _
    rw [hf]; rfl
theorem netted_foldl {α : Type} (f : State → α → State) (xs : List α) (hf : ∀ s x, Netted s (f s x)) (s : State) : Netted s (xs.foldl f s) := by
  induction xs generalizing s with
  | nil => exact .refl s
  | cons x xs ih => exact (hf s x).trans (ih _)
theorem netted_foldl_mem {α : Type} (f : State → α → State) (xs : List α) (hf : ∀ s x, x ∈ xs → Netted s (f s x)) (s : State) :
    Netted s (xs.foldl f s) := by
  induction xs generalizing s with
  | nil => exact .refl s
  | cons x xs ih => exact (hf s x (by simp)).trans (ih (fun s y hy => hf s y (by simp [hy])) _)
theorem netted_emit (s : State) (o : Out) : Netted s (s.emit o) := ⟨rfl, fun _ => rfl⟩

theorem Netted.grid {s t : State} (h : Netted s t) : t.grid = s.grid := (congrArg State.grid h.rest :)
theorem Netted.isl {s t : State} (h : Netted s t) : t.isl = s.isl := (congrArg State.isl h.rest :)
theorem Netted.sk {s t : State} (h : Netted s t) : t.sk = s.sk := (congrArg State.sk h.rest :)
theorem Netted.st {s t : State} (h : Netted s t) : { t.st with limits := [] } = { s.st with limits := [] } := (congrArg State.st h.rest :)
theorem Netted.lane {s t : State} (h : Netted s t) (l : LaneId) : (t.lane l).duty = (s.lane l).duty := by
  cases l; exacts [(congrArg State.a h.rest :), (congrArg State.b h.rest :)]
theorem Netted.role {s t : State} (h : Netted s t) (l : LaneId) : (t.lane l).role = (s.lane l).role := (congrArg Lane.role (h.lane l) :)
theorem Netted.cause {s t : State} (h : Netted s t) (l : LaneId) : (t.lane l).cause = (s.lane l).cause := (congrArg Lane.cause (h.lane l) :)
theorem Netted.phase {s t : State} (h : Netted s t) (l : LaneId) : (t.lane l).phase = (s.lane l).phase := (congrArg Lane.phase (h.lane l) :)
theorem Netted.health {s t : State} (h : Netted s t) (l : LaneId) : (t.lane l).health = (s.lane l).health := (congrArg Lane.health (h.lane l) :)
theorem Netted.tok {s t : State} (h : Netted s t) (l : LaneId) : (t.lane l).tok = (s.lane l).tok := (congrArg Lane.tok (h.lane l) :)
theorem Netted.img {s t : State} (h : Netted s t) (l : LaneId) : (t.lane l).img = (s.lane l).img := (congrArg Lane.img (h.lane l) :)

theorem offlineFlows_netted (s : State) (l : LaneId) : Netted s (offlineFlows s l) := by
  unfold offlineFlows State.updNet; exact netted_updLane s l _ rfl
theorem canListen_netted (s : State) (l : LaneId) (b : Bool) : Netted s (canListen s l b) := by
  unfold canListen; exact netted_updLane s l _ rfl
theorem updFlow_netted (s : State) (l : LaneId) (n : Nat) (f) : Netted s (updFlow s l n f) := by
  unfold updFlow State.updNet; exact netted_updLane s l _ rfl
theorem updCan_netted (s : State) (l : LaneId) (n : Nat) (f) (h : isSc n = false) : Netted s (updCan s l n f) := by
  unfold updCan; rw [if_neg (by simp [h])]; exact netted_updLane s l _ rfl
theorem canEvent_netted (s : State) (l : LaneId) (p a b : Nat) (o) : Netted s (canEvent s l p a b o) := by
  unfold canEvent; extract_lets w; split
  · exact .refl s
  · exact (raise_reports _ _).netted
theorem standbyFlows_netted (s : State) (l : LaneId) : Netted s (standbyFlows s l) := by
  unfold standbyFlows; exact netted_foldl _ _ (fun s _ => updFlow_netted s l _ _) s
theorem hookStandby_netted (s : State) (l : LaneId) : Netted s (hookStandby s l) :=
  (standbyFlows_netted s l).trans (canListen_netted _ l _)
theorem hookOffline_netted (s : State) (l : LaneId) : Netted s (hookOffline s l) :=
  (offlineFlows_netted s l).trans (canListen_netted _ l _)
theorem sendPlant_netted (s : State) (l : LaneId) (o : Nat → Out) : Netted s (sendPlant s l o) := by
  unfold sendPlant; refine Netted.trans ?_ (netted_emit _ _)
  simp only [sendBoth, countPort, State.updNet]
  exact ((netted_updLane _ _ _ rfl).trans (netted_updLane _ _ _ rfl)).trans (netted_updLane _ _ _ rfl)
theorem takeoverFlows_netted (s : State) (l : LaneId) : Netted s (takeoverFlows s l) := by
  unfold takeoverFlows; extract_lets s1
  have h1 : Netted s s1 := netted_foldl _ _ (fun s _ => updFlow_netted s l _ _) s
  split
  · exact h1.trans (sendPlant_netted _ _ _)
  · exact h1
theorem canTakeover_netted (s : State) (l : LaneId) : Netted s (canTakeover s l) := by
  refine netted_foldl_mem _ _ (fun s p hp => ?_) s
  have hq : isSc p = false := by simp [isSc, List.mem_range.mp hp]
  split
  · exact .refl s
  · extract_lets s1
    exact (updCan_netted s l _ _ hq).trans (canEvent_netted _ _ _ _ _ _)
theorem takeoverTasks_netted (s : State) (l : LaneId) : Netted s (takeoverTasks s l) := by
  unfold takeoverTasks; exact netted_updLane s l _ rfl
theorem hookTakeover_netted (s : State) (l : LaneId) : Netted s (hookTakeover s l) :=
  ((takeoverTasks_netted s l).trans (takeoverFlows_netted _ l)).trans (canTakeover_netted _ l)

/-- A lane that goes OFFLINE: its role and cause, whatever the reports and the partner's role become. -/
theorem goOffline_lane (s : State) (l : LaneId) (c : OffCause) (h : (s.lane l).role ≠ .offline) :
    ((goOffline s l c).lane l).role = .offline ∧ ((goOffline s l c).lane l).cause = c ∧
    ((s.lane (other l)).role = .active → ((goOffline s l c).lane (other l)).role = .solo) ∧
    ((s.lane (other l)).role ≠ .active → ((goOffline s l c).lane (other l)).role = (s.lane (other l)).role) := by
  unfold goOffline
  rw [if_neg (by simpa using h)]
  extract_lets s1 s2 s3
  have h3 : Netted s1 s3 := (hookOffline_netted s1 l).trans (redEvent_reports _ _ _ _ _).netted
  have ho : s1.lane (other l) = s.lane (other l) := lane_updLane_other _ _ _
  have r0 : (s3.lane l).role = .offline := (h3.role l).trans (by simp only [s1, lane_updLane])
  have c0 : (s3.lane l).cause = c := (h3.cause l).trans (by simp only [s1, lane_updLane])
  have ro : (s3.lane (other l)).role = (s.lane (other l)).role := (h3.role _).trans (by rw [ho])
  have hl : l ≠ other l := by cases l <;> simp [other]
  simp only [partnerGone]
  split
  · rename_i ha
    have ha : (s.lane (other l)).role = .active := by rw [← ro]; exact beq_iff_eq.mp ha
    simp only [noteRole, noteUnnamed, raise_lane_role, raise_lane_cause]
    rw [lane_updLane_ne _ _ _ _ hl]
    exact ⟨r0, c0, fun _ => by rw [lane_updLane], fun h => absurd ha h⟩
  · rename_i ha
    have ha : ¬ (s.lane (other l)).role = .active := by rw [← ro]; exact fun h => ha (beq_iff_eq.mpr h)
    exact ⟨r0, c0, fun h => absurd h ha, fun _ => ro⟩

end Sys2Proof.Machine
end

