-- ==== Sys2Proof/Laws/PerInstr.lean ====
section
/-! SUPPORT. Per-command facts of the syntax: no row of the table is shut out by the checks of WellFormed. -/

namespace Sys2Proof.Laws.F

/-- Some well-formed command is of the same row. -/
def Statement (i : Instr) : Prop := ∃ j : Instr, j.ctorIdx = i.ctorIdx ∧ j.wf = true

theorem registerWrite : ∀ (p : Part) (slow : Bool) (addr size : Nat) (data : DWord) (via : Arrival),
    Statement (.registerWrite p slow addr size data via) :=
  fun p slow _ _ data via => ⟨.registerWrite p slow 0 4 data via, rfl, by cases slow <;> rfl⟩
theorem winCtrlAttach (p : Part) (bus : Bus) (lane : LaneId) (data : Word) : Statement (.winCtrlAttach p bus lane data) := ⟨.winCtrlAttach p bus lane data, rfl, rfl⟩
theorem winCtrlDetach (p : Part) (data : Word) : Statement (.winCtrlDetach p data) := ⟨.winCtrlDetach p data, rfl, rfl⟩
theorem detachComplete (p : Part) : Statement (.detachComplete p) := ⟨.detachComplete p, rfl, rfl⟩
theorem evStatusClear (p : Part) (data : Word) : Statement (.evStatusClear p data) := ⟨.evStatusClear p data, rfl, rfl⟩
theorem evIndexWrite (p : Part) (data : Word) : Statement (.evIndexWrite p data) := ⟨.evIndexWrite p data, rfl, rfl⟩
theorem latTolWrite (p : Part) (data : Word) : Statement (.latTolWrite p data) := ⟨.latTolWrite p data, rfl, rfl⟩
theorem mbDoorbell (p : Part) (data : Word) : Statement (.mbDoorbell p data) := ⟨.mbDoorbell p data, rfl, rfl⟩
theorem wideSelWrite (p : Part) (data : Word) (via : Arrival) : Statement (.wideSelWrite p data via) :=
  ⟨.wideSelWrite p data via, rfl, rfl⟩
theorem wideCaptureDone (p : Part) : Statement (.wideCaptureDone p) := ⟨.wideCaptureDone p, rfl, rfl⟩
theorem wideD3Read (p : Part) : Statement (.wideD3Read p) := ⟨.wideD3Read p, rfl, rfl⟩
theorem slowReadStart (p : Part) (data : Word) : Statement (.slowReadStart p data) := ⟨.slowReadStart p data, rfl, rfl⟩
theorem slowWritePost (p : Part) (data : Word) : Statement (.slowWritePost p data) := ⟨.slowWritePost p data, rfl, rfl⟩
theorem slowAccessDone (p : Part) (x : SlowSample) (cycle : List (Part × SlowSample)) : Statement (.slowAccessDone p x cycle) := ⟨.slowAccessDone p x cycle, rfl, rfl⟩
theorem attach (p : Part) : Statement (.attach p) := ⟨.attach p, rfl, rfl⟩
theorem sessionOpen (p : Part) : Statement (.sessionOpen p) := ⟨.sessionOpen p, rfl, rfl⟩
theorem sessionClose (p : Part) : Statement (.sessionClose p) := ⟨.sessionClose p, rfl, rfl⟩
theorem lockAcquire (p : Part) : Statement (.lockAcquire p) := ⟨.lockAcquire p, rfl, rfl⟩
theorem lockRelease (p : Part) : Statement (.lockRelease p) := ⟨.lockRelease p, rfl, rfl⟩
theorem eventSubscribe (p : Part) : Statement (.eventSubscribe p) := ⟨.eventSubscribe p, rfl, rfl⟩
theorem eventRead (p : Part) : Statement (.eventRead p) := ⟨.eventRead p, rfl, rfl⟩
theorem statusGet (p : Part) : Statement (.statusGet p) := ⟨.statusGet p, rfl, rfl⟩
theorem configBegin (p : Part) : Statement (.configBegin p) := ⟨.configBegin p, rfl, rfl⟩
theorem configChunk (p : Part) : Statement (.configChunk p) := ⟨.configChunk p, rfl, rfl⟩
theorem configCommit (p : Part) : Statement (.configCommit p) := ⟨.configCommit p, rfl, rfl⟩
theorem configAbort (p : Part) : Statement (.configAbort p) := ⟨.configAbort p, rfl, rfl⟩
theorem start (p : Part) : Statement (.start p) := ⟨.start p, rfl, rfl⟩
theorem stop (p : Part) : Statement (.stop p) := ⟨.stop p, rfl, rfl⟩
theorem endsChange (p : Part) : Statement (.endsChange p) := ⟨.endsChange p, rfl, rfl⟩
theorem safeShutdown (p : Part) : Statement (.safeShutdown p) := ⟨.safeShutdown p, rfl, rfl⟩
theorem valuePatch (p : Part) : Statement (.valuePatch p) := ⟨.valuePatch p, rfl, rfl⟩
theorem loopMode (p : Part) : Statement (.loopMode p) := ⟨.loopMode p, rfl, rfl⟩
theorem loopParam (p : Part) : Statement (.loopParam p) := ⟨.loopParam p, rfl, rfl⟩
theorem imageRead (p : Part) : Statement (.imageRead p) := ⟨.imageRead p, rfl, rfl⟩
theorem recorderRead (p : Part) : Statement (.recorderRead p) := ⟨.recorderRead p, rfl, rfl⟩
theorem recorderClear (p : Part) : Statement (.recorderClear p) := ⟨.recorderClear p, rfl, rfl⟩
theorem flowStats (p : Part) : Statement (.flowStats p) := ⟨.flowStats p, rfl, rfl⟩
theorem retainedRead (p : Part) : Statement (.retainedRead p) := ⟨.retainedRead p, rfl, rfl⟩
theorem bulkBoundary : Statement (.bulkBoundary) := ⟨.bulkBoundary, rfl, rfl⟩
theorem dmaCompletion : ∀ (p : Part) (urgent ok : Bool) (status : Word) (data : List Byte), Statement (.dmaCompletion p urgent ok status data) :=
  fun p urg _ st _ => ⟨.dmaCompletion p urg true st [], rfl, rfl⟩
theorem dmaCompletionTimeout (p : Part) (urgent : Bool) : Statement (.dmaCompletionTimeout p urgent) := ⟨.dmaCompletionTimeout p urgent, rfl, rfl⟩
theorem hostLinkLost (p : Part) : Statement (.hostLinkLost p) := ⟨.hostLinkLost p, rfl, rfl⟩
theorem linkGraceExpired (p : Part) : Statement (.linkGraceExpired p) := ⟨.linkGraceExpired p, rfl, rfl⟩
theorem sessionIdleTimeout (p : Part) : Statement (.sessionIdleTimeout p) := ⟨.sessionIdleTimeout p, rfl, rfl⟩
theorem authLockoutEnd : Statement (.authLockoutEnd) := ⟨.authLockoutEnd, rfl, rfl⟩
theorem thlHello : ∀ (p : Part) (rx : Rx) (lane : LaneId) (nonce : List Byte), Statement (.thlHello p rx lane nonce) :=
  fun p rx l _ => ⟨.thlHello p rx l (List.replicate 16 0), rfl, rfl⟩
theorem thlRegRead : ∀ (p : Part) (rx : Rx) (sess seq addr : Nat) (tag : List Byte), Statement (.thlRegRead p rx sess seq addr tag) :=
  fun p rx ss _ _ _ => ⟨.thlRegRead p rx ss 0 0 (List.replicate 16 0), rfl, rfl⟩
theorem thlRegWrite : ∀ (p : Part) (rx : Rx) (sess seq addr : Nat) (data : Word) (tag : List Byte) (dt : Nat), Statement (.thlRegWrite p rx sess seq addr data tag dt) :=
  fun p rx ss _ _ d _ dt => ⟨.thlRegWrite p rx ss 0 0 d (List.replicate 16 0) dt, rfl, rfl⟩
theorem thlData : ∀ (p : Part) (rx : Rx) (sess seq cmdSeq offset : Nat) (data tag : List Byte), Statement (.thlData p rx sess seq cmdSeq offset data tag) :=
  fun p rx ss _ cs o _ _ => ⟨.thlData p rx ss 0 cs o [] (List.replicate 16 0), rfl, rfl⟩
theorem thlAck : ∀ (p : Part) (rx : Rx) (sess seq cmdSeq offset : Nat) (tag : List Byte), Statement (.thlAck p rx sess seq cmdSeq offset tag) :=
  fun p rx ss _ cs o _ => ⟨.thlAck p rx ss 0 cs o (List.replicate 16 0), rfl, rfl⟩
theorem thlStalled (p : Part) (urgent : Bool) : Statement (.thlStalled p urgent) := ⟨.thlStalled p urgent, rfl, rfl⟩
theorem logicPowerGood (l : LaneId) (cid : BitVec 4) (feedMv : Nat) (mac : Nat) (map : Option (List (Nat × Fin 4))) : Statement (.logicPowerGood l cid feedMv mac map) := ⟨.logicPowerGood l cid feedMv mac map, rfl, rfl⟩
theorem windowUp (l : LaneId) (fw : Nat) : Statement (.windowUp l fw) := ⟨.windowUp l fw, rfl, rfl⟩
theorem clockQualification (l : LaneId) (tcxo rc : Nat) : Statement (.clockQualification l tcxo rc) := ⟨.clockQualification l tcxo rc, rfl, rfl⟩
theorem thlBootstrapStart (l : LaneId) (conflict : Bool) : Statement (.thlBootstrapStart l conflict) := ⟨.thlBootstrapStart l conflict, rfl, rfl⟩
theorem rolesStep (l : LaneId) : Statement (.rolesStep l) := ⟨.rolesStep l, rfl, rfl⟩
theorem roleWaitTimeout : Statement (.roleWaitTimeout) := ⟨.roleWaitTimeout, rfl, rfl⟩
theorem startupComplete (l : LaneId) : Statement (.startupComplete l) := ⟨.startupComplete l, rfl, rfl⟩
theorem startupStepFail (l : LaneId) (step code : Nat) : Statement (.startupStepFail l step code) := ⟨.startupStepFail l step code, rfl, rfl⟩
theorem tickEdge (skewNs : Int) : Statement (.tickEdge skewNs) := ⟨.tickEdge skewNs, rfl, rfl⟩
theorem configApply : Statement (.configApply) := ⟨.configApply, rfl, rfl⟩
theorem commitConfirm : Statement (.commitConfirm) := ⟨.commitConfirm, rfl, rfl⟩
theorem commitConfirmTimeout : Statement (.commitConfirmTimeout) := ⟨.commitConfirmTimeout, rfl, rfl⟩
theorem inputSwap (l : LaneId) : Statement (.inputSwap l) := ⟨.inputSwap l, rfl, rfl⟩
theorem mx1Swap (l : LaneId) : Statement (.mx1Swap l) := ⟨.mx1Swap l, rfl, rfl⟩
theorem beWindowClose (l : LaneId) : Statement (.beWindowClose l) := ⟨.beWindowClose l, rfl, rfl⟩
theorem outputCutoff (l : LaneId) (leLate : Option (Fin 128)) : Statement (.outputCutoff l leLate) := ⟨.outputCutoff l leLate, rfl, rfl⟩
theorem islandEdge : ∀ (isl : Isl) (sample : FieldSample), Statement (.islandEdge isl sample) :=
  fun _ _ => ⟨.islandEdge 6 .sk, rfl, rfl⟩
theorem edgeMarker (isl : Isl) (l : LaneId) (correctionNs : Nat) : Statement (.edgeMarker isl l correctionNs) := ⟨.edgeMarker isl l correctionNs, rfl, rfl⟩
theorem islandInputFrame (isl : Isl) (l : LaneId) (crcOk : Bool) : Statement (.islandInputFrame isl l crcOk) := ⟨.islandInputFrame isl l crcOk, rfl, rfl⟩
theorem islandOutputFrame (isl : Isl) (l : LaneId) (crcOk late : Bool) : Statement (.islandOutputFrame isl l crcOk late) := ⟨.islandOutputFrame isl l crcOk late, rfl, rfl⟩
theorem islandWatchdogExpired (isl : Isl) : Statement (.islandWatchdogExpired isl) := ⟨.islandWatchdogExpired isl, rfl, rfl⟩
theorem tokenRequest (l : LaneId) : Statement (.tokenRequest l) := ⟨.tokenRequest l, rfl, rfl⟩
theorem tokenRequestRetry (l : LaneId) : Statement (.tokenRequestRetry l) := ⟨.tokenRequestRetry l, rfl, rfl⟩
theorem tokenReply (l : LaneId) : Statement (.tokenReply l) := ⟨.tokenReply l, rfl, rfl⟩
theorem grantRecord (isl : Isl) (l : LaneId) (record : List Byte) : Statement (.grantRecord isl l record) := ⟨.grantRecord isl l record, rfl, rfl⟩
theorem releaseWord (isl : Isl) (l : LaneId) : Statement (.releaseWord isl l) := ⟨.releaseWord isl l, rfl, rfl⟩
theorem shotClockExpired (l : LaneId) : Statement (.shotClockExpired l) := ⟨.shotClockExpired l, rfl, rfl⟩
theorem uncorrectableError (l : LaneId) (site : EccSite) : Statement (.uncorrectableError l site) := ⟨.uncorrectableError l site, rfl, rfl⟩
theorem beNop (l : LaneId) (b : Word) : Statement (.beNop l b) := ⟨.beNop l b, rfl, rfl⟩
theorem beMov (l : LaneId) (ty : Ty) (d s1 : VReg) (b : Word) : Statement (.beMov l ty d s1 b) := ⟨.beMov l ty d s1 b, rfl, rfl⟩
theorem beMovi (l : LaneId) (ty : Ty) (d : VReg) (imm : BitVec 11) (b : Word) : Statement (.beMovi l ty d imm b) := ⟨.beMovi l ty d imm b, rfl, rfl⟩
theorem beLd (l : LaneId) (ty : Ty) (v : VReg) (a : AReg) (disp : BitVec 13) (ecc : Bool) (b : Word) : Statement (.beLd l ty v a disp ecc b) := ⟨.beLd l ty v a disp ecc b, rfl, rfl⟩
theorem beSt (l : LaneId) (ty : Ty) (v : VReg) (a : AReg) (disp : BitVec 13) (b : Word) : Statement (.beSt l ty v a disp b) := ⟨.beSt l ty v a disp b, rfl, rfl⟩
theorem beLda (l : LaneId) (d a : AReg) (disp : BitVec 13) (b : Word) : Statement (.beLda l d a disp b) := ⟨.beLda l d a disp b, rfl, rfl⟩
theorem beIdxc (l : LaneId) (scale : Fin 4) (d a : AReg) (v : VReg) (boundM1 : BitVec 10) (b : Word) : Statement (.beIdxc l scale d a v boundM1 b) := ⟨.beIdxc l scale d a v boundM1 b, rfl, rfl⟩
theorem beItpl (l : LaneId) (a : AReg) (count : BitVec 13) (b : Word) : Statement (.beItpl l a count b) := ⟨.beItpl l a count b, rfl, rfl⟩
theorem beAdd (l : LaneId) (ty : Ty) (d s1 s2 : VReg) (b : Word) : Statement (.beAdd l ty d s1 s2 b) := ⟨.beAdd l ty d s1 s2 b, rfl, rfl⟩
theorem beSub (l : LaneId) (ty : Ty) (d s1 s2 : VReg) (b : Word) : Statement (.beSub l ty d s1 s2 b) := ⟨.beSub l ty d s1 s2 b, rfl, rfl⟩
theorem beAdds (l : LaneId) (ty : Ty) (d s1 s2 : VReg) (b : Word) : Statement (.beAdds l ty d s1 s2 b) := ⟨.beAdds l ty d s1 s2 b, rfl, rfl⟩
theorem beSubs (l : LaneId) (ty : Ty) (d s1 s2 : VReg) (b : Word) : Statement (.beSubs l ty d s1 s2 b) := ⟨.beSubs l ty d s1 s2 b, rfl, rfl⟩
theorem beMul (l : LaneId) (ty : Ty) (d s1 s2 : VReg) (b : Word) : Statement (.beMul l ty d s1 s2 b) := ⟨.beMul l ty d s1 s2 b, rfl, rfl⟩
theorem beDiv (l : LaneId) (ty : Ty) (d s1 s2 : VReg) (b : Word) : Statement (.beDiv l ty d s1 s2 b) := ⟨.beDiv l ty d s1 s2 b, rfl, rfl⟩
theorem beMod (l : LaneId) (ty : Ty) (d s1 s2 : VReg) (b : Word) : Statement (.beMod l ty d s1 s2 b) := ⟨.beMod l ty d s1 s2 b, rfl, rfl⟩
theorem beNeg (l : LaneId) (ty : Ty) (d s1 : VReg) (b : Word) : Statement (.beNeg l ty d s1 b) := ⟨.beNeg l ty d s1 b, rfl, rfl⟩
theorem beAbs (l : LaneId) (ty : Ty) (d s1 : VReg) (b : Word) : Statement (.beAbs l ty d s1 b) := ⟨.beAbs l ty d s1 b, rfl, rfl⟩
theorem beMin (l : LaneId) (ty : Ty) (d s1 s2 : VReg) (b : Word) : Statement (.beMin l ty d s1 s2 b) := ⟨.beMin l ty d s1 s2 b, rfl, rfl⟩
theorem beMax (l : LaneId) (ty : Ty) (d s1 s2 : VReg) (b : Word) : Statement (.beMax l ty d s1 s2 b) := ⟨.beMax l ty d s1 s2 b, rfl, rfl⟩
theorem beSqrt (l : LaneId) (ty : Ty) (d s1 : VReg) (b : Word) : Statement (.beSqrt l ty d s1 b) := ⟨.beSqrt l ty d s1 b, rfl, rfl⟩
theorem beCvt (l : LaneId) (ty : Ty) (d s1 : VReg) (src : Ty) (b : Word) : Statement (.beCvt l ty d s1 src b) := ⟨.beCvt l ty d s1 src b, rfl, rfl⟩
theorem beAnd (l : LaneId) (ty : Ty) (d s1 s2 : VReg) (b : Word) : Statement (.beAnd l ty d s1 s2 b) := ⟨.beAnd l ty d s1 s2 b, rfl, rfl⟩
theorem beOr (l : LaneId) (ty : Ty) (d s1 s2 : VReg) (b : Word) : Statement (.beOr l ty d s1 s2 b) := ⟨.beOr l ty d s1 s2 b, rfl, rfl⟩
theorem beXor (l : LaneId) (ty : Ty) (d s1 s2 : VReg) (b : Word) : Statement (.beXor l ty d s1 s2 b) := ⟨.beXor l ty d s1 s2 b, rfl, rfl⟩
theorem beNot (l : LaneId) (ty : Ty) (d s1 : VReg) (b : Word) : Statement (.beNot l ty d s1 b) := ⟨.beNot l ty d s1 b, rfl, rfl⟩
theorem beShl (l : LaneId) (ty : Ty) (d s1 : VReg) (imm : BitVec 11) (b : Word) : Statement (.beShl l ty d s1 imm b) := ⟨.beShl l ty d s1 imm b, rfl, rfl⟩
theorem beShr (l : LaneId) (ty : Ty) (d s1 : VReg) (imm : BitVec 11) (b : Word) : Statement (.beShr l ty d s1 imm b) := ⟨.beShr l ty d s1 imm b, rfl, rfl⟩
theorem beCeq (l : LaneId) (ty : Ty) (d s1 s2 : VReg) (b : Word) : Statement (.beCeq l ty d s1 s2 b) := ⟨.beCeq l ty d s1 s2 b, rfl, rfl⟩
theorem beCne (l : LaneId) (ty : Ty) (d s1 s2 : VReg) (b : Word) : Statement (.beCne l ty d s1 s2 b) := ⟨.beCne l ty d s1 s2 b, rfl, rfl⟩
theorem beClt (l : LaneId) (ty : Ty) (d s1 s2 : VReg) (b : Word) : Statement (.beClt l ty d s1 s2 b) := ⟨.beClt l ty d s1 s2 b, rfl, rfl⟩
theorem beCle (l : LaneId) (ty : Ty) (d s1 s2 : VReg) (b : Word) : Statement (.beCle l ty d s1 s2 b) := ⟨.beCle l ty d s1 s2 b, rfl, rfl⟩
theorem beSel (l : LaneId) (ty : Ty) (d s1 s2 : VReg) (b : Word) : Statement (.beSel l ty d s1 s2 b) := ⟨.beSel l ty d s1 s2 b, rfl, rfl⟩
theorem beBra (l : LaneId) (off : BitVec 16) (b : Word) : Statement (.beBra l off b) := ⟨.beBra l off b, rfl, rfl⟩
theorem beBrz (l : LaneId) (v : VReg) (off : BitVec 16) (b : Word) : Statement (.beBrz l v off b) := ⟨.beBrz l v off b, rfl, rfl⟩
theorem beBrnz (l : LaneId) (v : VReg) (off : BitVec 16) (b : Word) : Statement (.beBrnz l v off b) := ⟨.beBrnz l v off b, rfl, rfl⟩
theorem beLoop (l : LaneId) (v : VReg) (bound : BitVec 16) (b : Word) : Statement (.beLoop l v bound b) := ⟨.beLoop l v bound b, rfl, rfl⟩
theorem beEndl (l : LaneId) (b : Word) : Statement (.beEndl l b) := ⟨.beEndl l b, rfl, rfl⟩
theorem beCallb (l : LaneId) (a : AReg) (typeNo : BitVec 12) (b : Word) : Statement (.beCallb l a typeNo b) := ⟨.beCallb l a typeNo b, rfl, rfl⟩
theorem beRetb (l : LaneId) (b : Word) : Statement (.beRetb l b) := ⟨.beRetb l b, rfl, rfl⟩
theorem beEnd (l : LaneId) (b : Word) : Statement (.beEnd l b) := ⟨.beEnd l b, rfl, rfl⟩
theorem loopQbadExpired (l : LaneId) (n : Fin 128) : Statement (.loopQbadExpired l n) := ⟨.loopQbadExpired l n, rfl, rfl⟩
theorem loopFeExpired (l : LaneId) (n : Fin 128) : Statement (.loopFeExpired l n) := ⟨.loopFeExpired l n, rfl, rfl⟩
theorem chainStaleExpired (l : LaneId) (n : Fin 16) : Statement (.chainStaleExpired l n) := ⟨.chainStaleExpired l n, rfl, rfl⟩
theorem chainHoldExpired (l : LaneId) (n : Fin 16) : Statement (.chainHoldExpired l n) := ⟨.chainHoldExpired l n, rfl, rfl⟩
theorem chainFadeEnd (l : LaneId) (n : Fin 16) : Statement (.chainFadeEnd l n) := ⟨.chainFadeEnd l n, rfl, rfl⟩
theorem chainSettleEnd (l : LaneId) (n : Fin 16) : Statement (.chainSettleEnd l n) := ⟨.chainSettleEnd l n, rfl, rfl⟩
theorem heartbeatWord (l : LaneId) (w : HbWord) (crcOk : Bool) : Statement (.heartbeatWord l w crcOk) := ⟨.heartbeatWord l w crcOk, rfl, rfl⟩
theorem beaconExtinguish (l : LaneId) : Statement (.beaconExtinguish l) := ⟨.beaconExtinguish l, rfl, rfl⟩
theorem partnerFailureDeclared (l : LaneId) : Statement (.partnerFailureDeclared l) := ⟨.partnerFailureDeclared l, rfl, rfl⟩
theorem pathFault (l : LaneId) (kind : PathFaultKind) : Statement (.pathFault l kind) := ⟨.pathFault l kind, rfl, rfl⟩
theorem takeoverTick (l : LaneId) : Statement (.takeoverTick l) := ⟨.takeoverTick l, rfl, rfl⟩
theorem snapshotPiece (l : LaneId) (tick : Nat) (piece : SnapPiece) : Statement (.snapshotPiece l tick piece) := ⟨.snapshotPiece l tick piece, rfl, rfl⟩
theorem snapshotDiscard (l : LaneId) : Statement (.snapshotDiscard l) := ⟨.snapshotDiscard l, rfl, rfl⟩
theorem endsIntervalDue : Statement (.endsIntervalDue) := ⟨.endsIntervalDue, rfl, rfl⟩
theorem endsDeferredStart : Statement (.endsDeferredStart) := ⟨.endsDeferredStart, rfl, rfl⟩
theorem endsSwapEdge : Statement (.endsSwapEdge) := ⟨.endsSwapEdge, rfl, rfl⟩
theorem selfCheckFail : Statement (.selfCheckFail) := ⟨.selfCheckFail, rfl, rfl⟩
theorem reintStart (l : LaneId) : Statement (.reintStart l) := ⟨.reintStart l, rfl, rfl⟩
theorem reintCopyClosed (l : LaneId) : Statement (.reintCopyClosed l) := ⟨.reintCopyClosed l, rfl, rfl⟩
theorem reintCopyTimeout (l : LaneId) : Statement (.reintCopyTimeout l) := ⟨.reintCopyTimeout l, rfl, rfl⟩
theorem reintRetryDue (l : LaneId) : Statement (.reintRetryDue l) := ⟨.reintRetryDue l, rfl, rfl⟩
theorem reintStandby (l : LaneId) : Statement (.reintStandby l) := ⟨.reintStandby l, rfl, rfl⟩
theorem flowLaunch (l : LaneId) (n : Fin 256) (now : Word) : Statement (.flowLaunch l n now) := ⟨.flowLaunch l n now, rfl, rfl⟩
theorem flowFrameReceived (l : LaneId) (w : Tagged) (f : FlowFrame) : Statement (.flowFrameReceived l w f) := ⟨.flowFrameReceived l w f, rfl, rfl⟩
theorem flowDown (l : LaneId) (n : Fin 256) : Statement (.flowDown l n) := ⟨.flowDown l n, rfl, rfl⟩
theorem udpbcDatagram : ∀ (l : LaneId) (rx : Rx) (g : Datagram450) (dt : Nat) (sentences : List (List Byte)), Statement (.udpbcDatagram l rx g dt sentences) :=
  fun l rx _ dt _ => ⟨.udpbcDatagram l rx ⟨[1, 0, 0x5E, 0, 0, 1], 60001, true⟩ dt [], rfl, rfl⟩
theorem ptpSync (l : LaneId) (portB udp : Bool) (identity domain : Nat) (offsetNs : Int) : Statement (.ptpSync l portB udp identity domain offsetNs) := ⟨.ptpSync l portB udp identity domain offsetNs, rfl, rfl⟩
theorem ptpAnnounce (l : LaneId) (portB udp : Bool) (m : Announce) : Statement (.ptpAnnounce l portB udp m) := ⟨.ptpAnnounce l portB udp m, rfl, rfl⟩
theorem ptpDelayMessage (l : LaneId) (portB udp : Bool) (m : PtpDelay) : Statement (.ptpDelayMessage l portB udp m) := ⟨.ptpDelayMessage l portB udp m, rfl, rfl⟩
theorem announceTimeout (l : LaneId) : Statement (.announceTimeout l) := ⟨.announceTimeout l, rfl, rfl⟩
theorem holdoverExpired (l : LaneId) : Statement (.holdoverExpired l) := ⟨.holdoverExpired l, rfl, rfl⟩
theorem prpSupervisionSend (l : LaneId) : Statement (.prpSupervisionSend l) := ⟨.prpSupervisionSend l, rfl, rfl⟩
theorem arpIcmpFrame (l : LaneId) (rx : Rx) (f : ArpIcmp) : Statement (.arpIcmpFrame l rx f) := ⟨.arpIcmpFrame l rx f, rfl, rfl⟩
theorem phyLinkChange (l : LaneId) (portB up : Bool) : Statement (.phyLinkChange l portB up) := ⟨.phyLinkChange l portB up, rfl, rfl⟩
theorem canFrameReceived : ∀ (l : LaneId) (port : Fin 10) (f : CanFrame) (dt : Nat), Statement (.canFrameReceived l port f dt) :=
  fun l c f dt => ⟨.canFrameReceived l c { f with ident := 0, dlc := 0, data := [] } dt, rfl, by simp [Instr.wf, CanFrame.ok, dlcLen]; split <;> simp⟩
theorem canFrameTxDone (l : LaneId) (port : Fin 10) : Statement (.canFrameTxDone l port) := ⟨.canFrameTxDone l port, rfl, rfl⟩
theorem canError (l : LaneId) (port : Fin 10) (e : CanErr) : Statement (.canError l port e) := ⟨.canError l port e, rfl, rfl⟩
theorem canBusoffRecovered (l : LaneId) (port : Fin 10) : Statement (.canBusoffRecovered l port) := ⟨.canBusoffRecovered l port, rfl, rfl⟩
theorem canSleepRequest (l : LaneId) (port : Fin 10) : Statement (.canSleepRequest l port) := ⟨.canSleepRequest l port, rfl, rfl⟩
theorem canWakeRequest (l : LaneId) (port : Fin 10) : Statement (.canWakeRequest l port) := ⟨.canWakeRequest l port, rfl, rfl⟩
theorem canRecoverRequest (l : LaneId) (port : Fin 10) : Statement (.canRecoverRequest l port) := ⟨.canRecoverRequest l port, rfl, rfl⟩
theorem canBusWake (l : LaneId) (port : Fin 10) (f : Option CanFrame) : Statement (.canBusWake l port f) := ⟨.canBusWake l port f, rfl, rfl⟩
theorem scRateDetected (port : Fin 2) (rate : Fin 12) : Statement (.scRateDetected port rate) := ⟨.scRateDetected port rate, rfl, rfl⟩
theorem scNoTraffic (port : Fin 2) : Statement (.scNoTraffic port) := ⟨.scNoTraffic port, rfl, rfl⟩
theorem dioOverload (dio2 : Bool) (ch : Fin 32) : Statement (.dioOverload dio2 ch) := ⟨.dioOverload dio2 ch, rfl, rfl⟩
theorem dioAutoRetry (dio2 : Bool) (ch : Fin 32) (temp : Int) : Statement (.dioAutoRetry dio2 ch temp) := ⟨.dioAutoRetry dio2 ch temp, rfl, rfl⟩
theorem dioGroupTrip (dio2 : Bool) (g : Fin 4) : Statement (.dioGroupTrip dio2 g) := ⟨.dioGroupTrip dio2 g, rfl, rfl⟩
theorem fieldSupplyLow (f : FieldSupply) : Statement (.fieldSupplyLow f) := ⟨.fieldSupplyLow f, rfl, rfl⟩
theorem fieldSupplyRestored (f : FieldSupply) : Statement (.fieldSupplyRestored f) := ⟨.fieldSupplyRestored f, rfl, rfl⟩
theorem aiSupplyRetry (ai2 : Bool) (ch : Fin 16) : Statement (.aiSupplyRetry ai2 ch) := ⟨.aiSupplyRetry ai2 ch, rfl, rfl⟩
theorem encoderZEdge (n : Fin 8) : Statement (.encoderZEdge n) := ⟨.encoderZEdge n, rfl, rfl⟩
theorem rs422Sentence : ∀ (port : Fin 4) (text : List Byte) (framingError : Bool) (dt : Nat), Statement (.rs422Sentence port text framingError dt) :=
  fun q _ e dt => ⟨.rs422Sentence q [] e dt, rfl, rfl⟩
theorem rs422TxDone (port : Fin 4) : Statement (.rs422TxDone port) := ⟨.rs422TxDone port, rfl, rfl⟩
theorem skCycleStart : Statement (.skCycleStart) := ⟨.skCycleStart, rfl, rfl⟩
theorem skCycleEnd : ∀ (x y : Option SkResult) (dt : Nat), Statement (.skCycleEnd x y dt) :=
  fun _ _ dt => ⟨.skCycleEnd none none dt, rfl, rfl⟩
theorem skKernelFault : ∀ (code : Nat), Statement (.skKernelFault code) :=
  fun _ => ⟨.skKernelFault 0, rfl, rfl⟩
theorem skSelftestDone (ok : Bool) (code : Nat) : Statement (.skSelftestDone ok code) := ⟨.skSelftestDone ok code, rfl, rfl⟩
theorem skImageForwarded : Statement (.skImageForwarded) := ⟨.skImageForwarded, rfl, rfl⟩
theorem skVerifyDone (execOk : Bool) : Statement (.skVerifyDone execOk) := ⟨.skVerifyDone execOk, rfl, rfl⟩
theorem skPeriodicSelftest (ok : Bool) (code : Nat) : Statement (.skPeriodicSelftest ok code) := ⟨.skPeriodicSelftest ok code, rfl, rfl⟩
theorem testSourceOverload (k : Fin 4) : Statement (.testSourceOverload k) := ⟨.testSourceOverload k, rfl, rfl⟩
theorem testSourceRetry (k : Fin 4) : Statement (.testSourceRetry k) := ⟨.testSourceRetry k, rfl, rfl⟩
theorem discTimerExpired (p : Fin 8) : Statement (.discTimerExpired p) := ⟨.discTimerExpired p, rfl, rfl⟩
theorem proofTestExpired (p : Fin 8) : Statement (.proofTestExpired p) := ⟨.proofTestExpired p, rfl, rfl⟩
theorem proofIntervalReached (p : Fin 8) : Statement (.proofIntervalReached p) := ⟨.proofIntervalReached p, rfl, rfl⟩
theorem offPulse (o : Fin 8) (skY : Bool) (readbackMv : Int) : Statement (.offPulse o skY readbackMv) := ⟨.offPulse o skY readbackMv, rfl, rfl⟩
theorem laneWatchdogExpired : Statement (.laneWatchdogExpired) := ⟨.laneWatchdogExpired, rfl, rfl⟩
theorem connTimeExpired (c : Fin 64) : Statement (.connTimeExpired c) := ⟨.connTimeExpired c, rfl, rfl⟩
theorem tcxoFailure (l : LaneId) (count : Option Nat) : Statement (.tcxoFailure l count) := ⟨.tcxoFailure l count, rfl, rfl⟩
theorem rcFault (l : LaneId) (count : Nat) (partner : Option Nat) : Statement (.rcFault l count partner) := ⟨.rcFault l count partner, rfl, rfl⟩
theorem rcQualified (l : LaneId) (count : Nat) : Statement (.rcQualified l count) := ⟨.rcQualified l count, rfl, rfl⟩
theorem rcQualTimeout (l : LaneId) : Statement (.rcQualTimeout l) := ⟨.rcQualTimeout l, rfl, rfl⟩
theorem tcxoReturn (l : LaneId) : Statement (.tcxoReturn l) := ⟨.tcxoReturn l, rfl, rfl⟩
theorem voltageStepDone (l : LaneId) : Statement (.voltageStepDone l) := ⟨.voltageStepDone l, rfl, rfl⟩
theorem gateBusyTimeout (l : LaneId) (block : GateBlock) : Statement (.gateBusyTimeout l block) := ⟨.gateBusyTimeout l block, rfl, rfl⟩
theorem powerDwellExpired : Statement (.powerDwellExpired) := ⟨.powerDwellExpired, rfl, rfl⟩
theorem darkWake (w : WakeSource) : Statement (.darkWake w) := ⟨.darkWake w, rfl, rfl⟩
theorem clkoutSelWrite (p : Part) (outB : Bool) (data : Word) : Statement (.clkoutSelWrite p outB data) := ⟨.clkoutSelWrite p outB data, rfl, rfl⟩
theorem clkoutStatusClear (p : Part) (data : Word) : Statement (.clkoutStatusClear p data) := ⟨.clkoutStatusClear p data, rfl, rfl⟩
theorem recordArrival : Statement (.recordArrival) := ⟨.recordArrival, rfl, rfl⟩
theorem floodWindowEnd : Statement (.floodWindowEnd) := ⟨.floodWindowEnd, rfl, rfl⟩
theorem optimeStep (ns : Nat) : Statement (.optimeStep ns) := ⟨.optimeStep ns, rfl, rfl⟩
theorem timeAnchorDue : Statement (.timeAnchorDue) := ⟨.timeAnchorDue, rfl, rfl⟩
theorem retainPeriodDue : Statement (.retainPeriodDue) := ⟨.retainPeriodDue, rfl, rfl⟩
theorem bankWriteDone : Statement (.bankWriteDone) := ⟨.bankWriteDone, rfl, rfl⟩
theorem serviceDomainLost : Statement (.serviceDomainLost) := ⟨.serviceDomainLost, rfl, rfl⟩
theorem serviceDomainReturned : Statement (.serviceDomainReturned) := ⟨.serviceDomainReturned, rfl, rfl⟩
theorem rtcTimeRead (p : Part) (sub : Bool) (cycles phase : Nat) : Statement (.rtcTimeRead p sub cycles phase) := ⟨.rtcTimeRead p sub cycles phase, rfl, rfl⟩
theorem rtcDateRead (p : Part) : Statement (.rtcDateRead p) := ⟨.rtcDateRead p, rfl, rfl⟩
theorem rtcCommit (p : Part) (data : Word) : Statement (.rtcCommit p data) := ⟨.rtcCommit p data, rfl, rfl⟩
theorem rtcStatusClear (p : Part) (data : Word) : Statement (.rtcStatusClear p data) := ⟨.rtcStatusClear p data, rfl, rfl⟩
theorem rtcAlarmWrite (p : Part) (alarm2 date : Bool) (data : Word) : Statement (.rtcAlarmWrite p alarm2 date data) := ⟨.rtcAlarmWrite p alarm2 date data, rfl, rfl⟩
theorem rtcTrimWrite (p : Part) (data : Word) : Statement (.rtcTrimWrite p data) := ⟨.rtcTrimWrite p data, rfl, rfl⟩
theorem rtcSecond : Statement (.rtcSecond) := ⟨.rtcSecond, rfl, rfl⟩
theorem laneFeedLost (l : LaneId) (feedMv : Nat) : Statement (.laneFeedLost l feedMv) := ⟨.laneFeedLost l feedMv, rfl, rfl⟩
theorem laneFeedRestored (l : LaneId) (feedMv : Nat) : Statement (.laneFeedRestored l feedMv) := ⟨.laneFeedRestored l feedMv, rfl, rfl⟩
theorem powerFailure (bankMv feedAMv feedBMv : Nat) : Statement (.powerFailure bankMv feedAMv feedBMv) := ⟨.powerFailure bankMv feedAMv feedBMv, rfl, rfl⟩
theorem rideThroughEnd : Statement (.rideThroughEnd) := ⟨.rideThroughEnd, rfl, rfl⟩
theorem holdupOff : Statement (.holdupOff) := ⟨.holdupOff, rfl, rfl⟩
theorem cartInserted (id : CartId) (bankMv : Nat) : Statement (.cartInserted id bankMv) := ⟨.cartInserted id bankMv, rfl, rfl⟩
theorem cartRemoved : Statement (.cartRemoved) := ⟨.cartRemoved, rfl, rfl⟩
theorem cartMeasNow (p : Part) (data : Word) : Statement (.cartMeasNow p data) := ⟨.cartMeasNow p data, rfl, rfl⟩
theorem cartMeasDue (bankMv : Nat) : Statement (.cartMeasDue bankMv) := ⟨.cartMeasDue bankMv, rfl, rfl⟩
theorem cartMeasDone (stepMv dischargeMs : Nat) : Statement (.cartMeasDone stepMv dischargeMs) := ⟨.cartMeasDone stepMv dischargeMs, rfl, rfl⟩
theorem cartHour (tempC : Int) : Statement (.cartHour tempC) := ⟨.cartHour tempC, rfl, rfl⟩
theorem cartStatusClear (p : Part) (data : Word) : Statement (.cartStatusClear p data) := ⟨.cartStatusClear p data, rfl, rfl⟩
theorem pnlShowWrite (p : Part) (data : Word) : Statement (.pnlShowWrite p data) := ⟨.pnlShowWrite p data, rfl, rfl⟩
theorem pnlLineWrite (p : Part) (data : Word) : Statement (.pnlLineWrite p data) := ⟨.pnlLineWrite p data, rfl, rfl⟩
theorem pnlDataWrite (p : Part) (data : Word) : Statement (.pnlDataWrite p data) := ⟨.pnlDataWrite p data, rfl, rfl⟩
theorem pnlCommit (p : Part) (data : Word) (started : Nat) : Statement (.pnlCommit p data started) := ⟨.pnlCommit p data started, rfl, rfl⟩
theorem pnlStatusClear (p : Part) (data : Word) : Statement (.pnlStatusClear p data) := ⟨.pnlStatusClear p data, rfl, rfl⟩
theorem panelFrame : ∀ (temp : Int) (station : List (Fin 240 × List Word)), Statement (.panelFrame temp station) :=
  fun t _ => ⟨.panelFrame t [], rfl, rfl⟩
theorem panelPassDone : Statement (.panelPassDone) := ⟨.panelPassDone, rfl, rfl⟩
theorem panelIdle : Statement (.panelIdle) := ⟨.panelIdle, rfl, rfl⟩
theorem panelKey : Statement (.panelKey) := ⟨.panelKey, rfl, rfl⟩
theorem safetyInputSample : ∀ (us : Nat) (mv : List Int), Statement (.safetyInputSample us mv) :=
  fun us _ => ⟨.safetyInputSample us (List.replicate 16 0), rfl, rfl⟩
theorem testSourcePulse (k : Fin 4) (high backfeed : Bool) : Statement (.testSourcePulse k high backfeed) := ⟨.testSourcePulse k high backfeed, rfl, rfl⟩
theorem safetyOutputReadback (o : Fin 8) (mv supplyMv : Int) (limit : Bool) : Statement (.safetyOutputReadback o mv supplyMv limit) := ⟨.safetyOutputReadback o mv supplyMv limit, rfl, rfl⟩
theorem encoderEdge (n : Fin 8) (a b : Bool) (dt : Nat) (tooFast : Bool) : Statement (.encoderEdge n a b dt tooFast) := ⟨.encoderEdge n a b dt tooFast, rfl, rfl⟩
theorem ssiFrameComplete (n : Fin 8) (ready : Bool) (bits : List Bool) (monoflop : Bool) : Statement (.ssiFrameComplete n ready bits monoflop) := ⟨.ssiFrameComplete n ready bits monoflop, rfl, rfl⟩
theorem lockstepMismatch (l : LaneId) : Statement (.lockstepMismatch l) := ⟨.lockstepMismatch l, rfl, rfl⟩
theorem scrubberRead (l : LaneId) (addr : Nat) (r : ScrubResult) : Statement (.scrubberRead l addr r) := ⟨.scrubberRead l addr r, rfl, rfl⟩
theorem prpSupervisionFrame (l : LaneId) (portB : Bool) (node : Nat) : Statement (.prpSupervisionFrame l portB node) := ⟨.prpSupervisionFrame l portB node, rfl, rfl⟩
theorem prpSupervisionLost (l : LaneId) (portB : Bool) (node : Nat) : Statement (.prpSupervisionLost l portB node) := ⟨.prpSupervisionLost l portB node, rfl, rfl⟩
theorem partnerBeaconLost (l : LaneId) : Statement (.partnerBeaconLost l) := ⟨.partnerBeaconLost l, rfl, rfl⟩
theorem analogueCalibrationDone (fails : List (Fin 3 × Fin 16)) : Statement (.analogueCalibrationDone fails) := ⟨.analogueCalibrationDone fails, rfl, rfl⟩
theorem bayEmptyRepeat : Statement (.bayEmptyRepeat) := ⟨.bayEmptyRepeat, rfl, rfl⟩

end Sys2Proof.Laws.F
end

