-- ==== Sys2Proof/Tests/Slice0.lean ====
section
/-! SUPPORT. Ill-formed commands, the spec's own examples, and for every statement with hypotheses a state and operands that meet them. -/

namespace Sys2Proof.Tests

set_option maxRecDepth 20000

open Sys2Proof.Machine

/-! Well-formedness: each check refuses a term -/

theorem test_wf_register_size : (Instr.registerWrite 0 false 0x10 3 0 ⟨.a, 0⟩).wf = false := by decide

theorem test_wf_register_align : (Instr.registerWrite 0 false 0x14 8 0 ⟨.a, 0⟩).wf = false := by decide

theorem test_wf_register_address : (Instr.registerWrite 0 false 4096 4 0 ⟨.a, 0⟩).wf = false := by decide

theorem test_wf_slow_address : (Instr.registerWrite 0 true 0x102 4 0 ⟨.a, 0⟩).wf = false := by decide

theorem test_wf_completion : (Instr.dmaCompletion 0 false false 1 [7]).wf = false := by decide

theorem test_wf_hello : (Instr.thlHello 0 {} .a [1, 2]).wf = false := by decide

theorem test_wf_thl_tag : (Instr.thlRegRead 0 {} 1 1 0 []).wf = false ∧ (Instr.thlRegWrite 0 {} 1 1 0 0 [] 0).wf = false ∧
    (Instr.thlData 0 {} 1 1 0 0 [] []).wf = false ∧ (Instr.thlAck 0 {} 1 1 0 0 []).wf = false := by decide

theorem test_wf_can_identifier : (Instr.canFrameReceived .a 0 { ident := 2048, dlc := 0, data := [] } 0).wf = false := by decide

theorem test_wf_can_length : (Instr.canFrameReceived .a 0 { ident := 1, dlc := 2, data := [1] } 0).wf = false := by decide

theorem test_wf_sentence : (Instr.udpbcDatagram .a {} ⟨[0, 0, 0, 0, 0, 0], 0, true⟩ 0 [List.replicate 83 0]).wf = false := by decide

theorem test_wf_rs422 : (Instr.rs422Sentence 0 (List.replicate 257 0) false 0).wf = false := by decide

theorem test_wf_samples : (Instr.safetyInputSample 0 [1]).wf = false := by decide

theorem test_wf_cycle : (Instr.skCycleEnd (some { soCmd := [], connOut := [], statusOut := [] }) none 0).wf = false := by decide

theorem test_wf_kernel_code : (Instr.skKernelFault 65536).wf = false := by decide

theorem test_wf_island_kind : (Instr.islandEdge 0 .sk).wf = false := by decide

theorem test_wf_panel_line : (Instr.panelFrame 0 [(0, List.replicate 26 0)]).wf = false := by decide

/-! Small states -/

/-- A lane that has started, alone. -/
def lane1 : Lane := { feed := true, cidOk := true, phase := .running, winUp := true, clkQual := true, rolesStep := true,
                      startDone := true, role := .solo, lit := true }

/-- A RUNNING station on Lane A, with partition 0 attached. -/
def up : State := { a := lane1, st := { phase := .running, ready := true }, svc := { up := true },
                    parts := [(0, { att := .attached, roleReq := 2, lane := .a })] }

/-- `s` with partition 0 in place of its own. -/
def withPart (s : State) (f : Partition → Partition) : State := s.updPart 0 f

/-- `s` with a command of partition 0 accepted. -/
def cmd (s : State) (urg : Bool) (ws : List Word) : State :=
  s.updMb 0 urg fun m => { m with busy := true, phase := .accepted, cmd := ws }

/-- `s` with the lock at partition 0. -/
def locked (s : State) : State := s.updSt fun t => { t with lock := some 0 }

/-- `s` with a bulk command of partition 0 at the front. -/
def bulk (s : State) : State := s.updSt fun t => { t with bulkQueue := [0] }

/-- A record with the given bytes, the others 0. -/
def rec_ (typ inst : Nat) (bs : List (Nat × Byte)) : CfgRec :=
  ⟨0, typ, 1, 0, inst, (List.range 300).map fun i => ((bs.find? fun e => e.1 == i).map fun e => e.2).getD 0⟩

def withCfg (s : State) (rs : List CfgRec) : State := s.updSt fun t => { t with cfg := some rs }

def withAccess (s : State) (rs : List CfgRec) : State := s.updSt fun t => { t with access := some rs }

theorem served_iff (s : State) (p : Nat) (urg : Bool) (c : CmdClass) (op : Nat) (ws : List Word) :
    Served s p urg c op ws ↔ (s.mbox p urg).busy = true ∧ (s.mbox p urg).phase = .accepted ∧ (s.mbox p urg).cmd = ws ∧
      word ws 0 % 65536 = op ∧ mayServe s p c = true :=
  ⟨fun h => ⟨h.busy, h.phase, h.cmd, h.opcode, h.may⟩, fun h => ⟨h.1, h.2.1, h.2.2.1, h.2.2.2.1, h.2.2.2.2⟩⟩

/-! The step and the window -/

theorem wit_StepRunsFrontCommand : ({ up with pending := [.tickEdge 0] } : State).pending = .tickEdge 0 :: [] := by decide

theorem wit_QueueDiscipline : ∃ t, step State.reset = .next t := ⟨_, rfl⟩

theorem wit_WindowRegisterRows :
    let w (sel : Word) (cap : Option (List Nat)) := withPart up fun q => { q with wide := { q.wide with pending := true, sel := sel, cap := cap } }
    winLive up 0 = true ∧
    -- TAIL 0, HEAD 0: only TAIL 0 is taken; the values where the two clauses meet
    ((0 : Word).toNat % 65536 + 65536 - (up.part 0).tail % 65536) % 65536 ≤ ((up.part 0).head + 65536 - (up.part 0).tail % 65536) % 65536 ∧
    ((up.part 0).head + 65536 - (up.part 0).tail % 65536) % 65536 < ((1 : Word).toNat % 65536 + 65536 - (up.part 0).tail % 65536) % 65536 ∧
    winLive (w 2 none) 0 = true ∧ ((w 2 none).part 0).wide.pending = true ∧ wideSlow ((w 2 none).part 0).wide.sel = true ∧
    (w 2 none).svc.up = true ∧ (wideValue (w 2 none) ((w 2 none).part 0).wide).isSome = true ∧
    wideSlow ((w 0xFF none).part 0).wide.sel = false ∧ wideValue (w 0xFF none) ((w 0xFF none).part 0).wide = none ∧
    wideValue (w 0 (some [1])) ((w 0 (some [1])).part 0).wide = some [1] ∧ (up.part 0).wide.pending = false ∧ (up.part 0).held = [] ∧
    winLive State.reset 0 = false := by decide

theorem wit_RegisterWriteAliases : decodeWindow 0xC14 = decodeWindow 0x014 ∧ winLive up 0 = true ∧ decodeWindow 0x0FC < 0x100 ∧
    decodeWindow (4 * 15) = decodeWindow (4 * 15) ∧ decodeWindow (4 * 64) = decodeWindow (4 * 64) ∧ 64 ≤ 64 ∧ 255 < 256 := by decide

theorem wit_SlowPortRows :
    let s (x : Option (Option Word)) := withPart up fun q => { q with slow := { q.slow with access := x } }
    winLive up 0 = true ∧ (up.part 0).slow.access = none ∧ winLive (s (some none)) 0 = true ∧
    ((s (some none)).part 0).slow.access = some none ∧ ((s (some (some 1))).part 0).slow.access = some (some 1) ∧
    commitsRtc (s (some (some 1))) 0 = false ∧ commitsRtc (s (some (some 1))) 1 = false ∧
    (∀ b : Bool, refusesClk (s (some (some 1))) b 0 = false ∧ refusesClk (s (some (some 1))) b 1 = false) := by decide

/-! Mailboxes (02, 03) -/

/-- `up` with the words of a command in partition 0's command area. -/
def area (s : State) (urg : Bool) (bs : List Byte) : State := s.updMb 0 urg fun m => { m with area := bs }

theorem wit_DoorbellAccepts :
    winLive State.reset 0 = false ∧ winLive up 0 = true ∧ fld (0 : Word).toNat 8 6 = 0 ∧
    -- LENGTH 33 is above the main area; LENGTH 32 is not
    (fld (0x2100 : Word).toNat 8 6 ≠ 0 ∧ 32 < fld (0x2100 : Word).toNat 8 6) ∧ fld (0x2000 : Word).toNat 8 6 ≤ 32 ∧
    (up.mbox 0 false).busy = false ∧
    commonCheck up 0 false (areaWords (padTo 128 (up.mbox 0 false).area) 1) = some (BAD_OPCODE, 0) ∧
    commonCheck (area up false [0x17, 0]) 0 false (areaWords (padTo 128 ((area up false [0x17, 0]).mbox 0 false).area) 1) = none ∧
    opInfo (areaWords (padTo 128 ((area up false [0x22, 0]).mbox 0 false).area) 2) = some (.bulk, [2]) ∧
    (up.updSt fun t => { t with bulkQueue := [1] }).st.bulkQueue ≠ [] ∧
    (up.updSt fun t => { t with bulkQueue := [1] }).st.bulkQueue.head? ≠ some 0 := by decide

theorem wit_DoorbellAccepts_normal : ∀ ls, opInfo (areaWords (padTo 128 ((area up false [0x17, 0]).mbox 0 false).area) 1) ≠ some (.bulk, ls) := by
  intro ls h
  have : opInfo (areaWords (padTo 128 ((area up false [0x17, 0]).mbox 0 false).area) 1) = some (.normal, [1]) := by decide
  rw [this] at h; cases h

/-- ATTACH words: FLAGS with FINAL, role 1, no region, no ring region. -/
def attachWs (flags : Nat) : List Word := [0x10, BitVec.ofNat 32 flags, 0x00FF0000]

theorem wit_AttachmentRows :
    let d := withPart up fun _ => {}
    let g := withPart up fun q => { q with att := .attaching, grace := true }
    let k := withPart up fun q => { q with att := .detaching }
    let a := withPart up fun _ => { att := .attaching }
    (up.lane .a).winUp = true ∧ (d.part 0).att = .detached ∧ (d.part 0).grace = false ∧ bit (1 : Word).toNat 1 = false ∧
    (k.part 0).att = .detaching ∧ (k.part 0).urg.underway = false ∧ ((cmd k true [0x31]).part 0).att = .detaching ∧
    (((cmd k true [0x31]).updMb 0 true fun m => { m with phase := .running }).part 0).urg.underway = true ∧ winLive k 0 = true ∧ winLive up 0 = true ∧ (up.part 0).att = .attached ∧ (up.part 0).grace = false ∧
    winLive a 0 = true ∧ (a.part 0).att = .attaching ∧ (a.part 0).grace = false ∧ (g.part 0).grace = true ∧
    ((up.part 0).main.busy && (up.part 0).main.phase == .running && !(up.part 0).main.atBoundary 4096) = false := by decide

theorem wit_AttachRow :
    let a (ws : List Word) : State := cmd (withPart up fun _ => { att := .attaching }) false ws
    let g (ws : List Word) : State := cmd (withPart up fun _ => { att := .attaching, grace := true }) false ws
    Served (a (attachWs 0x101)) 0 false .normal 0x0010 (attachWs 0x101) ∧ attachBad (attachWs 0x101) = none ∧
    attachBad (attachWs 0x104) = some 4 ∧ Served (cmd up false (attachWs 0x101)) 0 false .normal 0x0010 (attachWs 0x101) ∧
    (up.part 0).att = .attached ∧ (up.part 0).grace = false ∧ bit (word (attachWs 0x301) 1) 9 = true ∧ attachBad (attachWs 0x301) = none ∧
    bit (word (attachWs 0x101) 1) 9 = false ∧ ((a (attachWs 0x101)).part 0).att = .attaching ∧
    ((a (attachWs 0x101)).part 0).grace = false ∧ (a (attachWs 0x101)).bindingOk 0 .pcie .a = true ∧
    (withAccess (a (attachWs 0x101)) []).bindingOk 0 .pcie .a = false ∧ bit (word (attachWs 0x101) 1) 8 = true ∧
    fld (word (attachWs 0x101) 2) 16 8 = 0xFF ∧ attachBad (attachWs 1) = none ∧ bit (word (attachWs 1) 1) 8 = false ∧
    fld (word [0x10, 0x101, 0x00050000] 2) 16 8 = 5 ∧ attachBad [0x10, 0x101, 0x00050000] = none ∧
    (declare [0x10, 0x101, 0x00050000] []).get? 5 = none ∧ Served (g (attachWs 0x101)) 0 false .normal 0x0010 (attachWs 0x101) ∧
    ((g (attachWs 0x101)).part 0).grace = true ∧ ((g (attachWs 0x101)).part 0).att = .attaching ∧
    (g (attachWs 0x301)).bindingOk 0 .pcie .a = true := by
  simp only [served_iff]; decide

/-! Sessions, lock, events, staging, commit (02, 03, 13) -/

/-- The non-volatile records of a password: salt of 3s, V of 5s; CHANGES 0. -/
def withPassword (s : State) : State :=
  s.updRec fun v => { v with
    next := 2, seals := [(0x0A12, 0), (0x0A13, 1)],
    ring := [(0, ⟨208, 0x0A12, 0, 0, 0, 0, 1, List.replicate 16 3 ++ List.replicate 16 5 ++ List.replicate 4 0, 0⟩),
             (1, ⟨208, 0x0A13, 0, 0, 1, 0, 1, List.replicate 16 5 ++ List.replicate 20 0, 0⟩)] }

/-- The access record of partition 0: MAX_ROLE 3, PCIe A, SESSION allowed. -/
def acc0 : CfgRec := rec_ 0x0E01 0 [(8, 3), (9, 1), (0x0A, 1)]

def nonce0 : List Byte := List.replicate 32 7

def key0 : List Byte := List.replicate 32 5

/-- `up` with the list that lets partition 0 open a session, a password, and a nonce given. -/
def forSession : State :=
  (withPassword (withAccess (withPart up fun q => { q with nonce := some nonce0 }) [acc0])).updSk fun k =>
    { k with pw := some (List.replicate 16 3, key0) }

/-- SESSION_OPEN phase 2 with the right proof. -/
def proofWs : List Word :=
  [0x11, 2] ++ areaWords ((hmac256 key0 (nonce0 ++ leBytes 0 1)).take 16) 4

theorem wit_SessionRows :
    let a (s : State) (ws : List Word) := cmd s false ws
    let open_ (s : State) := withPart s fun q => { q with session := true }
    Served (a up [0x11, 1]) 0 false .normal 0x0011 [0x11, 1] ∧ (a up [0x11, 1]).roleOf 0 < 2 ∧
    Served (a forSession [0x11, 1]) 0 false .normal 0x0011 [0x11, 1] ∧ 2 ≤ (a forSession [0x11, 1]).roleOf 0 ∧
    (a forSession [0x11, 1]).accRec 0 = some acc0 ∧ bit (acc0.u 0x0A 1) 0 = true ∧ word [0x11, 1] 1 = 1 ∧
    passwordSeal (a forSession [0x11, 1]) = some (List.replicate 16 3, List.replicate 32 5) ∧
    passwordSeal (a (withAccess up [acc0]) [0x11, 1]) = none ∧ 2 ≤ (a (withAccess up [acc0]) [0x11, 1]).roleOf 0 ∧
    Served (a (forSession.updSt fun t => { t with lockout := true }) [0x11, 2, 0, 0, 0, 0]) 0 false .normal 0x0011 [0x11, 2, 0, 0, 0, 0] ∧
    (a (forSession.updSt fun t => { t with lockout := true }) [0x11, 2, 0, 0, 0, 0]).st.lockout = true ∧ word [0x11, 2, 0, 0, 0, 0] 1 = 2 ∧
    Served (a (withAccess up [acc0]) [0x11, 2, 0, 0, 0, 0]) 0 false .normal 0x0011 [0x11, 2, 0, 0, 0, 0] ∧
    ((a (withAccess up [acc0]) [0x11, 2, 0, 0, 0, 0]).part 0).nonce = none ∧
    Served (a (open_ up) [0x12]) 0 false .normal 0x0012 [0x12] ∧ ((a (open_ up) [0x12]).part 0).session = true ∧
    Served (a up [0x12]) 0 false .normal 0x0012 [0x12] ∧ ((a up [0x12]).part 0).session = false ∧ up.st.lockout = false ∧
    (forSession.updSt fun t => { t with wrongProofs := 4 }).st.wrongProofs + 1 = 5 := by
  simp only [served_iff]; decide

theorem wit_LockRows :
    let a (s : State) (ws : List Word) := cmd s false ws
    let held := up.updSt fun t => { t with lock := some 3 }
    let open_ (s : State) := withPart s fun q => { q with session := true }
    Served (a up [0x13, 0]) 0 false .normal 0x0013 [0x13, 0] ∧ word [0x13, 0] 1 / 2 = 0 ∧ word [0x13, 2] 1 / 2 ≠ 0 ∧
    (a up [0x13, 0]).st.access = none ∧ (a up [0x13, 0]).st.lock = none ∧ bit (word [0x13, 0] 1) 0 = false ∧
    (withAccess (a up [0x13, 0]) []).st.access ≠ none ∧ (withAccess (a up [0x13, 0]) []).maxRole 0 ≠ 3 ∧
    bit (word [0x13, 1] 1) 0 = true ∧ ((a up [0x13, 1]).part 0).session = false ∧ ((a (open_ up) [0x13, 1]).part 0).session = true ∧
    (a held [0x13, 0]).st.lock = some 3 ∧ ((a (open_ held) [0x13, 1]).st.access = none ∧ (a (open_ held) [0x13, 1]).maxRole 0 ≠ 3) ∧
    Served (a (withAccess (open_ held) [acc0]) [0x13, 1]) 0 false .normal 0x0013 [0x13, 1] ∧
    (withAccess (open_ held) [acc0]).maxRole 0 = 3 ∧ (withAccess (open_ (locked up)) [acc0]).st.lock = some 0 ∧
    (withAccess (open_ (locked up)) [acc0]).maxRole 0 = 3 ∧
    Served (a (locked up) [0x14]) 0 false .normal 0x0014 [0x14] ∧ (a (locked up) [0x14]).st.lock = some 0 ∧ (a up [0x14]).st.lock ≠ some 0 := by
  simp only [served_iff]; decide

theorem wit_EventRows :
    let w : List Word := [0x15, 0, 0, 0, 0, 0, 0, 0, 0]
    let r (n : Nat) : List Word := [0x16, BitVec.ofNat 32 (n * 65536)]
    let h := withPart up fun q => { q with head := 2000 }
    Served (cmd up false w) 0 false .normal 0x0015 w ∧ Served (cmd up false (r 1)) 0 false .normal 0x0016 (r 1) ∧
    fld (word (r 1) 1) 16 8 = 1 ∧ fld (word (r 1) 1) 24 8 = 0 ∧ fld (word (r 14) 1) 16 8 = 14 ∧ fld (word (r 15) 1) 16 8 = 15 ∧
    fld (word (r 257) 1) 16 8 = 1 ∧ fld (word (r 257) 1) 24 8 ≠ 0 ∧
    (((cmd up false (r 1)).part 0).head + 65536 - fld (word (r 1) 1) 0 16) % 65536 ≤ 1024 ∧
    1024 < (((cmd h false (r 1)).part 0).head + 65536 - fld (word (r 1) 1) 0 16) % 65536 := by
  simp only [served_iff]; decide

theorem wit_StagingRows :
    let w : List Word := [0x20, 4, 64]
    let x : List Word := [0x20, 4, 65540]
    let c : List Word := [0x21, 4, 0, 4, 0xFF, 0]
    let past : List Word := [0x21, 4, 64, 4, 0xFF, 0]
    let s := (bulk (locked up)).updSt fun t => { t with stage := [(4, ⟨0, 64, [], []⟩)] }
    Served (cmd up false w) 0 false .normal 0x0020 w ∧ (cmd up false w).st.lock ≠ some 0 ∧ (cmd (locked up) false w).st.lock = some 0 ∧
    targetOk 5 = false ∧ targetOk (word w 1) = true ∧ word w 2 ≤ stagingSize 4 ∧ word w 2 % 4 = 0 ∧ stagingSize 4 < word x 2 ∧
    word x 2 % 4 = 0 ∧ word [0x20, 4, 2] 2 % 4 ≠ 0 ∧
    Served (cmd (locked up) false [0x23, 4]) 0 false .normal 0x0023 [0x23, 4] ∧
    Served (cmd s false c) 0 false .bulk 0x0021 c ∧ fld (word c 1) 0 8 = 4 ∧ word c 1 / 256 = 0 ∧ word c 2 % 4 = 0 ∧ word c 3 = 4 ∧
    (cmd s false c).st.stage.get? 4 = some ⟨0, 64, [], []⟩ ∧ word past 2 + word past 3 = 68 ∧ regionOk (fld (word c 4) 0 8) = true ∧
    word c 4 / 256 = 0 ∧ regionOffOk (fld (word c 4) 0 8) (word c 5) = true ∧ descBad (cmd s false c) 0 0xFF 0 4 0 = none ∧
    descBad (cmd s false c) 0 5 0 4 0 = some DMA_NO_REGION ∧ (cmd (bulk (locked up)) false c).st.stage.get? 4 = none := by
  simp only [served_iff]; decide

/-- Bytes of length `n` with those given, the others 0. -/
def image (n : Nat) (bs : List (Nat × Byte)) : List Byte :=
  (List.range n).map fun i => ((bs.find? fun e => e.1 == i).map fun e => e.2).getD 0

/-- An access list of one record: partition 0, MAX_ROLE 3, PCIe A. -/
def accessBody : List Byte := image 48 [(0, 1), (1, 14), (2, 1), (4, 48), (8, 3), (9, 1), (0x0A, 1)]

def accessImage : List Byte := accessBody ++ leBytes (crc32c accessBody) 4

def c4 : Commit := { part := 0, target := 4, image := accessImage, tick := 0, confirmed := true, confTick := 0, detail0 := 2,
                     forwarded := false, session := true }

theorem wit_SessionRows_password : forSession.sk.pw = some (List.replicate 16 3, key0) ∧ (forSession.part 0).nonce = some nonce0 ∧
    forSession.st.lockout = false ∧ passwordSeal forSession = some (List.replicate 16 3, key0) := by decide

theorem wit_SessionRows_proof : (hmac256 key0 (nonce0 ++ leBytes 0 1)).take 16 = wordBytes ((proofWs.drop 2).take 4) := by decide +kernel

/-- `up` with an image of target 4 staged by partition 0, whose session is open. -/
def forCommit (img : List Byte) : State :=
  (bulk (locked (withPart up fun q => { q with session := true }))).updSt fun t =>
    { t with stage := [(4, ⟨0, 52, Mem.writeN [] 0 img, [(0, 52)]⟩)] }

theorem wit_CommitRows :
    let a : StageArea := ⟨0, 52, Mem.writeN [] 0 accessImage, [(0, 52)]⟩
    let z : StageArea := ⟨0, 52, [], [(0, 52)]⟩
    let s := cmd (forCommit accessImage) false [0x22, 4]
    let u := beginXfer s 0 false (.validate 4 52 (s.part 0).session)
    let big := s.updSt fun t => { t with stage := [(4, ⟨0, 4100, [], []⟩)] }
    let b : State := { up with b := { lane1 with role := .standby }, st := { up.st with commit := some { c4 with confirmed := false } } }
    let d : State := { up with grid := { tick := 8 }, st := { up.st with commit := some c4 } }
    Served s 0 false .bulk 0x0022 [0x22, 4] ∧ s.st.commit = none ∧ s.st.lock = some 0 ∧ targetOk 4 = true ∧ targetOk 0 = false ∧
    (cmd (bulk (locked up)) false [0x22, 4]).st.stage.get? 4 = none ∧ s.st.stage.get? 4 = some a ∧ a.total ≤ 4096 ∧
    big.st.stage.get? 4 = some ⟨0, 4100, [], []⟩ ∧ Served big 0 false .bulk 0x0022 [0x22, 4] ∧
    commitState u 4 = none ∧ validateImage u 0 4 a (s.part 0).session = (2, none) ∧
    validateImage u 0 4 z (s.part 0).session = (0, some ⟨IMAGE_CHECK, 0, 0, []⟩) ∧
    (awaitsConfirm up).isNone = true ∧ b.st.commit = some { c4 with confirmed := false } ∧ b.st.ends.s = none ∧ b.standbyLane = some .b ∧
    b.grid.tick < 0 + 8 ∧ 0 + 8 ≤ d.grid.tick ∧ ({ b with b := {} } : State).standbyLane = none ∧
    d.activeLane = some .a ∧ c4.target ≠ 3 ∧ c4.confirmed = true ∧ c4.confTick < d.grid.tick ∧ (d.lane .a).swapTick ≠ some d.grid.tick ∧
    applyBlocked d c4 = none ∧
    applyBlocked { d with svc := { up := false } } c4 = some ⟨RECORDER_DOWN, 0, 0, []⟩ ∧
    applyBlocked (d.updSt fun t => { t with phase := .stopped }) { c4 with target := 1 } = none := by
  simp only [served_iff]; decide

/-- A validation of partition 0 that has come to `bytes` of `n`. -/
def validating (n bytes : Nat) : State :=
  ((bulk (locked up)).updSt fun t => { t with stage := [(4, ⟨0, n, [], []⟩)] }).updMb 0 false fun m =>
    { m with busy := true, phase := .running, xfer := some (.validate 4 n false), bytes := bytes, prev := bytes - 4096 }

theorem wit_CommitRows_boundary :
    let s := validating 12288 4096
    s.st.bulkQueue.head? = some 0 ∧ (s.part 0).main.xfer = some (.validate 4 12288 false) ∧ (s.part 0).main.phase = .running ∧
    (s.part 0).main.preempted = false ∧ (s.part 0).main.atBoundary 4096 = true ∧ urgentBusy s = false ∧ (s.part 0).att ≠ .detaching ∧
    (s.part 0).main.bytes + 4096 < 12288 ∧ ((validating 12288 8192).part 0).main.atBoundary 4096 = true ∧
    12288 ≤ ((validating 12288 8192).part 0).main.bytes + 4096 ∧ s.st.stage.get? 4 = some ⟨0, 12288, [], []⟩ ∧
    (s.updSt fun t => { t with stage := [] }).st.stage.get? 4 = none := by decide

/-! Station and data commands (04, 03, 08, 11, 18) -/

/-- Every image is there; SK-1 is not used. -/
def complete (s : State) : State := s.updSt fun t => { t with phase := .stopped, cfg := some [], prog := some [], access := some [] }

theorem wit_StationRows :
    let s := complete (locked up)
    let feeds (x y : Bool) : State := { s with svc := { up := true, sup := { feedA := x, feedB := y } } }
    Served (cmd s false [0x30]) 0 false .normal 0x0030 [0x30] ∧ (cmd s false [0x30]).st.lock = some 0 ∧ s.st.phase = .stopped ∧
    missingImages s = 0 ∧ up.st.phase ≠ .stopped ∧ missingImages up ≠ 0 ∧
    Served (cmd (locked up) true [0x31]) 0 true .urgent 0x0031 [0x31] ∧
    (cmd (locked up) true [0x31]).st.phase = .running ∧ (cmd s true [0x31]).st.phase ≠ .running ∧
    (cmd up true [0x31]).st.lock ≠ some 0 ∧ Served (cmd up false [0x17]) 0 false .normal 0x0017 [0x17] ∧ up.st.lastStatus = none ∧
    (up.updSt fun t => { t with lastStatus := some (3, [1]) }).st.lastStatus = some (3, [1]) ∧
    Served (cmd up true [0x33]) 0 true .urgent 0x0033 [0x33] ∧ (cmd up true [0x33]).roleOf 0 < 2 ∧ 2 ≤ (cmd (locked up) true [0x33]).roleOf 0 ∧
    ((cmd (locked up) true [0x33]).updSt fun t => { t with pfStep := 1 }).st.pfStep ≠ 0 ∧ (cmd (locked up) true [0x33]).st.pfStep = 0 ∧
    Served (cmd (feeds true true) true [0x33]) 0 true .urgent 0x0033 [0x33] ∧ (feeds true true).st.phase ≠ .running ∧
    (feeds true true).svc.sup.feedA = true ∧ (feeds true true).svc.sup.feedB = true ∧
    (feeds false false).svc.sup.feedA = false ∧ (feeds false false).svc.sup.feedB = false := by
  simp only [served_iff]; decide

/-- A program: one task at level 1 (every tick, 10 µs, INST from 0 on), symbol 7 (DINT at INST 16, any value, an operator's), 8 bundles of
code, one block type. -/
def progBytes : List (Nat × Byte) :=
  [-- TYPES: 0x140, 32; CODE: 0x100, 64; TASKS: 0x80, 96; SYMBOLS: 0xE0, 32
   (0x28, 0x40), (0x29, 1), (0x2C, 32), (0x30, 0), (0x31, 1), (0x34, 64), (0x48, 0x80), (0x4C, 96), (0x50, 0xE0), (0x54, 32),
   (0x60, 128), (0x64, 64),
   (0x80, 1), (0x82, 1), (0x8C, 10), (0xA4, 128),
   (0xE0, 7), (0xE4, 16), (0xE7, 0xA0), (0xE8, 2), (0xE9, 1), (0xEA, 1), (0xF3, 0x80), (0xF8, 0xFF), (0xF9, 0xFF), (0xFA, 0xFF), (0xFB, 0x7F),
   (0x140, 3), (0x142, 1), (0x148, 8), (0x14C, 0)]

def prog0 : List Byte := image 352 progBytes

def task0 : TaskDef :=
  { off := 0x80, level := 1, tflags := 0, period := 1, phase := 0, action := 0, tolK := 0, tolW := 0, parts := 0, shotUs := 10, main := 0,
    init := 0, take := 0, rights := 0, ranges := [(0, 128)] }

theorem wit_DataRows :
    let r : List Word := [0x43, 0x10000000, 4]
    let bad : List Word := [0x43, 0xF0000000, 4]
    let far : List Word := [0x43, 0x10000000, 4, 0xFF, 0]
    let far5 : List Word := [0x43, 0x10000000, 4, 5, 0]
    let m : List Word := [0x41, 0x100]
    let p : List Word := [0x42, 0x00540000, 0]
    let h : List Word := [0x42, 0x00540100, 0]
    let l := rec_ 0x0801 0 [(8, 0x40)]
    let dumb := rec_ 0x0801 0 []
    let v : List Word := [0x40, 0xFE01, 0, 7, 5, 0]
    let s := (locked up).updSt fun t => { t with prog := some prog0 }
    let host (l : CfgRec) := withCfg (locked up) [l]
    Served (cmd up false r) 0 false .normal 0x0043 r ∧ word r 1 % 4 = 0 ∧ word r 2 = 4 ∧ addrOk (cmd up false r) (word r 1) (word r 2) = true ∧
    addrOk (cmd up false bad) (word bad 1) (word bad 2) = false ∧ Served (cmd up false far) 0 false .normal 0x0043 far ∧
    fld (word far 3) 0 8 = 0xFF ∧ regionOk 0xFF = true ∧ word far 3 / 256 = 0 ∧ regionOffOk 0xFF (word far 4) = true ∧
    descBad (cmd up false far) 0 0xFF 0 4 1 = none ∧ regionOk (fld (word far5 3) 0 8) = true ∧ regionOffOk 5 0 = true ∧
    descBad (cmd up false far5) 0 5 0 4 1 = some DMA_NO_REGION ∧
    Served (cmd (host l) true m) 0 true .urgent 0x0041 m ∧ 2 ≤ (cmd (host l) true m).roleOf 0 ∧
    Served (cmd up true m) 0 true .urgent 0x0041 m ∧ (cmd up true m).roleOf 0 < 2 ∧ (locked up).cfgRec 0x0801 0 = none ∧
    (host l).cfgRec 0x0801 0 = some l ∧ fld (word m 1) 8 2 ≠ 3 ∧ fld (word m 1) 10 22 = 0 ∧ bit (l.u 8 2) 6 = true ∧ (host l).st.phase = .running ∧
    (complete (locked up)).st.phase ≠ .running ∧ bit (dumb.u 8 2) 6 = false ∧ (host dumb).cfgRec 0x0801 0 = some dumb ∧
    Served (cmd (host l) false p) 0 false .normal 0x0042 p ∧ (cmd up false p).st.lock ≠ some 0 ∧ fld (word p 1) 9 7 = 0 ∧
    fld (word p 1) 16 16 = 0x54 ∧ 0x54 + 4 * (paramWords p).length ≤ 0x118 ∧ (∀ w ∈ paramWords p, paramWordBad w.1 w.2 = none) ∧
    bit (word h 1) 8 = true ∧ bit (word p 1) 8 = false ∧ paramInconsistent (withWords l (mergeWords [] (paramWords p))) = none ∧
    paramInconsistent (withWords l [(0x64, 5)]) = some 0x64 := by
  simp only [served_iff]; decide

theorem wit_DataRows_patch :
    let v : List Word := [0x40, 0xFE01, 0, 7, 5, 0]
    let w : List Word := [0x40, 0xFE01, 0, 8, 5, 0]
    let f : List Word := [0x40, 0xFF01, 0]
    let f5 : List Word := [0x40, 0x0501, 0]
    let s := (locked up).updSt fun t => { t with prog := some prog0 }
    Served (cmd up true v) 0 true .urgent 0x0040 v ∧ (cmd up true v).roleOf 0 < 2 ∧
    Served (cmd s true v) 0 true .urgent 0x0040 v ∧ 2 ≤ (cmd s true v).roleOf 0 ∧ patchFields v = none ∧ fld (word v 1) 8 8 = 0xFE ∧
    (patchFields [0x40, 0xFE00, 0, 7, 5, 0]).isSome = true ∧ patchFields f = none ∧ fld (word f 1) 8 8 ≠ 0xFE ∧
    descBad (cmd s true f) 0 0xFF 0 12 0 = none ∧ patchFields f5 = none ∧ descBad (cmd s true f5) 0 5 0 12 0 = some DMA_NO_REGION ∧
    patchItems ((wordBytes v).drop 12) 1 = [(7, leBytes 5 8)] ∧ (cmd s true v).st.prog = some prog0 ∧
    patchBad (cmd s true v) prog0 ((cmd s true v).roleOf 0) 0 [(7, leBytes 5 8)] = none ∧ (cmd s true v).taskDef 1 = some task0 ∧
    patchItems ((wordBytes w).drop 12) 1 = [(8, leBytes 5 8)] ∧
    patchBad (cmd s true w) prog0 ((cmd s true w).roleOf 0) 0 [(8, leBytes 5 8)] = some ⟨UNKNOWN_SYMBOL, 0, 0, []⟩ ∧
    (symDefs prog0).map (fun y => (y.no, y.level)) = [(7, 1)] := by
  simp only [served_iff]; decide

theorem wit_TransferRows :
    let r : List Word := [0x50, 0, 0, 1, 0xFF, 0]
    let f : List Word := [0x52, 0, 0xFF, 0]
    let k : List Word := [0x53, 0xFF01, 0, 4, 0]
    let s := bulk (locked up)
    let n := s.updRec fun v => { v with next := 5, clearBase := 3 }
    let b := s.updRec fun v => { v with bank0 := { valid := true, payload := [1, 2, 3, 4] } }
    Served (cmd s false r) 0 false .bulk 0x0050 r ∧ fld (word r 2) 16 16 = 0 ∧ 1 ≤ word r 3 ∧ word r 3 ≤ ringSlots ∧
    regionOk (fld (word r 4) 0 8) = true ∧ word r 4 / 256 = 0 ∧ regionOffOk (fld (word r 4) 0 8) (word r 5) = true ∧
    (cmd { s with svc := { up := false } } false r).svc.up = false ∧ (cmd s false r).svc.up = true ∧
    oldestSeq s.svc.rcd ≤ word r 1 ∧ word r 1 < oldestSeq n.svc.rcd ∧ descBad (cmd s false r) 0 0xFF 0 64 1 = none ∧
    descBad (cmd s false r) 0 5 0 64 1 = some DMA_NO_REGION ∧
    Served (cmd s false f) 0 false .bulk 0x0052 f ∧ word f 1 / 65536 = 0 ∧ regionOk (word f 2) = true ∧
    regionOffOk (word f 2) (word f 3) = true ∧ descBad (cmd s false f) 0 (word f 2) (word f 3) (64 * 1) 1 = none ∧
    Served (cmd b false k) 0 false .bulk 0x0053 k ∧ (cmd b false k).st.lock = some 0 ∧ fld (word k 1) 0 2 = 1 ∧ fld (word k 1) 2 6 = 0 ∧
    regionOk (fld (word k 1) 8 8) = true ∧ word k 1 / 65536 = 0 ∧ word k 2 % 4 = 0 ∧ word k 3 = 4 ∧
    regionOffOk (fld (word k 1) 8 8) (word k 4) = true ∧ (bankOf (cmd b false k).svc.rcd 0).valid = true ∧
    (bankOf (cmd s false k).svc.rcd 0).valid = false ∧ word k 2 + word k 3 ≤ 64 + (cmd b false k).svc.rcd.bank0.payload.length ∧
    64 + (cmd b false k).svc.rcd.bank0.payload.length < word [0x53, 0xFF01, 0, 72, 0] 3 ∧
    descBad (cmd b false k) 0 (fld (word k 1) 8 8) (word k 4) (word k 3) 1 = none ∧ Served (cmd (bulk up) false k) 0 false .bulk 0x0053 k ∧
    (cmd (bulk up) false k).st.lock ≠ some 0 := by
  simp only [served_iff]; decide

/-- `up` with a chunk of 8 bytes for target 4 running in partition 0's main mailbox, its first 4 bytes not yet there. -/
def chunking (region : Nat) (pre : Bool) : State :=
  ((bulk (locked up)).updSt fun t => { t with stage := [(4, ⟨0, 64, [], []⟩)] }).updMb 0 false fun m =>
    { m with busy := true, phase := .running, xfer := some (.chunk 4 0 8 region 0), preempted := pre }

/-- An urgent command stands in partition 1's mailbox. -/
def urgent1 (s : State) : State := s.updMb 1 true fun m => { m with busy := true }

theorem wit_BulkRows :
    let s := chunking 0 false
    let h := chunking 0 true
    (s.part 0).main.xfer = some (.chunk 4 0 8 0 0) ∧ (s.part 0).main.busy = true ∧ (s.part 0).main.phase = .running ∧
    s.st.bulkQueue.head? = some 0 ∧ (s.part 0).main.preempted = false ∧ (Xfer.chunk 4 0 8 0 0).isIn = true ∧
    (s.part 0).main.atBoundary 4096 = true ∧ (s.part 0).main.bytes < (Xfer.chunk 4 0 8 0 0).size ∧ (s.part 0).att ≠ .detaching ∧
    ((withPart s fun q => { q with att := .detaching }).part 0).att = .detaching ∧
    urgentBusy (urgent1 s) = true ∧ urgentBusy h = false ∧ (h.part 0).main.preempted = true ∧
    (Xfer.chunk 4 0 8 0 0).region.1 ≠ 0xFF ∧ s.st.stage.get? 4 = some ⟨0, 64, [], []⟩ ∧ ([1, 2, 3, 4] : List Byte) ≠ [] ∧
    (s.part 0).main.bytes + ([1, 2, 3, 4] : List Byte).length < 8 ∧ (Xfer.chunk 4 0 8 0 0).isDma = true ∧
    (s.mbox 0 false).xfer = some (.chunk 4 0 8 0 0) ∧ (Xfer.validate 4 8 false).isDma = false ∧
    ((validating 8 0).mbox 0 false).xfer = some (.validate 4 8 false) := by decide

def thl0 : ThlSess := { id := 9, key := key0, high := 5, seen := [], lane := .a }

/-- `up` over THL on Lane A's own address, with a session and an urgent transfer of partition 0. -/
def overThl (x : Xfer) (bytes : Nat) : State :=
  (withPart (withPassword { up with a := { lane1 with net := { bootUp := true, bootIp := 5 } } }) fun q =>
    { q with thl := some thl0 }).updMb 0 true fun m => { m with busy := true, phase := .running, xfer := some x, bytes := bytes }

def xin : Xfer := .patches 1 0xFF 0

def xout : Xfer := .toHost [1, 2, 3, 4] 0xFF 0 0 0 [] false

theorem thl_good (s : State) (k : ThlKind) (c : List Byte) (h : (s.part 0).thl = some thl0) (g : thlServed s (s.thlLane thl0) = true) :
    thlCheck s 0 9 6 k c (thlTag thl0 0 6 k c) = .good thl0 := by
  have e : seqOk thl0 6 = true := by decide
  have i : thl0.id = 9 := rfl
  simp [thlCheck, h, e, g, i]

theorem thl_old (s : State) (k : ThlKind) (c : List Byte) (h : (s.part 0).thl = some { thl0 with high := 90 })
    (g : thlServed s (s.thlLane { thl0 with high := 90 }) = true) :
    thlCheck s 0 9 6 k c (thlTag { thl0 with high := 90 } 0 6 k c) = .old := by
  have e : seqOk { thl0 with high := 90 } 6 = false := by decide
  have i : ({ thl0 with high := 90 } : ThlSess).id = 9 := rfl
  revert h g e i
  generalize ({ thl0 with high := 90 } : ThlSess) = t
  intro h g e i
  simp [thlCheck, h, i, g, e]

theorem thl_bad (s : State) (k : ThlKind) (c : List Byte) (h : (s.part 0).thl = some thl0) (g : thlServed s (s.thlLane thl0) = true) :
    thlCheck s 0 9 6 k c (List.replicate 17 0) = .badTag := by
  have i : thl0.id = 9 := rfl
  have n : thlTag thl0 0 6 k c ≠ List.replicate 17 0 := fun e => by
    have := congrArg List.length e
    simp only [thlTag, List.length_take, List.length_replicate] at this
    omega
  simp only [thlCheck, h, i, g]
  rw [if_neg (by simp), if_pos n]

theorem wit_ThlRows :
    let s := overThl xin 0
    let t := overThl xout 4
    let s1 := (thlIn s .a 0 {}).2
    let t1 := (thlIn t .a 0 {}).2
    let shed := { s with a := { s.a with net := { s.a.net with rate := [(1000, (0, 2000))] } } }
    let bare := { s with svc := { up := true } }
    thlServed State.reset .a = false ∧ thlServed s .a = true ∧ (thlIn s .a 0 {}).1 = true ∧ (thlIn shed .a 0 {}).1 = false ∧
    thlServed shed .a = true ∧ thlBase s1 0 = some (List.replicate 32 5) ∧
    thlBase (thlIn bare .a 0 {}).2 0 = none ∧ (thlIn bare .a 0 {}).1 = true ∧
    (s.part 0).thl = some thl0 ∧ s.thlLane thl0 = .a ∧ (s1.part 0).thl = some thl0 ∧ thlServed s1 (s1.thlLane thl0) = true ∧
    thlMailbox s1 0 0 true = some true ∧ thlMailbox s1 0 1 true = none ∧ (s1.mbox 0 true).xfer = some xin ∧ (s1.mbox 0 true).preempted = false ∧
    (s1.mbox 0 true).bytes = 0 ∧ (t1.part 0).thl = some thl0 ∧ thlMailbox t1 0 0 false = some true ∧ thlMailbox t1 0 1 false = none ∧
    (t1.mbox 0 true).xfer = some xout ∧ (t1.mbox 0 true).bytes ≠ (t1.mbox 0 true).flushed ∧
    xin.region.1 = 0xFF ∧ (s.mbox 0 true).busy = true ∧ (s.mbox 0 true).phase = .running := by decide

/-! Start-up, roles, tokens (04, 09, 10) -/

theorem wit_LanePowerRows : (State.reset.lane .a).feed = false ∧ (up.lane .a).feed = true ∧
    ({ up with a := { lane1 with phase := .starting } } : State).a.phase = .starting ∧ lane1.cidOk = true ∧ (State.reset.lane .a).cidOk = false ∧
    up.a.phase ≠ .starting ∧ up.a.phase ≠ .stopped := by decide

/-- A lane that stands before the clock qualification. -/
def raw (v : Lane) : Lane := { v with clkQual := false, rolesStep := false, startDone := false, role := .offline }

theorem wit_StartupRows :
    let q := { raw lane1 with clkQual := true }
    let w : HbWord := { role := 2, fw := 0 }
    let b : State := { up with b := { q with rolesStep := true } }
    (raw lane1).phase = .running ∧ (raw lane1).clkQual = false ∧ tcxoPasses 800 = true ∧ rcPasses 31250 = true ∧
    tcxoPasses 752 = true ∧ tcxoPasses 751 = false ∧ tcxoPasses 848 = true ∧ rcPasses 33126 = false ∧
    q.clkQual = true ∧ q.rolesStep = false ∧ q.cause ≠ .startup ∧
    ({ q with beat := { word := some { w with fw := 3 } } } : Lane).beat.word = some { w with fw := 3 } ∧ ({ w with fw := 3 } : HbWord).fw ≠ q.fw ∧
    w.fw = q.fw ∧ w.role = 2 ∧ ({ w with role := 0, health := 3 } : HbWord).role ≠ 2 ∧ q.beat.word = none ∧
    ({ raw lane1 with cause := .startup } : Lane).cause = .startup ∧
    { lane1 with startDone := false }.role = .solo ∧ { lane1 with startDone := false }.rolesStep = true ∧
    ({ up with st := { up.st with ready := false } } : State).st.ready = false ∧ up.st.ready = true ∧ (raw lane1).startDone = false ∧
    lane1.startDone = true ∧ waitsForRole b.b = true ∧ b.b.beat.word = none ∧ waitsForRole up.b = false ∧
    { q with rolesStep := true, role := .standby }.role ≠ .offline ∧ ({ up with a := { q with role := .standby } } : State).activeLane = none ∧
    up.activeLane = some .a ∧ ({ lane1 with role := .offline, cause := .parked } : Lane).resumes = true ∧ lane1.resumes = false ∧
    ({ raw lane1 with role := .offline } : Lane).startDone = false := by
  intros; and_intros <;> decide

/-- Two lanes, A ACTIVE and B STANDBY. -/
def pair : State :=
  { up with a := { lane1 with role := .active, beat := { word := some { role := 1, lane := .b } }, mirror := { consecutive := 20 } },
            b := { lane1 with role := .standby, beat := { word := some { role := 2 } }, mirror := { consecutive := 20 } } }

def lost (v : Lane) : Lane := { v with beat := { v.beat with missBridge := 2, missBeacon := 2 } }

theorem wit_RoleChanges : (pair.lane .a).role ≠ .offline := by decide

theorem wit_PartnerRows :
    let b := lost pair.b
    let t : State := { pair with b := { pair.b with tok := { asked := some .takeover, grant := some ⟨5, .b, 1, 1⟩ } },
                                 isl := [(5, { powered := true, holder := some .b })] }
    2 ≤ (lost pair.a).beat.missBridge ∧ 2 ≤ (lost pair.a).beat.missBeacon ∧ (lost pair.a).beat.declared = false ∧
    (lost pair.a).beat.word = some { role := 1, lane := .b } ∧ (lost pair.a).role = .active ∧ b.beat.word = some { role := 2 } ∧
    b.role = .standby ∧ (lost { pair.a with role := .solo }).role = .solo ∧ (lost lane1).beat.word = none ∧ pair.a.beat.missBridge < 2 ∧
    t.b.role = .standby ∧ t.b.tok.asked = some .takeover ∧ pair.a.phase ≠ .parked ∧ ({ pair.a with phase := .parked } : Lane).phase = .parked ∧
    t.b.tok.grant.isSome = true ∧ (t.island t.st.referee).holder = some .b ∧
    { b.beat with missBeacon := 1 }.missBeacon < 2 ∧ { b.beat with missBridge := 1 }.missBridge < 2 ∧ b.beat.faultBridge = false ∧
    b.beat.faultBeacon = false ∧ decodeGroup (lightGroup .b 2 1) = some (.b, 2, 1) ∧ decodeGroup [(0, 50), (300, 130), (600, 30)] = some (.a, 2, 0) ∧
    decodeGroup [(0, 60), (300, 40), (600, 40)] = none ∧ decodeGroup [] = none ∧
    { pair.b.beat with faultBridge := true }.missBridge = 0 ∧ { pair.b.beat with faultBridge := true }.missBeacon = 0 ∧
    pathFaultSeen { pair.b with beat := { pair.b.beat with faultBridge := true } } = true := by decide

theorem wit_HeartbeatRows :
    let p : State := { pair with a := { pair.a with phase := .parked, role := .offline, beat := { missBeacon := 2 } }, b := { pair.b with lit := false, role := .offline } }
    let e := pair.updSt fun t => { t with ends := { t.ends with s := some 6 } }
    let w (r h : Nat) : HbWord := { role := r, hflags := h, endsTick := 6 }
    let wait : Lane := { raw lane1 with clkQual := true, rolesStep := true }
    (State.reset.lane .a).runs = false ∧ (State.reset.lane .a).phase ≠ .parked ∧
    (pair.lane .a).runs = true ∧ receives (pair.lane .a) = false ∧ receives (pair.lane .b) = true ∧ bit (w 0 0).hflags 4 = false ∧
    pair.st.ends.s = none ∧ bit (w 0 0).hflags 3 = false ∧
    (pair.lane .a).role = .active ∧ (pair.lane .a).startDone = true ∧ (w 0 0).role = 0 ∧ (w 1 0).role ≠ 0 ∧ (up.lane .a).role = .solo ∧
    (pair.lane .b).role = .standby ∧ bit (w 2 4).hflags 2 = true ∧ waitsForRole wait = true ∧ (w 2 0).role = 2 ∧ (w 2 0).fw = wait.fw ∧
    ({ w 2 0 with fw := 3 } : HbWord).fw ≠ wait.fw ∧ unsettled wait = true ∧ (w 1 0).role ≠ 2 ∧ wait.runs = true ∧
    e.st.ends.s = some 6 ∧ e.st.ends.confirmed = false ∧ bit (w 1 8).hflags 3 = true ∧ (w 1 8).endsTick % 2 ^ 32 = 6 ∧
    bit (w 2 16).hflags 4 = true ∧ bit (w 2 16).hflags 2 = false ∧
    (p.lane .a).phase = .parked ∧ receives (p.lane .a) = false ∧ (p.lane .a).role = .offline ∧ bit (w 2 32).hflags 5 = true ∧
    2 ≤ (p.lane .a).beat.missBeacon ∧ lineDark p .a = true ∧ p.activeLane = none := by decide

def snap0 : SnapData := ⟨4, [(0, 0xA0000000, [1, 2])], [], [], [], [], 96, 7⟩

theorem wit_MirrorRows :
    let s : State := { pair with a := { pair.a with mirror := { sent := some snap0 } } }
    let c : State := { s with b := { s.b with mirror := { pieces := [(4, .inst 0)], closed := some (96, 7) } } }
    let j : State := { s with grid := { tick := 6 }, b := { s.b with mirror := { pieces := [(5, .inst 0)], judged := some 4 } } }
    receives (s.lane .b) = true ∧ receives (s.lane .a) = false ∧ (s.lane (other .b)).mirror.sent = some snap0 ∧
    (s.lane .b).mirror.judged ≠ some snap0.tick ∧ (s.lane .b).mirror.closed ≠ some (snap0.len, snap0.crc) ∧
    (c.lane .b).mirror.closed = some (snap0.len, snap0.crc) ∧ (∀ p ∈ neededPieces c (other .b), (snap0.tick, p) ∈ (c.lane .b).mirror.pieces) ∧
    (∀ e ∈ (c.lane .b).mirror.pieces, snap0.tick < e.1 → c.grid.tick ≤ e.1) ∧ 0xA0000002 ≤ 0xA0000002 ∧
    (j.lane (other .b)).mirror.sent = some snap0 ∧ (j.lane .b).mirror.judged = some snap0.tick ∧ leftOver j .b = some 5 ∧
    (pair.lane (other .b)).mirror.sent = none ∧ leftOver pair .b = none := by decide

theorem wit_EndsRows :
    let s := locked pair
    let d := s.updSt fun t => { t with ends := { t.ends with due := true } }
    let going := s.updSt fun t => { t with ends := { t.ends with s := some 6 } }
    let sure := s.updSt fun t => { t with ends := { t.ends with s := some 6, confirmed := true } }
    let x (o : Option OffCause) (r : Role) := { s with grid := { tick := 7 }, b := { s.b with role := r },
                                                       isl := [(5, { powered := true, holder := some .b })] }.updSt fun t =>
      { t with ends := { t.ends with s := some 6, confirmed := true, offAfter := o } }
    let c := s.updSt fun t => { t with ends := { t.ends with check := 3 } }
    s.activeLane = some .a ∧ s.st.ends.s = none ∧ timerBlocked s = none ∧ timerBlocked (locked up) = some 1 ∧ (locked up).activeLane = some .a ∧
    State.reset.activeLane = none ∧ d.st.ends.due = true ∧ timerBlocked d = none ∧ s.st.ends.due = false ∧
    Served (cmd up true [0x32]) 0 true .urgent 0x0032 [0x32] ∧ (cmd up true [0x32]).roleOf 0 < 2 ∧
    Served (cmd s true [0x32]) 0 true .urgent 0x0032 [0x32] ∧ 2 ≤ (cmd s true [0x32]).roleOf 0 ∧ endsBlocked (cmd s true [0x32]) = none ∧
    Served (cmd (locked up) true [0x32]) 0 true .urgent 0x0032 [0x32] ∧ endsBlocked (cmd (locked up) true [0x32]) = some 1 ∧
    Served (cmd going true [0x32]) 0 true .urgent 0x0032 [0x32] ∧ going.st.ends.s = some 6 ∧ going.st.ends.confirmed = false ∧
    Served (cmd sure true [0x32]) 0 true .urgent 0x0032 [0x32] ∧ sure.st.ends.confirmed = true ∧ going.standbyLane = some .b ∧
    ({ going with b := {} } : State).standbyLane = none ∧
    (x none .standby).st.ends.s = some 6 ∧ (x none .standby).activeLane = some .a ∧ (x none .standby).grid.tick = 6 + 1 ∧
    (x none .standby).st.ends.confirmed = true ∧ ((x none .standby).lane (other .a)).role = .standby ∧
    ((x none .standby).island (x none .standby).st.referee).holder = some (other .a) ∧ (x none .standby).st.ends.offAfter = none ∧
    (x (some .clock) .standby).st.ends.offAfter = some .clock ∧ ((x none .offline).lane (other .a)).role ≠ .standby ∧
    (x none .offline).activeLane = some .a ∧ ¬((s.island s.st.referee).holder = some .b) ∧
    c.st.ends.check ≠ 0 ∧ c.standbyLane ≠ none ∧ c.activeLane = some .a ∧ selfCheckFails c .a = true ∧ c.st.ends.s = none ∧ s.st.ends.check = 0 := by
  simp only [served_iff]; intros; and_intros <;> decide

theorem wit_EndsRows_degraded : ∃ code, timerBlocked { pair with b := { pair.b with health := .degraded } } = some code := ⟨_, rfl⟩

theorem wit_ReintRows :
    let s : State := { up with b := { lane1 with role := .offline, cause := .stopped } }
    let at_ (st : ReintStep) (n : Nat) : State := { s with b := { s.b with reint := { step := st, restarts := n } } }
    let copy : State := { at_ .copying 0 with a := { s.a with frozenTick := some 0 } }
    let badImage := s.updSt fun t => { t with access := some [], accessImage := [1] }
    let r (n : Nat) (m : Bool) : Lane := { s.b with reint := { step := .tracking, count := n }, suspect := m }
    mayReint s .b = true ∧ (s.lane .b).reint.step = .idle ∧ (s.lane .b).fw = (s.lane (other .b)).fw ∧ imagesHold s = true ∧
    imagesHold badImage = false ∧ mayReint badImage .b = true ∧ ({ s.b with fw := 3 } : Lane).fw ≠ (s.lane (other .b)).fw ∧
    mayReint (at_ .waitRetry 3) .b = true ∧ mayReint up .a = false ∧ ((at_ .copying 2).lane .b).reint.restarts < 3 ∧
    3 ≤ ((at_ .copying 3).lane .b).reint.restarts ∧ ((at_ .copying 3).lane .b).reint.step = .copying ∧
    (copy.lane .b).reint.step = .copying ∧ (copy.lane (other .b)).frozenTick = some copy.grid.tick ∧ (s.lane (other .b)).frozenTick ≠ some s.grid.tick ∧
    (r 16 false).reint.step = .tracking ∧ 16 ≤ (r 16 false).reint.count ∧ (r 15 true).reint.count < 16 ∧ (s.lane (other .b)).role = .solo := by
  intros; and_intros <;> decide

theorem wit_TokenRows :
    let isl (i : Island) : State := { pair with isl := [(5, i), (0, { powered := true, holder := some .a })] }
    let ask (s : State) (w : TokWhy) : State := { s with b := { s.b with tok := { asked := some w } } }
    let r (w : TokWhy) (y : TokReply) : Lane := { pair.b with tok := { asked := some w, reply := some y } }
    let free := isl { powered := true }
    let mine := isl { powered := true, holder := some .b }
    let hers (f : Island → Island) := isl (f { powered := true, holder := some .a })
    let g : Grant := ⟨5, .b, 1, 1⟩
    let done (i : Island) := (isl i).updSt fun t => { t with ends := { t.ends with released := true } }
    ((ask free .takeover).lane .b).tok.asked = some .takeover ∧ (free.island pair.st.referee).powered = true ∧ pair.st.referee = 5 ∧
    (mine.island 5).holder = some .b ∧ ((isl { powered := true, pendGrant := some g }).island 5).pendGrant = some g ∧
    (free.island 5).holder = none ∧ (free.island 5).pendGrant = none ∧
    ((hers fun i => { i with released := some 1 }).island 5).released = some (pair.grid.tick + 1) ∧
    ((hers fun i => { i with announced := some 4 }).island 5).announced = some 4 ∧ pair.grid.tick ≤ 4 ∧
    ((hers id).island 5).holder = some (other .b) ∧ ((hers id).island 5).announced = none ∧ ((hers id).island 5).released ≠ some (pair.grid.tick + 1) ∧
    ((ask free .takeover).lane .b).tok.reply = none ∧ (pair.lane .b).tok.asked = none ∧
    (r .startUp (.granted g)).tok.reply = some (.granted g) ∧ (r .startUp (.granted g)).tok.asked = some .startUp ∧
    ({ pair with st := { pair.st with ready := false } } : State).st.ready = false ∧ pair.st.ready = true ∧
    (r .again .refused).tok.asked = some .again ∧ (r .again (.granted g)).tok.reply = some (.granted g) ∧
    (r .takeover .refused).role = .standby ∧ (r .takeover .refused).tok.reply = some .refused ∧ (r .ends .refused).tok.asked = some .ends ∧
    ({ pair.a with tok := { grant := some ⟨5, .a, 1, 1⟩ } } : Lane).tok.grant = some ⟨5, .a, 1, 1⟩ ∧
    grantOf (grantBytes ⟨5, .a, 1, 1⟩) = some ⟨5, .a, 1, 1⟩ ∧ grantOf (List.replicate 12 0xFF) = none ∧ tokenIslands.contains 0 = true ∧
    0 ≠ pair.st.referee ∧ ((isl {}).island 0).powered = true ∧ ((isl {}).island 0).holder = some .a ∧
    (done {}).st.ends.released = true ∧ ((done { holder := some .a }).island 5).waiting = none ∧ ((done { holder := some .a }).island 5).holder = some .a ∧
    ((done { holder := some .a, waiting := some .b }).island 5).waiting = some .b ∧ (pair.island 0).holder ≠ some .a := by
  intros; and_intros <;> decide

/-! Clocks and power (14, 15) -/

def power0 : CfgRec := rec_ 0x0201 0 [(8, 7), (9, 0x0F), (0x0A, 0xFF)]

theorem wit_ClockRows :
    let c (x : Clocks) : Lane := { lane1 with clocks := x }
    let tcxo : Clocks := { src := .tcxo, tcxoGood := true }
    let rc := c { src := .rc, tcxoGood := false }
    let s : State := { pair with a := { pair.a with clocks := { tcxo with rcQual := true } } }
    lane1.monitored = true ∧ (c tcxo).clocks.tcxoGood = true ∧ (c tcxo).clocks.src ≠ .rc ∧ (c tcxo).clocks.rcQual = false ∧
    (c { tcxo with rcQual := true }).clocks.rcQual = true ∧ (c { tcxo with rcQual := true }).clocks.rcBad = false ∧ tcxoPasses 751 = false ∧
    tcxoPasses 752 = true ∧ (c { tcxo with rcQual := true, rcBad := true }).clocks.rcBad = true ∧ (c { tcxo with src := .rc }).clocks.src = .rc ∧
    up.st.power.entering ≠ some .occulting ∧ lane1.role = .solo ∧ lane1.health = .good ∧ pair.b.role = .standby ∧
    s.a.role = .active ∧ s.b.suspect = false ∧ s.st.ends.s = none ∧ s.st.commit = none ∧ s.a.clocks.rcQual = true ∧
    (c tcxo).clocks.rcRestarting = false ∧ rcPasses 29375 = true ∧ rcPasses 29374 = false ∧ pair.b.monitored = true ∧
    ({ pair.b with clocks := tcxo } : Lane).clocks.tcxoGood = true ∧
    (c { rcRestarting := true }).clocks.held = false ∧ (c { rcRestarting := true, held := true }).clocks.held = true ∧
    (c { rcRestarting := true }).clocks.rcRestarting = true ∧ rc.phase = .running ∧ rc.clocks.src = .rc ∧ rc.clocks.tcxoGood = false ∧
    State.reset.a.phase ≠ .running := by decide

theorem wit_PowerRows :
    let dark : State := { (withCfg up [power0]) with a := { lane1 with phase := .dark, role := .offline } }
    let d := dark.updSt fun t => { t with power := { t.power with ps := .dark } }
    let occ (k : Nat) := up.updSt fun t => { t with power := { t.power with entering := some .occulting, busyTick := some 0, busyEdges := k } }
    let going (w : Option WakeSource) := (withCfg up [power0]).updSt fun t =>
      { t with phase := .stopped, power := { t.power with entering := some .dark, wake := w } }
    { lane1 with opp := { stepTo := some 3 } }.opp.stepTo = some 3 ∧ lane1.opp.stepTo = none ∧ up.st.power.entering ≠ some .occulting ∧
    GateBlock.cf 0 ∈ ({ lane1 with opp := { asked := [.cf 0] } } : Lane).opp.asked ∧ GateBlock.cf 0 ∉ lane1.opp.asked ∧
    parking ({ pair.b with beat := { word := some { role := 2, hflags := 32 } } }) = true ∧ parking lane1 = false ∧
    (going none).st.power.entering = some .dark ∧ (going none).st.power.wake = none ∧ (going (some .key)).st.power.wake = some .key ∧
    ticking (going none) = true ∧ powerAllowed (going none) .dark = true ∧ powerAllowed (locked (going none)) .dark = false ∧ wakeEnabled (going none) .key = true ∧ d.st.power.entering ≠ some .dark ∧
    (occ 99).st.power.entering = some .occulting ∧ (occ 99).st.power.busyTick = some (occ 99).grid.tick ∧ (occ 99).st.power.busyEdges < 100 ∧
    100 ≤ (occ 100).st.power.busyEdges ∧ State.reset.a.phase ≠ .running ∧
    d.st.power.ps = .dark ∧ wakeEnabled d .key = true ∧ (d.lane .a).phase = .dark ∧ up.st.power.ps ≠ .dark ∧ up.svc.up = true ∧
    State.reset.svc.up = false ∧ clkOk up 0 = true ∧ clkOk up 31 = false := by decide

theorem wit_PowerDwell :
    let o := { (withCfg pair [power0, { rec_ 0x0B01 0 [] with flags := 1 }]) with grid := { mono := 5 } }.updSt fun t =>
      { t with power := { t.power with dwell := some .occulting, dwellFrom := 5 } }
    let d := (withCfg up [power0]).updSt fun t => { t with phase := .stopped, power := { t.power with dwell := some .dark } }
    let later : State := { d with grid := { mono := 65535 * 1000000000 } }
    o.st.power.dwell = some .occulting ∧ o.activeLane ≠ none ∧ o.st.power.entering = none ∧ chosenState o (computeTmin o) = .occulting ∧
    o.st.power.dwellFrom + ((o.cfgRec 0x0201 0).elim 0 fun r => r.u 0x10 2) * 1000000000 ≤ o.grid.mono ∧
    later.st.power.dwell = some .dark ∧ later.activeLane ≠ none ∧ later.st.power.entering = none ∧ chosenState later (computeTmin later) = .dark ∧
    later.st.power.dwellFrom + ((later.cfgRec 0x0201 0).elim 0 fun r => r.u 0x10 2) * 1000000000 ≤ later.grid.mono := by
  intros; and_intros <;> decide

/-! Block engine (06, 07) -/

/-- The program with every read right and address words. -/
def prog1 : List Byte := image 352 (progBytes ++ [(0x9C, 0xFF), (0x9D, 0xFF), (0x9E, 0x3F)])

def task1 : TaskDef := { task0 with rights := 0x3FFFFF }

/-- Level 1 runs on Lane A in the context `c`, in an open window of a 50 µs tick. -/
def engine (c : Ctx) : State :=
  (withCfg { up with a := { lane1 with be := { window := true, ctxs := [(1, { c with phase := .running })] } } }
    [rec_ 0x0101 0 [(8, 50)]]).updSt fun t => { t with prog := some prog1, mpu := [(1, [(0x20000000, 64)])] }

theorem prog1_task : (some prog1).bind (fun img => (taskDefs img).find? fun t => t.level == 1) = some task1 := by decide

theorem engine_fits (c : Ctx) (a : Slot) (k : Nat) (h : bundleOk a .nop = true) (h1 : c.cyc + k ≤ 8000) (h2 : k ≤ 28800) :
    BundleFits (engine c) .a 1 prog1 task1 a 0 .nop k := by
  have z : bundleCycles (engine c) .a 1 task1 a k = k := Nat.zero_add k
  refine ⟨rfl, rfl, prog1_task, rfl, rfl, ?_, by decide, h, ?_, ?_⟩
  · show _ ∉ ([] : List Nat)
    simp
  · rw [z]
    exact h1
  · have : windowCycles (engine c) .a = 28800 := rfl
    rw [z, this]
    show 0 + k ≤ 28800
    omega

theorem wit_BlockArithmetic :
    let s := engine { v := [(1, 7)] }
    let fits (a : Slot) (k : Nat) : Prop := BundleFits s .a 1 prog1 task1 a 0 .nop k
    (AluOp.div, Instr.beDiv) ∈ alu3 ∧ tyOk .div .dint = true ∧ fits (.alu .div .dint 2 1 3 0) (aluCycles .div .dint) ∧
    alu .div .dint ((ctxOf s .a 1).v64 2) ((ctxOf s .a 1).v64 1) ((ctxOf s .a 1).v64 3) 3 0 = .div0 ∧
    alu .add .dint ((ctxOf s .a 1).v64 2) ((ctxOf s .a 1).v64 1) ((ctxOf s .a 1).v64 1) 1 0 = .val 14 false ∧
    (AluOp.add, Instr.beAdd) ∈ alu3 ∧ fits (.alu .add .dint 2 1 1 0) (aluCycles .add .dint) ∧ tyOk .add .bool = false ∧
    fits (.alu .add .bool 2 1 1 0) (aluCycles .add .bool) ∧
    (AluOp.neg, Instr.beNeg) ∈ alu2 ∧ tyOk .neg .dint = true ∧ fits (.alu .neg .dint 2 1 0 0) (aluCycles .neg .dint) ∧
    tyOk .shl .dint = true ∧ fits (.alu .shl .dint 2 1 0 3) 1 ∧ fits (.alu .shr .dint 2 1 0 3) 1 ∧ tyOk .shr .dint = true ∧
    fits (.alu .movi .dint 2 0 0 3) 1 ∧ tyOk .movi .dint = true ∧ fits (.alu .cvt .dint 2 1 (Fin.ofNat 32 (tyCode .lreal)) 0) 2 := by
  intro s fits
  and_intros <;> first | decide | exact engine_fits _ _ _ (by decide) (by decide) (by decide) | simp [alu3, alu2]

theorem wit_IntegerArithmetic :
    isInt .int = true ∧ (let int (x : DWord) : Int := signed (tyWidth .int) x.toNat
      int 0 = 0 ∧ int 3 ≠ 0 ∧ ¬(int 5 = -(2 ^ (tyWidth .int - 1) : Int) ∧ int 3 = -1) ∧ tyWidth .int ≤ (20 : BitVec 11).toNat % 64) := by decide

theorem wit_BlockMemory :
    let f : BlockFrame := { typeNo := 3, ret := 16, savedA := [], savedV := [] }
    let s := engine { v := [(1, 7)], a := [(1, 0x10000000), (2, 0x20000000), (3, 0xA0000010), (4, 0xB0000000), (5, 0x60000000)], frames := [f] }
    let bad := s.updLane .a fun v => { v with be := { v.be with poisoned := [0x10000000 / 8 * 8] } }
    let c := ctxOf s .a 1
    let x (k : Nat) := bundleIn s .a 1 prog1 task1 .nop .nop k
    let y (k : Nat) := bundleIn bad .a 1 prog1 task1 .nop .nop k
    beAddr c 1 4 = 0x10000004 ∧ ldCycles (beAddr c 1 4) = 3 ∧ ldCycles (beAddr c 3 0) = 2 ∧
    BundleFits s .a 1 prog1 task1 (.ld .dint 2 1 4) 0 .nop 3 ∧ readOk (x 3) (beAddr c 1 4) 4 = true ∧ poisoned (x 3) (beAddr c 1 4) 4 = none ∧
    (poisoned (y 3) (beAddr c 1 4) 4).isSome = true ∧ BundleFits s .a 1 prog1 task1 (.ld .dint 2 3 0) 0 .nop 2 ∧
    beAddr c 3 0 / 2 ^ 28 = 0xA ∧ readOk (x 2) (beAddr c 3 0) 4 = true ∧ (2 : BitVec 13).toNat % 4 ≠ 0 ∧ beAddr c 1 6 % 4 ≠ 0 ∧
    BundleFits s .a 1 prog1 task1 (.st .dint 1 2 4) 0 .nop 1 ∧ writeOk (x 1) (beAddr c 2 4) 4 = true ∧ beAddr c 2 4 / 2 ^ 28 ≠ 0xA ∧
    BundleFits s .a 1 prog1 task1 (.st .dint 1 1 4) 0 .nop 1 ∧ writeOk (x 1) (beAddr c 1 4) 4 = false ∧
    BundleFits s .a 1 prog1 task1 (.st .dint 1 3 4) 0 .nop 1 ∧ writeOk (x 1) (beAddr c 3 4) 4 = true ∧ beAddr c 3 4 / 2 ^ 28 = 0xA ∧
    c.frames = f :: [] ∧
    BundleFits s .a 1 prog1 task1 (.lda 5 4 8) 0 .nop 2 ∧ readOk (x 2) (beAddr c 4 8) 4 = true ∧ beAddr c 4 8 / 2 ^ 28 = 0xB ∧
    poisoned (x 2) (beAddr c 4 8) 4 = none ∧ beAddr c 1 8 / 2 ^ 28 ≠ 0xB ∧
    BundleFits s .a 1 prog1 task1 (.idxc 2 5 1 1 9) 0 .nop 2 ∧ (c.v64 1).toNat ≤ (7 : BitVec 10).toNat ∧ (6 : BitVec 10).toNat < (c.v64 1).toNat ∧
    BundleFits s .a 1 prog1 task1 (.idxc 2 5 1 1 6) 0 .nop 2 := by
  intros
  and_intros <;> first | exact engine_fits _ _ _ (by decide) (by decide) (by decide) | decide

theorem wit_BlockControl :
    let s := engine { v := [(1, 7)], loops := [⟨8, 2⟩] }
    let last := engine { loops := [⟨8, 1⟩] }
    let f : BlockFrame := { typeNo := 3, ret := 16, savedA := [], savedV := [] }
    let deep := engine { frames := List.replicate 8 f }
    let init := engine { part := .init }
    let fits (s : State) (a : Slot) (k : Nat) : Prop := BundleFits s .a 1 prog1 task1 a 0 .nop k
    let c := ctxOf s .a 1
    fits s .nop 1 ∧ fits s (.bra 32767) 2 ∧ fits s (.bra 32768) 2 ∧ fits s (.bra 0) 2 ∧ fits s (.bra 1) 2 ∧ fits s (.brz 2 1) 2 ∧ c.v64 2 = 0 ∧
    fits s (.brz 1 1) 1 ∧ c.v64 1 ≠ 0 ∧ fits s (.brnz 1 1) 2 ∧ fits s (.brnz 2 1) 1 ∧ fits s (.loop 1 1) 2 ∧ (c.v64 1).toNat % 2 ^ 32 ≠ 0 ∧
    fits s (.loop 1 0) 2 ∧ fits s (.loop 2 1) 2 ∧ (c.v64 2).toNat % 2 ^ 32 = 0 ∧ afterEndl prog1 (secLen prog1 1) (c.pc + 8) 0 = none ∧
    fits s .endl 1 ∧ c.loopStack = ⟨8, 2⟩ :: [] ∧ fits last .endl 1 ∧ (ctxOf last .a 1).loopStack = ⟨8, 1⟩ :: [] ∧
    fits init .endl 1 ∧ (ctxOf init .a 1).loopStack = [] ∧
    fits s (.callb 1 3) 6 ∧ (findType (typeDefs prog1) 3).isSome = true ∧ findType (typeDefs prog1) 4 = none ∧ fits s (.callb 1 4) 6 ∧
    c.frames.length < 8 ∧ fits deep (.callb 1 3) 6 ∧ 8 ≤ (ctxOf deep .a 1).frames.length ∧ fits init .endE 2 ∧
    (ctxOf init .a 1).frames = [] ∧ (ctxOf init .a 1).part ≠ .main ∧ fits (engine { part := .init, frames := [f] }) .endE 2 ∧
    (ctxOf (engine { part := .init, frames := [f] }) .a 1).frames ≠ [] := by
  intros
  and_intros <;> first | exact engine_fits _ _ _ (by decide) (by decide) (by decide) | decide

/-- ENDL in the second bundle: LOOP with a count of 0 goes past it. -/
theorem wit_BlockControl_skip : afterEndl (image 352 (progBytes ++ [(0x10B, 0x35)])) 64 8 0 = some 16 := by decide

theorem wit_BlockCommits :
    let f : BlockFrame := { typeNo := 3, ret := 16, savedA := [], savedV := [], buf := [(0xA0000010, 1)] }
    let s := engine { frames := [f] }
    let e := engine { tob := [(0x20000000, 1)] }
    let z := engine { tob := [(0x20000000, 1)], cyc := 7998 }
    let i := engine { part := .init, a := [(1, 0xA0000008)] }
    let fits (s : State) (a : Slot) (k : Nat) : Prop := BundleFits s .a 1 prog1 task1 a 0 .nop k
    let m := 8 * (2 : BitVec 13).toNat
    fits s .retb 4 ∧ 4 = 4 + frameWords (bundleIn s .a 1 prog1 task1 .retb .nop 0) ∧ (ctxOf s .a 1).frames = f :: [] ∧
    fits e .retb 4 ∧ 4 = 4 + frameWords (bundleIn e .a 1 prog1 task1 .retb .nop 0) ∧ (ctxOf e .a 1).frames = [] ∧
    fits e .endE 2 ∧ (ctxOf e .a 1).part = .main ∧ bufEntries (ctxOf e .a 1).tob = 1 ∧ bundleCycles e .a 1 task1 .endE 2 = 2 ∧
    (ctxOf e .a 1).cyc + 2 + 1 ≤ task1.shot ∧ (e.lane .a).be.used + 2 + 1 ≤ windowCycles e .a ∧
    fits z .endE 2 ∧ task1.shot < (ctxOf z .a 1).cyc + 2 + 1 ∧ fits s .endE 2 ∧ (ctxOf s .a 1).frames ≠ [] ∧ (ctxOf s .a 1).part = .main ∧
    fits i (.itpl 1 2) (8 + 40 * linesOf 0xA0000008 m) ∧ ((ctxOf i .a 1).a32 1).toNat = 0xA0000008 ∧ (ctxOf i .a 1).part ≠ .main ∧
    (ctxOf i .a 1).frames = [] ∧ 0xA0000008 / 2 ^ 28 = 0xA ∧ 0xA0000008 % 8 = 0 ∧ inRanges task1.ranges (0xA0000008 % 2 ^ 28) m = true ∧
    hitsHeader prog1 (0xA0000008 % 2 ^ 28) m = false ∧ addrOk i 0xA0000008 m = true ∧ fits e (.itpl 1 0) 8 ∧
    ((ctxOf (engine { part := .init, a := [(1, 0x10000000)] }) .a 1).a32 1).toNat / 2 ^ 28 ≠ 0xA ∧
    fits (engine { part := .init, a := [(1, 0x10000000)] }) (.itpl 1 0) (8 + 40 * linesOf 0x10000000 0) := by
  intros
  and_intros <;> first | exact engine_fits _ _ _ (by decide) (by decide) (by decide) | decide

theorem wit_BlockCommits_window :
    let e := (engine { tob := [(0x20000000, 1)] }).updLane .a fun v => { v with be := { v.be with used := 28798 } }
    runningLevel e .a = some 1 ∧ (e.lane .a).be.used + bundleCycles e .a 1 task1 .endE 2 ≤ windowCycles e .a ∧
    windowCycles e .a < (e.lane .a).be.used + bundleCycles e .a 1 task1 .endE 2 + bufEntries (ctxOf e .a 1).tob := by decide

theorem wit_BundleStops :
    let s := engine {}
    let late := engine { cyc := 8000 }
    let u := s.updLane .a fun v => { v with be := { v.be with used := 28800 } }
    let bad := s.updLane .a fun v => { v with be := { v.be with poisonedCode := [0] } }
    runningLevel s .a = some 1 ∧ s.st.prog = some prog1 ∧ s.taskDef 1 = some task1 ∧ (s.lane .a).be.window = true ∧ (s.lane .a).runs = true ∧
    (ctxOf s .a 1).pc ∉ (s.lane .a).be.poisonedCode ∧ (ctxOf bad .a 1).pc ∈ (bad.lane .a).be.poisonedCode ∧
    decodeSlot 0xFF000000 = none ∧ decodeSlot 0x10220000 = some (.alu .add .int 2 0 0 0) ∧ runningLevel up .a = none ∧
    bundleOk (.alu .add .dint 2 0 0 0) (.alu .add .int 2 0 0 0) = false ∧ bundleOk (.alu .add .dint 3 0 0 0) (.alu .add .int 2 0 0 0) = true ∧
    task1.shot - (ctxOf late .a 1).cyc < bundleCycles late .a 1 task1 (.alu .add .dint 3 0 0 0) (aluCycles .add .dint) ∧
    task1.shot - (ctxOf late .a 1).cyc ≤ windowCycles late .a - (late.lane .a).be.used ∧
    windowCycles u .a - (u.lane .a).be.used < bundleCycles u .a 1 task1 (.alu .add .dint 3 0 0 0) (aluCycles .add .dint) ∧
    windowCycles u .a - (u.lane .a).be.used < task1.shot - (ctxOf u .a 1).cyc := by decide

theorem wit_StepOnEmptyQueue :
    let s := engine {}
    let b : State := { s with a := lane1, b := s.a }
    nextBundle State.reset .a = none ∧ nextBundle State.reset .b = none ∧ s.pending = [] ∧ nextBundle s .a = some (some (.beNop .a 0)) ∧
    nextBundle b .a = none ∧ nextBundle b .b = some (some (.beNop .b 0)) ∧ nextBundle (engine { pc := 64 }) .a = some none ∧
    nextBundle { engine { pc := 64 } with a := lane1, b := (engine { pc := 64 }).a } .b = some none := by decide

theorem wit_TaskFaultRows :
    let s := engine {}
    let m (t : Nat) := { up with grid := { mono := t } }.updSt fun x => { x with limits := [((9 * 65536 + 1) * 2 ^ 32 + laneNo .a, ⟨0, 0⟩)] }
    runningLevel s .a = some 1 ∧ s.taskDef 1 = some task1 ∧ (s.lane .a).be.window = true ∧ (up.lane .a).be.window = false ∧
    (s.lane .a).runs = true ∧ runningLevel up .a = none ∧ (up.lane .a).runs = true ∧ State.reset.a.runs = false ∧
    (limitsOf (m 999999999) .a).get? ((9 * 65536 + 1) * 2 ^ 32 + laneNo .a) = some ⟨0, 0⟩ ∧ (m 999999999).grid.mono < 0 + 1000000000 ∧
    0 + 1000000000 ≤ (m 1000000000).grid.mono ∧ (limitsOf up .a).get? ((9 * 65536 + 1) * 2 ^ 32 + laneNo .a) = none := by decide

/-! Invariants -/

theorem wit_AcceptedImagesStayGood : AcceptedGood State.reset ∧ step State.reset = .next State.reset := by
  refine ⟨?_, rfl⟩
  constructor <;> simp [State.reset]

theorem wit_MemoriesStayCanonical : MemoriesGood State.reset ∧ step State.reset = .next State.reset := by
  refine ⟨?_, rfl⟩
  constructor <;> first | (intro l; cases l <;> simp [State.reset, State.lane, Mem.wf]) | simp [State.reset, Mem.wf]

theorem wit_ResetState : ({} : Recorder).next = 0 ∧ ({} : Recorder).seals = [] := by decide

/-! The tick, islands and fields (01, 05, 13, 14) -/

theorem wit_TickRow : ticking State.reset = false ∧ ticking up = true ∧ (up.lane up.timeLane).net.step = none := by decide

/-- A frame of tick `t` with its part of the image. -/
def frameAt (t : Nat) (m : Mem) : IslFrame := ⟨t, none, 0, false, m, [], [], []⟩

theorem wit_SwapRows :
    let s : State := { pair with grid := { tick := 5 } }
    let v (f : Lane → Lane) : State := s.updLane .a f
    let off : State := { s with a := { raw lane1 with clkQual := true } }
    let u := s.updSt fun t => { t with stopAt := some 6 }
    ((v fun x => { x with phase := .parked }).lane .a).phase = .parked ∧ (s.lane .a).phase ≠ .parked ∧ (s.lane .a).runs = true ∧
    (State.reset.lane .a).runs = false ∧ ((v fun x => { x with swapTick := some 5 }).lane .a).swapTick = some s.grid.tick ∧
    (s.lane .a).swapTick ≠ some 5 ∧ (off.lane .a).runs = true ∧ tracks (off.lane .a) = false ∧ tracks (s.lane .a) = true ∧
    u.st.stopAt = some (5 + 1) ∧ u.st.ends.s = none ∧
    ((v fun x => { x with swapTick := some 5, mxTick := some 5 }).lane .a).mxTick = some s.grid.tick ∧ (s.lane .a).mxTick ≠ some 5 ∧
    (s.lane .a).be.window = false ∧ ((v fun x => { x with be := { x.be with window := true } }).lane .a).be.window = true ∧
    ((v fun x => { x with frozenTick := some 5 }).lane .a).frozenTick = some 5 ∧ (s.lane .a).frozenTick ≠ some 5 := by decide

theorem wit_SwapTakesFrame :
    let a (g : Bool) : IslArrived := ⟨frameAt 5 [(0x10000004, 1)], g⟩
    let v (g : Bool) : Lane := { lane1 with arrived := [(0, a g)], img := [(0x10000200, 2)] }
    (v true).arrived.get? 0 = some (a true) ∧ (a true).frame.tick = 5 ∧ (v true).img.wf ∧ (a true).frame.data.wf ∧ (a true).good = true ∧
    (v false).arrived.get? 0 = some (a false) ∧ (a false).good = false ∧ (islRange 0).1 ≤ 0x10000000 ∧
    0x10000000 < (islRange 0).1 + (islRange 0).2 ∧ 0x1000FFFF < (islRange 0).1 + 2 ^ 16 := by decide

theorem wit_IslandRows :
    let p (i : Island) : State := { pair with isl := [(0, i)] }
    let on : Island := { powered := true, frame := some (frameAt 0 []) }
    let s := p on
    let b := { s with a := { s.a with frozenTick := some 0 } }
    let mine : State := { b with isl := [(0, { on with holder := some .a })] }
    let shows (h : Option LaneId) (v : Lane → Lane) : State :=
      { p { on with frame := some { frameAt 0 [] with holder := h } } with a := v pair.a }
    let tok (v : Lane) : Lane := { v with tok := { grant := some ⟨5, .a, 1, 0⟩ } }
    let sk : State := { b with isl := [(6, on)], b := { b.b with frozenTick := some 0 } }
    (State.reset.island 0).powered = false ∧ (s.island 0).powered = true ∧ tokenIslands.contains 0 = true ∧ (s.island 0).latched = none ∧
    (p { on with wdCount := 19 }).islandWd ≤ ((p { on with wdCount := 19 }).island 0).wdCount + 1 ∧ (s.island 0).wdCount + 1 < s.islandWd ∧
    (s.lane .a).runs = true ∧ State.reset.a.runs = false ∧ (State.reset.island 0).frame = none ∧ (s.island 0).frame = some (frameAt 0 []) ∧
    (frameAt 0 []).tick = s.grid.tick ∧ swapDone s .a 0 = false ∧ (s.lane .a).arrived.get? 0 = none ∧
    ((s.updLane .a fun v => { v with arrived := [(0, ⟨frameAt 0 [], true⟩)] }).lane .a).arrived.get? 0 = some ⟨frameAt 0 [], true⟩ ∧
    (sk.island 6).frame = some (frameAt 0 []) ∧ swapDone sk .a 6 = false ∧
    runsRole ((shows (some .b) id).lane .a).role = true ∧ endsPassing (shows (some .b) id) = false ∧
    (s.lane .a).tok.grant = none ∧ ((shows none tok).lane .a).tok.grant = some ⟨5, .a, 1, 0⟩ ∧ 0 ∉ ((shows none tok).lane .a).tok.missing ∧
    ((shows (some .a) tok).island 0).frame = some { frameAt 0 [] with holder := some .a } ∧
    ((shows none fun v => { v with tok := { grant := some ⟨5, .a, 1, 1⟩ } }).lane .a).tok.grant = some ⟨5, .a, 1, 1⟩ ∧ (frameAt 0 []).tick < 1 ∧
    sendsOutput b .a = true ∧ 0 ≠ skIsl ∧ (b.island 0).holder ≠ some .a ∧ (mine.island 0).holder = some .a ∧ sendsOutput mine .a = true ∧
    (mine.lane .a).frozenTick = some mine.grid.tick ∧ (s.lane .a).frozenTick ≠ some s.grid.tick ∧ sendsOutput State.reset .a = false ∧
    (sk.island 6).powered = true ∧ sendsOutput sk .a = true ∧ runsRole (sk.lane .a).role = true ∧ sendsOutput sk .b = true ∧
    runsRole (sk.lane .b).role = false := by
  intros; and_intros <;> decide

theorem wit_SupplyRows :
    let d (n : Nat) : State := { up with isl := [(0, { powered := true, dio := { low := n } })] }
    bit ((d 4).island (dioNo false)).dio.low 2 = true ∧ bit ((d 0).island (dioNo false)).dio.low 2 = false ∧
    (up.island mxIsl).mx.low = false ∧ ({ up with isl := [(mxIsl, { mx := { low := true } })] }.island mxIsl).mx.low = true ∧
    up.sk.supplyLow = false ∧ up.sk.powered = false ∧ ({ up with sk := { powered := true } } : State).sk.powered = true ∧
    ({ up with sk := { supplyLow := true } } : State).sk.supplyLow = true := by decide

theorem wit_FieldRows :
    let r := rec_ 0x0501 0 [(8, 3), (9, 4)]
    let s (x : DioCh) : State := { withCfg up [r] with isl := [(0, { powered := true, dio := { ch := [(0, x)] } })] }
    let t : State := { up with isl := [(0, { dio := { trip := 4 } })] }
    dioMode (s { on := true }) (dioNo false) 0 = 3 ∧ (dioCh (s { on := true }) 0 0).on = true ∧ (dioCh (s {}) 0 0).on = false ∧
    dioRec (s {}) 0 0 = some r ∧ r.u 8 1 = 3 ∧ bit (r.u 9 1) 2 = true ∧ (dioCh (s { overl := true }) 0 0).overl = true ∧
    3 ≤ (dioCh (s { overl := true, retries := 3 }) 0 0).retries ∧ (dioCh (s { overl := true, retries := 2 }) 0 0).retries < 3 ∧
    bit (t.island 0).dio.trip 2 = true ∧ bit (up.island 0).dio.trip 2 = false ∧
    (aiCh { up with isl := [(2, { ai := { ch := [(0, { off := true })] } })] } 2 0).off = true ∧ (aiCh up 2 0).off = false := by decide

/-- A sentence with its checksum: $GPA*56. -/
def sentence : List Byte := [0x24, 0x47, 0x50, 0x41, 0x2A, 0x35, 0x36]

theorem wit_MxRows :
    let r := rec_ 0x0701 0 [(8, 1), (9, 1)]
    let inv := rec_ 0x0701 0 [(8, 1), (9, 3)]
    let ssi := rec_ 0x0701 0 [(8, 2), (0x0A, 24), (0x0B, 24), (0x0F, 0xFF)]
    let q := rec_ 0x0710 0 []
    let s := withCfg up [r, q]
    let m (y : Rs422) : State := { s with isl := [(mxIsl, { powered := true, holder := some .a, accNow := true, mx := { rs := [(0, y)] } })] }
    encRec up 0 = none ∧ encRec s 0 = some r ∧ r.u 8 1 = 1 ∧
    (∀ d < 4, ∃ a b, (quadPos a b + 4 - quadPos (encOf s 0).a (encOf s 0).b) % 4 = d) ∧
    bit (r.u 9 1) 1 = false ∧ bit (inv.u 9 1) 1 = true ∧ encRec (withCfg up [inv]) 0 = some inv ∧ inv.u 8 1 = 1 ∧ bit (r.u 9 1) 0 = true ∧
    encRec (withCfg up [ssi]) 0 = some ssi ∧ ssi.u 8 1 = 2 ∧ rsRec up 0 = none ∧ rsRec s 0 = some q ∧
    ((chop sentence).length ≤ 80 ∧ nmeaOk (chop sentence) (bit (q.u 9 1) 0) = true) ∧
    ¬((chop (sentence.drop 1)).length ≤ 80 ∧ nmeaOk (chop (sentence.drop 1)) (bit (q.u 9 1) 0) = true) ∧ (rsOf s 0).sending = none ∧
    (rsOf (m { sending := some sentence }) 0).sending ≠ none ∧ (rsOf (m { sending := some sentence }) 0).waiting = none ∧
    (rsOf (m { sending := some sentence, waiting := some [0x24] }) 0).waiting = some [0x24] ∧
    (rsOf (m { sending := some sentence, waiting := some [0x24] }) 0).sending ≠ none ∧ ((m {}).island mxIsl).driven = true ∧ (s.island mxIsl).driven = false := by decide

/-! CAN (12) -/

theorem wit_CanRows :
    let r := rec_ 0x0401 0 [(9, 1), (0x0A, 4), (0x28, 8)]
    let fil (v : Byte) := rec_ 0x0402 0 [(8, 1), (12, 1), (13, v), (16, 5), (20, 6)]
    let f : CanFrame := { ident := 5, dlc := 0, data := [] }
    let any : CanFrame := { ident := 7, dlc := 0, data := [] }
    let st (n : Nat) (m : CanPort → CanPort := id) : State := { withCfg pair [r] with a := { pair.a with can := [(0, m { pstate := n, ctrl := 1 })] } }
    let ask (n q : Nat) : State := { withCfg pair [r] with
      a := { pair.a with can := [(0, { pstate := n })], frozen := Mem.write (Mem.write [] (canCtlBase 0) 1) (canCtlBase 0 + 1) (BitVec.ofNat 8 q) } }
    let c (s : State) := canPort s .a 0
    let fields (s : State) := canFields s .a 0
    let noSleep := rec_ 0x0401 0 []
    let fd := rec_ 0x0401 0 [(8, 1)]
    let wakeAny := rec_ 0x0401 0 [(0x0A, 8), (0x28, 8)]
    let scRec := rec_ 0x0401 8 []
    let sc (p : CanPort) : State := { withCfg pair [scRec] with isl := [(mxIsl, { powered := true, mx := { sc := [(8, p)] } })] }
    canRec pair 0 = none ∧ canRec (st 2) 0 = some r ∧ (c (st 2)).pstate ≠ 0 ∧ (c (st 2)).pstate ≠ 4 ∧ (c (st 2)).rc = 0 ∧
    tracks ((st 2).lane .a) = true ∧ (c (st 4)).pstate = 4 ∧ r.u 8 1 = 0 ∧ fd.u 8 1 ≠ 0 ∧ ({ f with fdf := true } : CanFrame).fdf = true ∧ f.fdf = false ∧
    canFilter (withCfg (st 2) [r, fil 2]) 0 f = some (2, 0) ∧ canFilter (withCfg (st 2) [r, fil 1]) 0 f = some (1, 0) ∧
    (canFilter (withCfg (st 2) [r, fil 3]) 0 f).isSome = true ∧
    canFilter (withCfg (st 2) [r, fil 1]) 0 any = none ∧ r.u 9 1 ≠ 0 ∧ wakeAny.u 9 1 = 0 ∧ 127 < (c (st 2 fun x => { x with rc := 128 })).rc ∧
    (c (ask 2 0)).ctrl ≠ (fields (ask 2 0)).rdU (canCtlBase 0) 1 ∧ (c (withCfg pair [r])).ctrl = (fields pair).rdU (canCtlBase 0) 1 ∧
    (fields (ask 2 1)).rdU (canCtlBase 0 + 1) 1 = 1 ∧ (c (ask 2 1)).ctrl ≠ (fields (ask 2 1)).rdU (canCtlBase 0) 1 ∧
    bit (r.u 0x0A 1) 2 = true ∧ (c (ask 2 1)).quality = true ∧ bit (noSleep.u 0x0A 1) 2 = false ∧
    (fields (ask 4 2)).rdU (canCtlBase 0 + 1) 1 = 2 ∧ (c (ask 4 2)).pstate = 4 ∧ (c (ask 2 2)).pstate ≠ 4 ∧
    (fields (ask 3 3)).rdU (canCtlBase 0 + 1) 1 = 3 ∧ (c (ask 3 3)).pstate = 3 ∧ (c (ask 3 3)).recovering = false ∧ (c (ask 2 3)).pstate ≠ 3 ∧
    bit (r.u 0x0A 1) 3 = false ∧ bit (wakeAny.u 0x0A 1) 3 = true ∧ wakeFrame wakeAny f = false ∧ isSc 0 = false ∧
    (c (st 2)).tec + 8 ≤ 255 ∧ 255 < (c (st 2 fun x => { x with tec := 248 })).tec + 8 ∧ (c (st 2 fun x => { x with tec := 247 })).tec + 8 ≤ 255 ∧
    (c (st 5)).pstate = 5 ∧ (c (st 0)).pstate = 0 ∧ (c (st 4)).finishing = false ∧
    (c (st 3 fun x => { x with recovering := true })).recovering = true ∧ (c (st 2)).recovering = false ∧ (c (st 2)).fifo = [] ∧
    (c (st 2 fun x => { x with fifo := [⟨0, f⟩] })).fifo = ⟨0, f⟩ :: [] ∧ (canPort (st 2) .b 0).pstate ≠ 1 ∧
    (canPort ({ st 2 with b := { pair.b with can := [(0, { pstate := 1 })] } }) .b 0).pstate = 1 ∧ (c (st 1)).pstate = 1 ∧
    tracks ((st 1).lane .a) = true ∧
    canRec (sc { pstate := 5 }) 8 = some scRec ∧ (canPort (sc { pstate := 5 }) .a 8).pstate = 5 ∧ scRec.u 0x0B 1 = 0 ∧ isSc 8 = true ∧
    (canPort (sc { pstate := 2, tec := 120 }) .a 8).pstate = 2 ∧ (canPort (sc { pstate := 2, tec := 120 }) .a 8).ec = 0 ∧
    128 ≤ (canPort (sc { pstate := 2, tec := 120 }) .a 8).tec + 8 ∧
    (canPort (sc { pstate := 5 }) .a 8).quiet = false ∧ (canPort (sc { pstate := 5, quiet := true }) .a 8).quiet = true := by
  intros; and_intros <;> decide

/-! Loops and chains (08, 09) -/

theorem wit_DeadlineRows :
    let r := rec_ 0x0801 0 [(0x88, 1)]
    let k := rec_ 0x0901 0 [(8, 1), (0x20, 1)]
    let fresh : ChainSt := { samples := [(0, 0)], lastTime := some 0 }
    let s (x : LoopSt) (y : ChainSt) : State := (withCfg { up with a := { lane1 with
      be := { window := true }, loops := [(0, x)], chains := [(0, y)] } } [r, k]).updSt fun t => { t with engaged := true }
    let is (y : ChainSt) := (chainOf ((chainPass (s {} y) .a k).lane .a) 0).st
    up.cfgRec 0x0801 0 = none ∧ up.cfgRec 0x0901 0 = none ∧ (s {} {}).cfgRec 0x0801 0 = some r ∧
    engineReady (s {} {}) .a (loopMx (s {} {}) r) = true ∧ (s {} {}).st.engaged = true ∧ engineReady up .a (loopMx up r) = false ∧
    lpChain r = false ∧ (loopOf ((s {} {}).lane .a) 0).st ≠ .tripped ∧ (s {} {}).cfgRec 0x0901 0 = some k ∧
    engineReady (s {} {}) .a (chainMx k) = true ∧
    (is { st := .run } = .hold) ∧ bit (chainOf ((chainPass (s {} { st := .run }) .a k).lane .a) 0).cstat 3 = true ∧
    (chainOf ((chainPass (s {} { st := .run }) .a k).lane .a) 0).sat = false ∧ is { st := .hold } = .fadeOut ∧
    is { fresh with st := .hold } ≠ .fadeOut ∧ is { st := .fadeOut, k := some 0 } = .zero ∧ is { fresh with st := .fadeIn, k := some 0 } = .run ∧
    is { fresh with st := .settle } = .fadeIn ∧ is { st := .settle } ≠ .fadeIn := by
  intros; and_intros <;> decide

/-! Plant network and station time (11) -/

theorem wit_NetworkRows :
    let r := rec_ 0x0310 0 [(8, 1), (0x0C, 1), (0x0D, 0), (0x14, 4), (0x16, 9), (0x24, 2)]
    let bc := rec_ 0x0310 1 [(8, 1), (9, 2), (0x0C, 1)]
    let tx := rec_ 0x0310 2 []
    let net := rec_ 0x0301 0 [(0x0A, 2), (0x0C, 1), (0x18, 200)]
    let f : FlowFrame := ⟨9, 4, 7, 0, 0, 0, 0, [1, 2], none, 0⟩
    let d : FlowDesc := ⟨1000, 0, 1000, 0, 0, [], false⟩
    let s (n : Net) : State := withCfg { up with a := { lane1 with net := n } } [r, bc, tx, net, rec_ 0x0101 0 [(8, 50)]]
    let bare (n : Net) : State := { up with a := { lane1 with net := n } }
    let fl (c : FlowCtx) := s { flows := [(0, c)] }
    let out (d : FlowDesc) := s { flows := [(2, { descs := [d, { d with time := 2000, target := 2000 }] })] }
    let w : Tagged := { etherType := 0 }
    let off : State := { s {} with a := { (s {}).a with role := .offline } }
    let g : Datagram450 := ⟨List.replicate 6 0, 0, true⟩
    let group (x : State) (g : Datagram450) :=
      (flowRecs x 1).filter fun r => r.u 9 1 == 2 && (r.bytes.drop 0x18).take 6 == g.mac && r.u 0x14 2 == g.port
    let find (x : State) (w : Tagged) := (flowRecs x 1).find? fun r =>
      r.u 9 1 != 2 && r.u 0x16 2 == f.station && r.u 0x14 2 == f.flowId && r.u 0x24 2 == f.payload.length && r.u 0x1E 2 == w.vlan
    let dup := s { prp := [(0, 3, 0)] }
    let old (x : State) : Prop := ∃ q, (flowOf (x.lane .a) 0).lastSeq = some q ∧ diff32 f.seq q ≤ 0
    let k (x : State) := if (flowOf (x.lane .a) 0).win = x.grid.tick / r.u 0x0C 2 then (flowOf (x.lane .a) 0).winCount else 0
    let two := { bare { bootIp := 5 } with b := { lane1 with net := { bootUp := true, bootIp := 5 } } }
    ((s {}).lane .a).onNet = true ∧ ((s {}).lane .a).feed = true ∧ ((s {}).lane .a).runs = true ∧ ((s {}).lane .a).role ≠ .offline ∧
    (State.reset.lane .a).feed = false ∧ (off.lane .a).feed = true ∧ (off.lane .a).runs = true ∧ (off.lane .a).role = .offline ∧
    w.fcs = true ∧ { w with fcs := false }.fcs = false ∧ netRec (s {}) = some net ∧ net.u 8 2 = w.etherType ∧
    net.u 8 2 ≠ { w with etherType := 1 }.etherType ∧ (plantIn off .a ⟨false, f.src, f.prp, true⟩).1 = true ∧ find off w = some r ∧
    find (s {}) { w with vlan := 1 } = none ∧
    (prpPass (countPort dup .a false 0) .a f.src 3).1 = false ∧ (plantIn (s {}) .a ⟨false, f.src, f.prp, true⟩).1 = true ∧
    find (s {}) w = some r ∧ find up w = none ∧
    old (fl { lastSeq := some 7 }) ∧ ¬old (fl { winCount := 2 }) ∧ 2 ≤ k (fl { winCount := 2 }) ∧ k (fl {}) < 2 ∧
    (flowRecs (s {}) 1).find? (fun r => r.inst == 0 && r.u 9 1 != 2) = some r ∧ (flowRecs up 1).find? (fun r => r.inst == 0 && r.u 9 1 != 2) = none ∧
    (flowOf ((fl { rstate := 0 }).lane .a) 0).rstate ≠ 2 ∧ (flowOf ((flowSwap { fl { rstate := 1, misses := 9 } with grid := { tick := 1 } } .a r).lane .a) 0).rstate = 2 ∧
    (flowOf ((flowSwap (fl { rstate := 2 }) .a r).lane .a) 0).rstate = 2 ∧
    (plantIn (s {}) .a {}).1 = true ∧ (plantIn dup .a ⟨false, 0, some 3, true⟩).1 = false ∧
    group (s {}) g = [bc] ∧ group (s {}) { g with port := 1 } = [] ∧ group off g ≠ [] ∧ { g with udpbc := false }.udpbc = false ∧ nmeaOk (chop (skipTag [0x41])) true = false ∧
    (flowOf ((s {}).lane .a) 2).descs = [] ∧ (flowRecs (s {}) 0).find? (fun r => r.inst == 2) = some tx ∧
    (flowOf ((out d).lane .a) 2).descs = d :: [{ d with time := 2000, target := 2000 }] ∧ runsRole ((out d).lane .a).role = true ∧
    queueHead (out d) .a (tx.u 0x0E 1) = some 2 ∧ queueHead (s {}) .a (tx.u 0x0E 1) ≠ some 2 ∧
    (horizon (out d) : Int) < -diff32 0x40000000 0x7FFFFFFF ∧ -diff32 900 1000 ≤ (horizon (out d) : Int) ∧
    ({ d with held := true }.held = true ∧ -40 ≤ diff32 960 1000 ∧ diff32 960 1000 ≤ 40) ∧
    (0 ≤ diff32 1000 1000 ∧ ¬(d.held = true ∧ diff32 1000 1000 ≤ 40)) ∧ (diff32 900 1000 < 0 ∧ ¬(d.held = true ∧ -40 ≤ diff32 900 1000)) ∧
    ((s {}).lane .a).present = true ∧ (State.reset.lane .a).present = false ∧
    ((s {}).lane .a).net.upB = false ∧ ((s { upA := true }).lane .a).net.upA = true ∧ (netRec (s {})).isSome = true ∧ netRec up = none ∧
    bit ((s { nodes := [(7, 2)] }).a.net.nodes.get 7 0) (portNo true) = true ∧ bit ((s {}).a.net.nodes.get 7 0) (portNo true) = false ∧
    ((bare {}).lane .a).phase = .running ∧ netRec (bare {}) = none ∧ ((bare {}).lane .a).net.bootUp = false ∧ ((bare {}).lane .a).net.bootIp = 0 ∧
    ((bare { bootUp := true }).lane .a).net.bootUp = true ∧ ((bare { bootIp := 5 }).lane .a).net.bootIp ≠ 0 ∧
    ¬((false : Bool) = true ∨ (((bare { bootIp := 5 }).lane .b).net.bootUp = true ∧ ((bare { bootIp := 5 }).lane .b).net.bootIp = 5)) ∧
    ((two.lane .b).net.bootUp = true ∧ (two.lane .b).net.bootIp = (two.lane .a).net.bootIp) ∧
    (admitRate (plantIn (s {}) .a {}).2 .a (40 + portNo false) 100).1 = true ∧
    (admitRate (plantIn (s { rate := [(40, (0, 100))] }) .a {}).2 .a (40 + portNo false) 100).1 = false ∧
    (netRec (s {})).elim false (fun r => bit (r.u 0x0A 2) 1) = true ∧ (netRec up).elim false (fun r => bit (r.u 0x0A 2) 1) = false ∧
    ownsIp (s {}) .a 1 = true ∧ ownsIp (s {}) .a 2 = false ∧
    (netRec (bare { bootIp := 5 }) = none ∧ ((bare { bootIp := 5 }).lane .a).net.bootIp = (5 : Word).toNat) := by
  intros; and_intros <;> decide

theorem wit_TimeRows :
    let r := rec_ 0x0302 0 [(8, 24), (0x0C, 100)]
    let p := rec_ 0x0302 0 [(8, 24), (9, 1), (0x0C, 100)]
    let s (n : Net) : State := withCfg { up with a := { lane1 with net := n } } [r]
    let m : Announce := ⟨1, 6, 0, 0, 1, 77, 0, 24⟩
    let admits (x : State) (typ : Nat) := (admitRate (countPort (countPort x .a false 0) .a false 7) .a (2 * typ + portNo false) 64).1
    let v (n : Net) := ((s n).lane .a).net
    let est (n : Net) := (((v n).port (v n).useB).offset).getD 0
    ((s {}).lane .a).runs = true ∧ ((s {}).lane .a).clkQual = true ∧ (State.reset.lane .a).clkQual = false ∧ timeRec (s {}) = some r ∧
    timeRec up = none ∧ (false = ptpUdp r) ∧ (true ≠ ptpUdp r) ∧
    (∀ typ < 6, admits (s {}) typ = true) ∧ (∀ typ < 6, admits (s { rate := [(2 * typ, (0, 64))] }) typ = false) ∧
    { m with domain := 0 }.domain ≠ r.u 8 1 ∧ m.domain = r.u 8 1 ∧ bestMaster [m] = some m ∧ peerDelay r = false ∧ peerDelay p = true ∧
    (v {}).gm ≠ some 77 ∧ (v { gm := some 77 }).gm = some 77 ∧ ((v {}).port false).delay = none ∧
    ((v { portA := { delay := some 4 } }).port false).delay ≠ none ∧
    ((5 : Int) - est { time := .locked }).natAbs ≤ 1000000000 ∧
    ¬((((2000000000 : Int) - est { time := .locked }).natAbs ≤ 1000000000) ∨ (v { time := .locked }).time = .free ∨ (v { time := .locked }).time = .locking) ∧
    (v {}).useB = false ∧ (v {}).time = .free ∧ (v { time := .holdover }).time = .holdover ∧
    (v { time := .locking }).time = .locking ∧ (100 : Int).natAbs ≤ r.u 0x0C 4 ∧ r.u 0x0C 4 < (101 : Int).natAbs ∧ 15 ≤ (v { goodRun := 15 }).goodRun ∧
    (v { time := .locked }).time = .locked ∧ 4 * r.u 0x0C 4 < (401 : Int).natAbs ∧ 3 ≤ (v { badRun := 3 }).badRun ∧
    (v { time := .locking, lockedBefore := true }).lockedBefore = true ∧ (v { time := .locking }).lockedBefore = false ∧
    (v {}).time ≠ .holdover ∧ (s { time := .locked }).activeLane = some .a ∧ (v {}).time ≠ .locked ∧ State.reset.activeLane = none := by
  intros; and_intros <;> decide

/-! Recorder, supplies, calendar, panel (17, 18) -/

theorem wit_RecorderRows :
    let r : RawRec := ⟨1, 1, 0, 0, [], false, 0, none, false⟩
    let s (v : Recorder) (mono : Nat := 0) : State := { up with grid := { mono := mono }, svc := { up := true, rcd := v } }
    let run (v : Recorder) := (s v 10000000000).updSt fun t => { t with prog := some prog0 }
    let w : BankWrite := ⟨0, {}, .a⟩
    let pf (n : Nat) := (s { writing := some w }).updSt fun t => { t with pfStep := n }
    let clr := cmd up false [0x51]
    let calm (x : State) := ∀ k ∈ [LaneId.a, .b], (x.lane k).staging.active = false ∧ (x.lane k).staging.recs = []
    let stg : State := { up with a := { lane1 with staging := { active := true } } }
    let due (x : State) := x.activeLane = some .a ∧ x.st.phase = .running ∧ x.svc.rcd.periodFrom + retainPeriod x ≤ x.grid.mono
    up.svc.rcd.queue = [] ∧ (s { queue := [r] }).svc.rcd.queue = r :: [] ∧ (s {}).svc.up = true ∧ State.reset.svc.up = false ∧
    calm (s { queue := [r] }) ∧ { r with staged := true }.staged = true ∧ r.staged = false ∧
    (s {}).svc.rcd.optime % 960 = 0 ∧ (s { optime := 959 }).svc.rcd.optime % 960 ≠ 0 ∧ (s { optime := 960 }).svc.rcd.optime % 960 = 0 ∧
    ((s {}).a.feed = true ∨ (s {}).b.feed = true) ∧ ¬(State.reset.svc.up = true ∧ (State.reset.a.feed = true ∨ State.reset.b.feed = true)) ∧
    (stg.lane .a).staging.active = true ∧
    State.reset.activeLane = none ∧ due (run {}) ∧ ¬due { run {} with grid := { mono := 9999999999 } } ∧
    ({ run {} with grid := { mono := 9999999999 } } : State).activeLane = some .a ∧
    (run {}).st.prog ≠ none ∧ (run {}).svc.up = true ∧ (run {}).svc.rcd.writing = none ∧ (s {} 10000000000).st.prog = none ∧ due (s {} 10000000000) ∧
    (run { writing := some w }).svc.rcd.writing ≠ none ∧ due (run { writing := some w }) ∧
    due { run {} with svc := {} } ∧ ({ run {} with svc := {} } : State).svc.up = false ∧
    (pf 0).svc.rcd.writing = some w ∧ (pf 0).svc.rcd.waiting = none ∧ (pf 0).st.pfStep ≠ 3 ∧ (pf 3).svc.rcd.writing = some w ∧
    (pf 3).svc.rcd.waiting = none ∧ (pf 3).st.pfStep = 3 ∧ (up.lane .a).phase = .running ∧
    calm State.reset ∧ State.reset.svc.rcd.skipped = none ∧ Served clr 0 false .normal 0x0051 [0x51] ∧
    (clr.part 0).session = false ∧ ((withPart clr fun q => { q with session := true }).part 0).session = true ∧
    ({ clr with svc := {} } : State).svc.up = false := by
  simp only [served_iff]; intros; and_intros <;> decide

/-- The bucket of a (source, code) pair that no record has met yet holds its burst (R464). -/
theorem wit_RecorderBucket : bucketJudge [] (1, 0) 0 ⟨1, 1, 0, 0, [], false, 0, none, false⟩ =
    (true, 0, [(pairKey 1 1, ⟨0, 0, 0, 0⟩)]) ∧
    (bucketJudge [(pairKey 1 1, ⟨0, 0, 0, 0⟩)] (1, 0) 0 ⟨1, 1, 0, 0, [], false, 0, none, false⟩).1 = false := by decide

theorem wit_FeedRows :
    let s (f : Supply) (c : Option Cart) : State := { up with svc := { up := true, sup := f, cart := c } }
    let c : Cart := { id := ⟨true, 2400, 60, 1, 1, 0, [], 0⟩, mv := 14000 }
    let m : Cart := { c with measuring := true }
    let step (n : Nat) (x : State) : State := x.updSt fun t => { t with pfStep := n }
    let halt (x : State) : State := x.updSt fun t => { t with phase := .stopped }
    let h : Supply := { holdup := true }
    let carries (x : State) : Prop := ∃ k, (x.lane k).phase = .running ∨ (x.lane k).phase = .starting
    let meas (x : State) := x.svc.cart.elim false Cart.measuring
    carries (s {} none) ∧ ¬carries { s {} none with a := { lane1 with phase := .dark }, b := {} } ∧
    feedOf (s {} none).svc.sup .a = false ∧ feedOf (s { feedA := true, feedB := true } none).svc.sup .a = true ∧
    feedOf (s { feedA := true, feedB := true } none).svc.sup (other .a) = true ∧ feedOf (s { feedA := true } none).svc.sup (other .a) = false ∧
    meas (s { feedA := true } (some c)) = false ∧ meas (s { feedA := true } (some m)) = true ∧
    (s {} none).st.pfStep ≠ 1 ∧ (s {} none).st.pfStep ≠ 5 ∧ (step 1 (s h (some c))).st.pfStep = 1 ∧ (step 5 (s h (some c))).st.pfStep = 5 ∧
    feedGone false 17999 = true ∧ feedGone false 18000 = false ∧ feedGone true 15999 = true ∧ feedGone true 16000 = false ∧
    (s {} none).svc.sup.holdup = false ∧ (s {} none).a.feed = true ∧ (s {} none).svc.cart = none ∧
    (s {} (some c)).svc.cart = some c ∧ c.measuring = false ∧ (s {} (some c)).st.pfStep = 0 ∧ (step 2 (s {} (some c))).st.pfStep ≠ 0 ∧
    (s {} (some c)).st.phase = .running ∧ (halt (s {} (some c))).st.phase ≠ .running ∧
    (s h none).svc.sup.holdup = true ∧ (step 1 (s h (some c))).st.phase = .running ∧ (step 1 (halt (s h (some c)))).st.phase ≠ .running ∧
    (s h none).svc.sup.feedA = false ∧ (s h none).svc.sup.feedB = false ∧ 2 ≤ (step 2 (s h (some c))).st.pfStep ∧
    (s h (some c)).st.pfStep < 2 ∧ State.reset.a.feed = false ∧ State.reset.b.feed = false := by
  refine ⟨⟨.a, Or.inl rfl⟩, ?_, ?_⟩
  · rintro ⟨k, h⟩; cases k <;> revert h <;> decide
  · decide

theorem wit_CartridgeRows :
    let c : Cart := { id := ⟨true, 2400, 60, 1, 1, 0, [], 0⟩, mv := 14000 }
    let s (f : Supply) (c : Option Cart) : State := { up with svc := { up := true, sup := f, cart := c } }
    let both : Supply := { feedA := true, feedB := true }
    let adm := locked (s both (some c))
    (s both none).svc.cart = none ∧ (s both (some c)).svc.cart ≠ none ∧ (s both none).svc.up = true ∧ State.reset.svc.up = false ∧
    (s both (some c)).svc.sup.feedA = true ∧ (s both (some c)).svc.sup.feedB = true ∧
    (s {} (some c)).svc.sup.feedA = false ∧ (s {} (some c)).svc.sup.feedB = false ∧ (s {} (some c)).svc.sup.holdup = false ∧
    (s { holdup := true } (some c)).svc.sup.holdup = true ∧ (s { both with holdup := true } (some c)).svc.sup.holdup = true ∧
    (s both (some c)).svc.rcd.waiting = none ∧ (s both (some c)).svc.cart = some c ∧ c.measuring = false ∧
    13000 ≤ { c with mv := 13000 }.mv ∧ { c with mv := 12999 }.mv < 13000 ∧ adm.roleOf 0 = 3 ∧ bit (1 : Word).toNat 0 = true ∧
    (s both none).roleOf 0 ≠ 3 ∧ bit (0 : Word).toNat 0 = false ∧ { c with measuring := true }.measuring = true ∧
    (s both none).svc.cart.elim false Cart.measuring = false := by decide

theorem wit_RtcRows :
    let s (x : Slow) : State := withPart up fun q => { q with slow := x }
    let t (x : RtcPort) : State := withPart (locked up) fun q => { q with rtc := x }
    let d (x : State) : State := withPart x fun q => { q with att := .detached }
    let m : Rtc := { alm1Time := 0x80808080, alm1Date := 0x00808080 }
    let f (on : Bool) : State := { up with svc := { up := on, sup := { feedB := true } } }
    let reads (s : State) (a : Nat) : Prop :=
      ((s.part 0).slow.access = some none ∧ (s.part 0).slow.addr = a) ∨ (winLive s 0 = true ∧ (s.part 0).slow.access = none)
    let busy (s : State) (a : Nat) : Prop :=
      (s.part 0).slow.access ≠ none ∧ ¬((s.part 0).slow.access = some none ∧ (s.part 0).slow.addr = a)
    let cold : State := { s { access := some (some 1) } with a := { up.a with winUp := false } }
    rtcSupplied (f true) = true ∧ (f true).svc.up = true ∧ (f true).st.power.ps ≠ .dark ∧ rtcSupplied (f false) = true ∧
    (f false).svc.up = false ∧ rtcSupplied State.reset = false ∧
    up.svc.rtc.sec < 59 ∧ alarmMatches (nextSecond m) m.alm1Time m.alm1Date = true ∧
    reads (s { access := some none, addr := 4 }) 4 ∧ reads (s {}) 8 ∧ reads (t { frozen := true }) 4 ∧ reads (t {}) 0x0C ∧
    winLive (s {}) 0 = true ∧ busy (s { access := some (some 1), addr := 4 }) 4 ∧ busy (s { access := some none, addr := 8 }) 4 ∧
    winLive cold 0 = false ∧ ¬reads cold 4 ∧
    ((t { frozen := true }).part 0).rtc.frozen = true ∧ ((t {}).part 0).rtc.frozen = false ∧ State.reset.roleOf 0 < 2 ∧ 2 ≤ (t {}).roleOf 0 ∧
    bit (1 : Word).toNat 0 = true ∧ pairOk (12 * 65536) (2024 * 65536 + 2 * 256 + 29) = true ∧ pairOk (12 * 65536) (2023 * 65536 + 2 * 256 + 29) = false ∧
    bit (0 : Word).toNat 0 = false ∧ alarmOk false 0x80808080 = true ∧ alarmOk true 0x00818181 = true ∧ alarmOk false 0x80180000 = false ∧
    signed 13 (fld 3355 0 13) = 3355 ∧ signed 13 (fld 3356 0 13) = 3356 := by
  intros; and_intros <;> decide

theorem wit_PanelRows :
    let s (v : Panel) (n : Nat := 0) : State := { locked up with svc := { up := true, pnl := v, rcd := { optime := n } } }
    let r := rec_ 0x0C01 0 ((0x0C, 0) :: (List.range 6).map fun i => (0x0D + i, 8))
    let own (p : PnlPort) : State := withPart (withCfg (s {}) [r]) fun q => { q with pnl := p }
    let x : PanelPass := ⟨1, [(3, [1])]⟩
    let dark (r : CfgRec) := (withCfg up [r]).updSt fun t => { t with power := { t.power with ps := .dark } }
    let clr : State := { own { page := 1 } with svc := { up := true, pnl := { cleared := true } } }
    (s {}).svc.pnl.pass = none ∧ (s { pass := some x }).svc.pnl.pass = some x ∧ x.lines ≠ [] ∧ pageOwner (own {}) x.page = some 0 ∧
    pageOwner (s {}) x.page ≠ some 0 ∧ (s {}).svc.up = true ∧ (s {}).svc.pnl.cleared = false ∧
    clr.svc.pnl.cleared = true ∧ (s {}).svc.pnl.nextBand = (s {}).svc.pnl.band ∧ differing (s {}).svc.pnl 0 = [] ∧
    (s { stationAt := some 0 } 15).svc.pnl.stationAt = some 0 ∧ (s {} 15).svc.rcd.optime < 0 + 16 ∧
    0 + 16 ≤ (s { stationAt := some 0 } 16).svc.rcd.optime ∧
    State.reset.svc.up = false ∧ (s {}).svc.pnl.lastDiff + 32 ≤ (s {} 32).svc.rcd.optime ∧
    (s {}).svc.rcd.optime < (s {}).svc.pnl.lastDiff + 32 ∧ (dark power0).st.power.ps = .dark ∧ (dark power0).st.power.entering ≠ some .dark ∧
    ((dark power0).updSt fun t => { t with power := { entering := some .dark } }).st.power.entering = some .dark ∧ wakeEnabled (dark power0) .key = true ∧
    wakeEnabled (dark (rec_ 0x0B02 0 [])) .key = false ∧ up.st.power.ps ≠ .dark ∧
    2 ≤ (s {}).roleOf 0 ∧ pageAssigned (s {}) 0 = true ∧ pageAssigned (own {}) 2 = false ∧ State.reset.roleOf 0 < 2 ∧
    pageOwner (own {}) 1 = some 0 ∧ fld 239 0 8 < 240 ∧ 240 ≤ fld 240 0 8 ∧ pageOwner (own {}) 2 ≠ some 0 ∧
    pageOwner (own { page := 1 }) ((own { page := 1 }).part 0).pnl.page = some 0 ∧
    ((own { page := 1 }).part 0).pnl.line < 240 ∧ ((own { page := 1 }).part 0).pnl.index < 24 ∧ 24 ≤ ((own { page := 1, index := 24 }).part 0).pnl.index ∧
    pageOwner (own {}) ((own {}).part 0).pnl.page ≠ some 0 ∧ 240 ≤ ((own { page := 1, line := 240 }).part 0).pnl.line ∧
    (s { staged := [(lineKey 1 5, [1])] }).svc.pnl.staged = [(lineKey 1 5, [1])] ∧ lineKey 1 0 ≤ lineKey 1 5 ∧ lineKey 1 5 ≤ lineKey 1 239 := by
  intros; and_intros <;> decide

theorem wit_PanelDiffers : differing ({ current := [(lineKey 0 3, List.replicate 25 1)] } : Panel) 0 ≠ [] := by
  intro h
  have : (3, lineWanted ({ current := [(lineKey 0 3, List.replicate 25 1)] } : Panel) 0 3) ∈
      differing ({ current := [(lineKey 0 3, List.replicate 25 1)] } : Panel) 0 := by
    simp only [differing, List.mem_filter, List.mem_map, List.mem_range]
    exact ⟨⟨3, by decide, rfl⟩, by decide⟩
  rw [h] at this
  exact absurd this (by simp)

/-! Safety (15, 16) -/

/-- A safety image: wrapper (cycle 1000 µs, tick 50 µs), an input pair with sources 0 and 1, an output pair of two channels, a program
of each processor, and a connection that SK-1 consumes. -/
def safetyBody (conn : Bool) : List Byte :=
  image 48 [(0, 1), (1, 0x0A), (2, 1), (4, 48), (8, 0xE8), (9, 3), (0x0A, 50), (0x0C, 6), (0x0F, 3)] ++
  image 24 [(0, 0x10), (1, 0x0A), (2, 1), (4, 24), (8, 1), (0x0A, 1), (0x0E, 5), (0x10, 2)] ++
  image 16 [(0, 0x20), (1, 0x0A), (2, 1), (4, 16), (8, 2), (0x0A, 100)] ++
  image 12 [(0, 0x50), (1, 0x0A), (2, 1), (4, 12)] ++ image 12 [(0, 0x50), (1, 0x0A), (2, 1), (4, 12), (7, 1)] ++
  if conn then image 32 [(0, 0x60), (1, 0x0A), (2, 1), (4, 32), (8, 1), (0x0A, 30)] else []

def safety0 : List Byte := safetyBody false ++ leBytes (crc32c (safetyBody false)) 4

def safety1 : List Byte := safetyBody true ++ [0, 0, 0, 0]

/-- SK-1 running with a connection. -/
def kernel (f : Sk → Sk) : State := { withCfg up [rec_ 0x0101 0 [(8, 50)]] with sk := f { powered := true, phase := .run, image := some safety1 } }

theorem wit_SafetyIoRows :
    let p (x : SkPair) := kernel fun k => { k with pairs := [(0, x)] }
    let q (x : SkSrc) (t : Nat) : State := kernel fun k => { k with srcs := [(0, x)], clock := t }
    let o (x : SkOut) := kernel fun k => { k with outs := [(0, x)] }
    let us (s : State) := (s.sk.output 0).since * skCycleUs s - (s.sk.output 0).delay
    let on : SkOut := { x := true, y := true }
    inputSampled (kernel id) 3 = true ∧ inputSampled up 3 = false ∧ ((p { phase := .closing }).sk.pair 0).phase = .closing ∧
    ((p { phase := .demand }).sk.pair 0).phase = .demand ∧ discSamples (p { timer := 100 }) 0 ≤ ((p { timer := 100 }).sk.pair 0).timer ∧
    ((p { timer := 99 }).sk.pair 0).timer < discSamples (p { timer := 99 }) 0 ∧ sourceDriven (kernel id) 0 = true ∧
    ((q { low := true } 0).sk.src 0).low = true ∧ ((q {} 0).sk.src 0).low = false ∧ sourceDriven (kernel id) 2 = false ∧
    ((q { overl := some 5 } 0).sk.src 0).overl = some 5 ∧ ((q {} 0).sk.src 0).overl = none ∧
    5 + 1000000000 ≤ (q { overl := some 5 } 1000000005).sk.clock ∧ (q { overl := some 5 } 1000000004).sk.clock < 5 + 1000000000 ∧
    ((o on).sk.output 0).x = true ∧ ((o on).sk.output 0).y = true ∧ (kernel id).sk.powered = true ∧ up.sk.powered = false ∧
    2000 ≤ us (o { on with since := 2 }) ∧ us (o { on with since := 3, delay := 1001 }) < 2000 ∧ ((o {}).sk.output 0).x = false ∧
    us (o { since := 4 }) < 5000 ∧ 5000 ≤ us (o { since := 5 }) := by
  intros; and_intros <;> decide

theorem wit_SafetyImage : checkSafety (kernel id) safety0 = none ∧ (checkSafety (kernel id) safety1).isSome = true := by
  constructor <;> decide +kernel

theorem wit_SafetyKernelRows :
    let s (p : SkPhase) := kernel fun k => { k with phase := p }
    let t (l : SkPhase) := kernel fun k => { k with phase := .selftest, left := some l }
    let c : Commit := { part := 0, target := 3, image := safety0, tick := 0, confirmed := true, confTick := 0, detail0 := 0, forwarded := false, session := true }
    let f (p : SkPhase) := (s p).updSt fun t => { t with commit := some c, phase := .stopped }
    let v (r : Bool) : State := kernel fun k => { k with phase := .verify, cand := some safety0, resume := r }
    let pr (x : SkPair) (n : Nat) : State := kernel fun k => { k with pairs := [(0, x)], clock := n }
    let aged : State := (kernel id).updRec fun r => { r with optime := 57600 * 2 }
    let off : CfgRec := rec_ 0x0A10 0 []
    let cn (x : SkConn) := kernel fun k => { k with conns := [(0, x)] }
    let rx : LaneRx := { safe := [], pdus := [(0, [])] }
    (s .run).sk.powered = true ∧ up.sk.powered = false ∧ (s .verify).sk.phase = .verify ∧ (s .run).sk.phase = .run ∧ (s .selftest).sk.phase = .selftest ∧
    (s .waitImage).sk.phase ≠ .run ∧ (s .waitImage).sk.phase ≠ .verify ∧ (s .run).sk.phase ≠ .selftest ∧
    (s .selftest).sk.left = none ∧ (s .selftest).sk.cand = none ∧ ({ s .selftest with sk := { cand := some [] } } : State).sk.cand ≠ none ∧
    (t .run).sk.left = some .run ∧ (t .run).sk.cand = none ∧ (t .safeStop).sk.left = some .safeStop ∧ (t .dormant).sk.left = some .dormant ∧
    (f .run).st.commit = some c ∧ c.target = 3 ∧ c.forwarded = false ∧ (f .run).st.phase = .stopped ∧ (f .run).sk.powered = true ∧
    (f .waitImage).sk.phase = .waitImage ∧ (f .safeStop).sk.phase = .safeStop ∧ up.st.commit = none ∧
    laneTimeout (kernel fun k => { k with noFrame := 1 }) = true ∧ laneTimeout (kernel id) = false ∧
    (s .run).sk.phase ≠ .dormant ∧ (s .run).sk.phase ≠ .selftest ∧ (s .waitImage).sk.phase ≠ .dormant ∧ (s .waitImage).sk.phase ≠ .selftest ∧
    c.session = true ∧ (f .verify).svc.up = true ∧ (v false).sk.phase = .verify ∧ (v false).sk.cand = some safety0 ∧ (v false).sk.resume = false ∧ (v false).st.commit = none ∧
    (v true).sk.resume = true ∧ (kernel id).sk.cand = none ∧ ((pr { armed := some 4 } 0).sk.pair 0).armed = some 4 ∧
    4 + 600000000000 ≤ (pr { armed := some 4 } 600000000004).sk.clock ∧ (pr { armed := some 4 } 600000000003).sk.clock < 4 + 600000000000 ∧
    (pairRec aged 0).isSome = true ∧ (aged.sk.pair 0).due = false ∧ ((pairRec aged 0).elim 0 fun r => r.u 0x10 2) = 2 ∧ 2 ≤ proofAge aged 0 ∧
    proofAge (kernel id) 0 < 2 ∧ off.u 0x10 2 = 0 ∧ (findRec (skRecs (kernel id)) 0x0A60 0).isSome = true ∧
    ((findRec (skRecs (kernel id)) 0x0A60 0).elim (0, 0) fun r => (r.u 8 1, teUs r)) = (1, 3000) ∧
    ((cn { phase := .run, age := 2 }).sk.conn 0).phase = .run ∧ (cn {}).sk.rxA = none ∧ (cn {}).sk.rxB = none ∧ rx.pdus.get? 0 ≠ none ∧
    3000 ≤ (((cn { phase := .run, age := 2 }).sk.conn 0).age + 1) * skCycleUs (cn { age := 2 }) ∧
    (((cn { phase := .run, age := 1 }).sk.conn 0).age + 1) * skCycleUs (cn { age := 1 }) < 3000 ∧ outMode (kernel id) 0 = 2 := by
  intros; and_intros <;> decide

theorem wit_SafetyDigest :
    (kernel fun k => { k with digest := some (digestOf (safetyRecs safety0)) }).sk.digest = some (digestOf (safetyRecs safety0)) := rfl

/-! Frames -/

theorem wit_FrameOfImagesAccepted : exec (.holdoverExpired .a) State.reset = .next State.reset ∧ mayCommit (.holdoverExpired .a) = false :=
  ⟨rfl, by decide⟩

theorem wit_FrameOfParts : exec (.holdoverExpired .a) State.reset = .next State.reset ∧ mayKernel (.holdoverExpired .a) = false ∧
    mayTime (.holdoverExpired .a) = false ∧ mayImage (.holdoverExpired .a) = false ∧ mayService (.holdoverExpired .a) = false :=
  ⟨rfl, by decide, by decide, by decide, by decide⟩

/-! The code of W1SP (07, worked example), its cycles and its clamp -/

theorem test_w1sp_decodes :
    decodeSlot 0x0602C004 = some (.lda 2 6 4) ∧ decodeSlot 0x04812000 = some (.ld .real 1 1 0) ∧
    decodeSlot 0x0446001C = some (.ld .dint 6 0 0x1C) ∧ decodeSlot 0x02470001 = some (.alu .movi .dint 7 0 0 1) ∧
    decodeSlot 0x17831000 = some (.alu .neg .real 3 2 0 0) ∧ decodeSlot 0x104631C0 = some (.alu .add .dint 6 6 7 0) ∧
    decodeSlot 0x198108C0 = some (.alu .min .real 1 1 3 0) ∧ decodeSlot 0x05810018 = some (.st .real 1 0 0x18) ∧
    decodeSlot 0x39000000 = some .retb ∧ decodeSlot 0x38202400 = some (.callb 1 0x012) := by decide

theorem test_w1sp_clamp :
    alu .min .real 0 0x3FC00000 0x3F99999A 0 0 = .val 0x3F99999A false ∧ alu .neg .real 0 0x3F99999A 0 0 0 = .val 0xBF99999A false ∧
    alu .max .real 0 0x3F99999A 0xBF99999A 0 0 = .val 0x3F99999A false := by decide

/-- R191: division truncates toward zero, MOD has the dividend's sign, ADDS saturates, ADD wraps. -/
theorem test_integer_corners :
    alu .div .int 0 (intReg .int (-7)) (intReg .int 2) 0 0 = .val (intReg .int (-3)) false ∧
    alu .mod .int 0 (intReg .int (-7)) (intReg .int 2) 0 0 = .val (intReg .int (-1)) false ∧
    alu .adds .int 0 (intReg .int 32767) (intReg .int 1) 0 0 = .val (intReg .int 32767) false ∧
    alu .add .int 0 (intReg .int 32767) (intReg .int 1) 0 0 = .val (intReg .int (-32768)) false := by decide

end Sys2Proof.Tests
end

section
/-! The window's register rows (02 R51, R52, R54, R56, R57, R60, R61): what each row's write does on a window that answers, that
it does nothing on one that does not, and what the address of a write decodes to. -/

namespace Sys2Proof.Machine

/-! The rows are the writes of `windowWrite`'s registers -/

theorem exec_latTolWrite (p : Part) (d : Word) (s : State) : exec (.latTolWrite p d) s = .next (writeLatTol s p d) := rfl
theorem exec_evStatusClear (p : Part) (d : Word) (s : State) : exec (.evStatusClear p d) s = .next (writeEvStatus s p d.toNat) := rfl
theorem exec_evIndexWrite (p : Part) (d : Word) (s : State) : exec (.evIndexWrite p d) s = .next (writeEvIndex s p d.toNat) := rfl
theorem exec_wideSelWrite (p : Part) (d : Word) (v : Arrival) (s : State) :
    exec (.wideSelWrite p d v) s = .next (writeWideSel s p v.lane d v.ns) := rfl
theorem exec_wideD3Read (p : Part) (s : State) : exec (.wideD3Read p) s = .next (readEffect s p 0x034) := rfl
theorem exec_wideCaptureDone (p : Part) (s : State) : exec (.wideCaptureDone p) s = execWideCaptureDone p s := rfl
theorem exec_registerWrite_fast (p : Part) (a n : Nat) (d : DWord) (v : Arrival) (s : State) :
    exec (.registerWrite p false a n d v) s = .next (hostWrite s p v.lane a n d v.ns) := rfl

/-! A window that answers on no binding takes no write -/

section
variable {s : State} {p : Nat} (h : winLive s p = false)
include h

theorem writeLatTol_down (d : Word) : writeLatTol s p d = s := by simp [writeLatTol, h]
theorem writeEvStatus_down (d : Nat) : writeEvStatus s p d = s := by simp [writeEvStatus, h]
theorem writeEvIndex_down (d : Nat) : writeEvIndex s p d = s := by simp [writeEvIndex, h]
theorem writeWideSel_down (via : LaneId) (d : Word) (dt : Nat) : writeWideSel s p via d dt = s := by simp [writeWideSel, h]
theorem readEffect_down (a : Nat) : readEffect s p a = s := by simp [readEffect, h]
end

theorem wideCaptureDone_down {s : State} {p : Part} (h : winLive s p = false) : execWideCaptureDone p s = .next s := by
  simp [execWideCaptureDone, h]

/-! LAT_TOL, EV_STATUS and the wide-read registers of a window that answers (R54, R57, R60, R61) -/

theorem writeLatTol_live {s : State} {p : Nat} (h : winLive s p = true) (d : Word) :
    writeLatTol s p d = s.updPart p fun q => { q with latTol := d &&& 0x80FFFFFF#32 } := if_pos h
theorem writeEvStatus_live {s : State} {p : Nat} (h : winLive s p = true) (d : Nat) :
    writeEvStatus s p d = s.updPart p fun q => clearEvStatus q d := if_pos h
theorem writeWideSel_live {s : State} {p : Nat} (h : winLive s p = true) (via : LaneId) (d : Word) (dt : Nat) :
    writeWideSel s p via d dt = s.updPart p fun q =>
      { q with wideLost := q.wideLost || q.wide.pending || q.wide.valid,
               wide := { q.wide with sel := d &&& 0x00FFFFFF#32, echo := d.toNat % 256, badSel := false, pending := true, valid := false,
                                     atTick := s.grid.tick, atTime := s.grid.now + dt,
                                     cap := wideLane s (s.viaLane p via) (d &&& 0x00FFFFFF#32) s.grid.tick (s.grid.now + dt) } } :=
  if_pos h
theorem readEffect_wideD3 {s : State} {p : Nat} (h : winLive s p = true) :
    readEffect s p 0x034 = s.updPart p fun q => { q with wide := { q.wide with valid := false } } := by
  simp [readEffect, h, decodeWindow]

theorem wideCaptureDone_idle {s : State} {p : Part} (h : (s.part p).wide.pending = false) : execWideCaptureDone p s = .next s := by
  simp [execWideCaptureDone, h]

/-- The capture is ready to complete: its window answers, it is pending, and the service domain runs where it holds the value. -/
structure CaptureReady (s : State) (p : Nat) : Prop where
  live : winLive s p = true
  pending : (s.part p).wide.pending = true
  domain : wideSlow (s.part p).wide.sel = true → s.svc.up = true

theorem CaptureReady.completes {s : State} {p : Nat} (h : CaptureReady s p) :
    (!winLive s p || !(s.part p).wide.pending || (wideSlow (s.part p).wide.sel && !s.svc.up)) = false := by
  obtain ⟨hlive, hpending, hdomain⟩ := h
  cases hslow : wideSlow (s.part p).wide.sel
  case false => simp [hlive, hpending]
  case true => simp [hlive, hpending, hdomain hslow]

theorem wideCaptureDone_badSel {s : State} {p : Part} (h : CaptureReady s p) (hv : wideValue s (s.part p).wide = none) :
    execWideCaptureDone p s = .next (s.updPart p fun q => { q with wide := { q.wide with pending := false, badSel := true } }) := by
  simp only [execWideCaptureDone, h.completes, hv, Bool.false_eq_true, if_false]

theorem wideCaptureDone_valid {s : State} {p : Part} (h : CaptureReady s p) {v : List Nat}
    (hv : wideValue s (s.part p).wide = some v) :
    execWideCaptureDone p s = .next (s.updPart p fun q =>
      { q with wide := { q.wide with pending := false, valid := true, d0 := BitVec.ofNat 32 (v.getD 0 0),
                                     d1 := BitVec.ofNat 32 (v.getD 1 0), d2 := BitVec.ofNat 32 (v.getD 2 0),
                                     d3 := BitVec.ofNat 32 (v.getD 3 0) } }) := by
  simp only [execWideCaptureDone, h.completes, hv, Bool.false_eq_true, if_false]

/-! EV_INDEX (R56, R68): held entries that follow into the freed places move neither TAIL nor another partition -/

theorem ringPut_tail (s : State) (p : Nat) (e : RingEntry) (r : Nat) : ((ringPut s p e).part r).tail = (s.part r).tail :=
  (congrArg Partition.tail ((ringPut_reports s p e).parts r) :)

theorem ringPut_othersSame (s : State) (p : Nat) (e : RingEntry) : OthersSame s (ringPut s p e) p := by
  intro r hr
  unfold ringPut; extract_lets q b s1 s2
  have h1 : s1.part r = s.part r := by
    simp only [s1]; split
    · rfl
    · exact part_emit ..
  have h2 : s2.part r = s.part r := (part_updPart_ne _ _ _ _ hr).trans h1
  split
  · exact (notify_part_same _ _ _ _ hr).trans h2
  · exact h2

theorem OthersSame.refl (s : State) (p : Nat) : OthersSame s s p := fun _ _ => rfl
theorem OthersSame.trans {s t u : State} {p : Nat} (h : OthersSame s t p) (g : OthersSame t u p) : OthersSame s u p :=
  fun r hr => (g r hr).trans (h r hr)
theorem updPart_othersSame (s : State) (p : Nat) (f : Partition → Partition) : OthersSame s (s.updPart p f) p :=
  fun r hr => part_updPart_ne s p r f hr

/-- One held entry as it enters the ring. -/
def putHeld (s : State) (p : Nat) (e : RingEntry) (rest : List RingEntry) : State :=
  (ringPut s p e).updPart p fun q => { q with held := rest, nmPend := true }

theorem putHeld_tail (s : State) (p : Nat) (e : RingEntry) (rest : List RingEntry) :
    ((putHeld s p e rest).part p).tail = (s.part p).tail := by
  simp only [putHeld, part_updPart, ringPut_tail]
theorem putHeld_othersSame (s : State) (p : Nat) (e : RingEntry) (rest : List RingEntry) : OthersSame s (putHeld s p e rest) p :=
  OthersSame.trans (ringPut_othersSame s p e) (updPart_othersSame _ p _)

/-- A release of held entries stops at once, or one enters the ring and the release goes on. -/
theorem releaseHeld_succ (s : State) (p n : Nat) :
    releaseHeld s p (n + 1) = s ∨ ∃ e rest, releaseHeld s p (n + 1) = releaseHeld (putHeld s p e rest) p n := by
  simp only [releaseHeld]
  split
  · exact .inl rfl
  · split
    · exact .inr ⟨_, _, rfl⟩
    · exact .inl rfl

theorem releaseHeld_frame (s : State) (p n : Nat) :
    ((releaseHeld s p n).part p).tail = (s.part p).tail ∧ OthersSame s (releaseHeld s p n) p := by
  induction n generalizing s with
  | zero => exact ⟨rfl, .refl s p⟩
  | succ n ih =>
    obtain h | ⟨e, rest, h⟩ := releaseHeld_succ s p n
    · rw [h]; exact ⟨rfl, .refl s p⟩
    · obtain ⟨htail, hothers⟩ := ih (putHeld s p e rest)
      rw [h]
      exact ⟨htail.trans (putHeld_tail ..), OthersSame.trans (putHeld_othersSame s p e rest) hothers⟩

/-- How far a count of 16 bits lies beyond TAIL (R56). -/
def Partition.beyondTail (q : Partition) (t : Nat) : Nat := (t + 65536 - q.tail % 65536) % 65536

theorem writeEvIndex_within {s : State} {p : Nat} (h : winLive s p = true) {d : Nat}
    (hd : (s.part p).beyondTail (d % 65536) ≤ (s.part p).beyondTail (s.part p).head) :
    writeEvIndex s p d = releaseHeld (s.updPart p fun q => { q with tail := d % 65536 }) p (s.part p).held.length :=
  if_pos (by rw [h, Bool.true_and]; exact decide_eq_true hd)
theorem writeEvIndex_beyond {s : State} {p d : Nat}
    (hd : (s.part p).beyondTail (s.part p).head < (s.part p).beyondTail (d % 65536)) : writeEvIndex s p d = s :=
  if_neg fun hc => Nat.not_le_of_lt hd (of_decide_eq_true (Bool.and_eq_true_iff.mp hc).2)

theorem writeEvIndex_within_frame {s : State} {p : Nat} (h : winLive s p = true) {d : Nat}
    (hd : (s.part p).beyondTail (d % 65536) ≤ (s.part p).beyondTail (s.part p).head) :
    ((writeEvIndex s p d).part p).tail = d % 65536 ∧ OthersSame s (writeEvIndex s p d) p := by
  rw [writeEvIndex_within h hd]
  obtain ⟨htail, hothers⟩ := releaseHeld_frame (s.updPart p fun q => { q with tail := d % 65536 }) p (s.part p).held.length
  exact ⟨by rw [htail, part_updPart], OthersSame.trans (updPart_othersSame s p _) hothers⟩

theorem writeEvIndex_within_noneHeld {s : State} {p : Nat} (h : winLive s p = true) {d : Nat}
    (hd : (s.part p).beyondTail (d % 65536) ≤ (s.part p).beyondTail (s.part p).head) (hheld : (s.part p).held = []) :
    writeEvIndex s p d = s.updPart p fun q => { q with tail := d % 65536 } := by
  rw [writeEvIndex_within h hd, hheld]; rfl

/-- Settles O7: each row through the lemma of its register, EV_INDEX through the frame of the entries that are released. -/
theorem windowRegisterRows : Obligations.WindowRegisterRows := by
  unfold Obligations.WindowRegisterRows
  refine ⟨fun s p h => ⟨fun d => ?latTol, fun d => ?evStatus,
    fun d hd => ⟨⟨_, exec_evIndexWrite p d s, ?frame⟩, fun hheld => ?noneHeld⟩, fun d hd => ?beyond,
    fun d v => ?wideSel, ?wideD3, fun hpending hdomain => ⟨fun hv => ?badSel, fun v hv => ?valid⟩, wideCaptureDone_idle⟩,
    fun s p h => ?down⟩
  case latTol => rw [exec_latTolWrite, writeLatTol_live h]
  case evStatus => rw [exec_evStatusClear, writeEvStatus_live h]; rfl
  case frame => exact writeEvIndex_within_frame h hd
  case noneHeld => rw [exec_evIndexWrite, writeEvIndex_within_noneHeld h hd hheld]
  case beyond => rw [exec_evIndexWrite, writeEvIndex_beyond hd]
  case wideSel => rw [exec_wideSelWrite, writeWideSel_live h]
  case wideD3 => rw [exec_wideD3Read, readEffect_wideD3 h]
  case badSel => exact wideCaptureDone_badSel ⟨h, hpending, hdomain⟩ hv
  case valid => exact wideCaptureDone_valid ⟨h, hpending, hdomain⟩ hv
  case down =>
    refine ⟨by rw [exec_wideD3Read, readEffect_down h], wideCaptureDone_down h, fun d => ⟨?_, ?_, ?_, fun v => ?_⟩⟩
    · rw [exec_latTolWrite, writeLatTol_down h]
    · rw [exec_evStatusClear, writeEvStatus_down h]
    · rw [exec_evIndexWrite, writeEvIndex_down h]
    · rw [exec_wideSelWrite, writeWideSel_down h]

/-! The decoding of a window address (R51) -/

theorem decodeWindow_add_1024_mul (a k : Nat) : decodeWindow (a + 1024 * k) = decodeWindow a := by
  simp only [decodeWindow, Nat.add_mul_mod_self_left]
theorem decodeWindow_word (a : Nat) : decodeWindow (4 * (a / 4)) = decodeWindow a := by
  have h : 4 * (a / 4) % 1024 / 4 = a % 1024 / 4 := by omega
  simp only [decodeWindow, h]
/-- Below 0x100 the address decodes on bits [5:2]. -/
theorem decodeWindow_control {a : Nat} (h : a < 0x100) : decodeWindow a = a / 4 * 4 % 64 := by
  simp only [decodeWindow]; split <;> omega
/-- From 0x100 to 0x3FF it decodes on bits [9:2]. -/
theorem decodeWindow_area {a : Nat} (h : 0x100 ≤ a) (h' : a < 0x400) : decodeWindow a = a / 4 * 4 := by
  simp only [decodeWindow]; split <;> omega
theorem decodeWindow_add_64_mul {o k : Nat} (ho : o < 64) (hk : k < 4) : decodeWindow (o + 64 * k) = decodeWindow o := by
  rw [decodeWindow_control (by omega), decodeWindow_control (by omega)]; omega
theorem decodeWindow_control_injective {m n : Nat} (hm : m < 16) (hn : n < 16) (h : decodeWindow (4 * m) = decodeWindow (4 * n)) :
    m = n := by
  rw [decodeWindow_control (by omega), decodeWindow_control (by omega)] at h; omega
theorem decodeWindow_area_injective {m n : Nat} (hm : 64 ≤ m) (hm' : m < 256) (hn : n < 256)
    (h : decodeWindow (4 * m) = decodeWindow (4 * n)) : m = n := by
  rw [decodeWindow_area (by omega) (by omega)] at h
  obtain hc | hc := Nat.lt_or_ge n 64
  · rw [decodeWindow_control (by omega)] at h; omega
  · rw [decodeWindow_area (by omega) (by omega)] at h; omega

/-! Writes by address (R51, R52) -/

/-- A 32-bit write depends on its address by what it decodes to alone. -/
theorem windowWrite_of_decode_eq (s : State) (p : Nat) (via : LaneId) {a b : Nat} (d : Word) (dt : Nat)
    (h : decodeWindow a = decodeWindow b) :
    windowWrite s p via a 4 d dt = windowWrite s p via b 4 d dt := by
  simp only [windowWrite, h, Nat.lt_irrefl, if_false]
theorem windowWrite_latTol (s : State) (p : Nat) (via : LaneId) (d : Word) (dt : Nat) :
    windowWrite s p via 0x014 4 d dt = writeLatTol s p d := rfl
theorem windowWrite_narrow_control (s : State) (p : Nat) (via : LaneId) {a n : Nat} (d : Word) (dt : Nat) (hn : n < 4)
    (ha : decodeWindow a < 0x100) : windowWrite s p via a n d dt = s := by
  simp only [windowWrite, Nat.not_le_of_lt ha, hn, if_false, if_true]

theorem hostWrite_narrow (s : State) (p : Nat) (via : LaneId) (a : Nat) {n : Nat} (d : DWord) (dt : Nat) (hn : n < 4) :
    hostWrite s p via a n d dt = windowWrite s p via a n (d.extractLsb' 0 32) dt := if_neg (by omega)
theorem hostWrite_word (s : State) (p : Nat) (via : LaneId) (a : Nat) (d : DWord) (dt : Nat) :
    hostWrite s p via a 4 d dt = windowWrite s p via a 4 (d.extractLsb' 0 32) dt := rfl
theorem hostWrite_double (s : State) (p : Nat) (via : LaneId) (a : Nat) (d : DWord) (dt : Nat) :
    hostWrite s p via a 8 d dt = hostWrite (hostWrite s p via a 4 d dt) p via (a + 4) 4 (d >>> 32) dt := by
  have hhigh : (d >>> 32).extractLsb' 0 32 = d.extractLsb' 32 32 := by ext i hi; simp
  rw [hostWrite_word, hostWrite_word, hhigh]; rfl

/-- Settles O8: a 32-bit write reads its address through `decodeWindow` alone, and each clause on addresses is arithmetic of it. -/
theorem registerWriteAliases : Obligations.RegisterWriteAliases := by
  unfold Obligations.RegisterWriteAliases
  refine ⟨⟨fun s p a b d v h => ⟨_, exec_registerWrite_fast .., ?sameRegister⟩, fun a k _ => decodeWindow_add_1024_mul a k,
    fun a => (decodeWindow_word a).symm, fun _ _ => decodeWindow_add_64_mul, fun _ _ => decodeWindow_control_injective,
    fun _ _ => decodeWindow_area_injective, fun s p d v h => ?latTol⟩,
    fun s p a d v => ⟨_, exec_registerWrite_fast .., ?wide⟩, fun s p a n d v hn ha => ?narrow⟩
  case sameRegister =>
    rw [exec_registerWrite_fast, hostWrite_word, hostWrite_word, windowWrite_of_decode_eq _ _ _ _ _ h]
  case latTol =>
    have hdecode : decodeWindow 0xC14 = decodeWindow 0x014 := decodeWindow_add_1024_mul 0x014 3
    rw [exec_registerWrite_fast, hostWrite_word, windowWrite_of_decode_eq _ _ _ _ _ hdecode, windowWrite_latTol, writeLatTol_live h]
  case wide => rw [exec_registerWrite_fast, exec_registerWrite_fast, hostWrite_double]
  case narrow =>
    rw [exec_registerWrite_fast, hostWrite_narrow _ _ _ _ _ _ hn, windowWrite_narrow_control _ _ _ _ _ hn ha]

end Sys2Proof.Machine
end

section
/-! The factory-new module and its first power-up (18 R537, R457, R459 to R461; 00 R2; 04 R106; 16 R423): what a lane's power-good
leaves of the recorder, what an operating-time step adds, and which sequence an accepted record receives. -/

namespace Sys2Proof.Machine

/-! The invariants at reset -/

theorem reset_acceptedGood : AcceptedGood State.reset where
  sk := nofun
  safety := nofun
  prog := nofun
  cfg := .inl rfl
  access := .inl rfl
  commit := nofun

theorem reset_lane (l : LaneId) : State.reset.lane l = {} := by cases l <;> rfl

theorem reset_memoriesGood : MemoriesGood State.reset where
  lane l := by rw [reset_lane]; exact ⟨Mem.wf_empty, Mem.wf_empty, Mem.wf_empty⟩
  arrived l e he := by rw [reset_lane] at he; exact absurd he List.not_mem_nil
  isl _ he := absurd he List.not_mem_nil
  pub := ⟨Mem.wf_empty, Mem.wf_empty⟩
  stage _ he := absurd he List.not_mem_nil

/-! What leaves the recorder's store alone -/

/-- The recorder less its queue, and whether the service domain is up. -/
def State.store (s : State) : Bool × Recorder := (s.svc.up, { s.svc.rcd with queue := [] })

theorem Reports.store {s t : State} (h : Reports s t) : t.store = s.store :=
  (congrArg (fun x => (x.svc.up, { x.svc.rcd with queue := [] })) h.rest :)

@[simp] theorem raise_store (s : State) (e : Ev) : (raise s e).store = s.store := (raise_reports s e).store
@[simp] theorem updIsl_store (s : State) (i : Nat) (f : Island → Island) : (s.updIsl i f).store = s.store := rfl
@[simp] theorem updSk_store (s : State) (f : Sk → Sk) : (s.updSk f).store = s.store := rfl
@[simp] theorem updLane_store (s : State) (l : LaneId) (f : Lane → Lane) : (s.updLane l f).store = s.store := by cases l <;> rfl
theorem updSvc_store {s : State} {f : Svc → Svc} (hup : (f s.svc).up = s.svc.up) (hrcd : (f s.svc).rcd = s.svc.rcd) :
    (s.updSvc f).store = s.store := by
  simp only [State.store, updSvc_svc, hup, hrcd]
theorem foldl_store {α : Type} {f : State → α → State} (hf : ∀ s x, (f s x).store = s.store) (xs : List α) (s : State) :
    (xs.foldl f s).store = s.store := by
  induction xs generalizing s with
  | nil => rfl
  | cons x xs ih => exact (ih (f s x)).trans (hf s x)

@[simp] theorem enterSk_store (s : State) (ph : SkPhase) (pay : List Byte) : (enterSk s ph pay).store = s.store := by
  simp only [enterSk, skEvent, raise_store]
  split
  · exact updSk_store s _
  · exact updSk_store _ _
@[simp] theorem skWake_store (s : State) : (skWake s).store = s.store := by
  unfold skWake; split
  · exact enterSk_store s _ _
  · rfl
@[simp] theorem powerIslands_store (s : State) : (powerIslands s).store = s.store := by
  have hislands (xs : List Nat) : (xs.foldl (fun s i => s.updIsl i fun x => { x with powered := true }) s).store = s.store :=
    foldl_store (fun s i => updIsl_store s i _) xs s
  unfold powerIslands; extract_lets
  split
  · rw [skWake_store, hislands]
  · rw [enterSk_store, updSk_store, hislands]
@[simp] theorem panelPowerUp_store (s : State) (map : Option (List (Nat × Fin 4))) : (panelPowerUp s map).store = s.store := by
  unfold panelPowerUp; split
  · exact updSvc_store rfl rfl
  · rw [raise_store]; exact updSvc_store rfl rfl

/-! The first feed -/

theorem exec_logicPowerGood (l : LaneId) (cid : BitVec 4) (mv mac : Nat) (map : Option (List (Nat × Fin 4))) (s : State) :
    exec (.logicPowerGood l cid mv mac map) s = execLogicPowerGood l cid mv mac map s := rfl

/-- No lane has a feed, and the station is not in Dark. -/
structure Unfed (s : State) : Prop where
  feed : ∀ l, (s.lane l).feed = false
  lit : s.st.power.ps ≠ .dark

theorem reset_unfed : Unfed State.reset := ⟨fun l => by rw [reset_lane], by decide⟩

/-- The first feed to come starts the station over, its recorder with it, and no later part of the row writes the recorder. -/
theorem Unfed.logicPowerGood {s : State} (h : Unfed s) (l : LaneId) (cid : BitVec 4) (mv mac : Nat)
    (map : Option (List (Nat × Fin 4))) : Gives (.logicPowerGood l cid mv mac map) s fun t =>
      t.store = (coldStart s false).store ∧ (t.lane l).feed = true := by
  have ha : s.a.feed = false := h.feed .a
  have hb : s.b.feed = false := h.feed .b
  have hdark : (s.st.power.ps == .dark) = false := beq_false_of_ne h.lit
  rw [Gives, exec_logicPowerGood]
  simp only [execLogicPowerGood, h.feed l, ha, hb, hdark, Bool.false_eq_true, if_false, Bool.not_false, Bool.and_self, Bool.true_or,
    if_true]
  refine ⟨_, rfl, ?_, by rw [lane_updLane]⟩
  rw [updLane_store, panelPowerUp_store, updSvc_store rfl rfl, powerIslands_store]; rfl

/-! Operating time -/

theorem exec_optimeStep (ns : Nat) (s : State) : exec (.optimeStep ns) s = execOptimeStep ns s := rfl

theorem updLane_feed (s : State) (l m : LaneId) {f : Lane → Lane} (hf : ∀ v, (f v).feed = v.feed) :
    ((s.updLane l f).lane m).feed = (s.lane m).feed := by
  obtain rfl | hm := eq_or_ne m l
  · rw [lane_updLane, hf]
  · rw [lane_updLane_ne _ _ _ _ hm]

theorem anyFeed {s : State} {l : LaneId} (h : (s.lane l).feed = true) : (s.a.feed || s.b.feed) = true := by
  cases l
  · exact Bool.or_eq_true_iff.mpr (.inl h)
  · exact Bool.or_eq_true_iff.mpr (.inr h)

/-- While a lane has a feed, operating time steps and notes the station time of its step. -/
theorem optimeStep_fed {s : State} {l : LaneId} (h : (s.lane l).feed = true) (ns : Nat) : Gives (.optimeStep ns) s fun u =>
    u.svc.rcd.optime = (s.svc.rcd.optime + 1) % 2 ^ 48 ∧ u.svc.rcd.stepAt = s.grid.now + ns := by
  rw [Gives, exec_optimeStep]; unfold execOptimeStep; extract_lets s1
  have hfeed : (s1.lane l).feed = true := by
    simp only [s1, bothLanes]
    rw [updLane_feed _ _ _ (fun v => by split <;> rfl), updLane_feed _ _ _ (fun v => by split <;> rfl), h]
  have hsvc : s1.svc = s.svc := by simp only [s1, bothLanes, updLane_svc_eq]
  have hgrid : s1.grid = s.grid := by simp only [s1, bothLanes, updLane_grid_eq]
  rw [if_pos (anyFeed hfeed)]
  exact ⟨_, rfl, by rw [updRec_svc, hsvc], by rw [updRec_svc, hgrid]⟩

/-! Records accepted -/

theorem carryDue_noSeals {v : Recorder} (h : v.seals = []) : carryDue v = v := by
  simp only [carryDue, sealCodes, h, Tab.get?, List.foldl]

/-- A record is written behind the seals that are carried, and may become the newest seal or anchor. -/
theorem acceptRec_written (v : Recorder) (r : RawRec) (k : Nat) :
    ∃ seals anchor, acceptRec v r k = { writeSlot (carryDue v) r k with seals := seals, anchor := anchor } := by
  unfold acceptRec; extract_lets c n w x
  have hx : ∃ seals, x = { w with seals := seals } := by
    simp only [x]; split
    · exact ⟨_, rfl⟩
    · exact ⟨_, rfl⟩
  obtain ⟨seals, hx⟩ := hx
  rw [hx]; split
  · exact ⟨_, _, rfl⟩
  · exact ⟨_, _, rfl⟩

theorem recordAt_writeSlot (v : Recorder) (r : RawRec) (k : Nat) : ∃ x, recordAt (writeSlot v r k) v.next = some x ∧ x.seq = v.next := by
  simp only [recordAt, writeSlot, Tab.get?_set, Option.bind_some, if_true]
  exact ⟨_, rfl, rfl⟩

/-- With no seal to carry, an accepted record receives the sequence NEXT, and NEXT advances. -/
theorem acceptRec_noSeals {v : Recorder} (h : v.seals = []) (r : RawRec) (k : Nat) :
    (acceptRec v r k).next = v.next + 1 ∧ ∃ x, recordAt (acceptRec v r k) v.next = some x ∧ x.seq = v.next := by
  obtain ⟨seals, anchor, hrec⟩ := acceptRec_written v r k
  rw [hrec, carryDue_noSeals h]
  exact ⟨rfl, recordAt_writeSlot v r k⟩

/-- Settles O58: the first power-good leaves the recorder as `coldStart` makes it, from which operating time and sequences start. -/
theorem resetState : Obligations.ResetState := by
  unfold Obligations.ResetState
  refine ⟨rfl, reset_acceptedGood, reset_memoriesGood, fun l => by rw [reset_lane]; exact ⟨rfl, rfl⟩, rfl, rfl,
    ⟨rfl, rfl, rfl, rfl, fun _ => rfl, rfl, rfl⟩, fun l cid mv mac map => ?powerGood, fun v r k hnext hseals => ?firstRecord⟩
  case powerGood =>
    obtain ⟨t, hrow, hstore, hfeed⟩ := reset_unfed.logicPowerGood l cid mv mac map
    have hup : t.svc.up = true := (congrArg Prod.fst hstore :)
    have hrcd : { t.svc.rcd with queue := [] } = ({ pcycle := 1 } : Recorder) := (congrArg Prod.snd hstore :)
    have hoptime : t.svc.rcd.optime = 0 := (congrArg Recorder.optime hrcd :)
    refine ⟨t, hrow, (congrArg Recorder.pcycle hrcd :), hoptime, (congrArg Recorder.next hrcd :), (congrArg Recorder.seals hrcd :),
      hup, hfeed, fun ns => ?_⟩
    have hstep := optimeStep_fed hfeed ns
    rwa [hoptime] at hstep
  case firstRecord =>
    have hrec := acceptRec_noSeals hseals r k
    rwa [hnext] at hrec

end Sys2Proof.Machine
end

section
/-! What every row keeps, read off the rows one by one: that it answers a next state, the queue, the accepted images and the commit
in progress (03, 04), and SK-1, the tick grid, the process images and the service domain's objects. -/

namespace Sys2Proof.Machine

/-! The step -/

theorem step_of_front {s : State} {c : Instr} {r : List Instr} (h : s.pending = c :: r) : step s = exec c { s with pending := r } := by
  simp only [step, h]
theorem step_of_idle {s : State} (h : s.pending = []) (he : engineTurn s = none) : step s = .next s := by
  simp only [step, h, he]
theorem step_of_bundle {s : State} (h : s.pending = []) {l : LaneId} {c : Instr} (he : engineTurn s = some (l, some c)) :
    step s = exec c s := by
  simp only [step, h, he]
theorem step_of_illegal {s : State} (h : s.pending = []) {l : LaneId} (he : engineTurn s = some (l, none)) :
    step s = .next (illegalBundle s l) := by
  simp only [step, h, he]

theorem engineTurn_a {s : State} {x : Option Instr} (h : nextBundle s .a = some x) : engineTurn s = some (.a, x) := by
  simp only [engineTurn, h]
theorem engineTurn_b {s : State} (h : nextBundle s .a = none) : engineTurn s = (nextBundle s .b).map fun x => (.b, x) := by
  simp only [engineTurn, h]

/-- What a step is: the front command on the rest of the queue, or, with the queue empty, nothing, a bundle's command, or the end of
the period of a bundle that does not decode. -/
theorem step_cases (s : State) :
    (∃ c r, s.pending = c :: r ∧ step s = exec c { s with pending := r }) ∨
    (s.pending = [] ∧ (step s = .next s ∨ (∃ c, step s = exec c s) ∨ ∃ l, step s = .next (illegalBundle s l))) := by
  cases h : s.pending with
  | cons c r => exact .inl ⟨c, r, rfl, step_of_front h⟩
  | nil =>
    refine .inr ⟨rfl, ?_⟩
    match he : engineTurn s with
    | none => exact .inl (step_of_idle h he)
    | some (l, some c) => exact .inr (.inl ⟨c, step_of_bundle h he⟩)
    | some (l, none) => exact .inr (.inr ⟨l, step_of_illegal h he⟩)

/-- Settles O1: the first arm of `step`. -/
theorem stepRunsFrontCommand : Obligations.StepRunsFrontCommand := by
  unfold Obligations.StepRunsFrontCommand
  exact fun _ _ _ => step_of_front

/-- Settles O2: the arms of `step` on an empty queue, by whose turn it is. -/
theorem stepOnEmptyQueue : Obligations.StepOnEmptyQueue := by
  unfold Obligations.StepOnEmptyQueue
  intro s h
  refine ⟨fun ha hb => step_of_idle h ?_, fun c ha => step_of_bundle h (engineTurn_a ha), fun c ha hb => step_of_bundle (l := .b) h ?_,
    fun ha => step_of_illegal h (engineTurn_a ha), fun ha hb => step_of_illegal (l := .b) h ?_⟩
  all_goals rw [engineTurn_b ha, hb]; rfl

/-! Every row answers a next state -/

theorem Safe.next (t : State) : Safe (.next t) := ⟨t, rfl⟩
theorem Safe.ite {c : Prop} [Decidable c] {x y : Host.Outcome State Fault Refusal} (h : Safe x) (g : Safe y) :
    Safe (if c then x else y) := by
  split
  · exact h
  · exact g
theorem Safe.ite_next {c : Prop} [Decidable c] (t u : State) : Safe (if c then .next t else .next u) := .ite (.next t) (.next u)
theorem MildO.safe {s : State} {o : Host.Outcome State Fault Refusal} (h : MildO s o) : Safe o := by
  obtain ⟨t, h, _⟩ := h
  exact ⟨t, h⟩

theorem execHeartbeatWord_safe (l : LaneId) (w : HbWord) (crcOk : Bool) (s : State) : Safe (execHeartbeatWord l w crcOk s) := by
  unfold execHeartbeatWord; extract_lets
  exact .ite (.next _) (.ite (.next _) (.ite (.next _) (.ite (.next _) (.ite (.next _) (.ite_next _ _)))))
theorem execPartnerFailureDeclared_safe (l : LaneId) (s : State) : Safe (execPartnerFailureDeclared l s) := by
  unfold execPartnerFailureDeclared; extract_lets
  exact .ite (.next _) (.ite_next _ _)
theorem execUncorrectableError_safe (l : LaneId) (site : EccSite) (s : State) : Safe (execUncorrectableError l site s) := by
  unfold execUncorrectableError
  refine .ite (.next _) ?_
  split
  · exact .next _
  · exact .next _
theorem execScrubberRead_safe (l : LaneId) (addr : Nat) (r : ScrubResult) (s : State) : Safe (execScrubberRead l addr r s) := by
  unfold execScrubberRead
  refine .ite (.next _) ?_
  cases r
  · exact .next _
  · exact .next _
  · exact .next _

/-- Settles O3: nearly every row is a `.next` outright; the others are a choice between such. -/
theorem everyCommandAnswers : Obligations.EveryCommandAnswers := by
  unfold Obligations.EveryCommandAnswers
  intro i s
  cases i
  case registerWrite => exact (execRegisterWrite_mild ..).safe
  case logicPowerGood => exact (execLogicPowerGood_mild ..).safe
  case thlBootstrapStart => exact Safe.ite_next _ _
  case rolesStep => exact Safe.ite_next _ _
  case startupComplete => exact Safe.ite_next _ _
  case releaseWord => exact Safe.ite_next _ _
  case uncorrectableError => exact execUncorrectableError_safe ..
  case heartbeatWord => exact execHeartbeatWord_safe ..
  case partnerFailureDeclared => exact execPartnerFailureDeclared_safe ..
  case flowFrameReceived => exact Safe.ite_next _ _
  case arpIcmpFrame => exact Safe.ite_next _ _
  case phyLinkChange => exact Safe.ite_next _ _
  case rcQualified => exact Safe.ite_next _ _
  case tcxoReturn => exact Safe.ite_next _ _
  case gateBusyTimeout => exact Safe.ite_next _ _
  case serviceDomainLost => exact Safe.ite_next _ _
  case serviceDomainReturned => exact Safe.ite_next _ _
  case scrubberRead => exact execScrubberRead_safe ..
  all_goals exact .next _

/-! The queue, the accepted images and the commit in progress -/

/-- A row that is not one of `mayCommit` leaves the queue, the accepted images and the commit in progress alone. -/
theorem exec_keeps {i : Instr} (h : mayCommit i = false) (s : State) : Keeps (exec i s) s := by
  cases i
  case evStatusClear => exact keep_execEvStatusClear ..
  case evIndexWrite => exact keep_execEvIndexWrite ..
  case latTolWrite => exact keep_execLatTolWrite ..
  case mbDoorbell => exact keep_execMbDoorbell ..
  case wideSelWrite => exact keep_execWideSelWrite ..
  case wideCaptureDone => exact keep_execWideCaptureDone ..
  case wideD3Read => exact keep_execWideD3Read ..
  case slowReadStart => exact keep_execSlowReadStart ..
  case slowWritePost => exact keep_execSlowWritePost ..
  case slowAccessDone => exact keep_execSlowAccessDone ..
  case attach => exact keep_execAttach ..
  case sessionOpen => exact keep_execSessionOpen ..
  case sessionClose => exact keep_execSessionClose ..
  case lockAcquire => exact keep_execLockAcquire ..
  case lockRelease => exact keep_execLockRelease ..
  case eventSubscribe => exact keep_execEventSubscribe ..
  case eventRead => exact keep_execEventRead ..
  case statusGet => exact keep_execStatusGet ..
  case configBegin => exact keep_execConfigBegin ..
  case configChunk => exact keep_execConfigChunk ..
  case configAbort => exact keep_execConfigAbort ..
  case start => exact keep_execStart ..
  case stop => exact keep_execStop ..
  case endsChange => exact keep_execEndsChange ..
  case safeShutdown => exact keep_execSafeShutdown ..
  case valuePatch => exact keep_execValuePatch ..
  case loopMode => exact keep_execLoopMode ..
  case loopParam => exact keep_execLoopParam ..
  case imageRead => exact keep_execImageRead ..
  case recorderRead => exact keep_execRecorderRead ..
  case recorderClear => exact keep_execRecorderClear ..
  case flowStats => exact keep_execFlowStats ..
  case retainedRead => exact keep_execRetainedRead ..
  case dmaCompletionTimeout => exact keep_execDmaCompletionTimeout ..
  case hostLinkLost => exact keep_execHostLinkLost ..
  case sessionIdleTimeout => exact keep_execSessionIdleTimeout ..
  case authLockoutEnd => exact keep_execAuthLockoutEnd ..
  case thlHello => exact keep_execThlHello ..
  case thlRegRead => exact keep_execThlRegRead ..
  case thlStalled => exact keep_execThlStalled ..
  case windowUp => exact keep_execWindowUp ..
  case clockQualification => exact keep_execClockQualification ..
  case thlBootstrapStart => exact keep_execThlBootstrapStart ..
  case rolesStep => exact keep_execRolesStep ..
  case roleWaitTimeout => exact keep_execRoleWaitTimeout ..
  case startupComplete => exact keep_execStartupComplete ..
  case startupStepFail => exact keep_execStartupStepFail ..
  case inputSwap => exact keep_execInputSwap ..
  case mx1Swap => exact keep_execMx1Swap ..
  case beWindowClose => exact keep_execBeWindowClose ..
  case outputCutoff => exact keep_execOutputCutoff ..
  case islandEdge => exact keep_execIslandEdge ..
  case edgeMarker => exact keep_execEdgeMarker ..
  case islandInputFrame => exact keep_execIslandInputFrame ..
  case islandOutputFrame => exact keep_execIslandOutputFrame ..
  case islandWatchdogExpired => exact keep_execIslandWatchdogExpired ..
  case tokenRequest => exact keep_execTokenRequest ..
  case tokenRequestRetry => exact keep_execTokenRequestRetry ..
  case grantRecord => exact keep_execGrantRecord ..
  case releaseWord => exact keep_execReleaseWord ..
  case shotClockExpired => exact keep_execShotClockExpired ..
  case uncorrectableError => exact keep_execUncorrectableError ..
  case beNop => exact keep_execBeNop ..
  case beMov => exact keep_execBeMov ..
  case beMovi => exact keep_execBeMovi ..
  case beLd => exact keep_execBeLd ..
  case beSt => exact keep_execBeSt ..
  case beLda => exact keep_execBeLda ..
  case beIdxc => exact keep_execBeIdxc ..
  case beItpl => exact keep_execBeItpl ..
  case beAdd => exact keep_execBeAdd ..
  case beSub => exact keep_execBeSub ..
  case beAdds => exact keep_execBeAdds ..
  case beSubs => exact keep_execBeSubs ..
  case beMul => exact keep_execBeMul ..
  case beDiv => exact keep_execBeDiv ..
  case beMod => exact keep_execBeMod ..
  case beNeg => exact keep_execBeNeg ..
  case beAbs => exact keep_execBeAbs ..
  case beMin => exact keep_execBeMin ..
  case beMax => exact keep_execBeMax ..
  case beSqrt => exact keep_execBeSqrt ..
  case beCvt => exact keep_execBeCvt ..
  case beAnd => exact keep_execBeAnd ..
  case beOr => exact keep_execBeOr ..
  case beXor => exact keep_execBeXor ..
  case beNot => exact keep_execBeNot ..
  case beShl => exact keep_execBeShl ..
  case beShr => exact keep_execBeShr ..
  case beCeq => exact keep_execBeCeq ..
  case beCne => exact keep_execBeCne ..
  case beClt => exact keep_execBeClt ..
  case beCle => exact keep_execBeCle ..
  case beSel => exact keep_execBeSel ..
  case beBra => exact keep_execBeBra ..
  case beBrz => exact keep_execBeBrz ..
  case beBrnz => exact keep_execBeBrnz ..
  case beLoop => exact keep_execBeLoop ..
  case beEndl => exact keep_execBeEndl ..
  case beCallb => exact keep_execBeCallb ..
  case beRetb => exact keep_execBeRetb ..
  case beEnd => exact keep_execBeEnd ..
  case loopQbadExpired => exact keep_execLoopQbadExpired ..
  case loopFeExpired => exact keep_execLoopFeExpired ..
  case chainStaleExpired => exact keep_execChainStaleExpired ..
  case chainHoldExpired => exact keep_execChainHoldExpired ..
  case chainFadeEnd => exact keep_execChainFadeEnd ..
  case chainSettleEnd => exact keep_execChainSettleEnd ..
  case heartbeatWord => exact keep_execHeartbeatWord ..
  case beaconExtinguish => exact keep_execBeaconExtinguish ..
  case partnerFailureDeclared => exact keep_execPartnerFailureDeclared ..
  case pathFault => exact keep_execPathFault ..
  case snapshotPiece => exact keep_execSnapshotPiece ..
  case snapshotDiscard => exact keep_execSnapshotDiscard ..
  case endsIntervalDue => exact keep_execEndsIntervalDue ..
  case endsDeferredStart => exact keep_execEndsDeferredStart ..
  case endsSwapEdge => exact keep_execEndsSwapEdge ..
  case selfCheckFail => exact keep_execSelfCheckFail ..
  case reintStart => exact keep_execReintStart ..
  case reintCopyClosed => exact keep_execReintCopyClosed ..
  case reintCopyTimeout => exact keep_execReintCopyTimeout ..
  case reintRetryDue => exact keep_execReintRetryDue ..
  case reintStandby => exact keep_execReintStandby ..
  case flowLaunch => exact keep_execFlowLaunch ..
  case flowFrameReceived => exact keep_execFlowFrameReceived ..
  case flowDown => exact keep_execFlowDown ..
  case udpbcDatagram => exact keep_execUdpbcDatagram ..
  case ptpSync => exact keep_execPtpSync ..
  case ptpAnnounce => exact keep_execPtpAnnounce ..
  case ptpDelayMessage => exact keep_execPtpDelayMessage ..
  case announceTimeout => exact keep_execAnnounceTimeout ..
  case holdoverExpired => exact keep_execHoldoverExpired ..
  case prpSupervisionSend => exact keep_execPrpSupervisionSend ..
  case arpIcmpFrame => exact keep_execArpIcmpFrame ..
  case phyLinkChange => exact keep_execPhyLinkChange ..
  case canFrameReceived => exact keep_execCanFrameReceived ..
  case canFrameTxDone => exact keep_execCanFrameTxDone ..
  case canError => exact keep_execCanError ..
  case canBusoffRecovered => exact keep_execCanBusoffRecovered ..
  case canSleepRequest => exact keep_execCanSleepRequest ..
  case canWakeRequest => exact keep_execCanWakeRequest ..
  case canRecoverRequest => exact keep_execCanRecoverRequest ..
  case canBusWake => exact keep_execCanBusWake ..
  case scRateDetected => exact keep_execScRateDetected ..
  case scNoTraffic => exact keep_execScNoTraffic ..
  case dioOverload => exact keep_execDioOverload ..
  case dioAutoRetry => exact keep_execDioAutoRetry ..
  case dioGroupTrip => exact keep_execDioGroupTrip ..
  case fieldSupplyLow => exact keep_execFieldSupplyLow ..
  case fieldSupplyRestored => exact keep_execFieldSupplyRestored ..
  case aiSupplyRetry => exact keep_execAiSupplyRetry ..
  case encoderZEdge => exact keep_execEncoderZEdge ..
  case rs422Sentence => exact keep_execRs422Sentence ..
  case rs422TxDone => exact keep_execRs422TxDone ..
  case skCycleStart => exact keep_execSkCycleStart ..
  case testSourceOverload => exact keep_execTestSourceOverload ..
  case testSourceRetry => exact keep_execTestSourceRetry ..
  case discTimerExpired => exact keep_execDiscTimerExpired ..
  case proofTestExpired => exact keep_execProofTestExpired ..
  case proofIntervalReached => exact keep_execProofIntervalReached ..
  case offPulse o y mv => exact keep_execOffPulse o y mv s
  case laneWatchdogExpired => exact keep_execLaneWatchdogExpired ..
  case connTimeExpired => exact keep_execConnTimeExpired ..
  case tcxoFailure => exact keep_execTcxoFailure ..
  case rcFault => exact keep_execRcFault ..
  case rcQualified => exact keep_execRcQualified ..
  case rcQualTimeout => exact keep_execRcQualTimeout ..
  case tcxoReturn => exact keep_execTcxoReturn ..
  case voltageStepDone => exact keep_execVoltageStepDone ..
  case gateBusyTimeout => exact keep_execGateBusyTimeout ..
  case powerDwellExpired => exact keep_execPowerDwellExpired ..
  case clkoutSelWrite p outB d => exact keep_execClkoutSelWrite p outB d s
  case clkoutStatusClear p d => exact keep_execClkoutStatusClear p d s
  case recordArrival => exact keep_execRecordArrival ..
  case floodWindowEnd => exact keep_execFloodWindowEnd ..
  case optimeStep => exact keep_execOptimeStep ..
  case timeAnchorDue => exact keep_execTimeAnchorDue ..
  case retainPeriodDue => exact keep_execRetainPeriodDue ..
  case bankWriteDone => exact keep_execBankWriteDone ..
  case serviceDomainLost => exact keep_execServiceDomainLost ..
  case serviceDomainReturned => exact keep_execServiceDomainReturned ..
  case rtcTimeRead => exact keep_execRtcTimeRead ..
  case rtcDateRead => exact keep_execRtcDateRead ..
  case rtcCommit => exact keep_execRtcCommit ..
  case rtcStatusClear => exact keep_execRtcStatusClear ..
  case rtcAlarmWrite => exact keep_execRtcAlarmWrite ..
  case rtcTrimWrite => exact keep_execRtcTrimWrite ..
  case laneFeedLost => exact keep_execLaneFeedLost ..
  case laneFeedRestored => exact keep_execLaneFeedRestored ..
  case rideThroughEnd => exact keep_execRideThroughEnd ..
  case cartInserted => exact keep_execCartInserted ..
  case cartMeasNow => exact keep_execCartMeasNow ..
  case cartMeasDue => exact keep_execCartMeasDue ..
  case cartMeasDone => exact keep_execCartMeasDone ..
  case cartHour => exact keep_execCartHour ..
  case cartStatusClear => exact keep_execCartStatusClear ..
  case pnlShowWrite => exact keep_execPnlShowWrite ..
  case pnlLineWrite => exact keep_execPnlLineWrite ..
  case pnlDataWrite => exact keep_execPnlDataWrite ..
  case pnlCommit => exact keep_execPnlCommit ..
  case pnlStatusClear => exact keep_execPnlStatusClear ..
  case panelFrame => exact keep_execPanelFrame ..
  case panelPassDone => exact keep_execPanelPassDone ..
  case panelIdle => exact keep_execPanelIdle ..
  case safetyInputSample => exact keep_execSafetyInputSample ..
  case testSourcePulse => exact keep_execTestSourcePulse ..
  case safetyOutputReadback => exact keep_execSafetyOutputReadback ..
  case encoderEdge => exact keep_execEncoderEdge ..
  case ssiFrameComplete => exact keep_execSsiFrameComplete ..
  case lockstepMismatch => exact keep_execLockstepMismatch ..
  case scrubberRead => exact keep_execScrubberRead ..
  case prpSupervisionFrame => exact keep_execPrpSupervisionFrame ..
  case prpSupervisionLost => exact keep_execPrpSupervisionLost ..
  case analogueCalibrationDone => exact keep_execAnalogueCalibrationDone ..
  case bayEmptyRepeat => exact keep_execBayEmptyRepeat ..
  all_goals exact Bool.noConfusion (show true = false from h)

/-- A row of `mayCommit` leaves the queue alone, and good images good. -/
theorem exec_mild_of_mayCommit {i : Instr} (h : mayCommit i = true) (s : State) : MildO s (exec i s) := by
  cases i
  case registerWrite => exact execRegisterWrite_mild ..
  case winCtrlAttach => exact execWinCtrlAttach_mild ..
  case winCtrlDetach => exact execWinCtrlDetach_mild ..
  case detachComplete => exact execDetachComplete_mild ..
  case configCommit => exact execConfigCommit_mild ..
  case bulkBoundary => exact execBulkBoundary_mild ..
  case dmaCompletion => exact execDmaCompletion_mild ..
  case linkGraceExpired => exact execLinkGraceExpired_mild ..
  case thlRegWrite => exact execThlRegWrite_mild ..
  case thlData => exact execThlData_mild ..
  case thlAck => exact execThlAck_mild ..
  case logicPowerGood => exact execLogicPowerGood_mild ..
  case tickEdge => exact execTickEdge_mild ..
  case configApply => exact execConfigApply_mild ..
  case commitConfirm => exact execCommitConfirm_mild ..
  case commitConfirmTimeout => exact execCommitConfirmTimeout_mild ..
  case tokenReply => exact execTokenReply_mild ..
  case takeoverTick => exact execTakeoverTick_mild ..
  case skCycleEnd => exact execSkCycleEnd_mild ..
  case skKernelFault => exact execSkKernelFault_mild ..
  case skSelftestDone => exact execSkSelftestDone_mild ..
  case skImageForwarded => exact execSkImageForwarded_mild ..
  case skVerifyDone => exact execSkVerifyDone_mild ..
  case skPeriodicSelftest => exact execSkPeriodicSelftest_mild ..
  case darkWake => exact execDarkWake_mild ..
  case rtcSecond => exact execRtcSecond_mild ..
  case powerFailure => exact execPowerFailure_mild ..
  case holdupOff => exact execHoldupOff_mild ..
  case cartRemoved => exact execCartRemoved_mild ..
  case panelKey => exact execPanelKey_mild ..
  case partnerBeaconLost => exact execPartnerBeaconLost_mild ..
  all_goals exact Bool.noConfusion (show false = true from h)

theorem Keeps.kept {o : Host.Outcome State Fault Refusal} {s t : State} (h : Keeps o s) (ht : o = .next t) : t.kept = s.kept := by
  subst ht; exact h

/-- Every row leaves the queue alone, and good images good. -/
theorem exec_mild {i : Instr} {s t : State} (h : exec i s = .next t) : Mild s t := by
  cases hi : mayCommit i with
  | false => exact mild_of_kept ((exec_keeps hi s).kept h)
  | true =>
    obtain ⟨u, hu, hm⟩ := exec_mild_of_mayCommit hi s
    rw [h] at hu
    exact (Host.Outcome.next.inj hu) ▸ hm

/-- A state less its queue's front command. -/
theorem kept_good_of_pending (s : State) (r : List Instr) (h : s.kept.Good) : { s with pending := r }.kept.Good :=
  ⟨h.sk, h.safety, h.prog, h.cfg, h.access, h.commit⟩

/-- Every step takes the front of the queue alone, and leaves good images good. -/
theorem step_mild {s t : State} (h : step s = .next t) : t.pending = s.pending.tail ∧ (s.kept.Good → t.kept.Good) := by
  obtain ⟨c, r, hp, he⟩ | ⟨hp, he | ⟨c, he⟩ | ⟨l, he⟩⟩ := step_cases s
  · rw [he] at h
    obtain ⟨hq, hg⟩ := exec_mild h
    exact ⟨by rw [hq, hp]; rfl, fun g => hg (kept_good_of_pending s r g)⟩
  · rw [he] at h
    cases h
    exact ⟨by rw [hp]; rfl, id⟩
  · rw [he] at h
    obtain ⟨hq, hg⟩ := exec_mild h
    exact ⟨by rw [hq, hp]; rfl, hg⟩
  · rw [he] at h
    cases h
    obtain ⟨hq, hg⟩ := mild_of_kept (keep_illegalBundle s l)
    exact ⟨by rw [hq, hp]; rfl, hg⟩

/-- Settles O4: no row writes the queue, and a step takes its front. -/
theorem queueDiscipline : Obligations.QueueDiscipline := by
  unfold Obligations.QueueDiscipline
  exact fun s t h => (step_mild h).1

/-- Settles O5: every row leaves good images good. -/
theorem acceptedImagesStayGood : Obligations.AcceptedImagesStayGood := by
  unfold Obligations.AcceptedImagesStayGood
  exact fun s t hs h => (acceptedGood_iff t).mpr ((step_mild h).2 ((acceptedGood_iff s).mp hs))

/-- Settles O59: the rows that are not of `mayCommit` keep all of `State.kept`, those of `mayCommit` the queue. -/
theorem frameOfImagesAccepted : Obligations.FrameOfImagesAccepted := by
  unfold Obligations.FrameOfImagesAccepted
  intro i s t h
  refine ⟨(exec_mild h).1, fun hi => ?_⟩
  have hk : t.kept = s.kept := (exec_keeps hi s).kept h
  exact ⟨(congrArg Kept.prog hk :), (congrArg Kept.cfgImage hk :), (congrArg Kept.access hk :), (congrArg Kept.accessImage hk :),
    (congrArg Kept.safety hk :), (congrArg Kept.commit hk :), (congrArg Kept.image hk :)⟩

/-! SK-1, the tick grid, the process images and the service domain's objects -/

theorem Stays.part {α : Type} (g : Still → α) {o : Host.Outcome State Fault Refusal} {s : State} (h : Stays id o s) : Stays g o s := by
  cases o with
  | next t => exact congrArg g h
  | fault _ => trivial
  | refused _ => trivial
theorem Stays.eq {α : Type} {g : Still → α} {o : Host.Outcome State Fault Refusal} {s t : State} (h : Stays g o s) (ht : o = .next t) :
    g t.still = g s.still := by
  subst ht; exact h

/-- A row that is not one of `mayKernel` leaves SK-1 alone. -/
theorem exec_stays_sk {i : Instr} (h : mayKernel i = false) (s : State) : Stays Still.sk (exec i s) s := by
  cases i
  case registerWrite => exact .part Still.sk (still_execRegisterWrite ..)
  case winCtrlAttach => exact .part Still.sk (still_execWinCtrlAttach ..)
  case winCtrlDetach => exact .part Still.sk (still_execWinCtrlDetach ..)
  case detachComplete => exact .part Still.sk (still_execDetachComplete ..)
  case evStatusClear => exact .part Still.sk (still_execEvStatusClear ..)
  case evIndexWrite => exact .part Still.sk (still_execEvIndexWrite ..)
  case latTolWrite => exact .part Still.sk (still_execLatTolWrite ..)
  case mbDoorbell => exact .part Still.sk (still_execMbDoorbell ..)
  case wideSelWrite => exact .part Still.sk (still_execWideSelWrite ..)
  case wideCaptureDone => exact .part Still.sk (still_execWideCaptureDone ..)
  case wideD3Read => exact .part Still.sk (still_execWideD3Read ..)
  case slowReadStart => exact .part Still.sk (still_execSlowReadStart ..)
  case slowWritePost => exact .part Still.sk (still_execSlowWritePost ..)
  case slowAccessDone => exact still_sk_execSlowAccessDone ..
  case attach => exact .part Still.sk (still_execAttach ..)
  case sessionOpen => exact .part Still.sk (still_execSessionOpen ..)
  case sessionClose => exact .part Still.sk (still_execSessionClose ..)
  case lockAcquire => exact .part Still.sk (still_execLockAcquire ..)
  case lockRelease => exact .part Still.sk (still_execLockRelease ..)
  case eventSubscribe => exact .part Still.sk (still_execEventSubscribe ..)
  case eventRead => exact .part Still.sk (still_execEventRead ..)
  case statusGet => exact .part Still.sk (still_execStatusGet ..)
  case configBegin => exact .part Still.sk (still_execConfigBegin ..)
  case configChunk => exact .part Still.sk (still_execConfigChunk ..)
  case configCommit => exact still_sk_execConfigCommit ..
  case configAbort => exact .part Still.sk (still_execConfigAbort ..)
  case start => exact still_sk_execStart ..
  case stop => exact .part Still.sk (still_execStop ..)
  case endsChange => exact .part Still.sk (still_execEndsChange ..)
  case safeShutdown => exact still_sk_execSafeShutdown ..
  case valuePatch => exact .part Still.sk (still_execValuePatch ..)
  case loopMode => exact .part Still.sk (still_execLoopMode ..)
  case loopParam => exact .part Still.sk (still_execLoopParam ..)
  case imageRead => exact .part Still.sk (still_execImageRead ..)
  case recorderRead => exact .part Still.sk (still_execRecorderRead ..)
  case recorderClear => exact .part Still.sk (still_execRecorderClear ..)
  case flowStats => exact .part Still.sk (still_execFlowStats ..)
  case retainedRead => exact .part Still.sk (still_execRetainedRead ..)
  case bulkBoundary => exact .part Still.sk (still_execBulkBoundary ..)
  case dmaCompletion => exact .part Still.sk (still_execDmaCompletion ..)
  case dmaCompletionTimeout => exact .part Still.sk (still_execDmaCompletionTimeout ..)
  case hostLinkLost => exact .part Still.sk (still_execHostLinkLost ..)
  case linkGraceExpired => exact .part Still.sk (still_execLinkGraceExpired ..)
  case sessionIdleTimeout => exact .part Still.sk (still_execSessionIdleTimeout ..)
  case authLockoutEnd => exact .part Still.sk (still_execAuthLockoutEnd ..)
  case thlHello => exact .part Still.sk (still_execThlHello ..)
  case thlRegRead => exact .part Still.sk (still_execThlRegRead ..)
  case thlRegWrite => exact .part Still.sk (still_execThlRegWrite ..)
  case thlData => exact .part Still.sk (still_execThlData ..)
  case thlAck => exact .part Still.sk (still_execThlAck ..)
  case thlStalled => exact .part Still.sk (still_execThlStalled ..)
  case windowUp => exact still_sk_execWindowUp ..
  case clockQualification => exact .part Still.sk (still_execClockQualification ..)
  case thlBootstrapStart => exact .part Still.sk (still_execThlBootstrapStart ..)
  case rolesStep => exact .part Still.sk (still_execRolesStep ..)
  case roleWaitTimeout => exact .part Still.sk (still_execRoleWaitTimeout ..)
  case startupComplete => exact .part Still.sk (still_execStartupComplete ..)
  case startupStepFail => exact .part Still.sk (still_execStartupStepFail ..)
  case commitConfirm => exact .part Still.sk (still_execCommitConfirm ..)
  case commitConfirmTimeout => exact .part Still.sk (still_execCommitConfirmTimeout ..)
  case inputSwap => exact still_sk_execInputSwap ..
  case mx1Swap => exact still_sk_execMx1Swap ..
  case beWindowClose => exact .part Still.sk (still_execBeWindowClose ..)
  case outputCutoff => exact still_sk_execOutputCutoff ..
  case islandEdge => exact still_sk_execIslandEdge ..
  case edgeMarker => exact .part Still.sk (still_execEdgeMarker ..)
  case islandInputFrame => exact .part Still.sk (still_execIslandInputFrame ..)
  case islandWatchdogExpired => exact .part Still.sk (still_execIslandWatchdogExpired ..)
  case tokenRequest => exact .part Still.sk (still_execTokenRequest ..)
  case tokenRequestRetry => exact .part Still.sk (still_execTokenRequestRetry ..)
  case tokenReply => exact still_sk_execTokenReply ..
  case grantRecord => exact .part Still.sk (still_execGrantRecord ..)
  case releaseWord => exact .part Still.sk (still_execReleaseWord ..)
  case shotClockExpired => exact .part Still.sk (still_execShotClockExpired ..)
  case uncorrectableError => exact still_sk_execUncorrectableError ..
  case beNop => exact still_sk_execBeNop ..
  case beMov => exact still_sk_execBeMov ..
  case beMovi => exact still_sk_execBeMovi ..
  case beLd => exact still_sk_execBeLd ..
  case beSt => exact still_sk_execBeSt ..
  case beLda => exact still_sk_execBeLda ..
  case beIdxc => exact still_sk_execBeIdxc ..
  case beItpl => exact still_sk_execBeItpl ..
  case beAdd => exact still_sk_execBeAdd ..
  case beSub => exact still_sk_execBeSub ..
  case beAdds => exact still_sk_execBeAdds ..
  case beSubs => exact still_sk_execBeSubs ..
  case beMul => exact still_sk_execBeMul ..
  case beDiv => exact still_sk_execBeDiv ..
  case beMod => exact still_sk_execBeMod ..
  case beNeg => exact still_sk_execBeNeg ..
  case beAbs => exact still_sk_execBeAbs ..
  case beMin => exact still_sk_execBeMin ..
  case beMax => exact still_sk_execBeMax ..
  case beSqrt => exact still_sk_execBeSqrt ..
  case beCvt => exact still_sk_execBeCvt ..
  case beAnd => exact still_sk_execBeAnd ..
  case beOr => exact still_sk_execBeOr ..
  case beXor => exact still_sk_execBeXor ..
  case beNot => exact still_sk_execBeNot ..
  case beShl => exact still_sk_execBeShl ..
  case beShr => exact still_sk_execBeShr ..
  case beCeq => exact still_sk_execBeCeq ..
  case beCne => exact still_sk_execBeCne ..
  case beClt => exact still_sk_execBeClt ..
  case beCle => exact still_sk_execBeCle ..
  case beSel => exact still_sk_execBeSel ..
  case beBra => exact still_sk_execBeBra ..
  case beBrz => exact still_sk_execBeBrz ..
  case beBrnz => exact still_sk_execBeBrnz ..
  case beLoop => exact still_sk_execBeLoop ..
  case beEndl => exact still_sk_execBeEndl ..
  case beCallb => exact still_sk_execBeCallb ..
  case beRetb => exact still_sk_execBeRetb ..
  case beEnd => exact still_sk_execBeEnd ..
  case loopQbadExpired => exact still_sk_execLoopQbadExpired ..
  case loopFeExpired => exact still_sk_execLoopFeExpired ..
  case chainStaleExpired => exact still_sk_execChainStaleExpired ..
  case chainHoldExpired => exact still_sk_execChainHoldExpired ..
  case chainFadeEnd => exact still_sk_execChainFadeEnd ..
  case chainSettleEnd => exact still_sk_execChainSettleEnd ..
  case heartbeatWord => exact still_sk_execHeartbeatWord ..
  case beaconExtinguish => exact .part Still.sk (still_execBeaconExtinguish ..)
  case partnerFailureDeclared => exact .part Still.sk (still_execPartnerFailureDeclared ..)
  case pathFault => exact .part Still.sk (still_execPathFault ..)
  case takeoverTick => exact .part Still.sk (still_execTakeoverTick ..)
  case snapshotPiece => exact .part Still.sk (still_execSnapshotPiece ..)
  case snapshotDiscard => exact still_sk_execSnapshotDiscard ..
  case endsIntervalDue => exact .part Still.sk (still_execEndsIntervalDue ..)
  case endsDeferredStart => exact .part Still.sk (still_execEndsDeferredStart ..)
  case endsSwapEdge => exact .part Still.sk (still_execEndsSwapEdge ..)
  case selfCheckFail => exact .part Still.sk (still_execSelfCheckFail ..)
  case reintStart => exact .part Still.sk (still_execReintStart ..)
  case reintCopyClosed => exact still_sk_execReintCopyClosed ..
  case reintCopyTimeout => exact .part Still.sk (still_execReintCopyTimeout ..)
  case reintRetryDue => exact .part Still.sk (still_execReintRetryDue ..)
  case reintStandby => exact .part Still.sk (still_execReintStandby ..)
  case flowLaunch => exact .part Still.sk (still_execFlowLaunch ..)
  case flowFrameReceived => exact .part Still.sk (still_execFlowFrameReceived ..)
  case flowDown => exact still_sk_execFlowDown ..
  case udpbcDatagram => exact .part Still.sk (still_execUdpbcDatagram ..)
  case ptpSync => exact .part Still.sk (still_execPtpSync ..)
  case ptpAnnounce => exact .part Still.sk (still_execPtpAnnounce ..)
  case ptpDelayMessage => exact .part Still.sk (still_execPtpDelayMessage ..)
  case announceTimeout => exact .part Still.sk (still_execAnnounceTimeout ..)
  case holdoverExpired => exact .part Still.sk (still_execHoldoverExpired ..)
  case prpSupervisionSend => exact .part Still.sk (still_execPrpSupervisionSend ..)
  case arpIcmpFrame => exact .part Still.sk (still_execArpIcmpFrame ..)
  case phyLinkChange => exact .part Still.sk (still_execPhyLinkChange ..)
  case canFrameReceived => exact .part Still.sk (still_execCanFrameReceived ..)
  case canFrameTxDone => exact .part Still.sk (still_execCanFrameTxDone ..)
  case canError => exact .part Still.sk (still_execCanError ..)
  case canBusoffRecovered => exact .part Still.sk (still_execCanBusoffRecovered ..)
  case canSleepRequest => exact .part Still.sk (still_execCanSleepRequest ..)
  case canWakeRequest => exact .part Still.sk (still_execCanWakeRequest ..)
  case canRecoverRequest => exact .part Still.sk (still_execCanRecoverRequest ..)
  case canBusWake => exact .part Still.sk (still_execCanBusWake ..)
  case scRateDetected => exact .part Still.sk (still_execScRateDetected ..)
  case scNoTraffic => exact .part Still.sk (still_execScNoTraffic ..)
  case dioOverload => exact .part Still.sk (still_execDioOverload ..)
  case dioAutoRetry => exact .part Still.sk (still_execDioAutoRetry ..)
  case dioGroupTrip => exact .part Still.sk (still_execDioGroupTrip ..)
  case aiSupplyRetry => exact .part Still.sk (still_execAiSupplyRetry ..)
  case encoderZEdge => exact .part Still.sk (still_execEncoderZEdge ..)
  case rs422Sentence => exact .part Still.sk (still_execRs422Sentence ..)
  case rs422TxDone => exact .part Still.sk (still_execRs422TxDone ..)
  case tcxoFailure => exact .part Still.sk (still_execTcxoFailure ..)
  case rcFault => exact still_sk_execRcFault ..
  case rcQualified => exact .part Still.sk (still_execRcQualified ..)
  case rcQualTimeout => exact .part Still.sk (still_execRcQualTimeout ..)
  case tcxoReturn => exact .part Still.sk (still_execTcxoReturn ..)
  case voltageStepDone => exact .part Still.sk (still_execVoltageStepDone ..)
  case gateBusyTimeout => exact .part Still.sk (still_execGateBusyTimeout ..)
  case powerDwellExpired => exact .part Still.sk (still_execPowerDwellExpired ..)
  case clkoutSelWrite p outB d => exact still_sk_execClkoutSelWrite p outB d s
  case clkoutStatusClear p d => exact still_sk_execClkoutStatusClear p d s
  case recordArrival => exact .part Still.sk (still_execRecordArrival ..)
  case floodWindowEnd => exact .part Still.sk (still_execFloodWindowEnd ..)
  case optimeStep => exact .part Still.sk (still_execOptimeStep ..)
  case timeAnchorDue => exact .part Still.sk (still_execTimeAnchorDue ..)
  case retainPeriodDue => exact .part Still.sk (still_execRetainPeriodDue ..)
  case bankWriteDone => exact still_sk_execBankWriteDone ..
  case serviceDomainLost => exact .part Still.sk (still_execServiceDomainLost ..)
  case serviceDomainReturned => exact .part Still.sk (still_execServiceDomainReturned ..)
  case rtcTimeRead => exact .part Still.sk (still_execRtcTimeRead ..)
  case rtcDateRead => exact .part Still.sk (still_execRtcDateRead ..)
  case rtcCommit => exact still_sk_execRtcCommit ..
  case rtcStatusClear => exact .part Still.sk (still_execRtcStatusClear ..)
  case rtcAlarmWrite => exact still_sk_execRtcAlarmWrite ..
  case rtcTrimWrite => exact still_sk_execRtcTrimWrite ..
  case laneFeedLost => exact still_sk_execLaneFeedLost ..
  case laneFeedRestored => exact still_sk_execLaneFeedRestored ..
  case rideThroughEnd => exact still_sk_execRideThroughEnd ..
  case cartInserted => exact still_sk_execCartInserted ..
  case cartMeasNow => exact still_sk_execCartMeasNow ..
  case cartMeasDue => exact still_sk_execCartMeasDue ..
  case cartMeasDone => exact still_sk_execCartMeasDone ..
  case cartHour => exact still_sk_execCartHour ..
  case cartStatusClear => exact .part Still.sk (still_execCartStatusClear ..)
  case pnlShowWrite => exact still_sk_execPnlShowWrite ..
  case pnlLineWrite => exact .part Still.sk (still_execPnlLineWrite ..)
  case pnlDataWrite => exact still_sk_execPnlDataWrite ..
  case pnlCommit => exact still_sk_execPnlCommit ..
  case pnlStatusClear => exact .part Still.sk (still_execPnlStatusClear ..)
  case panelFrame => exact still_sk_execPanelFrame ..
  case panelPassDone => exact still_sk_execPanelPassDone ..
  case panelIdle => exact still_sk_execPanelIdle ..
  case encoderEdge => exact .part Still.sk (still_execEncoderEdge ..)
  case ssiFrameComplete => exact .part Still.sk (still_execSsiFrameComplete ..)
  case lockstepMismatch => exact .part Still.sk (still_execLockstepMismatch ..)
  case scrubberRead => exact still_sk_execScrubberRead ..
  case prpSupervisionFrame => exact .part Still.sk (still_execPrpSupervisionFrame ..)
  case prpSupervisionLost => exact .part Still.sk (still_execPrpSupervisionLost ..)
  case partnerBeaconLost => exact still_sk_execPartnerBeaconLost ..
  case analogueCalibrationDone => exact .part Still.sk (still_execAnalogueCalibrationDone ..)
  case bayEmptyRepeat => exact .part Still.sk (still_execBayEmptyRepeat ..)
  all_goals exact Bool.noConfusion (show true = false from h)

/-- A row that is not one of `mayTime` leaves the tick grid alone. -/
theorem exec_stays_grid {i : Instr} (h : mayTime i = false) (s : State) : Stays Still.grid (exec i s) s := by
  cases i
  case registerWrite => exact .part Still.grid (still_execRegisterWrite ..)
  case winCtrlAttach => exact .part Still.grid (still_execWinCtrlAttach ..)
  case winCtrlDetach => exact .part Still.grid (still_execWinCtrlDetach ..)
  case detachComplete => exact .part Still.grid (still_execDetachComplete ..)
  case evStatusClear => exact .part Still.grid (still_execEvStatusClear ..)
  case evIndexWrite => exact .part Still.grid (still_execEvIndexWrite ..)
  case latTolWrite => exact .part Still.grid (still_execLatTolWrite ..)
  case mbDoorbell => exact .part Still.grid (still_execMbDoorbell ..)
  case wideSelWrite => exact .part Still.grid (still_execWideSelWrite ..)
  case wideCaptureDone => exact .part Still.grid (still_execWideCaptureDone ..)
  case wideD3Read => exact .part Still.grid (still_execWideD3Read ..)
  case slowReadStart => exact .part Still.grid (still_execSlowReadStart ..)
  case slowWritePost => exact .part Still.grid (still_execSlowWritePost ..)
  case slowAccessDone => exact still_grid_execSlowAccessDone ..
  case attach => exact .part Still.grid (still_execAttach ..)
  case sessionOpen => exact .part Still.grid (still_execSessionOpen ..)
  case sessionClose => exact .part Still.grid (still_execSessionClose ..)
  case lockAcquire => exact .part Still.grid (still_execLockAcquire ..)
  case lockRelease => exact .part Still.grid (still_execLockRelease ..)
  case eventSubscribe => exact .part Still.grid (still_execEventSubscribe ..)
  case eventRead => exact .part Still.grid (still_execEventRead ..)
  case statusGet => exact .part Still.grid (still_execStatusGet ..)
  case configBegin => exact .part Still.grid (still_execConfigBegin ..)
  case configChunk => exact .part Still.grid (still_execConfigChunk ..)
  case configCommit => exact still_grid_execConfigCommit ..
  case configAbort => exact .part Still.grid (still_execConfigAbort ..)
  case start => exact still_grid_execStart ..
  case stop => exact .part Still.grid (still_execStop ..)
  case endsChange => exact .part Still.grid (still_execEndsChange ..)
  case safeShutdown => exact still_grid_execSafeShutdown ..
  case valuePatch => exact .part Still.grid (still_execValuePatch ..)
  case loopMode => exact .part Still.grid (still_execLoopMode ..)
  case loopParam => exact .part Still.grid (still_execLoopParam ..)
  case imageRead => exact .part Still.grid (still_execImageRead ..)
  case recorderRead => exact .part Still.grid (still_execRecorderRead ..)
  case recorderClear => exact .part Still.grid (still_execRecorderClear ..)
  case flowStats => exact .part Still.grid (still_execFlowStats ..)
  case retainedRead => exact .part Still.grid (still_execRetainedRead ..)
  case bulkBoundary => exact .part Still.grid (still_execBulkBoundary ..)
  case dmaCompletion => exact .part Still.grid (still_execDmaCompletion ..)
  case dmaCompletionTimeout => exact .part Still.grid (still_execDmaCompletionTimeout ..)
  case hostLinkLost => exact .part Still.grid (still_execHostLinkLost ..)
  case linkGraceExpired => exact .part Still.grid (still_execLinkGraceExpired ..)
  case sessionIdleTimeout => exact .part Still.grid (still_execSessionIdleTimeout ..)
  case authLockoutEnd => exact .part Still.grid (still_execAuthLockoutEnd ..)
  case thlHello => exact .part Still.grid (still_execThlHello ..)
  case thlRegRead => exact .part Still.grid (still_execThlRegRead ..)
  case thlRegWrite => exact .part Still.grid (still_execThlRegWrite ..)
  case thlData => exact .part Still.grid (still_execThlData ..)
  case thlAck => exact .part Still.grid (still_execThlAck ..)
  case thlStalled => exact .part Still.grid (still_execThlStalled ..)
  case logicPowerGood => exact still_grid_execLogicPowerGood ..
  case windowUp => exact still_grid_execWindowUp ..
  case clockQualification => exact .part Still.grid (still_execClockQualification ..)
  case thlBootstrapStart => exact .part Still.grid (still_execThlBootstrapStart ..)
  case rolesStep => exact .part Still.grid (still_execRolesStep ..)
  case roleWaitTimeout => exact .part Still.grid (still_execRoleWaitTimeout ..)
  case startupComplete => exact .part Still.grid (still_execStartupComplete ..)
  case startupStepFail => exact .part Still.grid (still_execStartupStepFail ..)
  case commitConfirm => exact .part Still.grid (still_execCommitConfirm ..)
  case commitConfirmTimeout => exact .part Still.grid (still_execCommitConfirmTimeout ..)
  case inputSwap => exact still_grid_execInputSwap ..
  case mx1Swap => exact still_grid_execMx1Swap ..
  case beWindowClose => exact .part Still.grid (still_execBeWindowClose ..)
  case outputCutoff => exact still_grid_execOutputCutoff ..
  case islandEdge => exact still_grid_execIslandEdge ..
  case edgeMarker => exact .part Still.grid (still_execEdgeMarker ..)
  case islandInputFrame => exact .part Still.grid (still_execIslandInputFrame ..)
  case islandOutputFrame => exact still_grid_execIslandOutputFrame ..
  case islandWatchdogExpired => exact .part Still.grid (still_execIslandWatchdogExpired ..)
  case tokenRequest => exact .part Still.grid (still_execTokenRequest ..)
  case tokenRequestRetry => exact .part Still.grid (still_execTokenRequestRetry ..)
  case tokenReply => exact still_grid_execTokenReply ..
  case grantRecord => exact .part Still.grid (still_execGrantRecord ..)
  case releaseWord => exact .part Still.grid (still_execReleaseWord ..)
  case shotClockExpired => exact .part Still.grid (still_execShotClockExpired ..)
  case uncorrectableError => exact still_grid_execUncorrectableError ..
  case beNop => exact still_grid_execBeNop ..
  case beMov => exact still_grid_execBeMov ..
  case beMovi => exact still_grid_execBeMovi ..
  case beLd => exact still_grid_execBeLd ..
  case beSt => exact still_grid_execBeSt ..
  case beLda => exact still_grid_execBeLda ..
  case beIdxc => exact still_grid_execBeIdxc ..
  case beItpl => exact still_grid_execBeItpl ..
  case beAdd => exact still_grid_execBeAdd ..
  case beSub => exact still_grid_execBeSub ..
  case beAdds => exact still_grid_execBeAdds ..
  case beSubs => exact still_grid_execBeSubs ..
  case beMul => exact still_grid_execBeMul ..
  case beDiv => exact still_grid_execBeDiv ..
  case beMod => exact still_grid_execBeMod ..
  case beNeg => exact still_grid_execBeNeg ..
  case beAbs => exact still_grid_execBeAbs ..
  case beMin => exact still_grid_execBeMin ..
  case beMax => exact still_grid_execBeMax ..
  case beSqrt => exact still_grid_execBeSqrt ..
  case beCvt => exact still_grid_execBeCvt ..
  case beAnd => exact still_grid_execBeAnd ..
  case beOr => exact still_grid_execBeOr ..
  case beXor => exact still_grid_execBeXor ..
  case beNot => exact still_grid_execBeNot ..
  case beShl => exact still_grid_execBeShl ..
  case beShr => exact still_grid_execBeShr ..
  case beCeq => exact still_grid_execBeCeq ..
  case beCne => exact still_grid_execBeCne ..
  case beClt => exact still_grid_execBeClt ..
  case beCle => exact still_grid_execBeCle ..
  case beSel => exact still_grid_execBeSel ..
  case beBra => exact still_grid_execBeBra ..
  case beBrz => exact still_grid_execBeBrz ..
  case beBrnz => exact still_grid_execBeBrnz ..
  case beLoop => exact still_grid_execBeLoop ..
  case beEndl => exact still_grid_execBeEndl ..
  case beCallb => exact still_grid_execBeCallb ..
  case beRetb => exact still_grid_execBeRetb ..
  case beEnd => exact still_grid_execBeEnd ..
  case loopQbadExpired => exact still_grid_execLoopQbadExpired ..
  case loopFeExpired => exact still_grid_execLoopFeExpired ..
  case chainStaleExpired => exact still_grid_execChainStaleExpired ..
  case chainHoldExpired => exact still_grid_execChainHoldExpired ..
  case chainFadeEnd => exact still_grid_execChainFadeEnd ..
  case chainSettleEnd => exact still_grid_execChainSettleEnd ..
  case heartbeatWord => exact still_grid_execHeartbeatWord ..
  case beaconExtinguish => exact .part Still.grid (still_execBeaconExtinguish ..)
  case partnerFailureDeclared => exact .part Still.grid (still_execPartnerFailureDeclared ..)
  case pathFault => exact .part Still.grid (still_execPathFault ..)
  case takeoverTick => exact .part Still.grid (still_execTakeoverTick ..)
  case snapshotPiece => exact .part Still.grid (still_execSnapshotPiece ..)
  case snapshotDiscard => exact still_grid_execSnapshotDiscard ..
  case endsIntervalDue => exact .part Still.grid (still_execEndsIntervalDue ..)
  case endsDeferredStart => exact .part Still.grid (still_execEndsDeferredStart ..)
  case endsSwapEdge => exact .part Still.grid (still_execEndsSwapEdge ..)
  case selfCheckFail => exact .part Still.grid (still_execSelfCheckFail ..)
  case reintStart => exact .part Still.grid (still_execReintStart ..)
  case reintCopyClosed => exact still_grid_execReintCopyClosed ..
  case reintCopyTimeout => exact .part Still.grid (still_execReintCopyTimeout ..)
  case reintRetryDue => exact .part Still.grid (still_execReintRetryDue ..)
  case reintStandby => exact .part Still.grid (still_execReintStandby ..)
  case flowLaunch => exact .part Still.grid (still_execFlowLaunch ..)
  case flowFrameReceived => exact .part Still.grid (still_execFlowFrameReceived ..)
  case flowDown => exact still_grid_execFlowDown ..
  case udpbcDatagram => exact .part Still.grid (still_execUdpbcDatagram ..)
  case ptpSync => exact .part Still.grid (still_execPtpSync ..)
  case ptpAnnounce => exact .part Still.grid (still_execPtpAnnounce ..)
  case ptpDelayMessage => exact .part Still.grid (still_execPtpDelayMessage ..)
  case announceTimeout => exact .part Still.grid (still_execAnnounceTimeout ..)
  case holdoverExpired => exact .part Still.grid (still_execHoldoverExpired ..)
  case prpSupervisionSend => exact .part Still.grid (still_execPrpSupervisionSend ..)
  case arpIcmpFrame => exact .part Still.grid (still_execArpIcmpFrame ..)
  case phyLinkChange => exact .part Still.grid (still_execPhyLinkChange ..)
  case canFrameReceived => exact .part Still.grid (still_execCanFrameReceived ..)
  case canFrameTxDone => exact .part Still.grid (still_execCanFrameTxDone ..)
  case canError => exact .part Still.grid (still_execCanError ..)
  case canBusoffRecovered => exact .part Still.grid (still_execCanBusoffRecovered ..)
  case canSleepRequest => exact .part Still.grid (still_execCanSleepRequest ..)
  case canWakeRequest => exact .part Still.grid (still_execCanWakeRequest ..)
  case canRecoverRequest => exact .part Still.grid (still_execCanRecoverRequest ..)
  case canBusWake => exact .part Still.grid (still_execCanBusWake ..)
  case scRateDetected => exact .part Still.grid (still_execScRateDetected ..)
  case scNoTraffic => exact .part Still.grid (still_execScNoTraffic ..)
  case dioOverload => exact .part Still.grid (still_execDioOverload ..)
  case dioAutoRetry => exact .part Still.grid (still_execDioAutoRetry ..)
  case dioGroupTrip => exact .part Still.grid (still_execDioGroupTrip ..)
  case fieldSupplyLow => exact still_grid_execFieldSupplyLow ..
  case fieldSupplyRestored => exact still_grid_execFieldSupplyRestored ..
  case aiSupplyRetry => exact .part Still.grid (still_execAiSupplyRetry ..)
  case encoderZEdge => exact .part Still.grid (still_execEncoderZEdge ..)
  case rs422Sentence => exact .part Still.grid (still_execRs422Sentence ..)
  case rs422TxDone => exact .part Still.grid (still_execRs422TxDone ..)
  case skCycleStart => exact still_grid_execSkCycleStart ..
  case skCycleEnd => exact still_grid_execSkCycleEnd ..
  case skKernelFault => exact still_grid_execSkKernelFault ..
  case skSelftestDone => exact still_grid_execSkSelftestDone ..
  case skImageForwarded => exact still_grid_execSkImageForwarded ..
  case skVerifyDone => exact still_grid_execSkVerifyDone ..
  case skPeriodicSelftest => exact still_grid_execSkPeriodicSelftest ..
  case testSourceOverload => exact still_grid_execTestSourceOverload ..
  case testSourceRetry => exact still_grid_execTestSourceRetry ..
  case discTimerExpired => exact still_grid_execDiscTimerExpired ..
  case proofTestExpired => exact still_grid_execProofTestExpired ..
  case proofIntervalReached => exact still_grid_execProofIntervalReached ..
  case offPulse o y mv => exact still_grid_execOffPulse o y mv s
  case laneWatchdogExpired => exact still_grid_execLaneWatchdogExpired ..
  case connTimeExpired => exact still_grid_execConnTimeExpired ..
  case tcxoFailure => exact .part Still.grid (still_execTcxoFailure ..)
  case rcFault => exact still_grid_execRcFault ..
  case rcQualified => exact .part Still.grid (still_execRcQualified ..)
  case rcQualTimeout => exact .part Still.grid (still_execRcQualTimeout ..)
  case tcxoReturn => exact .part Still.grid (still_execTcxoReturn ..)
  case voltageStepDone => exact .part Still.grid (still_execVoltageStepDone ..)
  case gateBusyTimeout => exact .part Still.grid (still_execGateBusyTimeout ..)
  case powerDwellExpired => exact .part Still.grid (still_execPowerDwellExpired ..)
  case darkWake => exact still_grid_execDarkWake ..
  case clkoutSelWrite p outB d => exact still_grid_execClkoutSelWrite p outB d s
  case clkoutStatusClear p d => exact still_grid_execClkoutStatusClear p d s
  case recordArrival => exact .part Still.grid (still_execRecordArrival ..)
  case floodWindowEnd => exact .part Still.grid (still_execFloodWindowEnd ..)
  case optimeStep => exact .part Still.grid (still_execOptimeStep ..)
  case timeAnchorDue => exact .part Still.grid (still_execTimeAnchorDue ..)
  case retainPeriodDue => exact .part Still.grid (still_execRetainPeriodDue ..)
  case bankWriteDone => exact still_grid_execBankWriteDone ..
  case serviceDomainLost => exact .part Still.grid (still_execServiceDomainLost ..)
  case serviceDomainReturned => exact .part Still.grid (still_execServiceDomainReturned ..)
  case rtcTimeRead => exact .part Still.grid (still_execRtcTimeRead ..)
  case rtcDateRead => exact .part Still.grid (still_execRtcDateRead ..)
  case rtcCommit => exact still_grid_execRtcCommit ..
  case rtcStatusClear => exact .part Still.grid (still_execRtcStatusClear ..)
  case rtcAlarmWrite => exact still_grid_execRtcAlarmWrite ..
  case rtcTrimWrite => exact still_grid_execRtcTrimWrite ..
  case rtcSecond => exact still_grid_execRtcSecond ..
  case laneFeedLost => exact still_grid_execLaneFeedLost ..
  case laneFeedRestored => exact still_grid_execLaneFeedRestored ..
  case powerFailure => exact still_grid_execPowerFailure ..
  case rideThroughEnd => exact still_grid_execRideThroughEnd ..
  case holdupOff => exact still_grid_execHoldupOff ..
  case cartInserted => exact still_grid_execCartInserted ..
  case cartRemoved => exact still_grid_execCartRemoved ..
  case cartMeasNow => exact still_grid_execCartMeasNow ..
  case cartMeasDue => exact still_grid_execCartMeasDue ..
  case cartMeasDone => exact still_grid_execCartMeasDone ..
  case cartHour => exact still_grid_execCartHour ..
  case cartStatusClear => exact .part Still.grid (still_execCartStatusClear ..)
  case pnlShowWrite => exact still_grid_execPnlShowWrite ..
  case pnlLineWrite => exact .part Still.grid (still_execPnlLineWrite ..)
  case pnlDataWrite => exact still_grid_execPnlDataWrite ..
  case pnlCommit => exact still_grid_execPnlCommit ..
  case pnlStatusClear => exact .part Still.grid (still_execPnlStatusClear ..)
  case panelFrame => exact still_grid_execPanelFrame ..
  case panelPassDone => exact still_grid_execPanelPassDone ..
  case panelIdle => exact still_grid_execPanelIdle ..
  case panelKey => exact still_grid_execPanelKey ..
  case safetyInputSample => exact still_grid_execSafetyInputSample ..
  case testSourcePulse => exact still_grid_execTestSourcePulse ..
  case safetyOutputReadback => exact still_grid_execSafetyOutputReadback ..
  case encoderEdge => exact .part Still.grid (still_execEncoderEdge ..)
  case ssiFrameComplete => exact .part Still.grid (still_execSsiFrameComplete ..)
  case lockstepMismatch => exact .part Still.grid (still_execLockstepMismatch ..)
  case scrubberRead => exact still_grid_execScrubberRead ..
  case prpSupervisionFrame => exact .part Still.grid (still_execPrpSupervisionFrame ..)
  case prpSupervisionLost => exact .part Still.grid (still_execPrpSupervisionLost ..)
  case partnerBeaconLost => exact still_grid_execPartnerBeaconLost ..
  case analogueCalibrationDone => exact .part Still.grid (still_execAnalogueCalibrationDone ..)
  case bayEmptyRepeat => exact .part Still.grid (still_execBayEmptyRepeat ..)
  all_goals exact Bool.noConfusion (show true = false from h)

/-- A row that is not one of `mayImage` leaves the process images alone. -/
theorem exec_stays_imgs {i : Instr} (h : mayImage i = false) (s : State) : Stays Still.imgs (exec i s) s := by
  cases i
  case registerWrite => exact .part Still.imgs (still_execRegisterWrite ..)
  case winCtrlAttach => exact .part Still.imgs (still_execWinCtrlAttach ..)
  case winCtrlDetach => exact .part Still.imgs (still_execWinCtrlDetach ..)
  case detachComplete => exact .part Still.imgs (still_execDetachComplete ..)
  case evStatusClear => exact .part Still.imgs (still_execEvStatusClear ..)
  case evIndexWrite => exact .part Still.imgs (still_execEvIndexWrite ..)
  case latTolWrite => exact .part Still.imgs (still_execLatTolWrite ..)
  case mbDoorbell => exact .part Still.imgs (still_execMbDoorbell ..)
  case wideSelWrite => exact .part Still.imgs (still_execWideSelWrite ..)
  case wideCaptureDone => exact .part Still.imgs (still_execWideCaptureDone ..)
  case wideD3Read => exact .part Still.imgs (still_execWideD3Read ..)
  case slowReadStart => exact .part Still.imgs (still_execSlowReadStart ..)
  case slowWritePost => exact .part Still.imgs (still_execSlowWritePost ..)
  case slowAccessDone => exact still_imgs_execSlowAccessDone ..
  case attach => exact .part Still.imgs (still_execAttach ..)
  case sessionOpen => exact .part Still.imgs (still_execSessionOpen ..)
  case sessionClose => exact .part Still.imgs (still_execSessionClose ..)
  case lockAcquire => exact .part Still.imgs (still_execLockAcquire ..)
  case lockRelease => exact .part Still.imgs (still_execLockRelease ..)
  case eventSubscribe => exact .part Still.imgs (still_execEventSubscribe ..)
  case eventRead => exact .part Still.imgs (still_execEventRead ..)
  case statusGet => exact .part Still.imgs (still_execStatusGet ..)
  case configBegin => exact .part Still.imgs (still_execConfigBegin ..)
  case configChunk => exact .part Still.imgs (still_execConfigChunk ..)
  case configCommit => exact still_imgs_execConfigCommit ..
  case configAbort => exact .part Still.imgs (still_execConfigAbort ..)
  case stop => exact .part Still.imgs (still_execStop ..)
  case endsChange => exact .part Still.imgs (still_execEndsChange ..)
  case valuePatch => exact .part Still.imgs (still_execValuePatch ..)
  case loopMode => exact .part Still.imgs (still_execLoopMode ..)
  case loopParam => exact .part Still.imgs (still_execLoopParam ..)
  case imageRead => exact .part Still.imgs (still_execImageRead ..)
  case recorderRead => exact .part Still.imgs (still_execRecorderRead ..)
  case recorderClear => exact .part Still.imgs (still_execRecorderClear ..)
  case flowStats => exact .part Still.imgs (still_execFlowStats ..)
  case retainedRead => exact .part Still.imgs (still_execRetainedRead ..)
  case bulkBoundary => exact .part Still.imgs (still_execBulkBoundary ..)
  case dmaCompletion => exact .part Still.imgs (still_execDmaCompletion ..)
  case dmaCompletionTimeout => exact .part Still.imgs (still_execDmaCompletionTimeout ..)
  case hostLinkLost => exact .part Still.imgs (still_execHostLinkLost ..)
  case linkGraceExpired => exact .part Still.imgs (still_execLinkGraceExpired ..)
  case sessionIdleTimeout => exact .part Still.imgs (still_execSessionIdleTimeout ..)
  case authLockoutEnd => exact .part Still.imgs (still_execAuthLockoutEnd ..)
  case thlHello => exact .part Still.imgs (still_execThlHello ..)
  case thlRegRead => exact .part Still.imgs (still_execThlRegRead ..)
  case thlRegWrite => exact .part Still.imgs (still_execThlRegWrite ..)
  case thlData => exact .part Still.imgs (still_execThlData ..)
  case thlAck => exact .part Still.imgs (still_execThlAck ..)
  case thlStalled => exact .part Still.imgs (still_execThlStalled ..)
  case windowUp => exact .part Still.imgs (still_execWindowUp ..)
  case clockQualification => exact .part Still.imgs (still_execClockQualification ..)
  case thlBootstrapStart => exact .part Still.imgs (still_execThlBootstrapStart ..)
  case rolesStep => exact .part Still.imgs (still_execRolesStep ..)
  case roleWaitTimeout => exact .part Still.imgs (still_execRoleWaitTimeout ..)
  case startupComplete => exact .part Still.imgs (still_execStartupComplete ..)
  case startupStepFail => exact .part Still.imgs (still_execStartupStepFail ..)
  case tickEdge => exact still_imgs_execTickEdge ..
  case commitConfirm => exact .part Still.imgs (still_execCommitConfirm ..)
  case commitConfirmTimeout => exact .part Still.imgs (still_execCommitConfirmTimeout ..)
  case beWindowClose => exact .part Still.imgs (still_execBeWindowClose ..)
  case islandEdge => exact still_imgs_execIslandEdge ..
  case edgeMarker => exact .part Still.imgs (still_execEdgeMarker ..)
  case islandInputFrame => exact .part Still.imgs (still_execIslandInputFrame ..)
  case islandOutputFrame => exact still_imgs_execIslandOutputFrame ..
  case islandWatchdogExpired => exact .part Still.imgs (still_execIslandWatchdogExpired ..)
  case tokenRequest => exact .part Still.imgs (still_execTokenRequest ..)
  case tokenRequestRetry => exact .part Still.imgs (still_execTokenRequestRetry ..)
  case grantRecord => exact .part Still.imgs (still_execGrantRecord ..)
  case releaseWord => exact .part Still.imgs (still_execReleaseWord ..)
  case shotClockExpired => exact .part Still.imgs (still_execShotClockExpired ..)
  case beaconExtinguish => exact .part Still.imgs (still_execBeaconExtinguish ..)
  case partnerFailureDeclared => exact .part Still.imgs (still_execPartnerFailureDeclared ..)
  case pathFault => exact .part Still.imgs (still_execPathFault ..)
  case takeoverTick => exact .part Still.imgs (still_execTakeoverTick ..)
  case snapshotPiece => exact .part Still.imgs (still_execSnapshotPiece ..)
  case endsIntervalDue => exact .part Still.imgs (still_execEndsIntervalDue ..)
  case endsDeferredStart => exact .part Still.imgs (still_execEndsDeferredStart ..)
  case endsSwapEdge => exact .part Still.imgs (still_execEndsSwapEdge ..)
  case selfCheckFail => exact .part Still.imgs (still_execSelfCheckFail ..)
  case reintStart => exact .part Still.imgs (still_execReintStart ..)
  case reintCopyTimeout => exact .part Still.imgs (still_execReintCopyTimeout ..)
  case reintRetryDue => exact .part Still.imgs (still_execReintRetryDue ..)
  case reintStandby => exact .part Still.imgs (still_execReintStandby ..)
  case flowLaunch => exact .part Still.imgs (still_execFlowLaunch ..)
  case flowFrameReceived => exact .part Still.imgs (still_execFlowFrameReceived ..)
  case udpbcDatagram => exact .part Still.imgs (still_execUdpbcDatagram ..)
  case ptpSync => exact .part Still.imgs (still_execPtpSync ..)
  case ptpAnnounce => exact .part Still.imgs (still_execPtpAnnounce ..)
  case ptpDelayMessage => exact .part Still.imgs (still_execPtpDelayMessage ..)
  case announceTimeout => exact .part Still.imgs (still_execAnnounceTimeout ..)
  case holdoverExpired => exact .part Still.imgs (still_execHoldoverExpired ..)
  case prpSupervisionSend => exact .part Still.imgs (still_execPrpSupervisionSend ..)
  case arpIcmpFrame => exact .part Still.imgs (still_execArpIcmpFrame ..)
  case phyLinkChange => exact .part Still.imgs (still_execPhyLinkChange ..)
  case canFrameReceived => exact .part Still.imgs (still_execCanFrameReceived ..)
  case canFrameTxDone => exact .part Still.imgs (still_execCanFrameTxDone ..)
  case canError => exact .part Still.imgs (still_execCanError ..)
  case canBusoffRecovered => exact .part Still.imgs (still_execCanBusoffRecovered ..)
  case canSleepRequest => exact .part Still.imgs (still_execCanSleepRequest ..)
  case canWakeRequest => exact .part Still.imgs (still_execCanWakeRequest ..)
  case canRecoverRequest => exact .part Still.imgs (still_execCanRecoverRequest ..)
  case canBusWake => exact .part Still.imgs (still_execCanBusWake ..)
  case scRateDetected => exact .part Still.imgs (still_execScRateDetected ..)
  case scNoTraffic => exact .part Still.imgs (still_execScNoTraffic ..)
  case dioOverload => exact .part Still.imgs (still_execDioOverload ..)
  case dioAutoRetry => exact .part Still.imgs (still_execDioAutoRetry ..)
  case dioGroupTrip => exact .part Still.imgs (still_execDioGroupTrip ..)
  case fieldSupplyLow => exact still_imgs_execFieldSupplyLow ..
  case fieldSupplyRestored => exact still_imgs_execFieldSupplyRestored ..
  case aiSupplyRetry => exact .part Still.imgs (still_execAiSupplyRetry ..)
  case encoderZEdge => exact .part Still.imgs (still_execEncoderZEdge ..)
  case rs422Sentence => exact .part Still.imgs (still_execRs422Sentence ..)
  case rs422TxDone => exact .part Still.imgs (still_execRs422TxDone ..)
  case skCycleStart => exact still_imgs_execSkCycleStart ..
  case skCycleEnd => exact still_imgs_execSkCycleEnd ..
  case skKernelFault => exact still_imgs_execSkKernelFault ..
  case skSelftestDone => exact still_imgs_execSkSelftestDone ..
  case skImageForwarded => exact still_imgs_execSkImageForwarded ..
  case skVerifyDone => exact still_imgs_execSkVerifyDone ..
  case skPeriodicSelftest => exact still_imgs_execSkPeriodicSelftest ..
  case testSourceOverload => exact still_imgs_execTestSourceOverload ..
  case testSourceRetry => exact still_imgs_execTestSourceRetry ..
  case discTimerExpired => exact still_imgs_execDiscTimerExpired ..
  case proofTestExpired => exact still_imgs_execProofTestExpired ..
  case proofIntervalReached => exact still_imgs_execProofIntervalReached ..
  case offPulse o y mv => exact still_imgs_execOffPulse o y mv s
  case laneWatchdogExpired => exact still_imgs_execLaneWatchdogExpired ..
  case connTimeExpired => exact still_imgs_execConnTimeExpired ..
  case tcxoFailure => exact .part Still.imgs (still_execTcxoFailure ..)
  case rcFault => exact .part Still.imgs (still_execRcFault ..)
  case rcQualified => exact .part Still.imgs (still_execRcQualified ..)
  case rcQualTimeout => exact .part Still.imgs (still_execRcQualTimeout ..)
  case tcxoReturn => exact .part Still.imgs (still_execTcxoReturn ..)
  case voltageStepDone => exact .part Still.imgs (still_execVoltageStepDone ..)
  case gateBusyTimeout => exact .part Still.imgs (still_execGateBusyTimeout ..)
  case powerDwellExpired => exact .part Still.imgs (still_execPowerDwellExpired ..)
  case darkWake => exact still_imgs_execDarkWake ..
  case clkoutSelWrite p outB d => exact still_imgs_execClkoutSelWrite p outB d s
  case clkoutStatusClear p d => exact still_imgs_execClkoutStatusClear p d s
  case recordArrival => exact .part Still.imgs (still_execRecordArrival ..)
  case floodWindowEnd => exact .part Still.imgs (still_execFloodWindowEnd ..)
  case optimeStep => exact .part Still.imgs (still_execOptimeStep ..)
  case timeAnchorDue => exact .part Still.imgs (still_execTimeAnchorDue ..)
  case retainPeriodDue => exact .part Still.imgs (still_execRetainPeriodDue ..)
  case serviceDomainLost => exact .part Still.imgs (still_execServiceDomainLost ..)
  case serviceDomainReturned => exact .part Still.imgs (still_execServiceDomainReturned ..)
  case rtcTimeRead => exact .part Still.imgs (still_execRtcTimeRead ..)
  case rtcDateRead => exact .part Still.imgs (still_execRtcDateRead ..)
  case rtcCommit => exact still_imgs_execRtcCommit ..
  case rtcStatusClear => exact .part Still.imgs (still_execRtcStatusClear ..)
  case rtcAlarmWrite => exact still_imgs_execRtcAlarmWrite ..
  case rtcTrimWrite => exact still_imgs_execRtcTrimWrite ..
  case rtcSecond => exact still_imgs_execRtcSecond ..
  case cartInserted => exact still_imgs_execCartInserted ..
  case cartMeasNow => exact still_imgs_execCartMeasNow ..
  case cartMeasDue => exact still_imgs_execCartMeasDue ..
  case cartMeasDone => exact still_imgs_execCartMeasDone ..
  case cartHour => exact still_imgs_execCartHour ..
  case cartStatusClear => exact .part Still.imgs (still_execCartStatusClear ..)
  case pnlShowWrite => exact still_imgs_execPnlShowWrite ..
  case pnlLineWrite => exact .part Still.imgs (still_execPnlLineWrite ..)
  case pnlDataWrite => exact still_imgs_execPnlDataWrite ..
  case pnlCommit => exact still_imgs_execPnlCommit ..
  case pnlStatusClear => exact .part Still.imgs (still_execPnlStatusClear ..)
  case panelFrame => exact still_imgs_execPanelFrame ..
  case panelPassDone => exact still_imgs_execPanelPassDone ..
  case panelIdle => exact still_imgs_execPanelIdle ..
  case panelKey => exact still_imgs_execPanelKey ..
  case safetyInputSample => exact still_imgs_execSafetyInputSample ..
  case testSourcePulse => exact still_imgs_execTestSourcePulse ..
  case safetyOutputReadback => exact still_imgs_execSafetyOutputReadback ..
  case encoderEdge => exact .part Still.imgs (still_execEncoderEdge ..)
  case ssiFrameComplete => exact .part Still.imgs (still_execSsiFrameComplete ..)
  case lockstepMismatch => exact .part Still.imgs (still_execLockstepMismatch ..)
  case prpSupervisionFrame => exact .part Still.imgs (still_execPrpSupervisionFrame ..)
  case prpSupervisionLost => exact .part Still.imgs (still_execPrpSupervisionLost ..)
  case analogueCalibrationDone => exact .part Still.imgs (still_execAnalogueCalibrationDone ..)
  case bayEmptyRepeat => exact .part Still.imgs (still_execBayEmptyRepeat ..)
  all_goals exact Bool.noConfusion (show true = false from h)

/-- A row that is not one of `mayService` leaves the service domain's objects alone. -/
theorem exec_stays_svc {i : Instr} (h : mayService i = false) (s : State) : Stays Still.svc (exec i s) s := by
  cases i
  case registerWrite => exact .part Still.svc (still_execRegisterWrite ..)
  case winCtrlAttach => exact .part Still.svc (still_execWinCtrlAttach ..)
  case winCtrlDetach => exact .part Still.svc (still_execWinCtrlDetach ..)
  case detachComplete => exact .part Still.svc (still_execDetachComplete ..)
  case evStatusClear => exact .part Still.svc (still_execEvStatusClear ..)
  case evIndexWrite => exact .part Still.svc (still_execEvIndexWrite ..)
  case latTolWrite => exact .part Still.svc (still_execLatTolWrite ..)
  case mbDoorbell => exact .part Still.svc (still_execMbDoorbell ..)
  case wideSelWrite => exact .part Still.svc (still_execWideSelWrite ..)
  case wideCaptureDone => exact .part Still.svc (still_execWideCaptureDone ..)
  case wideD3Read => exact .part Still.svc (still_execWideD3Read ..)
  case slowReadStart => exact .part Still.svc (still_execSlowReadStart ..)
  case slowWritePost => exact .part Still.svc (still_execSlowWritePost ..)
  case attach => exact .part Still.svc (still_execAttach ..)
  case sessionOpen => exact .part Still.svc (still_execSessionOpen ..)
  case sessionClose => exact .part Still.svc (still_execSessionClose ..)
  case lockAcquire => exact .part Still.svc (still_execLockAcquire ..)
  case lockRelease => exact .part Still.svc (still_execLockRelease ..)
  case eventSubscribe => exact .part Still.svc (still_execEventSubscribe ..)
  case eventRead => exact .part Still.svc (still_execEventRead ..)
  case statusGet => exact .part Still.svc (still_execStatusGet ..)
  case configBegin => exact .part Still.svc (still_execConfigBegin ..)
  case configChunk => exact .part Still.svc (still_execConfigChunk ..)
  case configCommit => exact still_svc_execConfigCommit ..
  case configAbort => exact .part Still.svc (still_execConfigAbort ..)
  case stop => exact .part Still.svc (still_execStop ..)
  case endsChange => exact .part Still.svc (still_execEndsChange ..)
  case valuePatch => exact .part Still.svc (still_execValuePatch ..)
  case loopMode => exact .part Still.svc (still_execLoopMode ..)
  case loopParam => exact .part Still.svc (still_execLoopParam ..)
  case imageRead => exact .part Still.svc (still_execImageRead ..)
  case recorderRead => exact .part Still.svc (still_execRecorderRead ..)
  case recorderClear => exact .part Still.svc (still_execRecorderClear ..)
  case flowStats => exact .part Still.svc (still_execFlowStats ..)
  case retainedRead => exact .part Still.svc (still_execRetainedRead ..)
  case bulkBoundary => exact .part Still.svc (still_execBulkBoundary ..)
  case dmaCompletion => exact .part Still.svc (still_execDmaCompletion ..)
  case dmaCompletionTimeout => exact .part Still.svc (still_execDmaCompletionTimeout ..)
  case hostLinkLost => exact .part Still.svc (still_execHostLinkLost ..)
  case linkGraceExpired => exact .part Still.svc (still_execLinkGraceExpired ..)
  case sessionIdleTimeout => exact .part Still.svc (still_execSessionIdleTimeout ..)
  case authLockoutEnd => exact .part Still.svc (still_execAuthLockoutEnd ..)
  case thlHello => exact .part Still.svc (still_execThlHello ..)
  case thlRegRead => exact .part Still.svc (still_execThlRegRead ..)
  case thlRegWrite => exact .part Still.svc (still_execThlRegWrite ..)
  case thlData => exact .part Still.svc (still_execThlData ..)
  case thlAck => exact .part Still.svc (still_execThlAck ..)
  case thlStalled => exact .part Still.svc (still_execThlStalled ..)
  case windowUp => exact still_svc_execWindowUp ..
  case clockQualification => exact .part Still.svc (still_execClockQualification ..)
  case thlBootstrapStart => exact .part Still.svc (still_execThlBootstrapStart ..)
  case rolesStep => exact .part Still.svc (still_execRolesStep ..)
  case roleWaitTimeout => exact .part Still.svc (still_execRoleWaitTimeout ..)
  case startupComplete => exact .part Still.svc (still_execStartupComplete ..)
  case startupStepFail => exact .part Still.svc (still_execStartupStepFail ..)
  case tickEdge => exact still_svc_execTickEdge ..
  case commitConfirm => exact .part Still.svc (still_execCommitConfirm ..)
  case commitConfirmTimeout => exact .part Still.svc (still_execCommitConfirmTimeout ..)
  case inputSwap => exact still_svc_execInputSwap ..
  case mx1Swap => exact still_svc_execMx1Swap ..
  case beWindowClose => exact .part Still.svc (still_execBeWindowClose ..)
  case edgeMarker => exact .part Still.svc (still_execEdgeMarker ..)
  case islandInputFrame => exact .part Still.svc (still_execIslandInputFrame ..)
  case islandOutputFrame => exact still_svc_execIslandOutputFrame ..
  case islandWatchdogExpired => exact .part Still.svc (still_execIslandWatchdogExpired ..)
  case tokenRequest => exact .part Still.svc (still_execTokenRequest ..)
  case tokenRequestRetry => exact .part Still.svc (still_execTokenRequestRetry ..)
  case tokenReply => exact still_svc_execTokenReply ..
  case grantRecord => exact .part Still.svc (still_execGrantRecord ..)
  case releaseWord => exact .part Still.svc (still_execReleaseWord ..)
  case shotClockExpired => exact .part Still.svc (still_execShotClockExpired ..)
  case uncorrectableError => exact still_svc_execUncorrectableError ..
  case beNop => exact still_svc_execBeNop ..
  case beMov => exact still_svc_execBeMov ..
  case beMovi => exact still_svc_execBeMovi ..
  case beLd => exact still_svc_execBeLd ..
  case beSt => exact still_svc_execBeSt ..
  case beLda => exact still_svc_execBeLda ..
  case beIdxc => exact still_svc_execBeIdxc ..
  case beItpl => exact still_svc_execBeItpl ..
  case beAdd => exact still_svc_execBeAdd ..
  case beSub => exact still_svc_execBeSub ..
  case beAdds => exact still_svc_execBeAdds ..
  case beSubs => exact still_svc_execBeSubs ..
  case beMul => exact still_svc_execBeMul ..
  case beDiv => exact still_svc_execBeDiv ..
  case beMod => exact still_svc_execBeMod ..
  case beNeg => exact still_svc_execBeNeg ..
  case beAbs => exact still_svc_execBeAbs ..
  case beMin => exact still_svc_execBeMin ..
  case beMax => exact still_svc_execBeMax ..
  case beSqrt => exact still_svc_execBeSqrt ..
  case beCvt => exact still_svc_execBeCvt ..
  case beAnd => exact still_svc_execBeAnd ..
  case beOr => exact still_svc_execBeOr ..
  case beXor => exact still_svc_execBeXor ..
  case beNot => exact still_svc_execBeNot ..
  case beShl => exact still_svc_execBeShl ..
  case beShr => exact still_svc_execBeShr ..
  case beCeq => exact still_svc_execBeCeq ..
  case beCne => exact still_svc_execBeCne ..
  case beClt => exact still_svc_execBeClt ..
  case beCle => exact still_svc_execBeCle ..
  case beSel => exact still_svc_execBeSel ..
  case beBra => exact still_svc_execBeBra ..
  case beBrz => exact still_svc_execBeBrz ..
  case beBrnz => exact still_svc_execBeBrnz ..
  case beLoop => exact still_svc_execBeLoop ..
  case beEndl => exact still_svc_execBeEndl ..
  case beCallb => exact still_svc_execBeCallb ..
  case beRetb => exact still_svc_execBeRetb ..
  case beEnd => exact still_svc_execBeEnd ..
  case loopQbadExpired => exact still_svc_execLoopQbadExpired ..
  case loopFeExpired => exact still_svc_execLoopFeExpired ..
  case chainStaleExpired => exact still_svc_execChainStaleExpired ..
  case chainHoldExpired => exact still_svc_execChainHoldExpired ..
  case chainFadeEnd => exact still_svc_execChainFadeEnd ..
  case chainSettleEnd => exact still_svc_execChainSettleEnd ..
  case heartbeatWord => exact still_svc_execHeartbeatWord ..
  case beaconExtinguish => exact .part Still.svc (still_execBeaconExtinguish ..)
  case partnerFailureDeclared => exact .part Still.svc (still_execPartnerFailureDeclared ..)
  case pathFault => exact .part Still.svc (still_execPathFault ..)
  case takeoverTick => exact .part Still.svc (still_execTakeoverTick ..)
  case snapshotPiece => exact .part Still.svc (still_execSnapshotPiece ..)
  case snapshotDiscard => exact still_svc_execSnapshotDiscard ..
  case endsIntervalDue => exact .part Still.svc (still_execEndsIntervalDue ..)
  case endsDeferredStart => exact .part Still.svc (still_execEndsDeferredStart ..)
  case endsSwapEdge => exact .part Still.svc (still_execEndsSwapEdge ..)
  case selfCheckFail => exact .part Still.svc (still_execSelfCheckFail ..)
  case reintStart => exact .part Still.svc (still_execReintStart ..)
  case reintCopyClosed => exact still_svc_execReintCopyClosed ..
  case reintCopyTimeout => exact .part Still.svc (still_execReintCopyTimeout ..)
  case reintRetryDue => exact .part Still.svc (still_execReintRetryDue ..)
  case reintStandby => exact .part Still.svc (still_execReintStandby ..)
  case flowLaunch => exact .part Still.svc (still_execFlowLaunch ..)
  case flowFrameReceived => exact .part Still.svc (still_execFlowFrameReceived ..)
  case flowDown => exact still_svc_execFlowDown ..
  case udpbcDatagram => exact .part Still.svc (still_execUdpbcDatagram ..)
  case ptpSync => exact .part Still.svc (still_execPtpSync ..)
  case ptpAnnounce => exact .part Still.svc (still_execPtpAnnounce ..)
  case ptpDelayMessage => exact .part Still.svc (still_execPtpDelayMessage ..)
  case announceTimeout => exact .part Still.svc (still_execAnnounceTimeout ..)
  case holdoverExpired => exact .part Still.svc (still_execHoldoverExpired ..)
  case prpSupervisionSend => exact .part Still.svc (still_execPrpSupervisionSend ..)
  case arpIcmpFrame => exact .part Still.svc (still_execArpIcmpFrame ..)
  case phyLinkChange => exact .part Still.svc (still_execPhyLinkChange ..)
  case canFrameReceived => exact .part Still.svc (still_execCanFrameReceived ..)
  case canFrameTxDone => exact .part Still.svc (still_execCanFrameTxDone ..)
  case canError => exact .part Still.svc (still_execCanError ..)
  case canBusoffRecovered => exact .part Still.svc (still_execCanBusoffRecovered ..)
  case canSleepRequest => exact .part Still.svc (still_execCanSleepRequest ..)
  case canWakeRequest => exact .part Still.svc (still_execCanWakeRequest ..)
  case canRecoverRequest => exact .part Still.svc (still_execCanRecoverRequest ..)
  case canBusWake => exact .part Still.svc (still_execCanBusWake ..)
  case scRateDetected => exact .part Still.svc (still_execScRateDetected ..)
  case scNoTraffic => exact .part Still.svc (still_execScNoTraffic ..)
  case dioOverload => exact .part Still.svc (still_execDioOverload ..)
  case dioAutoRetry => exact .part Still.svc (still_execDioAutoRetry ..)
  case dioGroupTrip => exact .part Still.svc (still_execDioGroupTrip ..)
  case fieldSupplyLow => exact still_svc_execFieldSupplyLow ..
  case fieldSupplyRestored => exact still_svc_execFieldSupplyRestored ..
  case aiSupplyRetry => exact .part Still.svc (still_execAiSupplyRetry ..)
  case encoderZEdge => exact .part Still.svc (still_execEncoderZEdge ..)
  case rs422Sentence => exact .part Still.svc (still_execRs422Sentence ..)
  case rs422TxDone => exact .part Still.svc (still_execRs422TxDone ..)
  case skCycleStart => exact still_svc_execSkCycleStart ..
  case skCycleEnd => exact still_svc_execSkCycleEnd ..
  case skKernelFault => exact still_svc_execSkKernelFault ..
  case skSelftestDone => exact still_svc_execSkSelftestDone ..
  case skImageForwarded => exact still_svc_execSkImageForwarded ..
  case skVerifyDone => exact still_svc_execSkVerifyDone ..
  case skPeriodicSelftest => exact still_svc_execSkPeriodicSelftest ..
  case testSourceOverload => exact still_svc_execTestSourceOverload ..
  case testSourceRetry => exact still_svc_execTestSourceRetry ..
  case discTimerExpired => exact still_svc_execDiscTimerExpired ..
  case proofTestExpired => exact still_svc_execProofTestExpired ..
  case proofIntervalReached => exact still_svc_execProofIntervalReached ..
  case offPulse o y mv => exact still_svc_execOffPulse o y mv s
  case laneWatchdogExpired => exact still_svc_execLaneWatchdogExpired ..
  case connTimeExpired => exact still_svc_execConnTimeExpired ..
  case tcxoFailure => exact .part Still.svc (still_execTcxoFailure ..)
  case rcFault => exact still_svc_execRcFault ..
  case rcQualified => exact .part Still.svc (still_execRcQualified ..)
  case rcQualTimeout => exact .part Still.svc (still_execRcQualTimeout ..)
  case tcxoReturn => exact .part Still.svc (still_execTcxoReturn ..)
  case voltageStepDone => exact .part Still.svc (still_execVoltageStepDone ..)
  case gateBusyTimeout => exact .part Still.svc (still_execGateBusyTimeout ..)
  case powerDwellExpired => exact .part Still.svc (still_execPowerDwellExpired ..)
  case darkWake => exact still_svc_execDarkWake ..
  case recordArrival => exact .part Still.svc (still_execRecordArrival ..)
  case floodWindowEnd => exact .part Still.svc (still_execFloodWindowEnd ..)
  case optimeStep => exact .part Still.svc (still_execOptimeStep ..)
  case timeAnchorDue => exact .part Still.svc (still_execTimeAnchorDue ..)
  case retainPeriodDue => exact .part Still.svc (still_execRetainPeriodDue ..)
  case serviceDomainLost => exact .part Still.svc (still_execServiceDomainLost ..)
  case serviceDomainReturned => exact .part Still.svc (still_execServiceDomainReturned ..)
  case rtcTimeRead => exact .part Still.svc (still_execRtcTimeRead ..)
  case rtcDateRead => exact .part Still.svc (still_execRtcDateRead ..)
  case rtcStatusClear => exact .part Still.svc (still_execRtcStatusClear ..)
  case cartStatusClear => exact .part Still.svc (still_execCartStatusClear ..)
  case pnlLineWrite => exact .part Still.svc (still_execPnlLineWrite ..)
  case pnlStatusClear => exact .part Still.svc (still_execPnlStatusClear ..)
  case safetyInputSample => exact still_svc_execSafetyInputSample ..
  case testSourcePulse => exact still_svc_execTestSourcePulse ..
  case safetyOutputReadback => exact still_svc_execSafetyOutputReadback ..
  case encoderEdge => exact .part Still.svc (still_execEncoderEdge ..)
  case ssiFrameComplete => exact .part Still.svc (still_execSsiFrameComplete ..)
  case lockstepMismatch => exact .part Still.svc (still_execLockstepMismatch ..)
  case scrubberRead => exact still_svc_execScrubberRead ..
  case prpSupervisionFrame => exact .part Still.svc (still_execPrpSupervisionFrame ..)
  case prpSupervisionLost => exact .part Still.svc (still_execPrpSupervisionLost ..)
  case partnerBeaconLost => exact still_svc_execPartnerBeaconLost ..
  case analogueCalibrationDone => exact .part Still.svc (still_execAnalogueCalibrationDone ..)
  case bayEmptyRepeat => exact .part Still.svc (still_execBayEmptyRepeat ..)
  all_goals exact Bool.noConfusion (show true = false from h)


/-- A lane's image, its frozen copy and its template, read from what `State.still` holds of both lanes. -/
theorem imgs_eq {s t : State} (h : t.still.imgs = s.still.imgs) (l : LaneId) :
    (t.lane l).img = (s.lane l).img ∧ (t.lane l).frozen = (s.lane l).frozen ∧ (t.lane l).tmpl = (s.lane l).tmpl := by
  have hl : (t.lane l).imgs = (s.lane l).imgs := by
    cases l
    · exact (congrArg Prod.fst h :)
    · exact (congrArg Prod.snd h :)
  exact ⟨(congrArg Prod.fst hl :), (congrArg (fun x => x.2.1) hl :), (congrArg (fun x => x.2.2) hl :)⟩

/-- Settles O60: one part of `State.still` for each of the four classes of rows. -/
theorem frameOfParts : Obligations.FrameOfParts := by
  unfold Obligations.FrameOfParts
  intro i s t h
  refine ⟨fun hi => (exec_stays_sk hi s).eq h, fun hi => (exec_stays_grid hi s).eq h, fun hi l a => ?_, fun hi => ?_⟩
  · obtain ⟨himg, hfrozen, htmpl⟩ := imgs_eq ((exec_stays_imgs hi s).eq h) l
    rw [himg, hfrozen, htmpl]
    exact ⟨rfl, rfl, rfl⟩
  · have hsvc : t.svc.objs = s.svc.objs := (exec_stays_svc hi s).eq h
    exact ⟨(congrArg (fun x => x.1) hsvc :), (congrArg (fun x => x.2.1) hsvc :), (congrArg (fun x => x.2.2.1) hsvc :),
      (congrArg (fun x => x.2.2.2.1) hsvc :), (congrArg (fun x => x.2.2.2.2) hsvc :)⟩

end Sys2Proof.Machine
end

section
/-! The slow port (02 R62 to R64): its two address registers, the access that ends, and the ports of one cycle. -/

namespace Sys2Proof.Machine

theorem exec_slowReadStart (p : Part) (d : Word) (s : State) :
    exec (.slowReadStart p d) s = .next (writeSlowAddr s p (d ||| 0x80000000#32).toNat) := rfl
theorem exec_slowWritePost (p : Part) (d : Word) (s : State) : exec (.slowWritePost p d) s = .next (writeSlowData s p d) := rfl
theorem exec_registerWrite_slow (p : Part) (a n : Nat) (d : DWord) (v : Arrival) (s : State) :
    exec (.registerWrite p true a n d v) s = .next (writeSlowData (writeSlowAddr s p (a % 65536)) p (d.extractLsb' 0 32)) := rfl
theorem exec_slowAccessDone (p : Part) (x : SlowSample) (cycle : List (Part × SlowSample)) (s : State) :
    exec (.slowAccessDone p x cycle) s = .next (slowCycle ((p.val, x) :: cycle.map fun e => (e.1.val, e.2)) s) := rfl

/-! The address and data registers -/

/-- Whether a window answers goes by its partition's attachment and binding, and by what the state holds beside partitions. -/
theorem winLive_updPart (s : State) (p : Nat) {f : Partition → Partition} (hgrace : (f (s.part p)).grace = (s.part p).grace)
    (hatt : (f (s.part p)).att = (s.part p).att) (hbus : (f (s.part p)).bus = (s.part p).bus)
    (hlane : (f (s.part p)).lane = (s.part p).lane) (hthl : (f (s.part p)).thl = (s.part p).thl) :
    winLive (s.updPart p f) p = winLive s p := by
  have hvia (b : Bus) (l : LaneId) : viaOk (s.updPart p f) p b l = viaOk s p b l := by
    simp only [viaOk, State.linkLane, part_updPart, lane_updPart, hgrace, hatt, hbus, hlane, hthl]; rfl
  simp only [winLive, hvia]

section
variable {s : State} {p : Nat} (h : winLive s p = true)
include h

theorem writeSlowAddr_idle (d : Nat) (hidle : (s.part p).slow.access = none) : writeSlowAddr s p d = s.updPart p fun q =>
    { q with slow := { q.slow with addr := d % 65536 / 4 * 4, access := if bit d 31 then some none else none } } := by
  simp only [writeSlowAddr, h, State.updPart, hidle, Bool.not_true, Bool.false_eq_true, if_false, Option.isSome_none]
theorem writeSlowAddr_busy (d : Nat) (hbusy : (s.part p).slow.access ≠ none) :
    writeSlowAddr s p d = s.updPart p fun q => { q with slowDrop := true } := by
  simp only [writeSlowAddr, h, State.updPart, Option.isSome_iff_ne_none.mpr hbusy, Bool.not_true, Bool.false_eq_true, if_false, if_true]
theorem writeSlowData_idle (d : Word) (hidle : (s.part p).slow.access = none) :
    writeSlowData s p d = s.updPart p fun q => { q with slow := { q.slow with access := some (some d) } } := by
  simp only [writeSlowData, h, State.updPart, hidle, Bool.not_true, Bool.false_eq_true, if_false, Option.isSome_none]
theorem writeSlowData_busy (d : Word) (hbusy : (s.part p).slow.access ≠ none) :
    writeSlowData s p d = s.updPart p fun q => { q with slowDrop := true } := by
  simp only [writeSlowData, h, State.updPart, Option.isSome_iff_ne_none.mpr hbusy, Bool.not_true, Bool.false_eq_true, if_false, if_true]
end

theorem bit_of_lt {n i : Nat} (h : n < 2 ^ i) : bit n i = false := by simp [bit, Nat.div_eq_of_lt h]

/-- READ set (bit 31), the address bits of a SLOW_ADDR write are as they were. -/
theorem or_read_bits (d : Word) : (d ||| 0x80000000#32).toNat % 65536 = d.toNat % 65536 ∧ bit (d ||| 0x80000000#32).toNat 31 = true := by
  rw [BitVec.toNat_or]
  constructor
  · rw [show 65536 = 2 ^ 16 from rfl, Nat.or_mod_two_pow]; simp
  · have htest : (d.toNat ||| 0x80000000).testBit 31 = true := by rw [Nat.testBit_or]; simp [Nat.testBit]
    rw [Nat.testBit_eq_decide_div_mod_eq] at htest
    exact beq_iff_eq.mpr (of_decide_eq_true htest)

theorem slowReadStart_idle {s : State} {p : Nat} (h : winLive s p = true) (hidle : (s.part p).slow.access = none) (d : Word) :
    writeSlowAddr s p (d ||| 0x80000000#32).toNat = s.updPart p fun q =>
      { q with slow := { q.slow with addr := d.toNat % 65536 / 4 * 4, access := some none } } := by
  obtain ⟨haddr, hread⟩ := or_read_bits d
  simp only [writeSlowAddr_idle h _ hidle, haddr, hread, if_true]

/-- A write of the whole slow port: the address without READ, then the data. -/
theorem slowPost_idle {s : State} {p : Nat} (h : winLive s p = true) (hidle : (s.part p).slow.access = none) (a : Nat) (d : Word) :
    writeSlowData (writeSlowAddr s p (a % 65536)) p d = s.updPart p fun q =>
      { q with slow := { q.slow with addr := a % 65536 / 4 * 4, access := some (some d) } } := by
  have hread : bit (a % 65536) 31 = false := bit_of_lt (Nat.lt_of_lt_of_le (Nat.mod_lt a (by decide)) (by decide))
  rw [writeSlowAddr_idle h _ hidle, writeSlowData_idle (by rw [winLive_updPart, h] <;> rfl) _ (by rw [part_updPart, hread]; rfl)]
  simp only [updPart_updPart, Nat.mod_mod]
theorem slowPost_busy {s : State} {p : Nat} (h : winLive s p = true) (hbusy : (s.part p).slow.access ≠ none) (a : Nat) (d : Word) :
    writeSlowData (writeSlowAddr s p a) p d = s.updPart p fun q => { q with slowDrop := true } := by
  rw [writeSlowAddr_busy h _ hbusy, writeSlowData_busy (by rw [winLive_updPart, h] <;> rfl) _ (by rw [part_updPart]; exact hbusy)]
  simp only [updPart_updPart]

/-! The end of an access -/

theorem slowServe_none {s : State} {p : Nat} (h : (s.part p).slow.access = none) (x : SlowSample) : slowServe s p x = s := by
  simp only [slowServe, h]
theorem slowServe_read {s : State} {p : Nat} (h : (s.part p).slow.access = some none) (x : SlowSample) : slowServe s p x =
    slowResult p (slowRead (s.updPart p fun q => { q with slow := { q.slow with access := none } }) p (s.part p).slow.addr x) := by
  simp only [slowServe, h]
theorem slowServe_write {s : State} {p : Nat} {d : Word} (h : (s.part p).slow.access = some (some d)) (x : SlowSample) : slowServe s p x =
    slowWrite (s.updPart p fun q => { q with slow := { q.slow with access := none } }) p (s.part p).slow.addr d.toNat x.started := by
  simp only [slowServe, h]

/-- A CLKOUT select that is refused sets its flag as it is served. -/
theorem slowServe_rejects {s : State} {p : Nat} (outB : Bool) (h : refusesClk s outB p = true) (x : SlowSample) :
    (if outB then (slowServe s p x).svc.clk.rejB else (slowServe s p x).svc.clk.rejA) = true := by
  simp only [refusesClk, Bool.and_eq_true, beq_iff_eq, Option.any_eq_true] at h
  obtain ⟨haddr, k, haccess, d, rfl, hd⟩ := h
  have hclk (f : Partition → Partition) : clkOk (s.updPart p f) d.toNat = false := by
    rw [Bool.not_eq_true'] at hd; exact hd
  rw [slowServe_write haccess, haddr]
  cases outB
  · simp [slowWrite, clkSelect, hclk]
  · simp [slowWrite, clkSelect, hclk]

theorem updSvc_self {s : State} {f : Svc → Svc} (h : f s.svc = s.svc) : s.updSvc f = s := by
  simp only [State.updSvc, h]

/-- One port alone in its cycle is served, and nothing else. -/
theorem slowCycle_one (s : State) (p : Nat) (x : SlowSample) : slowCycle [(p, x)] s = slowServe s p x := by
  have hserved : slowCycle [(p, x)] s = (slowServe s p x).updSvc fun v =>
      { v with clk := { v.clk with rejA := v.clk.rejA || refusesClk s false p, rejB := v.clk.rejB || refusesClk s true p } } := by
    cases hset : commitsRtc s p
    · simp [slowCycle, sortBy, insertBy, hset]
    · simp [slowCycle, sortBy, insertBy, hset]
  have hflag (flag b : Bool) (hb : b = true → flag = true) : (flag || b) = flag := by
    cases b
    · exact Bool.or_false flag
    · rw [hb rfl]; rfl
  rw [hserved]
  refine updSvc_self ?_
  simp only [hflag (slowServe s p x).svc.clk.rejA _ fun h => slowServe_rejects false h x,
    hflag (slowServe s p x).svc.clk.rejB _ fun h => slowServe_rejects true h x]

/-- Two ports of a cycle in which nothing sets the clock or is refused are served in partition-number order. -/
theorem slowCycle_two {s : State} {p q : Nat} (hpq : p < q) (hp : commitsRtc s p = false) (hq : commitsRtc s q = false)
    (hrej : ∀ b, refusesClk s b p = false ∧ refusesClk s b q = false) (x y : SlowSample) :
    slowCycle [(q, y), (p, x)] s = slowServe (slowServe s p x) q y := by
  have hnot : ¬ q ≤ p := by omega
  simp [slowCycle, sortBy, insertBy, hp, hq, hrej, hnot, State.updSvc]

/-- Settles O9: the registers by whether an access is under way, and the cycle's end through `slowServe`. -/
theorem slowPortRows : Obligations.SlowPortRows := by
  unfold Obligations.SlowPortRows
  intro s p h
  refine ⟨fun hidle => ⟨fun d => ?readStart, fun d => ?post, fun a n d v => ?register, fun x => ?idleEnd⟩,
    fun hbusy => ⟨fun d => ?readDrop, fun d => ?postDrop, fun a n d v => ?registerDrop⟩,
    ⟨fun x hread => ?readEnd, fun x d hwrite => ?writeEnd⟩, fun q x y hpq hp hq hrej => ?two⟩
  case readStart => rw [exec_slowReadStart, slowReadStart_idle h hidle]
  case post => rw [exec_slowWritePost, writeSlowData_idle h _ hidle]
  case register => rw [exec_registerWrite_slow, slowPost_idle h hidle]
  case idleEnd => rw [exec_slowAccessDone, List.map_nil, slowCycle_one, slowServe_none hidle]
  case readDrop => rw [exec_slowReadStart, writeSlowAddr_busy h _ hbusy]
  case postDrop => rw [exec_slowWritePost, writeSlowData_busy h _ hbusy]
  case registerDrop => rw [exec_registerWrite_slow, slowPost_busy h hbusy]
  case readEnd => rw [exec_slowAccessDone, List.map_nil, slowCycle_one, slowServe_read hread]; rfl
  case writeEnd => rw [exec_slowAccessDone, List.map_nil, slowCycle_one, slowServe_write hwrite]
  case two => rw [exec_slowAccessDone]; exact congrArg _ (slowCycle_two hpq hp hq hrej x y)

end Sys2Proof.Machine
end

section
/-! MB_DOORBELL (03 R58, R70, R72 to R77): what a write discards, rejects, answers, queues or accepts. -/

namespace Sys2Proof.Machine

/-! Updates of a mailbox -/

@[simp] theorem updMb_updMb (s : State) (p : Nat) (u : Bool) (f g : Mailbox → Mailbox) :
    (s.updMb p u f).updMb p u g = s.updMb p u fun m => g (f m) := by
  cases u <;> simp [State.updMb]
theorem updMb_othersSame (s : State) (p : Nat) (u : Bool) (f : Mailbox → Mailbox) : OthersSame s (s.updMb p u f) p :=
  updPart_othersSame s p _
theorem updSt_othersSame (s : State) (f : Station → Station) (p : Nat) : OthersSame s (s.updSt f) p := fun _ _ => rfl
theorem respond_othersSame (s : State) (p : Nat) (u : Bool) (st d0 d1 k : Nat) (d : List Nat) :
    OthersSame s (respond s p u st d0 d1 k d) p := fun r hr => respond_part_same s p u st d0 d1 k d r hr
theorem answer_othersSame (s : State) (p : Nat) (u : Bool) (st d0 d1 : Nat) (d : List Nat) :
    OthersSame s (answer s p u st d0 d1 d) p := respond_othersSame s p u st d0 d1 s.tickNo d
theorem progress_othersSame (s : State) (p : Nat) (u : Bool) (st : Nat) : OthersSame s (progress s p u st) p :=
  updMb_othersSame s p u _

theorem mbox_progress (s : State) (p : Nat) (u : Bool) (st : Nat) :
    (progress s p u st).mbox p u = { s.mbox p u with resp := respBytes st (s.mbox p u).seq (s.mbox p u).bytes 0 0 [] } :=
  mbox_updMb s p u _

/-! The doorbell -/

theorem exec_mbDoorbell (p : Part) (d : Word) (s : State) : exec (.mbDoorbell p d) s = .next (doorbell s p d.toNat) := rfl

/-- The words that a doorbell copies out of the mailbox's command area. -/
def doorbellWords (s : State) (p : Nat) (d : Nat) : List Word := areaWords (padTo 128 (s.mbox p (bit d 0)).area) (fld d 8 6)

/-- The mailbox with a command that the doorbell has accepted. -/
def Mailbox.accepted (m : Mailbox) (ws : List Word) (seq order : Nat) : Mailbox :=
  { m with busy := true, done := false, rej := false, preempted := false, seq := seq, cmd := ws, order := order, phase := .accepted,
           bytes := 0, prev := 0, flushed := 0, xfer := none, buf := [] }

/-- The state in which a doorbell's command has been copied and not yet checked. -/
def doorbellTaken (s : State) (p : Nat) (d : Nat) : State :=
  (s.updMb p (bit d 0) fun m => m.accepted (doorbellWords s p d) (fld d 24 8) s.st.orderNo).updSt
    fun t => { t with orderNo := t.orderNo + 1 }

theorem doorbell_down {s : State} {p : Nat} (h : winLive s p = false) (d : Nat) : doorbell s p d = s :=
  if_pos (by rw [h]; rfl)
theorem doorbell_empty (s : State) (p : Nat) {d : Nat} (h : fld d 8 6 = 0) : doorbell s p d = s :=
  if_pos (by rw [h]; simp)

section
variable {s : State} {p d : Nat} (hlive : winLive s p = true) (hlen : fld d 8 6 ≠ 0)
include hlive hlen

theorem doorbell_heard : (!winLive s p || decide (fld d 8 6 = 0)) = false := by simp [hlive, hlen]

theorem doorbell_rejected (h : (s.mbox p (bit d 0)).busy = true ∨ (if bit d 0 then 16 else 32) < fld d 8 6) :
    doorbell s p d = s.updMb p (bit d 0) fun m => { m with rej := true } := by
  have hbusy : ((s.mbox p (bit d 0)).busy || decide ((if bit d 0 then 16 else 32) < fld d 8 6)) = true := by simpa using h
  simp only [doorbell, hbusy, if_true]
  exact if_neg (by simpa using doorbell_heard hlive hlen)

variable (hidle : (s.mbox p (bit d 0)).busy = false) (hroom : fld d 8 6 ≤ (if bit d 0 then 16 else 32))
include hidle hroom

/-- A command that an idle mailbox takes: the common checks judge the state before it. -/
theorem doorbell_taken : doorbell s p d =
    match commonCheck s p (bit d 0) (doorbellWords s p d) with
    | some (st, d0) => answer (doorbellTaken s p d) p (bit d 0) st d0
    | none => match opInfo (doorbellWords s p d) with
      | some (.bulk, _) =>
        let t := (doorbellTaken s p d).updSt fun t => { t with bulkQueue := t.bulkQueue ++ [p] }
        if t.st.bulkQueue.head? = some p then progress t p (bit d 0) RUNNING
        else progress (t.updMb p (bit d 0) fun m => { m with phase := .queued }) p (bit d 0) QUEUED
      | _ => progress (doorbellTaken s p d) p (bit d 0) RUNNING := by
  have hfree : ((s.mbox p (bit d 0)).busy || decide ((if bit d 0 then 16 else 32) < fld d 8 6)) = false := by
    simp [hidle, Nat.not_lt_of_le hroom]
  have hcheck : commonCheck (doorbellTaken s p d) p (bit d 0) (doorbellWords s p d) =
      commonCheck s p (bit d 0) (doorbellWords s p d) := by
    simp only [commonCheck, doorbellTaken, updSt_st, part_updSt, State.updMb, part_updPart]
    cases bit d 0 <;> rfl
  rw [← hcheck]
  simp only [doorbell, hfree, Bool.false_eq_true, if_false]
  exact if_neg (by simpa using doorbell_heard hlive hlen)
end

theorem doorbellTaken_mbox (s : State) (p d : Nat) : (doorbellTaken s p d).mbox p (bit d 0) =
    (s.mbox p (bit d 0)).accepted (doorbellWords s p d) (fld d 24 8) s.st.orderNo := by
  rw [doorbellTaken, mbox_updSt, mbox_updMb]
theorem doorbellTaken_othersSame (s : State) (p d : Nat) : OthersSame s (doorbellTaken s p d) p :=
  (updMb_othersSame s p _ _).trans (updSt_othersSame _ _ p)
theorem doorbellTaken_st (s : State) (p d : Nat) : (doorbellTaken s p d).st = { s.st with orderNo := s.st.orderNo + 1 } := rfl
theorem doorbellTaken_tickNo (s : State) (p d : Nat) : (doorbellTaken s p d).tickNo = s.tickNo := rfl

/-- A command stands in its mailbox as the doorbell took it, in a phase and with a status. -/
structure Rung (s t : State) (p d : Nat) (ph : MbPhase) (st : Nat) : Prop where
  mbox : t.mbox p (bit d 0) = { (s.mbox p (bit d 0)).accepted (doorbellWords s p d) (fld d 24 8) s.st.orderNo with
    phase := ph, resp := respBytes st (fld d 24 8) 0 0 0 [] }
  order : t.st.orderNo = s.st.orderNo + 1
  others : OthersSame s t p

theorem progress_rung {s t : State} {p d : Nat} (hmbox : t.mbox p (bit d 0) = (s.mbox p (bit d 0)).accepted (doorbellWords s p d) (fld d 24 8) s.st.orderNo)
    (horder : t.st.orderNo = s.st.orderNo + 1) (hothers : OthersSame s t p) (st : Nat) :
    Rung s (progress t p (bit d 0) st) p d .accepted st where
  mbox := by rw [mbox_progress, hmbox]; rfl
  order := horder
  others := hothers.trans (progress_othersSame t p _ st)
theorem progress_rung_queued {s t : State} {p d : Nat} (hmbox : t.mbox p (bit d 0) = (s.mbox p (bit d 0)).accepted (doorbellWords s p d) (fld d 24 8) s.st.orderNo)
    (horder : t.st.orderNo = s.st.orderNo + 1) (hothers : OthersSame s t p) (st : Nat) :
    Rung s (progress (t.updMb p (bit d 0) fun m => { m with phase := .queued }) p (bit d 0) st) p d .queued st where
  mbox := by rw [mbox_progress, mbox_updMb, hmbox]; rfl
  order := horder
  others := (hothers.trans (updMb_othersSame t p _ _)).trans (progress_othersSame _ p _ st)

theorem head?_append_self {q : List Nat} {p : Nat} : (q ++ [p]).head? = some p ↔ q = [] ∨ q.head? = some p := by
  cases q <;> simp

section
variable {s : State} {p d : Nat} (hlive : winLive s p = true) (hlen : fld d 8 6 ≠ 0) (hidle : (s.mbox p (bit d 0)).busy = false)
  (hroom : fld d 8 6 ≤ (if bit d 0 then 16 else 32))
include hlive hlen hidle hroom

theorem doorbell_answered {st d0 : Nat} (hc : commonCheck s p (bit d 0) (doorbellWords s p d) = some (st, d0)) :
    Ended (doorbellTaken s p d) (doorbell s p d) p (bit d 0) st d0 0 s.tickNo [] ∧ OthersSame s (doorbell s p d) p := by
  have hd : doorbell s p d = answer (doorbellTaken s p d) p (bit d 0) st d0 := by rw [doorbell_taken hlive hlen hidle hroom, hc]
  rw [hd]
  exact ⟨answer_ended .., (doorbellTaken_othersSame s p d).trans (answer_othersSame _ _ _ _ _ _ _)⟩

variable (hc : commonCheck s p (bit d 0) (doorbellWords s p d) = none)
include hc

/-- A command of another class than bulk is accepted at once. -/
theorem doorbell_accepted (hop : ∀ ls, opInfo (doorbellWords s p d) ≠ some (.bulk, ls)) :
    Rung s (doorbell s p d) p d .accepted RUNNING ∧ (doorbell s p d).st.bulkQueue = s.st.bulkQueue := by
  have hd : doorbell s p d = progress (doorbellTaken s p d) p (bit d 0) RUNNING := by
    rw [doorbell_taken hlive hlen hidle hroom, hc]
    split
    · contradiction
    · split
      · exact absurd ‹_› (hop _)
      · rfl
  rw [hd]
  exact ⟨progress_rung (doorbellTaken_mbox s p d) rfl (doorbellTaken_othersSame s p d) _, rfl⟩

/-- A bulk command joins the queue, and is accepted where its partition is then at the front. -/
theorem doorbell_bulk {ls : List Nat} (hop : opInfo (doorbellWords s p d) = some (.bulk, ls)) :
    (doorbell s p d).st.bulkQueue = s.st.bulkQueue ++ [p] ∧
    (s.st.bulkQueue = [] ∨ s.st.bulkQueue.head? = some p → Rung s (doorbell s p d) p d .accepted RUNNING) ∧
    (¬ (s.st.bulkQueue = [] ∨ s.st.bulkQueue.head? = some p) → Rung s (doorbell s p d) p d .queued QUEUED) := by
  have hothers := (doorbellTaken_othersSame s p d).trans (updSt_othersSame _ (fun t => { t with bulkQueue := t.bulkQueue ++ [p] }) p)
  have hmbox : ((doorbellTaken s p d).updSt fun t => { t with bulkQueue := t.bulkQueue ++ [p] }).mbox p (bit d 0) =
      (s.mbox p (bit d 0)).accepted (doorbellWords s p d) (fld d 24 8) s.st.orderNo := doorbellTaken_mbox s p d
  have hfront : ((doorbellTaken s p d).updSt fun t => { t with bulkQueue := t.bulkQueue ++ [p] }).st.bulkQueue.head? = some p ↔
      s.st.bulkQueue = [] ∨ s.st.bulkQueue.head? = some p := head?_append_self
  rw [doorbell_taken hlive hlen hidle hroom, hc]
  simp only [hop]
  split
  · exact ⟨rfl, fun _ => progress_rung hmbox rfl hothers _, fun h => absurd (hfront.mp ‹_›) h⟩
  · exact ⟨rfl, fun h => absurd (hfront.mpr h) ‹_›, fun _ => progress_rung_queued hmbox rfl hothers _⟩
end

/-- Settles O10: the doorbell by its guards, the common checks and the class of its command. -/
theorem doorbellAccepts : Obligations.DoorbellAccepts := by
  unfold Obligations.DoorbellAccepts
  intro s p d
  dsimp only
  refine ⟨fun h => ?down, fun h => ?empty, fun hlive hlen h => ?rejected,
    fun hlive hlen hidle hroom => ⟨fun st d0 hc => ?answered, fun hc => ?accepted⟩⟩
  case down => rw [exec_mbDoorbell, doorbell_down h]
  case empty => rw [exec_mbDoorbell, doorbell_empty s p h]
  case rejected => rw [exec_mbDoorbell, doorbell_rejected hlive hlen h]
  case answered =>
    obtain ⟨hend, hothers⟩ := doorbell_answered hlive hlen hidle hroom hc
    refine ⟨_, exec_mbDoorbell .., hend.busy, hend.done, ?_, hothers⟩
    rw [hend.resp, doorbellTaken_mbox]; rfl
  case accepted =>
    by_cases hop : ∃ ls, opInfo (doorbellWords s p d.toNat) = some (.bulk, ls)
    · obtain ⟨ls, hop⟩ := hop
      obtain ⟨hqueue, hfront, hbehind⟩ := doorbell_bulk hlive hlen hidle hroom hc hop
      by_cases hq : s.st.bulkQueue = [] ∨ s.st.bulkQueue.head? = some p.val
      · obtain ⟨hm, horder, hothers⟩ := hfront hq
        refine ⟨_, exec_mbDoorbell .., ?_⟩
        beta_reduce; rw [hm]
        exact ⟨rfl, rfl, rfl, rfl, rfl, rfl, horder, hothers, fun h => absurd hop (h ls),
          fun _ _ => ⟨hqueue, fun _ => ⟨rfl, rfl⟩, fun h h' => absurd hq (by simp [h, h'])⟩⟩
      · obtain ⟨hm, horder, hothers⟩ := hbehind hq
        refine ⟨_, exec_mbDoorbell .., ?_⟩
        beta_reduce; rw [hm]
        exact ⟨rfl, rfl, rfl, rfl, rfl, rfl, horder, hothers, fun h => absurd hop (h ls),
          fun _ _ => ⟨hqueue, fun h => absurd h hq, fun _ _ => ⟨rfl, rfl⟩⟩⟩
    · have hop' : ∀ ls, opInfo (doorbellWords s p d.toNat) ≠ some (.bulk, ls) := fun ls h => hop ⟨ls, h⟩
      obtain ⟨⟨hm, horder, hothers⟩, hqueue⟩ := doorbell_accepted hlive hlen hidle hroom hc hop'
      refine ⟨_, exec_mbDoorbell .., ?_⟩
      beta_reduce; rw [hm]
      exact ⟨rfl, rfl, rfl, rfl, rfl, rfl, horder, hothers, fun _ => ⟨rfl, hqueue, rfl⟩, fun ls h => absurd h (hop' ls)⟩

end Sys2Proof.Machine
end

section
/-! Attachment (02 R53, R55; 03 R79 to R85, R94): WIN_CTRL, the host link, the end of a detachment, and the ATTACH command. -/

namespace Sys2Proof.Machine

theorem exec_winCtrlAttach (p : Part) (bus : Bus) (l : LaneId) (d : Word) (s : State) :
    exec (.winCtrlAttach p bus l d) s = .next (writeWinCtrl s p bus l (d ||| 1#32).toNat) := rfl
theorem exec_winCtrlDetach (p : Part) (d : Word) (s : State) : exec (.winCtrlDetach p d) s = .next (winDetach s p (d ||| 2#32).toNat) := rfl
theorem exec_detachComplete (p : Part) (s : State) : exec (.detachComplete p) s =
    .next (if (s.part p).att == .detaching && !(s.part p).urg.underway then finishDetach s p else s) := rfl
theorem exec_hostLinkLost (p : Part) (s : State) : exec (.hostLinkLost p) s = execHostLinkLost p s := rfl
theorem exec_linkGraceExpired (p : Part) (s : State) : exec (.linkGraceExpired p) s =
    .next (if (s.part p).grace then startDetach s p else s) := rfl
theorem exec_attach (p : Part) (s : State) : exec (.attach p) s = execAttach p s := rfl

theorem Gives.mk {i : Instr} {s t : State} {P : State → Prop} (h : exec i s = .next t) (ht : P t) : Gives i s P := ⟨t, h, ht⟩

/-! What a response leaves besides its mailbox -/

/-- The mailbox of a command that has ended. -/
def Mailbox.ended (m : Mailbox) (st d0 d1 k : Nat) (d : List Nat) : Mailbox :=
  { m with busy := false, done := true, preempted := false, phase := .idle, xfer := none, buf := [], resp := respBytes st m.seq d0 d1 k d }

/-- A response ends its mailbox's command, takes the partition out of the bulk queue, and reports. -/
theorem respond_reports (s : State) (p : Nat) (u : Bool) (st d0 d1 k : Nat) (d : List Nat) :
    Reports ((s.updMb p u fun m => m.ended st d0 d1 k d).updSt fun t =>
      { t with bulkQueue := if u then t.bulkQueue else t.bulkQueue.filter fun x => x != p }) (respond s p u st d0 d1 k d) := by
  unfold respond; extract_lets s1 s2
  have hs : s2 = (s.updMb p u fun m => m.ended st d0 d1 k d).updSt fun t =>
      { t with bulkQueue := if u then t.bulkQueue else t.bulkQueue.filter fun x => x != p } := by
    cases u <;> rfl
  rw [← hs]
  split
  · exact notify_reports _ _ _
  · exact .refl _

theorem bit_or (d w : Word) (i : Nat) : bit (d ||| w).toNat i = (bit d.toNat i || bit w.toNat i) := by
  have hbit (n : Nat) : bit n i = n.testBit i := by
    rw [Nat.testBit_eq_decide_div_mod_eq, bit]
    cases h : n / 2 ^ i % 2 == 1
    · exact (decide_eq_false (beq_eq_false_iff_ne.mp h)).symm
    · exact (decide_eq_true (beq_iff_eq.mp h)).symm
  rw [hbit, hbit, hbit, BitVec.toNat_or, Nat.testBit_or]

/-! WIN_CTRL -/

theorem winAttach_detached {s : State} {p : Nat} {l : LaneId} (hup : (s.lane l).winUp = true) (hgrace : (s.part p).grace = false)
    (h : (s.part p).att = .detached) (bus : Bus) (d : Nat) : winAttach s p bus l d =
    s.updPart p fun q => { writeEnables q d with att := .attaching, bus := bus, lane := l } := by
  simp [winAttach, hup, hgrace, h]
theorem winAttach_taken {s : State} {p : Nat} {l : LaneId} (hup : (s.lane l).winUp = true) (hgrace : (s.part p).grace = false)
    (h : (s.part p).att = .attached ∨ (s.part p).att = .detaching) (bus : Bus) (d : Nat) : winAttach s p bus l d = s := by
  obtain h | h := h
  · simp [winAttach, hup, hgrace, h]
  · simp [winAttach, hup, hgrace, h]

theorem winCtrlAttach_attaches {d : Word} (h : bit d.toNat 1 = false) (s : State) (p : Nat) (bus : Bus) (l : LaneId) :
    writeWinCtrl s p bus l (d ||| 1#32).toNat = winAttach s p bus l (d ||| 1#32).toNat := by
  have hdetach : bit (d ||| 1#32).toNat 1 = false := by rw [bit_or, h]; rfl
  have hattach : bit (d ||| 1#32).toNat 0 = true := by rw [bit_or]; exact Bool.or_true _
  simp only [writeWinCtrl, hdetach, hattach, Bool.false_eq_true, if_false, if_true]

/-- The enables of a WIN_CTRL write are bits 2 to 4, which ATTACH and DETACH do not touch. -/
theorem writeEnables_or (q : Partition) (d : Word) {w : Word} (h : w = 1#32 ∨ w = 2#32) : writeEnables q (d ||| w).toNat =
    { q with evEn := bit d.toNat 2, evIrqEn := bit d.toNat 3, mbIrqEn := bit d.toNat 4 } := by
  have hw : bit w.toNat 2 = false ∧ bit w.toNat 3 = false ∧ bit w.toNat 4 = false := by
    obtain rfl | rfl := h
    · decide
    · decide
  obtain ⟨h2, h3, h4⟩ := hw
  simp only [writeEnables, bit_or, h2, h3, h4, Bool.or_false]

theorem winDetach_detaching {s : State} {p : Nat} (hlive : winLive s p = true) (h : (s.part p).att = .detaching) (d : Nat) :
    winDetach s p d = s.updPart p fun q => writeEnables q d := by
  simp [winDetach, hlive, h]
theorem winDetach_starts {s : State} {p : Nat} (hlive : winLive s p = true) (h : (s.part p).att = .attached ∨ (s.part p).att = .attaching)
    (d : Nat) : winDetach s p d = startDetach (s.updPart p fun q => writeEnables q d) p := by
  obtain h | h := h
  · simp [winDetach, hlive, h]
  · simp [winDetach, hlive, h]

/-- A command of the main mailbox runs between two 4 KiB boundaries. -/
def Partition.midPiece (q : Partition) : Bool := q.main.busy && q.main.phase == .running && !q.main.atBoundary 4096

/-- A partition that is detaching, its holdings gone unless a piece of its main mailbox's command is under way (R83). -/
def Detaches (s t : State) (p : Nat) : Prop :=
  (t.part p).att = .detaching ∧ (t.part p).grace = false ∧ ((s.part p).midPiece = false → Emptied t p)

theorem winDetach_detaches {s : State} {p : Nat} (hlive : winLive s p = true)
    (h : (s.part p).att = .attached ∨ (s.part p).att = .attaching) (d : Nat) : Detaches s (winDetach s p d) p := by
  have hstart := startDetach_part (s.updPart p fun q => writeEnables q d) p
  rw [part_updPart] at hstart
  rw [winDetach_starts hlive h]
  exact hstart

/-! The end of a detachment -/

theorem dropHoldings_part (s : State) (p : Nat) : ((dropHoldings s p).part p).lessRing = (s.part p).dropped.lessRing := by
  have h := (dropHoldings_reports s p).parts p
  rwa [part_updPart, part_updSt] at h

/-- The binding of a partition, with its THL session less the sequence of the last message sent. -/
def Partition.binding (q : Partition) : Bus × LaneId × Option ThlSess := (q.bus, q.lane, q.thl.map fun t => { t with sent := 0 })

theorem binding_of_lessRing {q r : Partition} (h : q.lessRing = r.lessRing) : q.binding = r.binding :=
  congrArg (fun x : Partition => (x.bus, x.lane, x.thl)) h

theorem endMainDetached_binding (s : State) (p : Nat) : ((endMainDetached s p).part p).binding = (s.part p).binding := by
  have hdrop (t : State) : ((dropHoldings t p).part p).binding = (t.part p).binding :=
    (binding_of_lessRing (dropHoldings_part t p)).trans rfl
  unfold endMainDetached; extract_lets m s1
  rw [hdrop]
  split
  · have h := (respond_reports s1 p false DETACHED m.bytes 0 s1.tickNo []).parts p
    exact (binding_of_lessRing h).trans (by simp only [s1, State.updMb, part_updSt, part_updPart]; rfl)
  · rfl

/-- A completed detachment leaves the partition as it is at reset but for its binding, and out of the bulk queue (R83). -/
theorem finishDetach_part (s : State) (p : Nat) :
    ((finishDetach s p).part p).lessRing =
      ({ bus := (s.part p).bus, lane := (s.part p).lane, thl := (s.part p).thl } : Partition).lessRing ∧
    p ∉ (finishDetach s p).st.bulkQueue := by
  have hbind := endMainDetached_binding s p
  unfold finishDetach; extract_lets s1 s2 s3
  refine ⟨((noteUnnamed_reports s3 ..).parts p).trans ?_, ?_⟩
  · have hpart : s3.part p = ({ bus := (s1.part p).bus, lane := (s1.part p).lane, thl := (s1.part p).thl } : Partition) :=
      part_updPart s2 p _
    have h1 : (s1.part p).bus = (s.part p).bus := (congrArg Prod.fst hbind :)
    have h2 : (s1.part p).lane = (s.part p).lane := (congrArg (fun x => x.2.1) hbind :)
    have h3 : (s1.part p).thl.map _ = (s.part p).thl.map _ := (congrArg (fun x => x.2.2) hbind :)
    rw [hpart, h1, h2]
    simp only [Partition.lessRing, h3]
  · simp only [noteUnnamed, raise_st_bulkQueue]
    simp [s3, resetWindow, s2]

/-! The host link -/

theorem hostLinkLost_attached {s : State} {p : Part} (h : (s.part p).att = .attached) : execHostLinkLost p s = .next (s.updPart p fun q =>
    { q with att := .attaching, grace := true, resuming := false, regions := [], ringRegion := none }) := by
  simp only [execHostLinkLost, h]
theorem hostLinkLost_attaching {s : State} {p : Part} (h : (s.part p).att = .attaching) (hgrace : (s.part p).grace = false) :
    execHostLinkLost p s = .next (s.updPart p fun q => { q with att := .detached, regions := [] }) := by
  simp only [execHostLinkLost, h, hgrace, Bool.false_eq_true, if_false]

/-! The ATTACH command -/

section
variable {s : State} {p : Part} {ws : List Word} (h : Served s p false .normal 0x0010 ws)
include h

theorem attach_bad {o : Nat} (hbad : attachBad ws = some o) : execAttach p s = .next (answer s p false BAD_FIELD o) := by
  simp only [execAttach, serve_eq h rfl rfl, hbad]

variable (hbad : attachBad ws = none)
include hbad

theorem attach_attached (hatt : (s.part p).att = .attached) (hgrace : (s.part p).grace = false) :
    execAttach p s = .next (answer s p false WRONG_STATE s.st.phase.code) := by
  simp [execAttach, serve_eq h rfl rfl, hbad, hatt, hgrace]

variable (hatt : (s.part p).att = .attaching)
include hatt

theorem attach_noGrace (hgrace : (s.part p).grace = false) (hresume : bit (word ws 1) 9 = true) :
    execAttach p s = .next (answer s p false WRONG_STATE s.st.phase.code) := by
  simp [execAttach, serve_eq h rfl rfl, hbad, hatt, hgrace, hresume]
theorem attach_denied (hresume : (s.part p).grace = false → bit (word ws 1) 9 = false)
    (hbind : s.bindingOk p (s.part p).bus (s.part p).lane = false) : execAttach p s = .next (answer s p false BINDING_DENIED) := by
  cases hgrace : (s.part p).grace
  · simp [execAttach, serve_eq h rfl rfl, hbad, hatt, hgrace, hresume hgrace, hbind]
  · simp [execAttach, serve_eq h rfl rfl, hbad, hgrace, hbind]

variable (hbind : s.bindingOk p (s.part p).bus (s.part p).lane = true)
include hbind

/-- An ATTACH of the kind that its partition waits for goes on with the regions as they stand. -/
theorem attach_same (hgrace : (s.part p).grace = bit (word ws 1) 9) : execAttach p s = .next
    (if bit (word ws 1) 8 then attachFinal s p ws (bit (word ws 1) 9)
     else answer (s.updPart p fun q => { q with regions := declare ws q.regions }) p false OK) := by
  simp [execAttach, serve_eq h rfl rfl, hbad, hatt, hgrace, hbind]
/-- An ATTACH without RESUME in the grace starts afresh. -/
theorem attach_afresh (hgrace : (s.part p).grace = true) (hresume : bit (word ws 1) 9 = false) (hfinal : bit (word ws 1) 8 = true) :
    execAttach p s = .next (attachFinal (endGrace s p) p ws false) := by
  simp [execAttach, serve_eq h rfl rfl, hbad, hatt, hgrace, hbind, hresume, hfinal]
end

/-- A ring region takes the module's writes of 8 KiB. -/
def Region.takesRing (r : Region) : Prop := 8192 ≤ r.len ∧ bit r.dir 1 = true

theorem attachFinal_ok {s : State} {p : Nat} {ws : List Word} (resume : Bool) (h : fld (word ws 2) 16 8 = 0xFF ∨
      ∃ r, (declare ws (s.part p).regions).get? (fld (word ws 2) 16 8) = some r ∧ r.takesRing) : attachFinal s p ws resume =
    answer (s.updPart p fun q => { q with
      att := .attached, grace := false, resuming := false, regions := declare ws (s.part p).regions,
      ringRegion := if fld (word ws 2) 16 8 = 0xFF then none else some (fld (word ws 2) 16 8),
      roleReq := if resume then q.roleReq else fld (word ws 1) 0 8, sub := if resume then q.sub else defaultSub s p }) p false OK := by
  obtain h | ⟨r, hr, hlen, hdir⟩ := h
  · simp [attachFinal, h]
  · simp [attachFinal, hr, hlen, hdir]
theorem attachFinal_noRegion {s : State} {p : Nat} {ws : List Word} (resume : Bool) (h : fld (word ws 2) 16 8 ≠ 0xFF)
    (hr : ∀ r, (declare ws (s.part p).regions).get? (fld (word ws 2) 16 8) = some r → ¬ r.takesRing) :
    attachFinal s p ws resume = answer s p false DMA_NO_REGION (fld (word ws 2) 16 8) := by
  cases hg : (declare ws (s.part p).regions).get? (fld (word ws 2) 16 8) with
  | none => simp [attachFinal, h, hg]
  | some r =>
    have hno : (decide (8192 ≤ r.len) && bit r.dir 1) = false := by
      rw [← Bool.not_eq_true, Bool.and_eq_true, decide_eq_true_iff]; exact hr r hg
    simp [attachFinal, h, hg, hno]

/-- The end of a grace by an ATTACH without RESUME: the holdings go, and of the partition its binding, mailboxes and enables stay. -/
theorem endGrace_spec (s : State) (p : Nat) : ((endGrace s p).part p).regions = [] ∧ ((endGrace s p).part p).session = false ∧
    (endGrace s p).mbox p false = s.mbox p false ∧ (endGrace s p).st.access = s.st.access ∧ (endGrace s p).tickNo = s.tickNo ∧
    (endGrace s p).st.lock ≠ some p ∧ ∀ e ∈ (endGrace s p).st.stage, e.2.part ≠ p := by
  have hreports := dropHoldings_reports s p
  have hst : ((dropHoldings s p).st.access, (dropHoldings s p).st.lock, (dropHoldings s p).st.stage) =
      (s.st.access, (s.st.dropped p).lock, (s.st.dropped p).stage) :=
    congrArg (fun x : Station => (x.access, x.lock, x.stage)) hreports.st
  have haccess : (dropHoldings s p).st.access = s.st.access := (congrArg Prod.fst hst :)
  have hlock : (dropHoldings s p).st.lock = (s.st.dropped p).lock := (congrArg (fun x => x.2.1) hst :)
  have hstage : (dropHoldings s p).st.stage = (s.st.dropped p).stage := (congrArg (fun x => x.2.2) hst :)
  have hgrid : (dropHoldings s p).grid = s.grid := hreports.grid
  have hmain : ((dropHoldings s p).part p).main = (s.part p).main := (congrArg Partition.main (dropHoldings_part s p) :)
  unfold endGrace; extract_lets q0 s1
  refine ⟨by rw [part_updPart], by rw [part_updPart], ?_, haccess, ?_, ?_, ?_⟩
  · simp only [State.mbox, part_updPart, Bool.false_eq_true, if_false]; exact hmain
  · simp only [State.tickNo, updPart_grid]; rw [show s1.grid = s.grid from hgrid]
  · rw [updPart_st, hlock]; simp only [Station.dropped]; split
    · nofun
    · assumption
  · rw [updPart_st, hstage]
    intro e he
    exact bne_iff_ne.mp (List.mem_filter.mp he).2

theorem defaultSub_congr {s t : State} (h : t.st.access = s.st.access) (p : Nat) : defaultSub t p = defaultSub s p := by
  simp only [defaultSub, State.accRec, h]

/-- Settles O11: WIN_CTRL, the host link and the end of a detachment row by row, then ATTACH by what the partition waits for. -/
theorem attachmentRows : Obligations.AttachmentRows := by
  unfold Obligations.AttachmentRows
  refine ⟨fun s p => ⟨fun bus l d hup hdetach hgrace => ⟨fun hatt => ?attach, fun hatt => ?attachTaken⟩,
    fun hlive => ⟨fun d hatt => ?detach, fun d hatt => ?detachAgain⟩, fun hatt hurg => ?waits, fun hatt hurg => ?completes,
    fun hatt => ?notDetaching, fun hatt => ?linkLost, fun hatt hgrace => ?fallsBack, fun hgrace => ?graceEnds, fun hgrace => ?noGrace⟩,
    fun s p ws h => ⟨fun o hbad => ?bad, fun hbad hatt hgrace => ?attached, fun hbad hatt hgrace hresume => ?resumeNoGrace,
      fun hbad hatt hresume hbind => ?denied, fun hbad hatt hgrace hbind => ⟨fun hfinal => ?declares, fun hfinal hring => ?final,
        fun hfinal hring hno => ?noRegion⟩, fun hbad hatt hgrace hresume hfinal hbind hring => ?afresh⟩⟩
  case attach =>
    rw [exec_winCtrlAttach, winCtrlAttach_attaches hdetach, winAttach_detached hup hgrace hatt]
    simp only [writeEnables_or _ d (.inl rfl)]
  case attachTaken => rw [exec_winCtrlAttach, winCtrlAttach_attaches hdetach, winAttach_taken hup hgrace hatt]
  case detach => exact .mk (exec_winCtrlDetach ..) (winDetach_detaches hlive hatt _)
  case detachAgain =>
    rw [exec_winCtrlDetach, winDetach_detaching hlive hatt]
    simp only [writeEnables_or _ d (.inr rfl)]
  case waits => rw [exec_detachComplete, hurg]; simp
  case completes => exact .mk (by rw [exec_detachComplete, hatt, hurg]; rfl) (finishDetach_part s p)
  case notDetaching => rw [exec_detachComplete, if_neg (by simp [hatt])]
  case linkLost => rw [exec_hostLinkLost, hostLinkLost_attached hatt]
  case fallsBack => rw [exec_hostLinkLost, hostLinkLost_attaching hatt hgrace]
  case graceEnds => exact .mk (by rw [exec_linkGraceExpired, if_pos hgrace]) (startDetach_part s p)
  case noGrace => rw [exec_linkGraceExpired, hgrace]; rfl
  case bad => rw [exec_attach, attach_bad h hbad]
  case attached => rw [exec_attach, attach_attached h hbad hatt hgrace]
  case resumeNoGrace => rw [exec_attach, attach_noGrace h hbad hatt hgrace hresume]
  case denied => rw [exec_attach, attach_denied h hbad hatt hresume hbind]
  case declares => rw [exec_attach, attach_same h hbad hatt hbind hgrace, hfinal]; rfl
  case final =>
    rw [exec_attach, attach_same h hbad hatt hbind hgrace, hfinal, if_pos rfl, attachFinal_ok _ hring]
    rfl
  case noRegion => rw [exec_attach, attach_same h hbad hatt hbind hgrace, hfinal, if_pos rfl, attachFinal_noRegion _ hring hno]
  case afresh =>
    obtain ⟨hregions, hsession, hmain, haccess, htick, hlock, hstage⟩ := endGrace_spec s p
    have hafresh := attach_afresh h hbad hatt hbind hgrace hresume hfinal
    rw [attachFinal_ok false (by rw [hregions]; exact hring)] at hafresh
    refine .mk ((exec_attach p s).trans hafresh) ⟨?_, ?_, ?_, ?_, ?_, ?_, ?_, ?_, ⟨(answer_ended ..).busy, (answer_ended ..).done,
      (answer_ended ..).idle, (answer_ended ..).resp.trans ?_⟩⟩
    · simp only [answer, respond_part_att, part_updPart]
    · simp only [answer, respond_part_grace, part_updPart]
    · simp only [answer, respond_part_session, part_updPart, hsession]
    · simp only [answer, respond_part_regions, part_updPart, hregions]
    · simp only [answer, respond_part_roleReq, part_updPart, Bool.false_eq_true, if_false]
    · simp only [answer, respond_part_sub, part_updPart, defaultSub_congr haccess, Bool.false_eq_true, if_false]
    · simpa only [answer, respond_st_lock, updPart_st] using hlock
    · simpa only [answer, respond_st_stage, updPart_st] using hstage
    · have hseq : ((endGrace s p).part p).main.seq = (s.part p).main.seq := (congrArg Mailbox.seq hmain :)
      simp only [State.mbox, part_updPart, Bool.false_eq_true, if_false, hseq]
      exact congrArg (respBytes OK _ 0 0 · []) htick

end Sys2Proof.Machine
end

section
/-! Sessions (03 R88), the configuration lock (R86), and the event commands (R94, R95). -/

namespace Sys2Proof.Machine

theorem exec_sessionOpen (p : Part) (s : State) : exec (.sessionOpen p) s = execSessionOpen p s := rfl
theorem exec_sessionClose (p : Part) (s : State) : exec (.sessionClose p) s = execSessionClose p s := rfl
theorem exec_sessionIdleTimeout (p : Part) (s : State) : exec (.sessionIdleTimeout p) s = .next (closeSession s p) := rfl
theorem exec_authLockoutEnd (s : State) : exec .authLockoutEnd s =
    .next (if s.st.lockout then s.updSt fun t => { t with lockout := false, wrongProofs := 0 } else s) := rfl
theorem exec_lockAcquire (p : Part) (s : State) : exec (.lockAcquire p) s = execLockAcquire p s := rfl
theorem exec_lockRelease (p : Part) (s : State) : exec (.lockRelease p) s = execLockRelease p s := rfl

/-- A command ends with its answer also where its mailbox and the tick are those of an earlier state. -/
theorem answer_ended_of {s t : State} {p : Nat} {u : Bool} (hmbox : t.mbox p u = s.mbox p u) (htick : t.tickNo = s.tickNo)
    (st d0 d1 : Nat) (d : List Nat) : Ended s (answer t p u st d0 d1 d) p u st d0 d1 s.tickNo d := by
  obtain ⟨hbusy, hdone, hidle, hresp⟩ := answer_ended t p u st d0 d1 d
  rw [hmbox, htick] at hresp
  exact ⟨hbusy, hdone, hidle, hresp⟩

theorem answer_ended_main {s t : State} {p : Nat} (hmain : (t.part p).main = (s.part p).main) (htick : t.tickNo = s.tickNo)
    (st d0 d1 : Nat) (d : List Nat) : Ended s (answer t p false st d0 d1 d) p false st d0 d1 s.tickNo d :=
  answer_ended_of (u := false) hmain htick st d0 d1 d

theorem Reports.tickNo {s t : State} (h : Reports s t) : t.tickNo = s.tickNo := by
  simp only [State.tickNo, h.grid]

theorem sessionEvent_reports (s : State) (src code p : Nat) : Reports s (sessionEvent s src code p) := raise_reports _ _

theorem Reports.answer_ended {s u t : State} {p : Nat} {b : Bool} (h : Reports u t) (hmbox : u.mbox p b = s.mbox p b := by rfl)
    (htick : u.tickNo = s.tickNo := by rfl) (st d0 d1 : Nat) (d : List Nat) : Ended s (answer t p b st d0 d1 d) p b st d0 d1 s.tickNo d :=
  answer_ended_of ((h.mbox p b).trans hmbox) (h.tickNo.trans htick) st d0 d1 d

/-! SESSION_OPEN -/

/-- The proof of a phase 2 is right for the lane and for SK-1. -/
def proofRight (s : State) (p : Nat) (proof : List Byte) : Bool :=
  match passwordSeal s, (s.part p).nonce with
  | some (_, v), some n =>
    (hmac256 v (n ++ leBytes p 1)).take 16 == proof &&
      (s.sk.pw.elim false fun k => (hmac256 k.2 (n ++ leBytes p 1)).take 16 == proof)
  | _, _ => false

theorem proofRight_iff (s : State) (p : Nat) (proof : List Byte) : proofRight s p proof = true ↔
    ∃ salt v salt2 v2 n, passwordSeal s = some (salt, v) ∧ s.sk.pw = some (salt2, v2) ∧ (s.part p).nonce = some n ∧
      (hmac256 v (n ++ leBytes p 1)).take 16 = proof ∧ (hmac256 v2 (n ++ leBytes p 1)).take 16 = proof := by
  unfold proofRight
  split
  · rename_i salt v n hseal hnonce
    cases hpw : s.sk.pw with
    | none => simp
    | some k =>
      have hboth : ((hmac256 v (n ++ leBytes p 1)).take 16 == proof && (hmac256 k.2 (n ++ leBytes p 1)).take 16 == proof) = true ↔
          (hmac256 v (n ++ leBytes p 1)).take 16 = proof ∧ (hmac256 k.2 (n ++ leBytes p 1)).take 16 = proof := by simp
      refine hboth.trans ⟨fun ⟨hv, hk⟩ => ⟨salt, v, k.1, k.2, n, hseal, rfl, hnonce, hv, hk⟩, ?_⟩
      rintro ⟨_, _, _, _, _, hs, hk, hn, hv, hv2⟩
      cases hs.symm.trans hseal
      cases hn.symm.trans hnonce
      cases hk
      exact ⟨hv, hv2⟩
  · rename_i hno
    exact ⟨nofun, fun ⟨_, _, _, _, _, hseal, _, hnonce, _⟩ => absurd hnonce (hno _ _ _ hseal)⟩

section
variable {s : State} {p : Part} {ws : List Word} (h : Served s p false .normal 0x0011 ws)
include h

theorem sessionOpen_denied (hno : ¬ (2 ≤ s.roleOf p ∧ ∀ r, s.accRec p = some r → bit (r.u 0x0A 1) 0 = true)) :
    execSessionOpen p s = .next (answer s p false ROLE_DENIED (s.roleOf p)) := by
  simp only [execSessionOpen, serve_eq h rfl rfl, needOperator]
  split
  · rw [if_pos]
    cases hr : s.accRec p with
    | none => exact absurd ⟨‹_›, by simp [hr]⟩ hno
    | some r =>
      cases hb : bit (r.u 0x0A 1) 0
      · simp [hb]
      · exact absurd ⟨‹_›, fun r' h' => by cases hr.symm.trans h'; exact hb⟩ hno
  · rfl

variable (hallowed : 2 ≤ s.roleOf p ∧ ∀ r, s.accRec p = some r → bit (r.u 0x0A 1) 0 = true)
include hallowed

/-- A partition that is let in goes on to the phase that its command names. -/
theorem sessionOpen_allowed : execSessionOpen p s = .next
    (if word ws 1 = 1 ∧ ws.length = 2 then sessionPhase1 s p
     else if word ws 1 = 2 ∧ ws.length = 6 then sessionPhase2 s p ws else answer s p false BAD_FIELD 4) := by
  obtain ⟨hrole, hrec⟩ := hallowed
  have hin : ((s.accRec p).elim false fun r => !bit (r.u 0x0A 1) 0) = false := by
    cases hr : s.accRec p with
    | none => rfl
    | some r => simp [hrec r hr]
  simp only [execSessionOpen, serve_eq h rfl rfl, needOperator, hrole, hin, Bool.false_eq_true, if_false, if_true]
end

theorem sessionPhase1_sealed {s : State} {salt v : List Byte} (h : passwordSeal s = some (salt, v)) (p : Nat) : sessionPhase1 s p =
    answer (s.takeFree.2.updPart p fun q => { q with nonce := some ((List.range 32).map fun i => Config.nonceByte s.free i) }) p false
      OK 0 0 (bytesWords (salt ++ (List.range 32).map fun i => Config.nonceByte s.free i)) := by
  simp only [sessionPhase1, h]; rfl
theorem sessionPhase1_unsealed {s : State} (h : passwordSeal s = none) (p : Nat) : sessionPhase1 s p = answer s p false NO_SEAL := by
  simp only [sessionPhase1, h]

/-- The station after a wrong proof: the fifth starts the lockout. -/
def Station.wrongProof (t : Station) (mono : Nat) : Station :=
  { t with wrongProofs := t.wrongProofs + 1, lockout := decide (5 ≤ t.wrongProofs + 1),
           lockoutAt := if 5 ≤ t.wrongProofs + 1 then mono else t.lockoutAt }

/-- A proof is answered after its reports: the nonce is used up, and a right one opens the session. -/
theorem sessionPhase2_cases {s : State} (hlock : s.st.lockout = false) (p : Nat) (ws : List Word) :
    (proofRight s p (wordBytes ((ws.drop 2).take 4)) = true →
      ∃ t, Reports ((s.updPart p fun q => { q with nonce := none, session := true }).updSt fun t => { t with wrongProofs := 0 }) t ∧
        sessionPhase2 s p ws = answer t p false OK) ∧
    (proofRight s p (wordBytes ((ws.drop 2).take 4)) = false →
      ∃ t, Reports ((s.updPart p fun q => { q with nonce := none }).updSt fun t => t.wrongProof s.grid.mono) t ∧
        sessionPhase2 s p ws = answer t p false AUTH_FAILED (s.st.wrongProofs + 1)) := by
  have hgood (x : State) : sessionPhase2 s p ws = x ↔ (
      let s1 := s.updPart p fun q => { q with nonce := none }
      if proofRight s p (wordBytes ((ws.drop 2).take 4)) then
        answer (sessionEvent ((s1.updSt fun t => { t with wrongProofs := 0 }).updPart p fun q => { q with session := true }) 209 1 p) p
          false OK
      else
        let s2 := sessionEvent (s1.updSt fun t => t.wrongProof s.grid.mono) 210 1 p
        answer (if 5 ≤ s.st.wrongProofs + 1 then sessionEvent s2 210 2 p else s2) p false AUTH_FAILED (s.st.wrongProofs + 1)) = x := by
    simp only [sessionPhase2, hlock, Bool.false_eq_true, if_false]
    exact Iff.rfl
  refine ⟨fun hr => ⟨_, ?_, (hgood _).mpr (if_pos hr)⟩, fun hr => ⟨_, ?_, (hgood _).mpr (if_neg (by rw [hr]; nofun))⟩⟩
  · have hopen : (((s.updPart p fun q => { q with nonce := none }).updSt fun t => { t with wrongProofs := 0 }).updPart p fun q =>
        { q with session := true }) =
        (s.updPart p fun q => { q with nonce := none, session := true }).updSt fun t => { t with wrongProofs := 0 } := by
      exact updPart_updPart (s.updSt fun t => { t with wrongProofs := 0 }) p (fun q => { q with nonce := none })
        fun q => { q with session := true }
    rw [← hopen]
    exact sessionEvent_reports ..
  · refine (sessionEvent_reports _ 210 1 p).trans ?_
    split
    · exact sessionEvent_reports ..
    · exact .refl _

/-! SESSION_CLOSE and the idle end -/

theorem closeSession_reports {s : State} {p : Nat} (h : (s.part p).session = true) :
    Reports (s.updPart p fun q => { q with session := false, nonce := none }) (closeSession s p) := by
  rw [closeSession, if_pos h]
  exact sessionEvent_reports ..
theorem closeSession_closed {s : State} {p : Nat} (h : (s.part p).session = false) : closeSession s p = s :=
  if_neg (by rw [h]; nofun)

/-- Settles O12: SESSION_OPEN by who asks and by phase, then the ends of a session and of the lockout. -/
theorem sessionRows : Obligations.SessionRows := by
  unfold Obligations.SessionRows
  intro s p ws
  dsimp only
  refine ⟨fun h => ⟨fun hno => ?denied, fun hallowed hphase hlen => ⟨fun salt v hseal => ?phase1, fun hseal => ?unsealed⟩,
      fun hallowed hphase hlen => ⟨fun hlock => ?locked, fun hlock hright => ?right, fun hlock hwrong => ?wrong⟩⟩,
    fun h => ⟨fun hopen => ?closes, fun hopen => ?notOpen⟩, fun hopen => ?idle, fun hopen => ?idleClosed, fun hlock => ?lockoutEnds,
    fun hlock => ?noLockout⟩
  case denied => rw [exec_sessionOpen, sessionOpen_denied h hno]
  case phase1 =>
    refine .mk ((exec_sessionOpen p s).trans (sessionOpen_allowed h hallowed)) ?_
    rw [if_pos ⟨hphase, hlen⟩, sessionPhase1_sealed hseal]
    exact ⟨by simp only [answer, respond_part_nonce, part_updPart], by simp only [answer, respond_free, updPart_free, takeFree_free],
      answer_ended_main (s := s) (by rw [part_updPart]; rfl) (by rfl) ..⟩
  case unsealed => rw [exec_sessionOpen, sessionOpen_allowed h hallowed, if_pos ⟨hphase, hlen⟩, sessionPhase1_unsealed hseal]
  case locked =>
    rw [exec_sessionOpen, sessionOpen_allowed h hallowed, if_neg (by omega), if_pos ⟨hphase, hlen⟩, sessionPhase2, if_pos hlock]
  case right =>
    obtain ⟨t, ht, hans⟩ := (sessionPhase2_cases hlock p ws).1 ((proofRight_iff ..).mpr hright)
    refine .mk ((exec_sessionOpen p s).trans (sessionOpen_allowed h hallowed)) ?_
    rw [if_neg (by omega), if_pos ⟨hphase, hlen⟩, hans]
    have hpart := ht.parts p
    rw [part_updSt, part_updPart] at hpart
    simp only [answer, respond_part_session, respond_part_nonce, respond_st_wrongProofs]
    exact ⟨(congrArg Partition.session hpart :), (congrArg Partition.nonce hpart :), (congrArg Station.wrongProofs ht.st :),
      answer_ended_main (congrArg Partition.main hpart :) ht.tickNo ..⟩
  case wrong =>
    obtain ⟨t, ht, hans⟩ := (sessionPhase2_cases hlock p ws).2
      (Bool.eq_false_iff.mpr fun hr => hwrong ((proofRight_iff ..).mp hr))
    refine .mk ((exec_sessionOpen p s).trans (sessionOpen_allowed h hallowed)) ?_
    rw [if_neg (by omega), if_pos ⟨hphase, hlen⟩, hans]
    have hpart := ht.parts p
    rw [part_updSt, part_updPart] at hpart
    simp only [answer, respond_part_session, respond_part_nonce, respond_st_wrongProofs, respond_st_lockout, respond_st_lockoutAt]
    exact ⟨(congrArg Partition.session hpart :), (congrArg Partition.nonce hpart :), (congrArg Station.wrongProofs ht.st :),
      (congrArg Station.lockout ht.st :), fun h5 => (congrArg Station.lockoutAt ht.st :).trans (if_pos h5),
      answer_ended_main (congrArg Partition.main hpart :) ht.tickNo ..⟩
  case closes =>
    have hclose := closeSession_reports hopen
    have hpart := hclose.parts p
    rw [part_updPart] at hpart
    refine .mk (exec_sessionClose p s) ?_
    simp only [serve_eq h rfl rfl, hopen, if_true]
    simp only [answer, respond_part_session, respond_part_nonce]
    exact ⟨(congrArg Partition.session hpart :), (congrArg Partition.nonce hpart :),
      answer_ended_main (congrArg Partition.main hpart :) hclose.tickNo ..⟩
  case notOpen => simp [exec_sessionClose, execSessionClose, serve_eq h rfl rfl, hopen]
  case idle => exact .mk (exec_sessionIdleTimeout p s) (closeSession_reports hopen)
  case idleClosed => rw [exec_sessionIdleTimeout, closeSession_closed hopen]
  case lockoutEnds => rw [exec_authLockoutEnd, if_pos hlock]
  case noLockout => rw [exec_authLockoutEnd, hlock]; rfl

/-! The lock -/

theorem dropLock_noted (s : State) (k : Unnamed) (b : List Byte) :
    Reports (s.updSt fun t => { t with lock := none, loopStage := [] }) (noteUnnamed (dropLock s) k s.mainLane b) :=
  (dropLock_reports s).trans (noteUnnamed_reports ..)
theorem grantLock_reports (s : State) (p : Nat) : Reports (s.updSt fun t => { t with lock := some p }) (grantLock s p) :=
  noteUnnamed_reports ..

/-- A partition that may own the lock. -/
def mayOwn (s : State) (p : Nat) : Prop := s.st.access = none ∨ s.maxRole p = 3

/-- A lock that changes hands: the holder's staged loop words go. -/
def takeLock (s : State) (p h : Nat) : State :=
  let s := tellUnnamed (dropLock s) h .lockTaken
  grantLock (noteUnnamed s .lockTaken s.mainLane (leBytes p 1 ++ leBytes h 1)) p

theorem takeLock_reports (s : State) (p h : Nat) :
    Reports (s.updSt fun t => { t with lock := some p, loopStage := [] }) (takeLock s p h) := by
  have hdrop : Reports (s.updSt fun t => { t with lock := none, loopStage := [] }) (tellUnnamed (dropLock s) h .lockTaken) :=
    (dropLock_reports s).trans (tellUnnamed_reports ..)
  have hnote := hdrop.trans (noteUnnamed_reports _ .lockTaken (tellUnnamed (dropLock s) h .lockTaken).mainLane (leBytes p 1 ++ leBytes h 1))
  exact (hnote.updSt fun t => { t with lock := some p }).trans (grantLock_reports ..)

section
variable {s : State} {p : Part} {ws : List Word} (h : Served s p false .normal 0x0013 ws)
include h

theorem lockAcquire_reserved (hr : word ws 1 / 2 ≠ 0) : execLockAcquire p s = .next (answer s p false BAD_FIELD 4) := by
  rw [execLockAcquire, serve_eq h rfl rfl]
  exact congrArg _ (if_pos hr)

variable (hr : word ws 1 / 2 = 0)
include hr

theorem lockAcquire_denied (haccess : s.st.access ≠ none) (hrole : s.maxRole p ≠ 3) :
    execLockAcquire p s = .next (answer s p false ROLE_DENIED (s.roleOf p)) := by
  have hno : (s.st.access.isNone || s.maxRole p == 3) = false := by
    simp [Option.isSome_iff_ne_none, haccess, hrole]
  simp only [execLockAcquire, serve_eq h rfl rfl, hr, hno, ne_eq, not_true_eq_false, Bool.not_false, if_false, if_true]

variable (howner : mayOwn s p)
include howner

theorem lockAcquire_free (hlock : s.st.lock = none) : execLockAcquire p s = .next
    (if bit (word ws 1) 0 && !(s.part p).session then answer s p false AUTH_REQUIRED else answer (grantLock s p) p false OK) := by
  have ho : (s.st.access.isNone || s.maxRole p == 3) = true := by simpa [mayOwn] using howner
  simp only [execLockAcquire, serve_eq h rfl rfl, hr, ho, hlock, ne_eq, not_true_eq_false, Bool.not_true, Bool.false_eq_true, if_false]
theorem lockAcquire_held {o : Nat} (hlock : s.st.lock = some o) : execLockAcquire p s = .next
    (if !bit (word ws 1) 0 then answer s p false LOCK_HELD o
     else if !(s.part p).session then answer s p false AUTH_REQUIRED
     else if s.maxRole p != 3 then answer s p false ROLE_DENIED (s.roleOf p)
     else if o = p then answer s p false OK else answer (takeLock s p o) p false OK) := by
  have ho : (s.st.access.isNone || s.maxRole p == 3) = true := by simpa [mayOwn] using howner
  simp only [execLockAcquire, serve_eq h rfl rfl, hr, ho, hlock, ne_eq, not_true_eq_false, Bool.not_true, Bool.false_eq_true, if_false]
  rfl
end

/-- Settles O13: LOCK_ACQUIRE by the owner's right and by the lock, LOCK_RELEASE by its holder. -/
theorem lockRows : Obligations.LockRows := by
  unfold Obligations.LockRows
  intro s p ws
  dsimp only
  refine ⟨fun h => ⟨fun hr => ?reserved, fun hr haccess hrole => ?denied, fun hr howner => ⟨fun hlock hfree => ?takes,
      fun htake hno => ?noSession, fun o hlock htake => ?held, fun o hlock htake hopen hrole => ?notOwner,
      fun hlock htake hopen hrole => ?own, fun o hlock ho htake hopen hrole => ?takesOver⟩⟩,
    fun h => ⟨fun hlock => ?releases, fun hlock => ?notHeld⟩⟩
  case reserved => rw [exec_lockAcquire, lockAcquire_reserved h hr]
  case denied => rw [exec_lockAcquire, lockAcquire_denied h hr haccess hrole]
  case takes =>
    have hgo : (bit (word ws 1) 0 && !(s.part p).session) = false := by
      obtain hf | hf := hfree
      · rw [hf]; rfl
      · rw [hf]; exact Bool.and_false _
    have hgrant := grantLock_reports s p
    refine .mk ((exec_lockAcquire p s).trans (lockAcquire_free h hr howner hlock)) ?_
    rw [hgo, if_neg Bool.false_ne_true]
    exact ⟨(respond_st_lock ..).trans (congrArg Station.lock hgrant.st :), hgrant.answer_ended (s := s) rfl rfl ..⟩
  case noSession =>
    rw [exec_lockAcquire]
    cases hlock : s.st.lock with
    | none => simp [lockAcquire_free h hr howner hlock, htake, hno]
    | some o => simp [lockAcquire_held h hr howner hlock, htake, hno]
  case held => simp [exec_lockAcquire, lockAcquire_held h hr howner hlock, htake]
  case notOwner => simp [exec_lockAcquire, lockAcquire_held h hr howner hlock, htake, hopen, hrole]
  case own => simp [exec_lockAcquire, lockAcquire_held h hr howner hlock, htake, hopen, hrole]
  case takesOver =>
    have htaken := takeLock_reports s p o
    refine .mk (t := answer (takeLock s p o) p false OK) ?_
      ⟨(respond_st_lock ..).trans (congrArg Station.lock htaken.st :), (respond_st_loopStage ..).trans (congrArg Station.loopStage htaken.st :),
        htaken.answer_ended (s := s) rfl rfl ..⟩
    simp [exec_lockAcquire, lockAcquire_held h hr howner hlock, htake, hopen, hrole, ho]
  case releases =>
    have hdrop := dropLock_noted s .lockRelease (leBytes p 1)
    have hmain : (dropLock s).mainLane = s.mainLane := by
      simp only [State.mainLane, activeLane_congr fun l => (congrArg Lane.role ((dropLock_reports s).lane l) :)]; rfl
    refine .mk (t := answer (noteUnnamed (dropLock s) .lockRelease s.mainLane (leBytes p 1)) p false OK) ?_
      ⟨(respond_st_lock ..).trans (congrArg Station.lock hdrop.st :), (respond_st_loopStage ..).trans (congrArg Station.loopStage hdrop.st :),
        hdrop.answer_ended (s := s) rfl rfl ..⟩
    simp [exec_lockRelease, execLockRelease, serve_eq h rfl rfl, needLock, hlock]
  case notHeld => simp [exec_lockRelease, execLockRelease, serve_eq h rfl rfl, needLock, hlock]

/-! The event commands -/

theorem exec_eventSubscribe (p : Part) (s : State) : exec (.eventSubscribe p) s = execEventSubscribe p s := rfl
theorem exec_eventRead (p : Part) (s : State) : exec (.eventRead p) s = execEventRead p s := rfl

/-- Settles O14: EVENT_READ's answers in the order of its checks. -/
theorem eventRows : Obligations.EventRows := by
  unfold Obligations.EventRows
  intro s p ws
  dsimp only
  refine ⟨fun h => ?subscribe, fun h => ?read⟩
  case subscribe => simp only [exec_eventSubscribe, execEventSubscribe, serve_eq h rfl rfl]; rfl
  case read =>
    have hread := exec_eventRead p s
    simp only [execEventRead, serve_eq h rfl rfl] at hread
    refine ⟨fun hgone => ?_, fun hin hbad => ?_, fun hin hgood hbits => ?_, fun hin hgood hbits => ?_⟩
    · rw [hread, if_pos hgone]
    · rw [hread, if_neg (by omega), if_pos (by omega)]
    · rw [hread, if_neg (by omega), if_neg (by omega), if_pos hbits]
    · rw [hread, if_neg (by omega), if_neg (by omega), if_neg (not_not_intro hbits)]

end Sys2Proof.Machine
end

section
/-! Staging (03 R89 to R91): CONFIG_BEGIN, CONFIG_ABORT and CONFIG_CHUNK. -/

namespace Sys2Proof.Machine

theorem exec_configBegin (p : Part) (s : State) : exec (.configBegin p) s = execConfigBegin p s := rfl
theorem exec_configAbort (p : Part) (s : State) : exec (.configAbort p) s = execConfigAbort p s := rfl
theorem exec_configChunk (p : Part) (s : State) : exec (.configChunk p) s = execConfigChunk p s := rfl

theorem needLock_held {s : State} {p : Nat} (h : s.st.lock = some p) (u : Bool) (k : State) : needLock s p u k = k := if_pos h
theorem needLock_refused {s : State} {p : Nat} (h : s.st.lock ≠ some p) (u : Bool) (k : State) :
    needLock s p u k = answer s p u LOCK_REQUIRED := if_neg h

theorem firstBad_cons_true (o : Nat) (xs : List (Bool × Nat)) : firstBad ((true, o) :: xs) = firstBad xs := if_pos rfl
theorem firstBad_cons_false (o : Nat) (xs : List (Bool × Nat)) : firstBad ((false, o) :: xs) = some o := if_neg Bool.false_ne_true
theorem firstBad_none {xs : List (Bool × Nat)} (h : ∀ x ∈ xs, x.1 = true) : firstBad xs = none := by
  induction xs with
  | nil => rfl
  | cons x xs ih => exact (if_pos (h x (by simp))).trans (ih fun y hy => h y (by simp [hy]))

/-! A transfer from the host starts in its mailbox, and nothing else moves -/

theorem beginXfer_in {x : Xfer} (h : x.isIn = true) (s : State) (p : Nat) (u : Bool) : beginXfer s p u x =
    progress (s.updMb p u fun m => { m with phase := .running, xfer := some x, bytes := 0, prev := 0, flushed := 0, buf := [] }) p u
      RUNNING := if_pos h

theorem beginXfer_in_mbox {x : Xfer} (h : x.isIn = true) (s : State) (p : Nat) (u : Bool) : (beginXfer s p u x).mbox p u =
    { s.mbox p u with phase := .running, xfer := some x, bytes := 0, prev := 0, flushed := 0, buf := [],
                      resp := respBytes RUNNING (s.mbox p u).seq 0 0 0 [] } := by
  rw [beginXfer_in h, mbox_progress, mbox_updMb]
theorem beginXfer_in_st {x : Xfer} (h : x.isIn = true) (s : State) (p : Nat) (u : Bool) : (beginXfer s p u x).st = s.st := by
  rw [beginXfer_in h]; rfl
theorem beginXfer_in_others {x : Xfer} (h : x.isIn = true) (s : State) (p : Nat) (u : Bool) : OthersSame s (beginXfer s p u x) p := by
  rw [beginXfer_in h]
  exact (updMb_othersSame s p u _).trans (progress_othersSame _ p u _)

section
variable {s : State} {p : Part} {ws : List Word} (h : Served s p false .bulk 0x0021 ws) (hlock : s.st.lock = some p.val)
  (hw1 : targetOk (fld (word ws 1) 0 8) = true) (hw1r : word ws 1 / 256 = 0) (hoff : word ws 2 % 4 = 0) (hlen : word ws 3 % 4 = 0)
  (hmin : 4 ≤ word ws 3) (hmax : word ws 3 ≤ 16777216)
include h hlock hw1 hw1r hoff hlen hmin hmax

/-- A chunk whose own fields are good is judged by its staging area and its region. -/
theorem configChunk_judged : execConfigChunk p s = .next
    (match s.st.stage.get? (fld (word ws 1) 0 8) with
     | none => answer s p false NO_STAGING
     | some a =>
       match firstBad [(decide (word ws 2 + word ws 3 ≤ a.total), 0x0C), (regionOk (fld (word ws 4) 0 8), 0x10),
           (word ws 4 / 256 == 0, 0x11), (regionOffOk (fld (word ws 4) 0 8) (word ws 5), 0x14)] with
       | some b => answer s p false BAD_FIELD b
       | none => match descBad s p (fld (word ws 4) 0 8) (word ws 5) (word ws 3) 0 with
         | some st => answer s p false st (fld (word ws 4) 0 8)
         | none => beginXfer s p false (.chunk (fld (word ws 1) 0 8) (word ws 2) (word ws 3) (fld (word ws 4) 0 8) (word ws 5))) := by
  have hfields : firstBad [(targetOk (fld (word ws 1) 0 8), 4), (word ws 1 / 256 == 0, 5), (word ws 2 % 4 == 0, 8),
      (word ws 3 % 4 == 0 && decide (4 ≤ word ws 3 ∧ word ws 3 ≤ 16777216), 0x0C)] = none := by
    refine firstBad_none ?_
    simp [hw1, hw1r, hoff, hlen, hmin, hmax]
  simp only [execConfigChunk, serve_eq h rfl rfl, needLock_held hlock, hfields] <;> rfl
end

/-- Settles O15: the three commands by the lock, their fields and the staging area. -/
theorem stagingRows : Obligations.StagingRows := by
  unfold Obligations.StagingRows
  intro s p ws
  dsimp only
  refine ⟨fun h => ⟨fun hlock => ?beginRefused, fun hlock ht => ?beginTarget, fun hlock ht => ⟨fun hn => ?beginLength, fun hn hroom => ?begins,
      fun hn hfull => ?full⟩⟩, fun h => ⟨fun hlock => ?abortRefused, fun hlock ht => ?abortTarget, fun hlock ht => ?aborts⟩,
    fun h => ⟨fun hlock => ?chunkRefused, fun hlock ht hr hoff hlen hmin hmax => ?chunk⟩⟩
  case beginRefused => rw [exec_configBegin, execConfigBegin, serve_eq h rfl rfl, needLock_refused hlock]
  case beginTarget => simp [exec_configBegin, execConfigBegin, serve_eq h rfl rfl, needLock_held hlock, ht]
  case beginLength => simp [exec_configBegin, execConfigBegin, serve_eq h rfl rfl, needLock_held hlock, ht, hn]
  case begins => simp [exec_configBegin, execConfigBegin, serve_eq h rfl rfl, needLock_held hlock, ht, hn, Nat.not_lt.mpr hroom]
  case full => simp [exec_configBegin, execConfigBegin, serve_eq h rfl rfl, needLock_held hlock, ht, hn, hfull]
  case abortRefused => rw [exec_configAbort, execConfigAbort, serve_eq h rfl rfl, needLock_refused hlock]
  case abortTarget => simp [exec_configAbort, execConfigAbort, serve_eq h rfl rfl, needLock_held hlock, ht]
  case aborts => simp [exec_configAbort, execConfigAbort, serve_eq h rfl rfl, needLock_held hlock, ht]
  case chunkRefused => rw [exec_configChunk, execConfigChunk, serve_eq h rfl rfl, needLock_refused hlock]
  case chunk =>
    have hchunk := (exec_configChunk p s).trans (configChunk_judged h hlock ht hr hoff hlen hmin hmax)
    refine ⟨fun hnone => ?noStaging, fun a ha hlong => ?tooLong, fun a ha hfits hregion hw4 hoffs => ?region⟩
    case noStaging => rw [hchunk, hnone]
    case tooLong =>
      have hbad : decide (word ws 2 + word ws 3 ≤ a.total) = false := decide_eq_false (Nat.not_le.mpr hlong)
      simp only [hchunk, ha, hbad, firstBad_cons_false]
    case region =>
      have hgood : firstBad [(decide (word ws 2 + word ws 3 ≤ a.total), 0x0C), (regionOk (fld (word ws 4) 0 8), 0x10),
          (word ws 4 / 256 == 0, 0x11), (regionOffOk (fld (word ws 4) 0 8) (word ws 5), 0x14)] = none := by
        refine firstBad_none ?_
        simp [hfits, hregion, hw4, hoffs]
      simp only [ha, hgood] at hchunk
      refine ⟨fun st hst => ?_, fun hst => ?_⟩
      · rw [hchunk, hst]
      · refine .mk (by rw [hchunk, hst]) ?_
        rw [beginXfer_in_mbox rfl, beginXfer_in_st rfl]
        exact ⟨rfl, rfl, rfl, rfl, rfl, beginXfer_in_others rfl s p false⟩

end Sys2Proof.Machine
end

section
/-! Commits (00 R41; 03 R77, R78, R91): the validation of CONFIG_COMMIT, its confirmation, and its application. -/

namespace Sys2Proof.Machine

theorem exec_configCommit (p : Part) (s : State) : exec (.configCommit p) s = execConfigCommit p s := rfl
theorem exec_bulkBoundary (s : State) : exec .bulkBoundary s = execBulkBoundary s := rfl
theorem exec_commitConfirm (s : State) : exec .commitConfirm s = execCommitConfirm s := rfl
theorem exec_commitConfirmTimeout (s : State) : exec .commitConfirmTimeout s = execCommitConfirmTimeout s := rfl
theorem exec_configApply (s : State) : exec .configApply s = execConfigApply s := rfl

/-! The end of a validation -/

theorem endValidate_noStaging {s : State} {t : Nat} (h : s.st.stage.get? t = none) (p : Nat) (session : Bool) :
    endValidate s p t session = answer s p false NO_STAGING := by
  simp only [endValidate, h]

section
variable {s : State} {t : Nat} {a : StageArea} (h : s.st.stage.get? t = some a)
include h

theorem endValidate_state {r : Reject} (hr : commitState s t = some r) (p : Nat) (session : Bool) :
    endValidate s p t session = answer s p false r.status r.d0 r.d1 r.data := by
  simp only [endValidate, h, hr]

variable (hstate : commitState s t = none)
include hstate

theorem endValidate_rejected {p : Nat} {session : Bool} {d0 : Nat} {r : Reject} (hr : validateImage s p t a session = (d0, some r)) :
    endValidate s p t session = answer s p false r.status r.d0 r.d1 r.data := by
  simp only [endValidate, h, hstate, hr]
/-- A validated image waits as the pending commit. -/
theorem endValidate_waits {p : Nat} {session : Bool} {d0 : Nat} (hr : validateImage s p t a session = (d0, none)) :
    endValidate s p t session =
      (s.updSt fun x => { x with commit := some (
        { part := p, target := t, image := a.bytes.readN 0 a.total, tick := s.grid.tick, confirmed := t != 3 && s.standbyLane.isNone,
          confTick := s.grid.tick, detail0 := d0, forwarded := false, session := session } : Commit) }).updMb p false fun m =>
            { m with phase := .waiting, xfer := none } := by
  simp only [endValidate, h, hstate, hr]
end

/-! CONFIG_COMMIT -/

section
variable {s : State} {p : Part} {ws : List Word} (h : Served s p false .bulk 0x0022 ws) (hnone : s.st.commit = none)
include h hnone

theorem configCommit_served : execConfigCommit p s = .next (needLock s p false
    (if !targetOk (word ws 1) then answer s p false BAD_FIELD 4
     else match s.st.stage.get? (word ws 1) with
       | none => answer s p false NO_STAGING
       | some a =>
         let u := beginXfer s p false (.validate (word ws 1) a.total (s.part p).session)
         if a.total ≤ 4096 then endValidate u p (word ws 1) (s.part p).session else u)) := by
  rw [execConfigCommit, hnone, serve_eq h rfl rfl] <;> rfl

theorem configCommit_validates (hlock : s.st.lock = some p.val) (ht : targetOk (word ws 1) = true) {a : StageArea}
    (ha : s.st.stage.get? (word ws 1) = some a) : execConfigCommit p s = .next
    (if a.total ≤ 4096 then endValidate (beginXfer s p false (.validate (word ws 1) a.total (s.part p).session)) p (word ws 1)
        (s.part p).session
     else beginXfer s p false (.validate (word ws 1) a.total (s.part p).session)) := by
  rw [configCommit_served h hnone, needLock_held hlock, ha, ht] <;> rfl
end

/-! A 4 KiB boundary of a validation -/

/-- A validation at the front of the bulk queue that no urgent command holds goes on for 4 KiB. -/
theorem bulkBoundary_validates {s : State} {p : Nat} {t n : Nat} {session : Bool} (hfront : s.st.bulkQueue.head? = some p)
    (hx : (s.part p).main.xfer = some (.validate t n session)) (hrun : (s.part p).main.phase = .running)
    (hheld : (s.part p).main.preempted = false) (hb : (s.part p).main.atBoundary 4096 = true) (hurg : urgentBusy s = false)
    (hatt : (s.part p).att ≠ .detaching) : execBulkBoundary s = .next (stepValidate s p t n session) := by
  simp [execBulkBoundary, hfront, hx, hrun, hheld, hb, hurg, hatt]

theorem stepValidate_goesOn {s : State} {p n : Nat} (h : (s.part p).main.bytes + 4096 < n) (t : Nat) (session : Bool) :
    stepValidate s p t n session =
      progress (s.updMb p false fun m => { m with prev := m.bytes, bytes := min n (m.bytes + 4096) }) p false RUNNING := by
  have hleft : ¬ n ≤ min n ((s.part p).main.bytes + 4096) := by omega
  simp only [stepValidate, State.updMb, part_updPart]
  exact if_neg hleft
theorem stepValidate_ends {s : State} {p n : Nat} (h : n ≤ (s.part p).main.bytes + 4096) (t : Nat) (session : Bool) :
    stepValidate s p t n session =
      endValidate (s.updMb p false fun m => { m with prev := m.bytes, bytes := min n (m.bytes + 4096) }) p t session := by
  have hdone : n ≤ min n ((s.part p).main.bytes + 4096) := by omega
  simp only [stepValidate, State.updMb, part_updPart]
  exact if_pos hdone

/-! The confirmation -/

theorem awaitsConfirm_pending {s : State} {c : Commit} (h : s.st.commit = some c) (ht : c.target ≠ 3) (hc : c.confirmed = false)
    (hs : s.st.ends.s = none) : awaitsConfirm s = some c := by
  simp [awaitsConfirm, h, ht, hc, hs]

/-! The application -/

/-- The queue and the images, less the pending commit. -/
def Kept.lessCommit (k : Kept) : Kept := { k with commit := none }

/-- What a commit's end leaves of the images. -/
theorem commitFail_kept (s : State) (c : Commit) (r : Reject) : (commitFail s c r).kept = s.kept.lessCommit := by
  unfold commitFail; extract_lets asked s1
  have h1 : s1.kept = s.kept.lessCommit := rfl
  split
  · exact (keep_answer s1 _ _ _ _ _ _).trans h1
  · exact h1
theorem commitOk_kept (s : State) (c : Commit) (d0 tick : Nat) : (commitOk s c d0 tick).kept = s.kept.lessCommit := by
  unfold commitOk; extract_lets asked s1 s2
  have h1 : s1.kept = s.kept.lessCommit := rfl
  have h2 : s2.kept = s.kept.lessCommit := (keep_noteUnnamed s1 ..).trans h1
  split
  · exact (keep_respond s2 _ _ _ _ _ _ _).trans h2
  · exact h2
/-- A commit that is applied takes its staging area with it. -/
theorem commitOk_stage (s : State) (c : Commit) (d0 tick : Nat) : (commitOk s c d0 tick).st.stage.get? c.target = none := by
  unfold commitOk; extract_lets asked s1 s2
  have hstage : s2.st.stage.get? c.target = none := by
    simp only [s2, noteUnnamed, raise_st_stage]
    exact Tab.get?_erase s.st.stage c.target
  split
  · rw [respond_st_stage]; exact hstage
  · exact hstage

/-- A detachment may end the pending commit, and leaves the images alone. -/
theorem endMainDetached_images (s : State) (p : Nat) : (endMainDetached s p).kept.lessCommit = s.kept.lessCommit := by
  unfold endMainDetached; extract_lets m s1
  have h1 : s1.kept.lessCommit = s.kept.lessCommit := rfl
  rw [keep_dropHoldings]
  split
  · rw [keep_respond, h1]
  · exact h1
theorem startDetach_images (s : State) (p : Nat) : (startDetach s p).kept.lessCommit = s.kept.lessCommit := by
  unfold startDetach; extract_lets s1 m
  split
  · rfl
  · exact endMainDetached_images s1 p
theorem foldl_images {α : Type} {f : State → α → State} (hf : ∀ s x, (f s x).kept.lessCommit = s.kept.lessCommit) (xs : List α)
    (s : State) : (xs.foldl f s).kept.lessCommit = s.kept.lessCommit := by
  induction xs generalizing s with
  | nil => rfl
  | cons x xs ih => exact (ih (f s x)).trans (hf s x)
theorem detachForbidden_images (s : State) : (detachForbidden s).kept.lessCommit = s.kept.lessCommit := by
  unfold detachForbidden
  refine foldl_images (fun s p => ?_) allParts s
  extract_lets q
  split
  · rw [startDetach_images, keep_tellUnnamed]
  · rfl

theorem applyAccess_images (s : State) (c : Commit) : (applyAccess s c).kept.lessCommit =
    { s.kept with commit := none, access := some (recsOr (imageRecs c.image)), accessImage := c.image } := by
  unfold applyAccess; extract_lets rs cf s1 s2 s3
  have h1 : s1.kept = s.kept := by
    simp only [s1]; split
    · exact keep_setPassword ..
    · rfl
  have h2 : s2.kept = s.kept := by
    simp only [s2]; split
    · exact (keep_sealEvent s1 ..).trans h1
    · exact (keep_writeSeal s1 ..).trans h1
  have h3 : s3.kept = { s2.kept with access := some rs, accessImage := c.image } := rfl
  rw [detachForbidden_images, h3, h2]; rfl

/-- What the application of a commit's image leaves of the images. -/
def Kept.applied (k : Kept) (c : Commit) : Kept :=
  match c.target with
  | 1 => { k with cfgImage := c.image, commit := none }
  | 2 => { k with prog := some c.image, commit := none }
  | _ => { k with access := some (recsOr (imageRecs c.image)), accessImage := c.image, commit := none }

section
variable {s : State} {c : Commit} {l : LaneId} (hc : s.st.commit = some c) (hl : s.activeLane = some l) (ht : c.target ≠ 3)
  (hconf : c.confirmed = true) (htick : c.confTick < s.grid.tick) (hswap : (s.lane l).swapTick ≠ some s.grid.tick)
include hc hl ht hconf htick hswap

theorem configApply_blocked {r : Reject} (hr : applyBlocked s c = some r) : execConfigApply s = .next (commitFail s c r) := by
  simp [execConfigApply, hc, hl, ht, hconf, Nat.not_le.mpr htick, hswap, hr]
theorem configApply_applies (hr : applyBlocked s c = none) : ∃ u, u.kept.lessCommit = s.kept.applied c ∧
    execConfigApply s = .next (commitOk u c c.detail0 u.grid.tick) := by
  refine ⟨match c.target with
    | 1 => applyConfig s c.image
    | 2 => applyProgram s c.image
    | _ => applyAccess s c, ?_, ?_⟩
  · unfold Kept.applied
    split
    · rw [applyConfig_kept]; rfl
    · rw [applyProgram_kept]; rfl
    · exact applyAccess_images s c
  · simp [execConfigApply, hc, hl, ht, hconf, Nat.not_le.mpr htick, hswap, hr] <;> rfl
end

/-- Settles O16: the validation through `endValidate`, the confirmation through `awaitsConfirm`, the application through what each
of its operations leaves of the images. -/
theorem commitRows : Obligations.CommitRows := by
  unfold Obligations.CommitRows
  extract_lets ends
  have hends {c : Instr} {s u : State} {p : Part} {t : Nat} {a : StageArea} {session : Bool} (ha : u.st.stage.get? t = some a)
      (he : exec c s = .next (endValidate u p t session)) : ends c s u p t a session :=
    ⟨fun r hr => by rw [he, endValidate_state ha hr],
      fun hstate => ⟨fun d0 r hr => by rw [he, endValidate_rejected ha hstate hr], fun d0 hr => by rw [he, endValidate_waits ha hstate hr]⟩⟩
  refine ⟨fun s p ws h hnone => ⟨fun hlock => ?refused, fun hlock ht => ?target, fun hlock ht => ⟨fun hstage => ?noStaging,
      fun a ha => ⟨fun hshort => ?short, fun hlong => ?long⟩⟩⟩,
    fun s p t n session hfront hx hrun hheld hb hurg hatt => ⟨fun hleft => ?piece, fun hlast => ⟨fun a ha => ?last, fun hstage => ?gone⟩⟩,
    fun s => ⟨fun hno => ?noConfirm, fun hno => ?noTimeout, fun c hc ht hconf hs => ⟨fun l hl => ?confirms, fun hearly => ?early,
      fun hdue => ⟨fun l hl => ?timesOut, fun hl => ?alone⟩⟩⟩,
    fun s => ⟨fun hno => ?nothing, fun c l hc hl ht hconf htick hswap => ⟨fun r hr => ?blocked, fun hr => ?applies⟩⟩⟩
  case refused => rw [exec_configCommit, configCommit_served h hnone, needLock_refused hlock]
  case target => rw [exec_configCommit, configCommit_served h hnone, needLock_held hlock, ht]; rfl
  case noStaging => rw [exec_configCommit, configCommit_served h hnone, needLock_held hlock, ht, hstage]; rfl
  case short =>
    refine hends (by rw [beginXfer_in_st rfl, ha]) ?_
    rw [exec_configCommit, configCommit_validates h hnone hlock ht ha, if_pos hshort]
  case long =>
    rw [exec_configCommit, configCommit_validates h hnone hlock ht ha, if_neg (Nat.not_le.mpr hlong), beginXfer_in_mbox rfl]
    exact ⟨rfl, rfl, rfl⟩
  case piece => rw [exec_bulkBoundary, bulkBoundary_validates hfront hx hrun hheld hb hurg hatt, stepValidate_goesOn hleft]
  case last =>
    exact hends ha (by rw [exec_bulkBoundary, bulkBoundary_validates hfront hx hrun hheld hb hurg hatt, stepValidate_ends hlast])
  case gone =>
    rw [exec_bulkBoundary, bulkBoundary_validates hfront hx hrun hheld hb hurg hatt, stepValidate_ends hlast]
    rw [endValidate_noStaging (by exact hstage)]
  case noConfirm =>
    rw [exec_commitConfirm, execCommitConfirm]
    obtain hno | hno := hno
    · rw [hno]
    · rw [hno]; cases awaitsConfirm s <;> rfl
  case noTimeout => rw [exec_commitConfirmTimeout, execCommitConfirmTimeout, hno]
  case confirms => rw [exec_commitConfirm, execCommitConfirm, awaitsConfirm_pending hc ht hconf hs, hl]; rfl
  case early =>
    simp only [exec_commitConfirmTimeout, execCommitConfirmTimeout, awaitsConfirm_pending hc ht hconf hs, if_pos hearly]
  case timesOut =>
    have hl' : (confirmCommit s c).standbyLane = some l := hl
    simp only [exec_commitConfirmTimeout, execCommitConfirmTimeout, awaitsConfirm_pending hc ht hconf hs, Nat.not_lt.mpr hdue, if_false, hl']
    rfl
  case alone =>
    have hl' : (confirmCommit s c).standbyLane = none := hl
    simp only [exec_commitConfirmTimeout, execCommitConfirmTimeout, awaitsConfirm_pending hc ht hconf hs, Nat.not_lt.mpr hdue, if_false, hl']
    rfl
  case nothing =>
    rw [exec_configApply, execConfigApply]
    obtain hno | hno := hno
    · rw [hno]
    · rw [hno]; cases s.st.commit <;> rfl
  case blocked =>
    have hk : (commitFail s c r).kept = s.kept.lessCommit := commitFail_kept s c r
    exact .mk ((exec_configApply s).trans (configApply_blocked hc hl ht hconf htick hswap hr))
      ⟨(congrArg Kept.commit hk :), (congrArg Kept.prog hk :), (congrArg Kept.cfgImage hk :), (congrArg Kept.accessImage hk :)⟩
  case applies =>
    obtain ⟨u, hu, he⟩ := configApply_applies hc hl ht hconf htick hswap hr
    have hk : (commitOk u c c.detail0 u.grid.tick).kept = s.kept.applied c := (commitOk_kept ..).trans hu
    have happly {k : Kept} (hkt : s.kept.applied c = k) : (commitOk u c c.detail0 u.grid.tick).kept = k := hk.trans hkt
    refine .mk ((exec_configApply s).trans he) ⟨?_, commitOk_stage .., fun h1 => ?_, fun h2 => ?_, fun h4 => ?_⟩
    · have hcommit : (s.kept.applied c).commit = none := by unfold Kept.applied; split <;> rfl
      exact (congrArg Kept.commit hk).trans hcommit
    · have hkt := happly (by rw [Kept.applied, h1])
      exact ⟨(congrArg Kept.cfgImage hkt :), (congrArg Kept.prog hkt :), (congrArg Kept.accessImage hkt :)⟩
    · have hkt := happly (by rw [Kept.applied, h2])
      exact ⟨(congrArg Kept.prog hkt :), (congrArg Kept.cfgImage hkt :), (congrArg Kept.accessImage hkt :)⟩
    · have hkt := happly (by rw [Kept.applied, h4])
      exact ⟨(congrArg Kept.accessImage hkt :), (congrArg Kept.access hkt :), (congrArg Kept.prog hkt :), (congrArg Kept.cfgImage hkt :)⟩

end Sys2Proof.Machine
end

section
/-! START, STOP, STATUS_GET and SAFE_SHUTDOWN (03 R93, R97; 04 R119 to R123; 20 R494). -/

namespace Sys2Proof.Machine

theorem exec_start (p : Part) (s : State) : exec (.start p) s = execStart p s := rfl
theorem exec_stop (p : Part) (s : State) : exec (.stop p) s = execStop p s := rfl
theorem exec_statusGet (p : Part) (s : State) : exec (.statusGet p) s = execStatusGet p s := rfl
theorem exec_safeShutdown (p : Part) (s : State) : exec (.safeShutdown p) s = execSafeShutdown p s := rfl

/-! Steps that leave the station alone -/

/-- The station, the partitions and the grid are as they were, but for what reports write. -/
structure StationSame (s t : State) : Prop where
  st : { t.st with limits := [] } = { s.st with limits := [] }
  parts : ∀ p, (t.part p).lessRing = (s.part p).lessRing
  grid : t.grid = s.grid

theorem StationSame.refl (s : State) : StationSame s s := ⟨rfl, fun _ => rfl, rfl⟩
theorem StationSame.trans {s t u : State} (h : StationSame s t) (g : StationSame t u) : StationSame s u :=
  ⟨g.st.trans h.st, fun p => (g.parts p).trans (h.parts p), g.grid.trans h.grid⟩
theorem Reports.stationSame {s t : State} (h : Reports s t) : StationSame s t := ⟨h.st, h.parts, h.grid⟩
theorem updLane_stationSame (s : State) (l : LaneId) (f : Lane → Lane) : StationSame s (s.updLane l f) := by
  cases l
  · exact ⟨rfl, fun _ => rfl, rfl⟩
  · exact ⟨rfl, fun _ => rfl, rfl⟩
theorem updSvc_stationSame (s : State) (f : Svc → Svc) : StationSame s (s.updSvc f) := ⟨rfl, fun _ => rfl, rfl⟩
theorem updSup_stationSame (s : State) (f : Supply → Supply) : StationSame s (s.updSup f) := updSvc_stationSame s _
theorem updIsl_stationSame (s : State) (i : Nat) (f : Island → Island) : StationSame s (s.updIsl i f) := ⟨rfl, fun _ => rfl, rfl⟩
theorem updSk_stationSame (s : State) (f : Sk → Sk) : StationSame s (s.updSk f) := ⟨rfl, fun _ => rfl, rfl⟩
theorem bothLanes_stationSame {f : State → LaneId → State} (h : ∀ s l, StationSame s (f s l)) (s : State) :
    StationSame s (bothLanes f s) := (h s .a).trans (h _ .b)
theorem StationSame.mbox {s t : State} (h : StationSame s t) (p : Nat) (u : Bool) : t.mbox p u = s.mbox p u := by
  cases u
  · exact (congrArg Partition.main (h.parts p) :)
  · exact (congrArg Partition.urg (h.parts p) :)

theorem StationSame.st_eq {s t : State} (h : StationSame s t) : t.st = { s.st with limits := t.st.limits } :=
  calc t.st = { ({ t.st with limits := [] } : Station) with limits := t.st.limits } := rfl
    _ = { ({ s.st with limits := [] } : Station) with limits := t.st.limits } := by rw [h.st]
    _ = { s.st with limits := t.st.limits } := rfl
theorem StationSame.updSt {s t : State} (h : StationSame s t) (f : Station → Station)
    (hf : ∀ x l, f { x with limits := l } = { f x with limits := l } := by intros; rfl) : StationSame (s.updSt f) (t.updSt f) := by
  refine ⟨?_, h.parts, h.grid⟩
  rw [updSt_st, updSt_st, h.st_eq, hf]

theorem setRetained_stationSame (s : State) (img : List Byte) (bank : Option (List Byte)) : StationSame s (setRetained s img bank) := by
  refine bothLanes_stationSame (fun s l => ?_) s
  split
  · exact updLane_stationSame ..
  · exact .refl s
theorem startRetained_stationSame (s : State) (img : List Byte) : StationSame s (startRetained s img) := by
  unfold startRetained; extract_lets l fails
  have hfails (code : Nat) : StationSame s (fails code) := (setRetained_stationSame ..).trans (raise_reports ..).stationSame
  split
  · exact hfails 5
  · split
    · exact hfails 3
    · split
      · exact hfails 4
      · exact (setRetained_stationSame ..).trans (updSvc_stationSame ..)
theorem setRise_stationSame (b : Bool) (s : State) : StationSame s (setRise b s) :=
  bothLanes_stationSame (fun s l => updLane_stationSame s l _) s
theorem holdLaneRate_stationSame (s : State) (l : LaneId) : StationSame s (holdLaneRate s l) := by
  unfold holdLaneRate State.updNet; exact updLane_stationSame ..
theorem panelRedraw_stationSame (s : State) : StationSame s (panelRedraw s) := by
  unfold panelRedraw State.updPnl; exact updSvc_stationSame ..
theorem panelBlank_stationSame (s : State) : StationSame s (panelBlank s) := by
  unfold panelBlank State.updPnl; exact updSvc_stationSame ..
theorem arrive_stationSame (s : State) (r : RawRec) : StationSame s (arrive s r) := by
  unfold arrive; split
  · exact updSvc_stationSame s _
  · exact updSvc_stationSame s _
theorem drainQueue_stationSame (n : Nat) (s : State) : StationSame s (drainQueue n s) := by
  induction n generalizing s with
  | zero => exact .refl s
  | succ n ih =>
    unfold drainQueue; split
    · exact .refl s
    · exact ((updSvc_stationSame s _).trans (arrive_stationSame ..)).trans (ih _)
theorem supEvent_stationSame (s : State) (src code : Nat) (pay : List Byte) : StationSame s (supEvent s src code pay) :=
  (raise_reports ..).stationSame

/-! A command that ends after other steps -/

/-- A response to a command whose mailbox is as it was. -/
theorem respond_ended_of {s t : State} {p : Nat} {u : Bool} (hmbox : t.mbox p u = s.mbox p u) (st d0 d1 k : Nat) (d : List Nat) :
    Ended s (respond t p u st d0 d1 k d) p u st d0 d1 k d := by
  obtain ⟨hbusy, hdone, hidle, hresp⟩ := respond_ended t p u st d0 d1 k d
  rw [hmbox] at hresp
  exact ⟨hbusy, hdone, hidle, hresp⟩
/-- A command that has ended stays so while its mailbox stays. -/
theorem Ended.of_mbox {s t u : State} {p : Nat} {b : Bool} {st d0 d1 k : Nat} {d : List Nat} (h : Ended s t p b st d0 d1 k d)
    (hmbox : u.mbox p b = t.mbox p b) : Ended s u p b st d0 d1 k d := by
  obtain ⟨hbusy, hdone, hidle, hresp⟩ := h
  rw [← hmbox] at hbusy hdone hidle hresp
  exact ⟨hbusy, hdone, hidle, hresp⟩

/-! START -/

/-- The station as START sets it. -/
def Station.started (x : Station) (s : State) : Station :=
  { x with phase := .running, startAt := some (s.grid.tick + 2), stopCause := 0, stopArg := 0, shut := false,
           restoreDue := stopCapturePending s || patchCapturePending s,
           stopAt := x.stopAt.bind fun a => if stopCapturePending s || decide (s.grid.tick < a) then some a else none }

section
variable {s : State} {p : Part} {ws : List Word} (h : Served s p false .normal 0x0030 ws)
include h

theorem start_served : execStart p s = .next (needLock s p false
    (if s.st.phase ≠ .stopped ∨ missingImages s ≠ 0 then answer s p false WRONG_STATE s.st.phase.code (missingImages s)
     else
       let u := s.updSt fun x => x.started s
       let u := bothLanes holdLaneRate
         (if stopCapturePending s || patchCapturePending s then u else startRetained u (u.st.prog.getD []))
       let u := noteUnnamed (setRise true u) .started u.mainLane (leBytes p 1)
       respond (if s.st.shut then panelRedraw u else u) p false OK 0 0 ((s.grid.tick + 2) % 2 ^ 32))) := by
  rw [execStart, serve_eq h rfl rfl]; rfl

theorem start_starts (hlock : s.st.lock = some p.val) (hphase : s.st.phase = .stopped) (himages : missingImages s = 0) :
    ∃ t, StationSame (s.updSt fun x => x.started s) t ∧
      execStart p s = .next (respond t p false OK 0 0 ((s.grid.tick + 2) % 2 ^ 32)) := by
  have hgo : ¬ (s.st.phase ≠ .stopped ∨ missingImages s ≠ 0) := by simp [hphase, himages]
  refine ⟨_, ?_, by rw [start_served h, needLock_held hlock, if_neg hgo]⟩
  have hretain (u : State) : StationSame u
      (if stopCapturePending s || patchCapturePending s then u else startRetained u (u.st.prog.getD [])) := by
    split
    · exact .refl u
    · exact startRetained_stationSame ..
  have hpanel (u : State) : StationSame u (if s.st.shut then panelRedraw u else u) := by
    split
    · exact panelRedraw_stationSame u
    · exact .refl u
  exact (((hretain _).trans (bothLanes_stationSame holdLaneRate_stationSame _)).trans
    ((setRise_stationSame ..).trans (noteUnnamed_reports ..).stationSame)).trans (hpanel _)
end

/-! The stop -/

/-- The station as a stop leaves it. -/
def Station.stops (x : Station) (tick cause arg : Nat) : Station :=
  { x with phase := .stopped, stopCause := cause, stopArg := arg, stopAt := some (tick + 2) }

theorem enterStopped_reports {s : State} (h : s.st.phase = .running) (cause arg : Nat) :
    Reports (s.updSt fun t => t.stops s.grid.tick cause arg) (enterStopped s cause arg) := by
  simp only [enterStopped, h]
  exact noteUnnamed_reports ..
theorem pfStop_running {s : State} (h : s.st.phase = .running) (arg : Nat) :
    Reports (s.updSt fun t => { t.stops s.grid.tick 3 arg with pfStep := 2 }) (pfStop s 3 arg) := by
  simp only [pfStop, h]
  exact (enterStopped_reports h 3 arg).updSt fun t => { t with pfStep := 2 }
theorem pfStop_rests {s : State} (h : s.st.phase ≠ .running) (cause arg : Nat) : pfStop s cause arg = pfFinish s :=
  if_neg (by simpa using h)

/-- The recorder takes its queue and the panel is blanked. -/
def pfBlank (s : State) : State :=
  let u := drainQueue s.svc.rcd.queue.length s
  let u := supEvent u 234 3 (leBytes u.svc.sup.mvA 2 ++ leBytes u.svc.sup.mvB 2 ++ leBytes (u.svc.cart.elim 0 Cart.mv) 2)
  panelBlank (drainQueue u.svc.rcd.queue.length u)

theorem pfBlank_stationSame (s : State) : StationSame s (pfBlank s) := by
  unfold pfBlank; extract_lets u v
  exact ((drainQueue_stationSame ..).trans (supEvent_stationSame ..)).trans ((drainQueue_stationSame ..).trans (panelBlank_stationSame _))
theorem drainQueue_sup (n : Nat) (s : State) : (drainQueue n s).svc.sup = s.svc.sup :=
  (congrArg (fun k => k.svc.2.1) (still_drainQueue n s) :)
theorem supEvent_sup (s : State) (src code : Nat) (pay : List Byte) : (supEvent s src code pay).svc.sup = s.svc.sup :=
  (congrArg (fun k => k.svc.2.1) (still_supEvent s src code pay) :)
theorem pfBlank_sup (s : State) : (pfBlank s).svc.sup = s.svc.sup := by
  unfold pfBlank; extract_lets u v
  have hu : u.svc.sup = s.svc.sup := drainQueue_sup ..
  have hv : v.svc.sup = u.svc.sup := supEvent_sup ..
  have hd : (drainQueue v.svc.rcd.queue.length v).svc.sup = v.svc.sup := drainQueue_sup ..
  exact hd.trans (hv.trans hu)

theorem pfFinish_eq (s : State) : pfFinish s =
    if s.svc.sup.feedA || s.svc.sup.feedB then panelRedraw (endHoldup (pfBlank s))
    else (pfBlank s).updSt fun t => { t with pfStep := 5 } := by
  rw [← drainQueue_sup s.svc.rcd.queue.length s]; rfl
theorem endHoldup_fed {s : State} (ha : s.svc.sup.feedA = true) (hb : s.svc.sup.feedB = true) : endHoldup s =
    (s.updSup fun v => { v with holdup := false }).updSt fun t => { t with pfStep := 0 } := by
  unfold endHoldup; extract_lets u v w
  have hw : w = v := if_pos (by rw [Bool.or_eq_true]; exact Or.inl ha)
  rw [hw]
  exact if_pos (by rw [Bool.or_eq_true]; exact Or.inl hb)

/-- At the end of the sequence with both feeds hold-up ends and the panel is drawn again. -/
theorem pfFinish_fed {s : State} (ha : s.svc.sup.feedA = true) (hb : s.svc.sup.feedB = true) :
    StationSame (s.updSt fun t => { t with pfStep := 0 }) (pfFinish s) := by
  have hblank := pfBlank_stationSame s
  have hsup := pfBlank_sup s
  rw [pfFinish_eq, ha, hb, Bool.or_self, if_pos rfl, endHoldup_fed (by rw [hsup]; exact ha) (by rw [hsup]; exact hb)]
  refine StationSame.trans ?_ (panelRedraw_stationSame _)
  exact (hblank.trans (updSup_stationSame ..)).updSt fun t => { t with pfStep := 0 }
/-- Without a feed the sequence has finished and waits. -/
theorem pfFinish_unfed {s : State} (ha : s.svc.sup.feedA = false) (hb : s.svc.sup.feedB = false) :
    StationSame (s.updSt fun t => { t with pfStep := 5 }) (pfFinish s) := by
  rw [pfFinish_eq, ha, hb]
  exact (pfBlank_stationSame s).updSt fun t => { t with pfStep := 5 }

/-! SAFE_SHUTDOWN -/

section
variable {s : State} {p : Part} {ws : List Word} (h : Served s p true .urgent 0x0033 ws)
include h

theorem safeShutdown_denied (hrole : s.roleOf p < 2) : execSafeShutdown p s = .next (answer s p true ROLE_DENIED (s.roleOf p)) := by
  rw [execSafeShutdown, serve_eq h rfl rfl, needOperator, if_neg (Nat.not_le.mpr hrole)]
theorem safeShutdown_running (hrole : 2 ≤ s.roleOf p) (hpf : s.st.pfStep ≠ 0) :
    execSafeShutdown p s = .next (answer s p true WRONG_STATE s.st.phase.code) := by
  rw [execSafeShutdown, serve_eq h rfl rfl, needOperator, if_pos hrole, if_pos hpf]
/-- An accepted SAFE_SHUTDOWN is answered before it takes effect. -/
theorem safeShutdown_stops (hrole : 2 ≤ s.roleOf p) (hpf : s.st.pfStep = 0) : execSafeShutdown p s =
    .next (pfStop ((respond s p true ACCEPTED 0 0 ((s.grid.tick + 2) % 2 ^ 32)).updSt fun t => { t with shut := true }) 3 p.val) := by
  rw [execSafeShutdown, serve_eq h rfl rfl, needOperator, if_pos hrole, if_neg (by simpa using hpf)]
end

/-- Settles O17: START over the steps that leave the station alone, and the stops by whether the station runs. -/
theorem stationRows : Obligations.StationRows := by
  unfold Obligations.StationRows
  refine ⟨fun s p ws => ⟨fun h => ⟨fun hlock => ?startLock, fun hlock hphase himages => ?starts, fun hlock hno => ?startWrong⟩,
      fun h => ⟨fun hlock => ?stopLock, fun hlock hrun => ?stops, fun hlock hrest => ?stopWrong⟩,
      fun h => ⟨fun k bs hlast => ?status, fun hnone => ?statusNow⟩⟩,
    fun s p ws h => ⟨fun hrole => ?denied, fun hrole hpf => ?underway, fun hrole hpf => ?shuts⟩⟩
  case startLock => rw [exec_start, start_served h, needLock_refused hlock]
  case startWrong => rw [exec_start, start_served h, needLock_held hlock, if_pos hno]
  case starts =>
    obtain ⟨t, hsame, he⟩ := start_starts h hlock hphase himages
    refine .mk ((exec_start p s).trans he) ⟨?_, ?_, ?_, ?_, ?_, ?_,
      respond_ended_of (show t.mbox p false = s.mbox p false from hsame.mbox p false) ..⟩
    · rw [respond_st_phase]; exact (congrArg Station.phase hsame.st :)
    · rw [respond_st_startAt]; exact (congrArg Station.startAt hsame.st :)
    · rw [respond_st_stopCause]; exact (congrArg Station.stopCause hsame.st :)
    · rw [respond_st_stopArg]; exact (congrArg Station.stopArg hsame.st :)
    · rw [respond_st_shut]; exact (congrArg Station.shut hsame.st :)
    · have hrespond := (respond_reports t p false OK 0 0 ((s.grid.tick + 2) % 2 ^ 32) []).st
      exact (congrArg Station.restoreDue hrespond :).trans (congrArg Station.restoreDue hsame.st :)
  case stopLock => rw [exec_stop, execStop, serve_eq h rfl rfl, needLock_refused hlock]
  case stopWrong => rw [exec_stop, execStop, serve_eq h rfl rfl, needLock_held hlock, if_pos hrest]
  case stops =>
    refine .mk (by rw [exec_stop, execStop, serve_eq h rfl rfl, needLock_held hlock, if_neg (not_not.mpr hrun)]) ?_
    exact (enterStopped_reports hrun 1 p.val).updMb p true fun m => { m with phase := .waiting }
  case status => rw [exec_statusGet, execStatusGet, serve_eq h rfl rfl, hlast]; rfl
  case statusNow => rw [exec_statusGet, execStatusGet, serve_eq h rfl rfl, hnone]; rfl
  case denied => exact (exec_safeShutdown p s).trans (safeShutdown_denied h hrole)
  case underway => exact (exec_safeShutdown p s).trans (safeShutdown_running h hrole hpf)
  case shuts =>
    extract_lets tick
    have he := (exec_safeShutdown p s).trans (safeShutdown_stops h hrole hpf)
    have hphase : ((respond s p true ACCEPTED 0 0 tick).updSt fun t => { t with shut := true }).st.phase = s.st.phase :=
      respond_st_phase ..
    have hgrid : ((respond s p true ACCEPTED 0 0 tick).updSt fun t => { t with shut := true }).grid = s.grid := respond_grid ..
    have hsup : ((respond s p true ACCEPTED 0 0 tick).updSt fun t => { t with shut := true }).svc.sup = s.svc.sup := by
      rw [updSt_svc, respond_svc]
    have hshut : ((respond s p true ACCEPTED 0 0 tick).updSt fun t => { t with shut := true }).st.shut = true := rfl
    have hended : Ended s ((respond s p true ACCEPTED 0 0 tick).updSt fun t => { t with shut := true }) p true ACCEPTED 0 0 tick [] :=
      (respond_ended s p true ACCEPTED 0 0 tick []).of_mbox rfl
    generalize (respond s p true ACCEPTED 0 0 tick).updSt (fun t => { t with shut := true }) = u at he hphase hgrid hsup hshut hended
    refine ⟨fun hrun => ?_, fun hrest ha hb => ?_, fun hrest ha hb => ?_⟩
    · have hstop := pfStop_running (hphase.trans hrun) p.val
      rw [hgrid] at hstop
      exact .mk he ⟨(congrArg Station.phase hstop.st :), (congrArg Station.stopCause hstop.st :), (congrArg Station.stopArg hstop.st :),
        (congrArg Station.stopAt hstop.st :), (congrArg Station.pfStep hstop.st :), (congrArg Station.shut hstop.st :).trans hshut,
        hended.of_mbox (hstop.mbox p true)⟩
    · rw [pfStop_rests (hphase.trans_ne hrest)] at he
      have hfin := pfFinish_fed (hsup ▸ ha) (hsup ▸ hb)
      exact .mk he ⟨(congrArg Station.phase hfin.st :).trans hphase, (congrArg Station.pfStep hfin.st :),
        (congrArg Station.shut hfin.st :).trans hshut, hended.of_mbox (hfin.mbox p true)⟩
    · rw [pfStop_rests (hphase.trans_ne hrest)] at he
      have hfin := pfFinish_unfed (hsup ▸ ha) (hsup ▸ hb)
      exact .mk he ⟨(congrArg Station.phase hfin.st :).trans hphase, (congrArg Station.pfStep hfin.st :),
        (congrArg Station.shut hfin.st :).trans hshut, hended.of_mbox (hfin.mbox p true)⟩

end Sys2Proof.Machine
end

section
/-! Data commands (03 R92, R96; 07 R207, R208; 08 R237, R240, R241): IMAGE_READ, the loop commands and the symbol patch. -/

namespace Sys2Proof.Machine

theorem exec_imageRead (p : Part) (s : State) : exec (.imageRead p) s = execImageRead p s := rfl
theorem exec_loopMode (p : Part) (s : State) : exec (.loopMode p) s = execLoopMode p s := rfl
theorem exec_loopParam (p : Part) (s : State) : exec (.loopParam p) s = execLoopParam p s := rfl
theorem exec_valuePatch (p : Part) (s : State) : exec (.valuePatch p) s = execValuePatch p s := rfl

theorem needOperator_held {s : State} {p : Nat} (h : 2 ≤ s.roleOf p) (u : Bool) (k : State) : needOperator s p u k = k := if_pos h
theorem needOperator_denied {s : State} {p : Nat} (h : s.roleOf p < 2) (u : Bool) (k : State) :
    needOperator s p u k = answer s p u ROLE_DENIED (s.roleOf p) := if_neg (Nat.not_le.mpr h)

/-! IMAGE_READ -/

theorem addrOk_shorter {s : State} {a m n : Nat} (h : addrOk s a n = true) (hmn : m ≤ n) : addrOk s a m = true := by
  simp only [addrOk, decide_eq_true_eq] at h ⊢
  omega

section
variable {s : State} {p : Part} {ws : List Word} (h : Served s p false .normal 0x0043 ws) (ha : word ws 1 % 4 = 0)
  (hn : word ws 2 % 4 = 0) (hleast : 4 ≤ word ws 2)
include h ha hn hleast

theorem imageRead_short (hlen : ws.length = 3) (hmost : word ws 2 ≤ 112) (hok : addrOk s (word ws 1) (word ws 2) = true) :
    execImageRead p s =
      .next (respond s p false OK 0 0 (lastTick s) (bytesWords (frozenBytes s (word ws 1) (word ws 2)))) := by
  simp [execImageRead, serve_eq h rfl rfl, hlen, ha, hn, hleast, hmost, hok, addrOk_shorter hok hleast, firstBad]
theorem imageRead_outside (hlen : ws.length = 3) (hmost : word ws 2 ≤ 112) (hout : addrOk s (word ws 1) (word ws 2) = false) :
    execImageRead p s = .next (answer s p false BAD_FIELD 4) := by
  cases hword : addrOk s (word ws 1) 4
  · simp [execImageRead, serve_eq h rfl rfl, ha, hword, firstBad]
  · simp [execImageRead, serve_eq h rfl rfl, hlen, ha, hn, hleast, hmost, hout, hword, firstBad]
theorem imageRead_region (hlen : ws.length = 5) (hmost : word ws 2 ≤ 65536) (hok : addrOk s (word ws 1) (word ws 2) = true)
    (hregion : regionOk (fld (word ws 3) 0 8) = true) (hw3 : word ws 3 / 256 = 0)
    (hoff : regionOffOk (fld (word ws 3) 0 8) (word ws 4) = true) : execImageRead p s = .next
    (match descBad s p (fld (word ws 3) 0 8) (word ws 4) (word ws 2) 1 with
     | some st => answer s p false st (fld (word ws 3) 0 8)
     | none => beginXfer s p false
       (.toHost (frozenBytes s (word ws 1) (word ws 2)) (fld (word ws 3) 0 8) (word ws 4) 0 (lastTick s) [] false)) := by
  have hw3' : word ws 3 < 256 := by omega
  simp [execImageRead, serve_eq h rfl rfl, hlen, ha, hn, hleast, hmost, hok, addrOk_shorter hok hleast, hregion, hw3', hoff, firstBad] <;> rfl
end

/-! The loop commands -/

section
variable {s : State} {p : Part} {ws : List Word} (h : Served s p true .urgent 0x0041 ws) (hrole : 2 ≤ s.roleOf p)
include h hrole

theorem loopMode_noRecord (hrec : s.cfgRec 0x0801 (fld (word ws 1) 0 8) = none) :
    execLoopMode p s = .next (answer s p true BAD_FIELD 4) := by
  simp only [execLoopMode, serve_eq h rfl rfl, needOperator_held hrole, hrec]
theorem loopMode_known {r : CfgRec} (hrec : s.cfgRec 0x0801 (fld (word ws 1) 0 8) = some r) (hmode : fld (word ws 1) 8 2 ≠ 3)
    (hrest : fld (word ws 1) 10 22 = 0) : execLoopMode p s = .next
    (if !bit (r.u 8 2) 6 then answer s p true ROLE_DENIED (s.roleOf p)
     else if s.st.phase != .running then answer s p true WRONG_STATE s.st.phase.code
     else (s.updSt fun t => { t with loopModes := t.loopModes ++
       [{ part := p, loop := fld (word ws 1) 0 8, mode := fld (word ws 1) 8 2, tick := nextPass s }] }).updMb p true
         fun m => { m with phase := .waiting }) := by
  have hgood : ¬ (fld (word ws 1) 8 2 = 3 ∨ fld (word ws 1) 10 22 ≠ 0) := by simp [hmode, hrest]
  simp only [execLoopMode, serve_eq h rfl rfl, needOperator_held hrole, hrec, if_neg hgood]
end

section
variable {s : State} {p : Part} {ws : List Word} (h : Served s p false .normal 0x0042 ws)
include h

theorem loopParam_good (hlock : s.st.lock = some p.val) {r : CfgRec} (hrec : s.cfgRec 0x0801 (fld (word ws 1) 0 8) = some r)
    (hrest : fld (word ws 1) 9 7 = 0) (hlo : 0x54 ≤ fld (word ws 1) 16 16) (halign : fld (word ws 1) 16 16 % 4 = 0)
    (hhi : fld (word ws 1) 16 16 + 4 * (paramWords ws).length ≤ 0x118) (hwords : ∀ w ∈ paramWords ws, paramWordBad w.1 w.2 = none) :
    execLoopParam p s = .next
    (let merged := mergeWords (s.st.loopStage.get (fld (word ws 1) 0 8) []) (paramWords ws)
     if bit (word ws 1) 8 then
       answer (s.updSt fun t => { t with loopStage := t.loopStage.set (fld (word ws 1) 0 8) merged }) p false OK
     else match paramInconsistent (withWords r merged) with
       | some o => answer s p false BAD_RECORD o
       | none => (s.updSt fun t => { t with loopParams := t.loopParams ++
           [{ part := p, loop := fld (word ws 1) 0 8, words := merged, tick := nextPass s }] }).updMb p false
             fun m => { m with phase := .waiting }) := by
  have hrange : ¬ (fld (word ws 1) 16 16 < 0x54 ∨ fld (word ws 1) 16 16 % 4 ≠ 0 ∨
      0x118 < fld (word ws 1) 16 16 + 4 * (paramWords ws).length) := by omega
  have hgood : (paramWords ws).findSome?
      (fun w => (paramWordBad w.1 w.2).map fun b => 8 + (w.1 - fld (word ws 1) 16 16) + b) = none := by
    rw [List.findSome?_eq_none_iff]
    intro w hw
    rw [hwords w hw]; rfl
  simp only [execLoopParam, serve_eq h rfl rfl, needLock_held hlock, hrec, if_neg (not_not.mpr hrest), if_neg hrange, hgood] <;> rfl
end

/-! The symbol patch -/

section
variable {s : State} {p : Part} {ws : List Word} (h : Served s p true .urgent 0x0040 ws) (hrole : 2 ≤ s.roleOf p)
include h hrole

theorem valuePatch_bad {o : Nat} (hbad : patchFields ws = some o) : execValuePatch p s = .next (answer s p true BAD_FIELD o) := by
  simp only [execValuePatch, serve_eq h rfl rfl, needOperator_held hrole, hbad]

variable (hgood : patchFields ws = none)
include hgood

/-- A list in a region is fetched first. -/
theorem valuePatch_region (hsrc : fld (word ws 1) 8 8 ≠ 0xFE) : execValuePatch p s = .next
    (match descBad s p (fld (word ws 1) 8 8) (word ws 2) (12 * fld (word ws 1) 0 8) 0 with
     | some st => answer s p true st (fld (word ws 1) 8 8)
     | none => beginXfer s p true (.patches (fld (word ws 1) 0 8) (fld (word ws 1) 8 8) (word ws 2))) := by
  simp only [execValuePatch, serve_eq h rfl rfl, needOperator_held hrole, hgood, if_neg hsrc] <;> rfl
theorem valuePatch_inline (hsrc : fld (word ws 1) 8 8 = 0xFE) : execValuePatch p s =
    .next (submitPatch s p (patchItems ((wordBytes ws).drop 12) (fld (word ws 1) 0 8))) := by
  simp only [execValuePatch, serve_eq h rfl rfl, needOperator_held hrole, hgood, if_pos hsrc]
end

/-- The first index at which a check fails. -/
theorem head?_filterMap_range {α : Type} {f : Nat → Option α} {i n : Nat} {x : α} (hi : i < n) (hpre : ∀ j, j < i → f j = none)
    (hx : f i = some x) : ((List.range n).filterMap f).head? = some x := by
  rw [List.head?_filterMap, List.findSome?_eq_some_iff]
  refine ⟨(List.range n).take i, i, (List.range n).drop (i + 1), ?_, hx, fun j hj => ?_⟩
  · have hcons := List.drop_eq_getElem_cons (l := List.range n) (i := i) (by simpa using hi)
    rw [List.getElem_range] at hcons
    rw [← hcons, List.take_append_drop]
  · rw [List.take_range, List.mem_range] at hj
    exact hpre j (by omega)

section
variable {s : State} {img : List Byte} (himg : s.st.prog = some img) (p : Nat) {items : List (Nat × List Byte)}
include himg

theorem submitPatch_bad {i : Nat} {r : Reject} (hi : i < items.length)
    (hpre : ∀ j, j < i → patchBad s img (s.roleOf p) j items = none) (hr : patchBad s img (s.roleOf p) i items = some r) :
    submitPatch s p items = answer s p true r.status r.d0 r.d1 := by
  simp only [submitPatch, himg, head?_filterMap_range hi hpre hr]
/-- A patch that every check accepts joins the batches, is reported, and is answered with its tick. -/
theorem submitPatch_good {t : TaskDef} (hgood : ∀ i, i < items.length → patchBad s img (s.roleOf p) i items = none)
    (htask : ((symDefs img).find? fun y => y.no == (items.getD 0 (0, [])).1).bind (fun y => s.taskDef y.level) = some t) :
    ∃ u, Reports (s.updSt fun st => { st with batches := st.batches ++ [⟨p, (s.part p).urg.order, t.level, dueTick s t, items⟩] }) u ∧
      submitPatch s p items = respond u p true OK 0 0 (dueTick s t % 2 ^ 32) := by
  have hnone : ((List.range items.length).filterMap fun i => patchBad s img (s.roleOf p) i items).head? = none := by
    rw [List.head?_filterMap, List.findSome?_eq_none_iff]
    exact fun i hi => hgood i (List.mem_range.mp hi)
  refine ⟨_, noteUnnamed_reports _ .patchBatch s.mainLane
    (leBytes p 1 ++ leBytes t.level 1 ++ leBytes items.length 1 ++ leBytes (dueTick s t) 4), ?_⟩
  simp only [submitPatch, himg, hnone, htask]
end

/-- Settles O18: each command by the checks that its fields pass, the patch through `submitPatch`. -/
theorem dataRows : Obligations.DataRows := by
  unfold Obligations.DataRows
  intro s p ws
  refine ⟨fun h ha hn hleast => ?image, fun h => ?mode, fun h => ?param, fun h => ?patch⟩
  case image =>
    extract_lets bs r
    refine ⟨fun hlen hmost => ⟨fun hok => ?_, fun hout => ?_⟩, fun hlen hmost hok hregion hw3 hoff => ?_⟩
    · exact (exec_imageRead p s).trans (imageRead_short h ha hn hleast hlen hmost hok)
    · exact (exec_imageRead p s).trans (imageRead_outside h ha hn hleast hlen hmost hout)
    · have he := (exec_imageRead p s).trans (imageRead_region h ha hn hleast hlen hmost hok hregion hw3 hoff)
      exact ⟨fun hd => by rw [he, hd], fun st hd => by rw [he, hd]⟩
  case mode =>
    extract_lets n mode
    refine ⟨fun hrole => ?_, fun hrole hrec => ?_, fun hrole r hrec hmode hrest => ?_⟩
    · rw [exec_loopMode, execLoopMode, serve_eq h rfl rfl, needOperator_denied hrole]
    · exact (exec_loopMode p s).trans (loopMode_noRecord h hrole hrec)
    · have he := (exec_loopMode p s).trans (loopMode_known h hrole hrec hmode hrest)
      refine ⟨fun hb => ?_, fun hb hp => ?_, fun hb hp => ?_⟩
      · rw [he, hb]; rfl
      · rw [he, hb, if_neg (by nofun), if_pos (by simpa using hp)]
      · rw [he, hb, hp]; rfl
  case param =>
    dsimp only
    refine ⟨fun hlock => ?_, fun hlock r hrec hrest hlo halign hhi hwords => ?_⟩
    · rw [exec_loopParam, execLoopParam, serve_eq h rfl rfl, needLock_refused hlock]
    · have he := (exec_loopParam p s).trans (loopParam_good h hlock hrec hrest hlo halign hhi hwords)
      refine ⟨fun hhold => ?_, fun hhold hok => ?_, fun o hhold hbad => ?_⟩
      · rw [he, hhold]; rfl
      · rw [he, hhold]; simp only [Bool.false_eq_true, if_false, hok]
      · rw [he, hhold]; simp only [Bool.false_eq_true, if_false, hbad]
  case patch =>
    extract_lets n src items
    refine ⟨fun hrole => ?_, fun hrole => ⟨fun o hbad => ?_, fun hgood hsrc => ?_, fun hgood hsrc img himg => ?_⟩⟩
    · rw [exec_valuePatch, execValuePatch, serve_eq h rfl rfl, needOperator_denied hrole]
    · exact (exec_valuePatch p s).trans (valuePatch_bad h hrole hbad)
    · have he := (exec_valuePatch p s).trans (valuePatch_region h hrole hgood hsrc)
      exact ⟨fun hd => by rw [he, hd], fun st hd => by rw [he, hd]⟩
    · have he := (exec_valuePatch p s).trans (valuePatch_inline h hrole hgood hsrc)
      refine ⟨fun i r hi hpre hr => by rw [he, submitPatch_bad himg p hi hpre hr], fun t hok htask => ?_⟩
      obtain ⟨u, hu, hsub⟩ := submitPatch_good himg p hok htask
      refine .mk (he.trans (congrArg _ hsub)) ⟨?_, respond_ended_of (show u.mbox p true = s.mbox p true from hu.mbox p true) ..⟩
      rw [respond_st_batches]; exact (congrArg Station.batches hu.st :)

end Sys2Proof.Machine
end

section
/-! The commands that start a transfer to the host (11 R318; 18 R470, R477). -/

namespace Sys2Proof.Machine

theorem exec_recorderRead (p : Part) (s : State) : exec (.recorderRead p) s = execRecorderRead p s := rfl
theorem exec_flowStats (p : Part) (s : State) : exec (.flowStats p) s = execFlowStats p s := rfl
theorem exec_retainedRead (p : Part) (s : State) : exec (.retainedRead p) s = execRetainedRead p s := rfl

/-- RECORDER_READ with good fields goes on to the range that it asks for. -/
theorem recorderRead_judged {s : State} {p : Part} {ws : List Word} (h : Served s p false .bulk 0x0050 ws)
    (hw2 : fld (word ws 2) 16 16 = 0) (hleast : 1 ≤ word ws 3) (hmost : word ws 3 ≤ ringSlots)
    (hregion : regionOk (fld (word ws 4) 0 8) = true) (hw4 : word ws 4 / 256 = 0)
    (hoff : regionOffOk (fld (word ws 4) 0 8) (word ws 5) = true) : execRecorderRead p s = .next
    (let first := word ws 1 + fld (word ws 2) 0 16 * 2 ^ 32
     let old := oldestSeq s.svc.rcd
     if s.svc.up = false then answer s p false RECORDER_DOWN
     else if first < old then answer s p false RANGE_GONE (old % 2 ^ 32) (old / 2 ^ 32)
     else match descBad s p (fld (word ws 4) 0 8) (word ws 5) (64 * word ws 3) 1 with
       | some st => answer s p false st (fld (word ws 4) 0 8)
       | none => beginXfer s p false
           (.slots first (min (word ws 3) (s.svc.rcd.next - first)) (fld (word ws 4) 0 8) (word ws 5))) := by
  have hw4' : word ws 4 < 256 := by omega
  simp [execRecorderRead, serve_eq h rfl rfl, firstBad, hw2, hleast, hmost, hregion, hw4', hoff] <;> rfl

theorem flowStats_judged {s : State} {p : Part} {ws : List Word} (h : Served s p false .bulk 0x0052 ws)
    (hw1 : word ws 1 / 65536 = 0) (hregion : regionOk (word ws 2) = true) (hoff : regionOffOk (word ws 2) (word ws 3) = true) :
    execFlowStats p s = .next
    (let first := fld (word ws 1) 0 8
     let n := min (fld (word ws 1) 8 8 + 1) (256 - first)
     match descBad s p (word ws 2) (word ws 3) (64 * n) 1 with
     | some st => answer s p false st (word ws 2)
     | none => beginXfer s p false
         (.toHost ((List.range n).flatMap fun i => flowStat s s.mainLane (first + i)) (word ws 2) (word ws 3) 0 s.tickNo [] false)) := by
  have hw1' : word ws 1 < 65536 := by omega
  simp [execFlowStats, serve_eq h rfl rfl, firstBad, hw1', hregion, hoff] <;> rfl

/-- The bank that a SELECT names. -/
def selectedBank (v : Recorder) (sel : Nat) : Option Bank :=
  match sel with
  | 0 => v.offered.map fun i => bankOf v i.val
  | k => some (bankOf v (k - 1))

theorem selectedBank_eq (v : Recorder) (sel : Nat) :
    selectedBank v sel = if sel = 0 then v.offered.map fun i => bankOf v i.val else some (bankOf v (sel - 1)) := by
  cases sel with
  | zero => rfl
  | succ k => rfl

section
variable {s : State} {p : Part} {ws : List Word} (h : Served s p false .bulk 0x0053 ws) (hlock : s.st.lock = some p.val)
include h hlock

theorem retainedRead_served : execRetainedRead p s = .next
    (let r := fld (word ws 1) 8 8
     let off := word ws 2
     let n := word ws 3
     let bank := (selectedBank s.svc.rcd (fld (word ws 1) 0 2)).filter fun b => b.valid
     let held (f : Bank → Bool) : Bool := !s.svc.up || bank.elim false f
     match firstBad [(decide (fld (word ws 1) 0 2 < 3) && fld (word ws 1) 2 6 == 0 && held fun _ => true, 4), (regionOk r, 5),
         (word ws 1 / 65536 == 0, 6), (off % 4 == 0 && held fun b => decide (off + n ≤ 64 + b.payload.length), 8),
         (n % 4 == 0 && decide (4 ≤ n ∧ n ≤ 16777280), 0x0C), (regionOffOk r (word ws 4), 0x10)] with
     | some b => answer s p false BAD_FIELD b
     | none =>
       if !s.svc.up then answer s p false RECORDER_DOWN
       else match bank, descBad s p r (word ws 4) n 1 with
         | none, _ => answer s p false BAD_FIELD 4
         | _, some st => answer s p false st r
         | some b, none =>
           beginXfer s p false (.toHost (((bankBytes b).drop off).take n) r (word ws 4) 0 s.tickNo [b.seq] true)) := by
  rw [execRetainedRead, serve_eq h rfl rfl, needLock_held hlock]; rfl

variable (hsel : fld (word ws 1) 0 2 < 3) (hrest : fld (word ws 1) 2 6 = 0)
  (hregion : regionOk (fld (word ws 1) 8 8) = true) (hw1 : word ws 1 / 65536 = 0) (hoff4 : word ws 2 % 4 = 0)
  (hn4 : word ws 3 % 4 = 0) (hleast : 4 ≤ word ws 3) (hmost : word ws 3 ≤ 16777280)
  (hoff : regionOffOk (fld (word ws 1) 8 8) (word ws 4) = true)

include hsel hrest hregion hw1 hoff4 hn4 hleast hmost hoff in
theorem retainedRead_down (hup : s.svc.up = false) : execRetainedRead p s = .next (answer s p false RECORDER_DOWN) := by
  have hw1' : word ws 1 < 65536 := by omega
  simp [retainedRead_served h hlock, firstBad, hsel, hrest, hregion, hw1', hoff4, hn4, hleast, hmost, hoff, hup]

variable (hup : s.svc.up = true)
include hup

theorem retainedRead_invalid (hinvalid : ∀ b, selectedBank s.svc.rcd (fld (word ws 1) 0 2) = some b → b.valid = false) :
    execRetainedRead p s = .next (answer s p false BAD_FIELD 4) := by
  have hnone : (selectedBank s.svc.rcd (fld (word ws 1) 0 2)).filter (fun b => b.valid) = none := by
    rw [Option.filter_eq_none_iff]
    intro b hb
    simp [hinvalid b hb]
  simp [retainedRead_served h hlock, firstBad, hup, hnone]

variable {b : Bank} (hbank : selectedBank s.svc.rcd (fld (word ws 1) 0 2) = some b) (hvalid : b.valid = true)
include hbank hvalid hsel hrest hregion hw1 hoff4

theorem retainedRead_outside (hlong : 64 + b.payload.length < word ws 2 + word ws 3) :
    execRetainedRead p s = .next (answer s p false BAD_FIELD 8) := by
  have hw1' : word ws 1 < 65536 := by omega
  simp [retainedRead_served h hlock, firstBad, hup, hbank, hvalid, Option.filter, hsel, hrest, hregion, hw1', hoff4, Nat.not_le.mpr hlong]

include hn4 hleast hmost hoff
theorem retainedRead_bank (hfits : word ws 2 + word ws 3 ≤ 64 + b.payload.length) : execRetainedRead p s = .next
    (match descBad s p (fld (word ws 1) 8 8) (word ws 4) (word ws 3) 1 with
     | some st => answer s p false st (fld (word ws 1) 8 8)
     | none => beginXfer s p false (.toHost (((bankBytes b).drop (word ws 2)).take (word ws 3)) (fld (word ws 1) 8 8)
         (word ws 4) 0 s.tickNo [b.seq] true)) := by
  have hw1' : word ws 1 < 65536 := by omega
  simp [retainedRead_served h hlock, firstBad, hup, hbank, hvalid, Option.filter, hsel, hrest, hregion, hw1', hoff4, hn4,
    hleast, hmost, hoff, hfits]
  cases descBad s p (fld (word ws 1) 8 8) (word ws 4) (word ws 3) 1 <;> rfl
end

/-- Settles O19: each command by what its fields ask for. -/
theorem transferRows : Obligations.TransferRows := by
  unfold Obligations.TransferRows
  intro s p ws
  dsimp only
  refine ⟨fun h hw2 hleast hmost hregion hw4 hoff => ?recorder, fun h hw1 hregion hoff => ?flows,
    fun h => ⟨fun hlock => ?refused, fun hlock hsel hrest hregion hw1 hoff4 hn4 hleast hmost hoff => ?retained⟩⟩
  case recorder =>
    have he := (exec_recorderRead p s).trans (recorderRead_judged h hw2 hleast hmost hregion hw4 hoff)
    refine ⟨fun hup => ?_, fun hup hgone => ?_, fun hup hold => ⟨fun st hd => ?_, fun hd => ?_⟩⟩
    · rw [he]; simp only [hup, if_true]
    · rw [he]; simp only [hup, Bool.true_eq_false, if_false, if_pos hgone]
    · rw [he]; simp only [hup, Bool.true_eq_false, if_false, if_neg (Nat.not_lt.mpr hold), hd]
    · rw [he]; simp only [hup, Bool.true_eq_false, if_false, if_neg (Nat.not_lt.mpr hold), hd]
  case flows =>
    have he := (exec_flowStats p s).trans (flowStats_judged h hw1 hregion hoff)
    exact ⟨fun st hd => by rw [he]; simp only [hd], fun hd => by rw [he]; simp only [hd]⟩
  case refused => rw [exec_retainedRead, execRetainedRead, serve_eq h rfl rfl, needLock_refused hlock]
  case retained =>
    rw [exec_retainedRead, ← selectedBank_eq]
    refine ⟨retainedRead_down h hlock hsel hrest hregion hw1 hoff4 hn4 hleast hmost hoff, retainedRead_invalid h hlock,
      fun b hup hbank hvalid => ⟨retainedRead_outside h hlock hsel hrest hregion hw1 hoff4 hup hbank hvalid,
        fun hfits => ?_⟩⟩
    rw [retainedRead_bank h hlock hsel hrest hregion hw1 hoff4 hn4 hleast hmost hoff hup hbank hvalid hfits]
    exact ⟨fun st hd => by rw [hd], fun hd => by rw [hd]⟩

end Sys2Proof.Machine
end

section
/-! Bulk transfers (03 R77, R83, R90, R98 to R100): the 4 KiB boundary, the completion of a piece, its failure and its silence. -/

namespace Sys2Proof.Machine

theorem exec_dmaCompletion (p : Part) (urg ok : Bool) (status : Word) (data : List Byte) (s : State) :
    exec (.dmaCompletion p urg ok status data) s = execDmaCompletion p urg ok status data s := rfl
theorem exec_dmaCompletionTimeout (p : Part) (urg : Bool) (s : State) :
    exec (.dmaCompletionTimeout p urg) s = execDmaCompletionTimeout p urg s := rfl

/-! How a transfer goes on -/

theorem mbox_main (s : State) (p : Nat) : s.mbox p false = (s.part p).main := rfl

/-- A change of a main mailbox moves no urgent command. -/
theorem urgentBusy_updMain (s : State) (p : Nat) (f : Mailbox → Mailbox) : urgentBusy (s.updMb p false f) = urgentBusy s := by
  have hurg (q : Nat) : ((s.updMb p false f).part q).urg = (s.part q).urg := by
    by_cases h : q = p
    · subst h; simp [State.updMb]
    · simp [State.updMb, part_updPart_ne _ _ _ _ h]
  simp only [urgentBusy, hurg]

section
variable {s : State} {p : Nat} {x : Xfer}

theorem goOn_detached (hb : (s.part p).main.atBoundary 4096 = true) (hatt : (s.part p).att = .detaching) :
    goOn s p false x = endMainDetached s p := if_pos ⟨hb, hatt, rfl⟩

variable (hatt : (s.part p).att ≠ .detaching) (hmore : (s.part p).main.bytes < x.size)
include hatt hmore

theorem goOn_held (hb : (s.part p).main.atBoundary 4096 = true) (hfront : s.st.bulkQueue.head? = some p) (hurg : urgentBusy s = true) :
    goOn s p false x = progress (s.updMb p false fun m => { m with preempted := true }) p false PREEMPTED := by
  have hruns : bulkRuns s p = true := by simp [bulkRuns, hfront]
  simp [goOn, mbox_main, hatt, Nat.not_le.mpr hmore, hb, hruns, hurg]
theorem goOn_fetches (hurg : urgentBusy s = false) (hin : x.isIn = true) : goOn s p false x = progress s p false RUNNING := by
  simp [goOn, mbox_main, hatt, Nat.not_le.mpr hmore, hurg, hin]
end

theorem endMainDetached_main {s : State} {p : Nat} (hbusy : (s.part p).main.busy = true) :
    ((endMainDetached s p).part p).main = (s.part p).main.ended DETACHED (s.part p).main.bytes 0 s.tickNo [] := by
  have hdrop (t : State) : ((dropHoldings t p).part p).main = (t.part p).main := (congrArg Partition.main (dropHoldings_part t p) :)
  unfold endMainDetached; extract_lets m u
  have hrespond : (if m.busy then respond u p false DETACHED m.bytes 0 u.tickNo else u) =
      respond u p false DETACHED m.bytes 0 u.tickNo := if_pos hbusy
  rw [hrespond, hdrop]
  exact respond_mbox u p false DETACHED m.bytes 0 u.tickNo []

/-! The 4 KiB boundary -/

section
variable {s : State} {p : Part} {x : Xfer} (hx : (s.part p).main.xfer = some x) (hrun : (s.part p).main.phase = .running)
  (hfront : s.st.bulkQueue.head? = some p.val) (hb : (s.part p).main.atBoundary 4096 = true)
include hx hrun hfront hb

/-- A transfer from the host that is held or ends here does not go on with its validation. -/
theorem bulkBoundary_stops {u : State} (hin : x.isIn = true) (hheld : (s.part p).main.preempted = false)
    (hstop : urgentBusy s = true ∨ (s.part p).att = .detaching) (hgo : goOn s p false x = u)
    (hu : (u.part p).main.preempted = true ∨ (u.part p).main.xfer = none) : execBulkBoundary s = .next u := by
  have hgone (x : Xfer) : ¬ ((u.part p).main.xfer = some x ∧ (u.part p).main.preempted = false) := by
    obtain hu | hu := hu
    · simp [hu]
    · simp [hu]
  simp [execBulkBoundary, hfront, hx, hrun, hb, hheld, hin, hstop, hgo]
  split
  · exact if_neg (hgone _)
  · rfl

theorem bulkBoundary_resumes (hheld : (s.part p).main.preempted = true) (hurg : urgentBusy s = false)
    (hno : ∀ t n h, x ≠ .validate t n h) : execBulkBoundary s =
      .next (goOn (s.updMb p false fun m => { m with preempted := false }) p false x) := by
  simp only [execBulkBoundary, resumeHeld, hfront, hx, hrun, hb, hheld, hurg]
  cases x
  case validate t n h => exact absurd rfl (hno t n h)
  all_goals rfl
end

/-! The completion of a piece -/

theorem resumeHeld_running {s : State} {p : Nat} (h : (s.part p).main.preempted = false) : resumeHeld s p = s := by
  unfold resumeHeld; extract_lets m
  split
  · exact if_neg (by simp [m, h])
  · rfl

section
variable {s : State} {p : Part} {urg : Bool} {x : Xfer} (hx : (s.mbox p urg).xfer = some x) (hbusy : (s.mbox p urg).busy = true)
  (hrun : (s.mbox p urg).phase = .running) (hheld : (s.mbox p urg).preempted = false) (hdma : x.isDma = true)
include hx hbusy hrun hheld hdma

theorem dmaCompletion_running (ok : Bool) (status : Word) (data : List Byte) : execDmaCompletion p urg ok status data s = .next
    (if !ok then answer s p urg DMA_FAULT (if x.isIn then (s.mbox p urg).bytes else (s.mbox p urg).flushed) status.toNat
     else if x.isIn then (if data.isEmpty then s else takeIn s p urg x (data.take 512))
     else goOn (s.updMb p urg fun m => { m with flushed := m.bytes }) p urg x) := by
  have hs : (if urg then s else resumeHeld s p) = s := by
    cases urg
    · exact resumeHeld_running hheld
    · rfl
  simp [execDmaCompletion, hs, hx, hbusy, hrun, hheld, hdma]
theorem dmaTimeout_running : execDmaCompletionTimeout p urg s = .next
    (answer s p urg DMA_FAULT (if x.isIn then (s.mbox p urg).bytes else (s.mbox p urg).flushed) 0xFFFFFFFF) := by
  simp [execDmaCompletionTimeout, hx, hbusy, hrun, hheld, hdma]
end

/-- A piece of a chunk within its request and its length goes whole into the staging area. -/
theorem takeIn_chunk {s : State} {p t off len r o : Nat} {a : StageArea} {data : List Byte} (hr : r ≠ 0xFF)
    (ha : s.st.stage.get? t = some a) (hfits : off + len ≤ a.total) (hpiece : data.length ≤ 4096 - (s.part p).main.bytes % 4096)
    (hmore : (s.part p).main.bytes + data.length < len) : takeIn s p false (.chunk t off len r o) data =
    goOn ((s.updSt fun st => { st with stage := st.stage.set t (a.put (off + (s.part p).main.bytes) data) }).updMb p false fun m =>
      { m with prev := m.bytes, bytes := m.bytes + data.length }) p false (.chunk t off len r o) := by
  have htake : data.take (min (len - (s.part p).main.bytes) (4096 - (s.part p).main.bytes % 4096)) = data :=
    List.take_of_length_le (by omega)
  simp [takeIn, mbox_main, Xfer.size, Xfer.region, hr, ha, Nat.not_lt.mpr hfits, htake]

/-- Settles O20: the boundary and the pieces through what `goOn` does, the failures by the mailbox's own bytes. -/
theorem bulkRows : Obligations.BulkRows := by
  unfold Obligations.BulkRows
  refine ⟨fun s p x hx hbusy hrun => ⟨fun hfront hin hb => ⟨fun hheld hatt => ?detached, fun hheld hatt hmore hurg => ?held,
      fun hheld hatt hmore hurg hno => ?resumes⟩,
      fun t off len r o a status data hheld hchunk hr ha hfits hne hreq hpiece hmore hatt hurg => ?piece⟩,
    fun s p urg x hx => ⟨fun hbusy hrun hheld hdma => ⟨fun status data => ?fails, ?silent⟩, fun hdma => ?notDma⟩⟩
  case detached =>
    have hmain := endMainDetached_main hbusy
    have hended : Ended s (endMainDetached s p) p false DETACHED (s.part p).main.bytes 0 s.tickNo [] := by
      constructor <;> rw [mbox_main, hmain] <;> rfl
    exact .mk ((exec_bulkBoundary s).trans (bulkBoundary_stops hx hrun hfront hb hin hheld (.inr hatt) (goOn_detached hb hatt)
      (.inr (by rw [hmain]; rfl)))) ⟨hended, (endMainDetached_emptied s p).1⟩
  case held =>
    have hgo := goOn_held (x := x) hatt hmore hb hfront hurg
    have hmbox := mbox_progress (s.updMb p false fun m => { m with preempted := true }) p false PREEMPTED
    rw [mbox_updMb, mbox_main, mbox_main] at hmbox
    refine .mk ((exec_bulkBoundary s).trans (bulkBoundary_stops hx hrun hfront hb hin hheld (.inl hurg) hgo (.inl ?_))) ⟨?_, ?_, ?_, ?_, ?_⟩
    · rw [hmbox]
    · rw [hmbox]
    · rw [hmbox]; exact hbusy
    · rw [hmbox]
    · rw [hmbox]
    · exact (updMb_othersSame s p false _).trans (progress_othersSame _ p false _)
  case resumes =>
    have hpart : (s.updMb p false fun m => { m with preempted := false }).part p =
        { s.part p with main := { (s.part p).main with preempted := false } } := by simp [State.updMb]
    have hgo := goOn_fetches (s := s.updMb p false fun m => { m with preempted := false }) (p := p) (x := x)
      (by rw [hpart]; exact hatt) (by rw [hpart]; exact hmore) (by rw [urgentBusy_updMain]; exact hurg) hin
    have hmbox := mbox_progress (s.updMb p false fun m => { m with preempted := false }) p false RUNNING
    rw [mbox_updMb, mbox_main, mbox_main] at hmbox
    refine .mk ((exec_bulkBoundary s).trans ((bulkBoundary_resumes hx hrun hfront hb hheld hurg hno).trans (congrArg _ hgo)))
      ⟨?_, ?_, ?_, ?_, ?_⟩
    · rw [hmbox]
    · rw [hmbox]; exact hbusy
    · rw [hmbox]
    · rw [hmbox]
    · exact (updMb_othersSame s p false _).trans (progress_othersSame _ p false _)
  case piece =>
    subst hchunk
    have hdma : (Xfer.chunk t off len r o).isDma = true := by simp [Xfer.isDma, Xfer.region, hr]
    have hstep := dmaCompletion_running (urg := false) hx hbusy hrun hheld hdma true status data
    have hempty : data.isEmpty = false := by simpa using hne
    simp only [Bool.not_true, Bool.false_eq_true, if_false, show (Xfer.chunk t off len r o).isIn = true from rfl, if_true, hempty,
      List.take_of_length_le hreq, takeIn_chunk hr ha hfits hpiece hmore] at hstep
    generalize hu : (s.updSt fun st => { st with stage := st.stage.set t (a.put (off + (s.part p).main.bytes) data) }).updMb p false
      (fun m => { m with prev := m.bytes, bytes := m.bytes + data.length }) = u at hstep
    have hpart : u.part p = { s.part p with main := { (s.part p).main with
        prev := (s.part p).main.bytes, bytes := (s.part p).main.bytes + data.length } } := by
      rw [← hu]; simp [State.updMb]
    have hurg' : urgentBusy u = false := by rw [← hu, urgentBusy_updMain]; exact hurg
    have hothers : OthersSame s u p := by rw [← hu]; exact updMb_othersSame _ p false _
    have hstage : u.st.stage.get? t = some (a.put (off + (s.part p).main.bytes) data) := by
      rw [← hu]; exact Tab.get?_set ..
    rw [goOn_fetches (by rw [hpart]; exact hatt) (by rw [hpart]; exact hmore) hurg' rfl] at hstep
    have hmbox := mbox_progress u p false RUNNING
    rw [mbox_main, mbox_main, hpart] at hmbox
    exact .mk ((exec_dmaCompletion ..).trans hstep) ⟨hstage, by rw [hmbox], by rw [hmbox]; exact hbusy,
      hothers.trans (progress_othersSame u p false _)⟩
  case fails =>
    rw [exec_dmaCompletion, dmaCompletion_running hx hbusy hrun hheld hdma]; rfl
  case silent => rw [exec_dmaCompletionTimeout, dmaTimeout_running hx hbusy hrun hheld hdma]
  case notDma =>
    rw [exec_dmaCompletionTimeout, execDmaCompletionTimeout]
    simp [hx, hdma]

end Sys2Proof.Machine
end

section
/-! The Terist host link (03 R101 to R103, R313): HELLO, register messages, data, acknowledgement and silence. -/

namespace Sys2Proof.Machine

theorem exec_thlHello (p : Part) (rx : Rx) (l : LaneId) (nonce : List Byte) (s : State) :
    exec (.thlHello p rx l nonce) s = execThlHello p rx l nonce s := rfl
theorem exec_thlRegRead (p : Part) (rx : Rx) (sess seq addr : Nat) (tag : List Byte) (s : State) :
    exec (.thlRegRead p rx sess seq addr tag) s = execThlRegRead p rx sess seq addr tag s := rfl
theorem exec_thlRegWrite (p : Part) (rx : Rx) (sess seq addr : Nat) (w : Word) (tag : List Byte) (dt : Nat) (s : State) :
    exec (.thlRegWrite p rx sess seq addr w tag dt) s = execThlRegWrite p rx sess seq addr w tag dt s := rfl
theorem exec_thlData (p : Part) (rx : Rx) (sess seq cs off : Nat) (data tag : List Byte) (s : State) :
    exec (.thlData p rx sess seq cs off data tag) s = execThlData p rx sess seq cs off data tag s := rfl
theorem exec_thlAck (p : Part) (rx : Rx) (sess seq cs off : Nat) (tag : List Byte) (s : State) :
    exec (.thlAck p rx sess seq cs off tag) s = execThlAck p rx sess seq cs off tag s := rfl
theorem exec_thlStalled (p : Part) (urg : Bool) (s : State) : exec (.thlStalled p urg) s = execThlStalled p urg s := rfl

/-! HELLO -/

theorem thlHello_served {s s1 : State} {p : Part} {rx : Rx} {l : LaneId} {pass : Bool} (h : thlServed s l = true)
    (hin : thlIn s l p rx = (pass, s1)) (nonce : List Byte) :
    execThlHello p rx l nonce s = .next (if pass then thlOpen s1 p l nonce (thlBase s1 p) else s1) := by
  cases pass
  · simp [execThlHello, h, hin]
  · simp [execThlHello, h, hin]

/-- The first message of a session. -/
theorem thlSend_session {s : State} {p : Nat} {t : ThlSess} (h : (s.part p).thl = some t) (k : ThlKind) (content : List Byte) :
    ((thlSend s p k content).part p).thl = some { t with sent := (t.sent + 1) % 2 ^ 32 } ∧
    (thlSend s p k content).free = s.free ∧ ∃ l prp, (thlSend s p k content).out =
      s.out ++ [.thl l prp p t.id ((t.sent + 1) % 2 ^ 32) k content (thlTag t p ((t.sent + 1) % 2 ^ 32) k content)] := by
  simp only [thlSend, h]
  refine ⟨?_, ?_, s.thlLane t, (s.lane (s.thlLane t)).net.prpSeq, ?_⟩
  · simp [sendBoth, countPort, State.updNet]
  · simp [sendBoth, countPort, State.updNet]
  · simp [sendBoth, countPort, State.updNet]

/-- The session that a HELLO opens. -/
def thlFresh (s : State) (p : Nat) (l : LaneId) (base nonce own : List Byte) : ThlSess :=
  { id := Config.freeNat s.free % 2 ^ 32, key := hkdf256 base (Config.thlSalt nonce own) Config.thlInfo, high := 0, seen := [], lane := l,
    discarded := ((s.part p).thl.map fun t => t.discarded).getD 0 }

theorem thlOpen_base (s : State) (p : Nat) (l : LaneId) (nonce base : List Byte) : thlOpen s p l nonce (some base) =
    let own := (List.range nonce.length).map fun i => Config.nonceByte s.free i
    thlSend (s.takeFree.2.updPart p fun q => { q with thl := some (thlFresh s p l base nonce own) }) p .hello own := rfl

/-! A judged message -/

/-- A message with an old sequence or a wrong tag is counted. -/
def thlDropped (s : State) (p : Nat) : State := setThl s p fun t => { t with discarded := t.discarded + 1 }

section
variable {s s1 : State} {p : Part} {rx : Rx} {v : ThlSess} (hthl : (s.part p).thl = some v) (hin : thlIn s (s.thlLane v) p rx = (true, s1))
include hthl hin

theorem thlTake_judged (sess seq : Nat) (k : ThlKind) (content tag : List Byte) (bad : State → State) (f : State → ThlSess → State) :
    thlTake s p rx sess seq k content tag bad f = thlAct s1 p seq bad f (thlCheck s1 p sess seq k content tag) := by
  simp [thlTake, hthl, hin]

variable {sess seq : Nat} {k : ThlKind} {content tag : List Byte} {bad : State → State} {f : State → ThlSess → State}

theorem thlTake_none (h : thlCheck s1 p sess seq k content tag = .none) : thlTake s p rx sess seq k content tag bad f = s1 := by
  rw [thlTake_judged hthl hin, h]; rfl
theorem thlTake_badTag (h : thlCheck s1 p sess seq k content tag = .badTag) :
    thlTake s p rx sess seq k content tag bad f = bad (thlDropped s1 p) := by
  rw [thlTake_judged hthl hin, h]; rfl
theorem thlTake_old (h : thlCheck s1 p sess seq k content tag = .old) :
    thlTake s p rx sess seq k content tag bad f = thlDropped s1 p := by
  rw [thlTake_judged hthl hin, h]; rfl
theorem thlTake_dropped (h : thlCheck s1 p sess seq k content tag = .badTag ∨ thlCheck s1 p sess seq k content tag = .old) :
    thlTake s p rx sess seq k content tag id f = thlDropped s1 p := by
  obtain h | h := h
  · exact thlTake_badTag hthl hin h
  · exact thlTake_old hthl hin h
theorem thlTake_good (h : thlCheck s1 p sess seq k content tag = .good v) :
    thlTake s p rx sess seq k content tag bad f = f (setThl s1 p fun t => takeSeq t seq) v := by
  rw [thlTake_judged hthl hin, h]; rfl
end

/-- A transfer that is not held is its mailbox's own to go on with. -/
theorem resumeHeld_mailbox {s : State} {p : Nat} {urg : Bool} (h : (s.mbox p urg).preempted = false) :
    (if urg then s else resumeHeld s p) = s := by
  cases urg
  · exact resumeHeld_running h
  · rfl

/-- What a good data message does to the transfer that takes it. -/
def thlDataStep (s : State) (p cs off : Nat) (data : List Byte) : State :=
  match thlMailbox s p cs true with
  | none => s
  | some urg =>
    let s := if urg then s else resumeHeld s p
    let m := s.mbox p urg
    match m.xfer with
    | none => s
    | some x =>
      if m.preempted then s
      else if off + data.length ≤ m.bytes then thlSend s p .ack (leBytes cs 1 ++ leBytes off 4)
      else if off ≠ m.bytes ∨ data.isEmpty then s
      else takeIn (thlSend s p .ack (leBytes cs 1 ++ leBytes off 4)) p urg x (data.take 1024)
/-- What a good acknowledgement does to the transfer that waits for it. -/
def thlAckStep (s : State) (p cs off : Nat) : State :=
  match thlMailbox s p cs false with
  | none => s
  | some urg =>
    let s := if urg then s else resumeHeld s p
    let m := s.mbox p urg
    match m.xfer with
    | none => s
    | some x => if m.preempted ∨ off ≠ m.flushed ∨ m.bytes = m.flushed then s
      else goOn (s.updMb p urg fun m => { m with flushed := m.bytes }) p urg x

theorem execThlData_eq (p : Part) (rx : Rx) (sess seq cs off : Nat) (data tag : List Byte) (s : State) :
    execThlData p rx sess seq cs off data tag s = .next (thlTake s p rx sess seq .data (leBytes cs 1 ++ leBytes off 4 ++ data) tag
      (fun s => match thlMailbox s p cs true with
        | some urg => answer s p urg THL_AUTH (seq % 2 ^ 32)
        | none => s)
      fun s _ => thlDataStep s p cs off data) := rfl
theorem execThlAck_eq (p : Part) (rx : Rx) (sess seq cs off : Nat) (tag : List Byte) (s : State) :
    execThlAck p rx sess seq cs off tag s = .next (thlTake s p rx sess seq .ack (leBytes cs 1 ++ leBytes off 4) tag id
      fun s _ => thlAckStep s p cs off) := rfl

section
variable {s : State} {p cs off : Nat} {urg : Bool} {x : Xfer} {data : List Byte}

theorem thlDataStep_none (h : thlMailbox s p cs true = none) : thlDataStep s p cs off data = s := by rw [thlDataStep, h]
theorem thlAckStep_none (h : thlMailbox s p cs false = none) : thlAckStep s p cs off = s := by rw [thlAckStep, h]

variable (hx : (s.mbox p urg).xfer = some x) (hheld : (s.mbox p urg).preempted = false)
include hx hheld

theorem thlDataStep_some (h : thlMailbox s p cs true = some urg) : thlDataStep s p cs off data =
    if off + data.length ≤ (s.mbox p urg).bytes then thlSend s p .ack (leBytes cs 1 ++ leBytes off 4)
    else if off ≠ (s.mbox p urg).bytes ∨ data.isEmpty then s
    else takeIn (thlSend s p .ack (leBytes cs 1 ++ leBytes off 4)) p urg x (data.take 1024) := by
  simp only [thlDataStep, h, resumeHeld_mailbox hheld, hx, hheld, Bool.false_eq_true, if_false]
theorem thlAckStep_some (h : thlMailbox s p cs false = some urg) : thlAckStep s p cs off =
    if off ≠ (s.mbox p urg).flushed ∨ (s.mbox p urg).bytes = (s.mbox p urg).flushed then s
    else goOn (s.updMb p urg fun m => { m with flushed := m.bytes }) p urg x := by
  simp only [thlAckStep, h, resumeHeld_mailbox hheld, hx, hheld, Bool.false_eq_true, false_or]
end

/-- Settles O21: HELLO by its session, the messages by the judgement of each, silence by the transfer. -/
theorem thlRows : Obligations.ThlRows := by
  unfold Obligations.ThlRows
  refine ⟨fun s s1 p rx l nonce pass => ⟨fun hno => ?unserved, fun hserved hin => ⟨fun hpass => ?discarded, fun hpass hbase => ?keyless,
      fun base hpass hbase => ?opens⟩⟩,
    fun s s1 p rx v sess seq tag hthl hin => ?messages,
    fun s p urg x hx hbusy hrun hheld => ⟨fun hthl => ?stalls, fun hdma => ?other⟩⟩
  case unserved => rw [exec_thlHello, execThlHello, hno]; rfl
  case discarded => rw [exec_thlHello, thlHello_served hserved hin, hpass]; rfl
  case keyless => rw [exec_thlHello, thlHello_served hserved hin, hpass, hbase]; rfl
  case opens =>
    subst hpass
    have hthl (own : List Byte) : ((s1.takeFree.2.updPart p fun q => { q with thl := some (thlFresh s1 p l base nonce own) }).part p).thl =
        some (thlFresh s1 p l base nonce own) := by rw [part_updPart]
    obtain ⟨hsess, hfree, k, prp, hout⟩ := thlSend_session (hthl ((List.range nonce.length).map fun i => Config.nonceByte s1.free i)) .hello
      ((List.range nonce.length).map fun i => Config.nonceByte s1.free i)
    refine .mk ((exec_thlHello ..).trans ((thlHello_served hserved hin nonce).trans (by rw [if_pos rfl, hbase, thlOpen_base])))
      ⟨hfree, _, k, prp, hsess, rfl, rfl, rfl, rfl, rfl, rfl, ?_⟩
    rw [hout]; rfl
  case messages =>
    dsimp only
    refine ⟨fun addr => ⟨fun hj => ?_, fun hj => ?_, fun hj => ?_⟩, fun addr w dt => ⟨fun hj => ?_, fun hj => ?_, fun hj => ?_⟩,
      fun cs off data => ⟨fun hj => ?dataNone, fun hj => ?dataOld, fun urg hj hm => ?dataBad, fun hj hm => ?dataBadNone,
        fun hj hm => ?dataNowhere, fun urg x hj hm hx hheld => ?dataTaken⟩,
      fun cs off => ⟨fun hj => ?_, fun hj => ?_, fun hj hm => ?ackNowhere, fun urg x hj hm hx hheld => ?ackTaken⟩⟩
    · rw [exec_thlRegRead, execThlRegRead, thlTake_none hthl hin hj]
    · rw [exec_thlRegRead, execThlRegRead, thlTake_dropped hthl hin hj]; rfl
    · rw [exec_thlRegRead, execThlRegRead, thlTake_good hthl hin hj]
    · rw [exec_thlRegWrite, execThlRegWrite, thlTake_none hthl hin hj]
    · rw [exec_thlRegWrite, execThlRegWrite, thlTake_dropped hthl hin hj]; rfl
    · rw [exec_thlRegWrite, execThlRegWrite, thlTake_good hthl hin hj]
    case dataNone => rw [exec_thlData, execThlData_eq, thlTake_none hthl hin hj]
    case dataOld => rw [exec_thlData, execThlData_eq, thlTake_old hthl hin hj]; rfl
    case dataBad =>
      rw [exec_thlData, execThlData_eq, thlTake_badTag hthl hin hj]
      rw [show thlMailbox (thlDropped s1 p) p cs true = some urg from hm]; rfl
    case dataBadNone =>
      rw [exec_thlData, execThlData_eq, thlTake_badTag hthl hin hj]
      rw [show thlMailbox (thlDropped s1 p) p cs true = none from hm]; rfl
    case dataNowhere => rw [exec_thlData, execThlData_eq, thlTake_good hthl hin hj, thlDataStep_none hm]
    case dataTaken =>
      rw [exec_thlData, execThlData_eq, thlTake_good hthl hin hj, thlDataStep_some hx hheld hm]
      refine ⟨fun htaken => by rw [if_pos htaken], fun hoff hnew => ?_, fun hoff hne hlen => ?_⟩
      · rw [if_neg (by omega), if_pos (.inl hoff)]
      · have hpos : 0 < data.length := List.length_pos_iff.mpr hne
        rw [if_neg (by omega), if_neg (by simp [hoff, hne]), List.take_of_length_le hlen]
    · rw [exec_thlAck, execThlAck_eq, thlTake_none hthl hin hj]
    · rw [exec_thlAck, execThlAck_eq, thlTake_dropped hthl hin hj]; rfl
    case ackNowhere => rw [exec_thlAck, execThlAck_eq, thlTake_good hthl hin hj, thlAckStep_none hm]
    case ackTaken =>
      rw [exec_thlAck, execThlAck_eq, thlTake_good hthl hin hj, thlAckStep_some hx hheld hm]
      exact ⟨fun hno => by rw [if_pos hno], fun hoff hnew => by rw [if_neg (by simp [hoff, hnew])]⟩
  case stalls => simp [exec_thlStalled, execThlStalled, hx, hbusy, hrun, hheld, hthl]
  case other => simp [exec_thlStalled, execThlStalled, hx, hdma]

end Sys2Proof.Machine
end

section
/-! Logic power-good and the start of a lane (00 R2; 02 R53; 04 R106; 21 R517). -/

namespace Sys2Proof.Machine

theorem exec_windowUp (l : LaneId) (fw : Nat) (s : State) : exec (.windowUp l fw) s = execWindowUp l fw s := rfl

/-! Logic power-good -/

/-- What a lane keeps over a loss of its feed. -/
def Lane.marks (v : Lane) : Bool × Nat := (v.suspect, v.lateBase)

theorem Reports.marks {s t : State} (h : Reports s t) (l : LaneId) : (t.lane l).marks = (s.lane l).marks :=
  (congrArg Lane.marks (h.lane l) :)
theorem enterSk_marks (s : State) (ph : SkPhase) (pay : List Byte) (l : LaneId) :
    ((enterSk s ph pay).lane l).marks = (s.lane l).marks := by
  unfold enterSk; extract_lets u v
  have hv : v.lane l = s.lane l := by
    simp only [v, outputsOff]; split
    · exact lane_updSk ..
    · simp only [lane_updSk, u]
  rw [← hv]
  exact Reports.marks (raise_reports ..) l
theorem powerIslands_marks (s : State) (l : LaneId) : ((powerIslands s).lane l).marks = (s.lane l).marks := by
  have hfold (xs : List Nat) (s : State) : (xs.foldl (fun s i => s.updIsl i fun x => { x with powered := true }) s).lane l = s.lane l := by
    induction xs generalizing s with
    | nil => rfl
    | cons x xs ih => exact (ih _).trans (lane_updIsl ..)
  unfold powerIslands; extract_lets u
  have hu : u.lane l = s.lane l := hfold ..
  split
  · unfold skWake; split
    · rw [enterSk_marks, hu]
    · rw [hu]
  · rw [enterSk_marks, lane_updSk, hu]
theorem panelPowerUp_marks (s : State) (map : Option (List (Nat × Fin 4))) (l : LaneId) :
    ((panelPowerUp s map).lane l).marks = (s.lane l).marks := by
  unfold panelPowerUp; extract_lets u
  have hu : u.lane l = s.lane l := lane_updSvc ..
  rw [← hu]
  split
  · rfl
  · exact Reports.marks (raise_reports ..) l

/-- A lane whose feed comes up. -/
def Lane.fed (v : Lane) (cid : BitVec 4) (mac : Nat) : Lane :=
  { feed := true, phase := if cid = 0b1010#4 then .starting else .stopped, cidOk := decide (cid = 0b1010#4), mac := mac,
    suspect := v.suspect, feedCycled := true, lateBase := v.lateBase, img := bareImage, frozen := bareImage }

theorem Lane.fed_congr {v w : Lane} (h : v.marks = w.marks) (cid : BitVec 4) (mac : Nat) : v.fed cid mac = w.fed cid mac := by
  have hsuspect : v.suspect = w.suspect := (congrArg Prod.fst h :)
  have hbase : v.lateBase = w.lateBase := (congrArg Prod.snd h :)
  simp only [Lane.fed, hsuspect, hbase]

theorem logicPowerGood_fed {s : State} {l : LaneId} (h : (s.lane l).feed = false) (cid : BitVec 4) (mv mac : Nat)
    (map : Option (List (Nat × Fin 4))) : ∃ t, execLogicPowerGood l cid mv mac map s = .next t ∧ t.lane l = (s.lane l).fed cid mac := by
  have hoff : ¬ (s.lane l).feed = true := by rw [h]; nofun
  unfold execLogicPowerGood
  rw [if_neg hoff]
  extract_lets dark both u1 u2 u3 u4 u5
  have h1 : u1.lane l = s.lane l := by
    simp only [u1]; split
    · cases l <;> rfl
    · rfl
  have h2 : u2.lane l = u1.lane l := by
    simp only [u2]; split
    · exact lane_updLane_ne _ _ _ _ (by cases l <;> nofun)
    · rfl
  have h3 : (u3.lane l).marks = (u2.lane l).marks := powerIslands_marks ..
  have h4 : u4.lane l = u3.lane l := lane_updSvc ..
  have h5 : (u5.lane l).marks = (u4.lane l).marks := by
    simp only [u5]; split
    · exact panelPowerUp_marks ..
    · rfl
  refine ⟨_, rfl, ?_⟩
  rw [lane_updLane]
  exact Lane.fed_congr (by rw [h5, h4, h3, h2, h1]) cid mac

/-! The window coming up -/

/-- One partition's part of the windows coming up. -/
def freshStep (l : LaneId) (s : State) (p : Nat) : State := if freshWindow s l p then resetWindow s p else s

theorem freshStep_same (l : LaneId) (s : State) {p q : Nat} (h : q ≠ p) : (freshStep l s p).part q = s.part q := by
  unfold freshStep; split
  · exact part_updPart_ne _ _ _ _ h
  · rfl
theorem freshStep_lane (l m : LaneId) (s : State) (p : Nat) : (freshStep l s p).lane m = s.lane m := by
  unfold freshStep; split
  · exact lane_updPart ..
  · rfl
theorem freshStep_st (l : LaneId) (s : State) (p : Nat) : (freshStep l s p).st = s.st := by
  unfold freshStep; split
  · rfl
  · rfl
theorem freshWindow_congr {s t : State} {l : LaneId} {p : Nat} (hpart : t.part p = s.part p) (hlane : t.lane (other l) = s.lane (other l)) :
    freshWindow t l p = freshWindow s l p := by
  simp only [freshWindow, State.holdsRing, State.isAttached, hpart, hlane]

theorem freshFold_same (l : LaneId) (xs : List Nat) (s : State) {p : Nat} (h : p ∉ xs) : (xs.foldl (freshStep l) s).part p = s.part p := by
  induction xs generalizing s with
  | nil => rfl
  | cons x xs ih =>
    rw [List.foldl_cons, ih _ fun hm => h (.tail x hm), freshStep_same l s fun he => h (by rw [he]; exact .head xs)]
theorem freshFold_lane (l m : LaneId) (xs : List Nat) (s : State) : (xs.foldl (freshStep l) s).lane m = s.lane m := by
  induction xs generalizing s with
  | nil => rfl
  | cons x xs ih => rw [List.foldl_cons, ih, freshStep_lane]
theorem freshFold_st (l : LaneId) (xs : List Nat) (s : State) : (xs.foldl (freshStep l) s).st = s.st := by
  induction xs generalizing s with
  | nil => rfl
  | cons x xs ih => rw [List.foldl_cons, ih, freshStep_st]

/-- Of the partitions that the fold visits, each once, exactly the fresh ones stand at their reset values. -/
theorem freshFold_part (l : LaneId) (xs : List Nat) (hxs : xs.Nodup) (s : State) {p : Nat} (h : p ∈ xs) :
    (xs.foldl (freshStep l) s).part p = if freshWindow s l p then
      { bus := (s.part p).bus, lane := (s.part p).lane, thl := (s.part p).thl } else s.part p := by
  induction xs generalizing s with
  | nil => nomatch h
  | cons x xs ih =>
    obtain ⟨hx, hxs⟩ := List.nodup_cons.mp hxs
    rw [List.foldl_cons]
    by_cases he : p = x
    · subst he
      rw [freshFold_same l xs _ hx, freshStep]
      split
      · exact part_updPart ..
      · rfl
    · have hpart := freshStep_same l s he
      rw [ih hxs _ ((List.mem_cons.mp h).resolve_left he), hpart, freshWindow_congr hpart (freshStep_lane ..)]

theorem windowUp_comes {s : State} {l : LaneId} (hfeed : (s.lane l).feed = true) (hcid : (s.lane l).cidOk = true)
    (hphase : (s.lane l).phase = .starting ∨ (s.lane l).phase = .stopped) (fw : Nat) :
    execWindowUp l fw s = .next (allParts.foldl (freshStep l) (s.updLane l (bootLane fw))) := by
  obtain h | h := hphase
  · simp [execWindowUp, hfeed, hcid, h]; rfl
  · simp [execWindowUp, hfeed, hcid, h]; rfl

/-- Settles O22: the lane through what it keeps over the loss of its feed, the windows through the fold over the partitions. -/
theorem lanePowerRows : Obligations.LanePowerRows := by
  unfold Obligations.LanePowerRows
  refine fun s l => ⟨fun cid mv mac map hfeed => ?fed, fun cid mv mac map hfeed => ?feedStands, fun fw hfeed hcid hphase => ?up,
    fun fw hno => ?notUp⟩
  case fed =>
    obtain ⟨t, he, ht⟩ := logicPowerGood_fed hfeed cid mv mac map
    exact .mk ((exec_logicPowerGood ..).trans he) ht
  case feedStands => exact if_pos hfeed
  case up =>
    intro failed
    refine .mk ((exec_windowUp ..).trans (windowUp_comes hfeed hcid hphase fw)) ⟨?_, ?_, ?_, fun p => ?_⟩
    · rw [freshFold_lane, lane_updLane]; rfl
    · rw [freshFold_lane, lane_updLane_other]
    · rw [freshFold_st, updLane_st]
    · have hmem : p.val ∈ allParts := by revert p; decide
      rw [freshFold_part l allParts (by decide) _ hmem, freshWindow_congr (part_updLane ..) (lane_updLane_other ..), part_updLane]
      congr 1
      simp [freshWindow]
  case notUp =>
    rw [exec_windowUp, execWindowUp]
    refine congrArg _ (if_neg ?_)
    obtain h | h | ⟨h, g⟩ := hno
    · simp [h]
    · simp [h]
    · simp [h, g]

end Sys2Proof.Machine
end

section
/-! The steps of start-up and their failures (00 R22; 04 R105 to R109, R112; 10 R264). -/

namespace Sys2Proof.Machine

theorem exec_clockQualification (l : LaneId) (n k : Nat) (s : State) :
    exec (.clockQualification l n k) s = execClockQualification l n k s := rfl
theorem exec_rolesStep (l : LaneId) (s : State) : exec (.rolesStep l) s = execRolesStep l s := rfl
theorem exec_roleWaitTimeout (s : State) : exec .roleWaitTimeout s = execRoleWaitTimeout s := rfl
theorem exec_startupComplete (l : LaneId) (s : State) : exec (.startupComplete l) s = execStartupComplete l s := rfl
theorem exec_startupStepFail (l : LaneId) (step code : Nat) (s : State) :
    exec (.startupStepFail l step code) s = execStartupStepFail l step code s := rfl

theorem stepFails_reports (s : State) (l : LaneId) (step code : Nat) : Reports (s.updLane l fun v =>
    { v with role := .offline, cause := .startup, health := .failed, failStep := step, failCode := code, tok := {}, lit := true })
    (stepFails s l step code) := noteUnnamed_reports ..

theorem partnerShows_some {s : State} {l : LaneId} {w : HbWord} (h : (s.lane l).beat.word = some w) (f : HbWord → Bool) :
    partnerShows s l f = f w := by rw [partnerShows, h]
theorem partnerShows_none {s : State} {l : LaneId} (h : (s.lane l).beat.word = none) (f : HbWord → Bool) :
    partnerShows s l f = false := by rw [partnerShows, h]

/-! The roles step -/

section
variable {s : State} {l : LaneId} (hrun : (s.lane l).phase = .running) (hclk : (s.lane l).clkQual = true)
  (hstep : (s.lane l).rolesStep = false) (hcause : (s.lane l).cause ≠ .startup)
include hrun hclk hstep hcause

theorem rolesStep_open : execRolesStep l s =
    .next (let u := s.updLane l fun v => { v with rolesStep := true }
      if partnerShows s l (fun w => w.fw != (s.lane l).fw) then
        versionsDiffer u l (((s.lane l).beat.word.map fun w => w.fw).getD 0)
      else if partnerShows s l (fun w => w.role == 2 || w.role == 3) then u.updLane l fun v => { v with startDone := true }
      else if l = .a ∨ partnerShows s l (fun w => w.health == 3) = true then askToken u l .startUp
      else u) := by
  have hshows (f : HbWord → Bool) : partnerShows (s.updLane l fun v => { v with rolesStep := true }) l f = partnerShows s l f := by
    simp only [partnerShows, lane_updLane]
  simp [execRolesStep, hrun, hclk, hstep, hcause, hshows]

theorem rolesStep_differs {w : HbWord} (hw : (s.lane l).beat.word = some w) (hfw : w.fw ≠ (s.lane l).fw) : execRolesStep l s =
    .next (raise (s.updLane l fun v =>
        { v with rolesStep := true, cause := .firmware, health := .failed, needCycle := true, startDone := true, tok := {} })
      { src := 38, code := 4, data := w.fw % 2 ^ 32, lane := l, pay := leBytes (s.lane l).fw 4 }) := by
  simp [rolesStep_open hrun hclk hstep hcause, partnerShows_some hw, hfw, hw, versionsDiffer]
theorem rolesStep_serves {w : HbWord} (hw : (s.lane l).beat.word = some w) (hfw : w.fw = (s.lane l).fw)
    (hrole : w.role = 2 ∨ w.role = 3) :
    execRolesStep l s = .next (s.updLane l fun v => { v with rolesStep := true, startDone := true }) := by
  simp [rolesStep_open hrun hclk hstep hcause, partnerShows_some hw, hfw, hrole]
theorem rolesStep_asks {asks : Bool} (h : ((s.lane l).beat.word = none ∧ asks = (l == .a)) ∨
      (∃ w, (s.lane l).beat.word = some w ∧ w.fw = (s.lane l).fw ∧ w.role ≠ 2 ∧ w.role ≠ 3 ∧ asks = (l == .a || w.health == 3))) :
    execRolesStep l s = .next (s.updLane l fun v =>
      { v with rolesStep := true, tok := if asks then { v.tok with asked := some .startUp, reply := none } else v.tok }) := by
  rw [rolesStep_open hrun hclk hstep hcause]
  obtain ⟨hw, rfl⟩ | ⟨w, hw, hfw, h2, h3, rfl⟩ := h
  · cases l
    · simp [partnerShows_none hw, askToken]
    · simp [partnerShows_none hw]
  · cases l
    · simp [partnerShows_some hw, hfw, h2, h3, askToken]
    · by_cases hh : w.health = 3
      · simp [partnerShows_some hw, hfw, h2, h3, hh, askToken]
      · simp [partnerShows_some hw, hfw, h2, h3, hh]
end

/-! The end of start-up -/

/-- The choice of a bank reports and offers a bank, and moves no lane. -/
theorem chooseBank_stationSame (s : State) : StationSame s (chooseBank s) := by
  unfold chooseBank; extract_lets n u
  have hu : Reports s u := by
    simp only [u]; split
    · exact raise_reports ..
    · split
      · exact raise_reports ..
      · exact .refl s
  exact hu.stationSame.trans (updSvc_stationSame ..)
theorem chooseBank_lane (s : State) (l : LaneId) : ((chooseBank s).lane l).lessStaging = (s.lane l).lessStaging := by
  unfold chooseBank; extract_lets n u
  have hu : Reports s u := by
    simp only [u]; split
    · exact raise_reports ..
    · split
      · exact raise_reports ..
      · exact .refl s
  rw [lane_updRec]; exact hu.lane l

/-- The state as start-up leaves it, with the acting lane SOLO beside a partner that is OFFLINE. -/
def soloAlone (s : State) : State :=
  match s.activeLane with
  | some x => if (s.lane (other x)).role == Role.offline then s.updLane x fun v => { v with role := .solo } else s
  | none => s

theorem soloAlone_active {s : State} {x : LaneId} (h : s.activeLane = some x) :
    ((soloAlone s).lane x).role = (if (s.lane (other x)).role = .offline then .solo else (s.lane x).role) ∧
    ((soloAlone s).lane (other x)).role = (s.lane (other x)).role := by
  simp only [soloAlone, h]
  by_cases hoff : (s.lane (other x)).role = .offline
  · simp [hoff]
  · simp [hoff]
theorem soloAlone_none {s : State} (h : s.activeLane = none) : soloAlone s = s := by simp only [soloAlone, h]
theorem soloAlone_startDone (s : State) (l : LaneId) : ((soloAlone s).lane l).startDone = (s.lane l).startDone := by
  unfold soloAlone; split
  · rename_i x _
    split
    · by_cases hl : l = x
      · subst hl; rw [lane_updLane]
      · rw [lane_updLane_ne _ _ _ _ hl]
    · rfl
  · rfl

theorem startupComplete_first {s : State} {l : LaneId} (hrun : (s.lane l).phase = .running) (hroles : (s.lane l).rolesStep = true)
    (hdone : (s.lane l).startDone = false) (hready : s.st.ready = false) (hrole : (s.lane l).role ≠ .offline) :
    ∃ t, execStartupComplete l s = .next t ∧
      StationSame ((soloAlone (s.updLane l fun v => { v with startDone := true })).updSt fun t =>
        { t with ready := true, phase := .stopped, power := { t.power with ps := .lit, entering := none } }) t ∧
      ∀ x, (t.lane x).lessStaging = ((soloAlone (s.updLane l fun v => { v with startDone := true })).lane x).lessStaging := by
  have hopen : ((s.lane l).phase != .running || !(s.lane l).rolesStep || (s.lane l).startDone) = false := by simp [hrun, hroles, hdone]
  have hfirst : (s.st.ready || (s.lane l).role == Role.offline) = false := by simp [hready, hrole]
  generalize hu : (soloAlone (s.updLane l fun v => { v with startDone := true })) = u
  have he : execStartupComplete l s = .next (
      let v := u.updSt fun t => { t with ready := true, phase := .stopped, power := { t.power with ps := .lit, entering := none } }
      noteUnnamed (if u.st.power.entering == some .lit then powerEvent v .lit else chooseBank v) .startUp l (leBytes (laneNo l) 1)) := by
    rw [← hu]
    unfold execStartupComplete
    simp only [hopen, Bool.false_eq_true, if_false, updLane_st, hfirst]
    rfl
  refine ⟨_, he, ?_, fun x => ?_⟩
  · refine StationSame.trans ?_ (noteUnnamed_reports ..).stationSame
    split
    · exact (raise_reports ..).stationSame
    · exact chooseBank_stationSame _
  · refine ((noteUnnamed_reports ..).lane x).trans ?_
    split
    · exact ((raise_reports ..).lane x).trans (by rw [lane_updSt])
    · exact (chooseBank_lane ..).trans (by rw [lane_updSt])

/-- Settles O23: each step by what its lane and its partner show. -/
theorem startupRows : Obligations.StartupRows := by
  unfold Obligations.StartupRows
  dsimp only
  refine ⟨fun s l => ⟨fun n k hrun hclk => ⟨fun hn hk => ?qualifies, fun hbad => ?unqualified⟩, fun n k hno => ?clockRests,
      fun hrun hclk hstep hcause => ⟨fun w hw hfw => ?differs, fun w hw hfw hrole => ?serves, fun asks h => ?asks⟩, fun hno => ?rolesRests,
      fun hrun hroles hdone => ⟨fun hready hrole => ?first, fun hlater => ?later⟩, fun step code hopen hphase => ?fails,
      fun step code hdone hresumes => ?failRests⟩,
    fun s => ⟨fun ⟨hwaits, hshows⟩ => ?waited, fun hno => ?waitRests⟩⟩
  case qualifies => simp [exec_clockQualification, execClockQualification, hrun, hclk, hn, hk]
  case unqualified =>
    refine .mk (t := stepFails s l 4 (Config.unnamedCode 17)) ?_ (stepFails_reports ..)
    obtain h | h := hbad
    · simp [exec_clockQualification, execClockQualification, hrun, hclk, h]
    · simp [exec_clockQualification, execClockQualification, hrun, hclk, h]
  case clockRests =>
    obtain h | h := hno
    · simp [exec_clockQualification, execClockQualification, h]
    · simp [exec_clockQualification, execClockQualification, h]
  case differs => exact (exec_rolesStep l s).trans (rolesStep_differs hrun hclk hstep hcause hw hfw)
  case serves => exact (exec_rolesStep l s).trans (rolesStep_serves hrun hclk hstep hcause hw hfw hrole)
  case asks => exact (exec_rolesStep l s).trans (rolesStep_asks hrun hclk hstep hcause h)
  case rolesRests =>
    obtain h | h | h | h := hno
    · simp [exec_rolesStep, execRolesStep, h]
    · simp [exec_rolesStep, execRolesStep, h]
    · simp [exec_rolesStep, execRolesStep, h]
    · simp [exec_rolesStep, execRolesStep, h]
  case first =>
    obtain ⟨t, he, hst, hlane⟩ := startupComplete_first hrun hroles hdone hready hrole
    have hroleOf (x : LaneId) : ((s.updLane l fun v => { v with startDone := true }).lane x).role = (s.lane x).role := by
      by_cases hx : x = l
      · subst hx; rw [lane_updLane]
      · rw [lane_updLane_ne _ _ _ _ hx]
    have hactive : (s.updLane l fun v => { v with startDone := true }).activeLane = s.activeLane := activeLane_congr hroleOf
    refine .mk ((exec_startupComplete l s).trans he) ⟨(congrArg Station.ready hst.st :), (congrArg Station.phase hst.st :),
      (congrArg (fun t => t.power.ps) hst.st :), (congrArg (fun t => t.power.entering) hst.st :), ?_, fun x hx => ?_, fun hnone x => ?_⟩
    · have hsame : (t.lane l).startDone = ((soloAlone (s.updLane l fun v => { v with startDone := true })).lane l).startDone :=
        (congrArg Lane.startDone (hlane l) :)
      rw [hsame, soloAlone_startDone, lane_updLane]
    · obtain ⟨hsolo, hpartner⟩ := soloAlone_active (hactive.trans hx)
      rw [hroleOf, hroleOf] at hsolo
      rw [hroleOf] at hpartner
      exact ⟨(congrArg Lane.role (hlane x) :).trans hsolo, (congrArg Lane.role (hlane (other x)) :).trans hpartner⟩
    · have hsame : (t.lane x).role = ((soloAlone (s.updLane l fun v => { v with startDone := true })).lane x).role :=
        (congrArg Lane.role (hlane x) :)
      rw [hsame, soloAlone_none (hactive.trans hnone), hroleOf]
  case later =>
    obtain h | h := hlater
    · simp [exec_startupComplete, execStartupComplete, hrun, hroles, hdone, h]
    · simp [exec_startupComplete, execStartupComplete, hrun, hroles, hdone, h]
  case fails =>
    refine .mk (t := stepFails s l step code) ?_ (stepFails_reports ..)
    have hgo : ((s.lane l).startDone && !(s.lane l).resumes || !((s.lane l).phase == .running || (s.lane l).phase == .starting)) = false := by
      obtain h | h := hopen <;> obtain g | g := hphase <;> simp [h, g]
    rw [exec_startupStepFail, execStartupStepFail, hgo]; rfl
  case failRests => simp [exec_startupStepFail, execStartupStepFail, hdone, hresumes]
  case waited =>
    have hno : partnerShows s .b (fun w => w.role == 2 || w.role == 3) = false := by
      cases hw : s.b.beat.word with
      | none => exact partnerShows_none (l := .b) hw _
      | some w =>
        obtain ⟨h2, h3⟩ := hshows w hw
        rw [partnerShows_some (l := .b) hw]; simp [h2, h3]
    rw [exec_roleWaitTimeout, execRoleWaitTimeout, hwaits, hno]; rfl
  case waitRests =>
    rw [exec_roleWaitTimeout, execRoleWaitTimeout]
    refine congrArg _ (if_neg fun h => hno ?_)
    obtain ⟨hwaits, hshows⟩ := Bool.and_eq_true_iff.mp h
    refine ⟨hwaits, fun w hw => ?_⟩
    rw [partnerShows_some (l := .b) hw] at hshows
    simpa using hshows

end Sys2Proof.Machine
end

section
/-! The two changes of role (10 R263, R280). -/

namespace Sys2Proof.Machine

/-! Steps that leave the block engines alone -/

/-- The block engine of every lane is as it was. -/
def EnginesSame (s t : State) : Prop := ∀ l, (t.lane l).be = (s.lane l).be

theorem EnginesSame.refl (s : State) : EnginesSame s s := fun _ => rfl
theorem EnginesSame.trans {s t u : State} (h : EnginesSame s t) (g : EnginesSame t u) : EnginesSame s u := fun l => (g l).trans (h l)
theorem Reports.enginesSame {s t : State} (h : Reports s t) : EnginesSame s t := fun l => (congrArg Lane.be (h.lane l) :)
theorem updLane_enginesSame (s : State) (l : LaneId) (f : Lane → Lane) (hf : (f (s.lane l)).be = (s.lane l).be) :
    EnginesSame s (s.updLane l f) := fun m => by
  by_cases h : m = l
  · subst h; rw [lane_updLane, hf]
  · rw [lane_updLane_ne _ _ _ _ h]
theorem foldl_enginesSame {α : Type} (f : State → α → State) (xs : List α) (hf : ∀ s x, x ∈ xs → EnginesSame s (f s x)) (s : State) :
    EnginesSame s (xs.foldl f s) := by
  induction xs generalizing s with
  | nil => exact .refl s
  | cons x xs ih => exact (hf s x (.head xs)).trans (ih (fun s y hy => hf s y (.tail x hy)) _)

theorem updFlow_enginesSame (s : State) (l : LaneId) (n : Nat) (f) : EnginesSame s (updFlow s l n f) := by
  unfold updFlow State.updNet; exact updLane_enginesSame s l _ rfl
theorem hookOffline_enginesSame (s : State) (l : LaneId) : EnginesSame s (hookOffline s l) := by
  unfold hookOffline offlineFlows canListen State.updNet
  exact (updLane_enginesSame s l _ rfl).trans (updLane_enginesSame _ l _ rfl)
theorem sendPlant_enginesSame (s : State) (l : LaneId) (o : Nat → Out) : EnginesSame s (sendPlant s l o) := by
  unfold sendPlant sendBoth countPort State.updNet
  exact ((updLane_enginesSame s l _ rfl).trans (updLane_enginesSame _ l _ rfl)).trans
    ((updLane_enginesSame _ l _ rfl).trans fun m => by rw [lane_emit])
theorem takeoverFlows_enginesSame (s : State) (l : LaneId) : EnginesSame s (takeoverFlows s l) := by
  unfold takeoverFlows; extract_lets s1
  have h1 : EnginesSame s s1 := foldl_enginesSame _ _ (fun s _ _ => updFlow_enginesSame s l _ _) s
  split
  · exact h1.trans (sendPlant_enginesSame _ _ _)
  · exact h1
theorem updCan_enginesSame (s : State) (l : LaneId) (p : Nat) (f) : EnginesSame s (updCan s l p f) := by
  unfold updCan; split
  · exact fun m => by rw [lane_updIsl]
  · exact updLane_enginesSame s l _ rfl
theorem canEvent_enginesSame (s : State) (l : LaneId) (p a b : Nat) (o) : EnginesSame s (canEvent s l p a b o) := by
  unfold canEvent; extract_lets w; split
  · exact .refl s
  · exact (raise_reports _ _).enginesSame
theorem canTakeover_enginesSame (s : State) (l : LaneId) : EnginesSame s (canTakeover s l) := by
  refine foldl_enginesSame _ _ (fun s p _ => ?_) s
  split
  · exact .refl s
  · extract_lets s1
    exact (updCan_enginesSame s l _ _).trans (canEvent_enginesSame _ _ _ _ _ _)
theorem hookTakeover_engines (s : State) (l : LaneId) : EnginesSame (takeoverTasks s l) (hookTakeover s l) :=
  (takeoverFlows_enginesSame _ l).trans (canTakeover_enginesSame _ l)
theorem partnerGone_enginesSame (s : State) (l : LaneId) : EnginesSame s (partnerGone s l) := by
  unfold partnerGone; extract_lets o; split
  · exact (updLane_enginesSame s o _ rfl).trans (noteUnnamed_reports ..).enginesSame
  · exact .refl s

/-! The engine of a lane that rests, and of one that takes over -/

theorem restEngine_rests (v : Lane) : (restEngine v).be.window = false ∧ ∀ e ∈ (restEngine v).be.ctxs, e.2.phase = .dormant := by
  refine ⟨rfl, fun e he => ?_⟩
  obtain ⟨x, -, rfl⟩ := List.mem_map.mp he
  rfl

/-- A lane that goes OFFLINE has its engine at rest. -/
theorem goOffline_engine {s : State} {l : LaneId} (c : OffCause) (h : (s.lane l).role ≠ .offline) :
    ((goOffline s l c).lane l).be = (restEngine (s.lane l)).be := by
  unfold goOffline
  rw [if_neg (by simpa using h)]
  extract_lets s1 s2 s3
  have hs : EnginesSame s1 (partnerGone s3 l) :=
    ((hookOffline_enginesSame s1 l).trans (redEvent_reports ..).enginesSame).trans (partnerGone_enginesSame s3 l)
  rw [hs l]; simp only [s1, lane_updLane]

/-- The two role changes report only as they become SOLO: what a takeover leaves but for reports, flows, ports and tasks. -/
theorem becomeSolo_netted (s : State) (l : LaneId) : Netted (s.updLane l fun v =>
    { v with role := .solo, cause := .none, takeover := true, endsSeen := none, tok := { v.tok with asked := none } }) (becomeSolo s l) := by
  unfold becomeSolo; extract_lets s1
  exact (hookTakeover_netted s1 l).trans (redEvent_reports _ l 32 1 []).netted
theorem becomeSolo_engine (s : State) (l : LaneId) : ∀ e ∈ ((becomeSolo s l).lane l).be.ctxs, e.2.takePending = true := by
  unfold becomeSolo; extract_lets s1
  intro e he
  rw [(redEvent_reports ..).enginesSame l, hookTakeover_engines s1 l l, takeoverTasks, lane_updLane] at he
  obtain ⟨x, -, rfl⟩ := List.mem_map.mp he
  rfl

/-- Settles O24: a lane that goes OFFLINE through `goOffline_lane` and its resting engine, one that takes over through `becomeSolo_netted`. -/
theorem roleChanges : Obligations.RoleChanges := by
  unfold Obligations.RoleChanges
  intro s l
  have hsolo := becomeSolo_netted s l
  refine ⟨fun c h => ?_, ?_, ?_, ?_, becomeSolo_engine s l, ?_⟩
  · obtain ⟨hrole, hcause, hactive, hother⟩ := goOffline_lane s l c h
    obtain ⟨hwindow, hctxs⟩ := restEngine_rests (s.lane l)
    rw [goOffline_engine c h]
    refine ⟨hrole, hcause, hwindow, hctxs, ?_⟩
    split
    · exact hactive ‹_›
    · exact hother ‹_›
  · rw [hsolo.role l, lane_updLane]
  · rw [hsolo.cause l, lane_updLane]
  · have htake : ((becomeSolo s l).lane l).takeover = _ := (congrArg Lane.takeover (hsolo.lane l) :)
    rw [htake, lane_updLane]; rfl
  · rw [hsolo.role (other l), lane_updLane_other]

end Sys2Proof.Machine
end

section
/-! The partner's failure, the takeover, path faults and the dark end (03 R104; 10 R263, R268 to R270, R274, R279, R291). -/

namespace Sys2Proof.Machine

theorem exec_partnerFailureDeclared (l : LaneId) (s : State) : exec (.partnerFailureDeclared l) s = execPartnerFailureDeclared l s := rfl
theorem exec_takeoverTick (l : LaneId) (s : State) : exec (.takeoverTick l) s = execTakeoverTick l s := rfl
theorem exec_pathFault (l : LaneId) (k : PathFaultKind) (s : State) : exec (.pathFault l k) s = execPathFault l k s := rfl
theorem exec_beaconExtinguish (l : LaneId) (s : State) : exec (.beaconExtinguish l) s = execBeaconExtinguish l s := rfl

/-! The failure declared -/

/-- A lane that has declared its partner's failure. -/
def Lane.declares (v : Lane) : Lane := { v with beat := { v.beat with declared := true } }

section
variable {s : State} {l : LaneId} (hbridge : 2 ≤ (s.lane l).beat.missBridge) (hbeacon : 2 ≤ (s.lane l).beat.missBeacon)
  (hfirst : (s.lane l).beat.declared = false)
include hbridge hbeacon hfirst

theorem partnerFailure_open : ¬ ((s.lane l).beat.missBridge < 2 ∨ (s.lane l).beat.missBeacon < 2 ∨ (s.lane l).beat.declared = true) := by
  simp [Nat.not_lt.mpr hbridge, Nat.not_lt.mpr hbeacon, hfirst]

theorem partnerFailure_noted (h : ∀ w, (s.lane l).beat.word = some w → w.role = 0) : execPartnerFailureDeclared l s =
    .next (noteUnnamed (s.updLane l Lane.declares) .partnerSilent l (leBytes (laneNo (other l)) 1)) := by
  have hzero : ((s.lane l).beat.word.map fun w => w.role).getD 0 = 0 := by
    cases hw : (s.lane l).beat.word with
    | none => rfl
    | some w => exact h w hw
  unfold execPartnerFailureDeclared
  rw [if_neg (partnerFailure_open hbridge hbeacon hfirst)]
  exact if_pos hzero
theorem partnerFailure_acts (h : ∃ w, (s.lane l).beat.word = some w ∧ w.role ≠ 0) : execPartnerFailureDeclared l s =
    .next (let u := s.updLane l Lane.declares
      match (s.lane l).role with
      | .standby => setRise true (askToken (redEvent u l 34 1) l .takeover)
      | .active => noteRole ((redEvent u l 34 1).updLane l fun v => { v with role := .solo }) l .solo
      | _ => u) := by
  obtain ⟨w, hw, hrole⟩ := h
  have hpartner : ((s.lane l).beat.word.map fun w => w.role).getD 0 ≠ 0 := by rw [hw]; exact hrole
  unfold execPartnerFailureDeclared
  rw [if_neg (partnerFailure_open hbridge hbeacon hfirst)]
  exact if_neg hpartner
end

theorem setRise_lane (b : Bool) (s : State) (l : LaneId) :
    (setRise b s).lane l = { s.lane l with opp := nextStep { (s.lane l).opp with rise := b } } := by
  cases l <;> rfl

/-! The takeover -/

/-- The station less the rate limits of reports and the bulk queue. -/
def Station.lessQueue (t : Station) : Station := { t with limits := [], bulkQueue := [] }

theorem respond_lessQueue (s : State) (p : Nat) (u : Bool) (st d0 d1 k : Nat) (d : List Nat) :
    (respond s p u st d0 d1 k d).st.lessQueue = s.st.lessQueue :=
  (congrArg Station.lessQueue (respond_reports s p u st d0 d1 k d).st :)
theorem foldl_lessQueue {α : Type} {f : State → α → State} (hf : ∀ s x, (f s x).st.lessQueue = s.st.lessQueue) (xs : List α) (s : State) :
    (xs.foldl f s).st.lessQueue = s.st.lessQueue := by
  induction xs generalizing s with
  | nil => rfl
  | cons x xs ih => exact (ih _).trans (hf s x)

/-- What the dead lane had not served is lost; of the station nothing else moves. -/
theorem loseCommands_station (s : State) : (loseCommands s).st.lessQueue =
    { s.st.lessQueue with stage := [], loopModes := [], loopParams := [],
                          commit := s.st.commit.bind fun c => if c.confirmed then some c else none } := by
  unfold loseCommands; extract_lets u
  refine (foldl_lessQueue (fun s p => ?_) allParts u).trans rfl
  extract_lets keep v stops
  have hv : v.st.lessQueue = s.st.lessQueue := by
    simp only [v]; split
    · exact respond_lessQueue ..
    · rfl
  split
  · exact (respond_lessQueue ..).trans hv
  · exact hv

theorem takeoverTick_takes {s : State} {l : LaneId} (hrole : (s.lane l).role = .standby) (hasked : (s.lane l).tok.asked = some .takeover)
    (hholds : (s.island s.st.referee).holder = some l) : execTakeoverTick l s = .next (becomeSolo (loseCommands
      (s.updSt fun t => { t with ends := { t.ends with s := none, confirmed := false, released := false, levels := [] } })) l) := by
  simp [execTakeoverTick, hrole, hasked, hholds]
theorem takeoverTick_rests {s : State} {l : LaneId} (h : ¬ ((s.lane l).role = .standby ∧ (s.lane l).tok.asked = some .takeover ∧
    (s.island s.st.referee).holder = some l)) : execTakeoverTick l s = .next s := by
  refine congrArg _ (if_neg fun hall => h ?_)
  simpa [and_assoc] using hall

/-! Path faults -/

theorem updLane_congr {s : State} {l : LaneId} {f g : Lane → Lane} (h : f (s.lane l) = g (s.lane l)) : s.updLane l f = s.updLane l g := by
  cases l
  · exact congrArg (fun v => { s with a := v }) h
  · exact congrArg (fun v => { s with b := v }) h

theorem degrade_eq (h : Health) : (if h == .good then .degraded else h) = if h = .good then .degraded else h := by cases h <;> rfl
theorem mend_eq (h : Health) : (if h == .degraded then Health.good else h) = if h = .degraded then .good else h := by cases h <;> rfl

section
variable {s : State} {l : LaneId}

theorem pathFault_bridge (hbridge : 2 ≤ (s.lane l).beat.missBridge) (hbeacon : (s.lane l).beat.missBeacon < 2)
    (hfault : (s.lane l).beat.faultBridge = false) (hparked : (s.lane (other l)).phase ≠ .parked) :
    execPathFault l .bridge s = .next (redEvent (s.updLane l fun v =>
      { v with health := if v.health = .good then .degraded else v.health, beat := { v.beat with faultBridge := true } }) l 33 1) := by
  simp only [execPathFault, hbridge, hbeacon, hfault, ne_eq, hparked, not_false_iff, and_self, if_true, degrade_eq]
theorem pathFault_parked (h : (s.lane (other l)).phase = .parked) : execPathFault l .bridge s = .next s := by
  simp [execPathFault, h]
theorem pathFault_beacon (hbeacon : 2 ≤ (s.lane l).beat.missBeacon) (hbridge : (s.lane l).beat.missBridge < 2)
    (hfault : (s.lane l).beat.faultBeacon = false) : execPathFault l .beacon s = .next (redEvent (s.updLane l fun v =>
      { v with health := if v.health = .good then .degraded else v.health, beat := { v.beat with faultBeacon := true } }) l 33 2) := by
  simp only [execPathFault, hbridge, hbeacon, hfault, and_self, if_true, degrade_eq]
theorem pathFault_restored (hbridge : (s.lane l).beat.missBridge = 0) (hbeacon : (s.lane l).beat.missBeacon = 0)
    (hfault : pathFaultSeen (s.lane l) = true) : execPathFault l .restored s = .next (redEvent (s.updLane l fun v =>
      { v with health := if v.health = .degraded then .good else v.health,
               beat := { v.beat with faultBridge := false, faultBeacon := false, undecodable := 0 } }) l 33 0x10) := by
  simp only [execPathFault, hfault, hbridge, hbeacon, BEq.rfl, Bool.and_self, if_true, mend_eq]

/-- A group that cannot be decoded is counted; the second one in a row is a path fault. -/
theorem pathFault_badGroup {f : List (Nat × Nat)} (h : decodeGroup f = none) :
    ∃ t, execPathFault l (.group f) s = .next t ∧ Reports (s.updLane l fun v =>
      { v with health := if v.beat.undecodable = 1 then (if v.health = .good then .degraded else v.health) else v.health,
               beat := { v.beat with undecodable := v.beat.undecodable + 1 } }) t := by
  by_cases hsecond : (s.lane l).beat.undecodable = 1
  · refine ⟨redEvent (s.updLane l fun v =>
      { v with health := if v.health = .good then .degraded else v.health,
               beat := { v.beat with undecodable := v.beat.undecodable + 1 } }) l 33 3, ?_, ?_⟩
    · simp [execPathFault, h, hsecond]
    · refine Eq.subst (motive := fun u => Reports u _) (updLane_congr ?_) (redEvent_reports ..)
      simp only [hsecond, if_true]
  · refine ⟨s.updLane l fun v => { v with beat := { v.beat with undecodable := v.beat.undecodable + 1 } }, ?_, ?_⟩
    · simp [execPathFault, h, hsecond]
    · refine Eq.subst (motive := fun u => Reports u _) (updLane_congr ?_) (.refl _)
      simp only [hsecond, if_false]
end

/-- Settles O25: the failure by what was last heard, the takeover over the commands that it loses, the path faults by kind. -/
theorem partnerRows : Obligations.PartnerRows := by
  unfold Obligations.PartnerRows
  intro s l
  dsimp only
  refine ⟨fun hbridge hbeacon hfirst => ⟨fun hheard => ⟨fun hrole => ?active, fun hrole => ?standby, fun hrole => ?notes⟩,
      fun hsilent => ?silent⟩, fun hno => ?notDeclared, ⟨fun ⟨hrole, hasked, hholds⟩ => ?takes, fun hno => ?takesNot⟩,
    fun hbridge hbeacon hfault hparked => ?bridge, fun hparked => ?parked, fun hbeacon hbridge hfault => ?beacon, fun f x hf => ?group,
    fun f hf => ?badGroup, fun hbridge hbeacon hfault => ?restored, exec_beaconExtinguish l s⟩
  case active =>
    refine .mk ((exec_partnerFailureDeclared l s).trans (by rw [partnerFailure_acts hbridge hbeacon hfirst hheard, hrole])) ?_
    have h1 : Reports ((s.updLane l Lane.declares).updLane l fun v => { v with role := .solo })
        ((redEvent (s.updLane l Lane.declares) l 34 1).updLane l fun v => { v with role := .solo }) :=
      (redEvent_reports ..).updLane l fun v => { v with role := .solo }
    rw [updLane_updLane] at h1
    exact h1.trans (noteUnnamed_reports ..)
  case standby =>
    have hlane := (redEvent_reports (s.updLane l Lane.declares) l 34 1 []).lane l
    have hst := (redEvent_reports (s.updLane l Lane.declares) l 34 1 []).st
    rw [lane_updLane] at hlane
    rw [updLane_st] at hst
    refine .mk ((exec_partnerFailureDeclared l s).trans (by rw [partnerFailure_acts hbridge hbeacon hfirst hheard, hrole])) ?_
    have hstage := (setRise_stationSame true (askToken (redEvent (s.updLane l Lane.declares) l 34 1) l .takeover)).st
    have hasked : (setRise true (askToken (redEvent (s.updLane l Lane.declares) l 34 1) l .takeover)).lane l = _ := setRise_lane ..
    simp only [askToken, lane_updLane] at hasked
    simp only [askToken, updLane_st] at hstage
    simp only [askToken, hasked]
    exact ⟨trivial, trivial, (congrArg Lane.role hlane :).trans hrole, (congrArg (fun v => v.beat.declared) hlane :),
      (congrArg Station.stage hstage :).trans (congrArg Station.stage hst :)⟩
  case notes =>
    rw [exec_partnerFailureDeclared, partnerFailure_acts hbridge hbeacon hfirst hheard]
    obtain h | h := hrole
    · rw [h]; rfl
    · rw [h]; rfl
  case silent =>
    exact .mk ((exec_partnerFailureDeclared l s).trans (partnerFailure_noted hbridge hbeacon hfirst hsilent)) (noteUnnamed_reports ..)
  case notDeclared => exact if_pos hno
  case takes =>
    have hst := loseCommands_station
      (s.updSt fun t => { t with ends := { t.ends with s := none, confirmed := false, released := false, levels := [] } })
    have hsolo := becomeSolo_netted (loseCommands
      (s.updSt fun t => { t with ends := { t.ends with s := none, confirmed := false, released := false, levels := [] } })) l
    refine .mk ((exec_takeoverTick l s).trans (takeoverTick_takes hrole hasked hholds)) ?_
    generalize loseCommands
      (s.updSt fun t => { t with ends := { t.ends with s := none, confirmed := false, released := false, levels := [] } }) = u at hst hsolo ⊢
    have hsolost := (congrArg Station.lessQueue hsolo.st).trans ((congrArg Station.lessQueue (updLane_st u l _) :).trans hst)
    refine ⟨?_, ?_, ?_, ?_, ?_, ?_, ?_, ?_⟩
    · rw [hsolo.role l, lane_updLane]
    · rw [hsolo.cause l, lane_updLane]
    · have htake : ((becomeSolo u l).lane l).takeover = _ := (congrArg Lane.takeover (hsolo.lane l) :)
      rw [htake, lane_updLane]; rfl
    · rw [hsolo.tok l, lane_updLane]
    · exact (congrArg (fun t => t.ends.s) hsolost :)
    · exact (congrArg Station.stage hsolost :)
    · exact (congrArg Station.loopModes hsolost :)
    · exact (congrArg Station.loopParams hsolost :)
  case takesNot => exact (exec_takeoverTick l s).trans (takeoverTick_rests hno)
  case bridge => exact .mk ((exec_pathFault ..).trans (pathFault_bridge hbridge hbeacon hfault hparked)) (redEvent_reports ..)
  case parked => exact (exec_pathFault ..).trans (pathFault_parked hparked)
  case beacon => exact .mk ((exec_pathFault ..).trans (pathFault_beacon hbeacon hbridge hfault)) (redEvent_reports ..)
  case group => rw [exec_pathFault, execPathFault, hf]
  case badGroup =>
    obtain ⟨t, he, ht⟩ := pathFault_badGroup hf
    exact .mk ((exec_pathFault ..).trans he) ht
  case restored => exact .mk ((exec_pathFault ..).trans (pathFault_restored hbridge hbeacon hfault)) (redEvent_reports ..)

end Sys2Proof.Machine
end

section
/-! Heartbeat words (00 R22; 04 R109; 10 R263, R266, R277, R286; 17 R434, R447 to R449). -/

namespace Sys2Proof.Machine

theorem exec_heartbeatWord (l : LaneId) (w : HbWord) (ok : Bool) (s : State) :
    exec (.heartbeatWord l w ok) s = execHeartbeatWord l w ok s := rfl
theorem exec_partnerBeaconLost (l : LaneId) (s : State) : exec (.partnerBeaconLost l) s = execPartnerBeaconLost l s := rfl

/-! The stages of a word -/

/-- A good word is kept. -/
def hbKept (s : State) (l : LaneId) (w : HbWord) : State := s.updLane l fun v => { v with beat := { v.beat with word := some w } }
/-- A word that closes a snapshot lets it be applied. -/
def hbCloses (s : State) (l : LaneId) (w : HbWord) (v : Lane) : State :=
  if receives v && bit w.hflags 4 then
    applySnapshot (s.updLane l fun v => { v with mirror := { v.mirror with closed := some (w.snapLen, w.snapCrc) } }) l
  else s
/-- PARK sends the gate requests of the STANDBY lane's parking out. -/
def hbParks (s : State) (l : LaneId) (w : HbWord) (v : Lane) : State :=
  if v.role == .standby && bit w.hflags 5 then requestGates s l parkBlocks else s
/-- A word confirms the change of ends that an acting lane has proposed. -/
def hbConfirms (s : State) (w : HbWord) (v : Lane) : State :=
  match s.st.ends.s with
  | some sw => if bit w.hflags 3 && runsRole v.role && w.endsTick % 2 ^ 32 == sw % 2 ^ 32 && !s.st.ends.confirmed
      then confirmEnds s sw else s
  | none => s
/-- What a word means for the lane's role. -/
def hbRole (s : State) (l : LaneId) (w : HbWord) (v : Lane) : Host.Outcome State Fault Refusal :=
  if v.phase == .parked then .next (if bit w.hflags 5 then s else unparkLane s l)
  else if v.role == .standby && bit w.hflags 2 then .next (s.updLane l fun v => { v with endsSeen := some (w.endsTick % 2 ^ 32) })
  else if unsettled v && w.fw != v.fw then .next (versionsDiffer s l w.fw)
  else if waitsForRole v && l == .b then
    .next (if w.role == 2 then noteRole (s.updLane l fun v => { v with role := .standby, cause := .none }) l .standby
      else if w.health == 3 then askToken s l .startUp else s)
  else if v.role == .active && v.startDone && w.role == 0 then .next (noteRole (s.updLane l fun v => { v with role := .solo }) l .solo)
  else .next s

theorem heartbeatWord_taken {s : State} {l : LaneId} (h : (s.lane l).runs = true ∨ (s.lane l).phase = .parked) (w : HbWord) :
    execHeartbeatWord l w true s =
      hbRole (hbConfirms (hbParks (hbCloses (hbKept s l w) l w (s.lane l)) l w (s.lane l)) w (s.lane l)) l w (s.lane l) := by
  have hgo : (!true || !((s.lane l).runs || (s.lane l).phase == .parked)) = false := by
    obtain h | h := h
    · simp [h]
    · simp [h]
  unfold execHeartbeatWord
  simp only [hgo, Bool.false_eq_true, if_false]
  rfl

theorem hbCloses_open (s : State) (l : LaneId) {w : HbWord} {v : Lane} (h : receives v = true → bit w.hflags 4 = false) :
    hbCloses s l w v = s := by
  refine if_neg fun hand => ?_
  obtain ⟨hreceives, hbit⟩ := Bool.and_eq_true_iff.mp hand
  exact absurd hbit (by rw [h hreceives]; nofun)
theorem hbParks_other (s : State) (l : LaneId) (w : HbWord) {v : Lane} (h : v.role ≠ .standby) : hbParks s l w v = s :=
  if_neg (by simp [h])
theorem hbConfirms_none {s : State} {w : HbWord} {v : Lane}
    (h : s.st.ends.s = none ∨ bit w.hflags 3 = false ∨ s.st.ends.confirmed = true ∨ runsRole v.role = false) : hbConfirms s w v = s := by
  unfold hbConfirms
  split
  · rename_i sw hsw
    obtain h | h | h | h := h
    · rw [h] at hsw; nomatch hsw
    · simp [h]
    · simp [h]
    · simp [h]
  · rfl

/-! What a word means for each role -/

theorem phase_of_runs {v : Lane} (h : v.runs = true) : v.phase = .running := by
  simp only [Lane.runs, Bool.and_eq_true, beq_iff_eq] at h
  exact h.1
theorem not_unsettled {v : Lane} (h : v.role ≠ .offline) : unsettled v = false := by simp [unsettled, h]
theorem not_waitsForRole {v : Lane} (h : v.role ≠ .offline) : waitsForRole v = false := by simp [waitsForRole, not_unsettled h]
theorem unsettled_role {v : Lane} (h : unsettled v = true) : v.role = .offline := by
  by_contra hne
  rw [not_unsettled hne] at h; nomatch h

section
variable {v : Lane} (hrun : v.phase = .running) (s : State) (l : LaneId) (w : HbWord)
include hrun

theorem hbRole_active (hrole : v.role = .active) : hbRole s l w v =
    if v.startDone && w.role == 0 then .next (noteRole (s.updLane l fun v => { v with role := .solo }) l .solo) else .next s := by
  have hoff : v.role ≠ .offline := by rw [hrole]; nofun
  simp [hbRole, hrun, hrole, not_unsettled hoff, not_waitsForRole hoff]
theorem hbRole_solo (hrole : v.role = .solo) : hbRole s l w v = .next s := by
  have hoff : v.role ≠ .offline := by rw [hrole]; nofun
  simp [hbRole, hrun, hrole, not_unsettled hoff, not_waitsForRole hoff]
theorem hbRole_standby (hrole : v.role = .standby) : hbRole s l w v =
    .next (if bit w.hflags 2 then s.updLane l fun v => { v with endsSeen := some (w.endsTick % 2 ^ 32) } else s) := by
  have hoff : v.role ≠ .offline := by rw [hrole]; nofun
  cases hbit : bit w.hflags 2
  · simp [hbRole, hrun, hrole, not_unsettled hoff, not_waitsForRole hoff, hbit]
  · simp [hbRole, hrun, hrole, hbit]
theorem hbRole_differs (hun : unsettled v = true) (hfw : w.fw ≠ v.fw) : hbRole s l w v = .next (versionsDiffer s l w.fw) := by
  simp [hbRole, hrun, unsettled_role hun, hun, hfw]
theorem hbRole_waits (hwaits : waitsForRole v = true) (hfw : w.fw = v.fw) : hbRole s .b w v =
    .next (if w.role = 2 then noteRole (s.updLane .b fun v => { v with role := .standby, cause := .none }) .b .standby
      else if w.health = 3 then askToken s .b .startUp else s) := by
  have hun : unsettled v = true := by
    simp only [waitsForRole, Bool.and_eq_true] at hwaits; exact hwaits.1
  simp [hbRole, hrun, unsettled_role hun, hun, hfw, hwaits]
end

/-- A word that closes no snapshot and confirms nothing goes on, for a lane that is not STANDBY, to its role. -/
theorem heartbeatWord_plain {s : State} {l : LaneId} {w : HbWord} (hrun : (s.lane l).runs = true)
    (hsnap : receives (s.lane l) = true → bit w.hflags 4 = false)
    (hends : s.st.ends.s = none ∨ bit w.hflags 3 = false ∨ s.st.ends.confirmed = true) (hrole : (s.lane l).role ≠ .standby) :
    execHeartbeatWord l w true s = hbRole (hbKept s l w) l w (s.lane l) := by
  have hst : (hbKept s l w).st = s.st := updLane_st ..
  rw [heartbeatWord_taken (.inl hrun), hbCloses_open _ _ hsnap, hbParks_other _ _ _ hrole, hbConfirms_none]
  rw [hst]
  obtain h | h | h := hends
  · exact .inl h
  · exact .inr (.inl h)
  · exact .inr (.inr (.inl h))
/-- For a STANDBY lane a word goes through the snapshot and the parking. -/
theorem heartbeatWord_standby {s : State} {l : LaneId} {w : HbWord} (hrun : (s.lane l).runs = true) (hrole : (s.lane l).role = .standby) :
    execHeartbeatWord l w true s =
      hbRole (hbParks (hbCloses (hbKept s l w) l w (s.lane l)) l w (s.lane l)) l w (s.lane l) := by
  rw [heartbeatWord_taken (.inl hrun), hbConfirms_none (.inr (.inr (.inr (by rw [hrole]; rfl))))]

/-- For a parked lane a word says whether it stays parked. -/
theorem heartbeatWord_parked {s : State} {l : LaneId} {w : HbWord} (hphase : (s.lane l).phase = .parked)
    (hreceives : receives (s.lane l) = false) (hrole : (s.lane l).role = .offline) : execHeartbeatWord l w true s =
    .next (if bit w.hflags 5 then hbKept s l w else unparkLane (hbKept s l w) l) := by
  have hstandby : (s.lane l).role ≠ .standby := by rw [hrole]; nofun
  rw [heartbeatWord_taken (.inr hphase), hbCloses_open _ _ (by rw [hreceives]; nofun), hbParks_other _ _ _ hstandby,
    hbConfirms_none (.inr (.inr (.inr (by rw [hrole]; rfl)))), hbRole, hphase]
  rfl

/-! The confirmation of a change of ends -/

theorem confirmEnds_spec (s : State) (sw : Nat) (l : LaneId) : (confirmEnds s sw).st.ends = { s.st.ends with confirmed := true, asked := [] } ∧
    ((confirmEnds s sw).lane l).beat = (s.lane l).beat := by
  have hfold (ps : List Nat) (u : State) :
      (ps.foldl (fun s p => if (s.part p).urg.phase == .waiting then respond s p true ACCEPTED 0 0 ((sw + 1) % 2 ^ 32) else s) u).st.ends =
        u.st.ends ∧
      ((ps.foldl (fun s p => if (s.part p).urg.phase == .waiting then respond s p true ACCEPTED 0 0 ((sw + 1) % 2 ^ 32) else s) u).lane l).beat =
        (u.lane l).beat := by
    induction ps generalizing u with
    | nil => exact ⟨rfl, rfl⟩
    | cons p ps ih =>
      obtain ⟨hends, hbeat⟩ := ih (if (u.part p).urg.phase == .waiting then respond u p true ACCEPTED 0 0 ((sw + 1) % 2 ^ 32) else u)
      rw [List.foldl_cons, hends, hbeat]
      split
      · obtain ⟨c, q, hlane⟩ := respond_lane u p true ACCEPTED 0 0 ((sw + 1) % 2 ^ 32) [] l
        exact ⟨respond_st_ends .., by rw [hlane]⟩
      · exact ⟨rfl, rfl⟩
  unfold confirmEnds; extract_lets asked u
  obtain ⟨hends, hbeat⟩ := hfold asked u
  exact ⟨hends, hbeat.trans (by rw [lane_updSt])⟩
theorem hbConfirms_some {s : State} {w : HbWord} {v : Lane} {sw : Nat} (hs : s.st.ends.s = some sw) (hbit : bit w.hflags 3 = true)
    (hrole : runsRole v.role = true) (htick : w.endsTick % 2 ^ 32 = sw % 2 ^ 32) (hopen : s.st.ends.confirmed = false) :
    hbConfirms s w v = confirmEnds s sw := by
  unfold hbConfirms
  split
  · rename_i sw' hs'
    cases hs.symm.trans hs'
    exact if_pos (by rw [hbit, hrole, hopen, htick, BEq.rfl]; rfl)
  · rename_i hno
    rw [hs] at hno; nomatch hno

/-! The lost beacon of a parked lane's partner -/

theorem partnerBeaconLost_wakes {s : State} {l : LaneId} (hphase : (s.lane l).phase = .parked) (hdark : lineDark s l = true)
    (hmiss : 2 ≤ (s.lane l).beat.missBeacon) (halone : s.activeLane = none) : execPartnerBeaconLost l s =
    .next (askToken ((forgetImages (unparkLane s l)).updSt fun t => { t with power := {} }) l .startUp) := by
  simp [execPartnerBeaconLost, hphase, hdark, hmiss, halone]
theorem partnerBeaconLost_rests {s : State} {l : LaneId} (h : ¬ ((s.lane l).phase = .parked ∧ lineDark s l = true ∧
    2 ≤ (s.lane l).beat.missBeacon ∧ s.activeLane = none)) : execPartnerBeaconLost l s = .next s := by
  refine congrArg _ (if_neg fun hall => h ?_)
  simpa [and_assoc] using hall

/-- What a lane forgets with the station's images, whatever is reported. -/
theorem forgetImages_lane (s : State) (l : LaneId) : ((forgetImages s).lane l).lessStaging = (emptyLane (s.lane l)).lessStaging := by
  have hboth (s : State) : (bothLanes (fun s l => s.updLane l emptyLane) s).lane l = emptyLane (s.lane l) := by
    unfold bothLanes
    cases l
    · rw [lane_updLane_ne _ .b .a _ (by nofun), lane_updLane]
    · rw [lane_updLane, lane_updLane_ne _ .a .b _ (by nofun)]
  have hempty (v : Lane) : (emptyLane v).lessStaging = emptyLane v.lessStaging := by simp only [emptyLane, Lane.lessStaging]
  have hdiscard := (discardLoopStage_reports s).lane l
  rw [lane_updSt] at hdiscard
  rw [forgetImages, lane_updSt, hboth, hempty, hempty, hdiscard]
theorem forgetImages_phase (s : State) (l : LaneId) : ((forgetImages s).lane l).phase = (s.lane l).phase := by
  have hlane := congrArg Lane.phase (forgetImages_lane s l)
  simpa only [Lane.lessStaging, emptyLane] using hlane
theorem forgetImages_tok (s : State) (l : LaneId) : ((forgetImages s).lane l).tok = (s.lane l).tok := by
  have hlane := congrArg Lane.tok (forgetImages_lane s l)
  simpa only [Lane.lessStaging, emptyLane] using hlane

/-- Settles O26: a word by its stages, the lost beacon by what a parked lane leaves. -/
theorem heartbeatRows : Obligations.HeartbeatRows := by
  unfold Obligations.HeartbeatRows
  dsimp only
  refine ⟨fun s l w => ⟨?badCrc, fun hrun hphase => ?rests, fun hrun hsnap hends => ⟨fun hrole hdone hw => ?activeAlone,
      fun hrole hno => ?active, fun hrole => ?solo, fun hrole => ?standby, fun hun hfw => ?differs, fun hl hwaits hfw => ?waits⟩,
      fun sw hrun hrole hno hs hbit htick hopen => ?confirms, fun hrun hrole hclosed hno => ?closes,
      fun hphase hreceives hrole => ⟨fun hpark => ?parked, fun hpark => ?unparks⟩⟩,
    fun s l => ⟨fun ⟨hphase, hdark, hmiss, halone⟩ => ?wakes, fun hno => ?sleeps⟩⟩
  case badCrc => rfl
  case rests => simp [exec_heartbeatWord, execHeartbeatWord, hrun, hphase]
  case activeAlone =>
    have hstandby : (s.lane l).role ≠ .standby := by rw [hrole]; nofun
    have hpost : ((s.lane l).startDone && w.role == 0) = true := by rw [hdone, hw]; rfl
    have he := (heartbeatWord_plain hrun hsnap hends hstandby).trans
      ((hbRole_active (phase_of_runs hrun) (hbKept s l w) l w hrole).trans (if_pos hpost))
    rw [hbKept, updLane_updLane] at he
    exact .mk ((exec_heartbeatWord ..).trans he) (noteUnnamed_reports ..)
  case active =>
    have hstandby : (s.lane l).role ≠ .standby := by rw [hrole]; nofun
    have hpre : ¬ ((s.lane l).startDone && w.role == 0) = true := by
      obtain h | h := hno
      · rw [h]; nofun
      · simp [h]
    exact (exec_heartbeatWord ..).trans ((heartbeatWord_plain hrun hsnap hends hstandby).trans
      ((hbRole_active (phase_of_runs hrun) (hbKept s l w) l w hrole).trans (if_neg hpre)))
  case solo =>
    have hstandby : (s.lane l).role ≠ .standby := by rw [hrole]; nofun
    exact (exec_heartbeatWord ..).trans ((heartbeatWord_plain hrun hsnap hends hstandby).trans (hbRole_solo (phase_of_runs hrun) _ l w hrole))
  case standby =>
    have hparks (u : State) : hbParks u l w (s.lane l) = if bit w.hflags 5 then requestGates u l parkBlocks else u := by
      simp [hbParks, hrole]
    rw [exec_heartbeatWord, heartbeatWord_standby hrun hrole, hbRole_standby (phase_of_runs hrun) _ l w hrole, hbCloses_open _ _ hsnap, hparks]
    rfl
  case differs =>
    have hstandby : (s.lane l).role ≠ .standby := by rw [unsettled_role hun]; nofun
    have he := (heartbeatWord_plain hrun hsnap hends hstandby).trans (hbRole_differs (phase_of_runs hrun) (hbKept s l w) l w hun hfw)
    unfold versionsDiffer at he
    rw [hbKept, updLane_updLane] at he
    exact .mk ((exec_heartbeatWord ..).trans he) (raise_reports ..)
  case waits =>
    subst hl
    have hun : unsettled (s.lane .b) = true := by
      simp only [waitsForRole, Bool.and_eq_true] at hwaits; exact hwaits.1
    have hstandby : (s.lane .b).role ≠ .standby := by rw [unsettled_role hun]; nofun
    have he := (heartbeatWord_plain hrun hsnap hends hstandby).trans
      (hbRole_waits (phase_of_runs hrun) (hbKept s .b w) w hwaits hfw)
    refine ⟨fun hw => ?_, fun hw => ?_⟩
    · rw [if_pos hw, hbKept, updLane_updLane] at he
      exact .mk ((exec_heartbeatWord ..).trans he) (noteUnnamed_reports ..)
    · rw [if_neg hw] at he
      exact (exec_heartbeatWord ..).trans he
  case confirms =>
    have hstandby : (s.lane l).role ≠ .standby := by obtain h | h := hrole <;> rw [h] <;> nofun
    have hruns : runsRole (s.lane l).role = true := by obtain h | h := hrole <;> rw [h] <;> rfl
    have hreceives : receives (s.lane l) = true → bit w.hflags 4 = false := by
      obtain h | h := hrole <;> simp [receives, h]
    have hrest (u : State) : hbRole u l w (s.lane l) = .next u := by
      obtain h | h := hrole
      · rw [hbRole_active (phase_of_runs hrun) u l w h, if_neg]
        obtain g | g := hno
        · rw [g]; nofun
        · simp [g]
      · exact hbRole_solo (phase_of_runs hrun) u l w h
    have hst : (hbKept s l w).st = s.st := updLane_st ..
    obtain ⟨hends, hbeat⟩ := confirmEnds_spec (hbKept s l w) sw l
    refine .mk (t := confirmEnds (hbKept s l w) sw) ?_ ⟨?_, ?_, ?_, ?_⟩
    · rw [exec_heartbeatWord, heartbeatWord_taken (.inl hrun), hbCloses_open _ _ hreceives, hbParks_other _ _ _ hstandby, hrest,
        hbConfirms_some (by rw [hst]; exact hs) hbit hruns htick (by rw [hst]; exact hopen)]
    · rw [hends]
    · rw [hends, hst]; exact hs
    · rw [hends]
    · rw [hbeat, hbKept, lane_updLane]
  case closes =>
    have hcloses : (receives (s.lane l) && bit w.hflags 4) = true := by rw [receives, hrole, hclosed]; rfl
    have hparks (u : State) : hbParks u l w (s.lane l) = if bit w.hflags 5 then requestGates u l parkBlocks else u := by
      simp [hbParks, hrole]
    rw [exec_heartbeatWord, heartbeatWord_standby hrun hrole, hbRole_standby (phase_of_runs hrun) _ l w hrole, hparks, hbCloses,
      if_pos hcloses, hno]
    rfl
  case parked =>
    rw [exec_heartbeatWord, heartbeatWord_parked hphase hreceives hrole, hpark]; rfl
  case unparks =>
    refine .mk (t := unparkLane (hbKept s l w) l) ?_ ?_
    · rw [exec_heartbeatWord, heartbeatWord_parked hphase hreceives hrole, hpark]; rfl
    · rw [unparkLane, hbKept, updLane_updLane, lane_updLane]
      exact ⟨rfl, rfl, rfl, rfl, rfl⟩
  case wakes =>
    refine .mk ((exec_partnerBeaconLost l s).trans (partnerBeaconLost_wakes hphase hdark hmiss halone)) ?_
    rw [askToken, lane_updLane, updLane_st]
    refine ⟨?_, rfl, rfl, rfl, rfl, rfl, rfl, rfl, rfl⟩
    rw [lane_updSt]
    exact (forgetImages_phase (unparkLane s l) l).trans (by rw [unparkLane, lane_updLane])
  case sleeps => exact (exec_partnerBeaconLost l s).trans (partnerBeaconLost_rests hno)

end Sys2Proof.Machine
end

section
/-! Snapshots of the mirror (10 R275 to R277). -/

namespace Sys2Proof.Machine

theorem exec_snapshotPiece (l : LaneId) (tick : Nat) (piece : SnapPiece) (s : State) :
    exec (.snapshotPiece l tick piece) s = execSnapshotPiece l tick piece s := rfl
theorem exec_snapshotDiscard (l : LaneId) (s : State) : exec (.snapshotDiscard l) s = .next (judgeSnapshot s l) := rfl

/-! What is coming -/

theorem coming_sent {s : State} {l : LaneId} (h : receives (s.lane l) = true) {d : SnapData}
    (hd : (s.lane (other l)).mirror.sent = some d) (hjudged : (s.lane l).mirror.judged ≠ some d.tick) : coming s l = some d := by
  simp [coming, h, hd, hjudged]
theorem coming_none {s : State} {l : LaneId}
    (h : receives (s.lane l) = false ∨ ∀ d, (s.lane (other l)).mirror.sent = some d → (s.lane l).mirror.judged = some d.tick) :
    coming s l = none := by
  cases hreceives : receives (s.lane l)
  · simp [coming, hreceives]
  · cases hsent : (s.lane (other l)).mirror.sent with
    | none => simp [coming, hsent]
    | some d =>
      have hjudged := (h.resolve_left (by rw [hreceives]; nofun)) d hsent
      simp [coming, hreceives, hsent, hjudged]

/-- A snapshot that its heartbeat word has closed and of which every piece is here (R277). -/
def snapshotWhole (s : State) (l : LaneId) (d : SnapData) : Bool :=
  (s.lane l).mirror.closed == some (d.len, d.crc) &&
    (neededPieces s (other l)).all fun p => (s.lane l).mirror.pieces.contains (d.tick, p)

theorem snapshotWhole_iff (s : State) (l : LaneId) (d : SnapData) : snapshotWhole s l d = true ↔
    (s.lane l).mirror.closed = some (d.len, d.crc) ∧ ∀ p ∈ neededPieces s (other l), (d.tick, p) ∈ (s.lane l).mirror.pieces := by
  simp [snapshotWhole]

theorem applySnapshot_none {s : State} {l : LaneId} (h : coming s l = none) : applySnapshot s l = s := by
  simp only [applySnapshot, h]
theorem applySnapshot_some {s : State} {l : LaneId} {d : SnapData} (h : coming s l = some d) :
    applySnapshot s l = if snapshotWhole s l d then writeSnapshot s l d else s := by
  simp only [applySnapshot, h]; rfl

/-! The judgement -/

/-- The discard of the pieces up to a tick, but for its report. -/
def Lane.discards (v : Lane) (tick : Nat) : Lane :=
  { v with health := if v.health = .good ∧ v.role = .standby then .degraded else v.health,
           mirror := { v.mirror with pieces := v.mirror.pieces.filter (fun e => decide (tick < e.1)), closed := none,
                                     drops := (v.mirror.drops + 1) % 2 ^ 32, consecutive := 0, judged := some tick } }

theorem discardSnapshot_reports (s : State) (l : LaneId) (tick : Nat) :
    Reports (s.updLane l fun v => v.discards tick) (discardSnapshot s l tick) := by
  have hsame : (s.updLane l fun v => v.discards tick) = s.updLane l fun v =>
      { v with health := if v.health == .good && v.role == .standby then .degraded else v.health,
               mirror := { v.mirror with pieces := v.mirror.pieces.filter (fun e => decide (tick < e.1)), closed := none,
                                         drops := (v.mirror.drops + 1) % 2 ^ 32, consecutive := 0, judged := some tick } } := by
    simp only [Lane.discards, Bool.and_eq_true, beq_iff_eq]
  rw [hsame]; unfold discardSnapshot; exact redEvent_reports ..

theorem judgeSnapshot_of {s u : State} {l : LaneId} (h : applySnapshot s l = u) (hcoming : coming u l = none) :
    judgeSnapshot s l = match leftOver u l with
      | some t => discardSnapshot u l t
      | none => u := by
  simp only [judgeSnapshot, h, hcoming] <;> rfl

theorem judgeSnapshot_partial {s : State} {l : LaneId} {d : SnapData} (hcoming : coming s l = some d) (hpart : snapshotWhole s l d = false) :
    judgeSnapshot s l = discardSnapshot s l d.tick := by
  simp only [judgeSnapshot, applySnapshot_some hcoming, hpart, Bool.false_eq_true, if_false, hcoming]

/-- A whole snapshot is written, and nothing of an earlier tick is left over where no piece is older than the edge. -/
theorem judgeSnapshot_whole {s : State} {l : LaneId} {d : SnapData} (hreceives : receives (s.lane l) = true)
    (hsent : (s.lane (other l)).mirror.sent = some d) (hcoming : coming s l = some d)
    (hwhole : snapshotWhole s l d = true) (hlater : ∀ e ∈ (s.lane l).mirror.pieces, d.tick < e.1 → s.grid.tick ≤ e.1) :
    judgeSnapshot s l = writeSnapshot s l d := by
  have happly : applySnapshot s l = writeSnapshot s l d := by rw [applySnapshot_some hcoming, if_pos hwhole]
  have hlane : ((writeSnapshot s l d).lane l).mirror.judged = some d.tick ∧
      ((writeSnapshot s l d).lane l).mirror.pieces = (s.lane l).mirror.pieces.filter (fun e => decide (d.tick < e.1)) ∧
      receives ((writeSnapshot s l d).lane l) = true := by
    rw [writeSnapshot, lane_updLane]; exact ⟨rfl, rfl, hreceives⟩
  obtain ⟨hjudged, hpieces, hreceives'⟩ := hlane
  have hother : (writeSnapshot s l d).lane (other l) = s.lane (other l) := lane_updLane_other ..
  have hnone : coming (writeSnapshot s l d) l = none := by
    refine coming_none (.inr fun d' hd' => ?_)
    rw [hother, hsent] at hd'
    cases hd'
    exact hjudged
  have hleft : leftOver (writeSnapshot s l d) l = none := by
    have hgrid : (writeSnapshot s l d).grid = s.grid := updLane_grid_eq ..
    have hempty : ((s.lane l).mirror.pieces.filter (fun e => decide (d.tick < e.1))).filter (fun e => decide (e.1 < s.grid.tick)) = [] := by
      rw [List.filter_filter, List.filter_eq_nil_iff]
      intro e he
      have := hlater e he
      simp only [Bool.and_eq_true, decide_eq_true_eq]
      omega
    simp [leftOver, hreceives', hpieces, hgrid, hempty]
  rw [judgeSnapshot_of happly hnone, hleft]

/-! What a snapshot writes -/

theorem readN_congr {m m' : Mem} {a n : Nat} (h : ∀ c, a ≤ c → c < a + n → m.read c = m'.read c) : m.readN a n = m'.readN a n := by
  induction n generalizing a with
  | zero => rfl
  | succ n ih =>
    rw [Mem.readN, Mem.readN, h a (by omega) (by omega), ih fun c hlo hhi => h c (by omega) (by omega)]
theorem readN_foldl_writeN_out {α : Type} (rs : List α) (f : α → Nat) (b : α → List Byte) (m : Mem) {a n : Nat}
    (h : ∀ r ∈ rs, a + n ≤ f r ∨ f r + (b r).length ≤ a) : (rs.foldl (fun m r => m.writeN (f r) (b r)) m).readN a n = m.readN a n := by
  induction rs generalizing m with
  | nil => rfl
  | cons r rs ih =>
    rw [List.foldl_cons, ih _ fun r' hr' => h r' (.tail r hr')]
    have hr := h r (.head rs)
    exact readN_congr fun c hlo hhi => Mem.read_writeN_out m (f r) c (b r) (by omega)

/-- Settles O27: the pieces one by one, the snapshot by whether it is whole. -/
theorem mirrorRows : Obligations.MirrorRows := by
  unfold Obligations.MirrorRows
  intro s l
  dsimp only
  refine ⟨fun hreceives tick piece => ?piece, fun hreceives => ⟨?rests, fun tick piece => ?pieceRests⟩,
    fun hreceives d hsent hjudged => ⟨fun hpart => ?discards, fun hwhole hlater => ⟨?writes, fun a n hout => ?frame⟩⟩,
    fun hreceives hold => ⟨fun t ht => ?leftOver, fun hnone => ?judged⟩⟩
  case piece => exact congrArg _ (if_pos hreceives)
  case pieceRests => exact congrArg _ (if_neg (by rw [hreceives]; nofun))
  case rests =>
    have hnone : coming s l = none := coming_none (.inl hreceives)
    have hleft : leftOver s l = none := by simp [leftOver, hreceives]
    rw [exec_snapshotDiscard, judgeSnapshot_of (applySnapshot_none hnone) hnone, hleft]
  case discards =>
    have hpart' : snapshotWhole s l d = false := by
      rw [← Bool.not_eq_true, snapshotWhole_iff]; exact hpart
    refine .mk ((exec_snapshotDiscard l s).trans
      (congrArg _ (judgeSnapshot_partial (coming_sent hreceives hsent hjudged) hpart'))) ?_
    exact discardSnapshot_reports s l d.tick
  case writes =>
    rw [exec_snapshotDiscard, judgeSnapshot_whole hreceives hsent (coming_sent hreceives hsent hjudged)
      ((snapshotWhole_iff s l d).mpr hwhole) hlater]
  case frame =>
    rw [writeSnapshot, lane_updLane]
    exact readN_foldl_writeN_out d.ranges (fun r => r.2.1) (fun r => r.2.2) _ hout
  case leftOver =>
    have hnone : coming s l = none := coming_none (.inr hold)
    refine .mk (t := discardSnapshot s l t) ?_ (discardSnapshot_reports s l t)
    rw [exec_snapshotDiscard, judgeSnapshot_of (applySnapshot_none hnone) hnone, ht]
  case judged =>
    have hcoming : coming s l = none := coming_none (.inr hold)
    rw [exec_snapshotDiscard, judgeSnapshot_of (applySnapshot_none hcoming) hcoming, hnone]

end Sys2Proof.Machine
end

section
/-! Change of ends (10 R263, R285 to R288): start, deferral, hand-over and give-back. -/

namespace Sys2Proof.Machine

theorem exec_endsIntervalDue (s : State) : exec .endsIntervalDue s = execEndsIntervalDue s := rfl
theorem exec_endsDeferredStart (s : State) : exec .endsDeferredStart s = execEndsDeferredStart s := rfl
theorem exec_endsChange (p : Part) (s : State) : exec (.endsChange p) s = execEndsChange p s := rfl
theorem exec_endsSwapEdge (s : State) : exec .endsSwapEdge s = execEndsSwapEdge s := rfl
theorem exec_selfCheckFail (s : State) : exec .selfCheckFail s = execSelfCheckFail s := rfl

theorem Netted.stationSame {s t : State} (h : Netted s t) : StationSame s t := ⟨h.st, h.parts, h.grid⟩

/-! The start -/

theorem startEnds_s (s : State) (c : EndsCause) (o : Option OffCause) :
    (startEnds s c o).st.ends.s = some (if c = .swapBack then s.grid.tick + 1 else s.grid.tick + 2) := by
  unfold startEnds; extract_lets sw u
  have hrise := (setRise_stationSame true u).st
  rw [raise_st_ends]
  exact (congrArg (fun t => t.ends.s) hrise :)

section
variable {s : State} (hactive : s.activeLane ≠ none) (hnone : s.st.ends.s = none)
include hactive hnone

theorem endsIntervalDue_open : execEndsIntervalDue s = .next (match timerBlocked s with
      | none => startEnds s .timer none
      | some code =>
        let s' := s.takeFree.2.updSt fun t => { t with ends := { t.ends with due := true, deferred := true } }
        if s.st.ends.deferred then s'
        else raise s' { src := 37, code := 2, data := code, lane := s.mainLane }) := by
  have hgo : (s.activeLane.isNone || s.st.ends.s.isSome) = false := by
    rw [hnone, Option.isNone_eq_false_iff.mpr (Option.isSome_iff_ne_none.mpr hactive)]; rfl
  rw [execEndsIntervalDue, hgo]; rfl
theorem endsIntervalDue_defers {code : Nat} (h : timerBlocked s = some code) : ∃ t, execEndsIntervalDue s = .next t ∧
    Reports (({ s with free := s.free + 1 } : State).updSt fun t => { t with ends := { t.ends with due := true, deferred := true } }) t := by
  rw [endsIntervalDue_open hactive hnone, h]
  refine ⟨_, rfl, ?_⟩
  dsimp only
  split
  · exact .refl _
  · exact raise_reports ..
end

theorem endsIntervalDue_rests {s : State} (h : s.activeLane = none ∨ s.st.ends.s ≠ none) : execEndsIntervalDue s = .next s := by
  refine congrArg _ (if_pos ?_)
  obtain h | h := h
  · simp [h]
  · simp [Option.isSome_iff_ne_none.mpr h]

theorem endsDeferredStart_rests {s : State} (h : s.st.ends.due = false ∨ s.st.ends.s ≠ none ∨ timerBlocked s ≠ none) :
    execEndsDeferredStart s = .next s := by
  refine congrArg _ (if_neg fun hall => ?_)
  simp only [Bool.and_eq_true, Option.isNone_iff_eq_none] at hall
  obtain ⟨⟨hdue, hs⟩, hblocked⟩ := hall
  obtain h | h | h := h
  · rw [hdue] at h; nomatch h
  · exact h hs
  · exact h hblocked

/-! The operator's command -/

section
variable {s : State} {p : Part} {ws : List Word} (h : Served s p true .urgent 0x0032 ws) (hrole : 2 ≤ s.roleOf p)
include h hrole

theorem endsChange_none (hs : s.st.ends.s = none) : execEndsChange p s = .next (match endsBlocked s with
    | some code => answer s p true WRONG_STATE s.st.phase.code code
    | none => ((startEnds s (.host p) none).updSt fun t => { t with ends := { t.ends with asked := t.ends.asked ++ [p.val] } }).updMb p true
        fun m => { m with phase := .waiting }) := by
  rw [execEndsChange, serve_eq h rfl rfl, needOperator_held hrole, hs] <;> rfl
theorem endsChange_some {sw : Nat} (hs : s.st.ends.s = some sw) : execEndsChange p s = .next
    (if s.st.ends.confirmed then respond s p true ACCEPTED 0 0 ((sw + 1) % 2 ^ 32)
     else if s.standbyLane.isNone then answer s p true WRONG_STATE s.st.phase.code 1
     else (s.updSt fun t => { t with ends := { t.ends with asked := t.ends.asked ++ [p.val] } }).updMb p true
       fun m => { m with phase := .waiting }) := by
  rw [execEndsChange, serve_eq h rfl rfl, needOperator_held hrole, hs]
end

/-! The swap edge -/

theorem goOffline_stationSame (s : State) (l : LaneId) (c : OffCause) : StationSame s (goOffline s l c) := by
  unfold goOffline
  split
  · exact .refl s
  · extract_lets s1 s2 s3
    have h3 : StationSame s s3 := ((updLane_stationSame s l _).trans (hookOffline_netted s1 l).stationSame).trans
      (redEvent_reports ..).stationSame
    unfold partnerGone; extract_lets o
    split
    · exact h3.trans ((updLane_stationSame s3 o _).trans (noteUnnamed_reports ..).stationSame)
    · exact h3

/-- A lane that yields its end, before its flows and ports listen. -/
def Lane.yields (v : Lane) (back : Bool) : Lane :=
  { v with role := .standby, takeover := false, tok := {}, suspect := v.suspect || back, feedCycled := v.feedCycled && !back,
           health := if back then .suspect else v.health, mirror := v.mirror.again, endsSeen := none }
/-- A lane that takes the other's end, before its takeover. -/
def Lane.takes (v : Lane) : Lane :=
  { v with role := .active, takeover := true, endsSeen := none, tok := { v.tok with asked := none, reply := none },
           mirror := v.mirror.again }

theorem yieldEnds_netted (s : State) (l : LaneId) (back : Bool) : Netted (s.updLane l fun v => v.yields back) (yieldEnds s l back) := by
  unfold yieldEnds; exact hookStandby_netted _ l
theorem takeEnds_netted (s : State) (o : LaneId) : Netted (s.updLane o Lane.takes) (takeEnds s o) := by
  unfold takeEnds; exact hookTakeover_netted _ o

/-- The roles exchanged, where the new lane has not died. -/
def swapEnds (s : State) (l : LaneId) (back alive : Bool) : State :=
  if alive then redEvent (takeEnds (yieldEnds s l back) (other l)) (other l) 32 (if back then 3 else 2) else yieldEnds s l back

theorem swapEnds_alive (s : State) (l : LaneId) (back : Bool) :
    ((swapEnds s l back true).lane l).role = .standby ∧ ((swapEnds s l back true).lane l).suspect = ((s.lane l).suspect || back) ∧
    ((swapEnds s l back true).lane (other l)).role = .active ∧ ((swapEnds s l back true).lane (other l)).takeover = true := by
  have hyield := yieldEnds_netted s l back
  have htake := (takeEnds_netted (yieldEnds s l back) (other l)).trans
    (redEvent_reports (takeEnds (yieldEnds s l back) (other l)) (other l) 32 (if back then 3 else 2) []).netted
  have hl : ((swapEnds s l back true).lane l).duty = ((s.lane l).yields back).duty := by
    rw [swapEnds, if_pos rfl, htake.lane l, lane_updLane_ne _ _ _ _ (by cases l <;> nofun), hyield.lane l, lane_updLane]
  have ho : ((swapEnds s l back true).lane (other l)).duty = ((yieldEnds s l back).lane (other l)).takes.duty := by
    rw [swapEnds, if_pos rfl, htake.lane (other l), lane_updLane]
  exact ⟨(congrArg Lane.role hl :), (congrArg Lane.suspect hl :), (congrArg Lane.role ho :), (congrArg Lane.takeover ho :)⟩
theorem swapEnds_dead (s : State) (l : LaneId) (back : Bool) :
    ((swapEnds s l back false).lane l).role = .standby ∧
    ((swapEnds s l back false).lane (other l)).role = (s.lane (other l)).role := by
  have hyield := yieldEnds_netted s l back
  refine ⟨(hyield.role l).trans (by rw [lane_updLane]; rfl), (hyield.role (other l)).trans (by rw [lane_updLane_other])⟩

/-- The change of ends is over; a new lane that lives checks itself for eight ticks. -/
def endsOver (s : State) (o : LaneId) (back alive : Bool) : State := s.updSt fun t =>
  { t with ends := { check := if back ∨ !alive then 0 else 8, failBase := failedPeriods (s.lane o), missBase := missedLaunches (s.lane o) } }

section
variable {s : State} {sw : Nat} {l : LaneId} (hs : s.st.ends.s = some sw) (hactive : s.activeLane = some l)
include hs hactive

theorem endsSwapEdge_rests (h : ¬ (s.grid.tick = sw + 1 ∧ s.st.ends.confirmed = true ∧ (s.island s.st.referee).holder = some (other l))) :
    execEndsSwapEdge s = .next s := by
  simp only [execEndsSwapEdge, hs, hactive, if_neg h]
theorem endsSwapEdge_swaps (h : s.grid.tick = sw + 1 ∧ s.st.ends.confirmed = true ∧ (s.island s.st.referee).holder = some (other l))
    {alive : Bool} (halive : alive = decide ((s.lane (other l)).role = .standby)) :
    execEndsSwapEdge s = .next (
      let u := endsOver (swapEnds s l (decide (s.st.ends.cause = .swapBack)) alive) (other l) (decide (s.st.ends.cause = .swapBack)) alive
      match s.st.ends.offAfter with
      | some c => goOffline u l c
      | none => u) := by
  subst halive
  simp only [execEndsSwapEdge, hs, hactive, if_pos h, swapEnds, endsOver, decide_eq_true_eq] <;> rfl
end

/-- Settles O28: the start by what blocks it, the swap edge through `swapEnds` and, where the lane must leave, `goOffline`. -/
theorem endsRows : Obligations.EndsRows := by
  unfold Obligations.EndsRows
  intro s p ws
  dsimp only
  refine ⟨fun hactive hnone => ⟨fun hok => ?starts, fun code hblocked => ?defers⟩, fun hno => ?timerRests,
    fun hdue hnone hok => ?deferredStarts, fun hno => ?deferredRests, startEnds_s s,
    fun h => ⟨fun hrole => ?denied, fun hrole hnone => ⟨fun code hblocked => ?blocked, fun hok => ?commanded⟩,
      fun sw hrole hs => ⟨fun hconf => ?accepted, fun hopen halone => ?refused, fun hopen hpartner => ?joins⟩⟩,
    fun sw l hs hactive => ⟨fun hno => ?early, fun hat halive hstay => ?exchange, fun c hat halive hoff => ?leaves,
      fun hat hdead hstay => ?survives⟩, fun hno => ?swapRests, ⟨fun ⟨hcheck, hnone, hstandby, l, hactive, hfails⟩ => ?givesBack, fun hno => ?keeps⟩⟩
  case starts => rw [exec_endsIntervalDue, endsIntervalDue_open hactive hnone, hok]
  case defers =>
    obtain ⟨t, he, ht⟩ := endsIntervalDue_defers hactive hnone hblocked
    exact .mk ((exec_endsIntervalDue s).trans he) ht
  case timerRests => exact (exec_endsIntervalDue s).trans (endsIntervalDue_rests hno)
  case deferredStarts => simp [exec_endsDeferredStart, execEndsDeferredStart, hdue, hnone, hok]
  case deferredRests => exact (exec_endsDeferredStart s).trans (endsDeferredStart_rests hno)
  case denied => rw [exec_endsChange, execEndsChange, serve_eq h rfl rfl, needOperator_denied hrole]
  case blocked => rw [exec_endsChange, endsChange_none h hrole hnone, hblocked]
  case commanded => rw [exec_endsChange, endsChange_none h hrole hnone, hok]
  case accepted => rw [exec_endsChange, endsChange_some h hrole hs, if_pos hconf]
  case refused => rw [exec_endsChange, endsChange_some h hrole hs, if_neg (by rw [hopen]; nofun), if_pos (by rw [halone]; rfl)]
  case joins =>
    rw [exec_endsChange, endsChange_some h hrole hs, if_neg (by rw [hopen]; nofun), if_neg (by simpa using hpartner)]
  case early => exact (exec_endsSwapEdge s).trans (endsSwapEdge_rests hs hactive hno)
  case exchange =>
    have he := endsSwapEdge_swaps hs hactive hat (decide_eq_true halive).symm
    rw [hstay] at he
    obtain ⟨hrole, hsuspect, hother, htake⟩ := swapEnds_alive s l (decide (s.st.ends.cause = .swapBack))
    refine .mk ((exec_endsSwapEdge s).trans he) ?_
    simp only [endsOver, lane_updSt, updSt_st]
    refine ⟨hrole, hother, htake, trivial, ?_, hsuspect⟩
    simp
  case leaves =>
    have he := endsSwapEdge_swaps hs hactive hat (decide_eq_true halive).symm
    rw [hoff] at he
    obtain ⟨hrole, -, hother, -⟩ := swapEnds_alive s l (decide (s.st.ends.cause = .swapBack))
    refine .mk ((exec_endsSwapEdge s).trans he) ?_
    generalize hu : endsOver (swapEnds s l (decide (s.st.ends.cause = .swapBack)) true) (other l) (decide (s.st.ends.cause = .swapBack)) true = u
    have hlane (x : LaneId) : u.lane x = (swapEnds s l (decide (s.st.ends.cause = .swapBack)) true).lane x := by rw [← hu, endsOver, lane_updSt]
    obtain ⟨hoffline, hcause, hsolo, -⟩ := goOffline_lane u l c (by rw [hlane, hrole]; nofun)
    refine ⟨hoffline, hcause, hsolo (by rw [hlane, hother]), ?_⟩
    exact (congrArg (fun t => t.ends.s) (goOffline_stationSame u l c).st :).trans (by rw [← hu]; rfl)
  case survives =>
    have he := endsSwapEdge_swaps hs hactive hat (decide_eq_false hdead).symm
    rw [hstay] at he
    obtain ⟨hrole, hother⟩ := swapEnds_dead s l (decide (s.st.ends.cause = .swapBack))
    refine .mk ((exec_endsSwapEdge s).trans he) ?_
    simp only [endsOver, lane_updSt, updSt_st]
    exact ⟨hrole, hother, trivial, by simp⟩
  case swapRests =>
    rw [exec_endsSwapEdge, execEndsSwapEdge]
    obtain h | h := hno
    · rw [h]
    · rw [h]; cases s.st.ends.s <;> rfl
  case givesBack =>
    have hgo : (s.st.ends.check != 0 && s.st.ends.s.isNone && s.standbyLane.isSome && s.activeLane.any (selfCheckFails s)) = true := by
      simp [hcheck, hnone, Option.isSome_iff_ne_none.mpr hstandby, hactive, hfails]
    exact congrArg _ (if_pos hgo)
  case keeps =>
    refine congrArg _ (if_neg fun hall => hno ?_)
    simp only [Bool.and_eq_true, bne_iff_ne, Option.isNone_iff_eq_none, Option.isSome_iff_ne_none, Option.any_eq_true] at hall
    obtain ⟨⟨⟨hcheck, hnone⟩, hstandby⟩, hfails⟩ := hall
    exact ⟨hcheck, hnone, hstandby, hfails⟩

end Sys2Proof.Machine
end

section
/-! Re-integration (00 R22; 10 R289, R290). -/

namespace Sys2Proof.Machine

theorem exec_reintStart (l : LaneId) (s : State) : exec (.reintStart l) s = execReintStart l s := rfl
theorem exec_reintRetryDue (l : LaneId) (s : State) : exec (.reintRetryDue l) s = execReintRetryDue l s := rfl
theorem exec_reintCopyClosed (l : LaneId) (s : State) : exec (.reintCopyClosed l) s = execReintCopyClosed l s := rfl
theorem exec_reintCopyTimeout (l : LaneId) (s : State) : exec (.reintCopyTimeout l) s = execReintCopyTimeout l s := rfl
theorem exec_reintStandby (l : LaneId) (s : State) : exec (.reintStandby l) s = execReintStandby l s := rfl

/-! The start -/

theorem beginReint_copies {s : State} {l : LaneId} (hfw : (s.lane l).fw = (s.lane (other l)).fw) (himages : imagesHold s = true) :
    Reports (s.updLane l fun v => { v with reint := { step := .copying } }) (beginReint s l) := by
  simp only [beginReint, hfw, himages, bne_self_eq_false, Bool.not_true, Bool.false_eq_true, if_false]
  exact redEvent_reports ..
theorem beginReint_fails {s : State} {l : LaneId} (hfw : (s.lane l).fw = (s.lane (other l)).fw) (himages : imagesHold s = false) :
    beginReint s l = s.updLane l fun v => { v with cause := .reintFailed, health := .failed, needCycle := true } := by
  simp only [beginReint, hfw, himages, bne_self_eq_false, Bool.not_false, Bool.false_eq_true, if_false, if_true]
theorem beginReint_differs {s : State} {l : LaneId} (hfw : (s.lane l).fw ≠ (s.lane (other l)).fw) :
    Reports (s.updLane l fun v => { v with cause := .firmware, health := .failed, needCycle := true, startDone := true, tok := {} })
      (beginReint s l) := by
  rw [beginReint, if_pos (bne_iff_ne.mpr hfw), versionsDiffer]
  exact raise_reports ..

/-! The copy's close -/

/-- What `g` reads of every lane is as it was. -/
def LanesBy {α : Type} (g : Lane → α) (s t : State) : Prop := ∀ l, g (t.lane l) = g (s.lane l)

theorem LanesBy.refl {α : Type} (g : Lane → α) (s : State) : LanesBy g s s := fun _ => rfl
theorem LanesBy.trans {α : Type} {g : Lane → α} {s t u : State} (h : LanesBy g s t) (k : LanesBy g t u) : LanesBy g s u :=
  fun l => (k l).trans (h l)
theorem updLane_lanesBy {α : Type} {g : Lane → α} (s : State) (l : LaneId) (f : Lane → Lane) (hf : g (f (s.lane l)) = g (s.lane l)) :
    LanesBy g s (s.updLane l f) := fun m => by
  by_cases h : m = l
  · subst h; rw [lane_updLane, hf]
  · rw [lane_updLane_ne _ _ _ _ h]
theorem foldl_lanesBy {α β : Type} {g : Lane → β} (f : State → α → State) (xs : List α) (hf : ∀ s x, LanesBy g s (f s x)) (s : State) :
    LanesBy g s (xs.foldl f s) := by
  induction xs generalizing s with
  | nil => exact .refl g s
  | cons x xs ih => exact (hf s x).trans (ih _)

theorem canApplyPort_roles (old new : List CfgRec) (p : Nat) (s : State) (l : LaneId) : LanesBy Lane.role s (canApplyPort old new p s l) := by
  unfold canApplyPort
  split
  · exact .refl _ s
  · unfold updCan
    split
    · exact fun m => by rw [lane_updIsl]
    · exact updLane_lanesBy s l _ rfl
theorem canApplyFields_roles (old new : List CfgRec) (p : Nat) (s : State) (l : LaneId) : LanesBy Lane.role s (canApplyFields old new p s l) := by
  unfold canApplyFields
  split
  · exact .refl _ s
  · extract_lets before s1
    exact (updLane_lanesBy s l _ rfl).trans (foldl_lanesBy _ _ (fun s r => updLane_lanesBy s l _ rfl) s1)
theorem canApply_roles (old new : List CfgRec) (s : State) (l : LaneId) : LanesBy Lane.role s (canApply old new s l) := by
  refine foldl_lanesBy _ _ (fun s p => ?_) s
  refine LanesBy.trans ?_ (canApplyFields_roles old new p _ l)
  split
  · exact .refl _ s
  · exact canApplyPort_roles old new p s l

theorem sendHeartbeat_roles (s : State) (l : LaneId) : LanesBy Lane.role s (sendHeartbeat s l) := by
  unfold sendHeartbeat; extract_lets w
  exact (updLane_lanesBy s l _ rfl).trans fun m => by rw [lane_emit]

/-- A lane after the copy, in a role that no copy changes, holds its partner's data and tracks. -/
theorem copyLane_lane (s : State) (l : LaneId) :
    ((copyLane s l).lane l).img = (s.lane (other l)).frozen ∧ ((copyLane s l).lane l).frozen = (s.lane (other l)).frozen ∧
    ((copyLane s l).lane l).tmpl = (s.lane (other l)).tmpl ∧ ((copyLane s l).lane l).loops = (s.lane (other l)).loops ∧
    ((copyLane s l).lane l).chains = (s.lane (other l)).chains ∧ ((copyLane s l).lane l).frozenTick = some s.grid.tick ∧
    ((copyLane s l).lane l).reint.step = .tracking ∧ ((copyLane s l).lane l).reint.count = 0 ∧
    ((copyLane s l).lane l).role = (s.lane l).role := by
  unfold copyLane; extract_lets o t s1 s2
  have hrole : LanesBy Lane.role s s2 := by
    refine LanesBy.trans ?_ (canApply_roles [] s1.cfgRecs s1 l)
    simp only [s1]; split
    · exact .refl _ s
    · exact sendHeartbeat_roles s l
  rw [lane_updLane]
  exact ⟨rfl, rfl, rfl, rfl, rfl, rfl, rfl, rfl, hrole l⟩

/-! Readiness -/

theorem noteRole_netted (s : State) (l : LaneId) (r : Role) : Netted s (noteRole s l r) := (noteUnnamed_reports ..).netted

/-- A tracking lane that is STANDBY again. -/
def Lane.reintegrated (v : Lane) : Lane :=
  { v with role := .standby, cause := .none, reint := {}, suspect := v.suspect && !v.feedCycled, feedCycled := false,
           health := if v.suspect && !v.feedCycled then .suspect else .good }

theorem reintStandby_ready {s : State} {l : LaneId} (hstep : (s.lane l).reint.step = .tracking) (hcount : 16 ≤ (s.lane l).reint.count)
    (hrole : (s.lane (other l)).role = .active ∨ (s.lane (other l)).role = .solo) :
    ∃ t, execReintStandby l s = .next t ∧ (t.lane l).duty = (s.lane l).reintegrated.duty ∧ (t.lane (other l)).role = .active := by
  have hgo : ((s.lane l).reint.step == .tracking && decide (16 ≤ (s.lane l).reint.count) && runsRole (s.lane (other l)).role) = true := by
    obtain h | h := hrole
    · simp [hstep, hcount, h, runsRole]
    · simp [hstep, hcount, h, runsRole]
  unfold execReintStandby
  simp only [if_pos hgo]
  refine ⟨_, rfl, ?_⟩
  generalize hu : (if ((s.updLane l Lane.reintegrated).lane (other l)).role == .solo then
      noteRole ((s.updLane l Lane.reintegrated).updLane (other l) fun v => { v with role := .active }) (other l) .active
    else s.updLane l Lane.reintegrated) = u
  have hl : (u.lane l).duty = (s.lane l).reintegrated.duty := by
    rw [← hu]
    split
    · rw [(noteRole_netted ..).lane l, lane_updLane_ne _ _ _ _ (by cases l <;> nofun), lane_updLane]
    · rw [lane_updLane]
  have ho : (u.lane (other l)).role = .active := by
    rw [← hu]
    split
    · rw [(noteRole_netted ..).role (other l), lane_updLane]
    · rename_i hsolo
      rw [lane_updLane_other] at hsolo ⊢
      exact hrole.resolve_right fun h => hsolo (by rw [h]; rfl)
  have hstandby := (hookStandby_netted u l).trans (redEvent_reports (hookStandby u l) l 32 5 []).netted
  rw [← hu] at hl ho hstandby
  exact ⟨(hstandby.lane l).trans hl, (hstandby.role (other l)).trans ho⟩

/-- Settles O29: the start by the versions and the images, the copy through `copyLane`, readiness by the lane's duty. -/
theorem reintRows : Obligations.ReintRows := by
  unfold Obligations.ReintRows
  intro s l v begins
  have hbegins {i : Instr} (he : exec i s = .next (beginReint s l)) : begins i :=
    ⟨fun hfw himages => .mk he (beginReint_copies hfw himages), fun hfw himages => by rw [he, beginReint_fails hfw himages],
      fun hfw => .mk he (beginReint_differs hfw)⟩
  refine ⟨fun hmay hstep => hbegins ?starts, fun hmay hstep => hbegins ?retries, fun hno => ?startRests, fun hno => ?retryRests,
    fun hstep hclosed => .mk ?closes (copyLane_lane s l), fun hno => ?closeRests,
    fun hstep => ⟨fun hfew => ?again, fun hmany => ?givesUp⟩, fun hno => ?timeRests,
    fun ⟨hstep, hcount, hrole⟩ => ?ready, fun hno => ?notReady⟩
  case starts => simp [exec_reintStart, execReintStart, hmay, show (s.lane l).reint.step = .idle from hstep]
  case retries => simp [exec_reintRetryDue, execReintRetryDue, hmay, show (s.lane l).reint.step = .waitRetry from hstep]
  case startRests =>
    refine congrArg _ (if_neg fun hall => ?_)
    obtain ⟨hmay, hstep⟩ := Bool.and_eq_true_iff.mp hall
    obtain h | h := hno
    · rw [h] at hmay; nomatch hmay
    · exact h (beq_iff_eq.mp hstep)
  case retryRests =>
    refine congrArg _ (if_neg fun hall => ?_)
    obtain ⟨hstep, hmay⟩ := Bool.and_eq_true_iff.mp hall
    obtain h | h := hno
    · rw [h] at hmay; nomatch hmay
    · exact h (beq_iff_eq.mp hstep)
  case closes => simp [exec_reintCopyClosed, execReintCopyClosed, show (s.lane l).reint.step = .copying from hstep, hclosed]
  case closeRests =>
    refine congrArg _ (if_neg fun hall => ?_)
    obtain ⟨hstep, hclosed⟩ := Bool.and_eq_true_iff.mp hall
    obtain h | h := hno
    · exact h (beq_iff_eq.mp hstep)
    · exact h (beq_iff_eq.mp hclosed)
  case again =>
    have he : execReintCopyTimeout l s = .next (redEvent (s.updLane l fun v =>
        { v with reint := { v.reint with restarts := v.reint.restarts + 1 } }) l 38 2) := by
      simp [execReintCopyTimeout, show (s.lane l).reint.step = .copying from hstep, show (s.lane l).reint.restarts < 3 from hfew]
    exact .mk ((exec_reintCopyTimeout l s).trans he) (redEvent_reports ..)
  case givesUp =>
    have he : execReintCopyTimeout l s = .next (redEvent (redEvent (s.updLane l fun v =>
        { v with reint := { step := .waitRetry }, cause := .reintFailed, health := .failed }) l 38 3) l 32 4
          [Config.payloadCode 0 OffCause.reintFailed.no]) := by
      simp [execReintCopyTimeout, show (s.lane l).reint.step = .copying from hstep,
        show ¬ (s.lane l).reint.restarts < 3 from Nat.not_lt.mpr hmany]
    exact .mk ((exec_reintCopyTimeout l s).trans he) ((redEvent_reports ..).trans (redEvent_reports ..))
  case timeRests => exact congrArg _ (if_pos (bne_iff_ne.mpr hno))
  case ready =>
    obtain ⟨t, he, hl, ho⟩ := reintStandby_ready hstep hcount hrole
    refine .mk ((exec_reintStandby l s).trans he)
      ⟨(congrArg Lane.role hl :), (congrArg Lane.cause hl :), ho, (congrArg Lane.suspect hl :), ?_⟩
    have hhealth : (t.lane l).health = _ := (congrArg Lane.health hl :)
    rw [hhealth]
    simp [Lane.duty, Lane.reintegrated, v]
  case notReady =>
    refine congrArg _ (if_neg fun hall => hno ?_)
    simp only [Bool.and_eq_true, beq_iff_eq, decide_eq_true_eq, runsRole, Bool.or_eq_true] at hall
    obtain ⟨⟨hstep, hcount⟩, hrole⟩ := hall
    exact ⟨hstep, hcount, hrole⟩

end Sys2Proof.Machine
end

section
/-! The output token (10 R271 to R274): requests, replies, grants and releases. -/

namespace Sys2Proof.Machine

theorem exec_tokenRequest (l : LaneId) (s : State) : exec (.tokenRequest l) s = execTokenRequest l s := rfl
theorem exec_tokenRequestRetry (l : LaneId) (s : State) : exec (.tokenRequestRetry l) s = execTokenRequestRetry l s := rfl
theorem exec_tokenReply (l : LaneId) (s : State) : exec (.tokenReply l) s = execTokenReply l s := rfl
theorem exec_grantRecord (i : Isl) (l : LaneId) (record : List Byte) (s : State) :
    exec (.grantRecord i l record) s = execGrantRecord i l record s := rfl
theorem exec_releaseWord (i : Isl) (l : LaneId) (s : State) : exec (.releaseWord i l) s = execReleaseWord i l s := rfl

/-! The referee's answer -/

/-- The referee's reply as the lane has it. -/
def tokReplies (s : State) (l : LaneId) (k : TokReply) : State := s.updLane l fun v => { v with tok := { v.tok with reply := some k } }

section
variable {s : State} {l : LaneId}

theorem refereeAnswer_holder (h : (s.island s.st.referee).holder = some l) : refereeAnswer s l = tokReplies s l
    (.granted ((s.island s.st.referee).inForce.getD ⟨s.st.referee, l, (s.island s.st.referee).lastApplied, s.tickNo⟩)) := by
  simp only [refereeAnswer, h, if_true]; rfl

variable (h : (s.island s.st.referee).holder ≠ some l)
include h

theorem refereeAnswer_pending {x : Grant} (hx : (s.island s.st.referee).pendGrant = some x) :
    refereeAnswer s l = tokReplies s l (if x.lane = l then .granted x else .refused) := by
  simp only [refereeAnswer, if_neg h, hx]
  split
  · rfl
  · rfl

variable (hnone : (s.island s.st.referee).pendGrant = none)
include hnone

theorem refereeAnswer_free (hfree : (s.island s.st.referee).holder = none ∨ (s.island s.st.referee).released = some (s.grid.tick + 1)) :
    refereeAnswer s l = grantTo s l := by
  have hgo : ((s.island s.st.referee).holder = none || (s.island s.st.referee).released = some (s.grid.tick + 1)) = true := by
    simpa using hfree
  simp only [refereeAnswer, if_neg h, hnone]
  exact if_pos hgo
theorem refereeAnswer_held (hheld : (s.island s.st.referee).holder = some (other l))
    (hkept : (s.island s.st.referee).released ≠ some (s.grid.tick + 1)) : refereeAnswer s l =
    if ((s.island s.st.referee).announced.map (fun e => decide (s.grid.tick ≤ e))).getD false then
      tokReplies (s.updIsl s.st.referee fun i => { i with waiting := some l }) l .pending
    else tokReplies s l .refused := by
  have hgo : ((s.island s.st.referee).holder = none || (s.island s.st.referee).released = some (s.grid.tick + 1)) = false := by
    simp [hheld, hkept]
  simp only [refereeAnswer, if_neg h, hnone, hgo, Bool.false_eq_true, if_false]
  rfl
end

section
variable {s : State} {l : LaneId}

theorem tokenRequest_reaches {w : TokWhy} (hasked : (s.lane l).tok.asked = some w) (hpower : (s.island s.st.referee).powered = true) :
    execTokenRequest l s = .next (refereeAnswer s l) := by simp [execTokenRequest, hasked, hpower]
theorem tokenRequest_rests (h : (s.lane l).tok.asked = none ∨ (s.island s.st.referee).powered = false) : execTokenRequest l s = .next s := by
  obtain h | h := h
  · simp [execTokenRequest, h]
  · simp [execTokenRequest, h]
theorem tokenRetry_rests (h : (s.lane l).tok.asked = none ∨ (s.island s.st.referee).powered = false ∨ (s.lane l).tok.reply ≠ none) :
    execTokenRequestRetry l s = .next s := by
  obtain h | h | h := h
  · simp [execTokenRequestRetry, h]
  · simp [execTokenRequestRetry, h]
  · refine congrArg _ (if_neg fun hall => h ?_)
    simp only [Bool.and_eq_true, Option.isNone_iff_eq_none] at hall
    exact hall.1.2
end

/-! The lane's side -/

/-- A lane with the grant it has received. -/
def Lane.granted (v : Lane) (g : Grant) : Lane := { v with tok := { v.tok with reply := none, grant := some g } }

theorem redEvent_granted (s : State) (l : LaneId) (g : Grant) :
    Reports (s.updLane l fun v => v.granted g) (redEvent (s.updLane l fun v => v.granted g) l 35 1 (leBytes g.epoch 2)) := redEvent_reports ..

section
variable (s : State) (l : LaneId) (g : Grant)

theorem grantReceived_again : Reports (s.updLane l fun v => { v with tok := { v.tok with asked := none, reply := none, grant := some g } })
    (grantReceived s l g .again) := by
  have h := (redEvent_granted s l g).updLane l fun v => { v with tok := { v.tok with asked := none } }
  rw [updLane_updLane] at h
  exact h
theorem grantReceived_later {w : TokWhy} (h : w = .takeover ∨ w = .ends) : Reports (s.updLane l fun v => v.granted g) (grantReceived s l g w) := by
  obtain rfl | rfl := h
  · exact redEvent_granted s l g
  · exact redEvent_granted s l g
theorem grantReceived_startUp : grantReceived s l g .startUp =
    (let u := redEvent (s.updLane l fun v => v.granted g) l 35 1 (leBytes g.epoch 2)
     let role : Role := if l = .a ∧ u.st.ready = false then .active else .solo
     noteRole ((if u.st.ready then forgetImages u else u).updLane l fun v =>
       { v with role := role, cause := .none, tok := { v.tok with asked := none } }) l role) := rfl
theorem grantReceived_first (hready : s.st.ready = false) : Reports (s.updLane l fun v =>
    { v with role := if l = .a then .active else .solo, cause := .none, tok := { v.tok with asked := none, reply := none, grant := some g } })
    (grantReceived s l g .startUp) := by
  have hu := redEvent_granted s l g
  rw [grantReceived_startUp]
  generalize redEvent (s.updLane l fun v => v.granted g) l 35 1 (leBytes g.epoch 2) = u at hu ⊢
  have hready' : u.st.ready = false := (congrArg Station.ready hu.st :).trans (by rw [updLane_st, hready])
  have h := hu.updLane l fun v => { v with role := if l = .a then .active else .solo, cause := .none, tok := { v.tok with asked := none } }
  rw [updLane_updLane] at h
  simp only [hready', and_true, Bool.false_eq_true, if_false]
  exact h.trans (noteUnnamed_reports ..)
/-- A lane that restarts alone is SOLO with no images. -/
theorem grantReceived_alone (hready : s.st.ready = true) :
    ((grantReceived s l g .startUp).lane l).role = .solo ∧ ((grantReceived s l g .startUp).lane l).tok.grant = some g ∧
    ((grantReceived s l g .startUp).lane l).tok.asked = none ∧ (grantReceived s l g .startUp).st.prog = none ∧
    (grantReceived s l g .startUp).st.cfg = none ∧ (grantReceived s l g .startUp).st.access = none ∧
    (grantReceived s l g .startUp).st.phase = .stopped := by
  have hu := redEvent_granted s l g
  rw [grantReceived_startUp]
  generalize redEvent (s.updLane l fun v => v.granted g) l 35 1 (leBytes g.epoch 2) = u at hu ⊢
  have hready' : u.st.ready = true := (congrArg Station.ready hu.st :).trans (by rw [updLane_st, hready])
  have hgrant : (u.lane l).tok.grant = some g := (congrArg (fun v => v.tok.grant) (hu.lane l) :).trans (by rw [lane_updLane]; rfl)
  simp only [hready', Bool.true_eq_false, and_false, if_false, if_true]
  have hnote := noteRole_netted ((forgetImages u).updLane l fun v => { v with role := .solo, cause := .none, tok := { v.tok with asked := none } })
    l .solo
  have hst := hnote.st
  rw [updLane_st] at hst
  rw [hnote.role l, hnote.tok l, lane_updLane]
  refine ⟨rfl, ?_, rfl, (congrArg Station.prog hst :), (congrArg Station.cfg hst :), (congrArg Station.access hst :), ?_⟩
  · rw [forgetImages_tok]; exact hgrant
  · have hphase : (forgetImages u).st.phase = if (discardLoopStage u).st.ready then .stopped else (discardLoopStage u).st.phase := rfl
    have hdiscard : (discardLoopStage u).st.ready = u.st.ready := (congrArg Station.ready (discardLoopStage_reports u).st :)
    refine (congrArg Station.phase hst :).trans ?_
    rw [hphase, hdiscard, hready', if_pos rfl]
end

section
variable {s : State} {l : LaneId} {w : TokWhy}

theorem tokenReply_granted {g : Grant} (hasked : (s.lane l).tok.asked = some w) (hreply : (s.lane l).tok.reply = some (.granted g)) :
    execTokenReply l s = .next (grantReceived s l g w) := by simp only [execTokenReply, hasked, hreply]
theorem tokenReply_refused (hasked : (s.lane l).tok.asked = some w) (hreply : (s.lane l).tok.reply = some .refused) :
    execTokenReply l s = .next
      (let u := redEvent (s.updLane l fun v => { v with tok := { v.tok with asked := none, reply := none } }) l 35 2
       if w = .takeover ∧ (s.lane l).role = .standby then goOffline u l .isolated else u) := by
  simp only [execTokenReply, hasked, hreply]
theorem tokenReply_rests (h : (s.lane l).tok.reply = none ∨ (s.lane l).tok.reply = some .pending ∨ (s.lane l).tok.asked = none) :
    execTokenReply l s = .next s := by
  obtain h | h | h := h
  · simp only [execTokenReply, h]; cases (s.lane l).tok.asked <;> rfl
  · simp only [execTokenReply, h]; cases (s.lane l).tok.asked <;> rfl
  · simp only [execTokenReply, h]
end

/-! Releases -/

theorem releaseWord_releases {s : State} {i : Isl} {l : LaneId} (hholder : (s.island i.val).holder = some l)
    (hrel : s.st.ends.released = true) : execReleaseWord i l s =
    .next (let u := s.updIsl i.val fun x => { x with released := some (s.grid.tick + 1) }
      if i.val = s.st.referee then
        match (s.island i.val).waiting with
        | some w => grantTo u w
        | none => u
      else u) := if_pos ⟨hholder, hrel⟩

/-- Settles O30: a request by what the referee's island holds, a reply by why it was asked for. -/
theorem tokenRows : Obligations.TokenRows := by
  unfold Obligations.TokenRows
  intro s l
  dsimp only
  refine ⟨fun w hasked hpower => ⟨fun hholder => ?holder, fun x hother hx => ?pending, fun hother hnone => ⟨fun hfree => ?free,
      fun e hheld hkept he hann => ?announced, fun hheld hkept hlate => ?refused⟩, fun hreply => ?retries⟩, fun hno => ?requestRests,
    fun hno => ?retryRests, fun x hreply => ⟨fun hasked hready => ?first, fun hasked hready => ?alone, fun hasked => ?later,
      fun hasked => ?again⟩, fun hreply => ⟨fun hasked hrole => ?isolates, fun hasked => ?gives⟩, fun hno => ?replyRests,
    fun i record => ⟨fun x y hx hy hisl href hpower hlane hepoch => ?records, fun hbad => ?badRecord⟩,
    fun i => ⟨fun hholder hrel => ⟨fun hno => ?released, fun w href hw => ?passes⟩, fun hno => ?releaseRests⟩⟩
  case holder => rw [exec_tokenRequest, tokenRequest_reaches hasked hpower, refereeAnswer_holder hholder]; rfl
  case pending => rw [exec_tokenRequest, tokenRequest_reaches hasked hpower, refereeAnswer_pending hother hx]; rfl
  case free => rw [exec_tokenRequest, tokenRequest_reaches hasked hpower, refereeAnswer_free hother hnone hfree]; rfl
  case announced =>
    rw [exec_tokenRequest, tokenRequest_reaches hasked hpower, refereeAnswer_held hother hnone hheld hkept, if_pos (by simp [he, hann])]
    rfl
  case refused =>
    have hno : ¬ ((s.island s.st.referee).announced.map (fun e => decide (s.grid.tick ≤ e))).getD false = true := by
      cases he : (s.island s.st.referee).announced with
      | none => nofun
      | some e => simpa using hlate e he
    rw [exec_tokenRequest, tokenRequest_reaches hasked hpower, refereeAnswer_held hother hnone hheld hkept, if_neg hno]
    rfl
  case retries => simp [exec_tokenRequest, exec_tokenRequestRetry, execTokenRequest, execTokenRequestRetry, hreply]
  case requestRests => exact (exec_tokenRequest l s).trans (tokenRequest_rests hno)
  case retryRests => exact (exec_tokenRequestRetry l s).trans (tokenRetry_rests hno)
  case first => exact .mk ((exec_tokenReply l s).trans (tokenReply_granted hasked hreply)) (grantReceived_first s l x hready)
  case alone => exact .mk ((exec_tokenReply l s).trans (tokenReply_granted hasked hreply)) (grantReceived_alone s l x hready)
  case later =>
    obtain h | h := hasked
    · exact .mk ((exec_tokenReply l s).trans (tokenReply_granted h hreply)) (grantReceived_later s l x (.inl rfl))
    · exact .mk ((exec_tokenReply l s).trans (tokenReply_granted h hreply)) (grantReceived_later s l x (.inr rfl))
  case again => exact .mk ((exec_tokenReply l s).trans (tokenReply_granted hasked hreply)) (grantReceived_again s l x)
  case isolates =>
    have he := tokenReply_refused hasked hreply
    refine .mk ((exec_tokenReply l s).trans (he.trans (congrArg _ (if_pos ⟨rfl, hrole⟩)))) ?_
    have hu : ((redEvent (s.updLane l fun v => { v with tok := { v.tok with asked := none, reply := none } }) l 35 2).lane l).role ≠ .offline := by
      have hsame := (redEvent_reports (s.updLane l fun v => { v with tok := { v.tok with asked := none, reply := none } }) l 35 2 []).netted.role l
      rw [hsame, lane_updLane]
      exact fun h => by rw [hrole] at h; nomatch h
    obtain ⟨hoff, hcause, -, -⟩ := goOffline_lane _ l .isolated hu
    exact ⟨hoff, hcause⟩
  case gives =>
    have hgives (w : TokWhy) (hw : (s.lane l).tok.asked = some w) (hno : ¬ (w = .takeover ∧ (s.lane l).role = .standby)) :
        Becomes (.tokenReply l) s (s.updLane l fun v => { v with tok := { v.tok with asked := none, reply := none } }) :=
      .mk ((exec_tokenReply l s).trans ((tokenReply_refused hw hreply).trans (congrArg _ (if_neg hno)))) (redEvent_reports ..)
    obtain h | h | h | ⟨h, hrole⟩ := hasked
    · exact hgives .startUp h (by nofun)
    · exact hgives .ends h (by nofun)
    · exact hgives .again h (by nofun)
    · exact hgives .takeover h fun hall => hrole hall.2
  case replyRests => exact (exec_tokenReply l s).trans (tokenReply_rests hno)
  case records =>
    have hgo : (tokenIslands.contains i.val && i.val != s.st.referee && (s.island i.val).powered && y.lane == x.lane && y.epoch == x.epoch) = true := by
      rw [hisl, hpower, hlane, hepoch, bne_iff_ne.mpr href]; simp
    simp only [exec_grantRecord, execGrantRecord, hx, hy, if_pos hgo]
  case badRecord =>
    simp only [exec_grantRecord, execGrantRecord, hbad]
    cases (s.lane l).tok.grant <;> rfl
  case released =>
    rw [exec_releaseWord, releaseWord_releases hholder hrel]
    obtain h | h := hno
    · exact congrArg _ (if_neg h)
    · simp only [h, ite_self]
  case passes => rw [exec_releaseWord, releaseWord_releases hholder hrel, hw]; exact congrArg _ (if_pos href)
  case releaseRests =>
    refine if_neg fun ⟨hholder, hrel⟩ => ?_
    obtain h | h := hno
    · exact h hholder
    · rw [h] at hrel; nomatch hrel

end Sys2Proof.Machine
end

section
/-! Clock failures and restarts, and the lockstep mismatch (17 R430 to R437). -/

namespace Sys2Proof.Machine

theorem exec_tcxoFailure (l : LaneId) (c : Option Nat) (s : State) : exec (.tcxoFailure l c) s = execTcxoFailure l c s := rfl
theorem exec_rcFault (l : LaneId) (n : Nat) (k : Option Nat) (s : State) : exec (.rcFault l n k) s = execRcFault l n k s := rfl
theorem exec_rcQualified (l : LaneId) (n : Nat) (s : State) : exec (.rcQualified l n) s = execRcQualified l n s := rfl
theorem exec_rcQualTimeout (l : LaneId) (s : State) : exec (.rcQualTimeout l) s = execRcQualTimeout l s := rfl
theorem exec_tcxoReturn (l : LaneId) (s : State) : exec (.tcxoReturn l) s = execTcxoReturn l s := rfl
theorem exec_lockstepMismatch (l : LaneId) (s : State) : exec (.lockstepMismatch l) s = execLockstepMismatch l s := rfl

theorem laneClockEvent_reports (s : State) (l : LaneId) (base code : Nat) (pay : List Byte) : Reports s (laneClockEvent s l base code pay) :=
  raise_reports ..
theorem clockFailEvent_reports (s : State) (l : LaneId) (code : Nat) : Reports s (clockFailEvent s l code) := raise_reports ..

/-! A lane that stops -/

theorem laneStops_netted (s : State) (l : LaneId) (ph : LanePhase) : Netted (s.updLane l fun v =>
    let v := restEngine v
    { v with phase := ph, role := .offline, cause := .stopped, takeover := false, tok := {}, mirror := v.mirror.again,
             reint := {}, endsSeen := none, lit := false, winUp := false, arrived := [] }) (laneStops s l ph) := by
  unfold laneStops; exact hookOffline_netted _ l
theorem laneStops_lane (s : State) (l : LaneId) (ph : LanePhase) : ((laneStops s l ph).lane l).phase = ph ∧
    ((laneStops s l ph).lane l).role = .offline ∧ ((laneStops s l ph).lane l).cause = .stopped := by
  have h := laneStops_netted s l ph
  rw [h.phase l, h.role l, h.cause l, lane_updLane]
  exact ⟨rfl, rfl, rfl⟩

/-! The switch to the RC -/

theorem updNet_netted (s : State) (l : LaneId) (f : Net → Net) : Netted s (s.updNet l f) := by
  unfold State.updNet; exact netted_updLane s l _ rfl

theorem actEvent_netted (s : State) (l : LaneId) (a b c : Nat) : Netted s (actEvent s l a b c) := by
  unfold actEvent; split
  · exact (raise_reports ..).netted
  · exact .refl s
theorem hookRcSwitch_netted (s : State) (l : LaneId) (alone : Bool) : Netted s (hookRcSwitch s l alone) := by
  unfold hookRcSwitch rcTime startServo; extract_lets n u
  have hu : Netted s u := (updNet_netted s l _).trans (updNet_netted _ l _)
  split
  · unfold enterTime; extract_lets w
    exact hu.trans ((updNet_netted u l _).trans (actEvent_netted ..))
  · exact hu

/-- An entry to Occulting that is abandoned moves the power state and reports. -/
theorem abandonEntry_reports (s : State) (cause : Nat) : ∃ p, Reports (s.updSt fun x => { x with power := p }) (abandonEntry s cause) := by
  unfold abandonEntry; split
  · exact ⟨_, raise_reports ..⟩
  · exact ⟨s.st.power, .refl s⟩

/-- A lane that has switched to the RC, as its role is judged: `u` is `s` but for the power state and what reports write. -/
structure OnRc (s u : State) (l : LaneId) : Prop where
  lane : (u.lane l).duty = { (s.lane l).duty with clocks := { (s.lane l).clocks with tcxoGood := false, src := .rc } }
  partner : (u.lane (other l)).duty = (s.lane (other l)).duty
  ends : u.st.ends = s.st.ends
  commit : u.st.commit = s.st.commit
  grid : u.grid = s.grid

theorem clockFail_onRc (s : State) (l : LaneId) : OnRc s (clockFailEvent ((abandonEntry s 1).updLane l fun v =>
    { v with clocks := { v.clocks with tcxoGood := false, src := .rc } }) l 1) l := by
  obtain ⟨p, hp⟩ := abandonEntry_reports s 1
  have h := (hp.updLane l fun v => { v with clocks := { v.clocks with tcxoGood := false, src := .rc } }).trans
    (clockFailEvent_reports ((abandonEntry s 1).updLane l fun v => { v with clocks := { v.clocks with tcxoGood := false, src := .rc } }) l 1)
  have hst := h.st
  rw [updLane_st, updSt_st] at hst
  refine ⟨?_, ?_, (congrArg Station.ends hst :), (congrArg Station.commit hst :), ?_⟩
  · rw [h.netted.lane l, lane_updLane, lane_updSt]; rfl
  · rw [h.netted.lane (other l), lane_updLane_other, lane_updSt]
  · rw [h.grid, updLane_grid_eq, updSt_grid]

section
variable {s u : State} {l : LaneId} (h : OnRc s u l)
include h

theorem OnRc.role : (u.lane l).role = (s.lane l).role := (congrArg Lane.role h.lane :)
theorem OnRc.health : (u.lane l).health = (s.lane l).health := (congrArg Lane.health h.lane :)
theorem OnRc.clocks : (u.lane l).clocks = { (s.lane l).clocks with tcxoGood := false, src := .rc } := (congrArg Lane.clocks h.lane :)

theorem actOnRc_solo (hrole : (s.lane l).role = .solo) (hhealth : (s.lane l).health = .good) :
    ((actOnRc u l).lane l).clocks.src = .rc ∧ ((actOnRc u l).lane l).clocks.tcxoGood = false ∧ ((actOnRc u l).lane l).role = .solo ∧
    ((actOnRc u l).lane l).health = .degraded := by
  have hswitch := (hookRcSwitch_netted u l true).lane l
  have hclocks : ((hookRcSwitch u l true).lane l).clocks = (u.lane l).clocks := (congrArg Lane.clocks hswitch :)
  have hrole' : ((hookRcSwitch u l true).lane l).role = .solo := (congrArg Lane.role hswitch :).trans (h.role.trans hrole)
  have hhealth' : ((hookRcSwitch u l true).lane l).health = .good := (congrArg Lane.health hswitch :).trans (h.health.trans hhealth)
  simp only [actOnRc, h.role.trans hrole, lane_updLane, hclocks, h.clocks, hrole', hhealth']
  exact ⟨trivial, trivial, trivial, rfl⟩
theorem actOnRc_standby (hrole : (s.lane l).role = .standby) :
    ((actOnRc u l).lane l).role = .offline ∧ ((actOnRc u l).lane l).cause = .clock := by
  simp only [actOnRc, h.role.trans hrole]
  obtain ⟨hoff, hcause, -, -⟩ := goOffline_lane (hookRcSwitch u l false) l .clock
    (by rw [(hookRcSwitch_netted u l false).role l, h.role, hrole]; nofun)
  exact ⟨hoff, hcause⟩

theorem actOnRc_active (hrole : (s.lane l).role = .active) (hpartner : (s.lane (other l)).role = .standby)
    (hsuspect : (s.lane (other l)).suspect = false) (hends : s.st.ends.s = none) (hcommit : s.st.commit = none) :
    ((actOnRc u l).lane l).clocks.src = .rc ∧ (actOnRc u l).st.ends.s = some (s.grid.tick + 2) ∧
    (actOnRc u l).st.ends.offAfter = some .clock := by
  have hgood : ((u.lane (other l)).role == .standby && !(u.lane (other l)).suspect) = true := by
    have hr : (u.lane (other l)).role = .standby := (congrArg Lane.role h.partner :).trans hpartner
    have hs : (u.lane (other l)).suspect = false := (congrArg Lane.suspect h.partner :).trans hsuspect
    rw [hr, hs]; rfl
  have hswitch := hookRcSwitch_netted u l false
  have hact : actOnRc u l = immediateEnds (hookRcSwitch u l false) .clock (some .clock) := by
    simp only [actOnRc, h.role.trans hrole, if_pos hgood]
  rw [hact]
  generalize hookRcSwitch u l false = w at hswitch
  have hwl : (w.lane l).role = .active := (hswitch.role l).trans (h.role.trans hrole)
  have hwo : (w.lane (other l)).role = .standby := (hswitch.role (other l)).trans ((congrArg Lane.role h.partner :).trans hpartner)
  have hwends : w.st.ends = s.st.ends := (congrArg Station.ends hswitch.st :).trans h.ends
  have hwcommit : w.st.commit = none := (congrArg Station.commit hswitch.st :).trans (h.commit.trans hcommit)
  have hboth : (w.standbyLane.isNone || w.activeLane.isNone) = false := by
    cases l
    · simp only [State.lane, other] at hwl hwo; simp [State.standbyLane, State.activeLane, hwl, hwo]
    · simp only [State.lane, other] at hwl hwo; simp [State.standbyLane, State.activeLane, hwl, hwo]
  have himm : immediateEnds w .clock (some .clock) = startEnds w .clock (some .clock) := by
    rw [immediateEnds, hwends, hends, hboth, hwcommit]; rfl
  rw [himm]
  refine ⟨?_, ?_, ?_⟩
  · have hsame : (w.lane l).clocks = (u.lane l).clocks := (congrArg Lane.clocks (hswitch.lane l) :)
    unfold startEnds; extract_lets sw x
    rw [raise_lane_clocks, setRise_lane, lane_updSt, hsame, h.clocks]
  · rw [startEnds_s, hswitch.grid, h.grid]; rfl
  · unfold startEnds; extract_lets sw x
    rw [raise_st_ends]
    exact (congrArg (fun t => t.ends.offAfter) (setRise_stationSame true x).st :)
end

/-! The rows -/

section
variable {s : State} {l : LaneId}

theorem not_parked {v : Lane} (h : v.monitored = true) : (v.phase == .parked) = false := by
  simp only [Lane.monitored, Bool.or_eq_true, beq_iff_eq] at h
  obtain h | h := h
  · rw [h]; rfl
  · rw [h]; rfl
theorem tcxoFailure_window (hmon : (s.lane l).monitored = true) (hgood : (s.lane l).clocks.tcxoGood = true) (n : Nat) :
    execTcxoFailure l (some n) s = .next
      (if !(s.lane l).clocks.rcQual then s
       else if tcxoPasses n then s.updLane l fun v => { v with clocks := { v.clocks with tcxoCount := n } }
       else if (s.lane l).clocks.rcBad then rcFails s l
       else tcxoFails s l) := by
  simp only [execTcxoFailure, not_parked hmon, hmon, hgood, Bool.not_true, Bool.or_self, Bool.false_eq_true, if_false]
theorem tcxoFailure_fails (hmon : (s.lane l).monitored = true) (hgood : (s.lane l).clocks.tcxoGood = true) {c : Option Nat}
    (hbad : c = none ∨ ∃ n, c = some n ∧ tcxoPasses n = false ∧ (s.lane l).clocks.rcQual = true ∧ (s.lane l).clocks.rcBad = false) :
    execTcxoFailure l c s = .next (tcxoFails s l) := by
  obtain rfl | ⟨n, rfl, hn, hqual, hrc⟩ := hbad
  · simp only [execTcxoFailure, not_parked hmon, hmon, hgood, Bool.not_true, Bool.or_self, Bool.false_eq_true, if_false]
  · rw [tcxoFailure_window hmon hgood, hqual, hn, hrc]; rfl

theorem tcxoFails_onRc (hsrc : (s.lane l).clocks.src = .rc) :
    tcxoFails s l = (abandonEntry s 1).updLane l fun v => { v with clocks := { v.clocks with tcxoGood := false } } := by
  simp only [tcxoFails, hsrc, BEq.rfl, if_true]
theorem tcxoFails_held (hsrc : (s.lane l).clocks.src ≠ .rc) (hqual : (s.lane l).clocks.rcQual = false) :
    tcxoFails s l = (abandonEntry s 1).updLane l fun v => { v with clocks := { v.clocks with tcxoGood := false, held := true } } := by
  simp only [tcxoFails, beq_eq_false_iff_ne.mpr hsrc, hqual, Bool.false_eq_true, if_false, updLane_updLane]
theorem tcxoFails_switches (hsrc : (s.lane l).clocks.src ≠ .rc) (hqual : (s.lane l).clocks.rcQual = true) :
    tcxoFails s l = actOnRc (clockFailEvent ((abandonEntry s 1).updLane l fun v =>
      { v with clocks := { v.clocks with tcxoGood := false, src := .rc } }) l 1) l := by
  simp only [tcxoFails, beq_eq_false_iff_ne.mpr hsrc, hqual, Bool.false_eq_true, if_false, if_true, updLane_updLane]

theorem rcFails_reports (s : State) (l : LaneId) : Reports (s.updLane l fun v =>
    { v with clocks := { v.clocks with rcQual := false, rcRestarting := true } }) (rcFails s l) := laneClockEvent_reports ..

section
variable (hmon : (s.lane l).monitored = true) (hrest : (s.lane l).clocks.rcRestarting = false)
include hmon hrest

theorem rcFault_passes {n : Nat} (hn : rcPasses n = true) (k : Option Nat) :
    execRcFault l n k s = .next (s.updLane l fun v => { v with clocks := { v.clocks with rcBad := false } }) := by
  simp [execRcFault, hmon, hrest, hn]
variable {n : Nat} (hn : rcPasses n = false)
include hn
theorem rcFault_alone : execRcFault l n none s = .next (s.updLane l fun v => { v with clocks := { v.clocks with rcBad := true } }) := by
  cases hgood : (s.lane l).clocks.tcxoGood
  · simp [execRcFault, hmon, hrest, hn, hgood]
  · simp [execRcFault, hmon, hrest, hn, hgood]
variable (hgood : (s.lane l).clocks.tcxoGood = true) (hpartner : (s.lane (other l)).monitored = true)
include hgood hpartner
theorem rcFault_restarts {k : Nat} (hk : rcPasses k = true) : execRcFault l n (some k) s =
    .next (rcFails (s.updLane l fun v => { v with clocks := { v.clocks with rcBad := true } }) l) := by
  simp [execRcFault, hmon, hrest, hn, hgood, hpartner, hk]
theorem rcFault_crystals {k : Nat} (hk : rcPasses k = false) (hother : (s.lane (other l)).clocks.tcxoGood = true) : execRcFault l n (some k) s =
    .next (bothLanes (fun s m => laneClockEvent (s.updLane m fun v => { v with clocks := { v.clocks with xtalSuspect := true } }) m 242 4)
      (s.updLane l fun v => { v with clocks := { v.clocks with rcBad := true } })) := by
  simp [execRcFault, hmon, hrest, hn, hgood, hpartner, hk, hother]
end

/-- Both crystals are suspect, and the lane whose window failed knows its RC bad. -/
theorem bothSuspect_reports (s : State) (l : LaneId) : Reports (bothLanes (fun s m => s.updLane m fun v =>
      { v with clocks := { v.clocks with xtalSuspect := true, rcBad := if m = l then true else v.clocks.rcBad } }) s)
    (bothLanes (fun s m => laneClockEvent (s.updLane m fun v => { v with clocks := { v.clocks with xtalSuspect := true } }) m 242 4)
      (s.updLane l fun v => { v with clocks := { v.clocks with rcBad := true } })) := by
  have h (u : State) (m : LaneId) : Reports (u.updLane m fun v => { v with clocks := { v.clocks with xtalSuspect := true } })
      (laneClockEvent (u.updLane m fun v => { v with clocks := { v.clocks with xtalSuspect := true } }) m 242 4) := laneClockEvent_reports ..
  have hb := ((h (s.updLane l fun v => { v with clocks := { v.clocks with rcBad := true } }) .a).updLane .b fun v =>
    { v with clocks := { v.clocks with xtalSuspect := true } }).trans (h _ .b)
  refine Eq.subst (motive := fun u => Reports u _) ?_ hb
  cases l <;> rfl

/-- The lane once its RC has passed a window of n counts of the TCXO. -/
def rcBack (n : Nat) (v : Lane) : Lane :=
  { v with clocks := { v.clocks with
            rcQual := true, rcRestarting := false, rcBad := false, tcxoCount := if v.clocks.tcxoGood then n else v.clocks.tcxoCount } }

section
variable {n : Nat} (hrest : (s.lane l).clocks.rcRestarting = true) (hn : (s.lane l).clocks.tcxoGood = false ∨ tcxoPasses n = true)
include hrest hn

theorem rcQualified_go : (!(s.lane l).clocks.rcRestarting || ((s.lane l).clocks.tcxoGood && !tcxoPasses n)) = false := by
  obtain h | h := hn
  · simp [hrest, h]
  · simp [hrest, h]

theorem rcQualified_unheld (hheld : (s.lane l).clocks.held = false) :
    execRcQualified l n s = .next (laneClockEvent (s.updLane l (rcBack n)) l 242 2) := by
  simp only [execRcQualified, rcQualified_go hrest hn, hheld, Bool.false_eq_true, if_false] <;> rfl

theorem rcQualified_held (hheld : (s.lane l).clocks.held = true) :
    execRcQualified l n s = .next (actOnRc (clockFailEvent ((laneClockEvent (s.updLane l (rcBack n)) l 242 2).updLane l fun v =>
      { v with clocks := { v.clocks with held := false, src := .rc } }) l 2) l) := by
  simp only [execRcQualified, rcQualified_go hrest hn, hheld, Bool.false_eq_true, if_false, if_true] <;> rfl
end

theorem tcxoReturn_back (hphase : (s.lane l).phase = .running) (hsrc : (s.lane l).clocks.src = .rc) (hbad : (s.lane l).clocks.tcxoGood = false) :
    execTcxoReturn l s = .next (laneClockEvent (tcxoTime (s.updLane l fun v =>
      { v with health := if v.health = .degraded ∨ v.cause = .clock then .good else v.health,
               clocks := { v.clocks with src := .tcxo, tcxoGood := true } }) l) l 242 3) := by
  simp [execTcxoReturn, hphase, hsrc, hbad, hookTcxoReturn]
end

/-- Settles O31: the failures through `tcxoFails` and the roles on the RC, the other rows one by one. -/
theorem clockRows : Obligations.ClockRows := by
  unfold Obligations.ClockRows
  intro s l
  dsimp only
  refine ⟨fun c hmon hgood hbad => ⟨fun hsrc hqual => ?held, fun hsrc hqual => ?switches, fun hsrc => ?onRc,
      fun hsrc hqual => ⟨fun hrole hhealth => ?solo, fun hrole => ?standby, fun hrole hpartner hsuspect hends hcommit => ?active⟩⟩,
    fun n hmon hgood hqual => ?unjudged, fun n hmon hgood hqual hn => ?counted, fun n hmon hgood hn hqual hrc => ?rcFault,
    fun hmon hrest => ⟨fun n k hn => ?rcPasses, fun n k hn hgood hpartner hk => ?rcRestarts,
      fun n k hn hgood hpartner hk hother => ?crystals, fun n hn => ?rcAlone⟩,
    fun n hrest hn => ⟨fun hheld => ?qualified, fun hheld => ?released⟩, fun n hno => ?notQualified, fun hheld => ?stops, fun hheld => ?stopsNot,
    fun hphase hsrc hbad => ?back, fun hno => ?backNot, fun hphase => ?mismatch, fun hphase => ?mismatchNot⟩
  case held => rw [exec_tcxoFailure, tcxoFailure_fails hmon hgood hbad, tcxoFails_held hsrc hqual]
  case switches => rw [exec_tcxoFailure, tcxoFailure_fails hmon hgood hbad, tcxoFails_switches hsrc hqual]
  case onRc => rw [exec_tcxoFailure, tcxoFailure_fails hmon hgood hbad, tcxoFails_onRc hsrc]
  case solo =>
    exact .mk (by rw [exec_tcxoFailure, tcxoFailure_fails hmon hgood hbad, tcxoFails_switches hsrc hqual])
      (actOnRc_solo (clockFail_onRc s l) hrole hhealth)
  case standby =>
    exact .mk (by rw [exec_tcxoFailure, tcxoFailure_fails hmon hgood hbad, tcxoFails_switches hsrc hqual])
      (actOnRc_standby (clockFail_onRc s l) hrole)
  case active =>
    exact .mk (by rw [exec_tcxoFailure, tcxoFailure_fails hmon hgood hbad, tcxoFails_switches hsrc hqual])
      (actOnRc_active (clockFail_onRc s l) hrole hpartner hsuspect hends hcommit)
  case unjudged => rw [exec_tcxoFailure, tcxoFailure_window hmon hgood, hqual]; rfl
  case counted => rw [exec_tcxoFailure, tcxoFailure_window hmon hgood, hqual, hn]; rfl
  case rcFault =>
    refine .mk (t := rcFails s l) ?_ (rcFails_reports s l)
    rw [exec_tcxoFailure, tcxoFailure_window hmon hgood, hqual, hn, hrc]; rfl
  case rcPasses => exact (exec_rcFault ..).trans (rcFault_passes hmon hrest hn k)
  case rcRestarts =>
    have h := rcFails_reports (s.updLane l fun v => { v with clocks := { v.clocks with rcBad := true } }) l
    rw [updLane_updLane] at h
    exact .mk ((exec_rcFault ..).trans (rcFault_restarts hmon hrest hn hgood hpartner hk)) h
  case crystals =>
    exact .mk ((exec_rcFault ..).trans (rcFault_crystals hmon hrest hn hgood hpartner hk hother)) (bothSuspect_reports s l)
  case rcAlone => exact (exec_rcFault ..).trans (rcFault_alone hmon hrest hn)
  case qualified =>
    exact .mk ((exec_rcQualified ..).trans (rcQualified_unheld hrest hn hheld)) (laneClockEvent_reports ..)
  case released => exact (exec_rcQualified ..).trans (rcQualified_held hrest hn hheld)
  case notQualified =>
    refine if_pos ?_
    obtain h | ⟨h, g⟩ := hno
    · simp [h]
    · simp [h, g]
  case stops =>
    refine .mk ((exec_rcQualTimeout l s).trans (congrArg Host.Outcome.next (if_pos hheld))) ?_
    obtain ⟨hphase, hrole, -⟩ := laneStops_lane (clockFailEvent s l 3) l .stopped
    exact ⟨hphase, hrole⟩
  case stopsNot => exact congrArg _ (if_neg (by rw [hheld]; nofun))
  case back => exact .mk ((exec_tcxoReturn l s).trans (tcxoReturn_back hphase hsrc hbad)) (laneClockEvent_reports ..)
  case backNot =>
    refine if_neg fun hall => ?_
    simp only [Bool.and_eq_true, Bool.not_eq_true', beq_iff_eq] at hall
    obtain ⟨⟨hsrc, hbad⟩, hphase⟩ := hall
    obtain h | h | h := hno
    · exact h hphase
    · exact h hsrc
    · rw [h] at hbad; nomatch hbad
  case mismatch =>
    exact .mk ((exec_lockstepMismatch l s).trans (congrArg Host.Outcome.next (if_pos (beq_iff_eq.mpr hphase)))) (laneStops_lane s l .stopped)
  case mismatchNot => exact congrArg _ (if_neg (by simpa using hphase))

end Sys2Proof.Machine
end

section
/-! Operating points, gating, power states and clock outputs (17 R438 to R455). -/

namespace Sys2Proof.Machine

theorem exec_voltageStepDone (l : LaneId) (s : State) : exec (.voltageStepDone l) s = execVoltageStepDone l s := rfl
theorem exec_gateBusyTimeout (l : LaneId) (b : GateBlock) (s : State) : exec (.gateBusyTimeout l b) s = execGateBusyTimeout l b s := rfl
theorem exec_powerDwellExpired (s : State) : exec .powerDwellExpired s = execPowerDwellExpired s := rfl
theorem exec_darkWake (w : WakeSource) (s : State) : exec (.darkWake w) s = .next (darkWake s w) := rfl
theorem exec_tickEdge (skew : Int) (s : State) : exec (.tickEdge skew) s = execTickEdge skew s := rfl

/-! A gate request whose access does not complete -/

/-- What is asked for once the request of `c` has been looked at: gone where a child is in use. -/
def stillAsked (gated : List GateBlock) (b : GateBlock) (asked : List GateBlock) (c : GateBlock) : List GateBlock :=
  if asked.contains c && (childrenOf c).any (fun d => !gated.contains d && !asked.contains d) && c != b then
    asked.filter fun x => x != c
  else asked

variable {s : State} {l : LaneId} {b : GateBlock}

theorem stillAsked_sub {gated asked : List GateBlock} {c x : GateBlock} (h : x ∈ stillAsked gated b asked c) : x ∈ asked := by
  unfold stillAsked at h; split at h
  · exact (List.mem_filter.mp h).1
  · exact h
theorem stillAsked_other {gated asked : List GateBlock} {c x : GateBlock} (hx : x ∈ asked) (hne : x ≠ c) : x ∈ stillAsked gated b asked c := by
  unfold stillAsked; split
  · exact List.mem_filter.mpr ⟨hx, bne_iff_ne.mpr hne⟩
  · exact hx
/-- A block whose child is neither gated nor asked for is no longer asked for. -/
theorem stillAsked_gone {gated asked : List GateBlock} {c : GateBlock} (hchild : b ∈ childrenOf c) (hself : c ≠ b)
    (hgated : b ∉ gated) (hasked : b ∉ asked) : c ∉ stillAsked gated b asked c := by
  unfold stillAsked; split
  case isTrue => simp
  case isFalse h =>
    intro hc
    refine h ?_
    simp only [Bool.and_eq_true, List.contains_iff_mem, List.any_eq_true, bne_iff_ne]
    exact ⟨⟨hc, b, hchild, by simp [hgated, hasked]⟩, hself⟩

/-- Lane `l` asks for the gating of these blocks. -/
def State.asks (s : State) (l : LaneId) (g : List GateBlock) : State := s.updLane l fun v => { v with opp := { v.opp with asked := g } }

/-- The request of `c` is refused where a child of it is in use. -/
def refuseOne (l : LaneId) (b : GateBlock) (s : State) (c : GateBlock) : State :=
  let v := (s.lane l).opp
  if v.asked.contains c && (childrenOf c).any (fun d => !v.gated.contains d && !v.asked.contains d) && c != b then
    laneClockEvent (s.updLane l fun v => { v with opp := { v.opp with asked := v.opp.asked.filter fun x => x != c } }) l 245 3
      [Config.payloadCode 2 (gateCode c)]
  else s
theorem refuseAbove_eq (s : State) (l : LaneId) (b : GateBlock) :
    refuseAbove s l b = [GateBlock.canBlock, .blockEngine, .laneRoot].foldl (refuseOne l b) s := rfl

theorem asks_same (s : State) (l : LaneId) : s.asks l (s.lane l).opp.asked = s := by
  cases l <;> rfl
theorem asks_asks (s : State) (l : LaneId) (g h : List GateBlock) : (s.asks l g).asks l h = s.asks l h := by
  cases l <;> rfl
theorem asks_opp (s : State) (l : LaneId) (g : List GateBlock) : ((s.asks l g).lane l).opp = { (s.lane l).opp with asked := g } := by
  cases l <;> rfl

theorem refuseOne_reports (s : State) (l : LaneId) (b c : GateBlock) :
    Reports (s.asks l (stillAsked (s.lane l).opp.gated b (s.lane l).opp.asked c)) (refuseOne l b s c) := by
  unfold refuseOne stillAsked; extract_lets v
  split
  · have h : s.asks l (v.asked.filter fun x => x != c) =
        s.updLane l fun v => { v with opp := { v.opp with asked := v.opp.asked.filter fun x => x != c } } := by cases l <;> rfl
    rw [h]; exact laneClockEvent_reports ..
  · rw [asks_same]; exact .refl s

theorem refuseAll_reports (cs : List GateBlock) (s : State) (l : LaneId) (b : GateBlock) :
    Reports (s.asks l (cs.foldl (stillAsked (s.lane l).opp.gated b) (s.lane l).opp.asked)) (cs.foldl (refuseOne l b) s) := by
  induction cs generalizing s with
  | nil => rw [List.foldl_nil, asks_same]; exact .refl s
  | cons c cs ih =>
    have h := refuseOne_reports s l b c
    have hopp : ((refuseOne l b s c).lane l).opp = { (s.lane l).opp with asked := stillAsked (s.lane l).opp.gated b (s.lane l).opp.asked c } :=
      (congrArg Lane.opp (h.lane l) :).trans (asks_opp ..)
    have hrest := ih (refuseOne l b s c)
    rw [hopp] at hrest
    refine Reports.trans ?_ hrest
    have hu := h.updLane l fun v => { v with opp := { v.opp with
      asked := cs.foldl (stillAsked (s.lane l).opp.gated b) (stillAsked (s.lane l).opp.gated b (s.lane l).opp.asked c) } }
    refine Eq.subst (motive := fun u => Reports u _) (asks_asks ..) hu

/-- What stays asked for when the access of `block` does not complete. -/
def stayAsked (v : OpPoint) (block : GateBlock) : List GateBlock :=
  [GateBlock.canBlock, .blockEngine, .laneRoot].foldl (stillAsked v.gated block) (v.asked.filter fun b => b != block)

theorem stayAsked_spec (v : OpPoint) (block : GateBlock) :
    block ∉ stayAsked v block ∧ (∀ b ∈ stayAsked v block, b ∈ v.asked) ∧
    (∀ b ∈ v.asked, b ≠ block → childrenOf b = [] → b ∈ stayAsked v block) ∧
    (∀ b, block ∈ childrenOf b → block ∉ v.gated → b ∉ stayAsked v block) := by
  have hsub (b : GateBlock) (h : b ∈ stayAsked v block) : b ∈ v.asked.filter fun b => b != block :=
    stillAsked_sub (stillAsked_sub (stillAsked_sub h))
  have hnot : block ∉ v.asked.filter fun b => b != block := by simp
  refine ⟨fun h => hnot (hsub _ h), fun b h => (List.mem_filter.mp (hsub b h)).1, fun b hb hne hleaf => ?_, fun b hchild hgated h => ?_⟩
  · refine stillAsked_other (stillAsked_other (stillAsked_other (List.mem_filter.mpr ⟨hb, bne_iff_ne.mpr hne⟩) ?_) ?_) ?_
    · rintro rfl; nomatch hleaf
    · rintro rfl; nomatch hleaf
    · rintro rfl; nomatch hleaf
  · have hself : b ≠ block := by rintro rfl; cases b <;> simp [childrenOf] at hchild
    cases b with
    | canBlock => exact stillAsked_gone hchild hself hgated hnot (stillAsked_sub (stillAsked_sub h))
    | blockEngine => exact stillAsked_gone hchild hself hgated (fun h => hnot (stillAsked_sub h)) (stillAsked_sub h)
    | laneRoot => exact stillAsked_gone hchild hself hgated (fun h => hnot (stillAsked_sub (stillAsked_sub h))) h
    | cachePart n => nomatch hchild
    | cf n => nomatch hchild
    | hostLink => nomatch hchild
    | processor => nomatch hchild
    | loopEngine => nomatch hchild
    | networkUnit => nomatch hchild

/-- The request of `block` has ended and is reported. -/
def gateTold (s : State) (l : LaneId) (block : GateBlock) : State :=
  laneClockEvent (s.updLane l fun v => { v with opp := { v.opp with asked := v.opp.asked.filter fun b => b != block } }) l 245 2
    [Config.payloadCode 2 (gateCode block)]
/-- The lane after that, before the entry to Occulting is judged. -/
def gateEnds (s : State) (l : LaneId) (block : GateBlock) : State := refuseAbove (gateTold s l block) l block

theorem gateTold_reports (s : State) (l : LaneId) (block : GateBlock) :
    Reports (s.asks l ((s.lane l).opp.asked.filter fun b => b != block)) (gateTold s l block) := by
  refine Eq.subst (motive := fun u => Reports u _) ?_ (laneClockEvent_reports _ l 245 2 [Config.payloadCode 2 (gateCode block)])
  cases l <;> rfl
theorem gateEnds_reports (s : State) (l : LaneId) (block : GateBlock) :
    Reports (s.asks l (stayAsked (s.lane l).opp block)) (gateEnds s l block) := by
  have h := gateTold_reports s l block
  have hopp : ((gateTold s l block).lane l).opp = _ := (congrArg Lane.opp (h.lane l) :).trans (asks_opp ..)
  have hrest := refuseAll_reports [GateBlock.canBlock, .blockEngine, .laneRoot] (gateTold s l block) l block
  rw [hopp] at hrest
  exact Reports.trans (Eq.subst (motive := fun u => Reports u _) (asks_asks ..) (h.updLane l _)) hrest
theorem parking_gateEnds (s : State) (l : LaneId) (block : GateBlock) : parking ((gateEnds s l block).lane l) = parking (s.lane l) := by
  have h := (gateEnds_reports s l block).lane l
  have hrole : ((gateEnds s l block).lane l).role = (s.lane l).role := (congrArg Lane.role h :).trans (by cases l <;> rfl)
  have hbeat : ((gateEnds s l block).lane l).beat = (s.lane l).beat := (congrArg Lane.beat h :).trans (by cases l <;> rfl)
  rw [parking, parking, hrole, hbeat]

theorem gateBusy_ends (hphase : (s.lane l).phase = .running) (hb : b ∈ (s.lane l).opp.asked) :
    execGateBusyTimeout l b s = .next (if parking (s.lane l) then busyEdge (gateEnds s l b) else gateEnds s l b) := by
  rw [← parking_gateEnds s l b]
  simp only [execGateBusyTimeout, hphase, bne_self_eq_false, List.contains_iff_mem.mpr hb, Bool.not_true, Bool.or_self, Bool.false_eq_true, if_false] <;> rfl

/-- The edges in a row at which an access has stood in the way of a gate request. -/
def busyCount (s : State) : Nat :=
  if s.st.power.busyTick = some s.grid.tick then s.st.power.busyEdges
  else if s.st.power.busyTick = some (s.grid.tick - 1) then s.st.power.busyEdges + 1 else 1

theorem busyEdge_other (h : s.st.power.entering ≠ some .occulting) : busyEdge s = s :=
  if_pos (bne_iff_ne.mpr h)
theorem busyEdge_counts (h : s.st.power.entering = some .occulting) (hn : busyCount s < 100) :
    busyEdge s = s.updSt fun t => { t with power := { t.power with busyTick := some s.grid.tick, busyEdges := busyCount s } } :=
  (if_neg (by rw [h]; decide)).trans (if_pos hn)
theorem busyEdge_givesUp (h : s.st.power.entering = some .occulting) (hn : 100 ≤ busyCount s) : Reports (s.updSt fun t =>
    { t with power := { t.power with entering := none, park := false, busyTick := none, busyEdges := 0 } }) (busyEdge s) := by
  have he : busyEdge s = abandonEntry s 2 := (if_neg (by rw [h]; decide)).trans (if_neg (Nat.not_lt.mpr hn))
  rw [he, abandonEntry, h, BEq.rfl, if_pos rfl]
  exact raise_reports ..

/-! The parts of a tick edge that go before the entry to Dark -/

/-- What an entry to Dark at the edge hangs on. -/
def Station.dusk (x : Station) : Option PowerState × Option WakeSource × StPhase × Option (List CfgRec) × Option Nat :=
  (x.power.entering, x.power.wake, x.phase, x.cfg, x.lock)
structure DuskSame (s t : State) : Prop where
  st : t.st.dusk = s.st.dusk
  session : ∀ p, (t.part p).session = (s.part p).session

theorem DuskSame.refl (s : State) : DuskSame s s := ⟨rfl, fun _ => rfl⟩
theorem DuskSame.trans {s t u : State} (h : DuskSame s t) (g : DuskSame t u) : DuskSame s u :=
  ⟨g.st.trans h.st, fun p => (g.session p).trans (h.session p)⟩
theorem StationSame.dusk {s t : State} (h : StationSame s t) : DuskSame s t :=
  ⟨by rw [h.st_eq]; rfl, fun p => (congrArg Partition.session (h.parts p) :)⟩
theorem raise_dusk (s : State) (e : Ev) : DuskSame s (raise s e) := (raise_reports s e).stationSame.dusk
theorem updLane_dusk (s : State) (l : LaneId) (f : Lane → Lane) : DuskSame s (s.updLane l f) := (updLane_stationSame s l f).dusk
theorem updSt_dusk (s : State) (f : Station → Station) (h : (f s.st).dusk = s.st.dusk := by rfl) : DuskSame s (s.updSt f) := ⟨h, fun _ => rfl⟩
theorem setGrid_dusk (s : State) (g : Grid) : DuskSame s { s with grid := g } := ⟨rfl, fun _ => rfl⟩
theorem foldl_dusk {α : Type} {f : State → α → State} (hf : ∀ s x, DuskSame s (f s x)) (xs : List α) (s : State) :
    DuskSame s (xs.foldl f s) := by
  induction xs generalizing s with
  | nil => exact .refl s
  | cons x xs ih => exact (hf s x).trans (ih _)
theorem bothLanes_dusk {f : State → LaneId → State} (h : ∀ s l, DuskSame s (f s l)) (s : State) : DuskSame s (bothLanes f s) :=
  (h s .a).trans (h _ .b)
theorem answer_dusk (s : State) (p : Nat) (u : Bool) (st d0 d1 : Nat) (d : List Nat) : DuskSame s (answer s p u st d0 d1 d) := by
  unfold answer
  refine ⟨?_, fun r => respond_part_session ..⟩
  simp only [Station.dusk, respond_st_power, respond_st_phase, respond_st_cfg, respond_st_lock]

theorem takeStep_dusk (s : State) (l : LaneId) : DuskSame s (takeStep s l).2 := by
  unfold takeStep; split
  · exact .refl s
  · split
    · exact .refl s
    · extract_lets u
      have hu : DuskSame s u := updLane_dusk ..
      split
      · exact hu
      · refine hu.trans ?_
        dsimp only
        exact raise_dusk u _
theorem lanesDiffer_dusk (s : State) (skew : Int) : DuskSame s (lanesDiffer s skew) := by
  unfold lanesDiffer; split
  · exact .refl s
  · split
    · exact raise_dusk ..
    · exact .refl s
theorem partsEdge_dusk (s : State) : DuskSame s (partsEdge s) := by
  refine ⟨rfl, fun p => ?_⟩
  unfold partsEdge State.part
  induction s.parts with
  | nil => rfl
  | cons e es ih =>
    by_cases h : e.1 = p
    · simp [Tab.get, h]
    · simpa [Tab.get, h] using ih
theorem decideRoleAsks_dusk (h : s.st.phase ≠ .running) : DuskSame s (decideRoleAsks s) := by
  have hu : DuskSame s (s.updSt fun t => { t with roleAsks := [] }) := updSt_dusk ..
  have he : decideRoleAsks s = s.updSt fun t => { t with roleAsks := [] } := by
    unfold decideRoleAsks; extract_lets ns u
    split
    · rfl
    · exact if_pos (bne_iff_ne.mpr h)
  rw [he]; exact hu
theorem loopReport_dusk (s : State) (l : LaneId) (n : Nat) (e : LoopEv) : DuskSame s (loopReport s l n e) := by
  unfold loopReport; extract_lets d
  split
  · exact raise_dusk ..
  · exact raise_dusk ..
  · exact raise_dusk ..
  · split
    · exact .refl s
    · exact (updSt_dusk s _).trans (raise_dusk ..)
theorem stopLoop_dusk (s : State) (l : LaneId) (r : CfgRec) : DuskSame s (stopLoop s l r) := by
  unfold stopLoop; extract_lets c u
  split
  · exact (updLane_dusk s l _).trans (loopReport_dusk ..)
  · exact updLane_dusk s l _
theorem dropBatches_dusk (s : State) (cause : Nat) : DuskSame s (dropBatches s cause) :=
  (updSt_dusk s _).trans (foldl_dusk (fun s _ => raise_dusk s _) _ _)
theorem discardLoopStage_dusk (s : State) : DuskSame s (discardLoopStage s) :=
  (updSt_dusk s _).trans (foldl_dusk (fun s _ => raise_dusk s _) _ _)
theorem answerStops_dusk (s : State) : DuskSame s (answerStops s) := by
  refine foldl_dusk (fun s p => ?_) _ s
  extract_lets m
  split
  · exact answer_dusk ..
  · exact .refl s
theorem stationEdge_dusk (h : s.st.phase ≠ .running) : DuskSame s (stationEdge s) := by
  unfold stationEdge; extract_lets t u d v w
  have htasks (s : State) (l : LaneId) : DuskSame s (stopTasks s l) := by
    unfold stopTasks updBe; exact updLane_dusk ..
  have hu : DuskSame s u := by
    simp only [u]; split
    · exact bothLanes_dusk htasks s
    · exact .refl s
  have hstop (s : State) (l : LaneId) : DuskSame s (stopLoops (stopTasks s l) l) :=
    (htasks s l).trans (foldl_dusk (fun s r => stopLoop_dusk s l r) _ (stopTasks s l))
  have hd : DuskSame u d := (bothLanes_dusk hstop u).trans (dropBatches_dusk _ 1)
  have hv : DuskSame u v := by
    simp only [v]; split
    · exact hd.trans (((discardLoopStage_dusk d).trans (updSt_dusk _ _)).trans (answerStops_dusk _))
    · exact .refl u
  have hw : w = v := by
    refine if_neg fun hc => ?_
    simp only [Bool.and_eq_true, beq_iff_eq] at hc
    have hp : v.st.phase = s.st.phase := (congrArg (fun d => d.2.2.1) (hu.trans hv).st :)
    exact h (hp.symm.trans hc.2)
  rw [hw]
  exact (hu.trans hv).trans (updSt_dusk v _)
theorem startEnds_dusk (s : State) (c : EndsCause) (off : Option OffCause) : DuskSame s (startEnds s c off) := by
  unfold startEnds; extract_lets sw u
  exact ((updSt_dusk s _).trans (setRise_stationSame true u).dusk).trans (raise_dusk ..)
theorem immediateEnds_dusk (s : State) (c : EndsCause) (off : Option OffCause) : DuskSame s (immediateEnds s c off) := by
  unfold immediateEnds
  split
  · exact updSt_dusk ..
  · split
    · exact .refl s
    · split
      · exact updSt_dusk ..
      · exact startEnds_dusk ..
theorem retryEnds_dusk (s : State) : DuskSame s (retryEnds s) := by
  unfold retryEnds; split
  · exact .refl s
  · split
    · exact .refl s
    · exact (updSt_dusk s _).trans (immediateEnds_dusk ..)
theorem dropEnds_dusk (s : State) : DuskSame s (dropEnds s) := by
  unfold dropEnds; extract_lets asked u
  refine (updSt_dusk s _).trans (foldl_dusk (fun s p => ?_) _ _)
  split
  · exact answer_dusk ..
  · exact .refl s
theorem endsEdge_dusk (s : State) : DuskSame s (endsEdge s) := by
  unfold endsEdge; extract_lets u v
  have hv : DuskSame s v := ((bothLanes_dusk (fun s l => updLane_dusk s l _) s).trans (updSt_dusk _ _)).trans (retryEnds_dusk _)
  split
  · exact hv
  · split
    · exact hv.trans (dropEnds_dusk v)
    · split
      · exact hv.trans (updSt_dusk v _)
      · split
        · exact hv.trans (updSt_dusk v _)
        · exact hv
theorem updCan_dusk (s : State) (l : LaneId) (p : Nat) (f : CanPort → CanPort) : DuskSame s (updCan s l p f) := by
  unfold updCan; split
  · exact (updIsl_stationSame ..).dusk
  · exact updLane_dusk ..
theorem canEvent_dusk (s : State) (l : LaneId) (p src code : Nat) (low : Option Nat) (pay : List Byte) :
    DuskSame s (canEvent s l p src code low pay) := by
  unfold canEvent; extract_lets who
  split
  · exact .refl s
  · exact raise_dusk ..
theorem canRequest_dusk (s : State) (l : LaneId) (p req : Nat) : DuskSame s (canRequest s l p req) := by
  unfold canRequest; extract_lets c ok
  split
  · split
    · exact (updCan_dusk ..).trans (canEvent_dusk ..)
    · exact canEvent_dusk ..
  · split
    · exact (updCan_dusk ..).trans (canEvent_dusk ..)
    · exact canEvent_dusk ..
  · split
    · exact updCan_dusk ..
    · exact canEvent_dusk ..
  · exact .refl s
theorem canControl_dusk (s : State) (l : LaneId) (p : Nat) (m : Mem) (only : Option Nat) : DuskSame s (canControl s l p m only) := by
  unfold canControl; split
  · exact .refl s
  · extract_lets seq req
    split
    · exact .refl s
    · exact (updCan_dusk ..).trans (canRequest_dusk ..)
theorem canEnqueue_dusk (s : State) (l : LaneId) (p : Nat) (m : Mem) : DuskSame s (canEnqueue s l p m) := by
  unfold canEnqueue; extract_lets c
  split
  · exact foldl_dusk (fun s r => updCan_dusk s l p _) _ s
  · refine foldl_dusk (fun s r => ?_) _ s
    generalize enqueueObj s p m r (canPort s l p) = x
    obtain ⟨c, ev⟩ := x
    cases ev with
    | none => exact updCan_dusk s l p _
    | some k => exact (updCan_dusk s l p _).trans (canEvent_dusk ..)
theorem canEdge_dusk (s : State) (l : LaneId) : DuskSame s (canEdge s l) := by
  unfold canEdge; split
  · exact .refl s
  · exact foldl_dusk (fun s p => (canControl_dusk ..).trans (canEnqueue_dusk ..)) _ s
theorem batchEdge_dusk (was : Nat) (s : State) : DuskSame s (batchEdge was s) := by
  unfold batchEdge; extract_lets u gone w keep
  have hu : DuskSame s u := updSt_dusk s _
  split
  · exact hu
  · exact hu.trans (((updSt_dusk u _).trans (dropBatches_dusk _ 2)).trans (updSt_dusk _ _))
theorem setTarget_dusk (s : State) (l : LaneId) (p : Nat) : DuskSame s (setTarget s l p) := by
  unfold setTarget; exact updLane_dusk ..
theorem raisePoints_dusk (hold4 : Bool) (s : State) : DuskSame s (raisePoints hold4 s) := by
  unfold raisePoints; extract_lets u
  have hu : DuskSame s u := (setRise_stationSame _ s).dusk
  split
  · refine hu.trans (bothLanes_dusk (fun s l => ?_) u)
    split
    · exact setTarget_dusk ..
    · exact .refl s
  · exact hu
/-- An edge leaves an entry to Dark that it finds. -/
theorem powerEdge_dusk (hold4 : Bool) (h : s.st.power.entering = some .dark) : DuskSame s (powerEdge hold4 s) := by
  unfold powerEdge; extract_lets u tmin c w pw sh r
  have hu : DuskSame s u := raisePoints_dusk hold4 s
  have hent : u.st.power.entering = some .dark := (congrArg Prod.fst hu.st :).trans h
  split
  · exact hu
  · split
    · exact hu
    · have hw : DuskSame u w := updSt_dusk u _
      have hpw : pw.entering = some .dark := hent
      simp only [hpw, BEq.rfl, if_true]
      exact hu.trans hw
theorem freqEdge_dusk (s : State) (l : LaneId) : DuskSame s (freqEdge s l) := by
  unfold freqEdge; extract_lets v op u
  split
  · exact .refl s
  · exact (updLane_dusk s l _).trans (raise_dusk ..)
theorem requestGate_dusk (s : State) (l : LaneId) (b : GateBlock) : DuskSame s (requestGate s l b) := by
  unfold requestGate; extract_lets v
  split
  · exact .refl s
  · split
    · exact updLane_dusk s l _
    · exact raise_dusk ..
theorem gateEdge_dusk (s : State) (l : LaneId) : DuskSame s (gateEdge s l) := by
  unfold gateEdge; split
  · exact .refl s
  · exact (updLane_dusk s l _).trans (foldl_dusk (fun s b => requestGate_dusk s l b) _ _)
theorem litEdge_dusk (h : s.st.power.entering = some .dark) : DuskSame s (litEdge s) := by
  have he : litEdge s = s := if_neg (by simp [h])
  rw [he]; exact .refl s

theorem DuskSame.entering {s t : State} (h : DuskSame s t) : t.st.power.entering = s.st.power.entering := (congrArg Prod.fst h.st :)
theorem DuskSame.wake {s t : State} (h : DuskSame s t) : t.st.power.wake = s.st.power.wake := (congrArg (fun d => d.2.1) h.st :)
theorem DuskSame.phase {s t : State} (h : DuskSame s t) : t.st.phase = s.st.phase := (congrArg (fun d => d.2.2.1) h.st :)
theorem DuskSame.cfg {s t : State} (h : DuskSame s t) : t.st.cfg = s.st.cfg := (congrArg (fun d => d.2.2.2.1) h.st :)
theorem DuskSame.lock {s t : State} (h : DuskSame s t) : t.st.lock = s.st.lock := (congrArg (fun d => d.2.2.2.2) h.st :)
theorem DuskSame.allowed {s t : State} (h : DuskSame s t) : powerAllowed t .dark = powerAllowed s .dark := by
  simp only [powerAllowed, State.cfgRec, State.cfgRecs, h.phase, h.cfg, h.lock, h.session]

theorem DuskSame.thenLit {s t : State} (h : DuskSame s t) (hent : s.st.power.entering = some .dark) : DuskSame s (litEdge t) :=
  h.trans (litEdge_dusk (h.entering.trans hent))
theorem DuskSame.thenPower {s t : State} {hold4 : Bool} (h : DuskSame s t) (hent : s.st.power.entering = some .dark) :
    DuskSame s (powerEdge hold4 t) := h.trans (powerEdge_dusk hold4 (h.entering.trans hent))
theorem DuskSame.thenRoles {s t : State} (h : DuskSame s t) (hphase : s.st.phase ≠ .running) : DuskSame s (decideRoleAsks t) :=
  h.trans (decideRoleAsks_dusk (by rwa [h.phase]))
theorem DuskSame.thenStation {s t : State} (h : DuskSame s t) (hphase : s.st.phase ≠ .running) : DuskSame s (stationEdge t) :=
  h.trans (stationEdge_dusk (by rwa [h.phase]))
theorem bothLanes_dusk_after {s t : State} {f : State → LaneId → State} (hf : ∀ s l, DuskSame s (f s l)) (h : DuskSame s t) :
    DuskSame s (bothLanes f t) := h.trans (bothLanes_dusk hf t)

/-- A tick edge ends with the entry to Dark, on a state with everything that it hangs on untouched. -/
theorem tickEdge_dark (skew : Int) (htick : ticking s = true) (hent : s.st.power.entering = some .dark) (hphase : s.st.phase ≠ .running) :
    ∃ u, execTickEdge skew s = .next (darkEdge u) ∧ DuskSame s u := by
  unfold execTickEdge
  simp only [htick, Bool.not_true, Bool.false_eq_true, if_false]
  refine ⟨_, rfl, ?_⟩
  refine DuskSame.thenLit (bothLanes_dusk_after (fun s l => ?gates) (DuskSame.thenPower ((DuskSame.trans (bothLanes_dusk_after (fun s l => ?cans)
    ((DuskSame.thenStation (DuskSame.thenRoles (bothLanes_dusk_after (fun s l => ?levels) (bothLanes_dusk_after (fun s l => updLane_dusk s l _)
      (DuskSame.trans (DuskSame.trans ?grid (lanesDiffer_dusk _ skew)) (partsEdge_dusk _)))) hphase) hphase).trans (endsEdge_dusk _)))) (batchEdge_dusk _ _)) hent)) hent
  case gates =>
    split
    · exact (freqEdge_dusk s l).trans (gateEdge_dusk _ l)
    · exact .refl s
  case cans =>
    split
    · exact .refl s
    · exact canEdge_dusk s l
  case levels => unfold keepLevels updBe; exact updLane_dusk ..
  case grid =>
    have hdrop : DuskSame s (dropStep s (other s.timeLane)) := by unfold dropStep State.updNet; exact updLane_dusk ..
    have hstep := hdrop.trans (takeStep_dusk (dropStep s (other s.timeLane)) s.timeLane)
    split
    · exact hstep.trans (setGrid_dusk _ _)
    · exact hstep.trans ((setGrid_dusk _ _).trans (by unfold raiseUnnamed; exact raise_dusk ..))

/-! The entry to Dark and the way out of it -/

theorem darkEdge_rests (h : s.st.power.entering ≠ some .dark) : darkEdge s = s := if_pos (bne_iff_ne.mpr h)
theorem darkEdge_givesUp (h : s.st.power.entering = some .dark) (hno : powerAllowed s .dark = false) :
    darkEdge s = s.updSt fun t => { t with power := { t.power with entering := none } } :=
  (if_neg (by rw [h]; decide)).trans (if_pos (by rw [hno]; rfl))
theorem darkEdge_enters (h : s.st.power.entering = some .dark) (hgo : powerAllowed s .dark = true) :
    darkEdge s = s.st.power.wake.elim (darkEntry s skDormant) fun w => darkWake (darkEntry s skDormant) w :=
  (if_neg (by rw [h]; decide)).trans (if_neg (by rw [hgo]; nofun))

/-- A station that has entered Dark. -/
structure InDark (t : State) : Prop where
  ps : t.st.power.ps = .dark
  entering : t.st.power.entering = none
  phase : t.st.phase = .starting
  ready : t.st.ready = false
  lock : t.st.lock = none
  lanes : ∀ m, (t.lane m).role = .offline ∧ (t.lane m).winUp = false

theorem darkEntry_dark (s : State) (dormant : State → State) : InDark (darkEntry s dormant) := by
  unfold darkEntry
  refine ⟨rfl, rfl, rfl, rfl, rfl, fun m => ?_⟩
  cases m
  · exact ⟨rfl, rfl⟩
  · exact ⟨rfl, rfl⟩

/-- The wake that the station's configuration enables. -/
def wakes (s : State) (w : WakeSource) : Prop := wakeEnabled s w = true ∧ ∀ p, w = .pair p → (pairRec s p.val).isSome = true

/-- The islands and the lanes of a station that leaves Dark have their supplies again. -/
def wakePowers (s : State) (w : WakeSource) : State :=
  let s := match w with
    | .pair _ => s
    | _ => (s.emit (.wake .a)).emit (.wake .b)
  bothLanes (fun s l => s.updLane l fun v => if v.phase == .dark then { v with phase := .starting } else v) (powerIslands s)

theorem darkWake_not {w : WakeSource} (h : ¬ wakes s w) : darkWake s w = s := by
  have hno (ok : Bool) (hok : ok = true → ∀ p, w = .pair p → (pairRec s p.val).isSome = true) : (!(wakeEnabled s w && ok)) = true := by
    rw [Bool.not_eq_true', Bool.and_eq_false_iff]
    by_cases he : wakeEnabled s w = true
    · exact .inr (Bool.eq_false_iff.mpr fun hx => h ⟨he, hok hx⟩)
    · exact .inl (Bool.eq_false_iff.mpr he)
  cases w with
  | pair p => exact if_pos (hno _ fun hx q hq => by cases hq; exact hx)
  | alarm1 => exact if_pos (hno _ fun _ q hq => nomatch hq)
  | alarm2 => exact if_pos (hno _ fun _ q hq => nomatch hq)
  | key => exact if_pos (hno _ fun _ q hq => nomatch hq)

theorem darkWake_wakes {w : WakeSource} (h : wakes s w) : darkWake s w =
    if s.st.power.entering == some .dark then s.updSt fun t => { t with power := { t.power with wake := some w } }
    else if s.st.power.ps == .dark then (wakePowers s w).updSt fun t =>
      { keptImages t with phase := .starting, ready := false, power := { t.power with ps := .lit, entering := some .lit } }
    else s := by
  obtain ⟨he, hp⟩ := h
  have hgo (ok : Bool) (hok : ok = true) : ¬ (!(wakeEnabled s w && ok)) = true := by simp [he, hok]
  cases w with
  | pair p => exact if_neg (hgo _ (hp p rfl))
  | alarm1 => exact if_neg (hgo _ rfl)
  | alarm2 => exact if_neg (hgo _ rfl)
  | key => exact if_neg (hgo _ rfl)

theorem enterSk_reports (s : State) (ph : SkPhase) (pay : List Byte) : ∃ k, Reports { s with sk := k } (enterSk s ph pay) := by
  unfold enterSk; extract_lets u v
  have hv : ∃ k, v = { s with sk := k } := by
    simp only [v]; split
    · exact ⟨_, rfl⟩
    · exact ⟨_, rfl⟩
  obtain ⟨k, hk⟩ := hv
  refine ⟨k, ?_⟩
  rw [← hk]; unfold skEvent; exact raise_reports ..
/-- A state that keeps the station, the partitions and the lanes' phases. -/
structure StandSame (s t : State) : Prop extends StationSame s t where
  phases : ∀ l, (t.lane l).phase = (s.lane l).phase
theorem StandSame.trans {s t u : State} (h : StandSame s t) (g : StandSame t u) : StandSame s u :=
  ⟨h.toStationSame.trans g.toStationSame, fun l => (g.phases l).trans (h.phases l)⟩
theorem Reports.stand {s t : State} (h : Reports s t) : StandSame s t := ⟨h.stationSame, fun l => (congrArg Lane.phase (h.lane l) :)⟩
theorem setSk_stand (s : State) (k : Sk) : StandSame s { s with sk := k } := ⟨⟨rfl, fun _ => rfl, rfl⟩, fun l => by cases l <;> rfl⟩
theorem enterSk_stand (s : State) (ph : SkPhase) (pay : List Byte) : StandSame s (enterSk s ph pay) := by
  obtain ⟨k, hk⟩ := enterSk_reports s ph pay
  exact (setSk_stand s k).trans hk.stand
theorem powerIslands_stand (s : State) : StandSame s (powerIslands s) := by
  have hfold (xs : List Nat) (s : State) : StandSame s (xs.foldl (fun s i => s.updIsl i fun x => { x with powered := true }) s) := by
    induction xs generalizing s with
    | nil => exact (Reports.refl s).stand
    | cons x xs ih => exact StandSame.trans ⟨updIsl_stationSame .., fun l => by cases l <;> rfl⟩ (ih _)
  unfold powerIslands; extract_lets u
  have hu : StandSame s u := hfold _ s
  split
  · unfold skWake; split
    · exact hu.trans (enterSk_stand ..)
    · exact hu
  · exact hu.trans ((setSk_stand u _).trans (enterSk_stand ..))

theorem wakePowers_stationSame (s : State) (w : WakeSource) : StationSame s (wakePowers s w) ∧
    ∀ l, (s.lane l).phase = .dark → ((wakePowers s w).lane l).phase = .starting := by
  have hboth (u : State) (hu : StandSame s u) :
      StationSame s (bothLanes (fun s l => s.updLane l fun v => if v.phase == .dark then { v with phase := .starting } else v) u) ∧
      ∀ l, (s.lane l).phase = .dark →
        ((bothLanes (fun s l => s.updLane l fun v => if v.phase == .dark then { v with phase := .starting } else v) u).lane l).phase = .starting := by
    refine ⟨hu.toStationSame.trans (bothLanes_stationSame (fun s l => updLane_stationSame s l _) u), fun l hl => ?_⟩
    have h := (hu.phases l).trans hl
    cases l
    · simp [bothLanes, State.lane, State.updLane, State.setLane] at h ⊢; simp [h]
    · simp [bothLanes, State.lane, State.updLane, State.setLane] at h ⊢; simp [h]
  have hemit : StandSame s ((s.emit (.wake .a)).emit (.wake .b)) := ⟨⟨rfl, fun _ => rfl, rfl⟩, fun l => by cases l <;> rfl⟩
  cases w with
  | pair p => exact hboth _ (powerIslands_stand s)
  | alarm1 => exact hboth _ (hemit.trans (powerIslands_stand _))
  | alarm2 => exact hboth _ (hemit.trans (powerIslands_stand _))
  | key => exact hboth _ (hemit.trans (powerIslands_stand _))

/-- The station that a wake has brought out of Dark. -/
def litAgain (s : State) (w : WakeSource) : State := (wakePowers s w).updSt fun t =>
  { keptImages t with phase := .starting, ready := false, power := { t.power with ps := .lit, entering := some .lit } }

theorem darkWake_lit {w : WakeSource} (hw : wakes s w) (hent : s.st.power.entering ≠ some .dark) (hps : s.st.power.ps = .dark) :
    darkWake s w = litAgain s w := by
  rw [darkWake_wakes hw, beq_eq_false_iff_ne.mpr hent, hps]; rfl
theorem kept_if {α : Type} (x : Option α) (c : Bool) : (if x.isSome && c then x else none) = if c then x else none := by
  cases x <;> cases c <;> rfl
theorem keptImages_st {s t : State} (h : StationSame s t) : (keptImages t.st).prog = s.st.prog.filter trailerOk ∧
    (keptImages t.st).cfg = (if trailerOk s.st.cfgImage then s.st.cfg else none) ∧
    (keptImages t.st).access = (if trailerOk s.st.accessImage then s.st.access else none) ∧
    (keptImages t.st).safety = s.st.safety.filter trailerOk := by
  rw [h.st_eq]
  exact ⟨rfl, kept_if .., kept_if .., rfl⟩

/-- After an entry to Dark a wake leaves no entry to Dark. -/
theorem darkWake_dark (s : State) (h : InDark s) (w : WakeSource) :
    (darkWake s w).st.power.entering ≠ some .dark ∧ (darkWake s w).st.phase = .starting := by
  by_cases hw : wakes s w
  · simp only [darkWake_wakes hw, h.entering, h.ps]
    exact ⟨nofun, rfl⟩
  · rw [darkWake_not hw, h.entering]
    exact ⟨nofun, h.phase⟩

/-! The dwell time -/

/-- The state that has been chosen for DWELL_S and still is. -/
def dwellEnters (s : State) (c : PowerState) : Prop :=
  s.st.power.dwell = some c ∧ s.activeLane ≠ none ∧ s.st.power.entering = none ∧ chosenState s (computeTmin s) = c ∧
    s.st.power.dwellFrom + ((s.cfgRec 0x0201 0).elim 0 fun r => r.u 0x10 2) * 1000000000 ≤ s.grid.mono

theorem dwell_enters {c : PowerState} (h : dwellEnters s c) : execPowerDwellExpired s = .next (match c with
    | .occulting => s.updSt fun t =>
        { t with power := { t.power with entering := some .occulting, park := true, dwell := none, busyTick := none, busyEdges := 0 } }
    | .dark => s.updSt fun t => { t with power := { t.power with entering := some .dark, dwell := none, wake := none } }
    | _ => s) := by
  obtain ⟨hdwell, hactive, hent, hchosen, htime⟩ := h
  have hsome : s.activeLane.isNone = false := by cases hx : s.activeLane <;> simp_all
  simp only [execPowerDwellExpired, hdwell, hsome, hent, hchosen, Option.isSome_none, bne_self_eq_false, Bool.or_self, Bool.false_or,
    decide_eq_true_eq, Nat.not_lt.mpr htime, if_false] <;> (cases c <;> rfl)
theorem dwell_rests (h : ∀ c, ¬ dwellEnters s c) : execPowerDwellExpired s = .next s := by
  cases hd : s.st.power.dwell with
  | none => simp only [execPowerDwellExpired, hd]
  | some c =>
    refine congrArg Host.Outcome.next ?_
    simp only [hd]
    refine if_pos ?_
    by_contra hno
    refine h c ?_
    simpa [dwellEnters, hd, and_assoc] using hno

/-! The clock outputs -/

section
variable {p : Part} {d : Word}
theorem clkout_down (hup : s.svc.up = false) (outB : Bool) :
    exec (.clkoutSelWrite p outB d) s = .next s ∧ exec (.clkoutStatusClear p d) s = .next s :=
  ⟨congrArg Host.Outcome.next (if_neg (by rw [hup]; nofun)), congrArg Host.Outcome.next (if_neg (by rw [hup]; nofun))⟩
theorem clkoutSel_up (hup : s.svc.up = true) (outB : Bool) : exec (.clkoutSelWrite p outB d) s = .next (clkSelect s outB d.toNat) :=
  congrArg Host.Outcome.next (if_pos hup)
theorem clkoutClear_up (hup : s.svc.up = true) : exec (.clkoutStatusClear p d) s = .next (clkClear s d.toNat) :=
  congrArg Host.Outcome.next (if_pos hup)
end

/-- Settles O32: a tick edge keeps everything that an entry to Dark hangs on until it makes the entry. -/
theorem powerRows : Obligations.PowerRows := by
  unfold Obligations.PowerRows
  intro s l
  dsimp only
  refine ⟨fun n hstep => ?step, fun hstep => ?noStep, fun block hphase hasked => ?busy, fun block hno => ?notAsked,
    ⟨fun h => ?occulting, fun h => ?dark, fun h => ?dwellRests⟩, fun skew htick hent hgo => ?tick, fun hent hno => darkEdge_givesUp hent hno,
    fun hent hgo => ⟨fun hwake => ?enters, fun w hwake => ?entersAwake⟩, fun hent => darkEdge_rests hent,
    fun w => ⟨fun hw hent => ?keepsWake, fun hw hent hps => ?wakesUp, fun hno => ?noWake⟩,
    fun p outB d => ⟨fun hup => clkout_down hup outB, fun hup => ⟨fun hok => ?select, fun hok => ?reject, ?clear⟩⟩⟩
  case step => rw [exec_voltageStepDone, execVoltageStepDone, hstep]
  case noStep => rw [exec_voltageStepDone, execVoltageStepDone, hstep]
  case busy =>
    have hg := gateEnds_reports s l block
    have hends := (exec_gateBusyTimeout l block s).trans (gateBusy_ends hphase hasked)
    obtain ⟨hst, hgrid⟩ : (gateEnds s l block).st.power = s.st.power ∧ (gateEnds s l block).grid = s.grid :=
      ⟨(congrArg Station.power hg.st :).trans (by unfold State.asks; rw [updLane_st]), hg.grid.trans (by unfold State.asks; rw [updLane_grid_eq])⟩
    have hn : busyCount (gateEnds s l block) = busyCount s := by rw [busyCount, busyCount, hst, hgrid]
    obtain ⟨hself, hsub, hleaf, hparent⟩ := stayAsked_spec (s.lane l).opp block
    refine ⟨_, hself, hsub, hleaf, hparent, fun hor => ?_, fun hpark hent hlt => ?_, fun hpark hent hge => ?_⟩
    · refine .mk (t := gateEnds s l block) (hends.trans (congrArg Host.Outcome.next ?_)) hg
      split
      case isTrue hpark => exact busyEdge_other (hst ▸ hor.resolve_left (by rw [hpark]; nofun))
      case isFalse => rfl
    · have hb := busyEdge_counts (s := gateEnds s l block) (hst ▸ hent) (hn ▸ hlt)
      rw [hgrid, hn] at hb
      exact .mk (hends.trans (congrArg Host.Outcome.next ((if_pos hpark).trans hb))) (hg.updSt _)
    · exact .mk (hends.trans (congrArg Host.Outcome.next (if_pos hpark)))
        ((hg.updSt _).trans (busyEdge_givesUp (s := gateEnds s l block) (hst ▸ hent) (hn ▸ hge)))
  case notAsked =>
    refine if_pos ?_
    obtain h | h := hno
    · simp [h]
    · simp [h]
  case occulting => exact (exec_powerDwellExpired s).trans (dwell_enters (c := .occulting) h)
  case dark => exact (exec_powerDwellExpired s).trans (dwell_enters (c := .dark) h)
  case dwellRests => exact (exec_powerDwellExpired s).trans (dwell_rests h)
  case tick =>
    have hphase : s.st.phase ≠ .running := by
      intro h; simp [powerAllowed, h] at hgo
    obtain ⟨u, hu, hd⟩ := tickEdge_dark skew htick hent hphase
    have he := darkEdge_enters (hd.entering.trans hent) (hd.allowed.trans hgo)
    have hin := darkEntry_dark u skDormant
    refine ⟨fun hwake => .mk hu ?_, fun w hwake => .mk hu ?_⟩
    · rw [he, hd.wake, hwake, Option.elim_none]
      exact ⟨hin.ps, hin.entering, hin.phase, fun m => (hin.lanes m).2⟩
    · rw [he, hd.wake, hwake, Option.elim_some]
      exact darkWake_dark _ hin w
  case enters =>
    have hin := darkEntry_dark s skDormant
    rw [darkEdge_enters hent hgo, hwake, Option.elim_none]
    exact ⟨hin.ps, hin.phase, hin.ready, hin.lock, hin.lanes⟩
  case entersAwake => rw [darkEdge_enters hent hgo, hwake, Option.elim_some]
  case keepsWake => rw [exec_darkWake, darkWake_wakes hw, hent]; rfl
  case wakesUp =>
    obtain ⟨hst, hlanes⟩ := wakePowers_stationSame s w
    obtain ⟨hprog, hcfg, haccess, hsafety⟩ := keptImages_st hst
    refine .mk ((exec_darkWake w s).trans (congrArg Host.Outcome.next (darkWake_lit hw hent hps))) ?_
    exact ⟨rfl, rfl, rfl, rfl, hprog, hcfg, haccess, hsafety, fun hl => (hlanes l hl :)⟩
  case noWake =>
    rw [exec_darkWake]
    obtain hno | ⟨hent, hps⟩ := hno
    · rw [darkWake_not hno]
    · by_cases hw : wakes s w
      · rw [darkWake_wakes hw, beq_eq_false_iff_ne.mpr hent, beq_eq_false_iff_ne.mpr hps]; rfl
      · rw [darkWake_not hw]
  case select => rw [clkoutSel_up hup, clkSelect, hok]; rfl
  case reject => rw [clkoutSel_up hup, clkSelect, hok]; rfl
  case clear => exact clkoutClear_up hup

end Sys2Proof.Machine
end

section
/-! Arithmetic of slot A (06 R189 to R191). -/

namespace Sys2Proof.Machine

/-- The rows with two sources run the arithmetic bundle of their operation. -/
theorem exec_alu3 (l : LaneId) (ty : Ty) (d s1 s2 : VReg) (b : Word) (s : State) :
    ∀ r ∈ alu3, exec (r.2 l ty d s1 s2 b) s = .next (beAlu l r.1 ty d s1 s2 0 b s) := by
  simp only [alu3, List.forall_mem_cons]
  exact ⟨rfl, rfl, rfl, rfl, rfl, rfl, rfl, rfl, rfl, rfl, rfl, rfl, rfl, rfl, rfl, rfl, rfl, nofun⟩
/-- So do those with one. -/
theorem exec_alu2 (l : LaneId) (ty : Ty) (d s1 : VReg) (b : Word) (s : State) :
    ∀ r ∈ alu2, exec (r.2 l ty d s1 b) s = .next (beAlu l r.1 ty d s1 0 0 b s) := by
  simp only [alu2, List.forall_mem_cons]
  exact ⟨rfl, rfl, rfl, rfl, rfl, nofun⟩

section
variable {s : State} {l : LaneId} {n : Nat} {prog : List Byte} {t : TaskDef} {b : Word} {sb : Slot} {o : AluOp} {ty : Ty}
  {d s1 : VReg} {s2 : Fin 32} {imm : BitVec 11}
variable (hfits : BundleFits s l n prog t (.alu o ty d s1 s2 imm) b sb (aluCycles o ty))
include hfits

theorem beAlu_value {v : DWord} {f : Bool} (hty : tyOk o ty = true)
    (hval : alu o ty ((ctxOf s l n).v64 d) ((ctxOf s l n).v64 s1) ((ctxOf s l n).v64 s2) s2.val imm = .val v f) :
    beAlu l o ty d s1 s2 imm b s = bundleGoes s l n t (.alu o ty d s1 s2 imm) sb (aluCycles o ty)
      (fun x => { x.setV d v with pc := x.pc + 8, numf := x.numf || f }) (s.lane l).img := by
  refine beBundle_go hfits _ _ (fun _ _ _ _ _ _ _ _ => rfl) _ _ ?_
  simp only [bundleIn_c0, hty, Bool.not_true, Bool.false_eq_true, if_false, hval] <;> rfl
theorem beAlu_div0 (hty : tyOk o ty = true)
    (hval : alu o ty ((ctxOf s l n).v64 d) ((ctxOf s l n).v64 s1) ((ctxOf s l n).v64 s2) s2.val imm = .div0) :
    beAlu l o ty d s1 s2 imm b s =
      failPeriod (spendCycles s l n (bundleCycles s l n t (.alu o ty d s1 s2 imm) (aluCycles o ty)) t) l n 4 (faultPay fDIV0 (ctxOf s l n).pc) := by
  refine beBundle_fail hfits _ _ (fun _ _ _ _ _ _ _ _ => rfl) _ ?_
  simp only [bundleIn_c0, hty, Bool.not_true, Bool.false_eq_true, if_false, hval]
theorem beAlu_illegal (hty : tyOk o ty = false) : beAlu l o ty d s1 s2 imm b s =
    failPeriod (spendCycles s l n (bundleCycles s l n t (.alu o ty d s1 s2 imm) (aluCycles o ty)) t) l n 4 (faultPay fILLEGAL (ctxOf s l n).pc) :=
  beBundle_fail hfits _ _ (fun _ _ _ _ _ _ _ _ => rfl) _ (if_pos (by rw [hty]; rfl))
end

/-- Settles O33: every row runs the arithmetic bundle of its operation, whose outcome is its result's. -/
theorem blockArithmetic : Obligations.BlockArithmetic := by
  unfold Obligations.BlockArithmetic
  intro s l n prog t b sb ty d s1 s2 imm
  dsimp only
  have hrow {i : Instr} {o : AluOp} {s1 : VReg} {s2 : Fin 32} {imm : BitVec 11} (he : exec i s = .next (beAlu l o ty d s1 s2 imm b s))
      (hfits : BundleFits s l n prog t (.alu o ty d s1 s2 imm) b sb (aluCycles o ty)) :
      (∀ v f, tyOk o ty = true →
        alu o ty ((ctxOf s l n).v64 d) ((ctxOf s l n).v64 s1) ((ctxOf s l n).v64 s2) s2.val imm = .val v f → exec i s =
        .next (bundleGoes s l n t (.alu o ty d s1 s2 imm) sb (aluCycles o ty)
          (fun x => { x.setV d v with pc := x.pc + 8, numf := x.numf || f }) (s.lane l).img)) ∧
      (tyOk o ty = true → alu o ty ((ctxOf s l n).v64 d) ((ctxOf s l n).v64 s1) ((ctxOf s l n).v64 s2) s2.val imm = .div0 →
        exec i s = .next (failPeriod (spendCycles s l n (bundleCycles s l n t (.alu o ty d s1 s2 imm) (aluCycles o ty)) t) l n 4
          (faultPay fDIV0 (ctxOf s l n).pc))) ∧
      (tyOk o ty = false → exec i s =
        .next (failPeriod (spendCycles s l n (bundleCycles s l n t (.alu o ty d s1 s2 imm) (aluCycles o ty)) t) l n 4
          (faultPay fILLEGAL (ctxOf s l n).pc))) :=
    ⟨fun v f hty hval => by rw [he, beAlu_value hfits hty hval], fun hty hval => by rw [he, beAlu_div0 hfits hty hval],
      fun hty => by rw [he, beAlu_illegal hfits hty]⟩
  refine ⟨fun r hr => hrow (exec_alu3 l ty d s1 s2 b s r hr), fun r hr => hrow (exec_alu2 l ty d s1 b s r hr), hrow rfl, hrow rfl,
    fun h => ?_, fun src => hrow rfl⟩
  subst h; exact hrow rfl

end Sys2Proof.Machine
end

section
/-! Integer results (06 R186, R191). -/

namespace Sys2Proof.Machine

/-- The two's complement reading is the balanced residue. -/
theorem signed_eq_bmod {w : Nat} (hw : 0 < w) (n : Nat) : signed w n = (n : Int).bmod (2 ^ w) := by
  obtain ⟨v, rfl⟩ := Nat.exists_eq_succ_of_ne_zero hw.ne'
  have hpow : 2 ^ (v + 1) = 2 * 2 ^ v := by rw [Nat.pow_succ, Nat.mul_comm]
  have hlt := Nat.mod_lt n (Nat.two_pow_pos (v + 1))
  simp only [signed, Int.bmod_def, Nat.succ_eq_add_one, Nat.succ_sub_one, ← Int.natCast_emod]
  generalize n % 2 ^ (v + 1) = m at hlt
  rw [hpow] at hlt ⊢
  generalize 2 ^ v = p at hlt
  split <;> split <;> omega
theorem unsigned_cast (w : Nat) (i : Int) : (unsigned w i : Int) = i % (2 ^ w : Nat) :=
  Int.toNat_of_nonneg (Int.emod_nonneg _ (by exact_mod_cast (Nat.two_pow_pos w).ne'))
theorem signed_range {w : Nat} (hw : 0 < w) (n : Nat) : -(2 ^ (w - 1) : Int) ≤ signed w n ∧ signed w n < 2 ^ (w - 1) := by
  obtain ⟨v, rfl⟩ := Nat.exists_eq_succ_of_ne_zero hw.ne'
  have hpow : 2 ^ (v + 1) = 2 * 2 ^ v := by rw [Nat.pow_succ, Nat.mul_comm]
  have hlt := Nat.mod_lt n (Nat.two_pow_pos (v + 1))
  simp only [signed, Nat.succ_eq_add_one, Nat.add_sub_cancel]
  generalize n % 2 ^ (v + 1) = m at hlt
  rw [hpow] at hlt ⊢
  have hcast : (2 : Int) ^ v = ((2 ^ v : Nat) : Int) := by push_cast; rfl
  rw [hcast]
  generalize 2 ^ v = p at hlt
  split <;> omega
theorem bmod_of_range {w : Nat} (hw : 0 < w) {i : Int} (hlo : -(2 ^ (w - 1) : Int) ≤ i) (hhi : i < 2 ^ (w - 1)) : i.bmod (2 ^ w) = i := by
  obtain ⟨v, rfl⟩ := Nat.exists_eq_succ_of_ne_zero hw.ne'
  have hpow : 2 ^ (v + 1) = 2 * 2 ^ v := by rw [Nat.pow_succ, Nat.mul_comm]
  have hcast : (2 : Int) ^ v = ((2 ^ v : Nat) : Int) := by push_cast; rfl
  simp only [Nat.succ_eq_add_one, Nat.add_sub_cancel, hcast] at hlo hhi
  rw [Nat.succ_eq_add_one, hpow]
  generalize 2 ^ v = p at hlo hhi
  exact Int.bmod_eq_of_le (by omega) (by omega)

section
variable {ty : Ty}

theorem tyWidth_pos (ty : Ty) : 0 < tyWidth ty := by cases ty <;> decide
theorem tyWidth_le (ty : Ty) : tyWidth ty ≤ 64 := by cases ty <;> decide

/-- What a register that holds an integer reads as. -/
theorem signed_intReg (ty : Ty) (i : Int) : signed (tyWidth ty) (intReg ty i).toNat = i.bmod (2 ^ tyWidth ty) := by
  have hdvd : ((2 ^ tyWidth ty : Nat) : Int) ∣ ((2 ^ 64 : Nat) : Int) := by exact_mod_cast Nat.pow_dvd_pow 2 (tyWidth_le ty)
  rw [signed_eq_bmod (tyWidth_pos ty), intReg, signed_eq_bmod (tyWidth_pos ty), unsigned_cast, BitVec.toNat_ofInt,
    Int.toNat_of_nonneg (Int.emod_nonneg _ (by decide))]
  rw [← Int.emod_bmod, Int.emod_emod_of_dvd _ hdvd, Int.emod_bmod, Int.bmod_bmod, Int.emod_bmod]
theorem intReg_wraps (ty : Ty) (i : Int) : (signed (tyWidth ty) (intReg ty i).toNat - i) % (2 ^ tyWidth ty : Int) = 0 := by
  have hcast : (2 : Int) ^ tyWidth ty = ((2 ^ tyWidth ty : Nat) : Int) := by push_cast; rfl
  rw [signed_intReg, hcast, Int.sub_emod, Int.bmod_emod, Int.sub_self, Int.zero_emod]
theorem intReg_exact {i : Int} (hlo : -(2 ^ (tyWidth ty - 1) : Int) ≤ i) (hhi : i < 2 ^ (tyWidth ty - 1)) :
    signed (tyWidth ty) (intReg ty i).toNat = i := by
  rw [signed_intReg, bmod_of_range (tyWidth_pos ty) hlo hhi]

variable (hint : isInt ty = true)
include hint

theorem tyInt_int (x : DWord) : tyInt ty x = signed (tyWidth ty) x.toNat := by
  cases ty with
  | bool => nomatch hint
  | _ => rfl
theorem not_float : isFloat ty = false := by
  cases ty with
  | real => nomatch hint
  | lreal => nomatch hint
  | _ => rfl
theorem aluSat_int (i : Int) :
    signed (tyWidth ty) (aluSat ty i).toNat = max (-(2 ^ (tyWidth ty - 1) : Int)) (min (2 ^ (tyWidth ty - 1) - 1) i) := by
  have hpos : (0 : Int) < 2 ^ (tyWidth ty - 1) := by positivity
  have hclamp : clampI (tyMin ty) (tyMax ty) i = max (-(2 ^ (tyWidth ty - 1) : Int)) (min (2 ^ (tyWidth ty - 1) - 1) i) := by
    simp only [clampI, tyMin, tyMax, hint, if_true, Nat.cast_pow, Nat.cast_ofNat]
    generalize (2 : Int) ^ (tyWidth ty - 1) = p at hpos
    split
    · omega
    · split <;> omega
  rw [aluSat, hclamp]
  generalize hp : (2 : Int) ^ (tyWidth ty - 1) = p at hpos
  exact intReg_exact (by rw [hp]; omega) (by rw [hp]; omega)
end

/-- A truncated quotient stays in the range, but for the one that overflows. -/
theorem tdiv_range {p i j : Int} (hp : 0 < p) (hlo : -p ≤ i) (hhi : i < p) (hj : j ≠ 0) (hno : ¬ (i = -p ∧ j = -1)) :
    -p ≤ i.tdiv j ∧ i.tdiv j < p := by
  have habs : (i.tdiv j).natAbs = i.natAbs / j.natAbs := Int.natAbs_tdiv ..
  have hle : i.natAbs / j.natAbs ≤ i.natAbs := Nat.div_le_self ..
  by_cases hi : i.natAbs < p.natAbs
  · omega
  · have hi : i = -p := by omega
    by_cases hj2 : j.natAbs = 1
    · have hj1 : j = 1 := by omega
      rw [hj1, Int.tdiv_one]; omega
    · have hlt : i.natAbs / j.natAbs < i.natAbs := Nat.div_lt_self (by omega) (by omega)
      omega
theorem tmod_range {p i j : Int} (hlo : -p ≤ j) (hhi : j < p) (hj : j ≠ 0) : -p ≤ i.tmod j ∧ i.tmod j < p := by
  have habs : (i.tmod j).natAbs = i.natAbs % j.natAbs := Int.natAbs_tmod ..
  have hlt : i.natAbs % j.natAbs < j.natAbs := Nat.mod_lt _ (by omega)
  omega

/-- Settles O34: each value is an integer held in a register, which reads back as its balanced residue. -/
theorem integerArithmetic : Obligations.IntegerArithmetic := by
  unfold Obligations.IntegerArithmetic
  intro ty d a b k imm hint
  dsimp only
  have hfl := not_float hint
  have hpos : (0 : Int) < 2 ^ (tyWidth ty - 1) := by positivity
  obtain ⟨halo, hahi⟩ := signed_range (tyWidth_pos ty) a.toNat
  obtain ⟨hblo, hbhi⟩ := signed_range (tyWidth_pos ty) b.toNat
  simp only [alu, aluAdd, aluSub, aluMul, aluDiv, aluMod, aluEq, aluLt, hfl, Bool.false_eq_true, if_false, tyInt_int hint]
  refine ⟨⟨_, rfl, intReg_wraps ..⟩, ⟨_, rfl, intReg_wraps ..⟩, ⟨_, rfl, intReg_wraps ..⟩, ⟨_, rfl, aluSat_int hint _⟩,
    ⟨_, rfl, aluSat_int hint _⟩, fun hb => ⟨if_pos hb, if_pos hb⟩, fun hb => ?mod, fun hb hno => ?div, fun hw => ?shl, ?ceq, ?clt⟩
  case mod =>
    obtain ⟨hlo, hhi⟩ := tmod_range (i := signed (tyWidth ty) a.toNat) hblo hbhi hb
    exact ⟨_, if_neg hb, intReg_exact hlo hhi⟩
  case div =>
    obtain ⟨hlo, hhi⟩ := tdiv_range hpos halo hahi hb hno
    have hmax : ¬ tyMax ty < (signed (tyWidth ty) a.toNat).tdiv (signed (tyWidth ty) b.toNat) := by
      simp only [tyMax, hint, if_true, Nat.cast_pow, Nat.cast_ofNat]; omega
    exact ⟨_, (if_neg hb).trans (congrArg AluRes.ok (if_neg hmax)), intReg_exact hlo hhi⟩
  case shl => exact congrArg AluRes.ok (if_pos hw)
  case ceq =>
    by_cases h : signed (tyWidth ty) a.toNat = signed (tyWidth ty) b.toNat
    · simp [h, boolReg, AluRes.ok]
    · simp [h, boolReg, AluRes.ok]
  case clt =>
    by_cases h : signed (tyWidth ty) a.toNat < signed (tyWidth ty) b.toNat
    · simp [h, boolReg, AluRes.ok]
    · simp [h, boolReg, AluRes.ok]

end Sys2Proof.Machine
end

section
/-! Loads and stores of slot A (06 R165, R167, R172 to R174, R190). -/

namespace Sys2Proof.Machine

section
variable {s : State} {l : LaneId} {n : Nat} {prog : List Byte} {t : TaskDef} {a : Slot} {b : Word} {sb : Slot} {k : Nat}
variable (hfits : BundleFits s l n prog t a b sb k) (cost : BeIn → Nat) (sa : BeIn → BeRes)
  (hk : ∀ x : BeIn, x.s = s → x.l = l → x.prog = prog → x.t = t → x.c0 = ctxOf s l n → x.shotLeft = t.shot - (ctxOf s l n).cyc →
    x.room = min (t.shot - (ctxOf s l n).cyc) (windowCycles s l - (s.lane l).be.used) - stallCycles s l t (ctxOf s l n) a → cost x = k)
include hfits hk

/-- A fitting bundle whose slot A meets a protection fault. -/
theorem beBundle_protects (w : Nat) (hs : sa (bundleIn s l n prog t a sb k) = .fail 3 w) : beBundle l a b cost sa s =
    failPeriod (spendCycles s l n (bundleCycles s l n t a k) t) l n 3 (faultPay w (ctxOf s l n).pc) := by
  rw [beBundle_fits hfits cost sa hk]; simp only [hs]; rfl
/-- A fitting bundle whose slot A meets a poisoned word. -/
theorem beBundle_poisoned (w : Nat) (hs : sa (bundleIn s l n prog t a sb k) = .fail 5 w) : beBundle l a b cost sa s =
    taskMemoryError (spendCycles s l n (bundleCycles s l n t a k) t) l n (.image w) := by
  rw [beBundle_fits hfits cost sa hk]; simp only [hs]
/-- A fitting bundle whose commit does not fit the clocks. -/
theorem beBundle_runsOut (c w : Nat) (hc : c < 3) (hs : sa (bundleIn s l n prog t a sb k) = .fail c w) : beBundle l a b cost sa s =
    failPeriod (spendCycles s l n (bundleCycles s l n t a k) t) l n c [] := by
  rw [beBundle_fits hfits cost sa hk]; simp only [hs]
  interval_cases c <;> rfl
/-- A fitting bundle whose slot A goes on over a corrected error. -/
theorem beBundle_fixed (f : Ctx → Ctx)
    (hs : sa (bundleIn s l n prog t a sb k) = .fixed (f ((ctxOf s l n).afterB sb (bundleCycles s l n t a k)))) :
    beBundle l a b cost sa s = noteCorrection (bundleGoes s l n t a sb k f (s.lane l).img) l := by
  rw [beBundle_fits hfits cost sa hk]
  simp only [hs, updCtx, updBe, updLane_updLane, bundleGoes]
  congr 1
end

theorem afterB_frames (c : Ctx) (sb : Slot) (k : Nat) : (c.afterB sb k).frames = c.frames := (slotB_rest c sb).2.1
theorem afterB_pc (c : Ctx) (sb : Slot) (k : Nat) : (c.afterB sb k).pc = c.pc := (slotB_rest c sb).1
theorem afterB_loops (c : Ctx) (sb : Slot) (k : Nat) : (c.afterB sb k).loops = c.loops := (slotB_rest c sb).2.2.1
theorem slotB_tob (c : Ctx) (sb : Slot) : (slotB c sb).tob = c.tob := by
  unfold slotB; split
  · split
    · rfl
    · rfl
  · rfl

section
variable {s : State} {l : LaneId} {n : Nat} {prog : List Byte} {t : TaskDef} {b : Word} {sb : Slot} {ty : Ty} {v : VReg} {a d : AReg}
  {disp : BitVec 13}

/-! LD -/

/-- What LD answers, by its checks. -/
def ldRes (ty : Ty) (v : VReg) (a : AReg) (disp : BitVec 13) (ecc : Bool) (x : BeIn) : BeRes :=
  if disp.toNat % tySize ty ≠ 0 then .fail 4 fILLEGAL
  else if beAddr x.c0 a disp.toNat % tySize ty ≠ 0 then .fail 3 (beAddr x.c0 a disp.toNat)
  else if !readOk x (beAddr x.c0 a disp.toNat) (tySize ty) then .fail 3 (beAddr x.c0 a disp.toNat)
  else match poisoned x (beAddr x.c0 a disp.toNat) (tySize ty) with
    | some w => .fail 5 w
    | none =>
      let c := (x.c1.setV v (patReg ty (seenNat x.c0 x.img (beAddr x.c0 a disp.toNat) (tySize ty)))).step
      if ecc && beAddr x.c0 a disp.toNat / 2 ^ 28 == 0xA then .fixed c else .go c x.img
theorem exec_beLd (l : LaneId) (ecc : Bool) (b : Word) (s : State) : exec (.beLd l ty v a disp ecc b) s =
    .next (beBundle l (.ld ty v a disp) b (fun x => ldCycles (beAddr x.c0 a disp.toNat)) (ldRes ty v a disp ecc) s) := rfl

section
variable {ecc : Bool} (hfits : BundleFits s l n prog t (.ld ty v a disp) b sb (ldCycles (beAddr (ctxOf s l n) a disp.toNat)))
include hfits

theorem ld_illegal (hdisp : disp.toNat % tySize ty ≠ 0) : exec (.beLd l ty v a disp ecc b) s =
    .next (failPeriod (spendCycles s l n (bundleCycles s l n t (.ld ty v a disp) (ldCycles (beAddr (ctxOf s l n) a disp.toNat))) t) l n 4
      (faultPay fILLEGAL (ctxOf s l n).pc)) := by
  refine (exec_beLd ..).trans (congrArg Host.Outcome.next (beBundle_fail hfits _ _ (fun x _ _ _ _ h0 _ _ => by rw [h0]) _ ?_))
  exact if_pos hdisp

variable (hdisp : disp.toNat % tySize ty = 0)
include hdisp
theorem ld_protects (hno : beAddr (ctxOf s l n) a disp.toNat % tySize ty ≠ 0 ∨ readOk (bundleIn s l n prog t (.ld ty v a disp) sb
      (ldCycles (beAddr (ctxOf s l n) a disp.toNat))) (beAddr (ctxOf s l n) a disp.toNat) (tySize ty) = false) :
    exec (.beLd l ty v a disp ecc b) s =
    .next (failPeriod (spendCycles s l n (bundleCycles s l n t (.ld ty v a disp) (ldCycles (beAddr (ctxOf s l n) a disp.toNat))) t) l n 3
      (faultPay (beAddr (ctxOf s l n) a disp.toNat) (ctxOf s l n).pc)) := by
  refine (exec_beLd ..).trans (congrArg Host.Outcome.next (beBundle_protects hfits _ _ (fun x _ _ _ _ h0 _ _ => by rw [h0]) _ ?_))
  rw [ldRes, if_neg (not_not.mpr hdisp), bundleIn_c0]
  by_cases haddr : beAddr (ctxOf s l n) a disp.toNat % tySize ty = 0
  · rw [if_neg (not_not.mpr haddr), hno.resolve_left (not_not.mpr haddr)]; rfl
  · exact if_pos haddr

variable (haddr : beAddr (ctxOf s l n) a disp.toNat % tySize ty = 0) (hread : readOk (bundleIn s l n prog t (.ld ty v a disp) sb
      (ldCycles (beAddr (ctxOf s l n) a disp.toNat))) (beAddr (ctxOf s l n) a disp.toNat) (tySize ty) = true)
include haddr hread
theorem ld_poisoned {w : Nat} (hw : poisoned (bundleIn s l n prog t (.ld ty v a disp) sb (ldCycles (beAddr (ctxOf s l n) a disp.toNat)))
      (beAddr (ctxOf s l n) a disp.toNat) (tySize ty) = some w) : exec (.beLd l ty v a disp ecc b) s =
    .next (taskMemoryError (spendCycles s l n (bundleCycles s l n t (.ld ty v a disp) (ldCycles (beAddr (ctxOf s l n) a disp.toNat))) t) l n
      (.image w)) := by
  refine (exec_beLd ..).trans (congrArg Host.Outcome.next (beBundle_poisoned hfits _ _ (fun x _ _ _ _ h0 _ _ => by rw [h0]) _ ?_))
  simp only [ldRes, hdisp, bundleIn_c0, haddr, hread, hw, ne_eq, not_true_eq_false, if_false, Bool.not_true, Bool.false_eq_true]

variable (hclean : poisoned (bundleIn s l n prog t (.ld ty v a disp) sb (ldCycles (beAddr (ctxOf s l n) a disp.toNat)))
      (beAddr (ctxOf s l n) a disp.toNat) (tySize ty) = none)
include hclean
omit hfits in
theorem ldRes_clean : ldRes ty v a disp ecc (bundleIn s l n prog t (.ld ty v a disp) sb (ldCycles (beAddr (ctxOf s l n) a disp.toNat))) =
    let c := (((ctxOf s l n).afterB sb (bundleCycles s l n t (.ld ty v a disp) (ldCycles (beAddr (ctxOf s l n) a disp.toNat)))).setV v
      (patReg ty (seenNat (ctxOf s l n) (s.lane l).img (beAddr (ctxOf s l n) a disp.toNat) (tySize ty)))).step
    if ecc && beAddr (ctxOf s l n) a disp.toNat / 2 ^ 28 == 0xA then .fixed c else .go c (s.lane l).img := by
  rw [ldRes, if_neg (not_not.mpr hdisp), bundleIn_c0, if_neg (not_not.mpr haddr), hread, if_neg (by nofun), hclean] <;> rfl
theorem ld_reads (hecc : ecc = false ∨ beAddr (ctxOf s l n) a disp.toNat / 2 ^ 28 ≠ 0xA) : exec (.beLd l ty v a disp ecc b) s =
    .next (bundleGoes s l n t (.ld ty v a disp) sb (ldCycles (beAddr (ctxOf s l n) a disp.toNat)) (fun x =>
      { x.setV v (patReg ty (seenNat (ctxOf s l n) (s.lane l).img (beAddr (ctxOf s l n) a disp.toNat) (tySize ty))) with pc := x.pc + 8 })
      (s.lane l).img) := by
  refine (exec_beLd ..).trans (congrArg Host.Outcome.next (beBundle_go hfits _ _ (fun x _ _ _ _ h0 _ _ => by rw [h0]) _ _ ?_))
  rw [ldRes_clean hdisp haddr hread hclean]
  refine if_neg ?_
  rw [Bool.and_eq_true, beq_iff_eq]
  rintro ⟨he, ha⟩
  obtain h | h := hecc
  · rw [h] at he; nomatch he
  · exact h ha
theorem ld_corrects (hecc : ecc = true) (harea : beAddr (ctxOf s l n) a disp.toNat / 2 ^ 28 = 0xA) : exec (.beLd l ty v a disp ecc b) s =
    .next (noteCorrection (bundleGoes s l n t (.ld ty v a disp) sb (ldCycles (beAddr (ctxOf s l n) a disp.toNat)) (fun x =>
      { x.setV v (patReg ty (seenNat (ctxOf s l n) (s.lane l).img (beAddr (ctxOf s l n) a disp.toNat) (tySize ty))) with pc := x.pc + 8 })
      (s.lane l).img) l) := by
  refine (exec_beLd ..).trans (congrArg Host.Outcome.next (beBundle_fixed hfits _ _ (fun x _ _ _ _ h0 _ _ => by rw [h0]) _ ?_))
  rw [ldRes_clean hdisp haddr hread hclean]
  exact if_pos (by rw [hecc, harea]; rfl)
end

/-! ST -/

/-- What ST answers, by its checks. -/
def stRes (ty : Ty) (v : VReg) (a : AReg) (disp : BitVec 13) (x : BeIn) : BeRes :=
  if disp.toNat % tySize ty ≠ 0 then .fail 4 fILLEGAL
  else if beAddr x.c0 a disp.toNat % tySize ty ≠ 0 then .fail 3 (beAddr x.c0 a disp.toNat)
  else if !writeOk x (beAddr x.c0 a disp.toNat) (tySize ty) then .fail 3 (beAddr x.c0 a disp.toNat)
  else if beAddr x.c0 a disp.toNat / 2 ^ 28 = 0xA then
    match x.c1.frames with
    | f :: r => .go { x.c1 with frames := { f with buf := bufBytes f.buf (beAddr x.c0 a disp.toNat) (stBytes ty (x.c0.v64 v)) } :: r }.step x.img
    | [] => .fail 3 (beAddr x.c0 a disp.toNat)
  else .go { x.c1 with tob := bufBytes x.c1.tob (beAddr x.c0 a disp.toNat) (stBytes ty (x.c0.v64 v)) }.step x.img
theorem exec_beSt (l : LaneId) (b : Word) (s : State) : exec (.beSt l ty v a disp b) s =
    .next (beBundle l (.st ty v a disp) b (fun _ => 1) (stRes ty v a disp) s) := rfl

section
variable (hfits : BundleFits s l n prog t (.st ty v a disp) b sb 1)
include hfits

theorem st_illegal (hdisp : disp.toNat % tySize ty ≠ 0) : exec (.beSt l ty v a disp b) s =
    .next (failPeriod (spendCycles s l n (bundleCycles s l n t (.st ty v a disp) 1) t) l n 4 (faultPay fILLEGAL (ctxOf s l n).pc)) :=
  (exec_beSt ..).trans (congrArg Host.Outcome.next (beBundle_fail hfits _ _ (fun _ _ _ _ _ _ _ _ => rfl) _ (if_pos hdisp)))

variable (hdisp : disp.toNat % tySize ty = 0)
include hdisp
theorem st_protects (hno : beAddr (ctxOf s l n) a disp.toNat % tySize ty ≠ 0 ∨
      writeOk (bundleIn s l n prog t (.st ty v a disp) sb 1) (beAddr (ctxOf s l n) a disp.toNat) (tySize ty) = false) :
    exec (.beSt l ty v a disp b) s = .next (failPeriod (spendCycles s l n (bundleCycles s l n t (.st ty v a disp) 1) t) l n 3
      (faultPay (beAddr (ctxOf s l n) a disp.toNat) (ctxOf s l n).pc)) := by
  refine (exec_beSt ..).trans (congrArg Host.Outcome.next (beBundle_protects hfits _ _ (fun _ _ _ _ _ _ _ _ => rfl) _ ?_))
  rw [stRes, if_neg (not_not.mpr hdisp), bundleIn_c0]
  by_cases haddr : beAddr (ctxOf s l n) a disp.toNat % tySize ty = 0
  · rw [if_neg (not_not.mpr haddr), hno.resolve_left (not_not.mpr haddr)]; rfl
  · exact if_pos haddr

variable (haddr : beAddr (ctxOf s l n) a disp.toNat % tySize ty = 0)
  (hwrite : writeOk (bundleIn s l n prog t (.st ty v a disp) sb 1) (beAddr (ctxOf s l n) a disp.toNat) (tySize ty) = true)
include haddr hwrite
theorem st_output (harea : beAddr (ctxOf s l n) a disp.toNat / 2 ^ 28 ≠ 0xA) : exec (.beSt l ty v a disp b) s =
    .next (bundleGoes s l n t (.st ty v a disp) sb 1 (fun x => { x with
      tob := bufBytes x.tob (beAddr (ctxOf s l n) a disp.toNat) (stBytes ty ((ctxOf s l n).v64 v)), pc := x.pc + 8 }) (s.lane l).img) := by
  refine (exec_beSt ..).trans (congrArg Host.Outcome.next (beBundle_go hfits _ _ (fun _ _ _ _ _ _ _ _ => rfl) _ _ ?_))
  rw [stRes, if_neg (not_not.mpr hdisp), bundleIn_c0, if_neg (not_not.mpr haddr), hwrite, if_neg (by nofun), if_neg harea]; rfl
theorem st_block (harea : beAddr (ctxOf s l n) a disp.toNat / 2 ^ 28 = 0xA) {f : BlockFrame} {r : List BlockFrame}
    (hframes : (ctxOf s l n).frames = f :: r) : exec (.beSt l ty v a disp b) s =
    .next (bundleGoes s l n t (.st ty v a disp) sb 1 (fun x => { x with
      frames := { f with buf := bufBytes f.buf (beAddr (ctxOf s l n) a disp.toNat) (stBytes ty ((ctxOf s l n).v64 v)) } :: r, pc := x.pc + 8 })
      (s.lane l).img) := by
  refine (exec_beSt ..).trans (congrArg Host.Outcome.next (beBundle_go hfits _ _ (fun _ _ _ _ _ _ _ _ => rfl) _ _ ?_))
  rw [stRes, if_neg (not_not.mpr hdisp), bundleIn_c0, if_neg (not_not.mpr haddr), hwrite, if_neg (by nofun), if_pos harea, bundleIn_c1,
    afterB_frames, hframes] <;> rfl
end

/-! LDA and IDXC -/

/-- What LDA answers, by its checks. -/
def ldaRes (d a : AReg) (disp : BitVec 13) (x : BeIn) : BeRes :=
  if disp.toNat % 4 ≠ 0 then .fail 4 fILLEGAL
  else if beAddr x.c0 a disp.toNat % 4 ≠ 0 ∨ beAddr x.c0 a disp.toNat / 2 ^ 28 ≠ 0xB then .fail 3 (beAddr x.c0 a disp.toNat)
  else if !readOk x (beAddr x.c0 a disp.toNat) 4 then .fail 3 (beAddr x.c0 a disp.toNat)
  else match poisoned x (beAddr x.c0 a disp.toNat) 4 with
    | some w => .fail 5 w
    | none => .go (x.c1.setA d (BitVec.ofNat 32 (seenNat x.c0 x.img (beAddr x.c0 a disp.toNat) 4))).step x.img
theorem exec_beLda (l : LaneId) (b : Word) (s : State) : exec (.beLda l d a disp b) s =
    .next (beBundle l (.lda d a disp) b (fun _ => 2) (ldaRes d a disp) s) := rfl

section
variable (hfits : BundleFits s l n prog t (.lda d a disp) b sb 2)
include hfits

theorem lda_illegal (hdisp : disp.toNat % 4 ≠ 0) : exec (.beLda l d a disp b) s =
    .next (failPeriod (spendCycles s l n (bundleCycles s l n t (.lda d a disp) 2) t) l n 4 (faultPay fILLEGAL (ctxOf s l n).pc)) :=
  (exec_beLda ..).trans (congrArg Host.Outcome.next (beBundle_fail hfits _ _ (fun _ _ _ _ _ _ _ _ => rfl) _ (if_pos hdisp)))

variable (hdisp : disp.toNat % 4 = 0)
include hdisp
theorem lda_protects (hno : beAddr (ctxOf s l n) a disp.toNat % 4 ≠ 0 ∨ beAddr (ctxOf s l n) a disp.toNat / 2 ^ 28 ≠ 0xB ∨
      readOk (bundleIn s l n prog t (.lda d a disp) sb 2) (beAddr (ctxOf s l n) a disp.toNat) 4 = false) :
    exec (.beLda l d a disp b) s = .next (failPeriod (spendCycles s l n (bundleCycles s l n t (.lda d a disp) 2) t) l n 3
      (faultPay (beAddr (ctxOf s l n) a disp.toNat) (ctxOf s l n).pc)) := by
  refine (exec_beLda ..).trans (congrArg Host.Outcome.next (beBundle_protects hfits _ _ (fun _ _ _ _ _ _ _ _ => rfl) _ ?_))
  rw [ldaRes, if_neg (not_not.mpr hdisp), bundleIn_c0]
  by_cases haddr : beAddr (ctxOf s l n) a disp.toNat % 4 ≠ 0 ∨ beAddr (ctxOf s l n) a disp.toNat / 2 ^ 28 ≠ 0xB
  · exact if_pos haddr
  · rw [if_neg haddr, (or_assoc.mpr hno).resolve_left haddr]; rfl

variable (haddr : beAddr (ctxOf s l n) a disp.toNat % 4 = 0) (harea : beAddr (ctxOf s l n) a disp.toNat / 2 ^ 28 = 0xB)
  (hread : readOk (bundleIn s l n prog t (.lda d a disp) sb 2) (beAddr (ctxOf s l n) a disp.toNat) 4 = true)
include haddr harea hread
omit hfits in
theorem ldaRes_allowed : ldaRes d a disp (bundleIn s l n prog t (.lda d a disp) sb 2) =
    match poisoned (bundleIn s l n prog t (.lda d a disp) sb 2) (beAddr (ctxOf s l n) a disp.toNat) 4 with
    | some w => .fail 5 w
    | none => .go (((ctxOf s l n).afterB sb (bundleCycles s l n t (.lda d a disp) 2)).setA d
        (BitVec.ofNat 32 (seenNat (ctxOf s l n) (s.lane l).img (beAddr (ctxOf s l n) a disp.toNat) 4))).step (s.lane l).img := by
  rw [ldaRes, if_neg (not_not.mpr hdisp), bundleIn_c0, if_neg (not_or.mpr ⟨not_not.mpr haddr, not_not.mpr harea⟩), hread,
    if_neg (by nofun)] <;> rfl
theorem lda_poisoned {w : Nat} (hw : poisoned (bundleIn s l n prog t (.lda d a disp) sb 2) (beAddr (ctxOf s l n) a disp.toNat) 4 = some w) :
    exec (.beLda l d a disp b) s = .next (taskMemoryError (spendCycles s l n (bundleCycles s l n t (.lda d a disp) 2) t) l n (.image w)) := by
  refine (exec_beLda ..).trans (congrArg Host.Outcome.next (beBundle_poisoned hfits _ _ (fun _ _ _ _ _ _ _ _ => rfl) _ ?_))
  rw [ldaRes_allowed hdisp haddr harea hread, hw]
theorem lda_loads (hw : poisoned (bundleIn s l n prog t (.lda d a disp) sb 2) (beAddr (ctxOf s l n) a disp.toNat) 4 = none) :
    exec (.beLda l d a disp b) s = .next (bundleGoes s l n t (.lda d a disp) sb 2 (fun x =>
      { x.setA d (BitVec.ofNat 32 (seenNat (ctxOf s l n) (s.lane l).img (beAddr (ctxOf s l n) a disp.toNat) 4)) with pc := x.pc + 8 })
      (s.lane l).img) := by
  refine (exec_beLda ..).trans (congrArg Host.Outcome.next (beBundle_go hfits _ _ (fun _ _ _ _ _ _ _ _ => rfl) _ _ ?_))
  rw [ldaRes_allowed hdisp haddr harea hread, hw] <;> rfl
end

section
variable {scale : Fin 4} {bound : BitVec 10} (hfits : BundleFits s l n prog t (.idxc scale d a v bound) b sb 2)
include hfits

theorem idxc_goes (hi : ((ctxOf s l n).v64 v).toNat ≤ bound.toNat) : exec (.beIdxc l scale d a v bound b) s =
    .next (bundleGoes s l n t (.idxc scale d a v bound) sb 2 (fun x => { x.setA d (BitVec.ofNat 32
      (((ctxOf s l n).a32 a).toNat + ((ctxOf s l n).v64 v).toNat * 2 ^ scale.val)) with pc := x.pc + 8 }) (s.lane l).img) :=
  congrArg Host.Outcome.next (beBundle_go hfits _ _ (fun _ _ _ _ _ _ _ _ => rfl) _ _ (if_pos hi))
theorem idxc_index (hi : bound.toNat < ((ctxOf s l n).v64 v).toNat) : exec (.beIdxc l scale d a v bound b) s =
    .next (failPeriod (spendCycles s l n (bundleCycles s l n t (.idxc scale d a v bound) 2) t) l n 4 (faultPay fINDEX (ctxOf s l n).pc)) :=
  congrArg Host.Outcome.next (beBundle_fail hfits _ _ (fun _ _ _ _ _ _ _ _ => rfl) _ (if_neg (Nat.not_le.mpr hi)))
end
end

/-- Settles O35: each row by its checks, in their order. -/
theorem blockMemory : Obligations.BlockMemory := by
  unfold Obligations.BlockMemory
  intro s l n prog t b sb ty v a d disp
  dsimp only
  refine ⟨fun ecc hfits => ⟨fun hdisp => ld_illegal hfits hdisp, fun hdisp hno => ld_protects hfits hdisp hno,
      fun hdisp haddr hread => ⟨fun x hx => ld_poisoned hfits hdisp haddr hread hx, fun hclean =>
        ⟨fun hecc => ld_reads hfits hdisp haddr hread hclean hecc, fun hecc harea => ld_corrects hfits hdisp haddr hread hclean hecc harea⟩⟩⟩,
    fun hfits => ⟨fun hdisp => st_illegal hfits hdisp, fun hdisp hno => st_protects hfits hdisp hno,
      fun hdisp haddr hwrite => ⟨fun harea => st_output hfits hdisp haddr hwrite harea,
        fun f r harea hframes => st_block hfits hdisp haddr hwrite harea hframes⟩⟩,
    fun hfits => ⟨fun hdisp => lda_illegal hfits hdisp, fun hdisp hno => lda_protects hfits hdisp hno,
      fun hdisp haddr harea hread => ⟨fun x hx => lda_poisoned hfits hdisp haddr harea hread hx,
        fun hclean => lda_loads hfits hdisp haddr harea hread hclean⟩⟩,
    fun scale bound hfits => ⟨fun hi => idxc_goes hfits hi, fun hi => idxc_index hfits hi⟩⟩

end Sys2Proof.Machine
end

section
/-! Control flow, commits and restores of slot A (06 R189, R190; R165, R168, R203 to R205). -/

namespace Sys2Proof.Machine

section
variable {s : State} {l : LaneId} {n : Nat} {prog : List Byte} {t : TaskDef} {b : Word} {sb : Slot} {v : VReg} {off : BitVec 16}

theorem offOk_true (h1 : 1 ≤ off.toNat) (h2 : off.toNat ≤ 32767) : offOk off = true := decide_eq_true ⟨h1, h2⟩
theorem offOk_false (h : off.toNat = 0 ∨ 32767 < off.toNat) : offOk off = false := decide_eq_false (by omega)

/-- A slot that fails as cause 4. -/
def Stops (s : State) (l : LaneId) (n : Nat) (t : TaskDef) (slot : Slot) (k x : Nat) (i : Instr) : Prop :=
  exec i s = .next (failPeriod (spendCycles s l n (bundleCycles s l n t slot k) t) l n 4 (faultPay x (ctxOf s l n).pc))

/-! Branches -/

section
variable (hfits : BundleFits s l n prog t (.bra off) b sb 2)
include hfits
theorem bra_illegal (hoff : off.toNat = 0 ∨ 32767 < off.toNat) : Stops s l n t (.bra off) 2 fILLEGAL (.beBra l off b) :=
  congrArg Host.Outcome.next (beBundle_fail hfits _ _ (fun _ _ _ _ _ _ _ _ => rfl) _ (if_neg (by rw [offOk_false hoff]; nofun)))
theorem bra_jumps (h1 : 1 ≤ off.toNat) (h2 : off.toNat ≤ 32767) : exec (.beBra l off b) s =
    .next (bundleGoes s l n t (.bra off) sb 2 (fun x => { x with pc := x.pc + 8 + 8 * off.toNat }) (s.lane l).img) :=
  congrArg Host.Outcome.next (beBundle_go hfits _ _ (fun _ _ _ _ _ _ _ _ => rfl) _ _ (if_pos (offOk_true h1 h2)))
end

section
variable (hfits : BundleFits s l n prog t (.brz v off) b sb (if (ctxOf s l n).v64 v = 0 then 2 else 1))
include hfits
theorem brz_illegal (hoff : off.toNat = 0 ∨ 32767 < off.toNat) :
    Stops s l n t (.brz v off) (if (ctxOf s l n).v64 v = 0 then 2 else 1) fILLEGAL (.beBrz l v off b) :=
  congrArg Host.Outcome.next (beBundle_fail hfits _ _ (fun _ _ _ _ _ h0 _ _ => by rw [h0]) _ (if_pos (by rw [offOk_false hoff]; rfl)))
theorem brz_goes (h1 : 1 ≤ off.toNat) (h2 : off.toNat ≤ 32767) (f : Ctx → Ctx)
    (hf : ∀ x : Ctx, (if (ctxOf s l n).v64 v = 0 then x.jump off.toNat else x.step) = f x) : exec (.beBrz l v off b) s =
    .next (bundleGoes s l n t (.brz v off) sb (if (ctxOf s l n).v64 v = 0 then 2 else 1) f (s.lane l).img) := by
  refine congrArg Host.Outcome.next (beBundle_go hfits _ _ (fun _ _ _ _ _ h0 _ _ => by rw [h0]) _ _ ?_)
  rw [← hf]
  exact if_neg (by rw [offOk_true h1 h2]; nofun)
end

section
variable (hfits : BundleFits s l n prog t (.brnz v off) b sb (if (ctxOf s l n).v64 v = 0 then 1 else 2))
include hfits
theorem brnz_illegal (hoff : off.toNat = 0 ∨ 32767 < off.toNat) :
    Stops s l n t (.brnz v off) (if (ctxOf s l n).v64 v = 0 then 1 else 2) fILLEGAL (.beBrnz l v off b) :=
  congrArg Host.Outcome.next (beBundle_fail hfits _ _ (fun _ _ _ _ _ h0 _ _ => by rw [h0]) _ (if_pos (by rw [offOk_false hoff]; rfl)))
theorem brnz_goes (h1 : 1 ≤ off.toNat) (h2 : off.toNat ≤ 32767) (f : Ctx → Ctx)
    (hf : ∀ x : Ctx, (if (ctxOf s l n).v64 v = 0 then x.step else x.jump off.toNat) = f x) : exec (.beBrnz l v off b) s =
    .next (bundleGoes s l n t (.brnz v off) sb (if (ctxOf s l n).v64 v = 0 then 1 else 2) f (s.lane l).img) := by
  refine congrArg Host.Outcome.next (beBundle_go hfits _ _ (fun _ _ _ _ _ h0 _ _ => by rw [h0]) _ _ ?_)
  rw [← hf]
  exact if_neg (by rw [offOk_true h1 h2]; nofun)
end

/-! Loops -/

section
variable (hfits : BundleFits s l n prog t (.loop v off) b sb 2)
include hfits
theorem loop_unbounded (hoff : off = 0) : Stops s l n t (.loop v off) 2 fILLEGAL (.beLoop l v off b) :=
  congrArg Host.Outcome.next (beBundle_fail hfits _ _ (fun _ _ _ _ _ _ _ _ => rfl) _ (if_pos hoff))
variable (hoff : off ≠ 0)
include hoff
theorem loop_opens (hm : ((ctxOf s l n).v64 v).toNat % 2 ^ 32 ≠ 0) : exec (.beLoop l v off b) s =
    .next (bundleGoes s l n t (.loop v off) sb 2 (fun x =>
      { x.setLoops (⟨(ctxOf s l n).pc + 8, ((ctxOf s l n).v64 v).toNat % 2 ^ 32⟩ :: x.loopStack) with pc := x.pc + 8 }) (s.lane l).img) := by
  refine congrArg Host.Outcome.next (beBundle_go hfits _ _ (fun _ _ _ _ _ _ _ _ => rfl) _ _ ((if_neg hoff).trans ((if_neg hm).trans ?_)))
  rw [bundleIn_c1, bundleIn_c0]
  generalize (ctxOf s l n).afterB sb (bundleCycles s l n t (.loop v off) 2) = c
  have hpc (ls : List LoopFrame) : (c.setLoops ls).pc = c.pc := by
    unfold Ctx.setLoops; split
    · rfl
    · rfl
  rw [Ctx.step, hpc]; rfl
variable (hm : ((ctxOf s l n).v64 v).toNat % 2 ^ 32 = 0)
include hm
theorem loop_skips {pc : Nat} (hpc : afterEndl prog (secLen prog 1) ((ctxOf s l n).pc + 8) 0 = some pc) : exec (.beLoop l v off b) s =
    .next (bundleGoes s l n t (.loop v off) sb 2 (fun x => { x with pc := pc }) (s.lane l).img) := by
  refine congrArg Host.Outcome.next (beBundle_go hfits _ _ (fun _ _ _ _ _ _ _ _ => rfl) _ _ ((if_neg hoff).trans ((if_pos hm).trans ?_)))
  rw [bundleIn_c0, bundleIn_prog, hpc] <;> rfl
theorem loop_endless (hpc : afterEndl prog (secLen prog 1) ((ctxOf s l n).pc + 8) 0 = none) :
    Stops s l n t (.loop v off) 2 fILLEGAL (.beLoop l v off b) := by
  refine congrArg Host.Outcome.next (beBundle_fail hfits _ _ (fun _ _ _ _ _ _ _ _ => rfl) _ ((if_neg hoff).trans ((if_pos hm).trans ?_)))
  rw [bundleIn_c0, bundleIn_prog, hpc]
end

theorem afterB_loopStack (c : Ctx) (sb : Slot) (k : Nat) : (c.afterB sb k).loopStack = c.loopStack := by
  unfold Ctx.loopStack; rw [afterB_frames, afterB_loops]

/-- What ENDL answers, by the loops that are open. -/
def endlRes (x : BeIn) : BeRes :=
  match x.c1.loopStack with
  | [] => .fail 4 fILLEGAL
  | f :: r =>
    if 1 < f.left then .go { x.c1.setLoops ({ f with left := f.left - 1 } :: r) with pc := f.start } x.img
    else .go (x.c1.setLoops r).step x.img
theorem exec_beEndl (l : LaneId) (b : Word) (s : State) : exec (.beEndl l b) s = .next (beBundle l .endl b (fun _ => 1) endlRes s) := rfl

section
variable (hfits : BundleFits s l n prog t .endl b sb 1)
include hfits
theorem endl_outside (hstack : (ctxOf s l n).loopStack = []) : Stops s l n t .endl 1 fILLEGAL (.beEndl l b) := by
  refine (exec_beEndl ..).trans (congrArg Host.Outcome.next (beBundle_fail hfits _ _ (fun _ _ _ _ _ _ _ _ => rfl) _ ?_))
  rw [endlRes, bundleIn_c1, afterB_loopStack, hstack]
variable {f : LoopFrame} {r : List LoopFrame} (hstack : (ctxOf s l n).loopStack = f :: r)
include hstack
theorem endl_again (hleft : 1 < f.left) : exec (.beEndl l b) s = .next (bundleGoes s l n t .endl sb 1 (fun x =>
    { x.setLoops ({ f with left := f.left - 1 } :: r) with pc := f.start }) (s.lane l).img) := by
  refine (exec_beEndl ..).trans (congrArg Host.Outcome.next (beBundle_go hfits _ _ (fun _ _ _ _ _ _ _ _ => rfl) _ _ ?_))
  rw [endlRes, bundleIn_c1, afterB_loopStack, hstack]
  exact if_pos hleft
theorem endl_leaves (hleft : f.left ≤ 1) : exec (.beEndl l b) s = .next (bundleGoes s l n t .endl sb 1 (fun x =>
    { x.setLoops r with pc := x.pc + 8 }) (s.lane l).img) := by
  refine (exec_beEndl ..).trans (congrArg Host.Outcome.next (beBundle_go hfits _ _ (fun _ _ _ _ _ _ _ _ => rfl) _ _ ?_))
  rw [endlRes, bundleIn_c1, afterB_loopStack, hstack]
  refine (if_neg (Nat.not_lt.mpr hleft)).trans ?_
  generalize (ctxOf s l n).afterB sb (bundleCycles s l n t .endl 1) = c
  have hpc : (c.setLoops r).pc = c.pc := by
    unfold Ctx.setLoops; split
    · rfl
    · rfl
  rw [Ctx.step, hpc]; rfl
end

/-! Calls -/

/-- What CALLB answers, by the type and the levels that are open. -/
def callbRes (a : AReg) (ty : BitVec 12) (x : BeIn) : BeRes :=
  match findType (typeDefs x.prog) ty.toNat with
  | none => .fail 4 fILLEGAL
  | some t =>
    if 8 ≤ x.c0.frames.length then .fail 4 fDEPTH
    else
      let f : BlockFrame := { typeNo := t.no, ret := x.c0.pc + 8, savedA := x.c1.a, savedV := x.c1.v.filter fun e => decide (16 ≤ e.1) }
      .go { x.c1 with a := (x.c1.a.set 0 (x.c0.a32 a)).set 6 (BitVec.ofNat 32 (aCONST + t.ctab)), pc := t.code,
                      frames := f :: x.c1.frames } x.img
theorem exec_beCallb (l : LaneId) (a : AReg) (ty : BitVec 12) (b : Word) (s : State) : exec (.beCallb l a ty b) s =
    .next (beBundle l (.callb a ty) b (fun _ => 6) (callbRes a ty) s) := rfl

section
variable {a : AReg} {ty : BitVec 12} (hfits : BundleFits s l n prog t (.callb a ty) b sb 6)
include hfits
theorem callb_unknown (hty : findType (typeDefs prog) ty.toNat = none) : Stops s l n t (.callb a ty) 6 fILLEGAL (.beCallb l a ty b) := by
  refine (exec_beCallb ..).trans (congrArg Host.Outcome.next (beBundle_fail hfits _ _ (fun _ _ _ _ _ _ _ _ => rfl) _ ?_))
  rw [callbRes, bundleIn_prog, hty]
variable {y : TypeDef} (hty : findType (typeDefs prog) ty.toNat = some y)
include hty
theorem callb_enters (hdepth : (ctxOf s l n).frames.length < 8) : exec (.beCallb l a ty b) s =
    .next (bundleGoes s l n t (.callb a ty) sb 6 (fun x =>
      { x with a := (x.a.set 0 ((ctxOf s l n).a32 a)).set 6 (BitVec.ofNat 32 (aCONST + y.ctab)), pc := y.code,
               frames := { typeNo := y.no, ret := (ctxOf s l n).pc + 8, savedA := x.a, savedV := x.v.filter fun e => decide (16 ≤ e.1),
                           buf := [], loops := [] } :: x.frames }) (s.lane l).img) := by
  refine (exec_beCallb ..).trans (congrArg Host.Outcome.next (beBundle_go hfits _ _ (fun _ _ _ _ _ _ _ _ => rfl) _ _ ?_))
  rw [callbRes, bundleIn_prog, hty]
  exact if_neg (Nat.not_le.mpr hdepth)
theorem callb_deep (hdepth : 8 ≤ (ctxOf s l n).frames.length) : Stops s l n t (.callb a ty) 6 fDEPTH (.beCallb l a ty b) := by
  refine (exec_beCallb ..).trans (congrArg Host.Outcome.next (beBundle_fail hfits _ _ (fun _ _ _ _ _ _ _ _ => rfl) _ ?_))
  rw [callbRes, bundleIn_prog, hty]
  exact if_pos hdepth
end

/-! END -/

/-- What END answers, by the part that it ends and the cycles left for the commit. -/
def endRes (x : BeIn) : BeRes :=
  if !x.c1.frames.isEmpty then .fail 4 fILLEGAL
  else if x.c0.part ≠ .main then .go { x.c1 with v := [], a := relA, pc := x.t.main, part := .main, loops := [] } x.img
  else
    let e := bufEntries x.c1.tob
    if min x.shotLeft x.windowLeft < e then .fail (if x.shotLeft ≤ x.windowLeft then 1 else 2) 0
    else .done { x.c1 with cyc := x.c1.cyc + e } (commitBuf x.img x.c1.tob)
theorem exec_beEnd (l : LaneId) (b : Word) (s : State) : exec (.beEnd l b) s = .next (beBundle l .endE b (fun _ => 2) endRes s) := rfl

section
variable (hfits : BundleFits s l n prog t .endE b sb 2)
include hfits
theorem end_inside (hframes : (ctxOf s l n).frames ≠ []) : Stops s l n t .endE 2 fILLEGAL (.beEnd l b) := by
  refine (exec_beEnd ..).trans (congrArg Host.Outcome.next (beBundle_fail hfits _ _ (fun _ _ _ _ _ _ _ _ => rfl) _ (if_pos ?_)))
  rw [bundleIn_c1, afterB_frames, Bool.not_eq_true', Bool.eq_false_iff, ne_eq, List.isEmpty_iff]
  exact hframes
variable (hframes : (ctxOf s l n).frames = [])
include hframes
omit hfits in
theorem endRes_outside : endRes (bundleIn s l n prog t .endE sb 2) =
    let x := bundleIn s l n prog t .endE sb 2
    if (ctxOf s l n).part ≠ .main then .go { x.c1 with v := [], a := relA, pc := t.main, part := .main, loops := [] } (s.lane l).img
    else if min x.shotLeft x.windowLeft < bufEntries (ctxOf s l n).tob then .fail (if x.shotLeft ≤ x.windowLeft then 1 else 2) 0
    else .done { x.c1 with cyc := x.c1.cyc + bufEntries (ctxOf s l n).tob } (commitBuf (s.lane l).img (ctxOf s l n).tob) := by
  have htob : (bundleIn s l n prog t .endE sb 2).c1.tob = (ctxOf s l n).tob := slotB_tob ..
  have hno : (bundleIn s l n prog t .endE sb 2).c1.frames = [] := (afterB_frames ..).trans hframes
  rw [endRes, hno, if_neg (by nofun), htob] <;> rfl
theorem end_initial (hpart : (ctxOf s l n).part ≠ .main) : exec (.beEnd l b) s = .next (bundleGoes s l n t .endE sb 2
    (fun x => { x with v := [], a := relA, pc := t.main, part := .main, loops := [] }) (s.lane l).img) := by
  refine (exec_beEnd ..).trans (congrArg Host.Outcome.next (beBundle_go hfits _ _ (fun _ _ _ _ _ _ _ _ => rfl) _ _ ?_))
  rw [endRes_outside hframes]
  exact if_pos hpart
variable (hpart : (ctxOf s l n).part = .main)
include hpart
theorem end_runsOut (hout : t.shot < (ctxOf s l n).cyc + bundleCycles s l n t .endE 2 + bufEntries (ctxOf s l n).tob ∨
      windowCycles s l < (s.lane l).be.used + bundleCycles s l n t .endE 2 + bufEntries (ctxOf s l n).tob) : exec (.beEnd l b) s =
    .next (failPeriod (spendCycles s l n (bundleCycles s l n t .endE 2) t) l n
      (if t.shot - (ctxOf s l n).cyc ≤ windowCycles s l - (s.lane l).be.used then 1 else 2) []) := by
  have hshot := hfits.shot
  have hwin := hfits.fits
  refine (exec_beEnd ..).trans (congrArg Host.Outcome.next (beBundle_runsOut hfits _ _ (fun _ _ _ _ _ _ _ _ => rfl) _ 0 (by split <;> decide) ?_))
  rw [endRes_outside hframes]
  refine (if_neg (not_not.mpr hpart)).trans ((if_pos ?_).trans ?_)
  · simp only [bundleIn]; omega
  · refine congrArg (fun c => BeRes.fail c 0) (if_congr ?_ rfl rfl)
    simp only [bundleIn]; omega
theorem end_commits (hshot : (ctxOf s l n).cyc + bundleCycles s l n t .endE 2 + bufEntries (ctxOf s l n).tob ≤ t.shot)
    (hwin : (s.lane l).be.used + bundleCycles s l n t .endE 2 + bufEntries (ctxOf s l n).tob ≤ windowCycles s l) : exec (.beEnd l b) s =
    .next (endPeriod (s.updLane l fun v => { v with
        img := commitBuf (s.lane l).img (ctxOf s l n).tob
        be := { v.be with used := v.be.used + bundleCycles s l n t .endE 2 + bufEntries (ctxOf s l n).tob } }) l n
      { (ctxOf s l n).afterB sb (bundleCycles s l n t .endE 2) with
          cyc := (ctxOf s l n).cyc + bundleCycles s l n t .endE 2 + bufEntries (ctxOf s l n).tob } t) := by
  refine (exec_beEnd ..).trans (congrArg Host.Outcome.next ((beBundle_done hfits _ _ (fun _ _ _ _ _ _ _ _ => rfl)
    { (ctxOf s l n).afterB sb (bundleCycles s l n t .endE 2) with
          cyc := (ctxOf s l n).cyc + bundleCycles s l n t .endE 2 + bufEntries (ctxOf s l n).tob }
    (commitBuf (s.lane l).img (ctxOf s l n).tob) ?_).trans ?_))
  · rw [endRes_outside hframes]
    refine (if_neg (not_not.mpr hpart)).trans (if_neg ?_)
    simp only [bundleIn]; omega
  · simp only [updBe, updLane_updLane]
    congr 2
    funext v
    congr 2
    omega
end

/-! RETB and ITPL -/

/-- What RETB answers, by the levels that are open. -/
def retbRes (x : BeIn) : BeRes :=
  match x.c1.frames with
  | [] => .fail 4 fILLEGAL
  | f :: r =>
    .go { x.c1 with frames := r, pc := f.ret, a := f.savedA,
                    v := f.savedV.foldl (fun t e => t.set e.1 e.2) (x.c1.v.filter fun e => decide (e.1 < 16)) } (commitBuf x.img f.buf)
theorem exec_beRetb (l : LaneId) (b : Word) (s : State) : exec (.beRetb l b) s =
    .next (noteCommit l s (beBundle l .retb b (fun x => 4 + frameWords x) retbRes s)) := rfl

/-- Outside a block no commit is noted. -/
theorem noteCommit_outside {u : State} (h : ∀ n, runningLevel s l = some n → (ctxOf s l n).frames = []) : noteCommit l s u = u := by
  unfold noteCommit; split
  case h_1 n prog hlevel _ => rw [h n hlevel]
  case h_2 => rfl

section
variable {k : Nat} (hk : k = 4 + frameWords (bundleIn s l n prog t .retb sb 0)) (hfits : BundleFits s l n prog t .retb b sb k)
include hk hfits
omit hfits in
theorem retb_cost (x : BeIn) (hp : x.prog = prog) (hc : x.c0 = ctxOf s l n) : 4 + frameWords x = k := by
  rw [hk]; unfold frameWords; rw [hp, hc] <;> rfl
theorem retb_outside (hframes : (ctxOf s l n).frames = []) : Stops s l n t .retb k fILLEGAL (.beRetb l b) := by
  rw [Stops, exec_beRetb, noteCommit_outside]
  · refine congrArg Host.Outcome.next (beBundle_fail hfits _ _ (fun x _ _ hp _ hc _ _ => retb_cost hk x hp hc) _ ?_)
    rw [retbRes, bundleIn_c1, afterB_frames, hframes]
  · intro m hm
    rw [hfits.level] at hm
    obtain rfl := Option.some.inj hm
    exact hframes
theorem retb_returns {f : BlockFrame} {r : List BlockFrame} (hframes : (ctxOf s l n).frames = f :: r) : exec (.beRetb l b) s =
    .next (noteCommit l s (bundleGoes s l n t .retb sb k (fun x =>
      { x with frames := r, pc := f.ret, a := f.savedA,
               v := f.savedV.foldl (fun t e => t.set e.1 e.2) (x.v.filter fun e => decide (e.1 < 16)) }) (commitBuf (s.lane l).img f.buf))) := by
  rw [exec_beRetb]
  refine congrArg Host.Outcome.next (congrArg (noteCommit l s)
    (beBundle_go hfits _ _ (fun x _ _ hp _ hc _ _ => retb_cost hk x hp hc) _ _ ?_))
  rw [retbRes, bundleIn_c1, afterB_frames, hframes] <;> rfl
end

/-- The span of an ITPL may be restored. -/
def ItplAllowed (s : State) (prog : List Byte) (t : TaskDef) (addr m : Nat) : Prop :=
  m = 0 ∨ (inRanges t.ranges (addr % 2 ^ 28) m = true ∧ hitsHeader prog (addr % 2 ^ 28) m = false ∧ addrOk s addr m = true)

/-- What ITPL answers, by its checks. -/
def itplRes (a : AReg) (count : BitVec 13) (x : BeIn) : BeRes :=
  let n := 8 * count.toNat
  let addr := (x.c0.a32 a).toNat
  if x.c0.part = .main ∨ !x.c0.frames.isEmpty then .fail 4 fILLEGAL
  else if addr / 2 ^ 28 ≠ 0xA ∨ addr % 8 ≠ 0 then .fail 3 addr
  else if n ≠ 0 ∧ (!inRanges x.t.ranges (addr % 2 ^ 28) n || hitsHeader x.prog (addr % 2 ^ 28) n || !addrOk x.s addr n) then .fail 3 addr
  else if 8 + 40 * linesOf addr n ≤ x.room then .go x.c1.step (itplImg x addr n (linesOf addr n))
  else .failImg (if x.byShot then 1 else 2) (itplImg x addr n ((x.room - 8) / 40))
theorem exec_beItpl (l : LaneId) (a : AReg) (count : BitVec 13) (b : Word) (s : State) : exec (.beItpl l a count b) s =
    .next (beBundle l (.itpl a count) b (fun x => 8 + 40 * linesOf (x.c0.a32 a).toNat (8 * count.toNat)) (itplRes a count) s) := rfl

theorem itplDenied_iff (s : State) (prog : List Byte) (t : TaskDef) (addr m : Nat) :
    (m ≠ 0 ∧ (!inRanges t.ranges (addr % 2 ^ 28) m || hitsHeader prog (addr % 2 ^ 28) m || !addrOk s addr m) = true) ↔
      ¬ ItplAllowed s prog t addr m := by
  unfold ItplAllowed
  generalize inRanges t.ranges (addr % 2 ^ 28) m = i
  generalize hitsHeader prog (addr % 2 ^ 28) m = h
  generalize addrOk s addr m = o
  cases i <;> cases h <;> cases o <;> simp

/-- All its lines restore the whole span. -/
theorem itpl_whole (a m : Nat) : min m ((a / 64 + linesOf a m) * 64 - a) = m := by
  unfold linesOf; split
  case isTrue h => omega
  case isFalse h => omega

section
variable {a : AReg} {count : BitVec 13}
variable (hfits : BundleFits s l n prog t (.itpl a count) b sb (8 + 40 * linesOf ((ctxOf s l n).a32 a).toNat (8 * count.toNat)))
include hfits
theorem itpl_illegal (hno : (ctxOf s l n).part = .main ∨ (ctxOf s l n).frames ≠ []) :
    Stops s l n t (.itpl a count) (8 + 40 * linesOf ((ctxOf s l n).a32 a).toNat (8 * count.toNat)) fILLEGAL (.beItpl l a count b) := by
  refine (exec_beItpl ..).trans (congrArg Host.Outcome.next (beBundle_fail hfits _ _ (fun x _ _ _ _ hc _ _ => by rw [hc]) _ (if_pos ?_)))
  obtain h | h := hno
  · exact .inl h
  · exact .inr (by rw [bundleIn_c0]; simpa using h)
variable (hpart : (ctxOf s l n).part ≠ .main) (hframes : (ctxOf s l n).frames = [])
include hpart hframes
omit hfits in
theorem itpl_initial : ¬ ((bundleIn s l n prog t (.itpl a count) sb (8 + 40 * linesOf ((ctxOf s l n).a32 a).toNat (8 * count.toNat))).c0.part = .main ∨
    (!(bundleIn s l n prog t (.itpl a count) sb (8 + 40 * linesOf ((ctxOf s l n).a32 a).toNat (8 * count.toNat))).c0.frames.isEmpty) = true) := by
  rw [bundleIn_c0, hframes]
  exact not_or.mpr ⟨hpart, nofun⟩
theorem itpl_protects (hno : ((ctxOf s l n).a32 a).toNat / 2 ^ 28 ≠ 0xA ∨ ((ctxOf s l n).a32 a).toNat % 8 ≠ 0 ∨
      ¬ ItplAllowed s prog t ((ctxOf s l n).a32 a).toNat (8 * count.toNat)) : exec (.beItpl l a count b) s =
    .next (failPeriod (spendCycles s l n (bundleCycles s l n t (.itpl a count)
        (8 + 40 * linesOf ((ctxOf s l n).a32 a).toNat (8 * count.toNat))) t) l n 3
      (faultPay ((ctxOf s l n).a32 a).toNat (ctxOf s l n).pc)) := by
  refine (exec_beItpl ..).trans (congrArg Host.Outcome.next (beBundle_protects hfits _ _ (fun x _ _ _ _ hc _ _ => by rw [hc]) _ ?_))
  refine (if_neg (itpl_initial hpart hframes)).trans ?_
  by_cases haddr : ((ctxOf s l n).a32 a).toNat / 2 ^ 28 ≠ 0xA ∨ ((ctxOf s l n).a32 a).toNat % 8 ≠ 0
  · exact if_pos haddr
  · exact (if_neg haddr).trans (if_pos ((itplDenied_iff ..).mpr ((or_assoc.mpr hno).resolve_left haddr)))
theorem itpl_restores (harea : ((ctxOf s l n).a32 a).toNat / 2 ^ 28 = 0xA) (halign : ((ctxOf s l n).a32 a).toNat % 8 = 0)
    (hallow : ItplAllowed s prog t ((ctxOf s l n).a32 a).toNat (8 * count.toNat)) : exec (.beItpl l a count b) s =
    .next (bundleGoes s l n t (.itpl a count) sb (8 + 40 * linesOf ((ctxOf s l n).a32 a).toNat (8 * count.toNat))
      (fun x => { x with pc := x.pc + 8 })
      ((s.lane l).img.writeN ((ctxOf s l n).a32 a).toNat ((s.lane l).tmpl.readN ((ctxOf s l n).a32 a).toNat (8 * count.toNat)))) := by
  have hshot := hfits.shot
  have hwin := hfits.fits
  refine (exec_beItpl ..).trans (congrArg Host.Outcome.next (beBundle_go hfits _ _ (fun x _ _ _ _ hc _ _ => by rw [hc]) _ _ ?_))
  refine (if_neg (itpl_initial hpart hframes)).trans ((if_neg (not_or.mpr ⟨not_not.mpr harea, not_not.mpr halign⟩)).trans
    ((if_neg (mt (itplDenied_iff s prog t ((ctxOf s l n).a32 a).toNat (8 * count.toNat)).mp (not_not.mpr hallow))).trans ((if_pos ?_).trans ?_)))
  · simp only [bundleIn]
    unfold bundleCycles at hshot hwin
    omega
  · rw [itplImg, itpl_whole] <;> rfl
end
end

/-- Settles O36: each row by the condition that decides it. -/
theorem blockControl : Obligations.BlockControl := by
  unfold Obligations.BlockControl
  intro s l n prog t b sb v off
  dsimp only
  refine ⟨fun hfits => congrArg Host.Outcome.next (beBundle_go hfits _ _ (fun _ _ _ _ _ _ _ _ => rfl) _ _ rfl),
    fun hfits => ⟨bra_illegal hfits, fun h1 h2 _ => bra_jumps hfits h1 h2, fun _ _ h => absurd trivial h⟩,
    fun hfits => ⟨brz_illegal hfits, fun h1 h2 h => brz_goes hfits h1 h2 _ fun _ => if_pos h, fun h1 h2 h => brz_goes hfits h1 h2 _ fun _ => if_neg h⟩,
    fun hfits => ⟨brnz_illegal hfits, fun h1 h2 h => brnz_goes hfits h1 h2 _ fun _ => if_neg h,
      fun h1 h2 h => brnz_goes hfits h1 h2 _ fun _ => if_pos (not_not.mp h)⟩,
    fun hfits => ⟨loop_unbounded hfits, fun hoff hm => loop_opens hfits hoff hm, fun hoff hm pc hpc => loop_skips hfits hoff hm hpc,
      fun hoff hm hpc => loop_endless hfits hoff hm hpc⟩,
    fun hfits => ⟨endl_outside hfits, fun f r hstack => ⟨endl_again hfits hstack, endl_leaves hfits hstack⟩⟩,
    fun a ty hfits => ⟨callb_unknown hfits, fun y hty => ⟨callb_enters hfits hty, callb_deep hfits hty⟩⟩,
    fun hfits hpart => ⟨fun hframes => end_initial hfits hframes hpart, end_inside hfits⟩⟩

/-- Settles O37: each row by the condition that decides it. -/
theorem blockCommits : Obligations.BlockCommits := by
  unfold Obligations.BlockCommits
  intro s l n prog t b sb
  dsimp only
  refine ⟨fun k hk hfits => ⟨retb_outside hk hfits, fun f r hframes => retb_returns hk hfits hframes⟩,
    fun hfits hpart => ⟨end_inside hfits, fun hframes hout => end_runsOut hfits hframes hpart hout,
      fun hframes hshot hwin => end_commits hfits hframes hpart hshot hwin⟩,
    fun a count hfits => ⟨itpl_illegal hfits, fun hpart hframes hno => itpl_protects hfits hpart hframes hno,
      fun hpart hframes harea halign hallow => itpl_restores hfits hpart hframes harea halign hallow⟩⟩

end Sys2Proof.Machine
end

section
/-! Bundles that do not run (06 R161, R169, R174, R178, R189, R192). -/

namespace Sys2Proof.Machine

variable {s : State} {l : LaneId} {b : Word}

/-- Every arithmetic slot runs the arithmetic bundle of its operation. -/
theorem instr_alu (o : AluOp) (t : Ty) (d s1 : VReg) (s2 : Fin 32) (imm : BitVec 11) :
    ∃ s1' s2' imm', exec ((Slot.alu o t d s1 s2 imm).instr l b) s = .next (beAlu l o t d s1' s2' imm' b s) := by
  cases o <;> exact ⟨_, _, _, rfl⟩
/-- Every row but RETB runs a bundle, whose slot A writes what the slot does. -/
theorem instr_bundle (a : Slot) (ha : a ≠ .retb) :
    ∃ a' cost sa, a'.writes = a.writes ∧ exec (a.instr l b) s = .next (beBundle l a' b cost sa s) := by
  cases a with
  | retb => contradiction
  | alu o t d s1 s2 imm =>
    obtain ⟨s1', s2', imm', he⟩ := instr_alu (l := l) (b := b) (s := s) o t d s1 s2 imm
    exact ⟨.alu o t d s1' s2' imm', _, _, rfl, he⟩
  | nop => exact ⟨.nop, _, _, rfl, rfl⟩
  | ld t v a disp => exact ⟨_, _, _, rfl, exec_beLd ..⟩
  | st t v a disp => exact ⟨_, _, _, rfl, exec_beSt ..⟩
  | lda d a disp => exact ⟨_, _, _, rfl, exec_beLda ..⟩
  | idxc sc d a v bound => exact ⟨.idxc sc d a v bound, _, _, rfl, rfl⟩
  | itpl a count => exact ⟨_, _, _, rfl, exec_beItpl ..⟩
  | bra off => exact ⟨.bra off, _, _, rfl, rfl⟩
  | brz v off => exact ⟨.brz v off, _, _, rfl, rfl⟩
  | brnz v off => exact ⟨.brnz v off, _, _, rfl, rfl⟩
  | loop v bound => exact ⟨.loop v bound, _, _, rfl, rfl⟩
  | endl => exact ⟨_, _, _, rfl, exec_beEndl ..⟩
  | callb a ty => exact ⟨_, _, _, rfl, exec_beCallb ..⟩
  | endE => exact ⟨_, _, _, rfl, exec_beEnd ..⟩
theorem retb_bundle : exec (Slot.retb.instr l b) s = .next (noteCommit l s (beBundle l .retb b (fun x => 4 + frameWords x) retbRes s)) := rfl

section
variable (a : Slot) (cost : BeIn → Nat) (sa : BeIn → BeRes)

theorem beBundle_idle (h : runningLevel s l = none ∨ (s.lane l).be.window = false ∨ (s.lane l).runs = false) :
    beBundle l a b cost sa s = s := by
  unfold beBundle
  split
  case h_1 n prog hlevel _ =>
    have h : (!((s.lane l).be.window && (s.lane l).runs)) = true := by
      obtain h | h | h := h
      · rw [h] at hlevel; nomatch hlevel
      · rw [h]; rfl
      · rw [h, Bool.and_false]; rfl
    split
    · rfl
    · exact if_pos h
  case h_2 => rfl

variable {n : Nat} {prog : List Byte} {t : TaskDef} (hlevel : runningLevel s l = some n) (hprog : s.st.prog = some prog)
  (htask : s.taskDef n = some t) (hwindow : (s.lane l).be.window = true) (hruns : (s.lane l).runs = true)
include hlevel hprog htask hwindow hruns

theorem beBundle_badCode (hcode : (ctxOf s l n).pc ∈ (s.lane l).be.poisonedCode) :
    beBundle l a b cost sa s = taskMemoryError s l n (.code (ctxOf s l n).pc) := by
  unfold beBundle
  simp only [hlevel, hprog, htask, hwindow, hruns, Bool.and_self, Bool.not_true, Bool.false_eq_true, if_false,
    List.contains_iff_mem.mpr hcode, if_true]

variable (hcode : (ctxOf s l n).pc ∉ (s.lane l).be.poisonedCode)
include hcode
theorem beBundle_badSlotB (hb : decodeSlot b = none ∨ (∃ sb, decodeSlot b = some sb ∧ bundleOk a sb = false)) :
    beBundle l a b cost sa s = failPeriod s l n 4 (faultPay fILLEGAL (ctxOf s l n).pc) := by
  have hclean : (s.lane l).be.poisonedCode.contains (ctxOf s l n).pc = false := by simpa using hcode
  unfold beBundle
  obtain hb | ⟨sb, hb, hok⟩ := hb
  · simp only [hlevel, hprog, htask, hwindow, hruns, Bool.and_self, Bool.not_true, Bool.false_eq_true, if_false, hclean, hb]
  · simp only [hlevel, hprog, htask, hwindow, hruns, Bool.and_self, Bool.not_true, Bool.false_eq_true, if_false, hclean, hb, hok,
      Bool.not_false, if_true]

end

section
variable {n : Nat} {prog : List Byte} {t : TaskDef} (hlevel : runningLevel s l = some n) (hprog : s.st.prog = some prog)
  (htask : s.taskDef n = some t) (hwindow : (s.lane l).be.window = true) (hruns : (s.lane l).runs = true)
  (hcode : (ctxOf s l n).pc ∉ (s.lane l).be.poisonedCode)
variable {o : AluOp} {ty : Ty} {d s1 : VReg} {s2 : Fin 32} {imm : BitVec 11} {sb : Slot} (hb : decodeSlot b = some sb)
  (hok : bundleOk (.alu o ty d s1 s2 imm) sb = true)
include hlevel hprog htask hwindow hruns hcode hb hok

theorem beAlu_overruns (hk : t.shot - (ctxOf s l n).cyc < bundleCycles s l n t (.alu o ty d s1 s2 imm) (aluCycles o ty))
    (hfirst : t.shot - (ctxOf s l n).cyc ≤ windowCycles s l - (s.lane l).be.used) :
    beAlu l o ty d s1 s2 imm b s = failPeriod (spendCycles s l n (t.shot - (ctxOf s l n).cyc) t) l n 1 [] := by
  have hclean : (s.lane l).be.poisonedCode.contains (ctxOf s l n).pc = false := by simpa using hcode
  unfold bundleCycles at hk
  unfold beAlu beBundle
  simp only [hlevel, hprog, htask, hwindow, hruns, Bool.and_self, Bool.not_true, Bool.false_eq_true, if_false, hclean, hb, hok, hk, hfirst,
    and_self, if_true]
theorem beAlu_windowEnds (hk : windowCycles s l - (s.lane l).be.used < bundleCycles s l n t (.alu o ty d s1 s2 imm) (aluCycles o ty))
    (hfirst : windowCycles s l - (s.lane l).be.used < t.shot - (ctxOf s l n).cyc) :
    beAlu l o ty d s1 s2 imm b s = spendCycles s l n (windowCycles s l - (s.lane l).be.used) t := by
  have hclean : (s.lane l).be.poisonedCode.contains (ctxOf s l n).pc = false := by simpa using hcode
  unfold bundleCycles at hk
  unfold beAlu beBundle
  simp only [hlevel, hprog, htask, hwindow, hruns, Bool.and_self, Bool.not_true, Bool.false_eq_true, if_false, hclean, hb, hok, hk,
    Nat.not_le.mpr hfirst, and_false, and_self, if_true]
end

/-! A period that has failed is not in progress -/

/-- Level `n` of lane `l` has no period in progress. -/
def Resting (s : State) (l : LaneId) (n : Nat) : Prop := (ctxOf s l n).inPeriod = false

/-- The contexts of every lane are as they were. -/
structure CtxsSame (s t : State) : Prop where
  ctxs : ∀ l, (t.lane l).be.ctxs = (s.lane l).be.ctxs
theorem EnginesSame.ctxs {s t : State} (h : EnginesSame s t) : CtxsSame s t := ⟨fun l => congrArg BlockEngine.ctxs (h l)⟩
theorem Reports.ctxs {s t : State} (h : Reports s t) : CtxsSame s t := h.enginesSame.ctxs
theorem CtxsSame.refl (s : State) : CtxsSame s s := ⟨fun _ => rfl⟩
theorem CtxsSame.trans {s t u : State} (h : CtxsSame s t) (g : CtxsSame t u) : CtxsSame s u := ⟨fun l => (g.ctxs l).trans (h.ctxs l)⟩
theorem CtxsSame.rests {s t : State} (h : CtxsSame s t) {n : Nat} (hr : Resting s l n) : Resting t l n := by
  unfold Resting ctxOf at *; rwa [h.ctxs l]
theorem updLane_ctxs (s : State) (l : LaneId) (f : Lane → Lane) (hf : (f (s.lane l)).be.ctxs = (s.lane l).be.ctxs) :
    CtxsSame s (s.updLane l f) := ⟨fun m => by
  by_cases h : m = l
  · subst h; rw [lane_updLane, hf]
  · rw [lane_updLane_ne _ _ _ _ h]⟩
theorem updBe_ctxs (s : State) (l : LaneId) (f : BlockEngine → BlockEngine) (hf : (f (s.lane l).be).ctxs = (s.lane l).be.ctxs) :
    CtxsSame s (updBe s l f) := updLane_ctxs s l _ hf
theorem updSt_ctxs (s : State) (f : Station → Station) : CtxsSame s (s.updSt f) := ⟨fun m => by rw [lane_updSt]⟩

theorem ctxOf_updCtx (s : State) (l : LaneId) (n : Nat) (f : Ctx → Ctx) : ctxOf (updCtx s l n f) l n = f (ctxOf s l n) := by
  unfold ctxOf updCtx updBe; rw [lane_updLane, Tab.get_set]
theorem ctxOf_updCtx_ne (s : State) (l : LaneId) {m n : Nat} (f : Ctx → Ctx) (h : n ≠ m) : ctxOf (updCtx s l m f) l n = ctxOf s l n := by
  unfold ctxOf updCtx updBe; rw [lane_updLane, Tab.get_set_ne _ _ _ _ _ h]
theorem ctxOf_updCtx_lane (s : State) {l m : LaneId} (k n : Nat) (f : Ctx → Ctx) (h : l ≠ m) : ctxOf (updCtx s m k f) l n = ctxOf s l n := by
  unfold ctxOf updCtx updBe; rw [lane_updLane_ne _ _ _ _ h]
/-- A level that changes to no period in progress, or another that changes at all, leaves a level at rest. -/
theorem updCtx_rests {m : LaneId} {k n : Nat} {f : Ctx → Ctx} (hr : Resting s l n) (hf : l = m → n = k → (f (ctxOf s l n)).inPeriod = false) :
    Resting (updCtx s m k f) l n := by
  unfold Resting
  by_cases hl : l = m
  · subst hl
    by_cases hk : n = k
    · subst hk; rw [ctxOf_updCtx]; exact hf rfl rfl
    · rw [ctxOf_updCtx_ne _ _ _ hk]; exact hr
  · rw [ctxOf_updCtx_lane _ _ _ _ hl]; exact hr

theorem topLevel_inPeriod {n : Nat} (h : topLevel s l = some n) : (ctxOf s l n).inPeriod = true := by
  unfold topLevel at h
  exact (List.find?_some h :)
theorem runningLevel_inPeriod {n : Nat} (h : runningLevel s l = some n) : (ctxOf s l n).inPeriod = true := by
  unfold runningLevel at h
  have hrun : ((ctxOf s l n).phase == .running) = true := (List.find?_some h :)
  rw [Ctx.inPeriod, hrun]; simp
/-- The engine goes over between levels with a period in progress alone. -/
theorem dispatchTask_rests {m : LaneId} {n : Nat} (hr : Resting s l n) : Resting (dispatchTask s m) l n := by
  unfold dispatchTask; split
  · exact hr
  case h_2 k hk =>
    have hnk : l = m → n ≠ k := by
      rintro rfl rfl; rw [Resting, topLevel_inPeriod hk] at hr; nomatch hr
    have hgo (u : State) (hu : Resting u l n) :
        Resting (updBe (updCtx u m k fun c => { c with phase := .running }) m fun b => { b with used := b.used + 8 }) l n := by
      have h := updCtx_rests (f := fun c => { c with phase := .running }) hu fun hl hk => absurd hk (hnk hl)
      exact (updBe_ctxs _ m _ rfl).rests h
    split
    case h_1 j hj =>
      split
      · exact hr
      · refine hgo _ (updCtx_rests hr fun hl hj' => ?_)
        subst hl; subst hj'
        rw [Resting, runningLevel_inPeriod hj] at hr; nomatch hr
    case h_2 => exact hgo s hr
theorem taskEvent_ctxs (s : State) (l : LaneId) (n code : Nat) (pay : List Byte) (limited : Bool) :
    CtxsSame s (taskEvent s l n code pay limited) := by
  unfold taskEvent; split
  · exact (raise_reports ..).ctxs
  · exact .refl s
theorem abandonPeriod_rests {m : LaneId} {n : Nat} (t : TaskDef) (cause : Nat) (p : TaskPhase) (hp : p = .waiting ∨ p = .halted)
    (hr : (m = l ∧ t.level = n) ∨ Resting s l n) : Resting (abandonPeriod s m t cause p) l n := by
  unfold abandonPeriod; extract_lets u
  have hu : Resting u l n := by
    have hphase (c : Ctx) (h : c.phase = p) : c.inPeriod = false := by
      obtain rfl | rfl := hp
      · rw [Ctx.inPeriod, h]; rfl
      · rw [Ctx.inPeriod, h]; rfl
    obtain ⟨rfl, rfl⟩ | hr := hr
    · simp only [u, Resting]; rw [ctxOf_updCtx]; exact hphase _ rfl
    · exact updCtx_rests hr fun _ _ => hphase _ rfl
  exact (updBe_ctxs u m _ rfl).rests hu
theorem haltTask_rests {n : Nat} (t : TaskDef) (cause : Nat) (hr : Resting s l n) : Resting (haltTask s t cause) l n := by
  have hone (s : State) (m : LaneId) (hr : Resting s l n) : Resting
      (if (ctxOf s m t.level).phase == .dormant then s
        else if (ctxOf s m t.level).inPeriod then dispatchTask (abandonPeriod s m t cause .halted) m
        else updCtx s m t.level fun c => { c with phase := .halted }) l n := by
    split
    · exact hr
    · split
      · exact dispatchTask_rests (abandonPeriod_rests t cause .halted (.inr rfl) (.inr hr))
      · exact updCtx_rests hr fun _ _ => rfl
  exact hone _ .b (hone s .a hr)
theorem enterStopped_ctxs (s : State) (cause arg : Nat) : CtxsSame s (enterStopped s cause arg) := by
  by_cases h : s.st.phase = .running
  · exact (updSt_ctxs s _).trans (enterStopped_reports h cause arg).ctxs
  · unfold enterStopped; rw [if_pos (bne_iff_ne.mpr h)]; exact .refl s
theorem toleranceExceeded_rests {m : LaneId} {n : Nat} (t : TaskDef) (cause : Nat) (hr : Resting s l n) :
    Resting (toleranceExceeded s m t cause) l n := by
  unfold toleranceExceeded; split
  · extract_lets u
    have hu : Resting u l n := (taskEvent_ctxs ..).rests hr
    split
    · exact haltTask_rests t cause hu
    · exact (enterStopped_ctxs ..).rests hu
    · exact (updSt_ctxs u _).rests hu
  · exact hr
theorem taskDef_level {n : Nat} {t : TaskDef} (h : s.taskDef n = some t) : t.level = n := by
  unfold State.taskDef at h
  obtain ⟨img, -, hfind⟩ := Option.bind_eq_some_iff.mp h
  exact beq_iff_eq.mp (List.find?_some hfind :)
theorem failPeriod_rests {n : Nat} {t : TaskDef} (cause : Nat) (pay : List Byte) (htask : s.taskDef n = some t) :
    Resting (failPeriod s l n cause pay) l n := by
  unfold failPeriod; rw [htask]
  refine dispatchTask_rests ?_
  have hu : Resting (taskEvent (abandonPeriod s l t cause .waiting) l n cause pay true) l n :=
    (taskEvent_ctxs ..).rests (abandonPeriod_rests t cause .waiting (.inl rfl) (.inl ⟨rfl, taskDef_level htask⟩))
  split
  · exact toleranceExceeded_rests t cause hu
  · exact hu

theorem immediateEnds_ctxs (s : State) (c : EndsCause) (off : Option OffCause) : CtxsSame s (immediateEnds s c off) := by
  unfold immediateEnds
  split
  · exact updSt_ctxs ..
  · split
    · exact .refl s
    · split
      · exact updSt_ctxs ..
      · unfold startEnds; extract_lets sw u
        have hu : CtxsSame s u := updSt_ctxs ..
        have hrise : CtxsSame u (setRise true u) := ⟨fun m => by rw [setRise_lane]⟩
        exact (hu.trans hrise).trans (raise_reports ..).ctxs
theorem restoreWord_ctxs (s : State) (l : LaneId) (a : Nat) : CtxsSame s (restoreWord s l a) := by
  unfold restoreWord; split
  · split
    · exact .refl s
    case h_2 d _ =>
      extract_lets u
      have hu : CtxsSame s u := updLane_ctxs s l _ rfl
      exact hu.trans (noteUnnamed_reports ..).ctxs
  · exact updLane_ctxs s l _ rfl
theorem Tab.get_forall {α : Type} {P : α → Prop} {t : Tab α} {d : α} (i : Nat) (h : ∀ e ∈ t, P e.2) (hd : P d) : P (t.get i d) := by
  induction t with
  | nil => exact hd
  | cons e es ih =>
    unfold Tab.get; split
    · exact h e (.head es)
    · exact ih fun e he => h e (.tail _ he)
theorem goOffline_rests (s : State) (l : LaneId) (c : OffCause) (h : (s.lane l).role ≠ .offline) (n : Nat) : Resting (goOffline s l c) l n := by
  unfold Resting ctxOf
  rw [goOffline_engine c h, Ctx.inPeriod, Tab.get_forall (P := fun c : Ctx => c.phase = .dormant) n (restEngine_rests _).2 rfl]
  rfl
theorem memoryByRole_rests {n : Nat} (site : EccSite) (hr : Resting s l n) : Resting (memoryByRole s l site) l n := by
  have hcode (o : Nat) : CtxsSame s (updBe s l fun b => { b with poisonedCode := b.poisonedCode.filter fun x => x != o / 8 * 8 }) := updBe_ctxs s l _ rfl
  unfold memoryByRole; split
  case h_1 hrole => exact goOffline_rests s l .memory (by rw [hrole]; nofun) n
  case h_2 =>
    split
    · exact (immediateEnds_ctxs ..).rests hr
    · split
      · exact (restoreWord_ctxs ..).rests hr
      · exact (hcode _).rests hr
  case h_3 =>
    split
    · exact (restoreWord_ctxs ..).rests hr
    · exact (hcode _).rests hr
  case h_4 => exact hr

theorem poison_memEvent_st (s : State) (l : LaneId) (site : EccSite) (x n : Nat) :
    (memEvent (poison s l site) l x).taskDef n = s.taskDef n := by
  have h : (memEvent (poison s l site) l x).st.prog = s.st.prog := by
    refine (congrArg Station.prog (raise_reports ..).st :).trans ?_
    unfold poison updBe; rw [updLane_st]
  unfold State.taskDef; rw [h]
theorem taskMemoryError_rests {n : Nat} {t : TaskDef} (site : EccSite) (htask : s.taskDef n = some t) :
    Resting (taskMemoryError s l n site) l n := by
  unfold taskMemoryError
  exact memoryByRole_rests site (failPeriod_rests 5 [] ((poison_memEvent_st ..).trans htask))

/-- A level at rest has made no block commit. -/
theorem noteCommit_rests {u : State} {n : Nat} (hlevel : runningLevel s l = some n) (hr : Resting u l n) : noteCommit l s u = u := by
  unfold noteCommit
  split
  case h_1 m prog hm hprog =>
    rw [hlevel] at hm
    obtain rfl := Option.some.inj hm
    split
    · rfl
    · refine if_neg fun h => ?_
      rw [Bool.and_eq_true] at h
      rw [Resting, Ctx.inPeriod, h.1] at hr
      simp at hr
  case h_2 => rfl
/-- Nothing has been committed where nothing has moved. -/
theorem noteCommit_same : noteCommit l s s = s := by
  unfold noteCommit
  split
  · split
    · rfl
    case h_2 f r hf =>
      refine if_neg fun h => ?_
      rw [Bool.and_eq_true, hf, beq_iff_eq] at h
      exact absurd h.2 (by simp)
  · rfl

/-- Settles O38: every row runs a bundle; after RETB's no commit is noted, for its period is over. -/
theorem bundleStops : Obligations.BundleStops := by
  unfold Obligations.BundleStops
  intro s l b
  dsimp only
  refine ⟨fun a h => ?idle, fun n prog t hlevel hprog htask hwindow hruns =>
    ⟨fun a hcode => ?badCode, fun hcode => ⟨fun a hb => ?badB, fun r hr ty d s1 s2 sb hb hok => ⟨fun hk hfirst => ?shot, fun hk hfirst => ?window⟩⟩⟩⟩
  case idle =>
    by_cases ha : a = .retb
    · rw [ha, retb_bundle, beBundle_idle _ _ _ h, noteCommit_same]
    · obtain ⟨a', cost, sa, -, he⟩ := instr_bundle (s := s) (l := l) (b := b) a ha
      rw [he, beBundle_idle _ _ _ h]
  case badCode =>
    by_cases ha : a = .retb
    · rw [ha, retb_bundle, beBundle_badCode _ _ _ hlevel hprog htask hwindow hruns hcode, noteCommit_rests hlevel (taskMemoryError_rests _ htask)]
    · obtain ⟨a', cost, sa, -, he⟩ := instr_bundle (s := s) (l := l) (b := b) a ha
      rw [he, beBundle_badCode _ _ _ hlevel hprog htask hwindow hruns hcode]
  case badB =>
    by_cases ha : a = .retb
    · subst ha
      rw [retb_bundle, beBundle_badSlotB _ _ _ hlevel hprog htask hwindow hruns hcode hb, noteCommit_rests hlevel (failPeriod_rests _ _ htask)]
    · obtain ⟨a', cost, sa, hw, he⟩ := instr_bundle (s := s) (l := l) (b := b) a ha
      have hok (sb : Slot) : bundleOk a' sb = bundleOk a sb := by rw [bundleOk, bundleOk, hw]
      rw [he, beBundle_badSlotB _ _ _ hlevel hprog htask hwindow hruns hcode (by simpa only [hok] using hb)]
  case shot =>
    rw [exec_alu3 l ty d s1 s2 b s r hr, beAlu_overruns hlevel hprog htask hwindow hruns hcode hb hok hk hfirst]
  case window =>
    rw [exec_alu3 l ty d s1 s2 b s r hr, beAlu_windowEnds hlevel hprog htask hwindow hruns hcode hb hok hk hfirst]

end Sys2Proof.Machine
end

section
/-! Task time and memory errors (06 R155, R161, R169, R173, R174). -/

namespace Sys2Proof.Machine

variable {s : State} {l : LaneId}

theorem exec_scrubberRead (l : LaneId) (addr : Nat) (r : ScrubResult) (s : State) : exec (.scrubberRead l addr r) s = execScrubberRead l addr r s := rfl

/-! The rate limits through a report -/

/-- The rate limits and the staging areas are as they were. -/
structure LimitsSame (s t : State) : Prop where
  limits : t.st.limits = s.st.limits
  staging : ∀ l, (t.lane l).staging = (s.lane l).staging

theorem LimitsSame.refl (s : State) : LimitsSame s s := ⟨rfl, fun _ => rfl⟩
theorem LimitsSame.trans {s t u : State} (h : LimitsSame s t) (g : LimitsSame t u) : LimitsSame s u :=
  ⟨g.limits.trans h.limits, fun l => (g.staging l).trans (h.staging l)⟩
theorem LimitsSame.limitsOf {s t : State} (h : LimitsSame s t) (l : LaneId) : limitsOf t l = limitsOf s l := by
  unfold Sys2Proof.Machine.limitsOf; rw [h.staging, h.limits]
theorem updLane_limits (s : State) (l : LaneId) (f : Lane → Lane) (hf : (f (s.lane l)).staging = (s.lane l).staging) :
    LimitsSame s (s.updLane l f) := ⟨by rw [updLane_st], fun m => by
  by_cases h : m = l
  · subst h; rw [lane_updLane, hf]
  · rw [lane_updLane_ne _ _ _ _ h]⟩
theorem updPart_limits (s : State) (p : Nat) (f : Partition → Partition) : LimitsSame s (s.updPart p f) := ⟨rfl, fun l => by cases l <;> rfl⟩
theorem emit_limits (s : State) (o : Out) : LimitsSame s (s.emit o) := ⟨rfl, fun l => by cases l <;> rfl⟩
theorem foldl_limits {α : Type} {f : State → α → State} (hf : ∀ s x, LimitsSame s (f s x)) (xs : List α) (s : State) :
    LimitsSame s (xs.foldl f s) := by
  induction xs generalizing s with
  | nil => exact .refl s
  | cons x xs ih => exact (hf s x).trans (ih _)
theorem updNet_limits (s : State) (l : LaneId) (f : Net → Net) : LimitsSame s (s.updNet l f) := updLane_limits s l _ rfl
theorem countPort_limits (s : State) (l : LaneId) (portB : Bool) (k : Nat) : LimitsSame s (countPort s l portB k) := updNet_limits s l _
theorem sendBoth_limits (s : State) (l : LaneId) : LimitsSame s (sendBoth s l).2 :=
  (updNet_limits s l _).trans ((countPort_limits ..).trans (countPort_limits ..))
theorem notify_limits (s : State) (p vec : Nat) : LimitsSame s (notify s p vec) := by
  unfold notify; split
  · exact emit_limits ..
  · unfold thlSend; split
    · exact .refl s
    · exact ((updPart_limits s p _).trans (sendBoth_limits ..)).trans (emit_limits ..)
theorem ringPut_limits (s : State) (p : Nat) (e : RingEntry) : LimitsSame s (ringPut s p e) := by
  unfold ringPut; extract_lets q bytes u v
  have hu : LimitsSame s u := by
    simp only [u]; split
    · exact .refl s
    · exact emit_limits ..
  have hv : LimitsSame s v := hu.trans (updPart_limits u p _)
  split
  · exact hv.trans (notify_limits ..)
  · exact hv
theorem deliverEvent_limits (s : State) (e : RingEntry) : LimitsSame s (deliverEvent s e) := by
  refine foldl_limits (fun s p => ?_) _ s
  split
  · unfold offerNonMaskable; extract_lets q
    split
    · split
      · exact (ringPut_limits ..).trans (updPart_limits ..)
      · exact updPart_limits ..
    · exact .refl s
  · unfold offerEvent; extract_lets q
    split
    · split
      · exact ringPut_limits ..
      · exact updPart_limits ..
    · exact .refl s

/-- Recording in the staging area leaves its limits. -/
theorem stageRecord_limits (s : State) (l : LaneId) (r : RawRec) : limitsOf (stageRecord s l r) l = limitsOf s l := by
  have h : ((stageRecord s l r).lane l).staging.active = (s.lane l).staging.active ∧
      ((stageRecord s l r).lane l).staging.limits = (s.lane l).staging.limits ∧ (stageRecord s l r).st = s.st := by
    unfold stageRecord
    rw [lane_updLane, updLane_st]
    extract_lets g
    generalize bucketJudge _ _ _ _ = x
    obtain ⟨ok, n, t⟩ := x
    refine ⟨?_, ?_, rfl⟩
    · dsimp only; split
      · rfl
      · split
        · rfl
        · rfl
    · dsimp only; split
      · rfl
      · split
        · rfl
        · rfl
  unfold limitsOf; rw [h.1, h.2.1, h.2.2]
theorem beginStaging_limits (s : State) (l : LaneId) : limitsOf (beginStaging s l) l = limitsOf s l := by
  unfold beginStaging; split
  · rfl
  case isFalse hoff =>
    extract_lets u d v
    rw [stageRecord_limits, (deliverEvent_limits u _).limitsOf]
    have hu : limitsOf u l = s.st.limits := by
      simp only [limitsOf, u, lane_updLane, if_true]
    rw [hu, limitsOf, if_neg hoff]
theorem offerRecord_limits (s : State) (l : LaneId) (r : RawRec) : limitsOf (offerRecord s l r) l = limitsOf s l := by
  unfold offerRecord; split
  · exact stageRecord_limits ..
  · split
    · exact (stageRecord_limits ..).trans (beginStaging_limits ..)
    · split
      · simp only [limitsOf, lane_updLane, updLane_st]
      · exact LimitsSame.limitsOf ⟨rfl, fun m => by cases m <;> rfl⟩ l
theorem report_limits (s : State) (e : Ev) (n : Nat) : limitsOf (report s e n) e.lane = limitsOf s e.lane := by
  unfold report; extract_lets u
  rw [offerRecord_limits]
  simp only [u]; split
  · exact (deliverEvent_limits ..).limitsOf _
  · rfl
theorem setLimit_limits (s : State) (l : LaneId) (k : Nat) (m : Limit) : limitsOf (setLimit s l k m) l = (limitsOf s l).set k m := by
  unfold setLimit; split
  case isTrue h => simp only [limitsOf, lane_updLane, h, if_true]
  case isFalse h => simp only [limitsOf, lane_updSt, h, updSt_st]; rfl

/-- The limit of an event's object once it has been raised: one more withheld within the second, and none after it. -/
theorem raise_limit {e : Ev} {o : Nat} (ho : e.obj = some o) {k : Nat} (hk : (e.src * 65536 + e.code) * 2 ^ 32 + o % 2 ^ 32 = k) (d : Limit) :
    ((limitsOf (raise s e) e.lane).get k d).withheld =
      match (limitsOf s e.lane).get? k with
      | none => 0
      | some m => if s.grid.mono < m.at_ + 1000000000 then m.withheld + 1 else 0 := by
  unfold raise
  cases hm : (limitsOf s e.lane).get? k with
  | none => simp only [ho, hk, hm]; rw [report_limits, setLimit_limits, Tab.get_set]
  | some m =>
    simp only [ho, hk, hm]
    split
    · rw [setLimit_limits, Tab.get_set]
    · rw [report_limits, setLimit_limits, Tab.get_set]

/-! A corrected error -/

/-- The count of the lane's corrected errors. -/
def corrected (s : State) (l : LaneId) (n : Nat) : State := s.updLane l fun v => { v with be := { v.be with corrections := n } }

/-- The lane's report of its corrected errors: the key of its limit. -/
theorem correction_key (l : LaneId) : (9 * 65536 + 1) * 2 ^ 32 + laneNo l % 2 ^ 32 = (9 * 65536 + 1) * 2 ^ 32 + laneNo l := by
  cases l <;> rfl
/-- The corrected error is counted and its report raised, as often as its limit allows. -/
def correctionRaised (s : State) (l : LaneId) : State :=
  raise (corrected s l ((s.lane l).be.corrections + 1))
    { src := 9, code := 1, data := ((s.lane l).be.corrections + 1) % 2 ^ 32, lane := l, obj := some (laneNo l) }
theorem noteCorrection_eq (s : State) (l : LaneId) : noteCorrection s l =
    if ((limitsOf (correctionRaised s l) l).get ((9 * 65536 + 1) * 2 ^ 32 + laneNo l) ⟨0, 1⟩).withheld = 0 then
      updBe (correctionRaised s l) l fun b => { b with corrections := 0 }
    else correctionRaised s l := by
  cases l <;> rfl
theorem correction_withheld (s : State) (l : LaneId) :
    ((limitsOf (correctionRaised s l) l).get ((9 * 65536 + 1) * 2 ^ 32 + laneNo l) ⟨0, 1⟩).withheld =
      match (limitsOf s l).get? ((9 * 65536 + 1) * 2 ^ 32 + laneNo l) with
      | none => 0
      | some m => if s.grid.mono < m.at_ + 1000000000 then m.withheld + 1 else 0 := by
  have hsame : limitsOf (corrected s l ((s.lane l).be.corrections + 1)) l = limitsOf s l := (updLane_limits s l _ rfl).limitsOf l
  have h := raise_limit (s := corrected s l ((s.lane l).be.corrections + 1))
    (e := { src := 9, code := 1, data := ((s.lane l).be.corrections + 1) % 2 ^ 32, lane := l, obj := some (laneNo l) }) rfl (correction_key l) ⟨0, 1⟩
  have hgrid : (corrected s l ((s.lane l).be.corrections + 1)).grid = s.grid := by unfold corrected; rw [updLane_grid_eq]
  rw [hsame, hgrid] at h
  exact h
theorem correctionRaised_reports (s : State) (l : LaneId) : Reports (corrected s l ((s.lane l).be.corrections + 1)) (correctionRaised s l) :=
  raise_reports ..
theorem noteCorrection_withheld {m : Limit} (hm : (limitsOf s l).get? ((9 * 65536 + 1) * 2 ^ 32 + laneNo l) = some m)
    (hsoon : s.grid.mono < m.at_ + 1000000000) : Reports (corrected s l ((s.lane l).be.corrections + 1)) (noteCorrection s l) := by
  rw [noteCorrection_eq, correction_withheld, hm]
  simp only [hsoon, if_true, Nat.succ_ne_zero, if_false]
  exact correctionRaised_reports s l
theorem noteCorrection_reported (h : ∀ m, (limitsOf s l).get? ((9 * 65536 + 1) * 2 ^ 32 + laneNo l) = some m → m.at_ + 1000000000 ≤ s.grid.mono) :
    Reports (corrected s l 0) (noteCorrection s l) := by
  have hzero : ((limitsOf (correctionRaised s l) l).get ((9 * 65536 + 1) * 2 ^ 32 + laneNo l) ⟨0, 1⟩).withheld = 0 := by
    rw [correction_withheld]
    split
    · rfl
    case h_2 m hm => exact if_neg (Nat.not_lt.mpr (h m hm))
  rw [noteCorrection_eq, if_pos hzero]
  refine Eq.subst (motive := fun u => Reports u _) ?_ ((correctionRaised_reports s l).updLane l fun v => { v with be := { v.be with corrections := 0 } })
  cases l <;> rfl

/-! The rows -/

theorem scrubber_corrects (hruns : (s.lane l).runs = true) (addr : Nat) : exec (.scrubberRead l addr .corrected) s = .next (noteCorrection s l) :=
  if_neg (by rw [hruns]; nofun)

theorem closeWindow_closes (hopen : (s.lane l).be.window = true) : ((closeWindow s l).lane l).be.window = false := by
  unfold closeWindow; extract_lets close u
  have hu : (u.lane l).be.window = false := by simp only [u, updBe, lane_updLane]
  rw [if_neg (by rw [hopen]; nofun)]
  split
  · rw [lane_updSt]; exact hu
  · exact hu

theorem shotClock_fails {n : Nat} {t : TaskDef} (hlevel : runningLevel s l = some n) (htask : s.taskDef n = some t) :
    exec (.shotClockExpired l) s = .next (failPeriod (s.updLane l fun v => { v with be := { v.be with
        ctxs := v.be.ctxs.set n { ctxOf s l n with cyc := t.shot },
        used := v.be.used + (t.shot - (ctxOf s l n).cyc) } }) l n 1 []) := by
  show execShotClockExpired l s = _
  unfold execShotClockExpired
  rw [hlevel]; simp only [htask]
  refine congrArg (fun u => Host.Outcome.next (failPeriod u l n 1 [])) ?_
  simp only [updBe, updCtx, updLane_updLane]
  exact updLane_congr rfl

/-- Settles O39: the corrected error through the limit that its report leaves. -/
theorem taskFaultRows : Obligations.TaskFaultRows := by
  unfold Obligations.TaskFaultRows
  intro s l
  dsimp only
  refine ⟨fun n t hlevel htask => shotClock_fails hlevel htask, fun hno => ?noTask, fun hopen => .mk rfl (closeWindow_closes hopen),
    fun hclosed => ?closed, fun n site hruns hlevel => ?met, fun site hruns hlevel => ?found, fun addr => ?clean, fun addr hruns => ?bad,
    fun addr hruns => ⟨fun m hm hsoon => .mk (scrubber_corrects hruns addr) (noteCorrection_withheld hm hsoon),
      fun m hm hlate => .mk (scrubber_corrects hruns addr) (noteCorrection_reported fun k hk => by rw [hm] at hk; cases hk; exact hlate),
      fun hnone => .mk (scrubber_corrects hruns addr) (noteCorrection_reported fun k hk => by rw [hnone] at hk; nomatch hk)⟩,
    fun hoff => ⟨fun site => if_pos (by rw [hoff]; rfl), fun addr r => if_pos (by rw [hoff]; rfl)⟩⟩
  case noTask =>
    show execShotClockExpired l s = _
    unfold execShotClockExpired; rw [hno]
  case closed => exact congrArg Host.Outcome.next (if_pos (by rw [hclosed]; rfl))
  case met =>
    refine (if_neg (by rw [hruns]; nofun) : execUncorrectableError l site s = _).trans ?_
    rw [hlevel] <;> rfl
  case found =>
    refine (if_neg (by rw [hruns]; nofun) : execUncorrectableError l site s = _).trans ?_
    rw [hlevel]
  case clean =>
    rw [exec_scrubberRead]
    unfold execScrubberRead; split
    · rfl
    · rfl
  case bad => exact if_neg (by rw [hruns]; nofun)

end Sys2Proof.Machine
end

section
/-! The tick edge (05 R125 to R127). -/

namespace Sys2Proof.Machine

/-- Only the mark of a step of station time is cleared at the edge of a START. -/
theorem startEdge_grid (s : State) : (startEdge s).grid = { s.grid with stepped := false } := by
  unfold startEdge; extract_lets u v w x
  have hu : u.grid = s.grid := congrArg Still.grid (still_bothLanes _ _ fun s l => by
    split
    · simp
    · rfl)
  have hv : v.grid = u.grid := by
    simp only [v, bothLanes, updLane_grid_eq]
  have hw : w.grid = v.grid := congrArg Still.grid (still_canStart v .a [8, 9])
  have hx : x.grid = w.grid := rfl
  show { x.grid with stepped := false } = _
  rw [hx, hw, hv, hu]
theorem stationEdge_grid (s : State) : ∃ b, (stationEdge s).grid = { s.grid with stepped := b } := by
  unfold stationEdge; extract_lets t u d v w
  have hu : u.still = s.still := by
    simp only [u]; split
    · exact still_bothLanes _ _ fun s l => still_stopTasks s l
    · rfl
  have hv : v.still = u.still := by
    simp only [v]; split
    · simp [d]
    · rfl
  have hgrid : v.grid = s.grid := congrArg Still.grid (hv.trans hu)
  have hw : w.grid = v.grid ∨ w.grid = { v.grid with stepped := false } := by
    simp only [w]; split
    · exact .inr (startEdge_grid v)
    · exact .inl rfl
  rw [updSt_grid]
  obtain hw | hw := hw
  · exact ⟨s.grid.stepped, by rw [hw, hgrid]⟩
  · exact ⟨false, by rw [hw, hgrid]⟩

/-- The step of station time that an edge takes. -/
def edgeStep (s : State) (l : LaneId) : Option Int :=
  if s.st.phase ≠ .running ∧ s.st.engaged = false ∧ (s.st.stopAt.any fun a => decide (s.grid.tick < a)) = false then (s.lane l).net.step
  else none

/-- What the advance of the grid takes from the state after the step. -/
structure StepTaken (s t : State) (l : LaneId) : Prop where
  cfg : t.st.cfg = s.st.cfg
  grid : t.grid = s.grid
  increment : (t.lane l).net.increment = (s.lane l).net.increment
  src : (t.lane l).clocks.src = (s.lane l).clocks.src

theorem dropStep_taken (s : State) (l m : LaneId) (h : l ≠ m) : StepTaken s (dropStep s m) l := by
  unfold dropStep State.updNet
  have hl : ((s.updLane m fun v => { v with net := { v.net with step := none } }).lane l) = s.lane l := lane_updLane_ne _ _ _ _ h
  exact ⟨by rw [updLane_st], by rw [updLane_grid_eq], by rw [hl], by rw [hl]⟩
theorem takeStep_fst (s : State) (l : LaneId) : (takeStep s l).1 = edgeStep s l := by
  unfold takeStep edgeStep
  cases hstep : (s.lane l).net.step with
  | none => simp
  | some d =>
    by_cases hrun : s.st.phase = .running
    · simp [hrun, State.updNet]
    · cases heng : s.st.engaged
      · cases hstop : s.st.stopAt.any fun a => decide (s.grid.tick < a)
        · simp [hrun, State.updNet]
        · simp [hrun]
      · simp [hrun]
theorem takeStep_taken (s : State) (l : LaneId) : StepTaken s (takeStep s l).2 l := by
  unfold takeStep; split
  · exact ⟨rfl, rfl, rfl, rfl⟩
  · split
    · exact ⟨rfl, rfl, rfl, rfl⟩
    · extract_lets u
      have hu : StepTaken s u l := by
        simp only [u, State.updNet]
        exact ⟨by rw [updLane_st], by rw [updLane_grid_eq], by rw [lane_updLane], by rw [lane_updLane]⟩
      split
      · exact hu
      · have h := raise_reports u { src := 67, code := 1, data := unsigned 32 (‹Int› / 1000), lane := l }
        exact ⟨(congrArg Station.cfg h.st :).trans hu.cfg, h.grid.trans hu.grid,
          (congrArg (fun v => v.net.increment) (h.lane l) :).trans hu.increment, (congrArg (fun v => v.clocks.src) (h.lane l) :).trans hu.src⟩
theorem StepTaken.trans {s t u : State} {l : LaneId} (h : StepTaken s t l) (g : StepTaken t u l) : StepTaken s u l :=
  ⟨g.cfg.trans h.cfg, g.grid.trans h.grid, g.increment.trans h.increment, g.src.trans h.src⟩

theorem StepTaken.lenNs {s t : State} {l : LaneId} (h : StepTaken s t l) : t.lenNs = s.lenNs := by
  have hcfg : t.cfgRecs = s.cfgRecs := by unfold State.cfgRecs; rw [h.cfg]
  have hprofile (a n d : Nat) : t.profile a n d = s.profile a n d := by unfold State.profile State.cfgRec; rw [hcfg]
  unfold State.lenNs State.tickUs; rw [hprofile]

/-- The grid that the edge advances to. -/
def edgeGrid (s : State) (l : LaneId) : Grid :=
  advanceGrid (edgeStep s l) (s.lane l).net.increment ((s.lane l).clocks.src == .rc) s.lenNs s.grid

theorem other_ne (l : LaneId) : l ≠ other l := by cases l <;> decide

/-- Nothing after the advance of the grid moves it, but for the mark that a START clears. -/
theorem tickEdge_grid (skew : Int) {s : State} (htick : ticking s = true) :
    ∃ u b, execTickEdge skew s = .next u ∧ u.grid = { edgeGrid s s.timeLane with stepped := b } := by
  obtain ⟨u, he⟩ : ∃ u, execTickEdge skew s = .next u := ⟨_, rfl⟩
  refine ⟨u, exists_and_left.mpr ⟨he, ?_⟩⟩
  have hu := Host.Outcome.next.inj he
  rw [if_neg (by rw [htick]; nofun)] at hu
  subst hu
  clear he
  extract_lets l was
  have hdrop : (dropStep s (other l)).lane l = s.lane l := by unfold dropStep State.updNet; rw [lane_updLane_ne _ _ _ _ (other_ne l)]
  have hdropst : (dropStep s (other l)).st = s.st := by unfold dropStep State.updNet; rw [updLane_st]
  have hdropgrid : (dropStep s (other l)).grid = s.grid := by unfold dropStep State.updNet; rw [updLane_grid_eq]
  have hd : (takeStep (dropStep s (other l)) l).1 = edgeStep s l := by
    rw [takeStep_fst, edgeStep, edgeStep, hdrop, hdropst, hdropgrid]
  have ht := (dropStep_taken s l (other l) (other_ne l)).trans (takeStep_taken (dropStep s (other l)) l)
  generalize takeStep (dropStep s (other l)) l = x at hd ht
  obtain ⟨d, s1⟩ := x
  dsimp -zeta only at hd ht ⊢
  subst hd
  extract_lets g s2 s3 hold4 s4 s5 s6
  have hg : g = edgeGrid s l := by
    simp only [g, edgeGrid, ht.lenNs, ht.grid, ht.increment, ht.src]
  have h2 : s2.grid = g := by
    simp only [s2]; split
    · rfl
    · exact congrArg Still.grid (still_raiseUnnamed ..)
  have h3 : s3.grid = s2.grid := by
    simp only [s3, bothLanes, updLane_grid_eq]
    exact congrArg Still.grid ((still_partsEdge _).trans (still_lanesDiffer ..))
  have hlevels : (decideRoleAsks (bothLanes keepLevels s3)).grid = s3.grid := by
    refine (congrArg id (still_grid_decideRoleAsks _) :).trans (congrArg Still.grid (still_bothLanes _ _ fun s l => still_keepLevels s l))
  obtain ⟨b, hb⟩ := stationEdge_grid (decideRoleAsks (bothLanes keepLevels s3))
  have h4 : s4.grid = (stationEdge (decideRoleAsks (bothLanes keepLevels s3))).grid := congrArg Still.grid (still_endsEdge _)
  have hcan (s : State) (l : LaneId) : (if (s.lane l).clocks.held = true then s else canEdge s l).still = s.still := by
    split
    · rfl
    · exact still_canEdge s l
  have hgates (s : State) (l : LaneId) : (if (s.lane l).runs = true then gateEdge (freqEdge s l) l else s).still = s.still := by
    split
    · exact (still_gateEdge ..).trans (still_freqEdge ..)
    · rfl
  have h5 : s5.grid = s4.grid := congrArg Still.grid (still_bothLanes _ s4 hcan)
  have h6 : s6.grid = s5.grid := congrArg Still.grid ((still_powerEdge ..).trans (still_batchEdge ..))
  refine ⟨b, ?_⟩
  refine (still_grid_darkEdge _ :).trans ((congrArg Still.grid (still_litEdge _) :).trans ?_)
  refine (congrArg Still.grid (still_bothLanes _ s6 hgates) :).trans ?_
  show s6.grid = _
  rw [h6, h5, h4, hb, hlevels, h3, h2, hg]

/-- Settles O40: the grid advances by the step taken, and no later part of the edge moves it. -/
theorem tickRow : Obligations.TickRow := by
  unfold Obligations.TickRow
  intro s skew
  dsimp only
  refine ⟨fun h => congrArg Host.Outcome.next (if_pos (by rw [h]; rfl)), fun h => ?_⟩
  obtain ⟨u, b, he, hu⟩ := tickEdge_grid skew h
  refine .mk (t := u) he ⟨by rw [hu]; rfl, fun hnone => ?_⟩
  have hg : edgeGrid s s.timeLane = advanceGrid none (s.lane s.timeLane).net.increment ((s.lane s.timeLane).clocks.src == .rc) s.lenNs s.grid := by
    unfold edgeGrid edgeStep; rw [hnone]
  rw [hu, hg]
  exact ⟨rfl, rfl, rfl⟩

end Sys2Proof.Machine
end

section
/-! The swaps and the cut-off (05 R133, R136, R138 to R140, R144; 10 R267, R269). -/

namespace Sys2Proof.Machine

theorem exec_inputSwap (l : LaneId) (s : State) : exec (.inputSwap l) s = execInputSwap l s := rfl
theorem exec_mx1Swap (l : LaneId) (s : State) : exec (.mx1Swap l) s = execMx1Swap l s := rfl
theorem exec_outputCutoff (l : LaneId) (n : Option (Fin 128)) (s : State) : exec (.outputCutoff l n) s = execOutputCutoff l n s := rfl

/-! What a copied range reads as -/

theorem Mem.read_filter (m : Mem) (g : Nat → Bool) (x : Nat) : Mem.read (m.filter fun p => g p.1) x = if g x then m.read x else Mem.empty := by
  induction m with
  | nil => simp [Mem.read]
  | cons e r ih =>
    obtain ⟨k, b⟩ := e
    by_cases hk : k = x
    · subst hk
      cases hg : g k
      · simp [hg, ih]
      · simp [hg, Mem.read]
    · cases hg : g k
      · simp [hg, ih, Mem.read, hk]
      · simp [hg, Mem.read, hk, ih]
theorem Mem.read_absent (m : Mem) (x : Nat) (h : ∀ p ∈ m, p.1 ≠ x) : m.read x = Mem.empty := by
  induction m with
  | nil => rfl
  | cons e r ih =>
    obtain ⟨k, b⟩ := e
    simp [Mem.read, h (k, b) (List.mem_cons_self ..), ih fun p hp => h p (List.mem_cons_of_mem _ hp)]
theorem Mem.read_foldl_absent (ps : List Host.Cell) (m : Mem) (x : Nat) (h : ∀ p ∈ ps, p.1 ≠ x) :
    Mem.read (ps.foldl (fun (acc : Mem) p => acc.write p.1 p.2) m) x = m.read x := by
  induction ps generalizing m with
  | nil => rfl
  | cons e r ih =>
    rw [List.foldl_cons, ih _ fun p hp => h p (List.mem_cons_of_mem _ hp), Mem.read_write_ne _ _ _ _ (h e (List.mem_cons_self ..)).symm]
theorem Mem.read_foldl_write (ps : Mem) (m : Mem) (x : Nat) (hps : ps.wf) (hm : m.wf) (h : ∃ p ∈ ps, p.1 = x) :
    Mem.read (ps.foldl (fun (acc : Mem) p => acc.write p.1 p.2) m) x = ps.read x := by
  induction ps generalizing m with
  | nil => obtain ⟨p, hp, -⟩ := h; nomatch hp
  | cons e r ih =>
    obtain ⟨k, b⟩ := e
    have hr : ∀ p ∈ r, k < p.1 := (List.pairwise_cons.mp hps.1).1
    rw [List.foldl_cons]
    by_cases hk : k = x
    · subst hk
      rw [Mem.read_foldl_absent _ _ _ fun p hp => (hr p hp).ne', Mem.read_write _ _ _ hm]
      simp [Mem.read]
    · have hx : ∃ p ∈ r, p.1 = x := by
        obtain ⟨p, hp, hpx⟩ := h
        obtain rfl | hp := List.mem_cons.mp hp
        · exact absurd hpx hk
        · exact ⟨p, hp, hpx⟩
      rw [ih _ (Mem.wf_tail hps) (Mem.wf_write _ _ _ hm) hx]
      simp [Mem.read, hk]
theorem Mem.read_copyRange_in (m src : Mem) (a n x : Nat) (hm : m.wf) (hsrc : src.wf) (h1 : a ≤ x) (h2 : x < a + n) :
    (m.copyRange src a n).read x = src.read x := by
  have hfilter : Mem.read (src.filter fun p => a ≤ p.1 && p.1 < a + n) x = src.read x :=
    (Mem.read_filter src (fun k => a ≤ k && k < a + n) x).trans (if_pos (by simp [h1, h2]))
  unfold Mem.copyRange
  by_cases h : ∃ p ∈ src.filter (fun p => a ≤ p.1 && p.1 < a + n), p.1 = x
  · rw [Mem.read_foldl_write _ _ _ (Mem.wf_filter _ _ hsrc) (Mem.wf_clear _ _ _ hm) h, hfilter]
  · have habsent : ∀ p ∈ src.filter (fun p => a ≤ p.1 && p.1 < a + n), p.1 ≠ x := fun p hp hpx => h ⟨p, hp, hpx⟩
    rw [Mem.read_foldl_absent _ _ _ habsent, ← hfilter, Mem.read_absent _ _ habsent]
    exact (Mem.read_filter m (fun k => !(a ≤ k && k < a + n)) x).trans (if_neg (by simp [h1, h2]))
theorem Mem.read_copyRange_out (m src : Mem) (a n x : Nat) (h : x < a ∨ a + n ≤ x) : (m.copyRange src a n).read x = m.read x := by
  have hno : (decide (a ≤ x) && decide (x < a + n)) = false := by
    simp only [Bool.and_eq_false_iff, decide_eq_false_iff_not]; omega
  unfold Mem.copyRange
  rw [Mem.read_foldl_absent]
  · exact (Mem.read_filter m (fun k => !(a ≤ k && k < a + n)) x).trans (if_pos (by rw [hno]; rfl))
  · rintro p hp rfl
    have := (List.mem_filter.mp hp).2
    rw [hno] at this; nomatch this

/-! What a swap takes -/

section
variable {t i : Nat} {v : Lane} {a : IslArrived}
theorem takeIsland_good (ha : v.arrived.get? i = some a) (ht : a.frame.tick = t) (hgood : a.good = true) : takeIsland t i v =
    { v with img := v.img.copyRange a.frame.data (islRange i).1 (islRange i).2, linkLost := v.linkLost.set i 0,
             skPdus := if i = skIsl then a.frame.pdus else v.skPdus } := by
  unfold takeIsland
  simp only [ha, Option.filter, ht, BEq.rfl, if_true, hgood]
theorem takeIsland_bad (ha : v.arrived.get? i = some a) (ht : a.frame.tick = t) (hbad : a.good = false) :
    (takeIsland t i v).linkLost.get i 0 = v.linkLost.get i 0 + 1 := by
  unfold takeIsland
  simp only [ha, Option.filter, ht, BEq.rfl, if_true, hbad, Bool.false_eq_true, if_false, Tab.get_set]
theorem takeIsland_missing (h : ∀ a, v.arrived.get? i = some a → a.frame.tick ≠ t) :
    (takeIsland t i v).linkLost.get i 0 = v.linkLost.get i 0 + 1 := by
  have hnone : ((v.arrived.get? i).filter fun a => a.frame.tick == t) = none := by
    cases ha : v.arrived.get? i with
    | none => rfl
    | some a => simp [Option.filter, h a ha]
  unfold takeIsland
  simp only [hnone, Tab.get_set]
end

/-- Settles O42: the copied range through `Mem.read_copyRange_in` and `_out`. -/
theorem swapTakesFrame : Obligations.SwapTakesFrame := by
  unfold Obligations.SwapTakesFrame
  intro t i v hwf
  refine ⟨fun a ha ht hdata => ⟨fun hgood => ?_, fun hbad => takeIsland_bad ha ht hbad⟩, takeIsland_missing⟩
  rw [takeIsland_good ha ht hgood]
  exact ⟨fun x h1 h2 => Mem.read_copyRange_in _ _ _ _ _ hwf hdata h1 h2, fun x h => Mem.read_copyRange_out _ _ _ _ _ h, Tab.get_set ..⟩

/-! The rows -/

section
variable {s : State} {l : LaneId}

theorem judgeHeartbeat_tracks (s : State) (l : LaneId) : tracks ((judgeHeartbeat s l).lane l) = tracks (s.lane l) := by
  unfold judgeHeartbeat tracks; extract_lets last v here dark; rw [lane_updLane]
theorem updCtx_window (s : State) (l : LaneId) (n : Nat) (f : Ctx → Ctx) : ((updCtx s l n f).lane l).be.window = (s.lane l).be.window := by
  unfold updCtx updBe; rw [lane_updLane]
theorem dispatchTask_window (s : State) (l : LaneId) : ((dispatchTask s l).lane l).be.window = (s.lane l).be.window := by
  have hgo (u : State) (n : Nat) : ((updBe (updCtx u l n fun c => { c with phase := .running }) l fun b => { b with used := b.used + 8 }).lane l).be.window =
      (u.lane l).be.window := by
    unfold updBe; rw [lane_updLane]; exact updCtx_window ..
  unfold dispatchTask; split
  · rfl
  · split
    · split
      · rfl
      · exact (hgo _ _).trans (updCtx_window ..)
    · exact hgo _ _
theorem releaseTasks_window (s : State) (l : LaneId) (mx : Bool) : ((releaseTasks s l mx).lane l).be.window = (s.lane l).be.window := by
  have hfold (ts : List TaskDef) (s : State) : ((ts.foldl (fun s t =>
      if t.readsMx == mx && selects t s.grid.tick && (ctxOf s l t.level).phase == .waiting then updCtx s l t.level (releaseCtx t) else s) s).lane l).be.window =
      (s.lane l).be.window := by
    induction ts generalizing s with
    | nil => rfl
    | cons t ts ih =>
      refine (ih _).trans ?_
      dsimp only
      split
      · exact updCtx_window ..
      · rfl
  exact (dispatchTask_window ..).trans (hfold ..)
theorem openWindow_opens (s : State) (l : LaneId) : ((openWindow s l).lane l).be.window = true := by
  unfold openWindow; rw [releaseTasks_window]; unfold updBe; rw [lane_updLane]

/-- The state of a lane that tracks once its input swap has written what it takes. -/
def swapWritten (s : State) (l : LaneId) : State :=
  let t := s.grid.tick
  writeSys (canSwaps (flowSwaps (regainToken (((judgeSnapshot (judgeHeartbeat (s.updLane l fun v => { v with swapTick := some t }) l) l).updLane l
    (countReint t)).updLane l fun v => [0, 1, 2, 3, 4, 6].foldl (fun v i => takeIsland t i v) v) l) l) l) l
/-- The patches that are due and the token of a change of ends, before the window opens. -/
def swapDues (s : State) (l : LaneId) (t : Nat) : State :=
  let s := if s.st.stopAt = some (t + 1) then s else applyPatches s l
  if s.st.ends.s = some t ∧ s.st.ends.confirmed = true ∧ (s.lane l).role = .standby then askToken s l .ends else s

variable (hruns : (s.lane l).runs = true)
include hruns
theorem runs_running : (s.lane l).phase = .running := by
  rw [Lane.runs, Bool.and_eq_true, beq_iff_eq] at hruns; exact hruns.1
theorem not_parked_of_runs : (s.lane l).phase ≠ .parked := by rw [runs_running hruns]; nofun

section
variable (hfirst : (s.lane l).swapTick ≠ some s.grid.tick)
include hfirst
theorem inputSwap_first : execInputSwap l s = .next
    (if !tracks ((judgeHeartbeat (s.updLane l fun v => { v with swapTick := some s.grid.tick }) l).lane l) then
      judgeHeartbeat (s.updLane l fun v => { v with swapTick := some s.grid.tick }) l
    else openWindow (swapDues (swapWritten s l) l s.grid.tick) l) := by
  unfold execInputSwap
  refine congrArg Host.Outcome.next ((if_neg (not_parked_of_runs hruns)).trans ((if_neg ?_).trans rfl))
  rw [hruns]; exact not_or.mpr ⟨nofun, hfirst⟩
theorem inputSwap_same (ht : tracks (s.lane l) = false) :
    execInputSwap l s = .next (judgeHeartbeat (s.updLane l fun v => { v with swapTick := some s.grid.tick }) l) := by
  rw [inputSwap_first hruns hfirst, judgeHeartbeat_tracks, lane_updLane]
  exact congrArg Host.Outcome.next (if_pos (congrArg not ht :))
theorem inputSwap_opens (ht : tracks (s.lane l) = true) : execInputSwap l s = .next (openWindow (swapDues (swapWritten s l) l s.grid.tick) l) := by
  rw [inputSwap_first hruns hfirst, judgeHeartbeat_tracks, lane_updLane]
  refine congrArg Host.Outcome.next (if_neg ?_)
  rw [show tracks { s.lane l with swapTick := some s.grid.tick } = true from ht]; nofun
end

theorem mx1Swap_takes (ht : tracks (s.lane l) = true) (hswap : (s.lane l).swapTick = some s.grid.tick) (hmx : (s.lane l).mxTick ≠ some s.grid.tick) :
    execMx1Swap l s = .next (let u := s.updLane l fun v => { takeIsland s.grid.tick mxIsl v with mxTick := some s.grid.tick }
      if !(u.lane l).be.window then u
      else releaseTasks (updBe u l fun b => { b with used := max b.used (tSsiOf u.cfgRecs * opMHz (u.lane l).opp.op / 1000) }) l true) := by
  unfold execMx1Swap
  refine congrArg Host.Outcome.next ((if_neg ?_).trans rfl)
  rw [hruns, ht, hswap]
  exact not_or.mpr ⟨nofun, not_or.mpr ⟨nofun, not_or.mpr ⟨not_not.mpr rfl, hmx⟩⟩⟩

theorem cutoff_first (hfirst : (s.lane l).frozenTick ≠ some s.grid.tick) :
    ¬ ((s.lane l).runs = false ∨ (s.lane l).frozenTick = some s.grid.tick) := by
  rw [hruns]; exact not_or.mpr ⟨nofun, hfirst⟩
end

theorem takeIsland_be (t i : Nat) (v : Lane) : (takeIsland t i v).be = v.be ∧ (takeIsland t i v).opp = v.opp := by
  unfold takeIsland; dsimp only; split
  · split
    · exact ⟨rfl, rfl⟩
    · exact ⟨rfl, rfl⟩
  · exact ⟨rfl, rfl⟩

/-- Settles O41: the input swap of a lane that tracks ends with the window opened; the other rows by their conditions. -/
theorem swapRows : Obligations.SwapRows := by
  unfold Obligations.SwapRows
  intro s l
  dsimp only
  refine ⟨fun hparked => congrArg Host.Outcome.next (if_pos hparked),
    fun hparked hno => congrArg Host.Outcome.next ((if_neg hparked).trans (if_pos hno)),
    fun hruns hfirst => ⟨fun ht => inputSwap_same hruns hfirst ht, fun ht => .mk (inputSwap_opens hruns hfirst ht) (openWindow_opens ..),
      fun ht hstop hends => ?dues⟩, fun hno => congrArg Host.Outcome.next (if_pos hno), fun hruns ht hswap hmx => ?mx,
    fun n hno => congrArg Host.Outcome.next (if_pos hno), fun n hruns hfirst => ⟨fun ht => ?alone, fun ht => ?cutoff⟩⟩
  case dues =>
    refine (exec_inputSwap l s).trans ((inputSwap_opens hruns hfirst ht).trans (congrArg (fun u => Host.Outcome.next (openWindow u l)) ?_))
    unfold swapDues; extract_lets u
    have hu : u = swapWritten s l := if_pos hstop
    rw [hu]
    exact if_neg fun h => by rw [show (swapWritten s l).st.ends.s = none from hends] at h; nomatch h.1
  case mx =>
    have h := (exec_mx1Swap l s).trans (mx1Swap_takes hruns ht hswap hmx)
    extract_lets u at h
    obtain ⟨hbe, hopp⟩ := takeIsland_be s.grid.tick mxIsl (s.lane l)
    have hwindow : (u.lane l).be.window = (s.lane l).be.window := by simp only [u, lane_updLane, hbe]
    have hop : (u.lane l).opp = (s.lane l).opp := by simp only [u, lane_updLane, hopp]
    have hcfg : u.cfgRecs = s.cfgRecs := by simp only [u, State.cfgRecs, updLane_st]
    rw [hwindow, hop, hcfg] at h
    refine ⟨fun hclosed => ?_, fun hopen => ?_⟩
    · rw [h, hclosed]; rfl
    · rw [h, hopen]; rfl
  case alone =>
    exact congrArg Host.Outcome.next ((if_neg (cutoff_first hruns hfirst)).trans (if_pos (by rw [ht]; rfl)))
  case cutoff =>
    exact congrArg Host.Outcome.next ((if_neg (cutoff_first hruns hfirst)).trans (if_neg (by rw [ht]; nofun)))

end Sys2Proof.Machine
end

section
/-! Islands at their edge, their frames and the lanes' updates (01 R26 to R31; 05 R129, R130, R140; 10 R273). -/

namespace Sys2Proof.Machine

theorem exec_islandEdge (i : Isl) (d : FieldSample) (s : State) : exec (.islandEdge i d) s = execIslandEdge i d s := rfl
theorem exec_islandInputFrame (i : Isl) (l : LaneId) (ok : Bool) (s : State) :
    exec (.islandInputFrame i l ok) s = execIslandInputFrame i l ok s := rfl
theorem exec_islandOutputFrame (i : Isl) (l : LaneId) (ok late : Bool) (s : State) :
    exec (.islandOutputFrame i l ok late) s = execIslandOutputFrame i l ok late s := rfl

variable {s : State} {i : Isl} {l : LaneId}

/-! The frame of an edge -/

theorem islandEdge_sends (d : FieldSample) (h : (s.island i.val).powered = true) :
    ∃ u m ps, execIslandEdge i d s = .next (sendFrame u i.val m ps) := by
  unfold execIslandEdge
  rw [if_neg (by rw [h]; nofun)]
  by_cases hsk : i.val = skIsl
  · rw [if_pos hsk, hsk]; exact ⟨_, _, _, rfl⟩
  · rw [if_neg hsk]; exact ⟨_, _, _, rfl⟩
theorem sendFrame_frame (u : State) (k : Nat) (m : Mem) (ps : Tab (List Byte)) : ∃ f, ((sendFrame u k m ps).island k).frame = some f ∧
    f.tick = u.grid.tick ∧ f.holder = ((sendFrame u k m ps).island k).holder ∧ f.epoch = ((sendFrame u k m ps).island k).epoch := by
  unfold sendFrame; rw [island_updIsl]; exact ⟨_, rfl, rfl, rfl, rfl⟩
theorem islandEdge_frame (d : FieldSample) (h : (s.island i.val).powered = true) : Gives (.islandEdge i d) s fun t =>
    ∃ f, (t.island i.val).frame = some f ∧ f.tick = s.grid.tick ∧ f.holder = (t.island i.val).holder ∧ f.epoch = (t.island i.val).epoch := by
  obtain ⟨u, m, ps, he⟩ := islandEdge_sends d h
  obtain ⟨f, hf, htick, hholder, hepoch⟩ := sendFrame_frame u i.val m ps
  have hgrid : (sendFrame u i.val m ps).grid = s.grid := by
    have hstay := exec_stays_grid (i := .islandEdge i d) rfl s
    rw [exec_islandEdge, he] at hstay
    exact hstay
  refine .mk (t := sendFrame u i.val m ps) ((exec_islandEdge ..).trans he) ⟨f, hf, ?_, hholder, hepoch⟩
  rw [htick, ← hgrid]; rfl

/-! An input frame on a lane's link -/

/-- The lane takes the frame now: it runs, the island has power, and the frame is of this edge and before its swap. -/
def FrameTaken (s : State) (i : Isl) (l : LaneId) (f : IslFrame) : Prop :=
  (s.lane l).runs = true ∧ (s.island i.val).powered = true ∧ f.tick = s.grid.tick ∧ swapDone s l i.val = false

section
variable {f : IslFrame} (hf : (s.island i.val).frame = some f)
include hf

theorem inputFrame_late (h : ¬ FrameTaken s i l f) (ok : Bool) : execIslandInputFrame i l ok s = .next s := by
  unfold execIslandInputFrame
  simp only [hf]
  refine congrArg Host.Outcome.next (if_pos ?_)
  unfold FrameTaken at h
  by_contra hno
  refine h ?_
  simpa [not_or] using hno

variable (ht : FrameTaken s i l f)
include ht
omit hf in
theorem frameTaken_not : ¬ ((s.lane l).runs = false ∨ (s.island i.val).powered = false ∨ f.tick ≠ s.grid.tick ∨ swapDone s l i.val = true) := by
  obtain ⟨hruns, hpow, htick, hswap⟩ := ht
  rw [hruns, hpow, htick, hswap]
  simp
theorem inputFrame_good : execIslandInputFrame i l true s = .next (if i.val = skIsl then s.updLane l fun v => takeFrame v l i.val f
    else frameToken (s.updLane l fun v => takeFrame v l i.val f) l i.val f) := by
  unfold execIslandInputFrame
  simp only [hf]
  exact congrArg Host.Outcome.next (if_neg (frameTaken_not ht))
theorem inputFrame_bad : execIslandInputFrame i l false s = .next (s.updLane l fun v =>
    { v with linkCnt := bump v.linkCnt (8 * i.val + 1) 1,
             arrived := match v.arrived.get? i.val with
               | some a => if a.good ∧ a.frame.tick = f.tick then v.arrived else v.arrived.set i.val ⟨f, false⟩
               | none => v.arrived.set i.val ⟨f, false⟩ }) := by
  unfold execIslandInputFrame
  simp only [hf]
  exact congrArg Host.Outcome.next (if_neg (frameTaken_not ht))
end

/-- A good frame counted and held moves the token state of no lane. -/
theorem takeFrame_token (v : Lane) (l : LaneId) (k : Nat) (f : IslFrame) :
    (takeFrame v l k f).role = v.role ∧ (takeFrame v l k f).tok = v.tok ∧ (takeFrame v l k f).arrived = v.arrived.set k ⟨f, true⟩ :=
  ⟨rfl, rfl, rfl⟩

/-- The frame shows that the lane has lost the token to the other. -/
def Deposes (s : State) (l : LaneId) (f : IslFrame) : Prop :=
  runsRole (s.lane l).role = true ∧ f.holder = some (other l) ∧ endsPassing s = false

/-- What a frame tells a lane of the grant that it forwards. -/
def frameGrant (s : State) (l : LaneId) (k : Nat) (f : IslFrame) : State :=
  match (s.lane l).tok.grant with
  | none => s
  | some g =>
    if f.holder = some l then
      let shows (k : Nat) : Bool := !(s.island k).powered || ((s.lane l).arrived.get? k).any fun a => a.frame.holder == some l
      s.updLane l fun v => { v with tok := { v.tok with
        missing := v.tok.missing.filter fun m => m != k,
        grant := if tokenIslands.all fun m => m == k || shows m then none else some g } }
    else if g.edge ≤ f.tick ∧ (s.lane l).tok.missing.contains k = false then
      redEvent (s.updLane l fun v => { v with tok := { v.tok with missing := v.tok.missing ++ [k] } }) l 35 3 (leBytes k 1)
    else s

section
variable {k : Nat} {f : IslFrame}

theorem frameToken_deposes (h : Deposes s l f) : frameToken s l k f = goOffline s l .deposed := if_pos h
variable (h : ¬ Deposes s l f)
include h
theorem frameToken_grant : frameToken s l k f = frameGrant s l k f := if_neg h
theorem frameToken_idle (hg : (s.lane l).tok.grant = none) : frameToken s l k f = s := by
  rw [frameToken_grant h, frameGrant, hg]
variable {g : Grant} (hg : (s.lane l).tok.grant = some g)
include hg
theorem frameToken_shows (hf : f.holder = some l) : k ∉ ((frameToken s l k f).lane l).tok.missing ∧
    ((frameToken s l k f).lane l).arrived = (s.lane l).arrived := by
  have he : ∃ gr, frameToken s l k f = s.updLane l fun v => { v with tok := { v.tok with
      missing := v.tok.missing.filter fun m => m != k, grant := gr } } := by
    rw [frameToken_grant h, frameGrant, hg]; exact ⟨_, if_pos hf⟩
  obtain ⟨gr, he⟩ := he
  rw [he, lane_updLane]
  exact ⟨by simp, rfl⟩
variable (hf : f.holder ≠ some l)
include hf
theorem frameToken_early (hno : f.tick < g.edge ∨ k ∈ (s.lane l).tok.missing) : frameToken s l k f = s := by
  rw [frameToken_grant h, frameGrant, hg]
  refine (if_neg hf).trans (if_neg ?_)
  rintro ⟨hle, hmiss⟩
  obtain hlt | hin := hno
  · omega
  · rw [List.contains_iff_mem.mpr hin] at hmiss; nomatch hmiss
theorem frameToken_misses (hle : g.edge ≤ f.tick) (hnew : k ∉ (s.lane l).tok.missing) :
    Reports (s.updLane l fun v => { v with tok := { v.tok with missing := v.tok.missing ++ [k] } }) (frameToken s l k f) := by
  have he : frameToken s l k f = redEvent (s.updLane l fun v => { v with tok := { v.tok with missing := v.tok.missing ++ [k] } }) l 35 3 (leBytes k 1) := by
    rw [frameToken_grant h, frameGrant, hg]
    exact (if_neg hf).trans (if_pos ⟨hle, by simpa using hnew⟩)
  rw [he]; exact redEvent_reports ..
end

/-! An output frame of a lane -/

/-- SK-1 holds the frame as the lane's newest. -/
def skTakes (s : State) (l : LaneId) : State :=
  match l with
  | .a => s.updSk fun k => { k with rxA := some (skFrame s .a k.rxA) }
  | .b => s.updSk fun k => { k with rxB := some (skFrame s .b k.rxB) }

section
variable (hpow : (s.island i.val).powered = true) (hsend : sendsOutput s l = true)
include hpow hsend

theorem outputFrame_sent (ok late : Bool) : execIslandOutputFrame i l ok late s = .next
    (if !ok then s.updIsl i.val fun x => countLink x l 0
    else if i.val = skIsl then
      if late || (s.lane l).frozenTick != some s.grid.tick then s.updIsl i.val fun x => countLink x l 2
      else if runsRole (s.lane l).role = false then s
      else skTakes s l
    else if (s.island i.val).holder ≠ some l then s.updIsl i.val fun x => countLink x l 1
    else if late || (s.lane l).frozenTick != some s.grid.tick then s.updIsl i.val fun x => countLink x l 2
    else acceptUpdate s i.val l) := by
  have hgo : ¬ ((s.island i.val).powered = false ∨ sendsOutput s l = false) := by rw [hpow, hsend]; simp
  cases l
  · exact congrArg Host.Outcome.next (if_neg hgo)
  · exact congrArg Host.Outcome.next (if_neg hgo)
end

/-- The late frame, as the model's guard reads it. -/
theorem late_iff (late : Bool) :
    (late || (s.lane l).frozenTick != some s.grid.tick) = true ↔ (late = true ∨ (s.lane l).frozenTick ≠ some s.grid.tick) := by
  rw [Bool.or_eq_true, bne_iff_ne]

theorem acceptUpdate_latches (s : State) (k : Nat) (l : LaneId) :
    ((acceptUpdate s k l).island k).latched = some (latchOf s l ((s.island k).baseline == some l)) ∧
    ((acceptUpdate s k l).island k).baseline = none ∧ ((acceptUpdate s k l).island k).accNext = true := by
  unfold acceptUpdate; extract_lets x kk
  generalize (if k = s.st.referee then announceRelease s l x else (x, none)) = r
  obtain ⟨y, refused⟩ := r
  dsimp only
  cases refused with
  | none => dsimp only; rw [island_updIsl]; exact ⟨rfl, rfl, rfl⟩
  | some w => dsimp only; rw [island_updLane, island_updIsl]; exact ⟨rfl, rfl, rfl⟩

/-- Settles O43: a frame of the edge through `sendFrame`, an input frame through `frameToken`, an output frame by its guards. -/
theorem islandRows : Obligations.IslandRows := by
  unfold Obligations.IslandRows
  intro s i l
  dsimp only
  refine ⟨fun d hoff => congrArg Host.Outcome.next (if_pos hoff), fun d hpow => islandEdge_frame d hpow,
    fun hdue => congrArg Host.Outcome.next (if_pos hdue), fun hno => congrArg Host.Outcome.next (if_neg hno),
    fun ns => ⟨fun hpow hruns => ?marker, fun hno => congrArg Host.Outcome.next (if_pos hno)⟩, fun ok hnone => ?noFrame,
    fun f hf => ⟨fun hlate ok => inputFrame_late hf hlate ok, fun ht => ⟨?bad, fun hsk => ?sk, fun hsk hdep => ?deposes, fun hsk hdep => ?token⟩⟩,
    fun ok late hno => congrArg Host.Outcome.next (if_pos hno),
    fun hpow hsend => ⟨fun late => outputFrame_sent hpow hsend false late, fun hsk hholder late => ?denied, fun hor late hlate => ?late,
      fun hsk hholder hintime => ?latched, fun hsk hintime => ⟨fun hrole => ?skIdle, fun hrole => ?skTakes⟩⟩⟩
  case marker =>
    refine congrArg Host.Outcome.next (if_neg ?_)
    rw [hpow, hruns]; simp
  case noFrame =>
    rw [exec_islandInputFrame]
    unfold execIslandInputFrame; simp only [hnone]
  case bad =>
    refine .mk ((exec_islandInputFrame ..).trans (inputFrame_bad hf ht)) ?_
    rw [lane_updLane]
    refine ⟨rfl, rfl, ?_, fun hnew => ?_⟩
    · rintro ⟨a, ha, hgood, htick⟩
      dsimp only
      rw [ha]
      exact if_pos ⟨hgood, htick⟩
    · dsimp only
      cases ha : (s.lane l).arrived.get? i.val with
      | none => exact Tab.get?_set ..
      | some a => dsimp only; rw [if_neg fun h => hnew ⟨a, ha, h.1, h.2⟩]; exact Tab.get?_set ..
  case sk => rw [exec_islandInputFrame, inputFrame_good hf ht, if_pos hsk]
  case deposes =>
    rw [exec_islandInputFrame, inputFrame_good hf ht, if_neg hsk, frameToken_deposes]
    unfold Deposes endsPassing; rw [lane_updLane, updLane_st, updLane_grid_eq]; exact hdep
  case token =>
    have hin := (exec_islandInputFrame i l true s).trans ((inputFrame_good hf ht).trans (congrArg Host.Outcome.next (if_neg hsk)))
    have hd : ¬ Deposes (s.updLane l fun v => takeFrame v l i.val f) l f := by
      unfold Deposes endsPassing; rw [lane_updLane, updLane_st, updLane_grid_eq]; exact hdep
    have htok : ((s.updLane l fun v => takeFrame v l i.val f).lane l).tok = (s.lane l).tok := by rw [lane_updLane]; rfl
    refine ⟨fun hg => ?_, fun g hg hholder hno => ?_, fun g hg hholder hle hnew => ?_, fun g hg hholder => ?_⟩
    · rw [hin, frameToken_idle hd (htok ▸ hg)]
    · rw [hin, frameToken_early hd (htok ▸ hg) hholder (htok ▸ hno)]
    · exact .mk hin (frameToken_misses hd (htok ▸ hg) hholder hle (htok ▸ hnew))
    · exact .mk hin (frameToken_shows hd (htok ▸ hg) hholder)
  case denied =>
    rw [exec_islandOutputFrame, outputFrame_sent hpow hsend]
    exact congrArg Host.Outcome.next ((if_neg nofun).trans ((if_neg hsk).trans (if_pos hholder)))
  case late =>
    rw [exec_islandOutputFrame, outputFrame_sent hpow hsend]
    refine congrArg Host.Outcome.next ((if_neg nofun).trans ?_)
    by_cases hsk : i.val = skIsl
    · exact (if_pos hsk).trans (if_pos ((late_iff late).mpr hlate))
    · exact (if_neg hsk).trans ((if_neg (not_not.mpr (hor.resolve_left hsk))).trans (if_pos ((late_iff late).mpr hlate)))
  case latched =>
    refine .mk (t := acceptUpdate s i.val l) ((exec_islandOutputFrame ..).trans ((outputFrame_sent hpow hsend true false).trans ?_)) (acceptUpdate_latches ..)
    exact congrArg Host.Outcome.next ((if_neg nofun).trans ((if_neg hsk).trans ((if_neg (not_not.mpr hholder)).trans
      (if_neg (mt (late_iff false).mp hintime)))))
  case skIdle =>
    rw [exec_islandOutputFrame, outputFrame_sent hpow hsend]
    exact congrArg Host.Outcome.next ((if_neg nofun).trans ((if_pos hsk).trans ((if_neg (mt (late_iff false).mp hintime)).trans (if_pos hrole))))
  case skTakes =>
    rw [exec_islandOutputFrame, outputFrame_sent hpow hsend]
    refine congrArg Host.Outcome.next ((if_neg nofun).trans ((if_pos hsk).trans ((if_neg (mt (late_iff false).mp hintime)).trans
      ((if_neg (by rw [hrole]; nofun)).trans ?_))))
    cases l <;> rfl

end Sys2Proof.Machine
end

section
/-! Field supplies, and the rows of the field islands (13 R350, R353; 14 R362, R364, R368, R371 to R379; 15 R400; 20 R490). -/

namespace Sys2Proof.Machine

variable {s : State}


theorem groupEvent_reports (s : State) (i g code : Nat) : Reports s (groupEvent s i g code) := raise_reports ..
theorem skEvent_reports (s : State) (src code obj : Nat) (pay : List Byte) (limited : Bool) : Reports s (skEvent s src code obj pay limited) :=
  raise_reports ..

/-! Field supplies -/

section
variable {dio2 : Bool} {g : Fin 4} {low : Bool}
theorem setSupply_stands (h : bit (s.island (dioNo dio2)).dio.low g.val = low) : setSupply s (.dioGroup dio2 g) low = s := if_pos h
theorem setSupply_moves (h : bit (s.island (dioNo dio2)).dio.low g.val ≠ low) :
    Reports (updDio s (dioNo dio2) fun d => { d with low := if low then d.low + 2 ^ g.val else d.low - 2 ^ g.val }) (setSupply s (.dioGroup dio2 g) low) := by
  have he : setSupply s (.dioGroup dio2 g) low =
      groupEvent (updDio s (dioNo dio2) fun d => { d with low := if low then d.low + 2 ^ g.val else d.low - 2 ^ g.val }) (dioNo dio2) g.val
        (if low then 1 else 2) := if_neg h
  rw [he]; exact groupEvent_reports ..
end

/-- Settles O44: a group of eight outputs through `setSupply`, the others by what they mark. -/
theorem supplyRows : Obligations.SupplyRows := by
  unfold Obligations.SupplyRows
  intro s
  dsimp only
  refine ⟨fun dio2 g => ⟨fun hlow => ⟨?stays, ?returns⟩, fun hgood => ⟨?good, ?falls⟩⟩, rfl, rfl, rfl, rfl, rfl, rfl, fun hgood => ?mxFalls,
    fun hlow => congrArg Host.Outcome.next (if_pos hlow), rfl, fun hgood hpow => ?skFalls, fun hno => ?skStays, fun hlow => ?skReturns,
    fun hgood => congrArg Host.Outcome.next (if_neg (by rw [hgood]; nofun))⟩
  case stays => exact congrArg Host.Outcome.next (setSupply_stands hlow)
  case returns => exact .mk rfl (setSupply_moves (low := false) (by rw [hlow]; nofun))
  case good => exact congrArg Host.Outcome.next (setSupply_stands hgood)
  case falls => exact .mk rfl (setSupply_moves (low := true) (by rw [hgood]; nofun))
  case mxFalls => exact .mk (congrArg Host.Outcome.next (if_neg (by rw [hgood]; nofun))) (raise_reports ..)
  case skFalls =>
    refine .mk (congrArg Host.Outcome.next (if_neg ?_)) (skEvent_reports ..)
    rw [hgood, hpow]; nofun
  case skStays =>
    refine congrArg Host.Outcome.next (if_pos ?_)
    obtain h | h := hno
    · rw [h]; rfl
    · rw [h]; simp
  case skReturns => exact .mk (congrArg Host.Outcome.next (if_pos hlow)) (skEvent_reports ..)

/-! Digital and analogue rows -/

theorem exec_dioAutoRetry (d : Bool) (c : Fin 32) (temp : Int) (s : State) : exec (.dioAutoRetry d c temp) s = execDioAutoRetry d c temp s := rfl

theorem dioEvent_reports (s : State) (i c code : Nat) (pay : List Byte) : Reports s (dioEvent s i c code pay) := raise_reports ..

theorem dioLatch_reports (s : State) (i c : Nat) : Reports (setDioCh s i c { dioCh s i c with
      overl := true, on := false, limit := false, rearmed := none, armed := false, armHot := false,
      retries := (dioCh s i c).rearmed.elim 0 fun t => if s.grid.mono ≤ t + 1000000000 then (dioCh s i c).retries + 1 else 0 }) (dioLatch s i c) := by
  refine (congrArg (Reports _) ?_).mpr (dioEvent_reports _ i c 3 [])
  unfold dioLatch
  dsimp only
  cases (dioCh s i c).rearmed <;> rfl
theorem dioRearm_reports {i c : Nat} (h : (dioCh s i c).overl = true) (hot : Bool) : Reports (setDioCh s i c { dioCh s i c with
      overl := false, armed := true, armHot := hot, held := true, rearmed := some s.grid.mono }) (dioRearm s i c 1 hot) := by
  unfold dioRearm; extract_lets x
  rw [if_neg (by rw [h]; nofun)]
  exact dioEvent_reports ..

/-- A latched channel under automatic retry that may be re-armed once more. -/
def RetryDue (s : State) (i c : Nat) : Prop :=
  (∃ r, dioRec s i c = some r ∧ r.u 8 1 = 3 ∧ bit (r.u 9 1) 2 = true) ∧ (dioCh s i c).overl = true ∧ (dioCh s i c).retries < 3
theorem autoRetry_due {dio2 : Bool} {c : Fin 32} (h : RetryDue s (dioNo dio2) c.val) (temp : Int) :
    execDioAutoRetry dio2 c temp s = .next (dioRearm s (dioNo dio2) c.val 1 (decide (1700 ≤ temp))) := by
  obtain ⟨⟨r, hr, hmode, hretry⟩, hlatched, hfew⟩ := h
  unfold execDioAutoRetry
  simp only [hr]
  exact congrArg Host.Outcome.next (if_pos ⟨hmode, hretry, hlatched, hfew⟩)
theorem autoRetry_not {dio2 : Bool} {c : Fin 32} (h : ¬ RetryDue s (dioNo dio2) c.val) (temp : Int) :
    execDioAutoRetry dio2 c temp s = .next s := by
  unfold execDioAutoRetry
  cases hr : dioRec s (dioNo dio2) c.val with
  | none => simp only [hr]
  | some r =>
    simp only [hr]
    refine congrArg Host.Outcome.next (if_neg ?_)
    rintro ⟨hmode, hretry, hlatched, hfew⟩
    exact h ⟨⟨r, hr, hmode, hretry⟩, hlatched, hfew⟩

theorem dioCh_setDioCh (s : State) (i c : Nat) (x : DioCh) : dioCh (setDioCh s i c x) i c = x := by
  unfold dioCh setDioCh updDio; rw [island_updIsl, Tab.get_set]
theorem dioCh_setDioCh_ne (s : State) (i : Nat) {c k : Nat} (x : DioCh) (h : k ≠ c) : dioCh (setDioCh s i c x) i k = dioCh s i k := by
  unfold dioCh setDioCh updDio; rw [island_updIsl, Tab.get_set_ne _ _ _ _ _ h]
theorem trip_setDioCh (s : State) (i c : Nat) (x : DioCh) : ((setDioCh s i c x).island i).dio.trip = (s.island i).dio.trip := by
  unfold setDioCh updDio; rw [island_updIsl]

/-- The first n outputs of a group from channel `b` on are switched off. -/
def groupOff (i b n : Nat) (s : State) : State :=
  (List.range n).foldl (fun s k => setDioCh s i (b + k) { dioCh s i (b + k) with on := false }) s
theorem groupOff_succ (i b n : Nat) (s : State) : groupOff i b (n + 1) s =
    setDioCh (groupOff i b n s) i (b + n) { dioCh (groupOff i b n s) i (b + n) with on := false } := by
  unfold groupOff; rw [List.range_succ, List.foldl_append]; rfl
theorem groupOff_spec (i b n : Nat) (s : State) : ((groupOff i b n s).island i).dio.trip = (s.island i).dio.trip ∧
    (∀ k < n, (dioCh (groupOff i b n s) i (b + k)).on = false) ∧
    ∀ k, k < b ∨ b + n ≤ k → dioCh (groupOff i b n s) i k = dioCh s i k := by
  induction n with
  | zero => exact ⟨rfl, nofun, fun _ _ => rfl⟩
  | succ n ih =>
    obtain ⟨htrip, hoff, hrest⟩ := ih
    rw [groupOff_succ]
    refine ⟨(trip_setDioCh ..).trans htrip, fun k hk => ?_, fun k hk => ?_⟩
    · by_cases hkn : k = n
      · rw [hkn, dioCh_setDioCh]
      · rw [dioCh_setDioCh_ne _ _ _ (by omega)]; exact hoff k (by omega)
    · rw [dioCh_setDioCh_ne _ _ _ (by omega)]; exact hrest k (by omega)

theorem Reports.island {s t : State} (h : Reports s t) (i : Nat) : t.island i = s.island i := by
  unfold State.island; rw [h.isl]

/-- The channels that calibration reports for one island. -/
theorem mem_calibration (fails : List (Fin 3 × Fin 16)) (k : Fin 3) (n : Fin 16) :
    n.val ∈ ((fails.filter fun p => p.1.val == k.val).map fun p => p.2.val) ↔ (k, n) ∈ fails := by
  simp only [List.mem_map, List.mem_filter, beq_iff_eq]
  constructor
  · rintro ⟨⟨a, b⟩, ⟨hp, ha⟩, hb⟩
    obtain rfl : a = k := Fin.ext ha
    obtain rfl : b = n := Fin.ext hb
    exact hp
  · exact fun h => ⟨(k, n), ⟨h, rfl⟩, rfl⟩

/-- Settles O45: a group trip through `groupOff_spec`, the others through what each row writes. -/
theorem fieldRows : Obligations.FieldRows := by
  unfold Obligations.FieldRows
  intro s dio2 c g
  dsimp only
  refine ⟨fun hmode hon => .mk (congrArg Host.Outcome.next (if_pos ⟨hmode, hon⟩)) (dioLatch_reports ..), fun hno => ?noOverload,
    fun temp => ⟨fun hdue => .mk ((exec_dioAutoRetry ..).trans (autoRetry_due hdue temp)) (dioRearm_reports hdue.2.1 _), autoRetry_not (temp := temp)⟩,
    fun htrip => congrArg Host.Outcome.next (if_pos htrip), fun htrip => ?trips,
    fun ai2 n => ⟨fun hoff => congrArg Host.Outcome.next (if_pos hoff), fun hon => congrArg Host.Outcome.next (if_neg (by rw [hon]; nofun))⟩,
    fun fails => ?calibrates⟩
  case noOverload =>
    refine congrArg Host.Outcome.next (if_neg ?_)
    rintro ⟨hmode, hon⟩
    obtain h | h := hno
    · exact h hmode
    · rw [h] at hon; nomatch hon
  case trips =>
    obtain ⟨ht, hoff, hrest⟩ := groupOff_spec (dioNo dio2) (8 * g.val) 8 (updDio s (dioNo dio2) fun d => { d with trip := d.trip + 2 ^ g.val })
    have h := groupEvent_reports (groupOff (dioNo dio2) (8 * g.val) 8 (updDio s (dioNo dio2) fun d => { d with trip := d.trip + 2 ^ g.val }))
      (dioNo dio2) g.val 3
    refine .mk (t := groupEvent (groupOff (dioNo dio2) (8 * g.val) 8 (updDio s (dioNo dio2) fun d => { d with trip := d.trip + 2 ^ g.val }))
      (dioNo dio2) g.val 3) (congrArg Host.Outcome.next (if_neg (by rw [htrip]; nofun))) ?_
    have hch (k : Nat) : dioCh (updDio s (dioNo dio2) fun d => { d with trip := d.trip + 2 ^ g.val }) (dioNo dio2) k = dioCh s (dioNo dio2) k := by
      unfold dioCh updDio; rw [island_updIsl]
    refine ⟨?_, fun k hk => ?_, fun k hk => ?_⟩
    · rw [h.island, ht]; unfold updDio; rw [island_updIsl]
    · unfold dioCh; rw [h.island]; exact hoff k hk
    · unfold dioCh; rw [h.island]; exact (hrest k hk).trans (hch k)
  case calibrates =>
    refine .mk rfl fun n => ?_
    rw [island_updIsl_ne _ 4 2 _ (by decide), island_updIsl_ne _ 3 2 _ (by decide), island_updIsl, island_updIsl_ne _ 4 3 _ (by decide),
      island_updIsl, island_updIsl]
    exact ⟨mem_calibration fails 0 n, mem_calibration fails 1 n, mem_calibration fails 2 n⟩

end Sys2Proof.Machine
end

section
/-! The rows of MX-1 (14 R371, R373, R377, R379). -/

namespace Sys2Proof.Machine

variable {s : State} {r : CfgRec}

theorem exec_encoderEdge (n : Fin 8) (a b : Bool) (dt : Nat) (fast : Bool) (s : State) :
    exec (.encoderEdge n a b dt fast) s = execEncoderEdge n a b dt fast s := rfl
theorem exec_encoderZEdge (n : Fin 8) (s : State) : exec (.encoderZEdge n) s = execEncoderZEdge n s := rfl
theorem exec_rs422Sentence (p : Fin 4) (text : List Byte) (e : Bool) (dt : Nat) (s : State) :
    exec (.rs422Sentence p text e dt) s = execRs422Sentence p text e dt s := rfl

theorem encEvent_reports (s : State) (n code : Nat) : Reports s (encEvent s n code) := raise_reports ..
theorem rsEvent_reports (s : State) (p code : Nat) : Reports s (rsEvent s p code) := raise_reports ..
theorem Reports.encOf {s t : State} (h : Reports s t) (n : Nat) : encOf t n = encOf s n := by
  unfold Machine.encOf; rw [h.island]
theorem encOf_setEnc (s : State) (n : Nat) (x : Enc) : encOf (setEnc s n x) n = x := by
  unfold encOf setEnc; rw [island_updIsl, Tab.get_set]

/-! Quadrature -/

/-- What an edge leaves of an interface at quadrature whose levels have moved by `d` steps. -/
def stepped (s : State) (x : Enc) (d dt : Nat) (inverted : Bool) : Enc :=
  if d = 0 then x
  else if d = 2 then { x with quad := true }
  else
    let k : Int := if (d == 1) != inverted then 1 else -1
    { x with count := wrap32 (x.count + k), run := x.run + k, last := some ((s.grid.now + dt) / 10 * 10, x.run + k), fresh := true }

section
variable {n : Fin 8} {a b : Bool}

theorem encoderEdge_other (h : ¬∃ r, encRec s n = some r ∧ r.u 8 1 = 1) (dt : Nat) (fast : Bool) :
    execEncoderEdge n a b dt fast s = .next (setEnc s n { encOf s n with a := a, b := b }) := by
  unfold execEncoderEdge
  cases hr : encRec s n with
  | none => rfl
  | some r => exact congrArg Host.Outcome.next (if_pos (bne_iff_ne.mpr fun hmode => h ⟨r, hr, hmode⟩))

theorem encoderEdge_steps (hr : encRec s n = some r) (hmode : r.u 8 1 = 1) (dt : Nat) (fast : Bool) :
    execEncoderEdge n a b dt fast s = .next (setEnc s n (stepped s { encOf s n with a := a, b := b, rate := (encOf s n).rate || fast }
      ((quadPos a b + 4 - quadPos (encOf s n).a (encOf s n).b) % 4) dt (bit (r.u 9 1) 1))) := by
  unfold execEncoderEdge stepped
  rw [hr]
  dsimp only
  rw [if_neg (by rw [hmode]; nofun)]
  split
  · rfl
  · split <;> rfl

theorem stepped_up {x : Enc} {d dt : Nat} {inverted : Bool} (h : d = 1 ∧ inverted = false ∨ d = 3 ∧ inverted = true) :
    stepped s x d dt inverted = { x with
      count := wrap32 (x.count + 1), run := x.run + 1, last := some ((s.grid.now + dt) / 10 * 10, x.run + 1), fresh := true } := by
  obtain ⟨rfl, rfl⟩ | ⟨rfl, rfl⟩ := h <;> rfl
theorem stepped_down {x : Enc} {d dt : Nat} {inverted : Bool} (h : d = 1 ∧ inverted = true ∨ d = 3 ∧ inverted = false) :
    stepped s x d dt inverted = { x with
      count := wrap32 (x.count + -1), run := x.run + -1, last := some ((s.grid.now + dt) / 10 * 10, x.run + -1), fresh := true } := by
  obtain ⟨rfl, rfl⟩ | ⟨rfl, rfl⟩ := h <;> rfl
end

/-! The Z edge -/

section
variable {n : Fin 8}

theorem encoderZEdge_none (h : ¬∃ r, encRec s n = some r ∧ r.u 8 1 = 1 ∧ bit (r.u 9 1) 0 = true) : execEncoderZEdge n s = .next s := by
  unfold execEncoderZEdge
  cases hr : encRec s n with
  | none => rfl
  | some r =>
    refine congrArg Host.Outcome.next (if_pos ?_)
    rw [Bool.or_eq_true, bne_iff_ne, Bool.not_eq_true', or_iff_not_imp_left, not_not, ← Bool.not_eq_true]
    exact fun hmode hz => h ⟨r, hr, hmode, hz⟩

/-- Whether a distance between two Z edges is wrong, where both are known. -/
theorem zBad_eq (p : Nat) (d : Int) {seen : Bool} (h : ¬ (p = 0 ∨ seen = false)) :
    (seen && p != 0 && d != (p : Int) && d != -(p : Int)) = decide (d ≠ (p : Int) ∧ d ≠ -(p : Int)) := by
  obtain ⟨hp, hseen⟩ := not_or.mp h
  rw [Bool.eq_iff_iff]
  simp [hp, hseen]

/-- An interface whose Z edge has latched its count, judged against Z_PERIOD `p`. -/
def zLatched (x : Enc) (p : Nat) : Enc :=
  let d := signed 32 (x.count + 2 ^ 32 - x.zCount)
  { x with
    zCount := x.count, zSeq := (x.zSeq + 1) % 256, zSeen := true
    zErr := if p = 0 ∨ x.zSeen = false then x.zErr else decide (d ≠ (p : Int) ∧ d ≠ -(p : Int)) }

theorem zLatched_zErr (x : Enc) (p : Nat) : (zLatched x p).zErr = if p = 0 ∨ x.zSeen = false then x.zErr else
    x.zSeen && p != 0 && signed 32 (x.count + 2 ^ 32 - x.zCount) != (p : Int) && signed 32 (x.count + 2 ^ 32 - x.zCount) != -(p : Int) := by
  unfold zLatched
  dsimp only
  split
  · rfl
  · next h => rw [zBad_eq _ _ h]

theorem encoderZEdge_latches (hr : encRec s n = some r) (hmode : r.u 8 1 = 1) (hz : bit (r.u 9 1) 0 = true) :
    Becomes (.encoderZEdge n) s (setEnc s n (zLatched (encOf s n) (r.u 0x14 4))) := by
  have hgo : ¬ ((r.u 8 1 != 1 || !bit (r.u 9 1) 0) = true) := by rw [hmode, hz]; nofun
  unfold Becomes
  rw [exec_encoderZEdge]
  unfold execEncoderZEdge
  rw [hr]
  dsimp only
  rw [if_neg hgo, ← zLatched_zErr]
  refine ⟨_, rfl, ?_⟩
  split
  · exact encEvent_reports ..
  · exact .refl _
end

/-! SSI -/

section
variable {n : Fin 8} {ready mono : Bool} {bits : List Bool}

theorem ssiFrame_other (h : ¬∃ r, encRec s n = some r ∧ r.u 8 1 = 2) : execSsiFrameComplete n ready bits mono s = .next s := by
  unfold execSsiFrameComplete
  cases hr : encRec s n with
  | none => rfl
  | some r => exact congrArg Host.Outcome.next (if_pos (bne_iff_ne.mpr fun hmode => h ⟨r, hr, hmode⟩))

/-- Replacing the frame of MX-1 leaves its interfaces alone. -/
theorem encOf_frame (s : State) (f : Island → Option IslFrame) :
    encOf (s.updIsl mxIsl fun v => { v with frame := f v }) n = encOf s n := by
  unfold encOf; rw [island_updIsl]

theorem ssiFrame_takes (hr : encRec s n = some r) (hmode : r.u 8 1 = 2) :
    ∃ t, execSsiFrameComplete n ready bits mono s = .next t ∧
      let all := (bits ++ List.replicate (r.u 0x0A 1) false).take (r.u 0x0A 1)
      let ssi := !ready || !mono
      let parity := bit (r.u 9 1) 3 && (all.filter id).length % 2 == 1
      let err := r.u 0x0F 1 != 0xFF && all.getD (r.u 0x0F 1) false
      (encOf t n).ssi = ssi ∧ (encOf t n).parity = parity ∧ (encOf t n).err = err ∧
      (encOf t n).count = if !ssi && !parity && !err then ssiPosition r all else (encOf s n).count := by
  unfold execSsiFrameComplete
  rw [hr]
  dsimp only
  rw [if_neg (by rw [hmode]; nofun)]
  refine ⟨_, rfl, ?_⟩
  rw [encOf_frame]
  split
  · rw [(encEvent_reports ..).encOf, encOf_setEnc]; exact ⟨rfl, rfl, rfl, rfl⟩
  · rw [encOf_setEnc]; exact ⟨rfl, rfl, rfl, rfl⟩
end

/-! RS-422 -/

section
variable {p : Fin 4} {text : List Byte}

theorem sentence_good (hr : rsRec s p = some r) (dt : Nat) (h : (chop text).length ≤ 80 ∧ nmeaOk (chop text) (bit (r.u 9 1) 0) = true) :
    execRs422Sentence p text false dt s = .next (setRs s p { rsOf s p with
      sentences := ((rsOf s p).sentences + 1) % 2 ^ 32, rx := (rsOf s p).rx ++ [⟨s.grid.tick, s.grid.now + dt, chop text⟩] }) := by
  unfold execRs422Sentence
  dsimp only
  rw [hr]
  exact congrArg Host.Outcome.next (if_neg (by simp [h.1, h.2]))
theorem sentence_bad (hr : rsRec s p = some r) (dt : Nat) {framing : Bool}
    (h : framing = true ∨ ¬ ((chop text).length ≤ 80 ∧ nmeaOk (chop text) (bit (r.u 9 1) 0) = true)) :
    Becomes (.rs422Sentence p text framing dt) s (setRs s p { rsOf s p with csFail := ((rsOf s p).csFail + 1) % 2 ^ 32 }) := by
  refine ⟨_, ?_, rsEvent_reports _ p 2⟩
  rw [exec_rs422Sentence]
  unfold execRs422Sentence
  dsimp only
  rw [hr]
  refine congrArg Host.Outcome.next (if_pos ?_)
  obtain h | h := h
  · rw [h]; rfl
  · rw [not_and, Bool.not_eq_true] at h
    by_cases hl : (chop text).length ≤ 80
    · simp [h hl]
    · simp [not_le.mp hl]
theorem sentence_none (hr : rsRec s p = none) (e : Bool) (dt : Nat) : execRs422Sentence p text e dt s = .next s := by
  unfold execRs422Sentence
  dsimp only
  rw [hr]

theorem txDone_idle (h : (rsOf s p).sending = none) : execRs422TxDone p s = .next s :=
  congrArg Host.Outcome.next (if_pos (by rw [h]; rfl))
theorem txDone_ends (h : (rsOf s p).sending ≠ none) (hno : (rsOf s p).waiting = none ∨ (s.island mxIsl).driven = false) :
    execRs422TxDone p s = .next (setRs s p { rsOf s p with sending := none }) := by
  unfold execRs422TxDone
  dsimp only
  rw [if_neg (by rwa [Option.isNone_iff_eq_none])]
  cases hw : (rsOf s p).waiting with
  | none => rfl
  | some t => exact congrArg Host.Outcome.next (if_neg (by rw [hno.resolve_left (by rw [hw]; nofun)]; nofun))
theorem txDone_sends (h : (rsOf s p).sending ≠ none) {t : List Byte} (hw : (rsOf s p).waiting = some t) (hd : (s.island mxIsl).driven = true) :
    execRs422TxDone p s = .next ((setRs s p { rsOf s p with sending := some t, waiting := none }).emit (.rs422 p t)) := by
  unfold execRs422TxDone
  dsimp only
  rw [if_neg (by rwa [Option.isNone_iff_eq_none]), hw]
  exact congrArg Host.Outcome.next (if_pos hd)
end

/-- Settles O46, row by row of MX-1; the six cases of a quadrature step through `stepped`. -/
theorem mxRows : Obligations.MxRows := by
  unfold Obligations.MxRows
  intro s n p
  dsimp only
  refine ⟨fun h a b dt fast => encoderEdge_other h dt fast, fun r hr hmode a b dt fast => ?edges, encoderZEdge_none,
    fun r hr hmode hz => encoderZEdge_latches hr hmode hz, fun h _ _ _ => ssiFrame_other h, fun r hr hmode ready mono bits => ?frame,
    fun h text e dt => sentence_none h e dt,
    fun q hq text dt => ⟨fun h => sentence_good hq dt h, fun h => sentence_bad hq dt (.inr h), sentence_bad hq dt (.inl rfl)⟩,
    txDone_idle, fun h => ⟨fun hno => txDone_ends h hno, fun t hw hd => txDone_sends h hw hd⟩⟩
  case edges =>
    have h := encoderEdge_steps (a := a) (b := b) hr hmode dt fast
    rw [exec_encoderEdge, h]
    refine ⟨fun hd => ?_, fun hd => ?_, fun hd hi => ?_, fun hd hi => ?_, fun hd hi => ?_, fun hd hi => ?_⟩
    · rw [hd]; rfl
    · rw [hd]; rfl
    · rw [stepped_up (.inl ⟨hd, hi⟩)]
    · rw [stepped_down (.inl ⟨hd, hi⟩)]
    · rw [stepped_up (.inr ⟨hd, hi⟩)]
    · rw [stepped_down (.inr ⟨hd, hi⟩)]
  case frame =>
    obtain ⟨t, ht, hssi, hparity, herr, hcount⟩ := ssiFrame_takes (ready := ready) (mono := mono) (bits := bits) hr hmode
    refine ⟨t, ht, hssi, hparity, herr, hcount.trans (if_congr ?_ rfl rfl)⟩
    rw [Bool.and_eq_true, Bool.and_eq_true, Bool.not_eq_true', Bool.not_eq_true', Bool.not_eq_true', and_assoc]

end Sys2Proof.Machine
end

section
/-! CAN ports (12 R327, R328, R333 to R343): first what a port's state is after a write and a report, then each row. -/

namespace Sys2Proof.Machine

variable {s : State} {l : LaneId} {p : Nat}

/-! Ports in the state -/

theorem updCan_bus (h : isSc p = false) (s : State) (l : LaneId) (f : CanPort → CanPort) :
    updCan s l p f = s.updLane l fun v => { v with can := v.can.set p (f (v.can.get p {})) } := if_neg (by rw [h]; nofun)
theorem updCan_sc (h : isSc p = true) (s : State) (l : LaneId) (f : CanPort → CanPort) : updCan s l p f =
    s.updIsl mxIsl fun x => { x with mx := { x.mx with sc := x.mx.sc.set p (f (x.mx.sc.get p {})) } } := if_pos h

theorem canPort_updCan (s : State) (l : LaneId) (p : Nat) (f : CanPort → CanPort) : canPort (updCan s l p f) l p = f (canPort s l p) := by
  unfold canPort
  cases h : isSc p with
  | true => rw [updCan_sc h, island_updIsl]; simp
  | false => rw [updCan_bus h, lane_updLane]; simp
theorem updCan_updCan (s : State) (l : LaneId) (p : Nat) (f g : CanPort → CanPort) :
    updCan (updCan s l p f) l p g = updCan s l p fun c => g (f c) := by
  cases h : isSc p with
  | true => rw [updCan_sc h, updCan_sc h, updCan_sc h, updIsl_updIsl]; simp
  | false => rw [updCan_bus h, updCan_bus h, updCan_bus h, updLane_updLane]; simp
theorem canPort_sc (h : isSc p = true) (s : State) (l : LaneId) : canPort s l p = (s.island mxIsl).mx.sc.get p {} := if_pos h
theorem canPort_bus (h : isSc p = false) (s : State) (l : LaneId) : canPort s l p = (s.lane l).can.get p {} := if_neg (by rw [h]; nofun)
theorem updCan_congr {f g : CanPort → CanPort} (h : f (canPort s l p) = g (canPort s l p)) : updCan s l p f = updCan s l p g := by
  cases hp : isSc p with
  | true =>
    rw [canPort_sc hp] at h
    rw [updCan_sc hp, updCan_sc hp]
    unfold State.updIsl
    dsimp only
    rw [h]
  | false =>
    rw [canPort_bus hp] at h
    rw [updCan_bus hp, updCan_bus hp]
    exact updLane_congr (by rw [h])

theorem Reports.canPort {s t : State} (h : Reports s t) (l : LaneId) (p : Nat) : canPort t l p = canPort s l p := by
  have hcan : (t.lane l).can = (s.lane l).can := (congrArg Lane.can (h.lane l) :)
  unfold Machine.canPort
  rw [h.island, hcan]
theorem Reports.updCan {s t : State} (h : Reports s t) (l : LaneId) (p : Nat) (f : CanPort → CanPort) :
    Reports (updCan s l p f) (updCan t l p f) := by
  cases hp : isSc p with
  | true => rw [updCan_sc hp, updCan_sc hp]; exact h.updIsl ..
  | false => rw [updCan_bus hp, updCan_bus hp]; exact h.updLane ..
theorem Reports.mainLane {s t : State} (h : Reports s t) : t.mainLane = s.mainLane := by
  have ha : t.a.role = s.a.role := (congrArg Lane.role (h.lane .a) :)
  have hb : t.b.role = s.b.role := (congrArg Lane.role (h.lane .b) :)
  unfold State.mainLane State.activeLane
  rw [ha, hb]
theorem canEvent_reports (s : State) (l : LaneId) (p src code : Nat) (low : Option Nat) (pay : List Byte) :
    Reports s (canEvent s l p src code low pay) := by
  unfold canEvent; extract_lets w; split
  · exact .refl s
  · exact raise_reports ..
theorem canPort_canEvent (s : State) (l : LaneId) (p src code : Nat) (low : Option Nat) (pay : List Byte) :
    canPort (canEvent s l p src code low pay) l p = canPort s l p := (canEvent_reports ..).canPort l p
theorem canRec_updCan (s : State) (l : LaneId) (p : Nat) (f : CanPort → CanPort) (q : Nat) : canRec (updCan s l p f) q = canRec s q := by
  unfold updCan; split
  · rfl
  · cases l <;> rfl

/-! The error state (R334, R335) -/

/-- A port whose error state stands is left alone. -/
theorem ecChange_steady {before : Nat} (h : (canPort s l p).ec = before) : ecChange s l p before = s := if_pos h.symm
/-- A change of the error state is reported, unless a sensor port has become error-passive. -/
theorem ecChange_reports (s : State) (l : LaneId) (p before : Nat) (h : isSc p = false ∨ before ≠ 0) : Reports s (ecChange s l p before) := by
  unfold ecChange; extract_lets after s1
  split
  · exact .refl s
  · split
    · next hup => rw [if_neg (by rw [h.resolve_right (not_not.mpr hup.2)]; nofun)]; exact canEvent_reports ..
    · split
      · exact canEvent_reports ..
      · exact .refl s
/-- A sensor port that becomes error-passive detects its rate again (R338). -/
theorem ecChange_detects (hp : isSc p = true) (h : (canPort s l p).ec = 1) :
    (canPort (ecChange s l p 0) l p).pstate = 5 ∧ (canPort (ecChange s l p 0) l p).rate = 0 ∧ (canPort (ecChange s l p 0) l p).tec = 0 := by
  unfold ecChange
  rw [h]
  dsimp only
  rw [if_neg (by decide), if_pos ⟨rfl, rfl⟩, if_pos hp, canPort_canEvent, canPort_updCan]
  exact ⟨rfl, rfl, rfl⟩

/-! Receiving (R327, R334) -/

theorem exec_canFrameReceived (l : LaneId) (port : Fin 10) (f : CanFrame) (dt : Nat) (s : State) :
    exec (.canFrameReceived l port f dt) s = execCanFrameReceived l port f dt s := rfl

/-- What the filter's verdict does with a frame counted in `c` (R327). -/
def canSorted (s : State) (p : Nat) (r : CfgRec) (f : CanFrame) (e : Nat × List Byte) (c : CanPort) : CanPort :=
  match canFilter s p f, r.u 9 1 with
  | some (2, b), _ => { c with pending := c.pending ++ [⟨e.1, some b, e.2⟩] }
  | some (1, _), _ => { c with pending := c.pending ++ [⟨e.1, none, e.2⟩] }
  | some _, _ => c.bump 2 1
  | none, 0 => { c with pending := c.pending ++ [⟨e.1, none, e.2⟩] }
  | none, _ => c.bump 2 1
def canShadow (f : CanFrame) (c : CanPort) : CanPort := if c.pstate == 1 then { c with fifo := dropOldest f.ide f.ident c.fifo } else c
def canCounted (c : CanPort) : CanPort := { c.bump 0 1 with rxFrames := (c.rxFrames + 1) % 2 ^ 32 }

/-- A port takes what is on its bus: it runs, and its lane tracks the station where it is a lane's. -/
def CanHears (s : State) (l : LaneId) (p : Nat) : Prop :=
  (canPort s l p).pstate ≠ 0 ∧ (canPort s l p).pstate ≠ 4 ∧ (isSc p = true ∨ tracks (s.lane l) = true)
theorem not_canHears : ¬ CanHears s l p ↔ (canPort s l p).pstate = 0 ∨ (canPort s l p).pstate = 4 ∨ (!isSc p && !tracks (s.lane l)) = true := by
  unfold CanHears
  rw [not_and_or, not_and_or, not_or, not_not, not_not, Bool.and_eq_true, Bool.not_eq_true', Bool.not_eq_true', Bool.not_eq_true, Bool.not_eq_true]

section
variable {port : Fin 10} {f : CanFrame} {dt : Nat} {r : CfgRec}

theorem frameReceived_none (h : canRec s port = none) : execCanFrameReceived l port f dt s = .next s := by
  unfold execCanFrameReceived; dsimp only; rw [h]

section
variable (hr : canRec s port = some r)
include hr

theorem frameReceived_deaf (h : ¬ CanHears s l port) : execCanFrameReceived l port f dt s = .next s := by
  unfold execCanFrameReceived
  dsimp only
  rw [hr]
  exact congrArg Host.Outcome.next (if_pos (not_canHears.mp h))

variable (hears : CanHears s l port)
include hears

theorem frameReceived_error (hfd : f.fdf = true) (hclassic : r.u 8 1 = 0) :
    execCanFrameReceived l port f dt s = .next (rxError s l port false) := by
  unfold execCanFrameReceived
  dsimp only
  rw [hr]
  dsimp only
  rw [if_neg (mt not_canHears.mpr (not_not.mpr hears)), if_pos ⟨hfd, hclassic⟩]
theorem frameReceived_counts (hok : f.fdf = true → r.u 8 1 ≠ 0) : execCanFrameReceived l port f dt s =
    .next (ecChange (updCan (recDown s (canPort s l port)).2 l port fun _ => canShadow f
      (canSorted (recDown s (canPort s l port)).2 port r f ((recDown s (canPort s l port)).2.grid.tick,
          rxEntry f (recDown s (canPort s l port)).2.tickNo ((recDown s (canPort s l port)).2.shortTime dt))
        (canCounted (recDown s (canPort s l port)).1))) l port (canPort s l port).ec) := by
  unfold execCanFrameReceived
  dsimp only
  rw [hr]
  dsimp only
  rw [if_neg (mt not_canHears.mpr (not_not.mpr hears)), if_neg fun h => hok h.1 h.2]
  rfl
end

/-! The verdicts -/

section
variable {e : Nat × List Byte} {c : CanPort}
theorem canSorted_buffer {b : Nat} (h : canFilter s p f = some (2, b)) :
    canSorted s p r f e c = { c with pending := c.pending ++ [⟨e.1, some b, e.2⟩] } := by unfold canSorted; rw [h]; rfl
theorem canSorted_ring {b : Nat} (h : canFilter s p f = some (1, b)) :
    canSorted s p r f e c = { c with pending := c.pending ++ [⟨e.1, none, e.2⟩] } := by unfold canSorted; rw [h]; rfl
theorem canSorted_unmatched (h : canFilter s p f = none) (ha : r.u 9 1 = 0) :
    canSorted s p r f e c = { c with pending := c.pending ++ [⟨e.1, none, e.2⟩] } := by unfold canSorted; rw [h, ha]; rfl
theorem canSorted_dropped (h : (canFilter s p f = none ∧ r.u 9 1 ≠ 0) ∨ ∃ v, canFilter s p f = some v ∧ v.1 ≠ 1 ∧ v.1 ≠ 2) :
    canSorted s p r f e c = c.bump 2 1 := by
  unfold canSorted
  obtain ⟨h, ha⟩ | ⟨⟨a, b⟩, h, h1, h2⟩ := h
  · rw [h]; split
    · contradiction
    · contradiction
    · contradiction
    · exact absurd ‹_› ha
    · rfl
  · rw [h]; split
    · next hv => cases hv; exact absurd rfl h2
    · next hv => cases hv; exact absurd rfl h1
    · rfl
    · contradiction
    · contradiction
/-- The verdict touches neither the error counters nor the transmit side of a port. -/
theorem canSorted_keeps (s : State) (p : Nat) (r : CfgRec) (f : CanFrame) (e : Nat × List Byte) (c : CanPort) :
    (canSorted s p r f e c).pstate = c.pstate ∧ (canSorted s p r f e c).tec = c.tec ∧ (canSorted s p r f e c).rc = c.rc ∧
    (canSorted s p r f e c).fifo = c.fifo ∧ (canSorted s p r f e c).rxFrames = c.rxFrames := by
  unfold canSorted; split <;> exact ⟨rfl, rfl, rfl, rfl, rfl⟩
theorem canShadow_eq (f : CanFrame) (c : CanPort) :
    canShadow f c = { c with fifo := if c.pstate = 1 then dropOldest f.ide f.ident c.fifo else c.fifo } := by
  unfold canShadow
  by_cases h : c.pstate = 1
  · rw [if_pos h, if_pos (beq_iff_eq.mpr h)]
  · rw [if_neg h, if_neg (mt beq_iff_eq.mp h)]
end

theorem recDown_low {c : CanPort} (h : c.rc ≤ 127) : recDown s c = ({ c with rc := c.rc - 1 }, s) := by
  unfold recDown
  by_cases h0 : c.rc = 0
  · rw [if_pos h0]; cases c; subst h0; rfl
  · rw [if_neg h0, if_pos h]
theorem recDown_high {c : CanPort} (h : 127 < c.rc) : recDown s c = ({ c with rc := 119 + Config.freeNat s.free % 9 }, s.takeFree.2) := by
  unfold recDown
  rw [if_neg (by omega), if_neg (by omega)]; rfl

/-- While REC is in its low half a reception leaves the error state alone. -/
theorem ec_of_rc {c d : CanPort} (hs : d.pstate = c.pstate) (ht : d.tec = c.tec) (hr : d.rc = c.rc - 1) (h : c.rc ≤ 127) : d.ec = c.ec := by
  have hpassive : (128 ≤ c.tec ∨ 128 ≤ c.rc - 1) ↔ (128 ≤ c.tec ∨ 128 ≤ c.rc) := by omega
  unfold CanPort.ec
  simp only [hs, ht, hr, hpassive]

theorem frameReceived_low (hr : canRec s port = some r) (hears : CanHears s l port) (hok : f.fdf = true → r.u 8 1 ≠ 0)
    (hlow : (canPort s l port).rc ≤ 127) : execCanFrameReceived l port f dt s = .next (updCan s l port fun _ => canShadow f
      (canSorted s port r f (s.grid.tick, rxEntry f s.tickNo (s.shortTime dt))
        (canCounted { canPort s l port with rc := (canPort s l port).rc - 1 }))) := by
  rw [frameReceived_counts hr hears hok, recDown_low hlow, ecChange_steady]
  rw [canPort_updCan, canShadow_eq]
  obtain ⟨hs, ht, hc, -, -⟩ := canSorted_keeps s port r f (s.grid.tick, rxEntry f s.tickNo (s.shortTime dt))
    (canCounted { canPort s l port with rc := (canPort s l port).rc - 1 })
  exact ec_of_rc hs ht hc hlow

theorem frameReceived_high (hr : canRec s port = some r) (hears : CanHears s l port) (hok : f.fdf = true → r.u 8 1 ≠ 0)
    (hhigh : 127 < (canPort s l port).rc) : ∃ t, execCanFrameReceived l port f dt s = .next t ∧
      119 ≤ (canPort t l port).rc ∧ (canPort t l port).rc ≤ 127 ∧
      (canPort t l port).rxFrames = ((canPort s l port).rxFrames + 1) % 2 ^ 32 ∧
      (canPort t l port).fifo = if (canPort s l port).pstate = 1 then dropOldest f.ide f.ident (canPort s l port).fifo else (canPort s l port).fifo := by
  refine ⟨_, frameReceived_counts hr hears hok, ?_⟩
  have hec : (canPort s l port).ec ≠ 0 := by
    unfold CanPort.ec
    split
    · decide
    · rw [if_pos (.inr hhigh)]; decide
  rw [(ecChange_reports _ _ _ _ (.inr hec)).canPort, canPort_updCan, recDown_high hhigh, canShadow_eq]
  obtain ⟨hs, -, hrc, hf, hx⟩ := canSorted_keeps s.takeFree.2 port r f (s.takeFree.2.grid.tick, rxEntry f s.takeFree.2.tickNo (s.takeFree.2.shortTime dt))
    (canCounted { canPort s l port with rc := 119 + Config.freeNat s.free % 9 })
  have hlt := Nat.mod_lt (Config.freeNat s.free) (show 9 > 0 by decide)
  refine ⟨?_, ?_, hx, ?_⟩
  · show 119 ≤ (canSorted ..).rc; rw [hrc]; exact Nat.le_add_right ..
  · show (canSorted ..).rc ≤ 127; rw [hrc]; show 119 + _ ≤ 127; omega
  · dsimp only; rw [hs, hf]; rfl
end

/-! Requests and wake-up (R336, R337) -/

theorem exec_canSleepRequest (l : LaneId) (port : Fin 10) (s : State) :
    exec (.canSleepRequest l port) s = .next (canControl s l port (canFields s l port) (some 1)) := rfl
theorem exec_canWakeRequest (l : LaneId) (port : Fin 10) (s : State) :
    exec (.canWakeRequest l port) s = .next (canControl s l port (canFields s l port) (some 2)) := rfl
theorem exec_canRecoverRequest (l : LaneId) (port : Fin 10) (s : State) :
    exec (.canRecoverRequest l port) s = .next (canControl s l port (canFields s l port) (some 3)) := rfl

theorem canControl_none (h : canRec s p = none) (m : Mem) (only : Option Nat) : canControl s l p m only = s := by
  unfold canControl; rw [h]

section
variable {r : CfgRec} (hr : canRec s p = some r) {m : Mem} {k : Nat}
include hr

theorem canControl_other (h : (canPort s l p).ctrl = m.rdU (canCtlBase p) 1 ∨ m.rdU (canCtlBase p + 1) 1 ≠ k) :
    canControl s l p m (some k) = s := by
  unfold canControl
  rw [hr]
  refine if_pos (h.imp_right fun hk => ?_)
  exact bne_iff_ne.mpr (Ne.symm hk)
theorem canControl_takes (h : (canPort s l p).ctrl ≠ m.rdU (canCtlBase p) 1) (hk : m.rdU (canCtlBase p + 1) 1 = k) :
    canControl s l p m (some k) = canRequest (updCan s l p fun c => { c with ctrl := m.rdU (canCtlBase p) 1 }) l p k := by
  unfold canControl
  rw [hr]
  dsimp only
  rw [if_neg, hk]
  rintro (hc | hk')
  · exact h hc
  · exact bne_iff_ne.mp hk' hk.symm
theorem canRequest_sleep (seq : Nat) : Reports (if bit (r.u 0x0A 1) 2 = true ∧ (canPort s l p).quality = true
      then updCan (updCan s l p fun c => { c with ctrl := seq }) l p CanPort.toSleep else updCan s l p fun c => { c with ctrl := seq })
    (canRequest (updCan s l p fun c => { c with ctrl := seq }) l p 1) := by
  unfold canRequest
  rw [canRec_updCan, hr, canPort_updCan]
  dsimp only [Option.elim]
  have hq : ({ canPort s l p with ctrl := seq } : CanPort).quality = (canPort s l p).quality := rfl
  rw [hq, if_congr Bool.and_eq_true_iff.symm rfl rfl]
  split <;> exact canEvent_reports ..
end

theorem canRequest_wake (seq : Nat) : Reports (if (canPort s l p).pstate = 4 then
      updCan (updCan s l p fun c => { c with ctrl := seq }) l p fun c => { c.flush with
        pstate := workState (updCan s l p fun c => { c with ctrl := seq }) l p, woke := true, finishing := false }
      else updCan s l p fun c => { c with ctrl := seq }) (canRequest (updCan s l p fun c => { c with ctrl := seq }) l p 2) := by
  unfold canRequest
  dsimp only
  rw [canPort_updCan]
  split
  · exact canEvent_reports ..
  · exact canEvent_reports ..
theorem canRequest_three (s : State) (l : LaneId) (p : Nat) : canRequest s l p 3 =
    if (canPort s l p).pstate = 3 ∧ (canPort s l p).recovering = false then updCan s l p fun c => { c with recovering := true }
    else canEvent s l p 99 5 := rfl
theorem canRequest_recover (seq : Nat) (hoff : (canPort s l p).pstate = 3) (hno : (canPort s l p).recovering = false) :
    canRequest (updCan s l p fun c => { c with ctrl := seq }) l p 3 =
      updCan (updCan s l p fun c => { c with ctrl := seq }) l p fun c => { c with recovering := true } := by
  rw [canRequest_three, canPort_updCan, if_pos ⟨hoff, hno⟩]
theorem canRequest_refused (seq : Nat) (h : (canPort s l p).pstate ≠ 3 ∨ (canPort s l p).recovering = true) :
    Reports (updCan s l p fun c => { c with ctrl := seq }) (canRequest (updCan s l p fun c => { c with ctrl := seq }) l p 3) := by
  rw [canRequest_three, canPort_updCan, if_neg]
  · exact canEvent_reports ..
  · rintro ⟨hoff, hno⟩
    obtain h | h := h
    · exact h hoff
    · exact Bool.false_ne_true (hno.symm.trans h)

/-- What a sleeping port is after it has been woken (R337). -/
theorem canWake_reports (s : State) (l : LaneId) (p code : Nat) :
    Reports (updCan s l p fun c => { c.flush with pstate := workState s l p, woke := true, finishing := false }) (canWake s l p code) :=
  canEvent_reports ..

section
variable {port : Fin 10} {r : CfgRec} {f : Option CanFrame}
theorem busWake_none (h : canRec s port = none) : execCanBusWake l port f s = .next s := by unfold execCanBusWake; dsimp only; rw [h]

/-- A row of the bus that wakes a port: it sleeps, and any frame or this one wakes it. -/
def Wakes (s : State) (l : LaneId) (p : Nat) (r : CfgRec) (f : Option CanFrame) : Prop :=
  (canPort s l p).pstate = 4 ∧ (bit (r.u 0x0A 1) 3 = false ∨ ∃ x, f = some x ∧ wakeFrame r x = true)

theorem busWake_wakes (hr : canRec s port = some r) (h : Wakes s l port r f) : ∃ code, execCanBusWake l port f s = .next (canWake s l port code) := by
  obtain ⟨hsleeps, hwhat⟩ := h
  unfold execCanBusWake
  dsimp only
  rw [hr]
  dsimp only
  rw [if_neg (by rw [hsleeps]; nofun)]
  cases hany : bit (r.u 0x0A 1) 3 with
  | false => exact ⟨2, rfl⟩
  | true =>
    obtain ⟨x, rfl, hx⟩ := hwhat.resolve_left (by rw [hany]; nofun)
    exact ⟨3, congrArg Host.Outcome.next (if_pos hx)⟩
theorem busWake_not (hr : canRec s port = some r) (h : ¬ Wakes s l port r f) : execCanBusWake l port f s = .next s := by
  unfold execCanBusWake
  dsimp only
  rw [hr]
  dsimp only
  by_cases hsleeps : (canPort s l port).pstate = 4
  · rw [if_neg (by rw [hsleeps]; nofun)]
    cases hany : bit (r.u 0x0A 1) 3 with
    | false => exact absurd ⟨hsleeps, .inl hany⟩ h
    | true =>
      cases f with
      | none => rfl
      | some x => exact congrArg Host.Outcome.next (if_neg fun hx => h ⟨hsleeps, .inr ⟨x, rfl, hx⟩⟩)
  · rw [if_pos (bne_iff_ne.mpr hsleeps)]
end

/-! Service ports (R338) -/

section
variable {sc : Fin 2}
theorem exec_scRateDetected (sc : Fin 2) (rate : Fin 12) (s : State) : exec (.scRateDetected sc rate) s = execScRateDetected sc rate s := rfl

theorem isSc_eight (sc : Fin 2) : isSc (8 + sc.val) = true := decide_eq_true (Nat.le_add_right ..)
theorem canPort_lane (sc : Fin 2) (s : State) (l m : LaneId) : canPort s l (8 + sc.val) = canPort s m (8 + sc.val) := by
  rw [canPort_sc (isSc_eight sc), canPort_sc (isSc_eight sc)]
theorem updCan_lane (sc : Fin 2) (s : State) (l m : LaneId) (f : CanPort → CanPort) : updCan s l (8 + sc.val) f = updCan s m (8 + sc.val) f := by
  rw [updCan_sc (isSc_eight sc), updCan_sc (isSc_eight sc)]

theorem rateDetected_none {rate : Fin 12} (h : canRec s (8 + sc.val) = none) : execScRateDetected sc rate s = .next s := by
  unfold execScRateDetected; dsimp only; rw [h]
theorem rateDetected_fits {rate : Fin 12} {r : CfgRec} (hr : canRec s (8 + sc.val) = some r)
    (h : (canPort s l (8 + sc.val)).pstate = 5 ∧ rate.val ≠ 0 ∧ (r.u 0x0B 1 = 0 ∨ r.u 0x0B 1 = rate.val)) :
    Becomes (.scRateDetected sc rate) s (updCan s l (8 + sc.val) fun c => { c with pstate := 2, rate := rate.val, quiet := false }) := by
  rw [canPort_lane sc s l .a] at h
  rw [updCan_lane sc s l .a]
  refine ⟨_, ?_, canEvent_reports _ .a (8 + sc.val) 100 1 (some (s.grid.tick / 256 * 256 + rate.val)) []⟩
  rw [exec_scRateDetected]
  unfold execScRateDetected
  dsimp only
  rw [hr]
  exact congrArg Host.Outcome.next (if_pos h)
theorem rateDetected_not {rate : Fin 12} {r : CfgRec} (hr : canRec s (8 + sc.val) = some r)
    (h : ¬ ((canPort s l (8 + sc.val)).pstate = 5 ∧ rate.val ≠ 0 ∧ (r.u 0x0B 1 = 0 ∨ r.u 0x0B 1 = rate.val))) :
    execScRateDetected sc rate s = .next s := by
  rw [canPort_lane sc s l .a] at h
  unfold execScRateDetected
  dsimp only
  rw [hr]
  exact congrArg Host.Outcome.next (if_neg h)

theorem noTraffic_reported (hs : (canPort s l (8 + sc.val)).pstate = 5) (hq : (canPort s l (8 + sc.val)).quiet = false) :
    Becomes (.scNoTraffic sc) s (updCan s l (8 + sc.val) fun c => { c with quiet := true }) := by
  rw [canPort_lane sc s l .a] at hs hq
  rw [updCan_lane sc s l .a]
  exact ⟨_, congrArg Host.Outcome.next (if_pos ⟨hs, hq⟩), canEvent_reports ..⟩
theorem noTraffic_not (h : (canPort s l (8 + sc.val)).pstate ≠ 5 ∨ (canPort s l (8 + sc.val)).quiet = true) :
    execScNoTraffic sc s = .next s := by
  rw [canPort_lane sc s l .a] at h
  refine congrArg Host.Outcome.next (if_neg ?_)
  rintro ⟨hs, hq⟩
  obtain h | h := h
  · exact h hs
  · rw [h] at hq; nomatch hq
end

/-! Errors and completion (R333, R334) -/

theorem exec_canError (l : LaneId) (port : Fin 10) (e : CanErr) (s : State) : exec (.canError l port e) s = execCanError l port e s := rfl
theorem exec_canFrameTxDone (l : LaneId) (port : Fin 10) (s : State) : exec (.canFrameTxDone l port) s = execCanFrameTxDone l port s := rfl

/-- A port that is off, or asleep with no frame in progress, meets no errors. -/
def ErrorIdle (c : CanPort) : Prop := c.pstate = 0 ∨ (c.pstate = 4 ∧ c.finishing = false)

theorem unfinish_awake {c : CanPort} (h : c.pstate ≠ 4) : c.unfinish = { c with finishing := false } := if_neg (mt beq_iff_eq.mp h)

theorem rxError_listens (h : (canPort s l p).pstate ≠ 2) (step8 : Bool) : rxError s l p step8 = updCan s l p fun c => c.bump 4 1 :=
  if_pos (bne_iff_ne.mpr h)
theorem rxError_counts (hbus : isSc p = false) (h : (canPort s l p).pstate = 2) (step8 : Bool) :
    Reports (updCan s l p fun c => { c.bump 4 1 with rc := min (c.rc + if step8 then 8 else 1) 255 }) (rxError s l p step8) := by
  have he : rxError s l p step8 = ecChange (updCan (updCan s l p fun c => c.bump 4 1) l p fun c =>
      { c with rc := min (c.rc + if step8 then 8 else 1) 255 }) l p (canPort s l p).ec := if_neg (by rw [h]; nofun)
  rw [he, updCan_updCan]
  exact ecChange_reports _ _ _ _ (.inl hbus)

section
variable {port : Fin 10} {c : CanPort}

theorem canError_idle (h : ErrorIdle (canPort s l port)) (e : CanErr) : execCanError l port e s = .next s :=
  congrArg Host.Outcome.next (if_pos h)

section
variable (h : ¬ ErrorIdle (canPort s l port))
include h

theorem canError_tx_listens (hs : (canPort s l port).pstate ≠ 2) :
    execCanError l port .tx s = .next (updCan s l port fun c => (c.bump 4 1).unfinish) :=
  congrArg Host.Outcome.next ((if_neg h).trans (if_pos (bne_iff_ne.mpr hs)))
/-- A transmit error of a working port: TEC rises by 8, and what follows is bus-off or a change of the error state. -/
theorem canError_tx (hs : (canPort s l port).pstate = 2) : execCanError l port .tx s = .next (
    let u := updCan s l port fun c => { c.bump 4 1 with finishing := false, tec := c.tec + 8 }
    if 255 < (canPort s l port).tec + 8 then busOff u l port else ecChange u l port (canPort s l port).ec) := by
  refine congrArg Host.Outcome.next ((if_neg h).trans ((if_neg (by rw [hs]; nofun)).trans ?_))
  rw [updCan_updCan, updCan_congr (g := fun c => { c.bump 4 1 with finishing := false, tec := c.tec + 8 })]
  rw [unfinish_awake (by show (canPort s l port).pstate ≠ 4; rw [hs]; decide)]
  rfl
theorem canError_rx (step8 : Bool) : execCanError l port (.rx step8) s = .next (rxError s l port step8) :=
  congrArg Host.Outcome.next (if_neg h)
theorem canError_arbitration : execCanError l port .arbitration s = .next (updCan s l port fun c => (c.bump 7 1).unfinish) :=
  congrArg Host.Outcome.next (if_neg h)
theorem canError_exception : Becomes (.canError l port .protocolException) s s :=
  ⟨_, congrArg Host.Outcome.next (if_neg h), canEvent_reports ..⟩
theorem canError_tdc : Becomes (.canError l port .tdcOutside) s (updCan s l port fun c => { c with tdc := true }) :=
  ⟨_, congrArg Host.Outcome.next (if_neg h), canEvent_reports ..⟩
theorem canError_rate : execCanError l port .rateFailed s =
    .next (if (canPort s l port).pstate = 5 then updCan s l port fun c => { c with rate := 0 } else s) :=
  congrArg Host.Outcome.next (if_neg h)
end

/-- Bus-off of a lane's port: its FIFO is flushed, and it recovers at once under BUSOFF_AUTO. -/
theorem busOff_bus (hbus : isSc p = false) : (canPort (busOff s l p) l p).pstate = 3 ∧ (canPort (busOff s l p) l p).fifo = [] ∧
    (canPort (busOff s l p) l p).recovering = (canRec s p).elim false fun r => bit (r.u 0x0A 1) 1 := by
  unfold busOff
  dsimp only
  rw [if_neg (by rw [hbus]; nofun), canPort_canEvent, canPort_updCan]
  exact ⟨rfl, rfl, rfl⟩

theorem busoffRecovered_works (hoff : (canPort s l port).pstate = 3) (hrec : (canPort s l port).recovering = true) :
    Becomes (.canBusoffRecovered l port) s
      (updCan s l port fun c => { c with pstate := workState s l port, recovering := false, tec := 0, rc := 0 }) :=
  ⟨_, congrArg Host.Outcome.next (if_pos ⟨hoff, hrec⟩), canEvent_reports ..⟩
theorem busoffRecovered_not (h : (canPort s l port).pstate ≠ 3 ∨ (canPort s l port).recovering = false) :
    execCanBusoffRecovered l port s = .next s := by
  refine congrArg Host.Outcome.next (if_neg ?_)
  rintro ⟨hoff, hrec⟩
  obtain h | h := h
  · exact h hoff
  · exact Bool.false_ne_true (h.symm.trans hrec)

theorem frameTxDone_idle (h : (canPort s l port).fifo = [] ∨ ((canPort s l port).pstate ≠ 2 ∧ (canPort s l port).finishing = false)) :
    execCanFrameTxDone l port s = .next s := by
  unfold execCanFrameTxDone
  dsimp only
  split
  · rfl
  · next x rest hx =>
    obtain h | ⟨hs, hf⟩ := h
    · rw [h] at hx; nomatch hx
    · refine congrArg Host.Outcome.next (if_pos ?_)
      rw [hf, beq_false_of_ne hs]; rfl

/-- A port whose head frame has left, counted (R333, R334). -/
def canSent (rest : List CanTx) (c : CanPort) : CanPort :=
  { c.bump 1 1 with finishing := false, fifo := rest, txDone := (c.txDone + 1) % 2 ^ 32, tec := c.tec - 1 }
/-- A sent frame lowers the error state at most, so that no port is sent back to detection. -/
theorem canSent_ec (rest : List CanTx) {c : CanPort} (h : (canSent rest c).ec ≠ c.ec) : c.ec ≠ 0 := by
  intro h0
  have hlow : c.pstate ≠ 3 ∧ c.tec < 128 ∧ c.rc < 128 := by
    unfold CanPort.ec at h0
    split at h0
    · nomatch h0
    · next hs => split at h0
                 · nomatch h0
                 · next hl => exact ⟨hs, by omega, by omega⟩
  obtain ⟨hs, ht, hr⟩ := hlow
  refine h (h0.symm ▸ ?_)
  have hlt : ¬ (128 ≤ (canSent rest c).tec ∨ 128 ≤ (canSent rest c).rc) := by
    show ¬ (128 ≤ c.tec - 1 ∨ 128 ≤ c.rc); omega
  unfold CanPort.ec
  exact (if_neg hs).trans (if_neg hlt)
theorem ecChange_sent (s : State) (l : LaneId) (p : Nat) (rest : List CanTx) :
    Reports (updCan s l p (canSent rest)) (ecChange (updCan s l p (canSent rest)) l p (canPort s l p).ec) := by
  by_cases h : (canSent rest (canPort s l p)).ec = (canPort s l p).ec
  · rw [ecChange_steady (by rw [canPort_updCan]; exact h)]; exact .refl _
  · exact ecChange_reports _ _ _ _ (.inr (canSent_ec rest h))

section
variable {x : CanTx} {rest : List CanTx} (hx : (canPort s l port).fifo = x :: rest)
  (hgo : (canPort s l port).pstate = 2 ∨ (canPort s l port).finishing = true)
include hx hgo

/-- What a port has sent goes out on its bus with the error state of its sender. -/
theorem frameTxDone_sends : execCanFrameTxDone l port s = .next (
    let u := ecChange (updCan s l port (canSent rest)) l port (canPort s l port).ec
    let v := u.emit (.can (if isSc port then u.mainLane else l) port { x.f with esi := x.f.fdf && (canPort s l port).ec == 1 })
    if isSc port then v else updCan v (other l) port fun d =>
      if d.pstate = 1 ∨ d.pstate = 2 then { d with fifo := dropOldest x.f.ide x.f.ident d.fifo } else d) := by
  unfold execCanFrameTxDone
  dsimp only
  rw [hx]
  refine congrArg Host.Outcome.next (if_neg ?_)
  rw [Bool.not_eq_true', Bool.or_eq_false_iff]
  rintro ⟨hs, hf⟩
  obtain h | h := hgo
  · exact beq_eq_false_iff_ne.mp hs h
  · exact Bool.false_ne_true (hf.symm.trans h)
theorem frameTxDone_bus (hbus : isSc port = false) : Gives (.canFrameTxDone l port) s fun t =>
    Out.can l port { x.f with esi := x.f.fdf && (canPort s l port).ec == 1 } ∈ t.out ∧
    Reports (updCan (updCan s l port (canSent rest)) (other l) port fun d =>
      if d.pstate = 1 ∨ d.pstate = 2 then { d with fifo := dropOldest x.f.ide x.f.ident d.fifo } else d) t := by
  refine ⟨_, (exec_canFrameTxDone ..).trans (frameTxDone_sends hx hgo), ?_⟩
  dsimp only
  rw [if_neg (by rw [hbus]; nofun), if_neg (by rw [hbus]; nofun)]
  refine ⟨?_, (reports_emit (ecChange_sent ..) _).updCan ..⟩
  rw [updCan_bus hbus, updLane_out]
  exact List.mem_append_right _ (List.mem_singleton_self _)
theorem frameTxDone_sc (hsc : isSc port = true) : Gives (.canFrameTxDone l port) s fun t =>
    Out.can s.mainLane port { x.f with esi := x.f.fdf && (canPort s l port).ec == 1 } ∈ t.out ∧
    Reports (updCan s l port (canSent rest)) t := by
  refine ⟨_, (exec_canFrameTxDone ..).trans (frameTxDone_sends hx hgo), ?_⟩
  dsimp only
  rw [if_pos hsc, if_pos hsc]
  have hmain : (ecChange (updCan s l port (canSent rest)) l port (canPort s l port).ec).mainLane = s.mainLane := by
    rw [(ecChange_sent ..).mainLane, updCan_sc hsc]; rfl
  rw [hmain]
  exact ⟨List.mem_append_right _ (List.mem_singleton_self _), reports_emit (ecChange_sent ..) _⟩
end
end

/-! The obligation -/

/-- Settles O47: the three requests through `canControl`, a received frame by REC's half, a sent one through the error state that it
leaves. -/
theorem canRows : Obligations.CanRows := by
  unfold Obligations.CanRows
  intro s l port
  dsimp only
  refine ⟨fun hno => ⟨fun f dt => frameReceived_none hno, ?noRequests, fun f => busWake_none hno, fun sc rate hsc => ?noRate⟩,
    fun r hr => ⟨fun f dt => ?receives, ?oldRequests, fun hnew => ?newRequests, fun f => ?wakes, fun sc rate hsc => ?rates⟩,
    fun e h => canError_idle h e, fun h => ?errors, busoffRecovered_works, busoffRecovered_not, frameTxDone_idle,
    fun x rest hx hgo => ⟨frameTxDone_bus hx hgo, frameTxDone_sc hx hgo⟩, fun sc hsc => ?quiet⟩
  case noRequests =>
    simp only [List.forall_mem_cons, List.not_mem_nil, false_implies, implies_true, and_true]
    rw [exec_canSleepRequest, exec_canWakeRequest, exec_canRecoverRequest, canControl_none hno, canControl_none hno, canControl_none hno]
    exact ⟨rfl, rfl, rfl⟩
  case noRate => exact rateDetected_none (hsc ▸ hno)
  case receives =>
    refine ⟨fun h => frameReceived_deaf hr h, fun h => frameReceived_error hr h, fun h hok => ⟨fun hlow => ?_, fun hhigh => ?_⟩⟩
    · rw [exec_canFrameReceived, frameReceived_low hr h hok hlow]
      refine ⟨fun b hf => ?_, fun b hf => ?_, fun hf ha => ?_, fun hf => ?_⟩
      · rw [canSorted_buffer hf, canShadow_eq]; rfl
      · rw [canSorted_ring hf, canShadow_eq]; rfl
      · rw [canSorted_unmatched hf ha, canShadow_eq]; rfl
      · rw [canSorted_dropped hf, canShadow_eq]; rfl
    · exact frameReceived_high hr h hok hhigh
  case oldRequests =>
    simp only [List.forall_mem_cons, List.not_mem_nil, false_implies, implies_true, and_true]
    refine ⟨fun h => ?_, fun h => ?_, fun h => ?_⟩
    · rw [exec_canSleepRequest, canControl_other hr h]
    · rw [exec_canWakeRequest, canControl_other hr h]
    · rw [exec_canRecoverRequest, canControl_other hr h]
  case newRequests =>
    refine ⟨fun hreq hok => ?_, fun hreq hno => ?_, fun hreq hs => ?_, fun hreq hs => ?_, fun hreq hs hrec => ?_, fun hreq hno => ?_⟩
    · refine ⟨_, (exec_canSleepRequest ..).trans (congrArg _ (canControl_takes hr hnew hreq)), ?_⟩
      have h := canRequest_sleep (l := l) hr ((canFields s l port).rdU (canCtlBase port) 1)
      rwa [if_pos hok] at h
    · refine ⟨_, (exec_canSleepRequest ..).trans (congrArg _ (canControl_takes hr hnew hreq)), ?_⟩
      have h := canRequest_sleep (l := l) hr ((canFields s l port).rdU (canCtlBase port) 1)
      rwa [if_neg hno] at h
    · refine ⟨_, (exec_canWakeRequest ..).trans (congrArg _ (canControl_takes hr hnew hreq)), ?_⟩
      have h := canRequest_wake (s := s) (l := l) (p := port) ((canFields s l port).rdU (canCtlBase port) 1)
      rwa [if_pos hs] at h
    · refine ⟨_, (exec_canWakeRequest ..).trans (congrArg _ (canControl_takes hr hnew hreq)), ?_⟩
      have h := canRequest_wake (s := s) (l := l) (p := port) ((canFields s l port).rdU (canCtlBase port) 1)
      rwa [if_neg hs] at h
    · rw [exec_canRecoverRequest, canControl_takes hr hnew hreq, canRequest_recover _ hs hrec]
    · exact ⟨_, (exec_canRecoverRequest ..).trans (congrArg _ (canControl_takes hr hnew hreq)), canRequest_refused _ hno⟩
  case wakes =>
    refine ⟨fun h => ?_, fun h => busWake_not hr h⟩
    obtain ⟨code, he⟩ := busWake_wakes hr h
    exact ⟨_, he, canWake_reports ..⟩
  case rates =>
    rw [hsc] at hr ⊢
    exact ⟨rateDetected_fits hr, rateDetected_not hr⟩
  case errors =>
    refine ⟨canError_arbitration h, canError_exception h, canError_tdc h, fun hs => ?_, fun hs => ?_,
      fun hs => ⟨canError_tx_listens h hs, fun step8 => ?_⟩, fun hs hbus => ⟨fun hlow => ?_, fun hhigh => ?_, fun step8 => ?_⟩,
      fun hs hsc hec hhigh => ?_⟩
    · rw [exec_canError, canError_rate h, if_pos hs]
    · rw [exec_canError, canError_rate h, if_neg hs]
    · rw [exec_canError, canError_rx h, rxError_listens hs]
    · refine ⟨_, (exec_canError ..).trans (canError_tx h hs), ?_⟩
      dsimp only
      rw [if_neg (by omega)]
      exact ecChange_reports _ _ _ _ (.inl hbus)
    · refine ⟨_, (exec_canError ..).trans (canError_tx h hs), ?_⟩
      dsimp only
      rw [if_pos hhigh, ← canRec_updCan s l port]
      exact busOff_bus hbus
    · exact ⟨_, (exec_canError ..).trans (canError_rx h step8), rxError_counts hbus hs step8⟩
    · refine ⟨_, (exec_canError ..).trans (canError_tx h hs), ?_⟩
      have hc : ¬ 255 < (canPort s l port).tec + 8 := by
        unfold CanPort.ec at hec
        rw [if_neg (by rw [hs]; decide)] at hec
        split at hec
        · nomatch hec
        · omega
      dsimp only
      rw [if_neg hc, hec]
      refine ecChange_detects hsc ?_
      rw [canPort_updCan]
      unfold CanPort.ec
      exact (if_neg (by show (canPort s l port).pstate ≠ 3; rw [hs]; decide)).trans (if_pos (.inl hhigh))
  case quiet =>
    rw [hsc]
    exact ⟨noTraffic_reported, noTraffic_not⟩

end Sys2Proof.Machine
end

section
/-! Deadlines of loops and chains (08 R230, R231; 09 R255, R256): the pass made now decides. -/

namespace Sys2Proof.Machine

variable {s : State} {l : LaneId}

theorem exec_loopQbadExpired (l : LaneId) (n : Fin 128) (s : State) : exec (.loopQbadExpired l n) s = .next (loopRow s l n 2) := rfl
theorem exec_loopFeExpired (l : LaneId) (n : Fin 128) (s : State) : exec (.loopFeExpired l n) s = .next (loopRow s l n 1) := rfl

/-! Loops -/

section
variable {n cause : Nat}
theorem loopRow_none (h : s.cfgRec 0x0801 n = none) : loopRow s l n cause = s := by unfold loopRow; rw [h]
theorem loopRow_waits {r : CfgRec} (hr : s.cfgRec 0x0801 n = some r) (h : engineReady s l (loopMx s r) = false ∨ s.st.engaged = false) :
    loopRow s l n cause = s := by
  unfold loopRow
  rw [hr]
  refine if_pos ?_
  rwa [Bool.not_eq_true', Bool.and_eq_false_iff]

/-- The state after the pass of a loop made now, and of its chain before it. -/
def loopPassed (s : State) (l : LaneId) (r : CfgRec) (n : Nat) : State :=
  loopPass (if lpChain r then (s.cfgRec 0x0901 (r.u 0x2C 4 % 16)).elim s fun c => chainPass s l c else s) l n
/-- The pass made now trips the loop for this cause. -/
def Trips (s : State) (l : LaneId) (r : CfgRec) (n cause : Nat) : Prop :=
  (loopOf (s.lane l) n).st ≠ .tripped ∧ (loopOf ((loopPassed s l r n).lane l) n).st = .tripped ∧
  (loopOf ((loopPassed s l r n).lane l) n).cause = cause

section
variable {r : CfgRec} (hr : s.cfgRec 0x0801 n = some r) (hready : engineReady s l (loopMx s r) = true) (hrun : s.st.engaged = true)
include hr hready hrun
theorem loopRow_passes : loopRow s l n cause = if (loopOf (s.lane l) n).st != .tripped &&
      (loopOf ((loopPassed s l r n).lane l) n).st == .tripped && (loopOf ((loopPassed s l r n).lane l) n).cause == cause
    then loopPassed s l r n else s := by
  unfold loopRow
  rw [hr]
  dsimp only
  rw [if_neg (by rw [hready, hrun]; nofun)]
  rfl
theorem loopRow_trips (h : Trips s l r n cause) : loopRow s l n cause = loopPassed s l r n := by
  obtain ⟨hwas, htrips, hcause⟩ := h
  rw [loopRow_passes hr hready hrun, if_pos]
  rw [Bool.and_eq_true, Bool.and_eq_true]
  exact ⟨⟨bne_iff_ne.mpr hwas, beq_iff_eq.mpr htrips⟩, beq_iff_eq.mpr hcause⟩
theorem loopRow_not (h : ¬ Trips s l r n cause) : loopRow s l n cause = s := by
  rw [loopRow_passes hr hready hrun, if_neg]
  rw [Bool.and_eq_true, Bool.and_eq_true]
  exact fun ⟨⟨hwas, htrips⟩, hcause⟩ => h ⟨bne_iff_ne.mp hwas, beq_iff_eq.mp htrips, beq_iff_eq.mp hcause⟩
end
end

/-! Chains -/

section
variable {k : Nat} {is : ChainSt → ChainSt → Bool}
theorem chainRow_none (h : s.cfgRec 0x0901 k = none) : chainRow s l k is = s := by unfold chainRow; rw [h]
theorem chainRow_waits {r : CfgRec} (hr : s.cfgRec 0x0901 k = some r) (h : engineReady s l (chainMx r) = false) : chainRow s l k is = s := by
  unfold chainRow
  rw [hr]
  exact if_pos (by rw [h]; rfl)
theorem chainRow_passes {r : CfgRec} (hr : s.cfgRec 0x0901 k = some r) (h : engineReady s l (chainMx r) = true) {P : Prop}
    (his : is (chainOf (s.lane l) k) (chainOf ((chainPass s l r).lane l) k) = true ↔ P) :
    (P → Host.Outcome.next (chainRow s l k is) = (.next (chainPass s l r) : Host.Outcome State Fault Refusal)) ∧
    (¬ P → Host.Outcome.next (chainRow s l k is) = (.next s : Host.Outcome State Fault Refusal)) := by
  have he : chainRow s l k is = if is (chainOf (s.lane l) k) (chainOf ((chainPass s l r).lane l) k) then chainPass s l r else s := by
    unfold chainRow
    rw [hr]
    exact if_neg (by rw [h]; nofun)
  rw [he]
  exact ⟨fun hp => congrArg _ (if_pos (his.mpr hp)), fun hp => congrArg _ (if_neg (mt his.mp hp))⟩
end

/-- Settles O48: each row is `loopRow` or `chainRow` of what it names. -/
theorem deadlineRows : Obligations.DeadlineRows := by
  unfold Obligations.DeadlineRows
  intro s l n k
  dsimp only
  refine ⟨fun hno => ?noLoop, fun r hr => ⟨fun hwaits => ?loopWaits, fun hready hrun => ?loopPasses⟩,
    ⟨fun hno => ?noChain, fun r hr hwaits => ?chainWaits⟩, fun r hr hready => ?chainPasses⟩
  case noLoop =>
    rw [exec_loopQbadExpired, exec_loopFeExpired, loopRow_none hno, loopRow_none hno]
    exact ⟨rfl, rfl⟩
  case loopWaits =>
    rw [exec_loopQbadExpired, exec_loopFeExpired, loopRow_waits hr hwaits, loopRow_waits hr hwaits]
    exact ⟨rfl, rfl⟩
  case loopPasses =>
    rw [exec_loopQbadExpired, exec_loopFeExpired]
    exact ⟨fun h => congrArg _ (loopRow_trips hr hready hrun h), fun h => congrArg _ (loopRow_not hr hready hrun h),
      fun h => congrArg _ (loopRow_trips hr hready hrun h), fun h => congrArg _ (loopRow_not hr hready hrun h)⟩
  case noChain =>
    simp only [List.forall_mem_cons, List.not_mem_nil, false_implies, implies_true, and_true]
    exact ⟨congrArg _ (chainRow_none hno), congrArg _ (chainRow_none hno), congrArg _ (chainRow_none hno), congrArg _ (chainRow_none hno)⟩
  case chainWaits =>
    simp only [List.forall_mem_cons, List.not_mem_nil, false_implies, implies_true, and_true]
    exact ⟨congrArg _ (chainRow_waits hr hwaits), congrArg _ (chainRow_waits hr hwaits), congrArg _ (chainRow_waits hr hwaits),
      congrArg _ (chainRow_waits hr hwaits)⟩
  case chainPasses =>
    refine ⟨chainRow_passes hr hready ?_, chainRow_passes hr hready ?_, chainRow_passes hr hready ?_, chainRow_passes hr hready ?_⟩
    · simp [and_assoc]
    · simp
    · simp
    · simp

end Sys2Proof.Machine
end

section
/-! What a lane's network unit is after an arriving frame and after a report (11 R293, R313, R317): the facts that the rows of the
plant network and of station time use. -/

namespace Sys2Proof.Machine

variable {s t : State} {l : LaneId}

/-! Writes to a network unit -/

theorem lane_updNet (s : State) (l : LaneId) (f : Net → Net) : (s.updNet l f).lane l = { s.lane l with net := f (s.lane l).net } := by
  unfold State.updNet; rw [lane_updLane]
theorem lane_updNet_other (s : State) (l : LaneId) (f : Net → Net) : (s.updNet l f).lane (other l) = s.lane (other l) := by
  unfold State.updNet; rw [lane_updLane_other]
theorem updNet_updNet (s : State) (l : LaneId) (f g : Net → Net) : (s.updNet l f).updNet l g = s.updNet l fun v => g (f v) := by
  unfold State.updNet; rw [updLane_updLane]
theorem updNet_congr {f g : Net → Net} (h : f (s.lane l).net = g (s.lane l).net) : s.updNet l f = s.updNet l g :=
  updLane_congr (by rw [h])
theorem updNet_out (s : State) (l : LaneId) (f : Net → Net) : (s.updNet l f).out = s.out := updLane_out ..
theorem countPort_out (s : State) (l : LaneId) (portB : Bool) (k : Nat) : (countPort s l portB k).out = s.out := updNet_out ..
theorem flowOf_updFlow (s : State) (l : LaneId) (n : Nat) (f : FlowCtx → FlowCtx) :
    flowOf ((updFlow s l n f).lane l) n = f (flowOf (s.lane l) n) := by
  unfold flowOf updFlow; rw [lane_updNet]; exact Tab.get_set ..
theorem updFlow_congr {n : Nat} {f g : FlowCtx → FlowCtx} (h : f (flowOf (s.lane l) n) = g (flowOf (s.lane l) n)) :
    updFlow s l n f = updFlow s l n g := by
  unfold flowOf at h; exact updNet_congr (by rw [h])

/-! What arrives only counts -/

/-- A state that differs in the counters, the discard table and the load limits of one lane's network unit. -/
def Tallied (s t : State) (l : LaneId) : Prop :=
  ∃ cnt prp rate, t = s.updNet l fun v => { v with cnt := cnt, prp := prp, rate := rate }

theorem updNet_tallied (s : State) (l : LaneId) (f : Net → Net)
    (hf : ∀ v, f v = { v with cnt := (f v).cnt, prp := (f v).prp, rate := (f v).rate } := by intro; rfl) : Tallied s (s.updNet l f) l :=
  ⟨_, _, _, updNet_congr (hf _)⟩
theorem Tallied.refl (s : State) (l : LaneId) : Tallied s s l := by
  have h := updNet_tallied s l id
  have he : s.updNet l id = s := by cases l <;> rfl
  rwa [he] at h
theorem Tallied.trans {u : State} (h : Tallied s t l) (g : Tallied t u l) : Tallied s u l := by
  obtain ⟨c, p, r, rfl⟩ := h
  obtain ⟨c', p', r', rfl⟩ := g
  exact ⟨c', p', r', by rw [updNet_updNet]⟩
theorem countPort_tallied (s : State) (l : LaneId) (portB : Bool) (k : Nat) : Tallied s (countPort s l portB k) l :=
  updNet_tallied ..
theorem prpPass_tallied (s : State) (l : LaneId) (src q : Nat) : Tallied s (prpPass s l src q).2 l := by
  unfold prpPass; extract_lets keep t
  split
  · dsimp only; exact updNet_tallied ..
  · dsimp only; exact updNet_tallied ..
theorem plantIn_tallied (s : State) (l : LaneId) (rx : Rx) : Tallied s (plantIn s l rx).2 l := by
  unfold plantIn; extract_lets u
  split
  · exact countPort_tallied ..
  · split
    · exact countPort_tallied ..
    · extract_lets r
      have h : Tallied s r.2 l := (countPort_tallied s l rx.portB 0).trans (prpPass_tallied ..)
      dsimp only
      split
      · exact h
      · exact h.trans (countPort_tallied ..)
theorem admitRate_tallied (s : State) (l : LaneId) (key limit : Nat) : Tallied s (admitRate s l key limit).2 l := by
  unfold admitRate; extract_lets w w'
  split
  · dsimp only; exact updNet_tallied ..
  · exact .refl ..
theorem admitRate_eq {key limit : Nat} {b : Bool} (h : admitRate s l key limit = (b, t)) : Tallied s t l := by
  have := admitRate_tallied s l key limit
  rwa [h] at this

section
variable (h : Tallied s t l)
include h
theorem Tallied.grid : t.grid = s.grid := by obtain ⟨c, p, r, rfl⟩ := h; exact updLane_grid ..
theorem Tallied.st : t.st = s.st := by obtain ⟨c, p, r, rfl⟩ := h; exact updLane_st ..
theorem Tallied.out : t.out = s.out := by obtain ⟨c, p, r, rfl⟩ := h; exact updNet_out ..
theorem Tallied.cfgRecs : t.cfgRecs = s.cfgRecs := by obtain ⟨c, p, r, rfl⟩ := h; cases l <;> rfl
theorem Tallied.cfgRec (ty n : Nat) : t.cfgRec ty n = s.cfgRec ty n := by obtain ⟨c, p, r, rfl⟩ := h; cases l <;> rfl
theorem Tallied.other : t.lane (other l) = s.lane (other l) := by obtain ⟨c, p, r, rfl⟩ := h; exact lane_updNet_other ..
theorem Tallied.lane : t.lane l = { s.lane l with net := (t.lane l).net } := by obtain ⟨c, p, r, rfl⟩ := h; rw [lane_updNet]
theorem Tallied.net : (t.lane l).net =
    { (s.lane l).net with cnt := (t.lane l).net.cnt, prp := (t.lane l).net.prp, rate := (t.lane l).net.rate } := by
  obtain ⟨c, p, r, rfl⟩ := h; rw [lane_updNet]
theorem Tallied.netRec : netRec t = netRec s := h.cfgRec ..
theorem Tallied.flowRecs (d : Nat) : flowRecs t d = flowRecs s d := by unfold Machine.flowRecs; rw [h.cfgRecs]
theorem Tallied.flowOf (n : Nat) : flowOf (t.lane l) n = flowOf (s.lane l) n := by unfold Machine.flowOf; rw [h.net]
theorem Tallied.role : (t.lane l).role = (s.lane l).role := by rw [h.lane]
theorem Tallied.onNet : (t.lane l).onNet = (s.lane l).onNet := by rw [h.lane]; rfl
end

/-! Outputs stay -/

/-- Outputs are only appended. -/
structure OutGrows (s t : State) : Prop where
  more : ∃ os, t.out = s.out ++ os
theorem OutGrows.of_eq (h : t.out = s.out) : OutGrows s t := ⟨[], by rw [h, List.append_nil]⟩
theorem OutGrows.trans {u : State} (h : OutGrows s t) (g : OutGrows t u) : OutGrows s u := by
  obtain ⟨os, h⟩ := h
  obtain ⟨ps, g⟩ := g
  exact ⟨os ++ ps, by rw [g, h, List.append_assoc]⟩
theorem OutGrows.mem (h : OutGrows s t) {o : Out} (ho : o ∈ s.out) : o ∈ t.out := by
  obtain ⟨os, h⟩ := h
  rw [h]; exact List.mem_append_left _ ho
theorem emit_grows (s : State) (o : Out) : OutGrows s (s.emit o) := ⟨[o], rfl⟩
theorem updLane_grows (s : State) (l : LaneId) (f : Lane → Lane) : OutGrows s (s.updLane l f) := .of_eq (updLane_out ..)
theorem foldl_grows {α : Type} (f : State → α → State) (xs : List α) (hf : ∀ s x, OutGrows s (f s x)) (s : State) :
    OutGrows s (xs.foldl f s) := by
  induction xs generalizing s with
  | nil => exact .of_eq rfl
  | cons x xs ih => exact (hf s x).trans (ih _)
theorem thlSend_grows (s : State) (p : Nat) (k : ThlKind) (c : List Byte) : OutGrows s (thlSend s p k c) := by
  unfold thlSend; split
  · exact .of_eq rfl
  · extract_lets n l r
    refine (OutGrows.of_eq ?_).trans (emit_grows ..)
    simp only [r, sendBoth, countPort_out, updNet_out, updPart_out]
theorem notify_grows (s : State) (p vec : Nat) : OutGrows s (notify s p vec) := by
  unfold notify; split
  · exact emit_grows ..
  · exact thlSend_grows ..
theorem ringPut_grows (s : State) (p : Nat) (e : RingEntry) : OutGrows s (ringPut s p e) := by
  unfold ringPut; extract_lets q b s1 s2
  have h2 : OutGrows s s2 := by
    refine OutGrows.trans (t := s1) ?_ (.of_eq rfl)
    simp only [s1]; split
    · exact .of_eq rfl
    · exact emit_grows ..
  split
  · exact h2.trans (notify_grows ..)
  · exact h2
theorem offerEvent_grows (s : State) (p : Nat) (e : RingEntry) : OutGrows s (offerEvent s p e) := by
  unfold offerEvent; extract_lets q
  split
  · split
    · exact ringPut_grows ..
    · exact .of_eq rfl
  · exact .of_eq rfl
theorem offerNonMaskable_grows (s : State) (p : Nat) (e : RingEntry) : OutGrows s (offerNonMaskable s p e) := by
  unfold offerNonMaskable; extract_lets q
  split
  · split
    · exact (ringPut_grows s p e).trans (.of_eq rfl)
    · exact .of_eq rfl
  · exact .of_eq rfl
theorem deliverEvent_grows (s : State) (e : RingEntry) : OutGrows s (deliverEvent s e) :=
  foldl_grows _ _ (fun s p => by split; exacts [offerNonMaskable_grows s p e, offerEvent_grows s p e]) s
theorem stageRecord_grows (s : State) (l : LaneId) (r : RawRec) : OutGrows s (stageRecord s l r) := updLane_grows ..
theorem beginStaging_grows (s : State) (l : LaneId) : OutGrows s (beginStaging s l) := by
  unfold beginStaging; split
  · exact .of_eq rfl
  · exact ((updLane_grows s l _).trans (deliverEvent_grows ..)).trans (stageRecord_grows ..)
theorem offerRecord_grows (s : State) (l : LaneId) (r : RawRec) : OutGrows s (offerRecord s l r) := by
  unfold offerRecord; split
  · exact stageRecord_grows ..
  · split
    · exact (beginStaging_grows s l).trans (stageRecord_grows ..)
    · split
      · exact updLane_grows ..
      · exact .of_eq rfl
theorem report_grows (s : State) (e : Ev) (n : Nat) : OutGrows s (report s e n) := by
  unfold report; extract_lets s1
  refine OutGrows.trans (t := s1) ?_ (offerRecord_grows ..)
  simp only [s1]; split
  · exact deliverEvent_grows ..
  · exact .of_eq rfl
theorem setLimit_grows (s : State) (l : LaneId) (k : Nat) (m : Limit) : OutGrows s (setLimit s l k m) := by
  unfold setLimit; split
  · exact updLane_grows ..
  · exact .of_eq rfl
theorem raise_grows (s : State) (e : Ev) : OutGrows s (raise s e) := by
  unfold raise
  split
  · exact report_grows ..
  · extract_lets k; split
    · exact (setLimit_grows ..).trans (report_grows ..)
    · split
      · exact setLimit_grows ..
      · exact (setLimit_grows ..).trans (report_grows ..)

/-! Reports -/

theorem netEvent_reports (s : State) (l : LaneId) (src code top : Nat) (obj : Option Nat) : Reports s (netEvent s l src code top obj) :=
  raise_reports ..
theorem actEvent_reports (s : State) (l : LaneId) (src code top : Nat) : Reports s (actEvent s l src code top) := by
  unfold actEvent; split
  · exact netEvent_reports ..
  · exact .refl s
theorem actEvent_grows (s : State) (l : LaneId) (src code top : Nat) : OutGrows s (actEvent s l src code top) := by
  unfold actEvent; split
  · exact raise_grows ..
  · exact .of_eq rfl
theorem shed_reports (s : State) (l : LaneId) (portB : Bool) (cls : Nat) : Reports (countPort s l portB 5) (shed s l portB cls) :=
  netEvent_reports ..
/-- A report leaves a network unit alone but for its counters and its trailer's sequence. -/
theorem Reports.net (h : Reports s t) (l : LaneId) :
    { (t.lane l).net with cnt := [], prpSeq := 0 } = { (s.lane l).net with cnt := [], prpSeq := 0 } :=
  (congrArg Lane.net (h.lane l) :)
theorem Reports.flowOf (h : Reports s t) (l : LaneId) (n : Nat) : flowOf (t.lane l) n = flowOf (s.lane l) n := by
  have hf : (t.lane l).net.flows = (s.lane l).net.flows := (congrArg Net.flows (h.net l) :)
  unfold Machine.flowOf; rw [hf]

end Sys2Proof.Machine
end

section
/-! The rows of the plant network (11 R293 to R295, R303 to R319). -/

namespace Sys2Proof.Machine

variable {s : State} {l : LaneId}

theorem netUp_eq (v : Lane) : v.netUp = true ↔ v.feed = true ∧ v.runs = true := Bool.and_eq_true_iff
theorem onNet_eq (v : Lane) : v.onNet = true ↔ (v.feed = true ∧ v.runs = true) ∧ v.role ≠ .offline := by
  unfold Lane.onNet; rw [Bool.and_eq_true, netUp_eq, bne_iff_ne]

/-! A frame enters the unit (R293, R317) -/

section
variable {rx : Rx}
theorem plantIn_badCheck (h : rx.fcs = false) : plantIn s l rx = (false, countPort s l rx.portB 2) := if_pos (by rw [h]; rfl)
theorem plantIn_second {q : Nat} (h : rx.fcs = true) (hq : rx.prp = some q) (hsecond : (prpPass (countPort s l rx.portB 0) l rx.src q).1 = false) :
    plantIn s l rx = (false, countPort (prpPass (countPort s l rx.portB 0) l rx.src q).2 l rx.portB 3) := by
  unfold plantIn
  rw [if_neg (by rw [h]; nofun), hq]
  dsimp only
  rw [hsecond, if_neg (by nofun)]
end

/-! A frame of a receive flow (R303, R304, R310, R313) -/

section
variable {r : CfgRec} {f : FlowFrame} {portB : Bool}

/-- A frame that is not newer than the last one of its flow. -/
def FlowOld (c : FlowCtx) (f : FlowFrame) : Prop := ∃ q, c.lastSeq = some q ∧ diff32 f.seq q ≤ 0
/-- Frames that a flow has taken in its present period. -/
def inPeriod (s : State) (r : CfgRec) (c : FlowCtx) : Nat := if c.win = s.grid.tick / r.u 0x0C 2 then c.winCount else 0

theorem acceptFrame_old (h : FlowOld (flowOf (s.lane l) r.inst) f) : acceptFrame s l portB r f = updFlow s l r.inst fun c => c.bump 1 1 := by
  obtain ⟨q, hq, hle⟩ := h
  unfold acceptFrame
  dsimp only
  refine if_pos ?_
  rw [hq]
  exact decide_eq_true hle

section
variable (h : ¬ FlowOld (flowOf (s.lane l) r.inst) f)
include h
theorem acceptFrame_new : acceptFrame s l portB r f =
    if 2 ≤ inPeriod s r (flowOf (s.lane l) r.inst) then shed (updFlow s l r.inst fun c => c.bump 5 1) l portB 1
    else updFlow s l r.inst fun c =>
      let c := if (flowOf (s.lane l) r.inst).lastSeq.any fun q => decide (1 < diff32 f.seq q) then c.bump 2 1 else c
      { c with
        lastSeq := some f.seq, win := s.grid.tick / r.u 0x0C 2, winCount := inPeriod s r (flowOf (s.lane l) r.inst) + 1
        inbox := c.inbox ++ [f] } := by
  unfold acceptFrame
  dsimp only
  refine (if_neg ?_).trans ?_
  · split
    · next q hq => exact fun hle => h ⟨q, hq, of_decide_eq_true hle⟩
    · nofun
  · cases (flowOf (s.lane l) r.inst).lastSeq <;> rfl
theorem acceptFrame_sheds (hk : 2 ≤ inPeriod s r (flowOf (s.lane l) r.inst)) :
    Reports (countPort (updFlow s l r.inst fun c => c.bump 5 1) l portB 5) (acceptFrame s l portB r f) := by
  rw [acceptFrame_new h, if_pos hk]; exact shed_reports ..
theorem acceptFrame_takes (hk : inPeriod s r (flowOf (s.lane l) r.inst) < 2) : acceptFrame s l portB r f = updFlow s l r.inst fun _ =>
      { (if (flowOf (s.lane l) r.inst).lastSeq.any fun q => decide (1 < diff32 f.seq q) then (flowOf (s.lane l) r.inst).bump 2 1
          else flowOf (s.lane l) r.inst) with
        lastSeq := some f.seq, win := s.grid.tick / r.u 0x0C 2, winCount := inPeriod s r (flowOf (s.lane l) r.inst) + 1
        inbox := (flowOf (s.lane l) r.inst).inbox ++ [f] } := by
  rw [acceptFrame_new h, if_neg (Nat.not_le.mpr hk)]
  refine updFlow_congr ?_
  dsimp only
  split <;> rfl
end
end

theorem exec_flowFrameReceived (l : LaneId) (w : Tagged) (f : FlowFrame) (s : State) :
    exec (.flowFrameReceived l w f) s = execFlowFrameReceived l w f s := rfl

section
variable {w : Tagged} {f : FlowFrame}


theorem flowFrame_down (h : ¬ ((s.lane l).feed = true ∧ (s.lane l).runs = true)) : execFlowFrameReceived l w f s = .next s :=
  if_pos (by rw [← netUp_eq, Bool.not_eq_true] at h; rw [h]; rfl)

section
variable (hup : (s.lane l).feed = true ∧ (s.lane l).runs = true)
include hup

theorem flowFrame_up : execFlowFrameReceived l w f s = .next (
    let p := plantIn s l ⟨w.portB, f.src, f.prp, w.fcs⟩
    if !p.1 then p.2
    else if (netRec p.2).any fun r => r.u 8 2 != w.etherType then countPort p.2 l w.portB 5
    else (rxFlow p.2 w f).elim (countPort p.2 l w.portB 4) fun r => if (p.2.lane l).onNet then acceptFrame p.2 l w.portB r f else p.2) := by
  unfold execFlowFrameReceived
  rw [if_neg (by rw [(netUp_eq _).mpr hup]; nofun)]
  dsimp only
  cases rxFlow (plantIn s l ⟨w.portB, f.src, f.prp, w.fcs⟩).2 w f <;> rfl
theorem flowFrame_discarded (h : (plantIn s l ⟨w.portB, f.src, f.prp, w.fcs⟩).1 = false) :
    execFlowFrameReceived l w f s = .next (plantIn s l ⟨w.portB, f.src, f.prp, w.fcs⟩).2 :=
  (flowFrame_up hup).trans (congrArg Host.Outcome.next (if_pos (by rw [h]; rfl)))

section
variable (hfirst : (plantIn s l ⟨w.portB, f.src, f.prp, w.fcs⟩).1 = true)
include hfirst

theorem flowFrame_foreign (h : ∃ r, netRec s = some r ∧ r.u 8 2 ≠ w.etherType) :
    execFlowFrameReceived l w f s = .next (countPort (plantIn s l ⟨w.portB, f.src, f.prp, w.fcs⟩).2 l w.portB 5) := by
  obtain ⟨r, hr, hne⟩ := h
  rw [flowFrame_up hup]
  refine congrArg Host.Outcome.next ((if_neg (by rw [hfirst]; nofun)).trans (if_pos ?_))
  rw [(plantIn_tallied ..).netRec, hr]
  exact bne_iff_ne.mpr hne

section
variable (hown : ¬ ∃ r, netRec s = some r ∧ r.u 8 2 ≠ w.etherType)
include hown

theorem flowFrame_own : execFlowFrameReceived l w f s = .next ((rxFlow s w f).elim (countPort (plantIn s l ⟨w.portB, f.src, f.prp, w.fcs⟩).2 l w.portB 4)
    fun r => if (s.lane l).onNet then acceptFrame (plantIn s l ⟨w.portB, f.src, f.prp, w.fcs⟩).2 l w.portB r f
      else (plantIn s l ⟨w.portB, f.src, f.prp, w.fcs⟩).2) := by
  have hn : ¬ ((netRec (plantIn s l ⟨w.portB, f.src, f.prp, w.fcs⟩).2).any fun r => r.u 8 2 != w.etherType) = true := by
    rw [(plantIn_tallied ..).netRec]
    intro hany
    obtain ⟨r, hr, hne⟩ := (Option.any_eq_true ..).mp hany
    exact hown ⟨r, hr, bne_iff_ne.mp hne⟩
  rw [flowFrame_up hup]
  dsimp only
  rw [if_neg (by rw [hfirst]; nofun), if_neg hn, (plantIn_tallied ..).onNet]
  unfold rxFlow
  rw [(plantIn_tallied ..).flowRecs]
theorem flowFrame_noFlow (h : rxFlow s w f = none) :
    execFlowFrameReceived l w f s = .next (countPort (plantIn s l ⟨w.portB, f.src, f.prp, w.fcs⟩).2 l w.portB 4) := by
  rw [flowFrame_own hup hfirst hown, h]; rfl
theorem flowFrame_offline {r : CfgRec} (h : rxFlow s w f = some r) (hoff : ¬ (s.lane l).onNet = true) :
    execFlowFrameReceived l w f s = .next (plantIn s l ⟨w.portB, f.src, f.prp, w.fcs⟩).2 := by
  rw [flowFrame_own hup hfirst hown, h]; exact congrArg Host.Outcome.next (if_neg hoff)
theorem flowFrame_accepts {r : CfgRec} (h : rxFlow s w f = some r) (hon : (s.lane l).onNet = true) :
    execFlowFrameReceived l w f s = .next (acceptFrame (plantIn s l ⟨w.portB, f.src, f.prp, w.fcs⟩).2 l w.portB r f) := by
  rw [flowFrame_own hup hfirst hown, h]; exact congrArg Host.Outcome.next (if_pos hon)
end
end
end
end

/-! A flow goes DOWN (R310) -/

theorem exec_flowDown (l : LaneId) (n : Fin 256) (s : State) : exec (.flowDown l n) s = execFlowDown l n s := rfl

section
variable {n : Fin 256}
theorem flowDown_none (h : (flowRecs s 1).find? (fun r => r.inst == n.val && r.u 9 1 != 2) = none) : execFlowDown l n s = .next s := by
  unfold execFlowDown; rw [h]
theorem flowDown_some {r : CfgRec} (h : (flowRecs s 1).find? (fun r => r.inst == n.val && r.u 9 1 != 2) = some r) :
    ((flowOf (s.lane l) n).rstate ≠ 2 ∧ (flowOf ((flowSwap s l r).lane l) n).rstate = 2 → execFlowDown l n s = .next (flowSwap s l r)) ∧
    (¬ ((flowOf (s.lane l) n).rstate ≠ 2 ∧ (flowOf ((flowSwap s l r).lane l) n).rstate = 2) → execFlowDown l n s = .next s) := by
  have he : execFlowDown l n s = .next (if (flowOf (s.lane l) n).rstate != 2 && (flowOf ((flowSwap s l r).lane l) n).rstate == 2
      then flowSwap s l r else s) := by unfold execFlowDown; rw [h]
  have hc : ((flowOf (s.lane l) n).rstate != 2 && (flowOf ((flowSwap s l r).lane l) n).rstate == 2) = true ↔
      (flowOf (s.lane l) n).rstate ≠ 2 ∧ (flowOf ((flowSwap s l r).lane l) n).rstate = 2 := by
    rw [Bool.and_eq_true, bne_iff_ne, beq_iff_eq]
  rw [he, if_congr hc rfl rfl]
  exact ⟨fun hf => congrArg _ (if_pos hf), fun hf => congrArg _ (if_neg hf)⟩
end

/-! Broadcasts (R312) -/

theorem exec_udpbcDatagram (l : LaneId) (rx : Rx) (g : Datagram450) (dt : Nat) (ts : List (List Byte)) (s : State) :
    exec (.udpbcDatagram l rx g dt ts) s = execUdpbcDatagram l rx g dt ts s := rfl

section
variable {rx : Rx} {g : Datagram450} {dt : Nat} {ts : List (List Byte)}

theorem udpbc_down (h : ¬ ((s.lane l).feed = true ∧ (s.lane l).runs = true)) : execUdpbcDatagram l rx g dt ts s = .next s :=
  congrArg Host.Outcome.next (if_pos (by rw [← netUp_eq, Bool.not_eq_true] at h; rw [h]; rfl))

section
variable (hup : (s.lane l).feed = true ∧ (s.lane l).runs = true)
include hup
theorem udpbc_discarded (h : (plantIn s l rx).1 = false) : execUdpbcDatagram l rx g dt ts s = .next (plantIn s l rx).2 :=
  congrArg Host.Outcome.next ((if_neg (by rw [(netUp_eq _).mpr hup]; nofun)).trans (if_pos (by rw [h]; rfl)))
theorem udpbc_enters (h : (plantIn s l rx).1 = true) : execUdpbcDatagram l rx g dt ts s = .next (udpbcIn (plantIn s l rx).2 l rx.portB g dt ts) :=
  congrArg Host.Outcome.next ((if_neg (by rw [(netUp_eq _).mpr hup]; nofun)).trans (if_neg (by rw [h]; nofun)))
end

theorem udpbcIn_none {portB : Bool} (h : groupFlows s g = []) : udpbcIn s l portB g dt ts = countPort s l portB 5 := by
  unfold udpbcIn; rw [h]
theorem udpbcIn_offline {portB : Bool} (h : groupFlows s g ≠ []) (hoff : ¬ (s.lane l).onNet = true) : udpbcIn s l portB g dt ts = s := by
  unfold udpbcIn
  split
  · contradiction
  · exact if_pos (by rw [Bool.eq_false_of_not_eq_true hoff]; rfl)
theorem udpbcIn_each {portB : Bool} (h : groupFlows s g ≠ []) (hon : (s.lane l).onNet = true) : udpbcIn s l portB g dt ts =
    (groupFlows s g).foldl (fun s r => if g.udpbc then udpbcTake s l r dt ts else updFlow s l r.inst fun c => c.bump 5 1) s := by
  unfold udpbcIn
  split
  · contradiction
  · exact if_neg (by rw [hon]; nofun)
/-- Without a good sentence a datagram only counts at its flow. -/
theorem udpbcTake_noGood (h : ∀ t ∈ ts, nmeaOk (chop (skipTag t)) true = false) (s : State) (r : CfgRec) :
    udpbcTake s l r dt ts = updFlow s l r.inst fun c => c.bump 0 1 := by
  have hno : ((ts.map fun t => chop (skipTag t)).filter fun t => nmeaOk t true) = [] := by
    rw [List.filter_eq_nil_iff]
    intro x hx
    obtain ⟨t, ht, rfl⟩ := List.mem_map.mp hx
    rw [h t ht]; nofun
  unfold udpbcTake
  dsimp only
  rw [hno]
  refine updFlow_congr ?_
  have hfold (xs : List Nat) (y : List (Nat × List Byte)) : xs.foldl (fun x _ => x) y = y := by
    induction xs with
    | nil => rfl
    | cons _ _ ih => exact ih
  simp only [List.foldl_nil, hfold]
  rfl
end

end Sys2Proof.Machine
end

section
/-! The launch of a transmit flow's frame (11 R308): the descriptor at the head of its queue. -/

namespace Sys2Proof.Machine

variable {s : State} {l : LaneId}

theorem flowOf_updFlow_ne {n m : Nat} (h : m ≠ n) (s : State) (l : LaneId) (f : FlowCtx → FlowCtx) :
    flowOf ((updFlow s l n f).lane l) m = flowOf (s.lane l) m := by
  unfold flowOf updFlow; rw [lane_updNet]; exact Tab.get_set_ne _ _ _ _ _ h
theorem flowOf_updNet (s : State) (l : LaneId) (f : Net → Net) (n : Nat) (hf : (f (s.lane l).net).flows = (s.lane l).net.flows := by rfl) :
    flowOf ((s.updNet l f).lane l) n = flowOf (s.lane l) n := by
  unfold flowOf; rw [lane_updNet, hf]
theorem flowOf_countPort (s : State) (l : LaneId) (portB : Bool) (k n : Nat) :
    flowOf ((countPort s l portB k).lane l) n = flowOf (s.lane l) n := flowOf_updNet ..

/-- Two contexts of a flow whose next descriptor may be held in one only. -/
structure SameQueue (c d : FlowCtx) : Prop where
  tail : d.descs.tail = c.descs.tail
  times : d.descs.map FlowDesc.time = c.descs.map FlowDesc.time
  count : d.count = c.count

theorem headArrives_same (s : State) (l : LaneId) (q now n : Nat) :
    SameQueue (flowOf (s.lane l) n) (flowOf ((headArrives s l q now).lane l) n) := by
  unfold headArrives
  split
  · exact ⟨rfl, rfl, rfl⟩
  · next m _ =>
    by_cases h : n = m
    · subst h
      rw [flowOf_updFlow]
      refine ⟨?_, ?_, rfl⟩
      · cases (flowOf (s.lane l) n).descs <;> rfl
      · cases (flowOf (s.lane l) n).descs <;> rfl
    · rw [flowOf_updFlow_ne h]; exact ⟨rfl, rfl, rfl⟩

/-- The head descriptor of a flow is done with, and the next of its queue comes to the head. -/
def passDesc (s : State) (l : LaneId) (n q now k : Nat) : State :=
  headArrives (updFlow s l n fun c =>
    { c.bump k 1 with descs := c.descs.tail, count := (c.count + 1) % 2 ^ 32, lastTick := s.tickNo, baseTick := s.grid.tick }) l q now

theorem passDesc_same (s : State) (l : LaneId) (n q now k : Nat) : SameQueue
    { flowOf (s.lane l) n with descs := (flowOf (s.lane l) n).descs.tail, count := ((flowOf (s.lane l) n).count + 1) % 2 ^ 32 }
    (flowOf ((passDesc s l n q now k).lane l) n) := by
  obtain ⟨htail, htimes, hcount⟩ := headArrives_same (updFlow s l n fun c =>
    { c.bump k 1 with descs := c.descs.tail, count := (c.count + 1) % 2 ^ 32, lastTick := s.tickNo, baseTick := s.grid.tick }) l q now n
  rw [flowOf_updFlow] at htail htimes hcount
  exact ⟨htail, htimes, hcount⟩

/-- What a sent frame leaves in its flow: the sequence and the tick sent. -/
theorem launchFrame_flow (s : State) (l : LaneId) (r : CfgRec) (d : FlowDesc) (late : Bool) :
    ∃ q t, flowOf ((launchFrame s l r d late).lane l) r.inst = { flowOf (s.lane l) r.inst with sentSeq := q, sentTick := t } := by
  refine ⟨((flowOf (s.lane l) r.inst).count + 1) % 2 ^ 32, d.tick, ?_⟩
  unfold launchFrame
  extract_lets c both ports v f w s1 s2 s3
  have h1 : flowOf (s1.lane l) r.inst = flowOf (s.lane l) r.inst := flowOf_updNet ..
  have h2 : flowOf (s2.lane l) r.inst = flowOf (s.lane l) r.inst := by
    simp only [s2]; split
    · rw [flowOf_countPort, h1]
    · exact h1
  have h3 : flowOf (s3.lane l) r.inst = flowOf (s.lane l) r.inst := by
    simp only [s3]; split
    · rw [flowOf_countPort, h2]
    · exact h2
  rw [lane_emit, flowOf_updFlow, h3]
theorem launchFrame_sends (s : State) (l : LaneId) (r : CfgRec) (d : FlowDesc) (late : Bool) :
    ∃ ports w f, Out.flow l ports w f ∈ (launchFrame s l r d late).out ∧ f.seq = ((flowOf (s.lane l) r.inst).count + 1) % 2 ^ 32 ∧
      f.tickNumber = d.tick ∧ f.launchTime = d.time ∧ f.payload = d.payload ∧ f.fflags = d.flags + b2n late :=
  ⟨_, _, _, List.mem_append_right _ (List.mem_singleton_self _), rfl, rfl, rfl, rfl, rfl⟩

theorem updFlow_grows (s : State) (l : LaneId) (n : Nat) (f : FlowCtx → FlowCtx) : OutGrows s (updFlow s l n f) :=
  .of_eq (updNet_out ..)
theorem headArrives_grows (s : State) (l : LaneId) (q now : Nat) : OutGrows s (headArrives s l q now) := by
  unfold headArrives; split
  · exact .of_eq rfl
  · exact updFlow_grows ..
theorem passDesc_grows (s : State) (l : LaneId) (n q now k : Nat) : OutGrows s (passDesc s l n q now k) :=
  (updFlow_grows s l n _).trans (headArrives_grows ..)

/-- The head descriptor of the flow is gone, and its count has gone up by one. -/
def DescGone (l : LaneId) (n : Nat) (count : Nat) (rest : List FlowDesc) (t : State) : Prop :=
  (flowOf (t.lane l) n).descs.tail = rest.tail ∧ (flowOf (t.lane l) n).descs.map FlowDesc.time = rest.map FlowDesc.time ∧
  (flowOf (t.lane l) n).count = (count + 1) % 2 ^ 32

/-- A frame has left with the flow's next sequence, the descriptor's times and payload, and these late flags. -/
def FrameLeft (l : LaneId) (count : Nat) (d : FlowDesc) (late : Nat) (t : State) : Prop :=
  ∃ ports w f, Out.flow l ports w f ∈ t.out ∧ f.seq = (count + 1) % 2 ^ 32 ∧ f.tickNumber = d.tick ∧ f.launchTime = d.time ∧
    f.payload = d.payload ∧ f.fflags = d.flags + late

theorem exec_flowLaunch (l : LaneId) (n : Fin 256) (now : Word) (s : State) : exec (.flowLaunch l n now) s = execFlowLaunch l n now s := rfl

section
variable {n : Fin 256} {now : Word}

theorem flowLaunch_idle (h : (flowOf (s.lane l) n).descs = [] ∨ ((flowRecs s 0).find? fun r => r.inst == n.val) = none ∨
    runsRole (s.lane l).role = false) : execFlowLaunch l n now s = .next s := by
  unfold execFlowLaunch
  dsimp only
  split
  · next r d hr hd =>
    obtain h | h | h := h
    · rw [h] at hd; nomatch hd
    · rw [h] at hr; nomatch hr
    · exact congrArg Host.Outcome.next (if_pos (by rw [h]; rfl))
  · rfl

section
variable {r : CfgRec} {d : FlowDesc} {rest : List FlowDesc} (hr : ((flowRecs s 0).find? fun r => r.inst == n.val) = some r)
  (hd : (flowOf (s.lane l) n).descs = d :: rest) (hacts : runsRole (s.lane l).role = true)
include hr hd hacts

theorem flowLaunch_acts : execFlowLaunch l n now s = .next (
    if queueHead s l (r.u 0x0E 1) != some n.val then s
    else
      let e := diff32 now.toNat d.target
      if (horizon s : Int) < -e then actEvent (passDesc s l n (r.u 0x0E 1) now.toNat 6) l 71 2 n
      else if d.held ∧ -40 ≤ e ∧ e ≤ 40 then passDesc (launchFrame s l r d false) l n (r.u 0x0E 1) now.toNat 0
      else if e < 0 then updFlow s l n fun c => { c with descs := { d with held := true } :: c.descs.tail }
      else actEvent (updFlow (passDesc (launchFrame s l r d true) l n (r.u 0x0E 1) now.toNat 0) l n fun c => c.bump 4 1) l 71 1 n) := by
  unfold execFlowLaunch
  dsimp only
  rw [hr, hd, List.head?_cons]
  dsimp only
  rw [hacts]
  rfl

theorem flowLaunch_waits (h : queueHead s l (r.u 0x0E 1) ≠ some n.val) : execFlowLaunch l n now s = .next s :=
  (flowLaunch_acts hr hd hacts).trans (congrArg _ (if_pos (bne_iff_ne.mpr h)))

omit hr hacts in
theorem passDesc_gone (q now' k : Nat) : DescGone l n (flowOf (s.lane l) n).count rest (passDesc s l n q now' k) := by
  obtain ⟨htail, htimes, hcount⟩ := passDesc_same s l n q now' k
  rw [hd] at htail htimes
  exact ⟨htail, htimes, hcount⟩
omit hacts in
theorem launched_gone (late : Bool) (q now' k : Nat) :
    DescGone l n (flowOf (s.lane l) n).count rest (passDesc (launchFrame s l r d late) l n q now' k) := by
  have hn : r.inst = n.val := by simpa using List.find?_some hr
  obtain ⟨x, y, hflow⟩ := launchFrame_flow s l r d late
  rw [hn] at hflow
  have h := passDesc_gone (s := launchFrame s l r d late) (l := l) (d := d) (rest := rest) (by rw [hflow]; exact hd) q now' k
  rwa [hflow] at h

section
variable (hhead : queueHead s l (r.u 0x0E 1) = some n.val)
include hhead

theorem flowLaunch_misread (h : (horizon s : Int) < -diff32 now.toNat d.target) :
    Gives (.flowLaunch l n now) s (DescGone l n (flowOf (s.lane l) n).count rest) := by
  refine ⟨_, (flowLaunch_acts hr hd hacts).trans (congrArg _ ((if_neg (by rw [hhead]; simp)).trans (if_pos h))), ?_⟩
  unfold DescGone
  rw [(actEvent_reports ..).flowOf]
  exact passDesc_gone hd ..

section
variable (hnear : -diff32 now.toNat d.target ≤ (horizon s : Int))
include hnear

omit hd hacts hhead hnear in
theorem launchFrame_left (late : Bool) {t : State} (h : OutGrows (launchFrame s l r d late) t) :
    FrameLeft l (flowOf (s.lane l) n).count d (b2n late) t := by
  have hn : r.inst = n.val := by simpa using List.find?_some hr
  obtain ⟨ports, w, f, hout, hseq, hrest⟩ := launchFrame_sends s l r d late
  exact ⟨ports, w, f, h.mem hout, hn ▸ hseq, hrest⟩

theorem flowLaunch_onTime (hheld : d.held = true) (hlo : -40 ≤ diff32 now.toNat d.target) (hhi : diff32 now.toNat d.target ≤ 40) :
    Gives (.flowLaunch l n now) s fun t => DescGone l n (flowOf (s.lane l) n).count rest t ∧ FrameLeft l (flowOf (s.lane l) n).count d 0 t :=
  ⟨_, (flowLaunch_acts hr hd hacts).trans (congrArg _ ((if_neg (by rw [hhead]; simp)).trans ((if_neg (not_lt.mpr hnear)).trans
    (if_pos ⟨hheld, hlo, hhi⟩)))), launched_gone hr hd .., launchFrame_left hr false (passDesc_grows ..)⟩
theorem flowLaunch_late (he : 0 ≤ diff32 now.toNat d.target) (hno : ¬ (d.held = true ∧ diff32 now.toNat d.target ≤ 40)) :
    Gives (.flowLaunch l n now) s fun t => DescGone l n (flowOf (s.lane l) n).count rest t ∧ FrameLeft l (flowOf (s.lane l) n).count d 1 t := by
  refine ⟨_, (flowLaunch_acts hr hd hacts).trans (congrArg _ ((if_neg (by rw [hhead]; simp)).trans ((if_neg (not_lt.mpr hnear)).trans
    ((if_neg fun h => hno ⟨h.1, h.2.2⟩).trans (if_neg (not_lt.mpr he)))))), ?_,
    launchFrame_left hr true (((passDesc_grows ..).trans (updFlow_grows ..)).trans (actEvent_grows ..))⟩
  unfold DescGone
  rw [(actEvent_reports ..).flowOf, flowOf_updFlow]
  exact launched_gone hr hd ..
theorem flowLaunch_holds (he : diff32 now.toNat d.target < 0) (hno : ¬ (d.held = true ∧ -40 ≤ diff32 now.toNat d.target)) :
    execFlowLaunch l n now s = .next (updFlow s l n fun c => { c with descs := { d with held := true } :: rest }) := by
  rw [flowLaunch_acts hr hd hacts]
  refine congrArg Host.Outcome.next ((if_neg (by rw [hhead]; simp)).trans ((if_neg (not_lt.mpr hnear)).trans
    ((if_neg fun h => hno ⟨h.1, h.2.1⟩).trans ((if_pos he).trans (updFlow_congr ?_)))))
  rw [hd]; rfl
end
end
end
end

end Sys2Proof.Machine
end

section
/-! Links, supervision, bootstrap addresses and requests for them (11 R293, R295, R313, R315, R317, R319). -/

namespace Sys2Proof.Machine

variable {s : State} {l : LaneId}

/-! Links and supervision -/

theorem exec_phyLinkChange (l : LaneId) (portB up : Bool) (s : State) : exec (.phyLinkChange l portB up) s = execPhyLinkChange l portB up s := rfl
theorem exec_prpSupervisionFrame (l : LaneId) (portB : Bool) (node : Nat) (s : State) :
    exec (.prpSupervisionFrame l portB node) s = execPrpSupervisionFrame l portB node s := rfl
theorem exec_prpSupervisionLost (l : LaneId) (portB : Bool) (node : Nat) (s : State) :
    exec (.prpSupervisionLost l portB node) s = execPrpSupervisionLost l portB node s := rfl
theorem exec_prpSupervisionSend (l : LaneId) (s : State) : exec (.prpSupervisionSend l) s = execPrpSupervisionSend l s := rfl

/-- A port's link state. -/
def linkUp (v : Net) (portB : Bool) : Bool := if portB then v.upB else v.upA
def setLink (v : Net) (portB up : Bool) : Net := if portB then { v with upB := up } else { v with upA := up }

section
variable {portB up : Bool}
theorem linkChange_none (h : ¬ (s.lane l).present = true ∨ linkUp (s.lane l).net portB = up) : execPhyLinkChange l portB up s = .next s := by
  refine if_pos ?_
  rw [Bool.or_eq_true, Bool.not_eq_true', beq_iff_eq]
  exact h.imp_left Bool.eq_false_of_not_eq_true
theorem linkChange_moves (hp : (s.lane l).present = true) (h : linkUp (s.lane l).net portB ≠ up) : execPhyLinkChange l portB up s =
    .next (if up then netEvent (s.updNet l fun v => setLink v portB up) l 64 2 (portNo portB)
      else netEvent (countPort (s.updNet l fun v => setLink v portB up) l portB 6) l 64 1 (portNo portB)) := by
  refine if_neg ?_
  rw [Bool.or_eq_true, Bool.not_eq_true', beq_iff_eq, hp]
  exact fun hn => hn.elim nofun h
theorem linkChange_up (hp : (s.lane l).present = true) (h : linkUp (s.lane l).net portB = false) :
    Becomes (.phyLinkChange l portB true) s (s.updNet l fun v => setLink v portB true) :=
  ⟨_, (exec_phyLinkChange ..).trans ((linkChange_moves hp (by rw [h]; nofun)).trans (congrArg _ (if_pos rfl))), netEvent_reports ..⟩
theorem linkChange_down (hp : (s.lane l).present = true) (h : linkUp (s.lane l).net portB = true) :
    Becomes (.phyLinkChange l portB false) s (countPort (s.updNet l fun v => setLink v portB false) l portB 6) :=
  ⟨_, (exec_phyLinkChange ..).trans ((linkChange_moves hp (by rw [h]; nofun)).trans (congrArg _ (if_neg nofun))), netEvent_reports ..⟩
end

section
variable {portB : Bool} {node : Nat}
theorem supervision_absent (h : ¬ (s.lane l).present = true) : execPrpSupervisionFrame l portB node s = .next s := congrArg Host.Outcome.next (if_neg h)
theorem supervisionLost_none (h : ¬ ((s.lane l).present = true ∧ bit ((s.lane l).net.nodes.get node 0) (portNo portB) = true)) :
    execPrpSupervisionLost l portB node s = .next s := congrArg Host.Outcome.next (if_neg (mt Bool.and_eq_true_iff.mp h))
theorem supervisionLost_lost (hp : (s.lane l).present = true) (h : bit ((s.lane l).net.nodes.get node 0) (portNo portB) = true) :
    Becomes (.prpSupervisionLost l portB node) s (s.updNet l fun v =>
      { v with nodes := v.nodes.set node (v.nodes.get node 0 - 2 ^ portNo portB) }) := by
  refine ⟨_, congrArg Host.Outcome.next (if_pos (Bool.and_eq_true_iff.mpr ⟨hp, h⟩)), ?_⟩
  rw [updNet_congr (g := fun v => { v with nodes := v.nodes.set node ((s.lane l).net.nodes.get node 0 - 2 ^ portNo portB) }) rfl]
  exact netEvent_reports ..
end

/-! Bootstrap addresses (R315) -/

theorem exec_thlBootstrapStart (l : LaneId) (conflict : Bool) (s : State) :
    exec (.thlBootstrapStart l conflict) s = execThlBootstrapStart l conflict s := rfl

/-- The candidates that RFC 3927 allows. -/
def LinkLocal (ip : Nat) : Prop := 0xA9FE0100 ≤ ip ∧ ip < 0xA9FEFF00

theorem ipAfter_linkLocal (ip k : Nat) : LinkLocal (ipAfter ip k) := by
  have := Nat.mod_lt (ip + k - 0xA9FE0100) (show 0xFE00 > 0 by decide)
  unfold LinkLocal ipAfter
  omega
theorem ipAfter_ne {ip : Nat} (h : LinkLocal ip) : ipAfter ip 1 ≠ ip := by
  unfold LinkLocal at h
  unfold ipAfter
  omega
theorem ipFirst_linkLocal {mac : Nat} (h : ipExcluded (ipFirst mac) = false) : LinkLocal (ipFirst mac) := by
  unfold ipExcluded at h
  rw [Bool.or_eq_false_iff, beq_eq_false_iff_ne, beq_eq_false_iff_ne] at h
  unfold LinkLocal ipFirst at *
  omega

/-- The candidate that the free choice names. -/
def nextIp (s : State) (l : LaneId) : Nat := ipAfter (max (s.lane l).net.bootIp 0xA9FE0100) (1 + Config.freeNat s.free % 0xFDFE)
theorem nextIp_linkLocal (s : State) (l : LaneId) : LinkLocal (nextIp s l) := ipAfter_linkLocal ..
/-- The candidate that the lane takes: not the one that the other lane holds. -/
def freeIp (s : State) (l : LaneId) : Nat := if nextIp s l = (s.lane (other l)).net.bootIp then ipAfter (nextIp s l) 1 else nextIp s l
theorem freeIp_spec (s : State) (l : LaneId) : LinkLocal (freeIp s l) ∧ freeIp s l ≠ (s.lane (other l)).net.bootIp := by
  unfold freeIp
  split
  · next h => rw [← h]; exact ⟨ipAfter_linkLocal .., ipAfter_ne (nextIp_linkLocal ..)⟩
  · next h => exact ⟨nextIp_linkLocal .., h⟩
theorem ipNext_eq (s : State) (l : LaneId) : ipNext s l = s.takeFree.2.updNet l fun v => { v with bootIp := freeIp s l } := by
  unfold ipNext freeIp nextIp
  dsimp only
  rw [lane_takeFree, lane_takeFree, takeFree_fst]

/-- A lane with another bootstrap address. -/
def withIp (v : Lane) (ip : Nat) : Lane := { v with net := { v.net with bootIp := ip } }
theorem withIp_bootIp (v : Lane) (ip : Nat) : (withIp v ip).net.bootIp = ip := rfl
theorem withIp_bootUp (v : Lane) (ip : Nat) : (withIp v ip).net.bootUp = v.net.bootUp := rfl
theorem ipNext_lane (s : State) (l : LaneId) : (ipNext s l).lane l = withIp (s.lane l) (freeIp s l) := by
  unfold withIp
  rw [ipNext_eq, lane_updNet, lane_takeFree]
theorem ipNext_other (s : State) (l : LaneId) : (ipNext s l).lane (other l) = s.lane (other l) := by
  rw [ipNext_eq, lane_updNet_other, lane_takeFree]
/-- The next candidate is allowed and not the other lane's; whether one is served is untouched. -/
theorem ipNext_spec (s : State) (l : LaneId) : LinkLocal ((ipNext s l).lane l).net.bootIp ∧
    ((ipNext s l).lane l).net.bootIp ≠ (s.lane (other l)).net.bootIp ∧ ((ipNext s l).lane l).net.bootUp = (s.lane l).net.bootUp ∧
    (ipNext s l).lane (other l) = s.lane (other l) := by
  obtain ⟨hlocal, hne⟩ := freeIp_spec s l
  rw [ipNext_lane, ipNext_other, withIp_bootIp, withIp_bootUp]
  exact ⟨hlocal, hne, rfl, rfl⟩
theorem ipStart_spec (s : State) (l : LaneId) : LinkLocal ((ipStart s l).lane l).net.bootIp ∧
    ((ipStart s l).lane l).net.bootUp = (s.lane l).net.bootUp ∧ (ipStart s l).lane (other l) = s.lane (other l) := by
  unfold ipStart
  dsimp only
  split
  · obtain ⟨hip, -, hup, ho⟩ := ipNext_spec s l
    exact ⟨hip, hup, ho⟩
  · next h =>
    rw [lane_updNet, lane_updNet_other]
    exact ⟨ipFirst_linkLocal (Bool.eq_false_of_not_eq_true h), rfl, rfl⟩

/-- The candidate is not the lane's to serve: a conflict on the network, or the other lane serves it. -/
def Meets (s : State) (l : LaneId) (conflict : Bool) : Prop :=
  conflict = true ∨ ((s.lane (other l)).net.bootUp = true ∧ (s.lane (other l)).net.bootIp = (s.lane l).net.bootIp)
theorem meets_iff {conflict : Bool} : (conflict || ((s.lane (other l)).net.bootUp && (s.lane (other l)).net.bootIp == (s.lane l).net.bootIp)) = true ↔
    Meets s l conflict := by
  unfold Meets; rw [Bool.or_eq_true, Bool.and_eq_true, beq_iff_eq]

/-- The end of probing for a candidate. -/
def probeEnds (s : State) (l : LaneId) (conflict : Bool) : State :=
  if conflict || ((s.lane (other l)).net.bootUp && (s.lane (other l)).net.bootIp == (s.lane l).net.bootIp) then ipNext s l
  else s.updNet l fun v => { v with bootUp := true }

section
variable {conflict : Bool}
theorem bootstrap_none (h : ¬ ((s.lane l).phase = .running ∧ netRec s = none ∧ (s.lane l).net.bootUp = false)) :
    execThlBootstrapStart l conflict s = .next s := by
  refine if_pos ?_
  by_contra hno
  rw [Bool.or_eq_true, Bool.or_eq_true, bne_iff_ne, not_or, not_or, not_not, Bool.not_eq_true, Option.isSome_eq_false_iff,
    Option.isNone_iff_eq_none, Bool.not_eq_true] at hno
  exact h ⟨hno.1.1, hno.1.2, hno.2⟩
theorem bootstrap_probes (h : (s.lane l).phase = .running ∧ netRec s = none ∧ (s.lane l).net.bootUp = false) :
    execThlBootstrapStart l conflict s = .next (probeEnds (if (s.lane l).net.bootIp = 0 then ipStart s l else s) l conflict) := by
  obtain ⟨hrun, hnone, hdown⟩ := h
  refine if_neg ?_
  rw [hrun, hnone, hdown]
  nofun
theorem probeEnds_spec (s : State) (l : LaneId) (conflict : Bool) (hip : LinkLocal (s.lane l).net.bootIp) :
    LinkLocal ((probeEnds s l conflict).lane l).net.bootIp ∧ (((probeEnds s l conflict).lane l).net.bootUp = true →
      (s.lane (other l)).net.bootUp = true → (s.lane (other l)).net.bootIp ≠ ((probeEnds s l conflict).lane l).net.bootIp) := by
  unfold probeEnds
  split
  · obtain ⟨hlocal, hne, -, -⟩ := ipNext_spec s l
    exact ⟨hlocal, fun _ _ => hne.symm⟩
  · next h =>
    rw [lane_updNet]
    exact ⟨hip, fun _ hup he => h (meets_iff.mpr (.inr ⟨hup, he⟩))⟩
end

/-! Requests for an address (R293, R295, R313, R315) -/

theorem exec_arpIcmpFrame (l : LaneId) (rx : Rx) (x : ArpIcmp) (s : State) : exec (.arpIcmpFrame l rx x) s = execArpIcmpFrame l rx x s := rfl

theorem Tallied.ownsIp {t : State} (h : Tallied s t l) (ip : Word) : ownsIp t l ip = ownsIp s l ip := by
  unfold Machine.ownsIp
  rw [h.role, h.netRec, h.net]

section
variable {rx : Rx} {x : ArpIcmp}
theorem arpIcmp_absent (h : (s.lane l).present = false) : execArpIcmpFrame l rx x s = .next s := if_pos (by rw [h]; rfl)

section
variable (hp : (s.lane l).present = true)
include hp
theorem arpIcmp_present : execArpIcmpFrame l rx x s = .next (
    let u := if (plantIn s l rx).1 then admitRate (plantIn s l rx).2 l (40 + portNo rx.portB) 100 else (false, (plantIn s l rx).2)
    if !(plantIn s l rx).1 then u.2 else if !u.1 then shed u.2 l rx.portB 4 else arpIcmpTake u.2 l x) := by
  exact if_neg (by rw [hp]; nofun)
theorem arpIcmp_discarded (h : (plantIn s l rx).1 = false) : execArpIcmpFrame l rx x s = .next (plantIn s l rx).2 := by
  rw [arpIcmp_present hp]
  dsimp only
  rw [h]
  rfl
theorem arpIcmp_sheds {u : State} (hfirst : (plantIn s l rx).1 = true)
    (h : admitRate (plantIn s l rx).2 l (40 + portNo rx.portB) 100 = (false, u)) :
    Becomes (.arpIcmpFrame l rx x) s (countPort u l rx.portB 5) := by
  refine ⟨_, (exec_arpIcmpFrame ..).trans (arpIcmp_present hp), ?_⟩
  dsimp only
  rw [hfirst, if_pos rfl, h]
  exact shed_reports ..
theorem arpIcmp_takes {u : State} (hfirst : (plantIn s l rx).1 = true)
    (h : admitRate (plantIn s l rx).2 l (40 + portNo rx.portB) 100 = (true, u)) :
    execArpIcmpFrame l rx x s = .next (arpIcmpTake u l x) := by
  rw [arpIcmp_present hp]
  dsimp only
  rw [hfirst, if_pos rfl, h]
  rfl
end
end

section
variable {t : State} (h : Tallied s t l) {ip : Word}
include h
theorem takes_request (ho : ownsIp s l ip = true) : arpIcmpTake t l (.arpRequest ip) = sendPlant t l fun q => .arp l q ip :=
  if_pos ((h.ownsIp ip).trans ho)
theorem takes_request_not (ho : ownsIp s l ip = false) : arpIcmpTake t l (.arpRequest ip) = t :=
  if_neg (by rw [h.ownsIp, ho]; nofun)

/-- The station answers echo requests (R295). -/
def Answers (s : State) : Prop := netRec s ≠ none ∧ (netRec s).elim false (fun r => bit (r.u 0x0A 2) 1) = true
theorem takes_echo (ho : ownsIp s l ip = true ∧ Answers s) : arpIcmpTake t l (.echo ip) = sendPlant t l fun q => .echo l q ip := by
  obtain ⟨ho, -, hanswers⟩ := ho
  refine if_pos ?_
  rw [h.ownsIp, h.netRec, ho, hanswers]; rfl
theorem takes_echo_not (ho : ¬ (ownsIp s l ip = true ∧ Answers s)) : arpIcmpTake t l (.echo ip) = t := by
  refine if_neg ?_
  rw [h.ownsIp, h.netRec, Bool.and_eq_true]
  rintro ⟨hown, hans⟩
  refine ho ⟨hown, fun hnone => ?_, hans⟩
  rw [hnone] at hans; nomatch hans

/-- Another node claims the lane's own bootstrap address. -/
def Claimed (s : State) (l : LaneId) (ip : Word) : Prop := netRec s = none ∧ (s.lane l).net.bootIp = ip.toNat ∧ (s.lane l).net.bootIp ≠ 0
theorem claimed_iff : ((netRec t).isNone && (t.lane l).net.bootIp == ip.toNat && (t.lane l).net.bootIp != 0) = true ↔ Claimed s l ip := by
  unfold Claimed
  rw [h.netRec, h.net, Bool.and_eq_true, Bool.and_eq_true, Option.isNone_iff_eq_none, beq_iff_eq, bne_iff_ne, and_assoc]
theorem takes_claim (hc : Claimed s l ip) : arpIcmpTake t l (.arpClaim ip) = ipNext (t.updNet l fun v => { v with bootUp := false }) l :=
  if_pos ((claimed_iff h).mpr hc)
theorem takes_claim_not (hc : ¬ Claimed s l ip) : arpIcmpTake t l (.arpClaim ip) = t := if_neg (mt (claimed_iff h).mp hc)
end

/-! The obligation -/

/-- Settles O49: what arrives through `plantIn`, a launch through the descriptor at the head, an address through `freeIp`. -/
theorem networkRows : Obligations.NetworkRows := by
  unfold Obligations.NetworkRows
  intro s l n
  simp only [exec_flowFrameReceived, exec_flowDown, exec_udpbcDatagram, exec_flowLaunch, exec_phyLinkChange, exec_prpSupervisionFrame,
    exec_prpSupervisionLost, exec_prpSupervisionSend, exec_thlBootstrapStart, exec_arpIcmpFrame]
  refine ⟨fun w f => ?flowFrames, fun o ho => ?flowDown, fun rx g dt ts => ?broadcasts, fun now h => flowLaunch_idle h,
    fun r d rest now hr hd hacts => ?launch, fun portB => ?links, fun hon hrec => ?sends, fun hno => ?sendsNot, fun conflict => ?bootstrap,
    fun rx x => ?requests⟩
  case flowFrames =>
    refine ⟨flowFrame_down, fun hup hbad => ?_, fun q hup hgood hq hsecond => ?_, fun hup hfirst =>
      ⟨flowFrame_foreign hup hfirst, flowFrame_noFlow hup hfirst, fun r hown hr hoff => ?_, fun r hown hr hon => ?_⟩⟩
    · have h := plantIn_badCheck (s := s) (l := l) (rx := ⟨w.portB, f.src, f.prp, w.fcs⟩) hbad
      rw [flowFrame_discarded hup (by rw [h]), h]
    · have h := plantIn_second (s := s) (l := l) (rx := ⟨w.portB, f.src, f.prp, w.fcs⟩) hgood hq hsecond
      rw [flowFrame_discarded hup (by rw [h]), h]
    · exact flowFrame_offline hup hfirst hown hr (mt (onNet_eq _).mp hoff)
    · have ht := plantIn_tallied s l ⟨w.portB, f.src, f.prp, w.fcs⟩
      rw [flowFrame_accepts hup hfirst hown hr ((onNet_eq _).mpr hon), ← ht.flowOf, ← ht.grid]
      refine ⟨fun hold => congrArg _ (acceptFrame_old hold), fun hnew hk => ?_, fun hnew hk => congrArg _ (acceptFrame_takes hnew hk)⟩
      exact ⟨_, (flowFrame_accepts hup hfirst hown hr ((onNet_eq _).mpr hon)), acceptFrame_sheds hnew hk⟩
  case flowDown =>
    exact ⟨fun hnone => flowDown_none (ho ▸ hnone), fun r hr => flowDown_some (ho ▸ hr)⟩
  case broadcasts =>
    have hgroup : groupFlows (plantIn s l rx).2 g = groupFlows s g := by unfold groupFlows; rw [(plantIn_tallied s l rx).flowRecs]
    have hnet := (plantIn_tallied s l rx).onNet
    refine ⟨udpbc_down, udpbc_discarded, fun hup hfirst => ⟨fun hnone => ?_, fun hsome hoff => ?_, fun hsome hon => ?_⟩⟩
    · rw [udpbc_enters hup hfirst, udpbcIn_none (hgroup.trans hnone)]
    · rw [udpbc_enters hup hfirst, udpbcIn_offline (hgroup ▸ hsome) (by rw [hnet]; exact mt (onNet_eq _).mp hoff)]
    · rw [udpbc_enters hup hfirst, udpbcIn_each (hgroup ▸ hsome) (by rw [hnet]; exact (onNet_eq _).mpr hon), hgroup]
      refine ⟨fun hbc => ?_, fun hbc hbad => ?_, fun hbc => ?_⟩
      · rw [hbc]; rfl
      · simp only [hbc, if_true, udpbcTake_noGood hbad]; rfl
      · rw [hbc]; rfl
  case launch =>
    exact ⟨flowLaunch_waits hr hd hacts, fun hhead => ⟨flowLaunch_misread hr hd hacts hhead, fun hnear =>
      ⟨flowLaunch_onTime hr hd hacts hhead hnear, flowLaunch_late hr hd hacts hhead hnear, flowLaunch_holds hr hd hacts hhead hnear⟩⟩⟩
  case links =>
    refine ⟨fun up h => linkChange_none h, linkChange_up, linkChange_down, fun node => ⟨fun hno => ⟨supervision_absent hno, ?_⟩,
      fun hp => congrArg _ (if_pos hp), supervisionLost_lost, fun hno => ?_⟩⟩
    · exact supervisionLost_none fun h => hno h.1
    · exact supervisionLost_none fun h => Bool.false_ne_true (hno.symm.trans h.2)
  case sends => exact congrArg _ (if_pos (Bool.and_eq_true_iff.mpr ⟨(onNet_eq _).mpr hon, hrec⟩))
  case sendsNot =>
    refine congrArg _ (if_neg fun h => ?_)
    obtain ⟨hon, hrec⟩ := Bool.and_eq_true_iff.mp h
    obtain hno | hno := hno
    · exact hno ((onNet_eq _).mp hon)
    · rw [hno] at hrec; nomatch hrec
  case bootstrap =>
    refine ⟨bootstrap_none, fun hruns hip hmeets => ?_, fun hruns hip hmeets => ?_, fun hruns hip => ?_⟩
    · rw [bootstrap_probes hruns, if_neg hip]
      exact congrArg _ (if_neg (mt meets_iff.mp hmeets))
    · refine ⟨ipNext s l, ?_, ?_⟩
      · rw [exec_thlBootstrapStart, bootstrap_probes hruns, if_neg hip]
        exact congrArg _ (if_pos (meets_iff.mpr hmeets))
      · obtain ⟨hlocal, hne, hup, -⟩ := ipNext_spec s l
        exact ⟨hlocal, hne, hup.trans hruns.2.2⟩
    · refine ⟨_, (exec_thlBootstrapStart ..).trans (bootstrap_probes hruns), ?_⟩
      rw [if_pos hip]
      obtain ⟨hlocal, -, hother⟩ := ipStart_spec s l
      have h := probeEnds_spec (ipStart s l) l conflict hlocal
      rwa [hother] at h
  case requests =>
    refine ⟨arpIcmp_absent, fun hp => ⟨arpIcmp_discarded hp, fun u hfirst hshed => arpIcmp_sheds hp hfirst hshed, fun u hfirst hadmit => ?_⟩⟩
    have ht : Tallied s u l := (plantIn_tallied s l rx).trans (admitRate_eq hadmit)
    rw [arpIcmp_takes hp hfirst hadmit]
    refine ⟨fun ip hx ho => ?_, fun ip hx ho => ?_, fun ip hx ho => ?_, fun ip hx ho => ?_, fun ip hx hc => ?_, fun ip hx hc => ?_⟩
    · rw [hx, takes_request ht ho]
    · rw [hx, takes_request_not ht ho]
    · rw [hx, takes_echo ht ho]
    · rw [hx, takes_echo_not ht ho]
    · refine ⟨_, (exec_arpIcmpFrame ..).trans (arpIcmp_takes hp hfirst hadmit), ?_⟩
      rw [hx, takes_claim ht hc]
      obtain ⟨⟨hlo, hhi⟩, hne, hup, -⟩ := ipNext_spec (u.updNet l fun v => { v with bootUp := false }) l
      rw [lane_updNet_other, ht.other] at hne
      exact ⟨hlo, hhi, hne, hup.trans (by rw [lane_updNet])⟩
    · rw [hx, takes_claim_not ht hc]

end Sys2Proof.Machine
end

section
/-! Station time (11 R296 to R301; 18 R468): a message first meets the limits, then its rule; each stage of a Sync is said once by
what it keeps of the lane's clock. -/

namespace Sys2Proof.Machine

variable {s t : State} {l : LaneId}

/-! What a stage keeps of the clock -/

/-- What decides the state of a lane's clock: its ports, its state and its runs of good and bad Syncs. -/
def Net.clock (v : Net) : Net :=
  { v with cnt := [], prpSeq := 0, prp := [], rate := [], diffRun := 0, diffTold := false, increment := 0, integral := 0, hist := [], step := none }

/-- The clock of a lane, and the instant, are the same in both states. -/
structure ClockSame (s t : State) (l : LaneId) : Prop where
  clock : (t.lane l).net.clock = (s.lane l).net.clock
  grid : t.grid = s.grid

theorem ClockSame.refl (s : State) (l : LaneId) : ClockSame s s l := ⟨rfl, rfl⟩
theorem ClockSame.trans {u : State} (h : ClockSame s t l) (g : ClockSame t u l) : ClockSame s u l :=
  ⟨g.clock.trans h.clock, g.grid.trans h.grid⟩
theorem updNet_clock (s : State) (l : LaneId) (f : Net → Net) (hf : ∀ v, (f v).clock = v.clock := by intro; rfl) : ClockSame s (s.updNet l f) l :=
  ⟨by rw [lane_updNet]; exact hf _, updLane_grid ..⟩
theorem Reports.clock (h : Reports s t) (l : LaneId) : ClockSame s t l := ⟨(congrArg Net.clock (h.net l) :), h.grid⟩
theorem emit_clock (s : State) (l : LaneId) (o : Out) : ClockSame s (s.emit o) l := ⟨by rw [lane_emit], rfl⟩
theorem sendPtp_clock (s : State) (l : LaneId) (portB : Bool) (r : CfgRec) (m : PtpAsk) : ClockSame s (sendPtp s l portB r m) l :=
  (updNet_clock s l _).trans (emit_clock ..)
theorem startServo_clock (s : State) (l : LaneId) : ClockSame s (startServo s l) l := updNet_clock ..
theorem servoIncrement_clock (s : State) (l : LaneId) (r : CfgRec) (off : Int) : ClockSame s (servoIncrement s l r off) l := by
  unfold servoIncrement; extract_lets g lim; exact updNet_clock ..
theorem holdLaneRate_clock (s : State) (l : LaneId) : ClockSame s (holdLaneRate s l) l := by
  unfold holdLaneRate; extract_lets lim; exact updNet_clock ..
theorem compareOffsets_clock (s : State) (l : LaneId) : ClockSame s (compareOffsets s l) l := by
  unfold compareOffsets; extract_lets v
  split
  · split
    · exact updNet_clock ..
    · split
      · exact (updNet_clock s l _).trans ((actEvent_reports ..).clock l)
      · exact updNet_clock ..
  · exact .refl ..

section
variable (h : ClockSame s t l)
include h
theorem ClockSame.time : (t.lane l).net.time = (s.lane l).net.time := (congrArg Net.time h.clock :)
theorem ClockSame.goodRun : (t.lane l).net.goodRun = (s.lane l).net.goodRun := (congrArg Net.goodRun h.clock :)
theorem ClockSame.badRun : (t.lane l).net.badRun = (s.lane l).net.badRun := (congrArg Net.badRun h.clock :)
theorem ClockSame.useB : (t.lane l).net.useB = (s.lane l).net.useB := (congrArg Net.useB h.clock :)
theorem ClockSame.gm : (t.lane l).net.gm = (s.lane l).net.gm := (congrArg Net.gm h.clock :)
theorem ClockSame.portA : (t.lane l).net.portA = (s.lane l).net.portA := (congrArg Net.portA h.clock :)
theorem ClockSame.portB : (t.lane l).net.portB = (s.lane l).net.portB := (congrArg Net.portB h.clock :)
theorem ClockSame.holdAt : (t.lane l).net.holdAt = (s.lane l).net.holdAt := (congrArg Net.holdAt h.clock :)
end

theorem Net.port_setPort (v : Net) (portB : Bool) (x : PtpPort) : (v.setPort portB x).port portB = x := by cases portB <;> rfl

/-- The ports of a lane's clock, its grandmaster and the instant are the same in both states. -/
structure PortsSame (s t : State) (l : LaneId) : Prop where
  a : (t.lane l).net.portA = (s.lane l).net.portA
  b : (t.lane l).net.portB = (s.lane l).net.portB
  gm : (t.lane l).net.gm = (s.lane l).net.gm
  grid : t.grid = s.grid
theorem PortsSame.refl (s : State) (l : LaneId) : PortsSame s s l := ⟨rfl, rfl, rfl, rfl⟩
theorem PortsSame.trans {u : State} (h : PortsSame s t l) (g : PortsSame t u l) : PortsSame s u l :=
  ⟨g.a.trans h.a, g.b.trans h.b, g.gm.trans h.gm, g.grid.trans h.grid⟩
theorem ClockSame.ports (h : ClockSame s t l) : PortsSame s t l := ⟨h.portA, h.portB, h.gm, h.grid⟩
theorem PortsSame.port (h : PortsSame s t l) (portB : Bool) : (t.lane l).net.port portB = (s.lane l).net.port portB := by
  cases portB
  · exact h.a
  · exact h.b
theorem updNet_ports (s : State) (l : LaneId) (f : Net → Net) (ha : ∀ v, (f v).portA = v.portA := by intro; rfl)
    (hb : ∀ v, (f v).portB = v.portB := by intro; rfl) (hg : ∀ v, (f v).gm = v.gm := by intro; rfl) : PortsSame s (s.updNet l f) l := by
  refine ⟨?_, ?_, ?_, updLane_grid ..⟩
  · rw [lane_updNet]; exact ha _
  · rw [lane_updNet]; exact hb _
  · rw [lane_updNet]; exact hg _

theorem enterTime_ports (s : State) (l : LaneId) (x : TimeState) : PortsSame s (enterTime s l x) l :=
  (updNet_ports ..).trans ((actEvent_reports ..).clock l).ports
theorem enterTime_time (s : State) (l : LaneId) (x : TimeState) : ((enterTime s l x).lane l).net.time = x := by
  unfold enterTime
  rw [((actEvent_reports ..).clock l).time, lane_updNet]
theorem enterTime_holdover (s : State) (l : LaneId) : ((enterTime s l .holdover).lane l).net.holdAt = s.grid.mono := by
  unfold enterTime
  rw [((actEvent_reports ..).clock l).holdAt, lane_updNet]
  rfl
theorem writeAnchor_reports (s : State) (l : LaneId) (gm : Nat) (offset : Int) : Reports s (writeAnchor s l gm offset) := raise_reports ..

/-! A message arrives (R110, R313) -/

/-- The limits that a message of a type meets at its port, once counted. -/
def ptpAdmits (s : State) (l : LaneId) (portB : Bool) (typ : Nat) : Bool × State :=
  admitRate (countPort (countPort s l portB 0) l portB 7) l (2 * typ + portNo portB) 64

section
variable {portB udp : Bool} {typ : Nat} {k : State → CfgRec → State} {u : State}

theorem ptpAdmits_tallied {b : Bool} (h : ptpAdmits s l portB typ = (b, u)) : Tallied s u l :=
  ((countPort_tallied s l portB 0).trans (countPort_tallied ..)).trans (admitRate_eq h)
theorem Tallied.timeRec (h : Tallied s t l) : timeRec t = timeRec s := h.cfgRec ..
theorem Tallied.clock (h : Tallied s t l) : ClockSame s t l := ⟨by rw [h.net]; rfl, h.grid⟩

theorem ptpArrives_deaf (h : ¬ ((s.lane l).runs = true ∧ (s.lane l).clkQual = true)) : ptpArrives s l portB udp typ k = s := by
  refine if_pos ?_
  rwa [Bool.not_eq_true', ← Bool.not_eq_true, Bool.and_eq_true]

section
variable (hheard : (s.lane l).runs = true ∧ (s.lane l).clkQual = true)
include hheard
theorem ptpArrives_sheds (h : ptpAdmits s l portB typ = (false, u)) : Reports (countPort u l portB 5) (ptpArrives s l portB udp typ k) := by
  have he : ptpArrives s l portB udp typ k = shed u l portB 2 := by
    unfold ptpArrives
    rw [hheard.1, hheard.2, if_neg (by decide)]
    extract_lets s1
    rw [show admitRate s1 l (2 * typ + portNo portB) 64 = (false, u) from h]
    exact if_pos rfl
  rw [he]
  exact shed_reports ..
theorem ptpArrives_admitted (h : ptpAdmits s l portB typ = (true, u)) : ptpArrives s l portB udp typ k =
    (timeRec s).elim u fun r => if udp != ptpUdp r then u else k u r := by
  unfold ptpArrives
  rw [hheard.1, hheard.2, if_neg (by decide)]
  extract_lets s1
  rw [show admitRate s1 l (2 * typ + portNo portB) 64 = (true, u) from h]
  refine (if_neg (by decide)).trans ?_
  rw [(ptpAdmits_tallied h).timeRec]
  cases timeRec s <;> rfl
theorem ptpArrives_counted (h : ptpAdmits s l portB typ = (true, u))
    (hno : timeRec s = none ∨ ∃ r, timeRec s = some r ∧ udp ≠ ptpUdp r) : ptpArrives s l portB udp typ k = u := by
  rw [ptpArrives_admitted hheard h]
  obtain hno | ⟨r, hr, hudp⟩ := hno
  · rw [hno]; rfl
  · rw [hr]; exact if_pos (bne_iff_ne.mpr hudp)
theorem ptpArrives_takes (h : ptpAdmits s l portB typ = (true, u)) {r : CfgRec} (hr : timeRec s = some r) (hudp : udp = ptpUdp r) :
    ptpArrives s l portB udp typ k = k u r := by
  rw [ptpArrives_admitted hheard h, hr]
  exact if_neg (by rw [hudp, bne_self_eq_false]; nofun)
end
end

/-! Announce (R296, R301) -/

/-- What a message under the station's record does, by its row. -/
def takeAnnounce (l : LaneId) (portB : Bool) (m : Announce) (s : State) (r : CfgRec) : State :=
  if m.domain != r.u 8 1 then s
  else selectMaster (s.updNet l fun v =>
    v.setPort portB { v.port portB with masters := m :: (v.port portB).masters.filter fun a => a.identity != m.identity }) l
theorem exec_ptpAnnounce (l : LaneId) (portB udp : Bool) (m : Announce) (s : State) :
    exec (.ptpAnnounce l portB udp m) s = .next (ptpArrives s l portB udp 0 (takeAnnounce l portB m)) := rfl

theorem selectMaster_masters (s : State) (l : LaneId) : ((selectMaster s l).lane l).net.portA = (s.lane l).net.portA ∧
    ((selectMaster s l).lane l).net.portB = (s.lane l).net.portB ∧
    ∀ b, bestMaster ((s.lane l).net.portA.masters ++ (s.lane l).net.portB.masters) = some b →
      ((selectMaster s l).lane l).net.gm = some b.identity := by
  unfold selectMaster
  extract_lets v
  split
  · next h => exact ⟨rfl, rfl, fun b hb => by rw [h] at hb; nomatch hb⟩
  · next m h =>
    have hm {b : Announce} (hb : bestMaster (v.portA.masters ++ v.portB.masters) = some b) : b = m :=
      Option.some.inj (hb.symm.trans h)
    split
    · next hsame => exact ⟨rfl, rfl, fun b hb => (hm hb) ▸ hsame⟩
    · extract_lets u w
      have hu : (u.lane l).net.portA = v.portA ∧ (u.lane l).net.portB = v.portB ∧ (u.lane l).net.gm = some m.identity := by
        rw [show u.lane l = _ from lane_updNet ..]; exact ⟨rfl, rfl, rfl⟩
      obtain ⟨ha, hb, hg⟩ := hu
      have hw : PortsSame u w l := by
        simp only [w]
        split
        · exact updNet_ports ..
        · exact enterTime_ports ..
      split
      · exact ⟨ha, hb, fun b hbest => (hm hbest) ▸ hg⟩
      · obtain ⟨ha', hb', hg', -⟩ := hw.trans ((actEvent_reports w l 68 1 0).clock l).ports
        exact ⟨ha'.trans ha, hb'.trans hb, fun b hbest => (hm hbest) ▸ hg'.trans hg⟩

theorem takeAnnounce_other {portB : Bool} {m : Announce} {r : CfgRec} (h : m.domain ≠ r.u 8 1) : takeAnnounce l portB m s r = s :=
  if_pos (bne_iff_ne.mpr h)
theorem takeAnnounce_joins {portB : Bool} {m : Announce} {r : CfgRec} (h : m.domain = r.u 8 1) :
    (((takeAnnounce l portB m s r).lane l).net.port portB).masters =
      m :: (((s.lane l).net.port portB).masters.filter fun a => a.identity != m.identity) ∧
    ∀ b, bestMaster (((takeAnnounce l portB m s r).lane l).net.portA.masters ++ ((takeAnnounce l portB m s r).lane l).net.portB.masters) = some b →
      ((takeAnnounce l portB m s r).lane l).net.gm = some b.identity := by
  have he : takeAnnounce l portB m s r = selectMaster (s.updNet l fun v =>
      v.setPort portB { v.port portB with masters := m :: (v.port portB).masters.filter fun a => a.identity != m.identity }) l :=
    if_neg (by rw [h, bne_self_eq_false]; nofun)
  obtain ⟨ha, hb, hg⟩ := selectMaster_masters (s.updNet l fun v =>
      v.setPort portB { v.port portB with masters := m :: (v.port portB).masters.filter fun a => a.identity != m.identity }) l
  rw [← he] at ha hb hg
  refine ⟨?_, fun b hbest => hg b (by rw [← ha, ← hb]; exact hbest)⟩
  rw [lane_updNet] at ha hb
  cases portB
  · exact (congrArg PtpPort.masters ha :)
  · exact (congrArg PtpPort.masters hb :)

end Sys2Proof.Machine
end

section
/-! Station time (11 R296 to R301; 18 R468): delays, Syncs, the loss of the grandmaster, anchors. -/

namespace Sys2Proof.Machine

variable {s t : State} {l : LaneId}

/-! Delay messages (R296) -/

def takeDelay (l : LaneId) (portB : Bool) (m : PtpDelay) (s : State) (r : CfgRec) : State :=
  match m with
  | .delayResp ns => if peerDelay r then s else s.updNet l fun v => v.setPort portB { v.port portB with delay := some ns }
  | .peerResp ns => if peerDelay r then s.updNet l fun v => v.setPort portB { v.port portB with delay := some ns } else s
  | .peerReq => if peerDelay r then sendPtp s l portB r .peerResp else s
  | .delayReq => s
theorem exec_ptpDelayMessage (l : LaneId) (portB udp : Bool) (m : PtpDelay) (s : State) :
    exec (.ptpDelayMessage l portB udp m) s = .next (ptpArrives s l portB udp (delayType m) (takeDelay l portB m)) := by
  cases m <;> rfl

/-! A Sync of the selected grandmaster (R297, R300, R301) -/

/-- The servo's law on an offset, and the step that it asks of a station that does not run. -/
def timeSteered (s : State) (l : LaneId) (r : CfgRec) (off : Int) : State :=
  let fresh := (s.lane l).net.time == .free || (s.lane l).net.time == .holdover
  let s := servoIncrement (if fresh then startServo s l else s) l r off
  if s.st.phase != .running && s.timeLane == l && decide (r.u 0x10 4 < off.natAbs) then s.updNet l fun v => { v with step := some (-off) } else s
/-- Where the offset takes the state of the clock. -/
def timeMoved (s : State) (l : LaneId) (r : CfgRec) (off : Int) : State :=
  match (s.lane l).net.time with
  | .free => enterTime s l .locking
  | .holdover => enterTime s l .locking
  | .locking =>
    let n := if off.natAbs ≤ r.u 0x0C 4 then (s.lane l).net.goodRun + 1 else 0
    if 16 ≤ n then
      let s := enterTime s l .locked
      if runsRole (s.lane l).role then writeAnchor s l ((s.lane l).net.gm.getD 0) off else s
    else s.updNet l fun v => { v with goodRun := n }
  | .locked =>
    let n := if 4 * r.u 0x0C 4 < off.natAbs then (s.lane l).net.badRun + 1 else 0
    if 4 ≤ n then enterTime s l .locking else s.updNet l fun v => { v with badRun := n }

section
variable {r : CfgRec} {off : Int}
theorem timeSync_eq (s : State) (l : LaneId) (r : CfgRec) (off : Int) : timeSync s l r off = timeMoved (timeSteered s l r off) l r off := rfl

theorem timeSteered_clock (s : State) (l : LaneId) (r : CfgRec) (off : Int) : ClockSame s (timeSteered s l r off) l := by
  unfold timeSteered; extract_lets fresh u
  have hu : ClockSame s u l := by
    refine ClockSame.trans (t := if fresh then startServo s l else s) ?_ (servoIncrement_clock ..)
    split
    · exact startServo_clock ..
    · exact .refl ..
  split
  · exact hu.trans (updNet_clock ..)
  · exact hu
theorem timeMoved_ports (s : State) (l : LaneId) (r : CfgRec) (off : Int) : PortsSame s (timeMoved s l r off) l := by
  unfold timeMoved
  split
  · exact enterTime_ports ..
  · exact enterTime_ports ..
  · extract_lets n u
    split
    · split
      · exact (enterTime_ports ..).trans ((writeAnchor_reports ..).clock l).ports
      · exact enterTime_ports ..
    · exact updNet_ports ..
  · extract_lets n
    split
    · exact enterTime_ports ..
    · exact updNet_ports ..

theorem timeMoved_fresh (h : (s.lane l).net.time = .free ∨ (s.lane l).net.time = .holdover) :
    ((timeMoved s l r off).lane l).net.time = .locking := by
  unfold timeMoved
  obtain h | h := h <;> rw [h] <;> exact enterTime_time ..
section
variable (h : (s.lane l).net.time = .locking)
include h
theorem timeMoved_locks (hgood : off.natAbs ≤ r.u 0x0C 4) (hrun : 15 ≤ (s.lane l).net.goodRun) :
    ((timeMoved s l r off).lane l).net.time = .locked := by
  unfold timeMoved
  rw [h]
  dsimp only
  rw [if_pos hgood, if_pos (Nat.succ_le_succ hrun)]
  split
  · rw [((writeAnchor_reports ..).clock l).time, enterTime_time]
  · exact enterTime_time ..
theorem timeMoved_restarts (hbad : r.u 0x0C 4 < off.natAbs) : ((timeMoved s l r off).lane l).net.time = .locking ∧
    ((timeMoved s l r off).lane l).net.goodRun = 0 := by
  unfold timeMoved
  rw [h]
  dsimp only
  rw [if_neg (Nat.not_le.mpr hbad), if_neg (by decide), lane_updNet]
  exact ⟨h, rfl⟩
end
theorem timeMoved_unlocks (h : (s.lane l).net.time = .locked) (hbad : 4 * r.u 0x0C 4 < off.natAbs) (hrun : 3 ≤ (s.lane l).net.badRun) :
    ((timeMoved s l r off).lane l).net.time = .locking := by
  unfold timeMoved
  rw [h]
  dsimp only
  rw [if_pos hbad, if_pos (Nat.succ_le_succ hrun)]
  exact enterTime_time ..
end

/-- The offset of a Sync at its port. -/
def syncNoted (s : State) (l : LaneId) (portB : Bool) (r : CfgRec) (off : Int) : State :=
  let s := servoPort s l r portB
  compareOffsets (s.updNet l fun v => v.setPort portB { v.port portB with offset := some off, last := s.grid.mono }) l
/-- A Sync that the station takes. -/
def syncTaken (s : State) (l : LaneId) (portB : Bool) (r : CfgRec) (off : Int) : State :=
  let s := syncNoted s l portB r off
  if (s.lane l).net.useB = portB then timeSync s l r off else s

section
variable {r : CfgRec} {off : Int} {portB : Bool}

theorem servoPort_grid (s : State) (l : LaneId) (r : CfgRec) (portB : Bool) : (servoPort s l r portB).grid = s.grid := by
  have hnet (s : State) (f : Net → Net) : (s.updNet l f).grid = s.grid := updLane_grid ..
  have hact (s : State) : (actEvent s l 68 2 1).grid = s.grid := (actEvent_reports ..).grid
  have hact' (s : State) : (actEvent s l 68 2 0).grid = s.grid := (actEvent_reports ..).grid
  unfold servoPort; extract_lets v gap u run
  split
  · have hu : u.grid = s.grid := by
      simp only [u]; split
      · exact hnet ..
      · rfl
    split
    · rw [hact, hnet, hu]
    · exact hu
  · split
    · rfl
    · split
      · rw [hact', hnet]
      · exact hnet ..
theorem servoPort_stays (h : (s.lane l).net.useB = false) : servoPort s l r false = s := by
  unfold servoPort
  dsimp only
  rw [if_neg (by nofun), h]
  rfl

theorem syncNoted_port (s : State) (l : LaneId) (portB : Bool) (r : CfgRec) (off : Int) :
    (((syncNoted s l portB r off).lane l).net.port portB).offset = some off ∧
    (((syncNoted s l portB r off).lane l).net.port portB).last = s.grid.mono := by
  unfold syncNoted
  dsimp only
  rw [(compareOffsets_clock ..).ports.port, lane_updNet, servoPort_grid]
  dsimp only
  rw [Net.port_setPort]
  exact ⟨rfl, rfl⟩
theorem syncTaken_port (s : State) (l : LaneId) (portB : Bool) (r : CfgRec) (off : Int) :
    (((syncTaken s l portB r off).lane l).net.port portB).offset = some off ∧
    (((syncTaken s l portB r off).lane l).net.port portB).last = s.grid.mono := by
  unfold syncTaken
  dsimp only
  split
  · rw [timeSync_eq, ((timeSteered_clock ..).ports.trans (timeMoved_ports ..)).port]
    exact syncNoted_port ..
  · exact syncNoted_port ..

/-- On port A in use a taken Sync moves the clock, whose state and runs stand as before it. -/
theorem syncTaken_onA (h : (s.lane l).net.useB = false) : ∃ u, syncTaken s l false r off = timeMoved u l r off ∧
    (u.lane l).net.time = (s.lane l).net.time ∧ (u.lane l).net.goodRun = (s.lane l).net.goodRun ∧ (u.lane l).net.badRun = (s.lane l).net.badRun := by
  have hnoted : ((syncNoted s l false r off).lane l).net.time = (s.lane l).net.time ∧
      ((syncNoted s l false r off).lane l).net.goodRun = (s.lane l).net.goodRun ∧
      ((syncNoted s l false r off).lane l).net.badRun = (s.lane l).net.badRun ∧ ((syncNoted s l false r off).lane l).net.useB = false := by
    unfold syncNoted
    dsimp only
    have hc := compareOffsets_clock
      (s.updNet l fun v => v.setPort false { v.port false with offset := some off, last := s.grid.mono }) l
    rw [servoPort_stays h, hc.time, hc.goodRun, hc.badRun, hc.useB, lane_updNet]
    exact ⟨rfl, rfl, rfl, h⟩
  obtain ⟨htime, hgood, hbad, huse⟩ := hnoted
  have hs := timeSteered_clock (syncNoted s l false r off) l r off
  refine ⟨timeSteered (syncNoted s l false r off) l r off, ?_, hs.time.trans htime, hs.goodRun.trans hgood, hs.badRun.trans hbad⟩
  unfold syncTaken
  dsimp only
  rw [if_pos huse, timeSync_eq]
end

/-- What a Sync under the station's record does. -/
def takeSync (l : LaneId) (portB : Bool) (identity domain : Nat) (off : Int) (s : State) (r : CfgRec) : State :=
  let s := if domain = r.u 8 1 ∧ (s.lane l).net.gm = some identity then sendPtp s l portB r (if peerDelay r then .peerReq else .delayReq) else s
  let v := (s.lane l).net
  if domain != r.u 8 1 || v.gm != some identity || (v.port portB).delay.isNone ||
      !(decide ((off - ((v.port v.useB).offset).getD 0).natAbs ≤ 1000000000) || v.time == .free || v.time == .locking) then s
  else syncTaken s l portB r off
theorem exec_ptpSync (l : LaneId) (portB udp : Bool) (identity domain : Nat) (off : Int) (s : State) :
    exec (.ptpSync l portB udp identity domain off) s = .next (ptpArrives s l portB udp 2 (takeSync l portB identity domain off)) := rfl

/-- An offset that the servo takes: near the clock's own, or while the clock is not locked (R297). -/
def InBand (v : Net) (off : Int) : Prop :=
  (off - ((v.port v.useB).offset).getD 0).natAbs ≤ 1000000000 ∨ v.time = .free ∨ v.time = .locking
theorem inBand_iff (v : Net) (off : Int) : (decide ((off - ((v.port v.useB).offset).getD 0).natAbs ≤ 1000000000) ||
    v.time == .free || v.time == .locking) = true ↔ InBand v off := by
  unfold InBand
  rw [Bool.or_eq_true, Bool.or_eq_true, decide_eq_true_iff, beq_iff_eq, beq_iff_eq, or_assoc]
theorem ClockSame.inBand (h : ClockSame s t l) (off : Int) : InBand (t.lane l).net off ↔ InBand (s.lane l).net off := by
  unfold InBand
  rw [h.useB, h.ports.port, h.time]

section
variable {r : CfgRec} {off : Int} {portB : Bool} {identity domain : Nat}

theorem takeSync_foreign (h : domain ≠ r.u 8 1 ∨ (s.lane l).net.gm ≠ some identity) : takeSync l portB identity domain off s r = s := by
  unfold takeSync
  dsimp only
  rw [if_neg (c := domain = r.u 8 1 ∧ (s.lane l).net.gm = some identity) (not_and_or.mpr h)]
  refine if_pos ?_
  obtain h | h := h
  · rw [bne_iff_ne.mpr h]; rfl
  · rw [bne_iff_ne.mpr h, Bool.or_true]; rfl

section
variable (hd : domain = r.u 8 1) (hg : (s.lane l).net.gm = some identity)
include hd hg

/-- A Sync of the selected grandmaster has the port ask for its delay, and is taken where its offset can be. -/
theorem takeSync_own : takeSync l portB identity domain off s r =
    let u := sendPtp s l portB r (if peerDelay r then .peerReq else .delayReq)
    if ((s.lane l).net.port portB).delay.isNone || !(decide ((off - (((s.lane l).net.port (s.lane l).net.useB).offset).getD 0).natAbs ≤ 1000000000)
      || (s.lane l).net.time == .free || (s.lane l).net.time == .locking) then u else syncTaken u l portB r off := by
  have hc := sendPtp_clock s l portB r (if peerDelay r then .peerReq else .delayReq)
  unfold takeSync
  dsimp only
  rw [if_pos (c := domain = r.u 8 1 ∧ (s.lane l).net.gm = some identity) ⟨hd, hg⟩, hc.gm, hc.useB, hc.time, hc.ports.port, hc.ports.port, hd, hg, bne_self_eq_false, bne_self_eq_false]
  rfl
theorem takeSync_asks (h : ((s.lane l).net.port portB).delay = none ∨ ¬ InBand (s.lane l).net off) :
    takeSync l portB identity domain off s r = sendPtp s l portB r (if peerDelay r then .peerReq else .delayReq) := by
  rw [takeSync_own hd hg]
  refine if_pos ?_
  rw [Bool.or_eq_true, Option.isNone_iff_eq_none, Bool.not_eq_true']
  exact h.imp_right fun hb => Bool.eq_false_of_not_eq_true (mt (inBand_iff ..).mp hb)
theorem takeSync_takes (h : ((s.lane l).net.port portB).delay ≠ none) (hb : InBand (s.lane l).net off) :
    takeSync l portB identity domain off s r =
      syncTaken (sendPtp s l portB r (if peerDelay r then .peerReq else .delayReq)) l portB r off := by
  rw [takeSync_own hd hg]
  refine if_neg ?_
  rw [Bool.or_eq_true, Option.isNone_iff_eq_none, Bool.not_eq_true', (inBand_iff ..).mpr hb]
  exact fun hn => hn.elim h nofun
end
end

/-! The loss of the grandmaster, holdover, anchors (R298, R301, R468) -/

theorem exec_announceTimeout (l : LaneId) (s : State) : exec (.announceTimeout l) s = execAnnounceTimeout l s := rfl
theorem exec_holdoverExpired (l : LaneId) (s : State) : exec (.holdoverExpired l) s = execHoldoverExpired l s := rfl
theorem exec_timeAnchorDue (s : State) : exec .timeAnchorDue s = execTimeAnchorDue s := rfl

/-- The selection of a grandmaster has ended. -/
def Unselected (t : State) (l : LaneId) : Prop :=
  (t.lane l).net.gm = none ∧ (t.lane l).net.portA.masters = [] ∧ (t.lane l).net.portB.masters = []
theorem PortsSame.unselected (h : PortsSame s t l) (hs : Unselected s l) : Unselected t l := by
  obtain ⟨hg, ha, hb⟩ := hs
  exact ⟨h.gm.trans hg, h.a ▸ ha, h.b ▸ hb⟩

def dropMasters (s : State) (l : LaneId) : State := s.updNet l fun v =>
  { v with gm := none, portA := { v.portA with masters := [] }, portB := { v.portB with masters := [] } }
theorem dropMasters_unselected (s : State) (l : LaneId) : Unselected (dropMasters s l) l := by
  unfold Unselected dropMasters; rw [lane_updNet]; exact ⟨rfl, rfl, rfl⟩

theorem increment_clock (s : State) (l : LaneId) (x : Net → Nat) : ClockSame s (s.updNet l fun v => { v with increment := x v }) l :=
  updNet_clock ..
theorem enterHoldover_spec (s : State) (l : LaneId) : PortsSame s (enterHoldover s l) l ∧
    ((enterHoldover s l).lane l).net.time = .holdover ∧ ((enterHoldover s l).lane l).net.holdAt = s.grid.mono := by
  have h : ClockSame s (startServo (holdLaneRate (s.updNet l fun v => { v with increment := meanInc s.grid.mono v.hist v.increment }) l) l) l :=
    ((increment_clock s l fun v => meanInc s.grid.mono v.hist v.increment).trans (holdLaneRate_clock ..)).trans (startServo_clock ..)
  exact ⟨h.ports.trans (enterTime_ports ..), enterTime_time .., (enterTime_holdover ..).trans (by rw [h.grid])⟩

theorem announceTimeout_holds (h : (s.lane l).net.time = .locked ∨ ((s.lane l).net.time = .locking ∧ (s.lane l).net.lockedBefore = true)) :
    execAnnounceTimeout l s = .next (enterHoldover (dropMasters s l) l) := by
  unfold execAnnounceTimeout
  dsimp only
  obtain h | ⟨h, hbefore⟩ := h
  · rw [h]; rfl
  · rw [h]; exact congrArg Host.Outcome.next (if_pos hbefore)
theorem announceTimeout_frees (h : (s.lane l).net.time = .locking) (hbefore : (s.lane l).net.lockedBefore = false) :
    execAnnounceTimeout l s = .next (enterTime (dropMasters s l) l .free) := by
  unfold execAnnounceTimeout
  dsimp only
  rw [h]
  exact congrArg Host.Outcome.next (if_neg (by rw [hbefore]; nofun))
theorem announceTimeout_stays (h : (s.lane l).net.time = .free ∨ (s.lane l).net.time = .holdover) :
    execAnnounceTimeout l s = .next (dropMasters s l) := by
  unfold execAnnounceTimeout
  dsimp only
  obtain h | h := h <;> rw [h] <;> rfl

theorem holdoverExpired_frees (h : (s.lane l).net.time = .holdover) : Becomes (.holdoverExpired l) s (s.updNet l fun v =>
    { v with time := .free, goodRun := 0, badRun := 0, lockedBefore := false }) :=
  ⟨_, congrArg Host.Outcome.next (if_pos h), actEvent_reports ..⟩

theorem timeAnchorDue_writes (h : s.activeLane = some l) (ht : (s.lane l).net.time = .locked) : Becomes .timeAnchorDue s s := by
  refine ⟨_, ?_, writeAnchor_reports s l ((s.lane l).net.gm.getD 0) ((((s.lane l).net.port (s.lane l).net.useB).offset).getD 0)⟩
  rw [exec_timeAnchorDue]
  unfold execTimeAnchorDue
  rw [h]
  exact congrArg Host.Outcome.next (if_pos ht)
theorem timeAnchorDue_not (h : s.activeLane = none ∨ (s.activeLane = some l ∧ (s.lane l).net.time ≠ .locked)) :
    execTimeAnchorDue s = .next s := by
  unfold execTimeAnchorDue
  obtain h | ⟨h, ht⟩ := h
  · rw [h]
  · rw [h]; exact congrArg Host.Outcome.next (if_neg ht)

/-! The obligation -/

/-- Settles O50: every message through `ptpArrives`, a Sync through the clock that its stages keep. -/
theorem timeRows : Obligations.TimeRows := by
  unfold Obligations.TimeRows
  intro s l
  simp only [exec_ptpAnnounce, exec_ptpDelayMessage, exec_ptpSync, exec_holdoverExpired, exec_timeAnchorDue]
  refine ⟨fun portB udp => ⟨fun typ i hi => ?arrives, fun r hheard hr hudp => ⟨fun u m ha => ?announce, fun ns => ?delays,
    fun u identity domain off ha => ⟨fun hno => ?foreign, fun hd hg => ⟨fun hno => ?asks, fun hdelay hband => ⟨?offset, fun hA hB => ?moves⟩⟩⟩⟩⟩,
    ⟨fun h => ?holds, fun h hbefore => ?frees, fun h => ?stays⟩, holdoverExpired_frees, fun h => congrArg _ (if_neg h),
    timeAnchorDue_writes, timeAnchorDue_not⟩
  case arrives =>
    have hk : ∃ k, exec i s = .next (ptpArrives s l portB udp typ k) := by
      obtain ⟨rfl, m, rfl⟩ | ⟨d, rfl, rfl⟩ | ⟨rfl, a, d, o, rfl⟩ := hi
      · exact ⟨_, exec_ptpAnnounce ..⟩
      · exact ⟨_, exec_ptpDelayMessage ..⟩
      · exact ⟨_, exec_ptpSync ..⟩
    obtain ⟨k, hk⟩ := hk
    refine ⟨fun hno => ?_, fun u hheard ha => ⟨_, hk, ptpArrives_sheds hheard ha⟩, fun u hheard ha hno => ?_⟩
    · rw [hk, ptpArrives_deaf hno]
    · rw [hk, ptpArrives_counted hheard ha hno]
  case announce =>
    have ht := ptpAdmits_tallied ha
    rw [ptpArrives_takes hheard ha hr hudp]
    refine ⟨fun hd => congrArg _ (takeAnnounce_other hd), fun hd => ⟨_, (exec_ptpAnnounce ..).trans (congrArg _ (ptpArrives_takes hheard ha hr hudp)), ?_⟩⟩
    have h := takeAnnounce_joins (s := u) (l := l) (portB := portB) hd
    rwa [ht.clock.ports.port] at h
  case delays =>
    have hgives {m : PtpDelay} {u : State} (ha : ptpAdmits s l portB (delayType m) = (true, u)) :=
      ptpArrives_takes (k := takeDelay l portB m) hheard ha hr hudp
    refine ⟨fun u ha => ?_, fun hpeer => ⟨fun u ha => ?_, fun u ha => ?_, fun u ha => ?_⟩, fun hpeer => ⟨fun u ha => ?_, fun u ha => ?_, fun u ha => ?_⟩⟩
    · rw [hgives ha]; rfl
    · rw [hgives ha]
      refine congrArg _ ((if_neg (by rw [hpeer]; nofun)).trans (updNet_congr ?_))
      rw [(ptpAdmits_tallied ha).clock.ports.port]
    · rw [hgives ha]; exact congrArg _ (if_neg (by rw [hpeer]; nofun))
    · rw [hgives ha]; exact congrArg _ (if_neg (by rw [hpeer]; nofun))
    · rw [hgives ha]; exact congrArg _ (if_pos hpeer)
    · rw [hgives ha]
      refine congrArg _ ((if_pos hpeer).trans (updNet_congr ?_))
      rw [(ptpAdmits_tallied ha).clock.ports.port]
    · rw [hgives ha]; exact congrArg _ (if_pos hpeer)
  case foreign =>
    rw [ptpArrives_takes hheard ha hr hudp, takeSync_foreign]
    rwa [(ptpAdmits_tallied ha).clock.gm]
  case asks =>
    have hc := (ptpAdmits_tallied ha).clock
    rw [ptpArrives_takes hheard ha hr hudp, takeSync_asks hd (hc.gm.trans hg)]
    rw [hc.ports.port]
    exact hno.imp_right (mt (hc.inBand off).mp)
  case offset =>
    have hc := (ptpAdmits_tallied ha).clock
    have he := takeSync_takes (s := u) hd (hc.gm.trans hg) (portB := portB) (by rw [hc.ports.port]; exact hdelay) ((hc.inBand off).mpr hband)
    refine ⟨_, (exec_ptpSync ..).trans (congrArg _ ((ptpArrives_takes hheard ha hr hudp).trans he)), ?_⟩
    obtain ⟨hoff, hlast⟩ := syncTaken_port (sendPtp u l portB r (if peerDelay r then .peerReq else .delayReq)) l portB r off
    exact ⟨hoff, hlast.trans (congrArg Grid.mono ((sendPtp_clock u l portB r _).grid.trans hc.grid))⟩
  case moves =>
    subst hA
    have hc := (ptpAdmits_tallied ha).clock
    have he := takeSync_takes (s := u) hd (hc.gm.trans hg) (portB := false) (by rw [hc.ports.port]; exact hdelay) ((hc.inBand off).mpr hband)
    have hs := hc.trans (sendPtp_clock u l false r (if peerDelay r then .peerReq else .delayReq))
    obtain ⟨w, hw, htime, hgood, hbad⟩ := syncTaken_onA (r := r) (off := off) (hs.useB.trans hB)
    have hexec : exec (.ptpSync l false udp identity domain off) s = .next (timeMoved w l r off) :=
      (exec_ptpSync ..).trans (congrArg _ (((ptpArrives_takes hheard ha hr hudp).trans he).trans hw))
    have htime := htime.trans hs.time
    have hgood := hgood.trans hs.goodRun
    have hbad := hbad.trans hs.badRun
    refine ⟨fun h => ⟨_, hexec, timeMoved_fresh (htime ▸ h)⟩, fun h hin hrun => ⟨_, hexec, timeMoved_locks (htime.trans h) hin (hgood ▸ hrun)⟩,
      fun h hout => ⟨_, hexec, timeMoved_restarts (htime.trans h) hout⟩,
      fun h hout hrun => ⟨_, hexec, timeMoved_unlocks (htime.trans h) hout (hbad ▸ hrun)⟩⟩
  case holds =>
    obtain ⟨hports, htime, hat⟩ := enterHoldover_spec (dropMasters s l) l
    exact ⟨_, (exec_announceTimeout ..).trans (announceTimeout_holds h), hports.unselected (dropMasters_unselected ..), htime,
      hat.trans (congrArg Grid.mono (updLane_grid ..))⟩
  case frees =>
    exact ⟨_, (exec_announceTimeout ..).trans (announceTimeout_frees h hbefore), (enterTime_ports ..).unselected (dropMasters_unselected ..),
      enterTime_time ..⟩
  case stays =>
    refine ⟨_, (exec_announceTimeout ..).trans (announceTimeout_stays h), dropMasters_unselected .., ?_⟩
    unfold dropMasters
    rw [lane_updNet]

end Sys2Proof.Machine
end

section
/-! The recorder (17 and 18: R460 to R467, R472, R474, R478): its sequence goes onward, and what staging and the events of a report keep. -/

namespace Sys2Proof.Machine

variable {s t : State} {l : LaneId}

/-! The sequence goes onward -/

/-- A recorder after further records: its next sequence is no lower, and its clear base stands. -/
structure Onward (v w : Recorder) : Prop where
  next : v.next ≤ w.next
  base : w.clearBase = v.clearBase
theorem Onward.refl (v : Recorder) : Onward v v := ⟨le_rfl, rfl⟩
theorem Onward.trans {v w x : Recorder} (h : Onward v w) (g : Onward w x) : Onward v x := ⟨h.next.trans g.next, g.base.trans h.base⟩
theorem onward_foldl {α : Type} (f : Recorder → α → Recorder) (hf : ∀ v x, Onward v (f v x)) (xs : List α) (v : Recorder) :
    Onward v (xs.foldl f v) := by
  induction xs generalizing v with
  | nil => exact .refl v
  | cons x xs ih => exact (hf v x).trans (ih _)
theorem carrySeal_onward (v : Recorder) (code : Nat) : Onward v (carrySeal v code) := by
  unfold carrySeal; split
  · exact .refl v
  · exact ⟨Nat.le_succ _, rfl⟩
theorem carryDue_onward (v : Recorder) : Onward v (carryDue v) := by
  refine onward_foldl _ (fun v c => ?_) _ v
  split
  · split
    · exact carrySeal_onward ..
    · exact .refl v
  · exact .refl v
/-- A record taken into the ring takes a sequence. -/
theorem acceptRec_next (v : Recorder) (r : RawRec) (k : Nat) : v.next < (acceptRec v r k).next ∧ (acceptRec v r k).clearBase = v.clearBase := by
  have h := carryDue_onward v
  have hw : (writeSlot (carryDue v) r k).next = (carryDue v).next + 1 := rfl
  have he : (acceptRec v r k).next = (writeSlot (carryDue v) r k).next ∧ (acceptRec v r k).clearBase = (writeSlot (carryDue v) r k).clearBase := by
    unfold acceptRec; extract_lets v1 n v2 v3
    have h3 : v3.next = v2.next ∧ v3.clearBase = v2.clearBase := by
      simp only [v3]; split <;> exact ⟨rfl, rfl⟩
    split <;> exact h3
  obtain ⟨hn, hb⟩ := he
  exact ⟨by rw [hn, hw]; exact Nat.lt_succ_of_le h.next, hb.trans h.base⟩
theorem acceptRec_onward {v w : Recorder} (h : Onward v w) (r : RawRec) (k : Nat) : Onward v (acceptRec w r k) :=
  ⟨h.next.trans (acceptRec_next w r k).1.le, (acceptRec_next w r k).2.trans h.base⟩
theorem arrive_onward (s : State) (r : RawRec) : Onward s.svc.rcd (arrive s r).svc.rcd := by
  unfold arrive; split
  · exact acceptRec_onward (.refl _) ..
  · dsimp only
    rw [updRec_svc]
    dsimp only
    split
    · refine acceptRec_onward ?_ ..
      exact ⟨le_rfl, rfl⟩
    · exact ⟨le_rfl, rfl⟩
theorem drainQueue_onward (n : Nat) (s : State) : Onward s.svc.rcd (drainQueue n s).svc.rcd := by
  induction n generalizing s with
  | zero => exact .refl _
  | succ n ih =>
    unfold drainQueue; split
    · exact .refl _
    · next r rest _ =>
      have h0 : Onward s.svc.rcd (s.updRec fun v => { v with queue := rest }).svc.rcd := ⟨le_rfl, rfl⟩
      exact (h0.trans (arrive_onward ..)).trans (ih _)

/-! What a report keeps of the recorder -/

theorem Reports.rcd (h : Reports s t) : { t.svc.rcd with queue := [] } = { s.svc.rcd with queue := [] } :=
  (congrArg (fun s => s.svc.rcd) h.rest :)
theorem Reports.onward (h : Reports s t) : Onward s.svc.rcd t.svc.rcd :=
  ⟨(congrArg Recorder.next h.rcd).ge, (congrArg Recorder.clearBase h.rcd :)⟩
theorem Reports.up (h : Reports s t) : t.svc.up = s.svc.up := (congrArg (fun s => s.svc.up) h.rest :)
theorem Reports.writing (h : Reports s t) : t.svc.rcd.writing = s.svc.rcd.writing := (congrArg Recorder.writing h.rcd :)
theorem Reports.waiting (h : Reports s t) : t.svc.rcd.waiting = s.svc.rcd.waiting := (congrArg Recorder.waiting h.rcd :)

/-! The clear record (R472) -/

theorem exec_recorderClear (p : Part) (s : State) : exec (.recorderClear p) s = execRecorderClear p s := rfl

/-- The recorder once its own clear record is its oldest: seals and anchor carried behind it. -/
def clearedFrom (own : Nat) (v : Recorder) : Recorder :=
  let v := { v with clearBase := own }
  let v := sealCodes.foldl carrySeal v
  match v.anchor.bind (recordAt v) with
  | none => v
  | some r => if r.pcycle = v.pcycle % 2 ^ 24 then
      let n := v.next
      { writeSlot v (carriedCopy r) 0 with anchor := some n }
    else v
theorem clearedFrom_onward (own : Nat) (v : Recorder) : Onward { v with clearBase := own } (clearedFrom own v) := by
  have h := onward_foldl carrySeal carrySeal_onward sealCodes { v with clearBase := own }
  unfold clearedFrom
  dsimp only
  split
  · exact h
  · split
    · exact ⟨h.next.trans (Nat.le_succ _), h.base⟩
    · exact h

/-- The recorder's own record of a clearing by a partition. -/
def clearRecord (s : State) (p own : Nat) : RawRec :=
  { src := 228, code := 1, sev := 4, origin := 3, bypass := true
    payload := leBytes p 1 ++ zeros 3 ++ leBytes (oldestSeq s.svc.rcd) 8 ++ leBytes own 8 ++ zeros 16 }
theorem updRec_stationSame (s : State) (f : Recorder → Recorder) : StationSame s (s.updRec f) := updSvc_stationSame s _
/-- The recorder with all records taken, before its own clear record; and once that record's event is told. -/
def clearReady (s : State) : State := (drainQueue s.svc.rcd.queue.length s).updRec carryDue
def clearTold (s : State) : State := deliverEvent (clearReady s) ⟨228, 1, dataTick (clearReady s)⟩
/-- What the recorder does to clear itself. -/
def recorderCleared (s : State) (p : Nat) : State :=
  ((clearTold s).updRec fun v => acceptRec v (clearRecord (clearTold s) p (clearReady s).svc.rcd.next) 0).updRec
    (clearedFrom (clearReady s).svc.rcd.next)

theorem recorderCleared_same (s : State) (p : Nat) : StationSame s (recorderCleared s p) := by
  have h1 : StationSame s (clearReady s) :=
    (drainQueue_stationSame s.svc.rcd.queue.length s).trans (updRec_stationSame ..)
  have h2 : StationSame (clearReady s) (clearTold s) := (deliverEvent_reports ..).stationSame
  exact ((h1.trans h2).trans (updRec_stationSame ..)).trans (updRec_stationSame ..)
theorem clearReady_next (s : State) : s.svc.rcd.next ≤ (clearReady s).svc.rcd.next := by
  unfold clearReady
  rw [updRec_svc]
  exact (drainQueue_onward s.svc.rcd.queue.length s).next.trans (carryDue_onward _).next
theorem clearTold_next (s : State) : (clearReady s).svc.rcd.next ≤ (clearTold s).svc.rcd.next := by
  have h : Reports (clearReady s) (clearTold s) := deliverEvent_reports ..
  exact h.onward.next
theorem clearedFrom_base {own : Nat} {v : Recorder} (h : own ≤ v.next) (r : RawRec) (k : Nat) :
    (clearedFrom own (acceptRec v r k)).clearBase = own ∧ own < (clearedFrom own (acceptRec v r k)).next := by
  obtain ⟨hnext, hbase⟩ := clearedFrom_onward own (acceptRec v r k)
  exact ⟨hbase, (h.trans_lt (acceptRec_next v r k).1).trans_le hnext⟩
theorem recorderCleared_base (s : State) (p : Nat) : s.svc.rcd.next ≤ (recorderCleared s p).svc.rcd.clearBase ∧
    (recorderCleared s p).svc.rcd.clearBase < (recorderCleared s p).svc.rcd.next := by
  obtain ⟨hbase, hnext⟩ := clearedFrom_base (clearTold_next s) (clearRecord (clearTold s) p (clearReady s).svc.rcd.next) 0
  unfold recorderCleared
  rw [updRec_svc, updRec_svc]
  dsimp only
  rw [hbase]
  exact ⟨clearReady_next s, hnext⟩

section
variable {p : Part} {ws : List Word} (h : Served s p false .normal 0x0051 ws)
include h
theorem recorderClear_closed (hs : (s.part p).session = false) : execRecorderClear p s = .next (answer s p false AUTH_REQUIRED) := by
  unfold execRecorderClear
  rw [serve_eq h rfl rfl]
  exact congrArg Host.Outcome.next (if_pos (by rw [hs]; rfl))
section
variable (hs : (s.part p).session = true)
include hs
theorem recorderClear_down (hd : s.svc.up = false) : execRecorderClear p s = .next (answer s p false RECORDER_DOWN) := by
  unfold execRecorderClear
  rw [serve_eq h rfl rfl]
  exact congrArg Host.Outcome.next ((if_neg (by rw [hs]; nofun)).trans (if_pos (by rw [hd]; rfl)))
theorem recorderClear_clears (hu : s.svc.up = true) : execRecorderClear p s = .next (answer (recorderCleared s p) p false OK) := by
  unfold execRecorderClear
  rw [serve_eq h rfl rfl]
  refine congrArg Host.Outcome.next ((if_neg (by rw [hs]; nofun)).trans ((if_neg (by rw [hu]; nofun)).trans ?_))
  unfold recorderCleared clearedFrom clearTold clearReady clearRecord
  rfl
end
end

end Sys2Proof.Machine
end

section
/-! The recorder's rows (17 and 18: R460 to R467, R474, R478). -/

namespace Sys2Proof.Machine

variable {s t : State} {l : LaneId}

/-! A record arrives (R460 to R465) -/

theorem exec_recordArrival (s : State) : exec .recordArrival s = execRecordArrival s := rfl

theorem recordArrival_idle (h : s.svc.rcd.queue = [] ∨ s.svc.up = false) : execRecordArrival s = .next s := by
  unfold execRecordArrival
  split
  · rfl
  · next r rest hq =>
    have hdown := h.resolve_left (by rw [hq]; nofun)
    exact congrArg Host.Outcome.next (if_neg (by rw [hdown]; nofun))
theorem recordArrival_takes {r : RawRec} {rest : List RawRec} (hq : s.svc.rcd.queue = r :: rest) (hu : s.svc.up = true) :
    execRecordArrival s = .next (writeBack (bothLanes unstage (arrive (s.updRec fun v => { v with queue := rest }) r))) := by
  unfold execRecordArrival
  rw [hq]
  exact congrArg Host.Outcome.next (if_pos hu)

/-- No lane stages, and none has staged records left. -/
def Calm (s : State) : Prop := ∀ k, (s.lane k).staging.active = false ∧ (s.lane k).staging.recs = []

theorem unstage_idle (h : (s.lane l).staging.active = false) : unstage s l = s := if_pos (by rw [h]; rfl)
theorem writeBack_calm (h : Calm s) : writeBack s = s := by
  have hout (k : LaneId) : (if (s.lane k).staging.active then [] else (s.lane k).staging.recs) = [] := by
    rw [(h k).2]; split <;> rfl
  unfold writeBack
  refine if_pos ?_
  dsimp only
  rw [hout .a, hout .b]
  exact Bool.or_true _
theorem settle_calm (h : Calm s) : writeBack (bothLanes unstage s) = s := by
  unfold bothLanes
  rw [unstage_idle (h .a).1, unstage_idle (h .b).1, writeBack_calm h]
theorem arrive_lane (s : State) (r : RawRec) (k : LaneId) : (arrive s r).lane k = s.lane k := by
  unfold arrive; split <;> cases k <;> rfl
theorem recordArrival_calm {r : RawRec} {rest : List RawRec} (hq : s.svc.rcd.queue = r :: rest) (hu : s.svc.up = true) (hc : Calm s) :
    execRecordArrival s = .next (arrive (s.updRec fun v => { v with queue := rest }) r) := by
  rw [recordArrival_takes hq hu, settle_calm]
  intro k
  rw [arrive_lane]
  cases k
  · exact hc .a
  · exact hc .b
theorem arrive_staged {r : RawRec} {rest : List RawRec} (h : r.staged = true) : arrive (s.updRec fun v => { v with queue := rest }) r =
    s.updRec fun v => acceptRec { v with queue := rest } r r.withheld := if_pos h
theorem arrive_judged {r : RawRec} {rest : List RawRec} (h : r.staged = false) {ok : Bool} {k : Nat} {b : Tab Bucket}
    (hj : bucketJudge s.svc.rcd.buckets (bucketSetting s r.src r.code) (r.stamps.elim s.svc.rcd.optime fun x => x.1) r = (ok, k, b)) :
    arrive (s.updRec fun v => { v with queue := rest }) r = s.updRec fun v =>
      if ok then acceptRec { v with queue := rest, buckets := b } r (r.withheld + k) else { v with queue := rest, buckets := b } := by
  refine (if_neg (by rw [h]; nofun)).trans ?_
  extract_lets at_
  rw [show bucketJudge (s.updRec fun v => { v with queue := rest }).svc.rcd.buckets
    (bucketSetting (s.updRec fun v => { v with queue := rest }) r.src r.code) at_ r = (ok, k, b) from hj]
  rfl

/-! Flood windows (R466) -/

theorem exec_floodWindowEnd (s : State) : exec .floodWindowEnd s = execFloodWindowEnd s := rfl
theorem floodStaged_svc (s : State) (l : LaneId) : (floodStaged s l).svc = s.svc := by
  have hfold (rs : List RawRec) (u : State) : (rs.foldl (fun s r => stageRecord s l { r with origin := laneNo l }) u).svc = u.svc := by
    induction rs generalizing u with
    | nil => rfl
    | cons r rs ih => exact (ih _).trans (updLane_svc_eq ..)
  unfold floodStaged; split
  · rfl
  · exact (hfold ..).trans (updLane_svc_eq ..)
theorem offerRecord_fold_reports (rs : List RawRec) (s : State) : Reports s (rs.foldl (fun s r => offerRecord s s.mainLane r) s) :=
  reports_foldl _ _ (fun _ _ => offerRecord_reports ..) s
/-- At a whole minute every bucket's window is closed, and nothing else of it changes. -/
theorem floodWindowEnd_closes (h : s.svc.rcd.optime % 960 = 0) : ∃ t, execFloodWindowEnd s = .next t ∧
    t.svc.rcd.buckets = s.svc.rcd.buckets.map fun b => (b.1, { b.2 with window := 0 }) := by
  refine ⟨_, congrArg Host.Outcome.next (if_neg (by rw [h]; nofun)), ?_⟩
  have hsvc : (bothLanes floodStaged s).svc = s.svc := (floodStaged_svc ..).trans (floodStaged_svc ..)
  dsimp only
  rw [hsvc]
  exact (congrArg Recorder.buckets (offerRecord_fold_reports ..).rcd :)

/-! Operating time (R461, R462) -/

/-- A step of a staging lane's own time. -/
def shadowStep (at_ : Nat) (v : Lane) : Lane :=
  if v.staging.active then { v with staging := { v.staging with optime := v.staging.optime + 1, stepAt := at_ } } else v
/-- Both lanes' own times have stepped. -/
def shadowsStep (ns : Nat) (s : State) : State := (s.updLane .a (shadowStep (s.grid.now + ns))).updLane .b (shadowStep (s.grid.now + ns))
theorem shadowStep_feed (at_ : Nat) (v : Lane) : (shadowStep at_ v).feed = v.feed := by unfold shadowStep; split <;> rfl
theorem shadowStep_idle {at_ : Nat} {v : Lane} (h : v.staging.active = false) : shadowStep at_ v = v := if_neg (by rw [h]; nofun)
theorem optimeStep_eq (ns : Nat) (s : State) : execOptimeStep ns s = .next (if s.a.feed || s.b.feed
    then (shadowsStep ns s).updRec fun v => { v with optime := (v.optime + 1) % 2 ^ 48, stepAt := s.grid.now + ns } else shadowsStep ns s) := by
  refine congrArg Host.Outcome.next (if_congr ?_ rfl rfl)
  show ((shadowStep _ s.a).feed || (shadowStep _ s.b).feed) = true ↔ _
  rw [shadowStep_feed, shadowStep_feed]
theorem shadowsStep_idle (h : ∀ k, (s.lane k).staging.active = false) (ns : Nat) : shadowsStep ns s = s := by
  have ha : shadowStep (s.grid.now + ns) s.a = s.a := shadowStep_idle (h .a)
  have hb : shadowStep (s.grid.now + ns) s.b = s.b := shadowStep_idle (h .b)
  show { s with a := shadowStep (s.grid.now + ns) s.a, b := shadowStep (s.grid.now + ns) s.b } = s
  rw [ha, hb]
theorem shadowsStep_lane (ns : Nat) (s : State) (l : LaneId) : (shadowsStep ns s).lane l = shadowStep (s.grid.now + ns) (s.lane l) := by
  cases l <;> rfl

/-! Banks (R467, R474, R475, R478) -/

theorem exec_retainPeriodDue (s : State) : exec .retainPeriodDue s = execRetainPeriodDue s := rfl
theorem exec_bankWriteDone (s : State) : exec .bankWriteDone s = execBankWriteDone s := rfl

theorem bankEvent_reports (s : State) (l : LaneId) (code bank cause bflags seq : Nat) : Reports s (bankEvent s l code bank cause bflags seq) :=
  raise_reports ..

section
variable {b : Bank}
theorem startBank_noProgram (h : s.st.prog = none) : startBank s l b = s := by
  unfold startBank; exact if_pos (by rw [h]; rfl)
section
variable (hp : s.st.prog ≠ none)
include hp
theorem startBank_programmed : startBank s l b =
    if !s.svc.up then
      if bit b.bflags 1 then (bankEvent s l 2 (bankTarget s.svc.rcd).1 1 b.bflags 0).updRec fun v => { v with skipped := some b }
      else bankEvent s l 2 (bankTarget s.svc.rcd).1 1 b.bflags 0
    else if s.svc.rcd.writing.isSome then
      if b.bflags = 1 then s else s.updRec fun v => { v with waiting := some (b, l) }
    else s.updRec fun v => { setBank v (bankTarget s.svc.rcd).1 {} with
      writing := some ⟨(bankTarget s.svc.rcd).1, { b with seq := (bankTarget s.svc.rcd).2 }, l⟩ } := by
  unfold startBank
  exact if_neg (by rwa [Option.isNone_iff_eq_none])
theorem startBank_starts (hu : s.svc.up = true) (hw : s.svc.rcd.writing = none) : startBank s l b = s.updRec fun v =>
    { setBank v (bankTarget s.svc.rcd).1 {} with
      writing := some ⟨(bankTarget s.svc.rcd).1, { b with seq := (bankTarget s.svc.rcd).2 }, l⟩ } := by
  rw [startBank_programmed hp, hu, hw]; rfl
theorem startBank_leftOut (hu : s.svc.up = true) (hw : s.svc.rcd.writing ≠ none) (hb : b.bflags = 1) : startBank s l b = s := by
  rw [startBank_programmed hp, hu, Option.isSome_iff_ne_none.mpr hw]
  exact if_pos hb
theorem startBank_skips (hu : s.svc.up = false) (hb : bit b.bflags 1 = false) : Reports s (startBank s l b) := by
  rw [startBank_programmed hp, hu, hb]
  exact bankEvent_reports ..
end
/-- What starting a bank leaves alone: the service domain and the lanes; without the domain, the write in progress too. -/
theorem startBank_keeps (s : State) (l : LaneId) (b : Bank) : (startBank s l b).svc.up = s.svc.up ∧
    (∀ k, ((startBank s l b).lane k).phase = (s.lane k).phase) ∧
    (s.svc.up = false → (startBank s l b).svc.rcd.writing = s.svc.rcd.writing) := by
  have hrec (u : State) (f : Recorder → Recorder) (k : LaneId) : (u.updRec f).lane k = u.lane k := by cases k <;> rfl
  have hev := bankEvent_reports s l 2 (bankTarget s.svc.rcd).1 1 b.bflags 0
  have hphase (k : LaneId) := (congrArg Lane.phase (hev.lane k) :)
  by_cases hp : s.st.prog = none
  · rw [startBank_noProgram hp]; exact ⟨rfl, fun _ => rfl, fun _ => rfl⟩
  rw [startBank_programmed hp]
  split
  · split
    · exact ⟨hev.up, fun k => by rw [hrec]; exact hphase k, fun _ => hev.writing⟩
    · exact ⟨hev.up, hphase, fun _ => hev.writing⟩
  · next hup =>
    have hup : s.svc.up ≠ false := fun h => hup (by rw [h]; rfl)
    split
    · split
      · exact ⟨rfl, fun _ => rfl, fun _ => rfl⟩
      · exact ⟨rfl, fun k => by rw [hrec], fun h => absurd h hup⟩
    · exact ⟨rfl, fun k => by rw [hrec], fun h => absurd h hup⟩
end

theorem retainPeriodDue_active (h : s.activeLane = some l) : execRetainPeriodDue s = .next (
    if s.st.phase == .running && decide (s.svc.rcd.periodFrom + retainPeriod s ≤ s.grid.mono) then
      startBank (s.updRec fun v => { v with periodFrom := s.grid.mono }) l (captureBank s l 1) else s) := by
  unfold execRetainPeriodDue; rw [h]
/-- A periodic bank is due in this lane. -/
def PeriodDue (s : State) (l : LaneId) : Prop :=
  s.activeLane = some l ∧ s.st.phase = .running ∧ s.svc.rcd.periodFrom + retainPeriod s ≤ s.grid.mono
theorem retainPeriodDue_not (h : s.activeLane = none ∨ (s.activeLane = some l ∧ ¬ PeriodDue s l)) : execRetainPeriodDue s = .next s := by
  obtain h | ⟨h, hno⟩ := h
  · unfold execRetainPeriodDue; rw [h]
  · rw [retainPeriodDue_active h]
    refine congrArg Host.Outcome.next (if_neg ?_)
    rw [Bool.and_eq_true, beq_iff_eq, decide_eq_true_iff]
    exact fun hd => hno ⟨h, hd⟩
theorem retainPeriodDue_due (h : PeriodDue s l) : execRetainPeriodDue s =
    .next (startBank (s.updRec fun v => { v with periodFrom := s.grid.mono }) l (captureBank s l 1)) := by
  obtain ⟨hl, hrun, hdue⟩ := h
  rw [retainPeriodDue_active hl, hrun, decide_eq_true hdue]
  rfl

theorem bankDone_none (h : s.svc.rcd.writing = none) : bankDone s = s := by unfold bankDone; rw [h]
theorem bankDone_writes {w : BankWrite} (h : s.svc.rcd.writing = some w) (hw : s.svc.rcd.waiting = none) : Reports (s.updRec fun v =>
    { setBank v w.bank w.cap with writing := none, offered := some (if w.bank = 0 then 0 else 1) }) (bankDone s) := by
  have hev := bankEvent_reports (s.updRec fun v =>
    { setBank v w.bank w.cap with writing := none, offered := some (if w.bank = 0 then 0 else 1) }) w.lane 1 w.bank 0 w.cap.bflags w.cap.seq
  have hwait : (setBank s.svc.rcd w.bank w.cap).waiting = none := by unfold setBank; split <;> exact hw
  unfold bankDone
  rw [h]
  dsimp only
  rw [show (bankEvent _ w.lane 1 w.bank 0 w.cap.bflags w.cap.seq).svc.rcd.waiting = none from hev.waiting.trans hwait]
  exact hev
theorem bankWriteDone_goesOn (h : (bankDone s).st.pfStep ≠ 3) : execBankWriteDone s = .next (bankDone s) :=
  congrArg Host.Outcome.next (if_neg fun hf => h hf.1)
theorem bankWriteDone_finishes (h : (bankDone s).st.pfStep = 3) (hw : (bankDone s).svc.rcd.writing = none) :
    execBankWriteDone s = .next (pfFinish (bankDone s)) :=
  congrArg Host.Outcome.next (if_pos ⟨h, by rw [hw]; rfl⟩)

/-! The service domain (R35, R462, R478) -/

theorem exec_serviceDomainLost (s : State) : exec .serviceDomainLost s = execServiceDomainLost s := rfl
theorem exec_serviceDomainReturned (s : State) : exec .serviceDomainReturned s = execServiceDomainReturned s := rfl

/-- The staging areas of both lanes are the same in both states. -/
structure StagingSame (s t : State) : Prop where
  staging : ∀ k, (t.lane k).staging = (s.lane k).staging
theorem StagingSame.of_lanes (h : ∀ k, t.lane k = s.lane k) : StagingSame s t := ⟨fun k => by rw [h k]⟩
theorem StagingSame.trans {u : State} (h : StagingSame s t) (g : StagingSame t u) : StagingSame s u :=
  ⟨fun k => (g.staging k).trans (h.staging k)⟩
theorem staging_foldl {α : Type} (f : State → α → State) (hf : ∀ s x, StagingSame s (f s x)) (xs : List α) (s : State) :
    StagingSame s (xs.foldl f s) := by
  induction xs generalizing s with
  | nil => exact ⟨fun _ => rfl⟩
  | cons x xs ih => exact (hf s x).trans (ih _)
theorem updNet_staging (s : State) (l : LaneId) (f : Net → Net) : StagingSame s (s.updNet l f) :=
  ⟨fun k => by cases l <;> cases k <;> rfl⟩
theorem emit_staging (s : State) (o : Out) : StagingSame s (s.emit o) := .of_lanes fun k => by rw [lane_emit]
theorem updPart_staging (s : State) (p : Nat) (f : Partition → Partition) : StagingSame s (s.updPart p f) := .of_lanes fun k => by rw [lane_updPart]
theorem notify_staging (s : State) (p vec : Nat) : StagingSame s (notify s p vec) := by
  unfold notify; split
  · exact emit_staging ..
  · unfold thlSend; split
    · exact ⟨fun _ => rfl⟩
    · exact (((updPart_staging ..).trans ((updNet_staging ..).trans (updNet_staging ..))).trans (updNet_staging ..)).trans (emit_staging ..)
theorem ringPut_staging (s : State) (p : Nat) (e : RingEntry) : StagingSame s (ringPut s p e) := by
  unfold ringPut; extract_lets q b s1 s2
  have h2 : StagingSame s s2 := by
    refine StagingSame.trans (t := s1) ?_ (updPart_staging ..)
    simp only [s1]; split
    · exact ⟨fun _ => rfl⟩
    · exact emit_staging ..
  split
  · exact h2.trans (notify_staging ..)
  · exact h2
theorem offerEvent_staging (s : State) (p : Nat) (e : RingEntry) : StagingSame s (offerEvent s p e) := by
  unfold offerEvent; extract_lets q
  split
  · split
    · exact ringPut_staging ..
    · exact updPart_staging ..
  · exact ⟨fun _ => rfl⟩
theorem offerNonMaskable_staging (s : State) (p : Nat) (e : RingEntry) : StagingSame s (offerNonMaskable s p e) := by
  unfold offerNonMaskable; extract_lets q
  split
  · split
    · exact (ringPut_staging s p e).trans (updPart_staging ..)
    · exact updPart_staging ..
  · exact ⟨fun _ => rfl⟩
theorem deliverEvent_staging (s : State) (e : RingEntry) : StagingSame s (deliverEvent s e) :=
  staging_foldl _ (fun s p => by split; exacts [offerNonMaskable_staging s p e, offerEvent_staging s p e]) _ s

theorem stageRecord_active (s : State) (l : LaneId) (r : RawRec) (k : LaneId) :
    ((stageRecord s l r).lane k).staging.active = (s.lane k).staging.active := by
  have hf (v : Lane) : ∀ x : Bool × Nat × Tab Bucket, (if !x.1 then { v.staging with buckets := x.2.2 }
      else if v.staging.recs.length < 1048576 then { v.staging with buckets := x.2.2, recs := v.staging.recs ++ [{ r with
        withheld := r.withheld + x.2.1, staged := true, origin := r.origin + 4, stamps := some (v.staging.optime, v.staging.pcycle) }] }
      else { v.staging with buckets := x.2.2, discarded := v.staging.discarded + 1 } : Staging).active = v.staging.active := by
    intro x; split
    · rfl
    · split <;> rfl
  by_cases h : k = l
  · subst h
    unfold stageRecord
    rw [lane_updLane]
    exact hf ..
  · unfold stageRecord
    rw [lane_updLane_ne _ _ _ _ h]
theorem beginStaging_active (s : State) (l : LaneId) : ((beginStaging s l).lane l).staging.active = true := by
  unfold beginStaging; split
  · assumption
  · rw [stageRecord_active, (deliverEvent_staging ..).staging, lane_updLane]
theorem beginStaging_keeps (s : State) (l : LaneId) {k : LaneId} (h : (s.lane k).staging.active = true) :
    ((beginStaging s l).lane k).staging.active = true := by
  unfold beginStaging; split
  · exact h
  · rw [stageRecord_active, (deliverEvent_staging ..).staging]
    by_cases hk : k = l
    · subst hk; rw [lane_updLane]
    · rw [lane_updLane_ne _ _ _ _ hk]; exact h

/-- A running lane stages. -/
def stageIfRuns (s : State) (l : LaneId) : State := if (s.lane l).phase == .running then beginStaging s l else s
theorem stageIfRuns_reports (s : State) (l : LaneId) : Reports s (stageIfRuns s l) := by
  unfold stageIfRuns; split
  · exact beginStaging_reports ..
  · exact .refl s
theorem stageIfRuns_keeps (s : State) (l : LaneId) {k : LaneId} (h : (s.lane k).staging.active = true) :
    ((stageIfRuns s l).lane k).staging.active = true := by
  unfold stageIfRuns; split
  · exact beginStaging_keeps s l h
  · exact h
theorem stageIfRuns_active (h : (s.lane l).phase = .running) : ((stageIfRuns s l).lane l).staging.active = true := by
  unfold stageIfRuns
  rw [if_pos (beq_iff_eq.mpr h)]
  exact beginStaging_active ..
theorem bothStage_active (h : (s.lane l).phase = .running) : ((bothLanes stageIfRuns s).lane l).staging.active = true := by
  unfold bothLanes
  cases l with
  | a => exact stageIfRuns_keeps _ .b (stageIfRuns_active h)
  | b =>
    have hphase : ((stageIfRuns s .a).lane .b).phase = (s.lane .b).phase := (congrArg Lane.phase ((stageIfRuns_reports s .a).lane .b) :)
    exact stageIfRuns_active (hphase.trans h)

/-- A write in progress given up and told. -/
def givenUp (s : State) (w : BankWrite) (cause : Nat) : State :=
  bankEvent (s.updRec fun v => { v with writing := none, waiting := none }) w.lane 2 w.bank cause w.cap.bflags 0
theorem givenUp_reports (s : State) (w : BankWrite) (cause : Nat) :
    Reports (s.updRec fun v => { v with writing := none, waiting := none }) (givenUp s w cause) := bankEvent_reports ..
theorem abandonBank_some {w : BankWrite} (h : s.svc.rcd.writing = some w) (cause : Nat) : abandonBank s cause =
    s.svc.rcd.waiting.elim (givenUp s w cause) fun x => if (givenUp s w cause).svc.up
      then bankEvent (givenUp s w cause) x.2 2 w.bank cause x.1.bflags 0 else startBank (givenUp s w cause) x.2 x.1 := by
  unfold abandonBank givenUp
  rw [h]
  dsimp only
  cases s.svc.rcd.waiting <;> rfl
/-- A write that is abandoned without the service domain leaves none in progress. -/
theorem abandonBank_down (h : s.svc.up = false) (cause : Nat) : (abandonBank s cause).svc.up = false ∧
    (abandonBank s cause).svc.rcd.writing = none ∧ ∀ k, ((abandonBank s cause).lane k).phase = (s.lane k).phase := by
  cases hw : s.svc.rcd.writing with
  | none =>
    have he : abandonBank s cause = s := by unfold abandonBank; rw [hw]
    rw [he]; exact ⟨h, hw, fun _ => rfl⟩
  | some w =>
    have hg := givenUp_reports s w cause
    have hup : (givenUp s w cause).svc.up = false := hg.up.trans h
    have hphase (k : LaneId) : ((givenUp s w cause).lane k).phase = (s.lane k).phase := by
      have hk := (congrArg Lane.phase (hg.lane k) :)
      refine hk.trans ?_
      cases k <;> rfl
    rw [abandonBank_some hw]
    cases s.svc.rcd.waiting with
    | none => exact ⟨hup, hg.writing, hphase⟩
    | some x =>
      dsimp only [Option.elim]
      rw [if_neg (by rw [hup]; nofun)]
      obtain ⟨hup', hphase', hwriting'⟩ := startBank_keeps (givenUp s w cause) x.2 x.1
      exact ⟨hup'.trans hup, (hwriting' hup).trans hg.writing, fun k => (hphase' k).trans (hphase k)⟩

theorem serviceDomainLost_stages (h : s.svc.up = true) : ∃ t, execServiceDomainLost s = .next t ∧ t.svc.up = false ∧
    t.svc.rcd.writing = none ∧ ∀ k, (s.lane k).phase = .running → (t.lane k).staging.active = true := by
  obtain ⟨hup, hwriting, hphase⟩ := abandonBank_down (s := s.updSvc fun v => { v with up := false }) rfl 3
  have hreports : Reports (abandonBank (s.updSvc fun v => { v with up := false }) 3)
      (bothLanes stageIfRuns (abandonBank (s.updSvc fun v => { v with up := false }) 3)) :=
    (stageIfRuns_reports ..).trans (stageIfRuns_reports ..)
  refine ⟨_, if_neg (by rw [h]; nofun), hreports.up.trans hup, hreports.writing.trans hwriting, fun k hk => bothStage_active ?_⟩
  rw [hphase, ← hk]
  cases k <;> rfl

theorem unstage_up (s : State) (l : LaneId) : (unstage s l).svc.up = s.svc.up := by
  unfold unstage; extract_lets g s1 later s2
  split
  · rfl
  · refine (raise_reports ..).up.trans ?_
    show s1.svc.up = _
    simp only [s1, updLane_svc_eq]
theorem writeBack_up (s : State) : (writeBack s).svc.up = s.svc.up := by
  unfold writeBack; extract_lets out
  split
  · rfl
  · dsimp only
    rw [updRec_svc]
    dsimp only
    rw [updLane_svc_eq, updLane_svc_eq]
    rfl
theorem serviceDomainReturned_not (hu : s.svc.up = true) (h : ∀ k, (s.lane k).staging.active = false) :
    execServiceDomainReturned s = .next s := by
  have ha : s.a.staging.active = false := h .a
  have hb : s.b.staging.active = false := h .b
  exact if_pos (by rw [hu, ha, hb]; rfl)
theorem serviceDomainReturned_returns (h : s.svc.up = false ∨ (s.lane l).staging.active = true) : execServiceDomainReturned s = .next (
    let u := writeBack (bothLanes unstage (s.updSvc fun v => { v with up := true }))
    u.svc.rcd.skipped.elim u fun b => startBank (u.updRec fun v => { v with skipped := none }) (u.updRec fun v => { v with skipped := none }).mainLane b) := by
  refine (if_neg ?_).trans ?_
  · rw [Bool.and_eq_true, Bool.and_eq_true, Bool.not_eq_true', Bool.not_eq_true']
    rintro ⟨⟨hu, ha⟩, hb⟩
    obtain h | h := h
    · rw [h] at hu; nomatch hu
    · cases l
      · exact Bool.false_ne_true (ha.symm.trans h)
      · exact Bool.false_ne_true (hb.symm.trans h)
  · dsimp only
    cases (writeBack (bothLanes unstage (s.updSvc fun v => { v with up := true }))).svc.rcd.skipped <;> rfl

theorem answer_onward (s : State) (p status : Nat) : Onward s.svc.rcd (answer s p false status).svc.rcd :=
  (respond_reports s p false status 0 0 s.tickNo []).onward

/-! The obligation -/

/-- Settles O51: each row by its own equation, RECORDER_CLEAR through the sequences that only go onward. -/
theorem recorderRows : Obligations.RecorderRows := by
  unfold Obligations.RecorderRows
  simp only [exec_recordArrival, exec_floodWindowEnd, exec_optimeStep, exec_retainPeriodDue, exec_bankWriteDone, exec_serviceDomainLost,
    exec_serviceDomainReturned, exec_recorderClear]
  refine ⟨fun s l => ⟨recordArrival_idle, fun r rest hq hu => ⟨recordArrival_takes hq hu, fun hc hstaged => ?staged,
      fun ok k b hc hstaged hj => ?judged⟩, fun h => congrArg _ (if_pos (bne_iff_ne.mpr h)), fun h => ?flood,
      fun ns => ⟨fun hidle hfed => ?steps, fun hidle hno => ?rests, fun hact => ?shadow⟩,
      ⟨retainPeriodDue_not, fun hdue hp hu hw => ?starts, fun hdue h => ?leftOut, fun hdue hp hu => ?skips⟩,
      fun w hw hwait hpf => ?written, fun hw hpf => ?noWrite, fun w hw hwait hpf => ?finishes, fun hu => ?lost,
      fun hd => if_pos (by rw [hd]; rfl), fun hu h => serviceDomainReturned_not hu h, fun hd hc hskip => ?back, fun h => ?returns⟩,
    fun s p ws h => ⟨recorderClear_closed h, recorderClear_down h, fun hs hu => ?clears⟩⟩
  case staged => rw [recordArrival_calm hq hu hc, arrive_staged hstaged]
  case judged => rw [recordArrival_calm hq hu hc, arrive_judged hstaged hj]
  case flood =>
    obtain ⟨t, ht, hb⟩ := floodWindowEnd_closes h
    refine ⟨t, ht, fun b hmem => ?_, ?_⟩
    · rw [hb] at hmem
      obtain ⟨c, -, rfl⟩ := List.mem_map.mp hmem
      rfl
    · rw [hb, List.map_map]; rfl
  case steps =>
    rw [optimeStep_eq, shadowsStep_idle hidle]
    exact congrArg _ (if_pos (Bool.or_eq_true_iff.mpr hfed))
  case rests =>
    rw [optimeStep_eq, shadowsStep_idle hidle]
    exact congrArg _ (if_neg (mt Bool.or_eq_true_iff.mp hno))
  case shadow =>
    refine ⟨_, (exec_optimeStep ..).trans (optimeStep_eq ..), ?_, ?_⟩
    · have hlane : (shadowStep (s.grid.now + ns) (s.lane l)).staging.optime = (s.lane l).staging.optime + 1 := by
        unfold shadowStep; rw [if_pos hact]
      split
      · rw [lane_updRec, shadowsStep_lane, hlane]
      · rw [shadowsStep_lane, hlane]
    · rw [if_congr (Bool.or_eq_true_iff (x := s.a.feed) (y := s.b.feed)).symm rfl rfl]
      split <;> rfl
  case starts =>
    rw [retainPeriodDue_due hdue]
    exact congrArg _ (startBank_starts (s := s.updRec fun v => { v with periodFrom := s.grid.mono }) hp hu hw)
  case leftOut =>
    rw [retainPeriodDue_due hdue]
    by_cases hp : s.st.prog = none
    · exact congrArg _ (startBank_noProgram hp)
    · obtain ⟨hu, hw⟩ := h.resolve_left hp
      exact congrArg _ (startBank_leftOut hp hu hw rfl)
  case skips => exact ⟨_, (exec_retainPeriodDue ..).trans (retainPeriodDue_due hdue), startBank_skips hp hu (show bit 1 1 = false by decide)⟩
  case written =>
    have hr := bankDone_writes hw hwait
    have hst : (bankDone s).st.pfStep = s.st.pfStep := (congrArg Station.pfStep hr.st :)
    exact ⟨_, (exec_bankWriteDone ..).trans (bankWriteDone_goesOn (hst ▸ hpf)), hr⟩
  case noWrite =>
    have he := bankDone_none hw
    rw [bankWriteDone_goesOn (by rwa [he]), he]
  case finishes =>
    have hr := bankDone_writes hw hwait
    have hst : (bankDone s).st.pfStep = s.st.pfStep := (congrArg Station.pfStep hr.st :)
    exact bankWriteDone_finishes (hst.trans hpf) hr.writing
  case lost =>
    obtain ⟨t, ht, hup, hwriting, hstages⟩ := serviceDomainLost_stages hu
    exact ⟨t, ht, hup, hwriting, hstages l⟩
  case back =>
    have hcalm : Calm (s.updSvc fun v => { v with up := true }) := fun k => by cases k; exacts [hc .a, hc .b]
    rw [serviceDomainReturned_returns (l := l) (.inl hd)]
    dsimp only
    rw [settle_calm hcalm, show (s.updSvc fun v => { v with up := true }).svc.rcd.skipped = none from hskip]
    rfl
  case returns =>
    have hu : (writeBack (bothLanes unstage (s.updSvc fun v => { v with up := true }))).svc.up = true :=
      (writeBack_up _).trans ((unstage_up ..).trans (unstage_up ..))
    refine ⟨_, (exec_serviceDomainReturned ..).trans (serviceDomainReturned_returns h), ?_⟩
    dsimp only
    cases (writeBack (bothLanes unstage (s.updSvc fun v => { v with up := true }))).svc.rcd.skipped with
    | none => exact hu
    | some b => exact (startBank_keeps ..).1.trans hu
  case clears =>
    have hsame := recorderCleared_same s p
    have hr := answer_onward (recorderCleared s p) p OK
    obtain ⟨hlo, hhi⟩ := recorderCleared_base s p
    refine ⟨_, (exec_recorderClear ..).trans (recorderClear_clears h hs hu), ?_, ?_, answer_ended_of (hsame.mbox p false) ?_ ..⟩
    · exact hlo.trans_eq hr.base.symm
    · exact (hr.base.trans_lt hhi).trans_le hr.next
    · unfold State.tickNo; rw [hsame.grid]

end Sys2Proof.Machine
end

section
/-! SK-1's local inputs, sources and outputs (15 R390, R391, R394, R399, R403). -/

namespace Sys2Proof.Machine

variable {s t : State}

/-! Inputs at a sample (R390) -/

/-- SK-1 but for its inputs and pairs, and the configuration, are the same in both states. -/
structure SkSteady (s t : State) : Prop where
  sk : { t.sk with ins := [], pairs := [] } = { s.sk with ins := [], pairs := [] }
  st : { t.st with limits := [] } = { s.st with limits := [] }
theorem SkSteady.refl (s : State) : SkSteady s s := ⟨rfl, rfl⟩
theorem SkSteady.trans {u : State} (h : SkSteady s t) (g : SkSteady t u) : SkSteady s u := ⟨g.sk.trans h.sk, g.st.trans h.st⟩
theorem Reports.skSteady (h : Reports s t) : SkSteady s t := ⟨by rw [h.sk], h.st⟩
theorem SkSteady.clock (h : SkSteady s t) : t.sk.clock = s.sk.clock := (congrArg Sk.clock h.sk :)
theorem SkSteady.sampled (h : SkSteady s t) (i : Nat) : inputSampled t i = inputSampled s i := by
  have hp : t.sk.powered = s.sk.powered := (congrArg Sk.powered h.sk :)
  have hph : t.sk.phase = s.sk.phase := (congrArg Sk.phase h.sk :)
  have hc : t.cfgRec 0x0201 0 = s.cfgRec 0x0201 0 := by
    have hcfg : t.st.cfg = s.st.cfg := (congrArg Station.cfg h.st :)
    unfold State.cfgRec State.cfgRecs
    rw [hcfg]
  unfold inputSampled
  rw [hp, hph, hc]

theorem input_updIn (s : State) (i : Nat) (f : SkIn → SkIn) : (updIn s i f).sk.input i = f (s.sk.input i) := Tab.get_set ..
theorem input_updIn_ne (s : State) {i j : Nat} (f : SkIn → SkIn) (h : j ≠ i) : (updIn s i f).sk.input j = s.sk.input j :=
  Tab.get_set_ne _ _ _ _ _ h
theorem updIn_steady (s : State) (i : Nat) (f : SkIn → SkIn) : SkSteady s (updIn s i f) := ⟨rfl, rfl⟩

/-- One input has taken a level; no other input has moved. -/
structure TookLevel (s t : State) (i : Nat) (v : Bool) : Prop where
  raw : (t.sk.input i).raw = v
  rest : ∀ j, j ≠ i → t.sk.input j = s.sk.input j
  steady : SkSteady s t
theorem updIn_tookLevel {i : Nat} {v : Bool} {f : SkIn → SkIn} (hf : (f (s.sk.input i)).raw = v) : TookLevel s (updIn s i f) i v :=
  ⟨by rw [input_updIn, hf], fun _ hj => input_updIn_ne s f hj, updIn_steady ..⟩
theorem TookLevel.testFail {i : Nat} {v : Bool} (h : TookLevel s t i v) (b : Bool) : TookLevel s (setTestFail t i b) i v := by
  have hf := skEvent_reports (updIn t i fun x => { x with fail := b }) 193 (if b then 1 else 2) i [] true
  unfold setTestFail
  split
  · exact h
  · refine ⟨?_, fun j hj => ?_, h.steady.trans ((updIn_steady ..).trans hf.skSteady)⟩
    · rw [hf.sk, input_updIn]; exact h.raw
    · rw [hf.sk, input_updIn_ne _ _ hj, h.rest j hj]
theorem countSample_raw (x : SkIn) (v : Bool) (n : Nat) : (countSample x v n).raw = x.raw := by
  unfold countSample; split
  · rfl
  · split <;> rfl

theorem sampleInput_takes {i : Nat} (h : inputSampled s i = true) (us : Nat) (mv : List Int) :
    TookLevel s (sampleInput us mv s i) i (type3 (s.sk.input i).raw (mv.getD i 0)) := by
  unfold sampleInput
  rw [if_neg (by rw [h]; nofun)]
  dsimp only
  split
  · exact (updIn_tookLevel (by dsimp only; rw [countSample_raw])).testFail _
  · split
    · split
      · exact (updIn_tookLevel rfl).testFail _
      · exact updIn_tookLevel rfl
    · have hu (k : SkIn → SkIn) (hk : (k (s.sk.input i)).raw = type3 (s.sk.input i).raw (mv.getD i 0)) := updIn_tookLevel hk
      split
      · exact (hu _ (by dsimp only; rw [countSample_raw])).testFail _
      · split
        · exact (hu _ (by dsimp only; rw [countSample_raw])).testFail _
        · exact hu _ (by dsimp only; rw [countSample_raw])
theorem sampleInput_not {i : Nat} (h : inputSampled s i = false) (us : Nat) (mv : List Int) : sampleInput us mv s i = s :=
  if_pos (by rw [h]; rfl)

/-- After a sample of the first n inputs: each sampled one has its level, and no other has moved. -/
theorem sampleInputs_spec (us : Nat) (mv : List Int) (s : State) (n : Nat) : SkSteady s ((List.range n).foldl (sampleInput us mv) s) ∧
    (∀ i < n, inputSampled s i = true →
      (((List.range n).foldl (sampleInput us mv) s).sk.input i).raw = type3 (s.sk.input i).raw (mv.getD i 0)) ∧
    ∀ i, n ≤ i ∨ inputSampled s i = false → ((List.range n).foldl (sampleInput us mv) s).sk.input i = s.sk.input i := by
  induction n with
  | zero => exact ⟨.refl s, nofun, fun _ _ => rfl⟩
  | succ n ih =>
    rw [List.range_succ, List.foldl_append, List.foldl_cons, List.foldl_nil]
    generalize (List.range n).foldl (sampleInput us mv) s = u at ih ⊢
    obtain ⟨hsteady, htook, hstay⟩ := ih
    cases hs : inputSampled s n with
    | false =>
      rw [sampleInput_not ((hsteady.sampled n).trans hs)]
      refine ⟨hsteady, fun i hi hsi => htook i (Nat.lt_of_le_of_ne (Nat.le_of_lt_succ hi) ?_) hsi, fun i hi => hstay i ?_⟩
      · rintro rfl; exact Bool.false_ne_true (hs.symm.trans hsi)
      · exact hi.imp_left Nat.le_of_succ_le
    | true =>
      obtain ⟨hraw, hrest, hst⟩ := sampleInput_takes ((hsteady.sampled n).trans hs) us mv
      refine ⟨hsteady.trans hst, fun i hi hsi => ?_, fun i hi => ?_⟩
      · by_cases hin : i = n
        · subst hin; rw [hraw, hstay i (.inl le_rfl)]
        · rw [hrest i hin]; exact htook i (Nat.lt_of_le_of_ne (Nat.le_of_lt_succ hi) hin) hsi
      · have hin : i ≠ n := by
          rintro rfl
          obtain hi | hi := hi
          · omega
          · exact Bool.false_ne_true (hi.symm.trans hs)
        rw [hrest i hin]; exact hstay i (hi.imp_left Nat.le_of_succ_le)

/-! Pairs at a sample (R394) -/

/-- Of SK-1 only pairs differ between two states. -/
structure PairsOnly (s t : State) : Prop where
  sk : { t.sk with pairs := [] } = { s.sk with pairs := [] }
theorem PairsOnly.refl (s : State) : PairsOnly s s := ⟨rfl⟩
theorem PairsOnly.trans {u : State} (h : PairsOnly s t) (g : PairsOnly t u) : PairsOnly s u := ⟨g.sk.trans h.sk⟩
theorem Reports.pairsOnly (h : Reports s t) : PairsOnly s t := ⟨by rw [h.sk]⟩
theorem updPair_only (s : State) (p : Nat) (f : SkPair → SkPair) : PairsOnly s (s.updPair p f) := ⟨rfl⟩
theorem skEvent_only (s : State) (src code obj : Nat) (pay : List Byte) (limited : Bool) : PairsOnly s (skEvent s src code obj pay limited) :=
  (skEvent_reports ..).pairsOnly
theorem proofEvent_reports (s : State) (p code : Nat) (pay : List Byte) : Reports s (proofEvent s p code pay) := skEvent_reports ..
theorem proofPassed_only (s : State) (p : Nat) : PairsOnly s (proofPassed s p) := (updPair_only s p _).trans (proofEvent_reports ..).pairsOnly
theorem proofNotPassed_only (s : State) (p : Nat) : PairsOnly s (proofNotPassed s p) := by
  unfold proofNotPassed; split
  · exact (updPair_only s p _).trans (proofEvent_reports ..).pairsOnly
  · exact .refl s
theorem pairFault_only (s : State) (p : Nat) (test : Bool) : PairsOnly s (pairFault s p test) :=
  ((updPair_only s p _).trans (skEvent_only ..)).trans (proofNotPassed_only ..)
theorem setPair_only (s : State) (p : Nat) (ph : PairPhase) : PairsOnly s (setPair s p ph) := updPair_only ..
theorem pairReleased_only (s : State) (p : Nat) : PairsOnly s (pairReleased s p) := by
  unfold pairReleased; extract_lets u
  have hu : PairsOnly s u := (setPair_only s p _).trans (skEvent_only ..)
  split
  · split
    · exact hu.trans (proofPassed_only ..)
    · exact hu.trans (proofNotPassed_only ..)
  · exact hu
/-- What a pair that is not failing does at a sample, by its phase. -/
theorem pairSample_only (s : State) (p : Nat) : PairsOnly s (pairSample s p) := by
  unfold pairSample
  extract_lets m failing q a b u q' leadOpen moved late v
  have hu : PairsOnly s u := updPair_only ..
  have hset (ph : PairPhase) : PairsOnly s (setPair u p ph) := hu.trans (setPair_only ..)
  have hmoved (ph : PairPhase) (lead : Bool) : PairsOnly s (moved ph lead) := (hset ph).trans (updPair_only ..)
  have hv : PairsOnly s v := (hmoved .demand b).trans (skEvent_only ..)
  have hfault : PairsOnly s (pairFault u p false) := hu.trans (pairFault_only ..)
  have hrel : PairsOnly s (pairReleased u p) := hu.trans (pairReleased_only ..)
  split
  · exact .refl s
  split
  · split
    · exact updPair_only ..
    · exact pairFault_only ..
  split
  case h_1 => split; exacts [hset _, hu]
  case h_2 => split; exacts [hu, by split; exacts [hrel, hmoved ..]]
  case h_3 => split; exacts [hfault, by split; exacts [hrel, by split; exacts [hset _, hu]]]
  case h_4 => split; exacts [hu, by split; exacts [hv.trans (setPair_only ..), hv]]
  case h_5 => split; exacts [hfault, by split; exacts [hset _, by split; exacts [hfault, hu]]]
  case h_6 => split; exacts [(hu.trans (updPair_only ..)).trans (skEvent_only ..), hu]
theorem pairSamples_only (s : State) (ps : List Nat) : PairsOnly s (ps.foldl pairSample s) := by
  induction ps generalizing s with
  | nil => exact .refl s
  | cons p ps ih => exact (pairSample_only s p).trans (ih _)

/-- SK-1's own time after one sample (log entry 150). -/
def sampleClock (s : State) : State := if s.sk.powered then s.updSk fun k => { k with clock := k.clock + 50000 } else s
theorem exec_safetyInputSample (us : Nat) (mv : List Int) (s : State) :
    exec (.safetyInputSample us mv) s = .next ((List.range 8).foldl pairSample ((List.range 16).foldl (sampleInput us mv) (sampleClock s))) := rfl
theorem sampleClock_clock (s : State) : (sampleClock s).sk.clock = s.sk.clock + (if s.sk.powered then 50000 else 0) := by
  unfold sampleClock; split <;> rfl
theorem sampleClock_input (s : State) (i : Nat) : (sampleClock s).sk.input i = s.sk.input i := by
  unfold sampleClock; split <;> rfl
theorem sampleClock_sampled (s : State) (i : Nat) : inputSampled (sampleClock s) i = inputSampled s i := by
  unfold sampleClock; split <;> rfl
theorem safetyInputSample_takes (us : Nat) (mv : List Int) (s : State) :
    Gives (.safetyInputSample us mv) s fun t => t.sk.clock = s.sk.clock + (if s.sk.powered then 50000 else 0) ∧ ∀ i < 16,
      (inputSampled s i = true → (t.sk.input i).raw = type3 (s.sk.input i).raw (mv.getD i 0)) ∧
      (inputSampled s i = false → t.sk.input i = s.sk.input i) := by
  refine ⟨_, exec_safetyInputSample .., ?_⟩
  obtain ⟨hsteady, htook, hstay⟩ := sampleInputs_spec us mv (sampleClock s) 16
  generalize (List.range 16).foldl (sampleInput us mv) (sampleClock s) = u at *
  have hp := (pairSamples_only u (List.range 8)).sk
  generalize (List.range 8).foldl pairSample u = v at hp ⊢
  have hin (i : Nat) : v.sk.input i = u.sk.input i := (congrArg (Sk.input · i) hp :)
  refine ⟨(congrArg Sk.clock hp :).trans (hsteady.clock.trans (sampleClock_clock s)), fun i hi => ⟨fun hs => ?_, fun hs => ?_⟩⟩
  · rw [hin, htook i hi ((sampleClock_sampled s i).trans hs), sampleClock_input]
  · rw [hin, hstay i (.inr ((sampleClock_sampled s i).trans hs)), sampleClock_input]

/-! The discrepancy time (R394) -/

theorem pair_updPair (s : State) (p : Nat) (f : SkPair → SkPair) : (s.updPair p f).sk.pair p = f (s.sk.pair p) := Tab.get_set ..
theorem Reports.pair (h : Reports s t) (p : Nat) : t.sk.pair p = s.sk.pair p := by rw [h.sk]
theorem pairFault_pair (s : State) (p : Nat) :
    ((pairFault s p false).sk.pair p).phase = .fault ∧ ((pairFault s p false).sk.pair p).disc = true ∧
    ((pairFault s p false).sk.pair p).armed = none := by
  unfold pairFault
  extract_lets u
  have hu : u.sk.pair p = _ := pair_updPair ..
  have he : (skEvent u 194 3 p [Config.payloadCode 7 (b2n false)] false).sk.pair p = u.sk.pair p := (skEvent_reports ..).pair p
  generalize skEvent u 194 3 p [Config.payloadCode 7 (b2n false)] false = v at he ⊢
  rw [hu] at he
  unfold proofNotPassed
  split
  · rw [(proofEvent_reports ..).pair, pair_updPair, he]
    exact ⟨rfl, by simp, rfl⟩
  next hna =>
    have hnone : (v.sk.pair p).armed = none := Option.not_isSome_iff_eq_none.mp hna
    exact ⟨by rw [he], by rw [he]; simp, hnone⟩
theorem exec_discTimerExpired (p : Fin 8) (s : State) : exec (.discTimerExpired p) s = execDiscTimerExpired p s := rfl

/-! Test sources (R391) -/

theorem exec_testSourcePulse (k : Fin 4) (high bf : Bool) (s : State) : exec (.testSourcePulse k high bf) s = execTestSourcePulse k high bf s := rfl
theorem exec_testSourceOverload (k : Fin 4) (s : State) : exec (.testSourceOverload k) s = execTestSourceOverload k s := rfl
theorem exec_testSourceRetry (k : Fin 4) (s : State) : exec (.testSourceRetry k) s = execTestSourceRetry k s := rfl
section
variable {k : Fin 4}
theorem testSourcePulse_low (h : sourceDriven s k = true) (bf : Bool) :
    exec (.testSourcePulse k false bf) s = .next (updSrc s k fun x => { x with low := true }) :=
  congrArg Host.Outcome.next ((if_neg (by rw [h]; nofun)).trans (if_pos rfl))
theorem testSourcePulse_high (h : sourceDriven s k = true) (bf : Bool) (hl : (s.sk.src k).low = true) :
    Becomes (.testSourcePulse k true bf) s (updSrc s k fun x => { x with low := false, back := bf }) := by
  refine ⟨_, (exec_testSourcePulse ..).trans (congrArg Host.Outcome.next
    ((if_neg (by rw [h]; nofun)).trans ((if_neg nofun).trans (if_neg (by rw [hl]; nofun))))), ?_⟩
  dsimp only
  split
  · exact skEvent_reports ..
  · exact .refl _
theorem testSourcePulse_alreadyHigh (h : sourceDriven s k = true) (bf : Bool) (hl : (s.sk.src k).low = false) :
    exec (.testSourcePulse k true bf) s = .next s :=
  congrArg Host.Outcome.next ((if_neg (by rw [h]; nofun)).trans ((if_neg nofun).trans (if_pos (by rw [hl]; rfl))))
theorem testSourceOverload_driven (h : sourceDriven s k = true) :
    Becomes (.testSourceOverload k) s (updSrc s k fun x => { x with overl := some s.sk.clock, low := false }) :=
  ⟨_, (exec_testSourceOverload ..).trans (congrArg Host.Outcome.next (if_pos h)), skEvent_reports ..⟩
theorem testSourcePulse_notDriven (h : sourceDriven s k = false) (high bf : Bool) : exec (.testSourcePulse k high bf) s = .next s :=
  congrArg Host.Outcome.next (if_pos (by rw [h]; rfl))
theorem testSourceOverload_notDriven (h : sourceDriven s k = false) : exec (.testSourceOverload k) s = .next s :=
  congrArg Host.Outcome.next (if_neg (by rw [h]; nofun))
theorem testSourceRetry_some {n : Nat} (h : (s.sk.src k).overl = some n) : exec (.testSourceRetry k) s =
    .next (if n + 1000000000 ≤ s.sk.clock then updSrc s k fun x => { x with overl := none } else s) := by
  rw [exec_testSourceRetry]; unfold execTestSourceRetry; rw [h]
theorem testSourceRetry_none (h : (s.sk.src k).overl = none) : exec (.testSourceRetry k) s = .next s := by
  rw [exec_testSourceRetry]; unfold execTestSourceRetry; rw [h]
end

/-! Outputs (R399) -/

theorem output_updOut (s : State) (o : Nat) (f : SkOut → SkOut) : (s.updOut o f).sk.output o = f (s.sk.output o) := Tab.get_set ..
theorem output_updOut_ne (s : State) {o n : Nat} (f : SkOut → SkOut) (h : n ≠ o) : (s.updOut o f).sk.output n = s.sk.output n :=
  Tab.get_set_ne _ _ _ _ _ h
theorem Reports.output (h : Reports s t) (o : Nat) : t.sk.output o = s.sk.output o := by rw [h.sk]

/-- An output that is off by both processors. -/
def outputOff (t : State) (n : Nat) : Prop := (t.sk.output n).x = false ∧ (t.sk.output n).y = false
/-- A faulted output: it is latched, and its pair is off. -/
def outputFaulted (o : Nat) (t : State) : Prop :=
  (t.sk.output o).latched = true ∧ outputOff t (2 * (o / 2)) ∧ outputOff t (2 * (o / 2) + 1)
/-- The flags of an output's faults. -/
def faultFlags (x : SkOut) : Bool × Bool × Bool × Bool := (x.latched, x.sw, x.ext, x.overl)

theorem off_flags (x : SkOut) : faultFlags x.off = faultFlags x := by unfold SkOut.off; split <;> rfl
theorem off_x (x : SkOut) : x.off.x = false ∧ x.off.y = false := by
  unfold SkOut.off
  split
  · exact ⟨rfl, rfl⟩
  next h => exact ⟨by simpa using (Bool.or_eq_false_iff.mp (Bool.eq_false_iff.mpr h)).1, (Bool.or_eq_false_iff.mp (Bool.eq_false_iff.mpr h)).2⟩
theorem updOut_off_flags (s : State) (n o : Nat) : faultFlags ((s.updOut n SkOut.off).sk.output o) = faultFlags (s.sk.output o) := by
  by_cases h : o = n
  · rw [h, output_updOut, off_flags]
  · rw [output_updOut_ne _ _ h]
theorem outFault_spec (s : State) (o code : Nat) :
    outputOff (outFault s o code) (2 * (o / 2)) ∧ outputOff (outFault s o code) (2 * (o / 2) + 1) ∧
    faultFlags ((outFault s o code).sk.output o) = (true, (s.sk.output o).sw || code == 1, (s.sk.output o).ext || code == 2,
      (s.sk.output o).overl || code == 3) := by
  unfold outFault
  extract_lets x known u q v
  have hv (n : Nat) : (if known then v else skEvent v 195 code o [] false).sk.output n = v.sk.output n := by
    split
    · rfl
    · exact (skEvent_reports ..).output n
  unfold outputOff
  simp only [hv]
  refine ⟨?_, ?_, ?_⟩
  · rw [output_updOut_ne _ _ (by omega), output_updOut]; exact off_x _
  · rw [output_updOut]; exact off_x _
  · rw [updOut_off_flags, updOut_off_flags, output_updOut]; rfl
theorem outFault_faulted (s : State) (o code : Nat) : outputFaulted o (outFault s o code) := by
  obtain ⟨h0, h1, hf⟩ := outFault_spec s o code
  exact ⟨congrArg Prod.fst hf, h0, h1⟩
theorem outFault_sw (s : State) (o code : Nat) : ((outFault s o code).sk.output o).sw = ((s.sk.output o).sw || code == 1) :=
  congrArg (·.2.1) (outFault_spec s o code).2.2
theorem outFault_ext (s : State) (o code : Nat) : ((outFault s o code).sk.output o).ext = ((s.sk.output o).ext || code == 2) :=
  congrArg (·.2.2.1) (outFault_spec s o code).2.2
theorem outFault_overl (s : State) (o code : Nat) : ((outFault s o code).sk.output o).overl = ((s.sk.output o).overl || code == 3) :=
  congrArg (·.2.2.2) (outFault_spec s o code).2.2

theorem exec_safetyOutputReadback (o : Fin 8) (mv supply : Int) (limit : Bool) (s : State) :
    exec (.safetyOutputReadback o mv supply limit) s = execSafetyOutputReadback o mv supply limit s := rfl

/-- An output whose readback has been recorded. -/
def seenHigh (s : State) (o : Nat) (mv : Int) : State := s.updOut o fun x => { x with high := decide (5000 < mv), seen := true }
section
variable {o : Fin 8} {mv supply : Int} {limit : Bool}

theorem offPulse_fault (skY : Bool) (hx : (s.sk.output o).x = true) (hy : (s.sk.output o).y = true) (h : 5000 < mv) :
    exec (.offPulse o skY mv) s = .next (outFault s o 1) :=
  congrArg Host.Outcome.next (if_pos (by rw [hx, hy, decide_eq_true h]; rfl))
theorem offPulse_still (skY : Bool) (h : ¬((s.sk.output o).x = true ∧ (s.sk.output o).y = true) ∨ mv ≤ 5000) :
    exec (.offPulse o skY mv) s = .next s := by
  refine congrArg Host.Outcome.next (if_neg ?_)
  simp only [Bool.and_eq_true, decide_eq_true_eq]
  rintro ⟨hon, hmv⟩
  exact h.elim (· hon) (Int.not_le.mpr hmv)
theorem readback_unpowered (h : s.sk.powered = false) : exec (.safetyOutputReadback o mv supply limit) s = .next s := by
  rw [exec_safetyOutputReadback]
  unfold execSafetyOutputReadback
  simp [h]

theorem seenHigh_cycle : skCycleUs (seenHigh s o mv) = skCycleUs s := rfl
/-- A recorded readback judged (R399): a switch that is on by its readback's bound, one that is off by its time. -/
def judgeReadback (t : State) (o : Nat) (mv supply : Int) (limit : Bool) : State :=
  let x := t.sk.output o
  let y := t.sk.output (2 * (o / 2) + (1 - o % 2))
  let us := x.since * skCycleUs t - x.delay
  if x.x && x.y then
    if decide (2000 ≤ us) && decide (mv < supply - 2000) then
      let v := outFault t o (if limit then 3 else 1)
      if limit = true ∧ 5000 ≤ us ∧ outMode v (o / 2) = 1 ∧ decide (5000 < mv) = false ∧ y.seen = true ∧ y.high = true then outFault v o 1
      else v
    else t
  else if us < 5000 then t
  else if decide (5000 < mv) then
    (if outMode t (o / 2) = 1 ∧ y.seen = true ∧ y.high = false then outFault (outFault t o 2) o 1 else outFault t o 2)
  else t.updOut o fun x => { x with bad := false }
theorem readback_powered (h : s.sk.powered = true) :
    exec (.safetyOutputReadback o mv supply limit) s = .next (judgeReadback (seenHigh s o mv) o mv supply limit) := by
  rw [exec_safetyOutputReadback]
  unfold execSafetyOutputReadback
  simp only [if_pos h]
  exact congrArg Host.Outcome.next (if_neg (by rw [show (s.updOut _ _).sk.powered = s.sk.powered from rfl, h]; nofun))

variable (hp : s.sk.powered = true)
include hp

section
variable (hx : (s.sk.output o).x = true) (hy : (s.sk.output o).y = true)
include hx hy
theorem readback_onLow (hus : 2000 ≤ (s.sk.output o).since * skCycleUs s - (s.sk.output o).delay) (hmv : mv < supply - 2000) :
    Gives (.safetyOutputReadback o mv supply limit) s fun t => outputFaulted o t ∧
      (limit = true → (t.sk.output o).overl = true) ∧ (limit = false → (t.sk.output o).sw = true) := by
  refine ⟨_, readback_powered hp, ?_⟩
  have ho : (seenHigh s o mv).sk.output o = { s.sk.output o with high := decide (5000 < mv), seen := true } := output_updOut ..
  unfold judgeReadback
  simp only [ho, seenHigh_cycle]
  rw [if_pos (by rw [hx, hy]; rfl), if_pos (by rw [decide_eq_true hmv, Bool.and_true]; exact decide_eq_true hus)]
  generalize hc : (if limit then 3 else 1) = code
  split
  next h =>
    obtain ⟨hl, -⟩ := h
    subst hl hc
    exact ⟨outFault_faulted .., fun _ => by rw [outFault_overl, outFault_overl]; simp, nofun⟩
  · subst hc
    refine ⟨outFault_faulted .., fun hl => ?_, fun hl => ?_⟩
    · subst hl; rw [outFault_overl]; simp
    · subst hl; rw [outFault_sw]; simp
theorem readback_onGood (h : (s.sk.output o).since * skCycleUs s - (s.sk.output o).delay < 2000 ∨ supply - 2000 ≤ mv) :
    exec (.safetyOutputReadback o mv supply limit) s = .next (seenHigh s o mv) := by
  refine (readback_powered hp).trans (congrArg Host.Outcome.next ?_)
  have ho : (seenHigh s o mv).sk.output o = { s.sk.output o with high := decide (5000 < mv), seen := true } := output_updOut ..
  unfold judgeReadback
  simp only [ho, seenHigh_cycle]
  rw [if_pos (by rw [hx, hy]; rfl)]
  refine if_neg ?_
  simp only [Bool.and_eq_true, decide_eq_true_eq]
  rintro ⟨hus, hmv⟩
  exact h.elim (Nat.not_lt.mpr hus) (Int.not_le.mpr hmv)
end

section
variable (hoff : ¬((s.sk.output o).x = true ∧ (s.sk.output o).y = true))
include hoff
theorem readback_offEarly (hus : (s.sk.output o).since * skCycleUs s - (s.sk.output o).delay < 5000) :
    exec (.safetyOutputReadback o mv supply limit) s = .next (seenHigh s o mv) := by
  refine (readback_powered hp).trans (congrArg Host.Outcome.next ?_)
  have ho : (seenHigh s o mv).sk.output o = { s.sk.output o with high := decide (5000 < mv), seen := true } := output_updOut ..
  unfold judgeReadback
  simp only [ho, seenHigh_cycle]
  exact (if_neg (by rwa [Bool.and_eq_true])).trans (if_pos hus)
variable (hus : 5000 ≤ (s.sk.output o).since * skCycleUs s - (s.sk.output o).delay)
include hus
theorem readback_offHigh (hmv : 5000 < mv) :
    Gives (.safetyOutputReadback o mv supply limit) s fun t => outputFaulted o t ∧ (t.sk.output o).ext = true := by
  refine ⟨_, readback_powered hp, ?_⟩
  have ho : (seenHigh s o mv).sk.output o = { s.sk.output o with high := decide (5000 < mv), seen := true } := output_updOut ..
  unfold judgeReadback
  simp only [ho, seenHigh_cycle]
  rw [if_neg (c := (_ && _) = true) (by rwa [Bool.and_eq_true]), if_neg (c := _ < 5000) (Nat.not_lt.mpr hus), if_pos (decide_eq_true hmv)]
  split
  · exact ⟨outFault_faulted .., by rw [outFault_ext, outFault_ext]; simp⟩
  · exact ⟨outFault_faulted .., by rw [outFault_ext]; simp⟩
theorem readback_offLow (hmv : mv ≤ 5000) : exec (.safetyOutputReadback o mv supply limit) s =
    .next ((s.updOut o fun x => { x with high := false, seen := true }).updOut o fun x => { x with bad := false }) := by
  have hh : decide (5000 < mv) = false := decide_eq_false (Int.not_lt.mpr hmv)
  have ho : (seenHigh s o mv).sk.output o = { s.sk.output o with high := decide (5000 < mv), seen := true } := output_updOut ..
  refine (readback_powered hp).trans (congrArg Host.Outcome.next ?_)
  unfold judgeReadback
  simp only [ho, seenHigh_cycle]
  rw [if_neg (c := (_ && _) = true) (by rwa [Bool.and_eq_true]), if_neg (c := _ < 5000) (Nat.not_lt.mpr hus),
    if_neg (c := decide _ = true) (by rw [hh]; nofun)]
  unfold seenHigh
  rw [hh]
end
end

/-- Settles O52: row by row; the sample is two folds, over inputs that move no other one and over pairs that move no input. -/
theorem safetyIoRows : Obligations.SafetyIoRows := by
  unfold Obligations.SafetyIoRows
  intro s p k o x on us off faulted seen
  refine ⟨fun uS mv => safetyInputSample_takes uS mv s, ⟨fun hlate => ⟨_, ?late, pairFault_pair s p⟩, fun hlate => ?notLate⟩,
    fun hd => ⟨fun bf => testSourcePulse_low hd bf, fun bf hl => testSourcePulse_high hd bf hl,
      fun bf hl => testSourcePulse_alreadyHigh hd bf hl, testSourceOverload_driven hd⟩,
    fun hd => ⟨testSourceOverload_notDriven hd, fun high bf => testSourcePulse_notDriven hd high bf⟩,
    fun n hn => ⟨fun hle => (testSourceRetry_some hn).trans (congrArg Host.Outcome.next (if_pos hle)),
      fun hlt => (testSourceRetry_some hn).trans (congrArg Host.Outcome.next (if_neg (Nat.not_le.mpr hlt)))⟩,
    testSourceRetry_none,
    fun skY mv => ⟨fun hon hmv => ⟨_, offPulse_fault skY hon.1 hon.2 hmv, outFault_faulted .., ?sw⟩, fun h => offPulse_still skY h⟩,
    fun mv supply limit => ⟨readback_unpowered, fun hp => ⟨fun hon hus hmv => readback_onLow hp hon.1 hon.2 hus hmv,
      fun hon h => readback_onGood hp hon.1 hon.2 h, fun hoff hus => readback_offEarly hp hoff hus,
      fun hoff hus hmv => readback_offHigh hp hoff hus hmv, fun hoff hus hmv => readback_offLow hp hoff hus hmv⟩⟩⟩
  case late => exact (exec_discTimerExpired ..).trans (congrArg Host.Outcome.next (if_pos hlate))
  case notLate => exact (exec_discTimerExpired ..).trans (congrArg Host.Outcome.next (if_neg hlate))
  case sw => rw [outFault_sw]; simp

end Sys2Proof.Machine
end

section
/-! SK-1's own state: phases, faults, self-test, verification (15 R383 to R389; 16 R421). -/

namespace Sys2Proof.Machine

variable {s t : State}

/-- A relation between an entry and its image under a map of a table's values holds of what both tables read. -/
theorem Tab.get_map_rel {α : Type} {R : α → α → Prop} {f : α → α} (hf : ∀ v, R v (f v)) {d : α} (hd : R d d) (t : Tab α) (i : Nat) :
    R (t.get i d) (Tab.get (t.map fun e => (e.1, f e.2)) i d) := by
  induction t with
  | nil => exact hd
  | cons e t ih =>
    obtain ⟨k, v⟩ := e
    simp only [List.map_cons, Tab.get]
    split
    · exact hf v
    · exact ih

/-- Every output is off by both processors. -/
def OutputsOff (t : State) : Prop := ∀ o, outputOff t o
theorem outputsOff_off (s : State) : OutputsOff (outputsOff s) := fun o =>
  Tab.get_map_rel (R := fun _ (w : SkOut) => w.x = false ∧ w.y = false) off_x ⟨rfl, rfl⟩ s.sk.outs o

/-! A kernel state is entered (R385, R400) -/

/-- SK-1 has entered a state: outside RUN every output is off; of SK-1 and of the configuration nothing else has changed. -/
structure Entered (s t : State) (ph : SkPhase) : Prop where
  phase : t.sk.phase = ph
  off : ph ≠ .run → OutputsOff t
  sk : { t.sk with phase := .run, outs := [] } = { s.sk with phase := .run, outs := [] }
  st : { t.st with limits := [] } = { s.st with limits := [] }
theorem Entered.fault {ph : SkPhase} (h : Entered s t ph) : t.sk.fault = s.sk.fault := (congrArg Sk.fault h.sk :)
theorem Entered.cand {ph : SkPhase} (h : Entered s t ph) : t.sk.cand = s.sk.cand := (congrArg Sk.cand h.sk :)
theorem Entered.left {ph : SkPhase} (h : Entered s t ph) : t.sk.left = s.sk.left := (congrArg Sk.left h.sk :)
theorem Entered.image {ph : SkPhase} (h : Entered s t ph) : t.sk.image = s.sk.image := (congrArg Sk.image h.sk :)
theorem Entered.digest {ph : SkPhase} (h : Entered s t ph) : t.sk.digest = s.sk.digest := (congrArg Sk.digest h.sk :)
theorem Entered.cycle {ph : SkPhase} (h : Entered s t ph) : t.sk.cycle = s.sk.cycle := (congrArg Sk.cycle h.sk :)
theorem Entered.commit {ph : SkPhase} (h : Entered s t ph) : t.st.commit = s.st.commit := (congrArg Station.commit h.st :)
theorem enterSk_entered (s : State) (ph : SkPhase) (pay : List Byte) : Entered s (enterSk s ph pay) ph := by
  unfold enterSk
  extract_lets u v
  have hv : Entered s v ph := by
    unfold v
    split
    next h => exact ⟨rfl, fun hph => absurd (beq_iff_eq.mp h) hph, rfl, rfl⟩
    · exact ⟨rfl, fun _ => outputsOff_off u, rfl, rfl⟩
  have he := skEvent_reports v 192 ph.code 0 pay false
  refine ⟨by rw [he.sk]; exact hv.phase, fun hph o => ?_, by rw [he.sk]; exact hv.sk, he.st.trans hv.st⟩
  unfold outputOff
  rw [he.output]
  exact hv.off hph o

theorem commitFail_sk (s : State) (c : Commit) (r : Reject) : (commitFail s c r).sk = s.sk := (congrArg Still.sk (still_commitFail s c r) :)
theorem commitOk_sk (s : State) (c : Commit) (d0 tick : Nat) : (commitOk s c d0 tick).sk = s.sk := (congrArg Still.sk (still_commitOk s c d0 tick) :)
theorem sealEvent_sk (s : State) (code target : Nat) : (sealEvent s code target).sk = s.sk := (raise_reports ..).sk

/-- SK-1 has stopped safely. -/
structure Stopped (code : Nat) (t : State) : Prop where
  phase : t.sk.phase = .safeStop
  fault : t.sk.fault = code % 65536
  cand : t.sk.cand = none
  off : OutputsOff t
theorem Stopped.of_sk {code : Nat} (h : Stopped code s) (hsk : t.sk = s.sk) : Stopped code t :=
  ⟨by rw [hsk]; exact h.phase, by rw [hsk]; exact h.fault, by rw [hsk]; exact h.cand,
   fun o => by unfold outputOff; rw [hsk]; exact h.off o⟩
theorem safeStop_stopped (s : State) (code : Nat) : Stopped code (safeStop s code) := by
  unfold safeStop
  extract_lets verifying u
  have he : Entered _ u .safeStop := enterSk_entered ..
  have hu : Stopped code u := ⟨he.phase, he.fault, he.cand, he.off nofun⟩
  split
  · split
    · split
      · exact hu.of_sk (commitFail_sk ..)
      · exact hu
    · exact hu
  · exact hu
theorem safeStop_cycle (s : State) (code : Nat) : (safeStop s code).sk.cycle = s.sk.cycle := by
  unfold safeStop
  extract_lets verifying u
  have hu : u.sk.cycle = s.sk.cycle := (enterSk_entered ..).cycle
  split
  · split
    · split
      · exact (congrArg Sk.cycle (commitFail_sk ..)).trans hu
      · exact hu
    · exact hu
  · exact hu

/-! Kernel faults and self-tests (R383, R385) -/

section
variable {code : Nat} (hp : s.sk.powered = true)
theorem skKernelFault_off (h : s.sk.powered = false ∨ (s.sk.phase ≠ .run ∧ s.sk.phase ≠ .verify)) : exec (.skKernelFault code) s = .next s := by
  refine congrArg Host.Outcome.next (if_neg ?_)
  simp only [Bool.and_eq_true, Bool.or_eq_true, beq_iff_eq]
  rintro ⟨hp, hph⟩
  exact h.elim (fun h => Bool.false_ne_true (h.symm.trans hp)) fun h => hph.elim h.1 h.2
theorem skPeriodicSelftest_off (h : s.sk.powered = false ∨ s.sk.phase ≠ .run) (ok : Bool) : exec (.skPeriodicSelftest ok code) s = .next s := by
  refine congrArg Host.Outcome.next (if_neg ?_)
  simp only [Bool.and_eq_true, beq_iff_eq]
  rintro ⟨⟨hp, hph⟩, -⟩
  exact h.elim (fun h => Bool.false_ne_true (h.symm.trans hp)) fun h => h hph
theorem skPeriodicSelftest_passed : exec (.skPeriodicSelftest true code) s = .next s :=
  congrArg Host.Outcome.next (if_neg (by simp))
theorem skSelftestDone_off (h : s.sk.powered = false ∨ s.sk.phase ≠ .selftest) (ok : Bool) : exec (.skSelftestDone ok code) s = .next s := by
  refine congrArg Host.Outcome.next (if_pos ?_)
  simpa only [Bool.or_eq_true, Bool.not_eq_true', bne_iff_ne] using h
include hp
theorem skKernelFault_stops (h : s.sk.phase = .run ∨ s.sk.phase = .verify) : exec (.skKernelFault code) s = .next (safeStop s code) :=
  congrArg Host.Outcome.next (if_pos (by simpa only [hp, Bool.true_and, Bool.or_eq_true, beq_iff_eq] using h))
theorem skPeriodicSelftest_fails (h : s.sk.phase = .run) : exec (.skPeriodicSelftest false code) s = .next (safeStop s code) :=
  congrArg Host.Outcome.next (if_pos (by rw [hp, h]; rfl))
variable (hph : s.sk.phase = .selftest)
include hph
theorem skSelftestDone_fails : exec (.skSelftestDone false code) s = .next (safeStop s code) :=
  congrArg Host.Outcome.next ((if_neg (by rw [hp, hph]; nofun)).trans (if_pos rfl))

/-- SK-1 with the state that it left for DORMANT forgotten. -/
def forgetLeft (s : State) : State := s.updSk fun k => { k with left := none }
/-- Where a passed self-test goes on: after DORMANT where it was left, else to the image that waits for its verification. -/
def afterSelftest (s : State) : Option SkPhase → State
  | some .run | some .verify =>
    enterSk ((forgetLeft s).updSk fun k => { k with cand := if k.cand.isSome then k.cand else k.image, image := none, resume := false }) .verify
  | some .safeStop => enterSk (forgetLeft s) .safeStop (leBytes s.sk.fault 2)
  | some _ => enterSk (forgetLeft s) .waitImage
  | none => if s.sk.cand.isSome then enterSk (forgetLeft s) .verify else enterSk (forgetLeft s) .waitImage
theorem skSelftestDone_passes : exec (.skSelftestDone true code) s = .next (afterSelftest s s.sk.left) := by
  refine congrArg Host.Outcome.next ((if_neg (by rw [hp, hph]; nofun)).trans ((if_neg nofun).trans ?_))
  dsimp only
  generalize s.sk.left = l
  cases l with
  | none => rfl
  | some ph => cases ph <;> rfl
theorem skSelftestDone_new (hl : s.sk.left = none) (hc : s.sk.cand = none) :
    Gives (.skSelftestDone true code) s fun t => t.sk.phase = .waitImage := by
  refine ⟨_, skSelftestDone_passes hp hph, ?_⟩
  rw [hl, show afterSelftest s none = _ from if_neg (by rw [hc]; nofun)]
  exact (enterSk_entered ..).phase
theorem skSelftestDone_again (hl : s.sk.left = none) (hc : s.sk.cand ≠ none) :
    Gives (.skSelftestDone true code) s fun t => t.sk.phase = .verify ∧ t.sk.cand = s.sk.cand := by
  refine ⟨_, skSelftestDone_passes hp hph, ?_⟩
  rw [hl, show afterSelftest s none = _ from if_pos (Option.isSome_iff_ne_none.mpr hc)]
  exact ⟨(enterSk_entered ..).phase, (enterSk_entered ..).cand⟩
theorem skSelftestDone_verifies (hl : s.sk.left = some .run ∨ s.sk.left = some .verify) :
    Gives (.skSelftestDone true code) s fun t => t.sk.phase = .verify ∧ t.sk.left = none ∧
      t.sk.cand = if s.sk.cand.isSome then s.sk.cand else s.sk.image := by
  refine ⟨_, skSelftestDone_passes hp hph, ?_⟩
  obtain hl | hl := hl <;> rw [hl] <;> exact ⟨(enterSk_entered ..).phase, (enterSk_entered ..).left, (enterSk_entered ..).cand⟩
theorem skSelftestDone_stopped (hl : s.sk.left = some .safeStop) :
    Gives (.skSelftestDone true code) s fun t => t.sk.phase = .safeStop ∧ t.sk.fault = s.sk.fault ∧ OutputsOff t := by
  refine ⟨_, skSelftestDone_passes hp hph, ?_⟩
  rw [hl]
  exact ⟨(enterSk_entered ..).phase, (enterSk_entered ..).fault, (enterSk_entered ..).off nofun⟩
theorem skSelftestDone_waits (hl : s.sk.left = some .waitImage ∨ s.sk.left = some .selftest ∨ s.sk.left = some .dormant) :
    Gives (.skSelftestDone true code) s fun t => t.sk.phase = .waitImage := by
  refine ⟨_, skSelftestDone_passes hp hph, ?_⟩
  obtain hl | hl | hl := hl <;> rw [hl] <;> exact (enterSk_entered ..).phase
end

/-! A forwarded image (R42, R385) -/

/-- A commit of target 3 that SK-1 may take. -/
def ForwardReady (s : State) (c : Commit) : Prop :=
  s.st.commit = some c ∧ c.target = 3 ∧ c.forwarded = false ∧ s.st.phase = .stopped ∧ s.sk.powered = true
/-- The image of a commit is forwarded. -/
def forwardMark (s : State) (c : Commit) : State :=
  (s.updSt fun t => { t with commit := some { c with forwarded := true } }).updSk fun k => { k with cand := some c.image, resume := k.phase == .run }
/-- What a forwarded image does in SK-1's state. -/
def forwardIn (s : State) (c : Commit) : SkPhase → State
  | .waitImage | .run => enterSk (forwardMark s c) .verify
  | .safeStop => enterSk (lockPairs (forwardMark s c)) .selftest
  | _ => s
theorem exec_skImageForwarded (s : State) : exec .skImageForwarded s = execSkImageForwarded s := rfl
theorem skImageForwarded_of_commit {c : Commit} (h : s.st.commit = some c) : exec .skImageForwarded s = .next
    (if c.target ≠ 3 ∨ c.forwarded = true ∨ s.st.phase ≠ .stopped ∨ s.sk.powered = false then s else forwardIn s c s.sk.phase) := by
  rw [exec_skImageForwarded]
  unfold execSkImageForwarded
  rw [h]
  refine congrArg Host.Outcome.next (ite_congr rfl (fun _ => rfl) fun _ => ?_)
  generalize s.sk.phase = ph
  cases ph <;> rfl
theorem skImageForwarded_ready {c : Commit} (h : ForwardReady s c) : exec .skImageForwarded s = .next (forwardIn s c s.sk.phase) := by
  obtain ⟨hc, ht, hf, hph, hp⟩ := h
  exact (skImageForwarded_of_commit hc).trans (congrArg Host.Outcome.next (if_neg (by simp [ht, hf, hph, hp])))
theorem skImageForwarded_still (h : (¬∃ c, ForwardReady s c) ∨ s.sk.phase = .selftest ∨ s.sk.phase = .verify ∨ s.sk.phase = .dormant) :
    exec .skImageForwarded s = .next s := by
  cases hc : s.st.commit with
  | none => rw [exec_skImageForwarded]; unfold execSkImageForwarded; rw [hc]
  | some c =>
    refine (skImageForwarded_of_commit hc).trans (congrArg Host.Outcome.next ?_)
    split
    · rfl
    next hr =>
      simp only [not_or, not_not, Bool.not_eq_true, Bool.not_eq_false] at hr
      obtain ⟨ht, hf, hph, hp⟩ := hr
      obtain h | h | h | h := h
      · exact absurd ⟨c, hc, ht, hf, hph, hp⟩ h
      all_goals rw [h]; rfl

/-! Verification (R385 to R389, R421) -/

theorem exec_skVerifyDone (ok : Bool) (s : State) : exec (.skVerifyDone ok) s = execSkVerifyDone ok s := rfl

/-- SK-1 but for its connections. -/
def Sk.lessConns (k : Sk) : Sk := { k with conns := [] }
theorem startConns_spec (s : State) : (startConns s).sk.lessConns = s.sk.lessConns ∧ { (startConns s).st with limits := [] } = { s.st with limits := [] } := by
  unfold startConns
  extract_lets rs u
  have h : Reports u ((rs.filter fun r => r.u 8 1 == 1).foldl (fun s r => skEvent s 200 1 r.inst [] false) u) :=
    reports_foldl _ _ (fun s r => skEvent_reports ..) _
  exact ⟨by rw [h.sk]; rfl, h.st⟩
theorem startConns_image (s : State) : (startConns s).sk.image = s.sk.image := (congrArg Sk.image (startConns_spec s).1 :)
theorem startConns_cand (s : State) : (startConns s).sk.cand = s.sk.cand := (congrArg Sk.cand (startConns_spec s).1 :)
theorem startConns_digest (s : State) : (startConns s).sk.digest = s.sk.digest := (congrArg Sk.digest (startConns_spec s).1 :)

/-- SK-1 runs an image of which it holds the digest. -/
structure RunsImage (t : State) (img : List Byte) (d : Option (List Byte)) : Prop where
  phase : t.sk.phase = .run
  image : t.sk.image = some img
  cand : t.sk.cand = none
  digest : t.sk.digest = d
theorem RunsImage.of_sk {img : List Byte} {d : Option (List Byte)} (h : RunsImage s img d) (hsk : t.sk = s.sk) : RunsImage t img d :=
  ⟨by rw [hsk]; exact h.phase, by rw [hsk]; exact h.image, by rw [hsk]; exact h.cand, by rw [hsk]; exact h.digest⟩
theorem RunsImage.updSt {img : List Byte} {d : Option (List Byte)} (h : RunsImage s img d) (f : Station → Station) : RunsImage (s.updSt f) img d :=
  h.of_sk rfl
theorem enterRun_runs (s : State) (img : List Byte) : RunsImage (enterRun s img) img s.sk.digest := by
  unfold enterRun
  extract_lets u v w
  have hw : w.sk.image = v.sk.image ∧ w.sk.cand = v.sk.cand ∧ w.sk.digest = v.sk.digest := by
    unfold w; split <;> exact ⟨rfl, rfl, rfl⟩
  obtain ⟨hi, hc, hd⟩ := hw
  have he : Entered w _ .run := enterSk_entered w .run []
  exact ⟨he.phase, he.image.trans (hi.trans (startConns_image _)), he.cand.trans (hc.trans (startConns_cand _)),
    he.digest.trans (hd.trans (startConns_digest _))⟩
theorem verifyPasses_runs (s : State) (img d : List Byte) (n : Nat) : RunsImage (verifyPasses s img d n) img (some d) := by
  unfold verifyPasses
  extract_lets u
  have hu : RunsImage u img (some d) := enterRun_runs ..
  clear_value u
  split
  · split
    next v w _ _ _ _ =>
      have hv : RunsImage v img (some d) := hu.updSt _
      have hw : RunsImage w img (some d) := by
        unfold w
        split
        · exact hv.of_sk (sealEvent_sk ..)
        · exact hv
      exact hw.of_sk (commitOk_sk ..)
    · exact hu
  · exact hu

/-- SK-1 waits for an image; without a pending commit the station has discarded the one it held (R451). -/
structure WaitsImage (s t : State) : Prop where
  phase : t.sk.phase = .waitImage
  image : t.sk.image = none
  cand : t.sk.cand = none
  off : OutputsOff t
  safety : s.st.commit = none → t.st.safety = none ∧ t.st.safetyAccepted = false
theorem verifyFails_waits (h : s.sk.resume = false) (r : Reject) : WaitsImage s (verifyFails s r) := by
  unfold verifyFails
  extract_lets back u v
  have hb : back = false := h
  have he : Entered u v .waitImage := by
    unfold v
    rw [hb]
    exact enterSk_entered ..
  have hi : v.sk.image = none := he.image.trans (by unfold u; rw [hb]; rfl)
  have hv {w : State} (hsk : w.sk = v.sk) (hs : s.st.commit = none → w.st.safety = none ∧ w.st.safetyAccepted = false) : WaitsImage s w :=
    ⟨by rw [hsk]; exact he.phase, by rw [hsk]; exact hi, by rw [hsk]; exact he.cand,
     fun o => by unfold outputOff; rw [hsk]; exact he.off nofun o, hs⟩
  have hcommit : v.st.commit = s.st.commit := he.commit
  split
  next hc =>
    have hsome : ¬s.st.commit = none := by rw [← hcommit, hc]; nofun
    split
    · exact hv (commitFail_sk ..) fun hn => absurd hn hsome
    · exact hv rfl fun hn => absurd hn hsome
  · rw [if_neg (by rw [hb]; nofun)]
    exact hv rfl fun _ => ⟨rfl, rfl⟩
theorem verifyFails_resumes (h : s.sk.resume = true) (r : Reject) :
    (verifyFails s r).sk.phase = .run ∧ (verifyFails s r).sk.image = s.sk.image ∧ (verifyFails s r).sk.cand = none := by
  unfold verifyFails
  extract_lets back u v
  have hb : back = true := h
  have he : Entered (startConns (lockPairs u)) v .run := by
    unfold v
    rw [hb]
    exact enterSk_entered ..
  have hi : u.sk.image = s.sk.image := by unfold u; rw [hb]; rfl
  have hv {w : State} (hsk : w.sk = v.sk) : w.sk.phase = .run ∧ w.sk.image = s.sk.image ∧ w.sk.cand = none := by
    rw [hsk]
    exact ⟨he.phase, he.image.trans ((startConns_image _).trans hi), he.cand.trans (startConns_cand _)⟩
  split
  · split
    · exact hv (commitFail_sk ..)
    · exact hv rfl
  · rw [if_pos hb]
    exact hv rfl

/-- The commit that is answered may replace a seal. -/
def MayReplaceSeal (s : State) : Prop := ∃ c, s.st.commit = some c ∧ c.target = 3 ∧ c.session = true ∧ s.svc.up = true
/-- An image is refused in verification. -/
def Refuses (s t : State) : Prop := ∃ r, t = verifyFails s r
section
variable {img : List Byte}
theorem sealCheck_runs (h : s.sk.digest = some (digestOf (safetyRecs img)) ∨ MayReplaceSeal s) :
    RunsImage (sealCheck s img) img (some (digestOf (safetyRecs img))) := by
  unfold sealCheck
  extract_lets d
  split
  · exact verifyPasses_runs ..
  next hd =>
    obtain ⟨c, hc, ht, hs, hup⟩ := h.resolve_left hd
    rw [hc]
    dsimp only
    rw [if_neg (by simp [ht, hs]), if_neg (by simp [hup])]
    exact verifyPasses_runs ..
theorem sealCheck_refuses (h : ¬(s.sk.digest = some (digestOf (safetyRecs img)) ∨ MayReplaceSeal s)) : Refuses s (sealCheck s img) := by
  obtain ⟨hd, hm⟩ := not_or.mp h
  unfold sealCheck
  rw [if_neg hd]
  split
  next c hc =>
    split
    · exact ⟨_, rfl⟩
    next hcs =>
      simp only [not_or, not_not, Bool.not_eq_false] at hcs
      split
      · exact ⟨_, rfl⟩
      next hup => exact absurd ⟨c, hc, hcs.1, hcs.2, by simpa using hup⟩ hm
  · exact ⟨_, rfl⟩

/-- What the end of a verification does with the image that it had. -/
def verifyEnds (s : State) (img : List Byte) (ok : Bool) : State :=
  match checkSafety s img with
  | some r => verifyFails s r
  | none =>
    if ok then sealCheck s img
    else verifyFails s ⟨BAD_RECORD, ((safetyRecs img).find? fun r => r.typ == 0x0A50).elim 0 CfgRec.off, 0, []⟩
theorem skVerifyDone_ends (ok : Bool) (hph : s.sk.phase = .verify) (hc : s.sk.cand = some img) :
    exec (.skVerifyDone ok) s = .next (verifyEnds s img ok) := by
  rw [exec_skVerifyDone]
  unfold execSkVerifyDone
  rw [hph, hc]
  rfl
theorem skVerifyDone_still (ok : Bool) (h : s.sk.phase ≠ .verify ∨ s.sk.cand = none) : exec (.skVerifyDone ok) s = .next s := by
  rw [exec_skVerifyDone]
  unfold execSkVerifyDone
  split
  next hph hc =>
    obtain h | h := h
    · exact absurd hph h
    · rw [hc] at h; nomatch h
  · rfl

/-- Every check of a verification holds, and the seal with them. -/
def VerifyGood (s : State) (img : List Byte) (ok : Bool) : Prop :=
  checkSafety s img = none ∧ ok = true ∧ (s.sk.digest = some (digestOf (safetyRecs img)) ∨ MayReplaceSeal s)
variable {ok : Bool}
theorem verifyEnds_runs (h : VerifyGood s img ok) : RunsImage (verifyEnds s img ok) img (some (digestOf (safetyRecs img))) := by
  obtain ⟨hc, hok, hseal⟩ := h
  unfold verifyEnds
  rw [hc, hok]
  exact sealCheck_runs hseal
theorem verifyEnds_refuses (h : ¬VerifyGood s img ok) : Refuses s (verifyEnds s img ok) := by
  unfold verifyEnds
  split
  · exact ⟨_, rfl⟩
  next hc =>
    split
    next hok => exact sealCheck_refuses fun hseal => h ⟨hc, hok, hseal⟩
    · exact ⟨_, rfl⟩
end

end Sys2Proof.Machine
end

section
/-! SK-1's timers and its cycle (15 R383, R384, R389, R396, R402; 16 R411, R412). -/

namespace Sys2Proof.Machine

variable {s t : State}

/-! Timers (R396, R402, R412) -/

theorem exec_laneWatchdogExpired (s : State) : exec .laneWatchdogExpired s = execLaneWatchdogExpired s := rfl
theorem exec_proofTestExpired (p : Fin 8) (s : State) : exec (.proofTestExpired p) s = execProofTestExpired p s := rfl
theorem exec_proofIntervalReached (p : Fin 8) (s : State) : exec (.proofIntervalReached p) s = .next (proofDue s p) := rfl
theorem exec_connTimeExpired (c : Fin 64) (s : State) : exec (.connTimeExpired c) s = execConnTimeExpired c s := rfl

theorem laneWatchdog_expires (hp : s.sk.powered = true) (h : laneTimeout s = true) :
    Becomes .laneWatchdogExpired s (s.updSk fun k => { k with subst := true, req := safeRequest s }) :=
  ⟨_, (exec_laneWatchdogExpired s).trans (congrArg Host.Outcome.next (if_pos (by rw [hp, h]; rfl))), skEvent_reports ..⟩
theorem laneWatchdog_still (h : s.sk.powered = false ∨ laneTimeout s = false) : exec .laneWatchdogExpired s = .next s :=
  congrArg Host.Outcome.next (if_neg (by obtain h | h := h <;> simp [h]))

section
variable {p : Fin 8}
theorem proofTest_expires {n : Nat} (h : (s.sk.pair p).armed = some n) (hn : n + 600000000000 ≤ s.sk.clock) :
    Becomes (.proofTestExpired p) s (s.updPair p fun q => { q with armed := none }) := by
  refine ⟨proofEvent (s.updPair p fun q => { q with armed := none }) p 3, ?_, proofEvent_reports ..⟩
  rw [exec_proofTestExpired]
  unfold execProofTestExpired
  rw [h]
  exact congrArg Host.Outcome.next ((if_pos hn).trans (if_pos (by rw [h]; rfl)))
theorem proofTest_still (h : ∀ n, (s.sk.pair p).armed = some n → s.sk.clock < n + 600000000000) : exec (.proofTestExpired p) s = .next s := by
  rw [exec_proofTestExpired]
  unfold execProofTestExpired
  split
  next n hn => exact congrArg Host.Outcome.next (if_neg (Nat.not_le.mpr (h n hn)))
  · rfl

/-- The proof test of a pair has come due. -/
def ProofIsDue (s : State) (p : Nat) : Prop :=
  (∃ r, pairRec s p = some r ∧ r.u 0x10 2 ≠ 0 ∧ r.u 0x10 2 ≤ proofAge s p) ∧ (s.sk.pair p).due = false
theorem proofInterval_due (h : ProofIsDue s p) : Becomes (.proofIntervalReached p) s (s.updPair p fun q => { q with due := true }) := by
  obtain ⟨⟨r, hr, h0, hage⟩, hd⟩ := h
  refine ⟨proofEvent (s.updPair p fun q => { q with due := true }) p 4, (exec_proofIntervalReached ..).trans ?_, proofEvent_reports ..⟩
  unfold proofDue
  rw [hr]
  exact congrArg Host.Outcome.next (if_pos ⟨h0, hage, hd⟩)
theorem proofInterval_still (h : ¬ProofIsDue s p) : exec (.proofIntervalReached p) s = .next s := by
  refine (exec_proofIntervalReached ..).trans (congrArg Host.Outcome.next ?_)
  unfold proofDue
  split
  next r hr => exact if_neg fun ⟨h0, hage, hd⟩ => h ⟨⟨r, hr, h0, hage⟩, hd⟩
  · rfl
end

section
variable {c : Fin 64}
/-- A lane's frame has a PDU of a connection. -/
def LaneRx.Has (rx : Option LaneRx) (c : Nat) : Prop := ∃ q, rx = some q ∧ q.pdus.get? c ≠ none
theorem LaneRx.has_iff (rx : Option LaneRx) (c : Nat) : (rx.bind fun q => q.pdus.get? c).isSome = false ↔ ¬LaneRx.Has rx c := by
  unfold LaneRx.Has
  cases rx <;> simp
/-- TE of a connection is reached at the coming cycle start, and no PDU has come for it. -/
def ConnLate (s : State) (c : Nat) : Prop :=
  (∃ r, findRec (skRecs s) 0x0A60 c = some r ∧ r.u 8 1 = 1 ∧ teUs r ≤ ((s.sk.conn c).age + 1) * skCycleUs s) ∧
    s.sk.phase = .run ∧ (s.sk.conn c).phase = .run ∧ ¬LaneRx.Has s.sk.rxA c ∧ ¬LaneRx.Has s.sk.rxB c
theorem connTime_expires (h : ConnLate s c) : Becomes (.connTimeExpired c) s
    (s.updConn c fun c => { c with phase := .failed, cause := 1, valid := false, data := [] }) := by
  obtain ⟨⟨r, hr, h8, hte⟩, hph, hcp, ha, hb⟩ := h
  refine ⟨connFails s c 1, (exec_connTimeExpired ..).trans ?_, ?_⟩
  · unfold execConnTimeExpired
    rw [hr]
    exact congrArg Host.Outcome.next (if_pos ⟨hph, hcp, h8, hte, (LaneRx.has_iff ..).mpr ha, (LaneRx.has_iff ..).mpr hb⟩)
  · unfold connFails
    rw [if_pos hcp]
    exact skEvent_reports ..
theorem connTime_still (h : ¬ConnLate s c) : exec (.connTimeExpired c) s = .next s := by
  refine (exec_connTimeExpired ..).trans ?_
  unfold execConnTimeExpired
  dsimp only
  split
  next r hr =>
    refine congrArg Host.Outcome.next (if_neg fun ⟨hph, hcp, h8, hte, ha, hb⟩ => h ?_)
    exact ⟨⟨r, hr, h8, hte⟩, hph, hcp, (LaneRx.has_iff ..).mp ha, (LaneRx.has_iff ..).mp hb⟩
  · rfl
end

/-! The cycle's start (R384, R402, R411) -/

/-- SK-1's state, its image and the lanes' frames are the same in both states. -/
structure KernelSame (s t : State) : Prop where
  phase : t.sk.phase = s.sk.phase
  image : t.sk.image = s.sk.image
  rxA : t.sk.rxA = s.sk.rxA
  rxB : t.sk.rxB = s.sk.rxB
theorem KernelSame.refl (s : State) : KernelSame s s := ⟨rfl, rfl, rfl, rfl⟩
theorem KernelSame.trans {u : State} (h : KernelSame s t) (g : KernelSame t u) : KernelSame s u :=
  ⟨g.phase.trans h.phase, g.image.trans h.image, g.rxA.trans h.rxA, g.rxB.trans h.rxB⟩
theorem Reports.kernelSame (h : Reports s t) : KernelSame s t := ⟨by rw [h.sk], by rw [h.sk], by rw [h.sk], by rw [h.sk]⟩
theorem kernelSame_foldl {α : Type} {f : State → α → State} (hf : ∀ s x, KernelSame s (f s x)) (xs : List α) (s : State) :
    KernelSame s (xs.foldl f s) := by
  induction xs generalizing s with
  | nil => exact .refl s
  | cons x xs ih => exact (hf s x).trans (ih _)
theorem updConn_kernelSame (s : State) (n : Nat) (f : SkConn → SkConn) : KernelSame s (s.updConn n f) := ⟨rfl, rfl, rfl, rfl⟩
theorem updPair_kernelSame (s : State) (n : Nat) (f : SkPair → SkPair) : KernelSame s (s.updPair n f) := ⟨rfl, rfl, rfl, rfl⟩
theorem skEvent_kernelSame (s : State) (src code obj : Nat) (pay : List Byte) (limited : Bool) :
    KernelSame s (skEvent s src code obj pay limited) := (skEvent_reports ..).kernelSame

theorem connFails_same (s : State) (n cause : Nat) : KernelSame s (connFails s n cause) := by
  unfold connFails
  extract_lets c
  split
  · exact (updConn_kernelSame ..).trans (skEvent_kernelSame ..)
  · exact updConn_kernelSame ..
theorem connAccepts_same (s : State) (r : CfgRec) (pdu : List Byte) : KernelSame s (connAccepts s r pdu) := by
  unfold connAccepts
  extract_lets n c flags within ph valid data u
  split
  · exact updConn_kernelSame ..
  · exact (updConn_kernelSame ..).trans (skEvent_kernelSame ..)
theorem consume_same (s : State) (r : CfgRec) (pdu : Option (List Byte)) : KernelSame s (consume s r pdu) := by
  unfold consume
  extract_lets n u c silent
  have hu : KernelSame s u := updConn_kernelSame ..
  have hsilent : KernelSame s (silent u) := by
    unfold silent
    split
    · exact hu.trans (connFails_same ..)
    · exact hu
  split
  · exact hsilent
  · split
    · extract_lets good
      split
      · exact hu.trans (connFails_same ..)
      · exact hu.trans (connAccepts_same ..)
    · extract_lets good d
      split
      · exact hu.trans (connFails_same ..)
      split
      · exact hsilent
      split
      · exact hu.trans (connFails_same ..)
      · exact hu.trans (connAccepts_same ..)
theorem consumers_same (s : State) (pdus : Tab (List Byte)) : KernelSame s (consumers s pdus) := by
  unfold consumers
  split
  · exact kernelSame_foldl (fun _ _ => consume_same ..) _ _
  · exact kernelSame_foldl (fun _ _ => skEvent_kernelSame ..) _ _
theorem clearLatch_same (s : State) (o : Nat) : KernelSame s (clearLatch s o) := by
  unfold clearLatch
  extract_lets x y
  split
  · exact KernelSame.trans (t := s.updOut o _) ⟨rfl, rfl, rfl, rfl⟩ (skEvent_kernelSame ..)
  · exact .refl s
theorem proofDue_same (s : State) (p : Nat) : KernelSame s (proofDue s p) := by
  unfold proofDue
  split
  · split
    · exact (updPair_kernelSame ..).trans (proofEvent_reports ..).kernelSame
    · exact .refl s
  · exact .refl s
theorem armProof_same (s : State) (p : Nat) : KernelSame s (armProof s p) :=
  (updPair_kernelSame ..).trans (proofEvent_reports ..).kernelSame
theorem ackOutputs_same (s : State) : KernelSame s (ackOutputs s) := ⟨rfl, rfl, rfl, rfl⟩
theorem takeLane_same (s : State) (rx : LaneRx) : KernelSame s (takeLane s rx) := by
  unfold takeLane
  extract_lets proof ack old base u v w
  have hu : KernelSame s u := by
    unfold u
    split
    · exact skEvent_kernelSame ..
    · exact .refl s
  have hv : KernelSame s v := hu.trans ⟨rfl, rfl, rfl, rfl⟩
  have hw : KernelSame s w := hv.trans (kernelSame_foldl (fun s p => by split; exacts [.refl s, armProof_same ..]) _ _)
  split
  · exact hv
  split
  · exact hw
  · exact hw.trans (ackOutputs_same w)
theorem substLane_same (s : State) : KernelSame s (substLane s) :=
  KernelSame.trans (t := s.updSk fun k => { k with subst := true, req := safeRequest s }) ⟨rfl, rfl, rfl, rfl⟩ (skEvent_kernelSame ..)

/-- The lanes' frames of this cycle are taken: SK-1's state and its image stay. -/
structure FramesTaken (s t : State) : Prop where
  phase : t.sk.phase = s.sk.phase
  image : t.sk.image = s.sk.image
  rxA : t.sk.rxA = none
  rxB : t.sk.rxB = none
theorem FramesTaken.same {u : State} (h : FramesTaken s t) (g : KernelSame t u) : FramesTaken s u :=
  ⟨g.phase.trans h.phase, g.image.trans h.image, g.rxA.trans h.rxA, g.rxB.trans h.rxB⟩
theorem laneValues_taken (s : State) : FramesTaken s (laneValues s).2 := by
  unfold laneValues
  extract_lets k u
  have hu : FramesTaken s u := ⟨rfl, rfl, rfl, rfl⟩
  have hlate (v : State) (hv : FramesTaken s v) : FramesTaken s (if laneTimeout v then substLane v else v) := by
    split
    · exact hv.same (substLane_same v)
    · exact hv
  split
  next v w _ _ _ _ _ _ =>
    refine hlate w ?_
    have hv : FramesTaken s v := hu.same ⟨rfl, rfl, rfl, rfl⟩
    unfold w
    split
    · exact hv
    · exact hv.same (skEvent_kernelSame ..)
  · exact hu.same (takeLane_same ..)
  · exact hu.same (takeLane_same ..)
  · exact hlate u hu

/-- SK-1 makes its cycles. -/
def SkCycles (s : State) : Prop := s.sk.powered = true ∧ s.sk.phase ≠ .dormant ∧ s.sk.phase ≠ .selftest
theorem skCycles_iff (s : State) : SkCycles s ↔ ¬(!s.sk.powered || s.sk.phase == .dormant || s.sk.phase == .selftest) = true := by
  simp [SkCycles, and_assoc]
theorem exec_skCycleStart (s : State) : exec .skCycleStart s = execSkCycleStart s := rfl
theorem exec_skCycleEnd (x y : Option SkResult) (dt : Nat) (s : State) : exec (.skCycleEnd x y dt) s = execSkCycleEnd x y dt s := rfl
theorem skCycleStart_idle (h : ¬SkCycles s) : exec .skCycleStart s = .next s :=
  congrArg Host.Outcome.next (if_pos (not_not.mp ((skCycles_iff s).not.mp h)))
theorem skCycleEnd_idle (h : ¬SkCycles s) (x y : Option SkResult) (dt : Nat) : exec (.skCycleEnd x y dt) s = .next s :=
  congrArg Host.Outcome.next (if_pos (not_not.mp ((skCycles_iff s).not.mp h)))
theorem skCycleStart_takes (h : SkCycles s) :
    Gives .skCycleStart s fun t => t.sk.rxA = none ∧ t.sk.rxB = none ∧ t.sk.phase = s.sk.phase ∧ t.sk.image = s.sk.image := by
  have hv := laneValues_taken s
  refine ⟨_, (exec_skCycleStart s).trans (congrArg Host.Outcome.next (if_neg ((skCycles_iff s).mp h))), ?_⟩
  generalize laneValues s = q at hv ⊢
  obtain ⟨pdus, u⟩ := q
  have ht := hv.same ((consumers_same u pdus).trans ((kernelSame_foldl clearLatch_same (List.range 8) _).trans
    (kernelSame_foldl proofDue_same (List.range 8) _)))
  dsimp only
  generalize List.foldl proofDue _ _ = t at ht ⊢
  exact ⟨ht.rxA, ht.rxB, ht.phase, ht.image⟩

end Sys2Proof.Machine
end

section
/-! SK-1's cycle end (15 R383, R384, R389, R399). -/

namespace Sys2Proof.Machine

variable {s t : State}

/-- What the program commands of an output, by the mode of its pair (R398). -/
def outCommanded (s : State) (cmds : List Bool) (o : Nat) : Bool :=
  if outMode s (o / 2) = 1 then cmds.getD (2 * (o / 2)) false else if outMode s (o / 2) = 2 then cmds.getD o false else false
/-- Whether that switches the output on: no latch of its pair and no low supply bars it (R399, R400). -/
def outDriven (s : State) (cmds : List Bool) (o : Nat) : Bool :=
  outCommanded s cmds o && !((s.sk.output (2 * (o / 2))).latched || (s.sk.output (2 * (o / 2) + 1)).latched || s.sk.supplyLow)

/-- Of SK-1 only outputs differ, and no latch of theirs. -/
structure OutsMove (s t : State) : Prop where
  sk : { t.sk with outs := [] } = { s.sk with outs := [] }
  latched : ∀ o, (t.sk.output o).latched = (s.sk.output o).latched
theorem OutsMove.refl (s : State) : OutsMove s s := ⟨rfl, fun _ => rfl⟩
theorem OutsMove.trans {u : State} (h : OutsMove s t) (g : OutsMove t u) : OutsMove s u :=
  ⟨g.sk.trans h.sk, fun o => (g.latched o).trans (h.latched o)⟩
theorem OutsMove.commanded (h : OutsMove s t) (cmds : List Bool) (o : Nat) : outCommanded t cmds o = outCommanded s cmds o := by
  have hi : t.sk.image = s.sk.image := (congrArg Sk.image h.sk :)
  unfold outCommanded outMode skRecs
  rw [hi]
theorem OutsMove.driven (h : OutsMove s t) (cmds : List Bool) (o : Nat) : outDriven t cmds o = outDriven s cmds o := by
  have hl : t.sk.supplyLow = s.sk.supplyLow := (congrArg Sk.supplyLow h.sk :)
  unfold outDriven
  rw [h.commanded, h.latched, h.latched, hl]

/-- An output follows its command. -/
structure Follows (t : State) (o : Nat) (cmd drives : Bool) : Prop where
  cmd : (t.sk.output o).cmd = cmd
  x : (t.sk.output o).x = drives
  y : (t.sk.output o).y = drives
theorem Follows.of_output {o : Nat} {c d : Bool} (h : Follows s o c d) (ho : t.sk.output o = s.sk.output o) : Follows t o c d :=
  ⟨by rw [ho]; exact h.cmd, by rw [ho]; exact h.x, by rw [ho]; exact h.y⟩

/-- An output at a cycle end, once its command and its drive are known. -/
def SkOut.commanded (x : SkOut) (c on : Bool) (delay : Nat) : SkOut :=
  let x := { x with cmd := c, offFor := if c then 0 else x.offFor + 1 }
  if x.x == on && x.y == on then x else { x with x := on, y := on, since := 0, mid := false, seen := false, delay := delay }
theorem SkOut.commanded_spec (x : SkOut) (c on : Bool) (delay : Nat) :
    (x.commanded c on delay).latched = x.latched ∧ (x.commanded c on delay).cmd = c ∧ (x.commanded c on delay).x = on ∧
    (x.commanded c on delay).y = on := by
  unfold SkOut.commanded
  dsimp only
  split
  next h =>
    rw [Bool.and_eq_true, beq_iff_eq, beq_iff_eq] at h
    exact ⟨rfl, rfl, h.1, h.2⟩
  · exact ⟨rfl, rfl, rfl, rfl⟩
theorem commandOut_eq (s : State) (cmds : List Bool) (us o : Nat) : commandOut s cmds us o =
    s.updOut o fun x => x.commanded (outCommanded s cmds o) (outDriven s cmds o) (if outDriven s cmds o then pulseLeft s o us else 0) := rfl
theorem commandOut_moves (s : State) (cmds : List Bool) (us o : Nat) : OutsMove s (commandOut s cmds us o) := by
  refine ⟨rfl, fun n => ?_⟩
  rw [commandOut_eq]
  by_cases h : n = o
  · subst h; rw [output_updOut]; exact (SkOut.commanded_spec ..).1
  · rw [output_updOut_ne _ _ h]
theorem commandOut_follows (s : State) (cmds : List Bool) (us o : Nat) :
    Follows (commandOut s cmds us o) o (outCommanded s cmds o) (outDriven s cmds o) := by
  obtain ⟨-, hc, hx, hy⟩ := SkOut.commanded_spec (s.sk.output o) (outCommanded s cmds o) (outDriven s cmds o)
    (if outDriven s cmds o then pulseLeft s o us else 0)
  refine ⟨?_, ?_, ?_⟩ <;> rw [commandOut_eq, output_updOut]
  exacts [hc, hx, hy]
theorem commandOuts_spec (s : State) (cmds : List Bool) (us n : Nat) :
    OutsMove s ((List.range n).foldl (fun s o => commandOut s cmds us o) s) ∧
    ∀ o < n, Follows ((List.range n).foldl (fun s o => commandOut s cmds us o) s) o (outCommanded s cmds o) (outDriven s cmds o) := by
  induction n with
  | zero => exact ⟨.refl s, nofun⟩
  | succ n ih =>
    rw [List.range_succ, List.foldl_append, List.foldl_cons, List.foldl_nil]
    generalize (List.range n).foldl (fun s o => commandOut s cmds us o) s = u at ih ⊢
    obtain ⟨hm, hf⟩ := ih
    refine ⟨hm.trans (commandOut_moves ..), fun o ho => ?_⟩
    by_cases hon : o = n
    · subst hon
      rw [← hm.commanded, ← hm.driven]
      exact commandOut_follows ..
    · exact (hf o (Nat.lt_of_le_of_ne (Nat.le_of_lt_succ ho) hon)).of_output (output_updOut_ne _ _ hon)

theorem produces_sk (f : CfgRec → Bool × List Byte) (rs : List CfgRec) (s : State) :
    (rs.foldl (fun s q => produce s q (f q)) s).sk.lessConns = s.sk.lessConns := by
  induction rs generalizing s with
  | nil => rfl
  | cons q rs ih => exact (ih _).trans rfl

/-- What the results of a cycle do: the outputs follow, the published bytes are the results', and SK-1's state and count stay. -/
structure ResultsTaken (s t : State) (r : SkResult) : Prop where
  phase : t.sk.phase = s.sk.phase
  cycle : t.sk.cycle = s.sk.cycle
  status : t.sk.statusOut = padTo 64 r.statusOut
  follows : ∀ o < 8, Follows t o (outCommanded s r.soCmd o) (outDriven s r.soCmd o)
theorem takeResults_taken (s : State) (r : SkResult) (us : Nat) : ResultsTaken s (takeResults s r us) r := by
  unfold takeResults
  extract_lets u v
  obtain ⟨hm, hf⟩ := commandOuts_spec s r.soCmd us 8
  have hl := produces_sk (fun q => r.connOut.getD q.inst (false, [])) ((recsOf (skRecs v) 0x0A60).filter fun q => q.u 8 1 == 0) v
  generalize List.foldl _ v _ = w at hl ⊢
  exact ⟨(congrArg Sk.phase hl :).trans (congrArg Sk.phase hm.sk :), (congrArg Sk.cycle hl :).trans (congrArg Sk.cycle hm.sk :),
    (congrArg Sk.statusOut hl :), fun o ho => (hf o ho).of_output (congrArg (Sk.output · o) hl :)⟩

/-! The row -/

/-- Every output a cycle older. -/
def outsAged (s : State) : State := s.updSk fun k => { k with outs := k.outs.map fun e => (e.1, e.2.age) }
theorem outsAged_moves (s : State) : OutsMove s (outsAged s) :=
  ⟨rfl, fun o => (Tab.get_map_rel (R := fun (v w : SkOut) => w.latched = v.latched) (f := SkOut.age) (fun _ => rfl) rfl s.sk.outs o :)⟩
/-- The end of a cycle, after the exchange of results. -/
def cyclePublished (s : State) (dt : Nat) : State := publish (s.updSk fun k => { k with cycle := (k.cycle + 1) % 2 ^ 32 }) dt

/-- Results that differ, or that are not there, stop SK-1 with a code that is not 0. -/
theorem exchange_disagree {x y : Option SkResult} (hxy : ∀ r, ¬(x = some r ∧ y = some r)) (u : State) (us : Nat) :
    exchange u x y us = safeStop u.takeFree.2 (1 + Config.freeNat u.free % 65535) := by
  unfold exchange
  split
  next a b =>
    refine if_neg fun hab => ?_
    subst hab
    exact hxy a ⟨rfl, rfl⟩
  · rfl
section
variable (h : SkCycles s)
include h
theorem skCycleEnd_notRun (hph : s.sk.phase ≠ .run) (x y : Option SkResult) (dt : Nat) : exec (.skCycleEnd x y dt) s =
    .next (cyclePublished (outsAged s) dt) := by
  refine (exec_skCycleEnd ..).trans (congrArg Host.Outcome.next ((if_neg ((skCycles_iff s).mp h)).trans ?_))
  exact congrArg (cyclePublished · dt) (if_neg hph)
theorem skCycleEnd_run (hph : s.sk.phase = .run) (x y : Option SkResult) (dt : Nat) : exec (.skCycleEnd x y dt) s =
    .next (cyclePublished (exchange (outsAged s) x y ((s.grid.now + dt) / 1000 % 200000)) dt) := by
  refine (exec_skCycleEnd ..).trans (congrArg Host.Outcome.next ((if_neg ((skCycles_iff s).mp h)).trans ?_))
  exact congrArg (cyclePublished · dt) (if_pos hph)
theorem skCycleEnd_agree (hph : s.sk.phase = .run) (r : SkResult) (dt : Nat) :
    Gives (.skCycleEnd (some r) (some r) dt) s fun t => t.sk.phase = .run ∧ t.sk.cycle = (s.sk.cycle + 1) % 2 ^ 32 ∧
      t.sk.statusOut = padTo 64 r.statusOut ∧ ∀ o < 8, Follows t o (outCommanded s r.soCmd o) (outDriven s r.soCmd o) := by
  refine ⟨_, skCycleEnd_run h hph .., ?_⟩
  have hm := outsAged_moves s
  rw [show exchange (outsAged s) (some r) (some r) _ = takeResults (outsAged s) r _ from if_pos rfl]
  have ht := takeResults_taken (outsAged s) r ((s.grid.now + dt) / 1000 % 200000)
  generalize takeResults (outsAged s) r _ = u at ht ⊢
  refine ⟨ht.phase.trans hph, (congrArg (fun n => (n + 1) % 2 ^ 32) ht.cycle :), ht.status, fun o ho => ?_⟩
  rw [← hm.commanded, ← hm.driven]
  exact (ht.follows o ho).of_output rfl

theorem skCycleEnd_disagree (hph : s.sk.phase = .run) {x y : Option SkResult} (hxy : ∀ r, ¬(x = some r ∧ y = some r)) (dt : Nat) :
    Gives (.skCycleEnd x y dt) s fun t => t.sk.phase = .safeStop ∧ t.sk.fault ≠ 0 ∧ t.sk.cand = none ∧ OutputsOff t ∧
      t.sk.cycle = (s.sk.cycle + 1) % 2 ^ 32 := by
  refine ⟨_, skCycleEnd_run h hph .., ?_⟩
  rw [exchange_disagree hxy]
  have hs := safeStop_stopped (outsAged s).takeFree.2 (1 + Config.freeNat (outsAged s).free % 65535)
  have hc : (safeStop (outsAged s).takeFree.2 (1 + Config.freeNat (outsAged s).free % 65535)).sk.cycle = s.sk.cycle := safeStop_cycle ..
  generalize Config.freeNat (outsAged s).free = n at *
  generalize safeStop (outsAged s).takeFree.2 (1 + n % 65535) = u at hs hc ⊢
  refine ⟨hs.phase, ?_, hs.cand, hs.off, (congrArg (fun n => (n + 1) % 2 ^ 32) hc :)⟩
  have hf : u.sk.fault ≠ 0 := by rw [hs.fault]; omega
  exact hf
end

/-- Settles O53: row by row; the cycle's end is a fold over outputs that bars no other, and each check of a verification leads to
`verifyPasses` or `verifyFails`. -/
theorem safetyKernelRows : Obligations.SafetyKernelRows := by
  unfold Obligations.SafetyKernelRows
  intro s k off stopped
  have hstop {code : Nat} {t : State} (h : Stopped code t) : stopped code t := ⟨h.phase, h.fault, h.cand, h.off⟩
  refine ⟨fun code => ⟨fun hp hph => ⟨_, skKernelFault_stops hp hph, hstop (safeStop_stopped ..)⟩, skKernelFault_off,
      fun hp hph => ⟨_, skPeriodicSelftest_fails hp hph, hstop (safeStop_stopped ..)⟩, fun h => skPeriodicSelftest_off h false,
      skPeriodicSelftest_passed, skSelftestDone_off, fun hp hph => ⟨⟨_, skSelftestDone_fails hp hph, hstop (safeStop_stopped ..)⟩,
        skSelftestDone_new hp hph, skSelftestDone_again hp hph, skSelftestDone_verifies hp hph, skSelftestDone_stopped hp hph,
        skSelftestDone_waits hp hph⟩⟩,
    ⟨fun c hr => ⟨fun hph => ⟨_, skImageForwarded_ready hr, ?takes⟩, fun hph => ⟨_, skImageForwarded_ready hr, ?tests⟩⟩,
      skImageForwarded_still⟩,
    laneWatchdog_expires, laneWatchdog_still,
    ⟨fun h => ⟨skCycleStart_idle h, skCycleEnd_idle h⟩, fun h => ⟨skCycleStart_takes h, fun x y dt hph => skCycleEnd_notRun h hph x y dt,
      fun r dt hph => ?agree, fun x y dt hph hxy => skCycleEnd_disagree h hph hxy dt⟩⟩,
    skVerifyDone_still,
    fun img ok hph hc => ⟨fun h => ⟨_, skVerifyDone_ends ok hph hc, ?runs⟩, fun h hres => ⟨_, skVerifyDone_ends ok hph hc, ?waits⟩,
      fun h hres => ⟨_, skVerifyDone_ends ok hph hc, ?resumes⟩⟩,
    fun p => ⟨fun n hn hle => proofTest_expires hn hle, proofTest_still⟩,
    fun p => ⟨proofInterval_due, proofInterval_still⟩,
    fun c => ⟨connTime_expires, connTime_still⟩⟩
  case takes =>
    have he : Entered (forwardMark s c) (enterSk (forwardMark s c) .verify) .verify := enterSk_entered ..
    have hin : forwardIn s c s.sk.phase = enterSk (forwardMark s c) .verify := by
      obtain hph | hph := hph <;> rw [hph] <;> rfl
    rw [hin]
    exact ⟨he.phase, he.cand, he.commit⟩
  case tests =>
    have he : Entered (lockPairs (forwardMark s c)) (enterSk (lockPairs (forwardMark s c)) .selftest) .selftest := enterSk_entered ..
    rw [hph]
    exact ⟨he.phase, he.cand⟩
  case agree =>
    obtain ⟨t, ht, hp, hc, hs, hf⟩ := skCycleEnd_agree h hph r dt
    exact ⟨t, ht, hp, hc, hs, fun o ho => ⟨(hf o ho).cmd, (hf o ho).x, (hf o ho).y⟩⟩
  case runs =>
    have hr := verifyEnds_runs h
    exact ⟨hr.phase, hr.image, hr.cand, hr.digest⟩
  case waits =>
    obtain ⟨r, hr⟩ := verifyEnds_refuses h
    rw [hr]
    have hw := verifyFails_waits hres r
    exact ⟨hw.phase, hw.image, hw.cand, hw.off, hw.safety⟩
  case resumes =>
    obtain ⟨r, hr⟩ := verifyEnds_refuses h
    rw [hr]
    exact verifyFails_resumes hres r

end Sys2Proof.Machine
end

section
/-! Feeds and hold-up (20 R489 to R493). -/

namespace Sys2Proof.Machine

variable {s t : State} {l : LaneId}

theorem exec_laneFeedLost (l : LaneId) (mv : Nat) (s : State) : exec (.laneFeedLost l mv) s = execLaneFeedLost l mv s := rfl
theorem exec_laneFeedRestored (l : LaneId) (mv : Nat) (s : State) : exec (.laneFeedRestored l mv) s = execLaneFeedRestored l mv s := rfl
theorem exec_powerFailure (bank a b : Nat) (s : State) : exec (.powerFailure bank a b) s = execPowerFailure bank a b s := rfl
theorem exec_rideThroughEnd (s : State) : exec .rideThroughEnd s = execRideThroughEnd s := rfl
theorem exec_holdupOff (s : State) : exec .holdupOff s = execHoldupOff s := rfl

/-! What the steps leave alone -/

theorem supEvent_reports (s : State) (src code : Nat) (pay : List Byte) : Reports s (supEvent s src code pay) := raise_reports ..
theorem Reports.updSup (h : Reports s t) (f : Supply → Supply) : Reports (s.updSup f) (t.updSup f) := ⟨congrArg (State.updSup · f) h.rest, h.parts⟩
theorem Reports.updCart (h : Reports s t) (f : Cart → Cart) : Reports (s.updCart f) (t.updCart f) := ⟨congrArg (State.updCart · f) h.rest, h.parts⟩
theorem Reports.tryMeasure (h : Reports s t) : Reports (tryMeasure s) (tryMeasure t) := ⟨congrArg Machine.tryMeasure h.rest, h.parts⟩
theorem Reports.sup (h : Reports s t) : t.svc.sup = s.svc.sup := (congrArg (·.svc.sup) h.rest :)
theorem Reports.cart (h : Reports s t) : t.svc.cart = s.svc.cart := (congrArg (·.svc.cart) h.rest :)
theorem objs_of_still (h : t.still.svc = s.still.svc) : t.svc.sup = s.svc.sup ∧ t.svc.cart = s.svc.cart :=
  ⟨(congrArg (·.2.1) h :), (congrArg (·.2.2.1) h :)⟩

/-- The station, the lanes and the supplies are as they were, but for what reports write; a cartridge stands in both or in neither. -/
structure CarriedSame (s t : State) : Prop where
  st : { t.st with limits := [] } = { s.st with limits := [] }
  lane : ∀ l, (t.lane l).lessStaging = (s.lane l).lessStaging
  sup : t.svc.sup = s.svc.sup
  cart : t.svc.cart.isSome = s.svc.cart.isSome
theorem CarriedSame.refl (s : State) : CarriedSame s s := ⟨rfl, fun _ => rfl, rfl, rfl⟩
theorem CarriedSame.trans {u : State} (h : CarriedSame s t) (g : CarriedSame t u) : CarriedSame s u :=
  ⟨g.st.trans h.st, fun l => (g.lane l).trans (h.lane l), g.sup.trans h.sup, g.cart.trans h.cart⟩
theorem Reports.carriedSame (h : Reports s t) : CarriedSame s t := ⟨h.st, h.lane, h.sup, by rw [h.cart]⟩
theorem updCart_carriedSame (s : State) (f : Cart → Cart) : CarriedSame s (s.updCart f) :=
  ⟨rfl, fun l => by cases l <;> rfl, rfl, Option.isSome_map⟩
theorem updPart_carriedSame (s : State) (p : Nat) (f : Partition → Partition) : CarriedSame s (s.updPart p f) :=
  ⟨rfl, fun l => by cases l <;> rfl, rfl, rfl⟩
theorem carriedSame_foldl {α : Type} {f : State → α → State} (hf : ∀ s x, CarriedSame s (f s x)) (xs : List α) (s : State) :
    CarriedSame s (xs.foldl f s) := by
  induction xs generalizing s with
  | nil => exact .refl s
  | cons x xs ih => exact (hf s x).trans (ih _)
theorem cartFlag_carriedSame (s : State) (k : Nat) : CarriedSame s (cartFlag s k) := carriedSame_foldl (fun s p => updPart_carriedSame s p _) _ s
theorem CarriedSame.phase (h : CarriedSame s t) : t.st.phase = s.st.phase := (congrArg Station.phase h.st :)
theorem CarriedSame.pfStep (h : CarriedSame s t) : t.st.pfStep = s.st.pfStep := (congrArg Station.pfStep h.st :)
theorem CarriedSame.carried (h : CarriedSame s t) (l : LaneId) : (t.lane l).carried = (s.lane l).carried := by
  have hph : (t.lane l).phase = (s.lane l).phase := (congrArg Lane.phase (h.lane l) :)
  unfold Lane.carried
  rw [hph]

/-- Whether a measurement runs in the cartridge. -/
def measuring (s : State) : Bool := s.svc.cart.elim false Cart.measuring
theorem measuring_updCart_off (s : State) (f : Cart → Cart) (hf : ∀ c, (f c).measuring = false) : measuring (s.updCart f) = false := by
  show (s.svc.cart.map f).elim false Cart.measuring = false
  cases s.svc.cart with
  | none => rfl
  | some c => exact hf c
theorem abandonMeasure_idle (h : measuring s = false) : abandonMeasure s = s := if_neg (by rw [show (s.svc.cart.elim false Cart.measuring) = measuring s from rfl, h]; nofun)
theorem abandonMeasure_same (s : State) : CarriedSame s (abandonMeasure s) := by
  unfold abandonMeasure
  split
  · exact ((updCart_carriedSame s _).trans (cartFlag_carriedSame ..)).trans (supEvent_reports ..).carriedSame
  · exact .refl s
theorem abandonMeasure_off (s : State) : measuring (abandonMeasure s) = false := by
  unfold abandonMeasure
  split
  · have hs : (supEvent (cartFlag (s.updCart fun c => { c with measuring := false }) 3) 233 4).still.svc =
        (s.updCart fun c => { c with measuring := false }).still.svc :=
      (congrArg Still.svc ((still_supEvent ..).trans (still_cartFlag ..)) :)
    unfold measuring
    rw [(objs_of_still hs).2]
    exact measuring_updCart_off s _ fun _ => rfl
  next h => exact Bool.eq_false_iff.mpr h

/-! A lane without power (R263, R489) -/

/-- A lane that has lost its power. -/
structure Unpowered (v : Lane) : Prop where
  feed : v.feed = false
  cycled : v.feedCycled = true
  role : v.role = .offline
theorem laneStops_other_feed (s : State) (l : LaneId) (ph : LanePhase) : ((laneStops s l ph).lane (other l)).feed = (s.lane (other l)).feed := by
  have h := (laneStops_netted s l ph).lane (other l)
  rw [lane_updLane_other] at h
  exact (congrArg Lane.feed h :)
theorem laneStops_station (s : State) (l : LaneId) (ph : LanePhase) :
    { (laneStops s l ph).st with limits := [] } = { s.st with limits := [] } := by
  have h := (laneStops_netted s l ph).st
  rwa [updLane_st] at h
theorem unpowerLane_lane (s : State) (l : LaneId) : Unpowered ((unpowerLane s l).lane l) := by
  unfold unpowerLane
  extract_lets u
  rw [lane_updLane]
  exact ⟨rfl, rfl, rfl⟩
theorem unpowerLane_other_feed (s : State) (l : LaneId) : ((unpowerLane s l).lane (other l)).feed = (s.lane (other l)).feed := by
  unfold unpowerLane
  extract_lets u
  rw [lane_updLane_other]
  unfold u
  split
  · exact laneStops_other_feed ..
  · rfl
theorem unpowerLane_station (s : State) (l : LaneId) : { (unpowerLane s l).st with limits := [] } = { s.st with limits := [] } := by
  have hst : (unpowerLane s l).st = (if (s.lane l).feed then laneStops s l .stopped else s).st := updLane_st ..
  rw [hst]
  split
  · exact laneStops_station ..
  · rfl

/-- What the end of hold-up does: a lane whose feed is not back is without power. -/
structure HoldupEnded (s t : State) : Prop where
  step : t.st.pfStep = 0
  sup : t.svc.sup = { s.svc.sup with holdup := false }
  cart : t.svc.cart = s.svc.cart
  lane : ∀ k, feedOf s.svc.sup k = false → (t.lane k).feed = false
theorem endHoldup_ends (s : State) : HoldupEnded s (endHoldup s) := by
  have hstep {u v : State} (l : LaneId) (b : Bool) (hv : v = if b || !(u.lane l).feed then u else unpowerLane u l) :
      v.st.pfStep = u.st.pfStep ∧ v.svc.sup = u.svc.sup ∧ v.svc.cart = u.svc.cart ∧ (b = false → (v.lane l).feed = false) ∧
      (v.lane (other l)).feed = (u.lane (other l)).feed := by
    subst hv
    split
    next h =>
      refine ⟨rfl, rfl, rfl, fun hb => ?_, rfl⟩
      rw [hb, Bool.false_or] at h
      simpa using h
    · have ho := objs_of_still (still_svc_unpowerLane u l)
      exact ⟨(congrArg Station.pfStep (unpowerLane_station u l) :), ho.1, ho.2, fun _ => (unpowerLane_lane u l).feed,
        unpowerLane_other_feed u l⟩
  unfold endHoldup
  extract_lets u v w
  obtain ⟨hwp, hws, hwc, hwl, hwo⟩ := hstep (u := v) (v := w) .a v.svc.sup.feedA rfl
  obtain ⟨htp, hts, htc, htl, hto⟩ := hstep (u := w) .b w.svc.sup.feedB rfl
  have hvs : v.svc.sup = { s.svc.sup with holdup := false } := rfl
  refine ⟨htp.trans hwp, hts.trans hws, htc.trans hwc, fun k hk => ?_⟩
  cases k with
  | a => exact hto.trans (hwl hk)
  | b => exact htl (by rw [hws]; exact hk)

/-! The power-fail sequence (R491) -/

theorem startBank_stationSame (s : State) (l : LaneId) (b : Bank) : StationSame s (startBank s l b) := by
  cases hp : s.st.prog with
  | none => rw [startBank_noProgram hp]; exact .refl s
  | some img =>
    rw [startBank_programmed (by rw [hp]; nofun)]
    split
    · have hu : StationSame s (bankEvent s l 2 (bankTarget s.svc.rcd).1 1 b.bflags 0) := (bankEvent_reports ..).stationSame
      split
      · exact hu.trans (updSvc_stationSame ..)
      · exact hu
    split
    · split
      · exact .refl s
      · exact updSvc_stationSame ..
    · exact updSvc_stationSame ..
theorem abandonBank_stationSame (s : State) (cause : Nat) : StationSame s (abandonBank s cause) := by
  cases hw : s.svc.rcd.writing with
  | none =>
    have he : abandonBank s cause = s := by unfold abandonBank; rw [hw]
    rw [he]; exact .refl s
  | some w =>
    have hg : StationSame s (givenUp s w cause) := (updSvc_stationSame ..).trans (givenUp_reports s w cause).stationSame
    rw [abandonBank_some hw]
    cases s.svc.rcd.waiting with
    | none => exact hg
    | some x =>
      dsimp only [Option.elim]
      split
      · exact hg.trans (bankEvent_reports ..).stationSame
      · exact hg.trans (startBank_stationSame ..)
theorem pfStop_stops (h : s.st.phase = .running) (arg : Nat) : (pfStop s 4 arg).st.phase = .stopped ∧ (pfStop s 4 arg).st.stopCause = 4 ∧
    (pfStop s 4 arg).st.pfStep = 2 := by
  have ha := (abandonBank_stationSame s 2).st
  have hph : (abandonBank s 2).st.phase = .running := (congrArg Station.phase ha :).trans h
  have he := (enterStopped_reports hph 4 arg).st
  unfold pfStop
  rw [h]
  exact ⟨(congrArg Station.phase he :), (congrArg Station.stopCause he :), rfl⟩
theorem pfFinish_waits (ha : s.svc.sup.feedA = false) (hb : s.svc.sup.feedB = false) :
    (pfFinish s).st.pfStep = 5 ∧ (pfFinish s).svc.pnl.cleared = true := by
  rw [pfFinish_eq, ha, hb]
  exact ⟨rfl, rfl⟩

/-- Everything is off. -/
structure AllOff (t : State) : Prop where
  st : t.st = {}
  parts : t.parts = []
  isl : t.isl = []
  feedA : t.a.feed = false
  feedB : t.b.feed = false
  up : t.svc.up = false
  holdup : t.svc.sup.holdup = false
theorem powerOff_off (s : State) : AllOff (powerOff s) := by
  unfold powerOff
  extract_lets u v
  exact ⟨rfl, rfl, rfl, rfl, rfl, rfl, rfl⟩

end Sys2Proof.Machine
end

section
/-! The rows of feeds and hold-up (20 R489 to R493). -/

namespace Sys2Proof.Machine

variable {s t : State} {l : LaneId} {mv : Nat}

/-! LANE_FEED_LOST and LANE_FEED_RESTORED (R489, R491, R492) -/

theorem feedOf_setFeed (s : State) (l : LaneId) (on : Bool) (mv : Nat) : feedOf (setFeed s l on mv).svc.sup l = on := by cases l <;> rfl
theorem feedOf_setFeed_other (s : State) (l : LaneId) (on : Bool) (mv : Nat) :
    feedOf (setFeed s l on mv).svc.sup (other l) = feedOf s.svc.sup (other l) := by cases l <;> rfl

/-- A lane's feed is lost and told. -/
def feedLost (s : State) (l : LaneId) (mv : Nat) : State := supEvent (setFeed s l false mv) 234 4 (leBytes (laneNo l) 1)
theorem feedLost_reports (s : State) (l : LaneId) (mv : Nat) : Reports (setFeed s l false mv) (feedLost s l mv) := supEvent_reports ..
theorem feedLost_sup (s : State) (l : LaneId) (mv : Nat) : (abandonMeasure (feedLost s l mv)).svc.sup = (setFeed s l false mv).svc.sup :=
  (abandonMeasure_same _).sup.trans (feedLost_reports s l mv).sup
theorem laneFeedLost_still (h : feedOf s.svc.sup l = false ∨ 16000 ≤ mv) : execLaneFeedLost l mv s = .next s := by
  refine congrArg Host.Outcome.next (if_pos ?_)
  obtain h | h := h
  · rw [h]; rfl
  · rw [show feedGone true mv = false from decide_eq_false (Nat.not_lt.mpr h), Bool.not_false, Bool.or_true]
section
variable (h : feedOf s.svc.sup l = true) (hmv : mv < 16000)
include h hmv
theorem laneFeedLost_loses : execLaneFeedLost l mv s = .next
    (if feedOf (abandonMeasure (feedLost s l mv)).svc.sup (other l) then unpowerLane (abandonMeasure (feedLost s l mv)) l
     else abandonMeasure (feedLost s l mv)) := by
  refine congrArg Host.Outcome.next (if_neg ?_)
  rw [h, show feedGone true mv = true from decide_eq_true hmv]
  nofun
theorem laneFeedLost_partner (ho : feedOf s.svc.sup (other l) = true) : Gives (.laneFeedLost l mv) s fun t =>
    feedOf t.svc.sup l = false ∧ (t.lane l).feed = false ∧ (t.lane l).feedCycled = true ∧ (t.lane l).role = .offline ∧
    t.svc.cart.elim false Cart.measuring = false := by
  have hsup := feedLost_sup s l mv
  refine ⟨_, (exec_laneFeedLost ..).trans ((laneFeedLost_loses h hmv).trans
    (congrArg Host.Outcome.next (if_pos (by rw [hsup, feedOf_setFeed_other, ho])))), ?_⟩
  have hoff := abandonMeasure_off (feedLost s l mv)
  generalize abandonMeasure (feedLost s l mv) = u at hsup hoff ⊢
  have hobj := objs_of_still (still_svc_unpowerLane u l)
  have hl := unpowerLane_lane u l
  refine ⟨by rw [hobj.1, hsup, feedOf_setFeed], hl.feed, hl.cycled, hl.role, ?_⟩
  rw [hobj.2]
  exact hoff
theorem laneFeedLost_alone (ho : feedOf s.svc.sup (other l) = false) : execLaneFeedLost l mv s = .next (abandonMeasure (feedLost s l mv)) := by
  refine (laneFeedLost_loses h hmv).trans (congrArg Host.Outcome.next (if_neg ?_))
  rw [feedLost_sup s l mv, feedOf_setFeed_other, ho]
  nofun
end

/-- A lane's feed is back and told, and a postponed measurement may start. -/
def feedBack (s : State) (l : LaneId) (mv : Nat) : State := tryMeasure (supEvent (setFeed s l true mv) 234 5 (leBytes (laneNo l) 1))
theorem feedBack_reports (s : State) (l : LaneId) (mv : Nat) : Reports (tryMeasure (setFeed s l true mv)) (feedBack s l mv) :=
  (supEvent_reports ..).tryMeasure
theorem feedBack_pfStep (s : State) (l : LaneId) (mv : Nat) : (feedBack s l mv).st.pfStep = s.st.pfStep :=
  (congrArg Station.pfStep (feedBack_reports s l mv).st :)
theorem feedBack_sup (s : State) (l : LaneId) (mv : Nat) : (feedBack s l mv).svc.sup = (setFeed s l true mv).svc.sup :=
  (feedBack_reports s l mv).sup
theorem laneFeedRestored_still (h : feedOf s.svc.sup l = true ∨ mv < 18000) : execLaneFeedRestored l mv s = .next s := by
  refine congrArg Host.Outcome.next (if_pos ?_)
  obtain h | h := h
  · rw [h]; rfl
  · rw [show feedGone false mv = true from decide_eq_true h, Bool.or_true]
section
variable (h : feedOf s.svc.sup l = false) (hmv : 18000 ≤ mv)
include h hmv
theorem laneFeedRestored_returns : execLaneFeedRestored l mv s = .next
    (if (feedBack s l mv).st.pfStep = 1 then supEvent (endHoldup (feedBack s l mv)) 234 1
     else if (feedBack s l mv).st.pfStep = 5 then panelRedraw (endHoldup (feedBack s l mv))
     else feedBack s l mv) := by
  refine congrArg Host.Outcome.next (if_neg ?_)
  rw [h, show feedGone false mv = false from decide_eq_false (Nat.not_lt.mpr hmv)]
  nofun
theorem laneFeedRestored_plain (h1 : s.st.pfStep ≠ 1) (h5 : s.st.pfStep ≠ 5) : execLaneFeedRestored l mv s = .next (feedBack s l mv) := by
  refine (laneFeedRestored_returns h hmv).trans (congrArg Host.Outcome.next ?_)
  rw [feedBack_pfStep]
  exact (if_neg h1).trans (if_neg h5)
theorem laneFeedRestored_ends (hp : s.st.pfStep = 1 ∨ s.st.pfStep = 5) : Gives (.laneFeedRestored l mv) s fun t =>
    feedOf t.svc.sup l = true ∧ t.svc.sup.holdup = false ∧ t.st.pfStep = 0 ∧
    (feedOf s.svc.sup (other l) = false → (t.lane (other l)).feed = false) ∧ (s.st.pfStep = 5 → t.svc.pnl.cleared = false) := by
  refine ⟨_, (exec_laneFeedRestored ..).trans (laneFeedRestored_returns h hmv), ?_⟩
  have hsup := feedBack_sup s l mv
  rw [feedBack_pfStep]
  have he := endHoldup_ends (feedBack s l mv)
  generalize endHoldup (feedBack s l mv) = u at he ⊢
  have hfeed : feedOf u.svc.sup l = true := by
    rw [he.sup, hsup]
    exact feedOf_setFeed s l true mv
  have hhold : u.svc.sup.holdup = false := by rw [he.sup]
  have hlane (ho : feedOf s.svc.sup (other l) = false) : (u.lane (other l)).feed = false :=
    he.lane _ (by rw [hsup, feedOf_setFeed_other, ho])
  obtain hp | hp := hp
  · rw [if_pos hp]
    have hr := supEvent_reports u 234 1 []
    refine ⟨by rw [hr.sup, hfeed], by rw [hr.sup, hhold], (congrArg Station.pfStep hr.st :).trans he.step, fun ho => ?_, fun h5 => ?_⟩
    · exact (congrArg Lane.feed (hr.lane (other l)) :).trans (hlane ho)
    · rw [hp] at h5; nomatch h5
  · rw [if_neg (by rw [hp]; nofun), if_pos hp]
    have hl : (panelRedraw u).lane (other l) = u.lane (other l) := lane_updSvc ..
    exact ⟨hfeed, hhold, he.step, fun ho => by rw [hl, hlane ho], fun _ => rfl⟩
end

/-! POWER_FAILURE (R489, R491, R493) -/

/-- A lane runs or starts, so that the cartridge carries it. -/
def SomeCarried (s : State) : Prop := ∃ k, (s.lane k).phase = .running ∨ (s.lane k).phase = .starting
theorem carried_iff (v : Lane) : v.carried = true ↔ v.phase = .running ∨ v.phase = .starting := by simp [Lane.carried]
theorem someCarried_iff (s : State) : SomeCarried s ↔ (s.a.carried || s.b.carried) = true := by
  rw [Bool.or_eq_true, carried_iff, carried_iff]
  refine ⟨?_, fun h => h.elim (⟨.a, ·⟩) (⟨.b, ·⟩)⟩
  rintro ⟨k, hk⟩
  cases k
  exacts [.inl hk, .inr hk]
theorem dropUncarried_eq (s : State) (k : LaneId) : dropUncarried s k = if (s.lane k).phase = .running ∨ (s.lane k).phase = .starting then s
    else s.updLane k fun v => { suspect := v.suspect, feedCycled := true } := by
  unfold dropUncarried
  split
  next h =>
    have hc := (carried_iff _).mpr h
    have he : (s.updLane k fun v => if v.carried then v else { suspect := v.suspect, feedCycled := true }) = s.updLane k id :=
      updLane_congr (if_pos hc)
    rw [he]
    cases k <;> rfl
  next h => exact updLane_congr (if_neg (mt (carried_iff _).mp h))

/-- Both feeds as measured at the failure: lost. -/
def bothLost (s : State) (a b : Nat) : State := s.updSup fun v => { v with feedA := false, feedB := false, mvA := a, mvB := b }
/-- Power has failed, and the bank has been measured. -/
def failureMeasured (s : State) (bank a b : Nat) : State := bankVolts (abandonMeasure (bothLost s a b)) bank
/-- The cartridge carries the lanes that run or start. -/
def carriedOn (u : State) : State := supEvent ((bothLanes dropUncarried u).updSup fun v => { v with holdup := true }) 234 2
/-- What a power failure does with the carried lanes, by the bank. -/
def failureSteps (u : State) (bank : Nat) : State :=
  if u.st.pfStep ≠ 0 then u else if bank < 12000 then pfStop u 4 0 else u.updSt fun t => { t with pfStep := 1 }

theorem failureMeasured_same (s : State) (bank a b : Nat) : CarriedSame (bothLost s a b) (failureMeasured s bank a b) :=
  (abandonMeasure_same _).trans (updCart_carriedSame ..)
theorem powerFailure_still {bank a b : Nat} (h : s.svc.sup.holdup = true ∨ (s.a.feed = false ∧ s.b.feed = false) ∨
    feedGone s.svc.sup.feedA a = false ∨ feedGone s.svc.sup.feedB b = false) : execPowerFailure bank a b s = .next s := by
  refine congrArg Host.Outcome.next (if_pos ?_)
  obtain h | ⟨ha, hb⟩ | h | h := h
  · simp [h]
  · simp [ha, hb]
  · simp [h]
  · simp [h]

section
variable {bank a b : Nat} (ha : feedGone s.svc.sup.feedA a = true) (hb : feedGone s.svc.sup.feedB b = true)
  (hh : s.svc.sup.holdup = false) (hf : s.a.feed = true ∨ s.b.feed = true)
include ha hb hh hf
theorem powerFailure_fails : execPowerFailure bank a b s = .next
    (if (failureMeasured s bank a b).svc.cart.isNone || decide (bank < 7000) ||
        !((failureMeasured s bank a b).a.carried || (failureMeasured s bank a b).b.carried) then powerOff (failureMeasured s bank a b)
     else failureSteps (carriedOn (failureMeasured s bank a b)) bank) := by
  refine congrArg Host.Outcome.next (if_neg ?_)
  rw [ha, hb, hh]
  obtain h | h := hf <;> simp [h]
theorem powerFailure_off (h : s.svc.cart = none ∨ bank < 7000 ∨ ¬SomeCarried s) : Gives (.powerFailure bank a b) s AllOff := by
  have hs := failureMeasured_same s bank a b
  refine ⟨_, (exec_powerFailure ..).trans ((powerFailure_fails ha hb hh hf).trans (congrArg Host.Outcome.next (if_pos ?_))), powerOff_off _⟩
  obtain h | h | h := h
  · have hc : (failureMeasured s bank a b).svc.cart.isSome = false := hs.cart.trans (by rw [show (bothLost s a b).svc.cart = s.svc.cart from rfl, h]; rfl)
    rw [← Option.not_isSome, hc]
    rfl
  · rw [decide_eq_true h, Bool.or_true, Bool.true_or]
  · have hca : (failureMeasured s bank a b).a.carried = s.a.carried := hs.carried .a
    have hcb : (failureMeasured s bank a b).b.carried = s.b.carried := hs.carried .b
    rw [hca, hcb, Bool.eq_false_iff.mpr (mt (someCarried_iff s).mpr h), Bool.not_false, Bool.or_true]
variable (hcar : SomeCarried s) {c : Cart} (hcart : s.svc.cart = some c) (hbank : 7000 ≤ bank)
include hcar hcart hbank
theorem powerFailure_carries : execPowerFailure bank a b s = .next (failureSteps (carriedOn (failureMeasured s bank a b)) bank) := by
  have hs := failureMeasured_same s bank a b
  refine (powerFailure_fails ha hb hh hf).trans (congrArg Host.Outcome.next (if_neg ?_))
  have hc : (failureMeasured s bank a b).svc.cart.isSome = true :=
    hs.cart.trans (by rw [show (bothLost s a b).svc.cart = s.svc.cart from rfl, hcart]; rfl)
  have hca : (failureMeasured s bank a b).a.carried = s.a.carried := hs.carried .a
  have hcb : (failureMeasured s bank a b).b.carried = s.b.carried := hs.carried .b
  rw [← Option.not_isSome, hc, hca, hcb, (someCarried_iff s).mp hcar, decide_eq_false (Nat.not_lt.mpr hbank)]
  nofun
end

/-- What the cartridge's taking over leaves of the state. -/
structure TookOver (u v : State) : Prop where
  st : { v.st with limits := [] } = { u.st with limits := [] }
  sup : v.svc.sup = { u.svc.sup with holdup := true }
  cart : v.svc.cart = u.svc.cart
theorem carriedOn_tookOver (u : State) : TookOver u (carriedOn u) := by
  have hr := supEvent_reports ((bothLanes dropUncarried u).updSup fun v => { v with holdup := true }) 234 2 []
  exact ⟨hr.st, hr.sup, hr.cart⟩

/-- What holds of the state once the cartridge has taken over from both feeds. -/
structure Carrying (s t : State) : Prop where
  st : { t.st with limits := [] } = { s.st with limits := [] }
  feedA : t.svc.sup.feedA = false
  feedB : t.svc.sup.feedB = false
  holdup : t.svc.sup.holdup = true
  still : measuring t = false
theorem Carrying.phase (h : Carrying s t) : t.st.phase = s.st.phase := (congrArg Station.phase h.st :)
theorem Carrying.pfStep (h : Carrying s t) : t.st.pfStep = s.st.pfStep := (congrArg Station.pfStep h.st :)
theorem bankVolts_measuring (s : State) (mv : Nat) : measuring (bankVolts s mv) = measuring s := by
  show (Option.map _ s.svc.cart).elim false Cart.measuring = s.svc.cart.elim false Cart.measuring
  cases s.svc.cart <;> rfl
theorem carriedOn_carrying (s : State) (bank a b : Nat) : Carrying s (carriedOn (failureMeasured s bank a b)) := by
  have hs := failureMeasured_same s bank a b
  have ht := carriedOn_tookOver (failureMeasured s bank a b)
  refine ⟨ht.st.trans hs.st, ?_, ?_, ?_, ?_⟩
  · rw [ht.sup, hs.sup]; rfl
  · rw [ht.sup, hs.sup]; rfl
  · rw [ht.sup]
  · unfold measuring
    rw [ht.cart]
    exact (bankVolts_measuring ..).trans (abandonMeasure_off _)

theorem failureSteps_waits {u : State} {bank : Nat} (hp : u.st.pfStep = 0) (hbank : 12000 ≤ bank) :
    failureSteps u bank = u.updSt fun t => { t with pfStep := 1 } :=
  (if_neg (not_not.mpr hp)).trans (if_neg (Nat.not_lt.mpr hbank))
theorem failureSteps_stops {u : State} {bank : Nat} (hp : u.st.pfStep = 0) (hbank : bank < 12000) : failureSteps u bank = pfStop u 4 0 :=
  (if_neg (not_not.mpr hp)).trans (if_pos hbank)
theorem failureSteps_runs {u : State} (bank : Nat) (hp : u.st.pfStep ≠ 0) : failureSteps u bank = u := if_pos hp

/-- The state that the cartridge holds, with the bank as measured. -/
def heldUp (s : State) (bank a b : Nat) : State :=
  (bothLanes dropUncarried (s.updSup fun v => { v with feedA := false, feedB := false, mvA := a, mvB := b, holdup := true })).updCart fun c =>
    { c with mv := bank }
theorem bankVolts_high {mv : Nat} (h : 7000 ≤ mv) (s : State) : bankVolts s mv = s.updCart fun c => { c with mv := mv } := by
  unfold bankVolts
  congr
  funext c
  rw [if_neg fun hc => Nat.not_lt.mpr h hc.2]
theorem carriedOn_reports {bank : Nat} (hbank : 7000 ≤ bank) (hm : measuring s = false) (a b : Nat) :
    Reports (heldUp s bank a b) (carriedOn (failureMeasured s bank a b)) := by
  unfold failureMeasured
  rw [abandonMeasure_idle (s := bothLost s a b) hm, bankVolts_high hbank]
  exact supEvent_reports ((bothLanes dropUncarried ((bothLost s a b).updCart fun c => { c with mv := bank })).updSup fun v =>
    { v with holdup := true }) 234 2 []

/-! RIDE_THROUGH_END and HOLDUP_OFF (R491) -/

theorem rideThrough_still (h : s.st.pfStep ≠ 1) : execRideThroughEnd s = .next s := congrArg Host.Outcome.next (if_neg h)
theorem rideThrough_stops (h : s.st.pfStep = 1) : execRideThroughEnd s = .next (pfStop s 4 0) := congrArg Host.Outcome.next (if_pos h)
theorem holdupOff_iff (s : State) : (s.svc.sup.holdup && !s.svc.sup.feedA && !s.svc.sup.feedB && decide (2 ≤ s.st.pfStep)) = true ↔
    s.svc.sup.holdup = true ∧ s.svc.sup.feedA = false ∧ s.svc.sup.feedB = false ∧ 2 ≤ s.st.pfStep := by
  simp [and_assoc]

/-- Settles O54: both lanes' rows over the lane that loses its power, the failure over the state that the cartridge carries. -/
theorem feedRows : Obligations.FeedRows := by
  unfold Obligations.FeedRows
  intro s l mv
  simp only [exec_laneFeedLost, exec_laneFeedRestored, exec_powerFailure, exec_rideThroughEnd, exec_holdupOff]
  refine ⟨laneFeedLost_still, fun h hmv => ⟨laneFeedLost_partner h hmv, fun ho hm => ?lost, fun ho hm => ?measures⟩, laneFeedRestored_still,
    fun h hmv => ⟨fun h1 h5 => ⟨_, (exec_laneFeedRestored ..).trans (laneFeedRestored_plain h hmv h1 h5), feedBack_reports ..⟩,
      laneFeedRestored_ends h hmv⟩,
    fun bank a b ha hb hh hf => ⟨fun _ k => dropUncarried_eq s k, fun h => ?off, fun c hcar hc hbank hm hp hhigh => ?waits,
      fun c hcar hc hbank hm hp => ?runs, fun c hcar hc hhigh hp => ?step1, fun c hcar hc hbank hlow hp => ⟨fun hrun => ?stops, fun hrest => ?rests⟩⟩,
    fun bank a b h => powerFailure_still h, rideThrough_still,
    fun hp => ⟨fun hrun => ⟨_, (exec_rideThroughEnd s).trans (rideThrough_stops hp), pfStop_stops hrun 0⟩, fun hrest ha hb => ?rideRests⟩,
    fun hh ha hb hp => ?allOff, fun h => congrArg Host.Outcome.next (if_neg (mt (holdupOff_iff s).mp ?notOff))⟩
  case lost =>
    have hr := feedLost_reports s l mv
    have hid : abandonMeasure (feedLost s l mv) = feedLost s l mv := abandonMeasure_idle (by unfold measuring; rw [hr.cart]; exact hm)
    exact ⟨_, (exec_laneFeedLost ..).trans (laneFeedLost_alone h hmv ho), by rw [hid]; exact hr⟩
  case measures =>
    refine ⟨_, (exec_laneFeedLost ..).trans (laneFeedLost_alone h hmv ho), ?_, abandonMeasure_off _⟩
    rw [feedLost_sup, feedOf_setFeed]
  case off =>
    obtain ⟨t, ht, hoff⟩ := powerFailure_off ha hb hh hf h
    exact ⟨t, ht, hoff.st, hoff.parts, hoff.isl, hoff.feedA, hoff.feedB, hoff.up⟩
  case waits =>
    have hidle : measuring s = false := by unfold measuring; rw [hc]; exact hm
    have hcy := carriedOn_carrying s bank a b
    refine ⟨_, (exec_powerFailure ..).trans (powerFailure_carries ha hb hh hf hcar hc hbank), ?_⟩
    rw [failureSteps_waits (hcy.pfStep.trans hp) hhigh]
    exact (carriedOn_reports hbank hidle a b).updSt fun t => { t with pfStep := 1 }
  case runs =>
    have hidle : measuring s = false := by unfold measuring; rw [hc]; exact hm
    have hcy := carriedOn_carrying s bank a b
    refine ⟨_, (exec_powerFailure ..).trans (powerFailure_carries ha hb hh hf hcar hc hbank), ?_⟩
    rw [failureSteps_runs bank (by rw [hcy.pfStep]; exact hp)]
    exact carriedOn_reports hbank hidle a b
  case step1 =>
    have hcy := carriedOn_carrying s bank a b
    refine ⟨_, (exec_powerFailure ..).trans (powerFailure_carries ha hb hh hf hcar hc (by omega)), ?_⟩
    rw [failureSteps_waits (hcy.pfStep.trans hp) hhigh]
    exact ⟨hcy.holdup, rfl, hcy.still⟩
  case stops =>
    have hcy := carriedOn_carrying s bank a b
    refine ⟨_, (exec_powerFailure ..).trans (powerFailure_carries ha hb hh hf hcar hc hbank), ?_⟩
    rw [failureSteps_stops (hcy.pfStep.trans hp) hlow]
    exact pfStop_stops (hcy.phase.trans hrun) 0
  case rests =>
    have hcy := carriedOn_carrying s bank a b
    refine ⟨_, (exec_powerFailure ..).trans (powerFailure_carries ha hb hh hf hcar hc hbank), ?_⟩
    rw [failureSteps_stops (hcy.pfStep.trans hp) hlow, pfStop_rests (by rw [hcy.phase]; exact hrest)]
    exact pfFinish_waits hcy.feedA hcy.feedB
  case rideRests =>
    refine ⟨_, (exec_rideThroughEnd s).trans (rideThrough_stops hp), ?_⟩
    rw [pfStop_rests hrest]
    exact pfFinish_waits ha hb
  case allOff =>
    have hoff := powerOff_off s
    exact ⟨_, (exec_holdupOff s).trans (congrArg Host.Outcome.next (if_pos ((holdupOff_iff s).mpr ⟨hh, ha, hb, hp⟩))), hoff.st, hoff.parts, hoff.isl,
      hoff.up, hoff.holdup⟩
  case notOff =>
    rintro ⟨hh, ha, hb, hp⟩
    obtain h | h | h | h := h
    · rw [hh] at h; nomatch h
    · rw [ha] at h; nomatch h
    · rw [hb] at h; nomatch h
    · omega

end Sys2Proof.Machine
end

section
/-! The Freut cartridge (20 R493, R496 to R500). -/

namespace Sys2Proof.Machine

variable {s t : State}

theorem exec_cartInserted (id : CartId) (mv : Nat) (s : State) : exec (.cartInserted id mv) s = execCartInserted id mv s := rfl
theorem exec_cartRemoved (s : State) : exec .cartRemoved s = execCartRemoved s := rfl
theorem exec_bayEmptyRepeat (s : State) : exec .bayEmptyRepeat s = execBayEmptyRepeat s := rfl
theorem exec_cartMeasNow (p : Part) (d : Word) (s : State) : exec (.cartMeasNow p d) s = execCartMeasNow p d s := rfl
theorem exec_cartMeasDue (mv : Nat) (s : State) : exec (.cartMeasDue mv) s = execCartMeasDue mv s := rfl
theorem exec_cartMeasDone (step ms : Nat) (s : State) : exec (.cartMeasDone step ms) s = execCartMeasDone step ms s := rfl
theorem exec_cartHour (temp : Int) (s : State) : exec (.cartHour temp) s = execCartHour temp s := rfl
theorem exec_cartStatusClear (p : Part) (d : Word) (s : State) : exec (.cartStatusClear p d) s = .next (cartClear s p d.toNat) := rfl

/-! Flags of the partitions (R9, R496) -/

theorem bit_add_pow {n k : Nat} (h : bit n k = false) : bit (n + 2 ^ k) k = true := by
  simp only [bit, beq_eq_false_iff_ne, beq_iff_eq] at h ⊢
  rw [Nat.add_div_right _ (Nat.two_pow_pos k)]
  omega
theorem bit_maskOf (l : List Bool) (k : Nat) : bit (maskOf l) k = l.getD k false := by
  induction l generalizing k with
  | nil => simp [maskOf, bit]
  | cons b l ih =>
    cases k with
    | zero => cases b <;> simp [maskOf, bit, b2n]
    | succ k =>
      have hk : (b2n b + 2 * maskOf l) / 2 ^ (k + 1) = maskOf l / 2 ^ k := by
        rw [Nat.pow_succ', ← Nat.div_div_eq_div_mul]
        congr 1
        cases b <;> simp [b2n]
        omega
      rw [List.getD_cons_succ, ← ih k]
      show (((b2n b + 2 * maskOf l) / 2 ^ (k + 1)) % 2 == 1) = (maskOf l / 2 ^ k % 2 == 1)
      rw [hk]

/-- One flag of CART_STATUS set in a partition's own copy. -/
def setCartFlag (k : Nat) (q : Partition) : Partition := if bit q.cartFlags k then q else { q with cartFlags := q.cartFlags + 2 ^ k }
theorem setCartFlag_sets (k : Nat) (q : Partition) : bit (setCartFlag k q).cartFlags k = true := by
  unfold setCartFlag
  split
  · assumption
  next h => exact bit_add_pow (Bool.eq_false_iff.mpr h)
theorem cartFlag_foldl {p k : Nat} (ps : List Nat) (hp : p ∈ ps ∨ bit (s.part p).cartFlags k = true) :
    bit ((ps.foldl (fun s p => s.updPart p (setCartFlag k)) s).part p).cartFlags k = true := by
  induction ps generalizing s with
  | nil => exact hp.resolve_left (List.not_mem_nil)
  | cons q ps ih =>
    refine ih ?_
    by_cases hpq : p = q
    · subst hpq
      exact .inr (by rw [part_updPart]; exact setCartFlag_sets ..)
    · rw [part_updPart_ne _ _ _ _ hpq]
      exact hp.imp_left fun h => (List.mem_cons.mp h).resolve_left hpq
theorem cartFlag_sets (s : State) (k : Nat) (p : Part) : bit ((cartFlag s k).part p).cartFlags k = true :=
  cartFlag_foldl (s := s) allParts (.inl (by revert p; decide))
/-- A flag of CART_STATUS stands in a partition. -/
def HasFlag (s : State) (p k : Nat) : Prop := bit (s.part p).cartFlags k = true
theorem HasFlag.keep {p k : Nat} (h : HasFlag s p k) (hp : (t.part p).lessRing = (s.part p).lessRing) : HasFlag t p k := by
  have hc : (t.part p).cartFlags = (s.part p).cartFlags := (congrArg Partition.cartFlags hp :)
  unfold HasFlag
  rw [hc]
  exact h
theorem foldl_svc {α : Type} {f : State → α → State} (hf : ∀ s x, (f s x).svc = s.svc) (xs : List α) (s : State) : (xs.foldl f s).svc = s.svc := by
  induction xs generalizing s with
  | nil => rfl
  | cons x xs ih => exact (ih _).trans (hf s x)
theorem cartFlag_svc (s : State) (k : Nat) : (cartFlag s k).svc = s.svc := foldl_svc (f := fun s p => s.updPart p (setCartFlag k)) (fun _ _ => rfl) _ s

theorem cartClear_bits (s : State) (p d k : Nat) (hk : k < 4) :
    bit ((cartClear s p d).part p).cartFlags k = (bit (s.part p).cartFlags k && !bit d (8 + k)) := by
  unfold cartClear
  rw [part_updPart, bit_maskOf]
  simp [List.getD, hk, w1c]
theorem cartClear_othersSame (s : State) (p d : Nat) : OthersSame s (cartClear s p d) p := updPart_othersSame s p _

/-! Measurements (R497, R498) -/

/-- The cartridge exchanged for what a bay holds. -/
def withCart (s : State) (c : Option Cart) : State := s.updSvc fun v => { v with cart := c }
theorem updCart_eq (s : State) (f : Cart → Cart) : s.updCart f = withCart s (s.svc.cart.map f) := rfl
theorem updCart_congr {f g : Cart → Cart} (h : ∀ c, s.svc.cart = some c → f c = g c) : s.updCart f = s.updCart g := by
  rw [updCart_eq, updCart_eq, Option.map_congr h]
theorem updCart_none (h : s.svc.cart = none) (f : Cart → Cart) : s.updCart f = s := by
  rw [updCart_eq, h]
  exact (congrArg (withCart s) h.symm : withCart s none = withCart s s.svc.cart)
theorem updCart_updCart (s : State) (f g : Cart → Cart) : (s.updCart f).updCart g = s.updCart fun c => g (f c) := by
  rw [updCart_eq (s.updCart f), updCart_eq s f, updCart_eq s]
  exact congrArg (withCart s) (Option.map_map ..)
theorem cart_updCart {c : Cart} (h : s.svc.cart = some c) (f : Cart → Cart) : (s.updCart f).svc.cart = some (f c) := by
  rw [updCart_eq]
  exact congrArg (Option.map f) h

/-- A measurement that may start. -/
def measureStarts (v : Supply) (c : Cart) : Bool := c.due && !c.measuring && v.feedA && v.feedB && decide (13000 ≤ c.mv)
theorem tryMeasure_updCart (s : State) (f : Cart → Cart) : tryMeasure (s.updCart f) = s.updCart fun c =>
    if measureStarts s.svc.sup (f c) then { f c with measuring := true, due := false } else f c := updCart_updCart s f _
section
variable {f g : Cart → Cart} {c : Cart} (hc : s.svc.cart = some c)
include hc
theorem tryMeasure_starts (h : measureStarts s.svc.sup (f c) = true) (hg : { f c with measuring := true, due := false } = g c) :
    tryMeasure (s.updCart f) = s.updCart g := by
  rw [tryMeasure_updCart]
  refine updCart_congr fun d hd => ?_
  obtain rfl : c = d := Option.some.inj (hc.symm.trans hd)
  exact (if_pos h).trans hg
theorem tryMeasure_postpones (h : measureStarts s.svc.sup (f c) = false) (hg : f c = g c) : tryMeasure (s.updCart f) = s.updCart g := by
  rw [tryMeasure_updCart]
  refine updCart_congr fun d hd => ?_
  obtain rfl : c = d := Option.some.inj (hc.symm.trans hd)
  exact (if_neg (by rw [h]; nofun)).trans hg
end

section
variable {p : Part} {d : Word} {c : Cart}
theorem cartMeasNow_asked (hr : s.roleOf p = 3) (hd : bit d.toNat 0 = true) : execCartMeasNow p d s = .next
    (tryMeasure (s.updCart fun c => { c with due := true })) := congrArg Host.Outcome.next (if_pos ⟨hr, hd⟩)
theorem cartMeasNow_still (h : s.roleOf p ≠ 3 ∨ bit d.toNat 0 = false) : execCartMeasNow p d s = .next s := by
  refine congrArg Host.Outcome.next (if_neg fun ⟨hr, hd⟩ => ?_)
  exact h.elim (· hr) fun h => Bool.false_ne_true (h.symm.trans hd)
theorem tryMeasure_none (h : s.svc.cart = none) : tryMeasure s = s := updCart_none h _
theorem cartMeasNow_none (h : s.svc.cart = none) : execCartMeasNow p d s = .next s := by
  unfold execCartMeasNow cartCtrl
  rw [updCart_none h, tryMeasure_none h, ite_self]
theorem cartMeasDue_eq (mv : Nat) (s : State) : execCartMeasDue mv s = .next (tryMeasure ((bankVolts s mv).updCart fun c => { c with due := !c.measuring })) := rfl
theorem cartMeasDue_none (h : s.svc.cart = none) (mv : Nat) : execCartMeasDue mv s = .next s := by
  have hb : bankVolts s mv = s := updCart_none h _
  rw [cartMeasDue_eq, hb, updCart_none h, tryMeasure_none h]
theorem cartMeasDue_high {mv : Nat} (h : 7000 ≤ mv) (s : State) : execCartMeasDue mv s = .next
    (tryMeasure (s.updCart fun c => { c with mv := mv, due := !c.measuring })) := by
  rw [cartMeasDue_eq, bankVolts_high h, updCart_updCart]

variable (hc : s.svc.cart = some c) (hm : c.measuring = false)
include hc
theorem cartMeasNow_postpones (h : s.svc.sup.feedA = false ∨ s.svc.sup.feedB = false ∨ c.mv < 13000) (hr : s.roleOf p = 3)
    (hd : bit d.toNat 0 = true) : execCartMeasNow p d s = .next (s.updCart fun c => { c with due := true }) := by
  rw [cartMeasNow_asked hr hd]
  refine congrArg Host.Outcome.next (tryMeasure_postpones hc ?_ rfl)
  obtain h | h | h := h <;> simp [measureStarts, h]
include hm
theorem cartMeasNow_starts (ha : s.svc.sup.feedA = true) (hb : s.svc.sup.feedB = true) (hr : s.roleOf p = 3) (hd : bit d.toNat 0 = true)
    (hv : 13000 ≤ c.mv) : execCartMeasNow p d s = .next (s.updCart fun c => { c with measuring := true, due := false }) := by
  rw [cartMeasNow_asked hr hd]
  refine congrArg Host.Outcome.next (tryMeasure_starts hc ?_ rfl)
  simp [measureStarts, hm, ha, hb, hv]
theorem cartMeasDue_starts {mv : Nat} (ha : s.svc.sup.feedA = true) (hb : s.svc.sup.feedB = true) (hv : 13000 ≤ mv) :
    execCartMeasDue mv s = .next (s.updCart fun c => { c with mv := mv, measuring := true, due := false }) := by
  rw [cartMeasDue_high (by omega)]
  refine congrArg Host.Outcome.next (tryMeasure_starts hc ?_ rfl)
  simp [measureStarts, hm, ha, hb, hv]
theorem cartMeasDue_postpones {mv : Nat} (hv : 7000 ≤ mv) (h : s.svc.sup.feedA = false ∨ s.svc.sup.feedB = false ∨ mv < 13000) :
    execCartMeasDue mv s = .next (s.updCart fun c => { c with mv := mv, due := true }) := by
  rw [cartMeasDue_high hv]
  refine congrArg Host.Outcome.next (tryMeasure_postpones hc ?_ (by rw [hm]; rfl))
  obtain h | h | h := h <;> simp [measureStarts, h]
end

/-- A cartridge once it has been measured (R497, R498). -/
def Cart.measuredAs (c : Cart) (step ms : Nat) : Cart :=
  { c with measuring := false, cap := 2 * ms / 3, esr := step / 2, warn := c.warn || decide (10 * (2 * ms / 3) ≤ 8 * (cartFactory c).1),
           replace := c.replace || (decide (10 * (2 * ms / 3) ≤ 7 * (cartFactory c).1) || decide (2 * (cartFactory c).2 ≤ step / 2)) }
theorem cartMeasDone_idle (h : measuring s = false) (step ms : Nat) : execCartMeasDone step ms s = .next s := by
  refine congrArg Host.Outcome.next ?_
  cases hc : s.svc.cart with
  | none => rfl
  | some c =>
    have hm : c.measuring = false := by unfold measuring at h; rwa [hc] at h
    exact if_pos (by rw [hm]; rfl)
theorem cartMeasDone_ends {c : Cart} (hc : s.svc.cart = some c) (hm : c.measuring = true) (step ms : Nat) (p : Part) :
    ∃ t, execCartMeasDone step ms s = .next t ∧ t.svc.cart = some (c.measuredAs step ms) ∧ HasFlag t p 2 := by
  let u := s.updCart fun x =>
    { x with measuring := false, cap := 2 * ms / 3, esr := step / 2,
             warn := x.warn || decide (10 * (2 * ms / 3) ≤ 8 * (cartFactory c).1),
             replace := x.replace || (decide (10 * (2 * ms / 3) ≤ 7 * (cartFactory c).1) || decide (2 * (cartFactory c).2 ≤ step / 2)) }
  have hflag : Reports (cartFlag u 2) (supEvent (cartFlag u 2) 233 1) := supEvent_reports ..
  have hif (b : Bool) (k : Nat) (v : State) : Reports v (if b then supEvent v 233 k else v) := by
    split
    · exact supEvent_reports ..
    · exact .refl v
  have hr := hflag.trans ((hif (decide (10 * (2 * ms / 3) ≤ 8 * (cartFactory c).1)) 2 _).trans
    (hif (decide (10 * (2 * ms / 3) ≤ 7 * (cartFactory c).1) || decide (2 * (cartFactory c).2 ≤ step / 2)) 3 _))
  refine ⟨_, congrArg Host.Outcome.next ?_, ?_, HasFlag.keep (cartFlag_sets u 2 p) (hr.parts p)⟩
  · simp only [hc]
    exact if_neg (by rw [hm]; nofun)
  · rw [hr.cart, cartFlag_svc]
    exact cart_updCart hc _

/-! Hours (R496, R499) -/

/-- A cartridge one hour older in the band of a temperature. -/
def Cart.hourMore (c : Cart) (temp : Int) : Cart :=
  { c with id := { c.id with hours := (List.range 5).map fun k => c.id.hours.getD k 0 + if k = hourBand temp then 1 else 0 } }
theorem hourMore_hours (c : Cart) (temp : Int) {k : Nat} (hk : k < 5) :
    (c.hourMore temp).id.hours.getD k 0 = c.id.hours.getD k 0 + if k = hourBand temp then 1 else 0 := by
  simp [Cart.hourMore, List.getD, hk]
theorem cartHour_eq (temp : Int) (s : State) : execCartHour temp s = .next (s.updCart (·.hourMore temp)) := rfl

end Sys2Proof.Machine
end

section
/-! Insertion and removal of the cartridge (20 R493, R497, R500). -/

namespace Sys2Proof.Machine

variable {s t : State} {p : Part}

/-! Insertion -/

/-- A cartridge has been inserted, and told. -/
def insertedTold (s : State) (id : CartId) (mv : Nat) : State :=
  supEvent (cartFlag (s.updSvc fun v => { v with cart := some { id := id, mv := mv } }) 0) 232 1
theorem cartInserted_takes (h : s.svc.cart = none) (id : CartId) (mv : Nat) : execCartInserted id mv s = .next
    (tryMeasure (if id.valid then insertedTold s id mv else supEvent (insertedTold s id mv) 232 4)) :=
  congrArg Host.Outcome.next (if_neg (by rw [h]; nofun))
theorem tryMeasure_same {c : Cart} (h : s.svc.cart = some c) : ∃ c', (tryMeasure s).svc.cart = some c' ∧ c'.id = c.id ∧ c'.mv = c.mv := by
  refine ⟨_, cart_updCart h _, ?_⟩
  split <;> exact ⟨rfl, rfl⟩
theorem cartInserted_gives (h : s.svc.cart = none) (id : CartId) (mv : Nat) : Gives (.cartInserted id mv) s fun t =>
    (∃ c, t.svc.cart = some c ∧ c.id = id ∧ c.mv = mv) ∧ HasFlag t p 0 := by
  refine ⟨_, (exec_cartInserted ..).trans (cartInserted_takes h id mv), ?_⟩
  have hr : Reports (cartFlag (s.updSvc fun v => { v with cart := some { id := id, mv := mv } }) 0)
      (if id.valid then insertedTold s id mv else supEvent (insertedTold s id mv) 232 4) := by
    split
    · exact supEvent_reports ..
    · exact (supEvent_reports ..).trans (supEvent_reports ..)
  generalize (if id.valid then insertedTold s id mv else supEvent (insertedTold s id mv) 232 4) = u at hr ⊢
  have hc : u.svc.cart = some { id := id, mv := mv } := by rw [hr.cart, cartFlag_svc]; rfl
  exact ⟨tryMeasure_same hc, HasFlag.keep (cartFlag_sets _ 0 p) (hr.parts p)⟩

/-! What the end of a sequence keeps of the recorder's banks, the cartridge and the partitions (log entry 149) -/

/-- The recorder writes the same bank in both, and the same one waits. -/
structure BanksSame (v w : Recorder) : Prop where
  writing : w.writing = v.writing
  waiting : w.waiting = v.waiting
theorem BanksSame.refl (v : Recorder) : BanksSame v v := ⟨rfl, rfl⟩
theorem BanksSame.trans {v w x : Recorder} (h : BanksSame v w) (g : BanksSame w x) : BanksSame v x :=
  ⟨g.writing.trans h.writing, g.waiting.trans h.waiting⟩
theorem banks_foldl {α : Type} {f : Recorder → α → Recorder} (hf : ∀ v x, BanksSame v (f v x)) (xs : List α) (v : Recorder) :
    BanksSame v (xs.foldl f v) := by
  induction xs generalizing v with
  | nil => exact .refl v
  | cons x xs ih => exact (hf v x).trans (ih _)
theorem writeSlot_banks (v : Recorder) (r : RawRec) (k : Nat) : BanksSame v (writeSlot v r k) := ⟨rfl, rfl⟩
theorem carrySeal_banks (v : Recorder) (code : Nat) : BanksSame v (carrySeal v code) := by
  unfold carrySeal
  split
  · exact .refl v
  · exact ⟨rfl, rfl⟩
theorem carryDue_banks (v : Recorder) : BanksSame v (carryDue v) := by
  refine banks_foldl (fun v c => ?_) _ v
  split
  · split
    · exact carrySeal_banks ..
    · exact .refl v
  · exact .refl v
theorem acceptRec_banks {v w : Recorder} (h : BanksSame v w) (r : RawRec) (k : Nat) : BanksSame v (acceptRec w r k) := by
  unfold acceptRec
  extract_lets v1 n v2 v3
  have h2 : BanksSame v v2 := (h.trans (carryDue_banks w)).trans (writeSlot_banks ..)
  have h3 : BanksSame v v3 := by
    unfold v3
    split
    · exact h2.trans ⟨rfl, rfl⟩
    · exact h2
  split
  · exact h3.trans ⟨rfl, rfl⟩
  · exact h3
theorem arrive_banks (s : State) (r : RawRec) : BanksSame s.svc.rcd (arrive s r).svc.rcd := by
  unfold arrive
  split
  · exact acceptRec_banks (.refl _) ..
  · dsimp only
    rw [updRec_svc]
    dsimp only
    split
    · refine acceptRec_banks ?_ ..
      exact ⟨rfl, rfl⟩
    · exact ⟨rfl, rfl⟩
theorem drainQueue_banks (n : Nat) (s : State) : BanksSame s.svc.rcd (drainQueue n s).svc.rcd := by
  induction n generalizing s with
  | zero => exact .refl _
  | succ n ih =>
    unfold drainQueue
    split
    · exact .refl _
    next r rest _ =>
      have h0 : BanksSame s.svc.rcd (s.updRec fun v => { v with queue := rest }).svc.rcd := ⟨rfl, rfl⟩
      exact (h0.trans (arrive_banks ..)).trans (ih _)
theorem Reports.banks (h : Reports s t) : BanksSame s.svc.rcd t.svc.rcd := ⟨h.writing, h.waiting⟩

/-- The cartridge, the partitions and the recorder's banks are the same in both states. -/
structure BaySame (s t : State) : Prop where
  cart : t.svc.cart = s.svc.cart
  parts : ∀ p, (t.part p).lessRing = (s.part p).lessRing
  banks : BanksSame s.svc.rcd t.svc.rcd
theorem BaySame.refl (s : State) : BaySame s s := ⟨rfl, fun _ => rfl, .refl _⟩
theorem BaySame.trans {u : State} (h : BaySame s t) (g : BaySame t u) : BaySame s u :=
  ⟨g.cart.trans h.cart, fun p => (g.parts p).trans (h.parts p), h.banks.trans g.banks⟩
theorem Reports.baySame (h : Reports s t) : BaySame s t := ⟨h.cart, h.parts, h.banks⟩
theorem updLane_baySame (s : State) (l : LaneId) (f : Lane → Lane) : BaySame s (s.updLane l f) := by
  cases l <;> exact ⟨rfl, fun _ => rfl, .refl _⟩
theorem Netted.baySame (h : Netted s t) : BaySame s t :=
  ⟨(congrArg (·.svc.cart) h.rest :), h.parts, (congrArg (·.svc.rcd.writing) h.rest :), (congrArg (·.svc.rcd.waiting) h.rest :)⟩
theorem unpowerLane_baySame (s : State) (l : LaneId) : BaySame s (unpowerLane s l) := by
  unfold unpowerLane
  extract_lets u
  have hu : BaySame s u := by
    unfold u
    split
    · exact (updLane_baySame ..).trans (laneStops_netted ..).baySame
    · exact .refl s
  exact hu.trans (updLane_baySame ..)
theorem endHoldup_baySame (s : State) : BaySame s (endHoldup s) := by
  unfold endHoldup
  extract_lets u v w
  have hv : BaySame s v := ⟨rfl, fun _ => rfl, .refl _⟩
  have hw : BaySame s w := by
    unfold w
    split
    · exact hv
    · exact hv.trans (unpowerLane_baySame ..)
  split
  · exact hw
  · exact hw.trans (unpowerLane_baySame ..)
theorem drainQueue_baySame (n : Nat) (s : State) : BaySame s (drainQueue n s) :=
  ⟨(congrArg (fun k => k.svc.2.2.1) (still_drainQueue n s) :), (drainQueue_stationSame n s).parts, drainQueue_banks n s⟩
theorem pfBlank_baySame (s : State) : BaySame s (pfBlank s) := by
  unfold pfBlank
  extract_lets u v
  have hv : BaySame s v := (drainQueue_baySame ..).trans (supEvent_reports ..).baySame
  exact (hv.trans (drainQueue_baySame ..)).trans ⟨rfl, fun _ => rfl, .refl _⟩
theorem panelRedraw_baySame (s : State) : BaySame s (panelRedraw s) := ⟨rfl, fun _ => rfl, .refl _⟩
theorem pfFinish_baySame (s : State) : BaySame s (pfFinish s) := by
  rw [pfFinish_eq]
  split
  · exact ((pfBlank_baySame s).trans (endHoldup_baySame _)).trans (panelRedraw_baySame _)
  · exact (pfBlank_baySame s).trans ⟨rfl, fun _ => rfl, .refl _⟩

/-! Removal -/

/-- A cartridge has been removed, and told; a bank that was being written is abandoned. -/
def removedTold (s : State) : State :=
  abandonBank ((supEvent (cartFlag (abandonMeasure s) 1) 232 (if (abandonMeasure s).svc.sup.holdup then 3 else 2)).updSvc fun v =>
    { v with cart := none }) 3
/-- What follows a removal, by the feeds. -/
def afterRemoval (held : Bool) (u : State) : State :=
  if held && !u.svc.sup.feedA && !u.svc.sup.feedB then powerOff u
  else if held then endHoldup u
  else if !u.svc.sup.feedA && !u.svc.sup.feedB then u.updRtc fun _ => {}
  else if u.st.pfStep = 3 ∧ u.svc.rcd.writing.isNone = true then pfFinish u
  else u
theorem cartRemoved_removes (h : s.svc.cart ≠ none) : execCartRemoved s = .next (afterRemoval s.svc.sup.holdup (removedTold s)) := by
  have hsup := (abandonMeasure_same s).sup
  have he : execCartRemoved s = .next (if s.svc.cart.isNone then s else afterRemoval (abandonMeasure s).svc.sup.holdup (removedTold s)) := rfl
  rw [he, if_neg (by rwa [Option.isNone_iff_eq_none]), hsup]

theorem abandonBank_writing (h : s.svc.rcd.waiting = none) (cause : Nat) : (abandonBank s cause).svc.rcd.writing = none := by
  cases hw : s.svc.rcd.writing with
  | none =>
    have he : abandonBank s cause = s := by unfold abandonBank; rw [hw]
    rw [he, hw]
  | some w =>
    rw [abandonBank_some hw, h]
    exact (givenUp_reports s w cause).writing
theorem abandonMeasure_banks (s : State) : BanksSame s.svc.rcd (abandonMeasure s).svc.rcd := by
  unfold abandonMeasure
  split
  · refine BanksSame.trans ?_ (supEvent_reports ..).banks
    rw [cartFlag_svc]
    exact ⟨rfl, rfl⟩
  · exact .refl _

/-- The bay is empty, each partition is told, and no bank is being written. -/
structure BayEmpty (s t : State) (p : Nat) : Prop where
  cart : t.svc.cart = none
  flag : HasFlag t p 1
  writing : s.svc.rcd.waiting = none → t.svc.rcd.writing = none
theorem BayEmpty.same {u : State} {p : Nat} (h : BayEmpty s t p) (g : BaySame t u) : BayEmpty s u p :=
  ⟨g.cart.trans h.cart, h.flag.keep (g.parts p), fun hw => g.banks.writing.trans (h.writing hw)⟩
theorem removedTold_empty (s : State) (p : Part) : BayEmpty s (removedTold s) p := by
  unfold removedTold
  have hb := abandonMeasure_banks s
  generalize abandonMeasure s = u at hb ⊢
  have hr := supEvent_reports (cartFlag u 1) 232 (if u.svc.sup.holdup then 3 else 2) []
  have hflag : HasFlag (supEvent (cartFlag u 1) 232 (if u.svc.sup.holdup then 3 else 2)) p 1 := HasFlag.keep (cartFlag_sets u 1 p) (hr.parts p)
  have hwait : (supEvent (cartFlag u 1) 232 (if u.svc.sup.holdup then 3 else 2)).svc.rcd.waiting = s.svc.rcd.waiting := by
    rw [hr.waiting, cartFlag_svc, hb.waiting]
  generalize supEvent (cartFlag u 1) 232 (if u.svc.sup.holdup then 3 else 2) = v at hflag hwait
  have hst : (abandonBank (v.updSvc fun w => { w with cart := none }) 3).still = (v.updSvc fun w => { w with cart := none }).still :=
    still_abandonBank ..
  refine ⟨(congrArg (·.svc.2.2.1) hst :), hflag.keep ((abandonBank_stationSame ..).parts p), fun hw => ?_⟩
  exact abandonBank_writing (s := v.updSvc fun w => { w with cart := none }) (hwait.trans hw) 3
theorem removedTold_sup (s : State) : (removedTold s).svc.sup = s.svc.sup := by
  have hst : (removedTold s).still.svc.2.1 = (abandonMeasure s).svc.sup := by
    unfold removedTold
    rw [still_abandonBank]
    exact ((supEvent_reports ..).sup).trans (congrArg Svc.sup (cartFlag_svc ..))
  exact hst.trans (abandonMeasure_same s).sup
theorem powerOff_cart (h : s.svc.cart = none) : (powerOff s).svc.cart = none := by
  have hst : (tearWrite (abandonBank s 2)).still = s.still := (still_tearWrite _).trans (still_abandonBank ..)
  exact (congrArg (·.svc.2.2.1) hst :).trans h

section
variable (h : s.svc.cart ≠ none)
include h
theorem cartRemoved_fed (hf : s.svc.sup.feedA = true ∨ s.svc.sup.feedB = true) : Gives .cartRemoved s fun t =>
    t.svc.cart = none ∧ HasFlag t p 1 ∧ (s.svc.rcd.waiting = none → t.svc.rcd.writing = none) ∧
    (s.svc.sup.holdup = true → t.svc.sup.holdup = false ∧ t.st.pfStep = 0) := by
  refine ⟨_, (exec_cartRemoved s).trans (cartRemoved_removes h), ?_⟩
  have he := removedTold_empty s p
  have hsup := removedTold_sup s
  generalize removedTold s = u at he hsup ⊢
  have hfed : ¬(!u.svc.sup.feedA && !u.svc.sup.feedB) = true := by
    rw [hsup]
    obtain hf | hf := hf <;> simp [hf]
  have hgives {v : State} (hv : BaySame u v) (hh : s.svc.sup.holdup = true → v.svc.sup.holdup = false ∧ v.st.pfStep = 0) :
      v.svc.cart = none ∧ HasFlag v p 1 ∧ (s.svc.rcd.waiting = none → v.svc.rcd.writing = none) ∧
      (s.svc.sup.holdup = true → v.svc.sup.holdup = false ∧ v.st.pfStep = 0) :=
    ⟨(he.same hv).cart, (he.same hv).flag, (he.same hv).writing, hh⟩
  unfold afterRemoval
  cases hh : s.svc.sup.holdup with
  | true =>
    rw [hh] at hgives
    rw [Bool.true_and, if_neg hfed, if_pos rfl]
    have hend := endHoldup_ends u
    exact hgives (endHoldup_baySame u) fun _ => ⟨by rw [hend.sup], hend.step⟩
  | false =>
    rw [hh] at hgives
    rw [Bool.false_and, Bool.false_and, if_neg nofun, if_neg nofun, if_neg hfed]
    split
    · exact hgives (pfFinish_baySame u) nofun
    · exact hgives (.refl u) nofun

variable (ha : s.svc.sup.feedA = false) (hb : s.svc.sup.feedB = false)
include ha hb
theorem cartRemoved_held (hh : s.svc.sup.holdup = true) : Gives .cartRemoved s fun t => t.svc.cart = none ∧ AllOff t := by
  refine ⟨_, (exec_cartRemoved s).trans (cartRemoved_removes h), ?_⟩
  have hsup := removedTold_sup s
  rw [show afterRemoval s.svc.sup.holdup (removedTold s) = powerOff (removedTold s) from if_pos (by rw [hsup, hh, ha, hb]; rfl)]
  exact ⟨powerOff_cart (removedTold_empty s 0).cart, powerOff_off _⟩
theorem cartRemoved_unheld (hh : s.svc.sup.holdup = false) : Gives .cartRemoved s fun t =>
    t.svc.cart = none ∧ t.svc.rtc = {} ∧ HasFlag t p 1 := by
  refine ⟨_, (exec_cartRemoved s).trans (cartRemoved_removes h), ?_⟩
  have hsup := removedTold_sup s
  have he := removedTold_empty s p
  rw [show afterRemoval s.svc.sup.holdup (removedTold s) = (removedTold s).updRtc fun _ => {} from
    (if_neg (by rw [hh]; nofun)).trans ((if_neg (by rw [hh]; nofun)).trans (if_pos (by rw [hsup, ha, hb]; rfl)))]
  exact ⟨he.cart, rfl, he.flag⟩
end

/-- Settles O55: a measurement over the cartridge alone, a removal over what the end of a sequence keeps of the bay. -/
theorem cartridgeRows : Obligations.CartridgeRows := by
  unfold Obligations.CartridgeRows
  intro s p d
  simp only [exec_cartInserted, exec_cartRemoved, exec_bayEmptyRepeat, exec_cartMeasNow, exec_cartMeasDue, exec_cartMeasDone, exec_cartHour]
  refine ⟨fun h id mv => cartInserted_gives h id mv, fun h id mv => congrArg Host.Outcome.next (if_pos (Option.isSome_iff_ne_none.mpr h)),
    fun h => ⟨congrArg Host.Outcome.next (if_pos (by rw [h]; rfl)), fun hup => ⟨supEvent s 232 2, ?bay, supEvent_reports ..⟩⟩,
    fun h => congrArg Host.Outcome.next (if_neg ?noBay),
    fun h => ⟨fun hf => cartRemoved_fed h hf, fun ha hb => ⟨fun hh => ?held, fun hh => cartRemoved_unheld h ha hb hh⟩⟩,
    fun c hc hm => ⟨fun ha hb => ⟨fun hr hd hv => cartMeasNow_starts hc hm ha hb hr hd hv, fun mv hv => cartMeasDue_starts hc hm ha hb hv⟩,
      fun h hr hd => cartMeasNow_postpones hc h hr hd, fun mv hv h => cartMeasDue_postpones hc hm hv h⟩,
    cartMeasNow_still, fun h => ⟨cartMeasNow_none h, cartMeasDue_none h⟩,
    fun c step ms hc hm => ?done, fun h step ms => cartMeasDone_idle h step ms,
    fun c temp hc => ⟨_, (exec_cartHour temp s).trans (cartHour_eq temp s), _, cart_updCart hc _, fun k hk => hourMore_hours c temp hk⟩,
    fun h temp => (cartHour_eq temp s).trans (congrArg Host.Outcome.next (updCart_none h _)),
    ⟨_, exec_cartStatusClear p d s, cartClear_othersSame s p d.toNat, fun k hk => cartClear_bits s p d.toNat k hk⟩⟩
  case bay => exact (exec_bayEmptyRepeat s).trans (congrArg Host.Outcome.next (if_pos (by rw [h, hup]; rfl)))
  case noBay =>
    rw [Bool.and_eq_true, Option.isNone_iff_eq_none]
    rintro ⟨hc, hup⟩
    exact h.elim (· hc) fun h => Bool.false_ne_true (h.symm.trans hup)
  case held =>
    obtain ⟨t, ht, hc, hoff⟩ := cartRemoved_held h ha hb hh
    exact ⟨t, ht, hc, hoff.st, hoff.isl, hoff.up⟩
  case done =>
    obtain ⟨t, ht, hc', hflag⟩ := cartMeasDone_ends hc hm step ms p
    refine ⟨t, (exec_cartMeasDone ..).trans ht, c.measuredAs step ms, hc', rfl, rfl, rfl, rfl, ?_, hflag⟩
    exact (Bool.or_assoc ..).symm

end Sys2Proof.Machine
end

section
/-! The real-time clock (19 R480 to R487). -/

namespace Sys2Proof.Machine

variable {s t : State}

theorem exec_rtcSecond (s : State) : exec .rtcSecond s = execRtcSecond s := rfl
theorem exec_rtcTimeRead (p : Part) (sub : Bool) (cycles phase : Nat) (s : State) :
    exec (.rtcTimeRead p sub cycles phase) s = execRtcTimeRead p sub cycles phase s := rfl
theorem exec_rtcDateRead (p : Part) (s : State) : exec (.rtcDateRead p) s = execRtcDateRead p s := rfl
theorem exec_rtcStatusClear (p : Part) (d : Word) (s : State) : exec (.rtcStatusClear p d) s = .next (rtcClear s p d.toNat) := rfl
theorem exec_rtcCommit (p : Part) (d : Word) (s : State) : exec (.rtcCommit p d) s = .next (rtcCommit s p d.toNat) := rfl
theorem exec_rtcAlarmWrite (p : Part) (alarm2 date : Bool) (d : Word) (s : State) :
    exec (.rtcAlarmWrite p alarm2 date d) s = .next (rtcAlarm s p alarm2 date d.toNat) := rfl
theorem exec_rtcTrimWrite (p : Part) (d : Word) (s : State) : exec (.rtcTrimWrite p d) s = .next (rtcTrim s p d.toNat) := rfl

/-! A second and its alarms (R482, R483, R486) -/

/-- An alarm set in a partition's flags. -/
def setAlarm (n : Nat) (q : RtcPort) : RtcPort := if n = 1 then { q with alm1 := true } else { q with alm2 := true }
theorem setAlarm_setAlarm (n : Nat) (q : RtcPort) : setAlarm n (setAlarm n q) = setAlarm n q := by
  unfold setAlarm; split <;> rfl

/-- Both alarms of the clock reach every partition, and nothing else of the clock or of the power state changes. -/
structure AlarmTold (s t : State) (n : Nat) : Prop where
  rtc : t.svc.rtc = s.svc.rtc
  ps : t.st.power.ps = s.st.power.ps
  port : ∀ p : Part, (t.part p).rtc = setAlarm n (s.part p).rtc

theorem alarmFlags_port {p : Nat} (n : Nat) (ps : List Nat) (hp : p ∈ ps ∨ (s.part p).rtc = setAlarm n (t.part p).rtc)
    (hs : (s.part p).rtc = (t.part p).rtc ∨ (s.part p).rtc = setAlarm n (t.part p).rtc) :
    ((ps.foldl (fun s p => s.updRtcPort p (setAlarm n)) s).part p).rtc = setAlarm n (t.part p).rtc := by
  induction ps generalizing s with
  | nil => exact hp.resolve_left List.not_mem_nil
  | cons q ps ih =>
    by_cases hpq : p = q
    · subst hpq
      have hset : ((s.updRtcPort p (setAlarm n)).part p).rtc = setAlarm n (t.part p).rtc := by
        unfold State.updRtcPort
        rw [part_updPart]
        obtain hs | hs := hs
        · exact congrArg (setAlarm n) hs
        · exact (congrArg (setAlarm n) hs).trans (setAlarm_setAlarm ..)
      exact ih (.inr hset) (.inr hset)
    · have hkeep : (s.updRtcPort q (setAlarm n)).part p = s.part p := part_updPart_ne _ _ _ _ hpq
      refine ih ?_ (by rwa [hkeep])
      rw [hkeep]
      exact hp.imp_left fun h => (List.mem_cons.mp h).resolve_left hpq
theorem foldl_updRtcPort_other {α : Type} (g : State → α) (hg : ∀ s p f, g (s.updRtcPort p f) = g s) (f : RtcPort → RtcPort) (ps : List Nat)
    (s : State) : g (ps.foldl (fun s p => s.updRtcPort p f) s) = g s := by
  induction ps generalizing s with
  | nil => rfl
  | cons p ps ih => exact (ih _).trans (hg s p f)
theorem darkWake_lights (h : s.st.power.ps ≠ .dark) (w : WakeSource) :
    (darkWake s w).st.power.ps = s.st.power.ps ∧ ∀ p, (darkWake s w).part p = s.part p := by
  by_cases hw : wakes s w
  · rw [darkWake_wakes hw, if_neg (c := (s.st.power.ps == .dark) = true) (by simpa using h)]
    split <;> exact ⟨rfl, fun _ => rfl⟩
  · rw [darkWake_not hw]; exact ⟨rfl, fun _ => rfl⟩
theorem fireAlarm_told (h : s.st.power.ps ≠ .dark) (n : Nat) : AlarmTold s (fireAlarm s n) n := by
  unfold fireAlarm
  extract_lets u v
  have hr : Reports u v := raise_reports ..
  have hups : u.st.power.ps = s.st.power.ps := foldl_updRtcPort_other (·.st.power.ps) (fun _ _ _ => rfl) (setAlarm n) allParts s
  have hurtc : u.svc.rtc = s.svc.rtc := foldl_updRtcPort_other (·.svc.rtc) (fun _ _ _ => rfl) (setAlarm n) allParts s
  have huport (p : Part) : (u.part p).rtc = setAlarm n (s.part p).rtc :=
    alarmFlags_port n allParts (.inl (by revert p; decide)) (.inl rfl)
  have hvps : v.st.power.ps = s.st.power.ps := (congrArg (·.power.ps) hr.st :).trans hups
  obtain ⟨hps, hparts⟩ := darkWake_lights (s := v) (by rw [hvps]; exact h) (if n = 1 then .alarm1 else .alarm2)
  have hst := still_svc_darkWake v (if n = 1 then .alarm1 else .alarm2)
  refine ⟨(congrArg Prod.fst hst :).trans ((congrArg (·.svc.rtc) hr.rest :).trans hurtc), hps.trans hvps, fun p => ?_⟩
  rw [hparts]
  exact (congrArg Partition.rtc (hr.parts p) :).trans (huport p)

/-- The clock a second on. -/
def secondPassed (s : State) : State := s.updRtc fun r => { nextSecond r with trimNow := r.trim }
theorem rtcSecond_unsupplied (h : rtcSupplied s = false) : execRtcSecond s = .next s := by
  unfold execRtcSecond
  rw [h]
  exact congrArg Host.Outcome.next (if_pos (by rw [Bool.not_false, Bool.or_true]))
theorem rtcSecond_supplied (h : rtcSupplied s = true) : execRtcSecond s = .next (
    let u := secondPassed s
    if !s.svc.up then u else
      let v := if alarmMatches u.svc.rtc u.svc.rtc.alm1Time u.svc.rtc.alm1Date then fireAlarm u 1 else u
      if alarmMatches u.svc.rtc u.svc.rtc.alm2Time u.svc.rtc.alm2Date then fireAlarm v 2 else v) := by
  unfold execRtcSecond
  rw [h]
  refine congrArg Host.Outcome.next ?_
  rw [Bool.not_true, Bool.or_false]
  rfl
/-- The next second moves the calendar alone. -/
theorem nextSecond_alarms (r : Rtc) : (nextSecond r).alm1Time = r.alm1Time ∧ (nextSecond r).alm1Date = r.alm1Date ∧
    (nextSecond r).alm2Time = r.alm2Time ∧ (nextSecond r).alm2Date = r.alm2Date := by
  unfold nextSecond
  dsimp only
  split_ifs <;> exact ⟨rfl, rfl, rfl, rfl⟩
theorem nextSecond_plain {r : Rtc} (h : r.sec < 59) : nextSecond r = { r with sec := r.sec + 1 } := if_pos h

/-- An alarm that fires where it matches. -/
def fireIf (b : Bool) (s : State) (n : Nat) : State := if b then fireAlarm s n else s
theorem fireIf_told (b : Bool) (h : s.st.power.ps ≠ .dark) (n : Nat) : (fireIf b s n).svc.rtc = s.svc.rtc ∧
    (fireIf b s n).st.power.ps = s.st.power.ps ∧
    ∀ p : Part, ((fireIf b s n).part p).rtc = if b then setAlarm n (s.part p).rtc else (s.part p).rtc := by
  unfold fireIf
  cases b with
  | false => exact ⟨rfl, rfl, fun _ => rfl⟩
  | true => exact ⟨(fireAlarm_told h n).rtc, (fireAlarm_told h n).ps, (fireAlarm_told h n).port⟩
theorem rtcSecond_alarms (hs : rtcSupplied s = true) (hup : s.svc.up = true) (hps : s.st.power.ps ≠ .dark) (p : Part) :
    Gives .rtcSecond s fun t =>
      t.svc.rtc = { nextSecond s.svc.rtc with trimNow := s.svc.rtc.trim } ∧
      (t.part p).rtc.alm1 = ((s.part p).rtc.alm1 || alarmMatches (nextSecond s.svc.rtc) s.svc.rtc.alm1Time s.svc.rtc.alm1Date) ∧
      (t.part p).rtc.alm2 = ((s.part p).rtc.alm2 || alarmMatches (nextSecond s.svc.rtc) s.svc.rtc.alm2Time s.svc.rtc.alm2Date) := by
  obtain ⟨h1t, h1d, h2t, h2d⟩ := nextSecond_alarms s.svc.rtc
  rw [← h1t, ← h1d, ← h2t, ← h2d]
  have hpassed : (secondPassed s).svc.rtc = { nextSecond s.svc.rtc with trimNow := s.svc.rtc.trim } := rfl
  have hpart : (secondPassed s).part p = s.part p := rfl
  have hpps : (secondPassed s).st.power.ps = s.st.power.ps := rfl
  refine ⟨_, (exec_rtcSecond s).trans ((rtcSecond_supplied hs).trans (congrArg Host.Outcome.next (if_neg (by rw [hup]; nofun)))), ?_⟩
  have hm1 : alarmMatches (secondPassed s).svc.rtc (secondPassed s).svc.rtc.alm1Time (secondPassed s).svc.rtc.alm1Date =
    alarmMatches (nextSecond s.svc.rtc) (nextSecond s.svc.rtc).alm1Time (nextSecond s.svc.rtc).alm1Date := rfl
  have hm2 : alarmMatches (secondPassed s).svc.rtc (secondPassed s).svc.rtc.alm2Time (secondPassed s).svc.rtc.alm2Date =
    alarmMatches (nextSecond s.svc.rtc) (nextSecond s.svc.rtc).alm2Time (nextSecond s.svc.rtc).alm2Date := rfl
  rw [hm1, hm2]
  generalize alarmMatches (nextSecond s.svc.rtc) (nextSecond s.svc.rtc).alm1Time (nextSecond s.svc.rtc).alm1Date = b1
  generalize alarmMatches (nextSecond s.svc.rtc) (nextSecond s.svc.rtc).alm2Time (nextSecond s.svc.rtc).alm2Date = b2
  generalize secondPassed s = u at *
  obtain ⟨hr1, hp1, hq1⟩ := fireIf_told b1 (s := u) (by rw [hpps]; exact hps) 1
  obtain ⟨hr2, -, hq2⟩ := fireIf_told b2 (s := fireIf b1 u 1) (by rw [hp1, hpps]; exact hps) 2
  show (fireIf b2 (fireIf b1 u 1) 2).svc.rtc = _ ∧ ((fireIf b2 (fireIf b1 u 1) 2).part p).rtc.alm1 = _ ∧
    ((fireIf b2 (fireIf b1 u 1) 2).part p).rtc.alm2 = _
  rw [hr2, hr1, hq2, hq1, hpart]
  refine ⟨hpassed, ?_, ?_⟩
  · cases b1 <;> cases b2 <;> simp [setAlarm]
  · cases b1 <;> cases b2 <;> simp [setAlarm]

/-! A reading as a whole slow access (R62, R63, R481; log entry 117) -/

/-- A partition's slow port with an access of its own that has ended at an address. -/
def Partition.slowEnded (q : Partition) (a : Nat) : Partition := { q with slow := { q.slow with addr := a, access := none } }
/-- A read of an address goes through: it is the access in progress, or the port is free. -/
def SlowReads (s : State) (p a : Nat) : Prop :=
  ((s.part p).slow.access = some none ∧ (s.part p).slow.addr = a) ∨ (winLive s p = true ∧ (s.part p).slow.access = none)
/-- The port is busy with another access. -/
def SlowBusy (s : State) (p a : Nat) : Prop :=
  (s.part p).slow.access ≠ none ∧ ¬((s.part p).slow.access = some none ∧ (s.part p).slow.addr = a)
theorem updPart_congr {p : Nat} {f g : Partition → Partition} (h : f (s.part p) = g (s.part p)) : s.updPart p f = s.updPart p g := by
  unfold State.updPart
  rw [h]

/-- Once a port has an access or none, a read of an address is made if it is the access that the port has. -/
def slowMade (p a : Nat) (f : State → Nat × State) (u : State) : State :=
  if (u.part p).slow.access = some none ∧ (u.part p).slow.addr = a then
    slowResult p (f (u.updPart p fun q => { q with slow := { q.slow with access := none } }))
  else u
theorem slowReadWhole_eq (s : State) (p a : Nat) (f : State → Nat × State) : slowReadWhole s p a f =
    slowMade p a f (if (s.part p).slow.access = some none ∧ (s.part p).slow.addr = a then s else writeSlowAddr s p (2 ^ 31 + a)) := rfl
section
variable {p a : Nat} (f : State → Nat × State)
theorem slowReadWhole_reads (ha : (2 ^ 31 + a) % 65536 / 4 * 4 = a) (hb : bit (2 ^ 31 + a) 31 = true) (h : SlowReads s p a) :
    slowReadWhole s p a f = slowResult p (f (s.updPart p (·.slowEnded a))) := by
  rw [slowReadWhole_eq]
  obtain ⟨hacc, haddr⟩ | ⟨hlive, hidle⟩ := h
  · rw [if_pos ⟨hacc, haddr⟩]
    refine (if_pos ⟨hacc, haddr⟩).trans (congrArg (fun u => slowResult p (f u)) (updPart_congr ?_))
    unfold Partition.slowEnded
    rw [← haddr]
  · rw [if_neg (by rw [hidle]; exact fun hc => nomatch hc.1), writeSlowAddr_idle hlive _ hidle, ha, if_pos hb]
    refine (if_pos ?_).trans (congrArg (fun u => slowResult p (f u)) (updPart_updPart ..))
    rw [part_updPart]
    exact ⟨rfl, rfl⟩
theorem slowReadWhole_drops (hlive : winLive s p = true) (h : SlowBusy s p a) :
    slowReadWhole s p a f = s.updPart p fun q => { q with slowDrop := true } := by
  obtain ⟨hbusy, hother⟩ := h
  rw [slowReadWhole_eq, if_neg hother, writeSlowAddr_busy hlive _ hbusy]
  exact if_neg (by rwa [part_updPart])
theorem slowReadWhole_still (hlive : winLive s p = false) (h : ¬SlowReads s p a) : slowReadWhole s p a f = s := by
  have hother : ¬((s.part p).slow.access = some none ∧ (s.part p).slow.addr = a) := fun hc => h (.inl hc)
  have hw : writeSlowAddr s p (2 ^ 31 + a) = s := if_pos (by rw [hlive]; rfl)
  rw [slowReadWhole_eq, if_neg hother, hw]
  exact if_neg hother
end

section
variable {p : Nat}
theorem slowResult_othersSame (v : Nat) (h : OthersSame s t p) : OthersSame s (slowResult p (v, t)) p := fun q hq =>
  (part_updPart_ne _ _ _ _ hq).trans (h q hq)
theorem slowResult_part (v : Nat) (t : State) : (slowResult p (v, t)).part p =
    { t.part p with slow := { (t.part p).slow with data := BitVec.ofNat 32 v } } := part_updPart ..

/-- A partition's copies of the clock, taken at a reading. -/
def capture (r : Rtc) (cycles phase : Nat) (q : RtcPort) : RtcPort :=
  { q with frozen := true, subsec := subsecAt r phase cycles, time := rtcTime r, date := rtcDate r }
/-- RTC_SUBSEC or RTC_TIME of a partition. -/
def timeOf (sub : Bool) (q : RtcPort) : Nat := if sub then q.subsec else q.time
theorem rtcRead_eq (s : State) (p : Nat) (sub : Bool) (cycles phase : Nat) : rtcRead s p sub cycles phase =
    (fun u : State => (timeOf sub (u.part p).rtc, u))
      (if (s.part p).rtc.frozen then s else s.updRtcPort p (capture s.svc.rtc cycles phase)) := rfl
theorem rtcRead_frozen (h : (s.part p).rtc.frozen = true) (sub : Bool) (cycles phase : Nat) :
    rtcRead s p sub cycles phase = (timeOf sub (s.part p).rtc, s) := by
  rw [rtcRead_eq, if_pos h]
theorem rtcRead_live (h : (s.part p).rtc.frozen = false) (sub : Bool) (cycles phase : Nat) : rtcRead s p sub cycles phase =
    (if sub then subsecAt s.svc.rtc phase cycles else rtcTime s.svc.rtc, s.updRtcPort p (capture s.svc.rtc cycles phase)) := by
  have hp : ((s.updRtcPort p (capture s.svc.rtc cycles phase)).part p).rtc = capture s.svc.rtc cycles phase (s.part p).rtc :=
    congrArg Partition.rtc (part_updPart ..)
  rw [rtcRead_eq, if_neg (c := (s.part p).rtc.frozen = true) (by rw [h]; nofun)]
  dsimp only
  rw [hp]
  rfl
theorem slowEnded_part (s : State) (p a : Nat) : (s.updPart p (·.slowEnded a)).part p = (s.part p).slowEnded a := part_updPart ..

/-- RTC_SUBSEC and RTC_TIME by their slow address. -/
def rtcAddr (sub : Bool) : Nat := if sub then 4 else 8
theorem rtcAddr_reads (sub : Bool) : (2 ^ 31 + rtcAddr sub) % 65536 / 4 * 4 = rtcAddr sub ∧ bit (2 ^ 31 + rtcAddr sub) 31 = true := by
  cases sub <;> decide
theorem rtcTimeRead_eq (p : Part) (sub : Bool) (cycles phase : Nat) (s : State) :
    execRtcTimeRead p sub cycles phase s = .next (slowReadWhole s p (rtcAddr sub) fun s => rtcRead s p sub cycles phase) := rfl
theorem rtcDateRead_eq (p : Part) (s : State) : execRtcDateRead p s = .next (slowReadWhole s p 0x0C fun s => rtcReadDate s p) := rfl
end

section
variable {p : Part} {sub : Bool} (cycles phase : Nat)
theorem rtcTimeRead_frozen (h : SlowReads s p (rtcAddr sub)) (hf : (s.part p).rtc.frozen = true) :
    execRtcTimeRead p sub cycles phase s = .next (s.updPart p fun q => { q with slow :=
      { q.slow with addr := rtcAddr sub, access := none, data := BitVec.ofNat 32 (if sub then q.rtc.subsec else q.rtc.time) } }) := by
  obtain ⟨ha, hb⟩ := rtcAddr_reads sub
  have hu := slowEnded_part s p (rtcAddr sub)
  rw [rtcTimeRead_eq, slowReadWhole_reads _ ha hb h, rtcRead_frozen (by rw [hu]; exact hf), hu]
  unfold slowResult
  rw [updPart_updPart]
  exact congrArg Host.Outcome.next (updPart_congr rfl)
theorem rtcTimeRead_live (h : SlowReads s p (rtcAddr sub)) (hf : (s.part p).rtc.frozen = false) :
    Gives (.rtcTimeRead p sub cycles phase) s fun t => OthersSame s t p ∧
      (t.part p).rtc = { (s.part p).rtc with frozen := true, subsec := subsecAt s.svc.rtc phase cycles, time := rtcTime s.svc.rtc,
                                             date := rtcDate s.svc.rtc } ∧
      (t.part p).slow.access = none ∧
      (t.part p).slow.data = BitVec.ofNat 32 (if sub then subsecAt s.svc.rtc phase cycles else rtcTime s.svc.rtc) := by
  obtain ⟨ha, hb⟩ := rtcAddr_reads sub
  have hu := slowEnded_part s p (rtcAddr sub)
  have hsvc : (s.updPart p (·.slowEnded (rtcAddr sub))).svc = s.svc := rfl
  refine ⟨_, (exec_rtcTimeRead ..).trans ((rtcTimeRead_eq ..).trans (congrArg Host.Outcome.next (slowReadWhole_reads _ ha hb h))), ?_⟩
  have ho := updPart_othersSame s p (·.slowEnded (rtcAddr sub))
  generalize s.updPart p (·.slowEnded (rtcAddr sub)) = u at hu hsvc ho ⊢
  rw [rtcRead_live (by rw [hu]; exact hf), hsvc]
  have hp : ((u.updRtcPort p (capture s.svc.rtc cycles phase)).part p) = _ := part_updPart ..
  rw [hu] at hp
  refine ⟨slowResult_othersSame _ (ho.trans (updPart_othersSame u p _)), ?_, ?_, ?_⟩
  · rw [slowResult_part, hp]; rfl
  · rw [slowResult_part, hp]; rfl
  · rw [slowResult_part]
end

theorem rtcReadDate_frozen {p : Nat} (h : (s.part p).rtc.frozen = true) :
    rtcReadDate s p = ((s.part p).rtc.date, s.updRtcPort p fun q => { q with frozen := false }) := if_pos h
theorem rtcReadDate_live {p : Nat} (h : (s.part p).rtc.frozen = false) : rtcReadDate s p = (rtcDate s.svc.rtc, s) := if_neg (by rw [h]; nofun)
theorem rtcAddr_date : (2 ^ 31 + 0x0C) % 65536 / 4 * 4 = 0x0C ∧ bit (2 ^ 31 + 0x0C) 31 = true := by decide
theorem rtcDateRead_reads {p : Part} (h : SlowReads s p 0x0C) : Gives (.rtcDateRead p) s fun t => OthersSame s t p ∧
    (t.part p).rtc = { (s.part p).rtc with frozen := false } ∧ (t.part p).slow.access = none ∧
    (t.part p).slow.data = BitVec.ofNat 32 (if (s.part p).rtc.frozen then (s.part p).rtc.date else rtcDate s.svc.rtc) := by
  have hu := slowEnded_part s p 0x0C
  have hsvc : (s.updPart p (·.slowEnded 0x0C)).svc = s.svc := rfl
  refine ⟨_, (exec_rtcDateRead ..).trans ((rtcDateRead_eq ..).trans
    (congrArg Host.Outcome.next (slowReadWhole_reads _ rtcAddr_date.1 rtcAddr_date.2 h))), ?_⟩
  have ho := updPart_othersSame s p (·.slowEnded 0x0C)
  generalize s.updPart p (·.slowEnded 0x0C) = u at hu hsvc ho ⊢
  have hfrozen : (u.part p).rtc = (s.part p).rtc := by rw [hu]; rfl
  cases hf : (s.part p).rtc.frozen with
  | true =>
    rw [rtcReadDate_frozen (by rw [hfrozen, hf]), hfrozen]
    have hp : ((u.updRtcPort p fun q => { q with frozen := false }).part p) = _ := part_updPart ..
    rw [hu] at hp
    refine ⟨slowResult_othersSame _ (ho.trans (updPart_othersSame u p _)), ?_, ?_, ?_⟩
    · rw [slowResult_part, hp]; rfl
    · rw [slowResult_part, hp]; rfl
    · rw [slowResult_part]; rfl
  | false =>
    rw [rtcReadDate_live (by rw [hfrozen, hf]), hsvc]
    refine ⟨slowResult_othersSame _ ho, ?_, ?_, ?_⟩
    · rw [slowResult_part, hu]
      exact (congrArg (fun b => { (s.part p).rtc with frozen := b }) hf :)
    · rw [slowResult_part, hu]; rfl
    · rw [slowResult_part]; rfl

/-! The shared registers (R480, R484 to R487) -/

theorem rtcShared_denied {p : Nat} (h : s.roleOf p < 2) (k : State) : rtcShared s p k = s.updRtcPort p fun q => { q with roleRej := true } :=
  if_neg (Nat.not_le.mpr h)
theorem rtcShared_granted {p : Nat} (h : 2 ≤ s.roleOf p) (k : State) : rtcShared s p k = k := if_pos h

/-- One of the four alarm registers written. -/
def setAlarmReg (alarm2 date : Bool) (d : Nat) (r : Rtc) : Rtc :=
  match alarm2, date with
  | false, false => { r with alm1Time := d }
  | false, true => { r with alm1Date := d }
  | true, false => { r with alm2Time := d }
  | true, true => { r with alm2Date := d }
section
variable {p : Part} {d : Word} (h : 2 ≤ s.roleOf p)
include h
theorem rtcCommit_sets (hd : bit d.toNat 0 = true) (hok : pairOk (s.part p).rtc.setTime (s.part p).rtc.setDate = true) :
    Becomes (.rtcCommit p d) s ((s.updRtc fun r =>
        { r with hour := fld (s.part p).rtc.setTime 16 5, min := fld (s.part p).rtc.setTime 8 6, sec := fld (s.part p).rtc.setTime 0 6,
                 year := fld (s.part p).rtc.setDate 16 12, month := fld (s.part p).rtc.setDate 8 4, day := fld (s.part p).rtc.setDate 0 5 }).updRtcPort
      p fun q => { q with wrDone := true }) :=
  ⟨_, (exec_rtcCommit ..).trans (congrArg Host.Outcome.next
    ((rtcShared_granted h _).trans ((if_neg (by rw [hd]; nofun)).trans (if_pos hok)))), raise_reports ..⟩
theorem rtcCommit_rejects (hd : bit d.toNat 0 = true) (hok : pairOk (s.part p).rtc.setTime (s.part p).rtc.setDate = false) :
    Becomes (.rtcCommit p d) s (s.updRtcPort p fun q => { q with wrRej := true }) :=
  ⟨_, (exec_rtcCommit ..).trans (congrArg Host.Outcome.next
    ((rtcShared_granted h _).trans ((if_neg (by rw [hd]; nofun)).trans (if_neg (by rw [hok]; nofun))))), raise_reports ..⟩
theorem rtcCommit_still (hd : bit d.toNat 0 = false) : rtcCommit s p d.toNat = s :=
  (rtcShared_granted h _).trans (if_pos (by rw [hd]; rfl))
theorem rtcAlarm_sets (alarm2 : Bool) {date : Bool} (hok : alarmOk date d.toNat = true) :
    rtcAlarm s p alarm2 date d.toNat = s.updRtc (setAlarmReg alarm2 date d.toNat) := by
  refine ((rtcShared_granted h _).trans (if_pos hok)).trans ?_
  cases alarm2 <;> cases date <;> rfl
theorem rtcAlarm_rejects (alarm2 : Bool) {date : Bool} (hok : alarmOk date d.toNat = false) :
    rtcAlarm s p alarm2 date d.toNat = s.updRtcPort p fun q => { q with wrRej := true } :=
  (rtcShared_granted h _).trans (if_neg (by rw [hok]; nofun))
theorem rtcTrim_sets (hlo : -3355 ≤ signed 13 (fld d.toNat 0 13)) (hhi : signed 13 (fld d.toNat 0 13) ≤ 3355) :
    rtcTrim s p d.toNat = s.updRtc fun r => { r with trim := fld d.toNat 0 13 } := (rtcShared_granted h _).trans (if_pos ⟨hlo, hhi⟩)
theorem rtcTrim_rejects (hv : signed 13 (fld d.toNat 0 13) < -3355 ∨ 3355 < signed 13 (fld d.toNat 0 13)) :
    rtcTrim s p d.toNat = s.updRtcPort p fun q => { q with trimRej := true } :=
  (rtcShared_granted h _).trans (if_neg (by omega))
end

/-- Settles O56: the second over the two alarms that may fire, each reading as one slow access, each register by its check. -/
theorem rtcRows : Obligations.RtcRows := by
  unfold Obligations.RtcRows
  intro s p d q port reads busy dropped
  simp only [exec_rtcSecond, exec_rtcTimeRead, exec_rtcDateRead, exec_rtcStatusClear, exec_rtcCommit, exec_rtcAlarmWrite, exec_rtcTrimWrite]
  refine ⟨fun hs hup => (rtcSecond_supplied hs).trans (congrArg Host.Outcome.next (if_pos (by rw [hup]; rfl))), rtcSecond_unsupplied,
    nextSecond_plain, fun hs hup hps => rtcSecond_alarms hs hup hps p,
    fun sub cycles phase => ⟨fun h hf => rtcTimeRead_frozen cycles phase h hf, fun h hf => rtcTimeRead_live cycles phase h hf,
      fun hlive hbusy => ?timeDrops, fun hlive hno => ?timeStill⟩,
    rtcDateRead_reads, fun hlive hbusy => ?dateDrops, fun hlive hno => ?dateStill, rfl, ?denied,
    fun h => ⟨rtcCommit_sets h, rtcCommit_rejects h, fun hd => congrArg Host.Outcome.next (rtcCommit_still h hd),
      fun hok => ⟨congrArg Host.Outcome.next (rtcAlarm_sets h false hok), congrArg Host.Outcome.next (rtcAlarm_sets h true hok)⟩,
      fun hok => ⟨congrArg Host.Outcome.next (rtcAlarm_sets h false hok), congrArg Host.Outcome.next (rtcAlarm_sets h true hok)⟩,
      fun alarm2 date hok => congrArg Host.Outcome.next (rtcAlarm_rejects h alarm2 hok),
      fun hlo hhi => congrArg Host.Outcome.next (rtcTrim_sets h hlo hhi), fun hv => congrArg Host.Outcome.next (rtcTrim_rejects h hv)⟩⟩
  case timeDrops =>
    exact congrArg Host.Outcome.next (slowReadWhole_drops _ hlive hbusy)
  case timeStill =>
    exact congrArg Host.Outcome.next (slowReadWhole_still _ hlive hno)
  case dateDrops => exact congrArg Host.Outcome.next (slowReadWhole_drops _ hlive hbusy)
  case dateStill => exact congrArg Host.Outcome.next (slowReadWhole_still _ hlive hno)
  case denied =>
    rintro h i (rfl | rfl | ⟨alarm2, date, rfl⟩)
    · exact (exec_rtcCommit ..).trans (congrArg Host.Outcome.next (rtcShared_denied h _))
    · exact (exec_rtcTrimWrite ..).trans (congrArg Host.Outcome.next (rtcShared_denied h _))
    · exact (exec_rtcAlarmWrite ..).trans (congrArg Host.Outcome.next (rtcShared_denied h _))

end Sys2Proof.Machine
end

section
/-! The panel's registers (21 R509, R512 to R514): lines written, staged and committed by their page's owner. -/

namespace Sys2Proof.Machine

variable {s t : State} {p : Part} {d : Word}

theorem exec_pnlShowWrite (p : Part) (d : Word) (s : State) : exec (.pnlShowWrite p d) s = .next (pnlShow s p d.toNat) := rfl
theorem exec_pnlLineWrite (p : Part) (d : Word) (s : State) : exec (.pnlLineWrite p d) s = .next (pnlLine s p d.toNat) := rfl
theorem exec_pnlDataWrite (p : Part) (d : Word) (s : State) : exec (.pnlDataWrite p d) s = .next (pnlData s p d.toNat) := rfl
theorem exec_pnlCommit (p : Part) (d : Word) (started : Nat) (s : State) :
    exec (.pnlCommit p d started) s = .next (pnlCommitTo s p d.toNat started) := rfl

/-! Lines and their pages -/

theorem pnlReject_reports (s : State) (p : Nat) : Reports (s.updPnlPort p fun q => { q with writeRej := true }) (pnlReject s p) := by
  unfold pnlReject pnlEvent; exact raise_reports ..
/-- A page is the partition's own. -/
def OwnsPage (s : State) (p page : Nat) : Prop := pageOwner s page = some p

theorem pnlShow_selects (hr : 2 ≤ s.roleOf p) (hpage : pageAssigned s (fld d.toNat 0 3) = true) :
    pnlShow s p d.toNat = s.updPnl fun v => { v with sel := fld d.toNat 0 3 } := if_pos ⟨hr, hpage⟩
theorem pnlShow_refused (h : s.roleOf p < 2 ∨ pageAssigned s (fld d.toNat 0 3) = false) : pnlShow s p d.toNat = pnlReject s p :=
  if_neg fun ⟨hr, hpage⟩ => h.elim (Nat.not_lt.mpr hr) fun h => Bool.false_ne_true (h.symm.trans hpage)
theorem pnlLine_starts (ho : OwnsPage s p (fld d.toNat 16 3)) (hline : fld d.toNat 0 8 < 240) : pnlLine s p d.toNat =
    s.updPnlPort p fun q => { q with page := fld d.toNat 16 3, line := fld d.toNat 0 8, index := 0, words := [] } := if_pos ⟨ho, hline⟩
theorem pnlLine_refused (h : ¬OwnsPage s p (fld d.toNat 16 3) ∨ 240 ≤ fld d.toNat 0 8) : pnlLine s p d.toNat = pnlReject s p :=
  if_neg fun ⟨ho, hline⟩ => h.elim (· ho) (Nat.not_le.mpr hline)
section
variable (ho : OwnsPage s p (s.part p).pnl.page) (hline : (s.part p).pnl.line < 240)
include ho hline
theorem pnlData_takes (hi : (s.part p).pnl.index < 24) : pnlData s p d.toNat =
    s.updPnlPort p fun q => { q with words := q.words ++ [d.toNat], index := q.index + 1 } :=
  ((if_pos ⟨ho, hline⟩).trans (if_pos hi)).trans (updPart_congr rfl)
theorem pnlData_stages (hi : 24 ≤ (s.part p).pnl.index) : pnlData s p d.toNat = (s.updPnl fun v =>
    { v with staged := v.staged.set (lineKey (s.part p).pnl.page (s.part p).pnl.line) ((s.part p).pnl.words ++ [d.toNat]) }).updPnlPort p
      fun q => { q with words := [], index := 0, line := q.line + 1 } :=
  ((if_pos ⟨ho, hline⟩).trans (if_neg (Nat.not_lt.mpr hi))).trans (updPart_congr rfl)
end
theorem pnlData_refused (h : ¬OwnsPage s p (s.part p).pnl.page ∨ 240 ≤ (s.part p).pnl.line) : pnlData s p d.toNat = pnlReject s p :=
  if_neg fun ⟨ho, hline⟩ => h.elim (· ho) (Nat.not_le.mpr hline)

/-! The commit of staged lines (R513) -/

theorem Tab.get?_filter {α : Type} (t : Tab α) (b : Nat → Bool) (k : Nat) :
    Tab.get? (t.filter fun e => b e.1) k = if b k then t.get? k else none := by
  induction t with
  | nil => simp [Tab.get?]
  | cons e t ih =>
    obtain ⟨i, v⟩ := e
    cases hb : b i with
    | true =>
      rw [List.filter_cons_of_pos (p := fun (e : Nat × α) => b e.1) hb]
      simp only [Tab.get?, ih]
      by_cases hik : i = k
      · rw [if_pos hik, if_pos hik, ← hik, hb, if_pos rfl]
      · rw [if_neg hik, if_neg hik]
    | false =>
      rw [List.filter_cons_of_neg (p := fun (e : Nat × α) => b e.1) (by rw [hb]; nofun), ih]
      by_cases hik : i = k
      · rw [← hik, hb, if_neg nofun, if_neg nofun]
      · simp only [Tab.get?, if_neg hik]
theorem Tab.get?_foldl_set_ne {α : Type} (xs : List (Nat × α)) (t : Tab α) {k : Nat} (h : ∀ e ∈ xs, e.1 ≠ k) :
    (xs.foldl (fun (t : Tab α) (e : Nat × α) => t.set e.1 e.2) t).get? k = t.get? k := by
  induction xs generalizing t with
  | nil => rfl
  | cons e xs ih =>
    rw [List.foldl_cons, ih _ fun x hx => h x (List.mem_cons_of_mem _ hx)]
    exact Tab.get?_set_ne _ _ _ _ (h e List.mem_cons_self).symm

/-- A line is within the range of a commit. -/
def inCommit (page first last k : Nat) : Bool := decide (lineKey page first ≤ k ∧ k ≤ lineKey page last)
/-- The panel once the staged lines of a range have become current. -/
def Panel.commits (v : Panel) (page first last started : Nat) : Panel :=
  let w := { v with current := (v.staged.filter fun (e : Nat × List Nat) => inCommit page first last e.1).foldl
                      (fun (t : Tab (List Nat)) (e : Nat × List Nat) => t.set e.1 e.2) v.current,
                    staged := v.staged.filter fun (e : Nat × List Nat) => !inCommit page first last e.1 }
  { w with pass := w.pass.map fun x => refreshPass w page first last started x }
/-- A commit is accepted. -/
def CommitGoes (s : State) (p page first last : Nat) : Prop :=
  OwnsPage s p page ∧ first ≤ last ∧ last < 240 ∧ s.svc.pnl.cleared = false
theorem pnlCommit_commits (started : Nat) (h : CommitGoes s p (fld d.toNat 16 3) (fld d.toNat 0 8) (fld d.toNat 8 8)) :
    ∃ idle at_, pnlCommitTo s p d.toNat started = s.updPnl fun v =>
      { v.commits (fld d.toNat 16 3) (fld d.toNat 0 8) (fld d.toNat 8 8) started with idle := idle, lastDiff := at_ } := by
  let u := s.updPnl (·.commits (fld d.toNat 16 3) (fld d.toNat 0 8) (fld d.toNat 8 8) started)
  have he : pnlCommitTo s p d.toNat started =
      if u.svc.pnl.shown = fld d.toNat 16 3 ∧ (differing u.svc.pnl (fld d.toNat 16 3)).isEmpty = false then
        u.updPnl fun v => { v with idle := false, lastDiff := s.svc.rcd.optime } else u := if_pos h
  rw [he]
  split
  · exact ⟨false, s.svc.rcd.optime, rfl⟩
  · exact ⟨s.svc.pnl.idle, s.svc.pnl.lastDiff, rfl⟩
theorem pnlCommit_refused (started : Nat) (h : ¬OwnsPage s p (fld d.toNat 16 3) ∨ fld d.toNat 8 8 < fld d.toNat 0 8 ∨
    240 ≤ fld d.toNat 8 8 ∨ s.svc.pnl.cleared = true) : pnlCommitTo s p d.toNat started = pnlReject s p := by
  refine if_neg fun ⟨ho, hle, hlast, hc⟩ => ?_
  obtain h | h | h | h := h
  · exact h ho
  · exact Nat.not_lt.mpr hle h
  · exact Nat.not_lt.mpr h hlast
  · exact Bool.false_ne_true (hc.symm.trans h)

section
variable {v : Panel} {page first last started k : Nat}
theorem commits_staged_in (h : inCommit page first last k = true) : (v.commits page first last started).staged.get? k = none := by
  refine (Tab.get?_filter v.staged (fun k => !inCommit page first last k) k).trans (if_neg ?_)
  rw [h]; nofun
theorem commits_staged_out (h : inCommit page first last k = false) :
    (v.commits page first last started).staged.get? k = v.staged.get? k := by
  refine (Tab.get?_filter v.staged (fun k => !inCommit page first last k) k).trans (if_pos ?_)
  rw [h]; rfl
theorem commits_current_out (h : inCommit page first last k = false) :
    (v.commits page first last started).current.get? k = v.current.get? k := by
  refine Tab.get?_foldl_set_ne _ _ fun e he hk => ?_
  rw [List.mem_filter, hk, h] at he
  nomatch he.2
theorem commits_current_in {ws : List Nat} (hs : v.staged = [(k, ws)]) (h : inCommit page first last k = true) :
    (v.commits page first last started).current.get? k = some ws := by
  unfold Panel.commits
  rw [hs]
  simp only [List.filter_cons, h, if_pos, List.filter_nil, List.foldl_cons, List.foldl_nil]
  exact Tab.get?_set ..
end

end Sys2Proof.Machine
end

section
/-! The panel's passes, frames and key (21 R504 to R511). -/

namespace Sys2Proof.Machine

variable {s t : State}

theorem exec_panelPassDone (s : State) : exec .panelPassDone s = .next (endPass s) := rfl
theorem exec_panelFrame (temp : Int) (st : List (Fin 240 × List Word)) (s : State) : exec (.panelFrame temp st) s = execPanelFrame temp st s := rfl
theorem exec_panelIdle (s : State) : exec .panelIdle s = execPanelIdle s := rfl
theorem exec_panelKey (s : State) : exec .panelKey s = execPanelKey s := rfl

/-! The end of a pass (R504, R513) -/

theorem endPass_idle (h : s.svc.pnl.pass = none) : endPass s = s := by unfold endPass; rw [h]
/-- The panel holds the lines of a pass. -/
def passHeld (s : State) (x : PanelPass) : State := s.updPnl fun v =>
  { v with held := x.lines.foldl (fun (t : Tab (List Nat)) (e : Nat × List Nat) => t.set e.1 e.2) v.held, pass := none }
theorem endPass_some {x : PanelPass} (h : s.svc.pnl.pass = some x) : endPass s = (pageOwner s x.page).elim (passHeld s x) fun p =>
    if x.lines.isEmpty then passHeld s x else (passHeld s x).updPnlPort p fun q => { q with passDone := true } := by
  have ho : pageOwner (passHeld s x) x.page = pageOwner s x.page := rfl
  unfold endPass
  rw [h, ← ho]
  show (match pageOwner (passHeld s x) x.page with
    | some p => if x.lines.isEmpty then passHeld s x else (passHeld s x).updPnlPort p fun q => { q with passDone := true }
    | none => passHeld s x) = _
  cases pageOwner (passHeld s x) x.page <;> rfl
/-- The end of a pass leaves of the service domain and the station what is not its own. -/
structure PassEnded (s t : State) : Prop where
  pass : t.svc.pnl.pass = none
  svc : { t.svc with pnl := {} } = { s.svc with pnl := {} }
  pnl : { t.svc.pnl with pass := none, held := [] } = { s.svc.pnl with pass := none, held := [] }
  st : t.st = s.st
theorem endPass_ended (s : State) : PassEnded s (endPass s) := by
  cases hp : s.svc.pnl.pass with
  | none =>
    rw [endPass_idle hp]
    exact ⟨hp, rfl, rfl, rfl⟩
  | some x =>
    rw [endPass_some hp]
    cases pageOwner s x.page with
    | none => exact ⟨rfl, rfl, rfl, rfl⟩
    | some p =>
      dsimp only [Option.elim]
      split <;> exact ⟨rfl, rfl, rfl, rfl⟩
theorem endPass_endPass (s : State) : endPass (endPass s) = endPass s := endPass_idle (endPass_ended s).pass
section
variable {x : PanelPass} (h : s.svc.pnl.pass = some x)
include h
theorem endPass_held : (endPass s).svc.pnl.held = x.lines.foldl (fun (t : Tab (List Nat)) e => t.set e.1 e.2) s.svc.pnl.held := by
  rw [endPass_some h]
  cases pageOwner s x.page with
  | none => rfl
  | some p =>
    dsimp only [Option.elim]
    split <;> rfl
theorem endPass_told {p : Nat} (hl : x.lines ≠ []) (ho : pageOwner s x.page = some p) : ((endPass s).part p).pnl.passDone = true := by
  rw [endPass_some h, ho]
  dsimp only [Option.elim]
  rw [if_neg (by rwa [List.isEmpty_iff])]
  exact congrArg (·.pnl.passDone) (part_updPart (passHeld s x) p _)
theorem endPass_untold {p : Nat} (ho : pageOwner s x.page ≠ some p) : ((endPass s).part p).pnl.passDone = (s.part p).pnl.passDone := by
  rw [endPass_some h]
  cases hq : pageOwner s x.page with
  | none => rfl
  | some q =>
    dsimp only [Option.elim]
    split
    · rfl
    · have hpq : p ≠ q := fun hpq => ho (by rw [hq, hpq])
      exact congrArg (·.pnl.passDone) (part_updPart_ne (passHeld s x) q p _ hpq)
end

/-! A frame (R504 to R508) -/

/-- The band that a frame applies. -/
def frameBand (u : State) : State :=
  if u.svc.pnl.nextBand = u.svc.pnl.band then u
  else pnlEvent (u.updPnl fun v => { v with band := u.svc.pnl.nextBand }) 1 u.svc.pnl.nextBand
/-- Station lines are taken again: a second of operating time has passed since the last ones. -/
def stationDue (u : State) : Bool := u.svc.pnl.stationAt.all fun t => opSince u t 1
/-- The page that a frame shows. -/
def framePage (u : State) : Nat := if panelForced u then 0 else u.svc.pnl.sel
/-- A frame's readings, and the station lines that it takes. -/
def frameTakes (u : State) (temp : Int) (station : List (Fin 240 × List Word)) : State := u.updPnl fun v =>
  { v with nextBand := selectBand v.band temp, temp := temp, common := !v.common, shown := framePage u,
           stationAt := if station.isEmpty then v.stationAt else some u.svc.rcd.optime,
           current := station.foldl (fun (t : Tab (List Nat)) e =>
             t.set (lineKey 0 e.1.val) ((e.2.map fun w => w.toNat) ++ whiteLine |>.take 25)) v.current }
/-- A pass starts over the lines that differ. -/
def startPass (u : State) (page : Nat) : State :=
  if (differing u.svc.pnl page).isEmpty then u
  else u.updPnl fun v => { v with pass := some ⟨page, differing u.svc.pnl page⟩, idle := false, lastDiff := u.svc.rcd.optime }
/-- A frame from the state in which no pass is left. -/
def framed (u : State) (temp : Int) (station : List (Fin 240 × List Word)) : State :=
  startPass (frameTakes (frameBand u) temp (if stationDue (frameBand u) then station else [])) (framePage (frameBand u))
theorem panelFrame_eq (temp : Int) (st : List (Fin 240 × List Word)) (s : State) :
    execPanelFrame temp st s = .next (if !s.svc.up || s.svc.pnl.cleared then s else framed (endPass s) temp st) := rfl
section
variable (hup : s.svc.up = true) (hc : s.svc.pnl.cleared = false)
include hup hc
theorem panelFrame_frames (temp : Int) (st : List (Fin 240 × List Word)) : execPanelFrame temp st s = .next (framed (endPass s) temp st) :=
  (panelFrame_eq temp st s).trans (congrArg Host.Outcome.next (if_neg (by rw [hup, hc]; nofun)))
theorem panelFrame_afterPass (temp : Int) (st : List (Fin 240 × List Word)) : execPanelFrame temp st s = execPanelFrame temp st (endPass s) := by
  have he := endPass_ended s
  have hup' : (endPass s).svc.up = true := (congrArg Svc.up he.svc :).trans hup
  have hc' : (endPass s).svc.pnl.cleared = false := (congrArg Panel.cleared he.pnl :).trans hc
  rw [panelFrame_frames hup hc, panelFrame_frames hup' hc', endPass_endPass]
end
theorem panelFrame_still (h : s.svc.up = false ∨ s.svc.pnl.cleared = true) (temp : Int) (st : List (Fin 240 × List Word)) :
    execPanelFrame temp st s = .next s := by
  refine (panelFrame_eq temp st s).trans (congrArg Host.Outcome.next (if_pos ?_))
  obtain h | h := h <;> simp [h]

theorem frameBand_same (h : s.svc.pnl.nextBand = s.svc.pnl.band) : frameBand s = s := if_pos h
/-- What a frame's band leaves of the panel. -/
structure BandApplied (s t : State) : Prop where
  pnl : t.svc.pnl = { s.svc.pnl with band := s.svc.pnl.nextBand }
  optime : t.svc.rcd.optime = s.svc.rcd.optime
theorem frameBand_applied (s : State) : BandApplied s (frameBand s) := by
  unfold frameBand
  split
  next h => exact ⟨(congrArg (fun b => { s.svc.pnl with band := b }) h.symm :), rfl⟩
  · have hr : Reports (s.updPnl fun v => { v with band := s.svc.pnl.nextBand })
        (pnlEvent (s.updPnl fun v => { v with band := s.svc.pnl.nextBand }) 1 s.svc.pnl.nextBand) := by
      unfold pnlEvent; exact raise_reports ..
    exact ⟨(congrArg (·.svc.pnl) hr.rest :), (congrArg Recorder.optime hr.rcd :)⟩
theorem startPass_keeps {α : Type} (g : Panel → α) (hg : ∀ v p i n, g { v with pass := p, idle := i, lastDiff := n } = g v) (u : State)
    (page : Nat) : g (startPass u page).svc.pnl = g u.svc.pnl := by
  unfold startPass
  split
  · rfl
  · exact hg ..
theorem framed_band (u : State) (temp : Int) (st : List (Fin 240 × List Word)) : (framed u temp st).svc.pnl.band = u.svc.pnl.nextBand := by
  unfold framed
  rw [startPass_keeps Panel.band fun _ _ _ _ => rfl]
  exact (congrArg Panel.band (frameBand_applied u).pnl :)

/-- Station lines are due at a frame by what the panel has noted. -/
theorem stationDue_framed (s : State) : stationDue (frameBand (endPass s)) =
    s.svc.pnl.stationAt.all fun t => decide (t + 16 ≤ s.svc.rcd.optime) := by
  have he := endPass_ended s
  have hb := frameBand_applied (endPass s)
  have hat : (frameBand (endPass s)).svc.pnl.stationAt = s.svc.pnl.stationAt :=
    (congrArg Panel.stationAt hb.pnl :).trans (congrArg Panel.stationAt he.pnl :)
  have hop : (frameBand (endPass s)).svc.rcd.optime = s.svc.rcd.optime := hb.optime.trans (congrArg (·.rcd.optime) he.svc :)
  unfold stationDue opSince
  rw [hat, hop]
theorem framed_early (h : stationDue (frameBand t) = false) (temp : Int) (st : List (Fin 240 × List Word)) : framed t temp st = framed t temp [] := by
  unfold framed
  rw [h, if_neg nofun, if_neg nofun]
theorem framed_station (h : stationDue (frameBand t) = true) (temp : Int) (n : Fin 240) (ws : List Word) :
    (framed t temp [(n, ws)]).svc.pnl.stationAt = some t.svc.rcd.optime ∧
    (framed t temp [(n, ws)]).svc.pnl.current.get? n.val = some ((ws.map fun w => w.toNat) ++ whiteLine |>.take 25) := by
  have hop := (frameBand_applied t).optime
  unfold framed
  rw [h, if_pos rfl, startPass_keeps Panel.stationAt fun _ _ _ _ => rfl, startPass_keeps Panel.current fun _ _ _ _ => rfl, ← hop]
  refine ⟨rfl, ?_⟩
  have hk : lineKey 0 n.val = n.val := by simp [lineKey]
  show Tab.get? (Tab.set _ (lineKey 0 n.val) _) n.val = _
  rw [hk]
  exact Tab.get?_set ..

/-- The panel with a frame's readings and no station line. -/
def frameRead (s : State) (temp : Int) : State := s.updPnl fun v =>
  { v with nextBand := selectBand v.band temp, temp := temp, common := !v.common, shown := framePage s }
theorem framed_quiet (hb : s.svc.pnl.nextBand = s.svc.pnl.band) (temp : Int) : framed s temp [] = startPass (frameRead s temp) (framePage s) := by
  unfold framed
  rw [frameBand_same hb, ite_self]
  rfl

/-! Idle (R505) -/

theorem panelIdle_idles (hup : s.svc.up = true) (hp : s.svc.pnl.pass = none) (hd : s.svc.pnl.lastDiff + 32 ≤ s.svc.rcd.optime) :
    execPanelIdle s = .next (s.updPnl fun v => { v with idle := true }) :=
  congrArg Host.Outcome.next (if_pos (by simpa [hup, hp, opSince] using hd))
theorem panelIdle_still (h : s.svc.up = false ∨ s.svc.pnl.pass ≠ none ∨ s.svc.rcd.optime < s.svc.pnl.lastDiff + 32) :
    execPanelIdle s = .next s := by
  refine congrArg Host.Outcome.next (if_neg ?_)
  simp only [opSince, Bool.and_eq_true, decide_eq_true_eq, Option.isNone_iff_eq_none]
  rintro ⟨⟨hup, hp⟩, hd⟩
  obtain h | h | h := h
  · exact Bool.false_ne_true (h.symm.trans hup)
  · exact h hp
  · omega

/-! The key (R452, R510) -/

theorem wakes_key_iff (s : State) : wakes s .key ↔ wakeEnabled s .key = true := ⟨fun h => h.1, fun h => ⟨h, nofun⟩⟩
theorem panelKey_wakes (h : s.st.power.ps = .dark ∨ s.st.power.entering = some .dark) : execPanelKey s = .next (darkWake s .key) :=
  congrArg Host.Outcome.next (if_pos (by simpa using h))
/-- The selection that the key advances. -/
def keySelects (s : State) : State :=
  if (s.cfgRec 0x0C01 0).elim false fun r => bit (r.u 9 1) 0 then s.updPnl fun v => { v with sel := nextPage s v.sel } else s
section
variable (hps : s.st.power.ps ≠ .dark) (hent : s.st.power.entering ≠ some .dark)
include hps hent
theorem panelKey_lit : execPanelKey s = .next (if !s.svc.up then s else
    pnlOpen (allParts.foldl (fun s p => s.updPnlPort p fun q => { q with key := true }) (keySelects s)) 4) :=
  congrArg Host.Outcome.next (if_neg (by simpa using ⟨hps, hent⟩))
end
theorem keyFlags_set {p : Nat} (ps : List Nat) (hp : p ∈ ps ∨ (s.part p).pnl.key = true) :
    ((ps.foldl (fun s p => s.updPnlPort p fun q => { q with key := true }) s).part p).pnl.key = true := by
  induction ps generalizing s with
  | nil => exact hp.resolve_left List.not_mem_nil
  | cons q ps ih =>
    refine ih ?_
    by_cases hpq : p = q
    · subst hpq
      exact .inr (congrArg (·.pnl.key) (part_updPart s p _))
    · rw [show (s.updPnlPort q fun q => { q with key := true }).part p = s.part p from part_updPart_ne _ _ _ _ hpq]
      exact hp.imp_left fun h => (List.mem_cons.mp h).resolve_left hpq
theorem panelKey_selects (hps : s.st.power.ps ≠ .dark) (hent : s.st.power.entering ≠ some .dark) (hup : s.svc.up = true) (p : Part) :
    Gives .panelKey s fun t => (t.part p).pnl.key = true ∧
      t.svc.pnl.sel = if ((s.cfgRec 0x0C01 0).elim false fun r => bit (r.u 9 1) 0) = true then nextPage s s.svc.pnl.sel else s.svc.pnl.sel := by
  refine ⟨_, (exec_panelKey s).trans ((panelKey_lit hps hent).trans (congrArg Host.Outcome.next (if_neg (by rw [hup]; nofun)))), ?_⟩
  have hkey := keyFlags_set (s := keySelects s) allParts (.inl (by revert p; decide : p.val ∈ allParts))
  have hsvc : (allParts.foldl (fun s p => s.updPnlPort p fun q => { q with key := true }) (keySelects s)).svc = (keySelects s).svc :=
    foldl_svc (f := fun s p => s.updPnlPort p fun q => { q with key := true }) (fun _ _ => rfl) _ _
  generalize allParts.foldl (fun s p => s.updPnlPort p fun q => { q with key := true }) (keySelects s) = u at hkey hsvc ⊢
  have hr : Reports u (pnlOpen u 4) := by unfold pnlOpen pnlEvent; exact raise_reports ..
  refine ⟨(congrArg (·.pnl.key) (hr.parts p) :).trans hkey, ?_⟩
  have hpnl : (pnlOpen u 4).svc.pnl = u.svc.pnl := congrArg (·.svc.pnl) hr.rest
  rw [hpnl, hsvc]
  unfold keySelects
  split <;> rfl

theorem wakePowers_key_phase (s : State) (l : LaneId) : ((wakePowers s .key).lane l).phase =
    if (s.lane l).phase = .dark then .starting else (s.lane l).phase := by
  have hst := powerIslands_stand ((s.emit (.wake .a)).emit (.wake .b))
  have hemit (l : LaneId) : (((s.emit (.wake .a)).emit (.wake .b)).lane l).phase = (s.lane l).phase := by cases l <;> rfl
  have hl := (hst.phases l).trans (hemit l)
  show ((bothLanes (fun s l => s.updLane l fun v => if v.phase == .dark then { v with phase := .starting } else v)
    (powerIslands ((s.emit (.wake .a)).emit (.wake .b)))).lane l).phase = _
  generalize powerIslands ((s.emit (.wake .a)).emit (.wake .b)) = u at hl ⊢
  rw [← hl]
  cases l
  · show (if u.a.phase == .dark then { u.a with phase := .starting } else u.a).phase = if u.a.phase = .dark then _ else _
    by_cases h : u.a.phase = .dark <;> simp [h, State.lane]
  · show (if u.b.phase == .dark then { u.b with phase := .starting } else u.b).phase = if u.b.phase = .dark then _ else _
    by_cases h : u.b.phase = .dark <;> simp [h, State.lane]

/-- Settles O57: a frame from the state in which no pass is left, and the registers by their page's owner. -/
theorem panelRows : Obligations.PanelRows := by
  unfold Obligations.PanelRows
  intro s p d v q page refused
  simp only [exec_panelPassDone, exec_panelFrame, exec_panelIdle, exec_panelKey, exec_pnlShowWrite, exec_pnlLineWrite, exec_pnlDataWrite]
  refine ⟨fun h => congrArg Host.Outcome.next (endPass_idle h),
    fun x hx => ⟨_, exec_panelPassDone s, (endPass_ended s).pass, endPass_held hx, fun hl ho => endPass_told hx hl ho,
      fun ho => endPass_untold hx ho⟩,
    fun hup hc => ⟨fun _ temp st => ⟨_, rfl, panelFrame_afterPass hup hc temp st⟩, fun temp hp hb => ⟨fun hd => ?same, fun hd => ?differs⟩,
      fun temp st => ⟨_, (exec_panelFrame ..).trans (panelFrame_frames hup hc temp st), ?band⟩, fun temp st n hn hlt => ?early,
      fun temp n ws hn => ⟨_, (exec_panelFrame ..).trans (panelFrame_frames hup hc temp [(n, ws)]), ?station⟩⟩,
    fun h temp st => panelFrame_still h temp st, panelIdle_idles, panelIdle_still, fun hent hw => ?entering, fun hps hent hw => ?dark,
    fun h hw => ?noWake, fun hps hent => ⟨fun hup => panelKey_selects hps hent hup p, fun hup => ?keyOff⟩,
    fun hr hpage => congrArg Host.Outcome.next (pnlShow_selects hr hpage),
    fun h => ⟨_, (exec_pnlShowWrite ..).trans (congrArg Host.Outcome.next (pnlShow_refused h)), pnlReject_reports ..⟩,
    fun ho hl => congrArg Host.Outcome.next (pnlLine_starts ho hl),
    fun h => ⟨_, (exec_pnlLineWrite ..).trans (congrArg Host.Outcome.next (pnlLine_refused h)), pnlReject_reports ..⟩,
    fun ho hl => ⟨fun hi => congrArg Host.Outcome.next (pnlData_takes ho hl hi), fun hi => congrArg Host.Outcome.next (pnlData_stages ho hl hi)⟩,
    fun h => ⟨_, (exec_pnlDataWrite ..).trans (congrArg Host.Outcome.next (pnlData_refused h)), pnlReject_reports ..⟩,
    ⟨fun ho hle hlast hc started => ?commits, fun h started =>
      ⟨_, (exec_pnlCommit ..).trans (congrArg Host.Outcome.next (pnlCommit_refused started h)), pnlReject_reports ..⟩⟩, rfl⟩
  case same =>
    rw [panelFrame_frames hup hc, endPass_idle hp, framed_quiet hb]
    exact congrArg Host.Outcome.next (if_pos (List.isEmpty_iff.mpr hd))
  case differs =>
    rw [panelFrame_frames hup hc, endPass_idle hp, framed_quiet hb]
    exact congrArg Host.Outcome.next (if_neg (mt List.isEmpty_iff.mp hd))
  case band => exact (framed_band ..).trans (congrArg Panel.nextBand (endPass_ended s).pnl :)
  case early =>
    rw [panelFrame_frames hup hc, panelFrame_frames hup hc, framed_early]
    rw [stationDue_framed, hn]
    exact decide_eq_false (Nat.not_le.mpr hlt)
  case station =>
    have hop : (endPass s).svc.rcd.optime = s.svc.rcd.optime := (congrArg (·.rcd.optime) (endPass_ended s).svc :)
    rw [← hop]
    refine framed_station ?_ temp n ws
    rw [stationDue_framed]
    exact Option.all_eq_true _ _ |>.mpr fun t0 ht => decide_eq_true (hn t0 ht)
  case entering =>
    rw [panelKey_wakes (.inr hent), darkWake_wakes ((wakes_key_iff s).mpr hw), hent]
    rfl
  case dark =>
    refine ⟨_, (exec_panelKey s).trans ((panelKey_wakes (.inl hps)).trans
      (congrArg Host.Outcome.next (darkWake_lit ((wakes_key_iff s).mpr hw) hent hps))), rfl, rfl, fun l => ?_⟩
    exact (congrArg Lane.phase (lane_updSt ..)).trans (wakePowers_key_phase s l)
  case noWake =>
    have hno : ¬wakes s .key := mt (wakes_key_iff s).mp (by rw [hw]; nofun)
    rw [panelKey_wakes h, darkWake_not hno]
  case keyOff => exact (panelKey_lit hps hent).trans (congrArg Host.Outcome.next (if_pos (by rw [hup]; rfl)))
  case commits =>
    obtain ⟨idle, at_, he⟩ := pnlCommit_commits started ⟨ho, hle, hlast, hc⟩
    refine ⟨_, (exec_pnlCommit ..).trans (congrArg Host.Outcome.next he), fun k hlo hhi => ?_, fun k hk => ?_, fun k ws hs hlo hhi => ?_⟩
    · exact commits_staged_in (started := started) (decide_eq_true ⟨hlo, hhi⟩)
    · have hout : inCommit page (fld d.toNat 0 8) (fld d.toNat 8 8) k = false := decide_eq_false (by omega)
      exact ⟨commits_staged_out (started := started) hout, commits_current_out (started := started) hout⟩
    · exact commits_current_in (started := started) hs (decide_eq_true ⟨hlo, hhi⟩)

end Sys2Proof.Machine
end

section
/-! Canonical memories (05, 06, 07): what `MemoriesGood` says of each part of the state, and the primitive updates that leave it alone. -/

namespace Sys2Proof.Machine

/-- The memories of a lane: its images, and the island frames that have reached it. -/
def Lane.mems (v : Lane) : (Mem × Mem × Mem) × Tab IslArrived := (v.imgs, v.arrived)
/-- The memories of an island: the output bytes that it applies and that it has latched, and the frame that it sends. -/
def Island.mems (x : Island) : Mem × Option Latch × Option IslFrame := (x.applied, x.latched, x.frame)
/-- The memories of SK-1: the values it has published. -/
def Sk.mems (k : Sk) : Mem × Mem := (k.pub, k.pubOld)

/-- The memories of a lane are canonical. -/
structure Lane.Canon (v : Lane) : Prop where
  img : v.img.wf
  frozen : v.frozen.wf
  tmpl : v.tmpl.wf
  arrived : ∀ e ∈ v.arrived, e.2.frame.data.wf
/-- The memories of an island are canonical. -/
structure Island.Canon (x : Island) : Prop where
  applied : x.applied.wf
  latched : ∀ k, x.latched = some k → k.m.wf
  frame : ∀ f, x.frame = some f → f.data.wf
/-- The memories of SK-1 are canonical. -/
def Sk.Canon (k : Sk) : Prop := k.pub.wf ∧ k.pubOld.wf
/-- The staging areas are canonical. -/
def Station.Canon (t : Station) : Prop := ∀ e ∈ t.stage, e.2.bytes.wf

theorem Lane.canon_congr {v w : Lane} (h : v.mems = w.mems) : v.Canon ↔ w.Canon := by
  simp only [Lane.mems, Lane.imgs, Prod.mk.injEq] at h
  obtain ⟨⟨hi, hf, ht⟩, ha⟩ := h
  constructor
  · exact fun g => ⟨hi ▸ g.img, hf ▸ g.frozen, ht ▸ g.tmpl, ha ▸ g.arrived⟩
  · exact fun g => ⟨hi ▸ g.img, hf ▸ g.frozen, ht ▸ g.tmpl, ha ▸ g.arrived⟩
theorem Island.canon_congr {x y : Island} (h : x.mems = y.mems) : x.Canon ↔ y.Canon := by
  simp only [Island.mems, Prod.mk.injEq] at h
  obtain ⟨ha, hl, hf⟩ := h
  constructor
  · exact fun g => ⟨ha ▸ g.applied, hl ▸ g.latched, hf ▸ g.frame⟩
  · exact fun g => ⟨ha ▸ g.applied, hl ▸ g.latched, hf ▸ g.frame⟩
theorem Sk.canon_congr {k m : Sk} (h : k.mems = m.mems) : k.Canon ↔ m.Canon := by
  simp only [Sk.mems, Prod.mk.injEq] at h
  simp only [Sk.Canon, h]
theorem Station.canon_congr {t u : Station} (h : t.stage = u.stage) : t.Canon ↔ u.Canon := by
  simp only [Station.Canon, h]

theorem Island.canon_default : Island.Canon {} := ⟨Mem.wf_empty, nofun, nofun⟩

theorem Lane.canon_of_mems {v : Lane} {i f t : Mem} {a : Tab IslArrived} (h : v.mems = ((i, f, t), a)) (hi : i.wf) (hf : f.wf) (ht : t.wf)
    (ha : ∀ e ∈ a, e.2.frame.data.wf) : v.Canon :=
  (Lane.canon_congr (w := { img := i, frozen := f, tmpl := t, arrived := a }) h).mpr ⟨hi, hf, ht, ha⟩
theorem Lane.canon_of_empty {v : Lane} (h : v.mems = (([], [], []), [])) : v.Canon :=
  Lane.canon_of_mems h Mem.wf_empty Mem.wf_empty Mem.wf_empty nofun
theorem Sk.canon_of_empty {k : Sk} (h : k.mems = ([], [])) : k.Canon := (Sk.canon_congr (m := {}) h).mpr ⟨Mem.wf_empty, Mem.wf_empty⟩
theorem Station.canon_of_empty {t : Station} (h : t.stage = []) : t.Canon := (Station.canon_congr (u := {}) h).mpr nofun

/-- `MemoriesGood`, part by part. -/
theorem memoriesGood_iff (s : State) : MemoriesGood s ↔ s.a.Canon ∧ s.b.Canon ∧ (∀ e ∈ s.isl, e.2.Canon) ∧ s.sk.Canon ∧ s.st.Canon := by
  constructor
  · intro h
    have lane (l) : (s.lane l).Canon := ⟨(h.lane l).1, (h.lane l).2.1, (h.lane l).2.2, h.arrived l⟩
    exact ⟨lane .a, lane .b, fun e he => ⟨(h.isl e he).1, (h.isl e he).2.1, (h.isl e he).2.2⟩, h.pub, h.stage⟩
  · rintro ⟨ha, hb, hi, hk, ht⟩
    have lane (l) : (s.lane l).Canon := by cases l; exacts [ha, hb]
    exact ⟨fun l => ⟨(lane l).img, (lane l).frozen, (lane l).tmpl⟩, fun l => (lane l).arrived,
      fun e he => ⟨(hi e he).applied, (hi e he).latched, (hi e he).frame⟩, hk, ht⟩

theorem memoriesGood_mk {p f o g st a b pa isl sk sv} (ha : a.Canon) (hb : b.Canon) (hi : ∀ e ∈ isl, e.2.Canon) (hk : sk.Canon) (ht : st.Canon) :
    MemoriesGood (State.mk p f o g st a b pa isl sk sv) := (memoriesGood_iff _).mpr ⟨ha, hb, hi, hk, ht⟩

section
variable {s : State} (h : MemoriesGood s)
include h
theorem MemoriesGood.laneCanon (l : LaneId) : (s.lane l).Canon := by
  obtain ⟨ha, hb, -⟩ := (memoriesGood_iff s).mp h
  cases l; exacts [ha, hb]
theorem MemoriesGood.islandsCanon : ∀ e ∈ s.isl, e.2.Canon := ((memoriesGood_iff s).mp h).2.2.1
theorem MemoriesGood.skCanon : s.sk.Canon := h.pub
theorem MemoriesGood.stCanon : s.st.Canon := h.stage
end

/-- States that agree on the lanes, the islands, SK-1 and the station have the same memories. -/
theorem memoriesGood_congr {s t : State} (ha : t.a.mems = s.a.mems) (hb : t.b.mems = s.b.mems) (hi : t.isl = s.isl)
    (hk : t.sk.mems = s.sk.mems) (ht : t.st.stage = s.st.stage) : MemoriesGood t ↔ MemoriesGood s := by
  rw [memoriesGood_iff, memoriesGood_iff, Lane.canon_congr ha, Lane.canon_congr hb, hi, Sk.canon_congr hk, Station.canon_congr ht]

/-! Tables -/

theorem Tab.mem_set {α : Type} {t : Tab α} {i : Nat} {v : α} {e : Nat × α} (h : e ∈ t.set i v) : e ∈ t ∨ e = (i, v) := by
  induction t with
  | nil => exact .inr (List.mem_singleton.mp h)
  | cons x r ih =>
    simp only [Tab.set] at h
    split at h
    · rcases List.mem_cons.mp h with h | h
      · exact .inr h
      · exact .inl (List.mem_cons_of_mem _ h)
    · split at h
      · rcases List.mem_cons.mp h with h | h
        · exact .inr h
        · exact .inl h
      · rcases List.mem_cons.mp h with h | h
        · exact .inl (h ▸ List.mem_cons_self)
        · exact (ih h).imp_left (List.mem_cons_of_mem _)

theorem Tab.set_self_mem {α : Type} (t : Tab α) (i : Nat) (v : α) : (i, v) ∈ t.set i v := by
  induction t with
  | nil => exact List.mem_singleton.mpr rfl
  | cons x r ih =>
    simp only [Tab.set]
    split
    · exact List.mem_cons_self
    · split
      · exact List.mem_cons_self
      · exact List.mem_cons_of_mem _ ih

/-- A member of a table stays when `i` is set, or it is the one that `i` read as. -/
theorem Tab.mem_set_of_mem {α : Type} {t : Tab α} {i : Nat} {v d : α} {e : Nat × α} (h : e ∈ t) : e ∈ t.set i v ∨ e.2 = t.get i d := by
  induction t with
  | nil => cases h
  | cons x r ih =>
    simp only [Tab.set, Tab.get]
    split
    · rcases List.mem_cons.mp h with h | h
      · exact .inr (h ▸ rfl)
      · exact .inl (List.mem_cons_of_mem _ h)
    · split
      · exact .inl (List.mem_cons_of_mem _ h)
      · rcases List.mem_cons.mp h with h | h
        · exact .inl (h ▸ List.mem_cons_self)
        · exact (ih h).imp_left (List.mem_cons_of_mem _)

theorem Tab.get_cases {α : Type} (t : Tab α) (i : Nat) (d : α) : t.get i d = d ∨ ∃ e ∈ t, e.2 = t.get i d := by
  induction t with
  | nil => exact .inl rfl
  | cons x r ih =>
    simp only [Tab.get]
    split
    · exact .inr ⟨x, List.mem_cons_self, rfl⟩
    · exact ih.imp_right fun ⟨e, he, h⟩ => ⟨e, List.mem_cons_of_mem _ he, h⟩

/-- What holds of the default and of every entry, holds of what is read. -/
theorem Tab.forall_get {α : Type} {P : α → Prop} {t : Tab α} (i : Nat) {d : α} (h : ∀ e ∈ t, P e.2) (hd : P d) : P (t.get i d) := by
  rcases t.get_cases i d with e | ⟨e, he, h'⟩
  · exact e.symm ▸ hd
  · exact h' ▸ h e he
theorem Tab.forall_set {α : Type} {P : α → Prop} {t : Tab α} (i : Nat) {v : α} (h : ∀ e ∈ t, P e.2) (hv : P v) : ∀ e ∈ t.set i v, P e.2 := by
  intro e he
  rcases Tab.mem_set he with he | rfl
  · exact h e he
  · exact hv
theorem Tab.forall_erase {α : Type} {P : α → Prop} {t : Tab α} (i : Nat) (h : ∀ e ∈ t, P e.2) : ∀ e ∈ t.erase i, P e.2 :=
  fun e he => h e (List.mem_of_mem_filter he)
theorem Tab.forall_get? {α : Type} {P : α → Prop} {t : Tab α} {i : Nat} {v : α} (h : ∀ e ∈ t, P e.2) (hv : t.get? i = some v) : P v := by
  induction t with
  | nil => cases hv
  | cons x r ih =>
    simp only [Tab.get?] at hv
    split at hv
    · exact Option.some.inj hv ▸ h x List.mem_cons_self
    · exact ih (fun e he => h e (List.mem_cons_of_mem _ he)) hv
/-- An entry that is good as the one it replaces. -/
theorem Tab.forall_set_iff {α : Type} {P : α → Prop} {t : Tab α} (i : Nat) {v d : α} (hd : P d) (hv : P v ↔ P (t.get i d)) :
    (∀ e ∈ t.set i v, P e.2) ↔ ∀ e ∈ t, P e.2 := by
  constructor
  · intro h e he
    rcases Tab.mem_set_of_mem (i := i) (v := v) (d := d) he with he | he
    · exact h e he
    · rw [he]
      exact hv.mp (h _ (Tab.set_self_mem t i v))
  · exact fun h => Tab.forall_set i h (hv.mpr (Tab.forall_get (d := d) i h hd))

theorem MemoriesGood.islandCanon {s : State} (h : MemoriesGood s) (i : Nat) : (s.island i).Canon :=
  Tab.forall_get i h.islandsCanon Island.canon_default

/-! The primitive updates -/

/-- Only the lanes, the islands, SK-1 and the station's staging areas hold memories. -/
@[simp] theorem good_mk (s : State) (p f o g pa sv) : MemoriesGood (State.mk p f o g s.st s.a s.b pa s.isl s.sk sv) ↔ MemoriesGood s :=
  memoriesGood_congr rfl rfl rfl rfl rfl
theorem good_updLane_at (s : State) (l) (f : Lane → Lane) (h : (f (s.lane l)).mems = (s.lane l).mems) :
    MemoriesGood (s.updLane l f) ↔ MemoriesGood s := by
  cases l
  · exact memoriesGood_congr h rfl rfl rfl rfl
  · exact memoriesGood_congr rfl h rfl rfl rfl
@[simp] theorem good_updLane (s : State) (l) (f : Lane → Lane) (h : ∀ v, (f v).mems = v.mems) :
    MemoriesGood (s.updLane l f) ↔ MemoriesGood s :=
  good_updLane_at s l f (h _)
theorem good_updIsl_at (s : State) (i) (f : Island → Island) (h : (f (s.island i)).mems = (s.island i).mems) :
    MemoriesGood (s.updIsl i f) ↔ MemoriesGood s := by
  rw [memoriesGood_iff, memoriesGood_iff]
  exact and_congr_right' (and_congr_right' (and_congr_left' (Tab.forall_set_iff i Island.canon_default (Island.canon_congr h))))
@[simp] theorem good_updIsl (s : State) (i) (f : Island → Island) (h : ∀ x, (f x).mems = x.mems) :
    MemoriesGood (s.updIsl i f) ↔ MemoriesGood s := good_updIsl_at s i f (h _)
@[simp] theorem good_updSt (s : State) (f : Station → Station) (h : ∀ t, (f t).stage = t.stage) :
    MemoriesGood (s.updSt f) ↔ MemoriesGood s :=
  memoriesGood_congr rfl rfl rfl rfl (h _)
@[simp] theorem good_updSk (s : State) (f : Sk → Sk) (h : ∀ k, (f k).mems = k.mems) : MemoriesGood (s.updSk f) ↔ MemoriesGood s :=
  memoriesGood_congr rfl rfl rfl (h _) rfl
@[simp] theorem good_updPart (s : State) (l) (v) : MemoriesGood (s.updPart l v) ↔ MemoriesGood s := memoriesGood_congr rfl rfl rfl rfl rfl
@[simp] theorem good_updSvc (s : State) (v) : MemoriesGood (s.updSvc v) ↔ MemoriesGood s := memoriesGood_congr rfl rfl rfl rfl rfl
@[simp] theorem good_updRec (s : State) (v) : MemoriesGood (s.updRec v) ↔ MemoriesGood s := memoriesGood_congr rfl rfl rfl rfl rfl
@[simp] theorem good_emit (s : State) (v) : MemoriesGood (s.emit v) ↔ MemoriesGood s := memoriesGood_congr rfl rfl rfl rfl rfl
@[simp] theorem good_updMb (s : State) (p u v) : MemoriesGood (s.updMb p u v) ↔ MemoriesGood s := memoriesGood_congr rfl rfl rfl rfl rfl
@[simp] theorem good_takeFree (s : State) : MemoriesGood (s.takeFree).2 ↔ MemoriesGood s := memoriesGood_congr rfl rfl rfl rfl rfl

@[simp] theorem Lane.mems_mk (a1 a2 a3 a4 a5 a6 a7 a8 a9 a10 a11 a12 a13 a14 a15 a16 a17 a18 a19 a20 a21 a22 a23 a24 a25 a26 a27 a28 a29 a30
    a31 a32 a33 a34 a35 a36 a37 a38 a39 a40 a41 a42 a43 a44 a45 a46) :
    Lane.mems (Lane.mk a1 a2 a3 a4 a5 a6 a7 a8 a9 a10 a11 a12 a13 a14 a15 a16 a17 a18 a19 a20 a21 a22 a23 a24 a25 a26 a27 a28 a29 a30
      a31 a32 a33 a34 a35 a36 a37 a38 a39 a40 a41 a42 a43 a44 a45 a46) = ((a21, a22, a24), a25) := by unfold Lane.mems; rfl
@[simp] theorem Island.mems_mk (a1 a2 a3 a4 a5 a6 a7 a8 a9 a10 a11 a12 a13 a14 a15 a16 a17 a18 a19 a20 a21 a22 a23 a24 a25 a26 a27 a28
    a29 a30 a31 a32) :
    Island.mems (Island.mk a1 a2 a3 a4 a5 a6 a7 a8 a9 a10 a11 a12 a13 a14 a15 a16 a17 a18 a19 a20 a21 a22 a23 a24 a25 a26 a27 a28
      a29 a30 a31 a32) = (a14, a13, a28) := by unfold Island.mems; rfl
@[simp] theorem Sk.mems_mk (a1 a2 a3 a4 a5 a6 a7 a8 a9 a10 a11 a12 a13 a14 a15 a16 a17 a18 a19 a20 a21 a22 a23 a24 a25 a26 a27 a28
    a29 a30) :
    Sk.mems (Sk.mk a1 a2 a3 a4 a5 a6 a7 a8 a9 a10 a11 a12 a13 a14 a15 a16 a17 a18 a19 a20 a21 a22 a23 a24 a25 a26 a27 a28
      a29 a30) = (a26, a27) := by unfold Sk.mems; rfl
@[simp] theorem Lane.mems_ite (c : Prop) [Decidable c] (v w : Lane) : (if c then v else w).mems = if c then v.mems else w.mems := by split <;> rfl
@[simp] theorem Island.mems_ite (c : Prop) [Decidable c] (x y : Island) : (if c then x else y).mems = if c then x.mems else y.mems := by
  split <;> rfl
@[simp] theorem restEngine_arrived (v : Lane) : (restEngine v).arrived = v.arrived := by unfold restEngine; rfl
@[simp] theorem Lane.mk_mems_imgs (v : Lane) : (v.imgs, v.arrived) = v.mems := by unfold Lane.mems; rfl
@[simp] theorem Island.mk_mems (x : Island) : (x.applied, x.latched, x.frame) = x.mems := by unfold Island.mems; rfl
@[simp] theorem Sk.mk_mems (k : Sk) : (k.pub, k.pubOld) = k.mems := by unfold Sk.mems; rfl

/-- An outcome in which the memories are canonical if and only if they were. -/
def Canons (o : Host.Outcome State Fault Refusal) (s : State) : Prop := match o with | .next t => MemoriesGood t ↔ MemoriesGood s | _ => True
@[simp] theorem canons_next (t s : State) : Canons (.next t) s = (MemoriesGood t ↔ MemoriesGood s) := rfl

/-- An outcome whose memories are canonical. -/
def OutcomeGood (o : Host.Outcome State Fault Refusal) : Prop := match o with | .next t => MemoriesGood t | _ => True
theorem Canons.good {o : Host.Outcome State Fault Refusal} {s : State} (h : Canons o s) (g : MemoriesGood s) : OutcomeGood o := by
  cases o with
  | next t => exact h.mpr g
  | _ => trivial
theorem OutcomeGood.next {t : State} (h : MemoriesGood t) : OutcomeGood (.next t) := h
theorem OutcomeGood.ite {c : Prop} [Decidable c] {x y : Host.Outcome State Fault Refusal} (h : OutcomeGood x) (g : OutcomeGood y) :
    OutcomeGood (if c then x else y) := by
  split
  · exact h
  · exact g

@[simp] theorem good_ite (c : Prop) [Decidable c] (x y : State) :
    MemoriesGood (if c then x else y) ↔ if c then MemoriesGood x else MemoriesGood y := by split <;> rfl
@[simp] theorem good_foldl {α} (f : State → α → State) (l : List α) (s : State) (h : ∀ s x, MemoriesGood (f s x) ↔ MemoriesGood s) :
    MemoriesGood (l.foldl f s) ↔ MemoriesGood s := by
  induction l generalizing s with
  | nil => rfl
  | cons a l ih => simp [ih, h]
@[simp] theorem good_foldl_fst {α β} (f : State × β → α → State × β) (l : List α) (p : State × β)
    (h : ∀ p x, MemoriesGood (f p x).1 ↔ MemoriesGood p.1) : MemoriesGood (l.foldl f p).1 ↔ MemoriesGood p.1 := by
  induction l generalizing p with
  | nil => rfl
  | cons a l ih => simp [ih, h]

/-! Memories written in a row -/

theorem Mem.wf_foldl {α : Type} {f : Mem → α → Mem} (l : List α) {m : Mem} (h : m.wf) (hf : ∀ m x, Mem.wf m → Mem.wf (f m x)) :
    Mem.wf (l.foldl f m) := by
  induction l generalizing m with
  | nil => exact h
  | cons a l ih => exact ih (hf m a h)
theorem Mem.wf_foldl_fst {α β : Type} {f : Mem × β → α → Mem × β} (l : List α) {p : Mem × β} (h : p.1.wf)
    (hf : ∀ p x, Mem.wf p.1 → Mem.wf (f p x).1) : Mem.wf (l.foldl f p).1 := by
  induction l generalizing p with
  | nil => exact h
  | cons a l ih => exact ih (hf p a h)

/-! Writing memories: what is put in their place is canonical too -/

section
variable {s : State} (h : MemoriesGood s)
include h
theorem MemoriesGood.updLane (l : LaneId) {f : Lane → Lane} (hf : (s.lane l).Canon → (f (s.lane l)).Canon) :
    MemoriesGood (s.updLane l f) := by
  have hl := hf (h.laneCanon l)
  rw [memoriesGood_iff]
  cases l
  · exact ⟨hl, h.laneCanon .b, h.islandsCanon, h.skCanon, h.stCanon⟩
  · exact ⟨h.laneCanon .a, hl, h.islandsCanon, h.skCanon, h.stCanon⟩
theorem MemoriesGood.updIsl (i : Nat) {f : Island → Island} (hf : (s.island i).Canon → (f (s.island i)).Canon) :
    MemoriesGood (s.updIsl i f) := by
  rw [memoriesGood_iff]
  exact ⟨h.laneCanon .a, h.laneCanon .b, Tab.forall_set i h.islandsCanon (hf (h.islandCanon i)), h.skCanon, h.stCanon⟩
theorem MemoriesGood.updSt {f : Station → Station} (hf : s.st.Canon → (f s.st).Canon) : MemoriesGood (s.updSt f) := by
  rw [memoriesGood_iff]
  exact ⟨h.laneCanon .a, h.laneCanon .b, h.islandsCanon, h.skCanon, hf h.stCanon⟩
theorem MemoriesGood.updSk {f : Sk → Sk} (hf : s.sk.Canon → (f s.sk).Canon) : MemoriesGood (s.updSk f) := by
  rw [memoriesGood_iff]
  exact ⟨h.laneCanon .a, h.laneCanon .b, h.islandsCanon, hf h.skCanon, h.stCanon⟩
theorem MemoriesGood.keepLane (l : LaneId) {f : Lane → Lane} (hf : ∀ v, (f v).mems = v.mems) : MemoriesGood (s.updLane l f) :=
  (good_updLane s l f hf).mpr h
theorem MemoriesGood.keepIsl (i : Nat) {f : Island → Island} (hf : ∀ x, (f x).mems = x.mems) : MemoriesGood (s.updIsl i f) :=
  (good_updIsl s i f hf).mpr h
theorem MemoriesGood.keepSt {f : Station → Station} (hf : ∀ t, (f t).stage = t.stage) : MemoriesGood (s.updSt f) :=
  (good_updSt s f hf).mpr h
theorem MemoriesGood.keepSk {f : Sk → Sk} (hf : ∀ k, (f k).mems = k.mems) : MemoriesGood (s.updSk f) := (good_updSk s f hf).mpr h
theorem MemoriesGood.mapFrame (i : Nat) (g : Island → Mem → Mem) (hg : ∀ x m, Mem.wf m → (g x m).wf) :
    MemoriesGood (s.updIsl i fun x => { x with frame := x.frame.map fun f => { f with data := g x f.data } }) :=
  h.updIsl i fun x => ⟨x.applied, x.latched, fun f hf => by
    obtain ⟨f0, h0, rfl⟩ := Option.map_eq_some_iff.mp hf
    exact hg _ _ (x.frame f0 h0)⟩
theorem MemoriesGood.updImg (l : LaneId) {f : Mem → Mem} (hf : ∀ m, m.wf → (f m).wf) : MemoriesGood (s.updImg l f) :=
  h.updLane l fun v => ⟨hf _ v.img, v.frozen, v.tmpl, v.arrived⟩
theorem MemoriesGood.wrImg (l : LaneId) (a n x : Nat) : MemoriesGood (s.wrImg l a n x) := h.updImg l fun m hm => Mem.wf_wrU m a n x hm
end

theorem MemoriesGood.ite {c : Prop} [Decidable c] {x y : State} (h : MemoriesGood x) (g : MemoriesGood y) :
    MemoriesGood (if c then x else y) := by
  split
  · exact h
  · exact g
theorem MemoriesGood.foldl {α} {f : State → α → State} (l : List α) {s : State} (h : MemoriesGood s)
    (hf : ∀ s x, MemoriesGood s → MemoriesGood (f s x)) : MemoriesGood (l.foldl f s) := by
  induction l generalizing s with
  | nil => exact h
  | cons a l ih => exact ih (hf s a h)
theorem MemoriesGood.bothLanes {f : State → LaneId → State} {s : State} (h : MemoriesGood s)
    (hf : ∀ s l, MemoriesGood s → MemoriesGood (f s l)) : MemoriesGood (bothLanes f s) := hf _ _ (hf _ _ h)

end Sys2Proof.Machine
end

section
/-! The memories under the operations that every row shares, and under the plant network (03, 11).
Here and below an equivalence says that an operation touches no memory, an implication that what it writes is canonical. -/

namespace Sys2Proof.Machine

/-! Plant -/

@[simp] theorem good_State_updNet (s : State) (l : LaneId) (f : Net → Net) : MemoriesGood (State.updNet s l f) ↔ MemoriesGood s := by
  simp [State.updNet]

@[simp] theorem good_countPort (s : State) (l : LaneId) (portB : Bool) (k : Nat) :
    MemoriesGood (countPort s l portB k) ↔ MemoriesGood s := by
  simp [countPort]

@[simp] theorem good_sendBoth (s : State) (l : LaneId) : MemoriesGood (sendBoth s l).2 ↔ MemoriesGood s := by
  simp [sendBoth]

@[simp] theorem good_prpPass (s : State) (l : LaneId) (src seq : Nat) : MemoriesGood (prpPass s l src seq).2 ↔ MemoriesGood s := by
  unfold prpPass
  dsimp only
  split <;> simp

@[simp] theorem good_plantIn (s : State) (l : LaneId) (rx : Rx) : MemoriesGood (plantIn s l rx).2 ↔ MemoriesGood s := by
  unfold plantIn
  split
  · simp
  · split <;> simp

@[simp] theorem good_sendPlant (s : State) (l : LaneId) (o : Nat → Out) : MemoriesGood (sendPlant s l o) ↔ MemoriesGood s := by
  simp [sendPlant]

@[simp] theorem good_thlSend (s : State) (p : Nat) (k : ThlKind) (content : List Byte) :
    MemoriesGood (thlSend s p k content) ↔ MemoriesGood s := by
  unfold thlSend
  split <;> simp

@[simp] theorem good_notify (s : State) (p vec : Nat) : MemoriesGood (notify s p vec) ↔ MemoriesGood s := by
  unfold notify
  split <;> simp

/-! Ops -/

@[simp] theorem good_ringPut (s : State) (p : Nat) (e : RingEntry) : MemoriesGood (ringPut s p e) ↔ MemoriesGood s := by
  unfold ringPut
  dsimp only
  repeat' split
  all_goals simp

@[simp] theorem good_offerEvent (s : State) (p : Nat) (e : RingEntry) : MemoriesGood (offerEvent s p e) ↔ MemoriesGood s := by
  simp [offerEvent]

@[simp] theorem good_offerNonMaskable (s : State) (p : Nat) (e : RingEntry) : MemoriesGood (offerNonMaskable s p e) ↔ MemoriesGood s := by
  simp [offerNonMaskable]

@[simp] theorem good_deliverEvent (s : State) (e : RingEntry) : MemoriesGood (deliverEvent s e) ↔ MemoriesGood s := by
  simp [deliverEvent]

@[simp] theorem good_releaseHeld (s : State) (p n : Nat) : MemoriesGood (releaseHeld s p n) ↔ MemoriesGood s := by
  induction n generalizing s with
  | zero => rfl
  | succ n ih =>
    unfold releaseHeld
    split
    · rfl
    · split
      · simp [ih]
      · rfl

@[simp] theorem good_stageRecord (s : State) (l : LaneId) (r : RawRec) : MemoriesGood (stageRecord s l r) ↔ MemoriesGood s := by
  simp [stageRecord]

@[simp] theorem good_beginStaging (s : State) (l : LaneId) : MemoriesGood (beginStaging s l) ↔ MemoriesGood s := by
  simp [beginStaging]

@[simp] theorem good_offerRecord (s : State) (l : LaneId) (r : RawRec) : MemoriesGood (offerRecord s l r) ↔ MemoriesGood s := by
  simp [offerRecord]

@[simp] theorem good_report (s : State) (e : Ev) (withheld : Nat) : MemoriesGood (report s e withheld) ↔ MemoriesGood s := by
  simp [report]

@[simp] theorem good_setLimit (s : State) (l : LaneId) (k : Nat) (m : Limit) : MemoriesGood (setLimit s l k m) ↔ MemoriesGood s := by
  simp [setLimit]

@[simp] theorem good_raise (s : State) (e : Ev) : MemoriesGood (raise s e) ↔ MemoriesGood s := by
  unfold raise
  dsimp only
  split
  · simp
  · split <;> simp

@[simp] theorem good_noteUnnamed (s : State) (k : Unnamed) (l : LaneId) (pay : List Byte) :
    MemoriesGood (noteUnnamed s k l pay) ↔ MemoriesGood s := by
  simp [noteUnnamed]

@[simp] theorem good_tellUnnamed (s : State) (p : Nat) (k : Unnamed) : MemoriesGood (tellUnnamed s p k) ↔ MemoriesGood s := by
  simp [tellUnnamed]

@[simp] theorem good_raiseUnnamed (s : State) (k : Unnamed) (pay : List Byte) : MemoriesGood (raiseUnnamed s k pay) ↔ MemoriesGood s := by
  simp [raiseUnnamed]

@[simp] theorem good_respond (s : State) (p : Nat) (urg : Bool) (status d0 d1 tick : Nat) (data : List Nat := []) :
    MemoriesGood (respond s p urg status d0 d1 tick data) ↔ MemoriesGood s := by
  simp [respond]

@[simp] theorem good_answer (s : State) (p : Nat) (urg : Bool) (status : Nat) (d0 : Nat := 0) (d1 : Nat := 0) (data : List Nat := []) :
    MemoriesGood (answer s p urg status d0 d1 data) ↔ MemoriesGood s := by
  simp [answer]

theorem answer_good {s : State} (h : MemoriesGood s) (p : Nat) (urg : Bool) (status d0 d1 : Nat) (data : List Nat) :
    MemoriesGood (answer s p urg status d0 d1 data) := by
  exact (good_answer s p urg status d0 d1 data).mpr h

@[simp] theorem good_progress (s : State) (p : Nat) (urg : Bool) (status : Nat) :
    MemoriesGood (progress s p urg status) ↔ MemoriesGood s := by
  simp [progress]

@[simp] theorem good_serve (s : State) (p op : Nat) (f : State → List Word → State) (h : ∀ ws, MemoriesGood (f s ws) ↔ MemoriesGood s) :
    MemoriesGood (serve s p op f) ↔ MemoriesGood s := by
  unfold serve
  extract_lets c m
  split
  · exact h _
  · rfl

@[simp] theorem good_needOperator (s : State) (p : Nat) (urg : Bool) (k : State) (h : MemoriesGood k ↔ MemoriesGood s) :
    MemoriesGood (needOperator s p urg k) ↔ MemoriesGood s := by
  unfold needOperator; split <;> simp [h]

@[simp] theorem good_needLock (s : State) (p : Nat) (urg : Bool) (k : State) (h : MemoriesGood k ↔ MemoriesGood s) :
    MemoriesGood (needLock s p urg k) ↔ MemoriesGood s := by
  unfold needLock; split <;> simp [h]

theorem serve_good {s : State} (h : MemoriesGood s) (p op : Nat) {f : State → List Word → State} (hf : ∀ ws, MemoriesGood (f s ws)) :
    MemoriesGood (serve s p op f) := by
  unfold serve
  extract_lets c m
  exact .ite (hf _) h
theorem needLock_good {s : State} (h : MemoriesGood s) (p : Nat) (urg : Bool) {k : State} (hk : MemoriesGood k) :
    MemoriesGood (needLock s p urg k) := by
  unfold needLock
  exact .ite hk (answer_good h ..)
theorem needOperator_good {s : State} (h : MemoriesGood s) (p : Nat) (urg : Bool) {k : State} (hk : MemoriesGood k) :
    MemoriesGood (needOperator s p urg k) := by
  unfold needOperator
  exact .ite hk (answer_good h ..)

@[simp] theorem good_discardLoopStage (s : State) : MemoriesGood (discardLoopStage s) ↔ MemoriesGood s := by
  simp [discardLoopStage]

@[simp] theorem good_dropLock (s : State) : MemoriesGood (dropLock s) ↔ MemoriesGood s := by
  simp [dropLock]

theorem dropHoldings_good {s : State} (h : MemoriesGood s) (p : Nat) : MemoriesGood (dropHoldings s p) := by
  unfold dropHoldings
  extract_lets s1 s2 s3
  have h1 : MemoriesGood s1 := h.updSt fun t e he => t e (List.mem_of_mem_filter he)
  have h2 : MemoriesGood s2 ↔ MemoriesGood s1 := by simp [s2]
  have h3 : MemoriesGood s3 ↔ MemoriesGood s2 := by simp [s3]
  rw [good_updPart, h3, h2]
  exact h1

@[simp] theorem good_resetWindow (s : State) (p : Nat) : MemoriesGood (resetWindow s p) ↔ MemoriesGood s := by
  simp [resetWindow]

@[simp] theorem good_bothLanes (f : State → LaneId → State) (s : State) (h : ∀ s l, MemoriesGood (f s l) ↔ MemoriesGood s) :
    MemoriesGood (bothLanes f s) ↔ MemoriesGood s := by
  simp [bothLanes, h]

/-! Network -/

@[simp] theorem good_updFlow (s : State) (l : LaneId) (n : Nat) (f : FlowCtx → FlowCtx) :
    MemoriesGood (updFlow s l n f) ↔ MemoriesGood s := by
  simp [updFlow]

@[simp] theorem good_netEvent (s : State) (l : LaneId) (src code top : Nat) (obj : Option Nat := none) :
    MemoriesGood (netEvent s l src code top obj) ↔ MemoriesGood s := by
  simp [netEvent]

@[simp] theorem good_actEvent (s : State) (l : LaneId) (src code top : Nat) :
    MemoriesGood (actEvent s l src code top) ↔ MemoriesGood s := by
  simp [actEvent]

@[simp] theorem good_admitRate (s : State) (l : LaneId) (key limit : Nat) :
    MemoriesGood (admitRate s l key limit).2 ↔ MemoriesGood s := by
  unfold admitRate
  extract_lets w w'
  split
  · dsimp only
    exact good_State_updNet ..
  · rfl

@[simp] theorem good_shed (s : State) (l : LaneId) (portB : Bool) (cls : Nat) : MemoriesGood (shed s l portB cls) ↔ MemoriesGood s := by
  simp [shed]

@[simp] theorem good_acceptFrame (s : State) (l : LaneId) (portB : Bool) (r : CfgRec) (f : FlowFrame) :
    MemoriesGood (acceptFrame s l portB r f) ↔ MemoriesGood s := by
  simp [acceptFrame]

theorem good_execFlowFrameReceived (l : LaneId) (w : Tagged) (f : FlowFrame) (s : State) : Canons (execFlowFrameReceived l w f s) s := by
  unfold execFlowFrameReceived
  dsimp only
  repeat' split
  all_goals simp

theorem substFields_wf (r : CfgRec) {m : Mem} (h : m.wf) : (substFields r m).wf :=
  Mem.wf_foldl _ h fun m _ hm => Mem.wf_writeN m _ _ hm
theorem applyFields_wf (old : Option CfgRec) (r : CfgRec) (before : Mem) {m : Mem} (h : m.wf) : (applyFields old r before m).wf :=
  Mem.wf_foldl _ h fun m _ hm => Mem.wf_writeN m _ _ hm

theorem flowSwap_good {s : State} (h : MemoriesGood s) (l : LaneId) (r : CfgRec) : MemoriesGood (flowSwap s l r) := by
  unfold flowSwap
  extract_lets n c0 a
  refine .ite h ?_
  split
  next c took q _ =>
  extract_lets c' s1 head s2
  have h1 : MemoriesGood s1 := (good_updFlow ..).mpr h
  have h2 : MemoriesGood s2 := by
    refine .ite h1 (h1.updImg l fun m hm => ?_)
    have hw := Mem.wf_writeN m a head hm
    dsimp only
    split
    · split
      · exact Mem.wf_writeN _ _ _ hw
      · exact hw
    · exact substFields_wf r hw
  clear_value s2
  simpa using h2

theorem flowSwaps_good {s : State} (h : MemoriesGood s) (l : LaneId) : MemoriesGood (flowSwaps s l) :=
  .foldl _ h fun s r h => by
    split
    · exact (good_updFlow ..).mpr (h.updImg l fun m hm => Mem.wf_foldl _ hm fun m _ hm => Mem.wf_writeN m _ _ hm)
    · exact flowSwap_good h l r

theorem execFlowDown_good (l : LaneId) (n : Fin 256) {s : State} (h : MemoriesGood s) : OutcomeGood (execFlowDown l n s) := by
  show MemoriesGood _
  split
  · exact h
  · exact .ite (flowSwap_good h l _) h

@[simp] theorem good_udpbcTake (s : State) (l : LaneId) (r : CfgRec) (dt : Nat) (sentences : List (List Byte)) :
    MemoriesGood (udpbcTake s l r dt sentences) ↔ MemoriesGood s := by
  simp [udpbcTake]

@[simp] theorem good_udpbcIn (s : State) (l : LaneId) (portB : Bool) (g : Datagram450) (dt : Nat) (sentences : List (List Byte)) :
    MemoriesGood (udpbcIn s l portB g dt sentences) ↔ MemoriesGood s := by
  unfold udpbcIn
  split <;> simp

theorem good_execUdpbcDatagram (l : LaneId) (rx : Rx) (g : Datagram450) (dt : Nat) (sentences : List (List Byte)) (s : State) :
    Canons (execUdpbcDatagram l rx g dt sentences s) s := by
  simp [execUdpbcDatagram]

@[simp] theorem good_writeDescs (s : State) (l : LaneId) (pdu : Nat → List Byte) :
    MemoriesGood (writeDescs s l pdu) ↔ MemoriesGood s := by
  simp [writeDescs]

@[simp] theorem good_headArrives (s : State) (l : LaneId) (q now : Nat) : MemoriesGood (headArrives s l q now) ↔ MemoriesGood s := by
  unfold headArrives
  split <;> simp

@[simp] theorem good_launchFrame (s : State) (l : LaneId) (r : CfgRec) (d : FlowDesc) (late : Bool) :
    MemoriesGood (launchFrame s l r d late) ↔ MemoriesGood s := by
  simp [launchFrame]

theorem good_execFlowLaunch (l : LaneId) (n : Fin 256) (now : Word) (s : State) : Canons (execFlowLaunch l n now s) s := by
  unfold execFlowLaunch
  split <;> simp

theorem substFlows_good {s : State} (h : MemoriesGood s) (l : LaneId) : MemoriesGood (substFlows s l) :=
  .foldl _ h fun s r h => by
    refine .ite h (h.updImg l fun m hm => Mem.wf_foldl _ hm fun m f hm => ?_)
    extract_lets a n
    split
    · exact hm
    · exact Mem.wf_writeN _ _ _ hm

@[simp] theorem good_takeoverFlows (s : State) (l : LaneId) : MemoriesGood (takeoverFlows s l) ↔ MemoriesGood s := by
  unfold takeoverFlows
  dsimp only
  split <;> simp

@[simp] theorem good_standbyFlows (s : State) (l : LaneId) : MemoriesGood (standbyFlows s l) ↔ MemoriesGood s := by
  simp [standbyFlows]

@[simp] theorem good_offlineFlows (s : State) (l : LaneId) : MemoriesGood (offlineFlows s l) ↔ MemoriesGood s := by
  simp [offlineFlows]

theorem flowApply_good (old new : List CfgRec) (before : Mem) {s : State} (h : MemoriesGood s) (l : LaneId) :
    MemoriesGood (flowApply old new before s l) :=
  .foldl _ h fun s n h => by
    split
    · exact (good_State_updNet ..).mpr h
    · next r _ =>
      have h1 : MemoriesGood (updFlow s l n fun _ => { baseTick := s.grid.tick }) := (good_updFlow ..).mpr h
      refine .ite h (.ite h1 (h1.updImg l fun m hm => ?_))
      have hw := Mem.wf_writeN m (r.u 0x20 4) (zeros (flowEntryLen r)) hm
      dsimp only
      split
      · exact hw
      · exact applyFields_wf _ r before hw

theorem good_execPhyLinkChange (l : LaneId) (portB up : Bool) (s : State) : Canons (execPhyLinkChange l portB up s) s := by
  unfold execPhyLinkChange
  dsimp only
  repeat' split
  all_goals simp

theorem good_execPrpSupervisionSend (l : LaneId) (s : State) : Canons (execPrpSupervisionSend l s) s := by
  simp [execPrpSupervisionSend]

theorem good_execPrpSupervisionFrame (l : LaneId) (portB : Bool) (node : Nat) (s : State) :
    Canons (execPrpSupervisionFrame l portB node s) s := by
  simp [execPrpSupervisionFrame]

theorem good_execPrpSupervisionLost (l : LaneId) (portB : Bool) (node : Nat) (s : State) :
    Canons (execPrpSupervisionLost l portB node s) s := by
  simp [execPrpSupervisionLost]

@[simp] theorem good_ipNext (s : State) (l : LaneId) : MemoriesGood (ipNext s l) ↔ MemoriesGood s := by
  simp [ipNext]

@[simp] theorem good_ipStart (s : State) (l : LaneId) : MemoriesGood (ipStart s l) ↔ MemoriesGood s := by
  simp [ipStart]

theorem good_execThlBootstrapStart (l : LaneId) (conflict : Bool) (s : State) : Canons (execThlBootstrapStart l conflict s) s := by
  unfold execThlBootstrapStart
  dsimp only
  split <;> simp

@[simp] theorem good_arpIcmpTake (s : State) (l : LaneId) (x0 : ArpIcmp) : MemoriesGood (arpIcmpTake s l x0) ↔ MemoriesGood s := by
  unfold arpIcmpTake
  split <;> simp

theorem good_execArpIcmpFrame (l : LaneId) (rx : Rx) (f : ArpIcmp) (s : State) : Canons (execArpIcmpFrame l rx f s) s := by
  unfold execArpIcmpFrame
  dsimp only
  repeat' split
  all_goals simp

@[simp] theorem good_releaseBootstrap (s : State) (l : LaneId) : MemoriesGood (releaseBootstrap s l) ↔ MemoriesGood s := by
  simp [releaseBootstrap]

end Sys2Proof.Machine
end

section
/-! The memories under the rows of the CAN ports, the fields, the recorder and station time (11, 12, 13, 14, 18). -/

namespace Sys2Proof.Machine

/-! Can -/

@[simp] theorem good_updCan (s : State) (l : LaneId) (p : Nat) (f : CanPort → CanPort) :
    MemoriesGood (updCan s l p f) ↔ MemoriesGood s := by
  simp [updCan]

@[simp] theorem good_canEvent (s : State) (l : LaneId) (p src code : Nat) (low : Option Nat := none) (pay : List Byte := []) :
    MemoriesGood (canEvent s l p src code low pay) ↔ MemoriesGood s := by
  simp [canEvent]

@[simp] theorem good_recDown (s : State) (c : CanPort) : MemoriesGood (recDown s c).2 ↔ MemoriesGood s := by
  unfold recDown
  split
  · simp
  · split <;> simp

@[simp] theorem good_ecChange (s : State) (l : LaneId) (p before : Nat) : MemoriesGood (ecChange s l p before) ↔ MemoriesGood s := by
  simp [ecChange]

@[simp] theorem good_rxError (s : State) (l : LaneId) (p : Nat) (step8 : Bool) : MemoriesGood (rxError s l p step8) ↔ MemoriesGood s := by
  simp [rxError]

theorem good_execCanFrameReceived (l : LaneId) (port : Fin 10) (f : CanFrame) (dt : Nat) (s : State) :
    Canons (execCanFrameReceived l port f dt s) s := by
  unfold execCanFrameReceived
  dsimp only
  split <;> simp

theorem canSwap_wf (s : State) (p : Nat) (c : CanPort) {m : Mem} (h : m.wf) : (canSwap s p c m).2.1.wf := by
  unfold canSwap
  extract_lets base now
  split
  next m1 head e1 =>
  have h1 : m1.wf := by
    rw [show m1 = _ from (congrArg Prod.fst e1).symm]
    exact Mem.wf_foldl_fst _ h fun a x ha => Mem.wf_writeN a.1 _ _ ha
  extract_lets m2
  have h2 : m2.wf := Mem.wf_writeN _ _ _ h1
  clear_value m2
  split
  next m3 stored overl e3 =>
  have h3 : m3.wf := by
    rw [show m3 = _ from (congrArg Prod.fst e3).symm]
    refine Mem.wf_foldl_fst _ h2 fun a b ha => ?_
    split
    · exact ha
    · refine Mem.wf_wrU _ _ _ _ ?_
      split
      · exact Mem.wf_writeN _ _ _ ha
      · exact ha
  clear e3
  dsimp only
  exact Mem.wf_writeN _ _ _ h3

theorem canSwaps_good {s : State} (h : MemoriesGood s) (l : LaneId) : MemoriesGood (canSwaps s l) :=
  .foldl _ h fun s p h => by
    split
    next c m overl e =>
    have hm : m.wf := by
      rw [show m = _ from (congrArg (fun x => x.2.1) e).symm]
      exact canSwap_wf s p (canPort s l p) (h.laneCanon l).img
    have h1 : MemoriesGood ((updCan s l p fun _ => c).updImg l fun _ => m) := ((good_updCan ..).mpr h).updImg l fun _ _ => hm
    extract_lets s1
    exact (good_foldl _ overl s1 fun s b => good_canEvent s l p 97 1 none (leBytes b 1)).mpr h1

@[simp] theorem good_canEnqueue (s : State) (l : LaneId) (p : Nat) (m : Mem) : MemoriesGood (canEnqueue s l p m) ↔ MemoriesGood s := by
  unfold canEnqueue
  dsimp only
  split
  · exact good_foldl _ _ _ fun s r => good_updCan ..
  · refine good_foldl _ _ _ fun s r => ?_
    split <;> simp

@[simp] theorem good_canWake (s : State) (l : LaneId) (p code : Nat) : MemoriesGood (canWake s l p code) ↔ MemoriesGood s := by
  simp [canWake]

@[simp] theorem good_canRequest (s : State) (l : LaneId) (p req : Nat) : MemoriesGood (canRequest s l p req) ↔ MemoriesGood s := by
  unfold canRequest; split <;> simp

@[simp] theorem good_canControl (s : State) (l : LaneId) (p : Nat) (m : Mem) (only : Option Nat) :
    MemoriesGood (canControl s l p m only) ↔ MemoriesGood s := by
  unfold canControl; split <;> simp

@[simp] theorem good_canEdge (s : State) (l : LaneId) : MemoriesGood (canEdge s l) ↔ MemoriesGood s := by
  simp [canEdge]

theorem good_execCanSleepRequest (l : LaneId) (port : Fin 10) (s : State) : Canons (execCanSleepRequest l port s) s := by
  simp [execCanSleepRequest]

theorem good_execCanWakeRequest (l : LaneId) (port : Fin 10) (s : State) : Canons (execCanWakeRequest l port s) s := by
  simp [execCanWakeRequest]

theorem good_execCanRecoverRequest (l : LaneId) (port : Fin 10) (s : State) : Canons (execCanRecoverRequest l port s) s := by
  simp [execCanRecoverRequest]

theorem good_execCanBusWake (l : LaneId) (port : Fin 10) (f : Option CanFrame) (s : State) : Canons (execCanBusWake l port f s) s := by
  unfold execCanBusWake
  dsimp only
  repeat' split
  all_goals simp

@[simp] theorem good_busOff (s : State) (l : LaneId) (p : Nat) : MemoriesGood (busOff s l p) ↔ MemoriesGood s := by
  simp [busOff]

theorem good_execCanError (l : LaneId) (port : Fin 10) (e : CanErr) (s : State) : Canons (execCanError l port e s) s := by
  unfold execCanError; split <;> simp

theorem good_execCanBusoffRecovered (l : LaneId) (port : Fin 10) (s : State) : Canons (execCanBusoffRecovered l port s) s := by
  simp [execCanBusoffRecovered]

theorem good_execCanFrameTxDone (l : LaneId) (port : Fin 10) (s : State) : Canons (execCanFrameTxDone l port s) s := by
  unfold execCanFrameTxDone
  dsimp only
  split <;> simp

theorem good_execScRateDetected (port : Fin 2) (rate : Fin 12) (s : State) : Canons (execScRateDetected port rate s) s := by
  unfold execScRateDetected
  dsimp only
  split <;> simp

theorem good_execScNoTraffic (port : Fin 2) (s : State) : Canons (execScNoTraffic port s) s := by
  simp [execScNoTraffic]

@[simp] theorem good_canTakeover (s : State) (l : LaneId) : MemoriesGood (canTakeover s l) ↔ MemoriesGood s := by
  unfold canTakeover
  refine good_foldl _ _ _ fun s r => ?_
  split <;> simp

@[simp] theorem good_canListen (s : State) (l : LaneId) (clear : Bool) : MemoriesGood (canListen s l clear) ↔ MemoriesGood s := by
  simp [canListen]

theorem substCan_good {s : State} (h : MemoriesGood s) (l : LaneId) : MemoriesGood (substCan s l) :=
  .foldl _ h fun s r h => h.updImg l fun m hm => Mem.wf_foldl _ hm fun m i hm => by
    split
    · exact hm
    · exact Mem.wf_wrU _ _ _ _ hm

@[simp] theorem good_canApplyPort (old new : List CfgRec) (p : Nat) (s : State) (l : LaneId) :
    MemoriesGood (canApplyPort old new p s l) ↔ MemoriesGood s := by
  simp [canApplyPort]

theorem canApplyFields_good (old new : List CfgRec) (p : Nat) {s : State} (h : MemoriesGood s) (l : LaneId) :
    MemoriesGood (canApplyFields old new p s l) := by
  unfold canApplyFields
  refine .ite h (.foldl _ (h.updImg l fun m hm => Mem.wf_clear _ _ _ ?_) fun s r h => h.updImg l fun m hm => Mem.wf_writeN _ _ _ hm)
  split
  · exact hm
  · exact Mem.wf_clear _ _ _ hm

theorem canApply_good (old new : List CfgRec) {s : State} (h : MemoriesGood s) (l : LaneId) : MemoriesGood (canApply old new s l) :=
  .foldl _ h fun s p h => canApplyFields_good old new p (.ite h ((good_canApplyPort ..).mpr h)) l

@[simp] theorem good_canApplySend (old new : List CfgRec) (s : State) (l : LaneId) :
    MemoriesGood (canApplySend old new s l) ↔ MemoriesGood s := by
  simp [canApplySend]

@[simp] theorem good_canStart (s : State) (l : LaneId) (ps : List Nat) : MemoriesGood (canStart s l ps) ↔ MemoriesGood s := by
  simp [canStart]

/-! Dio -/

@[simp] theorem good_updDio (s : State) (i : Nat) (f : DioIsl → DioIsl) : MemoriesGood (updDio s i f) ↔ MemoriesGood s := by
  simp [updDio]

@[simp] theorem good_setDioCh (s : State) (i c : Nat) (x : DioCh) : MemoriesGood (setDioCh s i c x) ↔ MemoriesGood s := by
  simp [setDioCh]

@[simp] theorem good_dioEvent (s : State) (i c code : Nat) (pay : List Byte := []) :
    MemoriesGood (dioEvent s i c code pay) ↔ MemoriesGood s := by
  simp [dioEvent]

@[simp] theorem good_groupEvent (s : State) (i g code : Nat) : MemoriesGood (groupEvent s i g code) ↔ MemoriesGood s := by
  simp [groupEvent]

@[simp] theorem good_dioLatch (s : State) (i c : Nat) : MemoriesGood (dioLatch s i c) ↔ MemoriesGood s := by
  simp [dioLatch]

@[simp] theorem good_dioRearm (s : State) (i c cause : Nat) (hot : Bool := false) :
    MemoriesGood (dioRearm s i c cause hot) ↔ MemoriesGood s := by
  simp [dioRearm]

@[simp] theorem good_dioSwitch (s : State) (i c : Nat) (x : DioSample) : MemoriesGood (dioSwitch s i c x) ↔ MemoriesGood s := by
  unfold dioSwitch; split <;> simp

@[simp] theorem good_groupAcks (s : State) (i : Nat) : MemoriesGood (groupAcks s i) ↔ MemoriesGood s := by
  simp [groupAcks]

@[simp] theorem good_dioChanges (s : State) (i c : Nat) (b a : DioCh) : MemoriesGood (dioChanges s i c b a) ↔ MemoriesGood s := by
  simp [dioChanges]

@[simp] theorem good_dioEdge (s : State) (i : Nat) (ch : List DioSample) (groupMa : List Nat) (temp : Int) (m : Mem) :
    MemoriesGood (dioEdge s i ch groupMa temp m).1 ↔ MemoriesGood s := by
  unfold dioEdge
  dsimp only
  rw [good_foldl, good_groupAcks, good_foldl]
  · intro s c
    split <;> simp
  · exact fun s c => good_dioSwitch ..

theorem good_execDioOverload (dio2 : Bool) (ch : Fin 32) (s : State) : Canons (execDioOverload dio2 ch s) s := by
  simp [execDioOverload]

theorem good_execDioAutoRetry (dio2 : Bool) (ch : Fin 32) (temp : Int) (s : State) : Canons (execDioAutoRetry dio2 ch temp s) s := by
  unfold execDioAutoRetry
  dsimp only
  split <;> simp

theorem good_execDioGroupTrip (dio2 : Bool) (g : Fin 4) (s : State) : Canons (execDioGroupTrip dio2 g s) s := by
  simp [execDioGroupTrip]

@[simp] theorem good_dioApply (old new : List CfgRec) (s : State) : MemoriesGood (dioApply old new s) ↔ MemoriesGood s := by
  simp [dioApply]

theorem substDio_good {s : State} (h : MemoriesGood s) (l : LaneId) : MemoriesGood (substDio s l) :=
  .foldl _ h fun s i h => .foldl _ h fun s c h => by
    split
    · exact h
    · exact .ite h (h.wrImg ..)

/-! Analogue -/

@[simp] theorem good_setAiCh (s : State) (i c : Nat) (x : AiCh) : MemoriesGood (setAiCh s i c x) ↔ MemoriesGood s := by
  simp [setAiCh]

@[simp] theorem good_setAoCh (s : State) (c : Nat) (x : AoCh) : MemoriesGood (setAoCh s c x) ↔ MemoriesGood s := by
  simp [setAoCh]

@[simp] theorem good_anaEvent (s : State) (src c code : Nat) (pay : List Byte := []) :
    MemoriesGood (anaEvent s src c code pay) ↔ MemoriesGood s := by
  simp [anaEvent]

@[simp] theorem good_aiSample (s : State) (i ch : Nat) (r : CfgRec) (x : AiSample) :
    MemoriesGood (aiSample s i ch r x).1 ↔ MemoriesGood s := by
  simp [aiSample]

@[simp] theorem good_aiEdge (s : State) (i : Nat) (ch : List AiSample) (temp : Int) (m : Mem) :
    MemoriesGood (aiEdge s i ch temp m).1 ↔ MemoriesGood s := by
  unfold aiEdge
  rw [good_foldl_fst]
  intro a c
  split
  · rfl
  · split
    · rfl
    · exact good_aiSample ..

theorem good_execAiSupplyRetry (ai2 : Bool) (ch : Fin 16) (s : State) : Canons (execAiSupplyRetry ai2 ch s) s := by
  simp [execAiSupplyRetry]

@[simp] theorem good_aoSample (s : State) (ch : Nat) (r : CfgRec) (x : AoSample) :
    MemoriesGood (aoSample s ch r x).1 ↔ MemoriesGood s := by
  simp [aoSample]

@[simp] theorem good_aoEdge (s : State) (ch : List AoSample) (temp : Int) (m : Mem) :
    MemoriesGood (aoEdge s ch temp m).1 ↔ MemoriesGood s := by
  unfold aoEdge
  rw [good_foldl_fst]
  intro a c
  split
  · rfl
  · split
    · rfl
    · exact good_aoSample ..

theorem good_execAnalogueCalibrationDone (fails : List (Fin 3 × Fin 16)) (s : State) :
    Canons (execAnalogueCalibrationDone fails s) s := by
  simp [execAnalogueCalibrationDone]

@[simp] theorem good_anaApply (old new : List CfgRec) (s : State) : MemoriesGood (anaApply old new s) ↔ MemoriesGood s := by
  simp [anaApply]

theorem substAo_good {s : State} (h : MemoriesGood s) (l : LaneId) : MemoriesGood (substAo s l) :=
  .foldl _ h fun s c h => by
    split
    · exact h
    · exact .ite h (h.wrImg ..)

@[simp] theorem good_setSupply (s : State) (f : FieldSupply) (low : Bool) : MemoriesGood (setSupply s f low) ↔ MemoriesGood s := by
  unfold setSupply
  split <;> simp

/-! Recorder -/

@[simp] theorem good_arrive (s : State) (r : RawRec) : MemoriesGood (arrive s r) ↔ MemoriesGood s := by
  simp [arrive]

@[simp] theorem good_writeBack (s : State) : MemoriesGood (writeBack s) ↔ MemoriesGood s := by
  simp [writeBack]

@[simp] theorem good_unstage (s : State) (l : LaneId) : MemoriesGood (unstage s l) ↔ MemoriesGood s := by
  simp [unstage]

theorem good_execRecordArrival (s : State) : Canons (execRecordArrival s) s := by
  unfold execRecordArrival; split <;> simp

@[simp] theorem good_drainQueue (n : Nat) (s : State) : MemoriesGood (drainQueue n s) ↔ MemoriesGood s := by
  induction n generalizing s with
  | zero => rfl
  | succ n ih =>
    unfold drainQueue
    split
    · rfl
    · simp [ih]

@[simp] theorem good_writeNow (s : State) (r : RawRec) : MemoriesGood (writeNow s r) ↔ MemoriesGood s := by
  simp [writeNow]

@[simp] theorem good_floodStaged (s : State) (l : LaneId) : MemoriesGood (floodStaged s l) ↔ MemoriesGood s := by
  simp [floodStaged]

theorem good_execFloodWindowEnd (s : State) : Canons (execFloodWindowEnd s) s := by
  unfold execFloodWindowEnd; split <;> simp

theorem good_execOptimeStep (ns : Nat) (s : State) : Canons (execOptimeStep ns s) s := by
  simp [execOptimeStep]

@[simp] theorem good_writeAnchor (s : State) (l : LaneId) (gm : Nat) (offset : Int) :
    MemoriesGood (writeAnchor s l gm offset) ↔ MemoriesGood s := by
  simp [writeAnchor]

@[simp] theorem good_bankEvent (s : State) (l : LaneId) (code bank cause bflags seq : Nat) :
    MemoriesGood (bankEvent s l code bank cause bflags seq) ↔ MemoriesGood s := by
  simp [bankEvent]

@[simp] theorem good_startBank (s : State) (l : LaneId) (b : Bank) : MemoriesGood (startBank s l b) ↔ MemoriesGood s := by
  simp [startBank]

@[simp] theorem good_abandonBank (s : State) (cause : Nat) : MemoriesGood (abandonBank s cause) ↔ MemoriesGood s := by
  unfold abandonBank
  dsimp only
  split
  · simp
  · split <;> simp

@[simp] theorem good_bankDone (s : State) : MemoriesGood (bankDone s) ↔ MemoriesGood s := by
  unfold bankDone
  dsimp only
  split
  · simp
  · split <;> simp

theorem good_execRetainPeriodDue (s : State) : Canons (execRetainPeriodDue s) s := by
  unfold execRetainPeriodDue; split <;> simp

theorem good_execServiceDomainLost (s : State) : Canons (execServiceDomainLost s) s := by
  unfold execServiceDomainLost; split <;> simp

theorem good_execServiceDomainReturned (s : State) : Canons (execServiceDomainReturned s) s := by
  unfold execServiceDomainReturned
  dsimp only
  split
  · simp
  · split <;> simp

@[simp] theorem good_chooseBank (s : State) : MemoriesGood (chooseBank s) ↔ MemoriesGood s := by
  simp [chooseBank]

theorem good_execRecorderClear (p : Part) (s : State) : Canons (execRecorderClear p s) s := by
  simp [execRecorderClear]

/-! Ptp -/

@[simp] theorem good_enterTime (s : State) (l : LaneId) (t : TimeState) : MemoriesGood (enterTime s l t) ↔ MemoriesGood s := by
  simp [enterTime]

@[simp] theorem good_holdLaneRate (s : State) (l : LaneId) : MemoriesGood (holdLaneRate s l) ↔ MemoriesGood s := by
  simp [holdLaneRate]

@[simp] theorem good_startServo (s : State) (l : LaneId) : MemoriesGood (startServo s l) ↔ MemoriesGood s := by
  simp [startServo]

@[simp] theorem good_enterHoldover (s : State) (l : LaneId) : MemoriesGood (enterHoldover s l) ↔ MemoriesGood s := by
  simp [enterHoldover]

@[simp] theorem good_selectMaster (s : State) (l : LaneId) : MemoriesGood (selectMaster s l) ↔ MemoriesGood s := by
  unfold selectMaster
  dsimp only
  split <;> simp

@[simp] theorem good_ptpArrives (s : State) (l : LaneId) (portB udp : Bool) (typ : Nat) (k : State → CfgRec → State)
    (hk : ∀ s y1, MemoriesGood (k s y1) ↔ MemoriesGood s) :
    MemoriesGood (ptpArrives s l portB udp typ k) ↔ MemoriesGood s := by
  unfold ptpArrives
  split
  · rfl
  · extract_lets s1; split; rename_i ok s2 hq
    have hq2 := (congrArg (fun x => MemoriesGood (Prod.snd x)) hq).symm; simp [s1] at hq2
    split
    · simp [hq2]
    · split
      · exact hq2
      · split
        · exact hq2
        · simp [hk, hq2]

@[simp] theorem good_sendPtp (s : State) (l : LaneId) (portB : Bool) (r : CfgRec) (m : PtpAsk) :
    MemoriesGood (sendPtp s l portB r m) ↔ MemoriesGood s := by
  simp [sendPtp]

theorem good_execPtpAnnounce (l : LaneId) (portB udp : Bool) (m : Announce) (s : State) : Canons (execPtpAnnounce l portB udp m s) s := by
  simp [execPtpAnnounce]

theorem good_execPtpDelayMessage (l : LaneId) (portB udp : Bool) (m : PtpDelay) (s : State) :
    Canons (execPtpDelayMessage l portB udp m s) s := by
  unfold execPtpDelayMessage
  split <;> simp

@[simp] theorem good_servoIncrement (s : State) (l : LaneId) (r : CfgRec) (off : Int) :
    MemoriesGood (servoIncrement s l r off) ↔ MemoriesGood s := by
  simp [servoIncrement]

@[simp] theorem good_servoPort (s : State) (l : LaneId) (r : CfgRec) (portB : Bool) :
    MemoriesGood (servoPort s l r portB) ↔ MemoriesGood s := by
  simp [servoPort]

@[simp] theorem good_compareOffsets (s : State) (l : LaneId) : MemoriesGood (compareOffsets s l) ↔ MemoriesGood s := by
  unfold compareOffsets
  dsimp only
  split <;> simp

@[simp] theorem good_timeSync (s : State) (l : LaneId) (r : CfgRec) (off : Int) : MemoriesGood (timeSync s l r off) ↔ MemoriesGood s := by
  unfold timeSync
  dsimp only
  split <;> simp

theorem good_execPtpSync (l : LaneId) (portB udp : Bool) (identity domain : Nat) (offsetNs : Int) (s : State) :
    Canons (execPtpSync l portB udp identity domain offsetNs s) s := by
  simp [execPtpSync]

theorem good_execAnnounceTimeout (l : LaneId) (s : State) : Canons (execAnnounceTimeout l s) s := by
  unfold execAnnounceTimeout; split <;> simp

theorem good_execHoldoverExpired (l : LaneId) (s : State) : Canons (execHoldoverExpired l s) s := by
  simp [execHoldoverExpired]

theorem good_execTimeAnchorDue (s : State) : Canons (execTimeAnchorDue s) s := by
  unfold execTimeAnchorDue; split <;> simp

@[simp] theorem good_takeStep (s : State) (l : LaneId) : MemoriesGood (takeStep s l).2 ↔ MemoriesGood s := by
  unfold takeStep
  dsimp only
  repeat' split
  all_goals simp

@[simp] theorem good_dropStep (s : State) (l : LaneId) : MemoriesGood (dropStep s l) ↔ MemoriesGood s := by
  simp [dropStep]

@[simp] theorem good_lanesDiffer (s : State) (skewNs : Int) : MemoriesGood (lanesDiffer s skewNs) ↔ MemoriesGood s := by
  unfold lanesDiffer
  split <;> simp

@[simp] theorem good_rcTime (s : State) (l : LaneId) (alone : Bool) : MemoriesGood (rcTime s l alone) ↔ MemoriesGood s := by
  simp [rcTime]

@[simp] theorem good_tcxoTime (s : State) (l : LaneId) : MemoriesGood (tcxoTime s l) ↔ MemoriesGood s := by
  simp [tcxoTime]

/-! Hooks -/

@[simp] theorem good_hookStandby (s : State) (l : LaneId) : MemoriesGood (hookStandby s l) ↔ MemoriesGood s := by
  simp [hookStandby]

@[simp] theorem good_takeoverTasks (s : State) (l : LaneId) : MemoriesGood (takeoverTasks s l) ↔ MemoriesGood s := by
  simp [takeoverTasks]

@[simp] theorem good_hookTakeover (s : State) (l : LaneId) : MemoriesGood (hookTakeover s l) ↔ MemoriesGood s := by
  simp [hookTakeover]

@[simp] theorem good_hookOffline (s : State) (l : LaneId) : MemoriesGood (hookOffline s l) ↔ MemoriesGood s := by
  simp [hookOffline]

@[simp] theorem good_hookTcxoReturn (s : State) (l : LaneId) : MemoriesGood (hookTcxoReturn s l) ↔ MemoriesGood s := by
  simp [hookTcxoReturn]

@[simp] theorem good_hookRcSwitch (s : State) (l : LaneId) (alone : Bool) : MemoriesGood (hookRcSwitch s l alone) ↔ MemoriesGood s := by
  simp [hookRcSwitch]

end Sys2Proof.Machine
end

section
/-! The memories under roles, the output token, heartbeats and the change of ends (10, 17). -/

namespace Sys2Proof.Machine

/-! Points -/

@[simp] theorem good_setTarget (s : State) (l : LaneId) (p : Nat) : MemoriesGood (setTarget s l p) ↔ MemoriesGood s := by
  simp [setTarget]

@[simp] theorem good_setRise (b : Bool) (s : State) : MemoriesGood (setRise b s) ↔ MemoriesGood s := by
  simp [setRise]

@[simp] theorem good_laneClockEvent (s : State) (l : LaneId) (base code : Nat) (pay : List Byte := []) :
    MemoriesGood (laneClockEvent s l base code pay) ↔ MemoriesGood s := by
  simp [laneClockEvent]

@[simp] theorem good_requestGate (s : State) (l : LaneId) (b : GateBlock) : MemoriesGood (requestGate s l b) ↔ MemoriesGood s := by
  simp [requestGate]

@[simp] theorem good_requestGates (s : State) (l : LaneId) (bs : List GateBlock) :
    MemoriesGood (requestGates s l bs) ↔ MemoriesGood s := by
  simp [requestGates]

/-! Roles -/

@[simp] theorem good_redEvent (s : State) (l : LaneId) (src code : Nat) (pay : List Byte := []) :
    MemoriesGood (redEvent s l src code pay) ↔ MemoriesGood s := by
  simp [redEvent]

@[simp] theorem good_noteRole (s : State) (l : LaneId) (r : Role) : MemoriesGood (noteRole s l r) ↔ MemoriesGood s := by
  simp [noteRole]

@[simp] theorem good_partnerGone (s : State) (l : LaneId) : MemoriesGood (partnerGone s l) ↔ MemoriesGood s := by
  simp [partnerGone]

@[simp] theorem good_goOffline (s : State) (l : LaneId) (c : OffCause) : MemoriesGood (goOffline s l c) ↔ MemoriesGood s := by
  simp [goOffline]

theorem laneStops_good {s : State} (h : MemoriesGood s) (l : LaneId) (ph : LanePhase) : MemoriesGood (laneStops s l ph) := by
  unfold laneStops
  exact (good_hookOffline ..).mpr (h.updLane l fun v => ⟨v.img, v.frozen, v.tmpl, nofun⟩)

@[simp] theorem good_becomeSolo (s : State) (l : LaneId) : MemoriesGood (becomeSolo s l) ↔ MemoriesGood s := by
  simp [becomeSolo]

/-! Tokens -/

@[simp] theorem good_grantTo (s : State) (l : LaneId) : MemoriesGood (grantTo s l) ↔ MemoriesGood s := by
  simp [grantTo]

@[simp] theorem good_refereeAnswer (s : State) (l : LaneId) : MemoriesGood (refereeAnswer s l) ↔ MemoriesGood s := by
  unfold refereeAnswer
  dsimp only
  split
  · simp
  · split <;> simp

@[simp] theorem good_askToken (s : State) (l : LaneId) (w : TokWhy) : MemoriesGood (askToken s l w) ↔ MemoriesGood s := by
  simp [askToken]

theorem good_execTokenRequest (l : LaneId) (s : State) : Canons (execTokenRequest l s) s := by
  simp [execTokenRequest]

theorem good_execTokenRequestRetry (l : LaneId) (s : State) : Canons (execTokenRequestRetry l s) s := by
  simp [execTokenRequestRetry]

@[simp] theorem good_regainToken (s : State) (l : LaneId) : MemoriesGood (regainToken s l) ↔ MemoriesGood s := by
  simp [regainToken]

theorem good_execGrantRecord (i : Isl) (l : LaneId) (record : List Byte) (s : State) : Canons (execGrantRecord i l record s) s := by
  unfold execGrantRecord
  split <;> simp

theorem good_execReleaseWord (i : Isl) (l : LaneId) (s : State) : Canons (execReleaseWord i l s) s := by
  unfold execReleaseWord
  dsimp only
  repeat' split
  all_goals simp

@[simp] theorem good_tokenEdge (s : State) (i : Nat) : MemoriesGood (tokenEdge s i) ↔ MemoriesGood s := by
  unfold tokenEdge
  extract_lets t x0 now dead x1 x2 x3 x4 x5 s1
  have h2 : x2.mems = x0.mems := by simp [x2, x1]
  have h3 : x3.mems = x0.mems := by rw [← h2]; simp [x3]
  have h5 : x5.mems = x0.mems := by
    rw [← h3]
    simp only [x5]
    repeat' split
    all_goals rfl
  have h : MemoriesGood s1 ↔ MemoriesGood s := good_updIsl_at s i (fun _ => x5) h5
  split
  · split
    · rw [good_grantTo, h]
    · exact h
  · exact h

/-! Redundancy -/

@[simp] theorem good_sendHeartbeat (s : State) (l : LaneId) : MemoriesGood (sendHeartbeat s l) ↔ MemoriesGood s := by
  simp [sendHeartbeat]

@[simp] theorem good_judgeHeartbeat (s : State) (l : LaneId) : MemoriesGood (judgeHeartbeat s l) ↔ MemoriesGood s := by
  unfold judgeHeartbeat
  extract_lets
  rw [good_updLane]
  exact fun _ => rfl

theorem good_execPartnerFailureDeclared (l : LaneId) (s : State) : Canons (execPartnerFailureDeclared l s) s := by
  unfold execPartnerFailureDeclared
  dsimp only
  repeat' split
  all_goals simp

theorem good_execPathFault (l : LaneId) (kind : PathFaultKind) (s : State) : Canons (execPathFault l kind s) s := by
  unfold execPathFault
  repeat' split
  all_goals simp

theorem good_execBeaconExtinguish (l : LaneId) (s : State) : Canons (execBeaconExtinguish l s) s := by
  simp [execBeaconExtinguish]

theorem good_execSnapshotPiece (l : LaneId) (tick : Nat) (piece : SnapPiece) (s : State) :
    Canons (execSnapshotPiece l tick piece s) s := by
  simp [execSnapshotPiece]

theorem writeSnapshot_good {s : State} (h : MemoriesGood s) (l : LaneId) (d : SnapData) : MemoriesGood (writeSnapshot s l d) :=
  h.updLane l fun v => ⟨Mem.wf_foldl _ v.img fun m _ hm => Mem.wf_writeN m _ _ hm, v.frozen, v.tmpl, v.arrived⟩

@[simp] theorem good_discardSnapshot (s : State) (l : LaneId) (tick : Nat) :
    MemoriesGood (discardSnapshot s l tick) ↔ MemoriesGood s := by
  simp [discardSnapshot]

theorem applySnapshot_good {s : State} (h : MemoriesGood s) (l : LaneId) : MemoriesGood (applySnapshot s l) := by
  unfold applySnapshot
  split
  · exact .ite (writeSnapshot_good h l _) h
  · exact h

theorem judgeSnapshot_good {s : State} (h : MemoriesGood s) (l : LaneId) : MemoriesGood (judgeSnapshot s l) := by
  have h1 := applySnapshot_good h l
  unfold judgeSnapshot
  extract_lets s1
  split
  · exact (good_discardSnapshot ..).mpr h1
  · split
    · exact (good_discardSnapshot ..).mpr h1
    · exact h1

@[simp] theorem good_startEnds (s : State) (c : EndsCause) (off : Option OffCause) :
    MemoriesGood (startEnds s c off) ↔ MemoriesGood s := by
  simp [startEnds]

@[simp] theorem good_immediateEnds (s : State) (c : EndsCause) (off : Option OffCause) :
    MemoriesGood (immediateEnds s c off) ↔ MemoriesGood s := by
  simp [immediateEnds]

@[simp] theorem good_retryEnds (s : State) : MemoriesGood (retryEnds s) ↔ MemoriesGood s := by
  unfold retryEnds; split <;> simp

theorem good_execEndsIntervalDue (s : State) : Canons (execEndsIntervalDue s) s := by
  unfold execEndsIntervalDue
  split
  · simp
  · split <;> simp

theorem good_execEndsDeferredStart (s : State) : Canons (execEndsDeferredStart s) s := by
  simp [execEndsDeferredStart]

theorem good_execEndsChange (p : Part) (s : State) : Canons (execEndsChange p s) s := by
  unfold execEndsChange
  apply good_serve; intro ws; apply good_needOperator
  split
  · split <;> simp
  · split <;> simp

@[simp] theorem good_confirmEnds (s : State) (sw : Nat) : MemoriesGood (confirmEnds s sw) ↔ MemoriesGood s := by
  simp [confirmEnds]

@[simp] theorem good_dropEnds (s : State) : MemoriesGood (dropEnds s) ↔ MemoriesGood s := by
  simp [dropEnds]

@[simp] theorem good_yieldEnds (s : State) (l : LaneId) (back : Bool) : MemoriesGood (yieldEnds s l back) ↔ MemoriesGood s := by
  simp [yieldEnds]

@[simp] theorem good_takeEnds (s : State) (o : LaneId) : MemoriesGood (takeEnds s o) ↔ MemoriesGood s := by
  simp [takeEnds]

theorem good_execEndsSwapEdge (s : State) : Canons (execEndsSwapEdge s) s := by
  unfold execEndsSwapEdge
  dsimp only
  repeat' split
  all_goals simp

theorem good_execSelfCheckFail (s : State) : Canons (execSelfCheckFail s) s := by
  simp [execSelfCheckFail]

@[simp] theorem good_parkLane (s : State) (l : LaneId) : MemoriesGood (parkLane s l) ↔ MemoriesGood s := by
  simp [parkLane]

@[simp] theorem good_unparkLane (s : State) (l : LaneId) : MemoriesGood (unparkLane s l) ↔ MemoriesGood s := by
  simp [unparkLane]

@[simp] theorem good_versionsDiffer (s : State) (l : LaneId) (partner : Nat) :
    MemoriesGood (versionsDiffer s l partner) ↔ MemoriesGood s := by
  simp [versionsDiffer]

theorem execHeartbeatWord_good (l : LaneId) (w : HbWord) (crcOk : Bool) {s : State} (h : MemoriesGood s) :
    OutcomeGood (execHeartbeatWord l w crcOk s) := by
  unfold execHeartbeatWord
  extract_lets v s1 s2 s3 s4
  refine .ite h ?_
  have h1 : MemoriesGood s1 := h.keepLane l fun _ => rfl
  have h2 : MemoriesGood s2 := by
    refine .ite (applySnapshot_good ?_ l) h1
    exact h1.keepLane l fun _ => rfl
  have h3 : MemoriesGood s3 := .ite ((good_requestGates ..).mpr h2) h2
  have h4 : MemoriesGood s4 := by
    simp only [s4]
    split
    · exact .ite ((good_confirmEnds ..).mpr h3) h3
    · exact h3
  clear_value s4
  have hrole (f : Lane → Lane) (r : Role) (hf : ∀ v, (f v).mems = v.mems) : MemoriesGood (noteRole (s4.updLane l f) l r) :=
    (good_noteRole ..).mpr (h4.keepLane l hf)
  refine .ite (.next ?_) (.ite (.next (h4.keepLane l fun _ => rfl)) (.ite (.next ((good_versionsDiffer ..).mpr h4))
    (.ite (.next ?_) (.ite (.next ?_) (.next h4)))))
  · exact .ite h4 ((good_unparkLane ..).mpr h4)
  · refine .ite ?_ (.ite ((good_askToken ..).mpr h4) h4)
    exact hrole _ _ fun _ => rfl
  · exact hrole _ _ fun _ => rfl

/-! StationState -/

@[simp] theorem good_dropBatches (s : State) (cause : Nat) : MemoriesGood (dropBatches s cause) ↔ MemoriesGood s := by
  simp [dropBatches]

@[simp] theorem good_enterStopped (s : State) (cause arg : Nat) : MemoriesGood (enterStopped s cause arg) ↔ MemoriesGood s := by
  simp [enterStopped]

end Sys2Proof.Machine
end

section
/-! The memories under the block engine: its tasks, its stores, its bundles (06, 07). -/

namespace Sys2Proof.Machine

/-! Tasks -/

@[simp] theorem good_updBe (s : State) (l : LaneId) (f : BlockEngine → BlockEngine) : MemoriesGood (updBe s l f) ↔ MemoriesGood s := by
  simp [updBe]

@[simp] theorem good_updCtx (s : State) (l : LaneId) (n : Nat) (f : Ctx → Ctx) : MemoriesGood (updCtx s l n f) ↔ MemoriesGood s := by
  simp [updCtx]

@[simp] theorem good_dispatchTask (s : State) (l : LaneId) : MemoriesGood (dispatchTask s l) ↔ MemoriesGood s := by
  unfold dispatchTask
  split
  · simp
  · split <;> simp

@[simp] theorem good_releaseTasks (s : State) (l : LaneId) (mx : Bool) : MemoriesGood (releaseTasks s l mx) ↔ MemoriesGood s := by
  simp [releaseTasks]

@[simp] theorem good_startTasks (s : State) (l : LaneId) : MemoriesGood (startTasks s l) ↔ MemoriesGood s := by
  simp [startTasks]

@[simp] theorem good_stopTasks (s : State) (l : LaneId) : MemoriesGood (stopTasks s l) ↔ MemoriesGood s := by
  simp [stopTasks]

@[simp] theorem good_keepLevels (s : State) (l : LaneId) : MemoriesGood (keepLevels s l) ↔ MemoriesGood s := by
  simp [keepLevels]

@[simp] theorem good_taskEvent (s : State) (l : LaneId) (n code : Nat) (pay : List Byte) (limited : Bool) :
    MemoriesGood (taskEvent s l n code pay limited) ↔ MemoriesGood s := by
  simp [taskEvent]

@[simp] theorem good_abandonPeriod (s : State) (l : LaneId) (t : TaskDef) (cause : Nat) (p : TaskPhase) :
    MemoriesGood (abandonPeriod s l t cause p) ↔ MemoriesGood s := by
  simp [abandonPeriod]

@[simp] theorem good_haltTask (s : State) (t : TaskDef) (cause : Nat) : MemoriesGood (haltTask s t cause) ↔ MemoriesGood s := by
  simp [haltTask]

@[simp] theorem good_roleChangeAction (s : State) (l : LaneId) (t : TaskDef) :
    MemoriesGood (roleChangeAction s l t) ↔ MemoriesGood s := by
  simp [roleChangeAction]

@[simp] theorem good_decideRoleAsks (s : State) : MemoriesGood (decideRoleAsks s) ↔ MemoriesGood s := by
  unfold decideRoleAsks; extract_lets ns s1; have h1 : MemoriesGood s1 ↔ MemoriesGood s := by simp [s1]
  split
  · exact h1
  · split
    · exact h1
    · rw [good_foldl]; · exact h1
      intro s n; split
      · rfl
      · simp

@[simp] theorem good_toleranceExceeded (s : State) (l : LaneId) (t : TaskDef) (cause : Nat) :
    MemoriesGood (toleranceExceeded s l t cause) ↔ MemoriesGood s := by
  unfold toleranceExceeded
  split
  · split <;> simp
  · simp

@[simp] theorem good_failPeriod (s : State) (l : LaneId) (n cause : Nat) (pay : List Byte) :
    MemoriesGood (failPeriod s l n cause pay) ↔ MemoriesGood s := by
  unfold failPeriod; split <;> simp

theorem good_execShotClockExpired (l : LaneId) (s : State) : Canons (execShotClockExpired l s) s := by
  unfold execShotClockExpired
  split
  · simp
  · split <;> simp

@[simp] theorem good_closeWindow (s : State) (l : LaneId) : MemoriesGood (closeWindow s l) ↔ MemoriesGood s := by
  unfold closeWindow
  extract_lets close s1
  have hc (s n) : MemoriesGood (close s n) ↔ MemoriesGood s := by
    simp only [close]
    split <;> simp
  have h1 : MemoriesGood s1 ↔ MemoriesGood s := (good_updBe ..).trans (good_foldl _ _ _ hc)
  split
  · rfl
  · split
    · refine (good_updSt _ _ ?_).trans h1
      exact fun _ => rfl
    · exact h1

theorem good_execBeWindowClose (l : LaneId) (s : State) : Canons (execBeWindowClose l s) s := by
  simp [execBeWindowClose]

@[simp] theorem good_memEvent (s : State) (l : LaneId) (x : Nat) : MemoriesGood (memEvent s l x) ↔ MemoriesGood s := by
  simp [memEvent]

theorem restoreWord_good {s : State} (h : MemoriesGood s) (l : LaneId) (a : Nat) : MemoriesGood (restoreWord s l a) := by
  unfold restoreWord
  split
  · split
    · exact h
    · exact (good_noteUnnamed ..).mpr (h.updLane l fun v => ⟨Mem.wf_writeN _ _ _ v.img, v.frozen, v.tmpl, v.arrived⟩)
  · exact h.updLane l fun v => ⟨Mem.wf_writeN _ _ _ v.img, v.frozen, v.tmpl, v.arrived⟩

theorem restoreSite_good {s : State} (h : MemoriesGood s) (l : LaneId) (site : EccSite) :
    MemoriesGood (match site with
      | .image a => restoreWord s l a
      | .code o => updBe s l fun b => { b with poisonedCode := b.poisonedCode.filter fun x => x != o / 8 * 8 }) := by
  cases site
  · exact restoreWord_good h l _
  · exact (good_updBe ..).mpr h

theorem memoryByRole_good {s : State} (h : MemoriesGood s) (l : LaneId) (site : EccSite) : MemoriesGood (memoryByRole s l site) := by
  unfold memoryByRole
  split
  · exact (good_goOffline ..).mpr h
  · exact .ite ((good_immediateEnds ..).mpr h) (restoreSite_good h l site)
  · exact restoreSite_good h l site
  · exact h

@[simp] theorem good_poison (s : State) (l : LaneId) (site : EccSite) : MemoriesGood (poison s l site) ↔ MemoriesGood s := by
  simp [poison]

theorem taskMemoryError_good {s : State} (h : MemoriesGood s) (l : LaneId) (n : Nat) (site : EccSite) :
    MemoriesGood (taskMemoryError s l n site) :=
  memoryByRole_good (by simpa using h) l site

theorem execUncorrectableError_good (l : LaneId) (site : EccSite) {s : State} (h : MemoriesGood s) :
    OutcomeGood (execUncorrectableError l site s) := by
  unfold execUncorrectableError
  refine .ite h ?_
  split
  · exact taskMemoryError_good h l _ site
  · exact memoryByRole_good (by simpa using h) l site

@[simp] theorem good_noteCorrection (s : State) (l : LaneId) : MemoriesGood (noteCorrection s l) ↔ MemoriesGood s := by
  simp [noteCorrection]

theorem execScrubberRead_good (l : LaneId) (addr : Nat) (r : ScrubResult) {s : State} (h : MemoriesGood s) :
    OutcomeGood (execScrubberRead l addr r s) := by
  unfold execScrubberRead
  refine .ite h ?_
  split
  · exact h
  · exact memoryByRole_good (by simpa using h) l _
  · exact (good_noteCorrection ..).mpr h

/-! BlockMem -/

@[simp] theorem good_endPeriod (s : State) (l : LaneId) (n : Nat) (c : Ctx) (t : TaskDef) :
    MemoriesGood (endPeriod s l n c t) ↔ MemoriesGood s := by
  simp [endPeriod]

@[simp] theorem good_spendCycles (s : State) (l : LaneId) (n k : Nat) (t : TaskDef) :
    MemoriesGood (spendCycles s l n k t) ↔ MemoriesGood s := by
  simp [spendCycles]

/-- The image that slot A leaves, if it leaves one, is canonical. -/
def BeRes.Canon : BeRes → Prop
  | .go _ m | .done _ m | .failImg _ m => m.wf
  | .fixed _ | .fail _ _ => True

@[simp] theorem BeRes.canon_go (c : Ctx) (m : Mem) : (BeRes.go c m).Canon ↔ m.wf := Iff.rfl
@[simp] theorem BeRes.canon_done (c : Ctx) (m : Mem) : (BeRes.done c m).Canon ↔ m.wf := Iff.rfl
@[simp] theorem BeRes.canon_failImg (cause : Nat) (m : Mem) : (BeRes.failImg cause m).Canon ↔ m.wf := Iff.rfl
@[simp] theorem BeRes.canon_fixed (c : Ctx) : (BeRes.fixed c).Canon ↔ True := Iff.rfl
@[simp] theorem BeRes.canon_fail (cause word : Nat) : (BeRes.fail cause word).Canon ↔ True := Iff.rfl

theorem MemoriesGood.setImg {s : State} (h : MemoriesGood s) (l : LaneId) {m : Mem} (hm : m.wf) :
    MemoriesGood (s.updLane l fun v => { v with img := m }) :=
  h.updLane l fun v => ⟨hm, v.frozen, v.tmpl, v.arrived⟩

theorem beBundle_good (l : LaneId) (slotA : Slot) (b : Word) (cost : BeIn → Nat) {sa : BeIn → BeRes} {s : State} (h : MemoriesGood s)
    (hsa : ∀ x, x.img.wf → (sa x).Canon) : MemoriesGood (beBundle l slotA b cost sa s) := by
  unfold beBundle
  split
  · split
    · exact h
    · next t _ =>
      extract_lets c shot win stall x0 k part k' s1
      refine .ite h (.ite (taskMemoryError_good h ..) ?_)
      split
      · exact (good_failPeriod ..).mpr h
      · refine .ite ((good_failPeriod ..).mpr h) (.ite ?_ (.ite ((good_spendCycles ..).mpr h) ?_))
        · exact (good_failPeriod ..).mpr ((good_spendCycles ..).mpr h)
        · extract_lets c0 c1 x
          have h1 : MemoriesGood s1 := (good_updBe ..).mpr h
          have hk (m) : MemoriesGood (spendCycles s l m k' t) := (good_spendCycles ..).mpr h
          have hx : (sa x).Canon := hsa x (h.laneCanon l).img
          clear_value x s1 k'
          split
          next e =>
            rw [e] at hx
            exact (good_updCtx ..).mpr (h1.setImg l hx)
          · exact (good_noteCorrection ..).mpr ((good_updCtx ..).mpr h1)
          next e =>
            rw [e] at hx
            exact (good_endPeriod ..).mpr ((good_updBe ..).mpr (h1.setImg l hx))
          · exact taskMemoryError_good (hk _) ..
          · exact (good_failPeriod ..).mpr (hk _)
          next e =>
            rw [e] at hx
            exact (good_failPeriod ..).mpr ((hk _).setImg l hx)
  · exact h

theorem beAlu_good (l : LaneId) (o : AluOp) (t : Ty) (d s1 : VReg) (s2 : Fin 32) (imm : BitVec 11) (b : Word) {s : State}
    (h : MemoriesGood s) : MemoriesGood (beAlu l o t d s1 s2 imm b s) :=
  beBundle_good _ _ _ _ h fun x hx => by
    split
    · trivial
    · split
      · exact hx
      · trivial

/-! BlockEngine -/

theorem execBeNop_good (l : LaneId) (b : Word) {s : State} (h : MemoriesGood s) :
    OutcomeGood (execBeNop l b s) :=
  beBundle_good _ _ _ _ h fun x hx => hx

theorem execBeLd_good (l : LaneId) (ty : Ty) (v : VReg) (a : AReg) (disp : BitVec 13) (ecc : Bool) (b : Word) {s : State} (h : MemoriesGood s) :
    OutcomeGood (execBeLd l ty v a disp ecc b s) :=
  beBundle_good _ _ _ _ h fun x hx => by
    dsimp only
    repeat' split
    all_goals simp <;> exact hx

theorem execBeSt_good (l : LaneId) (ty : Ty) (v : VReg) (a : AReg) (disp : BitVec 13) (b : Word) {s : State} (h : MemoriesGood s) :
    OutcomeGood (execBeSt l ty v a disp b s) :=
  beBundle_good _ _ _ _ h fun x hx => by
    dsimp only
    repeat' split
    all_goals simp <;> exact hx

theorem execBeLda_good (l : LaneId) (d a : AReg) (disp : BitVec 13) (b : Word) {s : State} (h : MemoriesGood s) :
    OutcomeGood (execBeLda l d a disp b s) :=
  beBundle_good _ _ _ _ h fun x hx => by
    dsimp only
    repeat' split
    all_goals simp <;> exact hx

theorem execBeIdxc_good (l : LaneId) (scale : Fin 4) (d a : AReg) (v : VReg) (boundM1 : BitVec 10) (b : Word) {s : State} (h : MemoriesGood s) :
    OutcomeGood (execBeIdxc l scale d a v boundM1 b s) :=
  beBundle_good _ _ _ _ h fun x hx => by
    dsimp only
    repeat' split
    all_goals simp <;> exact hx

theorem execBeItpl_good (l : LaneId) (a : AReg) (count : BitVec 13) (b : Word) {s : State} (h : MemoriesGood s) :
    OutcomeGood (execBeItpl l a count b s) :=
  beBundle_good _ _ _ _ h fun x hx => by
    dsimp only
    repeat' split
    all_goals simp <;> exact Mem.wf_writeN _ _ _ hx

theorem execBeBra_good (l : LaneId) (off : BitVec 16) (b : Word) {s : State} (h : MemoriesGood s) :
    OutcomeGood (execBeBra l off b s) :=
  beBundle_good _ _ _ _ h fun x hx => by
    repeat' split
    all_goals simp <;> exact hx

theorem execBeBrz_good (l : LaneId) (v : VReg) (off : BitVec 16) (b : Word) {s : State} (h : MemoriesGood s) :
    OutcomeGood (execBeBrz l v off b s) :=
  beBundle_good _ _ _ _ h fun x hx => by
    repeat' split
    all_goals simp <;> exact hx

theorem execBeBrnz_good (l : LaneId) (v : VReg) (off : BitVec 16) (b : Word) {s : State} (h : MemoriesGood s) :
    OutcomeGood (execBeBrnz l v off b s) :=
  beBundle_good _ _ _ _ h fun x hx => by
    repeat' split
    all_goals simp <;> exact hx

theorem execBeLoop_good (l : LaneId) (v : VReg) (bound : BitVec 16) (b : Word) {s : State} (h : MemoriesGood s) :
    OutcomeGood (execBeLoop l v bound b s) :=
  beBundle_good _ _ _ _ h fun x hx => by
    dsimp only
    repeat' split
    all_goals simp <;> exact hx

theorem execBeEndl_good (l : LaneId) (b : Word) {s : State} (h : MemoriesGood s) :
    OutcomeGood (execBeEndl l b s) :=
  beBundle_good _ _ _ _ h fun x hx => by
    repeat' split
    all_goals simp <;> exact hx

theorem execBeCallb_good (l : LaneId) (a : AReg) (typeNo : BitVec 12) (b : Word) {s : State} (h : MemoriesGood s) :
    OutcomeGood (execBeCallb l a typeNo b s) :=
  beBundle_good _ _ _ _ h fun x hx => by
    repeat' split
    all_goals simp <;> exact hx

@[simp] theorem good_noteCommit (l : LaneId) (before after : State) : MemoriesGood (noteCommit l before after) ↔ MemoriesGood after := by
  unfold noteCommit
  split
  · split <;> simp
  · simp

theorem commitBuf_wf {m : Mem} (h : m.wf) (t : Tab Byte) : (commitBuf m t).wf :=
  Mem.wf_foldl t h fun m e hm => by
    split
    · exact hm
    · exact Mem.wf_write _ _ _ hm

theorem execBeRetb_good (l : LaneId) (b : Word) {s : State} (h : MemoriesGood s) : OutcomeGood (execBeRetb l b s) := by
  refine (good_noteCommit ..).mpr (beBundle_good _ _ _ _ h fun x hx => ?_)
  split
  · trivial
  · exact commitBuf_wf hx _

theorem execBeEnd_good (l : LaneId) (b : Word) {s : State} (h : MemoriesGood s) :
    OutcomeGood (execBeEnd l b s) :=
  beBundle_good _ _ _ _ h fun x hx => by
    dsimp only
    repeat' split
    all_goals simp
    · exact hx
    · exact commitBuf_wf hx _

@[simp] theorem good_illegalBundle (s : State) (l : LaneId) : MemoriesGood (illegalBundle s l) ↔ MemoriesGood s := by
  unfold illegalBundle; split <;> simp

end Sys2Proof.Machine
end

section
/-! The memories under the mailboxes, patches, chains, clocks, loops and MX-1 (03, 08, 09, 14, 17). -/

namespace Sys2Proof.Machine

/-! Mailbox -/

theorem endGrace_good {s : State} (h : MemoriesGood s) (p : Nat) : MemoriesGood (endGrace s p) := by
  unfold endGrace
  exact (good_updPart ..).mpr (dropHoldings_good h p)

@[simp] theorem good_attachFinal (s : State) (p : Nat) (ws : List Word) (resume : Bool) :
    MemoriesGood (attachFinal s p ws resume) ↔ MemoriesGood s := by
  simp [attachFinal]

theorem execAttach_good (p : Part) {s : State} (h : MemoriesGood s) : OutcomeGood (execAttach p s) := by
  unfold execAttach
  refine .next (serve_good h _ _ fun ws => ?_)
  extract_lets q resume s1
  split
  · exact answer_good h ..
  · refine .ite (answer_good h ..) (.ite (answer_good h ..) (.ite (answer_good h ..) ?_))
    have h1 : MemoriesGood s1 := .ite (endGrace_good h p) h
    exact .ite ((good_attachFinal ..).mpr h1) (answer_good ((good_updPart ..).mpr h1) ..)

@[simp] theorem good_sessionEvent (s : State) (src code p : Nat) : MemoriesGood (sessionEvent s src code p) ↔ MemoriesGood s := by
  simp [sessionEvent]

@[simp] theorem good_sessionPhase1 (s : State) (p : Nat) : MemoriesGood (sessionPhase1 s p) ↔ MemoriesGood s := by
  unfold sessionPhase1; split <;> simp

@[simp] theorem good_sessionPhase2 (s : State) (p : Nat) (ws : List Word) : MemoriesGood (sessionPhase2 s p ws) ↔ MemoriesGood s := by
  simp [sessionPhase2]

theorem good_execSessionOpen (p : Part) (s : State) : Canons (execSessionOpen p s) s := by
  simp [execSessionOpen]

@[simp] theorem good_closeSession (s : State) (p : Nat) : MemoriesGood (closeSession s p) ↔ MemoriesGood s := by
  simp [closeSession]

theorem good_execSessionClose (p : Part) (s : State) : Canons (execSessionClose p s) s := by
  simp [execSessionClose]

theorem good_execSessionIdleTimeout (p : Part) (s : State) : Canons (execSessionIdleTimeout p s) s := by
  simp [execSessionIdleTimeout]

theorem good_execAuthLockoutEnd (s : State) : Canons (execAuthLockoutEnd s) s := by
  simp [execAuthLockoutEnd]

@[simp] theorem good_grantLock (s : State) (p : Nat) : MemoriesGood (grantLock s p) ↔ MemoriesGood s := by
  simp [grantLock]

theorem good_execLockAcquire (p : Part) (s : State) : Canons (execLockAcquire p s) s := by
  unfold execLockAcquire
  refine good_serve _ _ _ _ fun ws => ?_
  dsimp only
  repeat' split
  all_goals simp

theorem good_execLockRelease (p : Part) (s : State) : Canons (execLockRelease p s) s := by
  simp [execLockRelease]

theorem good_execEventSubscribe (p : Part) (s : State) : Canons (execEventSubscribe p s) s := by
  simp [execEventSubscribe]

theorem good_execEventRead (p : Part) (s : State) : Canons (execEventRead p s) s := by
  simp [execEventRead]

theorem execConfigBegin_good (p : Part) {s : State} (h : MemoriesGood s) : OutcomeGood (execConfigBegin p s) := by
  unfold execConfigBegin
  refine .next (serve_good h _ _ fun ws => needLock_good h _ _ ?_)
  extract_lets t n
  refine .ite (answer_good h ..) (.ite (answer_good h ..) (.ite (answer_good h ..) (answer_good ?_ ..)))
  exact h.updSt fun a => Tab.forall_set (P := fun e : StageArea => e.bytes.wf) t a Mem.wf_empty

theorem execConfigAbort_good (p : Part) {s : State} (h : MemoriesGood s) : OutcomeGood (execConfigAbort p s) := by
  unfold execConfigAbort
  refine .next (serve_good h _ _ fun ws => needLock_good h _ _ (.ite (answer_good h ..) (answer_good ?_ ..)))
  exact h.updSt fun t => Tab.forall_erase (P := fun e : StageArea => e.bytes.wf) _ t

theorem good_execHostLinkLost (p : Part) (s : State) : Canons (execHostLinkLost p s) s := by
  unfold execHostLinkLost; split <;> simp

/-! Patch -/

@[simp] theorem good_submitPatch (s : State) (p : Nat) (items : List (Nat × List Byte)) :
    MemoriesGood (submitPatch s p items) ↔ MemoriesGood s := by
  unfold submitPatch
  dsimp only
  repeat' split
  all_goals simp

theorem applyItem_good (img : List Byte) (l : LaneId) {s : State} (h : MemoriesGood s) (it : Nat × List Byte) :
    MemoriesGood (applyItem img l s it) := by
  unfold applyItem
  split
  · exact h
  · next y _ =>
    extract_lets bs s1
    have h1 : MemoriesGood s1 := .ite ((good_noteUnnamed ..).mpr h) h
    exact h1.updLane l fun v => ⟨Mem.wf_writeN _ _ _ v.img, v.frozen, Mem.wf_writeN _ _ _ v.tmpl, v.arrived⟩

theorem applyPatches_good {s : State} (h : MemoriesGood s) (l : LaneId) : MemoriesGood (applyPatches s l) := by
  unfold applyPatches
  split
  · exact h
  · exact .foldl _ h fun s b h => .foldl _ h fun s it h => applyItem_good _ l h it

@[simp] theorem good_redueBatches (was : Nat) (s : State) : MemoriesGood (redueBatches was s) ↔ MemoriesGood s := by
  simp [redueBatches]

@[simp] theorem good_batchEdge (was : Nat) (s : State) : MemoriesGood (batchEdge was s) ↔ MemoriesGood s := by
  simp [batchEdge]

@[simp] theorem good_bankAfterPatch (s : State) (l : LaneId) : MemoriesGood (bankAfterPatch s l) ↔ MemoriesGood s := by
  unfold bankAfterPatch; split <;> simp

/-! Bulk -/

@[simp] theorem good_endXfer (s : State) (p : Nat) (urg : Bool) (x : Xfer) : MemoriesGood (endXfer s p urg x) ↔ MemoriesGood s := by
  unfold endXfer; split <;> simp

@[simp] theorem good_sendPiece (s : State) (p : Nat) (urg : Bool) (x : Xfer) : MemoriesGood (sendPiece s p urg x) ↔ MemoriesGood s := by
  simp [sendPiece]

@[simp] theorem good_beginXfer (s : State) (p : Nat) (urg : Bool) (x : Xfer) : MemoriesGood (beginXfer s p urg x) ↔ MemoriesGood s := by
  simp [beginXfer]

theorem good_execDmaCompletionTimeout (p : Part) (urgent : Bool) (s : State) : Canons (execDmaCompletionTimeout p urgent s) s := by
  unfold execDmaCompletionTimeout
  dsimp only
  split <;> simp

theorem good_execConfigChunk (p : Part) (s : State) : Canons (execConfigChunk p s) s := by
  unfold execConfigChunk
  refine good_serve _ _ _ _ fun ws => ?_
  dsimp only
  repeat' split
  all_goals simp

theorem good_execValuePatch (p : Part) (s : State) : Canons (execValuePatch p s) s := by
  unfold execValuePatch
  refine good_serve _ _ _ _ fun ws => ?_
  dsimp only
  repeat' split
  all_goals simp

theorem good_execImageRead (p : Part) (s : State) : Canons (execImageRead p s) s := by
  unfold execImageRead
  refine good_serve _ _ _ _ fun ws => ?_
  dsimp only
  repeat' split
  all_goals simp

theorem good_execRecorderRead (p : Part) (s : State) : Canons (execRecorderRead p s) s := by
  unfold execRecorderRead
  refine good_serve _ _ _ _ fun ws => ?_
  dsimp only
  repeat' split
  all_goals simp

theorem good_execFlowStats (p : Part) (s : State) : Canons (execFlowStats p s) s := by
  unfold execFlowStats
  refine good_serve _ _ _ _ fun ws => ?_
  dsimp only
  repeat' split
  all_goals simp

theorem good_execRetainedRead (p : Part) (s : State) : Canons (execRetainedRead p s) s := by
  unfold execRetainedRead
  refine good_serve _ _ _ _ fun ws => ?_
  dsimp only
  repeat' split
  all_goals simp

/-! Chains -/

@[simp] theorem good_chainEvents (s : State) (l : LaneId) (n : Nat) (entered : List ChainPhase) (sat : Option Nat) (rej : Bool) :
    MemoriesGood (chainEvents s l n entered sat rej) ↔ MemoriesGood s := by
  unfold chainEvents
  split
  · simp
  · split <;> simp

@[simp] theorem good_chainPass (s : State) (l : LaneId) (r : CfgRec) : MemoriesGood (chainPass s l r) ↔ MemoriesGood s := by
  simp [chainPass]

@[simp] theorem good_chainPasses (s : State) (l : LaneId) : MemoriesGood (chainPasses s l) ↔ MemoriesGood s := by
  simp [chainPasses]

theorem publishChains_good {s : State} (h : MemoriesGood s) (l : LaneId) : MemoriesGood (publishChains s l) :=
  .foldl _ h fun s r h => h.updLane l fun v => by
    extract_lets c
    split
    · exact ⟨by dsimp only; exact Mem.wf_writeN _ _ _ v.img, v.frozen, v.tmpl, v.arrived⟩
    · exact v

theorem chainApply_good (old new : List CfgRec) {s : State} (h : MemoriesGood s) (l : LaneId) : MemoriesGood (chainApply old new s l) :=
  .foldl _ h fun s n h => by
    split
    · exact h.updLane l fun v => ⟨by dsimp only; exact Mem.wf_writeN _ _ _ v.img, v.frozen, v.tmpl, v.arrived⟩
    · next r _ =>
      refine .ite h ?_
      extract_lets c s1
      have h1 : MemoriesGood s1 := h.updLane l fun v => ⟨by dsimp only; exact Mem.wf_writeN _ _ _ v.img, v.frozen, v.tmpl, v.arrived⟩
      exact .ite ((good_raise ..).mpr h1) h1

@[simp] theorem good_chainRow (s : State) (l : LaneId) (n : Nat) (is : ChainSt → ChainSt → Bool) :
    MemoriesGood (chainRow s l n is) ↔ MemoriesGood s := by
  unfold chainRow; split <;> simp

theorem good_execChainStaleExpired (l : LaneId) (n : Fin 16) (s : State) : Canons (execChainStaleExpired l n s) s := by
  simp [execChainStaleExpired]

theorem good_execChainHoldExpired (l : LaneId) (n : Fin 16) (s : State) : Canons (execChainHoldExpired l n s) s := by
  simp [execChainHoldExpired]

theorem good_execChainFadeEnd (l : LaneId) (n : Fin 16) (s : State) : Canons (execChainFadeEnd l n s) s := by
  simp [execChainFadeEnd]

theorem good_execChainSettleEnd (l : LaneId) (n : Fin 16) (s : State) : Canons (execChainSettleEnd l n s) s := by
  simp [execChainSettleEnd]

/-! Clocks -/

@[simp] theorem good_clockFailEvent (s : State) (l : LaneId) (code : Nat) : MemoriesGood (clockFailEvent s l code) ↔ MemoriesGood s := by
  simp [clockFailEvent]

@[simp] theorem good_abandonEntry (s : State) (cause : Nat) : MemoriesGood (abandonEntry s cause) ↔ MemoriesGood s := by
  simp [abandonEntry]

@[simp] theorem good_actOnRc (s : State) (l : LaneId) : MemoriesGood (actOnRc s l) ↔ MemoriesGood s := by
  unfold actOnRc
  dsimp only
  split <;> simp

@[simp] theorem good_tcxoFails (s : State) (l : LaneId) : MemoriesGood (tcxoFails s l) ↔ MemoriesGood s := by
  simp [tcxoFails]

@[simp] theorem good_rcFails (s : State) (l : LaneId) : MemoriesGood (rcFails s l) ↔ MemoriesGood s := by
  simp [rcFails]

theorem good_execTcxoFailure (l : LaneId) (count : Option Nat) (s : State) : Canons (execTcxoFailure l count s) s := by
  unfold execTcxoFailure
  split <;> simp

theorem good_execRcFault (l : LaneId) (count : Nat) (partner : Option Nat) (s : State) : Canons (execRcFault l count partner s) s := by
  unfold execRcFault
  split <;> simp

theorem good_execRcQualified (l : LaneId) (count : Nat) (s : State) : Canons (execRcQualified l count s) s := by
  unfold execRcQualified
  dsimp only
  split <;> simp

theorem execRcQualTimeout_good (l : LaneId) {s : State} (h : MemoriesGood s) : OutcomeGood (execRcQualTimeout l s) :=
  .next (.ite (laneStops_good ((good_clockFailEvent ..).mpr h) l _) h)

theorem good_execTcxoReturn (l : LaneId) (s : State) : Canons (execTcxoReturn l s) s := by
  unfold execTcxoReturn
  dsimp only
  split <;> simp

theorem execLockstepMismatch_good (l : LaneId) {s : State} (h : MemoriesGood s) : OutcomeGood (execLockstepMismatch l s) :=
  .next (.ite (laneStops_good h l _) h)

theorem good_execVoltageStepDone (l : LaneId) (s : State) : Canons (execVoltageStepDone l s) s := by
  unfold execVoltageStepDone
  split <;> simp

@[simp] theorem good_freqEdge (s : State) (l : LaneId) : MemoriesGood (freqEdge s l) ↔ MemoriesGood s := by
  simp [freqEdge]

@[simp] theorem good_gateEdge (s : State) (l : LaneId) : MemoriesGood (gateEdge s l) ↔ MemoriesGood s := by
  simp [gateEdge]

@[simp] theorem good_busyEdge (s : State) : MemoriesGood (busyEdge s) ↔ MemoriesGood s := by
  simp [busyEdge]

@[simp] theorem good_refuseAbove (s : State) (l : LaneId) (b : GateBlock) : MemoriesGood (refuseAbove s l b) ↔ MemoriesGood s := by
  simp [refuseAbove]

theorem good_execGateBusyTimeout (l : LaneId) (block : GateBlock) (s : State) : Canons (execGateBusyTimeout l block s) s := by
  unfold execGateBusyTimeout
  split <;> simp

@[simp] theorem good_powerEvent (s : State) (p : PowerState) : MemoriesGood (powerEvent s p) ↔ MemoriesGood s := by
  simp [powerEvent]

@[simp] theorem good_enterShallow (hold4 : Bool) (s : State) (p : PowerState) :
    MemoriesGood (enterShallow hold4 s p) ↔ MemoriesGood s := by
  simp [enterShallow]

@[simp] theorem good_litEdge (s : State) : MemoriesGood (litEdge s) ↔ MemoriesGood s := by
  simp [litEdge]

@[simp] theorem good_parkEdge (s : State) (l : LaneId) : MemoriesGood (parkEdge s l) ↔ MemoriesGood s := by
  simp [parkEdge]

@[simp] theorem good_raisePoints (hold4 : Bool) (s : State) : MemoriesGood (raisePoints hold4 s) ↔ MemoriesGood s := by
  simp [raisePoints]

@[simp] theorem good_powerEdge (hold4 : Bool) (s : State) : MemoriesGood (powerEdge hold4 s) ↔ MemoriesGood s := by
  unfold powerEdge
  dsimp only
  repeat' split
  all_goals simp

/-! Commit -/

@[simp] theorem good_sealRecord (s : State) (code : Nat) (pay : List Byte) : MemoriesGood (sealRecord s code pay) ↔ MemoriesGood s := by
  simp [sealRecord]

@[simp] theorem good_changeLog (s : State) (target part cflags : Nat) (old new : List Byte) :
    MemoriesGood (changeLog s target part cflags old new) ↔ MemoriesGood s := by
  simp [changeLog]

@[simp] theorem good_sealEvent (s : State) (code target : Nat) : MemoriesGood (sealEvent s code target) ↔ MemoriesGood s := by
  simp [sealEvent]

@[simp] theorem good_writeSeal (s : State) (target code part cflags : Nat) (digest : List Byte) :
    MemoriesGood (writeSeal s target code part cflags digest) ↔ MemoriesGood s := by
  simp [writeSeal]

/-! Loops -/

theorem sinkGood_good {s : State} (h : MemoriesGood s) (l : LaneId) (r : CfgRec) (tripped : Bool) :
    MemoriesGood (sinkGood s l r tripped) := by
  unfold sinkGood
  split
  · exact h
  · exact h.wrImg ..

theorem writeSink_good {s : State} (h : MemoriesGood s) (l : LaneId) (r : CfgRec) (raw : Nat) (tripped : Bool) :
    MemoriesGood (writeSink s l r raw tripped) := sinkGood_good (h.wrImg ..) l r tripped

@[simp] theorem good_loopReport (s : State) (l : LaneId) (n : Nat) (e : LoopEv) : MemoriesGood (loopReport s l n e) ↔ MemoriesGood s := by
  unfold loopReport; split <;> simp

@[simp] theorem good_setLoopRec (s : State) (r : CfgRec) : MemoriesGood (setLoopRec s r) ↔ MemoriesGood s := by
  simp [setLoopRec]

@[simp] theorem good_paramRecords (s : State) (old new : CfgRec) (ws : List (Nat × Nat)) :
    MemoriesGood (paramRecords s old new ws) ↔ MemoriesGood s := by
  simp [paramRecords]

@[simp] theorem good_applyParam (s : State) (q : LoopAsk) : MemoriesGood (applyParam s q) ↔ MemoriesGood s := by
  unfold applyParam
  dsimp only
  repeat' split
  all_goals simp

@[simp] theorem good_applyParams (s : State) (n : Nat) : MemoriesGood (applyParams s n) ↔ MemoriesGood s := by
  simp [applyParams]

@[simp] theorem good_answerMode (s : State) (n : Nat) (o : LoopAsk × Bool × Nat) : MemoriesGood (answerMode s n o) ↔ MemoriesGood s := by
  simp [answerMode]

@[simp] theorem good_loopPass (s0 : State) (l : LaneId) (n : Nat) : MemoriesGood (loopPass s0 l n) ↔ MemoriesGood s0 := by
  unfold loopPass
  dsimp only
  split
  · simp
  · split <;> simp

theorem substSink_good {s : State} (h : MemoriesGood s) (l : LaneId) (r : CfgRec) : MemoriesGood (substSink s l r) := by
  unfold substSink
  split
  · exact writeSink_good h ..
  · exact sinkGood_good h ..
  · exact writeSink_good h ..

theorem publishLoop_good {s : State} (h : MemoriesGood s) (l : LaneId) (r : CfgRec) : MemoriesGood (publishLoop s l r) := by
  unfold publishLoop
  extract_lets c s1
  refine .ite h ?_
  have h1 : MemoriesGood s1 := h.updImg l fun m hm => Mem.wf_writeN _ _ _ hm
  exact .ite (substSink_good h1 ..) (.ite h1 (writeSink_good h1 ..))

theorem publishLoops_good {s : State} (h : MemoriesGood s) (l : LaneId) : MemoriesGood (publishLoops s l) :=
  .foldl _ h fun s r h => publishLoop_good h l r

@[simp] theorem good_refuseModes (s : State) : MemoriesGood (refuseModes s) ↔ MemoriesGood s := by
  simp [refuseModes]

@[simp] theorem good_loopPasses (s : State) (l : LaneId) (late : Option Nat) : MemoriesGood (loopPasses s l late) ↔ MemoriesGood s := by
  unfold loopPasses; split <;> simp

@[simp] theorem good_startLoop (s : State) (l : LaneId) (r : CfgRec) : MemoriesGood (startLoop s l r) ↔ MemoriesGood s := by
  simp [startLoop]

@[simp] theorem good_startLoops (s : State) (l : LaneId) : MemoriesGood (startLoops s l) ↔ MemoriesGood s := by
  simp [startLoops]

@[simp] theorem good_stopLoop (s : State) (l : LaneId) (r : CfgRec) : MemoriesGood (stopLoop s l r) ↔ MemoriesGood s := by
  simp [stopLoop]

@[simp] theorem good_stopLoops (s : State) (l : LaneId) : MemoriesGood (stopLoops s l) ↔ MemoriesGood s := by
  simp [stopLoops]

theorem loopApply_good (old new : List CfgRec) {s : State} (h : MemoriesGood s) (l : LaneId) : MemoriesGood (loopApply old new s l) :=
  .foldl _ h fun s n h => by
    split
    · exact h.updLane l fun v => ⟨by dsimp only; exact Mem.wf_writeN _ _ _ v.img, v.frozen, v.tmpl, v.arrived⟩
    · exact .ite h (h.updLane l fun v => ⟨by dsimp only; exact Mem.wf_writeN _ _ _ v.img, v.frozen, v.tmpl, v.arrived⟩)

theorem good_execLoopMode (p : Part) (s : State) : Canons (execLoopMode p s) s := by
  unfold execLoopMode
  refine good_serve _ _ _ _ fun ws => ?_
  dsimp only
  repeat' split
  all_goals simp

theorem good_execLoopParam (p : Part) (s : State) : Canons (execLoopParam p s) s := by
  unfold execLoopParam
  refine good_serve _ _ _ _ fun ws => ?_
  dsimp only
  repeat' split
  all_goals simp

@[simp] theorem good_loopRow (s : State) (l : LaneId) (n cause : Nat) : MemoriesGood (loopRow s l n cause) ↔ MemoriesGood s := by
  unfold loopRow; split
  · rfl
  · split
    · rfl
    · extract_lets s1 s2 c
      have h1 : MemoriesGood s1 ↔ MemoriesGood s := by
        simp only [s1]; split
        · cases State.cfgRec s 0x0901 _ <;> simp
        · rfl
      split
      · simp only [s2, good_loopPass]; exact h1
      · rfl

theorem good_execLoopQbadExpired (l : LaneId) (n : Fin 128) (s : State) : Canons (execLoopQbadExpired l n s) s := by
  simp [execLoopQbadExpired]

theorem good_execLoopFeExpired (l : LaneId) (n : Fin 128) (s : State) : Canons (execLoopFeExpired l n s) s := by
  simp [execLoopFeExpired]

/-! Mx -/

@[simp] theorem good_setEnc (s : State) (n : Nat) (x : Enc) : MemoriesGood (setEnc s n x) ↔ MemoriesGood s := by
  simp [setEnc]

@[simp] theorem good_setRs (s : State) (p : Nat) (x : Rs422) : MemoriesGood (setRs s p x) ↔ MemoriesGood s := by
  simp [setRs]

theorem good_execEncoderEdge (n : Fin 8) (a b : Bool) (dt : Nat) (tooFast : Bool) (s : State) :
    Canons (execEncoderEdge n a b dt tooFast s) s := by
  unfold execEncoderEdge; split <;> simp

@[simp] theorem good_encEvent (s : State) (n code : Nat) : MemoriesGood (encEvent s n code) ↔ MemoriesGood s := by
  simp [encEvent]

@[simp] theorem good_rsEvent (s : State) (p code : Nat) : MemoriesGood (rsEvent s p code) ↔ MemoriesGood s := by
  simp [rsEvent]

theorem good_execEncoderZEdge (n : Fin 8) (s : State) : Canons (execEncoderZEdge n s) s := by
  unfold execEncoderZEdge; split <;> simp

@[simp] theorem good_encEdge (s : State) (n : Nat) (wire : Bool) : MemoriesGood (encEdge s n wire).1 ↔ MemoriesGood s := by
  unfold encEdge
  split
  · simp
  · split <;> simp

theorem execSsiFrameComplete_good (n : Fin 8) (ready : Bool) (bits : List Bool) (monoflop : Bool) {s : State} (h : MemoriesGood s) :
    OutcomeGood (execSsiFrameComplete n ready bits monoflop s) := by
  unfold execSsiFrameComplete
  refine .next ?_
  split
  · exact h
  · refine .ite h ?_
    extract_lets
    split
    next k s1 e =>
    have h1 : MemoriesGood s1 := (congrArg (fun x => MemoriesGood x.2) e).mp ((good_takeFree s).mpr h)
    extract_lets x' s2 s3
    have h2 : MemoriesGood s2 := (good_setEnc ..).mpr h1
    have h3 : MemoriesGood s3 := .ite ((good_encEvent ..).mpr h2) h2
    clear_value s3
    exact h3.mapFrame mxIsl (fun v m => m.writeN (encIn n.val) (encEntry v.mx.low 2 x' 0)) fun v m hm => Mem.wf_writeN m _ _ hm

theorem good_execRs422Sentence (port : Fin 4) (text : List Byte) (framingError : Bool) (dt : Nat) (s : State) :
    Canons (execRs422Sentence port text framingError dt s) s := by
  unfold execRs422Sentence
  dsimp only
  split <;> simp

@[simp] theorem good_rsTransmit (s : State) (p : Nat) (r : CfgRec) : MemoriesGood (rsTransmit s p r) ↔ MemoriesGood s := by
  unfold rsTransmit
  dsimp only
  split <;> simp

theorem good_execRs422TxDone (port : Fin 4) (s : State) : Canons (execRs422TxDone port s) s := by
  unfold execRs422TxDone
  dsimp only
  split
  · simp
  · split <;> simp

@[simp] theorem good_rsEdge (s : State) (p : Nat) (line : Bool) (m : Mem) : MemoriesGood (rsEdge s p line m).1 ↔ MemoriesGood s := by
  unfold rsEdge; split <;> simp

@[simp] theorem good_scEdge (s : State) (m : Mem) : MemoriesGood (scEdge s m).1 ↔ MemoriesGood s := by
  simp [scEdge]

@[simp] theorem good_mxEdge (s : State) (wire line : List Bool) (temp : Int) (m : Mem) :
    MemoriesGood (mxEdge s wire line temp m).1 ↔ MemoriesGood s := by
  simp [mxEdge]

theorem mxApply_good (old new : List CfgRec) {s : State} (h : MemoriesGood s) : MemoriesGood (mxApply old new s) := by
  unfold mxApply
  extract_lets same s1 s2
  have h1 : MemoriesGood s1 := .foldl _ h fun s n h => .ite h ((good_setEnc ..).mpr h)
  have h2 : MemoriesGood s2 := .foldl _ h1 fun s p h => by
    refine .ite h ?_
    exact ((good_setRs ..).mpr h).mapFrame mxIsl (fun _ m => m.clear (rsIn p) 0x800) fun _ m hm => Mem.wf_clear m _ _ hm
  refine .foldl _ h2 fun s p h => .ite h ?_
  exact ((good_canApplyPort ..).mpr h).mapFrame mxIsl (fun _ m => m.clear (canRxBase p) 0x1A00) fun _ m hm => Mem.wf_clear m _ _ hm

end Sys2Proof.Machine
end

section
/-! The memories under SK-1, the islands, start-up and the power states (01, 04, 15, 16, 17). -/

namespace Sys2Proof.Machine

/-! SafetyKernel -/

@[simp] theorem good_State_updPair (s : State) (p : Nat) (f : SkPair → SkPair) : MemoriesGood (State.updPair s p f) ↔ MemoriesGood s := by
  simp [State.updPair]

@[simp] theorem good_State_updOut (s : State) (o : Nat) (f : SkOut → SkOut) : MemoriesGood (State.updOut s o f) ↔ MemoriesGood s := by
  simp [State.updOut]

@[simp] theorem good_State_updConn (s : State) (c : Nat) (f : SkConn → SkConn) : MemoriesGood (State.updConn s c f) ↔ MemoriesGood s := by
  simp [State.updConn]

@[simp] theorem good_skEvent (s : State) (src code obj : Nat) (pay : List Byte := []) (limited : Bool := true) :
    MemoriesGood (skEvent s src code obj pay limited) ↔ MemoriesGood s := by
  simp [skEvent]

@[simp] theorem good_outputsOff (s : State) : MemoriesGood (outputsOff s) ↔ MemoriesGood s := by
  simp [outputsOff]

@[simp] theorem good_enterSk (s : State) (ph : SkPhase) (pay : List Byte := []) : MemoriesGood (enterSk s ph pay) ↔ MemoriesGood s := by
  simp [enterSk]

@[simp] theorem good_lockPairs (s : State) : MemoriesGood (lockPairs s) ↔ MemoriesGood s := by
  simp [lockPairs]

@[simp] theorem good_startConns (s : State) : MemoriesGood (startConns s) ↔ MemoriesGood s := by
  simp [startConns]

@[simp] theorem good_skDormant (s : State) : MemoriesGood (skDormant s) ↔ MemoriesGood s := by
  simp [skDormant]

@[simp] theorem good_skWake (s : State) : MemoriesGood (skWake s) ↔ MemoriesGood s := by
  simp [skWake]

@[simp] theorem good_proofEvent (s : State) (p code : Nat) (pay : List Byte := []) :
    MemoriesGood (proofEvent s p code pay) ↔ MemoriesGood s := by
  simp [proofEvent]

@[simp] theorem good_armProof (s : State) (p : Nat) : MemoriesGood (armProof s p) ↔ MemoriesGood s := by
  simp [armProof]

@[simp] theorem good_proofNotPassed (s : State) (p : Nat) : MemoriesGood (proofNotPassed s p) ↔ MemoriesGood s := by
  simp [proofNotPassed]

@[simp] theorem good_proofPassed (s : State) (p : Nat) : MemoriesGood (proofPassed s p) ↔ MemoriesGood s := by
  simp [proofPassed]

theorem good_execProofTestExpired (p : Fin 8) (s : State) : Canons (execProofTestExpired p s) s := by
  unfold execProofTestExpired; split <;> simp

@[simp] theorem good_proofDue (s : State) (p : Nat) : MemoriesGood (proofDue s p) ↔ MemoriesGood s := by
  unfold proofDue; split <;> simp

theorem good_execProofIntervalReached (p : Fin 8) (s : State) : Canons (execProofIntervalReached p s) s := by
  simp [execProofIntervalReached]

@[simp] theorem good_ackOutputs (s : State) : MemoriesGood (ackOutputs s) ↔ MemoriesGood s := by
  simp [ackOutputs]

@[simp] theorem good_takeLane (s : State) (rx : LaneRx) : MemoriesGood (takeLane s rx) ↔ MemoriesGood s := by
  simp [takeLane]

@[simp] theorem good_substLane (s : State) : MemoriesGood (substLane s) ↔ MemoriesGood s := by
  simp [substLane]

theorem good_execLaneWatchdogExpired (s : State) : Canons (execLaneWatchdogExpired s) s := by
  simp [execLaneWatchdogExpired]

@[simp] theorem good_laneValues (s : State) : MemoriesGood (laneValues s).2 ↔ MemoriesGood s := by
  unfold laneValues
  dsimp only
  split <;> simp

@[simp] theorem good_produce (s : State) (r : CfgRec) (out : Bool × List Byte) : MemoriesGood (produce s r out) ↔ MemoriesGood s := by
  simp [produce]

@[simp] theorem good_connFails (s : State) (n cause : Nat) : MemoriesGood (connFails s n cause) ↔ MemoriesGood s := by
  simp [connFails]

@[simp] theorem good_connAccepts (s : State) (r : CfgRec) (pdu : List Byte) : MemoriesGood (connAccepts s r pdu) ↔ MemoriesGood s := by
  simp [connAccepts]

@[simp] theorem good_consume (s : State) (r : CfgRec) (pdu : Option (List Byte)) : MemoriesGood (consume s r pdu) ↔ MemoriesGood s := by
  unfold consume
  dsimp only
  repeat' split
  all_goals simp

@[simp] theorem good_consumers (s : State) (pdus : Tab (List Byte)) : MemoriesGood (consumers s pdus) ↔ MemoriesGood s := by
  simp [consumers]

theorem good_execConnTimeExpired (c : Fin 64) (s : State) : Canons (execConnTimeExpired c s) s := by
  unfold execConnTimeExpired; split <;> simp

theorem publish_good {s : State} (h : MemoriesGood s) (dt : Nat) : MemoriesGood (publish s dt) := by
  unfold publish
  refine h.updSk fun k => ⟨?_, k.1⟩
  dsimp only
  exact Mem.wf_writeN _ _ _ Mem.wf_empty

@[simp] theorem good_clearLatch (s : State) (o : Nat) : MemoriesGood (clearLatch s o) ↔ MemoriesGood s := by
  simp [clearLatch]

theorem good_execSkCycleStart (s : State) : Canons (execSkCycleStart s) s := by
  simp [execSkCycleStart]

@[simp] theorem good_commandOut (s : State) (cmds : List Bool) (us o : Nat) : MemoriesGood (commandOut s cmds us o) ↔ MemoriesGood s := by
  simp [commandOut]

@[simp] theorem good_takeResults (s : State) (r : SkResult) (us : Nat) : MemoriesGood (takeResults s r us) ↔ MemoriesGood s := by
  simp [takeResults]

/-! Islands -/

theorem countLink_mems (x : Island) (l : LaneId) (k : Nat) : (countLink x l k).mems = x.mems := by cases l <;> rfl
theorem markerEdge_mems (l : LaneId) (x : Island) : (markerEdge l x).1.mems = x.mems := by
  unfold markerEdge
  extract_lets far x1 x2 x3 missed
  have h1 : x1.mems = x.mems := by
    simp only [x1]
    split
    · rfl
    · exact countLink_mems ..
  have h2 : x2.mems = x1.mems := by
    simp only [x2]
    split
    · rfl
    · exact countLink_mems ..
  have h3 : x3.mems = x2.mems := by
    simp only [x3]
    split
    · exact countLink_mems ..
    · rfl
  exact (h3.trans h2).trans h1

@[simp] theorem good_timerEdge (s : State) (i : Nat) : MemoriesGood (timerEdge s i) ↔ MemoriesGood s := by
  unfold timerEdge
  extract_lets x
  split
  next x' far e =>
  extract_lets s1
  have hx : x'.mems = x.mems := (congrArg (fun y => y.1.mems) e).symm.trans (markerEdge_mems _ x)
  have h1 : MemoriesGood s1 ↔ MemoriesGood s := good_updIsl_at s i (fun _ => x') hx
  split
  · exact (good_raiseUnnamed ..).trans h1
  · exact h1

theorem sendFrame_good {s : State} (h : MemoriesGood s) (i : Nat) {data : Mem} (hd : data.wf) (pdus : Tab (List Byte)) :
    MemoriesGood (sendFrame s i data pdus) :=
  h.updIsl i fun x => ⟨x.applied, x.latched, fun f hf => Option.some.inj hf ▸ hd⟩

@[simp] theorem good_frontEnd (s : State) (i : Nat) (x : FieldSample) (m : Mem) : MemoriesGood (frontEnd s i x m).1 ↔ MemoriesGood s := by
  unfold frontEnd
  repeat' split
  all_goals simp

theorem dioEdge_wf (s : State) (i : Nat) (ch : List DioSample) (groupMa : List Nat) (temp : Int) {m : Mem} (h : m.wf) :
    (dioEdge s i ch groupMa temp m).2.wf := by
  unfold dioEdge
  extract_lets s1 m1 m2 s2
  have h1 : m1.wf := Mem.wf_writeN _ _ _ h
  clear_value m1
  dsimp only [m2]
  exact Mem.wf_foldl _ h1 fun m c hm => Mem.wf_writeN m _ _ hm
theorem Mem.wf_foldl_snd {α β : Type} {f : β × Mem → α → β × Mem} (l : List α) {p : β × Mem} (h : p.2.wf)
    (hf : ∀ p x, Mem.wf p.2 → Mem.wf (f p x).2) : Mem.wf (l.foldl f p).2 := by
  induction l generalizing p with
  | nil => exact h
  | cons a l ih => exact ih (hf p a h)
theorem aiEdge_wf (s : State) (i : Nat) (ch : List AiSample) (temp : Int) {m : Mem} (h : m.wf) : (aiEdge s i ch temp m).2.wf := by
  unfold aiEdge
  extract_lets x m1
  have h1 : m1.wf := Mem.wf_writeN _ _ _ h
  clear_value m1
  refine Mem.wf_foldl_snd _ h1 fun a c ha => ?_
  split
  · exact Mem.wf_writeN _ _ _ ha
  · split
    · exact Mem.wf_writeN _ _ _ ha
    · exact Mem.wf_writeN _ _ _ ha
theorem aoEdge_wf (s : State) (ch : List AoSample) (temp : Int) {m : Mem} (h : m.wf) : (aoEdge s ch temp m).2.wf := by
  unfold aoEdge
  extract_lets x m1
  have h1 : m1.wf := Mem.wf_writeN _ _ _ h
  clear_value m1
  refine Mem.wf_foldl_snd _ h1 fun a c ha => ?_
  split
  · exact Mem.wf_writeN _ _ _ ha
  · split
    · exact Mem.wf_writeN _ _ _ ha
    · exact Mem.wf_writeN _ _ _ ha
theorem rsEdge_wf (s : State) (p : Nat) (line : Bool) {m : Mem} (h : m.wf) : (rsEdge s p line m).2.wf := by
  unfold rsEdge
  split
  · exact h
  next r _ =>
  extract_lets s1 x now base es
  split
  next m1 head e1 =>
  have h1 : m1.wf := by
    rw [show m1 = _ from (congrArg Prod.fst e1).symm]
    exact Mem.wf_foldl_fst _ h fun a e ha => Mem.wf_writeN a.1 _ _ ha
  split
  next m2 overl e2 =>
  have h2 : m2.wf := by
    rw [show m2 = _ from (congrArg Prod.fst e2).symm]
    refine Mem.wf_foldl_fst _ h1 fun a e ha => ?_
    extract_lets hits at_
    split
    · exact Mem.wf_wrU _ _ _ _ ha
    · exact Mem.wf_writeN _ _ _ ha
  extract_lets good m3 x' s2 s3 s4 m4
  have h3 : m3.wf := by
    simp only [m3]
    split
    · exact Mem.wf_foldl _ h2 fun m e hm => Mem.wf_wrU _ _ _ _ hm
    · exact h2
  dsimp only [m4]
  exact Mem.wf_writeN _ _ _ (Mem.wf_writeN _ _ _ h3)
theorem scEdge_wf (s : State) {m : Mem} (h : m.wf) : (scEdge s m).2.wf := by
  refine Mem.wf_foldl_snd _ h fun a p ha => ?_
  extract_lets isl f s1 s2
  split
  next c m1 overl e =>
  show m1.wf
  rw [show m1 = _ from (congrArg (fun x => x.2.1) e).symm]
  exact canSwap_wf s2 p _ ha
theorem mxEdge_wf (s : State) (wire line : List Bool) (temp : Int) {m : Mem} (h : m.wf) : (mxEdge s wire line temp m).2.wf := by
  unfold mxEdge
  extract_lets m1
  have h1 : m1.wf := Mem.wf_writeN _ _ _ h
  clear_value m1
  split
  next s2 m2 e2 =>
  have h2 : m2.wf := by
    rw [show m2 = _ from (congrArg Prod.snd e2).symm]
    exact Mem.wf_foldl_snd _ h1 fun a n ha => Mem.wf_writeN _ _ _ ha
  split
  next s3 m3 e3 =>
  have h3 : m3.wf := by
    rw [show m3 = _ from (congrArg Prod.snd e3).symm]
    exact Mem.wf_foldl_snd _ h2 fun a p ha => rsEdge_wf a.1 p _ ha
  exact scEdge_wf s3 h3
theorem frontEnd_wf (s : State) (i : Nat) (x : FieldSample) {m : Mem} (h : m.wf) : (frontEnd s i x m).2.wf := by
  unfold frontEnd
  repeat' split
  all_goals first
    | with_reducible exact dioEdge_wf _ _ _ _ _ h
    | with_reducible exact aiEdge_wf _ _ _ _ h
    | with_reducible exact aoEdge_wf _ _ _ h
    | with_reducible exact mxEdge_wf _ _ _ _ h
theorem skData_wf {s : State} (h : MemoriesGood s) : (skData s).wf := by
  unfold skData
  extract_lets m
  refine Mem.wf_writeN _ _ _ ?_
  simp only [m]
  split
  · exact Mem.wf_writeN _ _ _ Mem.wf_empty
  · split
    · exact h.pub.1
    · exact h.pub.2
theorem applyLatched_canon (wd : Nat) {x : Island} (h : x.Canon) : (applyLatched wd x).Canon := by
  unfold applyLatched
  split
  next k e => exact ⟨h.latched k e, nofun, h.frame⟩
  · exact ⟨h.applied, h.latched, h.frame⟩

theorem execIslandEdge_good (i : Isl) (sample : FieldSample) {s : State} (h : MemoriesGood s) :
    OutcomeGood (execIslandEdge i sample s) := by
  unfold execIslandEdge
  refine .next (.ite h (.ite ?_ ?_))
  · have h1 := (good_timerEdge s skIsl).mpr h
    exact sendFrame_good h1 _ (skData_wf h1) _
  · extract_lets s1 s2
    have h2 : MemoriesGood s2 :=
      (good_timerEdge ..).mpr (((good_tokenEdge ..).mpr h).updIsl _ fun x => applyLatched_canon _ x)
    clear_value s2
    split
    next s3 m e =>
    have hf : Mem.wf (((s2.island i.val).frame.map fun f => f.data).getD []) := by
      cases hf : (s2.island i.val).frame with
      | none => exact Mem.wf_empty
      | some f => exact (h2.islandCanon i.val).frame f hf
    have h3 : MemoriesGood s3 := (congrArg (fun y => MemoriesGood y.1) e).mp ((good_frontEnd ..).mpr h2)
    have hm : m.wf := by
      rw [show m = _ from (congrArg Prod.snd e).symm]
      exact frontEnd_wf _ _ _ hf
    exact sendFrame_good h3 _ hm _

theorem good_execIslandWatchdogExpired (i : Isl) (s : State) : Canons (execIslandWatchdogExpired i s) s := by
  simp [execIslandWatchdogExpired]

theorem good_execEdgeMarker (i : Isl) (l : LaneId) (correctionNs : Nat) (s : State) : Canons (execEdgeMarker i l correctionNs s) s := by
  unfold execEdgeMarker
  split
  · simp
  · split <;> simp

@[simp] theorem good_frameToken (s : State) (l : LaneId) (i : Nat) (f : IslFrame) :
    MemoriesGood (frameToken s l i f) ↔ MemoriesGood s := by
  unfold frameToken
  dsimp only
  split
  · simp
  · split <;> simp

theorem takeFrame_canon {v : Lane} (h : v.Canon) (l : LaneId) (i : Nat) {f : IslFrame} (hf : f.data.wf) : (takeFrame v l i f).Canon :=
  ⟨h.img, h.frozen, h.tmpl, Tab.forall_set (P := fun a : IslArrived => a.frame.data.wf) i h.arrived hf⟩

theorem execIslandInputFrame_good (i : Isl) (l : LaneId) (crcOk : Bool) {s : State} (h : MemoriesGood s) :
    OutcomeGood (execIslandInputFrame i l crcOk s) := by
  unfold execIslandInputFrame
  refine .next ?_
  split
  · exact h
  next f e =>
  have hf : f.data.wf := (h.islandCanon i.val).frame f e
  refine .ite h (.ite ?_ ?_)
  · extract_lets s1
    have h1 : MemoriesGood s1 := h.updLane l fun v => takeFrame_canon v l _ hf
    exact .ite h1 ((good_frameToken ..).mpr h1)
  · have hset {v : Lane} (hv : v.Canon) : ∀ e ∈ v.arrived.set i.val ⟨f, false⟩, e.2.frame.data.wf :=
      Tab.forall_set (P := fun a : IslArrived => a.frame.data.wf) _ hv.arrived hf
    refine h.updLane l fun v => ⟨v.img, v.frozen, v.tmpl, ?_⟩
    dsimp only
    split
    · split
      · exact v.arrived
      · exact hset v
    · exact hset v

theorem announceRelease_mems (s : State) (l : LaneId) (x : Island) : (announceRelease s l x).1.mems = x.mems := by
  unfold announceRelease
  extract_lets next
  repeat' split
  all_goals rfl

theorem acceptUpdate_good {s : State} (h : MemoriesGood s) (i : Nat) (l : LaneId) : MemoriesGood (acceptUpdate s i l) := by
  unfold acceptUpdate
  extract_lets x k
  split
  next y refused e =>
  have hy : y.mems = x.mems := by
    rw [show y = _ from (congrArg Prod.fst e).symm]
    split
    · exact announceRelease_mems ..
    · rfl
  have hyc : y.Canon := (Island.canon_congr hy).mpr (h.islandCanon i)
  have hk : k.m.wf := Mem.wf_filter _ _ (h.laneCanon l).frozen
  extract_lets s1
  have h1 : MemoriesGood s1 := h.updIsl i fun _ => ⟨hyc.applied, fun m e => Option.some.inj e ▸ hk, hyc.frame⟩
  split
  · refine h1.keepLane _ ?_
    exact fun _ => rfl
  · exact h1

theorem execIslandOutputFrame_good (i : Isl) (l : LaneId) (crcOk late : Bool) {s : State} (h : MemoriesGood s) :
    OutcomeGood (execIslandOutputFrame i l crcOk late s) := by
  unfold execIslandOutputFrame
  extract_lets x lateNow
  have hc (k : Nat) : MemoriesGood (s.updIsl i.val fun x => countLink x l k) := h.keepIsl _ fun x => countLink_mems x l k
  refine .next (.ite h (.ite (hc 0) (.ite (.ite (hc 2) (.ite h ?_)) (.ite (hc 1) (.ite (hc 2) (acceptUpdate_good h ..))))))
  cases l
  · refine h.keepSk ?_
    exact fun _ => rfl
  · refine h.keepSk ?_
    exact fun _ => rfl

theorem good_execFieldSupplyLow (f : FieldSupply) (s : State) : Canons (execFieldSupplyLow f s) s := by
  unfold execFieldSupplyLow; split <;> simp

theorem good_execFieldSupplyRestored (f : FieldSupply) (s : State) : Canons (execFieldSupplyRestored f s) s := by
  unfold execFieldSupplyRestored; split <;> simp

/-! Startup -/

@[simp] theorem good_powerIslands (s : State) : MemoriesGood (powerIslands s) ↔ MemoriesGood s := by
  simp [powerIslands]

@[simp] theorem good_panelPowerUp (s : State) (map : Option (List (Nat × Fin 4))) :
    MemoriesGood (panelPowerUp s map) ↔ MemoriesGood s := by
  simp [panelPowerUp]

@[simp] theorem bootLane_mems (fw : Nat) (v : Lane) : (bootLane fw v).mems = v.mems := by
  unfold bootLane
  rfl

theorem good_execWindowUp (l : LaneId) (fw : Nat) (s : State) : Canons (execWindowUp l fw s) s := by
  simp [execWindowUp]

@[simp] theorem good_stepFails (s : State) (l : LaneId) (step code : Nat) : MemoriesGood (stepFails s l step code) ↔ MemoriesGood s := by
  simp [stepFails]

theorem good_execClockQualification (l : LaneId) (tcxo rc : Nat) (s : State) : Canons (execClockQualification l tcxo rc s) s := by
  simp [execClockQualification]

theorem good_execRolesStep (l : LaneId) (s : State) : Canons (execRolesStep l s) s := by
  unfold execRolesStep
  dsimp only
  split <;> simp

theorem good_execRoleWaitTimeout (s : State) : Canons (execRoleWaitTimeout s) s := by
  simp [execRoleWaitTimeout]

theorem good_execStartupComplete (l : LaneId) (s : State) : Canons (execStartupComplete l s) s := by
  unfold execStartupComplete
  dsimp only
  repeat' split
  all_goals simp

theorem good_execStartupStepFail (l : LaneId) (step code : Nat) (s : State) : Canons (execStartupStepFail l step code s) s := by
  simp [execStartupStepFail]

/-! Power -/

theorem good_execPowerDwellExpired (s : State) : Canons (execPowerDwellExpired s) s := by
  unfold execPowerDwellExpired
  dsimp only
  repeat' split
  all_goals simp

@[simp] theorem good_clkSelect (s : State) (outB : Bool) (d : Nat) : MemoriesGood (clkSelect s outB d) ↔ MemoriesGood s := by
  simp [clkSelect]

@[simp] theorem good_clkClear (s : State) (d : Nat) : MemoriesGood (clkClear s d) ↔ MemoriesGood s := by
  simp [clkClear]

theorem good_execClkoutSelWrite (_p : Part) (outB : Bool) (data : Word) (s : State) : Canons (execClkoutSelWrite _p outB data s) s := by
  simp [execClkoutSelWrite]

theorem good_execClkoutStatusClear (_p : Part) (data : Word) (s : State) : Canons (execClkoutStatusClear _p data s) s := by
  simp [execClkoutStatusClear]

end Sys2Proof.Machine
end

section
/-! The memories under the window, the service domain and the tick (02, 05, 18, 19, 20, 21). -/

namespace Sys2Proof.Machine

/-! Wide -/

@[simp] theorem good_writeWideSel (s : State) (p : Nat) (via : LaneId) (d : Word) (dt : Nat) :
    MemoriesGood (writeWideSel s p via d dt) ↔ MemoriesGood s := by
  simp [writeWideSel]

theorem good_execWideSelWrite (p : Part) (data : Word) (via : Arrival) (s : State) : Canons (execWideSelWrite p data via s) s := by
  simp [execWideSelWrite]

theorem good_execWideCaptureDone (p : Part) (s : State) : Canons (execWideCaptureDone p s) s := by
  unfold execWideCaptureDone
  dsimp only
  split
  · simp
  · split <;> simp

/-! Window -/

@[simp] theorem good_winAttach (s : State) (p : Nat) (bus : Bus) (lane : LaneId) (d : Nat) :
    MemoriesGood (winAttach s p bus lane d) ↔ MemoriesGood s := by
  unfold winAttach
  dsimp only
  repeat' split
  all_goals simp

@[simp] theorem good_writeEvStatus (s : State) (p : Nat) (d : Nat) : MemoriesGood (writeEvStatus s p d) ↔ MemoriesGood s := by
  simp [writeEvStatus]

@[simp] theorem good_writeEvIndex (s : State) (p : Nat) (d : Nat) : MemoriesGood (writeEvIndex s p d) ↔ MemoriesGood s := by
  simp [writeEvIndex]

@[simp] theorem good_writeLatTol (s : State) (p : Nat) (d : Word) : MemoriesGood (writeLatTol s p d) ↔ MemoriesGood s := by
  simp [writeLatTol]

@[simp] theorem good_doorbell (s : State) (p : Nat) (d : Nat) : MemoriesGood (doorbell s p d) ↔ MemoriesGood s := by
  unfold doorbell
  dsimp only
  repeat' split
  all_goals simp

@[simp] theorem good_writeSlowAddr (s : State) (p : Nat) (d : Nat) : MemoriesGood (writeSlowAddr s p d) ↔ MemoriesGood s := by
  simp [writeSlowAddr]

@[simp] theorem good_writeSlowData (s : State) (p : Nat) (d : Word) : MemoriesGood (writeSlowData s p d) ↔ MemoriesGood s := by
  simp [writeSlowData]

@[simp] theorem good_writeArea (s : State) (p : Nat) (o lane size d : Nat) :
    MemoriesGood (writeArea s p o lane size d) ↔ MemoriesGood s := by
  simp [writeArea]

@[simp] theorem good_readEffect (s : State) (p : Nat) (addr : Nat) : MemoriesGood (readEffect s p addr) ↔ MemoriesGood s := by
  simp [readEffect]

@[simp] theorem good_narrowRead (s : State) (p : Nat) (bus : Bus) (lane : LaneId) (addr size : Nat) (skReady : Bool) :
    MemoriesGood (narrowRead s p bus lane addr size skReady).2 ↔ MemoriesGood s := by
  simp [narrowRead]

@[simp] theorem good_hostRead (s : State) (p : Nat) (bus : Bus) (lane : LaneId) (addr size : Nat) (skReady : Bool) :
    MemoriesGood (hostRead s p bus lane addr size skReady).2 ↔ MemoriesGood s := by
  unfold hostRead
  split <;> simp

theorem good_execEvStatusClear (p : Part) (data : Word) (s : State) : Canons (execEvStatusClear p data s) s := by
  simp [execEvStatusClear]

theorem good_execEvIndexWrite (p : Part) (data : Word) (s : State) : Canons (execEvIndexWrite p data s) s := by
  simp [execEvIndexWrite]

theorem good_execLatTolWrite (p : Part) (data : Word) (s : State) : Canons (execLatTolWrite p data s) s := by
  simp [execLatTolWrite]

theorem good_execMbDoorbell (p : Part) (data : Word) (s : State) : Canons (execMbDoorbell p data s) s := by
  simp [execMbDoorbell]

theorem good_execWideD3Read (p : Part) (s : State) : Canons (execWideD3Read p s) s := by
  simp [execWideD3Read]

theorem good_execSlowReadStart (p : Part) (data : Word) (s : State) : Canons (execSlowReadStart p data s) s := by
  simp [execSlowReadStart]

theorem good_execSlowWritePost (p : Part) (data : Word) (s : State) : Canons (execSlowWritePost p data s) s := by
  simp [execSlowWritePost]

/-! Rtc -/

@[simp] theorem good_State_updRtc (s : State) (f : Rtc → Rtc) : MemoriesGood (State.updRtc s f) ↔ MemoriesGood s := by
  simp [State.updRtc]

@[simp] theorem good_State_updRtcPort (s : State) (p : Nat) (f : RtcPort → RtcPort) :
    MemoriesGood (State.updRtcPort s p f) ↔ MemoriesGood s := by
  simp [State.updRtcPort]

@[simp] theorem good_rtcEvent (s : State) (src code : Nat) (pay : List Byte) (never : Bool) :
    MemoriesGood (rtcEvent s src code pay never) ↔ MemoriesGood s := by
  simp [rtcEvent]

@[simp] theorem good_rtcRead (s : State) (p : Nat) (sub : Bool) (cycles phase : Nat) :
    MemoriesGood (rtcRead s p sub cycles phase).2 ↔ MemoriesGood s := by
  simp [rtcRead]

@[simp] theorem good_rtcReadDate (s : State) (p : Nat) : MemoriesGood (rtcReadDate s p).2 ↔ MemoriesGood s := by
  unfold rtcReadDate
  dsimp only
  split <;> simp

@[simp] theorem good_slowResult (p : Nat) (x : Nat × State) : MemoriesGood (slowResult p x) ↔ MemoriesGood x.2 := by
  simp [slowResult]

@[simp] theorem good_slowReadWhole (s : State) (p a : Nat) (f : State → Nat × State) (hf : ∀ s, MemoriesGood (f s).2 ↔ MemoriesGood s) :
    MemoriesGood (slowReadWhole s p a f) ↔ MemoriesGood s := by
  simp [slowReadWhole, hf]

theorem good_execRtcTimeRead (p : Part) (sub : Bool) (cycles phase : Nat) (s : State) :
    Canons (execRtcTimeRead p sub cycles phase s) s := by
  simp [execRtcTimeRead]

theorem good_execRtcDateRead (p : Part) (s : State) : Canons (execRtcDateRead p s) s := by
  simp [execRtcDateRead]

@[simp] theorem good_rtcClear (s : State) (p d : Nat) : MemoriesGood (rtcClear s p d) ↔ MemoriesGood s := by
  simp [rtcClear]

theorem good_execRtcStatusClear (p : Part) (data : Word) (s : State) : Canons (execRtcStatusClear p data s) s := by
  simp [execRtcStatusClear]

@[simp] theorem good_rtcShared (s : State) (p : Nat) (k : State) (h : MemoriesGood k ↔ MemoriesGood s) :
    MemoriesGood (rtcShared s p k) ↔ MemoriesGood s := by
  unfold rtcShared; split
  · exact h
  · simp

@[simp] theorem good_rtcCommit (s : State) (p d : Nat) : MemoriesGood (rtcCommit s p d) ↔ MemoriesGood s := by
  simp [rtcCommit]

theorem good_execRtcCommit (p : Part) (data : Word) (s : State) : Canons (execRtcCommit p data s) s := by
  simp [execRtcCommit]

@[simp] theorem good_rtcAlarm (s : State) (p : Nat) (alarm2 date : Bool) (d : Nat) :
    MemoriesGood (rtcAlarm s p alarm2 date d) ↔ MemoriesGood s := by
  simp [rtcAlarm]

theorem good_execRtcAlarmWrite (p : Part) (alarm2 date : Bool) (data : Word) (s : State) :
    Canons (execRtcAlarmWrite p alarm2 date data s) s := by
  simp [execRtcAlarmWrite]

@[simp] theorem good_rtcTrim (s : State) (p d : Nat) : MemoriesGood (rtcTrim s p d) ↔ MemoriesGood s := by
  simp [rtcTrim]

theorem good_execRtcTrimWrite (p : Part) (data : Word) (s : State) : Canons (execRtcTrimWrite p data s) s := by
  simp [execRtcTrimWrite]

@[simp] theorem good_rtcSlowRead (s : State) (p a cycles phase : Nat) :
    MemoriesGood (rtcSlowRead s p a cycles phase).2 ↔ MemoriesGood s := by
  unfold rtcSlowRead; split <;> simp

@[simp] theorem good_rtcSlowWrite (s : State) (p a d : Nat) : MemoriesGood (rtcSlowWrite s p a d) ↔ MemoriesGood s := by
  unfold rtcSlowWrite; split <;> simp

/-! Panel -/

@[simp] theorem good_State_updPnl (s : State) (f : Panel → Panel) : MemoriesGood (State.updPnl s f) ↔ MemoriesGood s := by
  simp [State.updPnl]

@[simp] theorem good_State_updPnlPort (s : State) (p : Nat) (f : PnlPort → PnlPort) :
    MemoriesGood (State.updPnlPort s p f) ↔ MemoriesGood s := by
  simp [State.updPnlPort]

@[simp] theorem good_pnlEvent (s : State) (code data : Nat) : MemoriesGood (pnlEvent s code data) ↔ MemoriesGood s := by
  simp [pnlEvent]

@[simp] theorem good_pnlOpen (s : State) (code : Nat) : MemoriesGood (pnlOpen s code) ↔ MemoriesGood s := by
  simp [pnlOpen]

@[simp] theorem good_endPass (s : State) : MemoriesGood (endPass s) ↔ MemoriesGood s := by
  unfold endPass
  dsimp only
  split
  · simp
  · split <;> simp

theorem good_execPanelPassDone (s : State) : Canons (execPanelPassDone s) s := by
  simp [execPanelPassDone]

theorem good_execPanelFrame (temp : Int) (station : List (Fin 240 × List Word)) (s : State) :
    Canons (execPanelFrame temp station s) s := by
  simp [execPanelFrame]

theorem good_execPanelIdle (s : State) : Canons (execPanelIdle s) s := by
  simp [execPanelIdle]

@[simp] theorem good_pnlReject (s : State) (p : Nat) : MemoriesGood (pnlReject s p) ↔ MemoriesGood s := by
  simp [pnlReject]

@[simp] theorem good_pnlShow (s : State) (p d : Nat) : MemoriesGood (pnlShow s p d) ↔ MemoriesGood s := by
  simp [pnlShow]

theorem good_execPnlShowWrite (p : Part) (data : Word) (s : State) : Canons (execPnlShowWrite p data s) s := by
  simp [execPnlShowWrite]

@[simp] theorem good_pnlLine (s : State) (p d : Nat) : MemoriesGood (pnlLine s p d) ↔ MemoriesGood s := by
  simp [pnlLine]

theorem good_execPnlLineWrite (p : Part) (data : Word) (s : State) : Canons (execPnlLineWrite p data s) s := by
  simp [execPnlLineWrite]

@[simp] theorem good_pnlData (s : State) (p d : Nat) : MemoriesGood (pnlData s p d) ↔ MemoriesGood s := by
  simp [pnlData]

theorem good_execPnlDataWrite (p : Part) (data : Word) (s : State) : Canons (execPnlDataWrite p data s) s := by
  simp [execPnlDataWrite]

@[simp] theorem good_pnlCommitTo (s : State) (p d started : Nat) : MemoriesGood (pnlCommitTo s p d started) ↔ MemoriesGood s := by
  simp [pnlCommitTo]

theorem good_execPnlCommit (p : Part) (data : Word) (started : Nat) (s : State) : Canons (execPnlCommit p data started s) s := by
  simp [execPnlCommit]

@[simp] theorem good_pnlClear (s : State) (p d : Nat) : MemoriesGood (pnlClear s p d) ↔ MemoriesGood s := by
  simp [pnlClear]

theorem good_execPnlStatusClear (p : Part) (data : Word) (s : State) : Canons (execPnlStatusClear p data s) s := by
  simp [execPnlStatusClear]

@[simp] theorem good_pnlSlowWrite (s : State) (p a d started : Nat) : MemoriesGood (pnlSlowWrite s p a d started) ↔ MemoriesGood s := by
  unfold pnlSlowWrite; split <;> simp

@[simp] theorem good_panelBlank (s : State) : MemoriesGood (panelBlank s) ↔ MemoriesGood s := by
  simp [panelBlank]

@[simp] theorem good_panelRedraw (s : State) : MemoriesGood (panelRedraw s) ↔ MemoriesGood s := by
  simp [panelRedraw]

@[simp] theorem good_panelApply (old new : List CfgRec) (s : State) : MemoriesGood (panelApply old new s) ↔ MemoriesGood s := by
  simp [panelApply]

/-! Supplies -/

@[simp] theorem good_State_updSup (s : State) (f : Supply → Supply) : MemoriesGood (State.updSup s f) ↔ MemoriesGood s := by
  simp [State.updSup]

@[simp] theorem good_State_updCart (s : State) (f : Cart → Cart) : MemoriesGood (State.updCart s f) ↔ MemoriesGood s := by
  simp [State.updCart]

@[simp] theorem good_setFeed (s : State) (l : LaneId) (on : Bool) (mv : Nat) : MemoriesGood (setFeed s l on mv) ↔ MemoriesGood s := by
  simp [setFeed]

@[simp] theorem good_supEvent (s : State) (src code : Nat) (pay : List Byte := []) :
    MemoriesGood (supEvent s src code pay) ↔ MemoriesGood s := by
  simp [supEvent]

@[simp] theorem good_cartFlag (s : State) (k : Nat) : MemoriesGood (cartFlag s k) ↔ MemoriesGood s := by
  simp [cartFlag]

@[simp] theorem good_bankVolts (s : State) (mv : Nat) : MemoriesGood (bankVolts s mv) ↔ MemoriesGood s := by
  simp [bankVolts]

@[simp] theorem good_abandonMeasure (s : State) : MemoriesGood (abandonMeasure s) ↔ MemoriesGood s := by
  simp [abandonMeasure]

theorem unpowerLane_good {s : State} (h : MemoriesGood s) (l : LaneId) : MemoriesGood (unpowerLane s l) := by
  unfold unpowerLane
  extract_lets s1
  have h1 : MemoriesGood s1 := .ite (laneStops_good h l _) h
  exact h1.updLane l fun _ => Lane.canon_of_empty rfl

theorem endHoldup_good {s : State} (h : MemoriesGood s) : MemoriesGood (endHoldup s) := by
  unfold endHoldup
  extract_lets s1 s2 s3
  have h2 : MemoriesGood s2 := by simpa [s2, s1] using h
  have h3 : MemoriesGood s3 := .ite h2 (unpowerLane_good h2 _)
  exact .ite h3 (unpowerLane_good h3 _)

theorem pfFinish_good {s : State} (h : MemoriesGood s) : MemoriesGood (pfFinish s) := by
  unfold pfFinish
  extract_lets s1 v s2 s3
  have h3 : MemoriesGood s3 := by simpa [s3, s2, s1] using h
  clear_value s3
  refine .ite ((good_panelRedraw ..).mpr (endHoldup_good h3)) (h3.keepSt ?_)
  exact fun _ => rfl

theorem pfStop_good {s : State} (h : MemoriesGood s) (cause arg : Nat) : MemoriesGood (pfStop s cause arg) := by
  unfold pfStop
  extract_lets s1
  have h1 : MemoriesGood s1 := .ite ((good_abandonBank ..).mpr h) h
  refine .ite (((good_enterStopped ..).mpr h1).keepSt ?_) (pfFinish_good h)
  exact fun _ => rfl

theorem pfBank_good {s : State} (h : MemoriesGood s) (l : LaneId) : MemoriesGood (pfBank s l) := by
  unfold pfBank
  extract_lets s1
  have h1 : MemoriesGood s1 := (good_startBank ..).mpr h
  refine .ite (h1.keepSt ?_) (pfFinish_good h1)
  exact fun _ => rfl

theorem execBankWriteDone_good {s : State} (h : MemoriesGood s) : OutcomeGood (execBankWriteDone s) := by
  unfold execBankWriteDone
  extract_lets s1
  have h1 : MemoriesGood s1 := (good_bankDone ..).mpr h
  exact .next (.ite (pfFinish_good h1) h1)

theorem execLaneFeedLost_good (l : LaneId) (feedMv : Nat) {s : State} (h : MemoriesGood s) :
    OutcomeGood (execLaneFeedLost l feedMv s) := by
  unfold execLaneFeedLost
  extract_lets s1
  have h1 : MemoriesGood s1 := by simpa [s1] using h
  exact .next (.ite h (.ite (unpowerLane_good h1 l) h1))

@[simp] theorem good_tryMeasure (s : State) : MemoriesGood (tryMeasure s) ↔ MemoriesGood s := by
  simp [tryMeasure]

theorem execLaneFeedRestored_good (l : LaneId) (feedMv : Nat) {s : State} (h : MemoriesGood s) :
    OutcomeGood (execLaneFeedRestored l feedMv s) := by
  unfold execLaneFeedRestored
  extract_lets s1
  have h1 : MemoriesGood s1 := by simpa [s1] using h
  have h2 := endHoldup_good h1
  exact .next (.ite h (.ite ((good_supEvent ..).mpr h2) (.ite ((good_panelRedraw ..).mpr h2) h1)))

theorem dropUncarried_good {s : State} (h : MemoriesGood s) (l : LaneId) : MemoriesGood (dropUncarried s l) := by
  unfold dropUncarried
  refine h.updLane l fun v => ?_
  split
  · exact v
  · exact Lane.canon_of_empty rfl

theorem execRideThroughEnd_good {s : State} (h : MemoriesGood s) : OutcomeGood (execRideThroughEnd s) :=
  .next (.ite (pfStop_good h 4 0) h)

theorem execSafeShutdown_good (p : Part) {s : State} (h : MemoriesGood s) : OutcomeGood (execSafeShutdown p s) := by
  unfold execSafeShutdown
  refine .next (serve_good h _ _ fun ws => needOperator_good h _ _ (.ite (answer_good h ..) (pfStop_good (MemoriesGood.keepSt ?_ ?_) _ _)))
  · exact (good_respond s p true ACCEPTED 0 0 _ _).mpr h
  · exact fun _ => rfl

theorem good_execCartInserted (id : CartId) (bankMv : Nat) (s : State) : Canons (execCartInserted id bankMv s) s := by
  simp [execCartInserted]

theorem good_execBayEmptyRepeat (s : State) : Canons (execBayEmptyRepeat s) s := by
  simp [execBayEmptyRepeat]

@[simp] theorem good_cartCtrl (s : State) (p d : Nat) : MemoriesGood (cartCtrl s p d) ↔ MemoriesGood s := by
  simp [cartCtrl]

theorem good_execCartMeasNow (p : Part) (data : Word) (s : State) : Canons (execCartMeasNow p data s) s := by
  simp [execCartMeasNow]

theorem good_execCartMeasDue (bankMv : Nat) (s : State) : Canons (execCartMeasDue bankMv s) s := by
  simp [execCartMeasDue]

theorem good_execCartMeasDone (stepMv dischargeMs : Nat) (s : State) : Canons (execCartMeasDone stepMv dischargeMs s) s := by
  unfold execCartMeasDone
  dsimp only
  split <;> simp

theorem good_execCartHour (tempC : Int) (s : State) : Canons (execCartHour tempC s) s := by
  simp [execCartHour]

@[simp] theorem good_cartClear (s : State) (p d : Nat) : MemoriesGood (cartClear s p d) ↔ MemoriesGood s := by
  simp [cartClear]

theorem good_execCartStatusClear (p : Part) (data : Word) (s : State) : Canons (execCartStatusClear p data s) s := by
  simp [execCartStatusClear]

@[simp] theorem good_slowRead (s : State) (p a : Nat) (x : SlowSample) : MemoriesGood (slowRead s p a x).2 ↔ MemoriesGood s := by
  unfold slowRead
  repeat' split
  all_goals simp

@[simp] theorem good_slowWrite (s : State) (p a d started : Nat) : MemoriesGood (slowWrite s p a d started) ↔ MemoriesGood s := by
  simp [slowWrite]

@[simp] theorem good_slowServe (s : State) (p : Nat) (x : SlowSample) : MemoriesGood (slowServe s p x) ↔ MemoriesGood s := by
  unfold slowServe
  dsimp only
  split
  · simp
  · split <;> simp

@[simp] theorem good_slowCycle (xs : List (Nat × SlowSample)) (s : State) : MemoriesGood (slowCycle xs s) ↔ MemoriesGood s := by
  simp [slowCycle]

theorem good_execSlowAccessDone (p : Part) (x : SlowSample) (cycle : List (Part × SlowSample)) (s : State) :
    Canons (execSlowAccessDone p x cycle s) s := by
  simp [execSlowAccessDone]

/-! Status -/

@[simp] theorem good_keepStatus (s : State) (l : LaneId) : MemoriesGood (keepStatus s l) ↔ MemoriesGood s := by
  simp [keepStatus]

/-! Tick -/

@[simp] theorem good_startEdge (s : State) : MemoriesGood (startEdge s) ↔ MemoriesGood s := by
  unfold startEdge
  extract_lets s1 s2 s3 s4
  have h1 : MemoriesGood s1 ↔ MemoriesGood s := good_bothLanes _ _ fun s l => by
    split <;> simp
  have h2 : MemoriesGood s2 ↔ MemoriesGood s1 := good_bothLanes _ _ fun s l => by simp
  have h3 : MemoriesGood s4 ↔ MemoriesGood s2 := by simp [s4, s3]
  exact Iff.trans (b := MemoriesGood s4) (memoriesGood_congr rfl rfl rfl rfl rfl) (h3.trans (h2.trans h1))

@[simp] theorem good_answerStops (s : State) : MemoriesGood (answerStops s) ↔ MemoriesGood s := by
  simp [answerStops]

@[simp] theorem good_stationEdge (s : State) : MemoriesGood (stationEdge s) ↔ MemoriesGood s := by
  simp [stationEdge]

@[simp] theorem good_forgetSeen (s : State) (l : LaneId) : MemoriesGood (forgetSeen s l) ↔ MemoriesGood s := by
  simp [forgetSeen]

@[simp] theorem good_endsEdge (s : State) : MemoriesGood (endsEdge s) ↔ MemoriesGood s := by
  unfold endsEdge
  dsimp only
  split <;> simp

@[simp] theorem good_partsEdge (s : State) : MemoriesGood (partsEdge s) ↔ MemoriesGood s := by
  simp [partsEdge]

theorem writeSys_good {s : State} (h : MemoriesGood s) (l : LaneId) : MemoriesGood (writeSys s l) := by
  unfold writeSys
  extract_lets head tail
  refine h.updImg l fun m hm => ?_
  exact Mem.wf_writeN _ _ _ (Mem.wf_writeN _ _ _ hm)

@[simp] theorem good_openWindow (s : State) (l : LaneId) : MemoriesGood (openWindow s l) ↔ MemoriesGood s := by
  simp [openWindow]

theorem loseQuality_wf (i : Nat) {m : Mem} (h : m.wf) : (loseQuality i m).wf :=
  Mem.wf_foldl _ h fun m e hm => by
    extract_lets v
    split
    · exact Mem.wf_wrU _ _ _ _ hm
    · exact hm
theorem takeIsland_canon (t i : Nat) {v : Lane} (h : v.Canon) : (takeIsland t i v).Canon := by
  unfold takeIsland
  dsimp only
  split
  · split
    · exact ⟨Mem.wf_copyRange _ _ _ _ h.img, h.frozen, h.tmpl, h.arrived⟩
    · exact ⟨loseQuality_wf i h.img, h.frozen, h.tmpl, h.arrived⟩
  · exact ⟨loseQuality_wf i h.img, h.frozen, h.tmpl, h.arrived⟩
theorem takeIslands_canon (t : Nat) (is : List Nat) {v : Lane} (h : v.Canon) : (is.foldl (fun v i => takeIsland t i v) v).Canon := by
  induction is generalizing v with
  | nil => exact h
  | cons i is ih => exact ih (takeIsland_canon t i h)
theorem countReint_mems (t : Nat) (v : Lane) : (countReint t v).mems = v.mems := by
  unfold countReint
  split <;> rfl

theorem execInputSwap_good (l : LaneId) {s : State} (h : MemoriesGood s) : OutcomeGood (execInputSwap l s) := by
  unfold execInputSwap
  extract_lets v t s1 s2 s3 s4 s5 s6
  have h1 : MemoriesGood s1 := by
    simp only [s1, good_judgeHeartbeat]
    refine h.keepLane l ?_
    exact fun _ => rfl
  have h2 : MemoriesGood s2 := (judgeSnapshot_good h1 l).keepLane l (countReint_mems t)
  have h3 : MemoriesGood s3 := (good_regainToken ..).mpr (h2.updLane l fun v => takeIslands_canon t _ v)
  have h4 : MemoriesGood s4 := writeSys_good (canSwaps_good (flowSwaps_good h3 l) l) l
  have h5 : MemoriesGood s5 := .ite h4 (applyPatches_good h4 l)
  have h6 : MemoriesGood s6 := .ite ((good_askToken ..).mpr h5) h5
  exact .next (.ite ((good_judgeHeartbeat ..).mpr h) (.ite h (.ite h1 ((good_openWindow ..).mpr h6))))

theorem execMx1Swap_good (l : LaneId) {s : State} (h : MemoriesGood s) : OutcomeGood (execMx1Swap l s) := by
  unfold execMx1Swap
  extract_lets v t s1 gone
  have h1 : MemoriesGood s1 := h.updLane l fun v => by
    have c := takeIsland_canon t mxIsl v
    exact ⟨c.img, c.frozen, c.tmpl, c.arrived⟩
  exact .next (.ite h (.ite h1 ((good_releaseTasks ..).mpr ((good_updBe ..).mpr h1))))

theorem substSinks_good {s : State} (h : MemoriesGood s) (l : LaneId) : MemoriesGood (substSinks s l) :=
  .foldl _ h fun s r h => substSink_good h l r

theorem substAll_good {s : State} (h : MemoriesGood s) (l : LaneId) : MemoriesGood (substAll s l) :=
  substAo_good (substDio_good (substCan_good (substFlows_good (substSinks_good h l) l) l) l) l

@[simp] theorem good_closeSnapshot (s : State) (l : LaneId) : MemoriesGood (closeSnapshot s l) ↔ MemoriesGood s := by
  simp [closeSnapshot]

theorem restoreRetained_wf (img : List Byte) {m : Mem} (h : m.wf) (bytes : List Byte) : (restoreRetained img m bytes).wf :=
  Mem.wf_foldl_fst _ h fun a d ha => by
    split
    · exact Mem.wf_writeN _ _ _ ha
    · exact ha
theorem setRetained_good {s : State} (h : MemoriesGood s) (img : List Byte) (bank : Option (List Byte)) :
    MemoriesGood (setRetained s img bank) :=
  h.bothLanes fun s l h => .ite (h.updLane l fun v => ⟨restoreRetained_wf img v.img _, v.frozen, v.tmpl, v.arrived⟩) h

theorem startRetained_good {s : State} (h : MemoriesGood s) (img : List Byte) : MemoriesGood (startRetained s img) := by
  unfold startRetained
  extract_lets l not_
  have hn (code) : MemoriesGood (not_ code) := (good_raise ..).mpr (setRetained_good h ..)
  refine .ite (hn 5) ?_
  split
  · exact hn 3
  · exact .ite (hn 4) ((good_updRec ..).mpr (setRetained_good h ..))

theorem stopBank_good {s : State} (h : MemoriesGood s) (l : LaneId) : MemoriesGood (stopBank s l) := by
  unfold stopBank
  exact .ite h (.ite (.ite (pfBank_good h l) h) (.ite ((good_startBank ..).mpr h) h))

theorem restoreAtStart_good {s : State} (h : MemoriesGood s) (l : LaneId) : MemoriesGood (restoreAtStart s l) := by
  unfold restoreAtStart
  refine .ite ((startRetained_good h _).keepSt ?_) h
  exact fun _ => rfl

theorem execOutputCutoff_good (l : LaneId) (leLate : Option (Fin 128)) {s : State} (h : MemoriesGood s) :
    OutcomeGood (execOutputCutoff l leLate s) := by
  unfold execOutputCutoff
  extract_lets v t s1 s2 s3 s4 s5 s6
  have h1 : MemoriesGood s1 := (good_closeWindow ..).mpr h
  have h2 : MemoriesGood s2 := (good_loopPasses ..).mpr ((good_chainPasses ..).mpr h1)
  have h3 : MemoriesGood s3 := publishLoops_good (publishChains_good h2 l) l
  have h4 : MemoriesGood s4 := .ite (substAll_good h3 l) h3
  have h5 : MemoriesGood s5 := (good_writeDescs ..).mpr h4
  have h6 : MemoriesGood s6 := h5.updLane l fun v => ⟨v.img, v.img, v.tmpl, v.arrived⟩
  clear_value s6
  refine .next (.ite h (.ite ((good_sendHeartbeat ..).mpr (h.keepLane l ?_)) ((good_keepStatus ..).mpr (restoreAtStart_good ?_ l))))
  · exact fun _ => rfl
  · refine (good_bankAfterPatch ..).mpr (stopBank_good ?_ l)
    rw [good_sendHeartbeat, good_closeSnapshot]
    exact h6

end Sys2Proof.Machine
end

section
/-! The memories under commits, re-integration, the safety fields and the Terist host link (03, 10, 15). -/

namespace Sys2Proof.Machine

/-! ConfigCommit -/

theorem outApply_good (old new : List CfgRec) {s : State} (h : MemoriesGood s) (l : LaneId) : MemoriesGood (outApply old new s l) :=
  .foldl _ (.foldl _ h fun s k h => .ite h (h.wrImg ..)) fun s c h => .ite h (h.wrImg ..)

theorem sinkApply_good (old : List CfgRec) (before : Mem) {s : State} (h : MemoriesGood s) (l : LaneId) :
    MemoriesGood (sinkApply old before s l) :=
  .foldl _ h fun s r h => by
    extract_lets d kept
    split
    · exact writeSink_good h ..
    · exact writeSink_good h ..
    · exact writeSink_good h ..

theorem flowsGone_wf (old new : List CfgRec) {m : Mem} (h : m.wf) : (flowsGone old new m).wf :=
  Mem.wf_foldl _ h fun m r hm => by
    split
    · exact hm
    · exact Mem.wf_clear _ _ _ hm
theorem laneConfig_good (old new : List CfgRec) {s : State} (h : MemoriesGood s) (l : LaneId) :
    MemoriesGood (laneConfig old new s l) := by
  unfold laneConfig
  extract_lets before s1 s2 s3 s4 s5 s6 s7 s8
  have h2 : MemoriesGood s2 := chainApply_good old new (loopApply_good old new h l) l
  have h3 : MemoriesGood s3 := flowApply_good old new before (h2.updImg l fun m hm => flowsGone_wf old new hm) l
  have h5 : MemoriesGood s5 := outApply_good old new (canApply_good old new h3 l) l
  have h6 : MemoriesGood s6 := sinkApply_good old before (substAo_good (substDio_good (substCan_good (substFlows_good h5 l) l) l) l) l
  have h7 : MemoriesGood s7 := h6.updLane l fun v => ⟨v.img, Mem.wf_copyRange _ _ _ _ v.frozen, v.tmpl, v.arrived⟩
  have h8 : MemoriesGood s8 := (good_canApplySend ..).mpr h7
  exact .ite ((good_enterTime ..).mpr h8) h8

@[simp] theorem good_thlConfig (old : List CfgRec) (s : State) : MemoriesGood (thlConfig old s) ↔ MemoriesGood s := by
  simp [thlConfig]

@[simp] theorem good_retick (before : Nat) (s : State) : MemoriesGood (retick before s) ↔ MemoriesGood s := by
  unfold retick
  split
  · rfl
  · exact memoriesGood_congr rfl rfl rfl rfl rfl

theorem latchApply_good {s : State} (h : MemoriesGood s) : MemoriesGood (latchApply s) := by
  unfold latchApply
  extract_lets m take s1
  have ht {s : State} (h : MemoriesGood s) (i a n : Nat) : MemoriesGood (take s i a n) :=
    h.updIsl i fun x => ⟨x.applied, fun k hk => by
      obtain ⟨k0, h0, rfl⟩ := Option.map_eq_some_iff.mp hk
      exact Mem.wf_copyRange _ _ _ _ (x.latched k0 h0), x.frame⟩
  exact .foldl _ (.foldl _ h fun s i h => ht h ..) fun s p h => ht h ..

theorem laneProgram_good (img : List Byte) {s : State} (h : MemoriesGood s) (l : LaneId) : MemoriesGood (laneProgram img s l) := by
  unfold laneProgram
  refine h.updLane l fun v => ⟨?_, ?_, ?_, v.arrived⟩
  · exact Mem.wf_writeN _ _ _ (Mem.wf_writeN _ _ _ (Mem.wf_clear _ _ _ v.img))
  · exact Mem.wf_writeN _ _ _ (Mem.wf_writeN _ _ _ (Mem.wf_clear _ _ _ v.frozen))
  · exact Mem.wf_writeN _ _ _ (Mem.wf_writeN _ _ _ Mem.wf_empty)

@[simp] theorem good_setPassword (s : State) (part cflags : Nat) (r : CfgRec) :
    MemoriesGood (setPassword s part cflags r) ↔ MemoriesGood s := by
  simp [setPassword]

/-! Reint -/

@[simp] theorem good_beginReint (s : State) (l : LaneId) : MemoriesGood (beginReint s l) ↔ MemoriesGood s := by
  simp [beginReint]

theorem good_execReintStart (l : LaneId) (s : State) : Canons (execReintStart l s) s := by
  simp [execReintStart]

theorem copyLane_good {s : State} (h : MemoriesGood s) (l : LaneId) : MemoriesGood (copyLane s l) := by
  unfold copyLane
  extract_lets o t s1 s2
  have ho : o.Canon := h.laneCanon (other l)
  have h1 : MemoriesGood s1 := .ite h ((good_sendHeartbeat ..).mpr h)
  have h2 : MemoriesGood s2 := canApply_good [] _ h1 l
  clear_value s2 o
  exact h2.updLane l fun v => ⟨ho.frozen, ho.frozen, ho.tmpl, v.arrived⟩

theorem execReintCopyClosed_good (l : LaneId) {s : State} (h : MemoriesGood s) : OutcomeGood (execReintCopyClosed l s) :=
  .next (.ite (copyLane_good h l) h)

theorem good_execReintCopyTimeout (l : LaneId) (s : State) : Canons (execReintCopyTimeout l s) s := by
  simp [execReintCopyTimeout]

theorem good_execReintRetryDue (l : LaneId) (s : State) : Canons (execReintRetryDue l s) s := by
  simp [execReintRetryDue]

theorem good_execReintStandby (l : LaneId) (s : State) : Canons (execReintStandby l s) s := by
  simp [execReintStandby]

/-! SafetyIo -/

@[simp] theorem good_updIn (s : State) (i : Nat) (f : SkIn → SkIn) : MemoriesGood (updIn s i f) ↔ MemoriesGood s := by
  simp [updIn]

@[simp] theorem good_updSrc (s : State) (t : Nat) (f : SkSrc → SkSrc) : MemoriesGood (updSrc s t f) ↔ MemoriesGood s := by
  simp [updSrc]

@[simp] theorem good_setTestFail (s : State) (i : Nat) (v : Bool) : MemoriesGood (setTestFail s i v) ↔ MemoriesGood s := by
  simp [setTestFail]

@[simp] theorem good_sampleInput (us : Nat) (mv : List Int) (s : State) (i : Nat) :
    MemoriesGood (sampleInput us mv s i) ↔ MemoriesGood s := by
  unfold sampleInput
  split
  · simp
  · split <;> simp

@[simp] theorem good_pairFault (s : State) (p : Nat) (test : Bool) : MemoriesGood (pairFault s p test) ↔ MemoriesGood s := by
  simp [pairFault]

@[simp] theorem good_setPair (s : State) (p : Nat) (ph : PairPhase) : MemoriesGood (setPair s p ph) ↔ MemoriesGood s := by
  simp [setPair]

@[simp] theorem good_pairReleased (s : State) (p : Nat) : MemoriesGood (pairReleased s p) ↔ MemoriesGood s := by
  unfold pairReleased
  dsimp only
  split <;> simp

@[simp] theorem good_pairSample (s : State) (p : Nat) : MemoriesGood (pairSample s p) ↔ MemoriesGood s := by
  unfold pairSample
  dsimp only
  repeat' split
  all_goals simp

theorem good_execSafetyInputSample (us : Nat) (mv : List Int) (s : State) : Canons (execSafetyInputSample us mv s) s := by
  simp [execSafetyInputSample]

theorem good_execDiscTimerExpired (p : Fin 8) (s : State) : Canons (execDiscTimerExpired p s) s := by
  simp [execDiscTimerExpired]

theorem good_execTestSourcePulse (k : Fin 4) (high backfeed : Bool) (s : State) : Canons (execTestSourcePulse k high backfeed s) s := by
  simp [execTestSourcePulse]

theorem good_execTestSourceOverload (k : Fin 4) (s : State) : Canons (execTestSourceOverload k s) s := by
  simp [execTestSourceOverload]

theorem good_execTestSourceRetry (k : Fin 4) (s : State) : Canons (execTestSourceRetry k s) s := by
  unfold execTestSourceRetry; split <;> simp

@[simp] theorem good_outFault (s : State) (o code : Nat) : MemoriesGood (outFault s o code) ↔ MemoriesGood s := by
  simp [outFault]

theorem good_execOffPulse (o : Fin 8) (_skY : Bool) (readbackMv : Int) (s : State) : Canons (execOffPulse o _skY readbackMv s) s := by
  simp [execOffPulse]

theorem good_execSafetyOutputReadback (o : Fin 8) (mv supplyMv : Int) (limit : Bool) (s : State) :
    Canons (execSafetyOutputReadback o mv supplyMv limit s) s := by
  simp [execSafetyOutputReadback]

/-! Thl -/

@[simp] theorem good_thlIn (s : State) (l : LaneId) (p : Nat) (rx : Rx) : MemoriesGood (thlIn s l p rx).2 ↔ MemoriesGood s := by
  unfold thlIn
  dsimp only
  split <;> simp

@[simp] theorem good_thlOpen (s : State) (p : Nat) (lane : LaneId) (nonce : List Byte) (b : Option (List Byte)) :
    MemoriesGood (thlOpen s p lane nonce b) ↔ MemoriesGood s := by
  unfold thlOpen
  split <;> simp

theorem good_execThlHello (p : Part) (rx : Rx) (lane : LaneId) (nonce : List Byte) (s : State) :
    Canons (execThlHello p rx lane nonce s) s := by
  simp [execThlHello]

@[simp] theorem good_setThl (s : State) (p : Nat) (f : ThlSess → ThlSess) : MemoriesGood (setThl s p f) ↔ MemoriesGood s := by
  simp [setThl]

@[simp] theorem good_thlAct (s : State) (p seq : Nat) (bad : State → State) (f : State → ThlSess → State) (c : ThlCheck)
    (hb : ∀ s, MemoriesGood (bad s) ↔ MemoriesGood s) (hf : ∀ s t, MemoriesGood (f s t) ↔ MemoriesGood s) :
    MemoriesGood (thlAct s p seq bad f c) ↔ MemoriesGood s := by
  cases c <;> simp [thlAct, hb, hf]

@[simp] theorem good_thlTake (s : State) (p : Nat) (rx : Rx) (sess seq : Nat) (k : ThlKind) (content tag : List Byte)
    (bad : State → State) (f : State → ThlSess → State) (hbad : ∀ s, MemoriesGood (bad s) ↔ MemoriesGood s) (hf : ∀ s y1, MemoriesGood (f s y1) ↔ MemoriesGood s) :
    MemoriesGood (thlTake s p rx sess seq k content tag bad f) ↔ MemoriesGood s := by
  simp [thlTake, hbad, hf]

theorem good_execThlRegRead (p : Part) (rx : Rx) (sess seq addr : Nat) (tag : List Byte) (s : State) :
    Canons (execThlRegRead p rx sess seq addr tag s) s := by
  unfold execThlRegRead; rw [canons_next, good_thlTake] <;> intros <;> simp

theorem good_execThlStalled (p : Part) (urgent : Bool) (s : State) : Canons (execThlStalled p urgent s) s := by
  unfold execThlStalled
  dsimp only
  split <;> simp

/-! Station -/

theorem execStart_good (p : Part) {s : State} (h : MemoriesGood s) : OutcomeGood (execStart p s) := by
  unfold execStart
  refine .next (serve_good h _ _ fun ws => needLock_good h _ _ (.ite (answer_good h ..) ?_))
  extract_lets t shut stops wait s1 s2 s3 s4
  have h1 : MemoriesGood s1 := by
    refine h.keepSt ?_
    exact fun _ => rfl
  have h2 : MemoriesGood s2 := (good_bothLanes _ _ fun s l => by simp).mpr (.ite h1 (startRetained_good h1 _))
  have h3 : MemoriesGood s3 := by simpa [s3] using h2
  have h4 : MemoriesGood s4 := .ite ((good_panelRedraw ..).mpr h3) h3
  exact (good_respond s4 p false OK 0 0 _ _).mpr h4

theorem good_execStop (p : Part) (s : State) : Canons (execStop p s) s := by
  simp [execStop]

theorem good_execStatusGet (p : Part) (s : State) : Canons (execStatusGet p s) s := by
  simp [execStatusGet]

end Sys2Proof.Machine
end

section
/-! The memories under the rows that write the accepted images. -/

namespace Sys2Proof.Machine

/-! Writers -/

theorem emptyLane_canon {v : Lane} (h : v.Canon) : (emptyLane v).Canon := by
  have hb := bareImage_wf
  unfold emptyLane
  generalize bareImage = m at hb ⊢
  exact Lane.canon_of_mems rfl hb hb Mem.wf_empty h.arrived

theorem forgetImages_good {s : State} (h : MemoriesGood s) : MemoriesGood (forgetImages s) := by
  unfold forgetImages
  extract_lets s1
  have h1 : MemoriesGood s1 := ((good_discardLoopStage ..).mpr h).bothLanes fun s l h => h.updLane l emptyLane_canon
  exact h1.updSt fun _ => nofun

theorem grantReceived_good {s : State} (h : MemoriesGood s) (l : LaneId) (g : Grant) (w : TokWhy) :
    MemoriesGood (grantReceived s l g w) := by
  unfold grantReceived
  extract_lets s1 s2 role s3
  have h2 : MemoriesGood s2 := by simpa [s2, s1] using h
  have h3 : MemoriesGood s3 := .ite (forgetImages_good h2) h2
  clear_value s2 s3
  cases w with
  | startUp =>
    refine (good_noteRole ..).mpr (h3.keepLane l ?_)
    exact fun _ => rfl
  | again =>
    refine h2.keepLane l ?_
    exact fun _ => rfl
  | takeover => exact h2
  | ends => exact h2

@[simp] theorem good_commitFail (s : State) (c : Commit) (r : Reject) : MemoriesGood (commitFail s c r) ↔ MemoriesGood s := by
  simp [commitFail]

theorem commitOk_good {s : State} (h : MemoriesGood s) (c : Commit) (d0 tick : Nat) : MemoriesGood (commitOk s c d0 tick) := by
  unfold commitOk
  extract_lets asked s1 s2
  have h1 : MemoriesGood s1 := h.updSt fun t => Tab.forall_erase (P := fun e : StageArea => e.bytes.wf) _ t
  have h2 : MemoriesGood s2 := (good_noteUnnamed ..).mpr h1
  exact .ite ((good_respond s2 c.part false OK d0 0 _ _).mpr h2) h2

theorem loseCommands_good {s : State} (h : MemoriesGood s) : MemoriesGood (loseCommands s) := by
  unfold loseCommands
  extract_lets s1
  have h1 : MemoriesGood s1 := h.updSt fun _ => nofun
  refine .foldl _ h1 fun s p h => ?_
  extract_lets keep s2 stops
  have h2 : MemoriesGood s2 := .ite ((good_respond s p false LANE_LOST _ 0 _ _).mpr h) h
  exact .ite ((good_respond s2 p true LANE_LOST _ 0 _ _).mpr h2) h2

theorem endMainDetached_good {s : State} (h : MemoriesGood s) (p : Nat) : MemoriesGood (endMainDetached s p) := by
  unfold endMainDetached
  extract_lets m s1
  have h1 : MemoriesGood s1 := by
    refine h.keepSt ?_
    exact fun _ => rfl
  exact dropHoldings_good (.ite ((good_respond s1 p false DETACHED _ 0 _ _).mpr h1) h1) p

theorem startDetach_good {s : State} (h : MemoriesGood s) (p : Nat) : MemoriesGood (startDetach s p) := by
  unfold startDetach
  extract_lets s1 m
  have h1 : MemoriesGood s1 := (good_updPart ..).mpr h
  exact .ite h1 (endMainDetached_good h1 p)

theorem finishDetach_good {s : State} (h : MemoriesGood s) (p : Nat) : MemoriesGood (finishDetach s p) := by
  unfold finishDetach
  extract_lets s1 s2 s3
  have h2 : MemoriesGood s2 := by
    refine (endMainDetached_good h p).keepSt ?_
    exact fun _ => rfl
  exact (good_noteUnnamed ..).mpr ((good_resetWindow ..).mpr h2)

theorem detachForbidden_good {s : State} (h : MemoriesGood s) : MemoriesGood (detachForbidden s) :=
  .foldl _ h fun s p h => .ite (startDetach_good ((good_tellUnnamed ..).mpr h) p) h

theorem winDetach_good {s : State} (h : MemoriesGood s) (p d : Nat) : MemoriesGood (winDetach s p d) := by
  unfold winDetach
  extract_lets q s1
  have h1 : MemoriesGood s1 := (good_updPart ..).mpr h
  exact .ite h (.ite h1 (startDetach_good h1 p))

theorem writeWinCtrl_good {s : State} (h : MemoriesGood s) (p : Nat) (bus : Bus) (lane : LaneId) (d : Nat) :
    MemoriesGood (writeWinCtrl s p bus lane d) := by
  unfold writeWinCtrl
  exact .ite (winDetach_good h p d) (.ite ((good_winAttach ..).mpr h) (.ite ((good_updPart ..).mpr h) h))

theorem windowWrite_good {s : State} (h : MemoriesGood s) (p : Nat) (via : LaneId) (addr size : Nat) (d : Word) (dt : Nat) :
    MemoriesGood (windowWrite s p via addr size d dt) := by
  unfold windowWrite
  extract_lets o q
  clear_value o
  refine .ite (.ite ((good_writeArea ..).mpr h) h) (.ite h ?_)
  split
  · exact writeWinCtrl_good h ..
  · exact (good_writeEvStatus ..).mpr h
  · exact (good_writeEvIndex ..).mpr h
  · exact (good_writeLatTol ..).mpr h
  · exact (good_doorbell ..).mpr h
  · exact (good_writeWideSel ..).mpr h
  · exact (good_writeSlowAddr ..).mpr h
  · exact (good_writeSlowData ..).mpr h
  · exact h

theorem hostWrite_good {s : State} (h : MemoriesGood s) (p : Nat) (via : LaneId) (addr size : Nat) (d : DWord) (dt : Nat) :
    MemoriesGood (hostWrite s p via addr size d dt) := by
  unfold hostWrite
  exact .ite (windowWrite_good (windowWrite_good h ..) ..) (windowWrite_good h ..)

theorem goOn_good {s : State} (h : MemoriesGood s) (p : Nat) (urg : Bool) (x : Xfer) : MemoriesGood (goOn s p urg x) := by
  unfold goOn
  extract_lets m
  refine .ite (endMainDetached_good h p) (.ite ((good_endXfer ..).mpr h) (.ite ((good_progress ..).mpr ((good_updMb ..).mpr h)) ?_))
  exact .ite ((good_progress ..).mpr h) ((good_sendPiece ..).mpr ((good_progress ..).mpr h))

theorem StageArea.put_wf {a : StageArea} (h : a.bytes.wf) (off : Nat) (bs : List Byte) : (a.put off bs).bytes.wf := by
  unfold StageArea.put
  split
  · exact h
  · exact Mem.wf_writeN _ _ _ h

theorem takeIn_good {s : State} (h : MemoriesGood s) (p : Nat) (urg : Bool) (x : Xfer) (data : List Byte) :
    MemoriesGood (takeIn s p urg x data) := by
  unfold takeIn
  extract_lets m d step
  split
  · split
    · exact answer_good h ..
    next a ha =>
    refine .ite (answer_good h ..) (goOn_good ((good_updMb ..).mpr ?_) ..)
    have hb : a.bytes.wf := Tab.forall_get? (P := fun e : StageArea => e.bytes.wf) h.stage ha
    exact h.updSt fun t => Tab.forall_set (P := fun e : StageArea => e.bytes.wf) _ t (StageArea.put_wf hb ..)
  · exact goOn_good ((good_updMb ..).mpr h) ..

theorem resumeHeld_good {s : State} (h : MemoriesGood s) (p : Nat) : MemoriesGood (resumeHeld s p) := by
  unfold resumeHeld
  extract_lets m
  split
  · exact .ite (goOn_good ((good_updMb ..).mpr h) ..) h
  · exact h

@[simp] theorem good_safeStop (s : State) (code : Nat) : MemoriesGood (safeStop s code) ↔ MemoriesGood s := by
  unfold safeStop
  dsimp only
  split
  · split <;> simp
  · simp

@[simp] theorem good_enterRun (s : State) (img : List Byte) : MemoriesGood (enterRun s img) ↔ MemoriesGood s := by
  simp [enterRun]

@[simp] theorem good_verifyFails (s : State) (r : Reject) : MemoriesGood (verifyFails s r) ↔ MemoriesGood s := by
  unfold verifyFails
  dsimp only
  split <;> simp

theorem verifyPasses_good {s : State} (h : MemoriesGood s) (img digest : List Byte) (d0 : Nat) :
    MemoriesGood (verifyPasses s img digest d0) := by
  unfold verifyPasses
  extract_lets s1 s2 s3
  have h1 : MemoriesGood s1 := by
    refine (good_enterRun ..).mpr (h.keepSk ?_)
    exact fun _ => rfl
  split
  next c _ =>
    refine .ite ?_ h1
    have h2 : MemoriesGood s2 := by
      refine h1.keepSt ?_
      exact fun _ => rfl
    exact commitOk_good (.ite ((good_sealEvent ..).mpr h2) h2) ..
  · exact h1

theorem sealCheck_good {s : State} (h : MemoriesGood s) (img : List Byte) : MemoriesGood (sealCheck s img) := by
  unfold sealCheck
  extract_lets d
  have hf (r) : MemoriesGood (verifyFails s r) := (good_verifyFails ..).mpr h
  refine .ite (verifyPasses_good h ..) ?_
  split
  · exact .ite (hf _) (.ite (hf _) (verifyPasses_good ((good_writeSeal ..).mpr h) ..))
  · exact hf _

@[simp] theorem good_confirmCommit (s : State) (c : Commit) : MemoriesGood (confirmCommit s c) ↔ MemoriesGood s := by
  simp [confirmCommit]

theorem MemoriesGood.eachTracking {f : State → LaneId → State} {s : State} (h : MemoriesGood s)
    (hf : ∀ s l, MemoriesGood s → MemoriesGood (f s l)) : MemoriesGood (eachTracking f s) :=
  h.bothLanes fun s l h => .ite (hf s l h) h

theorem applyConfig_good {s : State} (h : MemoriesGood s) (img : List Byte) : MemoriesGood (applyConfig s img) := by
  unfold applyConfig
  extract_lets old rs new len s1 s2 s3 s4
  have h2 : MemoriesGood s2 := by
    refine ((good_discardLoopStage ..).mpr h).keepSt ?_
    exact fun _ => rfl
  have h4 : MemoriesGood s4 := by
    refine (good_panelApply ..).mpr (mxApply_good old new ((good_anaApply ..).mpr ((good_dioApply ..).mpr ?_)))
    exact (good_retick ..).mpr h2
  exact latchApply_good ((good_thlConfig ..).mpr (h4.eachTracking fun s l h => laneConfig_good old new h l))

theorem applyProgram_good {s : State} (h : MemoriesGood s) (img : List Byte) : MemoriesGood (applyProgram s img) := by
  unfold applyProgram
  extract_lets xs s1 s2
  have h2 : MemoriesGood s2 := by
    refine ((good_dropBatches ..).mpr h).keepSt ?_
    exact fun _ => rfl
  exact h2.eachTracking fun s l h => laneProgram_good img h l

theorem applyAccess_good {s : State} (h : MemoriesGood s) (c : Commit) : MemoriesGood (applyAccess s c) := by
  unfold applyAccess
  extract_lets rs cf s1 s2 s3
  have h1 : MemoriesGood s1 := by
    simp only [s1]
    split
    · exact (good_setPassword ..).mpr h
    · exact h
  have h2 : MemoriesGood s2 := .ite ((good_sealEvent ..).mpr h1) ((good_writeSeal ..).mpr h1)
  have h3 : MemoriesGood s3 := by
    refine h2.keepSt ?_
    exact fun _ => rfl
  exact detachForbidden_good h3

theorem coldStart_good {s : State} (h : MemoriesGood s) (fromDark : Bool) : MemoriesGood (coldStart s fromDark) := by
  unfold coldStart
  extract_lets v rcd
  refine memoriesGood_mk (h.laneCanon .a) (h.laneCanon .b) ?_ ?_ ?_
  · simp
  · exact Sk.canon_of_empty rfl
  · exact Station.canon_of_empty rfl

theorem powerOff_good (s : State) : MemoriesGood (powerOff s) := by
  unfold powerOff
  extract_lets s1 s2 off s3 s4 s5
  have h3 : MemoriesGood s3 := by
    refine memoriesGood_mk ?_ ?_ ?_ ?_ ?_
    · exact Lane.canon_of_empty rfl
    · exact Lane.canon_of_empty rfl
    · simp
    · exact Sk.canon_of_empty rfl
    · exact Station.canon_of_empty rfl
  clear_value s3
  simpa [s5, s4] using h3

@[simp] theorem good_endValidate (s : State) (p t : Nat) (session : Bool) :
    MemoriesGood (endValidate s p t session) ↔ MemoriesGood s := by
  unfold endValidate
  dsimp only
  split
  · simp
  · split <;> simp

theorem execConfigCommit_good (p : Part) {s : State} (h : MemoriesGood s) : OutcomeGood (execConfigCommit p s) := by
  unfold execConfigCommit
  refine .next (.ite h (serve_good h _ _ fun ws => needLock_good h _ _ ?_))
  extract_lets t session
  refine .ite (answer_good h ..) ?_
  split
  · exact answer_good h ..
  next a _ =>
  extract_lets s1
  have h1 : MemoriesGood s1 := (good_beginXfer ..).mpr h
  exact .ite ((good_endValidate ..).mpr h1) h1

@[simp] theorem good_stepValidate (s : State) (p t n : Nat) (session : Bool) :
    MemoriesGood (stepValidate s p t n session) ↔ MemoriesGood s := by
  simp [stepValidate]

theorem execBulkBoundary_good {s : State} (h : MemoriesGood s) : OutcomeGood (execBulkBoundary s) := by
  unfold execBulkBoundary
  refine .next ?_
  split
  · exact h
  next p _ =>
  extract_lets m
  split
  · exact h
  next x _ =>
  refine .ite h ?_
  extract_lets s1
  have h1 : MemoriesGood s1 := .ite (resumeHeld_good h p) (.ite (goOn_good h ..) h)
  split
  · exact .ite ((good_stepValidate ..).mpr h1) h1
  · exact h1

theorem execWinCtrlAttach_good (p : Part) (bus : Bus) (lane : LaneId) (data : Word) {s : State} (h : MemoriesGood s) :
    OutcomeGood (execWinCtrlAttach p bus lane data s) := .next (writeWinCtrl_good h ..)

theorem execWinCtrlDetach_good (p : Part) (data : Word) {s : State} (h : MemoriesGood s) : OutcomeGood (execWinCtrlDetach p data s) :=
  .next (winDetach_good h ..)

theorem execDetachComplete_good (p : Part) {s : State} (h : MemoriesGood s) : OutcomeGood (execDetachComplete p s) :=
  .next (.ite (finishDetach_good h p) h)

theorem execLinkGraceExpired_good (p : Part) {s : State} (h : MemoriesGood s) : OutcomeGood (execLinkGraceExpired p s) :=
  .next (.ite (startDetach_good h p) h)

theorem execRegisterWrite_good (p : Part) (slow : Bool) (addr size : Nat) (data : DWord) (via : Arrival) {s : State} (h : MemoriesGood s) :
    OutcomeGood (execRegisterWrite p slow addr size data via s) := by
  unfold execRegisterWrite
  exact .ite (.next ((good_writeSlowData ..).mpr ((good_writeSlowAddr ..).mpr h))) (.next (hostWrite_good h ..))

theorem execDmaCompletion_good (p : Part) (urgent ok : Bool) (status : Word) (data : List Byte) {s : State} (h : MemoriesGood s) :
    OutcomeGood (execDmaCompletion p urgent ok status data s) := by
  unfold execDmaCompletion
  extract_lets s1 m
  have h1 : MemoriesGood s1 := .ite h (resumeHeld_good h p)
  refine .next ?_
  split
  · exact h
  · refine .ite h (.ite (answer_good h1 ..) (.ite (.ite h1 (takeIn_good h1 ..)) (goOn_good ((good_updMb ..).mpr h1) ..)))

theorem thlTake_memoriesGood {s : State} (h : MemoriesGood s) (p : Nat) (rx : Rx) (sess seq : Nat) (k : ThlKind) (content tag : List Byte)
    {bad : State → State} {f : State → ThlSess → State} (hbad : ∀ s, MemoriesGood s → MemoriesGood (bad s))
    (hf : ∀ s t, MemoriesGood s → MemoriesGood (f s t)) : MemoriesGood (thlTake s p rx sess seq k content tag bad f) := by
  unfold thlTake
  extract_lets r
  have hr : MemoriesGood r.2 := (good_thlIn ..).mpr h
  clear_value r
  refine .ite hr ?_
  unfold thlAct
  extract_lets drop
  have hd : MemoriesGood drop := (good_setThl ..).mpr hr
  split
  · exact hr
  · exact hbad _ hd
  · exact hd
  · exact hf _ _ ((good_setThl ..).mpr hr)

theorem execThlData_good (p : Part) (rx : Rx) (sess seq cmdSeq offset : Nat) (data tag : List Byte) {s : State} (h : MemoriesGood s) :
    OutcomeGood (execThlData p rx sess seq cmdSeq offset data tag s) := by
  unfold execThlData
  extract_lets content
  refine .next (thlTake_memoriesGood h _ _ _ _ _ _ _ (fun s h => ?_) fun s t h => ?_)
  · split
    · exact answer_good h ..
    · exact h
  · split
    · exact h
    next urg _ =>
    extract_lets s1 m
    have h1 : MemoriesGood s1 := .ite h (resumeHeld_good h p)
    have ha : MemoriesGood (thlSend s1 p .ack (leBytes cmdSeq 1 ++ leBytes offset 4)) := (good_thlSend ..).mpr h1
    split
    · exact h1
    · exact .ite h1 (.ite ha (.ite h1 (takeIn_good ha ..)))

theorem execThlAck_good (p : Part) (rx : Rx) (sess seq cmdSeq offset : Nat) (tag : List Byte) {s : State} (h : MemoriesGood s) :
    OutcomeGood (execThlAck p rx sess seq cmdSeq offset tag s) := by
  unfold execThlAck
  refine .next (thlTake_memoriesGood h _ _ _ _ _ _ _ (fun s h => h) fun s t h => ?_)
  split
  · exact h
  next urg _ =>
  extract_lets s1 m
  have h1 : MemoriesGood s1 := .ite h (resumeHeld_good h p)
  split
  · exact h1
  · exact .ite h1 (goOn_good ((good_updMb ..).mpr h1) ..)

theorem execThlRegWrite_good (p : Part) (rx : Rx) (sess seq addr : Nat) (data : Word) (tag : List Byte) (dt : Nat) {s : State}
    (h : MemoriesGood s) : OutcomeGood (execThlRegWrite p rx sess seq addr data tag dt s) := by
  unfold execThlRegWrite
  refine .next (thlTake_memoriesGood h _ _ _ _ _ _ _ (fun s h => h) fun s t h => ?_)
  extract_lets l
  exact .ite (writeWinCtrl_good h ..) (.ite (windowWrite_good h ..) h)

theorem good_execCommitConfirm (s : State) : Canons (execCommitConfirm s) s := by
  unfold execCommitConfirm; split <;> simp

theorem good_execCommitConfirmTimeout (s : State) : Canons (execCommitConfirmTimeout s) s := by
  unfold execCommitConfirmTimeout
  dsimp only
  repeat' split
  all_goals simp

theorem execConfigApply_good {s : State} (h : MemoriesGood s) : OutcomeGood (execConfigApply s) := by
  unfold execConfigApply
  refine .next ?_
  split
  next c l _ _ =>
    refine .ite h ?_
    split
    · exact (good_commitFail ..).mpr h
    · extract_lets s1
      refine commitOk_good ?_ ..
      simp only [s1]
      split
      · exact applyConfig_good h _
      · exact applyProgram_good h _
      · exact applyAccess_good h _
  · exact h

theorem execTokenReply_good (l : LaneId) {s : State} (h : MemoriesGood s) : OutcomeGood (execTokenReply l s) := by
  unfold execTokenReply
  extract_lets v s1 s2
  refine .next ?_
  split
  · exact grantReceived_good h ..
  · have h2 : MemoriesGood s2 := by simpa [s2, s1] using h
    exact .ite ((good_goOffline ..).mpr h2) h2
  · exact h

theorem execPartnerBeaconLost_good (l : LaneId) {s : State} (h : MemoriesGood s) : OutcomeGood (execPartnerBeaconLost l s) := by
  unfold execPartnerBeaconLost
  refine .next (.ite ((good_askToken ..).mpr ((forgetImages_good ((good_unparkLane ..).mpr h)).keepSt ?_)) h)
  exact fun _ => rfl

theorem execTakeoverTick_good (l : LaneId) {s : State} (h : MemoriesGood s) : OutcomeGood (execTakeoverTick l s) := by
  unfold execTakeoverTick
  refine .next (.ite ((good_becomeSolo ..).mpr (loseCommands_good (h.keepSt ?_))) h)
  exact fun _ => rfl

@[simp] theorem good_exchange (s : State) (x y : Option SkResult) (us : Nat) : MemoriesGood (exchange s x y us) ↔ MemoriesGood s := by
  unfold exchange; split <;> simp

theorem execSkCycleEnd_good (x y : Option SkResult) (dt : Nat) {s : State} (h : MemoriesGood s) :
    OutcomeGood (execSkCycleEnd x y dt s) := by
  unfold execSkCycleEnd
  extract_lets s1 s2
  have h1 : MemoriesGood s1 := by
    refine h.keepSk ?_
    exact fun _ => rfl
  have h2 : MemoriesGood s2 := .ite ((good_exchange ..).mpr h1) h1
  refine .next (.ite h (publish_good (h2.keepSk ?_) dt))
  exact fun _ => rfl

theorem darkEntry_good {s : State} (h : MemoriesGood s) {dormant : State → State} (hd : ∀ s, MemoriesGood (dormant s) ↔ MemoriesGood s) :
    MemoriesGood (darkEntry s dormant) := by
  unfold darkEntry
  extract_lets s1 s2 s3 s4 s5 down s6
  have h2 : MemoriesGood s2 := (good_powerEvent ..).mpr ((good_noteUnnamed ..).mpr h)
  have h3 : MemoriesGood s3 := .foldl _ h2 fun s p h => .ite (finishDetach_good (startDetach_good h p) p) h
  have h5 : MemoriesGood s5 := (good_drainQueue ..).mpr ((hd _).mpr h3)
  clear_value s5
  have hdown {v : Lane} (hv : v.Canon) : (down v).Canon := ⟨hv.img, hv.frozen, hv.tmpl, nofun⟩
  have h6 : MemoriesGood s6 := by
    refine (memoriesGood_iff _).mpr ⟨hdown (h5.laneCanon .a), hdown (h5.laneCanon .b), fun e he => ?_, h5.skCanon, h5.stCanon⟩
    obtain ⟨_, _, rfl⟩ := List.mem_map.mp he
    exact Island.canon_default
  refine h6.keepSt ?_
  exact fun _ => rfl

theorem darkWake_good {s : State} (h : MemoriesGood s) (w : WakeSource) : MemoriesGood (darkWake s w) := by
  unfold darkWake
  extract_lets pairOk s1 s2 s3
  have h1 : MemoriesGood s1 := by
    simp only [s1]
    split
    · exact h
    · exact (good_emit ..).mpr ((good_emit ..).mpr h)
  have h3 : MemoriesGood s3 := (good_bothLanes _ _ fun s l => by simp).mpr ((good_powerIslands ..).mpr h1)
  refine .ite h (.ite (h.keepSt ?_) (.ite (h3.keepSt ?_) h))
  · exact fun _ => rfl
  · exact fun _ => rfl

theorem darkEdge_good {s : State} (h : MemoriesGood s) : MemoriesGood (darkEdge s) := by
  unfold darkEdge
  extract_lets w s1
  have h1 : MemoriesGood s1 := darkEntry_good h fun s => good_skDormant s
  refine .ite h (.ite (h.keepSt ?_) ?_)
  · exact fun _ => rfl
  · clear_value w s1
    cases w with
    | none => exact h1
    | some w => exact darkWake_good h1 w

theorem execTickEdge_good (skewNs : Int) {s : State} (h : MemoriesGood s) : OutcomeGood (execTickEdge skewNs s) := by
  unfold execTickEdge
  extract_lets l was
  refine .next (.ite h ?_)
  split
  next d s1 e =>
  have h1 : MemoriesGood s1 := (congrArg (fun x => MemoriesGood x.2) e).mp ((good_takeStep ..).mpr ((good_dropStep ..).mpr h))
  extract_lets g s2 s3 hold4 s4 s5 s6
  have h2 : MemoriesGood s2 := .ite ((good_mk ..).mpr h1) ((good_raiseUnnamed ..).mpr ((good_mk ..).mpr h1))
  have h3 : MemoriesGood s3 := (good_bothLanes _ _ fun s l => by simp).mpr ((good_partsEdge ..).mpr ((good_lanesDiffer ..).mpr h2))
  have h4 : MemoriesGood s4 := by
    refine (good_endsEdge ..).mpr ((good_stationEdge ..).mpr ((good_decideRoleAsks ..).mpr ?_))
    exact (good_bothLanes _ _ fun s l => good_keepLevels s l).mpr h3
  have h5 : MemoriesGood s5 := (good_bothLanes _ _ fun s l => by simp).mpr h4
  have h6 : MemoriesGood s6 := (good_powerEdge ..).mpr ((good_batchEdge ..).mpr h5)
  refine darkEdge_good ((good_litEdge ..).mpr ?_)
  exact (good_bothLanes _ _ fun s l => by simp).mpr h6

theorem execDarkWake_good (w : WakeSource) {s : State} (h : MemoriesGood s) : OutcomeGood (execDarkWake w s) := .next (darkWake_good h w)

theorem fireAlarm_good {s : State} (h : MemoriesGood s) (n : Nat) : MemoriesGood (fireAlarm s n) := by
  unfold fireAlarm
  extract_lets s1 s2
  have h2 : MemoriesGood s2 := by simpa [s2, s1] using h
  exact darkWake_good h2 _

theorem execRtcSecond_good {s : State} (h : MemoriesGood s) : OutcomeGood (execRtcSecond s) := by
  unfold execRtcSecond
  extract_lets on s1 r s2
  have h1 : MemoriesGood s1 := .ite ((good_State_updRtc ..).mpr h) h
  have h2 : MemoriesGood s2 := .ite (fireAlarm_good h1 1) h1
  exact .next (.ite h1 (.ite (fireAlarm_good h2 2) h2))

theorem execPanelKey_good {s : State} (h : MemoriesGood s) : OutcomeGood (execPanelKey s) := by
  unfold execPanelKey
  extract_lets cycle s1 s2
  have h2 : MemoriesGood s2 := by simpa [s2, s1] using h
  exact .next (.ite (darkWake_good h .key) (.ite h ((good_pnlOpen ..).mpr h2)))

theorem good_execSkKernelFault (code : Nat) (s : State) : Canons (execSkKernelFault code s) s := by
  simp [execSkKernelFault]

theorem good_execSkPeriodicSelftest (ok : Bool) (code : Nat) (s : State) : Canons (execSkPeriodicSelftest ok code s) s := by
  simp [execSkPeriodicSelftest]

theorem good_execSkSelftestDone (ok : Bool) (code : Nat) (s : State) : Canons (execSkSelftestDone ok code s) s := by
  unfold execSkSelftestDone
  dsimp only
  repeat' split
  all_goals simp

theorem good_execSkImageForwarded (s : State) : Canons (execSkImageForwarded s) s := by
  unfold execSkImageForwarded
  repeat' split
  all_goals simp

theorem execSkVerifyDone_good (execOk : Bool) {s : State} (h : MemoriesGood s) : OutcomeGood (execSkVerifyDone execOk s) := by
  unfold execSkVerifyDone
  refine .next ?_
  split
  · split
    · exact (good_verifyFails ..).mpr h
    · exact .ite (sealCheck_good h _) ((good_verifyFails ..).mpr h)
  · exact h

theorem execLogicPowerGood_good (l : LaneId) (cid : BitVec 4) (feedMv mac : Nat) (map : Option (List (Nat × Fin 4))) {s : State}
    (h : MemoriesGood s) : OutcomeGood (execLogicPowerGood l cid feedMv mac map s) := by
  have hb := bareImage_wf
  unfold execLogicPowerGood
  generalize bareImage = m at hb ⊢
  extract_lets dark both s1 s2 s3 s4 s5
  have h1 : MemoriesGood s1 := .ite (coldStart_good h _) h
  have h2 : MemoriesGood s2 := by
    refine .ite (h1.updLane _ fun v => ?_) h1
    split
    · exact Lane.canon_of_mems rfl hb hb Mem.wf_empty nofun
    · exact v
  have h4 : MemoriesGood s4 := (good_updSvc ..).mpr ((good_powerIslands ..).mpr h2)
  have h5 : MemoriesGood s5 := .ite ((good_panelPowerUp ..).mpr h4) h4
  clear_value s5
  exact .ite (.next h) (.next (h5.updLane l fun _ => Lane.canon_of_mems rfl hb hb Mem.wf_empty nofun))

theorem execPowerFailure_good (bankMv feedAMv feedBMv : Nat) {s : State} (h : MemoriesGood s) :
    OutcomeGood (execPowerFailure bankMv feedAMv feedBMv s) := by
  unfold execPowerFailure
  extract_lets s1 s2 s3 s4
  have h2 : MemoriesGood s2 := by simpa [s2, s1] using h
  have h3 : MemoriesGood s3 := h2.bothLanes fun s l h => dropUncarried_good h l
  have h4 : MemoriesGood s4 := by simpa [s4] using h3
  refine .next (.ite h (.ite (powerOff_good _) (.ite h4 (.ite (pfStop_good h4 4 0) (h4.keepSt ?_)))))
  exact fun _ => rfl

theorem execHoldupOff_good {s : State} (h : MemoriesGood s) : OutcomeGood (execHoldupOff s) :=
  .next (.ite (powerOff_good s) h)

theorem execCartRemoved_good {s : State} (h : MemoriesGood s) : OutcomeGood (execCartRemoved s) := by
  unfold execCartRemoved
  extract_lets s1 held s2 s3
  have h3 : MemoriesGood s3 := by simpa [s3, s2, s1] using h
  clear_value s3
  exact .next (.ite h (.ite (powerOff_good _) (.ite (endHoldup_good h3) (.ite ((good_State_updRtc ..).mpr h3) (.ite (pfFinish_good h3) h3)))))

end Sys2Proof.Machine
end

section
/-! Every command keeps the memories canonical (05, 06, 07). -/

namespace Sys2Proof.Machine

theorem exec_memoriesGood (i : Instr) {s : State} (h : MemoriesGood s) : OutcomeGood (exec i s) := by
  cases i with
  | registerWrite => exact execRegisterWrite_good (h := h) ..
  | winCtrlAttach => exact execWinCtrlAttach_good (h := h) ..
  | winCtrlDetach => exact execWinCtrlDetach_good (h := h) ..
  | detachComplete => exact execDetachComplete_good (h := h) ..
  | evStatusClear => exact (good_execEvStatusClear ..).good h
  | evIndexWrite => exact (good_execEvIndexWrite ..).good h
  | latTolWrite => exact (good_execLatTolWrite ..).good h
  | mbDoorbell => exact (good_execMbDoorbell ..).good h
  | wideSelWrite => exact (good_execWideSelWrite ..).good h
  | wideCaptureDone => exact (good_execWideCaptureDone ..).good h
  | wideD3Read => exact (good_execWideD3Read ..).good h
  | slowReadStart => exact (good_execSlowReadStart ..).good h
  | slowWritePost => exact (good_execSlowWritePost ..).good h
  | slowAccessDone => exact (good_execSlowAccessDone ..).good h
  | attach => exact execAttach_good (h := h) ..
  | sessionOpen => exact (good_execSessionOpen ..).good h
  | sessionClose => exact (good_execSessionClose ..).good h
  | lockAcquire => exact (good_execLockAcquire ..).good h
  | lockRelease => exact (good_execLockRelease ..).good h
  | eventSubscribe => exact (good_execEventSubscribe ..).good h
  | eventRead => exact (good_execEventRead ..).good h
  | statusGet => exact (good_execStatusGet ..).good h
  | configBegin => exact execConfigBegin_good (h := h) ..
  | configChunk => exact (good_execConfigChunk ..).good h
  | configCommit => exact execConfigCommit_good (h := h) ..
  | configAbort => exact execConfigAbort_good (h := h) ..
  | start => exact execStart_good (h := h) ..
  | stop => exact (good_execStop ..).good h
  | endsChange => exact (good_execEndsChange ..).good h
  | safeShutdown => exact execSafeShutdown_good (h := h) ..
  | valuePatch => exact (good_execValuePatch ..).good h
  | loopMode => exact (good_execLoopMode ..).good h
  | loopParam => exact (good_execLoopParam ..).good h
  | imageRead => exact (good_execImageRead ..).good h
  | recorderRead => exact (good_execRecorderRead ..).good h
  | recorderClear => exact (good_execRecorderClear ..).good h
  | flowStats => exact (good_execFlowStats ..).good h
  | retainedRead => exact (good_execRetainedRead ..).good h
  | bulkBoundary => exact execBulkBoundary_good (h := h) ..
  | dmaCompletion => exact execDmaCompletion_good (h := h) ..
  | dmaCompletionTimeout => exact (good_execDmaCompletionTimeout ..).good h
  | hostLinkLost => exact (good_execHostLinkLost ..).good h
  | linkGraceExpired => exact execLinkGraceExpired_good (h := h) ..
  | sessionIdleTimeout => exact (good_execSessionIdleTimeout ..).good h
  | authLockoutEnd => exact (good_execAuthLockoutEnd ..).good h
  | thlHello => exact (good_execThlHello ..).good h
  | thlRegRead => exact (good_execThlRegRead ..).good h
  | thlRegWrite => exact execThlRegWrite_good (h := h) ..
  | thlData => exact execThlData_good (h := h) ..
  | thlAck => exact execThlAck_good (h := h) ..
  | thlStalled => exact (good_execThlStalled ..).good h
  | logicPowerGood => exact execLogicPowerGood_good (h := h) ..
  | windowUp => exact (good_execWindowUp ..).good h
  | clockQualification => exact (good_execClockQualification ..).good h
  | thlBootstrapStart => exact (good_execThlBootstrapStart ..).good h
  | rolesStep => exact (good_execRolesStep ..).good h
  | roleWaitTimeout => exact (good_execRoleWaitTimeout ..).good h
  | startupComplete => exact (good_execStartupComplete ..).good h
  | startupStepFail => exact (good_execStartupStepFail ..).good h
  | tickEdge => exact execTickEdge_good (h := h) ..
  | configApply => exact execConfigApply_good (h := h) ..
  | commitConfirm => exact (good_execCommitConfirm ..).good h
  | commitConfirmTimeout => exact (good_execCommitConfirmTimeout ..).good h
  | inputSwap => exact execInputSwap_good (h := h) ..
  | mx1Swap => exact execMx1Swap_good (h := h) ..
  | beWindowClose => exact (good_execBeWindowClose ..).good h
  | outputCutoff => exact execOutputCutoff_good (h := h) ..
  | islandEdge => exact execIslandEdge_good (h := h) ..
  | edgeMarker => exact (good_execEdgeMarker ..).good h
  | islandInputFrame => exact execIslandInputFrame_good (h := h) ..
  | islandOutputFrame => exact execIslandOutputFrame_good (h := h) ..
  | islandWatchdogExpired => exact (good_execIslandWatchdogExpired ..).good h
  | tokenRequest => exact (good_execTokenRequest ..).good h
  | tokenRequestRetry => exact (good_execTokenRequestRetry ..).good h
  | tokenReply => exact execTokenReply_good (h := h) ..
  | grantRecord => exact (good_execGrantRecord ..).good h
  | releaseWord => exact (good_execReleaseWord ..).good h
  | shotClockExpired => exact (good_execShotClockExpired ..).good h
  | uncorrectableError => exact execUncorrectableError_good (h := h) ..
  | beNop => exact execBeNop_good (h := h) ..
  | beMov => exact beAlu_good (h := h) ..
  | beMovi => exact beAlu_good (h := h) ..
  | beLd => exact execBeLd_good (h := h) ..
  | beSt => exact execBeSt_good (h := h) ..
  | beLda => exact execBeLda_good (h := h) ..
  | beIdxc => exact execBeIdxc_good (h := h) ..
  | beItpl => exact execBeItpl_good (h := h) ..
  | beAdd => exact beAlu_good (h := h) ..
  | beSub => exact beAlu_good (h := h) ..
  | beAdds => exact beAlu_good (h := h) ..
  | beSubs => exact beAlu_good (h := h) ..
  | beMul => exact beAlu_good (h := h) ..
  | beDiv => exact beAlu_good (h := h) ..
  | beMod => exact beAlu_good (h := h) ..
  | beNeg => exact beAlu_good (h := h) ..
  | beAbs => exact beAlu_good (h := h) ..
  | beMin => exact beAlu_good (h := h) ..
  | beMax => exact beAlu_good (h := h) ..
  | beSqrt => exact beAlu_good (h := h) ..
  | beCvt => exact beAlu_good (h := h) ..
  | beAnd => exact beAlu_good (h := h) ..
  | beOr => exact beAlu_good (h := h) ..
  | beXor => exact beAlu_good (h := h) ..
  | beNot => exact beAlu_good (h := h) ..
  | beShl => exact beAlu_good (h := h) ..
  | beShr => exact beAlu_good (h := h) ..
  | beCeq => exact beAlu_good (h := h) ..
  | beCne => exact beAlu_good (h := h) ..
  | beClt => exact beAlu_good (h := h) ..
  | beCle => exact beAlu_good (h := h) ..
  | beSel => exact beAlu_good (h := h) ..
  | beBra => exact execBeBra_good (h := h) ..
  | beBrz => exact execBeBrz_good (h := h) ..
  | beBrnz => exact execBeBrnz_good (h := h) ..
  | beLoop => exact execBeLoop_good (h := h) ..
  | beEndl => exact execBeEndl_good (h := h) ..
  | beCallb => exact execBeCallb_good (h := h) ..
  | beRetb => exact execBeRetb_good (h := h) ..
  | beEnd => exact execBeEnd_good (h := h) ..
  | loopQbadExpired => exact (good_execLoopQbadExpired ..).good h
  | loopFeExpired => exact (good_execLoopFeExpired ..).good h
  | chainStaleExpired => exact (good_execChainStaleExpired ..).good h
  | chainHoldExpired => exact (good_execChainHoldExpired ..).good h
  | chainFadeEnd => exact (good_execChainFadeEnd ..).good h
  | chainSettleEnd => exact (good_execChainSettleEnd ..).good h
  | heartbeatWord => exact execHeartbeatWord_good (h := h) ..
  | beaconExtinguish => exact (good_execBeaconExtinguish ..).good h
  | partnerFailureDeclared => exact (good_execPartnerFailureDeclared ..).good h
  | pathFault => exact (good_execPathFault ..).good h
  | takeoverTick => exact execTakeoverTick_good (h := h) ..
  | snapshotPiece => exact (good_execSnapshotPiece ..).good h
  | snapshotDiscard => exact judgeSnapshot_good h _
  | endsIntervalDue => exact (good_execEndsIntervalDue ..).good h
  | endsDeferredStart => exact (good_execEndsDeferredStart ..).good h
  | endsSwapEdge => exact (good_execEndsSwapEdge ..).good h
  | selfCheckFail => exact (good_execSelfCheckFail ..).good h
  | reintStart => exact (good_execReintStart ..).good h
  | reintCopyClosed => exact execReintCopyClosed_good (h := h) ..
  | reintCopyTimeout => exact (good_execReintCopyTimeout ..).good h
  | reintRetryDue => exact (good_execReintRetryDue ..).good h
  | reintStandby => exact (good_execReintStandby ..).good h
  | flowLaunch => exact (good_execFlowLaunch ..).good h
  | flowFrameReceived => exact (good_execFlowFrameReceived ..).good h
  | flowDown => exact execFlowDown_good (h := h) ..
  | udpbcDatagram => exact (good_execUdpbcDatagram ..).good h
  | ptpSync => exact (good_execPtpSync ..).good h
  | ptpAnnounce => exact (good_execPtpAnnounce ..).good h
  | ptpDelayMessage => exact (good_execPtpDelayMessage ..).good h
  | announceTimeout => exact (good_execAnnounceTimeout ..).good h
  | holdoverExpired => exact (good_execHoldoverExpired ..).good h
  | prpSupervisionSend => exact (good_execPrpSupervisionSend ..).good h
  | arpIcmpFrame => exact (good_execArpIcmpFrame ..).good h
  | phyLinkChange => exact (good_execPhyLinkChange ..).good h
  | canFrameReceived => exact (good_execCanFrameReceived ..).good h
  | canFrameTxDone => exact (good_execCanFrameTxDone ..).good h
  | canError => exact (good_execCanError ..).good h
  | canBusoffRecovered => exact (good_execCanBusoffRecovered ..).good h
  | canSleepRequest => exact (good_execCanSleepRequest ..).good h
  | canWakeRequest => exact (good_execCanWakeRequest ..).good h
  | canRecoverRequest => exact (good_execCanRecoverRequest ..).good h
  | canBusWake => exact (good_execCanBusWake ..).good h
  | scRateDetected => exact (good_execScRateDetected ..).good h
  | scNoTraffic => exact (good_execScNoTraffic ..).good h
  | dioOverload => exact (good_execDioOverload ..).good h
  | dioAutoRetry => exact (good_execDioAutoRetry ..).good h
  | dioGroupTrip => exact (good_execDioGroupTrip ..).good h
  | fieldSupplyLow => exact (good_execFieldSupplyLow ..).good h
  | fieldSupplyRestored => exact (good_execFieldSupplyRestored ..).good h
  | aiSupplyRetry => exact (good_execAiSupplyRetry ..).good h
  | encoderZEdge => exact (good_execEncoderZEdge ..).good h
  | rs422Sentence => exact (good_execRs422Sentence ..).good h
  | rs422TxDone => exact (good_execRs422TxDone ..).good h
  | skCycleStart => exact (good_execSkCycleStart ..).good h
  | skCycleEnd => exact execSkCycleEnd_good (h := h) ..
  | skKernelFault => exact (good_execSkKernelFault ..).good h
  | skSelftestDone => exact (good_execSkSelftestDone ..).good h
  | skImageForwarded => exact (good_execSkImageForwarded ..).good h
  | skVerifyDone => exact execSkVerifyDone_good (h := h) ..
  | skPeriodicSelftest => exact (good_execSkPeriodicSelftest ..).good h
  | testSourceOverload => exact (good_execTestSourceOverload ..).good h
  | testSourceRetry => exact (good_execTestSourceRetry ..).good h
  | discTimerExpired => exact (good_execDiscTimerExpired ..).good h
  | proofTestExpired => exact (good_execProofTestExpired ..).good h
  | proofIntervalReached => exact (good_execProofIntervalReached ..).good h
  | offPulse => exact (good_execOffPulse _ false _ _).good h
  | laneWatchdogExpired => exact (good_execLaneWatchdogExpired ..).good h
  | connTimeExpired => exact (good_execConnTimeExpired ..).good h
  | tcxoFailure => exact (good_execTcxoFailure ..).good h
  | rcFault => exact (good_execRcFault ..).good h
  | rcQualified => exact (good_execRcQualified ..).good h
  | rcQualTimeout => exact execRcQualTimeout_good (h := h) ..
  | tcxoReturn => exact (good_execTcxoReturn ..).good h
  | voltageStepDone => exact (good_execVoltageStepDone ..).good h
  | gateBusyTimeout => exact (good_execGateBusyTimeout ..).good h
  | powerDwellExpired => exact (good_execPowerDwellExpired ..).good h
  | darkWake => exact execDarkWake_good (h := h) ..
  | clkoutSelWrite => exact (good_execClkoutSelWrite 0 ..).good h
  | clkoutStatusClear => exact (good_execClkoutStatusClear 0 ..).good h
  | recordArrival => exact (good_execRecordArrival ..).good h
  | floodWindowEnd => exact (good_execFloodWindowEnd ..).good h
  | optimeStep => exact (good_execOptimeStep ..).good h
  | timeAnchorDue => exact (good_execTimeAnchorDue ..).good h
  | retainPeriodDue => exact (good_execRetainPeriodDue ..).good h
  | bankWriteDone => exact execBankWriteDone_good (h := h) ..
  | serviceDomainLost => exact (good_execServiceDomainLost ..).good h
  | serviceDomainReturned => exact (good_execServiceDomainReturned ..).good h
  | rtcTimeRead => exact (good_execRtcTimeRead ..).good h
  | rtcDateRead => exact (good_execRtcDateRead ..).good h
  | rtcCommit => exact (good_execRtcCommit ..).good h
  | rtcStatusClear => exact (good_execRtcStatusClear ..).good h
  | rtcAlarmWrite => exact (good_execRtcAlarmWrite ..).good h
  | rtcTrimWrite => exact (good_execRtcTrimWrite ..).good h
  | rtcSecond => exact execRtcSecond_good (h := h) ..
  | laneFeedLost => exact execLaneFeedLost_good (h := h) ..
  | laneFeedRestored => exact execLaneFeedRestored_good (h := h) ..
  | powerFailure => exact execPowerFailure_good (h := h) ..
  | rideThroughEnd => exact execRideThroughEnd_good (h := h) ..
  | holdupOff => exact execHoldupOff_good (h := h) ..
  | cartInserted => exact (good_execCartInserted ..).good h
  | cartRemoved => exact execCartRemoved_good (h := h) ..
  | cartMeasNow => exact (good_execCartMeasNow ..).good h
  | cartMeasDue => exact (good_execCartMeasDue ..).good h
  | cartMeasDone => exact (good_execCartMeasDone ..).good h
  | cartHour => exact (good_execCartHour ..).good h
  | cartStatusClear => exact (good_execCartStatusClear ..).good h
  | pnlShowWrite => exact (good_execPnlShowWrite ..).good h
  | pnlLineWrite => exact (good_execPnlLineWrite ..).good h
  | pnlDataWrite => exact (good_execPnlDataWrite ..).good h
  | pnlCommit => exact (good_execPnlCommit ..).good h
  | pnlStatusClear => exact (good_execPnlStatusClear ..).good h
  | panelFrame => exact (good_execPanelFrame ..).good h
  | panelPassDone => exact (good_execPanelPassDone ..).good h
  | panelIdle => exact (good_execPanelIdle ..).good h
  | panelKey => exact execPanelKey_good (h := h) ..
  | safetyInputSample => exact (good_execSafetyInputSample ..).good h
  | testSourcePulse => exact (good_execTestSourcePulse ..).good h
  | safetyOutputReadback => exact (good_execSafetyOutputReadback ..).good h
  | encoderEdge => exact (good_execEncoderEdge ..).good h
  | ssiFrameComplete => exact execSsiFrameComplete_good (h := h) ..
  | lockstepMismatch => exact execLockstepMismatch_good (h := h) ..
  | scrubberRead => exact execScrubberRead_good (h := h) ..
  | prpSupervisionFrame => exact (good_execPrpSupervisionFrame ..).good h
  | prpSupervisionLost => exact (good_execPrpSupervisionLost ..).good h
  | partnerBeaconLost => exact execPartnerBeaconLost_good (h := h) ..
  | analogueCalibrationDone => exact (good_execAnalogueCalibrationDone ..).good h
  | bayEmptyRepeat => exact (good_execBayEmptyRepeat ..).good h

/-- Settles O6: every row and every bundle that does not decode keeps the memories canonical, and the queue is not one of them. -/
theorem memoriesStayCanonical : Obligations.MemoriesStayCanonical := by
  unfold Obligations.MemoriesStayCanonical
  intro s t h ht
  have good {o : Host.Outcome State Fault Refusal} (ho : step s = o) (hg : OutcomeGood o) : MemoriesGood t := by
    rw [← ho, ht] at hg
    exact hg
  obtain ⟨c, r, -, he⟩ | ⟨-, he | ⟨c, he⟩ | ⟨l, he⟩⟩ := step_cases s
  · have hr : MemoriesGood { s with pending := r } := (memoriesGood_congr (s := s) (t := { s with pending := r }) rfl rfl rfl rfl rfl).mpr h
    exact good he (exec_memoriesGood c hr)
  · exact good he h
  · exact good he (exec_memoriesGood c h)
  · exact good he ((good_illegalBundle ..).mpr h)

end Sys2Proof.Machine
end
